-- ==== Sys2Proof/Word.lean ====
section
/-! DEFINITION. The word types of the model (R7: bit 0 is the least significant bit) and the plain list and byte
helpers that carry no rule of their own. -/

namespace Sys2Proof

/-- A byte. -/
abbrev Byte := BitVec 8
/-- A 32-bit word: a register (R8), a scalar lane register (R83). -/
abbrev Word := BitVec 32
/-- A run of bytes in the order of their addresses or of their arrival. -/
abbrev Bytes := List (BitVec 8)
/-- A sparse table: key and value pairs, keys strictly rising. -/
abbrev Tab (α : Type) := List (Nat × α)

end Sys2Proof
end

