-- ==== Sys2Proof/Machine/Context.lean ====
section
/-! DEFINITION. Plain data of a channel's context and of a trunk peer: what State holds of them and what COPY and SYNC
frames carry (R106 to R223, R430 to R435). -/

namespace Sys2Proof.Machine

/-- Canceller states (R121, Table 5). -/
inductive EcState where
  | off | acquire | adapt | hold | frozen | toneDisabled
  deriving DecidableEq, Repr

/-- Cell states (R170, Table 4) of a cell that has a record or has been passed by decoding; a cell with neither is EMPTY. -/
inductive CellState where
  | held | decoded | guessed | evicted
  deriving DecidableEq, Repr

/-- A canceller window (R111). -/
structure Window where
  /-- start lag in ms (R111). -/
  startMs : Nat := 0
  /-- length in ms (R111). -/
  lenMs : Nat := 0
  /-- units of 16 ms it holds (R111). -/
  units : Nat := 1
  /-- peak correlation within its lags, in 1/10,000 (R113). -/
  peak : Nat := 0
  /-- consecutive ticks with the peak below 0.05 (R113). -/
  weak : Nat := 0
  /-- its taps in binary32, by rising lag (R114, R115). -/
  taps : List (BitVec 32) := []
  /-- the reference samples that it shows for the tick, newest first, one tick more than its length (R123). -/
  slice : List Int := []
  /-- the tick of new samples that was requested for the coming tick (R122, R123). -/
  next : Option (List Int) := none
  /-- the gains of its groups of 8 taps, binary32 (R115, R123). -/
  gains : List (BitVec 32) := []
  /-- smoothed power of the reference samples that entered it, binary32, full scale 1.0 (R116). -/
  power : BitVec 32 := 0
  deriving DecidableEq, Repr

/-- The delay finder's state: the decimated reference, newest first, and the smoothed correlations and energies in units of
2^-16. -/
structure Finder where
  /-- the last 512 decimated reference samples, newest first (R109). -/
  ref : List Int := []
  /-- smoothed correlation C(l) of each lag l in ms from 0 on (R109). -/
  corr : List Int := []
  /-- smoothed energy of the near end (R109). -/
  en : Int := 0
  /-- smoothed energy of the far end (R109). -/
  ef : Int := 0
  deriving DecidableEq, Repr

/-- A delay-finder candidate (R110). -/
structure Candidate where
  /-- lag in ms (R110). -/
  lag : Nat := 0
  /-- ticks it has stayed a candidate (R110). -/
  age : Nat := 0
  /-- its correlation, in 1/10,000 (R110). -/
  rho : Nat := 0
  deriving DecidableEq, Repr

/-- Echo canceller of a channel (R106 to R131). -/
structure Ec where
  /-- state of the last completed tick, ec_state (R121). -/
  state : EcState := .acquire
  /-- placed windows, by rising start lag (R111). -/
  windows : List Window := []
  /-- candidates with an age (R110). -/
  cands : List Candidate := []
  /-- double-talk hangover ticks left (R117). -/
  hangover : Nat := 0
  /-- the canceller counted as in double talk in the last tick (R117). -/
  dtNow : Bool := false
  /-- the far end was active in the last tick (R116). -/
  farActive : Bool := false
  /-- TONE_DISABLED by a tone (R120). -/
  toneDisabled : Bool := false
  /-- a tone condition waiting for the boundary: side (far), tone alone (R120). -/
  toneSeen : Option (Bool × Bool) := none
  /-- consecutive ticks with both signals below -36 dBm0 (R120). -/
  quiet : Nat := 0
  /-- consecutive single-talk ticks with the residual more than 3 dB above the input (R125). -/
  diverge : Nat := 0
  /-- comfort-noise generator state (R119). -/
  seed : Word := 0
  /-- tag of the comfort noise's linear-prediction fit (R119). -/
  fit : Word := 0
  /-- consecutive ticks with the tone of R120 in the near-end input (R120). -/
  toneNear : Nat := 0
  /-- consecutive ticks with the tone of R120 in the far-end reference (R120). -/
  toneFar : Nat := 0
  /-- smoothed near-end levels of the last 2,000 ticks with the far end inactive, newest first; the lowest is the background
  estimate, 0.1 dBm0 (R119). -/
  bgs : List Int := []
  /-- the NLP was active in the last tick (R118). -/
  nlp : Bool := false
  /-- the level of the comfort noise that left in the last tick, 0.1 dBm0 (R119). -/
  noise : Option Int := none
  /-- the delay finder (R109). -/
  finder : Finder := {}
  /-- the local ring: the last 80 ms of reference, newest first (R123). -/
  ring : List Int := []
  /-- smoothed power of the near-end input, binary32 (R128). -/
  near : BitVec 32 := 0
  /-- smoothed power of the residual, binary32 (R118, R128). -/
  resid : BitVec 32 := 0
  /-- windows, by number, whose slice for the coming tick was lost in its transfer (R124). -/
  lost : List Nat := []
  deriving DecidableEq, Repr

/-- The audio of a tick (R137): samples at 8 or 16 kHz, and the 8 to 12 kHz band of Opus at 24 kHz. -/
structure Sound where
  /-- samples of the tick, 16-bit (R115, R137). -/
  base : List Int := []
  /-- samples of the upper band; empty where there is none (R108, R137). -/
  upper : List Int := []
  deriving DecidableEq, Repr

/-- A cell of a store room's ring (R166, R170). -/
structure Cell where
  /-- cell state (R170). -/
  st : CellState := .held
  /-- SID and continuation flags (R166). -/
  flags : Nat := 0
  /-- units present, bit i for unit i; Opus: number of pieces (R166). -/
  units : Nat := 0
  /-- payload bytes (R166). -/
  data : Bytes := []
  /-- codec of the payload: the law of its G.711 codes (R138). -/
  codec : Nat := 0
  /-- provisional audio, tick by tick, once it is decoded or guessed (R170, R178). -/
  pcm : List Sound := []
  deriving DecidableEq, Repr

/-- A notice of a frame part waiting for the lane (R164, R169). -/
structure Part where
  /-- arrival tick (R168). -/
  arrival : Nat := 0
  /-- media position of its first unit (R167). -/
  pos : Word := 0
  /-- units present (R169). -/
  units : Nat := 0
  /-- units it covers, for splitting at cells (R166). -/
  len : Nat := 0
  /-- SID frame (R166). -/
  sid : Bool := false
  /-- codec whose layout it has (R182). -/
  codec : Nat := 0
  /-- payload (R166). -/
  data : Bytes := []
  deriving DecidableEq, Repr

/-- An entry of the event list (R164). -/
structure EvItem where
  /-- arrival tick (R24). -/
  arrival : Nat := 0
  /-- media position of the event's start (R164). -/
  pos : Word := 0
  /-- tone code of Table 6 (R153). -/
  code : Nat := 0
  /-- level as -dBm0 (R153). -/
  volume : Nat := 0
  /-- duration reported, RTP clock units (R153). -/
  dur : Nat := 0
  /-- the end was received (R153). -/
  ended : Bool := false
  deriving DecidableEq, Repr

/-- A checkpoint of a leg's decoder and detectors (R173). -/
structure Checkpoint where
  /-- its boundary: the cell that follows it (R173). -/
  cell : Int := 0
  /-- the tone that the detectors hold (R173). -/
  tone : Nat := 0
  /-- tag of the decoder's state (free value: log entry 30) (R173). -/
  dec : Nat := 0
  deriving DecidableEq, Repr

/-- Store room of a packet leg (R164 to R189). -/
structure StoreRoom where
  /-- a stream is running (R169). -/
  running : Bool := false
  /-- no stream has started since activation (R183). -/
  activated : Bool := true
  /-- media position of cell K + 1 (R167). -/
  kPos : Word := 0
  /-- K, the last committed cell (R167). -/
  k : Int := -1
  /-- write position (R169). -/
  w : Int := 0
  /-- frontier (R172). -/
  f : Int := -1
  /-- rewind mark, a boundary (R176). -/
  mark : Int := 0
  /-- checkpoints, by rising boundary, at most five (R173). -/
  ckpts : List Checkpoint := []
  /-- P(K + 1), the playout boundary of cell K + 1 (R168). -/
  pNext : Nat := 0
  /-- playout delay D in force (R168). -/
  d : Nat := 40
  /-- target D (R180). -/
  target : Nat := 40
  /-- cells above K, keyed by cell number + 2^31 (R165). -/
  cells : Tab Cell := []
  /-- consecutive parts decided under row 2 (R184). -/
  oow : Nat := 0
  /-- first tick of the adaptation window (R180). -/
  winStart : Nat := 0
  /-- slacks entered in the window (R180). -/
  slacks : List Int := []
  /-- the last frame before K + 1 in media order is a SID frame (R170). -/
  lastSid : Bool := false
  /-- ticks of fill between the end of the last committed cell and the next cell (R181, R183). -/
  fill : Nat := 0
  /-- notices waiting, oldest first (R186). -/
  parts : List Part := []
  /-- event list, by media position, at most 16 (R164). -/
  events : List EvItem := []
  /-- event packets accepted and waiting for their tick, oldest first (R24, R153). -/
  evIn : List EvItem := []
  /-- committed audio by the tick that uses it (R168). -/
  out : List (Nat × Sound) := []
  /-- a placement overtook the rewind mark in the last tick (R176). -/
  overtook : Bool := false
  /-- ticks of the last committed seam cell that a lowering may still remove (R181). -/
  seam : Nat := 0
  deriving DecidableEq, Repr

/-- Tone generator playing on a leg (R149). -/
structure Gen where
  /-- tone code of Table 6 (R149). -/
  code : Nat := 0
  /-- dBm0 (R149). -/
  level : Int := 0
  /-- frequencies of the tone in Hz (R149). -/
  freqs : List Nat := []
  /-- a reversing tone has its phase reversed (R149). -/
  flipped : Bool := false
  /-- on time, ticks (R149). -/
  on : Nat := 0
  /-- off time, ticks (R149). -/
  off : Nat := 0
  /-- cycles left; none repeats until stopped (R149). -/
  left : Option Nat := none
  /-- ticks into the cycle (R149). -/
  phase : Nat := 0
  /-- timestamp of the received event that it plays (R153). -/
  event : Option Word := none
  deriving DecidableEq, Repr

/-- A telephone event being sent on a leg (R151). -/
structure EvTx where
  /-- tone code of Table 6 (R151). -/
  code : Nat := 0
  /-- payload type in force when the event began (R151, R161). -/
  pt : Nat := 0
  /-- timestamp of the start (R151). -/
  start : Word := 0
  /-- duration so far, clock units (R151). -/
  dur : Nat := 0
  /-- volume field (R151). -/
  volume : Nat := 0
  /-- the detector reported the end (R151). -/
  ended : Bool := false
  /-- end packets still to send (R151). -/
  ends : Nat := 3
  /-- ticks since the last packet of the event (R151). -/
  since : Nat := 0
  deriving DecidableEq, Repr

/-- A detector report held until commit (R147). -/
structure Report where
  /-- cell whose commit releases it (R147). -/
  cell : Int := 0
  /-- tone code (R145). -/
  code : Nat := 0
  /-- level, 0.1 dBm0 (R163). -/
  level : Int := 0
  /-- media position of the start (R163). -/
  pos : Word := 0
  deriving DecidableEq, Repr

/-- Per-leg state of an active channel (R139 to R161). -/
structure Leg where
  /-- receive SSRC (R141). -/
  ssrc : Option Word := none
  /-- tick of the last packet of the current SSRC that passed check 3 (R141). -/
  lastRx : Nat := 0
  /-- last rejected PT (R140). -/
  badPt : Option Nat := none
  /-- last CMR received (R134). -/
  cmr : Nat := 15
  /-- CMRs received and waiting for their tick, oldest first (R24, R134). -/
  cmrIn : List (Nat × Nat) := []
  /-- the next packet carries the marker: the first after an admission or a change of mode (R142). -/
  marker : Bool := true
  /-- transmission is suppressed by vad (R142). -/
  silent : Bool := false
  /-- media position of the next sample sent (R142). -/
  pos : Word := 0
  /-- ticks gathered toward the next packet or frame (R142). -/
  ptimeAt : Nat := 0
  /-- payload gathered toward the next packet (R142). -/
  buf : Bytes := []
  /-- samples gathered toward the encoder's next frame (R132). -/
  pcm : List Int := []
  /-- arriving samples of the last two ticks, before a half-band filter (R137). -/
  pastIn : List Int := []
  /-- outgoing samples of the last two ticks, before a half-band filter (R137). -/
  pastOut : List Int := []
  /-- tag of the encoder's state, 0 the standard initial state (free value: log entry 30) (R156). -/
  enc : Nat := 0
  /-- tag of the decoder's state, 0 the standard initial state (free value: log entry 30) (R183). -/
  dec : Nat := 0
  /-- generator (R149). -/
  gen : Option Gen := none
  /-- tone code held by the detectors; 0 none (R145). -/
  detTone : Nat := 0
  /-- tick in which the detectors reported it (R145). -/
  detSince : Nat := 0
  /-- tone code that ended last, and the tick of its last sample (R145). -/
  detLast : Option (Nat × Nat) := none
  /-- tick in which the muted tone started (R152). -/
  mute : Option Nat := none
  /-- a mute of the tone that lasts was lifted unconfirmed (R152). -/
  muteOver : Bool := false
  /-- reports held until commit (R147). -/
  reports : List Report := []
  /-- event being sent (R151). -/
  evTx : Option EvTx := none
  /-- earlier events whose end packets are still due, oldest first (R151). -/
  evEnds : List EvTx := []
  /-- event being received (R153). -/
  evRx : Option EvItem := none
  /-- displaced event, ignored until a new timestamp (R161). -/
  evIgnore : Option Word := none
  /-- tick of the next report (R144). -/
  rtcpAt : Nat := 0
  /-- an RTP packet left since the last report (R144). -/
  rtcpSent : Bool := false
  /-- highest extended sequence number received (RFC 3550) (R160). -/
  extSeq : Nat := 0
  /-- first sequence number received (R160). -/
  seqBase : Option Nat := none
  /-- packets received of the current SSRC (R160). -/
  rxCount : Nat := 0
  /-- last transit time, for jitter (R160). -/
  transit : Nat := 0
  /-- trunk leg: receive anchor offset (R200). -/
  offset : Option Word := none
  /-- trunk leg: the sender still sets the anchor flag (R200). -/
  anchoring : Bool := true
  /-- trunk leg: number of its stream, which starts anew with each restart of its anchoring (R200). -/
  stream : Nat := 0
  /-- trunk leg: seqs of bundles that carried an anchored item of the stream (R200). -/
  anchorSeqs : List Word := []
  /-- event 183 was raised for the stream (R223). -/
  noAnchorEvt : Bool := false
  /-- number of the last period of anchor_every_ms that an item anchored, plus 1 (R200). -/
  anchorP : Nat := 0
  /-- RTP payload octets sent (RFC 3550) (R144). -/
  txOctets : Nat := 0
  /-- middle 32 bits of the last SR's NTP timestamp (RFC 3550) (R144). -/
  lsr : Nat := 0
  /-- arrival of the last SR, 2^-16 s (R144). -/
  lsrAt : Nat := 0
  /-- packets expected at the previous report (RFC 3550) (R144). -/
  priorExp : Nat := 0
  /-- packets received at the previous report (RFC 3550) (R144). -/
  priorRx : Nat := 0
  /-- interarrival jitter in sixteenths of a clock unit (RFC 3550); none before two packets (R160). -/
  jit : Option Nat := none
  /-- its store room (R164). -/
  room : StoreRoom := {}
  deriving DecidableEq, Repr

/-- A dictionary entry beyond the literals (R202). -/
structure DictEntry where
  /-- string of 2 to 255 bytes; empty in a hole (R202). -/
  str : Bytes := []
  /-- live or dead (R202). -/
  live : Bool := false
  /-- bundle that created it (R202). -/
  seq : Word := 0
  deriving DecidableEq, Repr

/-- An item of a trunk bundle (R197, R198). -/
structure BItem where
  /-- type, 0 to 7 (R198). -/
  kind : Nat := 0
  /-- trunk channel (R198). -/
  chan : Nat := 0
  /-- true tick (R199). -/
  tick : Nat := 0
  /-- position when the anchor flag is set (R198). -/
  anchor : Option Word := none
  /-- media position of its first sample at the sender (R200). -/
  pos : Word := 0
  /-- number of the sender's stream it belongs to (R200). -/
  stream : Nat := 0
  /-- vbd flag (R198). -/
  vbd : Bool := false
  /-- end flag (R198). -/
  fin : Bool := false
  /-- payload (R198). -/
  data : Bytes := []
  deriving DecidableEq, Repr

/-- A bundle held out of order (R210). -/
structure HeldBundle where
  /-- its seq (R210). -/
  seq : Word := 0
  /-- tick boundaries waited (R210). -/
  wait : Nat := 0
  /-- header and sections (R195). -/
  bytes : Bytes := []
  deriving DecidableEq, Repr

/-- The item begun in the last delivered bundle (R209). -/
structure OpenItem where
  /-- header-stream bytes so far (R209). -/
  head : Bytes := []
  /-- raw bytes so far (none are split) (R208). -/
  raw : Bytes := []
  deriving DecidableEq, Repr

/-- A far-end peer (R191 to R224). -/
structure Peer where
  /-- enabled (R191). -/
  on : Bool := false
  /-- enabled before since reset (R217). -/
  everOn : Bool := false
  /-- current epoch toward the peer (R215). -/
  epoch : BitVec 8 := 0
  /-- seq of the next data bundle (R224). -/
  seq : Word := 0
  /-- next index toward the peer (R206). -/
  txN : Nat := 256
  /-- entries toward the peer (R202). -/
  txDict : Tab DictEntry := []
  /-- bundles sent in the epoch, oldest first, with their known status (R213). -/
  status : List (Word × Option Bool) := []
  /-- first seq of the epoch (R213). -/
  epochStart : Word := 0
  /-- causes of a turn at the next data bundle (R215). -/
  turnCause : BitVec 8 := 0
  /-- the next data bundle begins the epoch of an enable, a reef exit or a switch-over (R217). -/
  fresh : Bool := false
  /-- the restart flag is being sent (R217). -/
  restartTx : Bool := false
  /-- seqs of restart bundles sent (R217). -/
  restarts : List Word := []
  /-- a turn that answered a resync request is outstanding (R215). -/
  answered : Bool := false
  /-- the peer's latest bundle carries the resync request (R215). -/
  peerAsks : Bool := false
  /-- items of the open interval, in arrival order (R193). -/
  items : List BItem := []
  /-- interval in force (R192). -/
  interval : Nat := 1
  /-- highest ack taken (R212). -/
  ackTaken : Option Word := none
  /-- ack and ack map of the last bundle sent (R212). -/
  sentD : Option (Word × Word) := none
  /-- E, the next seq expected (R210). -/
  e : Option Word := none
  /-- not DOWN (R218). -/
  up : Bool := false
  /-- SYNCED (R210). -/
  synced : Bool := false
  /-- current epoch from the peer (R217). -/
  rxEpoch : Option (BitVec 8) := none
  /-- next index from the peer (R211). -/
  rxN : Nat := 256
  /-- entries from the peer (R202). -/
  rxDict : Tab DictEntry := []
  /-- last 64 decided seqs, newest first (R214). -/
  record : List (Word × Bool) := []
  /-- bundles held (R210). -/
  held : List HeldBundle := []
  /-- consecutive bundles under row 2 (R216). -/
  row2 : Nat := 0
  /-- item begun in the last delivered bundle (R209). -/
  opened : Option OpenItem := none
  /-- tick at whose beginning the last interval closed (R193). -/
  closed : Option Nat := none
  /-- tick of the enable or of the last bundle that passed (R218). -/
  passTick : Nat := 0
  /-- DOWN by a timeout: the next passing bundle raises event 181 (R218). -/
  downed : Bool := false
  /-- the resync request is being sent (R216). -/
  resync : Bool := false
  deriving DecidableEq, Repr

end Sys2Proof.Machine
end

