-- ==== Sys2Proof/Syntax.lean ====
section
/-! DEFINITION. The commands the block takes: one constructor for each row of the table of operations and events. The
operands are what the outside world or the issuing instruction word gives the row; everything else is read from the
state. -/

namespace Sys2Proof

/-- What a stored word's check bits say when it is read (R301). -/
inductive Ecc where
  | ok | correctable | uncorrectable
  deriving DecidableEq, Repr

/-- Where an operation of a lane's instruction word issues (R80, R81): the lane, the slot's stage field (R82), the words
holding no operation that issued since the last word given, whether it is the word's last operation, and, with the word's
first operation, what the fetch finds in the check bits of the word's two halves of 64 bits (R21, R102). The operations
of one word are given in slot order V, LS0, LS1, S. -/
structure Issue where
  lane : Fin 128
  stage : BitVec 3
  gap : BitVec 12
  last : Bool
  fetch : List Ecc := []
  deriving DecidableEq, Repr

/-- The length that SETMWL or SETMRL carries, and whether it addresses the device or is broadcast (R373). -/
structure SetLen where
  direct : Bool
  bytes : BitVec 16
  deriving DecidableEq, Repr

/-- Fields of the V slot (R93). -/
structure VFields where
  d : BitVec 6
  a : BitVec 6
  b : BitVec 6
  c : BitVec 6
  imm : BitVec 7
  deriving DecidableEq, Repr

/-- Fields of an LS slot (R94); `slot1` says LS1, `check` what a load finds in the check bits of the protected words it reads
(R21, R78), `dma` the cycles in which its bank serves the DMA port first (R76). -/
structure LsFields where
  slot1 : Bool
  reg : BitVec 6
  areg : BitVec 4
  mode : BitVec 2
  imm : BitVec 8
  check : List Ecc := []
  dma : Nat := 0
  deriving DecidableEq, Repr

/-- S slot, ALU format (R95); `low` is bits [7:0], whose bits [2:0] are the queue port of a queue operation. -/
structure AluFields where
  d : BitVec 5
  a : BitVec 5
  b : BitVec 5
  low : BitVec 8
  deriving DecidableEq, Repr

/-- S slot, imm format (R95). -/
structure ImmFields where
  d : BitVec 5
  a : BitVec 5
  imm : BitVec 13
  deriving DecidableEq, Repr

/-- S slot, MOV16 format (R95). -/
structure MovFields where
  d : BitVec 5
  high : Bool
  imm : BitVec 16
  deriving DecidableEq, Repr

/-- S slot, branch format (R95). -/
structure BranchFields where
  a : BitVec 5
  target : BitVec 12
  deriving DecidableEq, Repr

/-- S slot, LOOP format (R95); `fromReg` is src. -/
structure LoopFields where
  fromReg : Bool
  rotate : Bool
  drain : BitVec 3
  count : BitVec 6
  last : BitVec 12
  deriving DecidableEq, Repr

/-- S slot, special format (R95). -/
structure SpecialFields where
  r : BitVec 5
  id : BitVec 6
  deriving DecidableEq, Repr

/-- How a frame ends on a port's line: an error of its code within it, and the clock phase of the SerDes at its timestamp point in
units of 2^-16 ns (R228, R278). -/
structure Arrival where
  error : Bool
  phase : BitVec 16 := 0
  deriving DecidableEq, Repr

/-- A port whose MAC may start a frame, and the clock phase of its SerDes in units of 2^-16 ns (R239, R278). -/
structure TxStart where
  port : Fin 3
  phase : BitVec 16 := 0
  deriving DecidableEq, Repr

/-- A stay frame as it arrives (R416): type byte, route, link sequence number, ack, the sender's tick, the length field, payload,
the clock phase of the SerDes at its timestamp point in units of 2^-16 ns (R278), whether the frame passes its CRC. -/
structure StayIn where
  type : Byte
  route : Byte
  seq : BitVec 16
  ack : BitVec 16
  tick : BitVec 64
  length : BitVec 16
  data : Bytes
  phase : BitVec 16 := 0
  crcOk : Bool
  deriving DecidableEq, Repr

/-- One thing that a COPY or SYNC frame carries (R430, Table 8; R432). The layout of these payloads is not part of the
specification, so what they say comes with the row (log entry 80). -/
inductive CopyItem where
  /-- A session entry whole: handle, key, parameters, partner, state (0 FREE, 1 PARKED, 2 ACTIVE, 3 MIGRATING), channel,
  next RTP sequence number, timestamp. -/
  | entry (handle : BitVec 20) (key : Bytes) (params : List (BitVec 16 × BitVec 32)) (partner : Option (BitVec 20))
      (state : BitVec 2) (chan : Option (BitVec 13)) (txSeq : BitVec 16) (ts : BitVec 32)
  /-- A channel placed: number, access entry, partner entry, lane, cost. -/
  | place (chan : BitVec 13) (acc oth : BitVec 20) (lane : Fin 128) (cost : BitVec 16)
  /-- A channel parked or closed. -/
  | unplace (chan : BitVec 13)
  /-- The RTP state of the leg of an entry. -/
  | leg (handle : BitVec 20) (txSeq : BitVec 16) (ts : BitVec 32)
  /-- A counter statistic of a channel. -/
  | stat (chan : BitVec 13) (id : BitVec 16) (value : BitVec 32)
  /-- The next seq and the epoch of a peer. -/
  | peer (peer : Fin 64) (seq : BitVec 32) (epoch : BitVec 8)
  /-- The budget of a lane of the sender. -/
  | budget (lane : Fin 128) (lu : BitVec 16)
  /-- The comfort-noise seed of a channel. -/
  | seed (chan : BitVec 13) (value : BitVec 32)
  /-- The store room of a leg as its placements, commits, rollbacks and adaptation leave it. -/
  | room (chan : BitVec 13) (leg : Bool) (room : Machine.StoreRoom)
  /-- The hot and warm context of a channel: mode, canceller, both legs. -/
  | context (chan : BitVec 13) (vbd : Bool) (vbdQuiet : Nat) (ec : Machine.Ec) (a b : Machine.Leg)
  /-- The acknowledgement fields of a bundle taken for a peer, as its header. -/
  | acks (peer : Fin 64) (header : Bytes)
  /-- Bytes of a memory at a device address: contexts, store rooms, echo history. -/
  | memory (address : BitVec 36) (bytes : Bytes)
  /-- The dictionaries of a peer in both directions, with the seqs, epochs, acknowledgements and decisions that belong to
  them. -/
  | coder (peer : Fin 64) (p : Machine.Peer)
  /-- The end of the contexts of a lane under resync. -/
  | laneDone (lane : Fin 128)
  deriving DecidableEq, Repr

/-- What the HALYARD line does when a device drives the start slot (R427): it follows, it is held low by the other end, it
stays high. -/
inductive HalyardLine where
  | works | heldLow | heldHigh
  deriving DecidableEq, Repr

/-- What a COPY frame carries: the tick copied, whether it is the tick's last segment, its contents (R430). -/
structure CopyIn where
  tick : BitVec 64
  last : Bool
  items : List CopyItem
  deriving DecidableEq, Repr

/-- What a CHECK frame carries: lane, tick, and the result, or none for a request (R434). -/
structure CheckIn where
  lane : Fin 128
  tick : BitVec 64
  result : Option Bool
  deriving DecidableEq, Repr

/-- A tone in the audio of a leg as the detector of a code measures it (R145, R148): that code of Table 6, the lower and the
higher frequency in 0.1 Hz (0 for a second one that is absent) and their levels in 0.1 dBm0 (the same for a single one), the
units of 1/8 ms from its start to the end of the tick, the on and off times in ms of the cadence it has completed, newest last,
the rate in 0.1 Hz and the depth in percent of an amplitude modulation, and the degrees of a phase reversal in it. -/
structure ToneHeard where
  code : Byte
  f1 : Nat
  f2 : Nat := 0
  low : Int
  high : Int
  units : Nat
  beats : List (Nat × Nat) := []
  amHz : Nat := 0
  depth : Nat := 0
  turn : Nat := 0
  deriving DecidableEq, Repr

/-- What a lane measures in the audio of one leg in a tick (R145, R152, R157; log entry 30). -/
structure LegSignal where
  /-- A tone that lasts. -/
  tone : Option ToneHeard
  /-- The detectors report the end of the tone they hold. -/
  toneEnd : Bool
  /-- The two frequencies of a possible DTMF tone have held for 10 ms. -/
  dtmfHeld : Bool
  /-- AFS at the end of the leg's decoder, and of its encoder: acc_ovf, sat, nan_seen. -/
  decFlags : BitVec 3
  encFlags : BitVec 3
  deriving DecidableEq, Repr

/-- What the tone disabler measures in a signal in a tick (R120): a frequency in 0.1 Hz, its level in 0.1 dBm0, and the degrees of
a phase reversal in it. -/
structure DisableTone where
  hz : Nat
  level : Int
  turn : Nat := 0
  deriving DecidableEq, Repr

/-- What the canceller of a channel finds in a tick (R109 to R125; log entry 30). -/
structure EcSignal where
  /-- The 1 kHz samples that the low-pass filters give of the near-end input and of the tick's reference (R109). -/
  decNear : Int
  decRef : Int
  /-- Arithmetic flags of the canceller's part beside those of its filter. -/
  flags : BitVec 3
  /-- The placed windows, by number, whose slice has not arrived (R124). -/
  lost : List Nat
  /-- A tone in the near-end input, and in the reference (R120). -/
  near : Option DisableTone := none
  far : Option DisableTone := none
  deriving DecidableEq, Repr

/-- What a lane finds in a channel's audio in a tick. -/
structure Signals where
  ec : EcSignal
  a : LegSignal
  b : LegSignal
  deriving DecidableEq, Repr

/-- What a cellar DMA transfer serves: data of a queue or an engine, the copy of a channel's context (R40, R103), or an echo
slice for a window of a channel (R123, R124). -/
inductive DmaUse where
  | data
  | context (chan : BitVec 13)
  | slice (chan : BitVec 13) (window : Nat)
  deriving DecidableEq, Repr

/-- Where a transfer writes, none where its destination is no memory, and what it serves (R394). -/
structure TransferEnd where
  addr : Option (BitVec 36) := none
  use_ : DmaUse := .data
  deriving DecidableEq, Repr

/-- Bytes of the QSPI flash and the flash offset that they stand at (R337). -/
structure FlashData where
  offset : Nat := 0
  bytes : Bytes := []
  deriving DecidableEq, Repr

/-- What a cellar DMA transfer serves, and how many words of its source were corrected (R16, R398). -/
structure DmaWork where
  use_ : DmaUse := .data
  fixed : Nat := 0
  deriving DecidableEq, Repr

/-- Which of a trunk port's conditions fails: block lock, the bit-error rate, FEC lock (R226). -/
inductive LinkFault where
  | blockLock | highBer | fecLock
  deriving DecidableEq, Repr

/-- A port and the condition that fails on it (R226). -/
structure LinkFall where
  port : Fin 2
  fault : LinkFault
  deriving DecidableEq, Repr

/-- A supply rail and the voltage that its monitor holds against its thresholds (R473). -/
structure RailReport where
  rail : Fin 11
  microvolts : Nat
  deriving DecidableEq, Repr

/-- The offset of an uncorrectable word of mast memory (R399), and the sequence numbers of the commands whose words of the
journal are uncorrectable (R403). -/
structure MastWord where
  offset : BitVec 32
  journal : List Word := []
  deriving DecidableEq, Repr

/-- Margin and drift of the tell-tale whose turn it is in a tick (R444). -/
structure TtSample where
  margin : BitVec 16 := 0
  drift : BitVec 16 := 0
  deriving DecidableEq, Repr

/-- What was corrected in a tick: words of mast memory (R399), for each cluster the attic words in reads of its island (R398),
and for a trunk port the FEC blocks or code words corrected and found uncorrectable (R227). -/
structure TickFixed where
  mast : Nat := 0
  attics : List (Fin 8 × Nat) := []
  fec : List (Fin 2 × Nat × Nat) := []
  deriving DecidableEq, Repr

/-- The commands: the rows with operands in the order of the table, then the rows without. -/
inductive Instr where

  /-- TICK_BOUNDARY (R24): with the junction temperature of the tick that ends (R446). -/
  | tickBoundary (temp : BitVec 8) (sample : TtSample) (fixed : TickFixed)
  /-- MIGRATE_ABANDONED (R42). -/
  | migrateAbandoned (chan : BitVec 13)
  /-- TDM_FRAME_START (R262). -/
  | tdmFrameStart (group : Fin 4) (rx tx : List (Nat × Byte))
  /-- MAST_MEM_UE (R399). -/
  | mastMemUe (word : MastWord)
  /-- CHANNEL_TICK_WORK (R139). -/
  | channelTickWork (chan : BitVec 13) (sig : Signals)
  /-- WINDOW_PLACEMENT (R111). -/
  | windowPlacement (chan : BitVec 13)
  /-- WINDOW_RELEASE (R113). -/
  | windowRelease (chan : BitVec 13)
  /-- DTD_HANGOVER_END (R117). -/
  | dtdHangoverEnd (chan : BitVec 13)
  /-- DIVERGENCE_RESET (R125). -/
  | divergenceReset (chan : BitVec 13)
  /-- TONE_DISABLE_ENTER (R120). -/
  | toneDisableEnter (chan : BitVec 13)
  /-- TONE_DISABLE_EXIT (R120). -/
  | toneDisableExit (chan : BitVec 13)
  /-- MUTE_LIFT (R152). -/
  | muteLift (chan : BitVec 13) (leg : Bool)
  /-- EVENT_GENERATION_END (R153). -/
  | eventGenerationEnd (chan : BitVec 13) (leg : Bool)
  /-- TONE_GEN_END (R149). -/
  | toneGenEnd (chan : BitVec 13) (leg : Bool)
  /-- RTCP_REPORT (R144). -/
  | rtcpReport (chan : BitVec 13) (leg : Bool)
  /-- VBD_EXIT (R156). -/
  | vbdExit (chan : BitVec 13)
  /-- ADAPT_WINDOW_END (R180). -/
  | adaptWindowEnd (chan : BitVec 13) (leg : Bool)
  /-- INTERVAL_CLOSE (R193). -/
  | intervalClose (peer : Fin 64) (dic : Option (BitVec 12 × Bool))
  /-- BUNDLE_RECEIVE (R210). -/
  | bundleReceive (peer : Fin 64) (bytes : Bytes) (dic : Option (BitVec 12 × Bool))
  /-- REORDER_TIMEOUT (R210). -/
  | reorderTimeout (peer : Fin 64)
  /-- BND_PEER_DOWN (R218). -/
  | bndPeerDown (peer : Fin 64)
  /-- PEER_ENABLE (R191). -/
  | peerEnable (master : Fin 16) (peer : Fin 64) (value : Word)
  /-- DIC_CMD_TURN (R215). -/
  | dicCmdTurn (master : Fin 16) (value : Word)
  /-- PORT_RESTART (R226). -/
  | portRestart (master : Fin 16) (port : Fin 2) (value : Word)
  /-- PORT_LINK_UP (R226). -/
  | portLinkUp (port : Fin 2)
  /-- PORT_LINK_DOWN (R226). -/
  | portLinkDown (fall : LinkFall)
  /-- FRAME_RECEIVE (R228). -/
  | frameReceive (port : Fin 3) (bytes : Bytes) (arrival : Arrival)
  /-- PAUSE_EXPIRE (R242). -/
  | pauseExpire (port : Fin 3) (queue : Fin 8)
  /-- PAUSE_WATCHDOG (R243). -/
  | pauseWatchdog (port : Fin 2) (queue : Fin 8)
  /-- HOLDOFF_END (R243). -/
  | holdoffEnd (port : Fin 2) (queue : Fin 8)
  /-- CLASSIFY_FRAME (R233). -/
  | classifyFrame (port : Fin 2)
  /-- MAST_FRAME_RECEIVE (R245). -/
  | mastFrameReceive (port : Fin 3)
  /-- FRAME_TRANSMIT (R239). -/
  | frameTransmit (start : TxStart)
  /-- TX_MAP_CHANGE (R237). -/
  | txMapChange (port : Fin 2)
  /-- GATE_APPLY (R240). -/
  | gateApply (master : Fin 16) (port : Fin 2) (value : Word)
  /-- GATE_LIST_START (R291). -/
  | gateListStart (port : Fin 2)
  /-- GATE_ENTRY_CHANGE (R240). -/
  | gateEntryChange (port : Fin 2)
  /-- SVC_COLLISION (R247). -/
  | svcCollision (late : Bool)
  /-- MDIO_START (R248). -/
  | mdioStart (master : Fin 16) (value : Word)
  /-- MDIO_DONE (R248). -/
  | mdioDone (data : BitVec 16)
  /-- TDM_GROUP_CTRL_WRITE (R256). -/
  | tdmGroupCtrlWrite (master : Fin 16) (group : Fin 4) (value : Word)
  /-- TDM_GROUP_LOCKED (R263). -/
  | tdmGroupLocked (group : Fin 4)
  /-- TDM_GROUP_LOST (R263). -/
  | tdmGroupLost (group : Fin 4) (cause : Fin 3)
  /-- TDM_CLOCK_RETURN (R263). -/
  | tdmClockReturn (group : Fin 4)
  /-- MAP_SWAP_ARM (R266). -/
  | mapSwapArm (master : Fin 16) (value : Word)
  /-- MAP_SWAP_CANCEL (R266). -/
  | mapSwapCancel (master : Fin 16) (value : Word)
  /-- TIME_CAPTURE (R276). -/
  | timeCapture (master : Fin 16) (value : Word)
  /-- TIME_STEP (R275). -/
  | timeStep (master : Fin 16) (value : Word)
  /-- TIME_ACCEPT (R286). -/
  | timeAccept (master : Fin 16) (value : Word)
  /-- SERVO_HOLD (R289). -/
  | servoHold (master : Fin 16) (value : Word)
  /-- SERVO_RESUME (R289). -/
  | servoResume (master : Fin 16) (value : Word)
  /-- SERVO_CTRL_WRITE (R288). -/
  | servoCtrlWrite (master : Fin 16) (value : Word)
  /-- TIM_RATE_WRITE (R274). -/
  | timRateWrite (master : Fin 16) (value : Word)
  /-- HOST_PUSH (R285). -/
  | hostPush (master : Fin 16) (value : Word)
  /-- PTP_RECEIVE (R282). -/
  | ptpReceive (port : Fin 2)
  /-- TC_FORWARD (R283). -/
  | tcForward (port : Fin 2)
  /-- TIMED_ACTION (R380). -/
  | timedAction (seq : Word)
  /-- ISL_CLK_REQUEST (R296). -/
  | islClkRequest (master : Fin 16) (island : Fin 15) (value : Word)
  /-- SYNTH_LOCK (R296). -/
  | synthLock (island : Fin 15)
  /-- ISL_CLK_SWITCH (R297). -/
  | islClkSwitch (island : Fin 15)
  /-- ISL_CLK_LOCK_FAIL (R298). -/
  | islClkLockFail (island : Fin 15)
  /-- QUEUE_PUSH_START (R302). -/
  | queuePushStart (queue : Fin 512) (port : Nat) (bytes : Bytes)
  /-- QUEUE_PUSH_WORD (R302). -/
  | queuePushWord (queue : Fin 512) (vc : Fin 4)
  /-- QUEUE_POP (R306). -/
  | queuePop (queue : Fin 512) (vc : Fin 4) (check : BitVec 2)
  /-- QUEUE_NOTICE (R307). -/
  | queueNotice (queue : Fin 512) (vc : Fin 4)
  /-- DELIVERY_WRITE (R308). -/
  | deliveryWrite (lane : Fin 128) (port : Fin 8)
  /-- QUE_STALL (R315). -/
  | queStall (queue : Fin 512) (vc : Fin 4)
  /-- RIG_START (R339). -/
  | rigStart (master : Fin 16) (value : Word)
  /-- RIG_ABORT (R341). -/
  | rigAbort (master : Fin 16) (value : Word)
  /-- RIG_ROLLBACK_COMMIT (R341). -/
  | rigRollbackCommit (master : Fin 16) (value : Word)
  /-- RIG_DATA (R337). -/
  | rigData (master : Fin 16) (bytes : Bytes)
  /-- QSPI_READ (R337). -/
  | qspiRead (data : FlashData) (ok : Bool)
  /-- RIG_APPLY (R338). -/
  | rigApply (trained : Bool)
  /-- RESET_RELEASE (R345). -/
  | resetRelease (bootSel : BitVec 2)
  /-- BOOT_SUPPLY_READY (R345). -/
  | bootSupplyReady (fusesOk romOk healthy readA readB : Bool)
  /-- OWNER_ENROL (R352). -/
  | ownerEnrol (master : Fin 16) (value : Word)
  /-- KEY_REVOKE (R353). -/
  | keyRevoke (master : Fin 16) (value : Word)
  /-- LOCK_DEBUG (R348). -/
  | lockDebug (master : Fin 16) (value : Word)
  /-- ATTEST_REQUEST (R355). -/
  | attestRequest (master : Fin 16) (value : Word)
  /-- REGISTER_WRITE (R8). -/
  | registerWrite (master : Fin 16) (address : BitVec 36) (value : Word)
  /-- LANE_RESTART (R104). -/
  | laneRestart (master : Fin 16) (lane : Fin 128) (value : Word)
  /-- MST_TICK_LO_READ (R508). -/
  | mstTickLoRead (master : Fin 16)
  /-- READ (R377). -/
  | read (frame : Bytes)
  /-- WRITE (R377). -/
  | write (frame : Bytes)
  /-- WRITE_POSTED (R376). -/
  | writePosted (frame : Bytes)
  /-- CMD_SUBMIT (R379). -/
  | cmdSubmit (frame : Bytes)
  /-- CPL_READ (R379). -/
  | cplRead (frame : Bytes)
  /-- EVT_READ (R382). -/
  | evtRead (frame : Bytes)
  /-- RESPONSE_READ (R376). -/
  | responseRead (clocked : Nat)
  /-- ENEC (R373). -/
  | enec (direct : Bool) (events : Byte)
  /-- DISEC (R373). -/
  | disec (direct : Bool) (events : Byte)
  /-- ENTDAA (R373). -/
  | entdaa (addr : BitVec 7) (won : Bool)
  /-- SETDASA (R373). -/
  | setdasa (static addr : BitVec 7)
  /-- SETNEWDA (R373). -/
  | setnewda (addr : BitVec 7)
  /-- SETMWL (R373). -/
  | setmwl (len : SetLen)
  /-- SETMRL (R373). -/
  | setmrl (len : SetLen)
  /-- TRANSFER_UE (R394). -/
  | transferUe (master : Fin 16) (source : BitVec 36) (dest : TransferEnd) (len : BitVec 24) (bad : BitVec 24)
  /-- CEL_SCRUB_READ (R396). -/
  | celScrubRead (check : BitVec 2)
  /-- CEL_CA_RETRY (R397). -/
  | celCaRetry (master : Fin 16) (writeCrc : Bool)
  /-- CEL_RETRAIN_DONE (R397). -/
  | celRetrainDone (passed : Bool)
  /-- STAY_LINK_UP (R415). -/
  | stayLinkUp (port : Fin 2)
  /-- STAY_LINK_DOWN (R415). -/
  | stayLinkDown (port : Fin 2)
  /-- STAY_CUT_END (R418). -/
  | stayCutEnd (port : Fin 2)
  /-- HELLO_SEND (R419). -/
  | helloSend (port : Fin 2)
  /-- STAY_RETRANSMIT (R417). -/
  | stayRetransmit (port : Fin 2)
  /-- ACK (R417). -/
  | ack (port : Fin 2) (f : StayIn)
  /-- HELLO (R419). -/
  | hello (port : Fin 2) (f : StayIn)
  /-- HEARTBEAT (R421). -/
  | heartbeat (port : Fin 2) (f : StayIn)
  /-- YIELD (R438). -/
  | yield (port : Fin 2) (f : StayIn)
  /-- COPY (R430). -/
  | copy (port : Fin 2) (f : StayIn) (c : CopyIn)
  /-- COPY_ACK (R430). -/
  | copyAck (port : Fin 2) (f : StayIn)
  /-- FORWARD (R431). -/
  | forward (port : Fin 2) (f : StayIn)
  /-- DIGEST (R433). -/
  | digest (port : Fin 2) (f : StayIn)
  /-- CHECK (R434). -/
  | check (port : Fin 2) (f : StayIn) (c : CheckIn)
  /-- SYNC (R432). -/
  | sync (port : Fin 2) (f : StayIn) (items : List CopyItem)
  /-- SELF_CHECK (R434). -/
  | selfCheck (passed : Bool)
  /-- CHALLENGE (R426). -/
  | challenge (line : HalyardLine)
  /-- HALYARD_ROUND (R424). -/
  | halyardRound (others : BitVec 8)
  /-- WAKE_ONLY_EXIT (R460). -/
  | wakeOnlyExit (match_ : Bool) (bootSel : BitVec 2)
  /-- SUPPLY_OUT_OF_RANGE (R473): a rail has stood at a voltage for 2 µs, which its monitor holds against its thresholds. -/
  | supplyOutOfRange (report : RailReport)
  /-- SUPPLY_IN_RANGE (R473): a rail has stood at a voltage for 10 µs, which its monitor holds against its thresholds. -/
  | supplyInRange (report : RailReport)
  /-- SEQUENCE_VIOLATION (R472). -/
  | sequenceViolation (rail : Fin 11)
  /-- SYSCLK_RETURN (R476). -/
  | sysclkReturn (bootSel : BitVec 2)
  /-- SAMPLE_PRELOAD (R498). -/
  | samplePreload (pins preload : Nat)
  /-- VADD (R62). -/
  | vadd (w : Issue) (f : VFields)
  /-- VSUB (R62). -/
  | vsub (w : Issue) (f : VFields)
  /-- VMUL (R62). -/
  | vmul (w : Issue) (f : VFields)
  /-- VFMA (R62). -/
  | vfma (w : Issue) (f : VFields)
  /-- VFMS (R62). -/
  | vfms (w : Issue) (f : VFields)
  /-- VMIN (R62). -/
  | vmin (w : Issue) (f : VFields)
  /-- VMAX (R62). -/
  | vmax (w : Issue) (f : VFields)
  /-- VRCP (R62). -/
  | vrcp (w : Issue) (f : VFields)
  /-- VRSQ (R62). -/
  | vrsq (w : Issue) (f : VFields)
  /-- VCMPEQ (R62). -/
  | vcmpeq (w : Issue) (f : VFields)
  /-- VCMPLT (R62). -/
  | vcmplt (w : Issue) (f : VFields)
  /-- VCMPLE (R62). -/
  | vcmple (w : Issue) (f : VFields)
  /-- VABS (R62). -/
  | vabs (w : Issue) (f : VFields)
  /-- VNEG (R62). -/
  | vneg (w : Issue) (f : VFields)
  /-- VMOV (R62). -/
  | vmov (w : Issue) (f : VFields)
  /-- VAND (R62). -/
  | vand (w : Issue) (f : VFields)
  /-- VOR (R62). -/
  | vor (w : Issue) (f : VFields)
  /-- VXOR (R62). -/
  | vxor (w : Issue) (f : VFields)
  /-- VSEL (R62). -/
  | vsel (w : Issue) (f : VFields)
  /-- VBCAST (R62). -/
  | vbcast (w : Issue) (f : VFields)
  /-- ACLR (R65). -/
  | aclr (w : Issue) (f : VFields)
  /-- ALDV (R65). -/
  | aldv (w : Issue) (f : VFields)
  /-- AADD (R65). -/
  | aadd (w : Issue) (f : VFields)
  /-- AMAC (R65). -/
  | amac (w : Issue) (f : VFields)
  /-- AMSC (R65). -/
  | amsc (w : Issue) (f : VFields)
  /-- AMUL (R65). -/
  | amul (w : Issue) (f : VFields)
  /-- ASCL (R65). -/
  | ascl (w : Issue) (f : VFields)
  /-- ARED (R65). -/
  | ared (w : Issue) (f : VFields)
  /-- ASTV (R67). -/
  | astv (w : Issue) (f : VFields)
  /-- CVT_HF (R69). -/
  | cvtHf (w : Issue) (f : VFields)
  /-- CVT_FH (R69). -/
  | cvtFh (w : Issue) (f : VFields)
  /-- CVT_WF (R69). -/
  | cvtWf (w : Issue) (f : VFields)
  /-- CVT_FW (R69). -/
  | cvtFw (w : Issue) (f : VFields)
  /-- VADD_H (R70). -/
  | vaddH (w : Issue) (f : VFields)
  /-- VSUB_H (R70). -/
  | vsubH (w : Issue) (f : VFields)
  /-- VADDS_H (R70). -/
  | vaddsH (w : Issue) (f : VFields)
  /-- VSUBS_H (R70). -/
  | vsubsH (w : Issue) (f : VFields)
  /-- VMULQ_H (R70). -/
  | vmulqH (w : Issue) (f : VFields)
  /-- VMULQR_H (R70). -/
  | vmulqrH (w : Issue) (f : VFields)
  /-- VABSS_H (R70). -/
  | vabssH (w : Issue) (f : VFields)
  /-- VNEGS_H (R70). -/
  | vnegsH (w : Issue) (f : VFields)
  /-- VSHLS_H (R70). -/
  | vshlsH (w : Issue) (f : VFields)
  /-- VSHR_H (R70). -/
  | vshrH (w : Issue) (f : VFields)
  /-- VNORM_H (R70). -/
  | vnormH (w : Issue) (f : VFields)
  /-- VADDS_W (R70). -/
  | vaddsW (w : Issue) (f : VFields)
  /-- VSUBS_W (R70). -/
  | vsubsW (w : Issue) (f : VFields)
  /-- VSHLS_W (R70). -/
  | vshlsW (w : Issue) (f : VFields)
  /-- VSHR_W (R70). -/
  | vshrW (w : Issue) (f : VFields)
  /-- VNORM_W (R70). -/
  | vnormW (w : Issue) (f : VFields)
  /-- VLMAC_W (R70). -/
  | vlmacW (w : Issue) (f : VFields)
  /-- VLMSC_W (R70). -/
  | vlmscW (w : Issue) (f : VFields)
  /-- VRND_W (R70). -/
  | vrndW (w : Issue) (f : VFields)
  /-- LD_W (R94). -/
  | ldW (w : Issue) (f : LsFields)
  /-- LD_D (R94). -/
  | ldD (w : Issue) (f : LsFields)
  /-- LD_Q (R94). -/
  | ldQ (w : Issue) (f : LsFields)
  /-- LD_WB (R94). -/
  | ldWb (w : Issue) (f : LsFields)
  /-- ST_W (R94). -/
  | stW (w : Issue) (f : LsFields)
  /-- ST_D (R94). -/
  | stD (w : Issue) (f : LsFields)
  /-- ST_Q (R94). -/
  | stQ (w : Issue) (f : LsFields)
  /-- STF_Q (R63). -/
  | stfQ (w : Issue) (f : LsFields)
  /-- ALOAD (R68). -/
  | aload (w : Issue) (f : LsFields)
  /-- ASAVE (R68). -/
  | asave (w : Issue) (f : LsFields)
  /-- ADDA (R85). -/
  | adda (w : Issue) (f : LsFields)
  /-- AWR (R86). -/
  | awr (w : Issue) (f : LsFields)
  /-- ARD (R94). -/
  | ard (w : Issue) (f : LsFields)
  /-- ADD (R95). -/
  | add (w : Issue) (f : AluFields)
  /-- SUB (R95). -/
  | sub (w : Issue) (f : AluFields)
  /-- AND (R95). -/
  | and (w : Issue) (f : AluFields)
  /-- OR (R95). -/
  | or (w : Issue) (f : AluFields)
  /-- XOR (R95). -/
  | xor (w : Issue) (f : AluFields)
  /-- SHL (R95). -/
  | shl (w : Issue) (f : AluFields)
  /-- SHR (R95). -/
  | shr (w : Issue) (f : AluFields)
  /-- SRA (R95). -/
  | sra (w : Issue) (f : AluFields)
  /-- MUL (R95). -/
  | mul (w : Issue) (f : AluFields)
  /-- SEQ (R95). -/
  | seq (w : Issue) (f : AluFields)
  /-- SLT (R95). -/
  | slt (w : Issue) (f : AluFields)
  /-- SLTU (R95). -/
  | sltu (w : Issue) (f : AluFields)
  /-- ADDI (R95). -/
  | addi (w : Issue) (f : ImmFields)
  /-- ANDI (R95). -/
  | andi (w : Issue) (f : ImmFields)
  /-- ORI (R95). -/
  | ori (w : Issue) (f : ImmFields)
  /-- SHLI (R95). -/
  | shli (w : Issue) (f : ImmFields)
  /-- SHRI (R95). -/
  | shri (w : Issue) (f : ImmFields)
  /-- SRAI (R95). -/
  | srai (w : Issue) (f : ImmFields)
  /-- MOV16 (R95). -/
  | mov16 (w : Issue) (f : MovFields)
  /-- B (R95). -/
  | b (w : Issue) (f : BranchFields)
  /-- BZ (R95). -/
  | bz (w : Issue) (f : BranchFields)
  /-- BNZ (R95). -/
  | bnz (w : Issue) (f : BranchFields)
  /-- CALL (R95). -/
  | call (w : Issue) (f : BranchFields)
  /-- RET (R95). -/
  | ret (w : Issue) (f : BranchFields)
  /-- LOOP (R88). -/
  | loop (w : Issue) (f : LoopFields)
  /-- MFS (R83). -/
  | mfs (w : Issue) (f : SpecialFields)
  /-- MTS (R83). -/
  | mts (w : Issue) (f : SpecialFields)
  /-- QPUSH (R98). -/
  | qpush (w : Issue) (f : AluFields)
  /-- QNOTE (R98). -/
  | qnote (w : Issue) (f : AluFields)
  /-- QWAIT (R98). -/
  | qwait (w : Issue) (f : AluFields)
  /-- CNEXT (R101). -/
  | cnext (w : Issue)
  /-- TDONE (R101). -/
  | tdone (w : Issue)
  /-- BUS_AVAILABLE (R384). -/
  | busAvailable (accepted : Bool)
  /-- CELLAR_DMA_DONE (R16). -/
  | cellarDmaDone (master : Fin 16) (source dest : BitVec 36) (len : BitVec 24) (work : DmaWork)
  /-- TDM_FS_MISPLACED (R257). -/
  | tdmFsMisplaced (group : Fin 4)
  /-- MAST_WATCHDOG (R20). -/
  | mastWatchdog
  /-- MAST_RESTART (R403). -/
  | mastRestart
  /-- SESSION_INSERT (R45). -/
  | sessionInsert
  /-- SESSION_DELETE (R50). -/
  | sessionDelete
  /-- CHAN_ADMIT (R36). -/
  | chanAdmit
  /-- CHAN_MODIFY (R38). -/
  | chanModify
  /-- CHAN_PARK (R39). -/
  | chanPark
  /-- CHAN_MIGRATE (R40). -/
  | chanMigrate
  /-- CHAN_QUERY (R50). -/
  | chanQuery
  /-- CHAN_CLOSE (R50). -/
  | chanClose
  /-- STATS_READ (R381). -/
  | statsRead
  /-- SVC_BACKOFF_END (R247). -/
  | svcBackoffEnd
  /-- TDM_MAP_SWAP (R265). -/
  | tdmMapSwap
  /-- DELAY_REQ_SEND (R282). -/
  | delayReqSend
  /-- ANNOUNCE_TIMEOUT (R282). -/
  | announceTimeout
  /-- RIG_DATA_TIMEOUT (R336). -/
  | rigDataTimeout
  /-- IMAGE_RECEIVED (R336). -/
  | imageReceived
  /-- LOADER_CHECK_DONE (R336). -/
  | loaderCheckDone
  /-- RERIG_APPLY (R340). -/
  | rerigApply
  /-- RESET_ASSERT (R345). -/
  | resetAssert
  /-- FIRMWARE_READY (R345). -/
  | firmwareReady
  /-- FW_START_TIMEOUT (R345). -/
  | fwStartTimeout
  /-- ATTEST_DONE (R355). -/
  | attestDone
  /-- RSTDAA (R372). -/
  | rstdaa
  /-- SETAASA (R373). -/
  | setaasa
  /-- GETPID (R373). -/
  | getpid
  /-- GETBCR (R373). -/
  | getbcr
  /-- GETDCR (R373). -/
  | getdcr
  /-- GETSTATUS (R373). -/
  | getstatus
  /-- GETMWL (R373). -/
  | getmwl
  /-- GETMRL (R373). -/
  | getmrl
  /-- GETMXDS (R373). -/
  | getmxds
  /-- GETCAPS (R373). -/
  | getcaps
  /-- ENTHDR0 (R373). -/
  | enthdr0
  /-- ENTAS0 (R373). -/
  | entas0
  /-- ENTAS1 (R373). -/
  | entas1
  /-- ENTAS2 (R373). -/
  | entas2
  /-- ENTAS3 (R373). -/
  | entas3
  /-- EVENT_POST (R408). -/
  | eventPost
  /-- SELF_CHECK_TIMEOUT (R434). -/
  | selfCheckTimeout
  /-- BULK_SYNC_START (R432). -/
  | bulkSyncStart
  /-- PAIR_SYNC_DONE (R432). -/
  | pairSyncDone
  /-- PAIR_COPY_TIMEOUT (R430). -/
  | pairCopyTimeout
  /-- PAIR_HEARTBEAT_LOST (R422). -/
  | pairHeartbeatLost
  /-- HALYARD_START (R424). -/
  | halyardStart
  /-- PAIR_OWNER_GAINED (R425). -/
  | pairOwnerGained
  /-- HALYARD_STUCK_LOW (R427). -/
  | halyardStuckLow
  /-- LISTENING_END (R428). -/
  | listeningEnd
  /-- PAIR_YIELD_FAILED (R438). -/
  | pairYieldFailed
  /-- PAIR_SWITCH (R438). -/
  | pairSwitch
  /-- PAIR_HOLD (R439). -/
  | pairHold
  /-- PAIR_RESYNC (R439). -/
  | pairResync
  /-- PAIR_QUERY (R439). -/
  | pairQuery
  /-- HOUR_END (R446). -/
  | hourEnd
  /-- PLANNER_RUN (R448). -/
  | plannerRun
  /-- PLAN_RUN (R447). -/
  | planRun
  /-- PLAN_RECORD_SET (R453). -/
  | planRecordSet
  /-- REEF_ENTER (R454). -/
  | reefEnter
  /-- REEF_EXIT (R458). -/
  | reefExit
  /-- WAKE_ONLY (R459). -/
  | wakeOnly
  /-- REEF_ENTRY (R455). -/
  | reefEntry
  /-- WAKE_ONLY_ENTER (R459). -/
  | wakeOnlyEnter
  /-- SYSCLK_LOSS (R476). -/
  | sysclkLoss
  /-- REFCLK_LOSS (R477). -/
  | refclkLoss
  /-- REFCLK_RETURN (R477). -/
  | refclkReturn
  /-- BYPASS (R498). -/
  | bypass
  /-- IDCODE (R498). -/
  | idcode
  /-- EXTEST (R498). -/
  | extest
  /-- CLAMP (R498). -/
  | clamp
  /-- HIGHZ (R498). -/
  | highz
  /-- TAP_RESET (R499). -/
  | tapReset
  /-- BOOT_SUPPLY_TIMEOUT (R345). -/
  | bootSupplyTimeout
  /-- POWER_ON (R472). -/
  | powerOn
  deriving DecidableEq, Repr

end Sys2Proof
end

