-- ==== Sys2Proof/WellFormed.lean ====
section
/-! DEFINITION. Which commands are well formed: operands that the types of Syntax.lean let through but that no input of the
block can have. -/

namespace Sys2Proof

/-- Whether a list of slots of a TDM frame names each physical slot of the group's eight highways at most once (R255). -/
def slotsOk (group : Fin 4) (l : List (Nat × Byte)) : Bool :=
  l.all (fun e => decide (e.1 / 1024 = group.val)) && decide ((l.map (fun e => e.1)).Nodup)

/-- Whether a bus address may be a dynamic address: 0x08 to 0x7D (I3C Basic). -/
def dynamicAddr (a : BitVec 7) : Bool := decide (8 ≤ a.toNat ∧ a.toNat ≤ 0x7D)

/-- Whether a stay frame has the type of its row, or a reserved one, for which the receiver cuts the link (R416, Table 3). -/
def stayOk (type : Byte) (f : StayIn) : Bool := f.type == type || decide (10 ≤ f.type.toNat)

/-- Whether samples are 16-bit, at most the 16 of a tick at 16 kHz (R107, R123). -/
def samplesOk (l : List Int) : Bool :=
  decide (l.length ≤ 16) && l.all (fun x => decide (-32768 ≤ x) && decide (x ≤ 32767))

/-- Whether the samples of the 1 kHz filters that a tick's work is given are samples. -/
def signalsOk (s : Signals) : Bool :=
  samplesOk [s.ec.decNear, s.ec.decRef]

/-- Whether a command is well formed. -/
def Instr.wellFormed (i : Instr) : Bool :=
  match i with
  | .tickBoundary .. => true
  | .migrateAbandoned .. => true
  | .tdmFrameStart g rx tx => slotsOk g rx && slotsOk g tx
  | .mastWatchdog => true
  | .mastMemUe .. => true
  | .mastRestart => true
  | .sessionInsert => true
  | .sessionDelete => true
  | .chanAdmit => true
  | .chanModify => true
  | .chanPark => true
  | .chanMigrate => true
  | .chanQuery => true
  | .chanClose => true
  | .statsRead => true
  | .channelTickWork _ sig => signalsOk sig
  | .windowPlacement .. => true
  | .windowRelease .. => true
  | .dtdHangoverEnd .. => true
  | .divergenceReset .. => true
  | .toneDisableEnter .. => true
  | .toneDisableExit .. => true
  | .muteLift .. => true
  | .eventGenerationEnd .. => true
  | .toneGenEnd .. => true
  | .rtcpReport .. => true
  | .vbdExit .. => true
  | .adaptWindowEnd .. => true
  | .intervalClose .. => true
  | .bundleReceive _ bytes _ => decide (0 < bytes.length)
  | .reorderTimeout .. => true
  | .bndPeerDown .. => true
  | .peerEnable .. => true
  | .dicCmdTurn .. => true
  | .portRestart .. => true
  | .portLinkUp .. => true
  | .portLinkDown .. => true
  | .frameReceive _ bytes _ => decide (0 < bytes.length)
  | .pauseExpire .. => true
  | .pauseWatchdog .. => true
  | .holdoffEnd .. => true
  | .classifyFrame .. => true
  | .mastFrameReceive .. => true
  | .frameTransmit .. => true
  | .txMapChange .. => true
  | .gateApply .. => true
  | .gateListStart .. => true
  | .gateEntryChange .. => true
  | .svcCollision .. => true
  | .svcBackoffEnd => true
  | .mdioStart .. => true
  | .mdioDone .. => true
  | .tdmGroupCtrlWrite .. => true
  | .tdmGroupLocked .. => true
  | .tdmGroupLost .. => true
  | .tdmClockReturn .. => true
  | .mapSwapArm .. => true
  | .mapSwapCancel .. => true
  | .tdmMapSwap => true
  | .timeCapture .. => true
  | .timeStep .. => true
  | .timeAccept .. => true
  | .servoHold .. => true
  | .servoResume .. => true
  | .servoCtrlWrite .. => true
  | .timRateWrite .. => true
  | .hostPush .. => true
  | .ptpReceive .. => true
  | .delayReqSend => true
  | .announceTimeout => true
  | .tcForward .. => true
  | .timedAction .. => true
  | .islClkRequest .. => true
  | .synthLock .. => true
  | .islClkSwitch .. => true
  | .islClkLockFail .. => true
  | .queuePushStart _ port _ => decide (port < 16)
  | .queuePushWord .. => true
  | .queuePop _ _ bits => bits != 3
  | .queueNotice .. => true
  | .deliveryWrite .. => true
  | .queStall .. => true
  | .rigStart .. => true
  | .rigAbort .. => true
  | .rigRollbackCommit .. => true
  | .rigData _ bytes => decide (bytes.length % 4 = 0)
  | .rigDataTimeout => true
  | .qspiRead .. => true
  | .imageReceived => true
  | .loaderCheckDone => true
  | .rigApply .. => true
  | .rerigApply => true
  | .resetAssert => true
  | .resetRelease .. => true
  | .bootSupplyReady .. => true
  | .firmwareReady => true
  | .fwStartTimeout => true
  | .ownerEnrol .. => true
  | .keyRevoke .. => true
  | .lockDebug .. => true
  | .attestRequest .. => true
  | .attestDone => true
  | .registerWrite .. => true
  | .laneRestart .. => true
  | .mstTickLoRead .. => true
  | .read .. => true
  | .write .. => true
  | .writePosted .. => true
  | .cmdSubmit .. => true
  | .cplRead .. => true
  | .evtRead .. => true
  | .responseRead .. => true
  | .enec .. => true
  | .disec .. => true
  | .rstdaa => true
  | .entdaa addr _ => dynamicAddr addr
  | .setdasa _ addr => dynamicAddr addr
  | .setaasa => true
  | .setnewda addr => dynamicAddr addr
  | .getpid => true
  | .getbcr => true
  | .getdcr => true
  | .getstatus => true
  | .setmwl .. => true
  | .getmwl => true
  | .setmrl .. => true
  | .getmrl => true
  | .getmxds => true
  | .getcaps => true
  | .enthdr0 => true
  | .entas0 => true
  | .entas1 => true
  | .entas2 => true
  | .entas3 => true
  | .eventPost => true
  | .transferUe _ _ _ len bad => decide (bad.toNat < len.toNat)
  | .celScrubRead bits => bits != 3
  | .celCaRetry .. => true
  | .celRetrainDone .. => true
  | .stayLinkUp .. => true
  | .stayLinkDown .. => true
  | .stayCutEnd .. => true
  | .helloSend .. => true
  | .stayRetransmit .. => true
  | .ack _ f => stayOk 0 f
  | .hello _ f => stayOk 1 f
  | .heartbeat _ f => stayOk 2 f
  | .yield _ f => stayOk 3 f
  | .copy _ f _ => stayOk 4 f
  | .copyAck _ f => stayOk 5 f
  | .forward _ f => stayOk 6 f
  | .digest _ f => stayOk 7 f
  | .check _ f _ => stayOk 8 f
  | .sync _ f _ => stayOk 9 f
  | .selfCheck .. => true
  | .selfCheckTimeout => true
  | .bulkSyncStart => true
  | .pairSyncDone => true
  | .pairCopyTimeout => true
  | .pairHeartbeatLost => true
  | .challenge .. => true
  | .halyardStart => true
  | .halyardRound .. => true
  | .pairOwnerGained => true
  | .halyardStuckLow => true
  | .listeningEnd => true
  | .pairYieldFailed => true
  | .pairSwitch => true
  | .pairHold => true
  | .pairResync => true
  | .pairQuery => true
  | .hourEnd => true
  | .plannerRun => true
  | .planRun => true
  | .planRecordSet => true
  | .reefEnter => true
  | .reefExit => true
  | .wakeOnly => true
  | .reefEntry => true
  | .wakeOnlyEnter => true
  | .wakeOnlyExit .. => true
  | .supplyOutOfRange .. => true
  | .supplyInRange .. => true
  | .sequenceViolation .. => true
  | .sysclkLoss => true
  | .sysclkReturn .. => true
  | .refclkLoss => true
  | .refclkReturn => true
  | .bypass => true
  | .idcode => true
  | .samplePreload .. => true
  | .extest => true
  | .clamp => true
  | .highz => true
  | .tapReset => true
  | .vadd .. => true
  | .vsub .. => true
  | .vmul .. => true
  | .vfma .. => true
  | .vfms .. => true
  | .vmin .. => true
  | .vmax .. => true
  | .vrcp .. => true
  | .vrsq .. => true
  | .vcmpeq .. => true
  | .vcmplt .. => true
  | .vcmple .. => true
  | .vabs .. => true
  | .vneg .. => true
  | .vmov .. => true
  | .vand .. => true
  | .vor .. => true
  | .vxor .. => true
  | .vsel .. => true
  | .vbcast .. => true
  | .aclr .. => true
  | .aldv .. => true
  | .aadd .. => true
  | .amac .. => true
  | .amsc .. => true
  | .amul .. => true
  | .ascl .. => true
  | .ared .. => true
  | .astv .. => true
  | .cvtHf .. => true
  | .cvtFh .. => true
  | .cvtWf .. => true
  | .cvtFw .. => true
  | .vaddH .. => true
  | .vsubH .. => true
  | .vaddsH .. => true
  | .vsubsH .. => true
  | .vmulqH .. => true
  | .vmulqrH .. => true
  | .vabssH .. => true
  | .vnegsH .. => true
  | .vshlsH .. => true
  | .vshrH .. => true
  | .vnormH .. => true
  | .vaddsW .. => true
  | .vsubsW .. => true
  | .vshlsW .. => true
  | .vshrW .. => true
  | .vnormW .. => true
  | .vlmacW .. => true
  | .vlmscW .. => true
  | .vrndW .. => true
  | .ldW .. => true
  | .ldD .. => true
  | .ldQ .. => true
  | .ldWb .. => true
  | .stW .. => true
  | .stD .. => true
  | .stQ .. => true
  | .stfQ .. => true
  | .aload .. => true
  | .asave .. => true
  | .adda .. => true
  | .awr .. => true
  | .ard .. => true
  | .add .. => true
  | .sub .. => true
  | .and .. => true
  | .or .. => true
  | .xor .. => true
  | .shl .. => true
  | .shr .. => true
  | .sra .. => true
  | .mul .. => true
  | .seq .. => true
  | .slt .. => true
  | .sltu .. => true
  | .addi .. => true
  | .andi .. => true
  | .ori .. => true
  | .shli .. => true
  | .shri .. => true
  | .srai .. => true
  | .mov16 .. => true
  | .b .. => true
  | .bz .. => true
  | .bnz .. => true
  | .call .. => true
  | .ret .. => true
  | .loop .. => true
  | .mfs .. => true
  | .mts .. => true
  | .qpush .. => true
  | .qnote .. => true
  | .qwait .. => true
  | .cnext .. => true
  | .tdone .. => true
  | .bootSupplyTimeout => true
  | .powerOn => true
  | .busAvailable .. => true
  | .cellarDmaDone .. => true
  | .tdmFsMisplaced .. => true

end Sys2Proof
end

