-- ==== Sys2Proof/Config.lean ====
section
/-! DEFINITION. What the specification leaves open: constants with no body, so that a claim holds whatever they are.
A draw is applied to the counter `State.free`; the others are applied to the operands they depend on. -/

namespace Sys2Proof

/-- Free value: a natural number (log entry 3). -/
opaque Config.freeNat : Nat → Nat
/-- Free value: a truth value (log entry 3). -/
opaque Config.freeBool : Nat → Bool
/-- Free value: a 32-bit word (log entries 3, 6). -/
opaque Config.freeWord : Nat → BitVec 32
/-- Free value: byte `i` of a run of bytes (log entries 3, 6, 30). -/
opaque Config.freeByte : Nat → Nat → BitVec 8
/-- Free value: an integer (log entries 3, 30). -/
opaque Config.freeInt : Nat → Int
/-- The estimate of 1/a that VRCP returns outside the special cases R61 and R62 state (R62, log entry 22). -/
opaque Config.rcpEstimate : BitVec 32 → BitVec 32
/-- The estimate of 1/√a that VRSQ returns outside the special cases R61 and R62 state (R62, log entry 22). -/
opaque Config.rsqEstimate : BitVec 32 → BitVec 32
/-- Sum of two binary32 numbers as the planner forms it where no binary32 number is the sum (R452; log entry 40). -/
opaque Config.planAdd : BitVec 32 → BitVec 32 → BitVec 32
/-- Product of two binary32 numbers as the planner forms it where no binary32 number is the product (R452; log entry 40). -/
opaque Config.planMul : BitVec 32 → BitVec 32 → BitVec 32
/-- The acceleration factor of an hour whose junction temperatures add up to a sum over a number of ticks, where their mean is
not 105 degrees and the factor lies on the right side of 1 (R446; log entry 40). -/
opaque Config.accelFactor (sum : Int) (ticks : Nat) : BitVec 32
/-- The forecast end-of-life margin in ps where the sums fit no line: points, Σx, Σx², Σm, Σxm (R451; log entry 40). -/
opaque Config.forecastEol (n : Nat) (sx sxx sm sxm : BitVec 32) : Int
/-- The forecast years to a floor in units of 0.1 year where the sums fit no line, or the fit lies below the floor at once (R451;
log entry 40). -/
opaque Config.forecastYears (n : Nat) (sx sxx sm sxm : BitVec 32) (floor : Nat) : Nat
/-- Whether a value between two whole numbers is reported as the higher one: numerator and denominator (R451; log entry 40). -/
opaque Config.reportsUp : Int → Nat → Bool
/-- The abscissa x = h_e^0.2 of stress hours (R451; log entry 40). -/
opaque Config.stressPower : BitVec 32 → BitVec 32

/-- The state of a decoder after a frame, or after concealment where `frame` is empty: a function of codec, bit rate, Opus audio
rate and the state before, 0 being the standard initial one (R132, R135, R136; log entry 30). -/
opaque Config.decState (codec rate khz st : Nat) (frame : List (BitVec 8)) : Nat
/-- Sample `i` of tick `t` of what a decoder in state `st` makes of a frame, or conceals; from 16 on the samples of the 8 to 12
kHz band (R132, R135, R136, R137; log entry 30). -/
opaque Config.decSample (codec rate khz st : Nat) (frame : List (BitVec 8)) (t i : Nat) : BitVec 16
/-- Sample `i` of tick `t` of the concealment that continues from a decoder's state (R181, R183; log entry 30). -/
opaque Config.fillSample (codec rate khz st t i : Nat) : BitVec 16
/-- The state of an encoder after a run of samples (R132; log entry 30). -/
opaque Config.encState (codec rate khz st : Nat) (pcm : List Int) : Nat
/-- Byte `i` of what an encoder in state `st` makes of a run of samples (R132, R134; log entry 30). -/
opaque Config.encByte (codec rate khz st : Nat) (pcm : List Int) (i : Nat) : BitVec 8
/-- What a codec's own VAD and DTX decide on a frame's samples: nothing is transmitted, or a SID frame is; else speech (R136; log
entry 30). -/
opaque Config.vadNothing (codec st : Nat) (pcm : List Int) : Bool
/-- See `Config.vadNothing`. -/
opaque Config.vadSid (codec st : Nat) (pcm : List Int) : Bool
/-- Sample `i` of a tick that a 2:1 half-band filter makes, upward or downward, of a tick's samples and those before them (R137;
log entry 30). -/
opaque Config.halfBand (up : Bool) (past : List Int) (i : Nat) : BitVec 16
/-- Sample `n` of a sine of a frequency at a sample rate in kHz, full scale 2^15: its phase and rounding are open (R149; log entry
30). -/
opaque Config.sine (hz rate n : Nat) : BitVec 16
/-- The comfort-noise generator after a tick (R119; log entry 30). -/
opaque Config.noiseNext (seed : BitVec 32) : BitVec 32
/-- Sample `i` of comfort noise of a level in 0.1 dBm0 and a spectrum (R119; log entry 30). -/
opaque Config.noiseSample (seed fit : BitVec 32) (level : Int) (i : Nat) : BitVec 16
/-- The tag of a 10th-order linear-prediction fit after a tick's near-end samples (R119; log entry 30). -/
opaque Config.noiseFit (fit : BitVec 32) (near : List Int) : BitVec 32
/-- Whether the DTMF detector accepts a frequency, in 0.1 Hz, between 1.5 % and 3.5 % off (R145; log entry 31). -/
opaque Config.dtmfEdge (hz : Nat) : Bool
/-- Byte `i` of the header of a store room that holds commit cell, write position, rewind mark and playout instant (R164; log
entry 56). -/
opaque Config.roomHeader (k w mark : Int) (pNext i : Nat) : BitVec 8
/-- Byte `i` of an entry of the event list: media position, tone code, volume, duration, end (R164; log entry 56). -/
opaque Config.roomEvent (pos : BitVec 32) (code volume dur : Nat) (ended : Bool) (i : Nat) : BitVec 8

/-- Where in its attic, in units of 16 bytes, the dispatcher writes a lane's channel list of a tick (R99; log entry 94). -/
opaque Config.listPlace (lane tick : Nat) : Nat
/-- Where the hot context (`false`) or warm context (`true`) of a channel activated at a tick lies for a lane (R100; log entry
94). -/
opaque Config.contextPlace (lane chan since : Nat) (warm : Bool) : Nat
/-- The program word address of a channel's entry routine on a lane (R100; log entry 94). -/
opaque Config.entryRoutine (lane chan since : Nat) : BitVec 12

/-- Seconds from corrected time to the NTP time of RTCP sender reports (R144; log entry 53). -/
opaque Config.ntpOffset : Nat
/-- Whether the hexadecimal text of a CNAME is in upper case (R144; log entry 53). -/
opaque Config.cnameUpper : Bool
/-- The dependency edges of the device's own islands that the boot ROM adds to a queue graph (R325; log entry 71). -/
opaque Config.fixedEdges : Bytes → List (Nat × Nat)
/-- Whether a fixed endpoint number of island 9 is that of a stay endpoint (R324; log entry 71). -/
opaque Config.stayEndpoint : Nat → Bool
/-- Whether a producer endpoint of island 9 is that of a trunk receive queue which R232 does not let the image bind to a consumer
island and endpoint (R324; log entry 71). -/
opaque Config.rxMisbound (producer island consumer : Nat) : Bool
/-- Where in mast memory the firmware stands (R338; log entry 72). -/
opaque Config.firmwarePlace : Nat
/-- The contents of the boot ROM (R354; log entry 72). -/
opaque Config.rom : Bytes
/-- The firmware version that a MAST_FW spar declares: major, minor, build (R507; log entry 73). -/
opaque Config.firmwareVersion : Bytes → BitVec 32

end Sys2Proof
end

