-- ==== Sys2Proof/Machine/Float.lean ====
section
/-! DEFINITION. Number formats of the lane: binary32 (R58, R60, R61) and the 48-bit accumulator element (R64), both as
exact dyadic numbers with one rounding to nearest, ties to even. -/

namespace Sys2Proof.Machine

/-- A number of either format: a NaN with its sign and its 23 fraction bits or, in an accumulator, its 37 significand
bits; an infinity; or the finite value (-1)^neg * m * 2^e. -/
inductive Num where
  | nan (neg : Bool) (payload : Nat)
  | inf (neg : Bool)
  | fin (neg : Bool) (m : Nat) (e : Int)
  deriving DecidableEq, Repr

/-- Whether a number is a NaN. -/
def Num.isNan : Num → Bool
  | .nan _ _ => true
  | _ => false

/-- Whether a number is zero. -/
def Num.isZero : Num → Bool
  | .fin _ m _ => m == 0
  | _ => false

/-- The sign of a number. -/
def Num.neg : Num → Bool
  | .nan s _ => s
  | .inf s => s
  | .fin s _ _ => s

/-- The number with its sign inverted. -/
def Num.negate : Num → Num
  | .nan s p => .nan s p
  | .inf s => .inf (!s)
  | .fin s m e => .fin (!s) m e

/-- The number a binary32 pattern holds, a subnormal read as the zero of its sign (R61). -/
def ofF32 (w : BitVec 32) : Num :=
  let neg := w.getLsbD 31
  let e : Nat := w.toNat / 2 ^ 23 % 256
  let f : Nat := w.toNat % 2 ^ 23
  if e = 255 then (if f = 0 then .inf neg else .nan neg f)
  else if e = 0 then .fin neg 0 0
  else .fin neg (f + 2 ^ 23) ((e : Int) - 150)

/-- The number an accumulator pattern holds (R64, Table 5). -/
def ofAcc (w : BitVec 48) : Num :=
  let neg := w.getLsbD 47
  let e : Nat := w.toNat / 2 ^ 37 % 1024
  let m : Nat := w.toNat % 2 ^ 37
  if e = 1023 then (if m = 0 then .inf neg else .nan neg m)
  else if e = 0 ∨ m < 2 ^ 36 then .fin neg 0 0
  else .fin neg m ((e : Int) - 547)

/-- A positive significand rounded to `p` bits, to nearest with ties to even: the significand, normalised to exactly `p`
bits, and its exponent (R60). -/
def roundTo (p : Nat) (m : Nat) (e : Int) : Nat × Int :=
  let len := m.log2 + 1
  if len ≤ p then (m * 2 ^ (p - len), e - ((p - len : Nat) : Int))
  else
    let sh := len - p
    let q := m / 2 ^ sh
    let r := m % 2 ^ sh
    let half := 2 ^ (sh - 1)
    let q' := if r > half ∨ (r = half ∧ q % 2 = 1) then q + 1 else q
    if q' = 2 ^ p then (2 ^ (p - 1), e + (sh : Int) + 1) else (q', e + (sh : Int))

/-- A sign, an exponent field and a fraction as a binary32 pattern. -/
def packF32 (neg : Bool) (e f : Nat) : BitVec 32 := BitVec.ofNat 32 ((if neg then 2 ^ 31 else 0) + e * 2 ^ 23 + f)

/-- The largest finite binary32 number of a sign. -/
def maxF32 (neg : Bool) : BitVec 32 := packF32 neg 254 (2 ^ 23 - 1)

/-- The default NaN of a vector operation (R61). -/
def defaultNan32 : BitVec 32 := 0x7FC00000

/-- The binary32 result of an operation and whether it set sat: rows of Table 2 for results (R61). -/
def toF32 : Num → BitVec 32 × Bool
  | .nan s p => (packF32 s 255 p, false)
  | .inf s => (maxF32 s, true)
  | .fin s m e =>
    if m = 0 then (packF32 s 0 0, false)
    else
      let r := roundTo 24 m e
      if r.2 + 150 ≥ 255 then (maxF32 s, true)
      else if r.2 + 150 < 1 then (packF32 s 0 0, false)
      else (packF32 s (r.2 + 150).toNat (r.1 - 2 ^ 23), false)

/-- A sign, an exponent field and a significand as an accumulator pattern. -/
def packAcc (neg : Bool) (e m : Nat) : BitVec 48 := BitVec.ofNat 48 ((if neg then 2 ^ 47 else 0) + e * 2 ^ 37 + m)

/-- The default NaN of an accumulator operation, with sign 0, which R64 leaves open (log entry 26). -/
def defaultNanAcc : Num := .nan false (2 ^ 35)

/-- The accumulator pattern of a result and whether acc_ovf was set (R66). -/
def toAcc : Num → BitVec 48 × Bool
  | .nan s p => (packAcc s 1023 p, false)
  | .inf s => (packAcc s 1023 0, false)
  | .fin s m e =>
    if m = 0 then (packAcc s 0 0, false)
    else
      let r := roundTo 37 m e
      if r.2 + 547 > 1022 then (packAcc s 1022 (2 ^ 37 - 1), true)
      else if r.2 + 547 < 1 then (packAcc s 0 0, false)
      else (packAcc s (r.2 + 547).toNat r.1, false)

/-- A binary32 number as an accumulator reads it: a NaN's fraction goes to m[35:13] with m[35] set (R64). -/
def accOperand (w : BitVec 32) : Num :=
  match ofF32 w with
  | .nan s p => .nan s (p * 2 ^ 13 % 2 ^ 36 ||| 2 ^ 35)
  | n => n

/-- The signed integer of a finite number's significand at a common exponent. -/
def scaled (neg : Bool) (m : Nat) (e base : Int) : Int :=
  let v : Int := (m * 2 ^ (e - base).toNat : Nat)
  if neg then -v else v

/-- The finite number of a signed integer at an exponent; zero takes the given sign. -/
def ofInt (v : Int) (e : Int) (zeroNeg : Bool) : Num :=
  if v = 0 then .fin zeroNeg 0 0 else .fin (decide (v < 0)) v.natAbs e

/-- Exact sum of two numbers that are no NaN; `dn` is the default NaN of ∞ - ∞ (R61, R66). -/
def addNum (dn : Num) : Num → Num → Num
  | .inf s, .inf t => if s = t then .inf s else dn
  | .inf s, _ => .inf s
  | _, .inf t => .inf t
  | .fin s m e, .fin t n f =>
    let base := min e f
    ofInt (scaled s m e base + scaled t n f base) base (s && t)
  | x, _ => x

/-- Exact product of two numbers that are no NaN; `dn` is the default NaN of 0 × ∞ (R61, R66). -/
def mulNum (dn : Num) : Num → Num → Num
  | .inf s, y => if y.isZero then dn else .inf (s != y.neg)
  | x, .inf t => if x.isZero then dn else .inf (x.neg != t)
  | .fin s m e, .fin t n f => .fin (s != t) (m * n) (e + f)
  | x, _ => x

/-- A number times 2^k. -/
def scaleNum (k : Int) : Num → Num
  | .fin s m e => .fin s m (e + k)
  | n => n

/-- The default NaN of a vector operation as a number. -/
def nan32 : Num := .nan false 0x400000

/-- A NaN operand as a vector result: bit 22 set, other bits kept (R61). -/
def quiet : Num → Num
  | .nan s p => .nan s (p ||| 0x400000)
  | n => n

/-- The first NaN of a list of operands. -/
def firstNan (l : List Num) : Option Num := l.find? Num.isNan

/-- A vector float operation on operands: the first NaN quieted, or the operation's exact value rounded (R61). -/
def floatOp (ops : List Num) (exact : Num) : BitVec 32 × Bool :=
  match firstNan ops with
  | some n => toF32 (quiet n)
  | none => toF32 exact

/-- Whether a number is less than another, neither a NaN; -0 and +0 are equal. -/
def ltNum : Num → Num → Bool
  | .inf s, .inf t => s && !t
  | .inf s, _ => s
  | _, .inf t => !t
  | .fin s m e, .fin t n f => let base := min e f; decide (scaled s m e base < scaled t n f base)
  | _, _ => false

/-- Whether two numbers are equal, neither a NaN; -0 and +0 are equal. -/
def eqNum (a b : Num) : Bool := !a.isNan && !b.isNan && !ltNum a b && !ltNum b a

/-- The order of VMIN and VMAX: -0 below +0 (R62). -/
def belowNum (a b : Num) : Bool := ltNum a b || (eqNum a b && a.neg && !b.neg)

/-- VADD of an element (R62). -/
def f32Add (a b : BitVec 32) : BitVec 32 × Bool :=
  floatOp [ofF32 a, ofF32 b] (addNum nan32 (ofF32 a) (ofF32 b))
/-- VSUB of an element (R62). -/
def f32Sub (a b : BitVec 32) : BitVec 32 × Bool :=
  floatOp [ofF32 a, ofF32 b] (addNum nan32 (ofF32 a) (ofF32 b).negate)
/-- VMUL of an element (R62). -/
def f32Mul (a b : BitVec 32) : BitVec 32 × Bool :=
  floatOp [ofF32 a, ofF32 b] (mulNum nan32 (ofF32 a) (ofF32 b))

/-- A sum whose first term may already be the default NaN of an invalid product. -/
def addAfter (dn p c : Num) : Num := if p.isNan then dn else addNum dn p c

/-- VFMA of an element: a × b + c with one rounding (R62). -/
def f32Fma (a b c : BitVec 32) : BitVec 32 × Bool :=
  floatOp [ofF32 a, ofF32 b, ofF32 c] (addAfter nan32 (mulNum nan32 (ofF32 a) (ofF32 b)) (ofF32 c))
/-- VFMS of an element: c - a × b with one rounding (R62). -/
def f32Fms (a b c : BitVec 32) : BitVec 32 × Bool :=
  floatOp [ofF32 a, ofF32 b, ofF32 c] (addAfter nan32 (mulNum nan32 (ofF32 a) (ofF32 b)).negate (ofF32 c))
/-- VMIN of an element (R62). -/
def f32Min (a b : BitVec 32) : BitVec 32 × Bool :=
  floatOp [ofF32 a, ofF32 b] (if belowNum (ofF32 b) (ofF32 a) then ofF32 b else ofF32 a)
/-- VMAX of an element (R62). -/
def f32Max (a b : BitVec 32) : BitVec 32 × Bool :=
  floatOp [ofF32 a, ofF32 b] (if belowNum (ofF32 a) (ofF32 b) then ofF32 b else ofF32 a)

/-- All ones where a relation holds and neither operand is a NaN (R62). -/
def f32Cmp (rel : Num → Num → Bool) (a b : BitVec 32) : BitVec 32 × Bool :=
  let x := ofF32 a
  let y := ofF32 b
  (if !x.isNan && !y.isNan && rel x y then 0xFFFFFFFF else 0, false)

/-- Whether x is within relative error 2^-12 of y for positive dyadic numbers: |x - y| * 4096 < y. -/
def within12 (xm : Nat) (xe : Int) (ym : Nat) (ye : Int) : Bool :=
  let base := min xe ye
  let x := scaled false xm xe base
  let y := scaled false ym ye base
  decide ((x - y).natAbs * 4096 < y.natAbs)

/-- The reciprocal of m * 2^e as a dyadic number, its first 60 bits and a sticky bit. -/
def recip (m : Nat) (e : Int) : Nat × Int :=
  let q := 2 ^ 90 / m
  (2 * q + (if 2 ^ 90 % m = 0 then 0 else 1), -91 - e)

/-- The reciprocal square root of m * 2^e as a dyadic number. -/
def recipSqrt (m : Nat) (e : Int) : Nat × Int :=
  let odd := e % 2 = 1
  let m' := if odd then 2 * m else m
  let e' := if odd then e - 1 else e
  let q := (2 ^ 140 / m').sqrt
  (2 * q + 1, -71 - e' / 2)

/-- An estimate that is the free value where it keeps the error bound of R62, and else the value itself rounded: the
value's dyadic form `v`, the free estimate `est` (log entry 22). -/
def bounded (neg : Bool) (v : Nat × Int) (est : BitVec 32) : BitVec 32 × Bool :=
  match ofF32 est with
  | .fin s m e =>
    if s = neg ∧ m ≠ 0 ∧ within12 m e v.1 v.2 then (est, false) else toF32 (.fin neg v.1 v.2)
  | _ => toF32 (.fin neg v.1 v.2)

/-- VRCP of an element (R61, R62). -/
def f32Rcp (a : BitVec 32) : BitVec 32 × Bool :=
  match ofF32 a with
  | .nan s p => toF32 (quiet (.nan s p))
  | .inf s => (packF32 s 0 0, false)
  | .fin s m e => if m = 0 then (maxF32 s, true) else bounded s (recip m e) (Config.rcpEstimate a)

/-- VRSQ of an element (R61, R62). The rows of Table 2 apply in order: a negative subnormal is invalid before it is flushed.
-/
def f32Rsq (a : BitVec 32) : BitVec 32 × Bool :=
  if 0x80000001 ≤ a.toNat ∧ a.toNat < 0x80800000 then (defaultNan32, false)
  else match ofF32 a with
  | .nan s p => toF32 (quiet (.nan s p))
  | .inf s => if s then (defaultNan32, false) else (packF32 false 0 0, false)
  | .fin s m e =>
    if m = 0 then (maxF32 s, true)
    else if s then (defaultNan32, false)
    else bounded false (recipSqrt m e) (Config.rsqEstimate a)

/-- An accumulator operation on operands: the first NaN as it is, or the exact value rounded to 37 bits (R65, R66). -/
def accOp (ops : List Num) (exact : Num) : BitVec 48 × Bool :=
  match firstNan ops with
  | some n => toAcc n
  | none => toAcc exact

/-- The nearest integer to m * 2^e, ties to even. -/
def roundInt (m : Nat) (e : Int) : Nat :=
  if 0 ≤ e then m * 2 ^ e.toNat
  else
    let sh := (-e).toNat
    let q := m / 2 ^ sh
    let r := m % 2 ^ sh
    let half := 2 ^ (sh - 1)
    if r > half ∨ (r = half ∧ q % 2 = 1) then q + 1 else q

/-- A number times 2^s rounded to an integer within limits: the integer, whether it was limited, whether it was a NaN
(R69). -/
def toInt (lo hi : Int) (s : Int) (x : Num) : Int × Bool × Bool :=
  match x with
  | .nan _ _ => (0, false, true)
  | .inf neg => (if neg then lo else hi, true, false)
  | .fin neg m e =>
    let q : Int := roundInt m (e + s)
    let v := if neg then -q else q
    if v > hi then (hi, true, false) else if v < lo then (lo, true, false) else (v, false, false)

/-- What a float store writes for an element, and the flags nan_seen and sat (R63). -/
def storeFix (w : BitVec 32) : BitVec 32 × Bool × Bool :=
  let e : Nat := w.toNat / 2 ^ 23 % 256
  let f : Nat := w.toNat % 2 ^ 23
  if e = 255 ∧ f ≠ 0 then (defaultNan32, true, false)
  else if e = 255 then (maxF32 (w.getLsbD 31), false, true)
  else if e = 0 ∧ f ≠ 0 then (packF32 (w.getLsbD 31) 0 0, false, false)
  else (w, false, false)

/-- ASTV of an element: binary32 of an accumulator element, and the flags nan_seen and sat (R67). -/
def accToF32 (w : BitVec 48) : BitVec 32 × Bool × Bool :=
  match ofAcc w with
  | .nan _ _ => (defaultNan32, true, false)
  | .inf s => (maxF32 s, false, true)
  | .fin s m e => let r := toF32 (.fin s m e); (r.1, false, r.2)

end Sys2Proof.Machine
end

