-- ==== Sys2Proof/Machine/Filter.lean ====
section
/-! DEFINITION. The echo canceller's arithmetic on samples: residual, gains and adaptation of taps in binary32 (R115), levels
(R116), the double-talk test (R117), the crossing of outputs (R118), and the delay finder's correlation (R109). What spec/
leaves to the arithmetic (the order of operations, how a level is rounded) is the model's reading (log entry 32). -/

namespace Sys2Proof.Machine

/-! ### Binary32 with flags (R71, R115) -/

/-- A binary32 value and the flags that making it raised: acc_ovf, sat, nan_seen as AFS holds them. -/
abbrev Flagged := BitVec 32 × BitVec 3

/-- The result of an operation that sets sat, on operands that raised `fs`. -/
def flagged (r : BitVec 32 × Bool) (fs : BitVec 3) : Flagged := (r.1, if r.2 then fs ||| 2 else fs)
/-- A sum. -/
def plusF (a b : Flagged) : Flagged := flagged (f32Add a.1 b.1) (a.2 ||| b.2)
/-- A difference. -/
def minusF (a b : Flagged) : Flagged := flagged (f32Sub a.1 b.1) (a.2 ||| b.2)
/-- A product. -/
def timesF (a b : Flagged) : Flagged := flagged (f32Mul a.1 b.1) (a.2 ||| b.2)

/-- The quotient of finite numbers rounded once; a divisor of zero gives the largest number and sat. -/
def overF (a b : Flagged) : Flagged :=
  let fs := a.2 ||| b.2
  match ofF32 a.1, ofF32 b.1 with
  | .fin s m e, .fin t n f =>
    if n = 0 then (maxF32 (s != t), fs ||| 2)
    else flagged (toF32 (.fin (s != t) (2 * (m * 2 ^ 60 / n) + if m * 2 ^ 60 % n = 0 then 0 else 1) (e - f - 61))) fs
  | _, _ => (defaultNan32, fs ||| 4)

/-- The magnitude. -/
def magF (a : BitVec 32) : BitVec 32 := a &&& 0x7FFFFFFF
/-- v × 2^e. -/
def numF (v e : Int) : Flagged := ((toF32 (ofInt v e false)).1, 0)
/-- A 16-bit sample, full scale ±1.0 (R115). -/
def sampleF (x : Int) : BitVec 32 := (numF x (-15)).1

/-- The sum of products in an accumulator, as binary32 (R64 to R67, R115). -/
def sumProducts (l : List (BitVec 32 × BitVec 32)) : Flagged :=
  let r := l.foldl (fun (a : BitVec 48 × BitVec 3) p =>
    let x := accOp [ofAcc a.1, accOperand p.1, accOperand p.2]
      (addAfter defaultNanAcc (mulNum defaultNanAcc (accOperand p.1) (accOperand p.2)) (ofAcc a.1))
    (x.1, if x.2 then a.2 ||| 1 else a.2)) (0, 0)
  let v := accToF32 r.1
  (v.1, (if v.2.1 then r.2 ||| 4 else r.2) ||| (if v.2.2 then 2 else 0))

/-! ### Residual, gains, adaptation (R115) -/

/-- A list cut into runs of eight. -/
def groupsOf8 {α : Type} : Nat → List α → List (List α)
  | 0, _ => []
  | fuel + 1, l => if l.isEmpty then [] else l.take 8 :: groupsOf8 fuel (l.drop 8)

/-- The gains of each window's groups of 8 consecutive taps (R115). `ws` are the windows' taps, `alpha` the stored
parameter. -/
def groupGains (alpha : Nat) (ws : List (List (BitVec 32))) : List (List Flagged) :=
  let n := (ws.map List.length).sum
  let one : BitVec 32 := 0x3F800000
  let total := sumProducts (ws.flatten.map (fun w => (magF w, one)))
  let den := plusF (timesF (numF 16 0) total) (0x358637BD, 0)
  let base := overF (numF (256 - (alpha : Int)) (-7)) (numF (2 * (n : Int)) 0)
  ws.map (fun w => (groupsOf8 w.length w).map (fun g =>
    plusF base (overF (timesF (numF alpha (-7)) (sumProducts (g.map (fun w => (magF w, one))))) den)))

/-- The gain of each tap of the windows from the gains of their groups. -/
def tapGains (ws : List (List (BitVec 32))) (gains : List (List Flagged)) : List Flagged :=
  (ws.zip gains).flatMap (fun p => (p.2.flatMap (List.replicate 8)).take p.1.length)

/-- The residual of a sample: e = y - Σ wᵢ xᵢ. -/
def residual (taps x : List (BitVec 32)) (y : Int) : Flagged := minusF (sampleF y, 0) (sumProducts (taps.zip x))

/-- The taps after one sample's update, with the flags raised so far (R115). -/
def adaptSample (mu : Nat) (gains : List Flagged) (x : List (BitVec 32)) (e : Flagged) (taps : List (BitVec 32))
    (fs : BitVec 3) : List (BitVec 32) × BitVec 3 :=
  let p := sumProducts ((gains.zip x).map (fun g => ((timesF g.1 (g.2, 0)).1, g.2)))
  let den := plusF p (timesF (numF taps.length 0) (0x3727C5AC, 0))
  let step := fun (g : Flagged) (x : BitVec 32) => overF (timesF (timesF (timesF (numF mu (-10)) g) e) (x, 0)) den
  let new := (taps.zip (gains.zip x)).map (fun t => plusF (t.1, 0) (step t.2.1 t.2.2))
  (new.map (fun t => t.1), new.foldl (fun f t => f ||| t.2) (fs ||| p.2))

/-- A list cut into runs of given lengths. -/
def cutRuns {α : Type} : List Nat → List α → List (List α)
  | [], _ => []
  | k :: t, l => l.take k :: cutRuns t (l.drop k)

/-- What a window shows of the reference for sample `j` of a tick of `f` samples: the sample at each of its lags, from the
window's samples newest first (R107, R115). -/
def lagsAt (f j len : Nat) (h : List Int) : List Int := (h.drop (f - 1 - j)).take len

/-- What filtering a tick gives: the residuals, the windows' taps after it, their groups' gains, the flags raised (R115,
R122). -/
structure Filtered where
  e : List (BitVec 32)
  taps : List (List (BitVec 32))
  gains : List (List (BitVec 32))
  flags : BitVec 3
  deriving DecidableEq, Repr

/-- A tick of the filter: the gains, the residuals of all its samples, then, where it adapts, the update of each sample (R115,
R122).
`ws` holds for each window its taps and its samples newest first, `ys` the near-end samples. -/
def filterTick (adapts : Bool) (mu alpha : Nat) (ws : List (List (BitVec 32) × List Int)) (ys : List Int) : Filtered :=
  let f := ys.length
  let taps := ws.flatMap (fun w => w.1)
  let x := fun (j : Nat) => ws.flatMap (fun w => (lagsAt f j w.1.length w.2).map sampleF)
  let es := ys.zipIdx.map (fun p => residual taps (x p.2) p.1)
  let groups := groupGains alpha (ws.map (fun w => w.1))
  let gains := tapGains (ws.map (fun w => w.1)) groups
  let fs := es.foldl (fun f e => f ||| e.2) (gains.foldl (fun f g => f ||| g.2) 0)
  let r := if adapts then
      es.zipIdx.foldl (fun (a : List (BitVec 32) × BitVec 3) p => adaptSample mu gains (x p.2) p.1 a.1 a.2) (taps, fs)
    else (taps, fs)
  { e := es.map (fun e => e.1), taps := cutRuns (ws.map (fun w => w.1.length)) r.1
    gains := groups.map (fun g => g.map (fun x => x.1)), flags := r.2 }

/-! ### Levels (R116, R128) -/

/-- The mean square of a tick's samples, full scale ±1.0. -/
def meanSquare (xs : List Int) : BitVec 32 :=
  let sum := xs.foldl (fun n x => n + x.natAbs * x.natAbs) 0
  (toF32 (.fin false sum (-30 - (xs.length.log2 : Int)))).1
/-- The mean square of a tick's residuals. -/
def meanSquareF (es : List (BitVec 32)) : BitVec 32 :=
  (timesF (sumProducts (es.map (fun e => (e, e)))) (numF 1 (-(es.length.log2 : Int)))).1
/-- A power smoothed by 63/64 a tick. -/
def smoothPower (p m : BitVec 32) : BitVec 32 := (plusF (timesF (numF 63 (-6)) (p, 0)) (timesF (numF 1 (-6)) (m, 0))).1

/-- Whether a power is at least `n` tenths of a dBm0, where 0 dBm0 is a sine that peaks 3.14 dB below full scale (R116):
P ≥ 10^(n/100 - 0.314) / 2, each side to its 500th power. -/
def reaches (m : Nat) (e n : Int) : Bool :=
  let left := m ^ 500 * 2 ^ (500 * e + 500).toNat * 10 ^ (157 - 5 * n).toNat
  let right := 2 ^ (-(500 * e + 500)).toNat * 10 ^ (5 * n - 157).toNat
  decide (right ≤ left)

/-- Whether a tick's samples stay below a level in 0.1 dBm0, taken over the tick (R116, R120, R156; log entry 32). -/
def belowLevel (n : Int) (xs : List Int) : Bool :=
  match ofF32 (meanSquare xs) with
  | .fin _ m e => m == 0 || !reaches m e n
  | _ => false

/-- The highest of `n` tenths from `low` on that a power reaches, found by halving. -/
def highestReached (m : Nat) (e : Int) : Nat → Int → Nat → Int
  | 0, low, _ => low
  | fuel + 1, low, span =>
    if span ≤ 1 then low
    else if reaches m e (low + (span / 2 : Nat)) then highestReached m e fuel (low + (span / 2 : Nat)) (span - span / 2)
    else highestReached m e fuel low (span / 2)

/-- The level of a power in 0.1 dBm0, rounded down, from -100.0 to +3.1 dBm0. -/
def levelOf (p : BitVec 32) : Int :=
  match ofF32 p with
  | .fin _ m e => if m = 0 then -1000 else highestReached m e 12 (-1000) 1032
  | _ => 31

/-! ### Double talk (R117) -/

/-- Whether |y| > T × max |x| with T = 10^(-db/20): the 20th powers compared. -/
def talks (db : Nat) (y : Int) (most : Nat) : Bool := decide (most ^ 20 < y.natAbs ^ 20 * 10 ^ db)

/-- Whether a tick's samples hold double talk over the windows' lengths and samples (R117). -/
def doubleTalk (db : Nat) (ws : List (Nat × List Int)) (ys : List Int) : Bool :=
  ys.zipIdx.any (fun p => talks db p.1
    (ws.foldl (fun m w => (lagsAt ys.length p.2 w.1 w.2).foldl (fun m x => max m x.natAbs) m) 0))

/-! ### Output (R118) -/

/-- A residual as a 16-bit sample. -/
def sampleOf (e : BitVec 32) : Int := (toInt (-32768) 32767 15 (ofF32 e)).1

/-- The crossing from one output to another over a tick's samples, linear, the last sample wholly the new one (R118). -/
def crossed (old new : List Int) : List Int :=
  let f : Int := new.length
  (old.zip new).zipIdx.map (fun p => (p.1.1 * (f - 1 - p.2) + p.1.2 * (p.2 + 1)) / f)

/-! ### Correlation (R109) -/

/-- A smoothed value after a tick: 63/64 of it and 1/64 of the new one. -/
def smoothed (c v : Int) : Int := c + (65536 * v - c) / 64

/-- The finder after a tick in which the decimated near-end sample is `d` and the far end's, written at the tick's end, `r`:
lag 0 meets no reference sample, lag l the one of l ticks ago. -/
def Finder.after (tail : Nat) (d r : Int) (f : Finder) : Finder :=
  let x := fun (l : Nat) => if l = 0 then 0 else f.ref.getD (l - 1) 0
  { ref := (r :: f.ref).take 512
    corr := (List.range tail).map (fun l => smoothed (f.corr.getD l 0) (d * x l))
    en := smoothed f.en (d * d), ef := smoothed f.ef (r * r) }

/-- The normalised correlation of each lag at which it is positive, in 1/10,000 rounded down (R109). -/
def Finder.rho (f : Finder) : List (Nat × Nat) :=
  let e := (f.en * f.ef).toNat
  if e = 0 then []
  else f.corr.zipIdx.filterMap (fun p =>
    if p.1 ≤ 0 then none else some (p.2, (10 ^ 8 * p.1.toNat ^ 2 / e).sqrt))

end Sys2Proof.Machine
end

