-- ==== Sys2Proof/Machine/G711.lean ====
section
/-! DEFINITION. G.711: the linear value of a code, the code of a linear value, conversion between the laws, and the peak
amplitudes of R116 (R5, R116, R132, R137, R181, R258). Values are 16-bit (PRESUMED, log entry 31). -/

namespace Sys2Proof.Machine

/-- A magnitude with the sign that a code's top bit gives: set is positive. -/
def signedCode (c : Byte) (x : Nat) : Int := if 128 ≤ c.toNat then (x : Int) else -(x : Int)

/-- The linear value of a µ-law code: segment e and step m of the inverted code. -/
def muExpand (c : Byte) : Int :=
  let v := 255 - c.toNat
  signedCode c (4 * ((33 + 2 * (v % 16)) * 2 ^ (v / 16 % 8) - 33))

/-- The linear value of an A-law code, whose even bits are inverted. -/
def aExpand (c : Byte) : Int :=
  let v := (c ^^^ 0x55).toNat
  let e := v / 16 % 8
  signedCode (c ^^^ 0x55) (if e = 0 then 16 * (v % 16) + 8 else (16 * (v % 16 + 16) + 8) * 2 ^ (e - 1))

/-- The magnitude that a negative value is coded by: its one's complement. -/
def codedMagnitude (x : Int) : Nat := if x < 0 then (-x - 1).toNat else x.toNat

/-- The µ-law code of a 16-bit value. -/
def muCompress (x : Int) : Byte :=
  let a := min 8191 (codedMagnitude x / 4 + 33)
  let seg := Nat.log2 a - 4
  BitVec.ofNat 8 ((8 - seg) * 16 + (15 - a / 2 ^ seg % 16) + if x < 0 then 0 else 128)

/-- The A-law code of a 16-bit value. -/
def aCompress (x : Int) : Byte :=
  let i := codedMagnitude x / 16
  let k := if i < 16 then i else 16 * (Nat.log2 i - 3) + i / 2 ^ (Nat.log2 i - 4) - 16
  BitVec.ofNat 8 (k + if x < 0 then 0 else 128) ^^^ 0x55

/-- The linear value of a code under a law: 1 µ-law, 2 A-law. -/
def expandCode (law : Nat) (c : Byte) : Int := if law = 1 then muExpand c else aExpand c

/-- The code of a linear value under a law: 1 µ-law, 2 A-law. -/
def compressCode (law : Nat) (x : Int) : Byte := if law = 1 then muCompress x else aCompress x

/-- A code of one law as the other law codes its value; under one law it stays. -/
def recode (a b : Nat) (c : Byte) : Byte := if a = b then c else compressCode b (expandCode a c)

/-- The ratio of amplitudes of a level difference in 0.1 dB, as a fraction: powers of 10^(1/200) to 40 places. -/
def dbRatio (tenths : Int) : Nat × Nat :=
  let k := tenths.natAbs
  let up := 10115794542598985244409323144543146957419 ^ k
  let one := 10 ^ (40 * k)
  if 0 ≤ tenths then (up, one) else (one, up)

/-- A fraction rounded to the nearest 16-bit value, halves away from zero, saturated. -/
def roundSample (num : Int) (den : Nat) : Int :=
  let m : Int := ((2 * num.natAbs + den) / (2 * den) : Nat)
  max (-32768) (min 32767 (if num < 0 then -m else m))

/-- A sample under a gain in 0.1 dB (R269; log entry 31). -/
def gained (tenths x : Int) : Int :=
  if tenths = 0 then x else roundSample (x * (dbRatio tenths).1) (dbRatio tenths).2

/-- A sample of a sine of full scale at a level in dBm0, 0 dBm0 peaking at 22,827.0576143816692889 (R116, R149). -/
def atLevel (level x : Int) : Int :=
  let r := dbRatio (10 * level)
  roundSample (x * (228270576143816692889 * r.1 : Nat)) (32768 * 10 ^ 16 * r.2)

/-- The peak amplitude of a sine at a level of -70 to -30 dBm0, rounded down: 0 dBm0 peaks 3.14 dB below 16-bit full scale
(R116). -/
def peakOf (level : Int) : Nat :=
  [7, 8, 9, 10, 11, 12, 14, 16, 18, 20, 22, 25, 28, 32, 36, 40, 45, 51, 57, 64, 72, 80, 90, 101, 114, 128, 144, 161, 181, 203,
   228, 256, 287, 322, 361, 405, 455, 511, 573, 643, 721].getD (level + 70).toNat 0

/-- Whether every sample of a run stays below a level (R181). -/
def staysBelow (level : Int) (b : List Int) : Bool := b.all (fun x => decide (x.natAbs ≤ peakOf level))

end Sys2Proof.Machine
end

