-- ==== Sys2Proof/Machine/RegMap.lean ====
section
/-! DEFINITION. The register map (R8, R10, R500 to R510): every register of Table 8 of the register index, its
address and copies, and the bits, access type, reset value and reserved values of each of its fields, as the chapter
that owns the register tabulates them. -/

namespace Sys2Proof.Machine

/-- The registers of the index (R510), one name for all copies of a repeated register. -/
inductive RegId where
  | MST_CHAN_STATUS
  | MST_SESSION_COUNT
  | MST_ADMIT_FAILS
  | LAN_LOAD
  | LAN_CTX
  | LAN_ARITH
  | LAN_BANK_STALL
  | LAN_DMEM_ECC
  | LAN_CTRL
  | LAN_STATUS
  | LAN_FAULT
  | LAN_FAULT_ADDR
  | LAN_OVERRUN
  | LAN_ENTRY
  | LAN_AGEN
  | LAN_PMEM_ECC
  | BND_NO_PEER
  | BND_PEER_CTRL
  | BND_PEER_STATE
  | BND_PEER_TXSEQ
  | BND_PEER_RXSEQ
  | BND_PEER_COUNT
  | BND_PEER_LOSS
  | BND_PEER_ERR
  | DIC_CMD
  | DIC_ECC
  | DIC_PEER
  | DIC_PEER_TURNS
  | TMC_CTRL
  | TMC_STATUS
  | TMC_ADDR_HI
  | TMC_ADDR_LO
  | TMC_TX_MAP
  | TMC_GATE_CTRL
  | TMC_GATE_CYCLE
  | TMC_GATE_BASE_NS
  | TMC_GATE_BASE_SEC_LO
  | TMC_GATE_BASE_SEC_HI
  | TMC_GATE_STATUS
  | TMC_GATE_LIST
  | TMC_RX_FRAMES
  | TMC_TX_FRAMES
  | TMC_RX_ERR1
  | TMC_RX_ERR2
  | TMC_CTRL_RX
  | TMC_PAUSE_BREAK
  | TMC_TX_DROP
  | TMC_FEC
  | TMC_RXQ_CFG
  | TMC_RXQ_DROP
  | TMC_TXQ_DROP
  | FLT_PORT
  | FLT_DROP
  | FLT_FILTER_DROP
  | FLT_ENTRY_A
  | FLT_ENTRY_B
  | SVC_CTRL
  | SVC_ADDR_HI
  | SVC_ADDR_LO
  | SVC_MDIO_CMD
  | SVC_MDIO_CFG
  | SVC_FRAMES
  | SVC_RX_ERR
  | SVC_COLL
  | SVC_WAKE
  | SVC_WAKE_PAT
  | SVC_WAKE_MASK
  | TDM_GRP_CTRL
  | TDM_GRP_STATUS
  | TDM_GRP_SLIP
  | TDM_GRP_ERR
  | TDM_HWY_CTRL
  | TDM_HWY_MISS
  | TDM_SWAP_CTRL
  | TDM_SWAP_NS
  | TDM_SWAP_SEC_LO
  | TDM_SWAP_SEC_HI
  | TDM_SWAP_TICK
  | TDM_OWN
  | TDM_MAP_SHADOW
  | TDM_MAP_ACTIVE
  | TIM_SNAP
  | TIM_SNAP_CNT_LO
  | TIM_SNAP_CNT_HI
  | TIM_SNAP_SEC_LO
  | TIM_SNAP_SEC_HI
  | TIM_SNAP_NS
  | TIM_SNAP_FRAC
  | TIM_SNAP_TICK_LO
  | TIM_SNAP_TICK_HI
  | TIM_OFS_SEC_LO
  | TIM_OFS_SEC_HI
  | TIM_OFS_NS
  | TIM_OFS_FRAC
  | TIM_RATE
  | TIM_STEP_SEC
  | TIM_STEP_NS
  | TIM_SERVO_CTRL
  | TIM_SERVO_GAIN
  | TIM_JUMP_THR
  | TIM_ASYM_THR
  | TIM_ASYM
  | TIM_SERVO_CMD
  | TIM_SERVO_STATUS
  | TIM_PEND_SEC
  | TIM_PEND_NS
  | TIM_PD_FILT
  | TIM_SERVO_LAST
  | TIM_SERVO_COUNT
  | TIM_HOST_OFS_SEC
  | TIM_HOST_OFS_NS
  | TIM_HOST_PD_NS
  | TIM_HOST_PUSH
  | TIM_TICK_CTRL
  | TIM_TICK_PHASE
  | TIM_PORT_LAT
  | TIM_PTP_CTRL
  | TIM_PTP_STATUS
  | TIM_PTP_PARENT_LO
  | TIM_PTP_PARENT_HI
  | TIM_PTP_COUNT
  | TIM_TC_COUNT
  | ISL_CLK_REQ
  | ISL_CLK_STATUS
  | ISL_CLK_LIMITS
  | ISL_CLK_COUNT
  | QUE_CFG
  | QUE_ECC
  | QUE_DROPREC
  | QUE_ESC
  | QUE_VC_CFG
  | QUE_VC_STAT
  | QUE_STALL
  | QUE_ECC_TOTAL
  | RIG_CTRL
  | RIG_DATA
  | RIG_STATUS
  | RIG_PROGRESS
  | RIG_RUN
  | RIG_COUNT
  | RIG_QSPI_OFS
  | BOOT_STATUS
  | BOOT_KEYS
  | BOOT_ROOT_REVOKED
  | BOOT_CTRL
  | BOOT_TIME
  | BOOT_OWNER_DIGEST
  | BOOT_ATT_CTRL
  | BOOT_ATT_NONCE
  | BOOT_ID_KEY
  | BOOT_ATT_REPORT
  | ACC_STATUS
  | ACC_SEL
  | ACC_ENTRY
  | ACC_WIN_START
  | ACC_WIN_LEN
  | ACC_DENY_COUNT
  | ACC_DENY_FIRST_ADDR
  | ACC_DENY_FIRST_INFO
  | ACC_DENY_LAST_ADDR
  | ACC_DENY_LAST_INFO
  | HST_STATUS
  | HST_PID_HI
  | HST_PID_LO
  | HST_IRQ_EN
  | HST_PENDING
  | HST_CMDQ
  | HST_CMD_SEQ
  | HST_EVQ
  | HST_CPLQ
  | HST_FRAME_ERR
  | HST_RESP
  | HST_POSTED
  | HST_POSTED_ADDR
  | HST_FAULT
  | ERR_CORRECTED
  | ERR_CLASS
  | ERR_FATAL
  | ERR_UE_RATE
  | ERR_SEQ
  | ERR_PENDING
  | ERR_LOG_SIZE
  | ERR_LOG_WR
  | ERR_LOG_WRAPS
  | ERR_LOG_IDX
  | ERR_MASK
  | ERR_LOG_REC
  | CEL_ECC
  | CEL_ECC_LAST_LO
  | CEL_ECC_LAST_HI
  | CEL_SCRUB
  | CEL_SCRUB_STATUS
  | CEL_RETRY
  | ATT_ECC
  | MST_MEM_ECC
  | MST_RESTART
  | STY_CTRL
  | STY_STATUS
  | STY_FRAMES
  | STY_ERR
  | STY_CUT
  | STY_RTT
  | STY_RELAY
  | PAIR_CFG
  | PAIR_CTRL
  | PAIR_TIMING
  | PAIR_STATUS
  | PAIR_HALYARD
  | PAIR_COUNT
  | PAIR_COPY
  | PAIR_DIGEST
  | PAIR_LANE_UNSYNC
  | PAIR_SYNC
  | PAIR_FWD
  | AGE_TT
  | AGE_ISL
  | AGE_CFG
  | AGE_THERM
  | AGE_STATUS
  | AGE_REEF
  | AGE_COUNT
  | AGE_HOURS
  | AGE_LIFE
  | AGE_RECORD
  | PWR_MON
  | PWR_COUNT
  | PWR_SEQ
  | PWR_RESET
  | MST_ID
  | MST_MFR
  | MST_SERIAL_LO
  | MST_SERIAL_HI
  | MST_FW_VER
  | MST_SCRATCH
  | MST_TICK_LO
  | MST_TICK_HI
  | CEL_CFG
  | CEL_STATUS
  | CEL_REGION_BASE
  | CEL_REGION_SIZE
  deriving DecidableEq, Repr

/-- Access types (R8). -/
inductive Access where
  | rw | ro | w1c | w1s | rc | wo
  deriving DecidableEq, Repr

/-- Which values a field's table leaves unreserved (R11): all of them, a range, zero or a range, a list; and the
three rules that look further (`mdioOp` at the clause45 bit of the same write, `islFreq` at the island's range,
`logIdx` at the size of the log ring). -/
inductive Unreserved where
  | any
  | range (lo hi : Nat)
  | zeroOr (lo hi : Nat)
  | oneOf (l : List Nat)
  | mdioOp
  | islFreq
  | logIdx
  deriving DecidableEq, Repr

/-- One field of a register table. -/
structure FieldDesc where
  hi : Nat
  lo : Nat
  acc : Access
  reset : Nat
  ok : Unreserved := .any
  deriving DecidableEq, Repr

/-- A named field of a register. -/
structure Fld where
  reg : RegId
  hi : Nat
  lo : Nat
  deriving DecidableEq, Repr

/-- Where a register's copies stand: copy `(i, j)` is at `base + s1 * i + s2 * j`. -/
structure RegPlace where
  id : RegId
  base : Nat
  n1 : Nat
  s1 : Nat
  n2 : Nat
  s2 : Nat
  deriving DecidableEq, Repr

/-- Register places, part 0 (R501, R505). -/
def regPlaces0 : List RegPlace := [
  ⟨.MST_CHAN_STATUS, 0x100, 1, 0x10000000, 1, 4⟩,
  ⟨.MST_SESSION_COUNT, 0x104, 1, 0x10000000, 1, 4⟩,
  ⟨.MST_ADMIT_FAILS, 0x108, 1, 0x10000000, 1, 4⟩,
  ⟨.LAN_LOAD, 0x1000080, 128, 0x10000, 1, 4⟩,
  ⟨.LAN_CTX, 0x1000084, 128, 0x10000, 1, 4⟩,
  ⟨.LAN_ARITH, 0x1000088, 128, 0x10000, 1, 4⟩,
  ⟨.LAN_BANK_STALL, 0x100008C, 128, 0x10000, 1, 4⟩,
  ⟨.LAN_DMEM_ECC, 0x1000090, 128, 0x10000, 1, 4⟩,
  ⟨.LAN_CTRL, 0x1000000, 128, 0x10000, 1, 4⟩,
  ⟨.LAN_STATUS, 0x1000004, 128, 0x10000, 1, 4⟩,
  ⟨.LAN_FAULT, 0x1000008, 128, 0x10000, 1, 4⟩,
  ⟨.LAN_FAULT_ADDR, 0x100000C, 128, 0x10000, 1, 4⟩,
  ⟨.LAN_OVERRUN, 0x1000010, 128, 0x10000, 1, 4⟩,
  ⟨.LAN_ENTRY, 0x1000014, 128, 0x10000, 1, 4⟩,
  ⟨.LAN_AGEN, 0x1000094, 128, 0x10000, 1, 4⟩,
  ⟨.LAN_PMEM_ECC, 0x1000098, 128, 0x10000, 1, 4⟩,
  ⟨.BND_NO_PEER, 0x240004, 1, 0x10000000, 1, 4⟩,
  ⟨.BND_PEER_CTRL, 0x241000, 64, 0x20, 1, 4⟩,
  ⟨.BND_PEER_STATE, 0x241004, 64, 0x20, 1, 4⟩,
  ⟨.BND_PEER_TXSEQ, 0x241008, 64, 0x20, 1, 4⟩,
  ⟨.BND_PEER_RXSEQ, 0x24100C, 64, 0x20, 1, 4⟩,
  ⟨.BND_PEER_COUNT, 0x241010, 64, 0x20, 1, 4⟩,
  ⟨.BND_PEER_LOSS, 0x241014, 64, 0x20, 1, 4⟩,
  ⟨.BND_PEER_ERR, 0x241018, 64, 0x20, 1, 4⟩]

/-- Register places, part 1 (R501, R505). -/
def regPlaces1 : List RegPlace := [
  ⟨.DIC_CMD, 0x250000, 1, 0x10000000, 1, 4⟩,
  ⟨.DIC_ECC, 0x250004, 1, 0x10000000, 1, 4⟩,
  ⟨.DIC_PEER, 0x251000, 64, 0x8, 1, 4⟩,
  ⟨.DIC_PEER_TURNS, 0x251004, 64, 0x8, 1, 4⟩,
  ⟨.TMC_CTRL, 0x200000, 2, 0x10000, 1, 4⟩,
  ⟨.TMC_STATUS, 0x200004, 2, 0x10000, 1, 4⟩,
  ⟨.TMC_ADDR_HI, 0x200008, 2, 0x10000, 1, 4⟩,
  ⟨.TMC_ADDR_LO, 0x20000C, 2, 0x10000, 1, 4⟩,
  ⟨.TMC_TX_MAP, 0x200010, 2, 0x10000, 1, 4⟩,
  ⟨.TMC_GATE_CTRL, 0x200020, 2, 0x10000, 1, 4⟩,
  ⟨.TMC_GATE_CYCLE, 0x200024, 2, 0x10000, 1, 4⟩,
  ⟨.TMC_GATE_BASE_NS, 0x200028, 2, 0x10000, 1, 4⟩,
  ⟨.TMC_GATE_BASE_SEC_LO, 0x20002C, 2, 0x10000, 1, 4⟩,
  ⟨.TMC_GATE_BASE_SEC_HI, 0x200030, 2, 0x10000, 1, 4⟩,
  ⟨.TMC_GATE_STATUS, 0x200034, 2, 0x10000, 1, 4⟩,
  ⟨.TMC_GATE_LIST, 0x200400, 2, 0x10000, 256, 4⟩,
  ⟨.TMC_RX_FRAMES, 0x200100, 2, 0x10000, 1, 4⟩,
  ⟨.TMC_TX_FRAMES, 0x200104, 2, 0x10000, 1, 4⟩,
  ⟨.TMC_RX_ERR1, 0x200108, 2, 0x10000, 1, 4⟩,
  ⟨.TMC_RX_ERR2, 0x20010C, 2, 0x10000, 1, 4⟩,
  ⟨.TMC_CTRL_RX, 0x200110, 2, 0x10000, 1, 4⟩,
  ⟨.TMC_PAUSE_BREAK, 0x200114, 2, 0x10000, 1, 4⟩,
  ⟨.TMC_TX_DROP, 0x200118, 2, 0x10000, 1, 4⟩,
  ⟨.TMC_FEC, 0x20011C, 2, 0x10000, 1, 4⟩]

/-- Register places, part 2 (R501, R505). -/
def regPlaces2 : List RegPlace := [
  ⟨.TMC_RXQ_CFG, 0x200200, 2, 0x10000, 9, 4⟩,
  ⟨.TMC_RXQ_DROP, 0x200240, 2, 0x10000, 9, 4⟩,
  ⟨.TMC_TXQ_DROP, 0x200280, 2, 0x10000, 8, 4⟩,
  ⟨.FLT_PORT, 0x230000, 3, 0x4, 1, 4⟩,
  ⟨.FLT_DROP, 0x230010, 1, 0x10000000, 1, 4⟩,
  ⟨.FLT_FILTER_DROP, 0x230014, 1, 0x10000000, 1, 4⟩,
  ⟨.FLT_ENTRY_A, 0x230100, 64, 0x8, 1, 4⟩,
  ⟨.FLT_ENTRY_B, 0x230104, 64, 0x8, 1, 4⟩,
  ⟨.SVC_CTRL, 0x220000, 1, 0x10000000, 1, 4⟩,
  ⟨.SVC_ADDR_HI, 0x220004, 1, 0x10000000, 1, 4⟩,
  ⟨.SVC_ADDR_LO, 0x220008, 1, 0x10000000, 1, 4⟩,
  ⟨.SVC_MDIO_CMD, 0x220020, 1, 0x10000000, 1, 4⟩,
  ⟨.SVC_MDIO_CFG, 0x220024, 1, 0x10000000, 1, 4⟩,
  ⟨.SVC_FRAMES, 0x220010, 1, 0x10000000, 1, 4⟩,
  ⟨.SVC_RX_ERR, 0x220014, 1, 0x10000000, 1, 4⟩,
  ⟨.SVC_COLL, 0x220018, 1, 0x10000000, 1, 4⟩,
  ⟨.SVC_WAKE, 0x220030, 1, 0x10000000, 1, 4⟩,
  ⟨.SVC_WAKE_PAT, 0x221000, 8, 0x100, 32, 4⟩,
  ⟨.SVC_WAKE_MASK, 0x221080, 8, 0x100, 4, 4⟩,
  ⟨.TDM_GRP_CTRL, 0x260000, 4, 0x10, 1, 4⟩,
  ⟨.TDM_GRP_STATUS, 0x260004, 4, 0x10, 1, 4⟩,
  ⟨.TDM_GRP_SLIP, 0x260008, 4, 0x10, 1, 4⟩,
  ⟨.TDM_GRP_ERR, 0x26000C, 4, 0x10, 1, 4⟩,
  ⟨.TDM_HWY_CTRL, 0x260100, 32, 0x4, 1, 4⟩]

/-- Register places, part 3 (R501, R505). -/
def regPlaces3 : List RegPlace := [
  ⟨.TDM_HWY_MISS, 0x260180, 32, 0x4, 1, 4⟩,
  ⟨.TDM_SWAP_CTRL, 0x260200, 1, 0x10000000, 1, 4⟩,
  ⟨.TDM_SWAP_NS, 0x260204, 1, 0x10000000, 1, 4⟩,
  ⟨.TDM_SWAP_SEC_LO, 0x260208, 1, 0x10000000, 1, 4⟩,
  ⟨.TDM_SWAP_SEC_HI, 0x26020C, 1, 0x10000000, 1, 4⟩,
  ⟨.TDM_SWAP_TICK, 0x260210, 1, 0x10000000, 1, 4⟩,
  ⟨.TDM_OWN, 0x260220, 1, 0x10000000, 1, 4⟩,
  ⟨.TDM_MAP_SHADOW, 0x264000, 4096, 0x4, 1, 4⟩,
  ⟨.TDM_MAP_ACTIVE, 0x268000, 4096, 0x4, 1, 4⟩,
  ⟨.TIM_SNAP, 0x270000, 1, 0x10000000, 1, 4⟩,
  ⟨.TIM_SNAP_CNT_LO, 0x270004, 1, 0x10000000, 1, 4⟩,
  ⟨.TIM_SNAP_CNT_HI, 0x270008, 1, 0x10000000, 1, 4⟩,
  ⟨.TIM_SNAP_SEC_LO, 0x27000C, 1, 0x10000000, 1, 4⟩,
  ⟨.TIM_SNAP_SEC_HI, 0x270010, 1, 0x10000000, 1, 4⟩,
  ⟨.TIM_SNAP_NS, 0x270014, 1, 0x10000000, 1, 4⟩,
  ⟨.TIM_SNAP_FRAC, 0x270018, 1, 0x10000000, 1, 4⟩,
  ⟨.TIM_SNAP_TICK_LO, 0x27001C, 1, 0x10000000, 1, 4⟩,
  ⟨.TIM_SNAP_TICK_HI, 0x270020, 1, 0x10000000, 1, 4⟩,
  ⟨.TIM_OFS_SEC_LO, 0x270030, 1, 0x10000000, 1, 4⟩,
  ⟨.TIM_OFS_SEC_HI, 0x270034, 1, 0x10000000, 1, 4⟩,
  ⟨.TIM_OFS_NS, 0x270038, 1, 0x10000000, 1, 4⟩,
  ⟨.TIM_OFS_FRAC, 0x27003C, 1, 0x10000000, 1, 4⟩,
  ⟨.TIM_RATE, 0x270040, 1, 0x10000000, 1, 4⟩,
  ⟨.TIM_STEP_SEC, 0x270044, 1, 0x10000000, 1, 4⟩]

/-- Register places, part 4 (R501, R505). -/
def regPlaces4 : List RegPlace := [
  ⟨.TIM_STEP_NS, 0x270048, 1, 0x10000000, 1, 4⟩,
  ⟨.TIM_SERVO_CTRL, 0x270050, 1, 0x10000000, 1, 4⟩,
  ⟨.TIM_SERVO_GAIN, 0x270054, 1, 0x10000000, 1, 4⟩,
  ⟨.TIM_JUMP_THR, 0x270058, 1, 0x10000000, 1, 4⟩,
  ⟨.TIM_ASYM_THR, 0x27005C, 1, 0x10000000, 1, 4⟩,
  ⟨.TIM_ASYM, 0x270060, 1, 0x10000000, 1, 4⟩,
  ⟨.TIM_SERVO_CMD, 0x270064, 1, 0x10000000, 1, 4⟩,
  ⟨.TIM_SERVO_STATUS, 0x270068, 1, 0x10000000, 1, 4⟩,
  ⟨.TIM_PEND_SEC, 0x27006C, 1, 0x10000000, 1, 4⟩,
  ⟨.TIM_PEND_NS, 0x270070, 1, 0x10000000, 1, 4⟩,
  ⟨.TIM_PD_FILT, 0x270074, 1, 0x10000000, 1, 4⟩,
  ⟨.TIM_SERVO_LAST, 0x270078, 1, 0x10000000, 1, 4⟩,
  ⟨.TIM_SERVO_COUNT, 0x27007C, 1, 0x10000000, 1, 4⟩,
  ⟨.TIM_HOST_OFS_SEC, 0x270080, 1, 0x10000000, 1, 4⟩,
  ⟨.TIM_HOST_OFS_NS, 0x270084, 1, 0x10000000, 1, 4⟩,
  ⟨.TIM_HOST_PD_NS, 0x270088, 1, 0x10000000, 1, 4⟩,
  ⟨.TIM_HOST_PUSH, 0x27008C, 1, 0x10000000, 1, 4⟩,
  ⟨.TIM_TICK_CTRL, 0x270090, 1, 0x10000000, 1, 4⟩,
  ⟨.TIM_TICK_PHASE, 0x270094, 1, 0x10000000, 1, 4⟩,
  ⟨.TIM_PORT_LAT, 0x2700A0, 4, 0x4, 1, 4⟩,
  ⟨.TIM_PTP_CTRL, 0x2700C0, 1, 0x10000000, 1, 4⟩,
  ⟨.TIM_PTP_STATUS, 0x2700C4, 1, 0x10000000, 1, 4⟩,
  ⟨.TIM_PTP_PARENT_LO, 0x2700C8, 1, 0x10000000, 1, 4⟩,
  ⟨.TIM_PTP_PARENT_HI, 0x2700CC, 1, 0x10000000, 1, 4⟩]

/-- Register places, part 5 (R501, R505). -/
def regPlaces5 : List RegPlace := [
  ⟨.TIM_PTP_COUNT, 0x2700D0, 1, 0x10000000, 1, 4⟩,
  ⟨.TIM_TC_COUNT, 0x2700D4, 1, 0x10000000, 1, 4⟩,
  ⟨.ISL_CLK_REQ, 0x40000, 15, 0x10, 1, 4⟩,
  ⟨.ISL_CLK_STATUS, 0x40004, 15, 0x10, 1, 4⟩,
  ⟨.ISL_CLK_LIMITS, 0x40008, 15, 0x10, 1, 4⟩,
  ⟨.ISL_CLK_COUNT, 0x4000C, 15, 0x10, 1, 4⟩,
  ⟨.QUE_CFG, 0x50000, 512, 0x40, 1, 4⟩,
  ⟨.QUE_ECC, 0x50004, 512, 0x40, 1, 4⟩,
  ⟨.QUE_DROPREC, 0x50008, 512, 0x40, 1, 4⟩,
  ⟨.QUE_ESC, 0x5000C, 512, 0x40, 1, 4⟩,
  ⟨.QUE_VC_CFG, 0x50010, 512, 0x40, 4, 8⟩,
  ⟨.QUE_VC_STAT, 0x50014, 512, 0x40, 4, 8⟩,
  ⟨.QUE_STALL, 0x58000, 1, 0x10000000, 1, 4⟩,
  ⟨.QUE_ECC_TOTAL, 0x58004, 1, 0x10000000, 1, 4⟩,
  ⟨.RIG_CTRL, 0x10000, 1, 0x10000000, 1, 4⟩,
  ⟨.RIG_DATA, 0x10004, 1, 0x10000000, 1, 4⟩,
  ⟨.RIG_STATUS, 0x10008, 1, 0x10000000, 1, 4⟩,
  ⟨.RIG_PROGRESS, 0x1000C, 1, 0x10000000, 1, 4⟩,
  ⟨.RIG_RUN, 0x10010, 1, 0x10000000, 1, 4⟩,
  ⟨.RIG_COUNT, 0x10014, 1, 0x10000000, 1, 4⟩,
  ⟨.RIG_QSPI_OFS, 0x10018, 1, 0x10000000, 1, 4⟩,
  ⟨.BOOT_STATUS, 0x20000, 1, 0x10000000, 1, 4⟩,
  ⟨.BOOT_KEYS, 0x20004, 1, 0x10000000, 1, 4⟩,
  ⟨.BOOT_ROOT_REVOKED, 0x20008, 1, 0x10000000, 1, 4⟩]

/-- Register places, part 6 (R501, R505). -/
def regPlaces6 : List RegPlace := [
  ⟨.BOOT_CTRL, 0x2000C, 1, 0x10000000, 1, 4⟩,
  ⟨.BOOT_TIME, 0x20010, 1, 0x10000000, 1, 4⟩,
  ⟨.BOOT_OWNER_DIGEST, 0x20040, 16, 0x4, 1, 4⟩,
  ⟨.BOOT_ATT_CTRL, 0x20100, 1, 0x10000000, 1, 4⟩,
  ⟨.BOOT_ATT_NONCE, 0x20140, 16, 0x4, 1, 4⟩,
  ⟨.BOOT_ID_KEY, 0x20200, 34, 0x4, 1, 4⟩,
  ⟨.BOOT_ATT_REPORT, 0x20400, 284, 0x4, 1, 4⟩,
  ⟨.ACC_STATUS, 0x30000, 1, 0x10000000, 1, 4⟩,
  ⟨.ACC_SEL, 0x30004, 1, 0x10000000, 1, 4⟩,
  ⟨.ACC_ENTRY, 0x30008, 1, 0x10000000, 1, 4⟩,
  ⟨.ACC_WIN_START, 0x30010, 8, 0x8, 1, 4⟩,
  ⟨.ACC_WIN_LEN, 0x30014, 8, 0x8, 1, 4⟩,
  ⟨.ACC_DENY_COUNT, 0x30080, 1, 0x10000000, 1, 4⟩,
  ⟨.ACC_DENY_FIRST_ADDR, 0x30084, 1, 0x10000000, 1, 4⟩,
  ⟨.ACC_DENY_FIRST_INFO, 0x30088, 1, 0x10000000, 1, 4⟩,
  ⟨.ACC_DENY_LAST_ADDR, 0x3008C, 1, 0x10000000, 1, 4⟩,
  ⟨.ACC_DENY_LAST_INFO, 0x30090, 1, 0x10000000, 1, 4⟩,
  ⟨.HST_STATUS, 0x90000, 1, 0x10000000, 1, 4⟩,
  ⟨.HST_PID_HI, 0x90004, 1, 0x10000000, 1, 4⟩,
  ⟨.HST_PID_LO, 0x90008, 1, 0x10000000, 1, 4⟩,
  ⟨.HST_IRQ_EN, 0x90010, 1, 0x10000000, 1, 4⟩,
  ⟨.HST_PENDING, 0x90014, 1, 0x10000000, 1, 4⟩,
  ⟨.HST_CMDQ, 0x90018, 1, 0x10000000, 1, 4⟩,
  ⟨.HST_CMD_SEQ, 0x9001C, 1, 0x10000000, 1, 4⟩]

/-- Register places, part 7 (R501, R505). -/
def regPlaces7 : List RegPlace := [
  ⟨.HST_EVQ, 0x90020, 1, 0x10000000, 1, 4⟩,
  ⟨.HST_CPLQ, 0x90024, 1, 0x10000000, 1, 4⟩,
  ⟨.HST_FRAME_ERR, 0x90028, 1, 0x10000000, 1, 4⟩,
  ⟨.HST_RESP, 0x9002C, 1, 0x10000000, 1, 4⟩,
  ⟨.HST_POSTED, 0x90030, 1, 0x10000000, 1, 4⟩,
  ⟨.HST_POSTED_ADDR, 0x90034, 1, 0x10000000, 1, 4⟩,
  ⟨.HST_FAULT, 0x90038, 1, 0x10000000, 1, 4⟩,
  ⟨.ERR_CORRECTED, 0x60000, 1, 0x10000000, 1, 4⟩,
  ⟨.ERR_CLASS, 0x60004, 1, 0x10000000, 1, 4⟩,
  ⟨.ERR_FATAL, 0x60008, 1, 0x10000000, 1, 4⟩,
  ⟨.ERR_UE_RATE, 0x6000C, 1, 0x10000000, 1, 4⟩,
  ⟨.ERR_SEQ, 0x60010, 1, 0x10000000, 1, 4⟩,
  ⟨.ERR_PENDING, 0x60014, 1, 0x10000000, 1, 4⟩,
  ⟨.ERR_LOG_SIZE, 0x60018, 1, 0x10000000, 1, 4⟩,
  ⟨.ERR_LOG_WR, 0x6001C, 1, 0x10000000, 1, 4⟩,
  ⟨.ERR_LOG_WRAPS, 0x60020, 1, 0x10000000, 1, 4⟩,
  ⟨.ERR_LOG_IDX, 0x60024, 1, 0x10000000, 1, 4⟩,
  ⟨.ERR_MASK, 0x60040, 8, 0x4, 1, 4⟩,
  ⟨.ERR_LOG_REC, 0x60080, 16, 0x4, 1, 4⟩,
  ⟨.CEL_ECC, 0x100100, 1, 0x10000000, 1, 4⟩,
  ⟨.CEL_ECC_LAST_LO, 0x100104, 1, 0x10000000, 1, 4⟩,
  ⟨.CEL_ECC_LAST_HI, 0x100108, 1, 0x10000000, 1, 4⟩,
  ⟨.CEL_SCRUB, 0x100110, 1, 0x10000000, 1, 4⟩,
  ⟨.CEL_SCRUB_STATUS, 0x100114, 1, 0x10000000, 1, 4⟩]

/-- Register places, part 8 (R501, R505). -/
def regPlaces8 : List RegPlace := [
  ⟨.CEL_RETRY, 0x100118, 1, 0x10000000, 1, 4⟩,
  ⟨.ATT_ECC, 0x110000, 8, 0x4, 1, 4⟩,
  ⟨.MST_MEM_ECC, 0x120, 1, 0x10000000, 1, 4⟩,
  ⟨.MST_RESTART, 0x124, 1, 0x10000000, 1, 4⟩,
  ⟨.STY_CTRL, 0x280000, 2, 0x100, 1, 4⟩,
  ⟨.STY_STATUS, 0x280004, 2, 0x100, 1, 4⟩,
  ⟨.STY_FRAMES, 0x280008, 2, 0x100, 1, 4⟩,
  ⟨.STY_ERR, 0x28000C, 2, 0x100, 1, 4⟩,
  ⟨.STY_CUT, 0x280010, 2, 0x100, 1, 4⟩,
  ⟨.STY_RTT, 0x280014, 2, 0x100, 1, 4⟩,
  ⟨.STY_RELAY, 0x280018, 2, 0x100, 1, 4⟩,
  ⟨.PAIR_CFG, 0x290000, 1, 0x10000000, 1, 4⟩,
  ⟨.PAIR_CTRL, 0x290004, 1, 0x10000000, 1, 4⟩,
  ⟨.PAIR_TIMING, 0x290008, 1, 0x10000000, 1, 4⟩,
  ⟨.PAIR_STATUS, 0x29000C, 1, 0x10000000, 1, 4⟩,
  ⟨.PAIR_HALYARD, 0x290010, 1, 0x10000000, 1, 4⟩,
  ⟨.PAIR_COUNT, 0x290014, 1, 0x10000000, 1, 4⟩,
  ⟨.PAIR_COPY, 0x290018, 1, 0x10000000, 1, 4⟩,
  ⟨.PAIR_DIGEST, 0x29001C, 1, 0x10000000, 1, 4⟩,
  ⟨.PAIR_LANE_UNSYNC, 0x290020, 4, 0x4, 1, 4⟩,
  ⟨.PAIR_SYNC, 0x290030, 1, 0x10000000, 1, 4⟩,
  ⟨.PAIR_FWD, 0x290034, 1, 0x10000000, 1, 4⟩,
  ⟨.AGE_TT, 0x70000, 64, 0x4, 1, 4⟩,
  ⟨.AGE_ISL, 0x70100, 15, 0x4, 1, 4⟩]

/-- Register places, part 9 (R501, R505). -/
def regPlaces9 : List RegPlace := [
  ⟨.AGE_CFG, 0x70200, 1, 0x10000000, 1, 4⟩,
  ⟨.AGE_THERM, 0x70204, 1, 0x10000000, 1, 4⟩,
  ⟨.AGE_STATUS, 0x70208, 1, 0x10000000, 1, 4⟩,
  ⟨.AGE_REEF, 0x7020C, 1, 0x10000000, 1, 4⟩,
  ⟨.AGE_COUNT, 0x70210, 1, 0x10000000, 1, 4⟩,
  ⟨.AGE_HOURS, 0x70214, 1, 0x10000000, 1, 4⟩,
  ⟨.AGE_LIFE, 0x70218, 1, 0x10000000, 1, 4⟩,
  ⟨.AGE_RECORD, 0x70400, 96, 0x4, 1, 4⟩,
  ⟨.PWR_MON, 0x80000, 1, 0x10000000, 1, 4⟩,
  ⟨.PWR_COUNT, 0x80004, 1, 0x10000000, 1, 4⟩,
  ⟨.PWR_SEQ, 0x80008, 1, 0x10000000, 1, 4⟩,
  ⟨.PWR_RESET, 0x8000C, 1, 0x10000000, 1, 4⟩,
  ⟨.MST_ID, 0x0, 1, 0x10000000, 1, 4⟩,
  ⟨.MST_MFR, 0x4, 1, 0x10000000, 1, 4⟩,
  ⟨.MST_SERIAL_LO, 0x8, 1, 0x10000000, 1, 4⟩,
  ⟨.MST_SERIAL_HI, 0xC, 1, 0x10000000, 1, 4⟩,
  ⟨.MST_FW_VER, 0x10, 1, 0x10000000, 1, 4⟩,
  ⟨.MST_SCRATCH, 0x14, 1, 0x10000000, 1, 4⟩,
  ⟨.MST_TICK_LO, 0x18, 1, 0x10000000, 1, 4⟩,
  ⟨.MST_TICK_HI, 0x1C, 1, 0x10000000, 1, 4⟩,
  ⟨.CEL_CFG, 0x100000, 1, 0x10000000, 1, 4⟩,
  ⟨.CEL_STATUS, 0x100004, 1, 0x10000000, 1, 4⟩,
  ⟨.CEL_REGION_BASE, 0x100040, 16, 0x8, 1, 4⟩,
  ⟨.CEL_REGION_SIZE, 0x100044, 16, 0x8, 1, 4⟩]

/-- Every register's place. -/
def regPlaces : List RegPlace :=
  regPlaces0 ++ regPlaces1 ++ regPlaces2 ++ regPlaces3 ++ regPlaces4 ++ regPlaces5 ++ regPlaces6 ++ regPlaces7 ++ regPlaces8 ++ regPlaces9

/-- The fields of each register (reserved bits are no field: they read 0 and ignore writes, R10). A field whose row gives a
range and calls nothing reserved, as TIM_STEP_NS's does, takes any value (DEDUCED from R8 and R11, log entry 100). -/
def RegId.fields : RegId → List FieldDesc
  | .MST_CHAN_STATUS => [⟨29, 16, .ro, 0, .any⟩, ⟨9, 0, .ro, 0, .any⟩]
  | .MST_SESSION_COUNT => [⟨20, 0, .ro, 0, .any⟩]
  | .MST_ADMIT_FAILS => [⟨31, 16, .rc, 0, .any⟩, ⟨15, 0, .rc, 0, .any⟩]
  | .LAN_LOAD => [⟨31, 16, .ro, 0, .any⟩, ⟨15, 0, .ro, 0, .any⟩]
  | .LAN_CTX => [⟨6, 0, .ro, 0, .any⟩]
  | .LAN_ARITH => [⟨10, 10, .rw, 0, .any⟩, ⟨9, 9, .rw, 0, .any⟩, ⟨8, 8, .rw, 0, .any⟩, ⟨2, 2, .w1c, 0, .any⟩, ⟨1, 1, .w1c, 0, .any⟩, ⟨0, 0, .w1c, 0, .any⟩]
  | .LAN_BANK_STALL => [⟨31, 0, .rc, 0, .any⟩]
  | .LAN_DMEM_ECC => [⟨31, 16, .rc, 0, .any⟩, ⟨15, 0, .rc, 0, .any⟩]
  | .LAN_CTRL => [⟨0, 0, .wo, 0, .any⟩]
  | .LAN_STATUS => [⟨30, 28, .ro, 0, .any⟩, ⟨27, 26, .ro, 0, .any⟩, ⟨18, 12, .ro, 0, .any⟩, ⟨11, 0, .ro, 0, .any⟩]
  | .LAN_FAULT => [⟨31, 28, .ro, 0, .any⟩, ⟨14, 13, .ro, 0, .any⟩, ⟨11, 0, .ro, 0, .any⟩]
  | .LAN_FAULT_ADDR => [⟨31, 0, .ro, 0, .any⟩]
  | .LAN_OVERRUN => [⟨31, 0, .rc, 0, .any⟩]
  | .LAN_ENTRY => [⟨11, 0, .ro, 0, .any⟩]
  | .LAN_AGEN => [⟨8, 8, .rw, 0, .any⟩, ⟨0, 0, .w1c, 0, .any⟩]
  | .LAN_PMEM_ECC => [⟨31, 16, .rc, 0, .any⟩, ⟨15, 0, .rc, 0, .any⟩]
  | .BND_NO_PEER => [⟨31, 0, .rc, 0, .any⟩]
  | .BND_PEER_CTRL => [⟨31, 31, .rw, 0, .any⟩, ⟨30, 30, .rw, 0, .any⟩, ⟨29, 29, .rw, 1, .any⟩, ⟨28, 28, .rw, 0, .any⟩, ⟨27, 27, .rw, 0, .any⟩, ⟨26, 24, .rw, 0, .any⟩, ⟨23, 20, .rw, 2, (.range 1 15)⟩, ⟨19, 16, .rw, 1, (.oneOf [1, 2, 5, 10])⟩, ⟨13, 0, .rw, 1440, (.range 320 8192)⟩]
  | .BND_PEER_STATE => [⟨31, 24, .ro, 0, .any⟩, ⟨23, 16, .ro, 0, .any⟩, ⟨15, 14, .ro, 0, .any⟩, ⟨13, 13, .ro, 0, .any⟩, ⟨12, 12, .ro, 0, .any⟩]
  | .BND_PEER_TXSEQ => [⟨31, 0, .ro, 0, .any⟩]
  | .BND_PEER_RXSEQ => [⟨31, 0, .ro, 0, .any⟩]
  | .BND_PEER_COUNT => [⟨31, 16, .rc, 0, .any⟩, ⟨15, 0, .rc, 0, .any⟩]
  | .BND_PEER_LOSS => [⟨31, 16, .rc, 0, .any⟩, ⟨15, 8, .rc, 0, .any⟩, ⟨7, 0, .rc, 0, .any⟩]
  | .BND_PEER_ERR => [⟨31, 16, .rc, 0, .any⟩, ⟨15, 8, .rc, 0, .any⟩, ⟨7, 0, .rc, 0, .any⟩]
  | .DIC_CMD => [⟨6, 6, .wo, 0, .any⟩, ⟨5, 0, .wo, 0, .any⟩]
  | .DIC_ECC => [⟨31, 16, .rc, 0, .any⟩, ⟨15, 0, .rc, 0, .any⟩]
  | .DIC_PEER => [⟨28, 16, .ro, 0, .any⟩, ⟨12, 0, .ro, 0, .any⟩]
  | .DIC_PEER_TURNS => [⟨31, 16, .rc, 0, .any⟩, ⟨15, 0, .rc, 0, .any⟩]
  | .TMC_CTRL => [⟨31, 31, .rw, 0, .any⟩, ⟨30, 30, .rw, 1, .any⟩, ⟨29, 28, .rw, 0, (.range 0 2)⟩, ⟨27, 26, .rw, 0, (.range 0 2)⟩, ⟨25, 16, .rw, 10, (.range 1 1000)⟩, ⟨13, 0, .rw, 1522, (.range 1518 9216)⟩]
  | .TMC_STATUS => [⟨31, 31, .ro, 0, .any⟩, ⟨30, 30, .ro, 0, .any⟩, ⟨29, 29, .ro, 0, .any⟩, ⟨28, 28, .ro, 0, .any⟩, ⟨27, 26, .ro, 0, .any⟩, ⟨16, 16, .ro, 0, .any⟩, ⟨15, 8, .ro, 0, .any⟩, ⟨7, 0, .ro, 0, .any⟩]
  | .TMC_ADDR_HI => [⟨15, 0, .rw, 0, .any⟩]
  | .TMC_ADDR_LO => [⟨31, 0, .rw, 0, .any⟩]
  | .TMC_TX_MAP => [⟨11, 9, .rw, 7, .any⟩, ⟨8, 6, .rw, 1, .any⟩, ⟨5, 3, .rw, 4, .any⟩, ⟨2, 0, .rw, 5, .any⟩]
  | .TMC_GATE_CTRL => [⟨31, 31, .rw, 0, .any⟩, ⟨30, 30, .w1s, 0, .any⟩, ⟨8, 0, .rw, 0, (.range 0 256)⟩]
  | .TMC_GATE_CYCLE => [⟨29, 0, .rw, 0, (.zeroOr 1000 999999999)⟩]
  | .TMC_GATE_BASE_NS => [⟨29, 0, .rw, 0, (.range 0 999999999)⟩]
  | .TMC_GATE_BASE_SEC_LO => [⟨31, 0, .rw, 0, .any⟩]
  | .TMC_GATE_BASE_SEC_HI => [⟨15, 0, .rw, 0, .any⟩]
  | .TMC_GATE_STATUS => [⟨31, 31, .ro, 0, .any⟩, ⟨30, 30, .ro, 0, .any⟩, ⟨29, 29, .w1c, 0, .any⟩, ⟨8, 0, .ro, 0, .any⟩]
  | .TMC_GATE_LIST => [⟨31, 24, .rw, 0, .any⟩, ⟨23, 0, .rw, 0, .any⟩]
  | .TMC_RX_FRAMES => [⟨31, 0, .rc, 0, .any⟩]
  | .TMC_TX_FRAMES => [⟨31, 0, .rc, 0, .any⟩]
  | .TMC_RX_ERR1 => [⟨31, 16, .rc, 0, .any⟩, ⟨15, 0, .rc, 0, .any⟩]
  | .TMC_RX_ERR2 => [⟨31, 16, .rc, 0, .any⟩, ⟨15, 0, .rc, 0, .any⟩]
  | .TMC_CTRL_RX => [⟨31, 16, .rc, 0, .any⟩, ⟨15, 0, .rc, 0, .any⟩]
  | .TMC_PAUSE_BREAK => [⟨31, 16, .rc, 0, .any⟩, ⟨15, 0, .rc, 0, .any⟩]
  | .TMC_TX_DROP => [⟨31, 16, .rc, 0, .any⟩, ⟨15, 0, .rc, 0, .any⟩]
  | .TMC_FEC => [⟨31, 16, .rc, 0, .any⟩, ⟨15, 0, .rc, 0, .any⟩]
  | .TMC_RXQ_CFG => [⟨31, 30, .ro, 0, .any⟩, ⟨19, 16, .ro, 0, .any⟩, ⟨15, 0, .ro, 0, .any⟩]
  | .TMC_RXQ_DROP => [⟨31, 16, .rc, 0, .any⟩, ⟨15, 0, .rc, 0, .any⟩]
  | .TMC_TXQ_DROP => [⟨31, 16, .rc, 0, .any⟩, ⟨15, 0, .rc, 0, .any⟩]
  | .FLT_PORT => [⟨8, 8, .rw, 1, .any⟩, ⟨7, 5, .rw, 0, .any⟩, ⟨3, 0, .rw, 0, (.range 0 9)⟩]
  | .FLT_DROP => [⟨31, 16, .rc, 0, .any⟩, ⟨15, 0, .rc, 0, .any⟩]
  | .FLT_FILTER_DROP => [⟨31, 16, .rc, 0, .any⟩, ⟨15, 0, .rc, 0, .any⟩]
  | .FLT_ENTRY_A => [⟨31, 31, .rw, 0, .any⟩, ⟨30, 28, .rw, 0, .any⟩, ⟨27, 26, .rw, 0, (.range 0 2)⟩, ⟨25, 23, .rw, 0, .any⟩, ⟨22, 20, .rw, 0, .any⟩, ⟨19, 16, .rw, 0, (.range 0 9)⟩, ⟨11, 0, .rw, 0, .any⟩]
  | .FLT_ENTRY_B => [⟨31, 16, .rw, 0, .any⟩, ⟨15, 15, .rw, 0, .any⟩, ⟨11, 0, .rw, 0, .any⟩]
  | .SVC_CTRL => [⟨31, 31, .rw, 0, .any⟩, ⟨30, 29, .rw, 2, (.range 0 2)⟩, ⟨28, 28, .rw, 1, .any⟩, ⟨27, 27, .rw, 0, .any⟩, ⟨26, 26, .rw, 0, .any⟩, ⟨25, 25, .rw, 0, .any⟩, ⟨13, 0, .rw, 1522, (.range 1518 9216)⟩]
  | .SVC_ADDR_HI => [⟨15, 0, .rw, 0, .any⟩]
  | .SVC_ADDR_LO => [⟨31, 0, .rw, 0, .any⟩]
  | .SVC_MDIO_CMD => [⟨31, 31, .w1s, 0, .any⟩, ⟨30, 30, .ro, 0, .any⟩, ⟨29, 29, .rw, 0, .any⟩, ⟨28, 27, .rw, 0, .mdioOp⟩, ⟨26, 22, .rw, 0, .any⟩, ⟨21, 17, .rw, 0, .any⟩, ⟨15, 0, .rw, 0, .any⟩]
  | .SVC_MDIO_CFG => [⟨9, 0, .rw, 124, .any⟩]
  | .SVC_FRAMES => [⟨31, 16, .rc, 0, .any⟩, ⟨15, 0, .rc, 0, .any⟩]
  | .SVC_RX_ERR => [⟨31, 24, .rc, 0, .any⟩, ⟨23, 16, .rc, 0, .any⟩, ⟨15, 8, .rc, 0, .any⟩, ⟨7, 0, .rc, 0, .any⟩]
  | .SVC_COLL => [⟨31, 16, .rc, 0, .any⟩, ⟨15, 8, .rc, 0, .any⟩, ⟨7, 0, .rc, 0, .any⟩]
  | .SVC_WAKE => [⟨24, 24, .rw, 0, .any⟩, ⟨23, 16, .rw, 0, .any⟩, ⟨8, 8, .w1c, 0, .any⟩, ⟨7, 0, .w1c, 0, .any⟩]
  | .SVC_WAKE_PAT => [⟨31, 0, .rw, 0, .any⟩]
  | .SVC_WAKE_MASK => [⟨31, 0, .rw, 0, .any⟩]
  | .TDM_GRP_CTRL => [⟨31, 31, .rw, 0, .any⟩, ⟨30, 29, .rw, 0, (.range 0 2)⟩, ⟨28, 28, .rw, 0, .any⟩, ⟨27, 27, .rw, 0, .any⟩, ⟨26, 26, .rw, 0, .any⟩, ⟨25, 25, .rw, 1, .any⟩, ⟨2, 0, .rw, 0, .any⟩]
  | .TDM_GRP_STATUS => [⟨31, 30, .ro, 0, .any⟩, ⟨29, 29, .ro, 0, .any⟩, ⟨28, 28, .ro, 0, .any⟩, ⟨1, 1, .ro, 0, .any⟩, ⟨0, 0, .ro, 0, .any⟩]
  | .TDM_GRP_SLIP => [⟨31, 16, .rc, 0, .any⟩, ⟨15, 0, .rc, 0, .any⟩]
  | .TDM_GRP_ERR => [⟨31, 16, .rc, 0, .any⟩, ⟨15, 0, .rc, 0, .any⟩]
  | .TDM_HWY_CTRL => [⟨31, 31, .rw, 0, .any⟩, ⟨30, 30, .rw, 0, .any⟩]
  | .TDM_HWY_MISS => [⟨31, 0, .rc, 0, .any⟩]
  | .TDM_SWAP_CTRL => [⟨31, 31, .w1s, 0, .any⟩, ⟨30, 30, .w1s, 0, .any⟩, ⟨29, 29, .rw, 0, .any⟩, ⟨2, 0, .ro, 0, .any⟩]
  | .TDM_SWAP_NS => [⟨29, 0, .rw, 0, (.range 0 999999999)⟩]
  | .TDM_SWAP_SEC_LO => [⟨31, 0, .rw, 0, .any⟩]
  | .TDM_SWAP_SEC_HI => [⟨15, 0, .rw, 0, .any⟩]
  | .TDM_SWAP_TICK => [⟨31, 0, .ro, 0, .any⟩]
  | .TDM_OWN => [⟨31, 31, .ro, 0, .any⟩, ⟨12, 0, .ro, 0, .any⟩]
  | .TDM_MAP_SHADOW => [⟨31, 31, .rw, 1, .any⟩, ⟨12, 8, .rw, 0, .any⟩, ⟨6, 0, .rw, 0, .any⟩]
  | .TDM_MAP_ACTIVE => [⟨31, 0, .ro, 0, .any⟩]
  | .TIM_SNAP => [⟨0, 0, .wo, 0, .any⟩]
  | .TIM_SNAP_CNT_LO => [⟨31, 0, .ro, 0, .any⟩]
  | .TIM_SNAP_CNT_HI => [⟨31, 0, .ro, 0, .any⟩]
  | .TIM_SNAP_SEC_LO => [⟨31, 0, .ro, 0, .any⟩]
  | .TIM_SNAP_SEC_HI => [⟨15, 0, .ro, 0, .any⟩]
  | .TIM_SNAP_NS => [⟨29, 0, .ro, 0, .any⟩]
  | .TIM_SNAP_FRAC => [⟨15, 0, .ro, 0, .any⟩]
  | .TIM_SNAP_TICK_LO => [⟨31, 0, .ro, 0, .any⟩]
  | .TIM_SNAP_TICK_HI => [⟨31, 0, .ro, 0, .any⟩]
  | .TIM_OFS_SEC_LO => [⟨31, 0, .ro, 0, .any⟩]
  | .TIM_OFS_SEC_HI => [⟨15, 0, .ro, 0, .any⟩]
  | .TIM_OFS_NS => [⟨29, 0, .ro, 0, .any⟩]
  | .TIM_OFS_FRAC => [⟨15, 0, .ro, 0, .any⟩]
  | .TIM_RATE => [⟨31, 0, .rw, 0, .any⟩]
  | .TIM_STEP_SEC => [⟨31, 0, .rw, 0, .any⟩]
  | .TIM_STEP_NS => [⟨29, 0, .rw, 0, .any⟩]
  | .TIM_SERVO_CTRL => [⟨31, 31, .rw, 0, .any⟩, ⟨30, 30, .rw, 0, .any⟩]
  | .TIM_SERVO_GAIN => [⟨31, 16, .rw, 8192, .any⟩, ⟨15, 0, .rw, 512, .any⟩]
  | .TIM_JUMP_THR => [⟨31, 0, .rw, 10000, (.range 1000 100000000)⟩]
  | .TIM_ASYM_THR => [⟨31, 0, .rw, 2000, (.range 100 1000000)⟩]
  | .TIM_ASYM => [⟨31, 0, .rw, 0, .any⟩]
  | .TIM_SERVO_CMD => [⟨3, 3, .wo, 0, .any⟩, ⟨2, 2, .wo, 0, .any⟩, ⟨1, 1, .wo, 0, .any⟩, ⟨0, 0, .wo, 0, .any⟩]
  | .TIM_SERVO_STATUS => [⟨31, 29, .ro, 0, .any⟩, ⟨28, 26, .ro, 0, .any⟩, ⟨25, 25, .ro, 0, .any⟩, ⟨24, 24, .ro, 0, .any⟩]
  | .TIM_PEND_SEC => [⟨31, 0, .ro, 0, .any⟩]
  | .TIM_PEND_NS => [⟨29, 0, .ro, 0, .any⟩]
  | .TIM_PD_FILT => [⟨31, 0, .ro, 0, .any⟩]
  | .TIM_SERVO_LAST => [⟨31, 0, .ro, 0, .any⟩]
  | .TIM_SERVO_COUNT => [⟨31, 16, .rc, 0, .any⟩, ⟨15, 8, .rc, 0, .any⟩, ⟨7, 0, .rc, 0, .any⟩]
  | .TIM_HOST_OFS_SEC => [⟨31, 0, .rw, 0, .any⟩]
  | .TIM_HOST_OFS_NS => [⟨29, 0, .rw, 0, .any⟩]
  | .TIM_HOST_PD_NS => [⟨31, 0, .rw, 0, .any⟩]
  | .TIM_HOST_PUSH => [⟨1, 1, .wo, 0, .any⟩, ⟨0, 0, .wo, 0, .any⟩]
  | .TIM_TICK_CTRL => [⟨13, 0, .rw, 1000, (.range 10 10000)⟩]
  | .TIM_TICK_PHASE => [⟨31, 0, .ro, 0, .any⟩]
  | .TIM_PORT_LAT => [⟨31, 16, .rw, 0, .any⟩, ⟨15, 0, .rw, 0, .any⟩]
  | .TIM_PTP_CTRL => [⟨31, 31, .rw, 0, .any⟩, ⟨30, 30, .rw, 0, .any⟩, ⟨29, 28, .rw, 0, (.range 0 2)⟩, ⟨27, 27, .rw, 0, .any⟩, ⟨26, 26, .rw, 0, .any⟩, ⟨7, 0, .rw, 0, (.range 0 127)⟩]
  | .TIM_PTP_STATUS => [⟨31, 28, .ro, 0, .any⟩]
  | .TIM_PTP_PARENT_LO => [⟨31, 0, .ro, 0, .any⟩]
  | .TIM_PTP_PARENT_HI => [⟨31, 0, .ro, 0, .any⟩]
  | .TIM_PTP_COUNT => [⟨31, 16, .rc, 0, .any⟩, ⟨15, 0, .rc, 0, .any⟩]
  | .TIM_TC_COUNT => [⟨31, 16, .rc, 0, .any⟩, ⟨15, 0, .rc, 0, .any⟩]
  | .ISL_CLK_REQ => [⟨31, 31, .w1s, 0, .any⟩, ⟨11, 0, .rw, 0, .islFreq⟩]
  | .ISL_CLK_STATUS => [⟨31, 29, .ro, 0, .any⟩, ⟨28, 28, .ro, 0, .any⟩, ⟨27, 27, .ro, 0, .any⟩, ⟨11, 0, .ro, 0, .any⟩]
  | .ISL_CLK_LIMITS => [⟨27, 16, .ro, 0, .any⟩, ⟨11, 0, .ro, 0, .any⟩]
  | .ISL_CLK_COUNT => [⟨31, 16, .rc, 0, .any⟩, ⟨15, 0, .rc, 0, .any⟩]
  | .QUE_CFG => [⟨31, 28, .ro, 15, .any⟩, ⟨27, 24, .ro, 0, .any⟩, ⟨23, 22, .ro, 0, .any⟩, ⟨21, 18, .ro, 0, .any⟩, ⟨12, 0, .ro, 0, .any⟩]
  | .QUE_ECC => [⟨31, 16, .rc, 0, .any⟩, ⟨15, 0, .rc, 0, .any⟩]
  | .QUE_DROPREC => [⟨31, 16, .rc, 0, .any⟩, ⟨15, 0, .rc, 0, .any⟩]
  | .QUE_ESC => [⟨15, 0, .rc, 0, .any⟩]
  | .QUE_VC_CFG => [⟨31, 31, .ro, 0, .any⟩, ⟨28, 16, .ro, 0, .any⟩, ⟨14, 0, .ro, 0, .any⟩]
  | .QUE_VC_STAT => [⟨31, 16, .rc, 0, .any⟩, ⟨12, 0, .ro, 0, .any⟩]
  | .QUE_STALL => [⟨24, 16, .ro, 0, .any⟩, ⟨15, 14, .ro, 0, .any⟩, ⟨13, 0, .rw, 2000, (.range 10 10000)⟩]
  | .QUE_ECC_TOTAL => [⟨31, 16, .rc, 0, .any⟩, ⟨15, 0, .rc, 0, .any⟩]
  | .RIG_CTRL => [⟨31, 31, .w1s, 0, .any⟩, ⟨30, 30, .w1s, 0, .any⟩, ⟨29, 29, .w1s, 0, .any⟩, ⟨25, 25, .rw, 0, .any⟩, ⟨2, 0, .rw, 0, .any⟩]
  | .RIG_DATA => [⟨31, 0, .wo, 0, .any⟩]
  | .RIG_STATUS => [⟨31, 28, .ro, 0, .any⟩, ⟨27, 20, .ro, 0, .any⟩, ⟨19, 10, .ro, 1023, .any⟩]
  | .RIG_PROGRESS => [⟨31, 0, .ro, 0, .any⟩]
  | .RIG_RUN => [⟨31, 24, .ro, 0, .any⟩, ⟨23, 16, .ro, 0, .any⟩, ⟨7, 0, .ro, 0, .any⟩]
  | .RIG_COUNT => [⟨31, 16, .rc, 0, .any⟩, ⟨15, 0, .rc, 0, .any⟩]
  | .RIG_QSPI_OFS => [⟨31, 4, .rw, 0, .any⟩]
  | .BOOT_STATUS => [⟨31, 28, .ro, 0, .any⟩, ⟨27, 20, .ro, 0, .any⟩, ⟨19, 18, .ro, 0, .any⟩, ⟨17, 17, .ro, 0, .any⟩, ⟨16, 16, .ro, 0, .any⟩, ⟨15, 13, .ro, 7, .any⟩]
  | .BOOT_KEYS => [⟨31, 29, .ro, 0, .any⟩, ⟨9, 8, .ro, 3, .any⟩, ⟨7, 7, .ro, 0, .any⟩, ⟨6, 6, .ro, 0, .any⟩, ⟨5, 5, .ro, 0, .any⟩, ⟨4, 4, .ro, 0, .any⟩, ⟨3, 3, .ro, 0, .any⟩]
  | .BOOT_ROOT_REVOKED => [⟨3, 0, .ro, 0, .any⟩]
  | .BOOT_CTRL => [⟨31, 31, .w1s, 0, .any⟩, ⟨30, 30, .w1s, 0, .any⟩, ⟨29, 29, .w1s, 0, .any⟩, ⟨2, 0, .rw, 0, (.range 0 4)⟩]
  | .BOOT_TIME => [⟨31, 0, .ro, 0, .any⟩]
  | .BOOT_OWNER_DIGEST => [⟨31, 0, .rw, 0, .any⟩]
  | .BOOT_ATT_CTRL => [⟨31, 31, .w1s, 0, .any⟩, ⟨30, 30, .ro, 0, .any⟩, ⟨29, 29, .ro, 0, .any⟩, ⟨28, 27, .ro, 0, .any⟩]
  | .BOOT_ATT_NONCE => [⟨31, 0, .rw, 0, .any⟩]
  | .BOOT_ID_KEY => [⟨31, 0, .ro, 0, .any⟩]
  | .BOOT_ATT_REPORT => [⟨31, 0, .ro, 0, .any⟩]
  | .ACC_STATUS => [⟨31, 31, .ro, 0, .any⟩, ⟨5, 0, .ro, 0, .any⟩]
  | .ACC_SEL => [⟨9, 4, .rw, 0, (.range 0 61)⟩, ⟨3, 0, .rw, 0, .any⟩]
  | .ACC_ENTRY => [⟨3, 0, .ro, 0, .any⟩]
  | .ACC_WIN_START => [⟨31, 0, .ro, 0, .any⟩]
  | .ACC_WIN_LEN => [⟨31, 31, .ro, 0, .any⟩, ⟨30, 30, .ro, 0, .any⟩, ⟨29, 29, .ro, 0, .any⟩, ⟨28, 0, .ro, 0, .any⟩]
  | .ACC_DENY_COUNT => [⟨31, 16, .rc, 0, .any⟩, ⟨15, 0, .rc, 0, .any⟩]
  | .ACC_DENY_FIRST_ADDR => [⟨31, 0, .ro, 0, .any⟩]
  | .ACC_DENY_FIRST_INFO => [⟨31, 31, .w1c, 0, .any⟩, ⟨27, 24, .ro, 0, .any⟩, ⟨11, 10, .ro, 0, .any⟩, ⟨9, 4, .ro, 0, .any⟩, ⟨3, 0, .ro, 0, .any⟩]
  | .ACC_DENY_LAST_ADDR => [⟨31, 0, .ro, 0, .any⟩]
  | .ACC_DENY_LAST_INFO => [⟨31, 31, .ro, 0, .any⟩, ⟨27, 24, .ro, 0, .any⟩, ⟨11, 10, .ro, 0, .any⟩, ⟨9, 4, .ro, 0, .any⟩, ⟨3, 0, .ro, 0, .any⟩]
  | .HST_STATUS => [⟨31, 31, .ro, 0, .any⟩, ⟨30, 24, .ro, 0, .any⟩, ⟨22, 16, .ro, 92, .any⟩, ⟨0, 0, .ro, 1, .any⟩]
  | .HST_PID_HI => [⟨15, 0, .ro, 0, .any⟩]
  | .HST_PID_LO => [⟨31, 0, .ro, 0, .any⟩]
  | .HST_IRQ_EN => [⟨31, 16, .rw, 0, .any⟩, ⟨15, 0, .rw, 0, .any⟩]
  | .HST_PENDING => [⟨15, 0, .ro, 0, .any⟩]
  | .HST_CMDQ => [⟨8, 0, .ro, 256, .any⟩]
  | .HST_CMD_SEQ => [⟨31, 0, .ro, 0, .any⟩]
  | .HST_EVQ => [⟨31, 16, .rc, 0, .any⟩, ⟨10, 0, .ro, 0, .any⟩]
  | .HST_CPLQ => [⟨8, 0, .ro, 0, .any⟩]
  | .HST_FRAME_ERR => [⟨31, 16, .rc, 0, .any⟩, ⟨15, 0, .rc, 0, .any⟩]
  | .HST_RESP => [⟨31, 16, .rc, 0, .any⟩, ⟨15, 0, .rc, 0, .any⟩]
  | .HST_POSTED => [⟨31, 31, .w1c, 0, .any⟩, ⟨15, 0, .ro, 0, .any⟩]
  | .HST_POSTED_ADDR => [⟨31, 0, .ro, 0, .any⟩]
  | .HST_FAULT => [⟨4, 4, .ro, 0, .any⟩, ⟨3, 3, .ro, 0, .any⟩, ⟨2, 2, .w1c, 0, .any⟩, ⟨1, 1, .w1c, 0, .any⟩, ⟨0, 0, .ro, 0, .any⟩]
  | .ERR_CORRECTED => [⟨31, 0, .rc, 0, .any⟩]
  | .ERR_CLASS => [⟨31, 16, .rc, 0, .any⟩, ⟨15, 0, .rc, 0, .any⟩]
  | .ERR_FATAL => [⟨31, 24, .ro, 0, .any⟩, ⟨15, 0, .rc, 0, .any⟩]
  | .ERR_UE_RATE => [⟨25, 16, .ro, 0, .any⟩, ⟨9, 0, .rw, 16, (.range 1 1000)⟩]
  | .ERR_SEQ => [⟨31, 0, .ro, 0, .any⟩]
  | .ERR_PENDING => [⟨31, 16, .rc, 0, .any⟩, ⟨8, 0, .ro, 0, .any⟩]
  | .ERR_LOG_SIZE => [⟨31, 0, .ro, 0, .any⟩]
  | .ERR_LOG_WR => [⟨31, 0, .ro, 0, .any⟩]
  | .ERR_LOG_WRAPS => [⟨31, 0, .rc, 0, .any⟩]
  | .ERR_LOG_IDX => [⟨31, 0, .rw, 0, .logIdx⟩]
  | .ERR_MASK => [⟨31, 0, .rw, 0, .any⟩]
  | .ERR_LOG_REC => [⟨31, 0, .ro, 0, .any⟩]
  | .CEL_ECC => [⟨31, 16, .rc, 0, .any⟩, ⟨15, 0, .rc, 0, .any⟩]
  | .CEL_ECC_LAST_LO => [⟨31, 0, .ro, 0, .any⟩]
  | .CEL_ECC_LAST_HI => [⟨31, 31, .w1c, 0, .any⟩, ⟨11, 8, .ro, 0, .any⟩, ⟨7, 4, .ro, 0, .any⟩, ⟨3, 0, .ro, 0, .any⟩]
  | .CEL_SCRUB => [⟨31, 31, .rw, 1, .any⟩, ⟨9, 0, .rw, 24, (.range 1 1000)⟩]
  | .CEL_SCRUB_STATUS => [⟨31, 16, .rc, 0, .any⟩, ⟨15, 0, .rc, 0, .any⟩]
  | .CEL_RETRY => [⟨31, 16, .rc, 0, .any⟩, ⟨15, 0, .rc, 0, .any⟩]
  | .ATT_ECC => [⟨31, 16, .rc, 0, .any⟩, ⟨15, 0, .rc, 0, .any⟩]
  | .MST_MEM_ECC => [⟨31, 16, .rc, 0, .any⟩, ⟨15, 0, .rc, 0, .any⟩]
  | .MST_RESTART => [⟨31, 16, .rc, 0, .any⟩, ⟨15, 0, .rc, 0, .any⟩]
  | .STY_CTRL => [⟨31, 31, .rw, 0, .any⟩]
  | .STY_STATUS => [⟨31, 31, .ro, 0, .any⟩, ⟨30, 30, .ro, 0, .any⟩, ⟨29, 29, .ro, 0, .any⟩, ⟨28, 28, .ro, 0, .any⟩, ⟨27, 26, .ro, 0, .any⟩, ⟨25, 25, .ro, 0, .any⟩, ⟨24, 22, .ro, 7, .any⟩]
  | .STY_FRAMES => [⟨31, 16, .rc, 0, .any⟩, ⟨15, 0, .rc, 0, .any⟩]
  | .STY_ERR => [⟨31, 16, .rc, 0, .any⟩, ⟨15, 0, .rc, 0, .any⟩]
  | .STY_CUT => [⟨31, 24, .ro, 0, .any⟩, ⟨15, 0, .rc, 0, .any⟩]
  | .STY_RTT => [⟨31, 0, .ro, 0, .any⟩]
  | .STY_RELAY => [⟨31, 16, .rc, 0, .any⟩, ⟨15, 0, .rc, 0, .any⟩]
  | .PAIR_CFG => [⟨31, 24, .ro, 0, .any⟩, ⟨23, 16, .ro, 0, .any⟩, ⟨15, 14, .ro, 0, .any⟩, ⟨13, 12, .ro, 0, .any⟩, ⟨11, 8, .ro, 15, .any⟩]
  | .PAIR_CTRL => [⟨31, 28, .rw, 1, (.range 1 15)⟩, ⟨27, 16, .rw, 200, (.range 10 4000)⟩, ⟨15, 2, .rw, 100, (.range 10 10000)⟩, ⟨1, 1, .rw, 1, .any⟩]
  | .PAIR_TIMING => [⟨15, 0, .rw, 200, (.range 50 900)⟩]
  | .PAIR_STATUS => [⟨31, 30, .ro, 0, .any⟩, ⟨29, 28, .ro, 0, .any⟩, ⟨27, 27, .ro, 0, .any⟩, ⟨26, 26, .ro, 0, .any⟩, ⟨25, 25, .ro, 0, .any⟩, ⟨24, 24, .ro, 0, .any⟩, ⟨23, 23, .ro, 0, .any⟩, ⟨22, 22, .ro, 0, .any⟩, ⟨21, 21, .ro, 0, .any⟩, ⟨7, 0, .ro, 1, .any⟩]
  | .PAIR_HALYARD => [⟨31, 31, .ro, 1, .any⟩, ⟨30, 29, .ro, 0, .any⟩, ⟨23, 16, .ro, 0, .any⟩, ⟨15, 0, .rc, 0, .any⟩]
  | .PAIR_COUNT => [⟨31, 16, .rc, 0, .any⟩, ⟨15, 0, .rc, 0, .any⟩]
  | .PAIR_COPY => [⟨31, 0, .ro, 0, .any⟩]
  | .PAIR_DIGEST => [⟨31, 16, .rc, 0, .any⟩, ⟨15, 8, .rc, 0, .any⟩, ⟨6, 0, .ro, 0, .any⟩]
  | .PAIR_LANE_UNSYNC => [⟨31, 0, .ro, 0, .any⟩]
  | .PAIR_SYNC => [⟨31, 0, .ro, 0, .any⟩]
  | .PAIR_FWD => [⟨31, 16, .rc, 0, .any⟩, ⟨15, 0, .rc, 0, .any⟩]
  | .AGE_TT => [⟨31, 31, .ro, 1, .any⟩, ⟨30, 16, .ro, 0, .any⟩, ⟨15, 0, .ro, 0, .any⟩]
  | .AGE_ISL => [⟨31, 16, .ro, 32768, .any⟩, ⟨15, 0, .ro, 32768, .any⟩]
  | .AGE_CFG => [⟨31, 24, .rw, 24, (.range 1 168)⟩, ⟨23, 16, .rw, 40, (.range 10 200)⟩, ⟨15, 8, .rw, 15, (.range 5 100)⟩, ⟨7, 4, .rw, 15, (.range 5 15)⟩]
  | .AGE_THERM => [⟨31, 24, .rw, 110, (.range 90 125)⟩, ⟨23, 16, .rw, 120, (.range 95 135)⟩]
  | .AGE_STATUS => [⟨31, 29, .ro, 0, .any⟩, ⟨28, 28, .ro, 0, .any⟩, ⟨27, 24, .ro, 5, .any⟩, ⟨23, 16, .ro, 255, .any⟩, ⟨15, 8, .ro, 0, .any⟩]
  | .AGE_REEF => [⟨31, 27, .ro, 0, .any⟩, ⟨23, 10, .ro, 0, .any⟩, ⟨9, 0, .ro, 0, .any⟩]
  | .AGE_COUNT => [⟨31, 16, .rc, 0, .any⟩, ⟨15, 8, .rc, 0, .any⟩, ⟨7, 0, .rc, 0, .any⟩]
  | .AGE_HOURS => [⟨31, 0, .ro, 0, .any⟩]
  | .AGE_LIFE => [⟨31, 16, .ro, 65535, .any⟩]
  | .AGE_RECORD => [⟨31, 0, .ro, 0, .any⟩]
  | .PWR_MON => [⟨11, 11, .ro, 0, .any⟩, ⟨10, 0, .ro, 0, .any⟩]
  | .PWR_COUNT => [⟨31, 16, .rc, 0, .any⟩, ⟨15, 0, .rc, 0, .any⟩]
  | .PWR_SEQ => [⟨31, 31, .ro, 0, .any⟩, ⟨3, 0, .ro, 15, .any⟩]
  | .PWR_RESET => [⟨1, 0, .ro, 0, .any⟩]
  | .MST_ID => [⟨31, 24, .ro, 161, .any⟩, ⟨17, 16, .ro, 0, .any⟩, ⟨15, 0, .ro, 8192, .any⟩]
  | .MST_MFR => [⟨10, 0, .ro, 709, .any⟩]
  | .MST_SERIAL_LO => [⟨31, 0, .ro, 0, .any⟩]
  | .MST_SERIAL_HI => [⟨31, 0, .ro, 0, .any⟩]
  | .MST_FW_VER => [⟨31, 24, .ro, 0, .any⟩, ⟨23, 16, .ro, 0, .any⟩, ⟨15, 0, .ro, 0, .any⟩]
  | .MST_SCRATCH => [⟨31, 0, .rw, 0, .any⟩]
  | .MST_TICK_LO => [⟨31, 0, .ro, 0, .any⟩]
  | .MST_TICK_HI => [⟨31, 0, .ro, 0, .any⟩]
  | .CEL_CFG => [⟨23, 16, .ro, 0, .any⟩, ⟨7, 4, .ro, 0, .any⟩, ⟨3, 0, .ro, 0, .any⟩]
  | .CEL_STATUS => [⟨31, 29, .ro, 0, .any⟩, ⟨15, 0, .rc, 0, .any⟩]
  | .CEL_REGION_BASE => [⟨14, 0, .ro, 0, .any⟩]
  | .CEL_REGION_SIZE => [⟨31, 24, .ro, 0, .any⟩, ⟨14, 0, .ro, 0, .any⟩]

/-! Field names: register and field as the tables spell them. -/

abbrev Fld.MST_CHAN_STATUS_active : Fld := ⟨.MST_CHAN_STATUS, 29, 16⟩
abbrev Fld.MST_CHAN_STATUS_keep_active : Fld := ⟨.MST_CHAN_STATUS, 9, 0⟩
abbrev Fld.MST_SESSION_COUNT_entries : Fld := ⟨.MST_SESSION_COUNT, 20, 0⟩
abbrev Fld.MST_ADMIT_FAILS_no_context : Fld := ⟨.MST_ADMIT_FAILS, 31, 16⟩
abbrev Fld.MST_ADMIT_FAILS_table_full : Fld := ⟨.MST_ADMIT_FAILS, 15, 0⟩
abbrev Fld.LAN_LOAD_used_lu : Fld := ⟨.LAN_LOAD, 31, 16⟩
abbrev Fld.LAN_LOAD_budget_lu : Fld := ⟨.LAN_LOAD, 15, 0⟩
abbrev Fld.LAN_CTX_contexts : Fld := ⟨.LAN_CTX, 6, 0⟩
abbrev Fld.LAN_ARITH_nan_seen_en : Fld := ⟨.LAN_ARITH, 10, 10⟩
abbrev Fld.LAN_ARITH_sat_en : Fld := ⟨.LAN_ARITH, 9, 9⟩
abbrev Fld.LAN_ARITH_acc_ovf_en : Fld := ⟨.LAN_ARITH, 8, 8⟩
abbrev Fld.LAN_ARITH_nan_seen : Fld := ⟨.LAN_ARITH, 2, 2⟩
abbrev Fld.LAN_ARITH_sat : Fld := ⟨.LAN_ARITH, 1, 1⟩
abbrev Fld.LAN_ARITH_acc_ovf : Fld := ⟨.LAN_ARITH, 0, 0⟩
abbrev Fld.LAN_BANK_STALL_stalls : Fld := ⟨.LAN_BANK_STALL, 31, 0⟩
abbrev Fld.LAN_DMEM_ECC_corrected : Fld := ⟨.LAN_DMEM_ECC, 31, 16⟩
abbrev Fld.LAN_DMEM_ECC_uncorrected : Fld := ⟨.LAN_DMEM_ECC, 15, 0⟩
abbrev Fld.LAN_CTRL_restart : Fld := ⟨.LAN_CTRL, 0, 0⟩
abbrev Fld.LAN_STATUS_state : Fld := ⟨.LAN_STATUS, 30, 28⟩
abbrev Fld.LAN_STATUS_loop_depth : Fld := ⟨.LAN_STATUS, 27, 26⟩
abbrev Fld.LAN_STATUS_cidx : Fld := ⟨.LAN_STATUS, 18, 12⟩
abbrev Fld.LAN_STATUS_pc : Fld := ⟨.LAN_STATUS, 11, 0⟩
abbrev Fld.LAN_FAULT_cause : Fld := ⟨.LAN_FAULT, 31, 28⟩
abbrev Fld.LAN_FAULT_slot : Fld := ⟨.LAN_FAULT, 14, 13⟩
abbrev Fld.LAN_FAULT_pc : Fld := ⟨.LAN_FAULT, 11, 0⟩
abbrev Fld.LAN_FAULT_ADDR_address : Fld := ⟨.LAN_FAULT_ADDR, 31, 0⟩
abbrev Fld.LAN_OVERRUN_overruns : Fld := ⟨.LAN_OVERRUN, 31, 0⟩
abbrev Fld.LAN_ENTRY_entry : Fld := ⟨.LAN_ENTRY, 11, 0⟩
abbrev Fld.LAN_AGEN_circ_fold_en : Fld := ⟨.LAN_AGEN, 8, 8⟩
abbrev Fld.LAN_AGEN_circ_fold : Fld := ⟨.LAN_AGEN, 0, 0⟩
abbrev Fld.LAN_PMEM_ECC_corrected : Fld := ⟨.LAN_PMEM_ECC, 31, 16⟩
abbrev Fld.LAN_PMEM_ECC_uncorrected : Fld := ⟨.LAN_PMEM_ECC, 15, 0⟩
abbrev Fld.BND_NO_PEER_frames : Fld := ⟨.BND_NO_PEER, 31, 0⟩
abbrev Fld.BND_PEER_CTRL_enable : Fld := ⟨.BND_PEER_CTRL, 31, 31⟩
abbrev Fld.BND_PEER_CTRL_ack_fast : Fld := ⟨.BND_PEER_CTRL, 30, 30⟩
abbrev Fld.BND_PEER_CTRL_compress : Fld := ⟨.BND_PEER_CTRL, 29, 29⟩
abbrev Fld.BND_PEER_CTRL_encap : Fld := ⟨.BND_PEER_CTRL, 28, 28⟩
abbrev Fld.BND_PEER_CTRL_port : Fld := ⟨.BND_PEER_CTRL, 27, 27⟩
abbrev Fld.BND_PEER_CTRL_tx_queue : Fld := ⟨.BND_PEER_CTRL, 26, 24⟩
abbrev Fld.BND_PEER_CTRL_reorder_ms : Fld := ⟨.BND_PEER_CTRL, 23, 20⟩
abbrev Fld.BND_PEER_CTRL_interval : Fld := ⟨.BND_PEER_CTRL, 19, 16⟩
abbrev Fld.BND_PEER_CTRL_max_bytes : Fld := ⟨.BND_PEER_CTRL, 13, 0⟩
abbrev Fld.BND_PEER_STATE_tx_epoch : Fld := ⟨.BND_PEER_STATE, 31, 24⟩
abbrev Fld.BND_PEER_STATE_rx_epoch : Fld := ⟨.BND_PEER_STATE, 23, 16⟩
abbrev Fld.BND_PEER_STATE_rx_state : Fld := ⟨.BND_PEER_STATE, 15, 14⟩
abbrev Fld.BND_PEER_STATE_resync_req : Fld := ⟨.BND_PEER_STATE, 13, 13⟩
abbrev Fld.BND_PEER_STATE_restart_pending : Fld := ⟨.BND_PEER_STATE, 12, 12⟩
abbrev Fld.BND_PEER_TXSEQ_seq : Fld := ⟨.BND_PEER_TXSEQ, 31, 0⟩
abbrev Fld.BND_PEER_RXSEQ_expected : Fld := ⟨.BND_PEER_RXSEQ, 31, 0⟩
abbrev Fld.BND_PEER_COUNT_tx_bundles : Fld := ⟨.BND_PEER_COUNT, 31, 16⟩
abbrev Fld.BND_PEER_COUNT_rx_bundles : Fld := ⟨.BND_PEER_COUNT, 15, 0⟩
abbrev Fld.BND_PEER_LOSS_lost : Fld := ⟨.BND_PEER_LOSS, 31, 16⟩
abbrev Fld.BND_PEER_LOSS_late : Fld := ⟨.BND_PEER_LOSS, 15, 8⟩
abbrev Fld.BND_PEER_LOSS_out_of_window : Fld := ⟨.BND_PEER_LOSS, 7, 0⟩
abbrev Fld.BND_PEER_ERR_bad_bundles : Fld := ⟨.BND_PEER_ERR, 31, 16⟩
abbrev Fld.BND_PEER_ERR_interval_drops : Fld := ⟨.BND_PEER_ERR, 15, 8⟩
abbrev Fld.BND_PEER_ERR_no_session : Fld := ⟨.BND_PEER_ERR, 7, 0⟩
abbrev Fld.DIC_CMD_turn : Fld := ⟨.DIC_CMD, 6, 6⟩
abbrev Fld.DIC_CMD_peer : Fld := ⟨.DIC_CMD, 5, 0⟩
abbrev Fld.DIC_ECC_corrected : Fld := ⟨.DIC_ECC, 31, 16⟩
abbrev Fld.DIC_ECC_uncorrected : Fld := ⟨.DIC_ECC, 15, 0⟩
abbrev Fld.DIC_PEER_tx_next : Fld := ⟨.DIC_PEER, 28, 16⟩
abbrev Fld.DIC_PEER_rx_next : Fld := ⟨.DIC_PEER, 12, 0⟩
abbrev Fld.DIC_PEER_TURNS_tx_turns : Fld := ⟨.DIC_PEER_TURNS, 31, 16⟩
abbrev Fld.DIC_PEER_TURNS_rx_resets : Fld := ⟨.DIC_PEER_TURNS, 15, 0⟩
abbrev Fld.TMC_CTRL_enable : Fld := ⟨.TMC_CTRL, 31, 31⟩
abbrev Fld.TMC_CTRL_speed : Fld := ⟨.TMC_CTRL, 30, 30⟩
abbrev Fld.TMC_CTRL_fec : Fld := ⟨.TMC_CTRL, 29, 28⟩
abbrev Fld.TMC_CTRL_pause_mode : Fld := ⟨.TMC_CTRL, 27, 26⟩
abbrev Fld.TMC_CTRL_pause_wd_ms : Fld := ⟨.TMC_CTRL, 25, 16⟩
abbrev Fld.TMC_CTRL_max_frame : Fld := ⟨.TMC_CTRL, 13, 0⟩
abbrev Fld.TMC_STATUS_link : Fld := ⟨.TMC_STATUS, 31, 31⟩
abbrev Fld.TMC_STATUS_block_lock : Fld := ⟨.TMC_STATUS, 30, 30⟩
abbrev Fld.TMC_STATUS_hi_ber : Fld := ⟨.TMC_STATUS, 29, 29⟩
abbrev Fld.TMC_STATUS_fec_lock : Fld := ⟨.TMC_STATUS, 28, 28⟩
abbrev Fld.TMC_STATUS_fec_active : Fld := ⟨.TMC_STATUS, 27, 26⟩
abbrev Fld.TMC_STATUS_voice_tx : Fld := ⟨.TMC_STATUS, 16, 16⟩
abbrev Fld.TMC_STATUS_paused : Fld := ⟨.TMC_STATUS, 15, 8⟩
abbrev Fld.TMC_STATUS_holdoff : Fld := ⟨.TMC_STATUS, 7, 0⟩
abbrev Fld.TMC_ADDR_HI_addr_hi : Fld := ⟨.TMC_ADDR_HI, 15, 0⟩
abbrev Fld.TMC_ADDR_LO_addr_lo : Fld := ⟨.TMC_ADDR_LO, 31, 0⟩
abbrev Fld.TMC_TX_MAP_ptp : Fld := ⟨.TMC_TX_MAP, 11, 9⟩
abbrev Fld.TMC_TX_MAP_mast : Fld := ⟨.TMC_TX_MAP, 8, 6⟩
abbrev Fld.TMC_TX_MAP_rtcp : Fld := ⟨.TMC_TX_MAP, 5, 3⟩
abbrev Fld.TMC_TX_MAP_rtp : Fld := ⟨.TMC_TX_MAP, 2, 0⟩
abbrev Fld.TMC_GATE_CTRL_enable : Fld := ⟨.TMC_GATE_CTRL, 31, 31⟩
abbrev Fld.TMC_GATE_CTRL_apply : Fld := ⟨.TMC_GATE_CTRL, 30, 30⟩
abbrev Fld.TMC_GATE_CTRL_length : Fld := ⟨.TMC_GATE_CTRL, 8, 0⟩
abbrev Fld.TMC_GATE_CYCLE_cycle_ns : Fld := ⟨.TMC_GATE_CYCLE, 29, 0⟩
abbrev Fld.TMC_GATE_BASE_NS_base_ns : Fld := ⟨.TMC_GATE_BASE_NS, 29, 0⟩
abbrev Fld.TMC_GATE_BASE_SEC_LO_base_sec_lo : Fld := ⟨.TMC_GATE_BASE_SEC_LO, 31, 0⟩
abbrev Fld.TMC_GATE_BASE_SEC_HI_base_sec_hi : Fld := ⟨.TMC_GATE_BASE_SEC_HI, 15, 0⟩
abbrev Fld.TMC_GATE_STATUS_oper_valid : Fld := ⟨.TMC_GATE_STATUS, 31, 31⟩
abbrev Fld.TMC_GATE_STATUS_pending : Fld := ⟨.TMC_GATE_STATUS, 30, 30⟩
abbrev Fld.TMC_GATE_STATUS_late : Fld := ⟨.TMC_GATE_STATUS, 29, 29⟩
abbrev Fld.TMC_GATE_STATUS_oper_length : Fld := ⟨.TMC_GATE_STATUS, 8, 0⟩
abbrev Fld.TMC_GATE_LIST_gates : Fld := ⟨.TMC_GATE_LIST, 31, 24⟩
abbrev Fld.TMC_GATE_LIST_interval_ns : Fld := ⟨.TMC_GATE_LIST, 23, 0⟩
abbrev Fld.TMC_RX_FRAMES_rx_frames : Fld := ⟨.TMC_RX_FRAMES, 31, 0⟩
abbrev Fld.TMC_TX_FRAMES_tx_frames : Fld := ⟨.TMC_TX_FRAMES, 31, 0⟩
abbrev Fld.TMC_RX_ERR1_fcs_errors : Fld := ⟨.TMC_RX_ERR1, 31, 16⟩
abbrev Fld.TMC_RX_ERR1_runts : Fld := ⟨.TMC_RX_ERR1, 15, 0⟩
abbrev Fld.TMC_RX_ERR2_oversize : Fld := ⟨.TMC_RX_ERR2, 31, 16⟩
abbrev Fld.TMC_RX_ERR2_da_drops : Fld := ⟨.TMC_RX_ERR2, 15, 0⟩
abbrev Fld.TMC_CTRL_RX_pause_rx : Fld := ⟨.TMC_CTRL_RX, 31, 16⟩
abbrev Fld.TMC_CTRL_RX_ctrl_drops : Fld := ⟨.TMC_CTRL_RX, 15, 0⟩
abbrev Fld.TMC_PAUSE_BREAK_pause_breaks : Fld := ⟨.TMC_PAUSE_BREAK, 31, 16⟩
abbrev Fld.TMC_PAUSE_BREAK_gate_drops : Fld := ⟨.TMC_PAUSE_BREAK, 15, 0⟩
abbrev Fld.TMC_TX_DROP_standby : Fld := ⟨.TMC_TX_DROP, 31, 16⟩
abbrev Fld.TMC_TX_DROP_link_drops : Fld := ⟨.TMC_TX_DROP, 15, 0⟩
abbrev Fld.TMC_FEC_corrected : Fld := ⟨.TMC_FEC, 31, 16⟩
abbrev Fld.TMC_FEC_uncorrected : Fld := ⟨.TMC_FEC, 15, 0⟩
abbrev Fld.TMC_RXQ_CFG_consumer : Fld := ⟨.TMC_RXQ_CFG, 31, 30⟩
abbrev Fld.TMC_RXQ_CFG_buf_size : Fld := ⟨.TMC_RXQ_CFG, 19, 16⟩
abbrev Fld.TMC_RXQ_CFG_buffers : Fld := ⟨.TMC_RXQ_CFG, 15, 0⟩
abbrev Fld.TMC_RXQ_DROP_no_buffer : Fld := ⟨.TMC_RXQ_DROP, 31, 16⟩
abbrev Fld.TMC_RXQ_DROP_overflow : Fld := ⟨.TMC_RXQ_DROP, 15, 0⟩
abbrev Fld.TMC_TXQ_DROP_full : Fld := ⟨.TMC_TXQ_DROP, 31, 16⟩
abbrev Fld.TMC_TXQ_DROP_tx_oversize : Fld := ⟨.TMC_TXQ_DROP, 15, 0⟩
abbrev Fld.FLT_PORT_ptp_en : Fld := ⟨.FLT_PORT, 8, 8⟩
abbrev Fld.FLT_PORT_default_pcp : Fld := ⟨.FLT_PORT, 7, 5⟩
abbrev Fld.FLT_PORT_default_action : Fld := ⟨.FLT_PORT, 3, 0⟩
abbrev Fld.FLT_DROP_no_session : Fld := ⟨.FLT_DROP, 31, 16⟩
abbrev Fld.FLT_DROP_bad_ip : Fld := ⟨.FLT_DROP, 15, 0⟩
abbrev Fld.FLT_FILTER_DROP_filter_drops : Fld := ⟨.FLT_FILTER_DROP, 31, 16⟩
abbrev Fld.FLT_FILTER_DROP_mast_unhandled : Fld := ⟨.FLT_FILTER_DROP, 15, 0⟩
abbrev Fld.FLT_ENTRY_A_valid : Fld := ⟨.FLT_ENTRY_A, 31, 31⟩
abbrev Fld.FLT_ENTRY_A_ports : Fld := ⟨.FLT_ENTRY_A, 30, 28⟩
abbrev Fld.FLT_ENTRY_A_tag : Fld := ⟨.FLT_ENTRY_A, 27, 26⟩
abbrev Fld.FLT_ENTRY_A_pcp : Fld := ⟨.FLT_ENTRY_A, 25, 23⟩
abbrev Fld.FLT_ENTRY_A_pcp_mask : Fld := ⟨.FLT_ENTRY_A, 22, 20⟩
abbrev Fld.FLT_ENTRY_A_action : Fld := ⟨.FLT_ENTRY_A, 19, 16⟩
abbrev Fld.FLT_ENTRY_A_vid : Fld := ⟨.FLT_ENTRY_A, 11, 0⟩
abbrev Fld.FLT_ENTRY_B_ethertype : Fld := ⟨.FLT_ENTRY_B, 31, 16⟩
abbrev Fld.FLT_ENTRY_B_et_en : Fld := ⟨.FLT_ENTRY_B, 15, 15⟩
abbrev Fld.FLT_ENTRY_B_vid_mask : Fld := ⟨.FLT_ENTRY_B, 11, 0⟩
abbrev Fld.SVC_CTRL_enable : Fld := ⟨.SVC_CTRL, 31, 31⟩
abbrev Fld.SVC_CTRL_speed : Fld := ⟨.SVC_CTRL, 30, 29⟩
abbrev Fld.SVC_CTRL_duplex : Fld := ⟨.SVC_CTRL, 28, 28⟩
abbrev Fld.SVC_CTRL_pause_en : Fld := ⟨.SVC_CTRL, 27, 27⟩
abbrev Fld.SVC_CTRL_tx_delay : Fld := ⟨.SVC_CTRL, 26, 26⟩
abbrev Fld.SVC_CTRL_rx_delay : Fld := ⟨.SVC_CTRL, 25, 25⟩
abbrev Fld.SVC_CTRL_max_frame : Fld := ⟨.SVC_CTRL, 13, 0⟩
abbrev Fld.SVC_ADDR_HI_addr_hi : Fld := ⟨.SVC_ADDR_HI, 15, 0⟩
abbrev Fld.SVC_ADDR_LO_addr_lo : Fld := ⟨.SVC_ADDR_LO, 31, 0⟩
abbrev Fld.SVC_MDIO_CMD_start : Fld := ⟨.SVC_MDIO_CMD, 31, 31⟩
abbrev Fld.SVC_MDIO_CMD_busy : Fld := ⟨.SVC_MDIO_CMD, 30, 30⟩
abbrev Fld.SVC_MDIO_CMD_clause45 : Fld := ⟨.SVC_MDIO_CMD, 29, 29⟩
abbrev Fld.SVC_MDIO_CMD_op : Fld := ⟨.SVC_MDIO_CMD, 28, 27⟩
abbrev Fld.SVC_MDIO_CMD_phy : Fld := ⟨.SVC_MDIO_CMD, 26, 22⟩
abbrev Fld.SVC_MDIO_CMD_reg : Fld := ⟨.SVC_MDIO_CMD, 21, 17⟩
abbrev Fld.SVC_MDIO_CMD_data : Fld := ⟨.SVC_MDIO_CMD, 15, 0⟩
abbrev Fld.SVC_MDIO_CFG_mdc_div : Fld := ⟨.SVC_MDIO_CFG, 9, 0⟩
abbrev Fld.SVC_FRAMES_rx_frames : Fld := ⟨.SVC_FRAMES, 31, 16⟩
abbrev Fld.SVC_FRAMES_tx_frames : Fld := ⟨.SVC_FRAMES, 15, 0⟩
abbrev Fld.SVC_RX_ERR_fcs_errors : Fld := ⟨.SVC_RX_ERR, 31, 24⟩
abbrev Fld.SVC_RX_ERR_runts : Fld := ⟨.SVC_RX_ERR, 23, 16⟩
abbrev Fld.SVC_RX_ERR_oversize : Fld := ⟨.SVC_RX_ERR, 15, 8⟩
abbrev Fld.SVC_RX_ERR_no_buffer : Fld := ⟨.SVC_RX_ERR, 7, 0⟩
abbrev Fld.SVC_COLL_collisions : Fld := ⟨.SVC_COLL, 31, 16⟩
abbrev Fld.SVC_COLL_late : Fld := ⟨.SVC_COLL, 15, 8⟩
abbrev Fld.SVC_COLL_excess : Fld := ⟨.SVC_COLL, 7, 0⟩
abbrev Fld.SVC_WAKE_magic_en : Fld := ⟨.SVC_WAKE, 24, 24⟩
abbrev Fld.SVC_WAKE_pattern_en : Fld := ⟨.SVC_WAKE, 23, 16⟩
abbrev Fld.SVC_WAKE_magic_hit : Fld := ⟨.SVC_WAKE, 8, 8⟩
abbrev Fld.SVC_WAKE_pattern_hit : Fld := ⟨.SVC_WAKE, 7, 0⟩
abbrev Fld.SVC_WAKE_PAT_pattern : Fld := ⟨.SVC_WAKE_PAT, 31, 0⟩
abbrev Fld.SVC_WAKE_MASK_mask : Fld := ⟨.SVC_WAKE_MASK, 31, 0⟩
abbrev Fld.TDM_GRP_CTRL_enable : Fld := ⟨.TDM_GRP_CTRL, 31, 31⟩
abbrev Fld.TDM_GRP_CTRL_rate : Fld := ⟨.TDM_GRP_CTRL, 30, 29⟩
abbrev Fld.TDM_GRP_CTRL_clk_mode : Fld := ⟨.TDM_GRP_CTRL, 28, 28⟩
abbrev Fld.TDM_GRP_CTRL_fs_pol : Fld := ⟨.TDM_GRP_CTRL, 27, 27⟩
abbrev Fld.TDM_GRP_CTRL_tx_edge : Fld := ⟨.TDM_GRP_CTRL, 26, 26⟩
abbrev Fld.TDM_GRP_CTRL_rx_edge : Fld := ⟨.TDM_GRP_CTRL, 25, 25⟩
abbrev Fld.TDM_GRP_CTRL_fs_offset : Fld := ⟨.TDM_GRP_CTRL, 2, 0⟩
abbrev Fld.TDM_GRP_STATUS_state : Fld := ⟨.TDM_GRP_STATUS, 31, 30⟩
abbrev Fld.TDM_GRP_STATUS_clk_present : Fld := ⟨.TDM_GRP_STATUS, 29, 29⟩
abbrev Fld.TDM_GRP_STATUS_fs_present : Fld := ⟨.TDM_GRP_STATUS, 28, 28⟩
abbrev Fld.TDM_GRP_STATUS_rx_backlog : Fld := ⟨.TDM_GRP_STATUS, 1, 1⟩
abbrev Fld.TDM_GRP_STATUS_tx_backlog : Fld := ⟨.TDM_GRP_STATUS, 0, 0⟩
abbrev Fld.TDM_GRP_SLIP_rx_slips : Fld := ⟨.TDM_GRP_SLIP, 31, 16⟩
abbrev Fld.TDM_GRP_SLIP_tx_slips : Fld := ⟨.TDM_GRP_SLIP, 15, 0⟩
abbrev Fld.TDM_GRP_ERR_fs_errors : Fld := ⟨.TDM_GRP_ERR, 31, 16⟩
abbrev Fld.TDM_GRP_ERR_losses : Fld := ⟨.TDM_GRP_ERR, 15, 0⟩
abbrev Fld.TDM_HWY_CTRL_enable : Fld := ⟨.TDM_HWY_CTRL, 31, 31⟩
abbrev Fld.TDM_HWY_CTRL_law : Fld := ⟨.TDM_HWY_CTRL, 30, 30⟩
abbrev Fld.TDM_HWY_MISS_tx_missing : Fld := ⟨.TDM_HWY_MISS, 31, 0⟩
abbrev Fld.TDM_SWAP_CTRL_arm : Fld := ⟨.TDM_SWAP_CTRL, 31, 31⟩
abbrev Fld.TDM_SWAP_CTRL_cancel : Fld := ⟨.TDM_SWAP_CTRL, 30, 30⟩
abbrev Fld.TDM_SWAP_CTRL_immediate : Fld := ⟨.TDM_SWAP_CTRL, 29, 29⟩
abbrev Fld.TDM_SWAP_CTRL_result : Fld := ⟨.TDM_SWAP_CTRL, 2, 0⟩
abbrev Fld.TDM_SWAP_NS_ns : Fld := ⟨.TDM_SWAP_NS, 29, 0⟩
abbrev Fld.TDM_SWAP_SEC_LO_sec_lo : Fld := ⟨.TDM_SWAP_SEC_LO, 31, 0⟩
abbrev Fld.TDM_SWAP_SEC_HI_sec_hi : Fld := ⟨.TDM_SWAP_SEC_HI, 15, 0⟩
abbrev Fld.TDM_SWAP_TICK_tick : Fld := ⟨.TDM_SWAP_TICK, 31, 0⟩
abbrev Fld.TDM_OWN_owner : Fld := ⟨.TDM_OWN, 31, 31⟩
abbrev Fld.TDM_OWN_held_slots : Fld := ⟨.TDM_OWN, 12, 0⟩
abbrev Fld.TDM_MAP_SHADOW_valid : Fld := ⟨.TDM_MAP_SHADOW, 31, 31⟩
abbrev Fld.TDM_MAP_SHADOW_highway : Fld := ⟨.TDM_MAP_SHADOW, 12, 8⟩
abbrev Fld.TDM_MAP_SHADOW_slot : Fld := ⟨.TDM_MAP_SHADOW, 6, 0⟩
abbrev Fld.TDM_MAP_ACTIVE_entry : Fld := ⟨.TDM_MAP_ACTIVE, 31, 0⟩
abbrev Fld.TIM_SNAP_capture : Fld := ⟨.TIM_SNAP, 0, 0⟩
abbrev Fld.TIM_SNAP_CNT_LO_cnt : Fld := ⟨.TIM_SNAP_CNT_LO, 31, 0⟩
abbrev Fld.TIM_SNAP_CNT_HI_cnt : Fld := ⟨.TIM_SNAP_CNT_HI, 31, 0⟩
abbrev Fld.TIM_SNAP_SEC_LO_sec_lo : Fld := ⟨.TIM_SNAP_SEC_LO, 31, 0⟩
abbrev Fld.TIM_SNAP_SEC_HI_sec_hi : Fld := ⟨.TIM_SNAP_SEC_HI, 15, 0⟩
abbrev Fld.TIM_SNAP_NS_ns : Fld := ⟨.TIM_SNAP_NS, 29, 0⟩
abbrev Fld.TIM_SNAP_FRAC_frac : Fld := ⟨.TIM_SNAP_FRAC, 15, 0⟩
abbrev Fld.TIM_SNAP_TICK_LO_tick : Fld := ⟨.TIM_SNAP_TICK_LO, 31, 0⟩
abbrev Fld.TIM_SNAP_TICK_HI_tick : Fld := ⟨.TIM_SNAP_TICK_HI, 31, 0⟩
abbrev Fld.TIM_OFS_SEC_LO_sec_lo : Fld := ⟨.TIM_OFS_SEC_LO, 31, 0⟩
abbrev Fld.TIM_OFS_SEC_HI_sec_hi : Fld := ⟨.TIM_OFS_SEC_HI, 15, 0⟩
abbrev Fld.TIM_OFS_NS_ns : Fld := ⟨.TIM_OFS_NS, 29, 0⟩
abbrev Fld.TIM_OFS_FRAC_frac : Fld := ⟨.TIM_OFS_FRAC, 15, 0⟩
abbrev Fld.TIM_RATE_rate : Fld := ⟨.TIM_RATE, 31, 0⟩
abbrev Fld.TIM_STEP_SEC_sec : Fld := ⟨.TIM_STEP_SEC, 31, 0⟩
abbrev Fld.TIM_STEP_NS_ns : Fld := ⟨.TIM_STEP_NS, 29, 0⟩
abbrev Fld.TIM_SERVO_CTRL_enable : Fld := ⟨.TIM_SERVO_CTRL, 31, 31⟩
abbrev Fld.TIM_SERVO_CTRL_source : Fld := ⟨.TIM_SERVO_CTRL, 30, 30⟩
abbrev Fld.TIM_SERVO_GAIN_kp : Fld := ⟨.TIM_SERVO_GAIN, 31, 16⟩
abbrev Fld.TIM_SERVO_GAIN_ki : Fld := ⟨.TIM_SERVO_GAIN, 15, 0⟩
abbrev Fld.TIM_JUMP_THR_ns : Fld := ⟨.TIM_JUMP_THR, 31, 0⟩
abbrev Fld.TIM_ASYM_THR_ns : Fld := ⟨.TIM_ASYM_THR, 31, 0⟩
abbrev Fld.TIM_ASYM_asym : Fld := ⟨.TIM_ASYM, 31, 0⟩
abbrev Fld.TIM_SERVO_CMD_hold : Fld := ⟨.TIM_SERVO_CMD, 3, 3⟩
abbrev Fld.TIM_SERVO_CMD_resume : Fld := ⟨.TIM_SERVO_CMD, 2, 2⟩
abbrev Fld.TIM_SERVO_CMD_step : Fld := ⟨.TIM_SERVO_CMD, 1, 1⟩
abbrev Fld.TIM_SERVO_CMD_accept : Fld := ⟨.TIM_SERVO_CMD, 0, 0⟩
abbrev Fld.TIM_SERVO_STATUS_state : Fld := ⟨.TIM_SERVO_STATUS, 31, 29⟩
abbrev Fld.TIM_SERVO_STATUS_hold_cause : Fld := ⟨.TIM_SERVO_STATUS, 28, 26⟩
abbrev Fld.TIM_SERVO_STATUS_jump_pending : Fld := ⟨.TIM_SERVO_STATUS, 25, 25⟩
abbrev Fld.TIM_SERVO_STATUS_rate_limited : Fld := ⟨.TIM_SERVO_STATUS, 24, 24⟩
abbrev Fld.TIM_PEND_SEC_sec : Fld := ⟨.TIM_PEND_SEC, 31, 0⟩
abbrev Fld.TIM_PEND_NS_ns : Fld := ⟨.TIM_PEND_NS, 29, 0⟩
abbrev Fld.TIM_PD_FILT_ns : Fld := ⟨.TIM_PD_FILT, 31, 0⟩
abbrev Fld.TIM_SERVO_LAST_theta : Fld := ⟨.TIM_SERVO_LAST, 31, 0⟩
abbrev Fld.TIM_SERVO_COUNT_applied : Fld := ⟨.TIM_SERVO_COUNT, 31, 16⟩
abbrev Fld.TIM_SERVO_COUNT_refused : Fld := ⟨.TIM_SERVO_COUNT, 15, 8⟩
abbrev Fld.TIM_SERVO_COUNT_outliers : Fld := ⟨.TIM_SERVO_COUNT, 7, 0⟩
abbrev Fld.TIM_HOST_OFS_SEC_sec : Fld := ⟨.TIM_HOST_OFS_SEC, 31, 0⟩
abbrev Fld.TIM_HOST_OFS_NS_ns : Fld := ⟨.TIM_HOST_OFS_NS, 29, 0⟩
abbrev Fld.TIM_HOST_PD_NS_ns : Fld := ⟨.TIM_HOST_PD_NS, 31, 0⟩
abbrev Fld.TIM_HOST_PUSH_pd_valid : Fld := ⟨.TIM_HOST_PUSH, 1, 1⟩
abbrev Fld.TIM_HOST_PUSH_push : Fld := ⟨.TIM_HOST_PUSH, 0, 0⟩
abbrev Fld.TIM_TICK_CTRL_slew_ns : Fld := ⟨.TIM_TICK_CTRL, 13, 0⟩
abbrev Fld.TIM_TICK_PHASE_phi : Fld := ⟨.TIM_TICK_PHASE, 31, 0⟩
abbrev Fld.TIM_PORT_LAT_rx_adj : Fld := ⟨.TIM_PORT_LAT, 31, 16⟩
abbrev Fld.TIM_PORT_LAT_tx_adj : Fld := ⟨.TIM_PORT_LAT, 15, 0⟩
abbrev Fld.TIM_PTP_CTRL_enable : Fld := ⟨.TIM_PTP_CTRL, 31, 31⟩
abbrev Fld.TIM_PTP_CTRL_port : Fld := ⟨.TIM_PTP_CTRL, 30, 30⟩
abbrev Fld.TIM_PTP_CTRL_transport : Fld := ⟨.TIM_PTP_CTRL, 29, 28⟩
abbrev Fld.TIM_PTP_CTRL_eth_da : Fld := ⟨.TIM_PTP_CTRL, 27, 27⟩
abbrev Fld.TIM_PTP_CTRL_tc_enable : Fld := ⟨.TIM_PTP_CTRL, 26, 26⟩
abbrev Fld.TIM_PTP_CTRL_domain : Fld := ⟨.TIM_PTP_CTRL, 7, 0⟩
abbrev Fld.TIM_PTP_STATUS_port_state : Fld := ⟨.TIM_PTP_STATUS, 31, 28⟩
abbrev Fld.TIM_PTP_PARENT_LO_identity : Fld := ⟨.TIM_PTP_PARENT_LO, 31, 0⟩
abbrev Fld.TIM_PTP_PARENT_HI_identity : Fld := ⟨.TIM_PTP_PARENT_HI, 31, 0⟩
abbrev Fld.TIM_PTP_COUNT_sync_rx : Fld := ⟨.TIM_PTP_COUNT, 31, 16⟩
abbrev Fld.TIM_PTP_COUNT_discarded : Fld := ⟨.TIM_PTP_COUNT, 15, 0⟩
abbrev Fld.TIM_TC_COUNT_forwarded : Fld := ⟨.TIM_TC_COUNT, 31, 16⟩
abbrev Fld.TIM_TC_COUNT_dropped : Fld := ⟨.TIM_TC_COUNT, 15, 0⟩
abbrev Fld.ISL_CLK_REQ_go : Fld := ⟨.ISL_CLK_REQ, 31, 31⟩
abbrev Fld.ISL_CLK_REQ_freq_mhz : Fld := ⟨.ISL_CLK_REQ, 11, 0⟩
abbrev Fld.ISL_CLK_STATUS_state : Fld := ⟨.ISL_CLK_STATUS, 31, 29⟩
abbrev Fld.ISL_CLK_STATUS_steppable : Fld := ⟨.ISL_CLK_STATUS, 28, 28⟩
abbrev Fld.ISL_CLK_STATUS_synth : Fld := ⟨.ISL_CLK_STATUS, 27, 27⟩
abbrev Fld.ISL_CLK_STATUS_freq_mhz : Fld := ⟨.ISL_CLK_STATUS, 11, 0⟩
abbrev Fld.ISL_CLK_LIMITS_max_mhz : Fld := ⟨.ISL_CLK_LIMITS, 27, 16⟩
abbrev Fld.ISL_CLK_LIMITS_min_mhz : Fld := ⟨.ISL_CLK_LIMITS, 11, 0⟩
abbrev Fld.ISL_CLK_COUNT_switches : Fld := ⟨.ISL_CLK_COUNT, 31, 16⟩
abbrev Fld.ISL_CLK_COUNT_lock_fails : Fld := ⟨.ISL_CLK_COUNT, 15, 0⟩
abbrev Fld.QUE_CFG_producer : Fld := ⟨.QUE_CFG, 31, 28⟩
abbrev Fld.QUE_CFG_consumer : Fld := ⟨.QUE_CFG, 27, 24⟩
abbrev Fld.QUE_CFG_vcs : Fld := ⟨.QUE_CFG, 23, 22⟩
abbrev Fld.QUE_CFG_ports : Fld := ⟨.QUE_CFG, 21, 18⟩
abbrev Fld.QUE_CFG_depth : Fld := ⟨.QUE_CFG, 12, 0⟩
abbrev Fld.QUE_ECC_corrected : Fld := ⟨.QUE_ECC, 31, 16⟩
abbrev Fld.QUE_ECC_uncorrected : Fld := ⟨.QUE_ECC, 15, 0⟩
abbrev Fld.QUE_DROPREC_drop_records : Fld := ⟨.QUE_DROPREC, 31, 16⟩
abbrev Fld.QUE_DROPREC_bad_length : Fld := ⟨.QUE_DROPREC, 15, 0⟩
abbrev Fld.QUE_ESC_escalations : Fld := ⟨.QUE_ESC, 15, 0⟩
abbrev Fld.QUE_VC_CFG_drop_capable : Fld := ⟨.QUE_VC_CFG, 31, 31⟩
abbrev Fld.QUE_VC_CFG_credits : Fld := ⟨.QUE_VC_CFG, 28, 16⟩
abbrev Fld.QUE_VC_CFG_max_bytes : Fld := ⟨.QUE_VC_CFG, 14, 0⟩
abbrev Fld.QUE_VC_STAT_drops : Fld := ⟨.QUE_VC_STAT, 31, 16⟩
abbrev Fld.QUE_VC_STAT_depth : Fld := ⟨.QUE_VC_STAT, 12, 0⟩
abbrev Fld.QUE_STALL_stalled_queue : Fld := ⟨.QUE_STALL, 24, 16⟩
abbrev Fld.QUE_STALL_stalled_vc : Fld := ⟨.QUE_STALL, 15, 14⟩
abbrev Fld.QUE_STALL_stall_ms : Fld := ⟨.QUE_STALL, 13, 0⟩
abbrev Fld.QUE_ECC_TOTAL_corrected : Fld := ⟨.QUE_ECC_TOTAL, 31, 16⟩
abbrev Fld.QUE_ECC_TOTAL_uncorrected : Fld := ⟨.QUE_ECC_TOTAL, 15, 0⟩
abbrev Fld.RIG_CTRL_start : Fld := ⟨.RIG_CTRL, 31, 31⟩
abbrev Fld.RIG_CTRL_abort : Fld := ⟨.RIG_CTRL, 30, 30⟩
abbrev Fld.RIG_CTRL_commit_rollback : Fld := ⟨.RIG_CTRL, 29, 29⟩
abbrev Fld.RIG_CTRL_source : Fld := ⟨.RIG_CTRL, 25, 25⟩
abbrev Fld.RIG_CTRL_cluster : Fld := ⟨.RIG_CTRL, 2, 0⟩
abbrev Fld.RIG_DATA_data : Fld := ⟨.RIG_DATA, 31, 0⟩
abbrev Fld.RIG_STATUS_state : Fld := ⟨.RIG_STATUS, 31, 28⟩
abbrev Fld.RIG_STATUS_fail_code : Fld := ⟨.RIG_STATUS, 27, 20⟩
abbrev Fld.RIG_STATUS_fail_spar : Fld := ⟨.RIG_STATUS, 19, 10⟩
abbrev Fld.RIG_PROGRESS_bytes : Fld := ⟨.RIG_PROGRESS, 31, 0⟩
abbrev Fld.RIG_RUN_rollback : Fld := ⟨.RIG_RUN, 31, 24⟩
abbrev Fld.RIG_RUN_fuse_count : Fld := ⟨.RIG_RUN, 23, 16⟩
abbrev Fld.RIG_RUN_rigged : Fld := ⟨.RIG_RUN, 7, 0⟩
abbrev Fld.RIG_COUNT_loads : Fld := ⟨.RIG_COUNT, 31, 16⟩
abbrev Fld.RIG_COUNT_failures : Fld := ⟨.RIG_COUNT, 15, 0⟩
abbrev Fld.RIG_QSPI_OFS_offset : Fld := ⟨.RIG_QSPI_OFS, 31, 4⟩
abbrev Fld.BOOT_STATUS_stage : Fld := ⟨.BOOT_STATUS, 31, 28⟩
abbrev Fld.BOOT_STATUS_halt_code : Fld := ⟨.BOOT_STATUS, 27, 20⟩
abbrev Fld.BOOT_STATUS_boot_sel : Fld := ⟨.BOOT_STATUS, 19, 18⟩
abbrev Fld.BOOT_STATUS_fallback : Fld := ⟨.BOOT_STATUS, 17, 17⟩
abbrev Fld.BOOT_STATUS_identity_ok : Fld := ⟨.BOOT_STATUS, 16, 16⟩
abbrev Fld.BOOT_STATUS_image_slot : Fld := ⟨.BOOT_STATUS, 15, 13⟩
abbrev Fld.BOOT_KEYS_result : Fld := ⟨.BOOT_KEYS, 31, 29⟩
abbrev Fld.BOOT_KEYS_seed : Fld := ⟨.BOOT_KEYS, 9, 8⟩
abbrev Fld.BOOT_KEYS_valid_b : Fld := ⟨.BOOT_KEYS, 7, 7⟩
abbrev Fld.BOOT_KEYS_valid_a : Fld := ⟨.BOOT_KEYS, 6, 6⟩
abbrev Fld.BOOT_KEYS_debug_locked : Fld := ⟨.BOOT_KEYS, 5, 5⟩
abbrev Fld.BOOT_KEYS_owner_revoked : Fld := ⟨.BOOT_KEYS, 4, 4⟩
abbrev Fld.BOOT_KEYS_owner_enrolled : Fld := ⟨.BOOT_KEYS, 3, 3⟩
abbrev Fld.BOOT_ROOT_REVOKED_root_revoked : Fld := ⟨.BOOT_ROOT_REVOKED, 3, 0⟩
abbrev Fld.BOOT_CTRL_enrol : Fld := ⟨.BOOT_CTRL, 31, 31⟩
abbrev Fld.BOOT_CTRL_revoke : Fld := ⟨.BOOT_CTRL, 30, 30⟩
abbrev Fld.BOOT_CTRL_lock_debug : Fld := ⟨.BOOT_CTRL, 29, 29⟩
abbrev Fld.BOOT_CTRL_slot : Fld := ⟨.BOOT_CTRL, 2, 0⟩
abbrev Fld.BOOT_TIME_ms : Fld := ⟨.BOOT_TIME, 31, 0⟩
abbrev Fld.BOOT_OWNER_DIGEST_digest : Fld := ⟨.BOOT_OWNER_DIGEST, 31, 0⟩
abbrev Fld.BOOT_ATT_CTRL_request : Fld := ⟨.BOOT_ATT_CTRL, 31, 31⟩
abbrev Fld.BOOT_ATT_CTRL_busy : Fld := ⟨.BOOT_ATT_CTRL, 30, 30⟩
abbrev Fld.BOOT_ATT_CTRL_ready : Fld := ⟨.BOOT_ATT_CTRL, 29, 29⟩
abbrev Fld.BOOT_ATT_CTRL_result : Fld := ⟨.BOOT_ATT_CTRL, 28, 27⟩
abbrev Fld.BOOT_ATT_NONCE_nonce : Fld := ⟨.BOOT_ATT_NONCE, 31, 0⟩
abbrev Fld.BOOT_ID_KEY_key : Fld := ⟨.BOOT_ID_KEY, 31, 0⟩
abbrev Fld.BOOT_ATT_REPORT_report : Fld := ⟨.BOOT_ATT_REPORT, 31, 0⟩
abbrev Fld.ACC_STATUS_locked : Fld := ⟨.ACC_STATUS, 31, 31⟩
abbrev Fld.ACC_STATUS_targets : Fld := ⟨.ACC_STATUS, 5, 0⟩
abbrev Fld.ACC_SEL_target : Fld := ⟨.ACC_SEL, 9, 4⟩
abbrev Fld.ACC_SEL_master : Fld := ⟨.ACC_SEL, 3, 0⟩
abbrev Fld.ACC_ENTRY_count : Fld := ⟨.ACC_ENTRY, 3, 0⟩
abbrev Fld.ACC_WIN_START_start : Fld := ⟨.ACC_WIN_START, 31, 0⟩
abbrev Fld.ACC_WIN_LEN_r : Fld := ⟨.ACC_WIN_LEN, 31, 31⟩
abbrev Fld.ACC_WIN_LEN_w : Fld := ⟨.ACC_WIN_LEN, 30, 30⟩
abbrev Fld.ACC_WIN_LEN_x : Fld := ⟨.ACC_WIN_LEN, 29, 29⟩
abbrev Fld.ACC_WIN_LEN_length : Fld := ⟨.ACC_WIN_LEN, 28, 0⟩
abbrev Fld.ACC_DENY_COUNT_denials : Fld := ⟨.ACC_DENY_COUNT, 31, 16⟩
abbrev Fld.ACC_DENY_COUNT_events_suppressed : Fld := ⟨.ACC_DENY_COUNT, 15, 0⟩
abbrev Fld.ACC_DENY_FIRST_ADDR_address : Fld := ⟨.ACC_DENY_FIRST_ADDR, 31, 0⟩
abbrev Fld.ACC_DENY_FIRST_INFO_valid : Fld := ⟨.ACC_DENY_FIRST_INFO, 31, 31⟩
abbrev Fld.ACC_DENY_FIRST_INFO_addr_hi : Fld := ⟨.ACC_DENY_FIRST_INFO, 27, 24⟩
abbrev Fld.ACC_DENY_FIRST_INFO_kind : Fld := ⟨.ACC_DENY_FIRST_INFO, 11, 10⟩
abbrev Fld.ACC_DENY_FIRST_INFO_target : Fld := ⟨.ACC_DENY_FIRST_INFO, 9, 4⟩
abbrev Fld.ACC_DENY_FIRST_INFO_master : Fld := ⟨.ACC_DENY_FIRST_INFO, 3, 0⟩
abbrev Fld.ACC_DENY_LAST_ADDR_address : Fld := ⟨.ACC_DENY_LAST_ADDR, 31, 0⟩
abbrev Fld.ACC_DENY_LAST_INFO_valid : Fld := ⟨.ACC_DENY_LAST_INFO, 31, 31⟩
abbrev Fld.ACC_DENY_LAST_INFO_addr_hi : Fld := ⟨.ACC_DENY_LAST_INFO, 27, 24⟩
abbrev Fld.ACC_DENY_LAST_INFO_kind : Fld := ⟨.ACC_DENY_LAST_INFO, 11, 10⟩
abbrev Fld.ACC_DENY_LAST_INFO_target : Fld := ⟨.ACC_DENY_LAST_INFO, 9, 4⟩
abbrev Fld.ACC_DENY_LAST_INFO_master : Fld := ⟨.ACC_DENY_LAST_INFO, 3, 0⟩
abbrev Fld.HST_STATUS_i3c : Fld := ⟨.HST_STATUS, 31, 31⟩
abbrev Fld.HST_STATUS_dyn_addr : Fld := ⟨.HST_STATUS, 30, 24⟩
abbrev Fld.HST_STATUS_static_addr : Fld := ⟨.HST_STATUS, 22, 16⟩
abbrev Fld.HST_STATUS_enint : Fld := ⟨.HST_STATUS, 0, 0⟩
abbrev Fld.HST_PID_HI_pid_hi : Fld := ⟨.HST_PID_HI, 15, 0⟩
abbrev Fld.HST_PID_LO_pid_lo : Fld := ⟨.HST_PID_LO, 31, 0⟩
abbrev Fld.HST_IRQ_EN_int_en : Fld := ⟨.HST_IRQ_EN, 31, 16⟩
abbrev Fld.HST_IRQ_EN_ibi_en : Fld := ⟨.HST_IRQ_EN, 15, 0⟩
abbrev Fld.HST_PENDING_pending : Fld := ⟨.HST_PENDING, 15, 0⟩
abbrev Fld.HST_CMDQ_free : Fld := ⟨.HST_CMDQ, 8, 0⟩
abbrev Fld.HST_CMD_SEQ_next_seq : Fld := ⟨.HST_CMD_SEQ, 31, 0⟩
abbrev Fld.HST_EVQ_overflow : Fld := ⟨.HST_EVQ, 31, 16⟩
abbrev Fld.HST_EVQ_held : Fld := ⟨.HST_EVQ, 10, 0⟩
abbrev Fld.HST_CPLQ_held : Fld := ⟨.HST_CPLQ, 8, 0⟩
abbrev Fld.HST_FRAME_ERR_crc_errors : Fld := ⟨.HST_FRAME_ERR, 31, 16⟩
abbrev Fld.HST_FRAME_ERR_format_errors : Fld := ⟨.HST_FRAME_ERR, 15, 0⟩
abbrev Fld.HST_RESP_lost_responses : Fld := ⟨.HST_RESP, 31, 16⟩
abbrev Fld.HST_RESP_not_ready : Fld := ⟨.HST_RESP, 15, 0⟩
abbrev Fld.HST_POSTED_valid : Fld := ⟨.HST_POSTED, 31, 31⟩
abbrev Fld.HST_POSTED_status : Fld := ⟨.HST_POSTED, 15, 0⟩
abbrev Fld.HST_POSTED_ADDR_address : Fld := ⟨.HST_POSTED_ADDR, 31, 0⟩
abbrev Fld.HST_FAULT_supply : Fld := ⟨.HST_FAULT, 4, 4⟩
abbrev Fld.HST_FAULT_reefed : Fld := ⟨.HST_FAULT, 3, 3⟩
abbrev Fld.HST_FAULT_error : Fld := ⟨.HST_FAULT, 2, 2⟩
abbrev Fld.HST_FAULT_mast_watchdog : Fld := ⟨.HST_FAULT, 1, 1⟩
abbrev Fld.HST_FAULT_boot : Fld := ⟨.HST_FAULT, 0, 0⟩
abbrev Fld.ERR_CORRECTED_corrected : Fld := ⟨.ERR_CORRECTED, 31, 0⟩
abbrev Fld.ERR_CLASS_contained : Fld := ⟨.ERR_CLASS, 31, 16⟩
abbrev Fld.ERR_CLASS_unit : Fld := ⟨.ERR_CLASS, 15, 0⟩
abbrev Fld.ERR_FATAL_cause : Fld := ⟨.ERR_FATAL, 31, 24⟩
abbrev Fld.ERR_FATAL_fatal : Fld := ⟨.ERR_FATAL, 15, 0⟩
abbrev Fld.ERR_UE_RATE_window_count : Fld := ⟨.ERR_UE_RATE, 25, 16⟩
abbrev Fld.ERR_UE_RATE_threshold : Fld := ⟨.ERR_UE_RATE, 9, 0⟩
abbrev Fld.ERR_SEQ_next_seq : Fld := ⟨.ERR_SEQ, 31, 0⟩
abbrev Fld.ERR_PENDING_lost : Fld := ⟨.ERR_PENDING, 31, 16⟩
abbrev Fld.ERR_PENDING_held : Fld := ⟨.ERR_PENDING, 8, 0⟩
abbrev Fld.ERR_LOG_SIZE_records : Fld := ⟨.ERR_LOG_SIZE, 31, 0⟩
abbrev Fld.ERR_LOG_WR_index : Fld := ⟨.ERR_LOG_WR, 31, 0⟩
abbrev Fld.ERR_LOG_WRAPS_wraps : Fld := ⟨.ERR_LOG_WRAPS, 31, 0⟩
abbrev Fld.ERR_LOG_IDX_index : Fld := ⟨.ERR_LOG_IDX, 31, 0⟩
abbrev Fld.ERR_MASK_mask : Fld := ⟨.ERR_MASK, 31, 0⟩
abbrev Fld.ERR_LOG_REC_record : Fld := ⟨.ERR_LOG_REC, 31, 0⟩
abbrev Fld.CEL_ECC_corrected : Fld := ⟨.CEL_ECC, 31, 16⟩
abbrev Fld.CEL_ECC_uncorrected : Fld := ⟨.CEL_ECC, 15, 0⟩
abbrev Fld.CEL_ECC_LAST_LO_offset_lo : Fld := ⟨.CEL_ECC_LAST_LO, 31, 0⟩
abbrev Fld.CEL_ECC_LAST_HI_valid : Fld := ⟨.CEL_ECC_LAST_HI, 31, 31⟩
abbrev Fld.CEL_ECC_LAST_HI_master : Fld := ⟨.CEL_ECC_LAST_HI, 11, 8⟩
abbrev Fld.CEL_ECC_LAST_HI_region : Fld := ⟨.CEL_ECC_LAST_HI, 7, 4⟩
abbrev Fld.CEL_ECC_LAST_HI_offset_hi : Fld := ⟨.CEL_ECC_LAST_HI, 3, 0⟩
abbrev Fld.CEL_SCRUB_enable : Fld := ⟨.CEL_SCRUB, 31, 31⟩
abbrev Fld.CEL_SCRUB_period_h : Fld := ⟨.CEL_SCRUB, 9, 0⟩
abbrev Fld.CEL_SCRUB_STATUS_passes : Fld := ⟨.CEL_SCRUB_STATUS, 31, 16⟩
abbrev Fld.CEL_SCRUB_STATUS_found_ue : Fld := ⟨.CEL_SCRUB_STATUS, 15, 0⟩
abbrev Fld.CEL_RETRY_ca_retries : Fld := ⟨.CEL_RETRY, 31, 16⟩
abbrev Fld.CEL_RETRY_escalations : Fld := ⟨.CEL_RETRY, 15, 0⟩
abbrev Fld.ATT_ECC_corrected : Fld := ⟨.ATT_ECC, 31, 16⟩
abbrev Fld.ATT_ECC_uncorrected : Fld := ⟨.ATT_ECC, 15, 0⟩
abbrev Fld.MST_MEM_ECC_corrected : Fld := ⟨.MST_MEM_ECC, 31, 16⟩
abbrev Fld.MST_MEM_ECC_uncorrected : Fld := ⟨.MST_MEM_ECC, 15, 0⟩
abbrev Fld.MST_RESTART_restarts : Fld := ⟨.MST_RESTART, 31, 16⟩
abbrev Fld.MST_RESTART_resumed : Fld := ⟨.MST_RESTART, 15, 0⟩
abbrev Fld.STY_CTRL_enable : Fld := ⟨.STY_CTRL, 31, 31⟩
abbrev Fld.STY_STATUS_link : Fld := ⟨.STY_STATUS, 31, 31⟩
abbrev Fld.STY_STATUS_lane0_lock : Fld := ⟨.STY_STATUS, 30, 30⟩
abbrev Fld.STY_STATUS_lane1_lock : Fld := ⟨.STY_STATUS, 29, 29⟩
abbrev Fld.STY_STATUS_deskewed : Fld := ⟨.STY_STATUS, 28, 28⟩
abbrev Fld.STY_STATUS_hello : Fld := ⟨.STY_STATUS, 27, 26⟩
abbrev Fld.STY_STATUS_cut : Fld := ⟨.STY_STATUS, 25, 25⟩
abbrev Fld.STY_STATUS_peer_pos : Fld := ⟨.STY_STATUS, 24, 22⟩
abbrev Fld.STY_FRAMES_tx_frames : Fld := ⟨.STY_FRAMES, 31, 16⟩
abbrev Fld.STY_FRAMES_rx_frames : Fld := ⟨.STY_FRAMES, 15, 0⟩
abbrev Fld.STY_ERR_crc_errors : Fld := ⟨.STY_ERR, 31, 16⟩
abbrev Fld.STY_ERR_retransmits : Fld := ⟨.STY_ERR, 15, 0⟩
abbrev Fld.STY_CUT_last_cause : Fld := ⟨.STY_CUT, 31, 24⟩
abbrev Fld.STY_CUT_cuts : Fld := ⟨.STY_CUT, 15, 0⟩
abbrev Fld.STY_RTT_rtt_ns : Fld := ⟨.STY_RTT, 31, 0⟩
abbrev Fld.STY_RELAY_relayed : Fld := ⟨.STY_RELAY, 31, 16⟩
abbrev Fld.STY_RELAY_hop_drops : Fld := ⟨.STY_RELAY, 15, 0⟩
abbrev Fld.PAIR_CFG_claim : Fld := ⟨.PAIR_CFG, 31, 24⟩
abbrev Fld.PAIR_CFG_partner_claim : Fld := ⟨.PAIR_CFG, 23, 16⟩
abbrev Fld.PAIR_CFG_mode : Fld := ⟨.PAIR_CFG, 15, 14⟩
abbrev Fld.PAIR_CFG_ports : Fld := ⟨.PAIR_CFG, 13, 12⟩
abbrev Fld.PAIR_CFG_ring_pos : Fld := ⟨.PAIR_CFG, 11, 8⟩
abbrev Fld.PAIR_CTRL_hb_miss : Fld := ⟨.PAIR_CTRL, 31, 28⟩
abbrev Fld.PAIR_CTRL_startup_ticks : Fld := ⟨.PAIR_CTRL, 27, 16⟩
abbrev Fld.PAIR_CTRL_rechallenge_ticks : Fld := ⟨.PAIR_CTRL, 15, 2⟩
abbrev Fld.PAIR_CTRL_digest_en : Fld := ⟨.PAIR_CTRL, 1, 1⟩
abbrev Fld.PAIR_TIMING_copy_timeout_us : Fld := ⟨.PAIR_TIMING, 15, 0⟩
abbrev Fld.PAIR_STATUS_role : Fld := ⟨.PAIR_STATUS, 31, 30⟩
abbrev Fld.PAIR_STATUS_sync : Fld := ⟨.PAIR_STATUS, 29, 28⟩
abbrev Fld.PAIR_STATUS_owner : Fld := ⟨.PAIR_STATUS, 27, 27⟩
abbrev Fld.PAIR_STATUS_eligible : Fld := ⟨.PAIR_STATUS, 26, 26⟩
abbrev Fld.PAIR_STATUS_partner_seen : Fld := ⟨.PAIR_STATUS, 25, 25⟩
abbrev Fld.PAIR_STATUS_partner_eligible : Fld := ⟨.PAIR_STATUS, 24, 24⟩
abbrev Fld.PAIR_STATUS_yielding : Fld := ⟨.PAIR_STATUS, 23, 23⟩
abbrev Fld.PAIR_STATUS_held : Fld := ⟨.PAIR_STATUS, 22, 22⟩
abbrev Fld.PAIR_STATUS_selfcheck_failed : Fld := ⟨.PAIR_STATUS, 21, 21⟩
abbrev Fld.PAIR_STATUS_unprot_cause : Fld := ⟨.PAIR_STATUS, 7, 0⟩
abbrev Fld.PAIR_HALYARD_line : Fld := ⟨.PAIR_HALYARD, 31, 31⟩
abbrev Fld.PAIR_HALYARD_fault : Fld := ⟨.PAIR_HALYARD, 30, 29⟩
abbrev Fld.PAIR_HALYARD_last_claim : Fld := ⟨.PAIR_HALYARD, 23, 16⟩
abbrev Fld.PAIR_HALYARD_rounds : Fld := ⟨.PAIR_HALYARD, 15, 0⟩
abbrev Fld.PAIR_COUNT_gains : Fld := ⟨.PAIR_COUNT, 31, 16⟩
abbrev Fld.PAIR_COUNT_losses : Fld := ⟨.PAIR_COUNT, 15, 0⟩
abbrev Fld.PAIR_COPY_tick : Fld := ⟨.PAIR_COPY, 31, 0⟩
abbrev Fld.PAIR_DIGEST_mismatches : Fld := ⟨.PAIR_DIGEST, 31, 16⟩
abbrev Fld.PAIR_DIGEST_divergences : Fld := ⟨.PAIR_DIGEST, 15, 8⟩
abbrev Fld.PAIR_DIGEST_last_lane : Fld := ⟨.PAIR_DIGEST, 6, 0⟩
abbrev Fld.PAIR_LANE_UNSYNC_unsync : Fld := ⟨.PAIR_LANE_UNSYNC, 31, 0⟩
abbrev Fld.PAIR_SYNC_mib_left : Fld := ⟨.PAIR_SYNC, 31, 0⟩
abbrev Fld.PAIR_FWD_forwarded : Fld := ⟨.PAIR_FWD, 31, 16⟩
abbrev Fld.PAIR_FWD_local_drops : Fld := ⟨.PAIR_FWD, 15, 0⟩
abbrev Fld.AGE_TT_valid : Fld := ⟨.AGE_TT, 31, 31⟩
abbrev Fld.AGE_TT_margin_ps : Fld := ⟨.AGE_TT, 30, 16⟩
abbrev Fld.AGE_TT_drift : Fld := ⟨.AGE_TT, 15, 0⟩
abbrev Fld.AGE_ISL_margin_ps : Fld := ⟨.AGE_ISL, 31, 16⟩
abbrev Fld.AGE_ISL_eol_ps : Fld := ⟨.AGE_ISL, 15, 0⟩
abbrev Fld.AGE_CFG_plan_interval_h : Fld := ⟨.AGE_CFG, 31, 24⟩
abbrev Fld.AGE_CFG_margin_target_ps : Fld := ⟨.AGE_CFG, 23, 16⟩
abbrev Fld.AGE_CFG_margin_floor_ps : Fld := ⟨.AGE_CFG, 15, 8⟩
abbrev Fld.AGE_CFG_vid_max : Fld := ⟨.AGE_CFG, 7, 4⟩
abbrev Fld.AGE_THERM_thermal_reef_c : Fld := ⟨.AGE_THERM, 31, 24⟩
abbrev Fld.AGE_THERM_thermal_wake_c : Fld := ⟨.AGE_THERM, 23, 16⟩
abbrev Fld.AGE_STATUS_state : Fld := ⟨.AGE_STATUS, 31, 29⟩
abbrev Fld.AGE_STATUS_forecast_valid : Fld := ⟨.AGE_STATUS, 28, 28⟩
abbrev Fld.AGE_STATUS_vid : Fld := ⟨.AGE_STATUS, 27, 24⟩
abbrev Fld.AGE_STATUS_reef_cluster : Fld := ⟨.AGE_STATUS, 23, 16⟩
abbrev Fld.AGE_STATUS_temp_c : Fld := ⟨.AGE_STATUS, 15, 8⟩
abbrev Fld.AGE_REEF_causes : Fld := ⟨.AGE_REEF, 31, 27⟩
abbrev Fld.AGE_REEF_parked : Fld := ⟨.AGE_REEF, 23, 10⟩
abbrev Fld.AGE_REEF_kept : Fld := ⟨.AGE_REEF, 9, 0⟩
abbrev Fld.AGE_COUNT_plans : Fld := ⟨.AGE_COUNT, 31, 16⟩
abbrev Fld.AGE_COUNT_reefs : Fld := ⟨.AGE_COUNT, 15, 8⟩
abbrev Fld.AGE_COUNT_steps : Fld := ⟨.AGE_COUNT, 7, 0⟩
abbrev Fld.AGE_HOURS_hours : Fld := ⟨.AGE_HOURS, 31, 0⟩
abbrev Fld.AGE_LIFE_years_to_floor : Fld := ⟨.AGE_LIFE, 31, 16⟩
abbrev Fld.AGE_RECORD_record : Fld := ⟨.AGE_RECORD, 31, 0⟩
abbrev Fld.PWR_MON_refclk_ok : Fld := ⟨.PWR_MON, 11, 11⟩
abbrev Fld.PWR_MON_in_range : Fld := ⟨.PWR_MON, 10, 0⟩
abbrev Fld.PWR_COUNT_excursions : Fld := ⟨.PWR_COUNT, 31, 16⟩
abbrev Fld.PWR_COUNT_refclk_losses : Fld := ⟨.PWR_COUNT, 15, 0⟩
abbrev Fld.PWR_SEQ_violation : Fld := ⟨.PWR_SEQ, 31, 31⟩
abbrev Fld.PWR_SEQ_rail : Fld := ⟨.PWR_SEQ, 3, 0⟩
abbrev Fld.PWR_RESET_cause : Fld := ⟨.PWR_RESET, 1, 0⟩
abbrev Fld.MST_ID_revision : Fld := ⟨.MST_ID, 31, 24⟩
abbrev Fld.MST_ID_ordering : Fld := ⟨.MST_ID, 17, 16⟩
abbrev Fld.MST_ID_part : Fld := ⟨.MST_ID, 15, 0⟩
abbrev Fld.MST_MFR_manufacturer : Fld := ⟨.MST_MFR, 10, 0⟩
abbrev Fld.MST_SERIAL_LO_serial_lo : Fld := ⟨.MST_SERIAL_LO, 31, 0⟩
abbrev Fld.MST_SERIAL_HI_serial_hi : Fld := ⟨.MST_SERIAL_HI, 31, 0⟩
abbrev Fld.MST_FW_VER_major : Fld := ⟨.MST_FW_VER, 31, 24⟩
abbrev Fld.MST_FW_VER_minor : Fld := ⟨.MST_FW_VER, 23, 16⟩
abbrev Fld.MST_FW_VER_build : Fld := ⟨.MST_FW_VER, 15, 0⟩
abbrev Fld.MST_SCRATCH_scratch : Fld := ⟨.MST_SCRATCH, 31, 0⟩
abbrev Fld.MST_TICK_LO_tick_lo : Fld := ⟨.MST_TICK_LO, 31, 0⟩
abbrev Fld.MST_TICK_HI_tick_hi : Fld := ⟨.MST_TICK_HI, 31, 0⟩
abbrev Fld.CEL_CFG_size_gib : Fld := ⟨.CEL_CFG, 23, 16⟩
abbrev Fld.CEL_CFG_width : Fld := ⟨.CEL_CFG, 7, 4⟩
abbrev Fld.CEL_CFG_ranks : Fld := ⟨.CEL_CFG, 3, 0⟩
abbrev Fld.CEL_STATUS_state : Fld := ⟨.CEL_STATUS, 31, 29⟩
abbrev Fld.CEL_STATUS_trainings : Fld := ⟨.CEL_STATUS, 15, 0⟩
abbrev Fld.CEL_REGION_BASE_base_mib : Fld := ⟨.CEL_REGION_BASE, 14, 0⟩
abbrev Fld.CEL_REGION_SIZE_purpose : Fld := ⟨.CEL_REGION_SIZE, 31, 24⟩
abbrev Fld.CEL_REGION_SIZE_size_mib : Fld := ⟨.CEL_REGION_SIZE, 14, 0⟩

/-- The place of a register. -/
def RegId.place (r : RegId) : RegPlace :=
  (regPlaces.find? (fun p => p.id == r)).getD ⟨r, 0, 0, 1, 0, 4⟩

/-- The address of copy `(i, j)` of a register. -/
def RegId.addr (r : RegId) (i : Nat := 0) (j : Nat := 0) : Nat :=
  r.place.base + r.place.s1 * i + r.place.s2 * j

/-- Whether an address is a copy of the register at this place, and which. -/
def RegPlace.at? (p : RegPlace) (a : Nat) : Option (RegId × Nat × Nat) :=
  let o := a - p.base
  let i := o / p.s1
  let j := o % p.s1 / p.s2
  if p.base ≤ a ∧ i < p.n1 ∧ j < p.n2 ∧ o % p.s1 % p.s2 = 0 then some (p.id, i, j) else none

/-- The register at an address, with its copy's indices; none at a hole (R502). -/
def regAt (a : Nat) : Option (RegId × Nat × Nat) :=
  regPlaces.findSome? (fun p => p.at? a)

end Sys2Proof.Machine
end

