-- ==== Sys2Proof/Machine/State.lean ====
section
/-! DEFINITION. The state of the block as plain data: every piece of state that the specification names, with the rule
that names it and its value after reset as the field's default. Registers with no structure of their own live in `regs`
under their addresses; a register field that only shows a piece of the structured state below is computed when it is
read. Fault and refusal reasons close the file. -/

namespace Sys2Proof.Machine

/-- Servo states (R288, Table 5). -/
inductive ServoState where
  | idle | freeRun | locking | locked | holdover
  deriving DecidableEq, Repr

/-- Lane states, LAN_STATUS.state (R105, Table 13). -/
inductive LaneState where
  | notRigged | clearing | idle | running | overrun | faulted
  deriving DecidableEq, Repr

/-- States of a session entry that is not FREE (R32, Table 3); a FREE entry is absent from the table. -/
inductive EntryState where
  | parked | active | migrating
  deriving DecidableEq, Repr

/-- TDM group states (R263, Table 3). -/
inductive GroupState where
  | disabled | qualifying | locked | lost
  deriving DecidableEq, Repr

/-- Loader states (R335, Table 9). -/
inductive LoaderState where
  | idle | waitHost | receiving | verifying | checking | applying | failed
  deriving DecidableEq, Repr

/-- Boot stages (R345, Table 3). -/
inductive BootStage where
  | supply | fuses | rom | identity | load | start | running | halted
  deriving DecidableEq, Repr

/-- Pair roles (R428, Table 7). -/
inductive Role where
  | unpaired | listening | active | standby
  deriving DecidableEq, Repr

/-- TAP instructions (R498). -/
inductive TapInstr where
  | bypass | idcode | samplePreload | extest | clamp | highz
  deriving DecidableEq, Repr

/-- Address register (R84). -/
structure AReg where
  /-- pointer, bytes (R84). -/
  p : Word := 0
  /-- base, bytes (R84). -/
  b : Word := 0
  /-- length, bytes; 0 selects linear addressing (R13) (R84). -/
  l : Word := 0
  /-- modifier, bytes, signed (R84). -/
  m : Word := 0
  deriving DecidableEq, Repr

/-- One active loop level (R88, R92). -/
structure LoopLevel where
  /-- first word of the body (R88). -/
  body : BitVec 12 := 0
  /-- end word (R88). -/
  last : BitVec 12 := 0
  /-- iterations remaining, LC0 to LC2 (R88). -/
  left : Nat := 0
  /-- started with the rotate option (R91). -/
  rotate : Bool := false
  /-- the count without the drain (R92). -/
  count : Nat := 0
  /-- iteration number j (R92). -/
  iter : Nat := 0
  deriving DecidableEq, Repr

/-- A vector result in flight (R96, R97). -/
structure Landing where
  /-- physical vector register (R91). -/
  reg : Nat := 0
  /-- the result (R96). -/
  val : BitVec 128 := 0
  /-- issued-word number from which it is read (R96). -/
  due : Nat := 0
  deriving DecidableEq, Repr

/-- The registers and the program state of a lane that a fault returns to the start of the faulting word (R81, R102). -/
structure LaneCore where
  /-- V0 to V63, physical, 128 bits each; unlisted read 0 (R58). -/
  v : Tab (BitVec 128) := []
  /-- ACC0 to ACC7, four 48-bit elements each; unlisted read 0 (R58, R64). -/
  acc : Tab (BitVec 192) := []
  /-- AFS: nan_seen, sat, acc_ovf (R71). -/
  afs : BitVec 3 := 0
  /-- S1 to S31; S0 is no entry (R83). -/
  s : Tab Word := []
  /-- A0 to A11 (R84). -/
  a : Tab AReg := []
  /-- AGF.circ_fold (R83). -/
  agf : Bool := false
  /-- rotating-region base (R83, R91). -/
  vrb : BitVec 5 := 0
  /-- active loop levels, innermost first, at most three (R88). -/
  loops : List LoopLevel := []
  /-- word address of the next word to issue (R105). -/
  pc : BitVec 12 := 0
  /-- TICK (R83). -/
  tick : Word := 0
  /-- CLIST, lane-local attic address (R83). -/
  clist : Word := 0
  /-- CCOUNT, 0 to 96 (R83). -/
  ccount : Nat := 0
  /-- CIDX (R83). -/
  cidx : Nat := 0
  /-- lane cycles since the tick's start, stalls included (R83; log entry 21). -/
  cyc : Nat := 0
  /-- words issued, the clock of latencies (R96). -/
  issued : Nat := 0
  /-- vector results in flight, oldest first (R96). -/
  flight : List Landing := []
  /-- cycles the lane has stalled in interlocks (R97). -/
  waited : Nat := 0
  /-- when scalar registers, under their numbers, and accumulators, under 32 and up, are written, in words issued and
  interlock cycles (R96, R97). -/
  due : Tab Nat := []
  deriving DecidableEq, Repr

/-- The instruction word being issued, operation by operation (R81). -/
structure WordCtx where
  /-- registers as the word found them: what its operations read (R81). -/
  core0 : LaneCore := {}
  /-- bytes the word's stores replaced, newest first (R81). -/
  undo : List (Nat × Byte) := []
  /-- poison marks the word's stores removed (R81). -/
  undoPoison : List Nat := []
  /-- flags the word's operations set (R71, R73). -/
  flags : BitVec 3 := 0
  /-- address registers whose pointer the word folded (R87). -/
  folds : List Nat := []
  /-- AWR writes, which take effect in the next word (R86). -/
  awr : List (Nat × Nat × Word) := []
  /-- MTS writes, which take effect in the next word (R83). -/
  spec : List (Nat × Word) := []
  /-- vector results of the word, due relative to its end (R96). -/
  vw : List Landing := []
  /-- target of a taken branch (R90). -/
  jump : Option (BitVec 12) := none
  /-- the taken branch is CALL or RET (R90). -/
  call : Bool := false
  /-- level a LOOP of the word starts (R88). -/
  loop : Option LoopLevel := none
  /-- word after a loop skipped for count zero (R88). -/
  skip : Option (BitVec 12) := none
  /-- generator and data-memory bank that LS0 used, and its cycles there (R68, R76, R84). -/
  ls0 : Option (Nat × Option Nat × Nat) := none
  /-- cycles the word takes beyond the first (R76, R84). -/
  stall : Nat := 0
  /-- the word holds TDONE (R101). -/
  done : Bool := false
  /-- cycles the word waits for registers that earlier words write (R97). -/
  wait : Nat := 0
  /-- registers the word writes late, as `due` names them, with their latencies (R96). -/
  locks : List (Nat × Nat) := []
  /-- the word's QWAIT has stalled (R98). -/
  held : Bool := false
  deriving DecidableEq, Repr

/-- One of the 128 lanes (R16). -/
structure Lane where
  /-- LAN_STATUS.state (R105). -/
  st : LaneState := .notRigged
  /-- registers (R83). -/
  core : LaneCore := {}
  /-- the word being issued (R81). -/
  word : Option WordCtx := none
  /-- a boundary passed before TDONE: the next tick starts at TDONE (R101). -/
  late : Bool := false
  /-- the lane failed a self-check since reset (R434). -/
  selfFail : Bool := false
  /-- running CRC-64 over the tick's pushes (R433). -/
  digest : BitVec 64 := 0xFFFFFFFFFFFFFFFF
  /-- channel numbers of the tick's channel list, in list order (R100). -/
  list : List Nat := []
  /-- destination of a QPUSH that waits for its turn (R98). -/
  pushReg : Option Nat := none
  /-- an attic access of the word that faulted was refused, and operations of the word are still to come (R368). -/
  cut : Bool := false
  deriving DecidableEq, Repr

/-- Changes of a CHAN_MODIFY waiting for their boundary (R38). -/
structure ModReq where
  /-- target entry (R50). -/
  handle : Nat := 0
  /-- new key (R51). -/
  key : Option Bytes := none
  /-- parameter entries: ID, leg, value (R53). -/
  ps : List (Nat × Nat × Word) := []
  /-- sequence number of the command (R379). -/
  seq : Nat := 0
  /-- a timed action: event 9 reports it (R380). -/
  timed : Bool := false
  deriving DecidableEq, Repr

/-- A CHAN_ADMIT waiting for its boundary (R37). -/
structure AdmitReq where
  /-- handle named as the access entry (R50). -/
  acc : Nat := 0
  /-- handle of the other entry (R50). -/
  oth : Nat := 0
  /-- channel number requested, 0xFFFF for any (R36). -/
  want : Nat := 0
  /-- cluster mask (R36). -/
  mask : Nat := 0
  /-- parameter entries: ID, leg, value (R53). -/
  ps : List (Nat × Nat × Word) := []
  /-- sequence number of the command (R379). -/
  seq : Nat := 0
  deriving DecidableEq, Repr

/-- What a channel command left for the next boundary (R37 to R39). -/
inductive Effect where
  /-- a CHAN_ADMIT (R37). -/
  | admission (r : AdmitReq)
  /-- a CHAN_MODIFY (R38). -/
  | change (r : ModReq)
  /-- a CHAN_PARK or CHAN_CLOSE of a channel (R39). -/
  | park (chan : Nat)
  deriving DecidableEq, Repr

/-- What a modify replaced as the target lane took the channel (R38, R42). -/
structure ModWas where
  /-- key of its entry (R38). -/
  key : Bytes := []
  /-- parameters of its entry (R38). -/
  params : Tab Word := []
  /-- parameters of the partner (R38). -/
  other : Tab Word := []
  /-- the echo canceller (R108, R127). -/
  ec : Ec := {}
  /-- the access leg (R149, R183). -/
  legA : Leg := {}
  /-- its partner (R149, R183). -/
  legB : Leg := {}
  /-- the channel's statistics (R128, R189). -/
  stats : Tab Word := []
  /-- the target lane's first tick (R40). -/
  tick : Nat := 0
  deriving DecidableEq, Repr

/-- A move between lanes in progress (R40). -/
structure Move where
  /-- target lane (R40). -/
  target : Nat := 0
  /-- 0 accepted, 1 final source tick, 2 first target tick (R40). -/
  phase : Nat := 0
  /-- failed copy attempts (R42). -/
  fails : Nat := 0
  /-- the context copy is complete (R40). -/
  copied : Bool := false
  /-- cost reserved on the target lane (R38). -/
  cost : Nat := 0
  /-- sequence number of the host command that waits for it (R40). -/
  cmd : Option Nat := none
  /-- handle that this command addressed (R54). -/
  addressed : Nat := 0
  /-- the modify whose migration this is (R38). -/
  mod : Option ModReq := none
  /-- the source lane faulted after the take-over: its reservation is released (R48). -/
  gone : Bool := false
  /-- what the modify replaced at the take-over (R38, R42). -/
  was : Option ModWas := none
  deriving DecidableEq, Repr

/-- A park or close waiting for its boundary (R39). -/
structure ParkReq where
  /-- both entries are freed (R50). -/
  close : Bool := false
  /-- sequence number of the host command (R379). -/
  seq : Option Nat := none
  /-- handle that this command addressed (R54). -/
  addressed : Nat := 0
  /-- event 148 is raised (R43). -/
  forced : Bool := false
  deriving DecidableEq, Repr

/-- A channel (R32 to R43, R106 to R163). -/
structure Channel where
  /-- handle of the access entry (R33). -/
  acc : Nat := 0
  /-- handle of its partner (R33). -/
  oth : Nat := 0
  /-- lane that carries it (R36). -/
  lane : Nat := 0
  /-- cost in LU (R34). -/
  cost : Nat := 0
  /-- the activation boundary has passed (R37). -/
  live : Bool := false
  /-- activation tick (R37). -/
  since : Nat := 0
  /-- move in progress (R40). -/
  move : Option Move := none
  /-- park or close at the next boundary (R39). -/
  park : Option ParkReq := none
  /-- echo canceller (R106). -/
  ec : Ec := {}
  /-- voiceband-data mode (R154). -/
  vbd : Bool := false
  /-- entry to voiceband-data mode waiting for the boundary: its cause (R154). -/
  vbdAsk : Option Nat := none
  /-- ticks both directions have stayed below -36 dBm0 (R156). -/
  vbdQuiet : Nat := 0
  /-- the access leg (R139). -/
  legA : Leg := {}
  /-- its partner (R139). -/
  legB : Leg := {}
  /-- statistics by ID; unlisted read their value before measurement (R128, R160, R189, R222). -/
  stats : Tab Word := []
  /-- last tick whose work is done (R139). -/
  worked : Nat := 0
  /-- placed by a COPY on a standby (R431). -/
  dormant : Bool := false
  deriving DecidableEq, Repr

/-- A session entry that is not FREE (R28). -/
structure Session where
  /-- flow key, 64 bytes (R29). -/
  key : Bytes := []
  /-- parameters supplied, by ID; unlisted read their default (R53). -/
  params : Tab Word := []
  /-- partner entry (R33). -/
  partner : Option Nat := none
  /-- state (R32). -/
  st : EntryState := .parked
  /-- parked_drops, 16 bits, saturating (R31, R54). -/
  drops : Nat := 0
  /-- event 149 was raised since the last park (R56). -/
  dropEvt : Bool := false
  /-- channel (R33). -/
  chan : Option Nat := none
  /-- next RTP sequence number; none before the first admission (R142). -/
  txSeq : Option (BitVec 16) := none
  /-- RTP timestamp state kept across a park (R39, R142). -/
  ts : Word := 0
  /-- tick at which it was parked (R39). -/
  parkTick : Nat := 0
  deriving DecidableEq, Repr

/-- A frame in a receive ring (R235). -/
structure RxFrame where
  /-- frame without its FCS (R228). -/
  bytes : Bytes := []
  /-- buffers it holds (R235). -/
  bufs : Nat := 0
  /-- timestamp that goes with the frame to its consumer, laid out in 12 bytes; empty on SVC (R278, R279). -/
  stamp : Bytes := []
  /-- counter value and fraction that the stamp was taken from, 2^-16 ns (R278). -/
  count : Nat := 0
  /-- the transparent clock has taken its copy (R283). -/
  fwd : Bool := false
  /-- arrival number at the port (R236). -/
  order : Nat := 0
  /-- tick of arrival (R24). -/
  tick : Nat := 0
  deriving DecidableEq, Repr

/-- A frame in an egress queue (R237). -/
structure TxFrame where
  /-- frame without pad and FCS (R229). -/
  bytes : Bytes := []
  /-- bundle, RTP or RTCP (R238). -/
  voice : Bool := false
  /-- source of Table 5: 0 bundle, 1 RTP, 2 RTCP, 3 PTP, 4 mast (R237). -/
  source : Nat := 0
  /-- peer of a bundle (R237). -/
  peer : Nat := 0
  /-- transparent clock: counter value of ingress, 2^-16 ns (R284). -/
  from_ : Option Nat := none
  /-- tick whose copy must be acknowledged first; 0 none (R404). -/
  tick : Nat := 0
  deriving DecidableEq, Repr

/-- A time-gate list (R240). -/
structure GateList where
  /-- gate bits and interval of each entry (R240). -/
  entries : List (Nat × Nat) := []
  /-- cycle_ns (R240). -/
  cycle : Nat := 0
  /-- start time, ns of corrected time (R240). -/
  base : Nat := 0
  deriving DecidableEq, Repr

/-- A trunk port (R225 to R252). -/
structure Port where
  /-- link up (R226). -/
  link : Bool := false
  /-- staging bytes reserved (R234). -/
  staged : Nat := 0
  /-- frames delivered, the arrival number (R236). -/
  arrivals : Nat := 0
  /-- receive rings 0 to 8 (R235). -/
  rx : Tab (List RxFrame) := []
  /-- buffers taken, per ring (R235). -/
  used : Tab Nat := []
  /-- egress queues 0 to 7 (R237). -/
  tx : Tab (List TxFrame) := []
  /-- paused queues (R242). -/
  paused : BitVec 8 := 0
  /-- queues in holdoff (R243). -/
  holdoff : BitVec 8 := 0
  /-- list that waits for its start time (R240). -/
  pending : Option GateList := none
  /-- operational list (R240). -/
  oper : Option GateList := none
  /-- gates open now (R240). -/
  gate : BitVec 8 := 255
  /-- TMC_TX_MAP in force: ptp 7, mast 1, rtcp 4, rtp 5 (R237). -/
  map : BitVec 12 := 0xE65
  /-- tx_queue in force, per peer (R237). -/
  peerQ : Tab Nat := []
  /-- last frame put on the line, pad and FCS included (R229). -/
  sent : Option Bytes := none
  /-- counter at which the frame on the line ends, hundredths of a ns (R244). -/
  sentEnd : Nat := 0
  deriving DecidableEq, Repr

/-- A management frame as it leaves on MDIO: preamble to register address, and the data of an operation that carries data to
the PHY (R248). -/
structure MdioFrame where
  /-- 32 ones, start, operation, PHY and register address (IEEE 802.3 Clauses 22 and 45). -/
  head : BitVec 46
  /-- data that follow the turnaround. -/
  data : Option (BitVec 16)
  deriving DecidableEq, Repr

/-- The service port (R246 to R249). -/
structure Svc where
  /-- receive ring (R246). -/
  rx : List RxFrame := []
  /-- buffers taken (R235). -/
  used : Nat := 0
  /-- transmit ring (R246). -/
  tx : List TxFrame := []
  /-- collisions of the head frame (R247). -/
  attempt : Nat := 0
  /-- slot times of a running backoff (R247). -/
  backoff : Option Nat := none
  /-- paused (R246). -/
  paused : Bool := false
  /-- a management frame is in progress (R248). -/
  mdio : Bool := false
  /-- management frame last sent (R248). -/
  mdioOut : Option MdioFrame := none
  /-- last frame put on the line (R229). -/
  sent : Option Bytes := none
  deriving DecidableEq, Repr

/-- A highway clock group (R255 to R264). -/
structure TdmGroup where
  /-- group state (R263). -/
  st : GroupState := .disabled
  /-- complete received frames not yet delivered, oldest first: codes by logical slot (R261). -/
  rx : List (Tab Byte) := []
  /-- transmit queue, oldest first: codes by logical slot (R262). -/
  tx : List (Tab Byte) := []
  /-- last frame sent (R262). -/
  last : Tab Byte := []
  /-- physical slots by logical slot at the start of the last frame sent, where a swap has come since (R265, R270). -/
  lastMap : Option (Tab Nat) := none
  /-- a frame is in progress: the group is LOCKED (R261). -/
  begun : Bool := false
  /-- physical slots by logical slot at the start of the frame in progress, where a swap has come since (R265). -/
  oldMap : Option (Tab Nat) := none
  /-- tx_backlog: the transmit queue held more than 8 frames at the last boundary (R272). -/
  backlog : Bool := false
  /-- rx_backlog: a received frame was left undelivered at the last boundary (R261, R272). -/
  left : Bool := false
  /-- physical slots driven in the current frame, with their codes (R259). -/
  driven : List (Nat × Byte) := []
  /-- clk_present (R272). -/
  clock : Bool := false
  /-- fs_present (R272). -/
  fs : Bool := false
  deriving DecidableEq, Repr

/-- A pending map swap (R266, R271). -/
structure SwapWait where
  /-- the swap takes the next boundary, whatever its time. -/
  now : Bool
  /-- requested time as the arming found it, ns of corrected time. -/
  time : Nat
  /-- tick of the arming. -/
  tick : Nat
  deriving DecidableEq, Repr

/-- The TDM island (R255 to R272). -/
structure Tdm where
  /-- samples received in the tick before, which a lagging standby works on, by logical slot (R431). -/
  gotPrev : Tab Bytes := []
  /-- samples received in the last tick, as the frame buffers hold them, by logical slot (R259). -/
  got : Tab Bytes := []
  /-- groups 0 to 3 (R255). -/
  groups : Tab TdmGroup := []
  /-- the pending swap (R266). -/
  swap : Option SwapWait := none
  /-- samples the lanes wrote in the tick, by logical slot (R259). -/
  smp : Tab Bytes := []
  /-- samples of the previous tick, by logical slot (R260). -/
  prev : Tab Bytes := []
  /-- consecutive missing ticks, by logical slot (R260). -/
  miss : Tab Nat := []
  /-- last value sampled on a driven physical slot while not owner (R268). -/
  held : Tab Byte := []
  /-- physical slots still sending held values (R268). -/
  holding : List Nat := []
  /-- clusters that the last boundary's notice of received samples went to (R259). -/
  told : List Nat := []
  deriving DecidableEq, Repr

/-- An inter-island queue instance (R300). -/
structure Queue where
  /-- producer ports: VC and endpoint (R324). -/
  ports : List (Nat × Nat) := []
  /-- consumer endpoint (R324). -/
  consumer : Nat := 0
  deriving DecidableEq, Repr

/-- A packet in a VC (R301). -/
structure QPacket where
  /-- bytes (R301). -/
  len : Nat := 0
  /-- words stored and not yet popped (R301). -/
  words : List (BitVec 64 × Ecc) := []
  /-- words still to be pushed (R302). -/
  left : Nat := 0
  /-- bytes still to be pushed (R302). -/
  rest : Bytes := []
  /-- producer port (R301). -/
  port : Nat := 0
  /-- words at its end that the queue filled for a producer that could not finish it (R309). -/
  filled : Nat := 0
  /-- a popped word was uncorrectable: the packet is a drop record (R309). -/
  bad : Bool := false
  /-- bytes popped so far (R307). -/
  got : Bytes := []
  /-- words still to be pushed, counted from the next one, that were uncorrectable where they were read (R394). -/
  marks : List Nat := []
  /-- its offset in the receive area of a lane's input port, once its first word is popped (R308). -/
  off : Option Nat := none
  deriving DecidableEq, Repr

/-- A producer port waiting to start a packet (R304). -/
structure Push where
  /-- producer port (R304). -/
  port : Nat := 0
  /-- packet (R302). -/
  bytes : Bytes := []
  /-- its words that were uncorrectable where they were read (R394). -/
  marks : List Nat := []
  /-- times it was refused (R313). -/
  refused : Nat := 0
  /-- refused 16 times: it goes before every requester that is not (R313). -/
  urgent : Bool := false
  deriving DecidableEq, Repr

/-- A virtual channel (R300). -/
structure Vc where
  /-- packets in order, the last one possibly still being pushed (R301). -/
  pkts : List QPacket := []
  /-- ports that wait to start, oldest first (R304). -/
  wait : List Push := []
  /-- packets wholly popped and not yet taken by the consumer: bytes, drop record, length, offset in a receive area (R307,
  R308). -/
  done : List (Bytes × Bool × Nat × Nat) := []
  /-- the packet that an island consumer took last: bytes, drop record, the tick its notice belongs to (R24, R307). -/
  last : Option (Bytes × Bool × Nat) := none
  /-- event 72 was raised since the last pop (R315). -/
  stalled : Bool := false
  deriving DecidableEq, Repr

/-- Receive area of a lane input port (R308). -/
structure RxArea where
  /-- lane-local base (R308). -/
  base : Nat := 0
  /-- bytes (R308). -/
  len : Nat := 0
  /-- next offset (R308). -/
  next : Nat := 0
  /-- packets in the area: offset and length, oldest first (R308). -/
  used : List (Nat × Nat) := []
  /-- notices of packets written and not yet posted, oldest first (R307). -/
  ready : List (BitVec 32) := []
  /-- notices pending, oldest first, each with the tick that it belongs to (R24, R307). -/
  noted : List (BitVec 32 × Nat) := []
  /-- offsets of packets whose notice QNOTE has taken and whose space is not freed (R308). -/
  taken : List Nat := []
  deriving DecidableEq, Repr

/-- A spar of an image (R319, R320). -/
structure Spar where
  /-- type (R320). -/
  type : Nat := 0
  /-- cluster, 0xFF for a device spar (R320). -/
  cluster : Nat := 0xFF
  /-- bytes (R320). -/
  data : Bytes := []
  /-- SHA-512 digest of the table (R320). -/
  digest : Bytes := []
  deriving DecidableEq, Repr

/-- The loader and the running image (R319 to R344). -/
structure Rig where
  /-- loader state (R335). -/
  st : LoaderState := .idle
  /-- fail_code (R336). -/
  code : Nat := 0
  /-- fail_spar (R336). -/
  spar : Nat := 0x3FF
  /-- bytes received in the current or last load (R344). -/
  bytes : Nat := 0
  /-- staged image bytes, in order (R336). -/
  image : Bytes := []
  /-- cluster of a re-rig (R339). -/
  rerig : Option Nat := none
  /-- source of the load: 0 host, 1 QSPI (R337). -/
  src : Nat := 0
  /-- byte offset in the QSPI flash that the load starts at (R337, R347). -/
  ofs : Nat := 0
  /-- spars of the image that a re-rig applies, in table order (R340). -/
  coming : Option (List Spar) := none
  /-- spars of the running image, in table order (R338). -/
  spars : List Spar := []
  /-- an image runs (R338). -/
  running : Bool := false
  /-- rollback counter of the running image (R344). -/
  rollback : Nat := 0
  /-- rigged clusters (R320). -/
  rigged : BitVec 8 := 0
  /-- key slot of the last load completed; 7 none (R358). -/
  slot : Nat := 7
  /-- public key of the last load completed (R354). -/
  pub : Bytes := []
  /-- source of the last load completed, report byte 9 (R355). -/
  lastSrc : Nat := 0xFF
  /-- tick at which the load started (R343). -/
  started : Nat := 0
  /-- checking passed: a re-rig waits for its boundary, or its lanes start at the next one (R340). -/
  go : Bool := false
  /-- event 33 that a restart of the mast island still owes: re-rig, cluster, rollback counter, ticks (R342). -/
  late : Option (Nat × Nat × Nat × Nat) := none
  deriving DecidableEq, Repr

/-- One-time-programmable fuses (R349, Table 2). -/
structure Fuses where
  /-- root digests 0 to 3, 64 bytes each (R349). -/
  roots : List Bytes := []
  /-- the check field that Iganavo writes with them (R349). -/
  check : Bytes := []
  /-- root_revoked (R349). -/
  rootRevoked : BitVec 4 := 0
  /-- owner digest, 64 bytes; empty reads zeros (R349). -/
  owner : Bytes := []
  /-- owner_enrolled (R349). -/
  enrolled : Bool := false
  /-- owner_revoked (R349). -/
  ownerRevoked : Bool := false
  /-- blown rollback bits, 0 to 255 (R341). -/
  rollback : Nat := 0
  /-- debug_locked (R348). -/
  debugLocked : Bool := false
  /-- identity seed A (R350). -/
  seedA : BitVec 640 := 0
  /-- identity seed B (R350). -/
  seedB : BitVec 640 := 0
  /-- identity valid A (R350). -/
  validA : Bool := false
  /-- identity valid B (R350). -/
  validB : Bool := false
  /-- ordering code: 0 PTV-8192-CB, 1 PTV-8192-XB (R4, R506). -/
  ordering : BitVec 1 := 0
  /-- the 64-bit serial number (R507). -/
  serial : BitVec 64 := 0
  deriving DecidableEq, Repr

/-- Boot, identity and attestation (R345 to R358). -/
structure Boot where
  /-- RESET_N is low (R345). -/
  held : Bool := false
  /-- boot stage (R345). -/
  stage : BootStage := .supply
  /-- halt code (R345). -/
  halt : Nat := 0
  /-- BOOT_SEL as sampled (R346). -/
  sel : BitVec 2 := 0
  /-- fallback (R346). -/
  fallback : Bool := false
  /-- a boot cause holds FAULT_N (R345). -/
  bootFault : Bool := false
  /-- identity_ok (R350). -/
  idOk : Bool := false
  /-- seed in use: 0 A, 1 B, 3 none (R358). -/
  seed : Nat := 3
  /-- M0 (R354). -/
  m0 : Bytes := []
  /-- BOOT_KEYS.result (R353). -/
  result : Nat := 0
  /-- a report is being signed (R355). -/
  busy : Bool := false
  /-- the report stands in BOOT_ATT_REPORT (R355). -/
  ready : Bool := false
  /-- BOOT_ATT_CTRL.result (R355). -/
  attResult : Nat := 0
  /-- report bytes 0 to 999 latched at the request (R355). -/
  latch : Bytes := []
  /-- report, 1,136 bytes (R355). -/
  report : Bytes := []
  /-- reports signed since the release (R355). -/
  serial : Nat := 0
  /-- the fuses (R349). -/
  fuses : Fuses := {}
  deriving DecidableEq, Repr

/-- A window of an access-table entry (R362). -/
structure AccWin where
  /-- start, window units (R362). -/
  start : Nat := 0
  /-- length, window units (R362). -/
  len : Nat := 0
  /-- grants read (R362). -/
  r : Bool := false
  /-- grants write (R362). -/
  w : Bool := false
  /-- grants program write (R362). -/
  x : Bool := false
  deriving DecidableEq, Repr

/-- Access tables (R359 to R370). -/
structure AccTabs where
  /-- locked (R365). -/
  locked : Bool := false
  /-- entries by 16 * target + master; unlisted have count 0 (R362). -/
  entries : Tab (List AccWin) := []
  deriving DecidableEq, Repr

/-- The response the host port holds (R376). -/
structure Resp where
  /-- response frame (R376). -/
  bytes : Bytes := []
  /-- 0 other, 1 CPL_READ, 2 EVT_READ (R379). -/
  kind : Nat := 0
  /-- records that leave when its last byte is read (R379). -/
  take : Nat := 0
  deriving DecidableEq, Repr

/-- A command accepted and not completed (R379, R403). -/
structure Cmd where
  /-- sequence number (R379). -/
  seq : Nat := 0
  /-- descriptor with payload (R378). -/
  desc : Bytes := []
  /-- taken from the queue into the journal (R403). -/
  taken : Bool := false
  /-- its completion record, posted once every earlier one is (R379). -/
  done : Option Bytes := none
  deriving DecidableEq, Repr

/-- An armed one-shot action (R290, R380). -/
structure Armed where
  /-- sequence number of the command (R380). -/
  seq : Nat := 0
  /-- action time, ns of corrected time (R290). -/
  time : Nat := 0
  /-- descriptor (R378). -/
  desc : Bytes := []
  /-- entry it is bound to (R380). -/
  handle : Option Nat := none
  /-- the entry was ACTIVE at arming (R380). -/
  wasActive : Bool := false
  /-- the entry has been freed since arming (R380). -/
  freed : Bool := false
  deriving DecidableEq, Repr

/-- Host port (R371 to R390). -/
structure HostPort where
  /-- dynamic address (R372). -/
  dyn : Option (BitVec 7) := none
  /-- IBIs enabled (R373). -/
  enint : Bool := true
  /-- maximum write length (R373). -/
  mwl : Nat := 4106
  /-- maximum read length (R373). -/
  mrl : Nat := 4106
  /-- in HDR-DDR (R373). -/
  hdr : Bool := false
  /-- bytes the last direct GET command returned (R373). -/
  ccc : Bytes := []
  /-- bytes that the last private read returned (R376). -/
  got : Bytes := []
  /-- held response (R376). -/
  resp : Option Resp := none
  /-- commands queued or executing, oldest first (R379). -/
  cmds : List Cmd := []
  /-- completion records held, oldest first (R379). -/
  cpls : List Bytes := []
  /-- next sequence number (R379). -/
  nextSeq : Nat := 0
  /-- host event queue, at most 1,024 records (R382). -/
  evq : List Bytes := []
  /-- records not queued since event 10 (R382). -/
  evLost : Nat := 0
  /-- group pending bits as last seen (R384). -/
  was : BitVec 16 := 0
  /-- groups whose IBI is requested and not accepted (R384). -/
  ibi : List Nat := []
  /-- mandatory byte of the last IBI accepted (R384). -/
  ibiSent : Option Nat := none
  /-- armed one-shot actions, in sequence order (R380). -/
  armed : List Armed := []
  /-- provisional ID bits [31:0] (R371). -/
  pid : Word := 0
  deriving DecidableEq, Repr

/-- A raised event waiting to be posted (R408). -/
structure Raised where
  /-- source (R406). -/
  src : Nat := 0
  /-- payload (R407). -/
  payload : Bytes := []
  /-- tick number when raised (R406). -/
  tick : Nat := 0
  /-- corrected nanoseconds when raised (R406). -/
  ns : Nat := 0
  /-- corrected seconds when raised (R406). -/
  sec : Nat := 0
  /-- raised before the firmware ran: the boot ROM posts it (R357, R406). -/
  rom : Bool := false
  deriving DecidableEq, Repr

/-- Events (R406 to R412, R512). -/
structure Events where
  /-- pending buffer, at most 256, oldest first (R408). -/
  pend : List Raised := []
  /-- events lost and not yet reported by event 7 (R408). -/
  lost : Nat := 0
  /-- the next record posted has flag bit 4 (R408). -/
  lostMark : Bool := false
  /-- next sequence number (R406). -/
  seq : Word := 0
  /-- raises per limit key: window and count (R512). -/
  limits : Tab (Nat × Nat) := []
  deriving DecidableEq, Repr

/-- The mast island (R20, R26, R399, R403). -/
structure Mast where
  /-- the firmware runs (R26). -/
  fw : Bool := false
  /-- a mast island reset is in progress (R387). -/
  down : Bool := false
  /-- ticks of mast island resets within the last 10,000 (R402). -/
  resets : List Nat := []
  /-- what channel commands left for the next boundary, oldest first (R37 to R39). -/
  effects : List Effect := []
  /-- STATS_READ commands waiting for a boundary: sequence number, handle, first ID, count (R381). -/
  reads : List (Nat × Nat × Nat × Nat) := []
  /-- sequence numbers of commands whose journal words are uncorrectable (R403). -/
  badWords : List Nat := []
  /-- mast memory, 1 MiB, by its own offsets; unlisted bytes read 0 (R21, R345). -/
  mem : List (Nat × Byte) := []
  deriving DecidableEq, Repr

/-- The cellar controller (R396, R397). -/
structure Celar where
  /-- consecutive failures of the command that each master's request stands at (R397). -/
  fails : Tab Nat := []
  /-- retrainings failed in a row (R397). -/
  retries : Nat := 0
  /-- next cellar address to scrub (R396). -/
  scrub : Nat := 0
  /-- retraining in progress; true for a write CRC cause (R397). -/
  retrain : Option Bool := none
  /-- status of the latest cellar DMA completion of each requester, by master ID (R366, R394). -/
  dmaEnd : Tab Nat := []
  deriving DecidableEq, Repr

/-- What a stay frame says beside its bytes, where the layout of its payload is not part of the specification: the contents of
a copy (R430), of a bulk copy (R432, R435), of a request or a result of a self-check (R434; log entry 80). -/
inductive StaySays where
  | bytes
  | copy (c : CopyIn)
  | sync (items : List CopyItem)
  | check (c : CheckIn)
  deriving DecidableEq, Repr

/-- A stay frame (R416). -/
structure StayFrame where
  /-- type of Table 3 (R416). -/
  type : Nat := 0
  /-- destination, source, hops (R416). -/
  route : BitVec 8 := 0
  /-- link sequence number (R417). -/
  seq : BitVec 16 := 0
  /-- next seq expected (R417). -/
  ack : BitVec 16 := 0
  /-- sender's tick number (R416). -/
  tick : Nat := 0
  /-- payload (R416). -/
  data : Bytes := []
  /-- what the payload says (R430, R432, R434). -/
  tells : StaySays := .bytes
  deriving DecidableEq, Repr

/-- A stay port (R415 to R419). -/
structure StayPort where
  /-- link up (R415). -/
  link : Bool := false
  /-- 0 none, 1 partner passed, 2 ring neighbour passed, 3 mismatch (R442). -/
  hello : Nat := 0
  /-- in its cut period (R418). -/
  cut : Bool := false
  /-- ring position of the peer; 7 none (R442). -/
  peerPos : Nat := 7
  /-- next link sequence number to send (R417). -/
  txSeq : BitVec 16 := 0
  /-- next link sequence number expected (R417). -/
  rxNext : BitVec 16 := 0
  /-- frames sent and not acknowledged, oldest first, with times sent (R417). -/
  unacked : List (StayFrame × Nat) := []
  /-- frames held back by a full buffer of unacknowledged ones, oldest first (R417). -/
  waiting : List StayFrame := []
  /-- a HELLO was received since the link came up (R419). -/
  helloDone : Bool := false
  /-- frames given to the line since the last step that sent any, oldest first (R417). -/
  out : List StayFrame := []
  /-- corrected time of the last heartbeat sent, 2^-16 ns (R278, R415). -/
  hbSent : Option Nat := none
  /-- counter value and fraction that this stamp was taken from, 2^-16 ns (R278). -/
  hbCount : Nat := 0
  /-- corrected time of the last heartbeat received, 2^-16 ns (R278, R415). -/
  hbSeen : Nat := 0
  /-- counter value and fraction that this stamp was taken from, 2^-16 ns (R278). -/
  hbSeenCount : Nat := 0
  deriving DecidableEq, Repr

/-- A halyard round in progress (R423, R424). -/
structure Round where
  /-- this device is an entrant (R424). -/
  entered : Bool := false
  /-- it has backed off (R424). -/
  backed : Bool := false
  /-- eligibility at the start edge (R424). -/
  eligible : Bool := false
  deriving DecidableEq, Repr

/-- A lane self-check under way (R434). -/
structure CheckSt where
  /-- lane (R434). -/
  lane : Nat := 0
  /-- own result (R434). -/
  own : Option Bool := none
  /-- partner's result (R434). -/
  other : Option Bool := none
  /-- tick of the request (R434). -/
  tick : Nat := 0
  deriving DecidableEq, Repr

/-- The pair (R413 to R442). -/
structure Pair where
  /-- role (R428). -/
  role : Role := .unpaired
  /-- the device owns the halyard (R425). -/
  owner : Bool := false
  /-- 0 NONE, 1 SYNCING, 2 PROTECTED (R442). -/
  sync : Nat := 0
  /-- unprot_cause (R442). -/
  cause : Nat := 1
  /-- heartbeats arrive (R422). -/
  seen : Bool := false
  /-- heartbeat loss is declared (R422). -/
  lost : Bool := false
  /-- the end of LISTENING has passed (R426, R428). -/
  listenOver : Bool := false
  /-- the last heartbeat showed equal ticks and boundaries within 50 microseconds (R432). -/
  aligned : Bool := false
  /-- frames taken whose second copy is still to come: port, type, tick, payload (R414). -/
  twins : List (Nat × Nat × Nat × Bytes) := []
  /-- arrival tick of the forwarded frame being classified (R431). -/
  fwdTick : Option Nat := none
  /-- tick of the last heartbeat (R441). -/
  hbTick : Nat := 0
  /-- partner's role (R421). -/
  pRole : Nat := 0
  /-- partner's heartbeat flags (R421). -/
  pFlags : BitVec 8 := 0
  /-- yielding (R438). -/
  yielding : Bool := false
  /-- PAIR_SWITCHes that wait for the loss, with whether each is a timed action (R380, R438). -/
  yieldCmds : List (Nat × Bool) := []
  /-- hold set by PAIR_HOLD (R420). -/
  held : Bool := false
  /-- tick at which LISTENING began (R428). -/
  heldTick : Nat := 0
  /-- round in progress (R423). -/
  round : Option Round := none
  /-- won: ownership comes at the end of the guard slot (R425). -/
  gaining : Bool := false
  /-- next rechallenge tick (R426). -/
  challengeAt : Option Nat := none
  /-- last tick whose copy was acknowledged or applied (R442). -/
  copyTick : Nat := 0
  /-- tick of the COPY that waits for its COPY_ACK (R430). -/
  copyWait : Option Nat := none
  /-- a segment of the tick in progress was refused by an access table (R430). -/
  copyBad : Bool := false
  /-- segments taken of a tick's COPY whose last one is still to come: tick, contents (R430). -/
  staging : Option (Nat × List CopyItem) := none
  /-- contents copied in full shadow that the standby takes over once its own work of the tick is done (R430, R431). -/
  owed : List CopyItem := []
  /-- what the last copy left as known to the standby, of the contents that are copied as they change (R430). -/
  copied : List CopyItem := []
  /-- headers whose acknowledgement fields were taken since the last copy: peer, header (R430). -/
  acks : List (Fin 64 × Bytes) := []
  /-- next seq and epoch of each peer as the active device's copies give them (R219, R430). -/
  tx : Tab (BitVec 32 × BitVec 8) := []
  /-- bytes left of the bulk sync (R442). -/
  syncBytes : Nat := 0
  /-- tick at which the bulk sync started (R441). -/
  syncStart : Nat := 0
  /-- lane digests waiting for comparison: own under 2 * tick, received under 2 * tick + 1 (R433). -/
  digests : Tab (List (BitVec 64)) := []
  /-- lanes under resync whose contexts have been sent (R435). -/
  resynced : List Nat := []
  /-- self-checks under way, oldest first (R434). -/
  checks : List CheckSt := []
  /-- forwarded frames waiting for the classifier: order, port, frame (R431). -/
  fwd : List (Nat × Nat × Bytes) := []
  /-- tick at which the channels go live after a gain (R436). -/
  resume : Option Nat := none
  /-- channels of lanes that were not in step at the gain, which go live as under selected mirroring, and the tick (R435). -/
  late : Option (Nat × List Nat) := none
  /-- HALYARD is low (R442). -/
  lineLow : Bool := false
  /-- lane budgets the partner's copies gave (R430, R431). -/
  budgets : Tab Nat := []
  deriving DecidableEq, Repr

/-- Clock steps that the planner takes together (R448, R449, R453). -/
structure StepSt where
  /-- islands and their new clocks, MHz (R448). -/
  plan : List (Nat × Nat) := []
  /-- the steps have been requested (R449). -/
  asked : Bool := false
  /-- per channel, moves begun for these steps (R449). -/
  tries : Tab Nat := []
  /-- the steps belong to a planner run, not to a restored record (R453). -/
  mine : Bool := false
  deriving DecidableEq, Repr

/-- A planner run in progress (R448). -/
structure RunSt where
  /-- step 1 has been taken (R448). -/
  begun : Bool := false
  /-- samples still to come before the fresh sweep is complete (R448). -/
  wait : Nat := 0
  /-- islands stepped in the run (R463). -/
  stepped : BitVec 15 := 0
  /-- REEF_EXIT that waits for the run (R458). -/
  exit_ : Option Nat := none
  /-- PLAN_RUN that waits for its end (R461). -/
  cmd : Option Nat := none
  /-- the points that the run will add: lowest margin per island, referred to the settings in force (R451). -/
  first : List (Nat × Int) := []
  /-- margins before the change being measured, of the islands it concerns (R451). -/
  before : List (Nat × Int) := []
  /-- the run ends once its requested clock steps have completed (R462). -/
  ending : Bool := false
  deriving DecidableEq, Repr

/-- Running sums of an island (R451). -/
structure IslSums where
  /-- points (R451). -/
  n : Nat := 0
  /-- sum of x, binary32 (R452). -/
  sx : Word := 0
  /-- sum of x squared, binary32 (R452). -/
  sxx : Word := 0
  /-- sum of m, binary32 (R452). -/
  sm : Word := 0
  /-- sum of xm, binary32 (R452). -/
  sxm : Word := 0
  deriving DecidableEq, Repr

/-- Ageing and reefing (R443 to R464). -/
structure Age where
  /-- the device is reefed (R454). -/
  reefed : Bool := false
  /-- VID code driven (R386). -/
  vid : BitVec 4 := 5
  /-- reef cluster; 0xFF none (R456). -/
  cluster : Nat := 0xFF
  /-- junction temperature, degrees C (R446). -/
  temp : Int := 0
  /-- next tell-tale to sample (R444). -/
  next : Nat := 0
  /-- consecutive implausible samples, per tell-tale (R445). -/
  bad : Tab Nat := []
  /-- consecutive ticks at or above thermal_reef_c (R454). -/
  hot : Nat := 0
  /-- consecutive ticks at or above thermal_wake_c (R459). -/
  veryHot : Nat := 0
  /-- consecutive boundaries with HST_FAULT.supply (R454). -/
  lowSup : Nat := 0
  /-- reef causes that wait for B0 (R454). -/
  ask : BitVec 5 := 0
  /-- reef causes whose B0 has come: REEF_ENTRY acts on them (R454). -/
  due : BitVec 5 := 0
  /-- REEF_ENTER commands that wait for B0 (R461). -/
  askCmds : List Nat := []
  /-- a reef cause arose during a REEF_EXIT (R462). -/
  exitFail : Bool := false
  /-- REEF_EXIT that waits for boundary E (R458). -/
  leave : Option Nat := none
  /-- kept channels still moving to the reef cluster (R456). -/
  moves : List Nat := []
  /-- event 23 waits for the moves (R455). -/
  entering : Bool := false
  /-- islands stopped (R455). -/
  stopped : BitVec 15 := 0
  /-- tick that B0 began (R454). -/
  b0 : Nat := 0
  /-- planner run in progress (R447). -/
  run : Option RunSt := none
  /-- a sample below the floor: a run starts at the next tick boundary (R447). -/
  planAsk : Bool := false
  /-- tick at which the previous run started (R447). -/
  lastPlan : Option Nat := none
  /-- VID code that a restored record asks for (R453). -/
  vidGoal : Option (BitVec 4) := none
  /-- clock steps being taken (R448, R449). -/
  steps : Option StepSt := none
  /-- clocks that stopped islands take when they restart, MHz (R462). -/
  lower : List (Nat × Nat) := []
  /-- margins of the monitored islands in the latest complete sweep (R444, R448). -/
  sweep : List (Nat × Int) := []
  /-- clusters whose lanes or attic met an uncorrectable word in the current window of R400 (R456). -/
  ueHit : BitVec 8 := 0
  /-- sum of the temperatures of the hour in progress (R446). -/
  tempSum : Int := 0
  /-- ticks of the hour in progress (R446). -/
  tempTicks : Nat := 0
  /-- whole hours since the release of RESET_N (R446). -/
  hours : Nat := 0
  /-- power-on hours of the last record restored (R446). -/
  hoursBase : Nat := 0
  /-- stress hours h_e, binary32 (R446). -/
  he : Word := 0
  /-- sums per island (R451). -/
  sums : Tab IslSums := []
  /-- lowest margin per island since the previous run (R451). -/
  low : List (Nat × Int) := []
  /-- wake-only state: 0 command, 1 thermal (R459). -/
  wake : Option Nat := none
  /-- an accepted WAKE_ONLY: 1 before its boundary, 2 after it (R459). -/
  wakeAsk : Option Nat := none
  /-- WAKE_ONLY command that waits for its boundary (R459). -/
  wakeCmd : Option Nat := none
  deriving DecidableEq, Repr

/-- A foreign master record of the BMCA (R281, R282; log entry 60). -/
structure Foreign where
  /-- its latest Announce message (R282). -/
  data : Bytes := []
  /-- tick of that message (R282). -/
  last : Nat := 0
  /-- tick of the one before (R282). -/
  prev : Option Nat := none
  deriving DecidableEq, Repr

/-- The time island (R273 to R294). -/
structure Time where
  /-- free-running counter, ns (R273). -/
  counter : BitVec 64 := 0
  /-- O in units of 2^-16 ns: 48-bit seconds, nanoseconds, 16-bit fraction (R274). -/
  ofs : Nat := 0
  /-- rate r, signed, 2^-40 (R274). -/
  r : BitVec 32 := 0
  /-- O less every step applied since reset, its seconds not taken modulo 2^48, 2^-16 ns (R277). -/
  plain : Int := 0
  /-- tick number (R24). -/
  tick : BitVec 64 := 0
  /-- corrected time of the last boundary, ns (R290, R432). -/
  began : Nat := 0
  /-- counter value of the last boundary (R290). -/
  beganAt : Nat := 0
  /-- unstepped corrected time of the next boundary, 2^-16 ns (R277). -/
  next : Int := 65536000000
  /-- phase error at the last boundary, ns (R277). -/
  phi : Int := 0
  /-- servo state (R288). -/
  srv : ServoState := .idle
  /-- holdover cause (R288). -/
  cause : Nat := 0
  /-- filtered path delay d_f, ns (R285). -/
  df : Option Int := none
  /-- integral term (R287). -/
  i : Int := 0
  /-- consecutive applied samples within 1,000 ns (R288). -/
  near : Nat := 0
  /-- consecutive applied samples beyond 1,000 ns (R288). -/
  far : Nat := 0
  /-- consecutive outliers (R285). -/
  outl : Nat := 0
  /-- the latest path-delay sample was accepted (R285). -/
  pathOk : Bool := false
  /-- latest (t1, t2), ns (R285). -/
  t12 : Option (Int × Int) := none
  /-- counter value at the stamp t2 of that pair (R285). -/
  t12Count : Nat := 0
  /-- counter value of the latest step (R285). -/
  stepAt : Option Nat := none
  /-- sum of the steps applied at that counter value, 2^-16 ns (R292). -/
  stepSum : Int := 0
  /-- stored refused jump, ns (R286). -/
  pend : Option Int := none
  /-- the latest applied sample limited r (R287). -/
  limited : Bool := false
  /-- a hold recorded while the cause is 4 (R289). -/
  hold : Bool := false
  /-- resume was written: the next applied sample leaves HOLDOVER (R289). -/
  resumed : Bool := false
  /-- last applied offset sample (R294). -/
  last : Int := 0
  /-- upper tick halves latched per master (R508). -/
  tickHi : Tab Word := []
  /-- portState; 0 engine off (R282). -/
  ptp : Nat := 0
  /-- parent clockIdentity (R282). -/
  parent : BitVec 64 := 0
  /-- announce data of the parent, for the BMCA (R282). -/
  best : Option Bytes := none
  /-- two-step Sync waiting for its Follow_Up: sequenceId, t2, correction (R282). -/
  sync : Option (Nat × Int × Int) := none
  /-- counter value of its stamp, 2^-16 ns (R285). -/
  syncCount : Nat := 0
  /-- Delay_Req sent: sequenceId and t3 (R282). -/
  t3 : Option (Nat × Int) := none
  /-- next Delay_Req sequenceId (R282). -/
  dreqSeq : Nat := 0
  /-- logMinDelayReqInterval of the parent (R282). -/
  dreqLog : Int := 0
  /-- masters whose Announce messages have been received (R281, R282). -/
  foreign : List Foreign := []
  deriving DecidableEq, Repr

/-- Boundary scan (R498, R499). -/
structure Jtag where
  /-- TAP instruction in force (R498). -/
  instr : TapInstr := .idcode
  /-- boundary register, one bit per scanned cell (R498). -/
  boundary : Nat := 0
  /-- register between TDI and TDO: 0 bypass, 1 identification, 2 boundary (R498). -/
  selected : Nat := 1
  /-- value captured by the selected register (R498). -/
  shift : Nat := 0
  deriving DecidableEq, Repr

/-- Supplies and the VID pins (R465, R469, R473, R474); kept through a reset. -/
structure Supply where
  /-- voltage of each rail as its monitor last reported it, in microvolts (R473). -/
  volts : Tab Nat := []
  /-- VID[3:0] drive: RESET_N has risen since power-on (R469). -/
  vidDrives : Bool := true
  /-- rails that a monitor reports out of range (R473, R385). -/
  out : BitVec 11 := 0
  /-- codes that VID left less than 1 ms ago, with the nanoseconds that are left of it (R474). -/
  past : List (BitVec 4 × Nat) := []
  deriving DecidableEq, Repr

/-- Clock switching of a steppable island (R296). -/
structure Island where
  /-- frequency programmed into the idle synthesizer, MHz (R296). -/
  asked : Nat := 0
  /-- asked by the planner (R448). -/
  planner : Bool := false
  deriving DecidableEq, Repr

/-- The whole block: every piece of state the specification names, and the queue of waiting commands. -/
structure State where
  /-- commands waiting, first in, first out (the model's own) (task). -/
  pending : List Instr := []
  /-- draws taken from the free values (the model's own, log entry 3) (task). -/
  free : Nat := 0
  /-- registers written or set since reset, by address; unlisted hold their reset value (R8, R510). -/
  regs : Tab Word := []
  /-- bytes of the attics, lane memories and cellar by device address; unlisted read 0 (log entry 4) (R503). -/
  mem : List (Nat × Byte) := []
  /-- addresses of the protected words whose check bits are uncorrectable, rising (R21, R394). -/
  poison : List Nat := []
  /-- time island (R273). -/
  time : Time := {}
  /-- host port (R371). -/
  host : HostPort := {}
  /-- events (R406). -/
  ev : Events := {}
  /-- mast island (R20). -/
  mast : Mast := {}
  /-- lanes 0 to 127 (R16). -/
  lanes : Tab Lane := []
  /-- session table by handle (R28). -/
  sess : Tab Session := []
  /-- channels by number (R32). -/
  chans : Tab Channel := []
  /-- peers 0 to 63 (R191). -/
  peers : Tab Peer := []
  /-- TRK0, TRK1 (R225). -/
  ports : Tab Port := []
  /-- SVC (R246). -/
  svc : Svc := {}
  /-- TDM island (R255). -/
  tdm : Tdm := {}
  /-- islands (R295). -/
  isls : Tab Island := []
  /-- queue instances of the image (R300). -/
  ques : Tab Queue := []
  /-- VCs by 4 * instance + VC (R300). -/
  vcs : Tab Vc := []
  /-- receive areas by 8 * lane + input port (R308). -/
  areas : Tab RxArea := []
  /-- loader and image (R335). -/
  rig : Rig := {}
  /-- boot and attestation (R345). -/
  boot : Boot := {}
  /-- access tables (R361). -/
  acc : AccTabs := {}
  /-- cellar controller (R396). -/
  cel : Celar := {}
  /-- STAY0, STAY1 (R415). -/
  stay : Tab StayPort := []
  /-- pair (R413). -/
  pair : Pair := {}
  /-- ageing and reefing (R443). -/
  age : Age := {}
  /-- boundary scan (R498). -/
  jtag : Jtag := {}
  /-- supplies and the VID pins (R469, R473, R474). -/
  supply : Supply := {}
  /-- SYSCLK is lost (R476). -/
  sysLost : Bool := false
  deriving DecidableEq, Repr

/-- The machine right after reset: RESET_N has just been released with BOOT_SEL 0b00 and the part in boot stage SUPPLY,
every register at its reset value, memory with nothing listed, the queue of commands empty (R10, R345; log entries 2, 4, 5).
-/
def State.reset : State := {}

/-- Reasons a step can stop with a fault. No meaning of this model raises one: every command of the table has an effect the
specification gives (safe: the type is there for the host's interface). -/
inductive Fault where
  /-- Raised by nothing. -/
  | none_
  deriving DecidableEq, Repr

/-- Reasons a command can be refused. -/
inductive Refusal where
  /-- Raised by an arm of exec whose command has no meaning yet (safe: the machine stops). -/
  | notModelled (mnemonic : String)
  deriving DecidableEq, Repr

end Sys2Proof.Machine
end

