-- ==== Sys2Proof/Machine/Ops.lean ====
section
/-! DEFINITION. The named operations over tables, bytes, memory, registers, time and events that every meaning uses. -/

namespace Sys2Proof.Machine

/-! ### Tables -/

/-- The entry of a table under a key. -/
def tget? {α : Type} : Tab α → Nat → Option α
  | [], _ => none
  | (a, v) :: t, k => if a = k then some v else tget? t k

/-- The entry of a table under a key, or the value that an unlisted key reads as. -/
def tget {α : Type} (t : Tab α) (k : Nat) (d : α) : α := (tget? t k).getD d

/-- A table with one entry written, keys kept rising. -/
def tset {α : Type} : Tab α → Nat → α → Tab α
  | [], k, v => [(k, v)]
  | (a, w) :: t, k, v =>
    if k < a then (k, v) :: (a, w) :: t else if k = a then (k, v) :: t else (a, w) :: tset t k v

/-- A table with one entry removed. -/
def tdel {α : Type} : Tab α → Nat → Tab α
  | [], _ => []
  | (a, w) :: t, k => if a = k then t else (a, w) :: tdel t k

/-- A table with one entry changed. -/
def tmod {α : Type} (t : Tab α) (k : Nat) (d : α) (f : α → α) : Tab α := tset t k (f (tget t k d))

/-- A natural number limited to an upper bound. -/
def satTo (m n : Nat) : Nat := if n ≤ m then n else m

/-! ### Bytes (R7) -/

/-- Little-endian value of bytes. -/
def leNat : Bytes → Nat
  | [] => 0
  | b :: t => b.toNat + 256 * leNat t

/-- Big-endian value of bytes. -/
def beNat (b : Bytes) : Nat := leNat b.reverse

/-- The low `n` bytes of a number, little-endian. -/
def toLe : Nat → Nat → Bytes
  | 0, _ => []
  | n + 1, v => BitVec.ofNat 8 v :: toLe n (v / 256)

/-- The low `n` bytes of a number, big-endian. -/
def toBe (n v : Nat) : Bytes := (toLe n v).reverse

/-- `n` zero bytes. -/
def zeros (n : Nat) : Bytes := List.replicate n 0

/-- Bytes `a` to `a + n - 1`, little-endian. -/
def leAt (b : Bytes) (a n : Nat) : Nat := leNat ((b.drop a).take n)

/-- Bytes `a` to `a + n - 1`, big-endian. -/
def beAt (b : Bytes) (a n : Nat) : Nat := beNat ((b.drop a).take n)

/-- Bytes `a` to `a + n - 1`. -/
def slice (b : Bytes) (a n : Nat) : Bytes := (b.drop a).take n

/-- A value of `w` bits read as two's complement. -/
def asSigned (w n : Nat) : Int := if n % 2 ^ w < 2 ^ (w - 1) then (n % 2 ^ w : Nat) else (n % 2 ^ w : Nat) - (2 ^ w : Int)

/-- The two's complement of `w` bits of an integer. -/
def ofSigned (w : Nat) (i : Int) : Nat := (i % (2 ^ w : Int)).toNat

/-- One step of a CRC of `w` bits, most significant bit first, over one bit. -/
def crcBit (w poly : Nat) (bit : Bool) (c : Nat) : Nat :=
  let top := c / 2 ^ (w - 1) % 2 == 1
  let sh := c * 2 % 2 ^ w
  if top != bit then sh.xor poly else sh

/-- A CRC of `w` bits over one byte, most significant bit first. -/
def crcByte (w poly c : Nat) (b : Byte) : Nat :=
  [7, 6, 5, 4, 3, 2, 1, 0].foldl (fun c i => crcBit w poly (b.getLsbD i) c) c

/-- The CRC-16 of R374: polynomial 0x1021, initial value 0xFFFF, no reflection, no final inversion. -/
def crc16 (b : Bytes) : Nat := b.foldl (crcByte 16 0x1021) 0xFFFF

/-- The CRC-32 of an Ethernet frame (IEEE 802.3, reflected, inverted), as the value whose little-endian bytes are the
FCS on the line. -/
def crc32 (b : Bytes) : Nat :=
  let step := fun (c : Nat) (x : Byte) =>
    (List.range 8).foldl (fun c _ => if c % 2 = 1 then (c / 2).xor 0xEDB88320 else c / 2) (c.xor x.toNat)
  (b.foldl step 0xFFFFFFFF).xor 0xFFFFFFFF

/-! ### Memory (R503, R394) -/

/-- What a byte that memory does not list reads as (log entry 4). -/
def Memory.unlisted : Byte := 0

/-- A byte of memory. -/
def Memory.read (m : List Host.Cell) (a : Nat) : Byte := tget m a Memory.unlisted

/-- Memory with one byte written; a byte that an unlisted address reads as is not listed. -/
def Memory.write (m : List Host.Cell) (a : Nat) (b : Byte) : List Host.Cell :=
  if b = Memory.unlisted then tdel m a else tset m a b

/-- The canonical form of memory: addresses strictly rising, nothing listed that an unlisted address reads as. -/
def Memory.wf : List Host.Cell → Bool
  | [] => true
  | (a, b) :: t => b != Memory.unlisted && t.all (fun c => decide (a < c.1)) && Memory.wf t

/-- `n` bytes of memory from an address. -/
def Memory.readBytes (m : List Host.Cell) (a n : Nat) : Bytes := (List.range n).map (fun i => Memory.read m (a + i))

/-- Memory with bytes written from an address upward. -/
def Memory.writeBytes : List Host.Cell → Nat → Bytes → List Host.Cell
  | m, _, [] => m
  | m, a, b :: t => Memory.writeBytes (Memory.write m a b) (a + 1) t

/-- Memory with `n` bytes from an address cleared to zero. -/
def Memory.clear (m : List Host.Cell) (a n : Nat) : List Host.Cell :=
  m.filter (fun c => decide (c.1 < a) || decide (a + n ≤ c.1))

/-- The bytes of the word that check bits protect at a device address: 4 in lane data memory, 8 in lane program memory, the
attics and the cellar (R21, Table 3). -/
def wordBytes (a : Nat) : Nat := if 0x08000000 ≤ a ∧ a < 0x10000000 ∧ a % 0x100000 < 0x80000 then 4 else 8

/-- The address of the protected word that holds a device address: what poison marks are kept under (R21, R394). -/
def wordOf (a : Nat) : Nat := a / wordBytes a * wordBytes a

/-- The uncorrectable words that a range of bytes touches. -/
def poisonedIn (s : State) (a n : Nat) : List Nat :=
  s.poison.filter (fun p => decide (p < a + n) && decide (a < p + wordBytes p))

/-- Whether any word that a range of bytes touches is uncorrectable. -/
def poisoned (s : State) (a n : Nat) : Bool := !(poisonedIn s a n).isEmpty

/-- The poison marks with one word marked. -/
def markPoison : List Nat → Nat → List Nat
  | [], a => [a]
  | p :: t, a => if a < p then a :: p :: t else if a = p then p :: t else p :: markPoison t a

/-- A state with bytes stored: every protected word wholly written has good check bits again (R394); one written in part keeps
its mark (log entry 4). -/
def storeBytes (a : Nat) (b : Bytes) (s : State) : State :=
  { s with
    mem := Memory.writeBytes s.mem a b
    poison := s.poison.filter (fun p => !(decide (a ≤ p) && decide (p + wordBytes p ≤ a + b.length))) }

/-- A state with a range of memory cleared to zero with valid check bits (R79). -/
def clearRange (a n : Nat) (s : State) : State :=
  { s with
    mem := Memory.clear s.mem a n
    poison := s.poison.filter (fun p => decide (p < a) || decide (a + n ≤ p)) }

/-- Device address of cluster `c`'s attic (R503). -/
def atticBase (c : Nat) : Nat := 0x02000000 + 0x00400000 * c
/-- Device address of a lane's memories: data memory first, program memory at + 0x8_0000 (R503). -/
def laneBase (l : Nat) : Nat := 0x08000000 + 0x01000000 * (l / 16) + 0x00100000 * (l % 16)
/-- Device address of the cellar (R503). -/
def cellarBase : Nat := 0x400000000

/-! ### Registers (R8 to R12) -/

/-- Nominal clock, lower and upper end of the range of an island, and whether it is steppable (R295, Table 1). -/
def islandClock (i : Nat) : Nat × Nat × Nat × Bool :=
  if i < 8 then (1200, 600, 1400, true)
  else if i = 8 then (1000, 500, 1000, true)
  else if i = 9 then (625, 625, 625, false)
  else if i = 10 then (800, 400, 800, true)
  else if i = 11 then (250, 250, 250, false)
  else if i = 12 then (1000, 1000, 1000, false)
  else if i = 13 then (800, 800, 800, false)
  else (25, 25, 25, false)

/-- Bits `[hi:lo]` of a number. -/
def bitsOf (n hi lo : Nat) : Nat := n / 2 ^ lo % 2 ^ (hi - lo + 1)

/-- A number with bits `[hi:lo]` replaced. -/
def setBits (n hi lo v : Nat) : Nat :=
  n - bitsOf n hi lo * 2 ^ lo + v % 2 ^ (hi - lo + 1) * 2 ^ lo

/-- The reset word that the fields of a register's table give. -/
def fieldsReset (l : List FieldDesc) : Nat := l.foldl (fun n f => n + f.reset % 2 ^ (f.hi - f.lo + 1) * 2 ^ f.lo) 0

/-- The reset value of copy `(i, j)` of a register (R10): the map entries (R272), the island clocks (R318), the
provisional ID (R371, log entry 5), the reset cause (R491) and SVC's ptp_en (R253) besides what the table's numbers give. -/
def RegId.resetWord (r : RegId) (i : Nat) (_j : Nat) : Nat :=
  let n := fieldsReset r.fields
  match r with
  | .TDM_MAP_SHADOW => setBits (setBits n 12 8 (i / 128)) 6 0 (i % 128)
  | .TDM_MAP_ACTIVE => 2 ^ 31 + i / 128 * 256 + i % 128
  | .ISL_CLK_REQ => setBits n 11 0 (islandClock i).1
  | .ISL_CLK_STATUS => setBits (setBits n 28 28 (if (islandClock i).2.2.2 then 1 else 0)) 11 0 (islandClock i).1
  | .ISL_CLK_LIMITS => setBits (setBits n 27 16 (islandClock i).2.2.1) 11 0 (islandClock i).2.1
  | .HST_PID_HI => 0x058B
  | .PWR_SEQ => 0xF
  | .FLT_PORT => if i = 2 then setBits n 8 8 0 else n
  | _ => n

/-- The word stored for a register address. -/
def regWord (s : State) (a : Nat) : Nat :=
  match tget? s.regs a with
  | some w => w.toNat
  | none => match regAt a with
    | some (r, i, j) => r.resetWord i j
    | none => 0

/-- A state with the word stored for a register address replaced. -/
def setWord (a : Nat) (w : Nat) (s : State) : State := { s with regs := tset s.regs a (BitVec.ofNat 32 w) }

/-- The stored value of a field of copy `(i, j)` of its register. -/
def fget (s : State) (f : Fld) (i : Nat := 0) (j : Nat := 0) : Nat := bitsOf (regWord s (f.reg.addr i j)) f.hi f.lo

/-- Whether a one-bit field is 1. -/
def fbit (s : State) (f : Fld) (i : Nat := 0) (j : Nat := 0) : Bool := fget s f i j != 0

/-- A state with a field set by the hardware. -/
def fset (f : Fld) (v : Nat) (s : State) (i : Nat := 0) (j : Nat := 0) : State :=
  setWord (f.reg.addr i j) (setBits (regWord s (f.reg.addr i j)) f.hi f.lo v) s

/-- A state with a counter field advanced, stopping at all ones (R12). -/
def fbump (f : Fld) (n : Nat) (s : State) (i : Nat := 0) (j : Nat := 0) : State :=
  fset f (satTo (2 ^ (f.hi - f.lo + 1) - 1) (fget s f i j + n)) s i j

/-- A state with the stored words of a range of register addresses dropped: they hold their reset values again. -/
def dropRegs (lo hi : Nat) (s : State) : State :=
  { s with regs := s.regs.filter (fun p => decide (p.1 < lo) || decide (hi < p.1)) }

/-! ### Free values (log entry 3) -/

/-- A state with one draw taken from the free values. -/
def draw (s : State) : State := { s with free := s.free + 1 }

/-- `n` free bytes of the draw the state stands at. -/
def freeBytes (s : State) (n : Nat) : Bytes := (List.range n).map (Config.freeByte s.free)

/-! ### Corrected time (R274) -/

/-- Units of 2^-16 ns in a second. -/
def unitsPerSec : Nat := 65536000000000

/-- Whether nothing but the always-on island works: RESET_N is low, SYSCLK is lost, or the device is in the wake-only state
(R345, R459, R476). -/
def inReset (s : State) : Bool := s.boot.held || s.sysLost || s.age.wake.isSome

/-- Nanoseconds pass for the VDD monitor: codes that VID left 1 ms ago count no longer (R474). -/
def passVid (ns : Nat) (s : State) : State :=
  { s with supply := { s.supply with
    past := (s.supply.past.filter (fun p => decide (ns < p.2))).map (fun p => (p.1, p.2 - ns)) } }

/-- Corrected time T in units of 2^-16 ns, its seconds modulo 2^48 (R274). -/
def correctedTime (t : Time) : Nat :=
  let c : Int := t.counter.toNat
  let v : Int := (t.ofs : Int) + c * 65536 + c * t.r.toInt / 16777216
  (v % ((2 ^ 48 * unitsPerSec : Nat) : Int)).toNat

/-- Seconds of corrected time. -/
def timeSec (s : State) : Nat := correctedTime s.time / unitsPerSec
/-- Nanoseconds of corrected time. -/
def timeNs (s : State) : Nat := correctedTime s.time / 65536 % 1000000000
/-- The tick number (R24). -/
def tickNow (s : State) : Nat := s.time.tick.toNat
/-- Whether the device is at boot stage RUNNING: the mast firmware has started (R345). -/
def isRunning (s : State) : Bool := s.boot.stage == .running

/-! ### Events (R401, R406 to R408, R512) -/

/-- The class of an event source (R401, Table 3). -/
def eventClass (src : Nat) : Nat :=
  if src = 0 then 4
  else if [3, 66, 96, 101].contains src then 1
  else if [5, 48, 67, 68, 69, 71, 97, 98, 102, 103, 148, 160, 162, 167, 168, 171, 176, 177, 182, 186, 195, 196, 197,
    228].contains src then 2
  else if [1, 4, 65, 99, 192, 224].contains src || (112 ≤ src && src ≤ 140 && src % 4 == 0) then 3
  else 0

/-- The payload of an event: each field of a size in bytes, aligned to its own size, little-endian (R407). -/
def payloadOf (fields : List (Nat × Nat)) : Bytes :=
  fields.foldl (fun acc f =>
    let pad := (f.1 - acc.length % f.1) % f.1
    acc ++ zeros pad ++ toLe f.1 f.2) []

/-- The class counters of R401 for one raise. -/
def countClass (src : Nat) (s : State) : State :=
  if eventClass src = 2 then fbump .ERR_CLASS_contained 1 s
  else if eventClass src = 3 then fbump .ERR_CLASS_unit 1 s
  else s

/-- Puts a raised event into the pending buffer, or counts it lost when 256 wait (R408). -/
def enqueueEvent (src : Nat) (payload : Bytes) (s : State) : State :=
  if s.ev.pend.length < 256 then
    { s with ev := { s.ev with
        pend := s.ev.pend ++ [{ src := src, payload := payload, tick := tickNow s, ns := timeNs s, sec := timeSec s
                                rom := !s.mast.fw }] } }
  else
    let s1 := fbump .ERR_PENDING_lost 1 s
    { s1 with ev := { s1.ev with lost := s1.ev.lost + 1, lostMark := true } }

/-- Raises an event whose payload is the given fields, each a size in bytes and a value. -/
def raise (src : Nat) (fields : List (Nat × Nat)) (s : State) : State :=
  enqueueEvent src (payloadOf fields) (countClass src s)

/-- Whether one more raise under a limit of `n` per window is posted (R512). -/
def withinLimit (s : State) (key n : Nat) : Bool :=
  let p := tget s.ev.limits key (0, 0)
  !(p.1 == tickNow s / 1000) || decide (p.2 < n)

/-- The count of a limit after one more raise in the window (R512). -/
def countLimit (key : Nat) (s : State) : State :=
  let p := tget s.ev.limits key (0, 0)
  let w := tickNow s / 1000
  { s with ev := { s.ev with limits := tset s.ev.limits key (w, if p.1 = w then p.2 + 1 else 1) } }

/-- Raises an event limited to `n` raises per window of 1,000 ticks under a key: the source and a number (R512). -/
def raiseLimited (src sub n : Nat) (fields : List (Nat × Nat)) (s : State) : State :=
  if withinLimit s (src * 65536 + sub) n then
    raise src fields (countLimit (src * 65536 + sub) s)
  else countClass src s

/-- Raises an event limited to one raise per window under a key, whose last field counts the happenings since the last
event posted, those not posted included (R512); `k` happenings at once. The count is kept beside the limits under a key of its
own. -/
def raiseCountingBy (k src sub : Nat) (fields : List (Nat × Nat)) (s : State) : State :=
  let key := src * 65536 + sub
  let held := (tget s.ev.limits (2 ^ 40 + key) (0, 0)).2 + k
  let keep := fun (n : Nat) (s : State) =>
    { s with ev := { s.ev with limits := tset s.ev.limits (2 ^ 40 + key) (0, n) } }
  if withinLimit s key 1 then raise src (fields ++ [(4, held)]) (keep 0 (countLimit key s))
  else countClass src (keep held s)

/-- One happening of a source whose record counts them (R512). -/
def raiseCounting (src sub : Nat) (fields : List (Nat × Nat)) (s : State) : State := raiseCountingBy 1 src sub fields s

/-! ### Interrupt groups (R384, R385) -/

/-- The bits of HST_FAULT: supply, reefed, error, mast_watchdog, boot (R385, R390). -/
def faultBits (s : State) : Nat :=
  fget s .HST_FAULT_supply * 16 + (if s.age.reefed then 8 else 0) +
  fget s .HST_FAULT_error * 4 + fget s .HST_FAULT_mast_watchdog * 2 + (if s.boot.bootFault then 1 else 0)

/-- The interrupt group of an event source (R384). -/
def groupOf (src : Nat) : Nat :=
  if src < 64 then src / 16 else if src < 96 then 4 else if src < 112 then 5 else if src < 144 then 6
  else if src < 160 then 7 else if src < 176 then 8 else if src < 192 then 9 else if src < 224 then 10
  else if src < 232 then 11 else if src < 248 then 12 else 13

/-- Whether a group is pending (R384). -/
def groupPending (s : State) (g : Nat) : Bool :=
  if g = 14 then !s.host.cpls.isEmpty
  else if g = 15 then faultBits s != 0
  else s.host.evq.any (fun r => groupOf (r.headD 0).toNat == g)

/-- The pending bits of the 16 groups. -/
def pendingBits (s : State) : Nat :=
  (List.range 16).foldl (fun n g => if groupPending s g then n + 2 ^ g else n) 0

/-- Takes notice of the groups that have become or stopped being pending: a rise with the group's ibi_en bit and ENINT set
requests an IBI; a request falls with its group (R384). -/
def noteIbi (s : State) : State :=
  let now := pendingBits s
  let en := fget s .HST_IRQ_EN_ibi_en
  let asks := (List.range 16).filter (fun g => now.testBit g &&
    (s.host.ibi.contains g || (s.host.enint && en.testBit g && !s.host.was.getLsbD g)))
  { s with host := { s.host with was := BitVec.ofNat 16 now, ibi := asks } }

/-- The fatal errors of R402: `cause` of Table 4, raised by the event of source `by_`. -/
def fatal (cause by_ : Nat) (s : State) : State :=
  let s1 := raise 0 [(1, cause), (1, by_)] s
  let s2 := fset .ERR_FATAL_cause cause s1
  let s3 := fbump .ERR_FATAL_fatal 1 s2
  noteIbi (fset .HST_FAULT_error 1 s3)

/-- A reef cause, as its bit of AGE_REEF.causes, that arises while the device is not reefed waits for the next boundary
(R454); one that arises while it is reefed makes a REEF_EXIT in progress fail (R462). -/
def askReef (bit : Nat) (s : State) : State :=
  if s.age.reefed then { s with age := { s.age with exitFail := true } }
  else { s with age := { s.age with ask := s.age.ask ||| BitVec.ofNat 5 bit } }

/-- A cluster's lanes or attic met an uncorrectable word (R456). -/
def clusterUe (c : Nat) (s : State) : State :=
  { s with age := { s.age with ueHit := s.age.ueHit ||| BitVec.ofNat 8 (2 ^ c) } }

/-- One uncorrectable word met in a memory (0 lane data, 1 lane program, 2 attic, 3 dictionary, 4 cellar): the count of
the window, and at the threshold event 5 and the reef cause memory (R400, R454). -/
def ueMet (memory : Nat) (s : State) : State :=
  let n := satTo 1023 (fget s .ERR_UE_RATE_window_count + 1)
  let s1 := fset .ERR_UE_RATE_window_count n s
  if n = fget s .ERR_UE_RATE_threshold then
    askReef 8 (raise 5 [(4, n), (1, memory)] s1)
  else s1

/-- One corrected word met in any memory or queue (R401). -/
def corrected (s : State) : State := fbump .ERR_CORRECTED_corrected 1 s

end Sys2Proof.Machine
end

