-- ==== Sys2Proof/Machine/Access.lean ====
section
/-! DEFINITION. Access tables: which target holds an address, whether an access is permitted, and what a refusal leaves
behind (R359 to R367, R348, R500 to R503). -/

namespace Sys2Proof.Machine

/-- The register block of an address: its target and base (R501, Table 1; R505). -/
def blockOf (a : Nat) : Option (Nat × Nat) :=
  let b := a / 65536
  if b < 10 then some (b, b * 65536)
  else if b = 0x10 ∨ b = 0x11 then some (b - 6, b * 65536)
  else if 0x20 ≤ b ∧ b ≤ 0x29 then some (b - 20, b * 65536)
  else if 0x100 ≤ b ∧ b < 0x180 then some (22 + (b - 0x100) / 16, (0x100 + (b - 0x100) / 16 * 16) * 65536)
  else none

/-- The cellar region that holds a cellar address, with its base (R323, R503). -/
def regionOf (s : State) (c : Nat) : Option (Nat × Nat) :=
  (List.range 16).findSome? (fun r =>
    let base := fget s .CEL_REGION_BASE_base_mib r * 1048576
    let size := fget s .CEL_REGION_SIZE_size_mib r * 1048576
    if base ≤ c ∧ c < base + size then some (r, base) else none)

/-- The target that holds a device address, and the base its offsets count from (R361, R503). -/
def targetOf (s : State) (a : Nat) : Option (Nat × Nat) :=
  if a < 0x02000000 then blockOf a
  else if a < 0x04000000 then
    let c := (a - 0x02000000) / 0x400000
    some (30 + c, atticBase c)
  else if 0x08000000 ≤ a ∧ a < 0x10000000 then
    let c := (a - 0x08000000) / 0x1000000
    some (54 + c, 0x08000000 + 0x1000000 * c)
  else if cellarBase ≤ a then
    (regionOf s (a - cellarBase)).map (fun r => (38 + r.1, cellarBase + r.2))
  else none

/-- The unit of a target's windows in bytes (R361, Table 2). -/
def windowUnit (t : Nat) : Nat := if t < 30 then 4 else 64

/-- The target of an access of `n` bytes: 63 when a byte lies in no target, else the target of its first byte (R361,
R511). -/
def accessTarget (s : State) (a n : Nat) : Nat × Nat :=
  match targetOf s a, targetOf s (a + (n - 1)) with
  | some t, some _ => t
  | _, _ => (63, 0)

/-- The kind of an access: 0 read, 1 write, 2 a write that lands in program memory (R363, R370). -/
def accessKind (write : Bool) (target off n : Nat) : Nat :=
  if !write then 0
  else if 54 ≤ target ∧ target < 62 ∧
      (List.range n).any (fun i => decide (0x80000 ≤ (off + i) % 0x100000 ∧ (off + i) % 0x100000 < 0x90000)) then 2
  else 1

/-- Whether a window grants what a kind of access needs (R363). -/
def AccWin.grants (w : AccWin) (kind : Nat) : Bool :=
  if kind = 0 then w.r else if kind = 1 then w.w else w.w && w.x

/-- Whether a byte offset lies in a window that grants a kind, windows measured in `unit` bytes. -/
def grantedAt (ws : List AccWin) (unit kind off : Nat) : Bool :=
  ws.any (fun w => w.grants kind && decide (w.start * unit ≤ off) && decide (off < (w.start + w.len) * unit))

/-- Whether every byte of an access lies in a granting window (R363). A write that touches program memory needs X for
its program bytes alone. -/
def tablePermits (s : State) (master target off n : Nat) (write : Bool) : Bool :=
  let ws := tget s.acc.entries (16 * target + master) []
  (List.range n).all (fun i => grantedAt ws (windowUnit target) (accessKind write target (off + i) 1) (off + i))

/-- Whether an access is permitted: by the tables once they are locked, before that by R348. An access of no bytes
touches nothing (R13). -/
def permitted (s : State) (master a n : Nat) (write : Bool) : Bool :=
  let t := accessTarget s a n
  if n = 0 then true
  else if t.1 = 63 then false
  else if master = 14 ∧ s.boot.fuses.debugLocked then false
  else if s.acc.locked then tablePermits s master t.1 (a - t.2) n write
  else decide (t.1 < 30) && (master == 0 || master == 15 || master == 14)

/-- The low and high words of a refusal record (R367). -/
def denyInfo (master target kind addr : Nat) : Nat :=
  2 ^ 31 + addr / 2 ^ 32 % 16 * 2 ^ 24 + kind * 2 ^ 10 + target * 2 ^ 4 + master

/-- Records a refusal: counter, first and last records, event 48 at most 64 times a window (R367). -/
def recordDenial (master a n : Nat) (write : Bool) (s : State) : State :=
  let t := accessTarget s a n
  let addr := if t.1 < 30 ∨ t.1 = 63 then a else a - t.2
  let kind := accessKind write t.1 (a - t.2) n
  let info := denyInfo master t.1 kind addr
  let s1 := fbump .ACC_DENY_COUNT_denials 1 s
  let s2 := setWord (RegId.addr .ACC_DENY_LAST_ADDR) (addr % 2 ^ 32) (setWord (RegId.addr .ACC_DENY_LAST_INFO) info s1)
  let s3 := if fbit s2 .ACC_DENY_FIRST_INFO_valid then s2
    else setWord (RegId.addr .ACC_DENY_FIRST_ADDR) (addr % 2 ^ 32) (setWord (RegId.addr .ACC_DENY_FIRST_INFO) info s2)
  let s4 := if withinLimit s3 (48 * 65536) 64 then s3 else fbump .ACC_DENY_COUNT_events_suppressed 1 s3
  raiseLimited 48 0 64 [(1, master), (1, t.1), (1, kind), (8, addr)] s4

/-- Whether a device address lies in a hole of a lane-memory target, which reads 0 and ignores writes (R503). -/
def laneHole (a : Nat) : Bool :=
  decide (0x08000000 ≤ a ∧ a < 0x10000000) && decide (0x90000 ≤ a % 0x100000)

/-- The device address of a lane's lane-local address: data memory, or the attic of its cluster (R74); none outside both
ranges. -/
def laneAddr (lane a : Nat) : Option Nat :=
  if a < 0x80000 then some (laneBase lane + a)
  else if 0x400000 ≤ a ∧ a < 0x800000 then some (atticBase (lane / 16) + (a - 0x400000))
  else none

end Sys2Proof.Machine
end

