-- ==== Sys2Proof/Machine/Queues.lean ====
section
/-! DEFINITION. Inter-island queues (R300 to R315): pushes, credits, pops, notices, drop records, stalls. Word timing at
the edges (R305, R306) is left out (log entry 24). -/

namespace Sys2Proof.Machine

/-- The state of a VC. -/
def vcAt (s : State) (q v : Nat) : Vc := tget s.vcs (4 * q + v) {}
/-- A state with a VC replaced. -/
def putVc (q v : Nat) (x : Vc) (s : State) : State := { s with vcs := tset s.vcs (4 * q + v) x }
/-- The words of a packet of `b` bytes (R301). -/
def wordsOf (b : Nat) : Nat := (b + 7) / 8

/-- Free credits of a VC: words stored and, where the VC reserves whole packets, words still to come are taken (R300,
R303). -/
def freeCredits (s : State) (q v : Nat) : Nat :=
  let held := (vcAt s q v).pkts.foldl (fun n p => n + p.words.length) 0
  let owed := if fbit s .QUE_VC_CFG_drop_capable q v then (vcAt s q v).pkts.foldl (fun n p => n + p.left) 0 else 0
  fget s .QUE_VC_CFG_credits q v - (held + owed)

/-- The first `n` words of a run of bytes, those marked uncorrectable (R301, R394). -/
def packWords (n : Nat) (marks : List Nat) (b : Bytes) : List (BitVec 64 × Ecc) :=
  (List.range n).map (fun i =>
    (BitVec.ofNat 64 (leAt b (8 * i) 8), if marks.contains i then Ecc.uncorrectable else Ecc.ok))

/-- Moves waiting words of a packet into the store, at most `n` of them. -/
def QPacket.take (p : QPacket) (n : Nat) : QPacket :=
  let k := min n p.left
  { p with
    words := p.words ++ packWords k p.marks p.rest
    left := p.left - k
    rest := p.rest.drop (8 * k)
    marks := (p.marks.filter (fun i => decide (k ≤ i))).map (fun i => i - k) }

/-- Whether a packet of the VC is still being pushed (R301). -/
def vcBusy (x : Vc) : Bool :=
  match x.pkts.getLast? with
  | some p => decide (0 < p.left)
  | none => false

/-- Replaces the last packet of a VC. -/
def mapLast (f : QPacket → QPacket) : List QPacket → List QPacket
  | [] => []
  | [p] => [f p]
  | p :: t => p :: mapLast f t

/-- Starts a packet on a VC that no packet occupies: a drop-capable VC without credits for all of it drops it whole (R303),
else as many words as credits allow are stored (R302). The status says which. -/
def startPacket (q v port : Nat) (bytes : Bytes) (marks : List Nat) (s : State) : State × Nat :=
  let need := wordsOf bytes.length
  let free := freeCredits s q v
  if fbit s .QUE_VC_CFG_drop_capable q v ∧ free < need then
    (raiseCounting 68 (4 * q + v) [(2, q), (1, v)] (fbump .QUE_VC_STAT_drops 1 s q v), 8)
  else
    let p : QPacket := { len := bytes.length, left := need, rest := bytes, port := port, marks := marks }
    let x := vcAt s q v
    (putVc q v { x with pkts := x.pkts ++ [p.take free] } s, 0)

/-- A transaction that has escalated among those that wait: behind those that escalated before it, ahead of the rest (R313,
R316). -/
def putUrgent (p : Push) (l : List Push) : List Push :=
  l.filter (fun x => x.urgent) ++ p :: l.filter (fun x => !x.urgent)

/-- Counts a refusal of a waiting push; one refused 16 times is granted before every requester that is not (R313, R316). -/
def refuseWaiting (q v port : Nat) (s : State) : State :=
  let x := vcAt s q v
  match x.wait.find? (fun p => p.port == port) with
  | none => s
  | some p =>
    let n := p.refused + 1
    if n = 16 then
      let up := { p with refused := n, urgent := true }
      let s1 := putVc q v { x with wait := putUrgent up (x.wait.filter (fun y => y.port != port)) } s
      raise 70 [(4, 3), (4, port), (1, 0)] (fbump .QUE_ESC_escalations 1 s1 q)
    else putVc q v { x with wait := x.wait.map (fun y => if y.port = port then { y with refused := n } else y) } s

/-- A push by producer port `port` of queue `q`, some of its words marked: refused for its length, dropped, waiting for its
turn, or started (R302 to R304). The second component is the status: OK 0, BAD_LENGTH 2, DROPPED 8. -/
def pushMarked (q port : Nat) (bytes : Bytes) (marks : List Nat) (s : State) : State × Nat :=
  match (tget? s.ques q).bind (fun x => x.ports[port]?) with
  | none => (s, 0)
  | some (v, _) =>
    if bytes.length = 0 ∨ fget s .QUE_VC_CFG_max_bytes q v < bytes.length then
      (raiseLimited 69 q 1 [(2, q), (1, v), (1, port), (2, bytes.length)]
        (fbump .QUE_DROPREC_bad_length 1 s q), 2)
    else
      let x := vcAt s q v
      if x.wait.any (fun p => p.port == port) then (refuseWaiting q v port s, 0)
      else if vcBusy x || !x.wait.isEmpty then
        (putVc q v { x with wait := x.wait ++ [{ port := port, bytes := bytes, marks := marks }] } s, 0)
      else startPacket q v port bytes marks s

/-- A push of sound words. -/
def pushPacket (q port : Nat) (bytes : Bytes) (s : State) : State × Nat := pushMarked q port bytes [] s

/-- The lane that a producer port of a queue belongs to, where its producer is a cluster (R324). -/
def portLane (s : State) (q port : Nat) : Option Nat :=
  match (tget? s.ques q).bind (fun x => x.ports[port]?) with
  | none => none
  | some (_, e) =>
    if fget s .QUE_CFG_producer q < 8 then some (16 * fget s .QUE_CFG_producer q + e / 16 % 16) else none

/-- The status of a push that waited for its turn, in the register that its QPUSH names (R98, R383). -/
def pushResult (q port status : Nat) (s : State) : State :=
  match portLane s q port with
  | none => s
  | some l =>
    let x := tget s.lanes l {}
    match x.pushReg with
    | none => s
    | some d =>
      let core := if d = 0 then x.core else { x.core with s := tset x.core.s d (BitVec.ofNat 32 status) }
      { s with lanes := tset s.lanes l { x with core := core, pushReg := none } }

/-- Starts the packets that wait for a VC, oldest first, until one is still being pushed. -/
def grantWaiting : Nat → Nat → Nat → State → State
  | 0, _, _, s => s
  | n + 1, q, v, s =>
    let x := vcAt s q v
    if vcBusy x then s
    else match x.wait with
      | [] => s
      | p :: t =>
        let r := startPacket q v p.port p.bytes p.marks (putVc q v { x with wait := t } s)
        grantWaiting n q v (pushResult q p.port r.2 r.1)

/-- Stores one waiting word of the packet being pushed, once a credit of its VC is free (R302). -/
def pushWord (q v : Nat) (s : State) : State :=
  let x := vcAt s q v
  if vcBusy x && decide (0 < fget s .QUE_VC_CFG_credits q v -
      x.pkts.foldl (fun n p => n + p.words.length) 0) then
    let x1 := { x with pkts := mapLast (fun p => p.take 1) x.pkts }
    grantWaiting (x1.wait.length + 1) q v (putVc q v x1 s)
  else s

/-- Fills the packet being pushed with poisoned words, as its credits allow: its producer cannot finish it (R300, R309). -/
def truncatePacket (q v : Nat) (s : State) : State :=
  let x := vcAt s q v
  match x.pkts.getLast? with
  | none => s
  | some p =>
    if p.left = 0 ∨ p.filled ≠ 0 then s
    else
      let free := freeCredits s q v
      let x1 := { x with pkts := mapLast (fun p =>
        { p with rest := [], marks := List.range p.left, filled := p.left }.take free) x.pkts }
      let s1 := raise 71 [(2, q), (1, v), (4, p.left)] (fbump .QUE_DROPREC_drop_records 1 (putVc q v x1 s) q)
      grantWaiting (x1.wait.length + 1) q v s1

/-- The check bits of a popped word: what was stored, made worse by what the row reports. -/
def worse (e : Ecc) (check : Nat) : Ecc :=
  match e with
  | .uncorrectable => .uncorrectable
  | .correctable => if check = 2 then .uncorrectable else .correctable
  | .ok => if check = 2 then .uncorrectable else if check = 1 then .correctable else .ok

/-- The counters and events of one popped word's check bits (R309, R310). -/
def countEcc (q : Nat) (e : Ecc) (s : State) : State :=
  match e with
  | .ok => s
  | .correctable =>
    raiseCounting 66 q [(2, q)] (corrected (fbump .QUE_ECC_TOTAL_corrected 1 (fbump .QUE_ECC_corrected 1 s q)))
  | .uncorrectable => fbump .QUE_ECC_TOTAL_uncorrected 1 (fbump .QUE_ECC_uncorrected 1 s q)

/-- The consumer island of a queue. -/
def queConsumer (s : State) (q : Nat) : Nat := fget s .QUE_CFG_consumer q

/-- The lane and input port a queue delivers to, when its consumer is a cluster (R324, Table 6). -/
def queLane (s : State) (q : Nat) : Option (Nat × Nat) :=
  match tget? s.ques q with
  | none => none
  | some x =>
    if queConsumer s q < 8 then some (16 * queConsumer s q + x.consumer / 16 % 16, x.consumer % 8) else none

/-- The receive area of a lane input port. -/
def areaAt (s : State) (lane port : Nat) : RxArea := tget s.areas (8 * lane + port) {}
/-- A state with a receive area replaced. -/
def putArea (lane port : Nat) (x : RxArea) (s : State) : State := { s with areas := tset s.areas (8 * lane + port) x }

/-- The offset at which an area takes a packet of `len` bytes: the next one, or 0 where the packet would pass the end
(R308). -/
def placeIn (x : RxArea) (len : Nat) : Nat := if x.len < x.next + (len + 15) / 16 * 16 then 0 else x.next

/-- Whether an area has room for eight bytes at an offset: none of the packets that `used` lists covers them (R308). -/
def areaSpan (used : List (Nat × Nat)) (off : Nat) : Bool :=
  used.all (fun u => decide (u.1 + (u.2 + 15) / 16 * 16 ≤ off ∨ off + 8 ≤ u.1))

/-- Whether a packet of `len` bytes at an offset stays clear of packets with these offsets and lengths. -/
def clearOf (packets : List (Nat × Nat)) (off len : Nat) : Bool :=
  packets.all (fun u => decide (u.1 + (u.2 + 15) / 16 * 16 ≤ off ∨ off + len ≤ u.1))

/-- The head packet of a VC with its place in the receive area of the lane's port that it goes to, and the area with it: none
where the area has no room for the packet's next word, which then stays in the VC. A packet takes no place that one still being
popped needs, so that neither waits for the other (R308, R312). -/
def takePlace (x : RxArea) (popping : List (Nat × Nat)) (p : QPacket) : Option (RxArea × QPacket) :=
  match p.off with
  | some off => if areaSpan (x.used.erase (off, p.len)) (off + p.got.length) then some (x, p) else none
  | none =>
    let off := placeIn x p.len
    let size := (p.len + 15) / 16 * 16
    if size ≤ x.len ∧ areaSpan x.used off = true ∧ clearOf popping off size = true then
      some ({ x with next := off + size, used := x.used ++ [(off, p.len)] }, { p with off := some off })
    else none

/-- The packets of a queue that its consumer has popped in part, with their places in the receive area (R308). -/
def poppingOf (s : State) (q : Nat) : List (Nat × Nat) :=
  (List.range 4).filterMap (fun v => ((vcAt s q v).pkts.head?).bind (fun p => p.off.map (fun o => (o, p.len))))

/-- The notice word of a packet in a receive area (R307, Table 4). -/
def noticeWord (drop : Bool) (v len off : Nat) : BitVec 32 :=
  BitVec.ofNat 32 (2 ^ 31 + (if drop then 2 ^ 30 else 0) + v % 4 * 2 ^ 28 + len % 2 ^ 15 * 2 ^ 13 + off / 16 % 2 ^ 13)

/-- What becomes of the packet whose last word was popped: a drop record or its bytes, in its place; a packet its producer
also abandoned is one drop record (R301, R309, R316). -/
def finishPop (q v : Nat) (p : QPacket) (s : State) : State :=
  let x := vcAt s q v
  let cut := decide (0 < p.filled)
  let s1 := putVc q v { x with
    pkts := x.pkts.drop 1, done := x.done ++ [(p.got.take p.len, p.bad || cut, p.len, p.off.getD 0)] } s
  if p.bad then raise 67 [(2, q), (1, v), (2, p.len)] (if cut then s1 else fbump .QUE_DROPREC_drop_records 1 s1 q)
  else s1

/-- The head packet of a VC and the state with its place taken, where its consumer can take its next word (R308). -/
def readyPacket (q v : Nat) (s : State) : Option (QPacket × State) :=
  match (vcAt s q v).pkts with
  | [] => none
  | p :: _ =>
    if p.words.isEmpty then none
    else match queLane s q with
      | none => some (p, s)
      | some (lane, port) => (takePlace (areaAt s lane port) (poppingOf s q) p).map (fun r => (r.2, putArea lane port r.1 s))

/-- The consumer pops the word at the head of a VC and frees its credit; the delivery engine of a lane's port pops only what
its area has room for (R306, R308, R309, R310). -/
def popWord (q v check : Nat) (s : State) : State :=
  match readyPacket q v s with
  | none => s
  | some (p, s0) =>
    let x := vcAt s0 q v
    match p.words with
    | [] => s
    | (w, e) :: ws =>
      let e1 := if p.words.length + p.left ≤ p.filled then Ecc.ok else worse e check
      let p1 := { p with words := ws, got := p.got ++ toLe 8 w.toNat, bad := p.bad || e1 == Ecc.uncorrectable }
      let s1 := countEcc q e1 (putVc q v { x with pkts := p1 :: x.pkts.drop 1, stalled := false } s0)
      if ws.isEmpty && p1.left == 0 then finishPop q v p1 s1 else s1

/-- The VC of a queue whose popped packets wait, lowest first. -/
def firstDone (s : State) (q : Nat) : Option Nat := (List.range 4).find? (fun v => !(vcAt s q v).done.isEmpty)

/-- The delivery engine of a lane input port writes the oldest packet its queue has popped at its place in the receive area
(R308). -/
def deliver (lane port : Nat) (s : State) : State :=
  match s.ques.find? (fun p => queLane s p.1 == some (lane, port)) with
  | none => s
  | some (q, _) => match firstDone s q with
    | none => s
    | some v => match (vcAt s q v).done with
      | [] => s
      | (bytes, drop, len, off) :: t =>
        let x := areaAt s lane port
        let s1 := putVc q v { vcAt s q v with done := t } s
        let s2 := putArea lane port { x with ready := x.ready ++ [noticeWord drop v len off] } s1
        if drop then s2 else storeBytes (laneBase lane + x.base + off) bytes s2

/-- A VC posts one notice to its consumer: a lane's input port gets the notice word; an island takes the packet, or acts
on the drop record in its place. It belongs to the first tick that begins after it (R24, R307, R393). -/
def postNotice (q v : Nat) (s : State) : State :=
  match queLane s q with
  | some (lane, port) =>
    let x := areaAt s lane port
    let mine := fun (n : BitVec 32) => n.toNat / 2 ^ 28 % 4 == v
    (match x.ready.find? mine with
    | none => s
    | some n => putArea lane port { x with ready := x.ready.erase n, noted := x.noted ++ [(n, tickNow s + 1)] } s)
  | none =>
    let x := vcAt s q v
    match x.done with
    | [] => s
    | (bytes, drop, _) :: t =>
      let s1 := putVc q v { x with done := t, last := some (bytes, drop, tickNow s + 1) } s
      if drop then fbump .ERR_CLASS_contained 1 s1 else s1

/-- A VC has held a word at its head for longer than the threshold (R315); on a VC that is not drop-capable this is fatal
cause STALL (R402). -/
def stallVc (q v : Nat) (s : State) : State :=
  let x := vcAt s q v
  match x.pkts with
  | [] => s
  | p :: _ =>
    if x.stalled || p.words.isEmpty then s
    else
      let s1 := putVc q v { x with stalled := true } s
      let s2 := fset .QUE_STALL_stalled_vc v (fset .QUE_STALL_stalled_queue q s1)
      let s3 := raise 72 [(2, q), (1, v), (1, fget s .QUE_CFG_producer q), (1, queConsumer s q)] s2
      if fbit s .QUE_VC_CFG_drop_capable q v then s3 else fatal 3 72 s3

/-- The queue and producer port that a lane's output port is bound to (R98, R324). -/
def lanePort (s : State) (lane port : Nat) : Option (Nat × Nat) :=
  s.ques.findSome? (fun p =>
    if fget s .QUE_CFG_producer p.1 = lane / 16 then
      (List.range p.2.ports.length).findSome? (fun k =>
        match p.2.ports[k]? with
        | some (_, e) => if e / 16 % 16 = lane % 16 ∧ e % 8 = port then some (p.1, k) else none
        | none => none)
    else none)

/-- Whether a producer port still has a push in progress or waiting. -/
def pushing (s : State) (q port : Nat) : Bool :=
  match (tget? s.ques q).bind (fun x => x.ports[port]?) with
  | none => false
  | some (v, _) =>
    let x := vcAt s q v
    x.wait.any (fun p => p.port == port) ||
      x.pkts.any (fun p => p.port == port && decide (0 < p.left) && p.filled == 0)

/-- Whether a producer port waits for its turn to start a packet (R304). -/
def pushWaits (s : State) (q port : Nat) : Bool :=
  match (tget? s.ques q).bind (fun x => x.ports[port]?) with
  | none => false
  | some (v, _) => (vcAt s q v).wait.any (fun p => p.port == port)

/-- Whether a lane stalls in a QPUSH (R98, R302). -/
def laneStalled (s : State) (lane : Nat) : Bool :=
  (List.range 8).any (fun p => match lanePort s lane p with
    | some (q, k) => pushing s q k
    | none => false)

/-- Truncates a producer port's push in progress and forgets its waiting one (R309). -/
def abandonPush (q port : Nat) (s : State) : State :=
  match (tget? s.ques q).bind (fun x => x.ports[port]?) with
  | none => s
  | some (v, _) =>
    let x := vcAt s q v
    let s1 := putVc q v { x with wait := x.wait.filter (fun p => p.port != port) } s
    if x.pkts.any (fun p => p.port == port && decide (0 < p.left) && p.filled == 0) then truncatePacket q v s1 else s1

/-- A producer port's packet that has just started and that its producer cannot finish: the queue fills it with poisoned words
from its first one on (R309, R368; log entry 26). -/
def cutStarted (q port : Nat) (s : State) : State :=
  match (tget? s.ques q).bind (fun x => x.ports[port]?) with
  | none => s
  | some (v, _) =>
    let x := vcAt s q v
    let s1 := putVc q v { x with wait := x.wait.filter (fun p => p.port != port) } s
    match x.pkts.getLast? with
    | none => s1
    | some p =>
      if p.port ≠ port then s1
      else
        let n := p.words.length + p.left
        let cut := fun (p : QPacket) => { p with
          words := packWords p.words.length (List.range p.words.length) [], rest := [], marks := List.range p.left, filled := n }
        let s2 := putVc q v { vcAt s1 q v with pkts := mapLast (fun p => (cut p).take (freeCredits s q v)) x.pkts } s1
        raise 71 [(2, q), (1, v), (4, n)] (fbump .QUE_DROPREC_drop_records 1 s2 q)

/-- Abandons every push a lane has in progress (R309). -/
def abandonLane (lane : Nat) (s : State) : State :=
  (List.range 8).foldl (fun s p => match lanePort s lane p with
    | some (q, k) => abandonPush q k s
    | none => s) s

/-- Pops and discards as drop records every packet that a queue holds, counting those that are none yet (R309, R311). -/
def discardQueue (q : Nat) (s : State) : State :=
  (List.range 4).foldl (fun s v =>
    let x := vcAt s q v
    let n := (x.pkts.filter (fun p => p.filled == 0)).length + (x.done.filter (fun d => !d.2.1)).length
    fbump .QUE_DROPREC_drop_records n (putVc q v { x with pkts := [], done := [], stalled := false } s) q) s

/-- QUEUE_PUSH_START (R302, R303, R304). -/
def execQueuePushStart (queue : Fin 512) (port : Nat) (bytes : Bytes) (s : State) : Host.Outcome State Fault Refusal :=
  .next (pushPacket queue port bytes s).1
/-- QUEUE_PUSH_WORD (R302). -/
def execQueuePushWord (queue : Fin 512) (vc : Fin 4) (s : State) : Host.Outcome State Fault Refusal :=
  .next (pushWord queue vc s)
/-- QUEUE_POP (R306, R309, R310); `check` says what the popped word's check bits report: 0 sound, 1 correctable, 2
uncorrectable. -/
def execQueuePop (queue : Fin 512) (vc : Fin 4) (check : BitVec 2) (s : State) : Host.Outcome State Fault Refusal :=
  .next (popWord queue vc check.toNat s)
/-- DELIVERY_WRITE (R308). -/
def execDeliveryWrite (lane : Fin 128) (port : Fin 8) (s : State) : Host.Outcome State Fault Refusal :=
  .next (deliver lane port s)
/-- QUE_STALL (R315, R402). -/
def execQueStall (queue : Fin 512) (vc : Fin 4) (s : State) : Host.Outcome State Fault Refusal :=
  .next (stallVc queue vc s)

end Sys2Proof.Machine
end

