-- ==== Sys2Proof/Machine/Flags.lean ====
section
/-! DEFINITION. The lanes' registers as State holds them, the sticky flags (R71 to R73, R87). -/

namespace Sys2Proof.Machine

/-- A lane. -/
def laneAt (s : State) (l : Nat) : Lane := tget s.lanes l {}
/-- A state with a lane replaced. -/
def putLane (l : Nat) (x : Lane) (s : State) : State := { s with lanes := tset s.lanes l x }
/-- Whether a lane runs a tick (R105): RUNNING or OVERRUN. -/
def Lane.runs (x : Lane) : Bool := x.st == .running || x.st == .overrun
/-- The event source `k` of a lane's cluster: 112 + 4c + k (R410). -/
def laneEvent (l k : Nat) : Nat := 112 + 4 * (l / 16) + k

/-- Lands the vector results due by an issued-word number, oldest first, so that of two in one word the later issued
remains (R97). -/
def landUpTo (n : Nat) (c : LaneCore) : LaneCore :=
  { c with
    v := (c.flight.filter (fun f => decide (f.due ≤ n))).foldl (fun v f => tset v f.reg f.val) c.v
    flight := c.flight.filter (fun f => decide (n < f.due)) }

/-- Lands every vector result in flight, in the order in which they land. -/
def landAll (c : LaneCore) : LaneCore :=
  (List.range 16).foldl (fun c k => landUpTo (c.issued + k) c) c

/-- Undoes the bytes a word's stores replaced, newest first, and the poison marks they removed (R81). -/
def undoStores (c : WordCtx) (s : State) : State :=
  { s with
    mem := c.undo.foldl (fun m p => Memory.write m p.1 p.2) s.mem
    poison := c.undoPoison.foldl markPoison s.poison }

/-- Sets one LAN_ARITH flag: event ARITH_FLAG when it changes from 0 to 1 with its enable set (R73). -/
def setArith (l : Nat) (flag en : Fld) (code pc : Nat) (s : State) : State :=
  if fbit s flag l then s
  else
    let s1 := fset flag 1 s l
    if fbit s1 en l then raise (laneEvent l 2) [(1, l), (1, code), (2, pc)] s1 else s1

/-- Sets the LAN_ARITH flags that a word raised, acc_ovf, sat, nan_seen; the record names them 0, 1 and 2, codes that R73 does
not give (log entry 26). -/
def commitArith (l : Nat) (flags : BitVec 3) (pc : Nat) (s : State) : State :=
  let s1 := if flags.getLsbD 0 then setArith l .LAN_ARITH_acc_ovf .LAN_ARITH_acc_ovf_en 0 pc s else s
  let s2 := if flags.getLsbD 1 then setArith l .LAN_ARITH_sat .LAN_ARITH_sat_en 1 pc s1 else s1
  if flags.getLsbD 2 then setArith l .LAN_ARITH_nan_seen .LAN_ARITH_nan_seen_en 2 pc s2 else s2

/-- Sets LAN_AGEN.circ_fold for a fold of an address register: event ADDR_FOLD when it changes from 0 to 1 with its enable
set (R87). -/
def setFold (l areg pc : Nat) (s : State) : State :=
  if fbit s .LAN_AGEN_circ_fold l then s
  else
    let s1 := fset .LAN_AGEN_circ_fold 1 s l
    if fbit s1 .LAN_AGEN_circ_fold_en l then raise (laneEvent l 3) [(1, l), (4, areg), (2, pc)] s1 else s1

end Sys2Proof.Machine
end

