-- ==== Sys2Proof/Machine/Params.lean ====
section
/-! DEFINITION. Flow keys (R29, R30) and the parameters of legs and channels: their owners, ranges, defaults (R47, R53,
R126, R158, R188, R221, R269), and the cost they give a channel (R34). -/

namespace Sys2Proof.Machine

/-! ### Flow keys (R29) -/

/-- A byte of a key. -/
def keyByte (k : Bytes) (i : Nat) : Nat := (k.getD i 0).toNat
/-- The leg kind of a key: 1 TDM, 2 RTP, 3 trunk, 0 none. -/
def keyKind (k : Bytes) : Nat :=
  let t := keyByte k 0
  if t = 1 then 1 else if t = 2 ∨ t = 3 then 2 else if t = 4 then 3 else 0
/-- The bytes of a key that its type defines (R29, Table 2). -/
def keyFields (k : Bytes) : Bytes :=
  let t := keyByte k 0
  k.take (if t = 2 then 16 else if t = 3 then 40 else 4)
/-- Whether two keys are equal (R30). -/
def keyEq (a b : Bytes) : Bool := keyFields a == keyFields b
/-- Local and remote UDP port of an RTP key, network byte order. -/
def keyPorts (k : Bytes) : Nat × Nat :=
  if keyByte k 0 = 2 then (beAt k 12 2, beAt k 14 2) else (beAt k 36 2, beAt k 38 2)
/-- The slots of a highway at its group's rate (R255). -/
def slotCount (s : State) (h : Nat) : Nat := 32 * 2 ^ fget s .TDM_GRP_CTRL_rate (h / 8)
/-- The logical slot number of a TDM key: 128 h + s. -/
def keySlot (k : Bytes) : Nat := 128 * keyByte k 1 + leAt k 2 2
/-- The peer and trunk channel of a trunk key. -/
def keyTrunk (k : Bytes) : Nat × Nat := (keyByte k 1, leAt k 2 2)
/-- Whether a key's type and fields lie in Tables 1 and 2 (R29). -/
def keyOk (s : State) (k : Bytes) : Bool :=
  let t := keyByte k 0
  if t = 1 then decide (keyByte k 1 < 32) && decide (leAt k 2 2 < slotCount s (keyByte k 1))
  else if t = 2 ∨ t = 3 then
    let v := leAt k 2 2
    decide (keyByte k 1 < 2) && (decide (v ≤ 4094) || v == 0xFFFF) &&
      decide (0 < (keyPorts k).1) && decide (0 < (keyPorts k).2)
  else if t = 4 then decide (keyByte k 1 < 64) && decide (leAt k 2 2 < 8192)
  else false

/-! ### Codecs (R132 to R134) -/

/-- Default bit rate of a codec (R158). -/
def codecRate (c : Nat) : Nat := [0, 64000, 64000, 64000, 32000, 8000, 12200, 12650, 24000].getD c 0
/-- Static payload type of a codec, or 96 (R132, R158). -/
def codecPt (c : Nat) : Nat := if c = 1 then 0 else if c = 2 then 8 else if c = 3 then 9 else if c = 5 then 18 else 96
/-- RTP clock of a codec in units per tick (R132). -/
def codecClock (c : Nat) : Nat := if c = 7 then 16 else if c = 8 then 48 else 8
/-- Whether a codec's standard defines a VAD (R136). -/
def codecVad (c : Nat) : Bool := decide (5 ≤ c)
/-- Whether a bit rate is listed for a codec (R132, R134). -/
def rateOk (c r : Nat) : Bool :=
  if c ≤ 3 then r == 64000
  else if c = 4 then [16000, 24000, 32000, 40000].contains r
  else if c = 5 then r == 8000
  else if c = 6 then [4750, 5150, 5900, 6700, 7400, 7950, 10200, 12200].contains r
  else if c = 7 then [6600, 8850, 12650, 14250, 15850, 18250, 19850, 23050, 23850].contains r
  else decide (6000 ≤ r) && decide (r ≤ 64000) && r % 1000 == 0
/-- Whether a packet time is listed for a codec (R132). -/
def ptimeOk (c t : Nat) : Bool :=
  if c ≤ 5 then decide (10 ≤ t) && decide (t ≤ 60) && t % 10 == 0
  else decide (20 ≤ t) && decide (t ≤ 60) && t % 20 == 0
/-- Media covered by a frame of a codec in ticks, on a trunk leg or an RTP leg (R132, R133). -/
def frameMs (trunk : Bool) (c : Nat) : Nat := if 6 ≤ c then 20 else if c = 5 then 10 else if trunk then 1 else 10

/-! ### Parameters (R53, Table 8) -/

/-- The codec of an entry's parameters. -/
def codecOf (p : Tab Word) : Nat := (tget p 0x0301 1).toNat

/-- A signed default or bound as its 32-bit value. -/
def neg32 (n : Nat) : Nat := 2 ^ 32 - n

/-- The default of a parameter of an entry with a key and a codec (R47, R126, R158, R188, R221, R269). -/
def paramDefault (k : Bytes) (codec id : Nat) : Nat :=
  if 0x0200 ≤ id ∧ id < 0x0212 then
    [0, 1, 512, 4, 1, 512, 192, neg32 45, 6, 60, 2, 18, neg32 45, 1, 32, 2000, 0, 0].getD (id - 0x0200) 0
  else if id = 0x0302 then codecRate codec
  else if id = 0x0304 then codecPt codec
  else if id = 0x0308 then (if (keyPorts k).1 = 65535 ∨ (keyPorts k).2 = 65535 then 0 else 1)
  else if 0x0301 ≤ id ∧ id ≤ 0x031A then
    [0, 1, 0, 20, 0, 101, 0, 0, 0, 5000, 16, 1, 0x61, neg32 30, 0x408, 0, 0, 1, 1, 0, 60, 0, 5000, 0, neg32 10,
     100 + 100 * 2 ^ 14, 0].getD (id - 0x0300) 0
  else if 0x0401 ≤ id ∧ id ≤ 0x0408 then
    [0, 1, 40, 10, 400, 4, 1000, neg32 50, 4].getD (id - 0x0400) 0
  else 0

/-- A parameter in force: the value supplied last, or the default. -/
def param (k : Bytes) (p : Tab Word) (id : Nat) : Nat :=
  match tget? p id with
  | some w => w.toNat
  | none => paramDefault k (codecOf p) id

/-- Whether an ID names a parameter (R47, R53, R126, R158, R188, R221, R269). -/
def paramKnown (id : Nat) : Bool :=
  id == 0x0101 || (decide (0x0201 ≤ id) && decide (id ≤ 0x0211)) || (decide (0x0301 ≤ id) && decide (id ≤ 0x031A)) ||
  (decide (0x0401 ≤ id) && decide (id ≤ 0x0408)) || id == 0x0501 || id == 0x0502 || id == 0x0601 || id == 0x0602

/-- Whether a parameter is accepted on an entry of a leg kind. -/
def paramFits (kind id : Nat) : Bool :=
  if [0x0301, 0x0302, 0x0307, 0x030A, 0x030B].contains id || (decide (0x0401 ≤ id) && decide (id ≤ 0x0408)) then
    kind == 2 || kind == 3
  else if [0x0303, 0x0304, 0x0305, 0x0306, 0x0308, 0x0309, 0x0313].contains id then kind == 2
  else if id == 0x0501 || id == 0x0502 then kind == 3
  else if id == 0x0601 || id == 0x0602 then kind == 1
  else true

/-- Whether a value lies in a range of naturals. -/
def inNat (lo hi v : Nat) : Bool := decide (lo ≤ v) && decide (v ≤ hi)
/-- Whether a 32-bit value, signed, lies in a range. -/
def inInt (lo hi : Int) (v : Nat) : Bool := decide (lo ≤ asSigned 32 v) && decide (asSigned 32 v ≤ hi)

/-- Whether the entry's own leg has an audio rate of 16 kHz or above (R158). -/
def wideLeg (k : Bytes) (p : Tab Word) : Bool :=
  keyKind k != 1 && (codecOf p == 3 || codecOf p == 7 || (codecOf p == 8 && decide (16 ≤ param k p 0x030A)))

/-- Whether a leg's codec runs above 8 kHz: what makes its channel's audio and canceller run at 16 kHz (R108, R137). -/
def above8k (k : Bytes) (p : Tab Word) : Bool :=
  keyKind k != 1 && (codecOf p == 3 || codecOf p == 7 || (codecOf p == 8 && decide (8 < param k p 0x030A)))

/-- Whether a generator frequency is 0 or within its limits (R158). -/
def freqOk (wide : Bool) (f : Nat) : Bool := f == 0 || inNat 200 (if wide then 7000 else 3400) f

/-- Whether a tone code is one that Table 6 does not reserve (R149). -/
def toneCodeOk (c : Nat) : Bool := decide (c ≤ 0x4C) && c != 0x2F && c != 0x3F || c == 0x50

/-- Whether a value of a parameter lies in its range, the entry's other parameters being `p` as the command leaves them
(R126, R158, R188, R221, R269). -/
def paramOk (k : Bytes) (p : Tab Word) (id v : Nat) : Bool :=
  let codec := codecOf p
  match id with
  | 0x0101 => decide (v ≤ 1)
  | 0x0201 | 0x0204 | 0x0210 | 0x0211 => decide (v ≤ 1)
  | 0x0202 => inNat 16 512 v
  | 0x0203 => inNat 1 4 v
  | 0x0205 => decide (v ≤ 1024)
  | 0x0206 => decide (v ≤ 255)
  | 0x0207 => inInt (-60) (-30) v
  | 0x0208 => decide (v ≤ 12)
  | 0x0209 => decide (v ≤ 500)
  | 0x020A | 0x020D => decide (v ≤ 2)
  | 0x020B => inNat 6 40 v
  | 0x020C => inInt (-70) (-30) v
  | 0x020E => inNat 8 1000 v
  | 0x020F => inNat 100 10000 v
  | 0x0301 => inNat 1 8 v
  | 0x0302 => rateOk codec v
  | 0x0303 => ptimeOk codec v
  | 0x0304 => decide (v ≤ 127)
  | 0x0305 | 0x0313 => v == 0 || inNat 96 127 v
  | 0x0306 => true
  | 0x0307 => decide (v ≤ 1) && (v == 0 || codecVad codec)
  | 0x0308 => decide (v ≤ 1) && !(v == 1 && ((keyPorts k).1 == 65535 || (keyPorts k).2 == 65535))
  | 0x0309 => inNat 500 60000 v
  | 0x030A => [8, 12, 16, 24].contains v
  | 0x030B => decide (v ≤ 2)
  | 0x030C => decide (v < 128) && !(bitsOf v 1 1 == 1 && bitsOf v 2 2 == 1)
  | 0x030D => inInt (-45) (-20) v
  | 0x030E => decide (v < 65536) && decide (bitsOf v 7 0 ≤ 12) && decide (bitsOf v 15 8 ≤ 12)
  | 0x030F => decide (v ≤ 15)
  | 0x0310 | 0x0311 | 0x0315 => decide (v ≤ 1)
  | 0x0312 => inNat 1 2 v
  | 0x0314 => inNat 20 400 v
  | 0x0316 => inNat 1000 60000 v
  | 0x0317 => freqOk (wideLeg k p) (v % 65536) && freqOk (wideLeg k p) (v / 65536)
  | 0x0318 => inInt (-40) 0 v
  | 0x0319 => decide (v < 2 ^ 28) && decide (bitsOf v 13 0 ≤ 10000) && decide (bitsOf v 27 14 ≤ 10000)
  | 0x031A => decide (v < 65536) && toneCodeOk (v % 256)
  | 0x0401 => decide (v ≤ 1)
  | 0x0402 | 0x0403 | 0x0404 => inNat 10 2000 v
  | 0x0405 => decide (v ≤ 100)
  | 0x0406 => inNat 200 10000 v
  | 0x0407 => inInt (-70) (-30) v
  | 0x0408 => decide (v ≤ 4)
  | 0x0501 => v == 0 || inNat 100 10000 v
  | 0x0502 => true
  | 0x0601 | 0x0602 => inInt (-120) 120 v
  | _ => false

/-- Parameters that act as commands: their stored value returns to 0 (R126, R158). -/
def paramActs (id : Nat) : Bool := id == 0x0211 || id == 0x031A

/-- Parameters with entries written, in order. -/
def putParams (p : Tab Word) (new : List (Nat × Word)) : Tab Word :=
  new.foldl (fun p e => if paramActs e.1 then p else tset p e.1 e.2) p

/-- The parameters of an entry after a command supplies some: a change of codec returns rate, payload_type and ptime_ms to
the new codec's defaults, and vad to 0 where the new codec has none, unless supplied (R158); a key with a UDP port of
65,535 sets rtcp to 0 (R144). -/
def mergeParams (k : Bytes) (old : Tab Word) (new : List (Nat × Word)) : Tab Word :=
  let p := putParams old new
  let given := fun id => new.any (fun e => e.1 == id)
  let drop := fun (p : Tab Word) id => if given id then p else tdel p id
  let p1 := if codecOf p = codecOf old then p
    else
      let p2 := drop (drop (drop p 0x0302) 0x0303) 0x0304
      if !codecVad (codecOf p) && !given 0x0307 then tdel p2 0x0307 else p2
  if !given 0x0308 && keyKind k == 2 && ((keyPorts k).1 == 65535 || (keyPorts k).2 == 65535) then tset p1 0x0308 0 else p1

/-- Whether every supplied value fits its entry and its range, and the playout bounds keep their order (R53, R188). -/
def paramsOk (k : Bytes) (p : Tab Word) (new : List (Nat × Word)) : Bool :=
  new.all (fun e => paramKnown e.1 && paramFits (keyKind k) e.1 && paramOk k p e.1 e.2.toNat) &&
  (keyKind k == 1 || (decide (param k p 0x0403 ≤ param k p 0x0402) && decide (param k p 0x0402 ≤ param k p 0x0404)))

/-- Whether no two parameter entries share an ID and a leg byte (R53). -/
def noRepeat : List (Nat × Nat × Word) → Bool
  | [] => true
  | (id, leg, _) :: t => !t.any (fun e => e.1 == id && e.2.1 == leg) && noRepeat t

/-- The parameter entries of a payload, 8 bytes each: ID, leg, value (R53). -/
def parseParams : Nat → Bytes → List (Nat × Nat × Word)
  | 0, _ => []
  | n + 1, b => (leAt b 0 2, leAt b 2 1, BitVec.ofNat 32 (leAt b 4 4)) :: parseParams n (b.drop 8)

/-- The entries of one leg. -/
def ofLeg (l : Nat) (ps : List (Nat × Nat × Word)) : List (Nat × Word) :=
  (ps.filter (fun e => e.2.1 == l)).map (fun e => (e.1, e.2.2))

/-! ### Cost (R34) -/

/-- The LU of a leg's codec (Table 7 of the architecture chapter, R34). -/
def codecLu (k : Bytes) (p : Tab Word) : Nat :=
  let c := codecOf p
  if c ≤ 2 then 16 else if c = 3 then 36 else if c = 4 then 20 else if c = 5 then 28 else if c = 6 then 30
  else if c = 7 then 52 else if param k p 0x030A = 24 then 88 else 64

/-- The row of that table a codec stands in: µ-law and A-law share one (R34). -/
def codecRow (p : Tab Word) : Nat := if codecOf p = 2 then 1 else codecOf p

/-- The cost of a channel of two legs (R34). -/
def costOf (ka : Bytes) (pa : Tab Word) (kb : Bytes) (pb : Tab Word) : Nat :=
  if keyKind ka = 1 then codecLu kb pb
  else if keyKind kb = 1 then codecLu ka pa
  else if codecRow pa = codecRow pb then max (codecLu ka pa) (codecLu kb pb)
  else codecLu ka pa + codecLu kb pb - 4

/-- Whether two leg kinds form a shape (R23). -/
def shapeOk (ka kb : Bytes) : Bool :=
  let a := keyKind ka
  let b := keyKind kb
  (a == 2 || b == 2) || (a == 1 && b == 3) || (a == 3 && b == 1)

/-- Whether the keep flag may stand on a channel: TDM - RTP with G.711 on the RTP leg (R47). -/
def keepOk (ka : Bytes) (pa : Tab Word) (kb : Bytes) (pb : Tab Word) : Bool :=
  (keyKind ka == 1 && keyKind kb == 2 && decide (codecOf pb ≤ 2)) ||
  (keyKind kb == 1 && keyKind ka == 2 && decide (codecOf pa ≤ 2))

end Sys2Proof.Machine
end

