-- ==== Sys2Proof/Machine/HostOps.lean ====
section
/-! DEFINITION. The command queue as the mast controller works it: taking a command, its checks before execution, its
completion in submission order (R378, R379, R403). -/

namespace Sys2Proof.Machine

/-! ### Descriptors (R378, Table 6) -/

/-- The opcode of a descriptor. -/
def cmdOp (d : Bytes) : Nat := leAt d 0 1
/-- Whether the timed flag is set. -/
def cmdTimed (d : Bytes) : Bool := leAt d 1 1 % 2 == 1
/-- The payload of a descriptor. -/
def cmdPayload (d : Bytes) : Bytes := slice d 24 (leAt d 2 2)
/-- The action time in ns of corrected time. -/
def cmdTime (d : Bytes) : Nat := leAt d 8 6 * 1000000000 + leAt d 16 4
/-- Whether an opcode accepts an action time: CHAN_MODIFY, PAIR_SWITCH and PLAN_RUN (R378, R290). -/
def timedOp (op : Nat) : Bool := op == 0x23 || op == 0x40 || op == 0x50
/-- Whether a command's flags and action time are well formed (R378). -/
def cmdForm (d : Bytes) : Bool :=
  decide (leAt d 1 1 < 2) && (!cmdTimed d || timedOp (cmdOp d)) && decide (leAt d 16 4 < 1000000000)
/-- Whether an opcode names no command (R379, Table 8; R439, R461). -/
def cmdReserved (op : Nat) : Bool :=
  !((decide (0x20 ≤ op) && decide (op ≤ 0x27)) || op == 0x30 || (decide (0x40 ≤ op) && decide (op ≤ 0x43)) ||
    (decide (0x50 ≤ op) && decide (op ≤ 0x54)))

/-! ### Completions (R379) -/

/-- A completion record: the header of 16 bytes, then the data. -/
def cplRecord (d : Bytes) (seq status : Nat) (data : Bytes) : Bytes :=
  slice d 0 2 ++ toLe 2 data.length ++ slice d 4 4 ++ toLe 2 status ++ zeros 2 ++ toLe 4 seq ++ data

/-- The records of the leading commands that are complete, and the commands that remain: completions come in submission
order (R54, R379). -/
def doneFront : List Cmd → List Bytes × List Cmd
  | [] => ([], [])
  | c :: t => match c.done with
    | none => ([], c :: t)
    | some r => let p := doneFront t; (r :: p.1, p.2)

/-- Posts the completions that no earlier command holds back; during a mast island reset they wait (R387, R403). -/
def postReady (s : State) : State :=
  let p := doneFront s.host.cmds
  if s.mast.down then s
  else noteIbi { s with host := { s.host with cmds := p.2, cpls := s.host.cpls ++ p.1 } }

/-- The command with a sequence number that is queued or executing. -/
def cmdAt (s : State) (seq : Nat) : Option Cmd := s.host.cmds.find? (fun c => c.seq == seq)

/-- Completes a command with a status and its data (R379). -/
def complete (seq status : Nat) (data : Bytes) (s : State) : State :=
  let f := fun (c : Cmd) =>
    if c.seq = seq ∧ c.done.isNone then { c with taken := true, done := some (cplRecord c.desc seq status data) } else c
  postReady { s with host := { s.host with cmds := s.host.cmds.map f } }

/-- Takes a command from the queue into the journal: it executes, and completes later (R403). -/
def takeCmd (seq : Nat) (s : State) : State :=
  { s with host := { s.host with cmds := s.host.cmds.map (fun c => if c.seq = seq then { c with taken := true } else c) } }

/-- The next command the mast controller executes, while its firmware runs (R379). -/
def nextCmd (s : State) : Option Cmd :=
  if s.mast.fw && !s.mast.down then s.host.cmds.find? (fun c => !c.taken) else none

/-- The completion data that holds none values throughout, by the opcode's range (R54, R379, R381, R439, R461): in the ageing
range no reef cluster and no monitored margin. -/
def noneData (op : Nat) : Bytes :=
  if 0x20 ≤ op ∧ op < 0x30 then
    List.replicate 11 0xFF ++ [0] ++ zeros 12
  else if op = 0x30 then zeros 8
  else if 0x40 ≤ op ∧ op < 0x50 then zeros 16
  else if 0x50 ≤ op ∧ op < 0x60 then zeros 10 ++ [0xFF, 0, 0, 0x80, 0, 0]
  else []

/-- Completes the leading commands of reserved opcodes with BAD_OPCODE (R379). -/
def refuseReserved : Nat → State → State
  | 0, s => s
  | n + 1, s => match nextCmd s with
    | some c => if cmdReserved (cmdOp c.desc) then refuseReserved n (complete c.seq 4 (noneData (cmdOp c.desc)) s) else s
    | none => s

/-- Runs the next command if it has the opcode: `body` gives the state after it, or none where the command waits. Commands
of reserved opcodes behind it complete at once. -/
def runCmd (op : Nat) (body : Cmd → State → Option State) (s : State) : State :=
  match nextCmd s with
  | some c =>
    if cmdOp c.desc = op then
      match body c (takeCmd c.seq s) with
      | some t => refuseReserved t.host.cmds.length t
      | none => s
    else s
  | none => s

/-- Whether the device is the standby of a pair (R428). -/
def isStandby (s : State) : Bool := s.pair.role == .standby
/-- Whether channel commands complete with STANDBY (R49, R428). -/
def refusesChannels (s : State) : Bool := s.pair.role == .standby || s.pair.role == .listening

end Sys2Proof.Machine
end

