-- ==== Sys2Proof/Machine/Frames.lean ====
section
/-! DEFINITION. Ethernet frames, their IP and UDP parts, the image's address records, and the egress queues (R229, R233,
R237 to R241, R244, R278, R284, R326 to R328). -/

namespace Sys2Proof.Machine

/-! ### Records of the running image (R326 to R330) -/

/-- The bytes of the running image's spar of a device type. -/
def sparData (s : State) (type : Nat) : Bytes :=
  match s.rig.spars.find? (fun p => p.type == type) with
  | some p => p.data
  | none => []
/-- Buffers and buffer size in bytes of a ring: port, direction (0 receive, 1 transmit), queue (R326). -/
def ringOf (s : State) (port dir queue : Nat) : Nat × Nat :=
  let d := sparData s 7
  match (List.range 36).find? (fun i =>
    leAt d (16 + 16 * i) 1 == port && leAt d (17 + 16 * i) 1 == dir && leAt d (18 + 16 * i) 1 == queue) with
  | some i => (leAt d (20 + 16 * i) 2, 256 * leAt d (22 + 16 * i) 1)
  | none => (0, 256)
/-- The address record of a port, 3 for the event collector (R327). -/
def identRec (s : State) (port : Nat) : Bytes := slice (sparData s 8) (32 * port) 32
/-- The frame template of a peer (R328). -/
def peerRec (s : State) (p : Nat) : Bytes := slice (sparData s 9) (64 * p) 64

/-! ### Frame fields -/

/-- Whether a frame carries a C-tag. -/
def frameTagged (f : Bytes) : Bool := beAt f 12 2 == 0x8100
/-- Offset of a frame's payload after any tag. -/
def frameOff (f : Bytes) : Nat := if frameTagged f then 18 else 14
/-- EtherType after any tag. -/
def frameEt (f : Bytes) : Nat := beAt f (frameOff f - 2) 2
/-- Tag control field; 0 for an untagged frame. -/
def frameTci (f : Bytes) : Nat := if frameTagged f then beAt f 14 2 else 0
/-- The VLAN of a frame as a flow key holds it: its VID, or 0xFFFF untagged (R29). -/
def frameVlan (f : Bytes) : Nat := if frameTagged f then frameTci f % 4096 else 0xFFFF

/-- The sum of 16-bit big-endian words, the last padded with zero. -/
def sum16 : Bytes → Nat
  | [] => 0
  | [a] => a.toNat * 256
  | a :: b :: t => a.toNat * 256 + b.toNat + sum16 t
/-- A sum folded to 16 bits with end-around carry. -/
def fold16 (n : Nat) : Nat :=
  let a := n % 65536 + n / 65536
  let b := a % 65536 + a / 65536
  b % 65536 + b / 65536
/-- The Internet checksum of a run of bytes. -/
def inetSum (b : Bytes) : Nat := 0xFFFF - fold16 (sum16 b)

/-- The IP packet of a frame that passes the IP checks of R233: version 6, source, destination, IP payload. -/
def ipOf (f : Bytes) : Option (Bool × Bytes × Bytes × Bytes) :=
  let p := f.drop (frameOff f)
  if frameEt f = 0x0800 then
    let ihl := leAt p 0 1 % 16 * 4
    let total := beAt p 2 2
    if leAt p 0 1 / 16 = 4 ∧ 20 ≤ ihl ∧ ihl ≤ total ∧ total ≤ p.length ∧ fold16 (sum16 (p.take ihl)) = 0xFFFF ∧
        beAt p 6 2 % 0x4000 = 0 ∧ leAt p 9 1 = 17 then
      some (false, slice p 12 4, slice p 16 4, (p.take total).drop ihl)
    else none
  else if frameEt f = 0x86DD then
    if leAt p 0 1 / 16 = 6 ∧ 40 + beAt p 4 2 ≤ p.length ∧ leAt p 6 1 = 17 then
      some (true, slice p 8 16, slice p 24 16, slice p 40 (beAt p 4 2))
    else none
  else none

/-- The checksum of a UDP datagram with its pseudo-header. -/
def udpSum (src dst u : Bytes) : Nat := inetSum (src ++ dst ++ toBe 2 17 ++ toBe 2 u.length ++ u)

/-- The UDP datagram of a frame that passes the checks of R233: version 6, source, destination, source port, destination
port, payload. -/
def udpOf (f : Bytes) : Option (Bool × Bytes × Bytes × Nat × Nat × Bytes) :=
  match ipOf f with
  | none => none
  | some (v6, src, dst, ip) =>
    let n := beAt ip 4 2
    let u := ip.take n
    let ck := beAt u 6 2
    if 8 ≤ n ∧ n ≤ ip.length ∧ ((ck = 0 ∧ !v6) ∨ (ck ≠ 0 ∧ udpSum src dst u = 0)) then
      some (v6, src, dst, beAt u 0 2, beAt u 2 2, u.drop 8)
    else none

/-- A frame header: addresses, tag control field (0xFFFF untagged), EtherType. -/
def ethHead (dst src : Bytes) (tci et : Nat) : Bytes :=
  dst ++ src ++ (if tci = 0xFFFF then [] else toBe 2 0x8100 ++ toBe 2 tci) ++ toBe 2 et

/-- A UDP datagram with its checksum, a computed 0 sent as all ones. -/
def udpBytes (src dst : Bytes) (sport dport : Nat) (data : Bytes) : Bytes :=
  let head := toBe 2 sport ++ toBe 2 dport ++ toBe 2 (8 + data.length)
  let c := udpSum src dst (head ++ toBe 2 0 ++ data)
  head ++ toBe 2 (if c = 0 then 0xFFFF else c) ++ data

/-- An IP packet; the fields that the specification does not give (traffic class, identification, flow label, hop limit)
are free bytes of a draw (log entry 51). -/
def ipBytes (draw : Nat) (v6 : Bool) (proto : Nat) (src dst data : Bytes) : Bytes :=
  let x := fun i => (Config.freeByte draw i).toNat
  if v6 then
    toBe 2 (0x6000 + x 0 % 256 * 16 + x 1 % 16) ++ toBe 2 (x 2 * 256 + x 3) ++ toBe 2 data.length ++
      toBe 1 proto ++ toBe 1 (x 4) ++ src ++ dst ++ data
  else
    let a := toBe 1 0x45 ++ toBe 1 (x 0) ++ toBe 2 (20 + data.length) ++ toBe 2 (x 1 * 256 + x 2) ++ toBe 2 0 ++
      toBe 1 (x 3) ++ toBe 1 proto
    a ++ toBe 2 (inetSum (a ++ toBe 2 0 ++ src ++ dst)) ++ src ++ dst ++ data

/-- A frame carrying a UDP datagram. -/
def udpFrame (draw : Nat) (dmac smac : Bytes) (tci : Nat) (v6 : Bool) (src dst : Bytes) (sport dport : Nat)
    (data : Bytes) : Bytes :=
  ethHead dmac smac tci (if v6 then 0x86DD else 0x0800) ++ ipBytes draw v6 17 src dst (udpBytes src dst sport dport data)

/-! ### Ports -/

/-- A trunk port. -/
def portAt (s : State) (p : Nat) : Port := tget s.ports p {}
/-- A state with a trunk port replaced. -/
def putPort (p : Nat) (x : Port) (s : State) : State := { s with ports := tset s.ports p x }
/-- The address of a trunk port, or of SVC for port 2. -/
def portMac (s : State) (p : Nat) : Bytes :=
  if p < 2 then toBe 2 (fget s .TMC_ADDR_HI_addr_hi p) ++ toBe 4 (fget s .TMC_ADDR_LO_addr_lo p)
  else toBe 2 (fget s .SVC_ADDR_HI_addr_hi) ++ toBe 4 (fget s .SVC_ADDR_LO_addr_lo)
/-- Whether the device owns the halyard: an unpaired device does from the first boundary after RUNNING (R238, R267, R413). -/
def ownsHalyard (s : State) : Bool := s.pair.owner
/-- Buffers a frame of `n` stored bytes takes in a ring (R235). -/
def buffersFor (n size : Nat) : Nat := (n + size - 1) / size

/-! ### Egress (R237 to R241, R244) -/

/-- The egress queue of a source in force on a port: bundles by peer, queue 0 as tx_queue resets until a change takes effect, the
others by TMC_TX_MAP (R237, Table 5). -/
def txQueue (s : State) (port source peer : Nat) : Nat :=
  let p := portAt s port
  let m := p.map.toNat
  if source = 0 then tget p.peerQ peer 0
  else if source = 1 then bitsOf m 2 0
  else if source = 2 then bitsOf m 5 3
  else if source = 3 then bitsOf m 11 9
  else bitsOf m 8 6

/-- Buffers that the frames of an egress ring take. -/
def txUsed (size : Nat) (l : List TxFrame) : Nat :=
  l.foldl (fun n f => if f.tick = 0 then n + buffersFor f.bytes.length size else n) 0

/-- A frame pushed to an egress queue, or discarded at a full ring (R237). A frame that waits for an acknowledged copy is
not in the ring yet (R404). -/
def pushTx (port q : Nat) (f : TxFrame) (s : State) : State :=
  let r := ringOf s port 1 q
  let p := portAt s port
  let l := tget p.tx q []
  if f.tick ≠ 0 ∨ txUsed r.2 l + buffersFor f.bytes.length r.2 ≤ r.1 then
    putPort port { p with tx := tset p.tx q (l ++ [f]) } s
  else fbump .TMC_TXQ_DROP_full 1 s port q

/-- The frames of one queue whose copy is acknowledged up to a tick enter the ring (R404). -/
def releaseTx (port q n : Nat) (s : State) : State :=
  let p := portAt s port
  let l := tget p.tx q []
  let due := l.filter (fun f => f.tick != 0 && decide (f.tick ≤ n))
  let rest := l.filter (fun f => f.tick == 0 || decide (n < f.tick))
  if due.isEmpty then s
  else due.foldl (fun s f => pushTx port q { f with tick := 0 } s)
    (putPort port { p with tx := tset p.tx q rest } s)

/-- Every queue's frames whose copy is acknowledged up to a tick (R404). -/
def releaseAll (n : Nat) (s : State) : State :=
  [0, 1].foldl (fun s p => (List.range 8).foldl (fun s q => releaseTx p q n s) s) s

/-- Entries of a gate list as open segments of one cycle: length in ns and gates. Empty entries are skipped, the last holds
to the cycle's end, the list is cut there (R240). -/
def gateSegs : Nat → List (Nat × Nat) → List (Nat × Nat)
  | _, [] => []
  | left, (g, n) :: t =>
    if n = 0 then gateSegs left t
    else if left ≤ n ∨ t.all (fun e => e.2 == 0) then [(left, g)]
    else (n, g) :: gateSegs (left - n) t

/-- The segments from an offset into them. -/
def dropSegs : Nat → List (Nat × Nat) → List (Nat × Nat)
  | _, [] => []
  | x, (d, g) :: t => if x < d then (d - x, g) :: t else dropSegs (x - d) t

/-- How long queue `q`'s gate stays open from the start of a run of segments. -/
def openRun (q : Nat) : List (Nat × Nat) → Nat
  | [] => 0
  | (d, g) :: t => if g.testBit q then d + openRun q t else 0

/-- The offset of corrected time in a list's cycle, in ns (R291). -/
def gateOffset (l : GateList) (t : Nat) : Nat := (((t : Int) - (l.base : Int)) % (l.cycle : Int)).toNat

/-- The gates of a list at a corrected time in ns; all open where it holds nothing (R240, R291). -/
def gatesAt (l : GateList) (t : Nat) : Nat :=
  match dropSegs (gateOffset l t) (gateSegs l.cycle l.entries) with
  | (_, g) :: _ => if l.cycle = 0 then 255 else g
  | [] => 255

/-- The list that gates a port, if any gates it (R240). -/
def gating (s : State) (port : Nat) : Option GateList :=
  if fbit s .TMC_GATE_CTRL_enable port then
    match (portAt s port).oper with
    | some l => if l.cycle = 0 ∨ l.entries.isEmpty then none else some l
    | none => none
  else none

/-- Corrected time in ns. -/
def nowNs (s : State) : Nat := correctedTime s.time / 65536

/-- Length on the line of a frame of `n` bytes without FCS: preamble, padding, FCS (R229, R241). -/
def lineBytes (n : Nat) : Nat := 8 + max 60 n + 4
/-- Hundredths of a ns that a byte takes on a trunk port's line. -/
def byteTime (s : State) (port : Nat) : Nat := if fbit s .TMC_CTRL_speed port then 32 else 80

/-- Whether a frame ends before its queue's gate next closes (R241). -/
def fitsNow (s : State) (port q n : Nat) : Bool :=
  match gating s port with
  | none => true
  | some l =>
    let segs := gateSegs l.cycle l.entries
    if segs.all (fun e => e.2.testBit q) then true
    else decide (lineBytes n * byteTime s port <
      100 * openRun q (dropSegs (gateOffset l (nowNs s)) segs ++ segs))

/-- Whether a frame fits within some open interval of its queue in a whole cycle (R241). -/
def fitsEver (s : State) (port q n : Nat) : Bool :=
  match gating s port with
  | none => true
  | some l =>
    let segs := gateSegs l.cycle l.entries
    if segs.all (fun e => e.2.testBit q) then true
    else (List.range segs.length).any (fun i =>
      decide (lineBytes n * byteTime s port < 100 * openRun q (segs.drop i ++ segs)))

/-- Whether queue `q`'s gate is open. -/
def gateOpen (s : State) (port q : Nat) : Bool :=
  match gating s port with
  | none => true
  | some _ => (portAt s port).gate.getLsbD q

/-- The first frame of a queue that is in its ring. -/
def txHead (s : State) (port q : Nat) : Option TxFrame := (tget (portAt s port).tx q []).find? (fun f => f.tick == 0)
/-- A queue's frames with the first that is in the ring removed. -/
def dropHead : List TxFrame → List TxFrame
  | [] => []
  | f :: t => if f.tick = 0 then t else f :: dropHead t
/-- A state with a queue's head frame removed. -/
def popTx (port q : Nat) (s : State) : State :=
  let p := portAt s port
  putPort port { p with tx := tset p.tx q (dropHead (tget p.tx q [])) } s

/-- What becomes of a head frame: 0 it stays, 1 it starts, 2 link down, 3 not owner, 4 too long, 5 fits no interval. -/
def headFate (s : State) (port q : Nat) : Nat :=
  match txHead s port q with
  | none => 0
  | some f =>
    let p := portAt s port
    if !p.link then 2
    else if f.voice && !ownsHalyard s then 3
    else if fget s .TMC_CTRL_max_frame port < max 60 f.bytes.length + 4 then 4
    else if !fitsEver s port q f.bytes.length then 5
    else if gateOpen s port q && !p.paused.getLsbD q && fitsNow s port q f.bytes.length then 1
    else 0

/-! ### PTP frames on the line (R278, R283, R284) -/

/-- Offset and bytes before a frame's PTP message: of an Ethernet PTP frame, or of UDP to port 319 or 320 (R230). -/
def ptpOff (f : Bytes) : Option Nat :=
  let o := frameOff f
  let p := f.drop o
  let udp := fun (h : Nat) => if beAt p (h + 2) 2 = 319 ∨ beAt p (h + 2) 2 = 320 then some (o + h + 8) else none
  if frameEt f = 0x88F7 then some o
  else if frameEt f = 0x0800 ∧ leAt p 9 1 = 17 ∧ beAt p 6 2 % 0x4000 = 0 then udp (leAt p 0 1 % 16 * 4)
  else if frameEt f = 0x86DD ∧ leAt p 6 1 = 17 then udp 40
  else none

/-- A run of bytes with some replaced from an offset. -/
def patch (b : Bytes) (a : Nat) (v : Bytes) : Bytes := b.take a ++ v ++ b.drop (a + v.length)

/-- A frame with its UDP checksum written anew, where it has one (R284). -/
def fixUdp (f : Bytes) : Bytes :=
  let o := frameOff f
  let p := f.drop o
  let go := fun (h : Nat) (src dst : Bytes) =>
    let n := beAt p (h + 4) 2
    let u := slice p h n
    let c := udpSum src dst (patch u 6 [0, 0])
    patch f (o + h + 6) (toBe 2 (if c = 0 then 0xFFFF else c))
  if frameEt f = 0x0800 then
    let h := leAt p 0 1 % 16 * 4
    if beAt p (h + 6) 2 = 0 then f else go h (slice p 12 4) (slice p 16 4)
  else if frameEt f = 0x86DD then go 40 (slice p 8 16) (slice p 24 16)
  else f

/-- The adjustment of a port's stamps, 2 and 3 the stay ports, on receive or transmit (R278, R294). -/
def portLat (s : State) (port : Nat) (rx : Bool) : Int :=
  asSigned 16 (if rx then fget s .TIM_PORT_LAT_rx_adj port else fget s .TIM_PORT_LAT_tx_adj port)
/-- The counter with a SerDes clock phase and a port's adjustment, in units of 2^-16 ns (R278). -/
def stampCount (s : State) (adj : Int) (phase : BitVec 16) : Nat :=
  ((s.time.counter.toNat : Int) * 65536 + phase.toNat + adj * 4096).toNat
/-- A stamp of corrected time with a SerDes clock phase and a port's adjustment, in units of 2^-16 ns (R278). -/
def stampTime (s : State) (adj : Int) (phase : BitVec 16) : Nat :=
  (((correctedTime s.time : Int) + phase.toNat + adj * 4096) % ((2 ^ 48 * unitsPerSec : Nat) : Int)).toNat
/-- A timestamp as it goes with a frame to its consumer (R279, Table 2). -/
def stampBytes (t : Nat) : Bytes :=
  toLe 6 (t / unitsPerSec) ++ toLe 4 (t / 65536 % 1000000000) ++ toLe 2 (t % 65536)
/-- The time of a timestamp, in units of 2^-16 ns (R279). -/
def stampValue (b : Bytes) : Nat := (leAt b 0 6 * 1000000000 + leAt b 6 4) * 65536 + leAt b 10 2

/-- A forwarded Sync or Delay_Req with its residence time added to correctionField (R284). -/
def residence (s : State) (port : Nat) (phase : BitVec 16) (from_ : Nat) (f : Bytes) : Bytes :=
  match ptpOff f with
  | none => f
  | some o =>
    if leAt f o 1 % 16 < 2 then
      let d : Int := (stampCount s (portLat s port false) phase : Int) - (from_ : Int)
      let r := d + d * s.time.r.toInt / 1099511627776
      fixUdp (patch f (o + 8) (toBe 8 (ofSigned 64 (asSigned 64 (beAt f (o + 8) 8) + r))))
    else f

/-- A frame as the line carries it: padded to 60 bytes, with its FCS (R229). -/
def onLine (f : Bytes) : Bytes :=
  let p := f ++ zeros (60 - f.length)
  p ++ toLe 4 (crc32 p)

/-- Starts a queue's head frame: it leaves, a PTP frame stamped, a forwarded one corrected; it is on the line until its last
byte (R239, R244, R278, R284). -/
def startFrame (port q : Nat) (phase : BitVec 16) (f : TxFrame) (s : State) : State :=
  let b := match f.from_ with
    | some c => residence s port phase c f.bytes
    | none => f.bytes
  let s1 := popTx port q s
  let s2 := putPort port { portAt s1 port with
    sent := some (onLine b), sentEnd := 100 * s.time.counter.toNat + lineBytes b.length * byteTime s port } s1
  let s3 := fbump .TMC_TX_FRAMES_tx_frames 1 s2 port
  match ptpOff b with
  | none => s3
  | some o =>
    if f.from_.isNone ∧ f.source = 3 ∧ leAt b o 1 % 16 = 1 then
      { s3 with time := { s3.time with t3 := some (beAt b (o + 30) 2, (stampTime s (portLat s port false) phase / 65536 : Nat)) } }
    else s3

/-- A head frame discarded under a rule, its counter advanced (R229, R238, R241, R244). -/
def discardHead (port q fate : Nat) (s : State) : State :=
  let s1 := popTx port q s
  if fate = 2 then fbump .TMC_TX_DROP_link_drops 1 s1 port
  else if fate = 3 then fbump .TMC_TX_DROP_standby 1 s1 port
  else if fate = 4 then fbump .TMC_TXQ_DROP_tx_oversize 1 s1 port q
  else fbump .TMC_PAUSE_BREAK_gate_drops 1 s1 port

/-- One start point of a trunk port's MAC: the head frame of the highest-numbered queue that starts or is discarded (R239).
-/
def transmit (port : Nat) (phase : BitVec 16) (s : State) : State :=
  match [7, 6, 5, 4, 3, 2, 1, 0].find? (fun q => headFate s port q != 0) with
  | none => s
  | some q => match txHead s port q with
    | none => s
    | some f => if headFate s port q = 1 then startFrame port q phase f s else discardHead port q (headFate s port q) s

/-! ### The service port's transmit ring (R246) -/

/-- A frame pushed to SVC's transmit ring; a full ring takes no more. -/
def pushSvc (b : Bytes) (s : State) : State :=
  let r := ringOf s 2 1 0
  if txUsed r.2 s.svc.tx + buffersFor b.length r.2 ≤ r.1 then
    { s with svc := { s.svc with tx := s.svc.tx ++ [{ bytes := b, source := 4 }] } }
  else s

/-- Pushes a frame of the mast controller onto a port: its mast queue, or SVC's ring (R237). -/
def pushMast (port : Nat) (b : Bytes) (s : State) : State :=
  if port < 2 then pushTx port (txQueue s port 4 0) { bytes := b, source := 4, tick := 0 } s else pushSvc b s

end Sys2Proof.Machine
end

