-- ==== Sys2Proof/Machine/StayOps.lean ====
section
/-! DEFINITION. Sending on the stay links and the protection state of the pair (R414, R416, R417, R420, R421, R429). -/

namespace Sys2Proof.Machine

/-- A stay port. -/
def stayAt (s : State) (p : Nat) : StayPort := tget s.stay p {}
/-- A state with a stay port replaced. -/
def putStay (p : Nat) (x : StayPort) (s : State) : State := { s with stay := tset s.stay p x }
/-- The mode of the pair: 0 unpaired, 1 selected mirroring, 2 full shadow (R330). -/
def pairMode (s : State) : Nat := fget s .PAIR_CFG_mode
/-- Whether the device belongs to a four-device ring (R413). -/
def inRing (s : State) : Bool := decide (fget s .PAIR_CFG_ring_pos < 4)
/-- The ring position of the partner. -/
def partnerPos (s : State) : Nat := (fget s .PAIR_CFG_ring_pos).xor 1
/-- Whether a frame type is sequenced (R416, Table 3). -/
def staySequenced (type : Nat) : Bool := decide (3 ≤ type ∧ type ≤ 9)

/-- The route byte of a frame to a ring position; 0 outside a ring (R416). -/
def routeTo (s : State) (pos : Nat) : BitVec 8 :=
  if inRing s then BitVec.ofNat 8 (pos + 4 * fget s .PAIR_CFG_ring_pos) else 0

/-- Frames sent and unacknowledged on a port, in bytes of its 512 KiB buffer (R417). -/
def unackedBytes (x : StayPort) : Nat := x.unacked.foldl (fun n f => n + 20 + f.1.data.length) 0

/-- Whether a port's buffer has no room for a sequenced frame of `n` payload bytes, or others wait for room (R417). -/
def stayFull (x : StayPort) (n : Nat) : Bool := !x.waiting.isEmpty || decide (524288 < unackedBytes x + 20 + n)

/-- A port with a frame on its line: numbered and kept until acknowledged where its type is sequenced (R417). -/
def StayPort.sending (x : StayPort) (f : StayFrame) : StayPort :=
  let g := { f with seq := if staySequenced f.type then x.txSeq else 0, ack := x.rxNext }
  let x1 := if staySequenced f.type then { x with txSeq := x.txSeq + 1, unacked := x.unacked ++ [(g, 1)] } else x
  { x1 with out := x1.out ++ [g] }

/-- Gives a frame to a port: sent, or held back while the buffer is full (R417). A port that is down or in its cut period sends
nothing. -/
def stayGive (port : Nat) (f : StayFrame) (s : State) : State :=
  let x := stayAt s port
  if !x.link || x.cut then s
  else
    let held := staySequenced f.type && stayFull x f.data.length
    let t := putStay port (if held then { x with waiting := x.waiting ++ [f] } else x.sending f) s
    { t with regs := if held then t.regs else (fbump .STY_FRAMES_tx_frames 1 t port).regs }

/-- The frames that a port holds back go on as its buffer has room (R417). -/
def stayFlow (port : Nat) (s : State) : State :=
  let x := stayAt s port
  x.waiting.foldl (fun s f => stayGive port f s) (putStay port { x with waiting := [] } s)

/-- A frame of a type to a ring position from a port, with what it says. -/
def staySay (port type pos : Nat) (data : Bytes) (w : StaySays) (s : State) : State :=
  stayGive port { type := type, route := routeTo s pos, tick := tickNow s, data := data, tells := w } s

/-- A frame of a type to a ring position from a port. -/
def staySendTo (port type pos : Nat) (data : Bytes) (s : State) : State := staySay port type pos data .bytes s

/-- Whether a port carries frames to the partner: the partner link, or in a ring also the long way round (R414). -/
def carriesPartner (s : State) (port : Nat) : Bool :=
  (stayAt s port).hello == 1 || (inRing s && (stayAt s port).hello == 2)

/-- A frame sent to the partner on every path whose HELLO has passed, with what it says (R414, R421). -/
def sayPartner (type : Nat) (data : Bytes) (w : StaySays) (s : State) : State :=
  [0, 1].foldl (fun s p => if carriesPartner s p then staySay p type (partnerPos s) data w s else s) s
/-- A frame sent to the partner on every path whose HELLO has passed (R414, R421). -/
def sendPartner (type : Nat) (data : Bytes) (s : State) : State := sayPartner type data .bytes s

/-- Whether any partner link has passed its HELLO (R419). -/
def partnerLinked (s : State) : Bool := [0, 1].any (fun p => (stayAt s p).hello == 1)

/-- Whether the device is eligible (R420). -/
def eligible (s : State) : Bool :=
  s.pair.role != .unpaired && isRunning s && !s.mast.down && !fbit s .HST_FAULT_error &&
  !fbit s .HST_FAULT_supply && !s.age.reefed && !s.lanes.any (fun l => l.2.selfFail) && !s.pair.held

/-- The number of a role (R428). -/
def Role.code : Role → Nat
  | .unpaired => 0 | .listening => 1 | .active => 2 | .standby => 3

/-- The flags byte of a heartbeat (R421, Table 4). -/
def pairFlags (s : State) : Nat :=
  (if eligible s then 1 else 0) + (if s.pair.owner then 2 else 0) + (if s.pair.yielding then 4 else 0) +
  (if s.age.reefed then 8 else 0) + (if s.pair.held then 16 else 0)

/-- The pair becomes unprotected with a cause: event 253, and what waited for an acknowledged copy is released (R404,
R429, R430). A heartbeat loss outranks a copy timeout of the same tick (R440). -/
def unprotect (cause : Nat) (s : State) : State :=
  let was := s.pair.sync
  let c := if s.pair.cause = 2 ∧ cause = 4 then 2 else cause
  let s1 := { s with pair := { s.pair with sync := 0, cause := c, copyWait := none } }
  let s2 := releaseAll (2 ^ 64) s1
  if was = 2 ∨ s.pair.cause ≠ c then raise 253 [(1, 1), (1, c)] s2 else s2

/-- Whether the active device mirrors: its outputs wait for acknowledged copies (R404, R430). -/
def mirrors (s : State) : Bool := s.pair.role == .active && s.pair.sync == 2

/-- The tick whose copy a voice packet made now waits for; 0 where the device does not mirror (R404). -/
def copyTag (s : State) : Nat := if mirrors s then tickNow s else 0

/-- A frame that a trunk port delivered to a classifier-bound queue, forwarded to the standby in full shadow with its
arrival tick (R24, R416, R431). -/
def forwardFrame (port order : Nat) (b : Bytes) (s : State) : State :=
  if s.pair.role == .active && pairMode s == 2 && partnerLinked s then
    let full := [0, 1].any (fun p => carriesPartner s p && stayFull (stayAt s p) (12 + b.length))
    if full then unprotect 5 s
    else fbump .PAIR_FWD_forwarded 1
      (sendPartner 6 (toLe 8 (tickNow s + 1) ++ toLe 1 port ++ toLe 3 order ++ b) s)
  else s

end Sys2Proof.Machine
end

