-- ==== Sys2Proof/Machine/Ports.lean ====
section
/-! DEFINITION. The Ethernet ports: link, receiving and steering a frame, pause and its watchdog, gate lists, the frames of
the mast controller, the service port (R226 to R249). -/

namespace Sys2Proof.Machine

/-! ### Link (R226) -/

/-- The FEC in use on a trunk port: RS-FEC only at 25 Gbit/s (R226). -/
def fecInUse (s : State) (port : Nat) : Nat :=
  let f := fget s .TMC_CTRL_fec port
  if f = 2 ∧ !fbit s .TMC_CTRL_speed port then 0 else f

/-- A trunk port's link goes down: event 192; a frame in transmission is lost and counted (R226, R244). -/
def dropLink (port : Nat) (s : State) : State :=
  let p := portAt s port
  if p.link then
    let s1 := raise 192 [(1, port)] (putPort port { p with link := false } s)
    if 100 * s.time.counter.toNat < p.sentEnd then
      fbump .TMC_TX_DROP_link_drops 1 (putPort port { p with link := false, sent := none, sentEnd := 0 } s1) port
    else s1
  else s

/-- A trunk port's PCS and FEC lose their locks, and its link goes down. -/
def linkDown (port : Nat) (s : State) : State :=
  dropLink port (fset .TMC_STATUS_block_lock 0 (fset .TMC_STATUS_fec_lock 0 s port) port)

/-- A condition of a trunk port's link fails. -/
def linkFails (port : Nat) (f : LinkFault) (s : State) : State :=
  dropLink port (match f with
    | .blockLock => fset .TMC_STATUS_block_lock 0 s port
    | .highBer => fset .TMC_STATUS_hi_ber 1 s port
    | .fecLock => fset .TMC_STATUS_fec_lock 0 s port)

/-- A trunk port's link comes up, where the port is enabled: event 193. -/
def linkUp (port : Nat) (s : State) : State :=
  let p := portAt s port
  if fbit s .TMC_CTRL_enable port && !p.link then
    let fec := fecInUse s port
    let s1 := fset .TMC_STATUS_hi_ber 0 (fset .TMC_STATUS_block_lock 1 (putPort port { p with link := true } s) port) port
    let s2 := fset .TMC_STATUS_fec_active fec (fset .TMC_STATUS_fec_lock (if fec = 0 then 0 else 1) s1 port) port
    raise 193 [(1, port), (1, fget s .TMC_CTRL_speed port), (1, fec)] s2
  else s

/-- A write of TMC_CTRL that changed enable, speed or fec restarts PCS and FEC, with the FEC that is then in use (R226). -/
def restartPort (port old : Nat) (s : State) : State :=
  let new := regWord s (RegId.addr .TMC_CTRL port)
  if bitsOf old 31 28 = bitsOf new 31 28 then s
  else fset .TMC_STATUS_fec_active (fecInUse s port) (fset .TMC_STATUS_hi_ber 0 (linkDown port s) port) port

/-! ### Steering (R230, R231) -/

/-- Whether filter entry `i` matches a frame on port `n` (R231). -/
def filterMatches (s : State) (n i : Nat) (f : Bytes) : Bool :=
  let tag := fget s .FLT_ENTRY_A_tag i
  let vid := frameTci f % 4096
  let pcp := if frameTagged f then frameTci f / 8192 else fget s .FLT_PORT_default_pcp n
  fbit s .FLT_ENTRY_A_valid i && (fget s .FLT_ENTRY_A_ports i).testBit n &&
  (tag == 0 || (tag == 1 && !frameTagged f) || (tag == 2 && frameTagged f)) &&
  (vid.land (fget s .FLT_ENTRY_B_vid_mask i) == (fget s .FLT_ENTRY_A_vid i).land (fget s .FLT_ENTRY_B_vid_mask i)) &&
  (pcp.land (fget s .FLT_ENTRY_A_pcp_mask i) == (fget s .FLT_ENTRY_A_pcp i).land (fget s .FLT_ENTRY_A_pcp_mask i)) &&
  (!fbit s .FLT_ENTRY_B_et_en i || frameEt f == fget s .FLT_ENTRY_B_ethertype i)

/-- Where a frame on port `n` is steered: queue 0 to 8, or 9 for drop (R230). -/
def steer (s : State) (n : Nat) (f : Bytes) : Nat :=
  if n < 2 ∧ fbit s .FLT_PORT_ptp_en n ∧ (ptpOff f).isSome then 8
  else match (List.range 64).find? (fun i => filterMatches s n i f) with
    | some i => fget s .FLT_ENTRY_A_action i
    | none => fget s .FLT_PORT_default_action n

/-! ### Receiving (R228, R234 to R236, R242) -/

/-- The row whose condition is met at the earliest byte, the first of them in the list where several are. -/
def firstMet : List (Nat × Nat) → Option Nat
  | [] => none
  | (b, r) :: t => match firstMet t with
    | none => some r
    | some r' => if t.any (fun x => decide (x.1 < b)) then some r' else some r

/-- What decides a frame on a port's receiver before its delivery, as bytes and rows of Table 2 in table order; 9 is a drop that
steering decides. `lacks` is the byte of the first ring buffer that is not free (R228, R230, R234, R235, R246). -/
def rxRow (n most : Nat) (address wrong control drops room : Bool) (lacks : Option Nat) : Option Nat :=
  let point := min n 128
  let met := fun (c : Bool) (b r : Nat) => if c then [(b, r)] else []
  firstMet (met address 6 1 ++ met (decide (n < 64)) n 2 ++ met wrong n 3 ++ met (decide (most < n)) (most + 1) 4 ++
    (if control then [] else
      met drops point 9 ++ met (!drops && !room) point 5 ++
        (match lacks with
        | some b => met (!drops) (max point b) 6
        | none => [])))

/-- The byte of a frame at which its ring lacks a buffer, if it does: `free` buffers of `size` bytes are free (R235). -/
def lackByte (n free size : Nat) : Option Nat := if free < buffersFor (n - 4) size then some (free * size + 1) else none

/-- Whether a frame is for another address: neither the port's nor broadcast nor a group (R228, row 1). -/
def otherAddress (s : State) (n : Nat) (b : Bytes) : Bool :=
  decide (6 ≤ b.length) && b.take 6 != portMac s n && leAt b 0 1 % 2 == 0

/-- Whether a frame's FCS is wrong (R228, row 3). -/
def badFcs (b : Bytes) : Bool := toLe 4 (crc32 (b.take (b.length - 4))) != b.drop (b.length - 4)

/-- Egress queues `which` of a port stop for a number of quanta, those in holdoff excepted; 0 ends their pause (R242,
R243). -/
def pauseQueues (port : Nat) (which : Nat → Option Nat) (s : State) : State :=
  let p := portAt s port
  let v := (List.range 8).foldl (fun (v : BitVec 8) q =>
    match which q with
    | none => v
    | some 0 => v &&& ~~~(1#8 <<< q)
    | some _ => if p.holdoff.getLsbD q then v else v ||| (1#8 <<< q)) p.paused
  putPort port { p with paused := v } s

/-- A MAC control frame on a trunk port (R242). -/
def controlFrame (port : Nat) (f : Bytes) (s : State) : State :=
  let o := frameOff f
  let op := beAt f o 2
  let mode := fget s .TMC_CTRL_pause_mode port
  let s1 := if op = 1 ∨ op = 0x0101 then fbump .TMC_CTRL_RX_pause_rx 1 s port else s
  if op = 1 ∧ mode = 1 then pauseQueues port (fun _ => some (beAt f (o + 2) 2)) s1
  else if op = 0x0101 ∧ mode = 2 then
    pauseQueues port (fun q => if (beAt f (o + 2) 2).testBit q then some (beAt f (o + 4 + 2 * q) 2) else none) s1
  else fbump .TMC_CTRL_RX_ctrl_drops 1 s1 port

/-- A frame stored in a receive ring of a trunk port, or discarded by a standby where the classifier serves the ring (R235,
R278, R431). -/
def storeFrame (port q bufs : Nat) (phase : BitVec 16) (f : Bytes) (s : State) : State :=
  let p := portAt s port
  let adj := portLat s port true
  let r : RxFrame := { bytes := f, bufs := bufs, stamp := stampBytes (stampTime s adj phase), count := stampCount s adj phase,
                       order := p.arrivals, tick := tickNow s }
  let s1 := fbump .TMC_RX_FRAMES_rx_frames 1 s port
  let forVoice := fget s .TMC_RXQ_CFG_consumer port q == 0
  if forVoice && isStandby s then
    fbump .PAIR_FWD_local_drops 1 (putPort port { p with arrivals := p.arrivals + 1 } s1)
  else
    let s2 := putPort port { p with
      arrivals := p.arrivals + 1
      staged := if s.cel.retrain.isSome then p.staged + fget s .TMC_CTRL_max_frame port else p.staged
      rx := tset p.rx q (tget p.rx q [] ++ [r]), used := tset p.used q (tget p.used q 0 + bufs) } s1
    if forVoice then forwardFrame port p.arrivals f s2 else s2

/-- The bytes of a frame arrive on a trunk port: the condition met at the earliest byte decides (R228, Table 2). -/
def receiveTrunk (port : Nat) (b : Bytes) (a : Arrival) (s : State) : State :=
  let n := b.length
  let f := b.take (n - 4)
  let max_ := fget s .TMC_CTRL_max_frame port
  let q := steer s port b
  let size := max 1 (256 * fget s .TMC_RXQ_CFG_buf_size port q)
  let free := fget s .TMC_RXQ_CFG_buffers port q - tget (portAt s port).used q 0
  let control := frameEt b == 0x8808
  match rxRow n max_ (otherAddress s port b) (a.error || badFcs b) control (q == 9)
      (decide ((portAt s port).staged + max_ ≤ 262144)) (lackByte n free size) with
  | some 1 => fbump .TMC_RX_ERR2_da_drops 1 s port
  | some 2 => fbump .TMC_RX_ERR1_runts 1 s port
  | some 3 => fbump .TMC_RX_ERR1_fcs_errors 1 s port
  | some 4 => fbump .TMC_RX_ERR2_oversize 1 s port
  | some 5 => raiseLimited 196 (16 * port + q) 1 [(1, port), (1, q)] (fbump .TMC_RXQ_DROP_overflow 1 s port q)
  | some 6 => raiseLimited 195 (16 * port + q) 1 [(1, port), (1, q)] (fbump .TMC_RXQ_DROP_no_buffer 1 s port q)
  | some _ => fbump .FLT_FILTER_DROP_filter_drops 1 s
  | none => if control then controlFrame port f s else storeFrame port q (buffersFor (n - 4) size) a.phase f s

/-! ### The service port's receiver (R246, R249) -/

/-- Whether a magic packet for SVC stands in a frame: six 0xFF, then sixteen copies of its address, after the source
address (R249). -/
def magicIn (mac b : Bytes) : Bool :=
  let want := List.replicate 6 (0xFF : Byte) ++ (List.replicate 16 mac).flatten
  (List.range (b.length + 1)).any (fun i => decide (12 ≤ i) && slice b i 102 == want)

/-- Whether pattern `p` matches a frame (R249). -/
def patternMatches (s : State) (p : Nat) (b : Bytes) : Bool :=
  (List.range 128).all (fun i =>
    if (fget s .SVC_WAKE_MASK_mask p (i / 32)).testBit (i % 32) then
      match b[i]? with
      | some x => x.toNat == bitsOf (fget s .SVC_WAKE_PAT_pattern p (i / 4)) (8 * (i % 4) + 7) (8 * (i % 4))
      | none => false
    else true)

/-- The wake hits of a frame with a correct FCS: hit bits, and event 200 for each while the mast controller runs (R249). -/
def wakeHits (b : Bytes) (s : State) : State :=
  let note := fun (n : Nat) (s : State) => if s.mast.fw && !s.mast.down then raise 200 [(1, n)] s else s
  let s1 := if fbit s .SVC_WAKE_magic_en && magicIn (portMac s 2) b then
      note 0 (fset .SVC_WAKE_magic_hit 1 s) else s
  (List.range 8).foldl (fun s p =>
    if (fget s .SVC_WAKE_pattern_en).testBit p && patternMatches s p b then
      note (p + 1) (fset .SVC_WAKE_pattern_hit ((fget s .SVC_WAKE_pattern_hit).lor (2 ^ p)) s)
    else s) s1

/-- The speed SVC acts at: above 2.75 V on VDDIO_C there is no 1,000 Mbit/s, and 2 acts as 1 (R246, R483). -/
def svcSpeed (s : State) : Nat :=
  let v := fget s .SVC_CTRL_speed
  if v = 2 ∧ 2750000 < tget s.supply.volts 9 0 then 1 else v
/-- Whether SVC acts in full duplex (R246). -/
def svcFull (s : State) : Bool := decide (2 ≤ svcSpeed s) || fbit s .SVC_CTRL_duplex

/-- The bytes of a frame arrive on SVC (R246): the rows of R228 without row 5. -/
def receiveSvc (b : Bytes) (bad : Bool) (s : State) : State :=
  let n := b.length
  let f := b.take (n - 4)
  let max_ := fget s .SVC_CTRL_max_frame
  let wrong := bad || badFcs b
  let s0 := if wrong then s else wakeHits b s
  let ring := ringOf s 2 0 0
  let size := max 1 ring.2
  let need := buffersFor (n - 4) size
  let control := frameEt b == 0x8808
  match rxRow n max_ (otherAddress s0 2 b) wrong control (steer s0 2 b == 9) true (lackByte n (ring.1 - s0.svc.used) size) with
  | some 1 => s0
  | some 2 => fbump .SVC_RX_ERR_runts 1 s0
  | some 3 => fbump .SVC_RX_ERR_fcs_errors 1 s0
  | some 4 => fbump .SVC_RX_ERR_oversize 1 s0
  | some 6 => raiseLimited 195 32 1 [(1, 2), (1, 0)] (fbump .SVC_RX_ERR_no_buffer 1 s0)
  | some _ => fbump .FLT_FILTER_DROP_filter_drops 1 s0
  | none =>
    if control then
      if beAt f (frameOff f) 2 = 1 ∧ fbit s0 .SVC_CTRL_pause_en ∧ svcFull s0 then
        { s0 with svc := { s0.svc with paused := beAt f (frameOff f + 2) 2 != 0 } }
      else s0
    else
      let r : RxFrame := { bytes := f, bufs := need, order := 0, tick := tickNow s0 }
      fbump .SVC_FRAMES_rx_frames 1 { s0 with svc := { s0.svc with rx := s0.svc.rx ++ [r], used := s0.svc.used + need } }

/-- FRAME_RECEIVE (R228, R246): a port that is down or disabled receives nothing. In the wake-only state the detector alone
works (R249, R459). -/
def execFrameReceive (port : Fin 3) (bytes : Bytes) (arrival : Arrival) (s : State) : Host.Outcome State Fault Refusal :=
  .next (if port.val = 2 then
      if s.age.wake.isSome then (if arrival.error || badFcs bytes then s else wakeHits bytes s)
      else if fbit s .SVC_CTRL_enable then receiveSvc bytes arrival.error s else s
    else if (portAt s port).link then receiveTrunk port bytes arrival s else s)

/-! ### Pause timers and the watchdog (R242, R243) -/

/-- PAUSE_EXPIRE (R242): a queue's quanta have run out; SVC, port 2, has one transmitter. -/
def execPauseExpire (port : Fin 3) (queue : Fin 8) (s : State) : Host.Outcome State Fault Refusal :=
  .next (if port.val = 2 then { s with svc := { s.svc with paused := false } }
    else pauseQueues port (fun q => if q = queue.val then some 0 else none) s)

/-- PAUSE_WATCHDOG (R243): a queue paused while it holds a frame for pause_wd_ms. -/
def execPauseWatchdog (port : Fin 2) (queue : Fin 8) (s : State) : Host.Outcome State Fault Refusal :=
  let p := portAt s port
  .next (if p.paused.getLsbD queue && (txHead s port queue).isSome then
      let s1 := putPort port { p with paused := p.paused &&& ~~~(1#8 <<< queue.val)
                                      holdoff := p.holdoff ||| (1#8 <<< queue.val) } s
      raise 194 [(1, port), (1, if fget s .TMC_CTRL_pause_mode port = 1 then 8 else queue)]
        (fbump .TMC_PAUSE_BREAK_pause_breaks 1 s1 port)
    else s)

/-- HOLDOFF_END (R243): a queue heeds pause frames again. -/
def execHoldoffEnd (port : Fin 2) (queue : Fin 8) (s : State) : Host.Outcome State Fault Refusal :=
  let p := portAt s port
  .next (putPort port { p with holdoff := p.holdoff &&& ~~~(1#8 <<< queue.val) } s)

/-! ### Gate lists (R240, R291) -/

/-- The administrative list of a port. -/
def adminList (s : State) (port : Nat) : GateList :=
  { entries := (List.range (fget s .TMC_GATE_CTRL_length port)).map (fun i =>
      (fget s .TMC_GATE_LIST_gates port i, fget s .TMC_GATE_LIST_interval_ns port i))
    cycle := fget s .TMC_GATE_CYCLE_cycle_ns port
    base := (fget s .TMC_GATE_BASE_SEC_HI_base_sec_hi port * 2 ^ 32 + fget s .TMC_GATE_BASE_SEC_LO_base_sec_lo port) *
      1000000000 + fget s .TMC_GATE_BASE_NS_base_ns port }

/-- An operational list: the gates are those of its position at corrected time, (T - base) mod cycle_ns (R291). -/
def startGates (port : Nat) (l : GateList) (s : State) : State :=
  let p := portAt s port
  putPort port { p with oper := some l, gate := BitVec.ofNat 8 (gatesAt l (nowNs s)) } s

/-- TMC_GATE_CTRL.apply: the administrative list becomes the pending one. A base time that has passed starts at the next
cycle boundary, or at once with cycle_ns 0, with late set and event 198 (R240, R291). -/
def applyGates (port : Nat) (s : State) : State :=
  let l := adminList s port
  let now := nowNs s
  let p := portAt s port
  if now < l.base then putPort port { p with pending := some l } s
  else
    let start := if l.cycle = 0 then now else l.base + ((now - l.base) / l.cycle + 1) * l.cycle
    let s1 := raise 198 [(1, port), (8, l.base), (8, start)] (fset .TMC_GATE_STATUS_late 1 s port)
    if l.cycle = 0 then startGates port l (putPort port { p with pending := none } s1)
    else putPort port { p with pending := some { l with base := start } } s1

/-- The pending list becomes operational. -/
def gateListStart (port : Nat) (s : State) : State :=
  let p := portAt s port
  match p.pending with
  | none => s
  | some l => startGates port l (putPort port { p with pending := none } s)

/-- Whether the start time of a port's pending list has come (R240). -/
def listDue (s : State) (port : Nat) : Bool := (portAt s port).pending.any (fun l => decide (l.base ≤ nowNs s))

/-- A port's gates where corrected time now stands in its operational list (R291). -/
def moveGates (port : Nat) (s : State) : State :=
  match (portAt s port).oper with
  | some l => startGates port l s
  | none => s

/-- After a step of corrected time: a pending list whose start time it passed is operational, and the gates of an operational
one move with corrected time (R291). -/
def gatesAfterStep (s : State) : State :=
  [0, 1].foldl (fun s p => if listDue s p then gateListStart p s else moveGates p s) s

/-- GATE_LIST_START (R240): the start time of a port's pending list. -/
def execGateListStart (port : Fin 2) (s : State) : Host.Outcome State Fault Refusal :=
  .next (if listDue s port then gateListStart port s else s)

/-- GATE_ENTRY_CHANGE (R240): the gates of the entry that corrected time stands in. -/
def execGateEntryChange (port : Fin 2) (s : State) : Host.Outcome State Fault Refusal := .next (moveGates port s)

/-! ### Egress -/

/-- SVC sends its head frame, in full duplex unless paused, in half duplex unless a backoff runs (R246, R247). -/
def transmitSvc (s : State) : State :=
  match s.svc.tx with
  | [] => s
  | f :: t =>
    if !fbit s .SVC_CTRL_enable || s.svc.paused || s.svc.backoff.isSome then s
    else if fget s .SVC_CTRL_max_frame < max 60 f.bytes.length + 4 then { s with svc := { s.svc with tx := t } }
    else fbump .SVC_FRAMES_tx_frames 1
      { s with svc := { s.svc with tx := t, attempt := 0, sent := some (onLine f.bytes) } }

/-- FRAME_TRANSMIT (R239, R246). -/
def execFrameTransmit (start : TxStart) (s : State) : Host.Outcome State Fault Refusal :=
  .next (if start.port.val = 2 then transmitSvc s else transmit start.port start.phase s)

/-- Whether a queue holds a frame of a source, and of a peer where the source is bundles. -/
def holdsSource (s : State) (port q source peer : Nat) : Bool :=
  (tget (portAt s port).tx q []).any (fun f => f.source == source && (source != 0 || f.peer == peer))

/-- One source's queue changes once the old queue holds no frame of it (R237). -/
def moveSource (port source lo : Nat) (s : State) : State :=
  let p := portAt s port
  let old := bitsOf p.map.toNat (lo + 2) lo
  let new := bitsOf (regWord s (RegId.addr .TMC_TX_MAP port)) (lo + 2) lo
  if old = new ∨ holdsSource s port old source 0 then s
  else putPort port { p with map := BitVec.ofNat 12 (setBits p.map.toNat (lo + 2) lo new) } s

/-- One peer's queue changes once the old queue holds no bundle to it (R237). -/
def movePeer (port peer : Nat) (s : State) : State :=
  let p := portAt s port
  let old := txQueue s port 0 peer
  let new := fget s .BND_PEER_CTRL_tx_queue peer
  if old = new ∨ holdsSource s port old 0 peer then s else putPort port { p with peerQ := tset p.peerQ peer new } s

/-- TX_MAP_CHANGE (R237): at a boundary, the queues of Table 5 that may change do. -/
def execTxMapChange (port : Fin 2) (s : State) : Host.Outcome State Fault Refusal :=
  let s1 := moveSource port 1 0 (moveSource port 2 3 (moveSource port 4 6 (moveSource port 3 9 s)))
  .next ((List.range 64).foldl (fun s k => movePeer port k s) s1)

/-! ### Half duplex (R247) -/

/-- Excess or late collisions: event 199 at most once in a window. -/
def collisionLimit (late : Nat) (s : State) : State := raiseLimited 199 0 1 [(1, late)] s

/-- SVC_COLLISION (R247): the attempt at the head frame collides, within the first 512 bit times or later. -/
def execSvcCollision (late : Bool) (s : State) : Host.Outcome State Fault Refusal :=
  .next (match s.svc.tx with
    | [] => s
    | _ :: t =>
      if svcFull s then s
      else
        let s1 := fbump .SVC_COLL_collisions 1 s
        let drop := { s1 with svc := { s1.svc with tx := t, attempt := 0, backoff := none } }
        let n := s.svc.attempt + 1
        if late then collisionLimit 1 (fbump .SVC_COLL_late 1 drop)
        else if 16 ≤ n then collisionLimit 0 (fbump .SVC_COLL_excess 1 drop)
        else draw { s1 with svc := { s1.svc with
          attempt := n, backoff := some ((Config.freeWord s.free).toNat % 2 ^ min n 10) } })

/-- SVC_BACKOFF_END (R247). -/
def execSvcBackoffEnd (s : State) : Host.Outcome State Fault Refusal :=
  .next { s with svc := { s.svc with backoff := none } }

/-! ### MDIO (R248) -/

/-- Whether an operation of SVC_MDIO_CMD carries data to the PHY: a write of Clause 22; an address or a write of Clause 45. -/
def mdioGives (op : Nat) (c45 : Bool) : Bool := op == 1 || (c45 && op == 0)

/-- The management frame that SVC_MDIO_CMD forms: 32 ones, the start 01 of Clause 22 or 00 of Clause 45, the operation, the two
addresses, and data where the operation carries them (R248; IEEE 802.3). -/
def mdioFrame (s : State) : MdioFrame :=
  let op := fget s .SVC_MDIO_CMD_op
  let c45 := fbit s .SVC_MDIO_CMD_clause45
  let start := if c45 then 0 else 1
  let bits := (((0xFFFFFFFF * 4 + start) * 4 + op) * 32 + fget s .SVC_MDIO_CMD_phy) * 32 + fget s .SVC_MDIO_CMD_reg
  { head := BitVec.ofNat 46 bits
    data := if mdioGives op c45 then some (BitVec.ofNat 16 (fget s .SVC_MDIO_CMD_data)) else none }

/-- SVC_MDIO_CMD.start: a management frame begins unless one is in progress. -/
def startMdio (s : State) : State := { s with svc := { s.svc with mdio := true, mdioOut := some (mdioFrame s) } }

/-- MDIO_DONE (R248): the frame ends; a read's result stands in data. The reading operations are 0b10 in Clause 22, 0b10 and
0b11 in Clause 45 (log entry 52). -/
def execMdioDone (data : BitVec 16) (s : State) : Host.Outcome State Fault Refusal :=
  .next (if s.svc.mdio then
      let s1 := { s with svc := { s.svc with mdio := false } }
      let op := fget s .SVC_MDIO_CMD_op
      if op = 2 ∨ (op = 3 ∧ fbit s .SVC_MDIO_CMD_clause45) then fset .SVC_MDIO_CMD_data data.toNat s1 else s1
    else s)

/-! ### Frames for the mast controller (R245) -/

/-- The ARP reply of a port to a request for its IPv4 address. -/
def arpReply (mac ip : Bytes) (tci : Nat) (f : Bytes) : Option Bytes :=
  let p := f.drop (frameOff f)
  if frameEt f = 0x0806 ∧ beAt p 0 2 = 1 ∧ beAt p 2 2 = 0x0800 ∧ beAt p 6 2 = 1 ∧ slice p 24 4 = ip then
    some (ethHead (slice p 8 6) mac tci 0x0806 ++ toBe 2 1 ++ toBe 2 0x0800 ++ [6, 4] ++ toBe 2 2 ++ mac ++ ip ++
      slice p 8 6 ++ slice p 14 4)
  else none

/-- The ICMPv6 checksum over its pseudo-header. -/
def icmp6Sum (src dst d : Bytes) : Nat := inetSum (src ++ dst ++ toBe 4 d.length ++ toBe 4 58 ++ d)

/-- An ICMPv6 message with its checksum in an IPv6 packet of hop limit 255 (log entry 52). -/
def icmp6Packet (src dst d : Bytes) : Bytes :=
  toBe 4 0x60000000 ++ toBe 2 d.length ++ toBe 1 58 ++ toBe 1 255 ++ src ++ dst ++
    patch d 2 (toBe 2 (icmp6Sum src dst (patch d 2 [0, 0])))

/-- The solicited-node group of an IPv6 address. -/
def solicitedNode (ip : Bytes) : Bytes :=
  [0xFF, 2, 0, 0, 0, 0, 0, 0, 0, 0, 0, 1, 0xFF] ++ ip.drop 13

/-- The neighbour advertisement of a port to a solicitation for its IPv6 address, sent to it or to its solicited-node
group. -/
def ndReply (mac ip : Bytes) (tci : Nat) (f : Bytes) : Option Bytes :=
  let p := f.drop (frameOff f)
  let dst := slice p 24 16
  if frameEt f = 0x86DD ∧ leAt p 6 1 = 58 ∧ leAt p 40 1 = 135 ∧ slice p 48 16 = ip ∧
      (dst = ip ∨ dst = solicitedNode ip) then
    some (ethHead (slice f 6 6) mac tci 0x86DD ++
      icmp6Packet ip (slice p 8 16) ([136, 0, 0, 0, 0x60, 0, 0, 0] ++ ip ++ [2, 1] ++ mac))
  else none

/-- The reply to an ICMP echo request for the port's IPv4 address. -/
def echo4Reply (draw : Nat) (mac ip : Bytes) (tci : Nat) (f : Bytes) : Option Bytes :=
  let p := f.drop (frameOff f)
  let h := leAt p 0 1 % 16 * 4
  let n := beAt p 2 2
  let d := (p.take n).drop h
  if frameEt f = 0x0800 ∧ leAt p 9 1 = 1 ∧ slice p 16 4 = ip ∧ leAt d 0 1 = 8 ∧ n ≤ 1500 ∧ h ≤ n ∧ n ≤ p.length then
    let r := patch (patch d 0 [0]) 2 [0, 0]
    some (ethHead (slice f 6 6) mac tci 0x0800 ++ ipBytes draw false 1 ip (slice p 12 4) (patch r 2 (toBe 2 (inetSum r))))
  else none

/-- The reply to an ICMPv6 echo request for the port's IPv6 address. -/
def echo6Reply (mac ip : Bytes) (tci : Nat) (f : Bytes) : Option Bytes :=
  let p := f.drop (frameOff f)
  let n := beAt p 4 2
  let d := slice p 40 n
  if frameEt f = 0x86DD ∧ leAt p 6 1 = 58 ∧ slice p 24 16 = ip ∧ leAt d 0 1 = 128 ∧ n + 40 ≤ 1500 ∧ n + 40 ≤ p.length then
    some (ethHead (slice f 6 6) mac tci 0x86DD ++ icmp6Packet ip (slice p 8 16) (patch d 0 [129]))
  else none

/-- Whether the mast controller answers ARP and neighbour solicitation on a port: not for trunk addresses after ownership is
lost (R425). -/
def answersNames (s : State) (port : Nat) : Bool := decide (port = 2) || ownsHalyard s

/-- The mast controller's answer to a frame, if it has one. -/
def mastAnswer (s : State) (port : Nat) (f : Bytes) : Option Bytes :=
  let rec_ := identRec s port
  let mac := portMac s port
  let tci := beAt rec_ 6 2
  let ip4 := slice rec_ 8 4
  let ip6 := slice rec_ 12 16
  let has4 := leNat ip4 != 0
  let has6 := leNat ip6 != 0
  let a1 := if has4 && answersNames s port then arpReply mac ip4 tci f else none
  let a2 := if has6 && answersNames s port then ndReply mac ip6 tci f else none
  let a3 := if has4 then echo4Reply s.free mac ip4 tci f else none
  let a4 := if has6 then echo6Reply mac ip6 tci f else none
  a1 <|> a2 <|> a3 <|> a4

/-- The oldest frame of a port in the rings that a consumer serves, with its queue (R236). -/
def oldestFor (s : State) (port consumer : Nat) : Option (Nat × RxFrame) :=
  (List.range 9).foldl (fun best q =>
    if fget s .TMC_RXQ_CFG_consumer port q = consumer then
      match (tget (portAt s port).rx q []).head?, best with
      | some f, none => some (q, f)
      | some f, some b => if f.order < b.2.order then some (q, f) else best
      | none, b => b
    else best) (none : Option (Nat × RxFrame))

/-- A trunk port with the head frame of a ring taken and its buffers returned (R235). -/
def takeRx (port q : Nat) (f : RxFrame) (s : State) : State :=
  let p := portAt s port
  putPort port { p with rx := tset p.rx q (tget p.rx q []).tail, used := tset p.used q (tget p.used q 0 - f.bufs) } s

/-- What the mast controller does with a frame: it answers, or drops it (R245). -/
def mastFrame (port : Nat) (f : Bytes) (s : State) : State :=
  match mastAnswer s port f with
  | some r => draw (pushMast port r s)
  | none => fbump .FLT_FILTER_DROP_mast_unhandled 1 s

/-- MAST_FRAME_RECEIVE (R245): the mast controller takes its oldest frame of a port, while its firmware runs. -/
def execMastFrameReceive (port : Fin 3) (s : State) : Host.Outcome State Fault Refusal :=
  .next (if !s.mast.fw || s.mast.down then s
    else if port.val = 2 then
      match s.svc.rx with
      | [] => s
      | f :: t => mastFrame 2 f.bytes { s with svc := { s.svc with rx := t, used := s.svc.used - f.bufs } }
    else match oldestFor s port 1 with
      | none => s
      | some (q, f) => mastFrame port f.bytes (takeRx port q f s))

end Sys2Proof.Machine
end

