-- ==== Sys2Proof/Machine/Channels.lean ====
section
/-! DEFINITION. Channels, their legs and statistics as every part of the device reads them; load of lanes (R17, R32 to R36,
R128, R160, R189). -/

namespace Sys2Proof.Machine

/-- A channel. -/
def chanAt (s : State) (n : Nat) : Channel := tget s.chans n {}
/-- A state with a channel changed, where it exists. -/
def modChan (n : Nat) (f : Channel → Channel) (s : State) : State :=
  match tget? s.chans n with
  | some c => { s with chans := tset s.chans n (f c) }
  | none => s
/-- A session entry. -/
def sessAt (s : State) (h : Nat) : Session := tget s.sess h {}
/-- A state with a session entry changed, where it exists. -/
def modSess (h : Nat) (f : Session → Session) (s : State) : State :=
  match tget? s.sess h with
  | some e => { s with sess := tset s.sess h (f e) }
  | none => s
/-- The handle of a channel's leg: 0 access, 1 partner. -/
def Channel.handle (c : Channel) (l : Nat) : Nat := if l = 0 then c.acc else c.oth
/-- A channel's leg. -/
def Channel.leg (c : Channel) (l : Nat) : Leg := if l = 0 then c.legA else c.legB
/-- A channel with a leg changed. -/
def Channel.withLeg (c : Channel) (l : Nat) (f : Leg → Leg) : Channel :=
  if l = 0 then { c with legA := f c.legA } else { c with legB := f c.legB }
/-- A state with a leg of a channel changed. -/
def modLeg (n l : Nat) (f : Leg → Leg) (s : State) : State := modChan n (fun c => c.withLeg l f) s
/-- A leg of a channel of the state. -/
def legAt (s : State) (n l : Nat) : Leg := (chanAt s n).leg l
/-- The session entry of a channel's leg. -/
def entryAt (s : State) (n l : Nat) : Session := sessAt s ((chanAt s n).handle l)
/-- The leg kind: 1 TDM, 2 RTP, 3 trunk. -/
def kindAt (s : State) (n l : Nat) : Nat := keyKind (entryAt s n l).key
/-- A parameter of a leg's entry. -/
def legParam (s : State) (n l id : Nat) : Nat := param (entryAt s n l).key (entryAt s n l).params id
/-- A channel-scope parameter: from the access entry alone (R33). -/
def chanParam (s : State) (n id : Nat) : Nat := legParam s n 0 id
/-- The codec a leg carries: the configured one, or the law of voiceband data (R155). -/
def legCodec (s : State) (n l : Nat) : Nat :=
  if (chanAt s n).vbd then chanParam s n 0x0312 else codecOf (entryAt s n l).params
/-- The leg of a channel whose entry has a handle. -/
def legOfHandle (c : Channel) (h : Nat) : Nat := if c.acc = h then 0 else 1
/-- The channel of an entry that carries voice: ACTIVE and past its activation boundary. -/
def liveChan (s : State) (h : Nat) : Option Nat :=
  match (sessAt s h).chan with
  | some n => if (chanAt s n).live then some n else none
  | none => none

/-! ### Statistics (R128, R160, R189, R222) -/

/-- What a statistic reads before it is measured. -/
def statDefault (id : Nat) : Nat :=
  if 0x0281 ≤ id ∧ id ≤ 0x0284 then 0x80000000
  else if id = 0x0383 ∨ id = 0x0384 ∨ id = 0x0393 ∨ id = 0x0394 then 0xFFFFFFFF
  else if id = 0x048E ∨ id = 0x049E then 0x80000000
  else 0
/-- A statistic of a channel. -/
def statOf (c : Channel) (id : Nat) : Nat := (tget c.stats id (BitVec.ofNat 32 (statDefault id))).toNat
/-- A state with a statistic set. -/
def statSet (n id v : Nat) (s : State) : State :=
  modChan n (fun c => { c with stats := tset c.stats id (BitVec.ofNat 32 v) }) s
/-- A state with a counter statistic advanced, stopping at all ones (R12). -/
def statBump (n id k : Nat) (s : State) : State :=
  modChan n (fun c => { c with stats := tset c.stats id (BitVec.ofNat 32 (satTo 0xFFFFFFFF (statOf c id + k))) }) s
/-- The first statistic ID of an RTP leg: leg B's on an RTP–RTP channel's partner, else leg A's (R160). -/
def rtpBase (s : State) (n l : Nat) : Nat := if l = 1 ∧ kindAt s n 0 = 2 then 0x0390 else 0x0380
/-- The first statistic ID of a leg's store room (R189). -/
def roomBase (l : Nat) : Nat := 0x0480 + 0x10 * l

/-- Whether the lanes run one tick behind: on the standby of a full shadow, until its channels resume after a gain (R431,
R436). -/
def lagging (s : State) : Bool := fget s .PAIR_CFG_mode == 2 && (isStandby s || s.pair.resume.isSome)
/-- The tick whose work the lanes do (R431). -/
def workTick (s : State) : Nat := if lagging s then tickNow s - 1 else tickNow s
/-- Whether the work of that tick can be done: a lane that lags needs the decisions copied for it (R431, R436). -/
def workReady (s : State) : Bool := !lagging s || decide (workTick s ≤ s.pair.copyTick)
/-- The arrival tick of what the classifier handles: the tick after the one it came in, whose work is the first to handle
it; a forwarded frame's is the one recorded for it (R24, R168, R431). -/
def arrivalTick (s : State) : Nat := s.pair.fwdTick.getD (tickNow s + 1)

/-- An action at a boundary whose notices belong to the tick that begins there (R24): on the standby of a full shadow, to
the tick whose work its lanes do. -/
def atBoundary (f : State → State) (s : State) : State :=
  let t := f { s with pair := { s.pair with fwdTick := some (workTick s) } }
  { t with pair := { t.pair with fwdTick := s.pair.fwdTick } }

/-! ### Load (R17, R34 to R36, R40) -/

/-- The cluster of a lane. -/
def clusterOf (lane : Nat) : Nat := lane / 16
/-- The LU budget of a lane: its island clock in MHz less 60, on rigged clusters (R17, R57). -/
def budget (s : State) (lane : Nat) : Nat :=
  if s.rig.rigged.getLsbD (clusterOf lane) ∧ s.rig.running then fget s .ISL_CLK_STATUS_freq_mhz (clusterOf lane) - 60 else 0
/-- The LU that a channel counts for on a lane. -/
def luOn (lane : Nat) (c : Channel) : Nat :=
  match c.move with
  | some m => if m.target = lane then m.cost else if c.lane = lane ∧ !m.gone then c.cost else 0
  | none => if c.lane = lane then c.cost else 0
/-- Whether a channel counts as a context on a lane. -/
def ctxOn (lane : Nat) (c : Channel) : Bool :=
  match c.move with
  | some m => m.target == lane || (c.lane == lane && !m.gone)
  | none => c.lane == lane
/-- The LU used on a lane: channels carried and reservations (R57). -/
def usedLu (s : State) (lane : Nat) : Nat := s.chans.foldl (fun n c => n + luOn lane c.2) 0
/-- The channel contexts held by a lane (R57). -/
def contexts (s : State) (lane : Nat) : Nat := (s.chans.filter (fun c => ctxOn lane c.2)).length
/-- Whether a lane may be a candidate at all: rigged, not being re-rigged, its cluster not stopped, not faulted (R36). -/
def laneUsable (s : State) (lane : Nat) : Bool :=
  s.rig.rigged.getLsbD (clusterOf lane) && s.rig.rerig != some (clusterOf lane) &&
  !s.age.stopped.getLsbD (clusterOf lane) && (laneAt s lane).st != .faulted
/-- The budget that placements and plans use: in full shadow the lower of the lane's own and its partner's (R431). -/
def planBudget (s : State) (lane : Nat) : Nat :=
  if fget s .PAIR_CFG_mode = 2 ∧ s.pair.role = .active then
    match tget? s.pair.budgets lane with
    | some b => min b (budget s lane)
    | none => budget s lane
  else budget s lane
/-- Whether a lane takes a further channel of a cost (R35). -/
def laneTakes (s : State) (lane cost : Nat) : Bool :=
  laneUsable s lane && decide (usedLu s lane + cost ≤ planBudget s lane) && decide (contexts s lane + 1 ≤ 96)
/-- The lane with the most free LU of those that take a cost in the clusters of a mask, the lowest-numbered of a tie;
`skip` is excluded (R36). -/
def place (s : State) (mask cost : Nat) (skip : Option Nat) : Option Nat :=
  (List.range 128).foldl (fun best l =>
    if mask.testBit (clusterOf l) && skip != some l && laneTakes s l cost then
      match best with
      | none => some l
      | some b => if planBudget s b - usedLu s b < planBudget s l - usedLu s l then some l else best
    else best) none
/-- The lane that works for a channel: the target from its first tick there, else its lane (R40). -/
def Channel.worker (c : Channel) : Nat :=
  match c.move with
  | some m => if m.phase = 2 then m.target else c.lane
  | none => c.lane

/-- Channels that are active: past their activation boundary or dormant on a standby (R57). -/
def activeCount (s : State) : Nat := (s.chans.filter (fun c => c.2.live)).length
/-- Active channels whose access entry has the keep flag (R47). -/
def keepCount (s : State) : Nat :=
  (s.chans.filter (fun c => c.2.live && chanParam s c.1 0x0101 == 1)).length

end Sys2Proof.Machine
end

