-- ==== Sys2Proof/Machine/MemErr.lean ====
section
/-! DEFINITION. Uncorrectable words met in the cellar, the attics, lane data memory and dictionary SRAM, and the transfers
they spoil (R394, R396 to R398, R400). -/

namespace Sys2Proof.Machine

/-- An uncorrectable cellar word met by a master at a cellar address (R394, R412). -/
def cellarUe (master c : Nat) (s : State) : State :=
  let region := ((regionOf s c).map (fun r => r.1)).getD 0
  let s1 := fbump .CEL_ECC_uncorrected 1 s
  let s2 := fset .CEL_ECC_LAST_LO_offset_lo (c % 2 ^ 32) s1
  let s3 := fset .CEL_ECC_LAST_HI_valid 1 (fset .CEL_ECC_LAST_HI_master master (fset .CEL_ECC_LAST_HI_region region
    (fset .CEL_ECC_LAST_HI_offset_hi (c / 2 ^ 32) s2)))
  ueMet 4 (raise 97 [(1, region), (1, master), (8, c)] s3)

/-- An uncorrectable attic word met by a master, named by its lane-local address (R398). -/
def atticUe (cluster master off : Nat) (s : State) : State :=
  clusterUe cluster (ueMet 2 (raise 102 [(1, cluster), (1, master), (4, 0x400000 + off)] (fbump .ATT_ECC_uncorrected 1 s cluster)))

/-- An uncorrectable word of lane data memory met by a transfer (R394). -/
def laneDataUe (lane : Nat) (s : State) : State := clusterUe (lane / 16) (ueMet 0 (fbump .LAN_DMEM_ECC_uncorrected 1 s lane))

/-- An uncorrectable word of a lane's program memory met by a transfer (R394). -/
def laneProgramUe (lane : Nat) (s : State) : State :=
  clusterUe (lane / 16) (ueMet 1 (fbump .LAN_PMEM_ECC_uncorrected 1 s lane))

/-- A transfer that met an uncorrectable word: event 103, at most once a window per master, counting the transfers since
(R394). -/
def transferDropped (master target : Nat) (s : State) : State :=
  raiseCounting 103 master [(1, master), (1, target)] s

/-- An uncorrectable word at a device address, met by a master in a transfer: the memory's own counter and event (R394). -/
def memoryUe (master a : Nat) (s : State) : State :=
  if cellarBase ≤ a then cellarUe master (a - cellarBase) s
  else if 0x02000000 ≤ a ∧ a < 0x04000000 then
    atticUe ((a - 0x02000000) / 0x400000) master ((a - 0x02000000) % 0x400000) s
  else if 0x08000000 ≤ a ∧ a < 0x10000000 then
    if a % 0x100000 < 0x80000 then laneDataUe ((a - 0x08000000) / 0x100000) s
    else laneProgramUe ((a - 0x08000000) / 0x100000) s
  else s

/-- Words corrected as a read of a memory at a device address met them: the memory's own counter, ERR_CORRECTED, and the event
of the cellar or of the cluster's attic (R78, R102, R398, R401). The words themselves are held corrected throughout. -/
def wordsFixed (a n : Nat) (s : State) : State :=
  let s1 := fbump .ERR_CORRECTED_corrected n s
  if n = 0 then s
  else if cellarBase ≤ a then raiseCountingBy n 96 0 [] (fbump .CEL_ECC_corrected n s1)
  else if 0x02000000 ≤ a ∧ a < 0x04000000 then
    let c := (a - 0x02000000) / 0x400000
    raiseCountingBy n 101 c [(1, c)] (fbump .ATT_ECC_corrected n s1 c)
  else if 0x08000000 ≤ a ∧ a < 0x10000000 then
    let l := (a - 0x08000000) / 0x100000
    if a % 0x100000 < 0x80000 then fbump .LAN_DMEM_ECC_corrected n s1 l else fbump .LAN_PMEM_ECC_corrected n s1 l
  else s

/-- Whether a read of `n` bytes at a device address meets an uncorrectable word. -/
def meetsUe (s : State) (a n : Nat) : Bool := decide (0 < n) && poisoned s a n

/-- The cellar address of the region of a purpose (R323). -/
def regionBase (s : State) (purpose : Nat) : Option Nat :=
  (List.range 16).findSome? (fun r =>
    if fget s .CEL_REGION_SIZE_purpose r = purpose ∧ fget s .CEL_REGION_SIZE_size_mib r ≠ 0 then
      some (fget s .CEL_REGION_BASE_base_mib r * 1048576)
    else none)

end Sys2Proof.Machine
end

