-- ==== Sys2Proof/Machine/StoreRoom.lean ====
section
/-! DEFINITION. Store rooms: cells, placement, commit, decoding ahead, rollback, the rewind mark, playout (R164 to R187). -/

namespace Sys2Proof.Machine

/-! ### Cells by codec (R165, Table 1) -/

/-- Ticks that a cell covers. -/
def cellSpan (c : Nat) : Nat := if c ≤ 4 then 1 else if c = 5 then 10 else 20
/-- Position units per cell. -/
def cellUnits (c : Nat) : Nat := if c ≤ 4 then 8 else if c = 5 then 80 else if c = 6 then 160 else if c = 7 then 320 else 960
/-- Record bytes. -/
def cellRecord (c : Nat) : Nat := if c ≤ 4 then 16 else if c = 5 then 32 else if c = 6 then 64 else if c = 7 then 128 else 512
/-- Cells in the ring, L. -/
def cellRing (c : Nat) : Nat := if c ≤ 4 then 2048 else if c = 5 then 256 else if c ≤ 7 then 128 else 120
/-- Bits of a unit of a sample codec: a sample, an octet pair, a code word (R166). -/
def unitBits (c rate : Nat) : Nat := if c = 4 then rate / 8000 else 8

/-- The key of a cell number in the table of cells. -/
def cellKey (n : Int) : Nat := (n + 2147483648).toNat
/-- The record of a cell, if it has one. -/
def cellOf (r : StoreRoom) (n : Int) : Option Cell := tget? r.cells (cellKey n)
/-- The cell that decoding gives its frame to: one that is HELD. -/
def heldCell (r : StoreRoom) (cell : Int) : Option Cell := (cellOf r cell).filter (fun x => x.st == .held)
/-- A store room with a cell's record replaced. -/
def putCell (n : Int) (x : Cell) (r : StoreRoom) : StoreRoom := { r with cells := tset r.cells (cellKey n) x }
/-- Whether a leg's coded audio runs above 8 kHz, by the codec it carries (R137, R155). -/
def legWide (s : State) (n l : Nat) : Bool :=
  if kindAt s n l = 1 then false
  else
    let c := legCodec s n l
    c == 3 || c == 7 || (c == 8 && decide (8 < legParam s n l 0x030A))
/-- Whether a leg carries Opus at 24 kHz, whose upper band goes beside its 16 kHz (R108, R137). -/
def legUpper (s : State) (n l : Nat) : Bool :=
  kindAt s n l != 1 && legCodec s n l == 8 && legParam s n l 0x030A == 24
/-- A tick of audio at a leg's rate, sample by sample; the upper band's samples are numbered from 16 on. -/
def soundOf (s : State) (n l : Nat) (f : Nat → Int) : Sound :=
  { base := (List.range (if legWide s n l then 16 else 8)).map f
    upper := if legUpper s n l then (List.range 8).map (fun i => f (16 + i)) else [] }

/-- A leg's store room. -/
def roomAt (s : State) (n l : Nat) : StoreRoom := (legAt s n l).room
/-- A state with a leg's store room changed. -/
def modRoom (n l : Nat) (f : StoreRoom → StoreRoom) (s : State) : State :=
  modLeg n l (fun g => { g with room := f g.room }) s

/-! ### Records in the cellar (R164, R166) -/

/-- The cellar address of a cell's record. -/
def recordAddr (s : State) (n l : Nat) (cell : Int) : Option Nat :=
  let c := legCodec s n l
  (regionBase s 2).map (fun b =>
    b + 65536 * (2 * n + l) + 512 + (cell % (cellRing c : Int)).toNat * cellRecord c)

/-- The bytes of a cell's record (R166, Table 2). -/
def recordBytes (pos : Nat) (x : Cell) : Bytes :=
  toLe 1 (x.flags + 1) ++ toLe 1 x.units ++ toLe 2 x.data.length ++ toLe 4 pos ++ x.data

/-- Writes a cell's record into the cellar. -/
def storeRecord (n l : Nat) (cell : Int) (s : State) : State :=
  let r := roomAt s n l
  match recordAddr s n l cell, cellOf r cell with
  | some a, some x =>
    let pos := ofSigned 32 ((r.kPos.toNat : Int) + (cell - (r.k + 1)) * (cellUnits (legCodec s n l) : Int))
    storeBytes (cellarBase + a) (recordBytes pos x) s
  | _, _ => s

/-- The cellar address of a store room's block (R164). -/
def roomBlock (s : State) (n l : Nat) : Option Nat := (regionBase s 2).map (fun b => cellarBase + b + 65536 * (2 * n + l))

/-- The event list as the writer keeps it in the block: 16 entries of 16 bytes (R164; log entry 56). -/
def storeEvents (n l : Nat) (s : State) : State :=
  match roomBlock s n l with
  | some a =>
    let evs := (roomAt s n l).events
    storeBytes (a + 256) ((List.range 16).flatMap (fun k => match evs[k]? with
      | some e => (List.range 16).map (fun i => Config.roomEvent e.pos e.code e.volume e.dur e.ended i)
      | none => zeros 16)) s
  | none => s

/-- The uncorrectable words that reading a cell's record meets, by cellar address (R185). -/
def recordBad (s : State) (n l : Nat) (cell : Int) : List Nat :=
  match recordAddr s n l cell with
  | some a => (poisonedIn s (cellarBase + a) (cellRecord (legCodec s n l))).map (fun p => p - cellarBase)
  | none => []

/-- The ring of a leg's store room cleared in the cellar (R183). -/
def clearRing (n l : Nat) (s : State) : State :=
  let c := legCodec s n l
  match recordAddr s n l 0 with
  | some a => clearRange (cellarBase + a) (cellRing c * cellRecord c) s
  | none => s

/-- The master of a channel's cellar accesses: the cluster of the lane that works for it (R359). -/
def workMaster (s : State) (n : Nat) : Nat := 2 + clusterOf (chanAt s n).worker

/-- Whether the access tables, once they are locked, refuse a channel's cellar DMA (R359, R366). -/
def dmaDenied (s : State) (n a len : Nat) (write : Bool) : Bool := s.acc.locked && !permitted s (workMaster s n) a len write

/-- The header that the lane writes once per tick; a refused write moves nothing (R164, R366; log entry 56). -/
def storeHeader (n l : Nat) (s : State) : State :=
  match roomBlock s n l with
  | some a =>
    let r := roomAt s n l
    if dmaDenied s n a 256 true then recordDenial (workMaster s n) a 256 true s
    else storeBytes a ((List.range 256).map (Config.roomHeader r.k r.w r.mark r.pNext)) s
  | none => s

/-- Whether the access tables refuse the reading of a cell's record (R366). -/
def recordDenied (s : State) (n l : Nat) (cell : Int) : Bool :=
  match recordAddr s n l cell with
  | some a => dmaDenied s n (cellarBase + a) (cellRecord (legCodec s n l)) false
  | none => false

/-- A cell without its record. -/
def dropCell (n l : Nat) (cell : Int) (s : State) : State :=
  modRoom n l (fun r => { r with cells := tdel r.cells (cellKey cell) }) s

/-- Reading a record met uncorrectable words: the cell is EMPTY, event 171 and the words' own handling (R185, R394). -/
def recordUe (n l : Nat) (cell : Int) (bad : List Nat) (s : State) : State :=
  match bad with
  | [] => s
  | a :: _ =>
    let s1 := statBump n (roomBase l + 0x0F) 1 (dropCell n l cell s)
    let m := workMaster s n
    let s2 := bad.foldl (fun s c => cellarUe m c s) (raise 171 [(2, n), (1, l), (4, ofSigned 32 cell)] s1)
    transferDropped m (38 + ((regionOf s a).map (fun p => p.1)).getD 0) s2

/-- The reading of a HELD cell's record: one that meets an uncorrectable word, or that the access tables refuse, leaves the cell
EMPTY (R185, R366, R394). -/
def checkRecord (n l : Nat) (cell : Int) (s : State) : State :=
  if (heldCell (roomAt s n l) cell).isNone then s
  else if recordDenied s n l cell then
    recordDenial (workMaster s n) (cellarBase + (recordAddr s n l cell).getD 0) (cellRecord (legCodec s n l)) false
      (dropCell n l cell s)
  else recordUe n l cell (recordBad s n l cell) s

/-! ### Starting a stream (R183) -/

/-- The delay in force at a stream's start: playout_init_ms after activation, vbd_playout_ms in voiceband-data mode, else D
(R155, R183). -/
def startDelay (s : State) (n l : Nat) (r : StoreRoom) : Nat :=
  if r.activated then (if (chanAt s n).vbd then chanParam s n 0x0314 else legParam s n l 0x0402) else r.d

/-- The tone that a leg's detectors hold at the rewind mark: in its oldest checkpoint, else as they stand (R173, R174). -/
def markTone (g : Leg) : Nat := ((g.room.ckpts.head?).map (fun c => c.tone)).getD g.detTone

/-- A part of a position that arrives in tick `a` starts a stream: its cell is cell 0 (R183). -/
def startStream (n l a : Nat) (pos : Word) (s : State) : State :=
  let r := roomAt s n l
  let d := startDelay s n l r
  let q := r.pNext - r.fill
  let first := r.activated
  let p0 := if first then a + d else max (a + d) q
  let room : StoreRoom := {
    running := true, activated := false, kPos := pos, pNext := p0, d := p0 - a
    target := if first then legParam s n l 0x0402 else d
    fill := if first then 0 else p0 - q
    winStart := a, parts := r.parts, events := r.events, evIn := r.evIn, out := r.out }
  clearRing n l (modLeg n l (fun g => { g with room := room, reports := [], detTone := markTone g, dec := 0 }) s)

/-- A restart other than an activation is counted and raises event 169 with its cause (R183). -/
def noteRestart (n l cause : Nat) (s : State) : State :=
  raise 169 [(2, n), (1, l), (1, cause)] (statBump n (roomBase l + 9) 1 s)

/-- A change restarts the stream of a store room: what is uncommitted goes, and the next frame placed starts it again; a
store room on which none has started since activation restarts nothing (R183). -/
def stopStream (n l cause : Nat) (s : State) : State :=
  if (roomAt s n l).activated then s
  else noteRestart n l cause (modLeg n l (fun g => { g with
    room := { g.room with
      running := false, w := g.room.k + 1, f := g.room.k, mark := g.room.k + 1, cells := [], ckpts := [], slacks := []
      oow := 0, overtook := false, seam := 0 }
    reports := [], detTone := markTone g, dec := 0 }) s)

/-! ### Placement (R167 to R169) -/

/-- The cell of a position, and the units from the cell's start (R167). -/
def cellAt (r : StoreRoom) (upc : Nat) (pos : Word) : Int × Nat :=
  let d := (pos - r.kPos).toInt
  (r.k + 1 + d / (upc : Int), (d % (upc : Int)).toNat)

/-- The slack C(n) - 1 - A of a frame (R180). -/
def slackOf (r : StoreRoom) (span : Nat) (cell : Int) (a : Nat) : Int :=
  (r.pNext : Int) + (cell - (r.k + 1)) * (span : Int) - 3 - (a : Int)

/-- The units of a sample codec's part placed over a record: units already present are kept (R169, row 7). -/
def mergeUnits (bits off k : Nat) (data : Nat) (x : Cell) : Cell :=
  let place := fun (acc : Nat × Nat) (i : Nat) =>
    if acc.1.testBit (off + i) then acc
    else (acc.1 + 2 ^ (off + i), acc.2 + data / 2 ^ (i * bits) % 2 ^ bits * 2 ^ ((off + i) * bits))
  let m := (List.range k).foldl place (x.units, leNat x.data)
  { x with units := m.1, data := toLe bits m.2 }

/-- The record of a cell with a part placed in it: the units of a sample codec, a frame, or a piece of an Opus packet (R166).
G.711 codes come into a cell that holds codes of the other law as codes of that law (log entry 54). -/
def mergePart (codec bits off : Nat) (p : Part) (x : Cell) : Cell :=
  if codec ≤ 2 then
    let law := if x.units = 0 then p.codec else x.codec
    mergeUnits bits off p.units (leNat (p.data.map (recode p.codec law))) { x with codec := law }
  else if codec ≤ 4 then mergeUnits bits off p.units (leNat p.data) x
  else if codec = 8 then
    if p.data.isEmpty then { x with flags := x.flags.lor 4 }
    else { x with units := x.units + 1, data := x.data ++ toLe 2 p.data.length ++ toLe 2 off ++ p.data }
  else { x with data := p.data, flags := if p.sid then 2 else 0 }

/-- The offsets of the pieces of an Opus cell. -/
def pieceOffsets : Nat → Bytes → List Nat
  | 0, _ => []
  | k + 1, b => leAt b 2 2 :: pieceOffsets k (b.drop (4 + leAt b 0 2))

/-- Whether every unit of a part is already present (R169, row 6). -/
def partPresent (codec off : Nat) (p : Part) (x : Cell) : Bool :=
  if codec ≤ 4 then (List.range p.units).all (fun i => x.units.testBit (off + i))
  else if codec = 8 then
    if p.data.isEmpty then decide (x.flags / 4 % 2 = 1) || decide (0 < x.units)
    else (pieceOffsets x.units x.data).contains off
  else true

/-- Whether a part exceeds a record's payload (R169, row 3). -/
def partTooLong (codec : Nat) (p : Part) (x : Option Cell) : Bool :=
  if codec ≤ 4 then false
  else if codec = 8 then
    decide (cellRecord 8 - 8 < ((x.map (fun c => c.data.length)).getD 0) + 4 + p.data.length) ||
      decide (8 ≤ ((x.map (fun c => c.units)).getD 0))
  else decide (cellRecord codec - 8 < p.data.length)

/-- Counts a part and its slack: placed under row 7, or as row 1 places (R169, R180, R184). -/
def notePlaced (n l : Nat) (slack : Int) (s : State) : State :=
  statBump n (roomBase l) 1 (modRoom n l (fun r => { r with slacks := r.slacks ++ [slack], oow := 0 }) s)

/-- A part of one cell placed: its record written, a decoded or guessed cell HELD again (R169, R174). -/
def placePart (n l : Nat) (p : Part) (cell : Int) (off : Nat) (s : State) : State :=
  let codec := legCodec s n l
  let bits := unitBits codec (legParam s n l 0x0302)
  let r := roomAt s n l
  let x := (cellOf r cell).getD {}
  let y := { mergePart codec bits off p x with st := .held, pcm := [] }
  let w := if r.w ≤ cell then cell + 1 else r.w
  let past := decide (r.w ≤ cell) && decide (r.k + 1 < w - (cellRing codec : Int))
  let s1 := modRoom n l (fun r => { putCell cell y r with w := w, overtook := r.overtook || past }) s
  notePlaced n l (slackOf r (cellSpan codec) cell p.arrival) (storeRecord n l cell s1)

/-- One part of one cell decided by Table 3, a part in another codec's layout being dropped as under row 3 (R182); the second
component is the cell, where a placement calls for a rollback from it (R169, R174, R184). -/
def decidePart (n l : Nat) (p : Part) (s : State) : State × Option Int :=
  let codec := legCodec s n l
  let L : Int := cellRing codec
  let r := roomAt s n l
  let at_ := cellAt r (cellUnits codec) p.pos
  let cell := at_.1
  let j := cell - r.k
  let calm := modRoom n l (fun r => { r with oow := 0 }) s
  if p.codec ≠ codec ∧ (2 < codec ∨ 2 < p.codec) then (statBump n (roomBase l + 4) 1 calm, none)
  else if !r.running then
    let s1 := startStream n l p.arrival p.pos s
    (placePart n l p 0 0 s1, none)
  else if j ≤ -L ∨ 2 * L < j then
    if 2 ≤ r.oow then
      let s1 := startStream n l p.arrival p.pos (noteRestart n l 3 s)
      (placePart n l p 0 0 s1, none)
    else (statBump n (roomBase l + 4) 1 (modRoom n l (fun r => { r with oow := r.oow + 1 }) s), none)
  else if partTooLong codec p (cellOf r cell) then (statBump n (roomBase l + 4) 1 calm, none)
  else if j ≤ 0 then
    let sl := slackOf r (cellSpan codec) cell p.arrival
    (statBump n (roomBase l + 1) 1 (modRoom n l (fun r => { r with slacks := r.slacks ++ [sl] }) calm), none)
  else if cell < r.w - L then (statBump n (roomBase l + 2) 1 calm, none)
  else match cellOf r cell with
    | some x =>
      let has := x.st != .guessed && x.st != .evicted && (x.units != 0 || !x.data.isEmpty || x.flags != 0)
      if has && partPresent codec at_.2 p x then (statBump n (roomBase l + 3) 1 calm, none)
      else
        let back := decide (cell ≤ r.f) && decide (r.mark ≤ cell)
        (placePart n l p cell at_.2 s, if back then some cell else none)
    | none =>
      (placePart n l p cell at_.2 s, if cell ≤ r.f ∧ r.mark ≤ cell then some cell else none)

/-- The lower of two rollback cells. -/
def lowest (a b : Option Int) : Option Int :=
  match a, b with
  | some x, some y => some (if x ≤ y then x else y)
  | some x, none => some x
  | none, y => y

/-- The parts of a packet, split at cell boundaries, in increasing position (R167). -/
def handlePart : Nat → Nat → Nat → Part → State → State × Option Int
  | 0, _, _, _, s => (s, none)
  | fuel + 1, n, l, p, s =>
    let codec := legCodec s n l
    let upc := cellUnits codec
    let r := roomAt s n l
    let off := if r.running then (cellAt r upc p.pos).2 else 0
    let room := upc - off
    if codec ≤ 4 ∧ room < p.units then
      let bits := unitBits codec (legParam s n l 0x0302)
      let d1 := decidePart n l { p with units := room, len := room } s
      let rest := { p with pos := p.pos + BitVec.ofNat 32 room, units := p.units - room, len := p.len - room
                           data := toLe ((bits * (p.units - room) + 7) / 8) (leNat p.data / 2 ^ (bits * room)) }
      let d2 := handlePart fuel n l rest d1.1
      (d2.1, lowest d1.2 d2.2)
    else if codec = 8 ∧ room < p.len then
      let d1 := decidePart n l { p with len := room } s
      let d2 := handlePart fuel n l { p with pos := p.pos + BitVec.ofNat 32 room, len := p.len - room, data := [] } d1.1
      (d2.1, lowest d1.2 d2.2)
    else decidePart n l p s

/-- The notices of a store room up to a tick, in arrival order (R179 step 3). -/
def handleNotices (n l t : Nat) (s : State) : State × Option Int :=
  let due := (roomAt s n l).parts.filter (fun p => decide (p.arrival ≤ t))
  let s1 := modRoom n l (fun r => { r with parts := r.parts.filter (fun p => decide (t < p.arrival)) }) s
  due.foldl (fun (acc : State × Option Int) p =>
    let d := handlePart 512 n l p acc.1
    (d.1, lowest acc.2 d.2)) (s1, none)

/-! ### Decoding ahead, rollback, overtaking (R172 to R176) -/

/-- decode_ahead as it acts: 0 while the device is reefed (R186). -/
def decodeAhead (s : State) (n l : Nat) : Nat := if s.age.reefed then 0 else legParam s n l 0x0408

/-- Whether a cell continues an Opus packet begun in an earlier one (R166). -/
def insidePacket (r : StoreRoom) (cell : Int) : Bool := (cellOf r cell).any (fun x => x.flags / 4 % 2 == 1)

/-- A leg with a checkpoint saved at a cell's boundary, of the state in which its decoder and detectors come to the cell: none
where the cell continues an Opus packet (R173). -/
def saveCheckpoint (cell : Int) (g : Leg) : Leg :=
  let r := g.room
  if insidePacket r cell then g
  else { g with room := { r with
    ckpts := r.ckpts.filter (fun c => c.cell != cell) ++ [{ cell := cell, tone := g.detTone, dec := g.dec }] } }

/-- The frame that a cell gives its decoder: its flags, units and payload; empty where there is none to decode. -/
def cellFrame (x : Option Cell) : Bytes :=
  match x with
  | some c => if c.st = .guessed ∨ c.st = .evicted then [] else toLe 1 c.flags ++ toLe 1 c.units ++ c.data
  | none => []

/-- The decoder's state after a cell (R132, R135; log entry 30). -/
def decodeState (s : State) (n l st : Nat) (x : Option Cell) : Nat :=
  Config.decState (legCodec s n l) (legParam s n l 0x0302) (legParam s n l 0x030A) st (cellFrame x)

/-- Tick `t` of what a decoder in a state makes of a cell: G.711 codes expanded, an absent unit and every other codec as its
standard decodes or conceals it (R132, R135, R171; log entry 30). -/
def decodeTick (s : State) (n l st : Nat) (x : Option Cell) (t : Nat) : Sound :=
  let b := cellFrame x
  let open_ := fun (i : Nat) =>
    (Config.decSample (legCodec s n l) (legParam s n l 0x0302) (legParam s n l 0x030A) st b t i).toInt
  match x with
  | some c =>
    if legCodec s n l ≤ 2 ∧ !b.isEmpty then
      soundOf s n l (fun i => if c.units.testBit i then expandCode c.codec (c.data.getD i 0) else open_ i)
    else soundOf s n l open_
  | none => soundOf s n l open_

/-- The audio of a cell, tick by tick. -/
def decodeCell (s : State) (n l st : Nat) (x : Option Cell) : List Sound :=
  (List.range (cellSpan (legCodec s n l))).map (decodeTick s n l st x)

/-- A cell that decoding passes, after a checkpoint: a HELD one is decoded, an absent one guessed (R170, R172, R173, R178). -/
def passCell (n l : Nat) (cell : Int) (s : State) : State :=
  let s1 := modLeg n l (saveCheckpoint cell) (checkRecord n l cell s)
  let g := legAt s1 n l
  let x := heldCell g.room cell
  let pcm := decodeCell s1 n l g.dec x
  let s2 := modRoom n l (fun r =>
    let r1 : StoreRoom := match cellOf r cell with
      | some x => if x.st = .held then putCell cell { x with st := .decoded, pcm := pcm } r else r
      | none => putCell cell { st := .guessed, pcm := pcm } r
    { r1 with f := max r.f cell }) s1
  modLeg n l (fun g => { g with dec := decodeState s1 n l g.dec x }) s2

/-- The cells from `a` up to `b`. -/
def cellRange (a b : Int) : List Int := (List.range (b + 1 - a).toNat).map (fun i => a + (i : Int))

/-- The checkpoints a leg keeps: boundaries from the mark up to f + 1, at most five (R173). -/
def trimCheckpoints (g : Leg) : Leg :=
  let r := g.room
  let l := r.ckpts.filter (fun b => decide (r.mark ≤ b.cell) && decide (b.cell ≤ r.f + 1))
  let l := if l.any (fun b => b.cell == r.f + 1) || decide (r.f + 1 < r.mark) || insidePacket r (r.f + 1) then l
    else l ++ [{ cell := r.f + 1, tone := g.detTone, dec := g.dec }]
  { g with room := { r with ckpts := l.drop (l.length - 5) } }

/-- The checkpoint at boundary f + 1 as the tick's detection leaves the detectors (R147, R173). -/
def renewCheckpoint (g : Leg) : Leg :=
  { g with room := { g.room with ckpts := g.room.ckpts.map (fun b =>
    if b.cell = g.room.f + 1 then { b with tone := g.detTone } else b) } }

/-- A leg's checkpoints brought up to date; none is kept while the device is reefed (R173, R186). -/
def keepCheckpoints (n l : Nat) (s : State) : State :=
  if s.age.reefed then modRoom n l (fun r => { r with ckpts := [] }) s
  else modLeg n l trimCheckpoints s

/-- Decoding ahead: from f + 1 up to the highest HELD cell within decode_ahead of the commit point (R172). -/
def decodeOn (n l : Nat) (s : State) : State :=
  let r := roomAt s n l
  let a := decodeAhead s n l
  let held := (cellRange (r.k + 1) (r.k + (a : Int))).filter (fun c =>
    match cellOf r c with
    | some x => x.st == .held
    | none => false)
  match held.getLast? with
  | none => s
  | some h => keepCheckpoints n l ((cellRange (r.f + 1) h).foldl (fun s c => passCell n l c s) s)

/-- What a rollback restores and discards: decoder and detectors as the checkpoint at or before the cell holds them, no later
checkpoint, no report from the cell on, and the decoded cells from it HELD again (R147, R170, R174). -/
def rewind (cell : Int) (g : Leg) : Leg :=
  let r := g.room
  let kept := r.ckpts.filter (fun b => decide (b.cell ≤ cell))
  let again := (cellRange cell r.f).foldl (fun r c => match cellOf r c with
    | some x => if x.st = .decoded then putCell c { x with st := .held, pcm := [] } r else r
    | none => r) { r with ckpts := kept }
  { g with reports := g.reports.filter (fun p => decide (p.cell < cell))
           detTone := ((kept.getLast?).map (fun b => b.tone)).getD g.detTone
           dec := ((kept.getLast?).map (fun b => b.dec)).getD g.dec, room := again }

/-- The boundary that a rollback to a cell restores: the cell's own, or where that lies inside an Opus packet the last checkpoint
before it (R173, R174). -/
def rewindFrom (r : StoreRoom) (cell : Int) : Int :=
  if insidePacket r cell then
    (r.ckpts.foldl (fun b c => if c.cell ≤ cell then some (max c.cell (b.getD c.cell)) else b) none).getD cell
  else cell

/-- One rollback from the lowest cell placed at or below the frontier: the cells up to the frontier are decoded again (R174);
none while the device is reefed (R186). -/
def rollback (n l : Nat) (m : Option Int) (s : State) : State :=
  match m with
  | none => s
  | some cell =>
    let r := roomAt s n l
    if s.age.reefed ∨ r.f < cell ∨ cell ≤ r.k then s
    else
      let from_ := rewindFrom r cell
      let s1 := (cellRange from_ r.f).foldl (fun s c => passCell n l c s) (modLeg n l (rewind from_) s)
      statBump n (roomBase l + 6) (r.f + 1 - from_).toNat (statBump n (roomBase l + 5) 1 (keepCheckpoints n l s1))

/-- The overtaking of the rewind mark by a placement of the last tick (R176). -/
def overtake (n l : Nat) (s : State) : State :=
  let r := roomAt s n l
  if !r.overtook then s
  else
    let edge := r.w - (cellRing (legCodec s n l) : Int)
    let mark := max r.mark (if edge ≤ r.f + 1 then edge else r.f + 1)
    let gone := (cellRange (r.k + 1) (edge - 1)).filter (fun c =>
      match cellOf r c with
      | some x => x.st == .held
      | none => true)
    let r1 := gone.foldl (fun r c => putCell c { st := .evicted } r) r
    let s1 := keepCheckpoints n l (modRoom n l (fun _ => { r1 with mark := mark, overtook := false }) s)
    raise 168 [(2, n), (1, l), (4, ofSigned 32 mark), (4, gone.length)]
      (statBump n (roomBase l + 2) 1 (statBump n (roomBase l + 8) gone.length s1))

/-! ### Commit (R170, R171) -/

/-- Commits cell K + 1: its audio becomes final, a gap counts as lost unless it is comfort noise, held reports of the cell
come free. `missed` says that no work was done for the channel in the commit tick (R171, R186). -/
def commitCell (n l : Nat) (missed : Bool) (s0 : State) : State :=
  let s := checkRecord n l ((roomAt s0 n l).k + 1) s0
  let codec := legCodec s n l
  let span := cellSpan codec
  let r := roomAt s n l
  let cell := r.k + 1
  let x := cellOf r cell
  let played := match x with
    | some c => !missed && (c.st == .decoded || c.st == .held)
    | none => false
  let lost := !played && !r.lastSid
  let ahead := match x with
    | some c => !missed && !c.pcm.isEmpty
    | none => false
  let frame := if missed then none else heldCell r cell
  let st := (legAt s n l).dec
  let pcm := if ahead then (x.map (fun c => c.pcm)).getD [] else decodeCell s n l st frame
  let sid := match x with
    | some c => if c.st == .decoded || c.st == .held then c.flags / 2 % 2 == 1 else r.lastSid
    | none => r.lastSid
  let due := r.pNext - 1
  let ticks := (pcm.take span).zipIdx.map (fun p => (due + p.2, p.1))
  let s1 := modRoom n l (fun r => { r with
    k := cell, kPos := r.kPos + BitVec.ofNat 32 (cellUnits codec), f := max r.f cell, mark := max r.mark (cell + 1)
    cells := tdel r.cells (cellKey cell), pNext := r.pNext + span, fill := 0
    lastSid := sid, out := r.out ++ ticks }) s
  let s2 := keepCheckpoints n l (if ahead || decide (cell ≤ r.f) then s1
    else modLeg n l (fun g => { g with dec := decodeState s n l st frame }) s1)
  if lost then statBump n 0x03A9 1 (statBump n (roomBase l + 7) 1 s2) else s2

/-- Commits every cell whose commit point has come (R168, R171, R179 step 1). -/
def commitDue : Nat → Nat → Nat → Nat → State → State
  | 0, _, _, _, s => s
  | fuel + 1, n, l, t, s =>
    let r := roomAt s n l
    if r.running ∧ r.pNext ≤ t + 2 then
      let missed := decide (r.pNext < t + 2) && decide ((chanAt s n).worked + 2 < r.pNext)
      commitDue fuel n l t (commitCell n l missed s)
    else s

/-! ### Playout (R180 to R182) -/

/-- A raise of the delay in force to a target: the ticks after the last committed cell are filled (R181). -/
def raiseDelay (n l target : Nat) (s : State) : State :=
  let r := roomAt s n l
  if r.d < target ∧ r.running then
    let k := target - r.d
    statBump n (roomBase l + 0x0B) k
      (modRoom n l (fun r => { r with d := target, pNext := r.pNext + k, fill := r.fill + k }) s)
  else s

/-- Removes one tick of audio, the last not yet used, and brings the later cells forward (R181). -/
def removeTick (n l t : Nat) (s : State) : State :=
  let r := roomAt s n l
  let last := r.out.getLast?
  match last with
  | some (due, _) =>
    if t ≤ due then
      statBump n (roomBase l + 0x0C) 1 (modRoom n l (fun r => { r with
        out := r.out.dropLast, pNext := r.pNext - 1, d := r.d - 1, seam := r.seam - 1 }) s)
    else s
  | none => s

/-- A delay in force that changes at once in either direction, without seam cells (R182). -/
def setDelay (n l want : Nat) (s : State) : State :=
  let r := roomAt s n l
  if r.activated then s
  else if !r.running then modRoom n l (fun r => { r with d := want, target := want }) s
  else
    let s1 := raiseDelay n l want (modRoom n l (fun r => { r with target := want }) s)
    let k := r.d - want
    if k = 0 then s1
    else statBump n (roomBase l + 0x0C) k (modRoom n l (fun r => { r with
      d := want, pNext := r.pNext - k, fill := r.fill - k
      out := r.out.filter (fun p => decide (p.1 + 1 < r.pNext - k)) }) s1)

/-- What a change of mode does to a store room: a changed cell layout restarts its stream, D goes to vbd_playout_ms on entry,
and on the return adaptation resumes from the D in force (R182, R183). -/
def switchRoom (n l : Nat) (s : State) : State :=
  let s1 := if (chanAt s n).vbd then setDelay n l (chanParam s n 0x0314) s
    else modRoom n l (fun r => { r with target := r.d }) s
  if 2 < codecOf (entryAt s n l).params then stopStream n l 2 s1 else s1

/-- What a modify does to a store room's adaptation: jb_mode to 1 or another adapt_window_ms begins a new window, other
bounds limit the target (R180, R187). `old` is the channel before it. -/
def modifyRoom (old : State) (n l : Nat) (s : State) : State :=
  let changed := fun id => legParam old n l id != legParam s n l id
  let lo := legParam s n l 0x0403
  let hi := legParam s n l 0x0404
  let s1 := if (changed 0x0401 && legParam s n l 0x0401 == 1) || changed 0x0406 then
      modRoom n l (fun r => { r with winStart := tickNow s, slacks := [] }) s
    else s
  if (changed 0x0403 || changed 0x0404) && legParam s n l 0x0401 == 1 then
    modRoom n l (fun r => { r with target := min hi (max lo r.target) }) s1
  else s1

/-- A target limited to the playout bounds; a raise that playout_max_ms limits raises event 170 (R180). -/
def limitTarget (n l t : Nat) (s : State) : Nat × State :=
  let lo := legParam s n l 0x0403
  let hi := legParam s n l 0x0404
  if hi < t ∧ (roomAt s n l).d < t then (hi, raise 170 [(2, n), (1, l), (2, t), (2, hi)] s)
  else (min hi (max lo t), s)

/-- Insertion into a rising list. -/
def insertSorted (x : Int) : List Int → List Int
  | [] => [x]
  | y :: t => if x ≤ y then x :: y :: t else y :: insertSorted x t

/-- The ticks that a seam cell can give up (R181). -/
def seamTicks (s : State) (n l : Nat) : Nat :=
  let span := cellSpan (legCodec s n l)
  if span = 1 then 1 else span - 1

/-- Whether the audio of the cell committed last stays below seam_dbm0 in every sample (R181). -/
def belowSeam (s : State) (n l : Nat) : Bool :=
  let level := asSigned 32 (legParam s n l 0x0407)
  let out := (roomAt s n l).out
  (out.drop (out.length - cellSpan (legCodec s n l))).all (fun p => staysBelow level p.2.base && staysBelow level p.2.upper)

/-- Whether the last committed cell is a seam cell is noted, if one was committed above `k0`: comfort noise, or audio below
seam_dbm0 (R181). -/
def noteSeam (n l : Nat) (k0 : Int) (s : State) : State :=
  let r := roomAt s n l
  if k0 < r.k then
    modRoom n l (fun r => { r with seam := if r.lastSid || belowSeam s n l then seamTicks s n l else 0 }) s
  else s

/-- A lowering acts on a seam cell: one tick goes, and a cell whose commit point thereby falls in this tick is committed
(R181). -/
def lowerSeam (n l t target : Nat) (s : State) : State :=
  let r := roomAt s n l
  if target < r.d ∧ 0 < r.seam then noteSeam n l r.k (commitDue 8 n l t (removeTick n l t s)) else s

/-- Whether a stream's adaptation window ends with the tick and brings a decision (R180). -/
def decisionDue (s : State) (n l : Nat) : Bool :=
  let r := roomAt s n l
  r.running && decide (r.winStart + legParam s n l 0x0406 ≤ workTick s + 1) && !(chanAt s n).vbd &&
  legParam s n l 0x0401 == 1 && !r.slacks.isEmpty

/-- The decision of a window in which slacks were entered (R180). A lowering then acts on the seam cell that the tick's work
left for it (R187). -/
def windowDecision (n l : Nat) (s : State) : State :=
  let r := roomAt s n l
  let sorted := r.slacks.foldl (fun l x => insertSorted x l) []
  let q := sorted.getD (r.slacks.length / 200) 0
  let head : Int := legParam s n l 0x0405
  let want : Int := if q < head then (r.d : Int) + head - q
    else if head + 10 ≤ q then (r.d : Int) - (q - head) / 2 else r.d
  let s1 := statSet n (roomBase l + 0x0E) (ofSigned 32 q) s
  let lim := limitTarget n l want.toNat s1
  let s2 := raiseDelay n l lim.1 (modRoom n l (fun r => { r with target := lim.1 }) lim.2)
  if (chanAt s n).worked = workTick s then lowerSeam n l (workTick s) lim.1 s2 else s2

/-- The end of an adaptation window of a stream, due in the window's last tick, and the next window, back to back (R180). -/
def windowEnd (n l : Nat) (s : State) : State :=
  let r := roomAt s n l
  let width := legParam s n l 0x0406
  if !r.running ∨ workTick s + 1 < r.winStart + width then s
  else
    let s1 := if decisionDue s n l then windowDecision n l s else s
    modRoom n l (fun x => { x with winStart := r.winStart + width, slacks := [] }) s1

/-- ADAPT_WINDOW_END (R180). -/
def execAdaptWindowEnd (chan : BitVec 13) (leg : Bool) (s : State) : Host.Outcome State Fault Refusal :=
  .next (windowEnd chan.toNat (if leg then 1 else 0) s)

/-- The target in the fixed mode, and D brought toward the target: a raise at once, a lowering by one tick of a seam cell,
which waits where a window's decision is due in the tick (R181, R182, R187). -/
def playoutChange (n l t : Nat) (s : State) : State :=
  let r := roomAt s n l
  if !r.running then s
  else
    let target := if (chanAt s n).vbd then chanParam s n 0x0314
      else if legParam s n l 0x0401 = 0 then legParam s n l 0x0402 else r.target
    let s1 := raiseDelay n l target (modRoom n l (fun r => { r with target := target }) s)
    if decisionDue s n l then s1 else lowerSeam n l t target s1

/-- The service of a leg's store room in a tick, in the order of R179. -/
def serveRoom (n l : Nat) (s : State) : State :=
  let t := workTick s
  let s1 := commitDue 4096 n l t s
  let s2 := noteSeam n l (roomAt s n l).k s1
  let s3 := overtake n l s2
  let h := handleNotices n l t s3
  let s4 := rollback n l h.2 h.1
  storeHeader n l (playoutChange n l t (decodeOn n l s4))

/-- The state of a leg's decoder after the last committed cell: at boundary K + 1 (R173, R177). -/
def committedState (g : Leg) : Nat :=
  ((g.room.ckpts.find? (fun b => b.cell == g.room.k + 1)).map (fun b => b.dec)).getD g.dec

/-- A tick that no committed cell covers: concealment, or comfort noise, continued from the committed state (R181, R183; log entry
30). -/
def fillTick (s : State) (n l t : Nat) : Sound :=
  soundOf s n l (fun i => (Config.fillSample (legCodec s n l) (legParam s n l 0x0302) (legParam s n l 0x030A)
    (committedState (legAt s n l)) t i).toInt)

/-- The audio that step 1 of R139 takes from a leg's store room in a tick (R168). -/
def audioAt (s : State) (n l t : Nat) : Sound :=
  (((roomAt s n l).out.find? (fun p => p.1 == t)).map (fun p => p.2)).getD (fillTick s n l t)

/-- The audio of a tick is used: it leaves the store room. -/
def dropAudio (n l t : Nat) (s : State) : State :=
  modRoom n l (fun r => { r with out := r.out.filter (fun p => decide (t < p.1)) }) s

/-- What a leg keeps when only what is committed may go on: no audio or state of an uncommitted cell, no report held for one
(R177). -/
def committedLeg (g : Leg) : Leg :=
  let r := g.room
  { g with
    dec := committedState g, detTone := markTone g, reports := g.reports.filter (fun p => decide (p.cell ≤ r.k))
    room := { r with
      f := r.k, mark := r.k + 1, ckpts := []
      cells := (r.cells.filter (fun c => c.2.st != .guessed)).map (fun c =>
        (c.1, if c.2.st = .decoded then { c.2 with st := .held, pcm := [] } else c.2)) } }

/-- A store room that follows the commit and adaptation decisions of another, and keeps its own cells (R177, R431). -/
def followRoom (own r : StoreRoom) : StoreRoom :=
  { own with
    running := r.running, activated := r.activated, kPos := r.kPos, k := r.k, w := r.w, f := max own.f r.k
    mark := max r.mark (r.k + 1), pNext := r.pNext, d := r.d, target := r.target, oow := r.oow, winStart := r.winStart
    slacks := r.slacks, lastSid := r.lastSid, fill := r.fill, overtook := r.overtook, seam := r.seam
    cells := own.cells.filter (fun c => decide (cellKey r.k < c.1)) }

/-- fill_ms: media from cell K + 1 up to w, in ms (R189). -/
def fillMs (s : State) (n l : Nat) : Nat :=
  let r := roomAt s n l
  if r.running then (r.w - (r.k + 1)).toNat * cellSpan (legCodec s n l) else 0

end Sys2Proof.Machine
end

