-- ==== Sys2Proof/Machine/Echo.lean ====
section
/-! DEFINITION. The echo canceller of a channel: states, windows, the delay finder's candidates, the far-end reference, a tick's
filter, double talk and NLP, tone disable, statistics (R106 to R131; log entries 30, 32). -/

namespace Sys2Proof.Machine

/-- A state with the canceller of a channel changed. -/
def modEc (n : Nat) (f : Ec → Ec) (s : State) : State := modChan n (fun c => { c with ec := f c.ec }) s
/-- The canceller of a channel. -/
def ecAt (s : State) (n : Nat) : Ec := (chanAt s n).ec
/-- The highest lag in ms searched and placed, 128 at most while the device is reefed (R126, R130). -/
def ecTail (s : State) (n : Nat) : Nat :=
  let t := chanParam s n 0x0202
  if s.age.reefed then min t 128 else t
/-- Whether the canceller runs at 16 kHz (R108). -/
def ecWide (s : State) (n : Nat) : Bool := above8k (entryAt s n 0).key (entryAt s n 0).params
/-- Samples of a ms at the canceller's rate (R108). -/
def ecRate (s : State) (n : Nat) : Nat := if ecWide s n then 16 else 8
/-- The number of a canceller state (R121). -/
def EcState.code : EcState → Nat
  | .off => 0 | .acquire => 1 | .adapt => 2 | .hold => 3 | .frozen => 4 | .toneDisabled => 5

/-- The canceller's state: the first row of Table 5 whose condition holds (R121). -/
def ecState (s : State) (n : Nat) (doubleTalk farActive : Bool) : EcState :=
  if chanParam s n 0x0201 = 0 then .off
  else if (ecAt s n).toneDisabled || (chanAt s n).vbd then .toneDisabled
  else if chanParam s n 0x0210 = 1 then .frozen
  else if (ecAt s n).windows.isEmpty then .acquire
  else if doubleTalk || !farActive || chanParam s n 0x0205 == 0 then .hold
  else .adapt

/-! ### Windows (R111 to R114, R127) -/

/-- Whether a lag in ms lies in a window. -/
def Window.covers (w : Window) (lag : Nat) : Bool := decide (w.startMs ≤ lag) && decide (lag < w.startMs + w.lenMs)
/-- Units in use. -/
def unitsUsed (ws : List Window) : Nat := ws.foldl (fun n w => n + w.units) 0

/-- Windows with one inserted in increasing start lag. -/
def insertWindow (w : Window) : List Window → List Window
  | [] => [w]
  | x :: t => if w.startMs < x.startMs then w :: x :: t else x :: insertWindow w t

/-- A window over a run of lags at `f` samples a ms: the taps at lags it shares with another keep their values, the others start
at 0.0; what it shows is read anew (R114). -/
def Window.span (f : Nat) (w : Window) (start len : Nat) : Window :=
  { w with
    startMs := start, lenMs := len, slice := [], next := none, gains := []
    taps := (List.range len).flatMap (fun i =>
      if w.covers (start + i) then ((w.taps.drop ((start + i - w.startMs) * f)).take f) else List.replicate f 0) }

/-- The window of two merged: from the lower start, the span rounded up to 16 ms, extended toward lower lags where the tail
would be passed; none beyond 64 ms (R112). The placed window `a` brings the taps that are not at 0.0 (R114). -/
def mergeWindows (f tail : Nat) (a b : Window) : Option Window :=
  let start := min a.startMs b.startMs
  let stop := max (a.startMs + a.lenMs) (b.startMs + b.lenMs)
  let len := (stop - start + 15) / 16 * 16
  if 64 < len then none
  else some { a.span f (if tail < start + len then tail - len else start) len with
              units := len / 16, peak := max a.peak b.peak, weak := 0 }

/-- Whether two windows overlap or lie within 8 ms of each other (R112). -/
def nearWindows (a b : Window) : Bool :=
  decide (a.startMs ≤ b.startMs + b.lenMs + 8) && decide (b.startMs ≤ a.startMs + a.lenMs + 8)

/-- A new window placed among the others: merged with the first it may merge with, else alone (R112). -/
def addWindow (f : Nat) (merge : Bool) (tail most : Nat) (w : Window) (ws : List Window) : List Window :=
  let alone := insertWindow w ws
  if !merge then alone
  else match ws.find? (fun x => nearWindows x w && (mergeWindows f tail x w).isSome) with
    | none => alone
    | some x => match mergeWindows f tail x w with
      | none => alone
      | some m =>
        let rest := ws.filter (fun y => y.startMs != x.startMs)
        if unitsUsed rest + m.units ≤ most then insertWindow m rest else alone

/-- The window with the lowest peak correlation. -/
def weakest (ws : List Window) : Option Window :=
  ws.foldl (fun b w => match b with
    | none => some w
    | some x => if w.peak < x.peak then some w else b) none

/-- A candidate taken at a boundary: placed where units are free, or in place of a window with at most half its correlation, whose
taps stay at the lags that the two share; otherwise it waits (R111, R113, R114). -/
def takeCandidate (n : Nat) (c : Candidate) (s : State) : State :=
  let e := ecAt s n
  let tail := ecTail s n
  let most := chanParam s n 0x0203
  let f := ecRate s n
  let start := if tail < c.lag - 2 + 16 then tail - 16 else c.lag - 2
  let put := fun (old : Window) (ws : List Window) =>
    let w : Window := { startMs := start, lenMs := 16, units := 1, peak := c.rho, taps := (old.span f start 16).taps }
    statBump n 0x028B 1 (modEc n (fun e => { e with
      windows := addWindow f (chanParam s n 0x0204 == 1) tail most w ws
      cands := e.cands.filter (fun x => x.lag != c.lag) }) s)
  if unitsUsed e.windows < most then put {} e.windows
  else match weakest e.windows with
    | none => s
    | some x => if 2 * x.peak ≤ c.rho then put x (e.windows.filter (fun y => y.startMs != x.startMs)) else s

/-- A candidate inserted in decreasing correlation, ties to the lower lag. -/
def insertCandidate (c : Candidate) : List Candidate → List Candidate
  | [] => [c]
  | x :: t => if x.rho < c.rho ∨ (x.rho = c.rho ∧ c.lag < x.lag) then c :: x :: t else x :: insertCandidate c t

/-- Whether placement, merging and release act: not while OFF, TONE_DISABLED or FROZEN (R121). -/
def ecMoves (s : State) (n : Nat) : Bool :=
  chanParam s n 0x0201 != 0 && !(ecAt s n).toneDisabled && !(chanAt s n).vbd && chanParam s n 0x0210 == 0

/-- WINDOW_PLACEMENT (R111). -/
def execWindowPlacement (chan : BitVec 13) (s : State) : Host.Outcome State Fault Refusal :=
  let n := chan.toNat
  .next (if ecMoves s n then
      let due := (ecAt s n).cands.filter (fun c => decide (chanParam s n 0x020E ≤ c.age))
      (due.foldl (fun l c => insertCandidate c l) []).foldl (fun s c =>
        if (ecAt s n).windows.any (fun w => w.covers c.lag) then s else takeCandidate n c s) s
    else s)

/-- WINDOW_RELEASE (R113). -/
def execWindowRelease (chan : BitVec 13) (s : State) : Host.Outcome State Fault Refusal :=
  let n := chan.toNat
  .next (if ecMoves s n then
      modEc n (fun e => { e with windows := e.windows.filter (fun w => decide (w.weak < chanParam s n 0x020F)) }) s
    else s)

/-- Windows under a tail: those that start beyond it go, those that end beyond it are trimmed (R127). -/
def trimWindows (f tail : Nat) (ws : List Window) : List Window :=
  (ws.filter (fun w => decide (w.startMs < tail))).map (fun w =>
    if tail < w.startMs + w.lenMs then w.span f w.startMs (tail - w.startMs) else w)

/-- Windows released in increasing peak correlation until the units fit (R127). -/
def fitUnits : Nat → Nat → List Window → List Window
  | 0, _, ws => ws
  | fuel + 1, most, ws =>
    if unitsUsed ws ≤ most then ws
    else match weakest ws with
      | none => ws
      | some x => fitUnits fuel most (ws.filter (fun y => y.startMs != x.startMs))

/-- The windows of a channel under its tail and units in force (R127, R130). -/
def fitWindows (n : Nat) (s : State) : State :=
  modEc n (fun e => { e with windows := fitUnits 5 (chanParam s n 0x0203) (trimWindows (ecRate s n) (ecTail s n) e.windows) }) s

/-- A reset: windows released, the delay finder and its candidates cleared, level statistics not measured (R127). -/
def ecReset (n : Nat) (s : State) : State :=
  modChan n (fun c => { c with
    ec := { c.ec with windows := [], cands := [], finder := {}, diverge := 0, near := 0, resid := 0, lost := [] }
    stats := tdel (tdel (tdel (tdel c.stats 0x0281) 0x0282) 0x0283) 0x0284 }) s

/-- Every tap at 0.0 (R125). -/
def zeroTaps (n : Nat) (s : State) : State :=
  modEc n (fun e => { e with windows := e.windows.map (fun w => { w with taps := w.taps.map (fun _ => 0) }) }) s

/-! ### Far-end reference (R106, R107, R123, R124) -/

/-- The history region's place of a channel's reference in a tick: a circle of 512 ms, 16 bytes a tick at 8 kHz and 32 at 16
kHz (R123). -/
def historyAddr (s : State) (n t : Nat) : Option (Nat × Nat) :=
  let k := 2 * ecRate s n
  (regionBase s 3).map (fun b => (b + 16384 * n + t % 512 * k, k))

/-- A tick's reference samples in the cellar, newest first; 0 where no region is placed (R123). -/
def historyTick (s : State) (n t : Nat) : List Int :=
  match historyAddr s n t with
  | some (a, k) => ((List.range (k / 2)).map (fun i =>
      asSigned 16 (leNat (Memory.readBytes s.mem (cellarBase + a + 2 * i) 2)))).reverse
  | none => List.replicate (ecRate s n) 0

/-- The reference of a tick written to the local ring and, by cellar DMA, to the cellar; a refused write moves nothing (R122,
R123, R366). -/
def storeReference (n t : Nat) (xs : List Int) (s : State) : State :=
  let s1 := modEc n (fun e => { e with ring := (xs.reverse ++ e.ring).take (80 * ecRate s n) }) s
  match historyAddr s n t with
  | some (a, k) =>
    if dmaDenied s n (cellarBase + a) k true then recordDenial (workMaster s n) (cellarBase + a) k true s1
    else storeBytes (cellarBase + a) ((xs.flatMap (fun x => toLe 2 (ofSigned 16 x))).take k) s1
  | none => s1

/-- A tick of the history fetched for a window by cellar DMA: none where the access tables refuse it or it meets an uncorrectable
word, which is handled as in any transfer (R123, R124, R366, R394). -/
def fetchTick (n t : Nat) (s : State) : Option (List Int) × State :=
  match historyAddr s n t with
  | none => (some (historyTick s n t), s)
  | some (a, k) =>
    let m := workMaster s n
    if dmaDenied s n (cellarBase + a) k false then (none, recordDenial m (cellarBase + a) k false s)
    else match poisonedIn s (cellarBase + a) k with
      | [] => (some (historyTick s n t), s)
      | bad => (none, transferDropped m (accessTarget s (cellarBase + a) k).1
          (bad.foldl (fun s p => memoryUe m p s) s))

/-- The slices of the next tick requested at the end of tick `t`, for every window that reads the cellar (R122, R123). -/
def requestSlices (n t : Nat) (s : State) : State :=
  (List.range (ecAt s n).windows.length).foldl (fun s k =>
    match (ecAt s n).windows[k]? with
    | none => s
    | some w =>
      if w.startMs < 16 then s
      else
        let r := if w.startMs ≤ t + 1 then fetchTick n (t + 1 - w.startMs) s else (some (List.replicate (ecRate s n) 0), s)
        modEc n (fun e => { e with windows := e.windows.modify k (fun w => { w with next := r.1 }) }) r.2) s

/-- `k` samples of a list, 0 beyond its end. -/
def padSamples (k : Nat) (l : List Int) : List Int := l.take k ++ List.replicate (k - l.length) 0

/-- The windows whose slice for a tick is lost: not arrived, refused, or met by an uncorrectable word; a window that starts below
16 ms reads the local ring and loses none (R123, R124). -/
def lostSlices (e : Ec) (g : EcSignal) : List Nat :=
  (List.range e.windows.length).filter (fun k => (e.windows[k]?).any (fun w => decide (16 ≤ w.startMs) &&
    (g.lost.contains k || e.lost.contains k || (!w.slice.isEmpty && w.next.isNone))))

/-- The reference samples that a window shows for the near-end samples of tick `t`, newest first: from the local ring where it
starts below 16 ms, whose newest sample is of the tick before; else its resident slice with the tick of new samples that was
requested, 0.0 where they are lost; a window just placed reads all of its slice (R107, R123, R124). -/
def windowSamples (s : State) (n t : Nat) (lost : Bool) (w : Window) : List Int :=
  let f := ecRate s n
  let k := (w.lenMs + 1) * f
  let past := fun (i : Nat) => if i ≤ t then historyTick s n (t - i) else List.replicate f 0
  if w.startMs < 16 then padSamples k ((List.replicate f 0 ++ (ecAt s n).ring).drop (w.startMs * f))
  else
    let new := if lost then List.replicate f 0 else w.next.getD (past w.startMs)
    let held := if w.slice.length = k then w.slice else (List.range w.lenMs).flatMap (fun i => past (w.startMs + 1 + i))
    padSamples k (new ++ held)

/-- What the windows show in a tick, with the power of the samples that entered each; every lost slice is counted (R116, R123,
R124). -/
def showReference (n t : Nat) (lost : List Nat) (s : State) : State :=
  statBump n 0x028F lost.length (modEc n (fun e => { e with lost := [], windows := e.windows.zipIdx.map (fun p =>
    let l := windowSamples s n t (lost.contains p.2) p.1
    { p.1 with slice := l, next := none, power := smoothPower p.1.power (meanSquare (l.take (ecRate s n))) }) }) s)

/-! ### A tick of the canceller (R109, R110, R116 to R125) -/

/-- The correlation of a lag in 1/10,000; 0 for one that is not listed. -/
def rhoAt (rho : List (Nat × Nat)) (lag : Nat) : Nat := ((rho.find? (fun p => p.1 == lag)).map (fun p => p.2)).getD 0

/-- The lags that R110 admits: a correlation of at least 0.1 and of an eighth of the highest, no lower than its neighbours',
in no placed window. -/
def candidateLags (ws : List Window) (tail : Nat) (rho : List (Nat × Nat)) : List (Nat × Nat) :=
  let seen := rho.filter (fun p => decide (p.1 < tail))
  let top := seen.foldl (fun m p => max m p.2) 0
  seen.filter (fun p => decide (1000 ≤ p.2) && decide (top ≤ 8 * p.2) &&
    (p.1 == 0 || decide (rhoAt seen (p.1 - 1) ≤ p.2)) && decide (rhoAt seen (p.1 + 1) ≤ p.2) &&
    !ws.any (fun w => w.covers p.1))

/-- The candidates after a tick: one stays while a lag within 1 ms of its first lag qualifies; a lag near no candidate
becomes one (R110). -/
def nextCandidates (ws : List Window) (tail : Nat) (rho : List (Nat × Nat)) (old : List Candidate) : List Candidate :=
  let ok := candidateLags ws tail rho
  let near := fun (a b : Nat) => decide (a ≤ b + 1) && decide (b ≤ a + 1)
  let kept := old.filterMap (fun c => (ok.find? (fun p => near p.1 c.lag)).map (fun p =>
    { c with age := c.age + 1, rho := p.2 }))
  let fresh := ok.filter (fun p => !old.any (fun c => near p.1 c.lag))
  kept ++ fresh.map (fun p => { lag := p.1, age := 1, rho := p.2 })

/-- A window with its peak correlation of the tick, a tick below 0.05 counted (R113). -/
def nextPeak (rho : List (Nat × Nat)) (w : Window) : Window :=
  let p := rho.foldl (fun m x => if w.covers x.1 then max m x.2 else m) 0
  { w with peak := p, weak := if p < 500 then w.weak + 1 else 0 }

/-- The far-end level F in 0.1 dBm0: the highest over the placed windows; none without a window (R116). -/
def farLevel (e : Ec) : Option Int := e.windows.foldl (fun m w => match m with
  | some y => some (max (levelOf w.power) y)
  | none => some (levelOf w.power)) none

/-- The level statistics of a tick (R128). -/
def ecLevels (n : Nat) (near resid : Int) (level : Option Int) (single : Bool) (s : State) : State :=
  let s1 := statSet n 0x0283 (ofSigned 32 resid) s
  match level with
  | none => s1
  | some f =>
    let s2 := statSet n 0x0284 (ofSigned 32 f) s1
    if single then statSet n 0x0281 (ofSigned 32 (f - near)) (statSet n 0x0282 (ofSigned 32 (near - resid)) s2) else s2

/-- Whether the condition of tone_disable holds for a tone that has lasted `ms`: a reversal after 200 ms, or in mode 2 also 350 ms
of the tone (R120). -/
def disables (mode ms : Nat) (reversal : Bool) : Bool :=
  (decide (mode = 1 ∨ mode = 2) && reversal && decide (200 ≤ ms)) || (mode == 2 && decide (350 ≤ ms))

/-- Whether what is measured is the tone of R120: 2,100 Hz ± 21 Hz at -31 dBm0 or above. -/
def toneHolds (t : DisableTone) : Bool :=
  decide (20790 ≤ t.hz) && decide (t.hz ≤ 21210) && decide (-310 ≤ t.level)
/-- Whether a signal's tone shows a phase reversal in the tick: 180° ± 25° (R120). -/
def turnsAround (t : Option DisableTone) : Bool := t.any (fun t => toneHolds t && decide (155 ≤ t.turn) && decide (t.turn ≤ 205))
/-- The ticks for which a signal has held the tone. -/
def toneTicks (t : Option DisableTone) (before : Nat) : Nat := if t.any toneHolds then before + 1 else 0

/-- The tones of the near-end input and the reference timed; a condition of tone_disable waits for the boundary, where the
canceller is not disabled already: the near end's first, where both meet one (R120, R131; log entry 32). -/
def noteTone (n : Nat) (g : EcSignal) (s : State) : State :=
  let e := ecAt s n
  let near := toneTicks g.near e.toneNear
  let far := toneTicks g.far e.toneFar
  let mode := chanParam s n 0x020D
  let alone := fun (ms : Nat) (t : Option DisableTone) => !(turnsAround t && decide (200 ≤ ms))
  let seen := if e.toneDisabled || (chanAt s n).vbd then e.toneSeen
    else if disables mode near (turnsAround g.near) then some (false, alone near g.near)
    else if disables mode far (turnsAround g.far) then some (true, alone far g.far)
    else e.toneSeen
  modEc n (fun e => { e with toneNear := near, toneFar := far, toneSeen := seen }) s

/-- The background estimate: the lowest near-end level kept (R119). -/
def background (e : Ec) : Option Int := e.bgs.foldl (fun m x => match m with
  | some y => some (min x y)
  | none => some x) none

/-- The level of comfort noise: the background estimate, limited to cng_max_dbm0, which it is where none has been taken (R119;
log entry 30). -/
def noiseLevel (s : State) (n : Nat) : Int :=
  let top := 10 * asSigned 32 (chanParam s n 0x020C)
  min top ((background (ecAt s n)).getD top)

/-- A tick's samples under an activity of the NLP: themselves, else 0.0 in mode 1 and comfort noise in mode 2 (R118). -/
def nlpOutput (mode : Nat) (active : Bool) (es noise : List Int) : List Int :=
  if !active then es else if mode = 2 then noise else es.map (fun _ => 0)

/-- A tick's samples as the NLP leaves them, crossing from what it did in the tick before (R118). -/
def nlpCrossed (mode : Nat) (before now : Bool) (es noise : List Int) : List Int :=
  let b := nlpOutput mode now es noise
  if before = now then b else crossed (nlpOutput mode before es noise) b

/-- What a running canceller makes of a tick: its state, the flags of its filter, and the residual after the NLP with the upper
band under the NLP's gain (R108, R118). -/
structure EcTick where
  state : State
  flags : BitVec 3
  out : Sound
  deriving DecidableEq, Repr

/-- The parts of a tick that a running canceller does, in the order of R122: gains, residual, adaptation, NLP, delay finder. `ys`
are the near-end samples, `upper` the band above them. -/
def ecRun (n : Nat) (st : EcState) (g : EcSignal) (ys upper : List Int) (dt inDt far lost : Bool) (level : Option Int)
    (s : State) : EcTick :=
  let e := ecAt s n
  let single := far && !inDt
  let filters := st != .acquire && !e.windows.isEmpty
  let adapts := st == .adapt && !dt && !lost
  let x : Filtered := if filters then
      filterTick adapts (chanParam s n 0x0205) (chanParam s n 0x0206) (e.windows.map (fun w => (w.taps, w.slice))) ys
    else { e := ys.map sampleF, taps := e.windows.map (fun w => w.taps), gains := e.windows.map (fun w => w.gains), flags := 0 }
  let power := smoothPower e.resid (meanSquareF x.e)
  let near := levelOf e.near
  let resid := levelOf power
  let mode := chanParam s n 0x020A
  let nlp := filters && far && !inDt && mode != 0 &&
    level.any (fun f => decide (resid ≤ f - 10 * (chanParam s n 0x020B : Int)))
  let noisy := nlp && mode == 2
  let s1 := ecLevels n near resid level single s
  let s2 := if inDt then statBump n 0x0289 1 s1 else s1
  let s3 := if nlp then statBump n 0x028A 1 s2 else s2
  let level := noiseLevel s n
  let noise := (List.range ys.length).map (fun i => (Config.noiseSample e.seed e.fit level i).toInt)
  let finder := e.finder.after (ecTail s n) g.decNear g.decRef
  let rho := finder.rho
  { state := modEc n (fun e => { e with
      cands := nextCandidates e.windows (ecTail s n) rho e.cands
      windows := (e.windows.zip (x.taps.zip x.gains)).map (fun p => nextPeak rho { p.1 with taps := p.2.1, gains := p.2.2 })
      diverge := if single then (if near + 30 < resid then e.diverge + 1 else 0) else e.diverge
      nlp := nlp, finder := finder, resid := power
      noise := if noisy then some level else none
      seed := if noisy || (e.nlp && mode == 2) then Config.noiseNext e.seed else e.seed
      fit := if far || inDt then e.fit else Config.noiseFit e.fit ys
      bgs := if far then e.bgs else (near :: e.bgs).take 2000 }) s3
    flags := x.flags
    out := { base := nlpCrossed mode e.nlp nlp (x.e.map sampleOf) noise
             upper := nlpCrossed 1 e.nlp nlp upper [] } }

/-! ### AFS in a channel's work (R71, R73, R125, R157) -/

/-- A lane's AFS with flags that a part of a channel's work raises. -/
def raiseAfs (lane : Nat) (flags : BitVec 3) (s : State) : State :=
  if flags = 0 then s
  else
    let x := laneAt s lane
    commitArith lane flags x.core.pc.toNat (putLane lane { x with core := { x.core with afs := x.core.afs ||| flags } } s)

/-- A lane's AFS cleared. -/
def clearAfs (lane : Nat) (s : State) : State :=
  let x := laneAt s lane
  if x.core.afs = 0 then s else putLane lane { x with core := { x.core with afs := 0 } } s

/-- The flags that a lane reads from AFS, and the state with them cleared. -/
def takeAfs (lane : Nat) (s : State) : BitVec 3 × State := ((laneAt s lane).core.afs, clearAfs lane s)

/-- AFS read at the end of the canceller's part, to which `flags` came; the second component says that a flag was set (R125). -/
def ecNumeric (n : Nat) (flags : BitVec 3) (s : State) : State × Bool :=
  let lane := (chanAt s n).worker
  let r := takeAfs lane (raiseAfs lane flags s)
  if r.1 = 0 then (r.2, false)
  else (raise 160 [(2, n), (1, r.1.toNat)] (statBump n 0x028D 1 (zeroTaps n r.2)), true)

/-- The canceller's part of a channel's tick and its output, from the near-end input: the residual after the NLP, or the input
unchanged (R106, R121, R122, R125). -/
def ecWork (n : Nat) (g : EcSignal) (x : Sound) (s : State) : State × Sound :=
  let ys := padSamples (ecRate s n) x.base
  let lost := lostSlices (ecAt s n) g
  let s0 := showReference n (workTick s) lost (modEc n (fun e => { e with near := smoothPower e.near (meanSquare ys) }) s)
  let e := ecAt s0 n
  let dt := !e.windows.isEmpty &&
    doubleTalk (chanParam s n 0x0208) (e.windows.map (fun w => (w.taps.length, w.slice))) ys
  let inDt := dt || decide (0 < e.hangover)
  let level := farLevel e
  let far := level.any (fun f => decide (10 * asSigned 32 (chanParam s n 0x0207) ≤ f))
  let st := ecState s0 n inDt far
  let idle := st == .off || st == .toneDisabled
  let run : EcTick := if idle then { state := modEc n (fun e => { e with nlp := false, noise := none }) s0, flags := 0, out := x }
    else ecRun n st g ys x.upper dt inDt far (!lost.isEmpty) level s0
  let r := if st = .off then (run.state, false) else ecNumeric n (run.flags ||| g.flags) run.state
  let still := e.toneDisabled && belowLevel (-360) ys && belowLevel (-360) (e.ring.take (ecRate s n))
  let s3 := noteTone n g (modEc n (fun e => { e with
    state := st, dtNow := inDt, farActive := far, hangover := if dt then chanParam s n 0x0209 else e.hangover - 1
    quiet := if still then e.quiet + 1 else 0 }) r.1)
  (statSet n 0x0280 st.code s3, if idle || st == .acquire || r.2 then x else run.out)

/-- DTD_HANGOVER_END (R117): once the hangover ticks have passed, the canceller no longer counts as in double talk. -/
def execDtdHangoverEnd (chan : BitVec 13) (s : State) : Host.Outcome State Fault Refusal :=
  .next (if (ecAt s chan.toNat).hangover = 0 then modEc chan.toNat (fun e => { e with dtNow := false }) s else s)

/-- DIVERGENCE_RESET (R125): 64 consecutive single-talk ticks with the residual more than 3 dB above the input. -/
def execDivergenceReset (chan : BitVec 13) (s : State) : Host.Outcome State Fault Refusal :=
  let n := chan.toNat
  .next (if 64 ≤ (ecAt s n).diverge then
      let resid := asSigned 32 (statOf (chanAt s n) 0x0283)
      let near := resid + asSigned 32 (statOf (chanAt s n) 0x0282)
      raise 162 [(2, n), (2, ofSigned 16 resid), (2, ofSigned 16 near)]
        (statBump n 0x028E 1 (modEc n (fun e => { e with diverge := 0 }) (zeroTaps n s)))
    else s)

/-- TONE_DISABLE_ENTER (R120): the boundary after a tone condition. -/
def execToneDisableEnter (chan : BitVec 13) (s : State) : Host.Outcome State Fault Refusal :=
  let n := chan.toNat
  .next (match (ecAt s n).toneSeen with
    | none => s
    | some (far, alone) =>
      if (ecAt s n).toneDisabled then modEc n (fun e => { e with toneSeen := none }) s
      else
      let s1 := modEc n (fun e => { e with toneSeen := none, toneDisabled := true, quiet := 0 }) s
      raise 161 [(2, n), (1, if far then 1 else 0), (1, if alone then 1 else 0)] (statBump n 0x028C 1 s1))

/-- TONE_DISABLE_EXIT (R120): the boundary after 250 quiet ticks. -/
def execToneDisableExit (chan : BitVec 13) (s : State) : Host.Outcome State Fault Refusal :=
  let n := chan.toNat
  .next (if (ecAt s n).toneDisabled && decide (250 ≤ (ecAt s n).quiet) then
      modEc n (fun e => { e with toneDisabled := false, toneSeen := none }) s
    else s)

/-- The window statistics: length in taps and start lag in samples (R128). -/
def windowStat (s : State) (n k : Nat) : Nat :=
  let f := if ecWide s n then 16 else 8
  match (ecAt s n).windows[k]? with
  | some w => w.lenMs * f * 65536 + w.startMs * f
  | none => 0

end Sys2Proof.Machine
end

