-- ==== Sys2Proof/Machine/Rtp.lean ====
section
/-! DEFINITION. RTP and RTCP packets of a leg: receive checks, payload layouts, adoption of an SSRC, reports (R140 to R144,
R153, R154, R160). -/

namespace Sys2Proof.Machine

/-! ### Units -/

/-- RTP clock units of a leg in a tick (R132, R155). -/
def legClock (s : State) (n l : Nat) : Nat := codecClock (legCodec s n l)
/-- The PT of voiceband data on an RTP leg (R155). -/
def vbdPt (s : State) (n l : Nat) : Nat :=
  if legParam s n l 0x0313 = 0 then codecPt (chanParam s n 0x0312) else legParam s n l 0x0313
/-- The tone code of an RFC 4733 event that R153 accepts. -/
def eventTone (e : Nat) : Option Nat :=
  if e ≤ 15 then some (e + 1)
  else if e = 36 then some 0x48
  else if 32 ≤ e ∧ e ≤ 35 then some (e + 0x29)
  else none
/-- The RFC 4733 event of a tone code (R149, Table 6). -/
def toneEvent (c : Nat) : Option Nat :=
  if 1 ≤ c ∧ c ≤ 0x10 then some (c - 1)
  else if c = 0x48 then some 36
  else if 0x49 ≤ c ∧ c ≤ 0x4C then some (c - 0x29)
  else none

/-! ### Payloads (R132, R134, R140 check 4, R143) -/

/-- Speech or SID bits of an AMR frame of a type: 0 for no data, none for a type that the standard does not use (PRESUMED, log
entry 53). -/
def amrBits (wide : Bool) (ft : Nat) : Option Nat :=
  if wide then [132, 177, 253, 285, 317, 365, 397, 461, 477, 40][ft]? <|> (if ft = 14 ∨ ft = 15 then some 0 else none)
  else [95, 103, 118, 134, 148, 159, 204, 244, 39][ft]? <|> (if ft = 15 then some 0 else none)

/-- Bytes of an AMR frame of a type (R143). -/
def amrBytes (wide : Bool) (ft : Nat) : Option Nat := (amrBits wide ft).map (fun k => (k + 7) / 8)

/-- A frame of `bits` bits padded with zero bits to a whole octet (R133, R143). -/
def padBits (bits : Nat) (b : Bytes) : Bytes :=
  let k := 2 ^ ((8 - bits % 8) % 8)
  match b.getLast? with
  | some x => b.dropLast ++ [BitVec.ofNat 8 (x.toNat / k * k)]
  | none => b

/-- The table of contents of an AMR payload: its bytes up to the first with bit 7 clear. -/
def amrToc : Bytes → Option (Bytes × Bytes)
  | [] => none
  | b :: t =>
    if b.toNat % 4 ≠ 0 then none
    else if b.toNat < 128 then some ([b], t)
    else (amrToc t).map (fun p => (b :: p.1, p.2))

/-- The frames of an AMR payload, each with its TOC byte, bit 7 clear; none where the bytes do not match. -/
def amrFrames (wide : Bool) : Bytes → Bytes → Option (List Bytes)
  | [], rest => if rest.isEmpty then some [] else none
  | b :: t, rest => match amrBits wide (b.toNat / 8 % 16) with
    | none => none
    | some bits =>
      let k := (bits + 7) / 8
      let f := rest.take k
      if rest.length < k ∨ padBits bits f ≠ f then none
      else (amrFrames wide t (rest.drop k)).map (fun l => (BitVec.ofNat 8 (b.toNat % 128) :: f) :: l)

/-- A frame length of an Opus packet in one or two bytes, and what follows it (RFC 6716). -/
def opusLen : Bytes → Option (Nat × Bytes)
  | [] => none
  | a :: t =>
    if a.toNat < 252 then some (a.toNat, t)
    else match t with
      | [] => none
      | b :: r => some (4 * b.toNat + a.toNat, r)

/-- The total of `k` frame lengths of an Opus packet, and what follows them. -/
def opusLens : Nat → Bytes → Option (Nat × Bytes)
  | 0, b => some (0, b)
  | k + 1, b => (opusLen b).bind (fun x => (opusLens k x.2).map (fun y => (x.1 + y.1, y.2)))

/-- The padding length of an Opus packet, and what follows its bytes. -/
def opusPad : Bytes → Option (Nat × Bytes)
  | [] => none
  | a :: t => if a.toNat < 255 then some (a.toNat, t) else (opusPad t).map (fun p => (p.1 + 254, p.2))

/-- Whether the bytes after an Opus packet's TOC and frame count hold `m` frames and `pad` bytes of padding: of equal
length, or with lengths in front of them. -/
def opusBody (vbr : Bool) (m pad : Nat) (r : Bytes) : Bool :=
  if vbr then
    match opusLens (m - 1) r with
    | some (total, rest) => decide (pad + total ≤ rest.length) && decide (rest.length - pad - total ≤ 1275)
    | none => false
  else decide (pad ≤ r.length) && (r.length - pad) % m == 0 && decide ((r.length - pad) / m ≤ 1275)

/-- The length of an Opus packet's audio in units of 1/48 ms; none where it is not framed as RFC 6716 defines (R134, R140,
R143; PRESUMED, log entry 53). -/
def opusUnits (b : Bytes) : Option Nat :=
  match b with
  | [] => none
  | t :: rest =>
    let cfg := t.toNat / 8
    let frame := if cfg < 12 then [480, 960, 1920, 2880].getD (cfg % 4) 0
      else if cfg < 16 then [480, 960].getD (cfg % 2) 0 else [120, 240, 480, 960].getD (cfg % 4) 0
    let c := t.toNat % 4
    if c = 0 then (if opusBody false 1 0 rest then some frame else none)
    else if c = 1 then (if opusBody false 2 0 rest then some (2 * frame) else none)
    else if c = 2 then (if opusBody true 2 0 rest then some (2 * frame) else none)
    else match rest with
      | [] => none
      | x :: r =>
        let m := x.toNat % 64
        match if x.toNat / 64 % 2 = 1 then opusPad r else some (0, r) with
        | none => none
        | some (pad, r) =>
          if m ≠ 0 ∧ m * frame ≤ 5760 ∧ opusBody (decide (128 ≤ x.toNat)) m pad r then some (m * frame) else none

/-- A part of a sample codec's payload. -/
def samplePart (a : Nat) (pos : Word) (units : Nat) (b : Bytes) : Part :=
  { arrival := a, pos := pos, units := units, len := units, data := b }

/-- Parts of successive frames `len` units apart; `sid` marks the SID frames. -/
def framePartsFrom (a len : Nat) (sid : Bytes → Bool) : Word → List Bytes → List Part
  | _, [] => []
  | pos, b :: t =>
    { arrival := a, pos := pos, units := 1, len := len, sid := sid b, data := b } ::
      framePartsFrom a len sid (pos + BitVec.ofNat 32 len) t

/-- A run of bytes in chunks of 10. -/
def tens : Nat → Bytes → List Bytes
  | 0, _ => []
  | k + 1, b => if b.isEmpty then [] else b.take 10 :: tens k (b.drop 10)

/-- The AMR frame type of a stored frame. -/
def amrType (b : Bytes) : Nat := leAt b 0 1 / 8 % 16

/-- The parts of an AMR payload: frames without data are no parts. -/
def amrParts (wide : Bool) (a : Nat) (pos : Word) (b : Bytes) : Option (List Part) :=
  match b with
  | [] => none
  | cmr :: t =>
    if cmr.toNat % 16 ≠ 0 then none
    else match amrToc t with
      | none => none
      | some (toc, rest) =>
        let len := if wide then 320 else 160
        if 6 < toc.length then none
        else (amrFrames wide toc rest).map (fun l =>
          (framePartsFrom a len (fun f => amrType f == (if wide then 9 else 8)) pos l).filter (fun p => 1 < p.data.length))

/-- The parts of a payload of a codec at a position, arriving in tick `a`; none where it fails check 4 (R140, R143). `rate`
is the bit rate of G.726. -/
def payloadParts (codec rate a : Nat) (pos : Word) (b : Bytes) : Option (List Part) :=
  if codec ≤ 3 then
    if 8 ≤ b.length ∧ b.length ≤ 960 then some [samplePart a pos b.length b] else none
  else if codec = 4 then
    let bits := rate / 8000
    let k := 8 * b.length / bits
    if 8 * b.length % bits = 0 ∧ 8 ≤ k ∧ k ≤ 960 then some [samplePart a pos k b] else none
  else if codec = 5 then
    if b.length % 10 ≠ 0 ∧ b.length % 10 ≠ 2 then none
    else
      let l := tens 16 b
      if l.isEmpty ∨ 12 < l.length ∨ 122 < b.length then none
      else some (framePartsFrom a 80 (fun f => f.length == 2) pos l)
  else if codec ≤ 7 then amrParts (codec == 7) a pos b
  else match opusUnits b with
    | none => none
    | some u => if 48 ≤ u ∧ u ≤ 5760 then some [{ arrival := a, pos := pos, units := 1, len := u, data := b }] else none

/-! ### Header (R140 check 1) -/

/-- An RTP packet: marker, PT, sequence number, timestamp, SSRC, payload. -/
structure RtpIn where
  pt : Nat
  seq : Nat
  ts : Word
  ssrc : Word
  data : Bytes
  deriving DecidableEq, Repr

/-- The RTP packet in a UDP payload; none where version, CSRC count, extension or padding do not fit. -/
def parseRtp (b : Bytes) : Option RtpIn :=
  let b0 := leAt b 0 1
  let h1 := 12 + 4 * (b0 % 16)
  let h2 := if b0 / 16 % 2 = 1 then h1 + 4 + 4 * beAt b (h1 + 2) 2 else h1
  let pad := if b0 / 32 % 2 = 1 then leNat (b.drop (b.length - 1)) else 0
  let fits := decide (12 ≤ b.length) && (b0 / 16 % 2 == 0 || decide (h1 + 4 ≤ b.length)) && decide (h2 + pad ≤ b.length)
  if b0 / 64 = 2 ∧ fits then
    some { pt := leAt b 1 1 % 128, seq := beAt b 2 2, ts := BitVec.ofNat 32 (beAt b 4 4)
           ssrc := BitVec.ofNat 32 (beAt b 8 4), data := (b.drop h2).take (b.length - h2 - pad) }
  else none

/-! ### Reception (R140, R141, R153, R160) -/

/-- Corrected time in RTP clock units of a leg. -/
def arrivalUnits (s : State) (n l : Nat) : Nat := nowNs s * legClock s n l / 1000000

/-- RFC 3550's sequence and jitter state after a packet, and the statistics that show it (R160). -/
def countRtp (n l : Nat) (p : RtpIn) (s : State) : State :=
  let g := legAt s n l
  let ahead := (p.seq + 65536 - g.extSeq % 65536) % 65536
  let ext := if g.seqBase.isNone then p.seq else if ahead < 32768 then g.extSeq + ahead else g.extSeq
  let base := g.seqBase.getD p.seq
  let tr := arrivalUnits s n l % 2 ^ 32
  let transit := (tr + 2 ^ 32 - p.ts.toNat) % 2 ^ 32
  let d := (asSigned 32 (transit + 2 ^ 32 - g.transit)).natAbs
  let jit := if g.seqBase.isNone then none
    else some (let j := g.jit.getD 0; j + d - (j + 8) / 16)
  let s1 := modLeg n l (fun g => { g with
    extSeq := ext, seqBase := some base, rxCount := g.rxCount + 1, transit := transit, jit := jit }) s
  let b := rtpBase s n l
  let s2 := statBump n b 1 s1
  let s3 := statSet n (b + 2) (ofSigned 32 ((ext + 1 : Int) - base - (g.rxCount + 1 : Int))) s2
  match jit with
  | some j => statSet n (b + 3) (j / 16) s3
  | none => s3

/-- The event list of a store room with an item put by its media position (R164). -/
def insertEvent (e : EvItem) : List EvItem → List EvItem
  | [] => [e]
  | x :: t => if (e.pos - x.pos).toInt < 0 then e :: x :: t else x :: insertEvent e t

/-- An event as a later packet of its timestamp updates it (R153). -/
def updateEvent (e x : EvItem) : EvItem :=
  if x.pos = e.pos then { x with dur := e.dur, volume := e.volume, ended := x.ended || e.ended } else x

/-- An event packet or message in its tick: a new position starts an event, the same one updates it (R153). -/
def takeEvent (n l : Nat) (s : State) (e : EvItem) : State :=
  let g := legAt s n l
  if g.room.events.any (fun x => x.pos == e.pos) then
    modRoom n l (fun r => { r with events := r.events.map (updateEvent e) }) s
  else if g.evRx.any (fun x => x.pos == e.pos) || g.evIgnore == some e.pos then
    modLeg n l (fun g => { g with evRx := g.evRx.map (updateEvent e) }) s
  else statBump n 0x03A5 1 (modRoom n l (fun r => { r with events := insertEvent e r.events }) s)

/-- The events that the packets waiting for their tick will start. -/
def comingEvents (r : StoreRoom) : Nat :=
  ((r.evIn.map (fun e => e.pos)).eraseDups.filter (fun p => !r.events.any (fun x => x.pos == p))).length

/-- An event packet or message arrives for a leg and waits for its tick; one of a new position is dropped where 16 events not yet
played out are held (R24, R153, R164). The first component says that it was dropped. -/
def acceptEvent (n l : Nat) (e : EvItem) (s : State) : Bool × State :=
  let r := roomAt s n l
  let known := r.events.any (fun x => x.pos == e.pos) || r.evIn.any (fun x => x.pos == e.pos)
  if !known && decide (16 ≤ r.events.length + comingEvents r) then (true, s)
  else (false, modRoom n l (fun r => { r with evIn := r.evIn ++ [{ e with arrival := arrivalTick s }] }) s)

/-- What arrived for a packet leg before tick `t` and acts in it: event packets, and the CMR of audio packets (R24, R134, R153).
-/
def takeInputs (n l t : Nat) (s : State) : State :=
  let g := legAt s n l
  let due := g.room.evIn.filter (fun e => decide (e.arrival ≤ t))
  let cmrs := g.cmrIn.filter (fun p => decide (p.1 ≤ t))
  let s1 := modLeg n l (fun g => { g with
    cmr := ((cmrs.getLast?).map (fun p => p.2)).getD g.cmr
    cmrIn := g.cmrIn.filter (fun p => decide (t < p.1))
    room := { g.room with evIn := g.room.evIn.filter (fun e => decide (t < e.arrival)) } }) s
  if due.isEmpty then s1 else storeEvents n l (due.foldl (takeEvent n l) s1)

/-- An event packet of an RTP leg (R153). -/
def rtpEvent (n l : Nat) (p : RtpIn) (s : State) : State :=
  let b := rtpBase s n l
  match eventTone (leAt p.data 0 1) with
  | none => statBump n (b + 0x0D) 1 s
  | some c =>
    let b1 := leAt p.data 1 1
    let r := acceptEvent n l { pos := p.ts, code := c, volume := b1 % 64, dur := beAt p.data 2 2, ended := decide (128 ≤ b1) } s
    if r.1 then statBump n (b + 0x0D) 1 r.2 else r.2

/-- A request for voiceband-data mode that waits for the boundary, with its cause (R154). -/
def askVbd (n cause : Nat) (s : State) : State :=
  if chanParam s n 0x0311 = 1 then
    modChan n (fun c => if c.vbd || c.vbdAsk.isSome then c else { c with vbdAsk := some cause }) s
  else s

/-- The codec of a packet by its PT; none for an event. Audio of a PT that is not the payload type is voiceband data
(DEDUCED, log entry 54). -/
def packetCodec (s : State) (n l : Nat) (pt : Nat) : Option Nat :=
  if pt = legParam s n l 0x0304 then some (codecOf (entryAt s n l).params)
  else if pt = legParam s n l 0x0305 ∧ pt ≠ 0 then none
  else some (chanParam s n 0x0312)

/-- Whether a PT passes check 2 (R140). -/
def ptOk (s : State) (n l pt : Nat) : Bool :=
  pt == legParam s n l 0x0304 || (legParam s n l 0x0305 != 0 && pt == legParam s n l 0x0305) ||
  (chanParam s n 0x0311 == 1 && pt == vbdPt s n l)

/-- Parts of a packet given to a leg's store room, whose layout is judged when they are decided (R24, R182). -/
def giveParts (n l codec : Nat) (parts : List Part) (s : State) : State :=
  modRoom n l (fun r => { r with parts := r.parts ++ parts.map (fun p => { p with codec := codec }) }) s

/-- Check 4 and what follows it (R140): the notices of the payload's parts, or an event. -/
def rtpPayload (n l : Nat) (p : RtpIn) (s : State) : State :=
  let b := rtpBase s n l
  match packetCodec s n l p.pt with
  | none =>
    if p.data.length < 4 then statBump n (b + 6) 1 s else rtpEvent n l p (countRtp n l p s)
  | some c =>
    match payloadParts c (legParam s n l 0x0302) (arrivalTick s) p.ts p.data with
    | none => statBump n (b + 6) 1 s
    | some parts =>
      let s1 := countRtp n l p s
      let s2 := if (c = 6 ∨ c = 7) ∧ p.pt = legParam s n l 0x0304 then
        modLeg n l (fun g => { g with cmrIn := g.cmrIn ++ [(arrivalTick s, leAt p.data 0 1 / 16)] }) s1 else s1
      let s3 := if p.pt ≠ legParam s n l 0x0304 then askVbd n 3 s2 else s2
      giveParts n l c parts s3

/-- A new receive SSRC of a leg: reception starts over (R141, R160). -/
def setSsrc (n l : Nat) (ssrc : Word) (s : State) : State :=
  statSet n (rtpBase s n l + 9) ssrc.toNat (modLeg n l (fun g => { g with
    ssrc := some ssrc, extSeq := 0, seqBase := none, rxCount := 0, transit := 0, jit := none, priorExp := 0, priorRx := 0
    lsr := 0, lsrAt := 0 }) s)

/-- The event of a leg has ended: its end messages follow (R151). -/
def endEvent (n o dur : Nat) (s : State) : State :=
  let close := fun (e : EvTx) => if e.ended then e else { e with ended := true, dur := dur, since := 0 }
  modLeg n o (fun g => { g with evTx := g.evTx.map close }) s

/-- The event of a leg ends with the duration it has reached. -/
def cutEvent (n o : Nat) (s : State) : State := endEvent n o (((legAt s n o).evTx.map (fun e => e.dur)).getD 0) s

/-- The received event of a leg's old stream is discarded: what is generated or sent of it on the other leg ends (R141, R153). -/
def dropEvents (n l : Nat) (s : State) : State :=
  let o := 1 - l
  if (legAt s n l).evRx.isNone then modLeg n l (fun g => { g with evIgnore := none }) s
  else
    modLeg n o (fun g => { g with gen := g.gen.filter (fun x => x.event.isNone) })
      (cutEvent n o (modLeg n l (fun g => { g with evRx := none, evIgnore := none }) s))

/-- Checks 1 to 4 of an RTP packet on an active leg (R140, R141). -/
def rtpPacket (n l : Nat) (udp : Bytes) (s : State) : State :=
  let b := rtpBase s n l
  let g := legAt s n l
  match parseRtp udp with
  | none => statBump n (b + 6) 1 s
  | some p =>
    if !ptOk s n l p.pt then
      let s1 := statBump n (b + 5) 1 (modLeg n l (fun g => { g with badPt := some p.pt }) s)
      if g.badPt = some p.pt then s1 else raise 165 [(2, n), (1, l), (4, p.pt)] s1
    else
      let pass := fun (s : State) => rtpPayload n l p (modLeg n l (fun g => { g with lastRx := arrivalTick s }) s)
      match g.ssrc with
      | none => pass (setSsrc n l p.ssrc s)
      | some x =>
        if x = p.ssrc then pass s
        else if g.lastRx + 100 ≤ arrivalTick s then
          let s1 := statBump n (b + 8) 1 (stopStream n l 0 (setSsrc n l p.ssrc s))
          let s2 := dropEvents n l (modRoom n l (fun r => { r with parts := [], events := [], evIn := [] }) s1)
          pass (raise 164 [(2, n), (1, l), (4, x.toNat), (4, p.ssrc.toNat)] s2)
        else statBump n (b + 7) 1 s

/-! ### Sending (R142, R144) -/

/-- The frame of a UDP datagram of an RTP leg; the destination address and the priority bits of a tag are free bytes (log
entry 53). -/
def legFrame (s : State) (k : Bytes) (plus : Nat) (data : Bytes) : Bytes :=
  let port := keyByte k 1
  let vlan := leAt k 2 2
  let dst := (List.range 6).map (fun i => Config.freeByte s.free (16 + i))
  let tci := if vlan = 0xFFFF then vlan else (Config.freeByte s.free 22).toNat % 16 * 4096 + vlan
  let v6 := keyByte k 0 == 3
  let src := if v6 then slice k 4 16 else slice k 4 4
  let rem := if v6 then slice k 20 16 else slice k 8 4
  udpFrame s.free dst (portMac s port) tci v6 src rem ((keyPorts k).1 + plus) ((keyPorts k).2 + plus) data

/-- Gives a datagram of an RTP leg to its egress queue: source 1 RTP, 2 RTCP (R237, R404). -/
def sendLeg (h source plus : Nat) (data : Bytes) (s : State) : State :=
  let k := (sessAt s h).key
  let port := keyByte k 1
  draw (pushTx port (txQueue s port source 0)
    { bytes := legFrame s k plus data, voice := true, source := source, tick := copyTag s } s)

/-- An RTP packet of a leg with the next sequence number; the marker is also set on the first packet after an admission or a
change of mode (R142). -/
def sendRtp (n l pt : Nat) (marker : Bool) (ts : Word) (payload : Bytes) (s : State) : State :=
  let h := (chanAt s n).handle l
  let e := sessAt s h
  let seq := e.txSeq.getD 0
  let ssrc := legParam s n l 0x0306
  let head := [0x80, BitVec.ofNat 8 (pt + if marker || (legAt s n l).marker then 128 else 0)] ++ toBe 2 seq.toNat ++ toBe 4 ts.toNat ++ toBe 4 ssrc
  let s1 := sendLeg h 1 0 (head ++ payload) s
  let s2 := modSess h (fun e => { e with txSeq := some (seq + 1) }) s1
  let b := rtpBase s n l
  statBump n (b + 1) 1 (statSet n (b + 0x0A) (seq + 1).toNat
    (modLeg n l (fun g => { g with marker := false, rtcpSent := true, txOctets := g.txOctets + payload.length }) s2))

/-- NTP time in units of 2^-32 s (R144; log entry 53). -/
def ntpNow (s : State) : Nat := (Config.ntpOffset + timeSec s) * 2 ^ 32 + timeNs s * 2 ^ 32 / 1000000000

/-- The report block of a leg's receive SSRC (R144; RFC 3550). -/
def reportBlock (s : State) (n l : Nat) : Bytes :=
  let g := legAt s n l
  match g.ssrc with
  | none => []
  | some x =>
    let expd := g.extSeq + 1 - g.seqBase.getD 0
    let lost : Int := (expd : Int) - (g.rxCount : Int)
    let de := expd - g.priorExp
    let dl : Int := (de : Int) - ((g.rxCount - g.priorRx : Nat) : Int)
    let frac := if de = 0 ∨ dl ≤ 0 then 0 else (dl * 256 / (de : Int)).toNat % 256
    let cum := max (-8388608) (min 8388607 lost)
    let now := ntpNow s / 65536
    toBe 4 x.toNat ++ toBe 1 frac ++ toBe 3 (ofSigned 24 cum) ++ toBe 4 (g.extSeq % 2 ^ 32) ++
      toBe 4 (g.jit.getD 0 / 16) ++ toBe 4 g.lsr ++ toBe 4 (if g.lsr = 0 then 0 else (now - g.lsrAt) % 2 ^ 32)

/-- A hexadecimal digit of a CNAME. -/
def hexDigit (d : Nat) : Byte := BitVec.ofNat 8 (if d < 10 then 48 + d else if Config.cnameUpper then 55 + d else 87 + d)

/-- The CNAME of a leg: the hexadecimal text of its SSRC, then "@ptv" (R144). -/
def cname (ssrc : Nat) : Bytes :=
  ([7, 6, 5, 4, 3, 2, 1, 0].map (fun i => hexDigit (ssrc / 16 ^ i % 16))) ++ [64, 112, 116, 118]

/-- The compound report of a leg: SR or RR with one block, then an SDES holding the CNAME (R144). -/
def rtcpCompound (s : State) (n l : Nat) : Bytes :=
  let ssrc := legParam s n l 0x0306
  let g := legAt s n l
  let blk := reportBlock s n l
  let rc := if blk.isEmpty then 0 else 1
  let sender := if g.rtcpSent then
    toBe 8 (ntpNow s) ++ toBe 4 g.pos.toNat ++ toBe 4 (statOf (chanAt s n) (rtpBase s n l + 1)) ++ toBe 4 g.txOctets
    else []
  let body := toBe 4 ssrc ++ sender ++ blk
  let first := [BitVec.ofNat 8 (0x80 + rc), if g.rtcpSent then 200 else 201] ++ toBe 2 (body.length / 4) ++ body
  first ++ [0x81, 202] ++ toBe 2 5 ++ toBe 4 ssrc ++ [1, 12] ++ cname ssrc ++ [0, 0]

/-- A report of a leg leaves, and the next one's tick is drawn (R144). -/
def sendReport (n l : Nat) (s : State) : State :=
  let g := legAt s n l
  let wait := legParam s n l 0x0309 * (500 + (Config.freeWord s.free).toNat % 1001) / 1000
  let s1 := sendLeg ((chanAt s n).handle l) 2 1 (rtcpCompound s n l) s
  modLeg n l (fun x => { x with
    rtcpSent := false, rtcpAt := tickNow s + wait, priorExp := g.extSeq + 1 - g.seqBase.getD 0, priorRx := g.rxCount }) s1

/-- RTCP_REPORT (R144): the report of a leg whose interval has passed. -/
def execRtcpReport (chan : BitVec 13) (leg : Bool) (s : State) : Host.Outcome State Fault Refusal :=
  let n := chan.toNat
  let l := if leg then 1 else 0
  .next (if (chanAt s n).live && kindAt s n l == 2 && legParam s n l 0x0308 == 1 && decide ((legAt s n l).rtcpAt ≤ tickNow s)
    then sendReport n l s else s)

/-- The BYE of a leg at CHAN_CLOSE, at the end of a compound packet (R144). -/
def sendBye (n l : Nat) (s : State) : State :=
  if kindAt s n l = 2 ∧ legParam s n l 0x0308 = 1 then
    sendLeg ((chanAt s n).handle l) 2 1
      (rtcpCompound s n l ++ [0x81, 203] ++ toBe 2 1 ++ toBe 4 (legParam s n l 0x0306)) s
  else s

/-- The packets of an RTCP compound packet: type, count and body of each; none where it does not parse. -/
def rtcpParts : Nat → Bytes → Option (List (Nat × Nat × Bytes))
  | 0, _ => none
  | fuel + 1, b =>
    if b.isEmpty then some []
    else
      let len := 4 * (beAt b 2 2 + 1)
      if b.length < 4 ∨ leAt b 0 1 / 64 ≠ 2 ∨ b.length < len then none
      else (rtcpParts fuel (b.drop len)).map (fun l => (leAt b 1 1, leAt b 0 1 % 32, slice b 4 (len - 4)) :: l)

/-- Report blocks of a packet. -/
def rtcpBlocks : Nat → Bytes → List Bytes
  | 0, _ => []
  | k + 1, b => b.take 24 :: rtcpBlocks k (b.drop 24)

/-- Whether a compound packet parses: it opens with a report whose blocks fit (R144). -/
def rtcpOk (l : List (Nat × Nat × Bytes)) : Bool :=
  (match l with
  | (t, _, _) :: _ => t == 200 || t == 201
  | [] => false) &&
  l.all (fun p => (p.1 != 200 || decide (24 + 24 * p.2.1 ≤ p.2.2.length)) &&
    (p.1 != 201 || decide (4 + 24 * p.2.1 ≤ p.2.2.length)))

/-- What a leg takes from one packet of a compound packet: an SR's timestamp, and its own block's round trip (R144). -/
def rtcpTake (n l : Nat) (p : Nat × Nat × Bytes) (s : State) : State :=
  if p.1 ≠ 200 ∧ p.1 ≠ 201 then s
  else
    let now := ntpNow s / 65536
    let s1 := if p.1 = 200 ∧ (legAt s n l).ssrc = some (BitVec.ofNat 32 (beAt p.2.2 0 4)) then
        modLeg n l (fun g => { g with lsr := beAt p.2.2 6 4, lsrAt := now }) s
      else s
    let blocks := rtcpBlocks p.2.1 (p.2.2.drop (if p.1 = 200 then 24 else 4))
    blocks.foldl (fun s b =>
      let lsr := beAt b 16 4
      let rtt := (now + 2 ^ 33 - lsr - beAt b 20 4) % 2 ^ 32
      if beAt b 0 4 = legParam s n l 0x0306 ∧ lsr ≠ 0 then
        statSet n (rtpBase s n l + 4) (satTo 0xFFFFFFFE (rtt * 1000000 / 65536)) s
      else s) s1

/-- An RTCP compound packet for a leg (R144). -/
def rtcpPacket (n l : Nat) (udp : Bytes) (s : State) : State :=
  if legParam s n l 0x0308 = 0 then s
  else
    let b := rtpBase s n l
    match rtcpParts (udp.length + 1) udp with
    | some ps =>
      if rtcpOk ps then statBump n (b + 0x0B) 1 (ps.foldl (fun s p => rtcpTake n l p s) s)
      else statBump n (b + 0x0C) 1 s
    | none => statBump n (b + 0x0C) 1 s

end Sys2Proof.Machine
end

