-- ==== Sys2Proof/Machine/Tones.lean ====
section
/-! DEFINITION. Tone detectors, generators, relay of telephone events, voiceband data (R145 to R156, R161, R163, R199). -/

namespace Sys2Proof.Machine

/-! ### Items for a peer (R193, R198) -/

/-- An item of a trunk leg for the open interval of its peer; a peer that is off takes none (R219). -/
def pushItem (h : Nat) (i : BItem) (s : State) : State :=
  let k := keyTrunk (sessAt s h).key
  let p := tget s.peers k.1 {}
  if p.on then { s with peers := tset s.peers k.1 { p with items := p.items ++ [{ i with chan := k.2 }] } } else s

/-- A trunk leg's stream starts anew: its items are anchored until one of them is known to be received (R200). -/
def newStream (g : Leg) : Leg := { g with anchoring := true, anchorSeqs := [], stream := g.stream + 1 }

/-! ### Tones (R145, R148, R149, R329) -/

/-- A tone of a call-progress set: frequencies in Hz and their tolerance in 0.1 %, on and off times of its cadence in ticks, none
when continuous, minimum and generation level in dBm0 (R148). -/
structure CpTone where
  freqs : List Nat
  tol : Nat := 20
  cadence : List (Nat × Nat)
  least : Int
  level : Int
  deriving DecidableEq, Repr

/-- Set 0 (R148, Table 5). -/
def cpSet0 : List CpTone :=
  [{ freqs := [350, 440], cadence := [], least := -30, level := -13 },
   { freqs := [440, 480], cadence := [(2000, 4000)], least := -30, level := -19 },
   { freqs := [480, 620], cadence := [(500, 500)], least := -30, level := -24 },
   { freqs := [480, 620], cadence := [(250, 250)], least := -30, level := -24 },
   { freqs := [425], cadence := [], least := -30, level := -10 },
   { freqs := [425], cadence := [(1000, 4000)], least := -30, level := -10 },
   { freqs := [425], cadence := [(500, 500)], least := -30, level := -10 },
   { freqs := [425], cadence := [(200, 200)], least := -30, level := -10 }]

/-- A tone of a call-progress set: none where the set does not define it (R148; R329, Table 8). -/
def cpTone (s : State) (set tone : Nat) : Option CpTone :=
  if set = 0 then cpSet0[tone]?
  else
    let d := slice (sparData s 10) (256 * set + 32 * tone) 32
    if leAt d 0 1 = 1 then
      some { freqs := leAt d 2 2 :: (if leAt d 4 2 = 0 then [] else [leAt d 4 2]), tol := leAt d 1 1
             cadence := (List.range (leAt d 8 1)).map (fun i => (leAt d (12 + 4 * i) 2, leAt d (14 + 4 * i) 2))
             least := -(leAt d 6 1 : Int), level := -(leAt d 7 1 : Int) }
    else none

/-- The two frequencies of the k-th pair of six: pairs by their higher member, then by their lower one. -/
def pairOf (k : Nat) : Nat × Nat :=
  [(0, 1), (0, 2), (1, 2), (0, 3), (1, 3), (2, 3), (0, 4), (1, 4), (2, 4), (3, 4), (0, 5), (1, 5), (2, 5), (3, 5), (4, 5)].getD k
    (0, 1)

/-- The pair of an MF R1 code: the digits 1 to 9 and 0 in the order of the pairs, then KP, ST, ST', ST'', ST'''. -/
def r1Pair (code : Nat) : Nat × Nat :=
  pairOf ([9, 0, 1, 2, 3, 4, 5, 6, 7, 8, 12, 14, 11, 13, 10].getD (code - 0x11) 0)

/-- The frequencies in Hz of a tone code whose tone Table 6 names; the pairs are those of the standards (PRESUMED, log entry
31). -/
def toneFreqs (code : Nat) : List Nat :=
  if 1 ≤ code ∧ code ≤ 0x10 then
    let at_ := [(3, 1), (0, 0), (0, 1), (0, 2), (1, 0), (1, 1), (1, 2), (2, 0), (2, 1), (2, 2), (3, 0), (3, 2), (0, 3), (1, 3),
      (2, 3), (3, 3)].getD (code - 1) (0, 0)
    [[697, 770, 852, 941].getD at_.1 0, [1209, 1336, 1477, 1633].getD at_.2 0]
  else if 0x11 ≤ code ∧ code ≤ 0x1F then [700 + 200 * (r1Pair code).1, 700 + 200 * (r1Pair code).2]
  else if 0x20 ≤ code ∧ code ≤ 0x2E then
    [1380 + 120 * (pairOf (code - 0x20)).1, 1380 + 120 * (pairOf (code - 0x20)).2]
  else if 0x30 ≤ code ∧ code ≤ 0x3E then
    [1140 - 120 * (pairOf (code - 0x30)).1, 1140 - 120 * (pairOf (code - 0x30)).2]
  else if code = 0x48 then [1100]
  else if 0x49 ≤ code ∧ code ≤ 0x4C then [2100]
  else []

/-! ### Generators (R149) -/

/-- The generator that gen_play of a leg starts; none for the stop code, a set that is not defined, and no cycles. -/
def genOf (s : State) (n l v : Nat) : Option Gen :=
  let code := v % 256
  let timing := legParam s n l 0x0319
  let cycles := v / 256 % 256
  let level := asSigned 32 (legParam s n l 0x0318)
  let both := [legParam s n l 0x0317 % 65536, legParam s n l 0x0317 / 65536].filter (fun f => f != 0)
  if code = 0 then none
  else if 0x40 ≤ code ∧ code ≤ 0x47 then
    (cpTone s (chanParam s n 0x030F) (code - 0x40)).map (fun t => { code := code, level := t.level, freqs := t.freqs })
  else if 0x48 ≤ code ∧ code ≤ 0x4C then some { code := code, level := level, freqs := toneFreqs code }
  else if cycles = 0 ∨ (bitsOf timing 13 0 = 0 ∧ bitsOf timing 27 14 = 0) then none
  else some { code := code, level := level, freqs := if code = 0x50 then both else toneFreqs code
              on := bitsOf timing 13 0, off := bitsOf timing 27 14
              left := if cycles = 255 then none else some cycles }

/-- gen_play of a leg at its effective boundary: it replaces what plays; a received event it displaces is ignored from then
on, and where it was also sent on the leg it ends there (R149, R161). -/
def startGen (n l v : Nat) (s : State) : State :=
  let g := genOf s n l v
  let o := 1 - l
  let s1 := match (legAt s n l).gen.bind (fun g => g.event) with
    | some ts => cutEvent n l (modLeg n o (fun x => { x with evIgnore := some ts, evRx := none }) s)
    | none => s
  modLeg n l (fun x => { x with gen := g }) s1

/-- The frequencies that a generator plays out of a leg: code 0x50 omits those above 3,400 Hz while the leg's audio rate is
below 16 kHz (R158). -/
def genTones (s : State) (n o : Nat) (g : Gen) : List Nat :=
  if g.code = 0x50 ∧ !wideLeg (entryAt s n o).key (entryAt s n o).params then g.freqs.filter (fun f => decide (f ≤ 3400))
  else g.freqs

/-- Whether a position of `x` ticks into a cadence is silent. -/
def cadenceOff : List (Nat × Nat) → Nat → Bool
  | [], _ => false
  | (on, off) :: t, x => if x < on then false else if x < on + off then true else cadenceOff t (x - on - off)

/-- Whether a generator is in the silence of its cycle, or has no frequency to play out of its leg. -/
def genSilent (s : State) (n o : Nat) (g : Gen) : Bool :=
  if g.event.isSome then false
  else if 0x40 ≤ g.code ∧ g.code ≤ 0x47 then
    match cpTone s (chanParam s n 0x030F) (g.code - 0x40) with
    | some t =>
      let len := t.cadence.foldl (fun a p => a + p.1 + p.2) 0
      if len = 0 then false else cadenceOff t.cadence (g.phase % len)
    | none => true
  else if 0x48 ≤ g.code ∧ g.code ≤ 0x4C then false
  else decide (g.on ≤ g.phase) || (genTones s n o g).isEmpty

/-- Whether a generator replaces the audio of its leg: its cycles are not over. -/
def genPlays (g : Option Gen) : Bool :=
  match g with
  | some x => x.left != some 0
  | none => false

/-- A tick of what a generator plays out of a leg, at the channel's rate: its sines at its level, an ANSam tone modulated by 20
% at 15 Hz, the phase of a reversing tone as it stands (R137, R149; log entry 31). -/
def genTick (s : State) (n o : Nat) (g : Gen) : Sound :=
  let rate := if legWide s n 0 || legWide s n 1 then 16 else 8
  let one := fun (hz i : Nat) => atLevel g.level (Config.sine hz rate (g.phase * rate + i)).toInt
  let am := fun (i : Nat) (x : Int) =>
    if g.code = 0x4B ∨ g.code = 0x4C then x + x * (Config.sine 15 rate (g.phase * rate + i)).toInt / 163840 else x
  { base := (List.range rate).map (fun i =>
      let x := am i (((genTones s n o g).map (fun f => one f i)).foldl (· + ·) 0)
      max (-32768) (min 32767 (if g.flipped then -x else x))) }

/-- A generator one tick later; a reversing tone reverses its phase every 450 ms. -/
def stepGen (g : Gen) : Gen :=
  let cyclic := g.event.isNone && (decide (g.code ≤ 0x3E) || g.code == 0x50)
  let reverses := (g.code == 0x4A || g.code == 0x4C) && (g.phase + 1) % 450 == 0
  if cyclic && decide (g.on + g.off ≤ g.phase + 1) then { g with phase := 0, left := g.left.map (fun c => c - 1) }
  else { g with phase := g.phase + 1, flipped := g.flipped != reverses }

/-- TONE_GEN_END (R149): the last cycle of a leg's generator has ended. -/
def execToneGenEnd (chan : BitVec 13) (leg : Bool) (s : State) : Host.Outcome State Fault Refusal :=
  .next (modLeg chan.toNat (if leg then 1 else 0) (fun x =>
    if (x.gen.map (fun g => g.left)) = some (some 0) then { x with gen := none } else x) s)

/-! ### Telephone events on the way out (R151, R199) -/

/-- The relay setting of an outgoing leg: 0 on a TDM leg, in voiceband data, and on an RTP leg without an event PT (R150,
R155). -/
def relayOf (s : State) (n o : Nat) : Nat :=
  let kind := kindAt s n o
  if kind = 1 ∨ (chanAt s n).vbd ∨ (kind = 2 ∧ legParam s n o 0x0305 = 0) then 0 else legParam s n o 0x030B

/-- One message of the event being sent on a leg: an RFC 4733 packet, or a type 1 item. -/
def sendEvent (n o dur : Nat) (marker fin : Bool) (e : EvTx) (s : State) : State :=
  let d := min dur 65535
  if kindAt s n o = 2 then
    sendRtp n o e.pt marker e.start
      ([BitVec.ofNat 8 ((toneEvent e.code).getD 0), BitVec.ofNat 8 (e.volume + if fin then 128 else 0)] ++ toBe 2 d) s
  else
    let data := [BitVec.ofNat 8 e.code, BitVec.ofNat 8 e.volume] ++ toBe 2 d ++ toBe 4 e.start.toNat
    pushItem ((chanAt s n).handle o) { kind := 1, tick := workTick s, fin := fin, data := data } s

/-- Ticks between the end messages of an event: one on an RTP leg, an interval on a trunk leg (R151, R199). -/
def endEvery (s : State) (n o : Nat) : Nat :=
  if kindAt s n o = 2 then 1 else (tget s.peers (keyTrunk (entryAt s n o).key).1 {}).interval

/-- An event whose end messages are due sends the next one where its time has come; none remains after the last (R151, R199). -/
def serveEnd (n o : Nat) (e : EvTx) (s : State) : Option EvTx × State :=
  if e.ends = 3 ∨ endEvery s n o ≤ e.since then
    (if e.ends ≤ 1 then none else some { e with ends := e.ends - 1, since := 1 }, sendEvent n o e.dur false true e s)
  else (some { e with since := e.since + 1 }, s)

/-- The events of a leg that are over send their end messages, oldest first (R151). -/
def serveEnds (n o : Nat) (s : State) : State :=
  (legAt s n o).evEnds.foldl (fun s e =>
    let r := serveEnd n o e s
    modLeg n o (fun g => { g with evEnds := g.evEnds ++ r.1.toList }) r.2)
    (modLeg n o (fun g => { g with evEnds := [] }) s)

/-- A new event displaces the one being sent on a leg, whose end messages begin at once, or go on, beside it (R151). -/
def retireEvent (n o : Nat) (s : State) : State :=
  let s1 := cutEvent n o s
  match (legAt s1 n o).evTx with
  | none => s1
  | some e =>
    let r := if e.ends = 3 then serveEnd n o e s1 else (some e, s1)
    let wait := r.1.toList.map (fun x => if e.ends = 3 then { x with since := 0 } else x)
    modLeg n o (fun g => { g with evTx := none, evEnds := g.evEnds ++ wait }) r.2

/-- A relayed event begins on an outgoing leg: its first message leaves in this tick (R151). -/
def beginEvent (n o code : Nat) (volume : Nat) (start : Word) (s0 : State) : State :=
  let s := retireEvent n o s0
  let fin := (legAt s n o).pos + BitVec.ofNat 32 (legClock s n o)
  let dur := (fin - start).toNat
  let e : EvTx := { code := code, pt := legParam s n o 0x0305, start := start, dur := dur, volume := min 63 volume }
  statBump n 0x03A4 1 (modLeg n o (fun g => { g with evTx := some e }) (sendEvent n o e.dur true false e s))

/-- Ticks between the updates of an event on a leg (R151, R199). -/
def eventEvery (s : State) (n o : Nat) : Nat := if kindAt s n o = 2 then legParam s n o 0x0303 else 10

/-- The messages of the events being sent on a leg in a tick: the end messages of earlier ones, then an update, a split at 65,535
units into a new event, or an end message (R151, R160). -/
def serveEvent (n o : Nat) (s0 : State) : State :=
  let s := serveEnds n o s0
  match (legAt s n o).evTx with
  | none => s
  | some e =>
    let put := fun (x : Option EvTx) (s : State) => modLeg n o (fun g => { g with evTx := x }) s
    if e.ended then
      let r := serveEnd n o e s
      put r.1 r.2
    else
      let fin := (legAt s n o).pos + BitVec.ofNat 32 (legClock s n o)
      let dur := (fin - e.start).toNat
      if 65535 < dur then
        let s1 := sendEvent n o 65535 false true e s
        let e1 := { e with start := e.start + 65535, dur := dur - 65535, since := 1 }
        put (some e1) (sendEvent n o e1.dur true false e1 (statBump n 0x03A4 1 s1))
      else if eventEvery s n o ≤ e.since then
        put (some { e with dur := dur, since := 1 }) (sendEvent n o dur false false e s)
      else put (some { e with dur := dur, since := e.since + 1 }) s

/-! ### Detectors (R145 to R147, R150, R163) -/

/-- The bit of detect_mask that serves a tone code (R145, Table 4). -/
def detectorOf (code : Nat) : Nat :=
  if code ≤ 0x10 then 0 else if code < 0x20 then 1 else if code < 0x30 then 2 else if code < 0x40 then 3
  else if code < 0x48 then 4 else if code = 0x48 then 5 else 6

/-- Whether a code enters voiceband-data mode, and the cause (R154). -/
def vbdCause (s : State) (n code : Nat) : Option Nat :=
  if code = 0x49 ∨ code = 0x4A then some 0
  else if code = 0x4B ∨ code = 0x4C then some 1
  else if code = 0x48 ∧ chanParam s n 0x0315 = 1 then some 2
  else none

/-- Whether detect_mask enables a code's detector; otherwise it may run for voiceband data alone (R146). -/
def maskHas (s : State) (n l code : Nat) : Bool := (legParam s n l 0x030C).testBit (detectorOf code)

/-- Whether a code's detector runs on a leg (R145, R146). -/
def detectorRuns (s : State) (n l code : Nat) : Bool :=
  maskHas s n l code || (chanParam s n 0x0311 == 1 && (vbdCause s n code).isSome)

/-- Whether both levels of a tone lie in a range and no further apart than a limit, in 0.1 dB, and the tone has lasted. -/
def heardFor (t : ToneHeard) (least most apart : Int) (units : Nat) : Bool :=
  decide (least ≤ t.low) && decide (least ≤ t.high) && decide (t.low ≤ most) && decide (t.high ≤ most) &&
  decide (t.high - t.low ≤ apart) && decide (t.low - t.high ≤ apart) && decide (units ≤ t.units)

/-- The distance of a measured frequency, in 0.1 Hz, from a nominal one in Hz. -/
def offBy (f hz : Nat) : Nat := (hz - 10 * f) + (10 * f - hz)
/-- Whether a frequency lies within a tolerance in 0.1 % of a nominal one. -/
def nearPart (tol f hz : Nat) : Bool := decide (offBy f hz * 1000 ≤ 10 * f * tol)
/-- Whether a frequency lies within a tolerance in Hz of a nominal one. -/
def nearHz (tol f hz : Nat) : Bool := decide (offBy f hz ≤ 10 * tol)
/-- Whether DTMF takes a frequency for a nominal one: within 1.5 %, not beyond 3.5 % (R145, Table 4; log entry 31). -/
def nearDtmf (f hz : Nat) : Bool := nearPart 15 f hz || (nearPart 35 f hz && Config.dtmfEdge hz)

/-- Whether the frequencies measured are those of a tone under a test of each. -/
def pitchOf (ok : Nat → Nat → Bool) (fs : List Nat) (t : ToneHeard) : Bool :=
  match fs with
  | [a] => ok a t.f1 && t.f2 == 0
  | [a, b] => ok (min a b) t.f1 && ok (max a b) t.f2
  | _ => false

/-- Whether the frequencies measured are those of a code, as its detector accepts them (R145, Table 4; R148). -/
def tonePitch (s : State) (n : Nat) (t : ToneHeard) : Bool :=
  let c := t.code.toNat
  let fs := toneFreqs c
  if c ≤ 0x10 then pitchOf nearDtmf fs t
  else if c < 0x20 then pitchOf (nearPart 15) fs t
  else if c < 0x40 then pitchOf (nearHz 10) fs t
  else if c < 0x48 then (cpTone s (chanParam s n 0x030F) (c - 0x40)).any (fun p => pitchOf (nearPart p.tol) p.freqs t)
  else if c = 0x48 then pitchOf (nearHz 38) fs t
  else pitchOf (nearHz 21) fs t

/-- Whether the last two cycles measured are those of a cadence, each time within 10 % (R148). -/
def cadenceHeld (cadence beats : List (Nat × Nat)) : Bool :=
  let want := cadence ++ cadence
  let got := beats.drop (beats.length - want.length)
  let near := fun (a b : Nat) => decide (10 * ((a - b) + (b - a)) ≤ a)
  got.length == want.length && (want.zip got).all (fun p => near p.1.1 p.2.1 && near p.1.2 p.2.2)

/-- Whether a tone carries the amplitude modulation of ANSam: 15 ± 1 Hz, 15 to 25 % deep (R145). -/
def isAnsam (t : ToneHeard) : Bool :=
  decide (140 ≤ t.amHz) && decide (t.amHz ≤ 160) && decide (15 ≤ t.depth) && decide (t.depth ≤ 25)

/-- Whether a tone heard on a leg meets its detector's frequencies, level, twist, modulation and minimum duration; no detector
reports a reserved code (R145, Table 4; R148, R149). -/
def toneMeets (s : State) (n l : Nat) (t : ToneHeard) : Bool :=
  let c := t.code.toNat
  tonePitch s n t &&
  (if c ≤ 0x10 then
    let least := 10 * asSigned 32 (legParam s n l 0x030D)
    let twist := legParam s n l 0x030E
    decide (least ≤ t.low) && decide (least ≤ t.high) && decide (t.high - t.low ≤ 10 * (bitsOf twist 7 0 : Int)) &&
    decide (t.low - t.high ≤ 10 * (bitsOf twist 15 8 : Int)) && decide (320 ≤ t.units)
  else if c < 0x20 then heardFor t (-250) 1000 60 (if c = 0x1B then 440 else 240)
  else if c < 0x40 then heardFor t (-350) (-50) 50 240
  else if c < 0x48 then
    match cpTone s (chanParam s n 0x030F) (c - 0x40) with
    | some p => heardFor t (10 * p.least) 1000 1000 0 &&
        (if p.cadence.isEmpty then decide (8000 ≤ t.units) else cadenceHeld p.cadence t.beats)
    | none => false
  else if c = 0x48 then heardFor t (-430) 1000 1000 4000
  else heardFor t (-310) 1000 1000 1600 && isAnsam t == decide (0x4B ≤ c) &&
    (c == 0x49 || c == 0x4B || (decide (155 ≤ t.turn) && decide (t.turn ≤ 205))))

/-- The time in ms for which a tone of a code must have been off before the same code is another occurrence (R145, Table 4). -/
def offLeast (code : Nat) : Nat :=
  if code ≤ 0x10 then 40 else if code < 0x40 then 30 else if 0x49 ≤ code then 250 else 0

/-- Whether a tone is a new occurrence: one of the code that ended last has been off for its minimum time (R145). -/
def newTone (s : State) (n l : Nat) (t : ToneHeard) : Bool :=
  match (legAt s n l).detLast with
  | some (c, last) => c != t.code.toNat || decide (last + offLeast c + t.units / 8 ≤ workTick s)
  | none => true

/-- A tone released on a leg reaches statistics, event 163, relay and the voiceband-data switch (R147, R150, R154, R163).
`start` is the media position of its start on the other leg. -/
def releaseTone (n l code : Nat) (level : Int) (pos start : Word) (s : State) : State :=
  let o := 1 - l
  let s1 := if !maskHas s n l code then s
    else
      let id := if code ≤ 0x10 then 0x03A0 else if code < 0x40 then 0x03A1 else if code < 0x48 then 0x03A2 else 0x03A3
      let s1 := statBump n id 1 s
      let s2 := if chanParam s n 0x0310 = 1 then
          raise 163 [(2, n), (1, l), (1, code), (2, ofSigned 16 level), (4, pos.toNat)] s1 else s1
      if (toneEvent code).isSome ∧ relayOf s n o ≠ 0 then beginEvent n o code (-level / 10).toNat start s2 else s2
  match vbdCause s n code with
  | some c => askVbd n c s1
  | none => s1

/-- The end of the tone that a leg's detectors hold: the event it became ends, a mute ends (R151, R152). `dur` is its
duration on the other leg. -/
def releaseEnd (n l : Nat) (stop : Word) (s : State) : State :=
  let o := 1 - l
  let s1 := modLeg n o (fun g => { g with mute := none }) s
  match (legAt s n o).evTx with
  | some e => if (legAt s n l).evRx.isSome then s1 else endEvent n o (stop - e.start).toNat s1
  | none => s1

/-- The tick in which a media position of a packet leg is used, less the present one. -/
def dueIn (s : State) (n l : Nat) (pos : Word) : Int :=
  let r := roomAt s n l
  (r.pNext : Int) - 1 + (pos - r.kPos).toInt / (legClock s n l : Int) - (workTick s : Int)

/-- A media position of a leg as a position of the other leg's stream. -/
def outPos (s : State) (n l : Nat) (pos : Word) : Word :=
  let o := 1 - l
  (legAt s n o).pos + BitVec.ofInt 32 (dueIn s n l pos * (legClock s n o : Int))

/-- The reports of cells that are committed are released in media order (R147). -/
def releaseReports (n l : Nat) (s : State) : State :=
  let due := (legAt s n l).reports.filter (fun r => decide (r.cell ≤ (roomAt s n l).k))
  let s1 := modLeg n l (fun g => { g with reports := g.reports.filter (fun r => decide ((roomAt s n l).k < r.cell)) }) s
  due.foldl (fun s r =>
    if r.code = 0 then releaseEnd n l (outPos s n l r.pos) s
    else releaseTone n l r.code r.level r.pos (outPos s n l r.pos) s) s1

/-- The media position at the end of what a packet leg has decoded. -/
def decodedEnd (s : State) (n l : Nat) : Word :=
  let r := roomAt s n l
  r.kPos + BitVec.ofInt 32 ((max r.f r.k - r.k) * (cellUnits (legCodec s n l) : Int))

/-- A report of a packet leg's detectors `back` units of 1/8 ms before the end of what is decoded; it waits for the commit
of the cell decoded last (R147). -/
def holdReport (n l code back : Nat) (level : Int) (s : State) : State :=
  let r := roomAt s n l
  let pos := decodedEnd s n l - BitVec.ofNat 32 (back * legClock s n l / 8)
  modLeg n l (fun x => { x with reports := x.reports ++ [{ cell := max r.f r.k, code := code, level := level, pos := pos }] }) s

/-- The position on the other leg `back` units of 1/8 ms before the end of a TDM leg's tick. -/
def tdmPos (s : State) (n l back : Nat) : Word :=
  let o := 1 - l
  (legAt s n o).pos + BitVec.ofNat 32 (legClock s n o) - BitVec.ofNat 32 (back * legClock s n o / 8)

/-- The detectors of a leg report the end of the tone they hold, `back` units of 1/8 ms before the end of the tick (R151). -/
def endTone (n l back : Nat) (s : State) : State :=
  if (legAt s n l).detTone = 0 then s
  else
    let s1 := modLeg n l (fun x => { x with detTone := 0, detLast := some (x.detTone, workTick s - back / 8) }) s
    if kindAt s n l = 1 then releaseEnd n l (tdmPos s n l back) s1 else holdReport n l 0 back 0 s1

/-- The detectors of a leg report a tone; one they still hold ends where it begins. The level reported is the higher of its
two (log entry 97). -/
def beginTone (n l : Nat) (t : ToneHeard) (s : State) : State :=
  let code := t.code.toNat
  let level := max t.low t.high
  let s1 := modLeg n l (fun x => { x with detTone := code, detSince := workTick s }) (endTone n l t.units s)
  if kindAt s n l = 1 then releaseTone n l code level (tdmPos s n l t.units) (tdmPos s n l t.units) s1
  else holdReport n l code t.units level s1

/-- What the detectors of a leg report in a tick (R145, R147): a TDM leg's results are final at once; a packet leg's wait for the
commit of the cell that completed the tone, and the checkpoint behind the frontier takes the detectors as they are left. -/
def detect (n l : Nat) (g : LegSignal) (s : State) : State :=
  let s1 := if g.toneEnd then endTone n l 80 s else s
  let s2 := match g.tone with
    | some t =>
      if (legAt s1 n l).detTone ≠ t.code.toNat ∧ detectorRuns s1 n l t.code.toNat ∧ toneMeets s1 n l t ∧ newTone s1 n l t then
        beginTone n l t s1
      else s1
    | none => s1
  releaseReports n l (modLeg n l renewCheckpoint s2)

/-! ### Suppression (R152) -/

/-- The mute of an outgoing leg: it begins when the two frequencies of a possible DTMF tone have held for 10 ms, where the other
leg runs the DTMF detector (R145); one that was lifted does not begin again while the same tone lasts. -/
def noteMute (n o : Nat) (held : Bool) (s : State) : State :=
  if !held ∨ !maskHas s n (1 - o) 1 then modLeg n o (fun g => { g with muteOver := false }) s
  else if relayOf s n o = 1 ∧ (legAt s n o).mute.isNone ∧ !(legAt s n o).muteOver then
    modLeg n o (fun g => { g with mute := some (workTick s - 9) }) s
  else s

/-- Whether the audio toward a leg is muted in a tick: a possible DTMF tone that lasts, or another tone that is relayed and
suppressed (R150, R152). -/
def muted (s : State) (n o : Nat) (held : Bool) : Bool :=
  let tone := (legAt s n (1 - o)).detTone
  relayOf s n o == 1 && (((legAt s n o).mute.isSome && held) ||
    (decide (0x48 ≤ tone) && (toneEvent tone).isSome && maskHas s n (1 - o) tone))

/-- MUTE_LIFT (R152): a mute whose tone is not confirmed within 40 ms of its start. -/
def execMuteLift (chan : BitVec 13) (leg : Bool) (s : State) : Host.Outcome State Fault Refusal :=
  let n := chan.toNat
  let o := if leg then 1 else 0
  let tone := (legAt s n (1 - o)).detTone
  .next (match (legAt s n o).mute with
    | some t =>
      if t + 40 ≤ workTick s ∧ (tone = 0 ∨ 0x10 < tone) then
        statBump n 0x03A6 1 (modLeg n o (fun g => { g with mute := none, muteOver := true }) s)
      else s
    | none => s)

/-! ### Received events (R153) -/

/-- Whether a media position of a leg is committed. -/
def posCommitted (s : State) (n l : Nat) (pos : Word) : Bool :=
  (roomAt s n l).running && decide ((pos - (roomAt s n l).kPos).toInt < 0)

/-- Whether a released event has ended: its E bit is known and its last unit committed, or 60 ms have passed after its last
reported duration (R153; log entry 54). -/
def eventOver (s : State) (n l : Nat) (e : EvItem) : Bool :=
  (e.ended && posCommitted s n l (e.pos + BitVec.ofNat 32 e.dur - 1)) ||
  posCommitted s n l (e.pos + BitVec.ofNat 32 (e.dur + 60 * legClock s n l))

/-- An event of a leg released to the other leg: generated there under relay 0 and 2, sent under 1 and 2 (R153). -/
def playEvent (n l : Nat) (e : EvItem) (s : State) : State :=
  let o := 1 - l
  let v := relayOf s n o
  let s1 := modLeg n l (fun g => { g with evRx := some e }) s
  let s2 := if v = 1 then s1
    else modLeg n o (fun g => { g with
      gen := some { code := e.code, level := max (-40) (-(e.volume : Int)), freqs := toneFreqs e.code, event := some e.pos } }) s1
  if v = 0 then s2 else beginEvent n o e.code e.volume (outPos s n l e.pos) s2

/-- A received event of a leg is over: it leaves the list, and what was sent of it on the other leg ends with the duration it
reported there. Where the generator plays it, it stays in hand until that stops; else its timestamp is not new any more (R151,
R153). -/
def finishEvent (n l : Nat) (x : EvItem) (s : State) : State :=
  let o := 1 - l
  let s1 := modRoom n l (fun r => { r with events := r.events.filter (fun e => e.pos != x.pos) }) s
  let s2 := endEvent n o (x.dur * legClock s n o / legClock s n l) s1
  if (legAt s n o).gen.bind (fun g => g.event) = some x.pos then s2
  else modLeg n l (fun g => { g with evRx := none, evIgnore := some x.pos }) s2

/-- The event list of a leg after commits: the event in hand is kept up to date, and the next one is released, which ends one
that is not over (R147, R153). -/
def serveEvents (n l : Nat) (s : State) : State :=
  let evs := (roomAt s n l).events
  let s1 := modLeg n l (fun g => { g with evRx := g.evRx.bind (fun x => some ((evs.find? (fun e => e.pos == x.pos)).getD x)) }) s
  let s2 := match (legAt s1 n l).evRx with
    | some x => if eventOver s1 n l x then finishEvent n l x s1 else s1
    | none => s1
  let cur := (legAt s2 n l).evRx.map (fun x => x.pos)
  let gone := (legAt s2 n l).evIgnore
  let s3 := modRoom n l (fun r => { r with events := r.events.filter (fun e => !(gone == some e.pos && eventOver s2 n l e)) }) s2
  match (roomAt s3 n l).events.find? (fun e => cur != some e.pos && gone != some e.pos && posCommitted s3 n l e.pos) with
  | some e =>
    let s4 := match (legAt s3 n l).evRx with
      | some x => modLeg n l (fun g => { g with evIgnore := some x.pos }) (finishEvent n l x s3)
      | none => s3
    playEvent n l e s4
  | none => s3

/-- EVENT_GENERATION_END (R153): the generator that plays a received event stops once the event is over. `leg` is the leg it
plays out of. -/
def execEventGenerationEnd (chan : BitVec 13) (leg : Bool) (s : State) : Host.Outcome State Fault Refusal :=
  let n := chan.toNat
  let o := if leg then 1 else 0
  let l := 1 - o
  .next (match (legAt s n o).gen.bind (fun g => g.event), (legAt s n l).evRx with
    | some ts, some e =>
      if e.pos = ts ∧ eventOver s n l e then finishEvent n l e (modLeg n o (fun x => { x with gen := none }) s) else s
    | _, _ => s)

/-! ### Voiceband data (R154 to R156) -/

/-- What a change of mode does to a leg: a new encoder and decoder layout, the marker, anchors (R142, R155, R182, R183,
R200). -/
def switchLeg (n l : Nat) (s : State) : State :=
  if kindAt s n l = 1 then s
  else
    switchRoom n l (modLeg n l (fun g => { newStream g with
      marker := true, silent := false, enc := 0, buf := [], pcm := [], ptimeAt := 0, mute := none })
      (cutEvent n l s))

/-- A change between voice and voiceband data: event 166; an entry is one of the canceller to TONE_DISABLED (R120, R128, R154,
R156). -/
def switchVbd (n : Nat) (on_ : Bool) (cause : Nat) (s : State) : State :=
  let s1 := switchLeg n 1 (switchLeg n 0 (modChan n (fun c => { c with vbd := on_, vbdAsk := none, vbdQuiet := 0 }) s))
  let s2 := statSet n 0x03A7 (if on_ then 1 else 0) (if on_ then statBump n 0x03A8 1 s1 else s1)
  let s2 := if on_ ∧ chanParam s n 0x0201 ≠ 0 ∧ !(ecAt s n).toneDisabled then statBump n 0x028C 1 s2 else s2
  raise 166 [(2, n), (1, if on_ then 0 else 1), (1, cause)] s2

/-- The entry to voiceband-data mode that waits for a boundary (R154). -/
def enterVbd (n : Nat) (s : State) : State :=
  match (chanAt s n).vbdAsk with
  | some c => if (chanAt s n).vbd ∨ chanParam s n 0x0311 = 0 then modChan n (fun c => { c with vbdAsk := none }) s
    else switchVbd n true c s
  | none => s

/-- VBD_EXIT (R156): both directions have stayed below -36 dBm0 for vbd_exit_ms ticks. -/
def execVbdExit (chan : BitVec 13) (s : State) : Host.Outcome State Fault Refusal :=
  let n := chan.toNat
  .next (if (chanAt s n).vbd ∧ chanParam s n 0x0316 ≤ (chanAt s n).vbdQuiet then switchVbd n false 5 s else s)

end Sys2Proof.Machine
end

