-- ==== Sys2Proof/Machine/ChannelWork.lean ====
section
/-! DEFINITION. A channel's work in a tick: the audio of each direction, encoding, and what leaves on the other leg (R106, R108,
R132 to R139, R142, R157, R198 to R200). Codecs but G.711 are functions of Config on their state and their input (log entry 30). -/

namespace Sys2Proof.Machine

/-! ### Codes of a TDM leg (R258, R31, R269) -/

/-- The physical slot of a logical slot under the active map; none where the map names no slot that its highway has (R258,
R272). -/
def physOf (s : State) (l : Nat) : Option Nat :=
  let w := regWord s (RegId.addr .TDM_MAP_ACTIVE l)
  let h := bitsOf w 12 8
  if bitsOf w 31 31 = 1 ∧ bitsOf w 6 0 < slotCount s h then some (128 * h + bitsOf w 6 0) else none

/-- The law of a TDM leg, 1 µ-law, 2 A-law: that of the highway which carries its codes (R258). -/
def tdmLaw (s : State) (n l : Nat) : Nat :=
  let k := keySlot (entryAt s n l).key
  if fbit s .TDM_HWY_CTRL_law (((physOf s k).getD k) / 128) then 1 else 2
/-- The highest magnitude of a law's codes (R269). -/
def lawMost (law : Nat) : Int := if law = 1 then 32124 else 32256
/-- The code of silence, which is the idle code (R258). -/
def silenceCode (law : Nat) : Byte := if law = 1 then 0xFF else 0xD5
/-- The TDM samples of a leg that the frame buffer holds; idle codes where it holds none (R259, R264). -/
def tdmInput (s : State) (n l : Nat) : Bytes :=
  tget (if workTick s = tickNow s then s.tdm.got else s.tdm.gotPrev) (keySlot (entryAt s n l).key)
    (List.replicate 8 (silenceCode (tdmLaw s n l)))

/-! ### The rate of a channel (R137) -/

/-- Whether a channel's audio runs at 16 kHz (R137). -/
def chanWide (s : State) (n : Nat) : Bool := legWide s n 0 || legWide s n 1
/-- Whether a leg is converted between its own 8 kHz and a channel at 16 kHz (R137). -/
def converts (s : State) (n l : Nat) : Bool := chanWide s n && !legWide s n l

/-- The samples before a tick that a half-band filter still needs. -/
def pastOf (on_ : Bool) (past now : List Int) : List Int := if on_ then (past ++ now).drop ((past ++ now).length - 2 * now.length) else []

/-- Audio of a leg at the channel's rate: an upward half-band filter, where the leg needs one (R137). -/
def raised (s : State) (n l : Nat) (x : Sound) : Sound :=
  if converts s n l then
    { base := (List.range 16).map (fun i => (Config.halfBand true ((legAt s n l).pastIn ++ x.base) i).toInt) }
  else x

/-- Audio at the channel's rate as a leg takes it: a downward half-band filter, where the leg needs one; the upper band goes only
between legs of Opus at 24 kHz (R137). -/
def lowered (s : State) (n o : Nat) (x : Sound) : Sound :=
  if converts s n o then
    { base := (List.range 8).map (fun i => (Config.halfBand false ((legAt s n o).pastOut ++ x.base) i).toInt) }
  else { base := x.base, upper := if legUpper s n o then padSamples 8 x.upper else [] }

/-- The half-band filters of a leg have taken a tick. -/
def keepPast (n l : Nat) (x : Sound) (out : Bool) (s : State) : State :=
  let c := converts s n l
  modLeg n l (fun g => if out then { g with pastOut := pastOf c g.pastOut x.base }
    else { g with pastIn := pastOf c g.pastIn x.base }) s

/-! ### Arriving audio (R106, R139, R269) -/

/-- The audio that arrives on a leg in a tick, at the leg's rate: the samples of the slot expanded under the gain of the leg, or
what its store room committed (R139, R258, R269). -/
def arriving (s : State) (n l : Nat) : Sound :=
  if kindAt s n l = 1 then
    let most := lawMost (tdmLaw s n l)
    { base := (tdmInput s n l).map (fun c =>
        max (-most) (min most (gained (asSigned 32 (legParam s n l 0x0601)) (expandCode (tdmLaw s n l) c)))) }
  else audioAt s n l (workTick s)

/-- Whether a tick's audio stays below -36 dBm0 (R120, R156). -/
def quietTick (x : Sound) : Bool := belowLevel (-360) x.base

/-! ### Leaving audio (R139, R149, R152, R157) -/

/-- A tick of silence at the channel's rate. -/
def silentTick (s : State) (n : Nat) : Sound := { base := List.replicate (if chanWide s n then 16 else 8) 0 }

/-- The audio of a direction after step 4 of R139, at the channel's rate: the generator's, silence where it is muted, else what
arrives. -/
def sentAudio (s : State) (n l : Nat) (held : Bool) (x : Sound) : Sound :=
  let o := 1 - l
  let heard := if muted s n o held then silentTick s n else x
  match (legAt s n o).gen with
  | some g => if genPlays (some g) then (if genSilent s n o g then silentTick s n else genTick s n o g) else heard
  | none => heard

/-! ### Frames (R133, R134, R136, R143) -/

/-- The place of a bit rate in a codec's list. -/
def rateIndex (codec rate : Nat) : Nat :=
  (if codec = 6 then [4750, 5150, 5900, 6700, 7400, 7950, 10200, 12200]
   else [6600, 8850, 12650, 14250, 15850, 18250, 19850, 23050, 23850]).findIdx (fun r => r == rate)

/-- The AMR mode of the encoder: the lower of the configured rate and the last CMR on an RTP leg (R134). -/
def amrMode (s : State) (n o : Nat) : Nat :=
  let own := rateIndex (legCodec s n o) (legParam s n o 0x0302)
  let cmr := (legAt s n o).cmr
  if kindAt s n o = 2 ∧ cmr < own then cmr else own

/-- The rate at which a leg's encoder works: an AMR mode, else the bit rate (R134). -/
def encRate (s : State) (n o : Nat) : Nat :=
  if legCodec s n o = 6 ∨ legCodec s n o = 7 then amrMode s n o else legParam s n o 0x0302

/-- The first `k` bytes of what a leg's encoder makes of samples (R132; log entry 30). -/
def encBytes (s : State) (n o : Nat) (pcm : List Int) (k : Nat) : Bytes :=
  (List.range k).map (Config.encByte (legCodec s n o) (encRate s n o) (legParam s n o 0x030A) (legAt s n o).enc pcm)

/-- The state of a leg's encoder after samples; the standard initial one where its arithmetic failed (R132, R157). -/
def encAfter (s : State) (n o : Nat) (pcm : List Int) (bad : Bool) : Nat :=
  if bad then 0 else Config.encState (legCodec s n o) (encRate s n o) (legParam s n o 0x030A) (legAt s n o).enc pcm

/-- A tick of a sample codec's payload: G.711 codes, or the encoder's bytes (R133). -/
def tickBytes (s : State) (n o : Nat) (pcm : List Int) : Bytes :=
  let c := legCodec s n o
  if c ≤ 2 then pcm.map (compressCode c) else encBytes s n o pcm (if c = 4 then legParam s n o 0x0302 / 8000 else 8)

/-- The TOC byte of an Opus encoder's packet of one frame: one mono frame of 20 ms in a configuration of its audio rate, SILK or
CELT as the encoder decides (RFC 6716; log entry 53). -/
def opusToc (s : State) (n o : Nat) (pcm : List Int) : Byte :=
  let khz := legParam s n o 0x030A
  let cfgs := if khz = 8 then [1, 19] else if khz = 12 then [5, 5] else if khz = 16 then [9, 23] else [13, 27]
  let celt := ((encBytes s n o pcm 1).headD 0).getLsbD 0
  BitVec.ofNat 8 (8 * cfgs.getD (if celt then 1 else 0) 1)

/-- A frame as a trunk item carries it: its fixed bytes, the rest as the encoder makes them (R133, R134). -/
def codedFrame (s : State) (n o : Nat) (sid : Bool) (pcm : List Int) : Bytes :=
  let c := legCodec s n o
  if c = 5 then encBytes s n o pcm (if sid then 2 else 10)
  else if c = 8 then
    opusToc s n o pcm :: (encBytes s n o pcm (if sid then 1 else legParam s n o 0x0302 / 400)).drop 1
  else
    let ft := if sid then (if c = 7 then 9 else 8) else amrMode s n o
    let bits := (amrBits (c == 7) ft).getD 0
    BitVec.ofNat 8 (8 * ft + 4) :: padBits bits (encBytes s n o pcm ((bits + 7) / 8))

/-- The TOC bytes of stored AMR frames, bit 7 set on all but the last, then their bits (R143). -/
def amrPayload (l : List Bytes) : Bytes :=
  let tocs := l.map (fun f => leAt f 0 1)
  let k := tocs.length
  [0xF0] ++ (tocs.zipIdx.map (fun p => BitVec.ofNat 8 (p.1 + if p.2 + 1 < k then 128 else 0))) ++
    (l.map (fun f => f.drop 1)).flatten

/-- The frames gathered in a buffer of AMR frames. -/
def splitAmr (wide : Bool) : Nat → Bytes → List Bytes
  | 0, _ => []
  | k + 1, b => match b with
    | [] => []
    | t :: r =>
      let m := (amrBytes wide (t.toNat / 8 % 16)).getD 0
      (t :: r.take m) :: splitAmr wide k (r.drop m)

/-- The frames of a codec that a buffer has gathered; `rate` is that of Opus (R133, R134, R143). -/
def bufferFrames (codec rate : Nat) (b : Bytes) : List Bytes :=
  if codec = 5 then tens 16 b
  else if codec = 8 then
    let k := rate / 400
    (List.range (b.length / k)).map (fun i => slice b (i * k) k)
  else splitAmr (codec == 7) 4 b

/-- Opus packets of one frame as one packet: the frames under the first one's TOC byte, code 1 for two and code 3, constant bit
rate, for three (R143; RFC 6716; log entry 53). -/
def opusPacket (l : List Bytes) : Bytes :=
  let toc := ((l.headD []).headD 0).toNat
  let frames := (l.map (fun f => f.drop 1)).flatten
  if l.length = 2 then BitVec.ofNat 8 (toc + 1) :: frames
  else if l.length = 3 then [BitVec.ofNat 8 (toc + 3), 3] ++ frames
  else l.flatten

/-- The payload of an RTP packet from what a leg has gathered (R143). -/
def rtpBody (s : State) (n o : Nat) (b : Bytes) : Bytes :=
  let c := legCodec s n o
  if c = 6 ∨ c = 7 then amrPayload (splitAmr (c == 7) 4 b)
  else if c = 8 ∧ 1 < b.length then opusPacket (bufferFrames 8 (legParam s n o 0x0302) b)
  else b

/-! ### Sending (R142, R199, R200) -/

/-- The PT of audio packets (R155). -/
def audioPt (s : State) (n o : Nat) : Nat := if (chanAt s n).vbd then vbdPt s n o else legParam s n o 0x0304

/-- A packet of an RTP leg from what it has gathered over `ticks` ticks that end `back` ticks before the end of this one. One that
carries speech ends a silence, and its marker is set; one of a SID frame alone does not (R142). -/
def sendAudio (n o ticks back : Nat) (speech : Bool) (s : State) : State :=
  let g := legAt s n o
  let ts := g.pos + BitVec.ofNat 32 (legClock s n o) - BitVec.ofNat 32 ((ticks + back) * legClock s n o)
  modLeg n o (fun g => { g with silent := g.silent && !speech, buf := [], ptimeAt := back })
    (sendRtp n o (audioPt s n o) (g.silent && speech) ts (rtpBody s n o g.buf) s)

/-- Whether an item at a tick is anchored, and the period it anchors (R200). -/
def anchorsNow (s : State) (n o t : Nat) : Bool × Nat :=
  let every := legParam s n o 0x0501
  let g := legAt s n o
  if every = 0 then (g.anchoring, g.anchorP)
  else (g.anchoring || decide (g.anchorP ≠ t / every + 1), t / every + 1)

/-- A codec frame of a trunk leg that covers `ticks` ticks ending with this one (R193, R198, R200). -/
def sendTrunk (n o ticks : Nat) (data : Bytes) (s : State) : State :=
  let g := legAt s n o
  let t := workTick s
  let pos := g.pos + BitVec.ofNat 32 (legClock s n o) - BitVec.ofNat 32 (ticks * legClock s n o)
  let a := anchorsNow s n o t
  let item : BItem := {
    kind := 0, tick := t, anchor := if a.1 then some pos else none, pos := pos, vbd := (chanAt s n).vbd
    stream := g.stream, data := data }
  modLeg n o (fun g => { g with anchorP := a.2, buf := [], ptimeAt := 0 }) (pushItem ((chanAt s n).handle o) item s)

/-- The samples that a leg's encoder takes in a tick. -/
def tickLen (s : State) (n o : Nat) : Nat := (if legWide s n o then 16 else 8) + (if legUpper s n o then 8 else 0)

/-- The frame length of a leg in ticks, and whether the leg gathers codes tick by tick (R132, R133, R155). -/
def frameOf (s : State) (n o : Nat) : Nat × Bool :=
  let c := legCodec s n o
  let trunk := kindAt s n o == 3
  (if trunk ∧ (chanAt s n).vbd then 10 else frameMs trunk c, decide (c ≤ 4))

/-- What is gathered of a tone's nine ticks when its mute begins is replaced by the codec's encoding of silence: codes of a sample
codec, samples that wait for their frame, and a completed frame that holds samples of the tone (R152; log entry 54). -/
def muteBuffer (n o : Nat) (begins : Bool) (s : State) : State :=
  if !begins then s
  else
    let c := legCodec s n o
    let tick := tickLen s n o
    let g := legAt s n o
    if c ≤ 4 then
      let per := if c = 4 then legParam s n o 0x0302 / 8000 else 8
      let k := min 9 (g.buf.length / per)
      let still := tickBytes s n o (List.replicate tick 0)
      modLeg n o (fun g => { g with buf := g.buf.take (g.buf.length - k * per) ++ (List.replicate k still).flatten }) s
    else
      let k := min (9 * tick) g.pcm.length
      let frames := bufferFrames c (legParam s n o 0x0302) g.buf
      let part := g.ptimeAt % (frameOf s n o).1
      let buf := if part < 9 ∧ !frames.isEmpty then
          frames.dropLast.flatten ++ codedFrame s n o false (List.replicate ((frameOf s n o).1 * tick) 0)
        else g.buf
      modLeg n o (fun g => { g with pcm := g.pcm.take (g.pcm.length - k) ++ List.replicate k 0, buf := buf }) s

/-- An encoder's frame counts where a CMR holds it below the configured rate (R134, R160). -/
def countCmr (n o : Nat) (sid : Bool) (s : State) : State :=
  let c := legCodec s n o
  if !sid ∧ (c = 6 ∨ c = 7) ∧ amrMode s n o < rateIndex c (legParam s n o 0x0302) then statBump n 0x03AB 1 s else s

/-- A sample codec's tick: it is gathered, and what is complete leaves (R133, R142). -/
def encodeTick (n o : Nat) (pcm : List Int) (bad : Bool) (s : State) : State :=
  let at_ := (legAt s n o).ptimeAt + 1
  let s1 := modLeg n o (fun x => { x with
    buf := x.buf ++ tickBytes s n o pcm, ptimeAt := at_, enc := encAfter s n o pcm bad }) s
  if kindAt s n o = 3 then (if (frameOf s n o).1 ≤ at_ then sendTrunk n o at_ (legAt s1 n o).buf s1 else s1)
  else if legParam s n o 0x0303 ≤ at_ then sendAudio n o at_ 0 true s1 else s1

/-- A frame that an RTP leg's encoder has completed joins the packet being gathered. A SID frame of Opus goes in a packet of its
own; any SID frame ends its packet (R136, R142, R143). -/
def gatherFrame (n o at_ : Nat) (sid : Bool) (frame : Bytes) (s : State) : State :=
  let len := (frameOf s n o).1
  let alone := sid && legCodec s n o == 8 && !(legAt s n o).buf.isEmpty
  let s1 := if alone then sendAudio n o (at_ - len) len true s else s
  let at_ := if alone then len else at_
  let speech := !sid || !(legAt s1 n o).buf.isEmpty
  let s2 := modLeg n o (fun x => { x with buf := x.buf ++ frame, ptimeAt := at_ }) s1
  if sid ∨ legParam s n o 0x0303 ≤ at_ then sendAudio n o at_ 0 speech s2 else s2

/-- A frame codec's tick: samples are gathered, and a frame that they complete is encoded: speech, a SID frame, or nothing where
the codec's own VAD and DTX transmit nothing (R133, R136, R142). -/
def encodeFrame (n o : Nat) (pcm : List Int) (bad : Bool) (s : State) : State :=
  let at_ := (legAt s n o).ptimeAt + 1
  let all := (legAt s n o).pcm ++ pcm
  let frame := if bad then List.replicate all.length 0 else all
  let vad := legParam s n o 0x0307 == 1 && !(chanAt s n).vbd
  let c := legCodec s n o
  let st := (legAt s n o).enc
  if at_ % (frameOf s n o).1 ≠ 0 then
    modLeg n o (fun x => { x with ptimeAt := at_, pcm := frame, enc := if bad then 0 else x.enc }) s
  else
    let after := fun (s1 : State) => modLeg n o (fun x => { x with pcm := [], enc := encAfter s n o frame bad }) s1
    if vad && Config.vadNothing c st frame then
      let s1 := if kindAt s n o = 3 ∨ (legAt s n o).buf.isEmpty then s
        else sendAudio n o (at_ - (frameOf s n o).1) (frameOf s n o).1 true s
      after (modLeg n o (fun x => { x with silent := true, ptimeAt := 0, buf := [] }) s1)
    else
      let sid := vad && Config.vadSid c st frame
      let b := codedFrame s n o sid frame
      let s1 := countCmr n o sid s
      after (if kindAt s n o = 3 then sendTrunk n o at_ b s1 else gatherFrame n o at_ sid b s1)

/-- The encoder of a packet leg in a tick; where its arithmetic failed it encodes silence and starts anew (R133, R136, R142,
R157). -/
def encodePacket (n o : Nat) (x : Sound) (bad : Bool) (s : State) : State :=
  let pcm := if bad then List.replicate (x.base ++ x.upper).length 0 else x.base ++ x.upper
  if (frameOf s n o).2 then encodeTick n o pcm bad s else encodeFrame n o pcm bad s

/-- Samples written for a TDM leg under its gain (R25, R259, R269). -/
def writeTdm (n o : Nat) (x : Sound) (s : State) : State :=
  let b := x.base.map (fun x => compressCode (tdmLaw s n o) (gained (asSigned 32 (legParam s n o 0x0602)) x))
  { s with tdm := { s.tdm with smp := tset s.tdm.smp (keySlot (entryAt s n o).key) b } }

/-! ### Numeric faults (R157) -/

/-- AFS read and cleared at the end of a decoder's (0) or encoder's (1) part of a leg's work, to which `flags` came: a flag that
is set returns a decoder to its initial state, and an encoder once it has sent silence. The second component says that one was.
-/
def codecReset (n l which : Nat) (flags : BitVec 3) (s : State) : State × Bool :=
  if kindAt s n l = 1 then (s, false)
  else
    let lane := (chanAt s n).worker
    let r := takeAfs lane (raiseAfs lane flags s)
    if r.1 = 0 then (r.2, false)
    else
      let s1 := if which = 0 then statBump n 0x03A9 1 (modLeg n l (fun g => { g with dec := 0 }) r.2) else r.2
      (raise 167 [(2, n), (1, l), (1, which), (1, r.1.toNat)] (statBump n 0x03AA 1 s1), true)

/-! ### A direction (R139) -/

/-- The audio toward leg `o` leaves: steps 2 to 5 of R139 for what arrived on the other leg; a tick whose decoder failed is
concealed from the state before (R157). The second component is the audio as it left, at the leg's rate. -/
def workDirection (n l : Nat) (x : Sound) (g go : LegSignal) (s : State) : State × Sound :=
  let o := 1 - l
  let dec := codecReset n l 0 g.decFlags s
  let s1 := dec.1
  let y := if dec.2 then fillTick s n l (workTick s) else x
  let before := (legAt s1 n o).mute.isSome
  let s2 := noteMute n o g.dtmfHeld (serveEvents n l (detect n l g s1))
  let s3 := if kindAt s2 n o = 1 then s2
    else muteBuffer n o (!before && (legAt s2 n o).mute.isSome) (serveEvent n o s2)
  let a := sentAudio s3 n l g.dtmfHeld (raised s3 n l y)
  let out := lowered s3 n o a
  let s4 := keepPast n o a true (keepPast n l y false s3)
  let enc := codecReset n o 1 go.encFlags s4
  let s5 := if kindAt s4 n o = 1 then writeTdm n o out enc.1 else encodePacket n o out enc.2 enc.1
  (modLeg n o (fun x => { x with
    pos := x.pos + BitVec.ofNat 32 (legClock s n o), gen := x.gen.map stepGen }) s5, out)

/-- The samples of the tick's far-end reference: what left toward the access leg, as the expansion of the codes written where
that is a TDM leg (R106, R139). -/
def reference (s : State) (n : Nat) (out : Sound) : List Int :=
  padSamples (ecRate s n) (if kindAt s n 0 = 1 then
    (tget s.tdm.smp (keySlot (entryAt s n 0).key) []).map (expandCode (tdmLaw s n 0)) else out.base)

/-- What a packet leg takes in for a tick: event packets and CMRs, then the service of its store room (R24, R179). -/
def serveLeg (n l : Nat) (s : State) : State :=
  if kindAt s n l = 1 then s else serveRoom n l (takeInputs n l (workTick s) s)

/-- The channel's work in a tick: the store rooms' commits give the arriving audio, the canceller runs on the access leg's, then
both directions, the far-end reference and the requests of the next tick's slices, the quiet count of voiceband data (R122,
R139, R156, R179). -/
def tickWork (n : Nat) (g : Signals) (s : State) : State :=
  let t := workTick s
  let ec := ecWork n g.ec (arriving s n 0) s
  let s1 := modChan n (fun c => { c with worked := t }) (serveLeg n 1 (serveLeg n 0 ec.1))
  let a := arriving s n 0
  let b := arriving s1 n 1
  let s2 := dropAudio n 1 t (dropAudio n 0 t s1)
  let one := workDirection n 0 ec.2 g.a g.b s2
  let two := workDirection n 1 b g.b g.a one.1
  let s3 := requestSlices n t (storeReference n t (reference two.1 n two.2) two.1)
  modChan n (fun c => { c with vbdQuiet := if c.vbd && quietTick a && quietTick b then c.vbdQuiet + 1 else 0 }) s3

/-- CHANNEL_TICK_WORK (R139): once in a tick, by a lane that can run. -/
def execChannelTickWork (chan : BitVec 13) (sig : Signals) (s : State) : Host.Outcome State Fault Refusal :=
  let n := chan.toNat
  let c := chanAt s n
  let st := (laneAt s c.worker).st
  .next (if c.live && decide (c.worked < workTick s) && workReady s && (st == .idle || st == .running || st == .overrun) then
      tickWork n sig s
    else s)

end Sys2Proof.Machine
end

