-- ==== Sys2Proof/Machine/Moves.lean ====
section
/-! DEFINITION. Completion data of channel commands, moves between lanes, forced parks and evacuation (R40 to R43, R48, R54,
R103). -/

namespace Sys2Proof.Machine

/-! ### Completion data (R54) -/

/-- The number of an entry state (R32). -/
def EntryState.code : EntryState → Nat
  | .parked => 1 | .active => 2 | .migrating => 3

/-- The state of an entry as completions report it: 0 where it is free. -/
def entryCode (s : State) (h : Nat) : Nat := ((tget? s.sess h).map (fun e => e.st.code)).getD 0

/-- The 24 bytes of completion data about the entry of a handle. -/
def chanData (s : State) (h eff : Nat) : Bytes :=
  match tget? s.sess h with
  | none => toLe 4 h ++ List.replicate 7 0xFF ++ zeros 5 ++ toLe 8 eff
  | some e =>
    let c := e.chan.bind (fun n => if e.st = .parked then none else (tget? s.chans n).map (fun c => (n, c)))
    toLe 4 h ++ toLe 4 (e.partner.getD 0xFFFFFFFF) ++
      (match c with
      | some (n, c) => toLe 2 n ++ toLe 1 c.lane ++ toLe 1 e.st.code ++ toLe 2 c.cost
      | none => [0xFF, 0xFF, 0xFF] ++ toLe 1 e.st.code ++ zeros 2) ++
      toLe 2 e.drops ++ toLe 8 eff

/-- The completion data of an entry with a state code put in (R54). -/
def entryData (s : State) (h code eff : Nat) : Bytes :=
  let d := chanData s h eff
  d.take 11 ++ [BitVec.ofNat 8 code] ++ d.drop 12

/-- Completes a command about the entry of a handle. -/
def finish (seq status h eff : Nat) (s : State) : State := complete seq status (chanData s h eff) s

/-! ### Moves (R40, R42) -/

/-- Both entries of a channel in a state. -/
def setEntries (n : Nat) (st : EntryState) (s : State) : State :=
  let c := chanAt s n
  modSess c.oth (fun e => { e with st := st }) (modSess c.acc (fun e => { e with st := st }) s)

/-- A move of a channel starts: the target reserves its cost (R40). -/
def startMove (n : Nat) (m : Move) (s : State) : State :=
  setEntries n .migrating (modChan n (fun c => { c with move := some m }) s)

/-- A park or close of a channel makes the tick in progress its last: bit 2 of its entry's flags in the list that its lane works
(R39, R100; log entry 94). -/
def flagLast (n : Nat) (s : State) : State :=
  let l := (chanAt s n).worker
  let x := laneAt s l
  match x.list.idxOf? n with
  | none => s
  | some i =>
    let a := atticBase (clusterOf l) + (x.core.clist.toNat - 0x400000) + 16 * i + 2
    storeBytes a [Memory.read s.mem a ||| 4] s

/-- Event 9: what became of a timed action (R380, R388). -/
def timedResult (seq status eff : Nat) (s : State) : State := raise 9 [(4, seq), (4, status), (8, eff)] s

/-- The command or timed action whose move or modify is refused completes with a status. -/
def refuseModify (r : ModReq) (status : Nat) (s : State) : State :=
  if r.timed then timedResult r.seq status 0 s else finish r.seq status r.handle 0 s

/-- A channel that no lane can take parks at the boundary, with event 148 (R43). -/
def forcePark (n : Nat) (s : State) : State :=
  modChan n (fun c => { c with park := some ((c.park.map (fun p => { p with forced := true })).getD { forced := true }) }) s

/-- A channel no longer counts among those that reef entry moves (R456). -/
def dropReefMove (n : Nat) (s : State) : State :=
  { s with age := { s.age with moves := s.age.moves.filter (fun m => m != n) } }

/-! ### What a modify changes (R38) -/

/-- What a modify would make of the entries of a pair: key and parameters of the target, parameters of its partner, cost, and
whether an active channel gains the keep flag. -/
structure Modified where
  key : Bytes
  p : Tab Word
  q : Tab Word
  cost : Nat
  gains : Bool
  deriving DecidableEq, Repr

/-- The ID's entry for a leg of a modify, as 0 access and 1 partner of the channel. -/
def modEntry (ps : List (Nat × Nat × Word)) (leg id : Nat) : Option Nat :=
  (ps.find? (fun e => e.1 == id && e.2.1 == leg)).map (fun e => e.2.2.toNat)

/-- The parameters of a command that act as commands on a leg of an active channel: gen_play starts or stops its generator,
sig_send sends an item (R149, R158, R199, R221). -/
def actLeg (n l side : Nat) (ps : List (Nat × Nat × Word)) (s : State) : State :=
  let s1 := match modEntry ps side 0x031A with
    | some v => startGen n l v s
    | none => s
  match modEntry ps side 0x0502 with
  | some v => pushItem ((chanAt s n).handle l) { kind := 2, tick := tickNow s, data := toBe 4 v } s1
  | none => s1

/-- What a modify does to a leg of an active channel at its boundary: a change of codec, rate or ptime_ms restarts encoder
and decoder; playout adapts anew; gen_play and sig_send act (R158, R161, R180, R183, R187, R200). `old` is the channel
before it. -/
def modifyLeg (old : State) (n l side : Nat) (ps : List (Nat × Nat × Word)) (s : State) : State :=
  let changed := fun id => legParam old n l id != legParam s n l id
  let recode := changed 0x0301 || changed 0x0302 || changed 0x0303
  let s1 := if changed 0x0301 ∨ changed 0x0305 then cutEvent n l s else s
  let s2 := if recode ∧ kindAt s n l ≠ 1 then
      stopStream n l 1 (modLeg n l (fun g =>
        let g1 := if changed 0x0301 then newStream { g with cmr := 15, cmrIn := [] } else g
        { g1 with buf := [], pcm := [], ptimeAt := 0, enc := 0 }) s1)
    else s1
  actLeg n l side ps (if kindAt s n l = 1 then s2 else modifyRoom old n l s2)

/-- What a modify does to the canceller: a reset or a change of rate clears it before the other parameters apply; a shorter
tail or fewer units fit the windows (R108, R127, R129). -/
def modifyEc (old : State) (n side : Nat) (ps : List (Nat × Nat × Word)) (s : State) : State :=
  let rate := ecWide old n != ecWide s n
  let s1 := if modEntry ps side 0x0211 == some 1 || rate then ecReset n s else s
  fitWindows n (if rate then modEc n (fun e => { e with ring := [] }) s1 else s1)

/-- A modify takes effect (R38): keys, parameters, cost, and what follows from them. -/
def applyModify (r : ModReq) (m : Modified) (s : State) : State :=
  let e := sessAt s r.handle
  let s1 := modSess r.handle (fun e => { e with key := m.key, params := m.p }) s
  let s2 := match e.partner with
    | some p => modSess p (fun e => { e with params := m.q }) s1
    | none => s1
  match e.chan with
  | none => s2
  | some n =>
    if e.st = .parked then s2
    else
      let l := legOfHandle (chanAt s n) r.handle
      let s3 := modChan n (fun c => { c with cost := if c.move.isSome then c.cost else m.cost }) s2
      let s4 := modifyEc s n (if l = 0 then 0 else 1) r.ps s3
      modifyLeg s n (1 - l) 1 r.ps (modifyLeg s n l 0 r.ps s4)

/-- What a modify replaces of an entry's channel at a take-over (R38, R42). -/
def modWas (s : State) (h n : Nat) : ModWas :=
  let e := sessAt s h
  let c := chanAt s n
  { key := e.key, params := e.params, other := (e.partner.map (fun p => (sessAt s p).params)).getD []
    ec := c.ec, legA := c.legA, legB := c.legB, stats := c.stats, tick := tickNow s }

/-- The item of a signal that a modify sent on a leg leaves the open interval of its peer (R42). -/
def unsendSig (n l side : Nat) (w : ModWas) (ps : List (Nat × Nat × Word)) (s : State) : State :=
  match modEntry ps side 0x0502 with
  | none => s
  | some v =>
    let k := keyTrunk (sessAt s ((chanAt s n).handle l)).key
    let i : BItem := { kind := 2, tick := w.tick, data := toBe 4 v, chan := k.2 }
    { s with peers := s.peers.map (fun p => if p.1 = k.1 then (p.1, { p.2 with items := p.2.items.erase i }) else p) }

/-- A leg as it stood before a modify, with what it has received since (R42, R103). -/
def ModWas.leg (was now : Leg) : Leg :=
  { was with
    ssrc := now.ssrc, lastRx := now.lastRx, badPt := now.badPt, extSeq := now.extSeq, seqBase := now.seqBase
    rxCount := now.rxCount, transit := now.transit, jit := now.jit, lsr := now.lsr, lsrAt := now.lsrAt
    cmr := now.cmr, cmrIn := now.cmrIn
    room := { was.room with parts := now.room.parts, events := now.room.events, evIn := now.room.evIn } }

/-- Statistics that a modify's reset and restarts changed, as they stood before it (R127, R183). -/
def ModWas.counts (w : ModWas) (now : Tab Word) : Tab Word :=
  [0x0281, 0x0282, 0x0283, 0x0284, 0x0489, 0x0499].foldl (fun t k => match tget? w.stats k with
    | some v => tset t k v
    | none => tdel t k) now

/-- The changes that a modify made at the take-over of its move are taken back: the entries and the channel's context get what
they held before it, and a signal item still waiting is not sent. Where the target lane has done the tick's work, its context
goes on from there under the old settings, with the canceller and the generators of before (R38, R42, R103; log entry 110). -/
def undoModify (n : Nat) (m : Move) (s : State) : State :=
  match m.mod, m.was with
  | some r, some w =>
    let l := legOfHandle (chanAt s n) r.handle
    let s1 := unsendSig n (1 - l) 1 w r.ps (unsendSig n l 0 w r.ps s)
    let back := fun (s : State) => modSess r.handle (fun e => { e with key := w.key, params := w.params })
      (match (sessAt s r.handle).partner with
      | some p => modSess p (fun e => { e with params := w.other }) s
      | none => s)
    if (chanAt s n).worked < w.tick then
      modChan n (fun c => { c with
        ec := w.ec, legA := ModWas.leg w.legA c.legA, legB := ModWas.leg w.legB c.legB, stats := w.counts c.stats }) (back s1)
    else
      let s2 := applyModify { handle := r.handle, key := some w.key }
        { key := w.key, p := w.params, q := w.other, cost := (chanAt s n).cost, gains := false } s1
      modChan n (fun c => { c with
        ec := w.ec, legA := { c.legA with gen := w.legA.gen }, legB := { c.legB with gen := w.legB.gen } }) s2
  | _, _ => s

/-! ### Moves abandoned (R42, R48) -/

/-- A move is given up: the channel stays on its source lane, or once the target has taken it on the target, the other lane's
reservation goes, event 146 (R42, R48); a channel that reef entry was moving parks (R456). -/
def unmove (n : Nat) (m : Move) (s : State) : State :=
  let s1 := setEntries n .active (modChan n (fun c => { c with lane := if m.phase = 2 then m.target else c.lane, move := none }) s)
  let reef := s.age.moves.contains n
  dropReefMove n (raise 146 [(2, n), (1, (chanAt s n).lane), (1, m.target)] (if reef then forcePark n s1 else s1))

/-- BUSY for the command or action whose move was abandoned (R38, R42). -/
def moveBusy (m : Move) (s : State) : State :=
  let s1 := match m.cmd with
    | some seq => finish seq 9 m.addressed 0 s
    | none => s
  match m.mod with
  | some r => refuseModify r 9 s1
  | none => s1

/-- A move is abandoned (R42, R48). -/
def abandonMove (n : Nat) (s : State) : State :=
  match (chanAt s n).move with
  | none => s
  | some m => moveBusy m (undoModify n m (unmove n m s))

/-! ### Evacuation (R43, R48, R103) -/

/-- Whether channel `a` leaves a lane before channel `b`: no keep flag first, then the higher cost, then the lower number. -/
def leavesFirst (s : State) (a b : Nat × Channel) : Bool :=
  let ka := chanParam s a.1 0x0101
  let kb := chanParam s b.1 0x0101
  decide (ka < kb) || (ka == kb && (decide (b.2.cost < a.2.cost) || (a.2.cost == b.2.cost && decide (a.1 < b.1))))

/-- Insertion in the order of leaving. -/
def insertLeaving (s : State) (a : Nat × Channel) : List (Nat × Channel) → List (Nat × Channel)
  | [] => [a]
  | b :: t => if leavesFirst s a b then a :: b :: t else b :: insertLeaving s a t

/-- The channels of a lane that may leave, in order: those with no move in progress and no park waiting. -/
def leaving (s : State) (lane : Nat) : List Nat :=
  ((s.chans.filter (fun c => c.2.lane == lane && c.2.move.isNone && c.2.park.isNone && !c.2.dormant)).foldl
    (fun l c => insertLeaving s c l) []).map (fun c => c.1)

/-- One channel leaves a faulted lane: its context is copied at once, or it parks at the next boundary (R43, R103). -/
def leaveLane (lane n : Nat) (s : State) : State :=
  match place s 255 (chanAt s n).cost (some lane) with
  | some t => startMove n { target := t, phase := 1, cost := (chanAt s n).cost } s
  | none => forcePark n s

/-- The LU that channels not taken hold on a lane. -/
def stayingLu (s : State) (lane : Nat) : Nat :=
  s.chans.foldl (fun n c =>
    if c.2.lane = lane ∧ (c.2.move.isSome ∨ c.2.park.isSome) then n else n + luOn lane c.2) 0

/-- What a lane's fault does to a move that has this lane as its source or target (R48). -/
def faultMove (lane : Nat) (s : State) (n : Nat) : State :=
  let c := chanAt s n
  match c.move with
  | none => s
  | some m =>
    if m.target = lane ∨ (m.phase < 2 ∧ c.lane = lane) then abandonMove n s
    else if c.lane = lane then modChan n (fun c => { c with move := some { m with gone := true } }) s
    else s

/-- Every channel leaves a faulted lane (R43, R103). -/
def evacuate (lane : Nat) (s : State) : State :=
  let s1 := (s.chans.map (fun c => c.1)).foldl (faultMove lane) s
  (leaving s1 lane).foldl (fun s n => if (chanAt s n).live then leaveLane lane n s else s) s1

/-- A lane faults (R102): the faulting word, a word that stalls in a QWAIT among them (log entry 26), and later words take no
effect, earlier results land, the lane stops, a push in progress is cut (R309), the fault is recorded, event LANE_FAULT raised,
and the lane's channels leave it (R43). -/
def laneFault (l cause slot pc addr : Nat) (s : State) : State :=
  let x := laneAt s l
  let core := match x.word with
    | some c => c.core0
    | none => x.core
  let s1 := match x.word with
    | some c => undoStores c s
    | none => s
  let s2 := putLane l { x with st := .faulted, core := landAll core, word := none } s1
  let s3 := abandonLane l s2
  let s4 := fset .LAN_FAULT_cause cause (fset .LAN_FAULT_slot slot (fset .LAN_FAULT_pc pc s3 l) l) l
  let s5 := fset .LAN_FAULT_ADDR_address addr s4 l
  evacuate l (raise (laneEvent l 0) [(1, l), (1, cause), (1, slot), (2, pc), (4, addr)] s5)

end Sys2Proof.Machine
end

