-- ==== Sys2Proof/Machine/Sessions.lean ====
section
/-! DEFINITION. The session table and the channel commands (R28 to R57, R381), their effects at boundaries, and the statistics
that STATS_READ returns. -/

namespace Sys2Proof.Machine

/-! ### Targets and keys (R30, R52) -/

/-- What a target word names. -/
inductive Target where
  /-- A malformed word: BAD_PARAM. -/
  | bad
  /-- No such channel or entry: NO_SESSION. -/
  | missing
  /-- An entry by its handle. -/
  | entry (h : Nat)
  deriving DecidableEq, Repr

/-- The access handle of an admission waiting for its boundary that may make a channel of a number. -/
def admissionOf (s : State) (n : Nat) : Option Nat :=
  s.mast.effects.findSome? (fun e => match e with
    | .admission r => if r.want = n ∨ r.want = 0xFFFF then some r.acc else none
    | _ => none)

/-- A target word resolved (R52). A channel number that a waiting admission may make names that admission's entry, so that the
command waits for it (R48). -/
def targetOfWord (s : State) (w : Nat) : Target :=
  if w / 2 ^ 31 = 1 then
    if w % 2 ^ 31 < 8192 then
      match tget? s.chans (w % 8192) with
      | some c => .entry c.acc
      | none => match admissionOf s (w % 8192) with
        | some h => .entry h
        | none => .missing
    else .bad
  else if w < 2 ^ 20 then (if (tget? s.sess w).isSome then .entry w else .missing)
  else .bad

/-- The entry that holds a key (R30). -/
def findKey (s : State) (k : Bytes) : Option Nat := (s.sess.find? (fun e => keyEq e.2.key k)).map (fun e => e.1)

/-- The lowest handle that is free. -/
def lowestFree {α : Type} : Nat → Tab α → Nat
  | n, [] => n
  | n, (a, _) :: t => if a = n then lowestFree (n + 1) t else n

/-- Whether an admission or a modify of an entry or of its partner waits for its boundary. -/
def effectOn (s : State) (h : Nat) : Bool :=
  let names := fun (x : Nat) => x == h || (sessAt s h).partner == some x
  s.mast.effects.any (fun e => match e with
    | .admission r => names r.acc || names r.oth
    | .change r => names r.handle
    | .park _ => false)

/-- Whether commands must wait for an entry: an admission, a modify, a park or a move is under way on it (R48). -/
def chanBusy (s : State) (h : Nat) : Bool :=
  effectOn s h ||
  (match (sessAt s h).chan with
  | some n =>
    let c := chanAt s n
    c.park.isSome || c.move.isSome
  | none => false)

/-! ### SESSION_INSERT, SESSION_DELETE (R50, R45) -/

/-- Whether parameter entries are well formed: known IDs, legs 0 or 1, none twice (R53). -/
def paramForm (ps : List (Nat × Nat × Word)) (legs : Nat) : Bool :=
  ps.all (fun e => paramKnown e.1 && decide (e.2.1 < legs)) && noRepeat ps

/-- A new entry's parameters: an RTP entry's SSRC comes from the random generator unless supplied (R158). -/
def withSsrc (s : State) (k : Bytes) (p : Tab Word) : Tab Word :=
  if keyKind k = 2 ∧ (tget? p 0x0306).isNone then tset p 0x0306 (Config.freeWord s.free) else p

/-- SESSION_INSERT; the new entry takes the lowest free handle (log entry 26). -/
def sessionInsert (c : Cmd) (s : State) : Option State :=
  let p := cmdPayload c.desc
  let key := p.take 64
  let n := leAt p 64 2
  let ps := parseParams n (p.drop 68)
  let new := ofLeg 0 ps
  let fail := fun (st : Nat) (s : State) => some (complete c.seq st (noneData 0x20) s)
  if p.length < 68 ∨ 24 < n ∨ p.length ≠ 68 + 8 * n ∨ !cmdForm c.desc ∨ !keyOk s key ∨ !paramForm ps 1 ∨
      !paramsOk key (mergeParams key [] new) new then fail 3 s
  else if refusesChannels s then fail 0x12 s
  else match findKey s key with
    | some _ => fail 0x0C s
    | none =>
      if 1048576 ≤ s.sess.length then
        fail 0x0B (raise 145 [(4, keyByte key 0)] (fbump .MST_ADMIT_FAILS_table_full 1 s))
      else
        let h := lowestFree 0 s.sess
        let e : Session := { key := key, params := withSsrc s key (mergeParams key [] new) }
        some (finish c.seq 0 h 0 (draw { s with sess := tset s.sess h e }))

/-- An entry is freed: its partner loses the link, and actions bound to it are marked (R33, R380). -/
def freeEntry (h : Nat) (s : State) : State :=
  let s1 := match (sessAt s h).partner with
    | some p => modSess p (fun e => if e.partner = some h then { e with partner := none } else e) s
    | none => s
  { s1 with
    sess := tdel s1.sess h
    host := { s1.host with armed := s1.host.armed.map (fun a => if a.handle = some h then { a with freed := true } else a) } }

/-- The entry that a command's target names, or the status it completes with: BAD_PARAM, STANDBY where the command is refused
on a standby, NO_SESSION (R49, R52). -/
def targetOr (c : Cmd) (form : Bool) (s : State) : Nat ⊕ Nat :=
  let t := targetOfWord s (leAt (cmdPayload c.desc) 0 4)
  if !form || !cmdForm c.desc || t == .bad then .inl 3
  else if refusesChannels s && cmdOp c.desc != 0x26 then .inl 0x12
  else match t with
    | .entry h => .inr h
    | _ => .inl 0x0D

/-- Completes a command OK with data of an entry as it stood before its effect. -/
def finishAs (data : Bytes) (seq : Nat) (s : State) : State := complete seq 0 data s

/-- SESSION_DELETE. -/
def sessionDelete (c : Cmd) (s : State) : Option State :=
  match targetOr c (decide ((cmdPayload c.desc).length = 4)) s with
  | .inl st => some (complete c.seq st (noneData 0x21) s)
  | .inr h =>
    if chanBusy s h then none
    else if (sessAt s h).st ≠ .parked then some (finish c.seq 0x0F h 0 s)
    else some (finishAs (entryData s h 0 0) c.seq (freeEntry h s))

/-! ### CHAN_ADMIT (R33 to R37, R44, R47) -/

/-- What an admission would make: access handle, other handle, their new parameters, cost. -/
structure Admit where
  acc : Nat
  oth : Nat
  pa : Tab Word
  po : Tab Word
  cost : Nat
  deriving DecidableEq, Repr

/-- Whether the first of two keys is the access entry's: the TDM entry, else the RTP entry of an RTP–trunk pair, else the one
named as access (R33). -/
def accessFirst (k ko : Bytes) : Bool := keyKind k == 1 || (keyKind k == 2 && keyKind ko != 1)

/-- The checks of a CHAN_ADMIT on two entries: the status, or what it makes. Leg 0 of the parameter entries is the access
entry that the keys give, whichever entry was named first (R33, R53). Which status an admission gets that several refuse is
the model's choice: BAD_STATE, then BAD_PARAM, then BAD_LEGS, then REEFED (log entry 111). -/
def checkAdmit (s : State) (a b : Nat) (ps : List (Nat × Nat × Word)) : Nat ⊕ Admit :=
  let first := accessFirst (sessAt s a).key (sessAt s b).key
  let x := if first then a else b
  let y := if first then b else a
  let ex := sessAt s x
  let ey := sessAt s y
  let px := mergeParams ex.key ex.params (ofLeg 0 ps)
  let py := mergeParams ey.key ey.params (ofLeg 1 ps)
  let keep := param ex.key px 0x0101
  if ex.st ≠ .parked ∨ ey.st ≠ .parked then .inl 0x0F
  else if !paramForm ps 2 ∨ !paramsOk ex.key px (ofLeg 0 ps) ∨ !paramsOk ey.key py (ofLeg 1 ps) then .inl 3
  else if !shapeOk ex.key ey.key then .inl 0x0E
  else if keep = 1 ∧ !keepOk ex.key px ey.key py then .inl 3
  else if s.age.reefed ∧ keep ≠ 1 then .inl 0x11
  else .inr { acc := x, oth := y, pa := px, po := py, cost := costOf ex.key px ey.key py }

/-- Links two entries as partners; old partners lose the link (R33). -/
def linkPair (a b : Nat) (s : State) : State :=
  let s1 := match (sessAt s a).partner with
    | some p => if p = b then s else modSess p (fun e => { e with partner := none }) s
    | none => s
  let s2 := match (sessAt s1 b).partner with
    | some p => if p = a then s1 else modSess p (fun e => { e with partner := none }) s1
    | none => s1
  modSess b (fun e => { e with partner := some a }) (modSess a (fun e => { e with partner := some b }) s2)

/-- The admitted channel on its lane: its entries are linked, their parameters as the command leaves them (R33, R37). -/
def makeChannel (n lane : Nat) (m : Admit) (s : State) : State :=
  let s1 := linkPair m.acc m.oth s
  let s2 := modSess m.acc (fun e => { e with params := m.pa, chan := some n }) s1
  let s3 := modSess m.oth (fun e => { e with params := m.po, chan := some n }) s2
  { s3 with chans := tset s3.chans n { acc := m.acc, oth := m.oth, lane := lane, cost := m.cost } }

/-- A refusal with NO_CONTEXT: counter and event 144 (R44). -/
def noContext (seq : Nat) (m : Admit) (want : Nat) (s : State) : State :=
  finish seq 0x0A m.acc 0 (raise 144 [(4, m.acc), (2, want), (2, m.cost)] (fbump .MST_ADMIT_FAILS_no_context 1 s))

/-- What a channel command leaves for the next boundary. -/
def addEffect (e : Effect) (s : State) : State := { s with mast := { s.mast with effects := s.mast.effects ++ [e] } }

/-- CHAN_ADMIT. The completion data of a refused admission names the entry that the command names as access, that of an
admission placed or refused with NO_CONTEXT the access entry of R33; KEEP_FULL comes before NO_CONTEXT (the model's choices,
log entry 111). -/
def chanAdmit (c : Cmd) (s : State) : Option State :=
  let p := cmdPayload c.desc
  let a := leAt p 0 4
  let o := leAt p 4 4
  let want := leAt p 8 2
  let mask := leAt p 10 1
  let n := leAt p 12 2
  let fail := fun (st : Nat) => some (complete c.seq st (noneData 0x22) s)
  if p.length < 16 ∨ 24 < n ∨ p.length ≠ 16 + 8 * n ∨ !cmdForm c.desc ∨ 2 ^ 20 ≤ a ∨ (2 ^ 20 ≤ o ∧ o ≠ 0xFFFFFFFF) ∨
      (8192 ≤ want ∧ want ≠ 0xFFFF) ∨ mask = 0 then fail 3
  else if refusesChannels s then fail 0x12
  else if (tget? s.sess a).isNone then fail 0x0D
  else if chanBusy s a then none
  else if a = o then some (finish c.seq 3 a 0 s)
  else
    let b := if o = 0xFFFFFFFF then (sessAt s a).partner else if (tget? s.sess o).isSome then some o else none
    match b with
    | none => some (finish c.seq 0x0D a 0 s)
    | some b =>
      if chanBusy s b then none
      else
        let ps := parseParams n (p.drop 16)
        match checkAdmit s a b ps with
        | .inl st => some (finish c.seq st a 0 s)
        | .inr _ => some (addEffect (.admission { acc := a, oth := b, want := want, mask := mask, ps := ps, seq := c.seq }) s)

/-! ### Activation (R37, R39, R142) -/

/-- A leg's state at activation: a first admission draws its sequence number and position, a later one goes on from what the
park kept, its timestamp advanced by the media time elapsed (R39, R142). -/
def startLeg (n l : Nat) (s : State) : State :=
  let h := (chanAt s n).handle l
  let e := sessAt s h
  let t := tickNow s
  let w := Config.freeWord s.free
  let clock := legClock s n l
  let pos := if e.txSeq.isNone then w else e.ts + BitVec.ofNat 32 ((t - e.parkTick) * clock)
  let wait := legParam s n l 0x0309 * (500 + (Config.freeWord (s.free + 1)).toNat % 1001) / 1000
  let leg : Leg := { pos := pos, rtcpAt := t + wait, evIgnore := none }
  let s1 := modChan n (fun c => c.withLeg l (fun _ => leg)) s
  let s2 := modSess h (fun e => { e with txSeq := some (e.txSeq.getD (BitVec.ofNat 16 (Config.freeWord (s.free + 2)).toNat)) }) s1
  let s3 := if kindAt s n l = 2 then statSet n (rtpBase s n l + 0x0A) ((sessAt s2 h).txSeq.getD 0).toNat s2 else s2
  draw (draw (draw s3))

/-- The activation boundary of an admitted channel (R37): both entries are ACTIVE and the completion is posted. -/
def activate (n seq : Nat) (s : State) : State :=
  let s1 := setEntries n .active (modChan n (fun c => { c with live := true, since := tickNow s, worked := tickNow s - 1
                                                               ec := { seed := Config.freeWord s.free } }) s)
  let s2 := startLeg n 1 (startLeg n 0 (draw s1))
  finish seq 0 (chanAt s n).acc (tickNow s) s2

/-- The state with the clocks that the boundary's tick runs at: an ARMED cluster switches at it (R48, R296). -/
def withNextClocks (s : State) : State :=
  (List.range 8).foldl (fun t i =>
    if fget s .ISL_CLK_STATUS_state i = 2 then fset .ISL_CLK_STATUS_freq_mhz (tget s.isls i {}).asked t i else t) s

/-- The clusters that a placement of the boundary may use: in reefed mode the reef cluster alone (R455, R456). -/
def openClusters (s : State) (mask : Nat) : Nat := if s.age.reefed then mask &&& 2 ^ s.age.cluster else mask

/-- A waiting admission at its boundary: judged as its entries stand and against the budgets of the activation tick, it is
placed and takes effect (R36, R37, R44, R47, R48). -/
def boundaryAdmit (r : AdmitReq) (s : State) : State :=
  if (tget? s.sess r.acc).isNone ∨ (tget? s.sess r.oth).isNone then finish r.seq 0x0D r.acc 0 s
  else match checkAdmit s r.acc r.oth r.ps with
    | .inl st => finish r.seq st r.acc 0 s
    | .inr m =>
      let num := if r.want = 0xFFFF then lowestFree 0 s.chans else r.want
      if param (sessAt s m.acc).key m.pa 0x0101 = 1 ∧ 512 ≤ keepCount s then finish r.seq 0x10 m.acc 0 s
      else if 8192 ≤ s.chans.length ∨ (tget? s.chans num).isSome then noContext r.seq m r.want s
      else match place (withNextClocks s) (openClusters s r.mask) m.cost none with
        | none => noContext r.seq m r.want s
        | some lane =>
          actLeg num 1 1 r.ps (actLeg num 0 0 r.ps (activate num r.seq (makeChannel num lane m s)))

/-! ### CHAN_MODIFY (R38, R51) -/

/-- The checks of a CHAN_MODIFY on an entry: the status, or what it makes (R30, R38, R47, R49, R51, R53). Their order, where
several refuse, and BAD_PARAM for a leg 1 entry where the target has no partner are the model's choices (log entry 111). -/
def checkModify (s : State) (h : Nat) (key : Option Bytes) (ps : List (Nat × Nat × Word)) : Nat ⊕ Modified :=
  let e := sessAt s h
  let k := key.getD e.key
  let other := e.partner.bind (fun p => tget? s.sess p)
  let p := mergeParams k e.params (ofLeg 0 ps)
  let ko := (other.map (fun o => o.key)).getD []
  let q := (other.map (fun o => mergeParams o.key o.params (ofLeg 1 ps))).getD []
  let live : Bool := e.st != .parked
  let acc : Bool := match e.chan with
    | some n => if live then (chanAt s n).acc == h else accessFirst k ko
    | none => accessFirst k ko
  let keep : Nat := if acc then param k p 0x0101 else param ko q 0x0101
  let had := match e.chan with
    | some n => live && chanParam s n 0x0101 == 1
    | none => false
  if !keyOk s k ∨ !paramForm ps 2 ∨ (other.isNone ∧ ps.any (fun x => x.2.1 == 1)) then .inl 3
  else if keyKind k ≠ keyKind e.key then .inl 0x0E
  else if !paramsOk k p (ofLeg 0 ps) ∨ (other.isSome ∧ !paramsOk ko q (ofLeg 1 ps)) then .inl 3
  else if other.isSome ∧ keep = 1 ∧ !keepOk k p ko q then .inl 3
  else if (match findKey s k with
    | some x => x != h
    | none => false) then .inl 0x0C
  else if live ∧ s.age.reefed ∧ keep ≠ 1 then .inl 0x11
  else .inr { key := k, p := p, q := q, cost := if other.isSome then costOf k p ko q else 0
              gains := live && keep == 1 && !had }

/-- The checks of a modify at a boundary: also that no 513th active channel gains the keep flag (R47). -/
def decideModify (s : State) (r : ModReq) : Nat ⊕ Modified :=
  match checkModify s r.handle r.key r.ps with
  | .inl st => .inl st
  | .inr m => if m.gains ∧ 512 ≤ keepCount s then .inl 0x10 else .inr m

/-- A modify takes effect at this boundary and is reported (R38, R380). -/
def effectModify (r : ModReq) (m : Modified) (s : State) : State :=
  let s1 := applyModify r m s
  if r.timed then timedResult r.seq 0 (tickNow s) s1 else finish r.seq 0 r.handle (tickNow s) s1

/-- A checked modify at its boundary: on a parked entry, or on a lane that can take the new cost, it takes effect; a cost that
the lane cannot take moves the channel first, in a move accepted in the tick that begins (R38). -/
def placeModify (r : ModReq) (m : Modified) (s : State) : State :=
  let e := sessAt s r.handle
  match e.chan with
  | none => effectModify r m s
  | some n =>
    let c := chanAt s n
    let s' := withNextClocks s
    if e.st = .parked ∨ m.cost = c.cost ∨ usedLu s' c.lane - c.cost + m.cost ≤ planBudget s' c.lane then effectModify r m s
    else match place s' (openClusters s 255) m.cost (some c.lane) with
      | none => refuseModify r 0x0A s
      | some t => startMove n { target := t, cost := m.cost, mod := some r } s

/-- A waiting modify at its boundary: judged as its entry stands there (R38, R388). -/
def boundaryModify (r : ModReq) (s : State) : State :=
  match decideModify s r with
  | .inl st => refuseModify r st s
  | .inr m => placeModify r m s

/-- The ModReq of a CHAN_MODIFY on an entry. -/
def modReqOf (c : Cmd) (h : Nat) (timed : Bool) : ModReq :=
  let p := cmdPayload c.desc
  { handle := h, key := if leAt p 6 1 % 2 = 1 then some (slice p 8 64) else none
    ps := parseParams (leAt p 4 2) (p.drop 72), seq := c.seq, timed := timed }

/-- Whether a command submitted before another has neither completed nor been refused (R380). -/
def earlierOpen (s : State) (seq : Nat) : Bool := s.host.cmds.any (fun c => c.taken && c.done.isNone && c.seq != seq)

/-- A timed command that arms an action, once every earlier command has taken effect: LATE where its time has passed, else OK
with effective tick 0 (R290, R380). -/
def armCommand (c : Cmd) (h : Option Nat) (data : Bytes) (s : State) : Option State :=
  if earlierOpen s c.seq then none
  else if cmdTime c.desc ≤ nowNs s then some (complete c.seq 7 data s)
  else
    let a : Armed := { seq := c.seq, time := cmdTime c.desc, desc := c.desc, handle := h
                       wasActive := h.any (fun h => (sessAt s h).st != .parked) }
    some (complete c.seq 0 data { s with host := { s.host with armed := s.host.armed ++ [a] } })

/-- CHAN_MODIFY. -/
def chanModify (c : Cmd) (s : State) : Option State :=
  let p := cmdPayload c.desc
  let n := leAt p 4 2
  match targetOr c (decide (72 ≤ p.length) && decide (n ≤ 24) && decide (p.length = 72 + 8 * n)) s with
  | .inl st => some (complete c.seq st (noneData 0x23) s)
  | .inr h =>
    if cmdTimed c.desc then armCommand c (some h) (chanData s h 0) s
    else if chanBusy s h then none
    else
      let r := modReqOf c h false
      match checkModify s h r.key r.ps with
      | .inl st => some (finish c.seq st h 0 s)
      | .inr _ => some (addEffect (.change r) s)

/-! ### CHAN_PARK, CHAN_MIGRATE, CHAN_QUERY, CHAN_CLOSE (R39, R50, R51) -/

/-- The channel that an entry's commands act on, while it is ACTIVE or MIGRATING. -/
def activeChan (s : State) (h : Nat) : Option Nat := if (sessAt s h).st = .parked then none else (sessAt s h).chan

/-- CHAN_PARK. -/
def chanPark (c : Cmd) (s : State) : Option State :=
  match targetOr c (decide ((cmdPayload c.desc).length = 4)) s with
  | .inl st => some (complete c.seq st (noneData 0x24) s)
  | .inr h =>
    if chanBusy s h then none
    else match activeChan s h with
      | none => some (finish c.seq 0x0F h 0 s)
      | some n => some (addEffect (.park n) (flagLast n
          (modChan n (fun c' => { c' with park := some { seq := some c.seq, addressed := h } }) s)))

/-- CHAN_MIGRATE. -/
def chanMigrate (c : Cmd) (s : State) : Option State :=
  let p := cmdPayload c.desc
  let lane := leAt p 4 1
  match targetOr c (decide (p.length = 5) && (decide (lane < 128) || lane == 0xFF)) s with
  | .inl st => some (complete c.seq st (noneData 0x25) s)
  | .inr h =>
    if chanBusy s h then none
    else match activeChan s h with
      | none => some (finish c.seq 0x0F h 0 s)
      | some n =>
        let ch := chanAt s n
        if lane = ch.lane then some (finish c.seq 0 h 0 s)
        else
          let t := if lane = 0xFF then place s 255 ch.cost (some ch.lane)
            else if laneTakes s lane ch.cost then some lane else none
          match t with
          | none => some (finish c.seq 0x0A h 0 s)
          | some t => some (startMove n { target := t, cost := ch.cost, cmd := some c.seq, addressed := h } s)

/-- CHAN_QUERY. -/
def chanQuery (c : Cmd) (s : State) : Option State :=
  match targetOr c (decide ((cmdPayload c.desc).length = 4)) s with
  | .inl st => some (complete c.seq st (noneData 0x26) s)
  | .inr h => if chanBusy s h then none else some (finish c.seq 0 h 0 s)

/-- CHAN_CLOSE. -/
def chanClose (c : Cmd) (s : State) : Option State :=
  match targetOr c (decide ((cmdPayload c.desc).length = 4)) s with
  | .inl st => some (complete c.seq st (noneData 0x27) s)
  | .inr h =>
    if chanBusy s h then none
    else match activeChan s h with
      | some n => some (addEffect (.park n) (flagLast n
          (modChan n (fun c' => { c' with park := some { close := true, seq := some c.seq, addressed := h } }) s)))
      | none =>
        let s1 := match (sessAt s h).partner with
          | some p => freeEntry p s
          | none => s
        some (finishAs (entryData s h 0 0) c.seq (freeEntry h s1))

/-! ### Parks and moves at a boundary (R39, R40, R43) -/

/-- What a park keeps of a leg: the RTP timestamp state; later drops raise event 149 anew (R39, R56). -/
def keepLeg (n l : Nat) (s : State) : State :=
  modSess ((chanAt s n).handle l) (fun e => { e with
    ts := (legAt s n l).pos, parkTick := tickNow s, st := .parked, chan := none, dropEvt := false }) s

/-- A park or close takes effect (R39, R50): taps, store rooms and checkpoints go with the channel. -/
def parkNow (n : Nat) (s : State) : State :=
  let c := chanAt s n
  match c.park with
  | none => s
  | some p =>
    let s1 := match c.move with
      | some m => undoModify n m (unmove n m s)
      | none => s
    let s2 := if p.close then sendBye n 1 (sendBye n 0 s1) else s1
    let s3 := keepLeg n 1 (keepLeg n 0 s2)
    let s4 := { s3 with chans := tdel s3.chans n }
    let s5 := if p.forced then raise 148 [(2, n), (1, (chanAt s1 n).lane), (4, c.acc)] s4 else s4
    let s6 := match c.move with
      | some m => moveBusy m s5
      | none => s5
    let s7 := if p.close then freeEntry c.oth (freeEntry c.acc s6) else s6
    match p.seq with
    | some seq => finishAs (entryData s1 p.addressed (if p.close then 0 else 1) (tickNow s)) seq s7
    | none => s7

/-- A move at a boundary (R40, R42): accepted, then the source's final tick, then the target's first tick once the copy is
complete, then its end. A modify that its entry's state refuses at the take-over abandons its move (R42, R46). -/
def stepMove (n : Nat) (s : State) : State :=
  let c := chanAt s n
  match c.move with
  | none => s
  | some m =>
    let put := fun (m : Move) (s : State) => modChan n (fun c => { c with move := some m }) s
    if m.phase = 0 then put { m with phase := 1 } s
    else if m.phase = 1 then
      if m.copied then
        match m.mod with
        | none => put { m with phase := 2 } s
        | some r => match decideModify s r with
          | .inr x =>
            applyModify r x (put { m with phase := 2, was := some (modWas s r.handle n) } s)
          | .inl _ => abandonMove n s
      else put { m with fails := m.fails + 1 } s
    else
      let s1 := setEntries n .active (modChan n (fun c => { c with lane := m.target, cost := m.cost, move := none }) s)
      let s2 := dropReefMove n s1
      let s3 := match m.cmd with
        | some seq => finish seq 0 m.addressed (tickNow s) s2
        | none => s2
      match m.mod with
      | some r => if r.timed then timedResult r.seq 0 (tickNow s - 1) s3 else finish r.seq 0 r.handle (tickNow s - 1) s3
      | none => s3

/-- MIGRATE_ABANDONED (R42): sixteen copies have failed. -/
def execMigrateAbandoned (chan : BitVec 13) (s : State) : Host.Outcome State Fault Refusal :=
  let n := chan.toNat
  .next (match (chanAt s n).move with
    | some m => if m.phase = 1 ∧ 16 ≤ m.fails then abandonMove n s else s
    | none => s)

/-! ### STATS_READ (R128, R160, R189, R222, R381) -/

/-- Whether a statistic ID is listed, or declared as reading 0. -/
def statKnown (id : Nat) : Bool :=
  (decide (0x0280 ≤ id) && decide (id ≤ 0x02FF)) || (decide (0x0380 ≤ id) && decide (id ≤ 0x03AF)) ||
  (decide (0x0480 ≤ id) && decide (id ≤ 0x049F)) || (decide (0x0580 ≤ id) && decide (id ≤ 0x058F))

/-- The value of a statistic at a boundary. -/
def statValue (s : State) (n id : Nat) : Nat :=
  let c := chanAt s n
  let l := if id % 0x20 < 0x10 then 0 else 1
  if 0x0285 ≤ id ∧ id ≤ 0x0288 then windowStat s n (id - 0x0285)
  else if 0x0290 ≤ id ∧ id < 0x0300 then 0
  else if 0x0390 ≤ id ∧ id < 0x03A0 ∧ !(kindAt s n 0 = 2 ∧ kindAt s n 1 = 2) then 0
  else if 0x0480 ≤ id ∧ id < 0x04A0 then
    if kindAt s n l = 1 then 0
    else if id % 16 = 0x0A then (roomAt s n l).d
    else if id % 16 = 0x0D then fillMs s n l
    else statOf c id
  else statOf c id

/-- STATS_READ. -/
def statsRead (c : Cmd) (s : State) : Option State :=
  let p := cmdPayload c.desc
  let first := leAt p 4 2
  let n := leAt p 6 2
  let form := decide (p.length = 8) && decide (n ≤ 64) && (List.range n).all (fun i => statKnown (first + i)) && cmdForm c.desc
  match if form then targetOfWord s (leAt p 0 4) else .bad with
  | .bad => some (complete c.seq 3 (zeros 8) s)
  | .missing => some (complete c.seq 0x0D (zeros 8) s)
  | .entry h =>
    if chanBusy s h then none
    else if (activeChan s h).isNone then some (complete c.seq 0x0D (zeros 8) s)
    else some { s with mast := { s.mast with reads := s.mast.reads ++ [(c.seq, h, first, n)] } }

/-- A STATS_READ at its boundary: the tick it begins and the values (R381). -/
def answerRead (r : Nat × Nat × Nat × Nat) (s : State) : State :=
  match activeChan s r.2.1 with
  | none => complete r.1 0x0D (zeros 8) s
  | some n => complete r.1 0
      (toLe 8 (tickNow s) ++ ((List.range r.2.2.2).map (fun i => toLe 4 (statValue s n (r.2.2.1 + i)))).flatten) s

/-! ### The commands -/

/-- SESSION_INSERT (R50). -/
def execSessionInsert (s : State) : Host.Outcome State Fault Refusal := .next (runCmd 0x20 sessionInsert s)
/-- SESSION_DELETE (R50). -/
def execSessionDelete (s : State) : Host.Outcome State Fault Refusal := .next (runCmd 0x21 sessionDelete s)
/-- CHAN_ADMIT (R37). -/
def execChanAdmit (s : State) : Host.Outcome State Fault Refusal := .next (runCmd 0x22 chanAdmit s)
/-- CHAN_MODIFY (R38). -/
def execChanModify (s : State) : Host.Outcome State Fault Refusal := .next (runCmd 0x23 chanModify s)
/-- CHAN_PARK (R39). -/
def execChanPark (s : State) : Host.Outcome State Fault Refusal := .next (runCmd 0x24 chanPark s)
/-- CHAN_MIGRATE (R40). -/
def execChanMigrate (s : State) : Host.Outcome State Fault Refusal := .next (runCmd 0x25 chanMigrate s)
/-- CHAN_QUERY (R50). -/
def execChanQuery (s : State) : Host.Outcome State Fault Refusal := .next (runCmd 0x26 chanQuery s)
/-- CHAN_CLOSE (R50). -/
def execChanClose (s : State) : Host.Outcome State Fault Refusal := .next (runCmd 0x27 chanClose s)
/-- STATS_READ (R381). -/
def execStatsRead (s : State) : Host.Outcome State Fault Refusal := .next (runCmd 0x30 statsRead s)

end Sys2Proof.Machine
end

