-- ==== Sys2Proof/Machine/Islands.lean ====
section
/-! DEFINITION. Re-clocking of the islands (R17, R43, R295 to R298). -/

namespace Sys2Proof.Machine

/-- The clock-switching state of an island: 0 RUNNING, 1 PREPARING, 2 ARMED (R318). -/
def clockState (s : State) (i : Nat) : Nat := fget s .ISL_CLK_STATUS_state i
/-- The frequency in force on an island, MHz. -/
def clockFreq (s : State) (i : Nat) : Nat := fget s .ISL_CLK_STATUS_freq_mhz i
/-- The clock-switching data of an island. -/
def islandAt (s : State) (i : Nat) : Island := tget s.isls i {}

/-- An island's request ended: RUNNING, go read as 0. -/
def clockRunning (i : Nat) (s : State) : State := fset .ISL_CLK_REQ_go 0 (fset .ISL_CLK_STATUS_state 0 s i) i

/-- A request of an island for a frequency, by the planner or by a write of go: ignored unless the island is steppable and
RUNNING, complete at once for the frequency in force (R296). -/
def requestClock (i freq : Nat) (planner : Bool) (s : State) : State :=
  if !(islandClock i).2.2.2 then fset .ISL_CLK_REQ_go 0 s i
  else if clockState s i ≠ 0 then s
  else if freq = clockFreq s i then fset .ISL_CLK_REQ_go 0 s i
  else { fset .ISL_CLK_STATUS_state 1 s i with isls := tset s.isls i { asked := freq, planner := planner } }

/-- SYNTH_LOCK (R296): the idle synthesizer of a PREPARING island reports lock. -/
def execSynthLock (island : Fin 15) (s : State) : Host.Outcome State Fault Refusal :=
  .next (if clockState s island = 1 then fset .ISL_CLK_STATUS_state 2 s island else s)

/-- One channel leaves a lane whose budget fell: its move is accepted in the tick that begins, or it parks at this boundary
(R43; R456 says so of the moves of its boundary). -/
def relieveChannel (lane n : Nat) (s : State) : State :=
  match place s 255 (chanAt s n).cost (some lane) with
  | some t => startMove n { target := t, cost := (chanAt s n).cost } s
  | none => parkNow n (forcePark n s)

/-- A lane whose used LU exceeds its budget: event 147, and channels taken until the rest fits (R43). -/
def relieveLane (lane : Nat) (s : State) : State :=
  if usedLu s lane ≤ budget s lane then s
  else
    let s1 := raise 147 [(1, lane), (2, usedLu s lane), (2, budget s lane)] s
    (leaving s1 lane).foldl (fun s n => if stayingLu s lane ≤ budget s lane then s else relieveChannel lane n s) s1

/-- The clock of an island changed to a frequency: its other synthesizer drives it, the lanes of a cluster get their new
budgets, and a lane left over its budget is relieved (R17, R43, R296). -/
def switchClock (i freq : Nat) (s : State) : State :=
  let old := clockFreq s i
  let s1 := fset .ISL_CLK_STATUS_synth (1 - fget s .ISL_CLK_STATUS_synth i) s i
  let s2 := clockRunning i (fset .ISL_CLK_STATUS_freq_mhz freq s1 i)
  let s3 := raise 64 [(1, i), (2, old), (2, freq), (8, tickNow s)] (fbump .ISL_CLK_COUNT_switches 1 s2 i)
  if i < 8 then (List.range 16).foldl (fun s k => relieveLane (16 * i + k) s) s3 else s3

/-- ISL_CLK_SWITCH (R296, R297): the first tick boundary after lock switches an ARMED island's clock. -/
def execIslClkSwitch (island : Fin 15) (s : State) : Host.Outcome State Fault Refusal :=
  .next (if clockState s island = 2 then switchClock island (islandAt s island).asked s else s)

/-- ISL_CLK_LOCK_FAIL (R298): 1 ms without lock abandons the request of a PREPARING island. -/
def execIslClkLockFail (island : Fin 15) (s : State) : Host.Outcome State Fault Refusal :=
  .next (if clockState s island = 1 then
    raise 65 [(1, island), (2, (islandAt s island).asked), (1, 1 - fget s .ISL_CLK_STATUS_synth island)]
      (fbump .ISL_CLK_COUNT_lock_fails 1 (clockRunning island s) island)
  else s)

end Sys2Proof.Machine
end

