-- ==== Sys2Proof/Machine/Dict.lean ====
section
/-! DEFINITION. The shared dictionary of trunk bundles: usable entries, the canonical parse, new entries, code words, and the
packing of an interval into bundles (R192 to R208, R213 to R215). -/

namespace Sys2Proof.Machine

/-! ### Entries and parse (R202 to R206) -/

/-- Whether a run of bytes opens with a string. -/
def opensWith : Bytes → Bytes → Bool
  | [], _ => true
  | _, [] => false
  | a :: s, b :: t => a == b && opensWith s t
/-- Whether an entry is usable with a basis (R205). -/
def DictEntry.usable (e : DictEntry) (basis : Word) : Bool := e.live && decide ((e.seq - basis).toInt ≤ 0)
/-- The code word of the canonical parse at the start of a run of bytes, and its length (R204). -/
def longest (d : Tab DictEntry) (basis : Word) (b : Bytes) : Nat × Nat :=
  d.foldl (fun best e =>
    if e.2.usable basis && opensWith e.2.str b && decide (best.2 < e.2.str.length) then (e.1, e.2.str.length) else best)
    ((b.headD 0).toNat, 1)
/-- The canonical parse of a run of bytes. -/
def parseCodes (d : Tab DictEntry) (basis : Word) : Nat → Bytes → List Nat
  | 0, _ => []
  | fuel + 1, b =>
    if b.isEmpty then []
    else
      let c := longest d basis b
      c.1 :: parseCodes d basis fuel (b.drop c.2)
/-- The string of a code word, where it is usable in a bundle with a first index and a basis (R205). -/
def codeString (d : Tab DictEntry) (basis : Word) (first c : Nat) : Option Bytes :=
  if c < 256 then some [BitVec.ofNat 8 c]
  else if first ≤ c then none
  else match tget? d c with
    | some e => if e.usable basis then some e.str else none
    | none => none
/-- The entries that a bundle's strings create from its first index on (R206). -/
def addEntries (seq : Word) : Nat → List Bytes → Tab DictEntry → Tab DictEntry
  | i, a :: b :: t, d =>
    if 4095 < i then d
    else
      let str := a ++ b.take 1
      addEntries seq (i + 1) (b :: t) (tset d i { str := str, live := decide (str.length ≤ 255), seq := seq })
  | _, _, d => d
/-- N after a bundle of `k` code words (R206). -/
def nextIndex (first k : Nat) : Nat := if k = 0 then first else min (first + k - 1) 4096
/-- Bits of a code word (R203). -/
def codeWidth (first : Nat) : Nat := if first ≤ 512 then 9 else if first ≤ 1024 then 10 else if first ≤ 2048 then 11 else 12
/-- Bytes of `k` code words. -/
def codeBytes (first k : Nat) : Nat := (k * codeWidth first + 7) / 8
/-- Code words as bytes, most significant bit first, filled out with zero bits (R203). -/
def packCodes (first : Nat) (l : List Nat) : Bytes :=
  let w := codeWidth first
  let v := l.foldl (fun v c => v * 2 ^ w + c) 0
  let n := codeBytes first l.length
  toBe n (v * 2 ^ (8 * n - l.length * w))
/-- The `k` code words of a section. -/
def unpackCodes (first k : Nat) (b : Bytes) : List Nat :=
  let w := codeWidth first
  let v := beNat b
  (List.range k).map (fun i => v / 2 ^ (8 * b.length - (i + 1) * w) % 2 ^ w)

/-! ### Items (R197, R198) -/

/-- The header-stream bytes of an item whose header tick is `t`, and its subheader's length. -/
def itemHead (t : Nat) (i : BItem) : Bytes × Nat :=
  let a := match i.anchor with
    | some p => toBe 4 p.toNat
    | none => []
  let flags := (if i.anchor.isSome then 128 else 0) + (if i.vbd then 64 else 0) + (if i.fin then 32 else 0) + (t - i.tick) % 16
  let sub := toBe 2 (i.kind % 8 * 8192 + i.chan % 8192) ++ toBe 1 i.data.length ++ toBe 1 flags ++ a
  (if i.kind = 0 then sub else sub ++ i.data, sub.length)

/-- An item on its way into bundles: header-stream bytes still to emit, those of its subheader, the raw bytes that its
subheader's end places. -/
structure Piece where
  head : Bytes
  sub : Nat
  raw : Bytes
  item : BItem
  begun : Bool
  deriving DecidableEq, Repr

/-- The piece of an item. -/
def pieceOf (t : Nat) (i : BItem) : Piece :=
  let h := itemHead t i
  { head := h.1, sub := h.2, raw := if i.kind = 0 then i.data else [], item := i, begun := false }

/-- Bytes at the start of a bundle that complete a subheader or payload begun in the one before (R208). -/
def leadOf : List Piece → Nat
  | [] => 0
  | p :: _ => if !p.begun then 0 else if 0 < p.sub then p.sub else p.head.length

/-- Pieces with `n` header-stream bytes emitted: what is left, the raw bytes of the subheaders completed, the items begun
or completed within them. -/
def emitBytes : Nat → List Piece → List Piece × Bytes × List BItem
  | _, [] => ([], [], [])
  | n, p :: t =>
    if n = 0 then (p :: t, [], [])
    else if p.head.length ≤ n then
      let r := emitBytes (n - p.head.length) t
      (r.1, p.raw ++ r.2.1, p.item :: r.2.2)
    else ({ p with head := p.head.drop n, sub := p.sub - n, begun := decide (n < p.sub ∨ p.sub < n) } :: t, [], [])

/-! ### Building bundles (R208) -/

/-- A bundle under construction. -/
structure Body where
  codes : List Nat
  text : Bytes
  raw : Bytes
  items : List BItem
  rest : List Piece
  deriving DecidableEq, Repr

/-- Emits code words into a bundle while it stays within a limit (R208). -/
def fillBody (d : Tab DictEntry) (basis : Word) (first limit : Nat) (compress : Bool) : Nat → Body → Body
  | 0, b => b
  | fuel + 1, b =>
    if b.rest.isEmpty then b
    else
      let c := longest d basis (((b.rest.map (fun p => p.head)).flatten).take 255)
      let e := emitBytes c.2 b.rest
      let k := b.codes.length + 1
      let size := 32 + (if compress then codeBytes first k else b.text.length + c.2) + b.raw.length + e.2.1.length
      if limit < size then b
      else
        let text := b.text ++ (((b.rest.map (fun p => p.head)).flatten).take c.2)
        fillBody d basis first limit compress fuel
          { codes := b.codes ++ [c.1], text := text, raw := b.raw ++ e.2.1, items := b.items ++ e.2.2, rest := e.1 }

/-! ### The encoder's side of a peer (R213 to R215, R217) -/

/-- The basis: the highest seq up to which every bundle of the epoch has a known status (R213). -/
def basisOf (p : Peer) : Word :=
  (p.status.takeWhile (fun x => x.2.isSome)).foldl (fun _ x => x.1) (p.epochStart - 1)

/-- The causes for which the next data bundle turns the epoch (R214, R215). -/
def turnCauses (p : Peer) : BitVec 8 :=
  p.turnCause ||| (if p.txN = 4096 then 1 else 0) ||| (if 64 < (p.seq - basisOf p).toInt then 4 else 0)

/-- A peer with its epoch turned (R215, R217). -/
def turnEpoch (causes : BitVec 8) (p : Peer) : Peer :=
  let answers := p.peerAsks || causes.getLsbD 3
  { p with
    epoch := p.epoch + 1, txN := 256, txDict := [], status := [], epochStart := p.seq, turnCause := 0, restarts := []
    restartTx := p.restartTx || answers, answered := p.answered || answers }

/-- A peer at its next data bundle, and the causes of the turn that this bundle makes. The first bundle after a start begins
its epoch without a turn of its own, whatever causes wait (R215, R217, R220). -/
def openBundle (p : Peer) : Peer × BitVec 8 :=
  if p.fresh then
    ({ p with fresh := false, turnCause := 0, answered := p.answered || p.peerAsks || p.turnCause.getLsbD 3 }, 0)
  else
    let causes := turnCauses p
    (if causes = 0 then p else turnEpoch causes p, causes)

/-- The receiver's ack and ack map that every bundle carries (R195). -/
def ackFields (p : Peer) : Word × Word :=
  match p.e with
  | none => (0, 0)
  | some e =>
    let d := e - 1
    (d, BitVec.ofNat 32 ((List.range 32).foldl (fun n i =>
      if p.record.contains (d - BitVec.ofNat 32 i, true) then n + 2 ^ i else n) 0))

/-- A bundle that goes out: its bytes, the causes of its turn, its seq, the items it completes. -/
structure Sent where
  bytes : Bytes
  turned : BitVec 8
  seq : Word
  items : List BItem
  deriving DecidableEq, Repr

/-- One data bundle from the pieces at hand: the peer after it, the bundle, the pieces left; none where its first code word
does not fit (R195, R206 to R208). `t` is the interval's last tick. -/
def nextBundle (p0 : Peer) (t limit : Nat) (compress : Bool) (pieces : List Piece) : Option (Peer × Sent × List Piece) :=
  let causes := (openBundle p0).2
  let p := (openBundle p0).1
  let basis := basisOf p
  let first := p.txN
  let total := (pieces.map (fun x => x.head.length)).foldl (· + ·) 0
  let b := fillBody p.txDict basis first limit compress total
    { codes := [], text := [], raw := [], items := [], rest := pieces }
  let k := b.codes.length
  if k = 0 ∧ !pieces.isEmpty then none
  else
    let stored := !compress || decide (b.text.length ≤ codeBytes first k)
    let section_ := if stored then b.text else packCodes first b.codes
    let flags := (if stored then 1 else 0) + (if p.resync then 2 else 0) + (if p.restartTx then 4 else 0)
    let ack := ackFields p
    let head := [0x10, BitVec.ofNat 8 flags, p.epoch] ++ toBe 1 p.interval ++ toBe 4 p.seq.toNat ++ toBe 4 (t % 2 ^ 32) ++
      toBe 4 basis.toNat ++ toBe 4 ack.1.toNat ++ toBe 4 ack.2.toNat ++ toBe 2 first ++ toBe 2 k ++
      toBe 2 (min 7 (leadOf pieces) * 8192 + section_.length) ++ toBe 2 b.raw.length
    let strs := b.codes.map (fun c => (codeString p.txDict basis first c).getD [])
    let p1 := { p with
      seq := p.seq + 1, txN := nextIndex first k, txDict := addEntries p.seq first strs p.txDict
      status := p.status ++ [(p.seq, none)], sentD := some ack
      restarts := if p.restartTx then p.restarts ++ [p.seq] else p.restarts }
    some (p1, { bytes := head ++ section_ ++ b.raw, turned := causes, seq := p.seq, items := b.items }, b.rest)

/-- One data bundle from as many of the pieces at hand, the last ones dropped, as let its first code word fit; each drop parses
anew from the start of this bundle (R208). With it, the number dropped. -/
def fitBundle (p : Peer) (t limit : Nat) (compress : Bool) : Nat → List Piece → Option (Peer × Sent × List Piece × Nat)
  | 0, _ => none
  | fuel + 1, l =>
    match nextBundle p t limit compress l with
    | some (p1, b, rest) => some (p1, b, rest, 0)
    | none => (fitBundle p t limit compress fuel l.dropLast).map (fun r => (r.1, r.2.1, r.2.2.1, r.2.2.2 + 1))

/-- The bundles of an interval, at most as many as the fuel, and the items dropped for a code word that no bundle holds; none
where the pieces do not fit (R194, R208). -/
def packBundles (t limit : Nat) (compress : Bool) : Nat → Peer → List Piece → Option (Peer × List Sent × Nat)
  | 0, p, l => if l.isEmpty then some (p, [], 0) else none
  | fuel + 1, p, l =>
    match fitBundle p t limit compress (l.length + 1) l with
    | none => none
    | some (p1, b, rest, n) =>
      if rest.isEmpty then some (p1, [b], n)
      else (packBundles t limit compress fuel p1 rest).map (fun r => (r.1, b :: r.2.1, n + r.2.2))

/-- The bundles of as many of an interval's items as fit into 8 bundles, and how many are dropped from its end (R194, R208).
-/
def packInterval (t limit : Nat) (compress : Bool) (p : Peer) (items : List BItem) : Nat → Peer × List Sent × Nat
  | 0 => (p, [], items.length)
  | fuel + 1 =>
    let drop := items.length - fuel
    match packBundles t limit compress 8 p ((items.take fuel).map (pieceOf t)) with
    | some r => (r.1, r.2.1, drop + r.2.2)
    | none => packInterval t limit compress p items fuel

/-- Insertion in increasing trunk channel, then tick, behind its equals (R197). -/
def insertItem (i : BItem) : List BItem → List BItem
  | [] => [i]
  | x :: t => if i.chan < x.chan ∨ (i.chan = x.chan ∧ i.tick < x.tick) then i :: x :: t else x :: insertItem i t

/-! ### The statuses an ack gives (R212 to R214) -/

/-- The status that an ack and its map give a seq: known for the 32 seqs from D downward that the map covers. -/
def ackStatus (d map seq : Word) : Option Bool :=
  let i := (d - seq).toInt
  if 0 ≤ i ∧ i < 32 then some (map.getLsbD i.toNat) else none

/-- The encoder's side after an ack: statuses, entries of lost bundles dead, an ack gap, restart bundles received (R212 to
R214, R217). -/
def takeAck (d map : Word) (p : Peer) : Peer :=
  let old := match p.ackTaken with
    | some a => decide ((d - a).toInt < 0)
    | none => false
  if old then p
  else
    let status := p.status.map (fun x => if x.2.isSome then x else (x.1, ackStatus d map x.1))
    let lost := (status.filter (fun x => x.2 == some false)).map (fun x => x.1)
    let dict := p.txDict.map (fun e => if lost.contains e.2.seq then (e.1, { e.2 with live := false }) else e)
    let gap := status.any (fun x => x.2.isNone && decide (32 ≤ (d - x.1).toInt))
    let got := p.restarts.any (fun x => (status.any (fun y => y.1 == x && y.2 == some true)) || ackStatus d map x == some true)
    { p with
      ackTaken := some d, status := status, txDict := dict
      turnCause := if gap then p.turnCause ||| 2 else p.turnCause
      restartTx := p.restartTx && !got, answered := p.answered && !got, restarts := if got then [] else p.restarts }

end Sys2Proof.Machine
end

