-- ==== Sys2Proof/Machine/Bundles.lean ====
section
/-! DEFINITION. Trunk bundles: closing an interval, receiving, order and loss, resync and restart, peers (R191 to R223). -/

namespace Sys2Proof.Machine

/-- A peer. -/
def peerAt (s : State) (k : Nat) : Peer := tget s.peers k {}
/-- A state with a peer replaced. -/
def putPeer (k : Nat) (p : Peer) (s : State) : State := { s with peers := tset s.peers k p }
/-- A state with a peer changed. -/
def modPeer (k : Nat) (f : Peer → Peer) (s : State) : State := putPeer k (f (peerAt s k)) s
/-- The trunk key of a peer's channel (R29). -/
def trunkKey (k chan : Nat) : Bytes := [4, BitVec.ofNat 8 k] ++ toLe 2 chan
/-- rx_state (R224): 0 DOWN, 1 UNSYNCED, 2 SYNCED. -/
def rxState (p : Peer) : Nat := if !p.on || !p.up then 0 else if p.synced then 2 else 1

/-! ### Lookup of an entry (R31, R395) -/

/-- Whether reading an entry meets an uncorrectable word. -/
def entryUe (s : State) (h : Nat) : Bool :=
  match regionBase s 1 with
  | some b => poisoned s (cellarBase + b + 256 * h) 256
  | none => false

/-- What the mast controller does for an entry that holds an uncorrectable word: the channel closes at the next boundary with
event 148, an entry without one is freed (R395). -/
def loseEntry (h master : Nat) (s : State) : State :=
  let s1 := match regionBase s 1 with
    | some b => cellarUe master (b + 256 * h) s
    | none => s
  match activeChan s1 h with
  | some n => flagLast n (modChan n (fun c => { c with park := some {
      close := true, seq := c.park.bind (fun p => p.seq), forced := true } }) s1)
  | none => freeEntry h s1

/-- The entry of a key for a packet or item; a read that meets an uncorrectable word fails (R395). -/
def lookup (k : Bytes) (master : Nat) (s : State) : Option Nat × State :=
  match findKey s k with
  | none => (none, s)
  | some h => if entryUe s h then (none, loseEntry h master s) else (some h, s)

/-- Traffic for a parked entry: dropped and counted, event 149 on the first after a park (R31, R56); an entry just inserted
counts as parked then (log entry 111). -/
def parkedDrop (h : Nat) (s : State) : State :=
  let e := sessAt s h
  let s1 := modSess h (fun e => { e with drops := satTo 65535 (e.drops + 1), dropEvt := true }) s
  if e.dropEvt then s1 else raise 149 [(4, h)] s1

/-! ### Resync and restart (R216 to R218) -/

/-- Trunk streams to a peer start over: every leg anchors anew (R200). -/
def reanchor (k : Nat) (s : State) : State :=
  let fix := fun (g : Leg) => newStream g
  { s with chans := s.chans.map (fun c =>
      let toPeer := fun (h : Nat) => keyKind (sessAt s h).key == 3 && (keyTrunk (sessAt s h).key).1 == k
      let a := if toPeer c.2.acc then { c.2 with legA := fix c.2.legA } else c.2
      (c.1, if toPeer c.2.oth then { a with legB := fix a.legB } else a)) }

/-- The receiver enters UNSYNCED and asks for a resync: 0 a failed header, 1 a protocol error, 2 three bundles out of window,
3 an uncorrectable word, 4 a start. Event 179 when the request is raised (R216). -/
def unsync (k cause : Nat) (s : State) : State :=
  let p := peerAt s k
  let s1 := putPeer k { p with synced := false, resync := true } s
  if p.resync then s1 else raise 179 [(1, k), (1, cause)] s1

/-- A bundle that fails its checks or breaks the protocol: bad_bundles and event 177, causes header, code word, parse count,
index order (R196, R216, R223). -/
def badBundle (k cause : Nat) (seq : Word) (s : State) : State :=
  raise 177 [(1, k), (4, seq.toNat), (1, cause)] (fbump .BND_PEER_ERR_bad_bundles 1 s k)

/-- An uncorrectable word of a dictionary: toward the peer it turns the epoch, from the peer it forces a resync (R219). A
corrected word is counted. -/
def dicWord (k dir : Nat) (dic : Option (BitVec 12 × Bool)) (s : State) : State :=
  match dic with
  | none => s
  | some (_, false) => corrected (fbump .DIC_ECC_corrected 1 s)
  | some (i, true) =>
    let s1 := transferDropped 12 63 (ueMet 3 (raise 186 [(1, k), (1, dir), (4, i.toNat)] (fbump .DIC_ECC_uncorrected 1 s)))
    if dir = 0 then modPeer k (fun p => { p with turnCause := p.turnCause ||| 32 }) s1 else unsync k 3 s1

/-! ### Sending (R192 to R195, R212) -/

/-- Whether a peer's template for its encapsulation is present in the image (R328). -/
def templateOk (s : State) (k : Nat) : Bool :=
  let r := peerRec s k
  leAt r 0 1 == 1 && (if fbit s .BND_PEER_CTRL_encap k then beAt r 52 2 != 0 else beAt r 16 2 != 0)

/-- A bundle as a frame in its peer's egress queue (R195, R328, R404). -/
def sendBundle (k : Nat) (b : Bytes) (s : State) : State :=
  let r := peerRec s k
  let port := fget s .BND_PEER_CTRL_port k
  let frame := if fbit s .BND_PEER_CTRL_encap k then
      udpFrame s.free (slice r 2 6) (slice r 8 6) (beAt r 14 2) true (slice r 18 16) (slice r 34 16)
        (beAt r 50 2) (beAt r 52 2) b
    else ethHead (slice r 2 6) (slice r 8 6) (beAt r 14 2) (beAt r 16 2) ++ b
  draw (pushTx port (txQueue s port 0 k) { bytes := frame, voice := true, source := 0, peer := k, tick := copyTag s } s)

/-- The limit of a data bundle: max_bytes, or what the port's frames leave (R194). -/
def bundleLimit (s : State) (k : Nat) : Nat :=
  let over_ := (if beAt (peerRec s k) 14 2 = 0xFFFF then 18 else 22) + (if fbit s .BND_PEER_CTRL_encap k then 48 else 0)
  min (fget s .BND_PEER_CTRL_max_bytes k) (fget s .TMC_CTRL_max_frame (fget s .BND_PEER_CTRL_port k) - over_)

/-- A statistic of the active channel of a trunk key advances. -/
def trunkStat (k chan id n : Nat) (s : State) : State :=
  match (findKey s (trunkKey k chan)).bind (liveChan s) with
  | some c => statBump c id n s
  | none => s

/-- An item that left in a bundle: counted, and its seq noted where it was anchored in the leg's present stream (R200, R222). -/
def itemSent (k : Nat) (seq : Word) (i : BItem) (s : State) : State :=
  let s1 := trunkStat k i.chan 0x0580 1 s
  match i.anchor, findKey s (trunkKey k i.chan) with
  | some _, some h => match liveChan s h with
    | some n => modLeg n (legOfHandle (chanAt s n) h) (fun g =>
        if i.stream = g.stream then { g with anchorSeqs := g.anchorSeqs ++ [seq] } else g) s1
    | none => s1
  | _, _ => s1

/-- An item with the anchor flag, where it is a codec frame (R200). -/
def BItem.anchored (i : BItem) : BItem := if i.kind = 0 then { i with anchor := some i.pos } else i

/-- The bundles of an interval: where one of them turns the epoch in answer to a resync request, every stream starts with the
interval, so its codec frames are anchored (R200, R215, R217). -/
def packAnchored (t limit : Nat) (compress : Bool) (p : Peer) (items : List BItem) : Peer × List Sent × Nat :=
  let r := packInterval t limit compress p items (items.length + 1)
  if (p.peerAsks || p.turnCause.getLsbD 3) && r.2.1.any (fun b => b.turned != 0) then
    packInterval t limit compress p (items.map BItem.anchored) (items.length + 1)
  else r

/-- A data bundle leaves: a turn is counted with event 178; one that answers a resync request starts the streams anew (R200,
R215, R217). -/
def bundleOut (k : Nat) (b : Sent) (s : State) : State :=
  let p := peerAt s k
  let s1 := if b.turned = 0 then s
    else
      let s1 := raise 178 [(1, k), (4, leAt b.bytes 2 1), (1, b.turned.toNat)] (fbump .DIC_PEER_TURNS_tx_turns 1 s k)
      if p.peerAsks || b.turned.getLsbD 3 then reanchor k s1 else s1
  b.items.foldl (fun s i => itemSent k b.seq i s) (sendBundle k b.bytes (fbump .BND_PEER_COUNT_tx_bundles 1 s1 k))

/-- The interval of a peer closes at the boundary that begins tick `t`: its items leave in at least one bundle; those that do
not fit are dropped with event 182. A new interval length holds from here on, and this boundary's bundles carry it where it
closes at it too (R192 to R194, R199). -/
def closeInterval (k t : Nat) (s : State) : State :=
  let p := peerAt s k
  let want := fget s .BND_PEER_CTRL_interval k
  let due := p.items.filter (fun i => decide (i.tick < t))
  let late := due.filter (fun i => decide (i.tick + 15 < t - 1))
  let items := (due.filter (fun i => decide (t - 1 ≤ i.tick + 15))).foldl (fun l i => insertItem i l) []
  let s1 := late.foldl (fun s i => trunkStat k i.chan 0x0583 1 s) s
  let p1 := { p with
    items := p.items.filter (fun i => decide (t ≤ i.tick)), closed := some t
    interval := if t % want = 0 then want else p.interval }
  let r := packAnchored (t - 1) (bundleLimit s k) (fbit s .BND_PEER_CTRL_compress k) p1 items
  let s2 := r.2.1.foldl (fun s b => bundleOut k b s) (putPeer k { r.1 with interval := want } s1)
  if r.2.2 = 0 then s2
  else raise 182 [(1, k), (8, t - 1), (4, r.2.2)] (fbump .BND_PEER_ERR_interval_drops 1 s2 k)

/-- INTERVAL_CLOSE (R193): at the boundary that begins a tick which the interval divides, once; on the standby of a full
shadow a tick later, as its lanes work (R219, R431). `dic` is what a read of the dictionary met. -/
def execIntervalClose (peer : Fin 64) (dic : Option (BitVec 12 × Bool)) (s : State) : Host.Outcome State Fault Refusal :=
  let p := peerAt s peer
  let t := workTick s
  .next (if p.on && !s.age.reefed && t % p.interval == 0 && p.closed != some t then
      closeInterval peer t (dicWord peer 0 dic s)
    else s)

/-- An ack-only bundle, at a boundary at which no data bundle closes and the decided state has changed (R212). -/
def ackOnly (k : Nat) (s : State) : State :=
  let p := peerAt s k
  let a := ackFields p
  if p.on && !s.age.reefed && fbit s .BND_PEER_CTRL_ack_fast k && workTick s % p.interval != 0 && p.sentD.getD (0, 0) != a then
    let head := [0x11, if p.resync then 2 else 0, p.epoch] ++ toBe 1 p.interval ++ toBe 4 p.seq.toNat ++ zeros 8 ++
      toBe 4 a.1.toNat ++ toBe 4 a.2.toNat ++ zeros 8
    sendBundle k head (putPeer k { p with sentD := some a } s)
  else s

/-! ### Items received (R200, R201) -/

/-- The part of a trunk frame at a position (R133). -/
def trunkPart (codec rate a : Nat) (pos : Word) (b : Bytes) : Part :=
  if codec ≤ 4 then samplePart a pos (if codec = 4 then 8 * b.length / (rate / 8000) else b.length) b
  else if codec = 5 then { arrival := a, pos := pos, units := 1, len := 80, sid := b.length == 2, data := b }
  else if codec ≤ 7 then
    { arrival := a, pos := pos, units := 1, len := if codec = 7 then 320 else 160
      sid := amrType b == (if codec = 7 then 9 else 8), data := b }
  else { arrival := a, pos := pos, units := 1, len := (opusUnits b).getD 960, data := b }

/-- A codec frame for a trunk leg: its offset where it is anchored, its position, the store room (R200). Its vbd flag says
which codec it carries (R198, R201). -/
def frameItem (k n l : Nat) (i : BItem) (s : State) : State :=
  let r := legClock s n l
  let at_ := BitVec.ofNat 32 (r * i.tick)
  let s1 := match i.anchor with
    | some p => modLeg n l (fun g => { g with offset := some (p - at_) }) s
    | none => s
  let s2 := if i.vbd then askVbd n 4 s1 else s1
  match (legAt s2 n l).offset with
  | none =>
    let s3 := statBump n 0x0582 1 s2
    if (legAt s n l).noAnchorEvt then s3
    else raise 183 [(1, k), (2, i.chan)] (modLeg n l (fun g => { g with noAnchorEvt := true }) s3)
  | some o =>
    let codec := if i.vbd then chanParam s n 0x0312 else codecOf (entryAt s n l).params
    giveParts n l codec [trunkPart codec (legParam s n l 0x0302) (arrivalTick s) (o + at_) i.data] (statBump n 0x0581 1 s2)

/-- An item passed on to its channel (R200, R201). A telephone event of a code that R199 does not allow is passed over (log
entry 98). -/
def itemIn (k : Nat) (i : BItem) (s : State) : State :=
  let bad := fun (s : State) => fbump .BND_PEER_ERR_no_session 1 s k
  if 2 < i.kind then bad s
  else
    let f := lookup (trunkKey k i.chan) 12 s
    match f.1 with
    | none => bad f.2
    | some h => match liveChan f.2 h with
      | none => parkedDrop h f.2
      | some n =>
        let l := legOfHandle (chanAt f.2 n) h
        if i.kind = 0 then frameItem k n l i f.2
        else if i.kind = 1 then
          if (toneEvent (leAt i.data 0 1)).isNone then f.2
          else
          let e : EvItem := { pos := BitVec.ofNat 32 (beAt i.data 4 4), code := leAt i.data 0 1, volume := leAt i.data 1 1
                              dur := beAt i.data 2 2, ended := i.fin }
          let r := acceptEvent n l e (statBump n 0x0581 1 f.2)
          if r.1 then statBump n 0x038D 1 r.2 else r.2
        else
          let v := beAt i.data 0 4
          raise 185 [(1, k), (2, i.chan), (4, v)] (statSet n 0x0584 v (statBump n 0x0581 1 f.2))

/-- The items of a header stream: each with its raw bytes still to come as a length, and the bytes of an item left incomplete.
-/
def splitItems : Nat → Nat → Bytes → List (BItem × Nat) × Bytes
  | 0, _, b => ([], b)
  | fuel + 1, t, b =>
    let flags := leAt b 3 1
    let sub := if 128 ≤ flags then 8 else 4
    let kind := beAt b 0 2 / 8192
    let len := leAt b 2 1
    let whole := if kind = 0 then sub else sub + len
    if b.length < 4 ∨ b.length < whole then ([], b)
    else
      let i : BItem := { kind := kind, chan := beAt b 0 2 % 8192, tick := (t + 2 ^ 32 - flags % 16) % 2 ^ 32
                         anchor := if 128 ≤ flags then some (BitVec.ofNat 32 (beAt b 4 4)) else none
                         vbd := flags / 64 % 2 == 1, fin := flags / 32 % 2 == 1
                         data := if kind = 0 then [] else slice b sub len }
      let r := splitItems fuel t (b.drop whole)
      ((i, if kind = 0 then len else 0) :: r.1, r.2)

/-- Items with their payloads taken from a raw section in order. -/
def giveRaw : List (BItem × Nat) → Bytes → List BItem
  | [], _ => []
  | (i, n) :: t, raw => (if i.kind = 0 then { i with data := raw.take n } else i) :: giveRaw t (raw.drop n)

/-! ### Delivery (R209 to R211, R216) -/

/-- The seq of a bundle. -/
def bSeq (b : Bytes) : Word := BitVec.ofNat 32 (beAt b 4 4)
/-- First index F. -/
def bFirst (b : Bytes) : Nat := beAt b 24 2
/-- Code count k. -/
def bCount (b : Bytes) : Nat := beAt b 26 2
/-- The coded section, then the raw section. -/
def bSection (b : Bytes) : Bytes := slice b 32 (beAt b 28 2 % 8192)
def bRaw (b : Bytes) : Bytes := slice b (32 + beAt b 28 2 % 8192) (beAt b 30 2)
/-- A flag bit of the header. -/
def bFlag (b : Bytes) (i : Nat) : Bool := (leAt b 1 1).testBit i

/-- The record of decided seqs with one more, the last 64 kept (R214). -/
def record (seq : Word) (got : Bool) (p : Peer) : Peer := { p with record := ((seq, got) :: p.record).take 64, e := some (seq + 1) }

/-- The strings of a bundle's code words under a dictionary, or the cause of a protocol error: 1 code word, 2 parse count. -/
def decodeStrings (d : Tab DictEntry) (b : Bytes) : Nat ⊕ List Bytes :=
  let basis := BitVec.ofNat 32 (beAt b 12 4)
  let sect := bSection b
  if bFlag b 0 then
    let codes := parseCodes d basis sect.length sect
    if codes.length ≠ bCount b then .inl 2
    else .inr (codes.map (fun c => (codeString d basis 4096 c).getD []))
  else
    let l := (unpackCodes (bFirst b) (bCount b) sect).map (codeString d basis (bFirst b))
    if l.all (fun x => x.isSome) then .inr (l.map (fun x => x.getD [])) else .inl 1

/-- The dictionary from a peer as a bundle finds it: a new epoch returns it to the literals, holes move N up (R211). None
where F lies below N in the current epoch. -/
def openDict (b : Bytes) (p : Peer) : Option Peer :=
  let epoch := BitVec.ofNat 8 (leAt b 2 1)
  if p.rxEpoch = some epoch then
    if bFirst b < p.rxN then none else some { p with rxN := bFirst b }
  else some { p with rxEpoch := some epoch, rxDict := [], rxN := bFirst b }

/-- A protocol error: the bundle is decided as lost, creates nothing, and the receiver asks for a resync (R216). `p` is the
peer with the dictionary as the bundle opened it. -/
def protocolError (k cause : Nat) (b : Bytes) (p : Peer) (s : State) : State :=
  unsync k 1 (badBundle k cause (bSeq b) (putPeer k { record (bSeq b) false p with opened := none } s))

/-- A new epoch from a peer returns its dictionary to the literals: counted (R211). -/
def epochOpened (k : Nat) (old new : Peer) (s : State) : State :=
  if new.rxEpoch = old.rxEpoch then s else fbump .DIC_PEER_TURNS_rx_resets 1 s k

/-- Delivers a bundle: the section is decoded, entries are created, items are joined and passed on (R209, R211). -/
def deliverBundle (k : Nat) (b : Bytes) (s : State) : State :=
  let p := peerAt s k
  match openDict b p with
  | none => protocolError k 3 b p s
  | some p1 =>
    match decodeStrings p1.rxDict b with
    | .inl cause => protocolError k cause b p1 (epochOpened k p p1 s)
    | .inr strs =>
      let text := strs.flatten
      let lead := beAt b 28 2 / 8192
      let all := match p.opened with
        | some o => o.head ++ text
        | none => text.drop lead
      let items := splitItems (all.length + 1) (beAt b 8 4) all
      let need := (items.1.map (fun x => x.2)).foldl (· + ·) 0
      let raw := bRaw b
      let raw1 := if p.opened.isSome then raw else raw.drop (raw.length - need)
      let p2 := record (bSeq b) true { p1 with
        rxDict := addEntries (bSeq b) (bFirst b) strs p1.rxDict, rxN := nextIndex (bFirst b) (bCount b)
        opened := some { head := items.2 } }
      let s1 := epochOpened k p p1 (fbump .BND_PEER_COUNT_rx_bundles 1 (putPeer k p2 s) k)
      (giveRaw items.1 raw1).foldl (fun s i => itemIn k i s) s1

/-- Declares `n` seqs from one on lost: event 176 once for the run (R210). -/
def declareLost (k : Nat) (first : Word) (n : Nat) (s : State) : State :=
  if n = 0 then s
  else
    let s1 := modPeer k (fun p => { (List.range n).foldl (fun p i => record (first + BitVec.ofNat 32 i) false p) p with opened := none }) s
    raise 176 [(1, k), (4, first.toNat), (4, n)] (fbump .BND_PEER_LOSS_lost n s1 k)

/-- Delivers the held bundle at E, if there is one, and goes on while there is (R210, row 4). -/
def deliverHeld : Nat → Nat → State → State
  | 0, _, s => s
  | fuel + 1, k, s =>
    let p := peerAt s k
    if !p.synced then s
    else match p.held.find? (fun h => p.e == some h.seq) with
      | some h => deliverHeld fuel k
          (deliverBundle k h.bytes (putPeer k { p with held := p.held.filter (fun x => x.seq != h.seq) } s))
      | none => s

/-- Decides every seq from E up to a seq, held ones by delivery, runs of missing ones as lost (R210). -/
def decideUpTo : Nat → Nat → Word → State → State
  | 0, _, _, s => s
  | fuel + 1, k, last, s =>
    let s1 := deliverHeld 8 k s
    let p := peerAt s1 k
    match p.e with
    | none => s1
    | some e =>
      if !p.synced ∨ (last - e).toInt < 0 then s1
      else
        let next := p.held.foldl (fun (m : Int) h => min m (h.seq - e).toInt) ((last - e).toInt + 1)
        decideUpTo fuel k last (declareLost k e next.toNat s1)

/-- A restart bundle of a new epoch resets the receiver and is delivered; an item begun in the bundle before it, where that was
delivered, is joined (R209, R217). -/
def restartBundle (k : Nat) (b : Bytes) (s : State) : State :=
  let p := peerAt s k
  let begun := if p.e = some (bSeq b) then p.opened else none
  let s1 := fbump .BND_PEER_LOSS_late p.held.length s k
  let s2 := putPeer k { p with
    held := [], record := [], e := some (bSeq b), synced := true, resync := false, row2 := 0, opened := begun, rxEpoch := none } s1
  deliverBundle k b s2

/-- A data bundle decided by Table 4 (R210). -/
def dataBundle (k : Nat) (b : Bytes) (s : State) : State :=
  let p := peerAt s k
  let seq := bSeq b
  if bFlag b 2 ∧ p.rxEpoch ≠ some (BitVec.ofNat 8 (leAt b 2 1)) then restartBundle k b s
  else match p.e with
    | none => s
    | some e =>
      if !p.synced then s
      else
        let d := (seq - e).toInt
        let s0 := putPeer k { p with row2 := 0 } s
        if d < -64 ∨ 4096 < d then
          let s1 := fbump .BND_PEER_LOSS_out_of_window 1 (putPeer k { p with row2 := p.row2 + 1 } s) k
          if 3 ≤ p.row2 + 1 then unsync k 2 s1 else s1
        else if d < 0 ∨ p.held.any (fun h => h.seq == seq) then fbump .BND_PEER_LOSS_late 1 s0 k
        else
          let hold := fun (s : State) => modPeer k (fun p => { p with held := p.held ++ [{ seq := seq, bytes := b }] }) s
          if d = 0 then deliverHeld 8 k (deliverBundle k b s0)
          else if d < 8 then hold s0
          else
            let s1 := decideUpTo 4200 k (seq - 8) s0
            let p1 := peerAt s1 k
            if !p1.synced then s1
            else if p1.e = some seq then deliverHeld 8 k (deliverBundle k b s1) else hold s1

/-- Whether a bundle passes the header checks (R196). -/
def headerOk (b : Bytes) : Bool :=
  let data := leAt b 0 1 == 0x10
  decide (32 ≤ b.length) && (data || leAt b 0 1 == 0x11) && decide (leAt b 1 1 < 8) && [1, 2, 5, 10].contains (leAt b 3 1) &&
  (!data || (decide (256 ≤ bFirst b) && decide (bFirst b ≤ 4096) &&
    decide ((BitVec.ofNat 32 (beAt b 12 4) - bSeq b).toInt < 0))) &&
  decide (32 + beAt b 28 2 % 8192 + beAt b 30 2 ≤ b.length) &&
  (bFlag b 0 || beAt b 28 2 % 8192 == codeBytes (bFirst b) (bCount b))

/-- The notes of anchored items of the current epoch that an ack says were received: the sender stops anchoring (R200, R212).
-/
def learnAnchors (k : Nat) (d map : Word) (s : State) : State :=
  let fix := fun (h : Nat) (g : Leg) =>
    if keyKind (sessAt s h).key == 3 && (keyTrunk (sessAt s h).key).1 == k &&
        g.anchorSeqs.any (fun x => decide (0 ≤ (x - (peerAt s k).epochStart).toInt) && ackStatus d map x == some true) then
      { g with anchoring := false, anchorSeqs := [] } else g
  { s with chans := s.chans.map (fun c =>
      (c.1, { c.2 with legA := fix c.2.acc c.2.legA, legB := fix c.2.oth c.2.legB })) }

/-- The active device of a full shadow keeps the headers whose acknowledgement fields it takes, for the copy of the tick (R430,
Table 8). -/
def noteAcks (k : Nat) (b : Bytes) (s : State) : State :=
  if s.pair.role = .active ∧ fget s .PAIR_CFG_mode = 2 then
    { s with pair := { s.pair with acks := s.pair.acks ++ [(⟨k % 64, Nat.mod_lt _ (by decide)⟩, b.take 32)] } }
  else s

/-- What a bundle that passes its checks says to the encoder's side: its acks, and whether the peer asks for a resync (R212,
R215). -/
def takeFields (k : Nat) (b : Bytes) (s : State) : State :=
  let ask := bFlag b 1
  let d := BitVec.ofNat 32 (beAt b 16 4)
  let map := BitVec.ofNat 32 (beAt b 20 4)
  let s := noteAcks k b s
  if ask then
    modPeer k (fun p => { p with peerAsks := true, turnCause := if p.answered then p.turnCause else p.turnCause ||| 8 }) s
  else
    let s1 := modPeer k (fun p => { p with peerAsks := false }) s
    let old := match (peerAt s k).ackTaken with
      | some a => decide ((d - a).toInt < 0)
      | none => false
    if old then s1 else learnAnchors k d map (modPeer k (takeAck d map) s1)

/-- The disassembler takes a bundle of a peer (R196, R210, R216, R218). -/
def receiveBundle (k : Nat) (b : Bytes) (s : State) : State :=
  let p := peerAt s k
  if !p.on ∨ s.age.reefed then s
  else if !headerOk b then unsync k 0 (badBundle k 0 (bSeq b) s)
  else
    let s1 := takeFields k b (putPeer k { p with up := true, downed := false, passTick := tickNow s } s)
    let s2 := if leAt b 0 1 = 0x10 then dataBundle k b s1 else s1
    if p.downed then raise 181 [(1, k), (1, rxState (peerAt s2 k))] s2 else s2

/-- BUNDLE_RECEIVE (R210). `dic` is what a read of the dictionary met. -/
def execBundleReceive (peer : Fin 64) (bytes : Bytes) (dic : Option (BitVec 12 × Bool)) (s : State) :
    Host.Outcome State Fault Refusal :=
  .next (if (peerAt s peer).on && !s.age.reefed then receiveBundle peer bytes (dicWord peer 1 dic s) else s)

/-- REORDER_TIMEOUT (R210): at a boundary, the oldest held bundle has waited reorder_ms ticks; what is delivered belongs to
the tick that begins (R24). -/
def execReorderTimeout (peer : Fin 64) (s : State) : Host.Outcome State Fault Refusal :=
  let k := peer.val
  .next (match (peerAt s k).held.head? with
    | none => s
    | some h => if fget s .BND_PEER_CTRL_reorder_ms k ≤ h.wait then
      atBoundary (fun s => deliverHeld 8 k (decideUpTo 4200 k h.seq s)) s else s)

/-- BND_PEER_DOWN (R218): no bundle has passed for 100 ticks. -/
def execBndPeerDown (peer : Fin 64) (s : State) : Host.Outcome State Fault Refusal :=
  let k := peer.val
  let p := peerAt s k
  .next (if p.on && p.up && decide (p.passTick + 100 ≤ tickNow s) then
      raise 180 [(1, k)] (putPeer k { p with up := false, downed := true } s)
    else s)

/-! ### Peers (R191, R217, R219) -/

/-- A receiver starts: UNSYNCED, no epoch, the resync request raised; the ticks of R218 run on (R216, R217). -/
def startReceiver (k : Nat) (s : State) : State :=
  unsync k 4 (modPeer k (fun p => { p with
    e := none, rxEpoch := none, rxN := 256, rxDict := [], record := [], held := [], row2 := 0, opened := none, synced := false
    resync := false }) s)

/-- An encoder starts with a restart bundle of a new epoch (R217). -/
def startSender (k : Nat) (epoch : BitVec 8) (s : State) : State :=
  reanchor k (modPeer k (fun p => { p with
    epoch := epoch, txN := 256, txDict := [], status := [], epochStart := p.seq, turnCause := 0, fresh := true, restartTx := true, restarts := []
    answered := false, peerAsks := false, ackTaken := none, sentD := none }) s)

/-- A peer is enabled (R191, R217, R218, R224). -/
def peerOn (k : Nat) (s : State) : State :=
  let p := peerAt s k
  let s1 := putPeer k { p with
    on := true, everOn := true, seq := Config.freeWord s.free, items := [], up := true, downed := false, passTick := tickNow s
    interval := fget s .BND_PEER_CTRL_interval k, closed := none } s
  startReceiver k (startSender k (if p.everOn then p.epoch + 1 else 0) (draw s1))

/-- A peer is disabled (R219). -/
def peerOff (k : Nat) (s : State) : State :=
  let p := peerAt s k
  putPeer k { on := false, everOn := p.everOn, epoch := p.epoch } s

/-- What a write of BND_PEER_CTRL does: a template that is absent leaves enable 0 (R191, R328). `was` is the word before. -/
def peerControl (k was : Nat) (s : State) : State :=
  let on_ := fbit s .BND_PEER_CTRL_enable k
  if on_ ∧ bitsOf was 31 31 = 0 then
    if templateOk s k then peerOn k s else fset .BND_PEER_CTRL_enable 0 s k
  else if !on_ ∧ bitsOf was 31 31 = 1 then peerOff k s
  else s

/-- DIC_CMD.turn (R215). -/
def dicTurn (k : Nat) (s : State) : State :=
  if (peerAt s k).on then modPeer k (fun p => { p with turnCause := p.turnCause ||| 16 }) s else s

/-- The peers at reef entry: dictionaries are discarded, items not sent go (R219). -/
def peersReef (s : State) : State :=
  { s with peers := s.peers.map (fun p => (p.1, { p.2 with
      items := [], txDict := [], rxDict := [], held := [], opened := none, txN := 256, rxN := 256 })) }

/-- The peers at reef exit or after a switch-over with selected mirroring, each restarting (R217, R219). -/
def peersRestart (seqAdd : Nat) (s : State) : State :=
  (s.peers.map (fun p => p.1)).foldl (fun s k =>
    let p := peerAt s k
    if p.on then
      startReceiver k (startSender k (p.epoch + 1) (putPeer k { p with seq := p.seq + BitVec.ofNat 32 seqAdd } s))
    else s) s

end Sys2Proof.Machine
end

