-- ==== Sys2Proof/Machine/Copies.lean ====
section
/-! DEFINITION. What the active device copies to its standby: the contents of a COPY (R430, Table 8), of a bulk sync (R432)
and of a lane resync (R435; log entry 80). -/

namespace Sys2Proof.Machine

/-- A session entry as a copy carries it. -/
def entryItem (x : Nat × Session) : CopyItem :=
  let e := x.2
  .entry (BitVec.ofNat 20 x.1) e.key (e.params.map (fun p => (BitVec.ofNat 16 p.1, p.2)))
    (e.partner.map (fun p => BitVec.ofNat 20 p)) (BitVec.ofNat 2 e.st.code) (e.chan.map (fun c => BitVec.ofNat 13 c))
    (e.txSeq.getD 0) e.ts

/-- A session entry but for its RTP state, which is copied every tick. -/
def entryMark (x : Nat × Session) : CopyItem := entryItem (x.1, { x.2 with txSeq := none, ts := 0 })

/-- A lane as a copy names it. -/
def laneName (l : Nat) : Fin 128 := ⟨l % 128, Nat.mod_lt _ (by decide)⟩
/-- A peer as a copy names it. -/
def peerName (k : Nat) : Fin 64 := ⟨k % 64, Nat.mod_lt _ (by decide)⟩

/-- The placement of a channel. -/
def placeItem (x : Nat × Channel) : CopyItem :=
  .place (BitVec.ofNat 13 x.1) (BitVec.ofNat 20 x.2.acc) (BitVec.ofNat 20 x.2.oth) (laneName x.2.lane) (BitVec.ofNat 16 x.2.cost)

/-- The RTP state of a channel's legs. -/
def legItems (s : State) (x : Nat × Channel) : List CopyItem :=
  [(x.2.acc, x.2.legA), (x.2.oth, x.2.legB)].filterMap (fun g =>
    (sessAt s g.1).txSeq.map (fun q => .leg (BitVec.ofNat 20 g.1) q g.2.pos))

/-- The counter statistics of a channel. -/
def statItems (x : Nat × Channel) : List CopyItem :=
  x.2.stats.map (fun v => .stat (BitVec.ofNat 13 x.1) (BitVec.ofNat 16 v.1) v.2)

/-- What is committed of the store rooms of a channel's RTP and trunk legs (R177). -/
def roomItems (s : State) (x : Nat × Channel) : List CopyItem :=
  [0, 1].filterMap (fun l =>
    if kindAt s x.1 l = 1 then none else some (.room (BitVec.ofNat 13 x.1) (l == 1) (committedLeg (legAt s x.1 l)).room))

/-- The comfort-noise seed of a channel. -/
def seedItem (x : Nat × Channel) : CopyItem := .seed (BitVec.ofNat 13 x.1) x.2.ec.seed

/-- The channels that stand on a lane. -/
def placedChans (s : State) : List (Nat × Channel) := s.chans.filter (fun c => c.2.live)

/-- What is copied as it changes, as it stands now: entries, placements, statistics, lane budgets; in full shadow also
store-room decisions and random draws (R430, Table 8). -/
def copyMarks (s : State) : List CopyItem :=
  let cs := placedChans s
  s.sess.map entryMark ++ cs.map placeItem ++ cs.flatMap statItems ++
    (List.range 128).map (fun l => .budget (laneName l) (BitVec.ofNat 16 (budget s l))) ++
    (if pairMode s = 2 then cs.flatMap (roomItems s) ++ cs.map seedItem else [])

/-- What the standby knows and is no more: an entry freed, a channel parked or closed. -/
def goneItem (s : State) (i : CopyItem) : Option CopyItem :=
  match i with
  | .entry h .. => if (tget? s.sess h.toNat).isNone then some (.entry h [] [] none 0 none 0 0) else none
  | .place n .. => if (placedChans s).any (fun c => c.1 == n.toNat) then none else some (.unplace n)
  | _ => none

/-- An item that is copied as it changes, with the RTP state that goes with a session entry. -/
def withState (s : State) (i : CopyItem) : CopyItem :=
  match i with
  | .entry h .. => match tget? s.sess h.toNat with
    | some e => entryItem (h.toNat, e)
    | none => i
  | _ => i

/-- The contents of the COPY of a tick (R430, Table 8): what changed, then the RTP state of every leg, the next seq and epoch of
every peer and, in full shadow, the acknowledgement fields taken. -/
def copyItems (s : State) : List CopyItem :=
  let fresh := (copyMarks s).filter (fun i => !s.pair.copied.contains i)
  s.pair.copied.filterMap (goneItem s) ++ fresh.map (withState s) ++ (placedChans s).flatMap (legItems s) ++
    s.peers.map (fun p => .peer (peerName p.1) p.2.seq p.2.epoch) ++
    (if pairMode s = 2 then s.pair.acks.map (fun a => .acks a.1 a.2) else [])

/-- A channel's hot and warm context: what is committed of it (R177, R432). -/
def contextItem (x : Nat × Channel) : CopyItem :=
  .context (BitVec.ofNat 13 x.1) x.2.vbd x.2.vbdQuiet x.2.ec (committedLeg x.2.legA) (committedLeg x.2.legB)

/-- Whether a device address holds contexts, store rooms or echo history: lane data memory, the attics, the cellar regions of
purposes 2 and 3 (R22, R323, R432). -/
def syncedMemory (s : State) (a : Nat) : Bool :=
  decide (0x02000000 ≤ a ∧ a < 0x04000000) || decide (0x08000000 ≤ a ∧ a < 0x10000000 ∧ a % 0x100000 < 0x80000) ||
    (match regionBase s 2 with
      | some b => decide (cellarBase + b ≤ a ∧ a < cellarBase + b + 0x40000000)
      | none => false) ||
    (match regionBase s 3 with
      | some b => decide (cellarBase + b ≤ a ∧ a < cellarBase + b + 0x8000000)
      | none => false)

/-- The contents of a bulk sync (R432): entries, placements and RTP states; in full shadow also contexts, store rooms, echo
history and dictionaries. -/
def syncItems (s : State) : List CopyItem :=
  let cs := placedChans s
  s.sess.map entryItem ++ cs.map placeItem ++ cs.flatMap (legItems s) ++
    (if pairMode s = 2 then
      cs.map contextItem ++ cs.flatMap (roomItems s) ++
        s.peers.map (fun p => .coder (peerName p.1) p.2) ++
        (s.mem.filter (fun c => syncedMemory s c.1)).map (fun c => .memory (BitVec.ofNat 36 c.1) [c.2])
    else [])

/-- The contents of a lane's resync: the contexts of its channels, and their end (R435). -/
def resyncItems (s : State) (l : Nat) : List CopyItem :=
  ((placedChans s).filter (fun c => c.2.lane == l)).map contextItem ++ [.laneDone (laneName l)]

end Sys2Proof.Machine
end

