-- ==== Sys2Proof/Machine/Crypto.lean ====
section
/-! DEFINITION. SHA-512 of FIPS 180-4 and ECDSA over curve P-521 of FIPS 186-5, the editions that R5 names (R321, R350, R354,
R355). Steps and constants are those of the standards (PRESUMED, log entry 7). -/

namespace Sys2Proof.Machine

/-! ### SHA-512 -/

/-- The first 40 of SHA-512's round constants. -/
def shaConstantsLow : List (BitVec 64) :=
  [0x428A2F98D728AE22, 0x7137449123EF65CD, 0xB5C0FBCFEC4D3B2F, 0xE9B5DBA58189DBBC, 0x3956C25BF348B538,
   0x59F111F1B605D019, 0x923F82A4AF194F9B, 0xAB1C5ED5DA6D8118, 0xD807AA98A3030242, 0x12835B0145706FBE,
   0x243185BE4EE4B28C, 0x550C7DC3D5FFB4E2, 0x72BE5D74F27B896F, 0x80DEB1FE3B1696B1, 0x9BDC06A725C71235,
   0xC19BF174CF692694, 0xE49B69C19EF14AD2, 0xEFBE4786384F25E3, 0x0FC19DC68B8CD5B5, 0x240CA1CC77AC9C65] ++
  [0x2DE92C6F592B0275, 0x4A7484AA6EA6E483, 0x5CB0A9DCBD41FBD4, 0x76F988DA831153B5, 0x983E5152EE66DFAB,
   0xA831C66D2DB43210, 0xB00327C898FB213F, 0xBF597FC7BEEF0EE4, 0xC6E00BF33DA88FC2, 0xD5A79147930AA725,
   0x06CA6351E003826F, 0x142929670A0E6E70, 0x27B70A8546D22FFC, 0x2E1B21385C26C926, 0x4D2C6DFC5AC42AED,
   0x53380D139D95B3DF, 0x650A73548BAF63DE, 0x766A0ABB3C77B2A8, 0x81C2C92E47EDAEE6, 0x92722C851482353B]
/-- The last 40 of SHA-512's round constants. -/
def shaConstantsHigh : List (BitVec 64) :=
  [0xA2BFE8A14CF10364, 0xA81A664BBC423001, 0xC24B8B70D0F89791, 0xC76C51A30654BE30, 0xD192E819D6EF5218,
   0xD69906245565A910, 0xF40E35855771202A, 0x106AA07032BBD1B8, 0x19A4C116B8D2D0C8, 0x1E376C085141AB53,
   0x2748774CDF8EEB99, 0x34B0BCB5E19B48A8, 0x391C0CB3C5C95A63, 0x4ED8AA4AE3418ACB, 0x5B9CCA4F7763E373,
   0x682E6FF3D6B2B8A3, 0x748F82EE5DEFB2FC, 0x78A5636F43172F60, 0x84C87814A1F0AB72, 0x8CC702081A6439EC] ++
  [0x90BEFFFA23631E28, 0xA4506CEBDE82BDE9, 0xBEF9A3F7B2C67915, 0xC67178F2E372532B, 0xCA273ECEEA26619C,
   0xD186B8C721C0C207, 0xEADA7DD6CDE0EB1E, 0xF57D4F7FEE6ED178, 0x06F067AA72176FBA, 0x0A637DC5A2C898A6,
   0x113F9804BEF90DAE, 0x1B710B35131C471B, 0x28DB77F523047D84, 0x32CAAB7B40C72493, 0x3C9EBE0A15C9BEBC,
   0x431D67C49C100D4C, 0x4CC5D4BECB3E42B6, 0x597F299CFC657E2A, 0x5FCB6FAB3AD6FAEC, 0x6C44198C4A475817]

/-- The eight working variables of SHA-512. -/
structure ShaWords where
  a : BitVec 64
  b : BitVec 64
  c : BitVec 64
  d : BitVec 64
  e : BitVec 64
  f : BitVec 64
  g : BitVec 64
  h : BitVec 64
  deriving DecidableEq, Repr

/-- The initial hash value. -/
def shaInitial : ShaWords :=
  { a := 0x6A09E667F3BCC908, b := 0xBB67AE8584CAA73B, c := 0x3C6EF372FE94F82B, d := 0xA54FF53A5F1D36F1,
    e := 0x510E527FADE682D1, f := 0x9B05688C2B3E6C1F, g := 0x1F83D9ABFB41BD6B, h := 0x5BE0CD19137E2179 }

/-- The next word of a block's schedule; the words so far, last first. -/
def shaNext (w : List (BitVec 64)) : BitVec 64 :=
  let x := w.getD 1 0
  let y := w.getD 14 0
  (x.rotateRight 19 ^^^ x.rotateRight 61 ^^^ x >>> 6) + w.getD 6 0 +
    (y.rotateRight 1 ^^^ y.rotateRight 8 ^^^ y >>> 7) + w.getD 15 0

/-- The 80 words of a block's schedule, from its 16 words. -/
def shaSchedule (block : List (BitVec 64)) : List (BitVec 64) :=
  ((List.range 64).foldl (fun w _ => shaNext w :: w) block.reverse).reverse

/-- One round, with its constant and its word of the schedule. -/
def shaRound (r : ShaWords) (k : BitVec 64 × BitVec 64) : ShaWords :=
  let t1 := r.h + (r.e.rotateRight 14 ^^^ r.e.rotateRight 18 ^^^ r.e.rotateRight 41) + ((r.e &&& r.f) ^^^ (~~~r.e &&& r.g)) +
    k.1 + k.2
  let t2 := (r.a.rotateRight 28 ^^^ r.a.rotateRight 34 ^^^ r.a.rotateRight 39) +
    ((r.a &&& r.b) ^^^ (r.a &&& r.c) ^^^ (r.b &&& r.c))
  { a := t1 + t2, b := r.a, c := r.b, d := r.c, e := r.d + t1, f := r.e, g := r.f, h := r.g }

/-- The hash value after a block. -/
def shaBlock (h : ShaWords) (block : List (BitVec 64)) : ShaWords :=
  let r := ((shaConstantsLow ++ shaConstantsHigh).zip (shaSchedule block)).foldl shaRound h
  { a := h.a + r.a, b := h.b + r.b, c := h.c + r.c, d := h.d + r.d, e := h.e + r.e, f := h.f + r.f, g := h.g + r.g,
    h := h.h + r.h }

/-- A message padded to blocks of 128 bytes. -/
def shaPadded (b : Bytes) : Bytes := b ++ [0x80] ++ zeros ((239 - b.length % 128) % 128) ++ toBe 16 (8 * b.length)

/-- The SHA-512 digest of bytes (R321, R354). -/
def sha512 (b : Bytes) : Bytes :=
  let m := shaPadded b
  let r := (List.range (m.length / 128)).foldl (fun h i =>
    shaBlock h ((List.range 16).map (fun j => BitVec.ofNat 64 (beAt m (128 * i + 8 * j) 8)))) shaInitial
  [r.a, r.b, r.c, r.d, r.e, r.f, r.g, r.h].flatMap (fun w => toBe 8 w.toNat)

/-! ### Curve P-521: y^2 = x^3 - 3x + b modulo p, with a base point of order n -/

/-- The field's prime. -/
def curveP : Nat := 2 ^ 521 - 1
/-- The order of the base point. -/
def curveN : Nat :=
  0x1FFFFFFFFFFFFFFFFFFFFFFFFFFFFFFFFFFFFFFFFFFFFFFFFFFFFFFFFFFFFFFFFFA51868783BF2F966B7FCC0148F709A5D03BB5C9B8899C47AEBB6FB71E91386409
/-- The curve's coefficient b. -/
def curveB : Nat :=
  0x51953EB9618E1C9A1F929A21A0B68540EEA2DA725B99B315F3B8B489918EF109E156193951EC7E937B1652C0BD3BB1BF073573DF883D2C34F1EF451FD46B503F00

/-- A point in Jacobian coordinates: x / z^2 and y / z^3; the point at infinity where z is 0. -/
structure CurvePoint where
  x : Nat
  y : Nat
  z : Nat
  deriving DecidableEq, Repr

/-- The base point. -/
def curveBase : CurvePoint where
  x := 0xC6858E06B70404E9CD9E3ECB662395B4429C648139053FB521F828AF606B4D3DBAA14B5E77EFE75928FE1DC127A2FFA8DE3348B3C1856A429BF97E7E31C2E5BD66
  y := 0x11839296A789A3BC0045C8A5FB42C7D1BD998F54449579B446817AFBD17273E662C97EE72995EF42640C550B9013FAD0761353C7086A272C24088BE94769FD16650
  z := 1

/-- The point at infinity. -/
def curveZero : CurvePoint := { x := 1, y := 1, z := 0 }

/-- Product in the field. -/
def fieldMul (a b : Nat) : Nat := a * b % curveP
/-- Difference in the field, of reduced numbers. -/
def fieldSub (a b : Nat) : Nat := (a + curveP - b) % curveP

/-- Twice a point. -/
def curveDouble (q : CurvePoint) : CurvePoint :=
  let d := fieldMul q.z q.z
  let g := fieldMul q.y q.y
  let b := fieldMul q.x g
  let a := fieldMul (3 * fieldSub q.x d) (q.x + d)
  let x := fieldSub (fieldMul a a) (8 * b % curveP)
  { x := x, y := fieldSub (fieldMul a (fieldSub (4 * b % curveP) x)) (8 * fieldMul g g % curveP), z := fieldMul (2 * q.y) q.z }

/-- The sum of two points. -/
def curveAdd (q r : CurvePoint) : CurvePoint :=
  if q.z = 0 then r
  else if r.z = 0 then q
  else
    let u := fieldMul q.x (fieldMul r.z r.z)
    let s := fieldMul q.y (fieldMul r.z (fieldMul r.z r.z))
    let h := fieldSub (fieldMul r.x (fieldMul q.z q.z)) u
    let d := fieldSub (fieldMul r.y (fieldMul q.z (fieldMul q.z q.z))) s
    if h = 0 then (if d = 0 then curveDouble q else curveZero)
    else
      let h2 := fieldMul h h
      let h3 := fieldMul h h2
      let v := fieldMul u h2
      let x := fieldSub (fieldSub (fieldMul d d) h3) (2 * v % curveP)
      { x := x, y := fieldSub (fieldMul d (fieldSub v x)) (fieldMul s h3), z := fieldMul h (fieldMul q.z r.z) }

/-- A multiple of a point, by a number below 2^521. -/
def curveMul (k : Nat) (q : CurvePoint) : CurvePoint :=
  (List.range 521).foldl (fun r i =>
    let d := curveDouble r
    if k.testBit (520 - i) then curveAdd d q else d) curveZero

/-- A power modulo `m`, by an exponent below 2^521. -/
def powMod (m x e : Nat) : Nat :=
  (List.range 521).foldl (fun r i =>
    let d := r * r % m
    if e.testBit (520 - i) then d * x % m else d) (1 % m)

/-- The affine coordinates of a point that is not at infinity. -/
def curveAffine (q : CurvePoint) : Nat × Nat :=
  let i := powMod curveP q.z (curveP - 2)
  (fieldMul q.x (fieldMul i i), fieldMul q.y (fieldMul i (fieldMul i i)))

/-! ### ECDSA with SHA-512 -/

/-- Whether a signature, r and s of 66 bytes each, over a digest verifies under an uncompressed public key (R321). -/
def ecdsaOk (pub digest sig : Bytes) : Bool :=
  let x := beAt pub 1 66
  let y := beAt pub 67 66
  let r := beAt sig 0 66
  let s := beAt sig 66 66
  let w := powMod curveN s (curveN - 2)
  let q := curveAdd (curveMul (beAt digest 0 64 * w % curveN) curveBase)
    (curveMul (r * w % curveN) { x := x, y := y, z := 1 })
  beAt pub 0 1 == 4 && decide (x < curveP) && decide (y < curveP) &&
    (fieldMul y y == (fieldMul (fieldMul x x) x + 3 * (curveP - x) + curveB) % curveP) &&
    decide (0 < r) && decide (r < curveN) && decide (0 < s) && decide (s < curveN) &&
    q.z != 0 && (curveAffine q).1 % curveN == r

/-- The private key of an identity seed: key-pair generation with extra random bits, the seed's bits in the order of their
numbers (R350). -/
def privateKey (seed : BitVec 640) : Nat := seed.toNat % (curveN - 1) + 1

/-- The public key of an identity seed, an uncompressed point of 133 bytes (R350). -/
def publicKey (seed : BitVec 640) : Bytes :=
  let a := curveAffine (curveMul (privateKey seed) curveBase)
  [4] ++ toBe 66 a.1 ++ toBe 66 a.2

/-- The signature of a digest with a private key and a random number from 1 to n - 1 (R355). -/
def signWith (d digest k : Nat) : Nat × Nat :=
  let r := (curveAffine (curveMul k curveBase)).1 % curveN
  (r, powMod curveN k (curveN - 2) * (digest + r * d) % curveN)

/-- The signature of a message with the key of an identity seed, from a random value: of the numbers from it on, the first that
leaves neither r nor s 0 (R355). -/
def ecdsaSign (seed : BitVec 640) (random : Nat) (message : Bytes) : Bytes :=
  let e := beAt (sha512 message) 0 64
  let rs := (List.range 3).map (fun j => signWith (privateKey seed) e ((random + j) % (curveN - 1) + 1))
  let x := (rs.find? (fun x => x.1 != 0 && x.2 != 0)).getD (0, 0)
  toBe 66 x.1 ++ toBe 66 x.2

end Sys2Proof.Machine
end

