-- ==== Sys2Proof/Machine/RegRules.lean ====
section
/-! DEFINITION. What a write places in a register's fields by their access types, and which values are reserved (R8 to R11).
-/

namespace Sys2Proof.Machine

/-- Whether a field's table leaves a value unreserved (R11): copy `i` of the register, in a write of the word `w`. -/
def Unreserved.admits (u : Unreserved) (s : State) (i w n : Nat) : Bool :=
  match u with
  | .any => true
  | .range lo hi => decide (lo ≤ n ∧ n ≤ hi)
  | .zeroOr lo hi => decide (n = 0 ∨ (lo ≤ n ∧ n ≤ hi))
  | .oneOf l => l.contains n
  | .mdioOp => bitsOf w 29 29 == 1 || n == 1 || n == 2
  | .islFreq => decide ((islandClock i).2.1 ≤ n ∧ n ≤ (islandClock i).2.2.1)
  | .logIdx => decide (n < fget s .ERR_LOG_SIZE_records)

/-- Whether a write places a reserved value into a field (R11). -/
def FieldDesc.refuses (f : FieldDesc) (s : State) (i w : Nat) : Bool :=
  f.acc == .rw && !f.ok.admits s i w (bitsOf w f.hi f.lo)

/-- The fields of a register into which a write places reserved values, in increasing bit order (R11). -/
def reservedFields (s : State) (r : RegId) (i w : Nat) : List FieldDesc := (r.fields.filter (fun f => f.refuses s i w)).reverse

/-- A register word after a write to one of its fields (R8). -/
def FieldDesc.written (f : FieldDesc) (s : State) (i w n : Nat) : Nat :=
  let v := bitsOf w f.hi f.lo
  let old := bitsOf n f.hi f.lo
  match f.acc with
  | .rw => if f.refuses s i w then n else setBits n f.hi f.lo v
  | .w1c => setBits n f.hi f.lo (old - old.land v)
  | .w1s => setBits n f.hi f.lo (old.lor v)
  | .ro => n
  | .rc => n
  | .wo => n

/-- A reserved value refused: event 2 with the register address and the low bit of the field (R11). -/
def reservedEvent (a lo : Nat) (s : State) : State := raise 2 [(4, a), (4, lo)] s

/-- Whether a register reads the fuses until it is written (R358). -/
def RegId.fromFuses : RegId → Bool
  | .BOOT_OWNER_DIGEST => true
  | _ => false

/-- A write by access types alone (R8, R11). -/
def plainWrite (a w : Nat) (s : State) : State :=
  match regAt a with
  | none => s
  | some (r, i, _) =>
    let n := r.fields.foldl (fun n f => f.written s i w n) (regWord s a)
    (reservedFields s r i w).foldl (fun s f => reservedEvent a f.lo s) (if n = regWord s a && !r.fromFuses then s else setWord a n s)

/-- Whether a word sets bits of a register's RW and W1S fields alone (R331). -/
def settable (r : RegId) (n : Nat) : Bool :=
  (List.range 32).all (fun b => !n.testBit b ||
    r.fields.any (fun f => (f.acc == .rw || f.acc == .w1s) && decide (f.lo ≤ b ∧ b ≤ f.hi)))

end Sys2Proof.Machine
end

