-- ==== Sys2Proof/Machine/RigCheck.lean ====
section
/-! DEFINITION. The layout of a rigging image and the loader's checks of it (R319 to R336, R352, R364, R413). A check
answers a failure code of Table 10 of the chapter, 0 where it passes. -/

namespace Sys2Proof.Machine

/-- Whether bytes are all zero. -/
def allZero (b : Bytes) : Bool := b.all (fun x => x == 0)
/-- The code of the first condition of a list that holds, or 0. -/
def firstCode : List (Bool × Nat) → Nat
  | [] => 0
  | (c, n) :: t => if c then n else firstCode t
/-- The first code of a list that is not 0, or 0. -/
def firstFail (l : List Nat) : Nat := (l.find? (fun n => n != 0)).getD 0
/-- Whether no element of a list occurs twice. -/
def allDistinct (l : List Nat) : Bool :=
  match l with
  | [] => true
  | a :: t => !t.contains a && allDistinct t
/-- Whether no two non-empty ranges, each a base and a length, overlap. -/
def noOverlap : List (Nat × Nat) → Bool
  | [] => true
  | r :: t => t.all (fun q => r.2 == 0 || q.2 == 0 || decide (r.1 + r.2 ≤ q.1) || decide (q.1 + q.2 ≤ r.1)) && noOverlap t

/-! ### Header and spar table (R319, R320, Tables 1 and 2) -/

/-- The total length that an image's header gives. -/
def imgLen (b : Bytes) : Nat := leAt b 8 4
/-- The spar count of an image. -/
def imgCount (b : Bytes) : Nat := leAt b 12 4
/-- The rollback counter of an image. -/
def imgRollback (b : Bytes) : Nat := leAt b 20 1
/-- The table entry of spar `k`. -/
def imgEntry (b : Bytes) (k : Nat) : Bytes := slice b (128 + 80 * k) 80
/-- The table entries of an image, in order. -/
def imgEntries (b : Bytes) : List Bytes := (List.range (imgCount b)).map (imgEntry b)
/-- Type, cluster, offset, length and digest of a table entry. -/
def rowType (e : Bytes) : Nat := leAt e 0 2
def rowCluster (e : Bytes) : Nat := leAt e 2 1
def rowOff (e : Bytes) : Nat := leAt e 4 4
def rowLen (e : Bytes) : Nat := leAt e 8 4
def rowDigest (e : Bytes) : Bytes := slice e 16 64

/-- Steps 1 to 3 of Table 10 on the first 128 bytes, for a silicon revision (R336; log entry 70). -/
def headerCheck (b : Bytes) (rev : Nat) : Nat :=
  firstCode [
    (slice b 0 4 != [0x50, 0x4C, 0x54, 0x52], 0x01),
    (leAt b 4 2 != 1 || leAt b 6 2 != 128 || leAt b 16 4 != 128 || !allZero (slice b 56 72), 0x02),
    (decide (33554432 < imgLen b), 0x03),
    (imgLen b % 16 != 0 || decide (imgLen b < 1024), 0x02),
    (leAt b 22 2 != 0x2000 || !(List.range (min 8 (leAt b 21 1))).any (fun i => leAt b (24 + i) 1 == rev), 0x04)]

/-- Scope and limits of a spar type: a device spar, fewest and most of it, most bytes (R320, Table 3). -/
def sparKind (t : Nat) : Option (Bool × Nat × Nat × Nat) :=
  match t with
  | 0x01 => some (true, 1, 1, 786432)
  | 0x02 => some (true, 1, 1, 32)
  | 0x03 => some (true, 1, 1, 272)
  | 0x04 => some (true, 1, 1, 36880)
  | 0x05 => some (true, 1, 1, 528456)
  | 0x06 => some (true, 1, 1, 67472)
  | 0x07 => some (true, 1, 1, 592)
  | 0x08 => some (true, 1, 1, 128)
  | 0x09 => some (true, 0, 1, 4096)
  | 0x0A => some (true, 0, 1, 4096)
  | 0x0B => some (true, 1, 1, 16)
  | 0x0C => some (true, 0, 16, 65536)
  | 0x10 => some (false, 0, 1, 1048704)
  | 0x11 => some (false, 0, 1, 1152)
  | 0x12 => some (false, 0, 64, 1048576)
  | _ => none

/-- The check of one table entry, whose spar may start at `low` and must end before `high` (R320, Table 2). -/
def rowCheck (e : Bytes) (low high : Nat) : Nat :=
  match sparKind (rowType e) with
  | none => 0x05
  | some (dev, _, _, most) =>
    firstCode [
      (leAt e 3 1 != 0, 0x02),
      ((dev && rowCluster e != 0xFF) || (!dev && decide (7 < rowCluster e)), 0x05),
      (rowOff e % 16 != 0 || decide (rowOff e < low) || decide (high < rowOff e + rowLen e), 0x05),
      (rowLen e == 0 || decide (most < rowLen e) || leAt e 12 4 != 1, 0x05)]

/-- The rows of a table checked in order from row `k`, spars in increasing offset without overlap: the failing row and its
code (R320). -/
def rowsCheck (high : Nat) : Nat → Nat → List Bytes → Option (Nat × Nat)
  | _, _, [] => none
  | k, low, e :: t =>
    let c := rowCheck e low high
    if c ≠ 0 then some (c, k) else rowsCheck high (k + 1) (rowOff e + rowLen e) t

/-- The rows of a type for a cluster (0xFF for a device spar), by index. -/
def rowsOf (es : List Bytes) (t c : Nat) : List Nat :=
  (List.range es.length).filter (fun k => rowType (es.getD k []) == t && rowCluster (es.getD k []) == c)

/-- The failing spar of a count rule of Table 3 for one type and cluster: the first one too many; 0x3FF where one is
missing. -/
def countFail (es : List Bytes) (c t : Nat) : Option Nat :=
  match sparKind t with
  | none => none
  | some (_, least, most, _) =>
    let l := rowsOf es t c
    if l.length < least then some 0x3FF else if most < l.length then some (l.getD most 0) else none

/-- LANE_CODE without LANE_LAYOUT, or the reverse, for a cluster: the spar that lacks the other (R320). -/
def riggedFail (es : List Bytes) (c : Nat) : Option Nat :=
  match rowsOf es 0x10 c, rowsOf es 0x11 c with
  | [], k :: _ => some k
  | k :: _, [] => some k
  | _, _ => none

/-- Step 4 of Table 10: the spar table (R320, R336). -/
def tableCheck (b : Bytes) : Option (Nat × Nat) :=
  if imgCount b = 0 ∨ 1023 < imgCount b ∨ imgLen b < 128 + 80 * imgCount b + 288 then some (0x05, 0x3FF)
  else
    let es := imgEntries b
    match rowsCheck (imgLen b - 288) 0 (128 + 80 * imgCount b) es with
    | some r => some r
    | none =>
      let dev := [1, 2, 3, 4, 5, 6, 7, 8, 9, 10, 11, 12].findSome? (countFail es 0xFF)
      let clu := (List.range 8).findSome? (fun c => [0x10, 0x11, 0x12].findSome? (countFail es c))
      let rig := (List.range 8).findSome? (riggedFail es)
      match dev <|> clu <|> rig with
      | some k => some (0x0B, k)
      | none => none

/-! ### Device spars (R322 to R331) -/

/-- CLOCK_PLAN (R322). -/
def clockPlanCheck (d : Bytes) : Nat :=
  firstCode [
    (d.length != 32, 0x0C),
    (!allZero (slice d 30 2), 0x02),
    (!(List.range 15).all (fun i =>
      decide ((islandClock i).2.1 ≤ leAt d (2 * i) 2 ∧ leAt d (2 * i) 2 ≤ (islandClock i).2.2.1)), 0x0C)]

/-- Base in bytes, size in MiB and purpose of region record `r` of CELLAR_MAP (R323). -/
def mapBase (d : Bytes) (r : Nat) : Nat := leAt d (16 + 16 * r) 8
def mapMib (d : Bytes) (r : Nat) : Nat := leAt d (24 + 16 * r) 4
def mapPurpose (d : Bytes) (r : Nat) : Nat := leAt d (28 + 16 * r) 1

/-- Whether a region's size suits its purpose (R323, Table 5). -/
def purposeSize (p m : Nat) : Bool :=
  match p with
  | 0 => m == 0
  | 1 => m == 256
  | 2 => m == 1024
  | 3 => m == 128
  | 4 => decide (1 ≤ m)
  | 5 => decide (1 ≤ m)
  | 6 => decide (1 ≤ m)
  | 7 => decide (32 ≤ m)
  | _ => false

/-- CELLAR_MAP (R323). -/
def cellarMapCheck (d : Bytes) : Nat :=
  let rs := List.range 16
  firstCode [
    (d.length != 272, 0x0C),
    (!allZero (slice d 4 12) || !rs.all (fun r => allZero (slice d (29 + 16 * r) 3)), 0x02),
    (! [4, 8, 16].contains (leAt d 0 2) || ! [1, 2].contains (leAt d 2 1) || ! [8, 16].contains (leAt d 3 1), 0x0C),
    (!rs.all (fun r => purposeSize (mapPurpose d r) (mapMib d r) && mapBase d r % 1048576 == 0 &&
      decide (mapBase d r + mapMib d r * 1048576 ≤ leAt d 0 2 * 1073741824)), 0x0C),
    (!noOverlap (rs.map (fun r => (mapBase d r, mapMib d r * 1048576))), 0x0C),
    (! [1, 2, 3, 4, 5, 7].all (fun p => (rs.filter (fun r => mapPurpose d r == p)).length == 1), 0x0C)]

/-- Record `k` of QUEUE_GRAPH (R324, Table 6). -/
def queueRec (d : Bytes) (k : Nat) : Bytes := slice d (16 + 72 * k) 72
/-- The records of QUEUE_GRAPH. -/
def queueRecs (d : Bytes) : List Bytes := (List.range (leAt d 0 2)).map (queueRec d)
/-- Credits, largest packet and drop-capable mark of VC `v` of a record. -/
def recCredits (r : Bytes) (v : Nat) : Nat := leAt r (16 + 6 * v) 2
def recMax (r : Bytes) (v : Nat) : Nat := leAt r (18 + 6 * v) 2
def recDrop (r : Bytes) (v : Nat) : Bool := leAt r (20 + 6 * v) 1 % 2 == 1

/-- The values of one queue record (R324, Table 6): a queue within one island joins stay endpoints of island 9, and a receive
queue of a trunk port is bound as R232 allows (log entry 71). -/
def queueRecCheck (r : Bytes) : Nat :=
  let n := leAt r 6 1
  let p := leAt r 7 1
  let used := List.range (min n 4)
  firstCode [
    (!allZero (slice r 9 7) || !(List.range 4).all (fun v => leAt r (21 + 6 * v) 1 == 0), 0x02),
    (decide (14 < leAt r 2 1) || decide (14 < leAt r 3 1) || decide (leAt r 4 2 < 16) || decide (4096 < leAt r 4 2), 0x0C),
    (n == 0 || decide (4 < n) || p == 0 || decide (16 < p), 0x0C),
    (!used.all (fun v => decide (1 ≤ recMax r v ∧ recMax r v ≤ 16384)), 0x0C),
    (!allZero (slice r (16 + 6 * n) (24 - 6 * n)) || !allZero (slice r (40 + 2 * p) (32 - 2 * p)), 0x0C),
    (!(List.range p).all (fun i => decide (leAt r (40 + 2 * i) 1 < n)), 0x0C),
    (decide (leAt r 4 2 < (used.map (recCredits r)).sum) || used.any (fun v => recCredits r v == 0), 0x10),
    (used.any (fun v => recDrop r v && decide (recCredits r v < (recMax r v + 7) / 8)), 0x10),
    (leAt r 2 1 == leAt r 3 1 &&
      (leAt r 2 1 != 9 || !Config.stayEndpoint (leAt r 8 1) ||
        !(List.range p).all (fun i => Config.stayEndpoint (leAt r (41 + 2 * i) 1))), 0x10),
    (leAt r 2 1 == 9 && leAt r 3 1 != 9 &&
      (List.range p).any (fun i => Config.rxMisbound (leAt r (41 + 2 * i) 1) (leAt r 3 1) (leAt r 8 1)), 0x10)]

/-- Whether instances rise from record to record. -/
def instancesRise : List Bytes → Bool
  | [] => true
  | [_] => true
  | a :: b :: t => decide (leAt a 0 2 < leAt b 0 2) && instancesRise (b :: t)

/-- An endpoint of an island: a cluster's is a lane and a port, another's a number (R324). -/
def endKey (island e : Nat) : Nat := island * 256 + (if island < 8 then e / 16 * 16 + e % 8 else e)

/-- QUEUE_GRAPH (R324). The endpoint numbers of the fixed islands are not part of the specification. -/
def queueGraphCheck (d : Bytes) : Nat :=
  let rs := queueRecs d
  let cons := rs.map (fun r => endKey (leAt r 3 1) (leAt r 8 1))
  let prods := rs.flatMap (fun r => (List.range (leAt r 7 1)).map (fun i => endKey (leAt r 2 1) (leAt r (41 + 2 * i) 1)))
  firstFail ([
    firstCode [
      (!allZero (slice d 2 14), 0x02),
      (leAt d 0 2 == 0 || decide (512 < leAt d 0 2) || d.length != 16 + 72 * leAt d 0 2, 0x0C),
      (!instancesRise rs || rs.any (fun r => decide (511 < leAt r 0 2)), 0x0C)]] ++
    rs.map queueRecCheck ++
    [if !allDistinct cons || !allDistinct prods then 0x10 else 0])

/-- The VC of an index 4q + v in QUEUE_GRAPH: its record and number, where it is defined (R325). -/
def graphVc (d : Bytes) (x : Nat) : Option (Bytes × Nat) :=
  ((queueRecs d).find? (fun r => leAt r 0 2 == x / 4 && decide (x % 4 < leAt r 6 1))).map (fun r => (r, x % 4))

/-- The form of CREDIT_CERT (R325). -/
def certCheck (d : Bytes) : Nat :=
  firstCode [
    (decide (131072 < leAt d 64 4) || d.length != 4168 + 4 * leAt d 64 4, 0x0C),
    (!allZero (slice d 68 4), 0x02)]

/-- Whether an edge joins two VCs that are not drop-capable without a rise in rank (R325). -/
def badEdge (graph cert : Bytes) (e : Nat × Nat) : Bool :=
  let rank := fun x => leAt cert (72 + 2 * x) 2
  match graphVc graph e.1, graphVc graph e.2 with
  | some (ra, va), some (rb, vb) => !recDrop ra va && !recDrop rb vb && decide (rank e.2 ≤ rank e.1)
  | _, _ => false

/-- The edges of a certificate. -/
def certEdges (cert : Bytes) : List (Nat × Nat) :=
  (List.range (leAt cert 64 4)).map (fun i => (leAt cert (4168 + 4 * i) 2, leAt cert (4170 + 4 * i) 2))

/-- Step 11 of Table 10: the certificate against the queue graph, with the device's own edges (R325; log entry 71). -/
def certGraphCheck (graph cert : Bytes) : Nat :=
  let es := certEdges cert
  firstCode [
    (slice cert 0 64 != sha512 graph, 0x0E),
    (es.any (fun e => (graphVc graph e.1).isNone || (graphVc graph e.2).isNone), 0x0C),
    ((es ++ Config.fixedEdges graph).any (badEdge graph cert), 0x0D)]

/-- Record `k` of RINGS, and the bytes its ring takes (R326). -/
def ringRec (d : Bytes) (k : Nat) : Bytes := slice d (16 + 16 * k) 16
def ringBytes (r : Bytes) : Nat := leAt r 4 2 * (256 * leAt r 6 1)

/-- Whether a ring record's port, direction, queue and consumer fit together (R232, R326). -/
def ringKindOk (r : Bytes) : Bool :=
  let port := leAt r 0 1
  let dir := leAt r 1 1
  let q := leAt r 2 1
  let cons := leAt r 3 1
  if port < 2 then
    if dir = 0 then (decide (q < 8) && decide (cons < 2)) || (q == 8 && cons == 2)
    else dir == 1 && decide (q < 8) && cons == 0
  else port == 2 && decide (dir < 2) && q == 0 && cons == 0

/-- RINGS, against the region of purpose 4 of CELLAR_MAP (R326). -/
def ringsCheck (map d : Bytes) : Nat :=
  let rs := (List.range 36).map (ringRec d)
  let reg := (List.range 16).find? (fun r => mapPurpose map r == 4)
  let lo := (reg.map (mapBase map)).getD 0
  let hi := lo + (reg.map (mapMib map)).getD 0 * 1048576
  firstCode [
    (d.length != 592 || leAt d 0 1 != 36, 0x0C),
    (!allZero (slice d 1 15) || !rs.all (fun r => leAt r 7 1 == 0), 0x02),
    (!rs.all (fun r => ringKindOk r && decide (1 ≤ leAt r 6 1 ∧ leAt r 6 1 ≤ 8)), 0x10),
    (!allDistinct (rs.map (fun r => leAt r 0 3)), 0x10),
    (!rs.all (fun r => ringBytes r == 0 || (decide (lo ≤ leAt r 8 8) && decide (leAt r 8 8 + ringBytes r ≤ hi))), 0x10),
    (!noOverlap (rs.map (fun r => (leAt r 8 8, ringBytes r))), 0x10)]

/-- NET_IDENT (R327). -/
def netIdentCheck (d : Bytes) : Nat :=
  firstCode [
    (d.length != 128, 0x0C),
    (! [0, 1, 2].all (fun p => allZero (slice d (32 * p + 28) 4)) || !allZero (slice d 114 14), 0x02)]

/-- Whether a peer record may stand: an EtherType of 0 makes the Ethernet template absent (R328, Table 7; log entry 70). -/
def peerRecOk (r : Bytes) : Bool :=
  let et := beAt r 16 2
  decide (leAt r 0 1 < 2) && (leAt r 0 1 == 0 || et == 0 ||
    (decide (0x05FF < et) && ! [0x0800, 0x86DD, 0x8100, 0x88A8, 0x88F7, 0x8808].contains et))

/-- PEERS (R328). -/
def peersCheck (d : Bytes) : Nat :=
  let rs := (List.range 64).map (fun p => slice d (64 * p) 64)
  firstCode [
    (d.length != 4096, 0x0C),
    (!rs.all (fun r => leAt r 1 1 == 0 && allZero (slice r 54 10)), 0x02),
    (!rs.all peerRecOk, 0x0C)]

/-- Whether a value lies in a range. -/
def within (lo hi n : Nat) : Bool := decide (lo ≤ n ∧ n ≤ hi)

/-- Whether a call-progress tone record may stand (R329, Table 8). -/
def toneRecOk (r : Bytes) : Bool :=
  let pairs := leAt r 8 1
  let f2 := leAt r 4 2
  leAt r 0 1 == 0 || (leAt r 0 1 == 1 && within 5 100 (leAt r 1 1) && within 200 3400 (leAt r 2 2) &&
    (f2 == 0 || within 200 3400 f2) && within 0 60 (leAt r 6 1) && within 0 40 (leAt r 7 1) && decide (pairs ≤ 4) &&
    (List.range (2 * pairs)).all (fun i => within 20 10000 (leAt r (12 + 2 * i) 2)) &&
    allZero (slice r (12 + 4 * pairs) (16 - 4 * pairs)))

/-- TONE_SETS (R329). -/
def toneSetsCheck (d : Bytes) : Nat :=
  let rs := (List.range 128).map (fun k => slice d (32 * k) 32)
  firstCode [
    (d.length != 4096, 0x0C),
    (!rs.all (fun r => allZero (slice r 9 3) && allZero (slice r 28 4)), 0x02),
    (!allZero (slice d 0 256) || !rs.all toneRecOk, 0x0C)]

/-- PAIR (R330, R413). -/
def pairCheck (d : Bytes) : Nat :=
  let mode := leAt d 2 1
  let ports := leAt d 3 1
  let pos := leAt d 4 1
  firstCode [
    (d.length != 16, 0x0C),
    (!allZero (slice d 5 11), 0x02),
    (decide (2 < mode) || decide (3 < ports) || (decide (3 < pos) && pos != 0xFF), 0x0C),
    (mode == 0 && (ports != 0 || pos != 0xFF), 0x0C),
    (mode != 0 && (leAt d 0 1 == leAt d 1 1 || ports == 0), 0x0C),
    (decide (pos < 4) && ports != 3, 0x0C)]

/-- Whether an address lies in a block that REG_INIT may write: TMC0, TMC1, SVC, FLT, BND, TDM, TIM, STY, PAIR, ERR (R331,
R501). -/
def regInitBlock (a : Nat) : Bool :=
  let b := a / 65536
  a % 4 == 0 && (b == 6 || (decide (0x20 ≤ b) && decide (b ≤ 0x29) && b != 0x25))

/-- One record of REG_INIT (R331). -/
def regInitOk (s : State) (a v : Nat) : Bool :=
  regInitBlock a && (match regAt a with
    | some (r, i, _) => settable r v && (reservedFields s r i v).isEmpty
    | none => v == 0)

/-- REG_INIT (R331). -/
def regInitCheck (s : State) (d : Bytes) : Nat :=
  firstCode [
    (d.length % 8 != 0, 0x0C),
    (!(List.range (d.length / 8)).all (fun k => regInitOk s (leAt d (8 * k) 4) (leAt d (8 * k + 4) 4)), 0x11)]

/-! ### Cluster spars (R332 to R334) -/

/-- LANE_CODE (R332). -/
def laneCodeCheck (d : Bytes) : Nat :=
  firstCode [
    (decide (d.length < 128), 0x0C),
    (!(List.range 16).all (fun l =>
      let off := leAt d (8 * l) 4
      let n := leAt d (8 * l + 4) 2
      off % 16 == 0 && decide (128 ≤ off) && within 1 4096 n && decide (off + 16 * n ≤ d.length) &&
        decide (leAt d (8 * l + 6) 2 < n)), 0x0C)]

/-- The speculation area of lane `l` of LANE_LAYOUT, and the receive area of its input port `p` (R333). -/
def specArea (d : Bytes) (l : Nat) : Nat × Nat := (leAt d (72 * l) 4, leAt d (72 * l + 4) 4)
def recvArea (d : Bytes) (l p : Nat) : Nat × Nat := (leAt d (72 * l + 8 + 8 * p) 4, leAt d (72 * l + 12 + 8 * p) 4)

/-- The largest packet, rounded up to 16 bytes, that the queue graph can deliver to an input port; 0 where none is bound
(R308, R333). -/
def portNeeds (graph : Bytes) (cluster l p : Nat) : Nat :=
  match (queueRecs graph).find? (fun r => endKey (leAt r 3 1) (leAt r 8 1) == endKey cluster (16 * l + p)) with
  | some r => ((List.range (leAt r 6 1)).foldl (fun m v => max m (recMax r v)) 0 + 15) / 16 * 16
  | none => 0

/-- Whether a receive area follows R308 for its port. -/
def recvAreaOk (graph d : Bytes) (cluster l p : Nat) : Bool :=
  let a := recvArea d l p
  let need := portNeeds graph cluster l p
  if a.2 = 0 then need == 0
  else within 1024 131072 a.2 && a.1 % 16 == 0 && a.1 / 131072 == (a.1 + a.2 - 1) / 131072 && decide (need ≤ a.2)

/-- LANE_LAYOUT (R333). -/
def laneLayoutCheck (graph : Bytes) (cluster : Nat) (d : Bytes) : Nat :=
  firstCode [
    (d.length != 1152, 0x0C),
    (!(List.range 16).all (fun l =>
      let areas := specArea d l :: (List.range 8).map (recvArea d l)
      areas.all (fun a => decide (a.1 + a.2 ≤ 0x80000) || a.2 == 0) && noOverlap areas &&
        (List.range 8).all (recvAreaOk graph d cluster l)), 0x0C)]

/-- LANE_DATA (R334). -/
def laneDataCheck (d : Bytes) : Nat :=
  let target := leAt d 2 1
  let a := leAt d 4 4
  let n := d.length - 16
  firstCode [
    (decide (d.length < 16) || decide (1 < target) || a % 16 != 0, 0x0C),
    (leAt d 3 1 != 0 || !allZero (slice d 8 8), 0x02),
    (decide ((if target = 0 then 0x80000 else 0x400000) < a + n), 0x0C),
    (target == 1 && leAt d 0 2 != 0, 0x0C)]

/-! ### The ACCESS spar (R362, R364) -/

/-- The entry of a target and master in the ACCESS spar. -/
def accEntry (d : Bytes) (t m : Nat) : Bytes := slice d (16 + 68 * (16 * t + m)) 68
/-- Window `w` of an entry. -/
def entryWin (e : Bytes) (w : Nat) : AccWin :=
  let rl := leAt e (8 + 8 * w) 4
  { start := leAt e (4 + 8 * w) 4, len := rl % 2 ^ 29, r := rl.testBit 31, w := rl.testBit 30, x := rl.testBit 29 }
/-- The windows in use of an entry. -/
def entryWins (e : Bytes) : List AccWin := (List.range (leAt e 0 1)).map (entryWin e)

/-- The size of a target in its window units, the cellar regions as CELLAR_MAP sizes them (R361, Table 2). -/
def targetUnits (map : Bytes) (t : Nat) : Nat :=
  if t < 22 then 0x4000 else if t < 30 then 0x40000 else if t < 38 then 0x10000
  else if t < 54 then mapMib map (t - 38) * 16384 else 0x40000

/-- How far windows that grant a right reach without a gap from a position, `n` windows tried. -/
def reach (grants : AccWin → Bool) (ws : List AccWin) : Nat → Nat → Nat
  | 0, pos => pos
  | n + 1, pos =>
    reach grants ws n (ws.foldl (fun p w => if grants w && decide (w.start ≤ p) then max p (w.start + w.len) else p) pos)

/-- Whether a master has R and W over every offset of a target (R364). -/
def coversAll (map d : Bytes) (t m : Nat) : Bool :=
  let ws := entryWins (accEntry d t m)
  let n := targetUnits map t
  decide (n ≤ reach (fun w => w.r) ws 8 0) && decide (n ≤ reach (fun w => w.w) ws 8 0)

/-- The form of one entry (R362, R364). -/
def entryCheck (map d : Bytes) (t m : Nat) : Nat :=
  let e := accEntry d t m
  let n := leAt e 0 1
  firstCode [
    (!allZero (slice e 1 3), 0x02),
    (decide (8 < n) || !allZero (slice e (4 + 8 * n) (64 - 8 * n)), 0x0C),
    ((entryWins e).any (fun w => decide (targetUnits map t < w.start + w.len) && w.len != 0), 0x0C),
    (decide (t < 54) && (entryWins e).any (fun w => w.x), 0x0C)]

/-- The targets of the cellar regions of some purposes. -/
def purposeTargets (map : Bytes) (ps : List Nat) : List Nat :=
  ((List.range 16).filter (fun r => ps.contains (mapPurpose map r) && mapMib map r != 0)).map (fun r => 38 + r)

/-- The rights that R364 asks for: targets and masters. -/
def neededRights (map : Bytes) : List (Nat × Nat) :=
  (List.range 30).map (fun t => (t, 1)) ++ (List.range 8).flatMap (fun c => [(30 + c, 2 + c), (54 + c, 2 + c)]) ++
  (purposeTargets map [1, 4, 5]).map (fun t => (t, 1)) ++
  (purposeTargets map [1, 2, 3, 4, 5, 6, 7]).map (fun t => (t, 10)) ++
  (purposeTargets map [1, 2, 4]).map (fun t => (t, 11)) ++ (purposeTargets map [1, 2]).map (fun t => (t, 12))

/-- Whether a window of a master other than the owning cluster grants a right over a byte of a lane's speculation area
(R178, R364). -/
def opensArea (d : Bytes) (c l : Nat) (area : Nat × Nat) : Bool :=
  let lo := 0x100000 * l + area.1
  area.2 != 0 && (List.range 16).any (fun m => m != 2 + c && (entryWins (accEntry d (54 + c) m)).any (fun w =>
    (w.r || w.w || w.x) && w.len != 0 && decide (w.start * 64 < lo + area.2) && decide (lo < (w.start + w.len) * 64)))

/-- Step 12 of Table 10: the ACCESS spar (R364). `layouts` are the clusters with their LANE_LAYOUT. -/
def accessCheck (map d : Bytes) (layouts : List (Nat × Bytes)) : Nat :=
  firstFail ([
    firstCode [(d.length != 67472 || leAt d 0 2 != 62, 0x0C), (!allZero (slice d 2 14), 0x02)]] ++
    (List.range 62).flatMap (fun t => (List.range 16).map (entryCheck map d t)) ++
    [if (neededRights map).all (fun p => coversAll map d p.1 p.2) then 0 else 0x0C,
     if layouts.any (fun y => (List.range 16).any (fun l => opensArea d y.1 l (specArea y.2 l))) then 0x0F else 0])

/-! ### The signature block (R321, R352) -/

/-- The signature block of an image. -/
def sigBlock (b : Bytes) : Bytes := b.drop (imgLen b - 288)
/-- Its key slot and public key. -/
def sigSlot (g : Bytes) : Nat := leAt g 4 1
def sigKey (g : Bytes) : Bytes := slice g 8 133

/-- Whether the key slot accepts the block's public key (R352). -/
def keyAccepted (f : Fuses) (g : Bytes) : Bool :=
  let i := sigSlot g
  let dig := sha512 (sigKey g)
  if i < 4 then !f.rootRevoked.getLsbD i && f.roots.getD i [] == dig
  else i == 4 && f.enrolled && !f.ownerRevoked && f.owner == dig

/-- Steps 6 to 8 of Table 10: key, signature, rollback counter (R321, R336, R352; log entry 70). -/
def signatureCheck (f : Fuses) (b : Bytes) : Nat :=
  let g := sigBlock b
  firstCode [
    (slice g 0 4 != [0x53, 0x49, 0x47, 0x4E] || leAt g 5 1 != 1 || !keyAccepted f g, 0x07),
    (!allZero (slice g 6 2) || !allZero (slice g 141 3) || !allZero (slice g 276 12), 0x02),
    (!ecdsaOk (sigKey g) (sha512 (b.take (imgLen b - 288))) (slice g 144 132), 0x08),
    (decide (imgRollback b < f.rollback), 0x09)]

end Sys2Proof.Machine
end

