-- ==== Sys2Proof/Machine/Loader.lean ====
section
/-! DEFINITION. The loader from a start to the end of its checks, and its failures (R335 to R337, R339, R341, R342, R346,
R347). -/

namespace Sys2Proof.Machine

/-! ### Failures -/

/-- The device halts in boot with a code: FAULT_N is asserted and event 42 raised (R345, Table 4). -/
def haltBoot (code stage : Nat) (s : State) : State :=
  raise 42 [(1, code), (1, stage)]
    (noteIbi { s with boot := { s.boot with stage := .halted, halt := code, bootFault := true } })

/-- What a failed boot load leaves, by BOOT_SEL (R346, Table 1): a failed QSPI load under 0b00 falls back to the host, one
under 0b01 halts the device. -/
def bootLoadFailed (code src : Nat) (s : State) : State :=
  if s.boot.sel = 1 then haltBoot 3 4 s
  else if s.boot.sel = 0 ∧ src = 1 then
    raise 41 [(1, code)] (noteIbi { s with
      boot := { s.boot with fallback := true, bootFault := true }
      rig := { s.rig with st := .waitHost } })
  else s

/-- A load fails with a code and the index of a spar (R336); where BOOT_SEL lets the loader enter no FAILED, it is IDLE with the
code kept (R346, R347; log entry 70). -/
def rigFail (code spar : Nat) (s : State) : State :=
  let r := s.rig
  let st := if s.boot.stage = .load ∧ s.boot.sel = 1 then LoaderState.idle else .failed
  let s1 := { s with rig := { r with
    st := st, code := code, spar := spar, go := false, rerig := none, image := [], coming := none } }
  let s2 := raise 34 [(1, code), (2, spar), (4, r.bytes)] (fbump .RIG_COUNT_failures 1 s1)
  if s.boot.stage = .load then bootLoadFailed code r.src s2 else s2

/-- Whether the loader is in a state from RECEIVING to CHECKING. -/
def loadUnderCheck (s : State) : Bool := s.rig.st == .receiving || s.rig.st == .verifying || s.rig.st == .checking

/-- A load aborted before APPLYING: by the host, by reefing or by the mast watchdog (R341, R342). -/
def rigAbort (s : State) : State := if loadUnderCheck s then rigFail 0x14 0x3FF s else s

/-! ### Starting (R337, R339, R347) -/

/-- A load begins from a source, 0 the host, 1 QSPI from a byte offset of its flash (R337). -/
def beginLoad (src ofs : Nat) (cluster : Option Nat) (s : State) : State :=
  let s1 := { s with rig := { s.rig with
    st := .receiving, bytes := 0, image := [], rerig := cluster, src := src, ofs := ofs, started := tickNow s, go := false } }
  raise 32 [(1, src), (1, if cluster.isSome then 1 else 0), (1, cluster.getD 0xFF)] s1

/-- RIG_CTRL.start: a boot load from WAIT_HOST or FAILED, or from IDLE a re-rig of a cluster whose lanes carry no load (R339,
R347). -/
def rigStart (s : State) : State :=
  let src := fget s .RIG_CTRL_source
  let c := fget s .RIG_CTRL_cluster
  let ofs := 16 * fget s .RIG_QSPI_OFS_offset
  if s.boot.stage = .load then
    if s.rig.st = .waitHost ∨ s.rig.st = .failed then beginLoad src ofs none s else s
  else if s.boot.stage = .running ∧ s.rig.running ∧ s.rig.st = .idle then
    if (List.range 16).all (fun k => usedLu s (16 * c + k) == 0) then beginLoad src ofs (some c) s
    else rigFail 0x13 0x3FF { s with rig := { s.rig with bytes := 0 } }
  else s

/-! ### Receiving (R336, R337) -/

/-- The device address that staging starts at: the attics at boot, the region of purpose 7 in a re-rig (R336). -/
def stageBase (s : State) : Nat :=
  if s.rig.rerig.isNone then atticBase 0 else cellarBase + (regionBase s 7).getD 0

/-- The part of a re-rig's newly received bytes that belongs to one spar of the named cluster, staged (R339). -/
def stageSpar (cluster old : Nat) (img : Bytes) (s : State) (e : Bytes) : State :=
  let lo := max old (rowOff e)
  let hi := min img.length (rowOff e + rowLen e)
  if rowCluster e = cluster ∧ lo < hi then storeBytes (stageBase s + lo) (slice img lo (hi - lo)) s else s

/-- Where the spar table of an image ends; 128 for a count that no table has. -/
def tableEnd (b : Bytes) : Nat := if imgCount b ≤ 1023 then 128 + 80 * imgCount b else 128

/-- How many bytes of an image show its spar table: all of it, or the whole image where the table overruns it (R320, R336). -/
def tableSeen (b : Bytes) : Nat := min (tableEnd b) (imgLen b)

/-- Newly received bytes staged: all of them at boot, the named cluster's spars in a re-rig (R336, R339). -/
def stageBytes (old : Nat) (img : Bytes) (s : State) : State :=
  match s.rig.rerig with
  | none => storeBytes (stageBase s + old) (img.drop old) s
  | some c => if tableEnd img ≤ img.length then (imgEntries img).foldl (stageSpar c old img) s else s

/-- The silicon revision (R4, R506). -/
def revision (s : State) : Nat := fget s .MST_ID_revision

/-- A load whose last byte has arrived is in VERIFYING (R335, R336). -/
def wholeImage (s : State) : State :=
  if 128 ≤ s.rig.image.length ∧ s.rig.image.length = imgLen s.rig.image then { s with rig := { s.rig with st := .verifying } } else s

/-- Image bytes taken in RECEIVING, and steps 1 to 4 of Table 10 as they become possible (R336, R337). -/
def takeImage (b : Bytes) (s : State) : State :=
  if s.rig.st ≠ .receiving then s
  else
    let old := s.rig.image.length
    let all := s.rig.image ++ b
    let head := if old < 128 ∧ 128 ≤ all.length then headerCheck all (revision s) else 0
    let img := if all.length < 128 ∨ head ≠ 0 then all else all.take (imgLen all)
    let s1 := { s with rig := { s.rig with image := img, bytes := img.length } }
    if head ≠ 0 then rigFail head 0x3FF s1
    else if 128 ≤ img.length ∧ old < tableSeen img ∧ tableSeen img ≤ img.length then
      match tableCheck img with
      | some r => rigFail r.1 r.2 s1
      | none => wholeImage (stageBytes old img s1)
    else wholeImage (stageBytes old img s1)

/-- QSPI_READ (R337): bytes that the QSPI flash gives a load from it, at the place where the load has come to in the flash; a
read that fails leaves the image short. -/
def execQspiRead (data : FlashData) (ok : Bool) (s : State) : Host.Outcome State Fault Refusal :=
  .next (if s.rig.st = .receiving ∧ s.rig.src = 1 ∧ data.offset = s.rig.ofs + s.rig.image.length then
    (if ok then takeImage data.bytes s else rigFail 0x06 0x3FF s)
  else s)

/-- RIG_DATA_TIMEOUT (R336): a host load waited more than 1 s between writes. -/
def execRigDataTimeout (s : State) : Host.Outcome State Fault Refusal :=
  .next (if s.rig.st = .receiving ∧ s.rig.src = 0 then rigFail 0x06 0x3FF s else s)

/-- IMAGE_RECEIVED (R336): with the last byte there, key, signature and rollback counter are verified. -/
def execImageReceived (s : State) : Host.Outcome State Fault Refusal :=
  .next (if s.rig.st = .verifying then
    let c := signatureCheck s.boot.fuses s.rig.image
    if c ≠ 0 then rigFail c 0x3FF s else { s with rig := { s.rig with st := .checking, go := false } }
  else s)

/-! ### Checking (R336) -/

/-- Whether a spar is read from staging: every spar at boot, the named cluster's in a re-rig. -/
def isStaged (s : State) (e : Bytes) : Bool :=
  match s.rig.rerig with
  | none => true
  | some c => rowCluster e == c

/-- The bytes of a spar as the loader reads them at CHECKING and APPLYING. -/
def sparBytes (s : State) (e : Bytes) : Bytes :=
  if isStaged s e then Memory.readBytes s.mem (stageBase s + rowOff e) (rowLen e)
  else slice s.rig.image (rowOff e) (rowLen e)

/-- Step 9 for one spar: its digest, recomputed from staging (R336). -/
def digestCheck (s : State) (e : Bytes) : Nat :=
  if isStaged s e && poisoned s (stageBase s + rowOff e) (rowLen e) then 0x16
  else if sha512 (sparBytes s e) != rowDigest e then 0x0A
  else 0

/-- The bytes of the image's first spar of a type and cluster. -/
def sparOf (s : State) (t c : Nat) : Bytes :=
  match (imgEntries s.rig.image).find? (fun e => rowType e == t && rowCluster e == c) with
  | some e => sparBytes s e
  | none => []

/-- Step 10 for one spar: its fields (R322 to R334). -/
def fieldCheck (s : State) (e : Bytes) : Nat :=
  let d := sparBytes s e
  match rowType e with
  | 0x02 => clockPlanCheck d
  | 0x03 => cellarMapCheck d
  | 0x04 => queueGraphCheck d
  | 0x05 => certCheck d
  | 0x07 => ringsCheck (sparOf s 3 0xFF) d
  | 0x08 => netIdentCheck d
  | 0x09 => peersCheck d
  | 0x0A => toneSetsCheck d
  | 0x0B => pairCheck d
  | 0x0C => regInitCheck s d
  | 0x10 => laneCodeCheck d
  | 0x11 => laneLayoutCheck (sparOf s 4 0xFF) (rowCluster e) d
  | 0x12 => laneDataCheck d
  | _ => 0

/-- The first spar that a check fails, with its code. -/
def firstSpar (check : Bytes → Nat) (es : List Bytes) : Option (Nat × Nat) :=
  (List.range es.length).findSome? (fun k => if check (es.getD k []) = 0 then none else some (check (es.getD k []), k))

/-- What a re-rig compares of the spars outside its cluster: type, cluster, length, digest, in order (R339). -/
def otherSpars (c : Nat) (l : List (Nat × Nat × Nat × Bytes)) : List (Nat × Nat × Nat × Bytes) :=
  l.filter (fun x => x.2.1 != c)

/-- Step 13 of Table 10: a re-rig's image is the running image but for the named cluster (R339). -/
def clusterOnlyCheck (s : State) (c : Nat) : Nat :=
  let new := (imgEntries s.rig.image).map (fun e => (rowType e, rowCluster e, rowLen e, rowDigest e))
  let run := s.rig.spars.map (fun p => (p.type, p.cluster, p.data.length, p.digest))
  if imgRollback s.rig.image = s.rig.rollback ∧ otherSpars c new = otherSpars c run then 0 else 0x12

/-- The index of the ACCESS spar. -/
def accessIndex (es : List Bytes) : Nat := (rowsOf es 6 0xFF).headD 0x3FF

/-- Steps 9 to 13 of Table 10: the code and spar of the first failure (R336). -/
def checkImage (s : State) : Option (Nat × Nat) :=
  let es := imgEntries s.rig.image
  let layouts := (es.filter (fun e => rowType e == 0x11)).map (fun e => (rowCluster e, sparBytes s e))
  let last := [
    (certGraphCheck (sparOf s 4 0xFF) (sparOf s 5 0xFF), 0x3FF),
    (accessCheck (sparOf s 3 0xFF) (sparOf s 6 0xFF) layouts, accessIndex es),
    (match s.rig.rerig with
      | some c => clusterOnlyCheck s c
      | none => 0, 0x3FF)]
  firstSpar (digestCheck s) es <|> firstSpar (fieldCheck s) es <|> last.find? (fun r => r.1 != 0)

/-- LOADER_CHECK_DONE (R336): CHECKING ends, and the load waits to be applied or fails. -/
def execLoaderCheckDone (s : State) : Host.Outcome State Fault Refusal :=
  .next (if s.rig.st = .checking ∧ !s.rig.go then
    match checkImage s with
    | some r => rigFail r.1 r.2 s
    | none => { s with rig := { s.rig with go := true } }
  else s)

/-- RIG_CTRL.commit_rollback: the fuse count raised to the running image's counter (R341). -/
def commitRollback (s : State) : State :=
  let f := s.boot.fuses
  if s.rig.st = .idle ∧ s.rig.running ∧ f.rollback < s.rig.rollback then
    raise 35 [(4, f.rollback), (4, s.rig.rollback)]
      { s with boot := { s.boot with fuses := { f with rollback := s.rig.rollback } } }
  else s

end Sys2Proof.Machine
end

