-- ==== Sys2Proof/Machine/TimeOps.lean ====
section
/-! DEFINITION. The time island: rate and steps of corrected time (R274 to R276), tick boundaries (R277), the servo (R285
to R289). -/

namespace Sys2Proof.Machine

/-- The rate term floor(c * r / 2^24) of corrected time, in units of 2^-16 ns (R274). -/
def rateTerm (c : Nat) (r : Int) : Int := (c : Int) * r / 16777216

/-- A number of units added to the offset O, its seconds modulo 2^48 (R274). -/
def addOfs (o : Nat) (d : Int) : Nat := (((o : Int) + d) % ((2 ^ 48 * unitsPerSec : Nat) : Int)).toNat

/-- A change of rate: O takes up the difference, so that corrected time does not jump (R274). -/
def setRate (r : BitVec 32) (s : State) : State :=
  let t := s.time
  let c := t.counter.toNat
  let d := rateTerm c t.r.toInt - rateTerm c r.toInt
  { s with time := { t with r := r, ofs := addOfs t.ofs d, plain := t.plain + d } }

/-- A step of corrected time by a number of nanoseconds: event 233 with cause 0 accept or 1 host step (R275). -/
def stepTime (ns : Int) (cause : Nat) (s : State) : State :=
  let t := s.time
  let c := t.counter.toNat
  let s1 := { s with time := { t with
    ofs := addOfs t.ofs (ns * 65536), stepAt := some c
    stepSum := (if t.stepAt = some c then t.stepSum else 0) + ns * 65536 } }
  raise 233 [(8, ofSigned 64 ns), (1, cause)] s1

/-- A capture of the counter, corrected time and tick number (R276). -/
def capture (s : State) : State :=
  let T := correctedTime s.time
  let c := s.time.counter.toNat
  let sec := T / unitsPerSec
  [(RegId.TIM_SNAP_CNT_LO, c % 2 ^ 32), (.TIM_SNAP_CNT_HI, c / 2 ^ 32), (.TIM_SNAP_SEC_LO, sec % 2 ^ 32),
   (.TIM_SNAP_SEC_HI, sec / 2 ^ 32), (.TIM_SNAP_NS, T / 65536 % 1000000000), (.TIM_SNAP_FRAC, T % 65536),
   (.TIM_SNAP_TICK_LO, tickNow s % 2 ^ 32), (.TIM_SNAP_TICK_HI, tickNow s / 2 ^ 32)].foldl
    (fun s p => setWord (RegId.addr p.1) p.2 s) s

/-! ### Tick boundaries (R277) -/

/-- Corrected time that has not been stepped, in units of 2^-16 ns. -/
def unstepped (t : Time) (c : Nat) : Int := t.plain + (c : Int) * 65536 + rateTerm c t.r.toInt

/-- The counter value at which unstepped corrected time reaches the next boundary. -/
def boundaryCount (t : Time) : Nat :=
  let x : Int := t.next - t.plain
  let d : Int := 1099511627776 + t.r.toInt
  max t.counter.toNat ((x * 16777216 + d - 1) / d).toNat

/-- The phase error at an instant: its distance in ns from the nearest whole millisecond, positive when late (R277). -/
def phaseError (T : Nat) : Int :=
  let x : Int := (T / 65536 % 1000000 : Nat)
  if x ≤ 500000 then x else x - 1000000

/-- The time of an instant as it was before the steps applied in its cycle (R292). -/
def beforeStep (t : Time) : Time := if t.stepAt = some t.counter.toNat then { t with ofs := addOfs t.ofs (-t.stepSum) } else t

/-- The tick boundary of the time island: the counter comes to it, φ is measured, before a step of its cycle, the new tick gets
its length and the next number (R24, R277, R292). -/
def tickTime (s : State) : State :=
  let t := { s.time with counter := BitVec.ofNat 64 (boundaryCount s.time) }
  let at_ := correctedTime (beforeStep t)
  let phi := phaseError at_
  let lim : Int := fget s .TIM_TICK_CTRL_slew_ns
  let sl := max (-lim) (min lim phi)
  passVid (t.counter - s.time.counter).toNat
    { s with time := { t with
      tick := t.tick + 1, began := at_ / 65536, beganAt := t.counter.toNat, phi := phi
      next := t.next + (1000000 - sl) * 65536 } }

/-- One nanosecond, never past the next boundary: what the block does when no command waits (log entry 2). The counter of the
time island stands while the island is in reset (R273). -/
def idleTick (s : State) : State :=
  if inReset s then passVid 1 s
  else if unstepped s.time (s.time.counter.toNat + 1) ≤ s.time.next then
    passVid 1 { s with time := { s.time with counter := s.time.counter + 1 } }
  else s

/-! ### The servo (R285 to R289) -/

/-- The number of a servo state. -/
def ServoState.code : ServoState → Nat
  | .idle => 0 | .freeRun => 1 | .locking => 2 | .locked => 3 | .holdover => 4

/-- The servo in a state: event 234 on a change (R288). -/
def setServo (st : ServoState) (cause : Nat) (s : State) : State :=
  let old := s.time.srv
  let s1 := { s with time := { s.time with srv := st, cause := cause } }
  if old = st then s1 else raise 234 [(1, old.code), (1, st.code), (1, cause)] s1

/-- Entry into HOLDOVER with a cause: r takes the integral term and is held; cause 4 outranks the others (R288, R289). -/
def enterHoldover (cause : Nat) (s : State) : State :=
  if s.time.srv = .idle then s
  else if s.time.srv = .holdover then
    if s.time.cause = 4 then s else { s with time := { s.time with cause := cause, resumed := false } }
  else
    let s1 := setRate (BitVec.ofInt 32 s.time.i) s
    setServo .holdover cause { s1 with time := { s1.time with
      near := 0, far := 0, limited := false, hold := false, resumed := false } }

/-- A value restricted to ±(2^31 - 1) (R287). -/
def limit31 (v : Int) : Int := max (-2147483647) (min 2147483647 v)

/-- The servo's state after an applied sample (R288). -/
def servoAfter (theta : Int) (s : State) : State :=
  let small := decide (theta.natAbs ≤ 1000)
  let near := if small then s.time.near + 1 else 0
  let far := if small then 0 else s.time.far + 1
  let s1 := { s with time := { s.time with near := near, far := far, resumed := false } }
  match s.time.srv with
  | .freeRun => setServo .locking 0 s1
  | .holdover => setServo .locking 0 s1
  | .locking => if 16 ≤ near then setServo .locked 0 s1 else s1
  | .locked => if 4 ≤ far then setServo .locking 0 { s1 with time := { s1.time with far := 0 } } else s1
  | .idle => s1

/-- An offset sample applied to the PI loop (R287). -/
def applyOffset (theta : Int) (s : State) : State :=
  let kp : Int := fget s .TIM_SERVO_GAIN_kp
  let ki : Int := fget s .TIM_SERVO_GAIN_ki
  let i := limit31 (s.time.i + ki * theta)
  let r := -(kp * theta + i)
  let lim := decide (limit31 r ≠ r)
  let was := s.time.limited
  let s1 := setRate (BitVec.ofInt 32 (limit31 r)) { s with time := { s.time with i := i, limited := lim, last := theta } }
  let s2 := if lim && !was then raise 238 [(8, ofSigned 64 theta), (4, ofSigned 32 i)] s1 else s1
  servoAfter theta (fbump .TIM_SERVO_COUNT_applied 1 s2)

/-- An offset sample that is used: refused as a jump, or applied unless HOLDOVER holds it off (R286, R287, R288). -/
def offsetSample (theta : Int) (s : State) : State :=
  if theta.natAbs > fget s .TIM_JUMP_THR_ns then
    let had := s.time.pend.isSome
    let s1 := fbump .TIM_SERVO_COUNT_refused 1 { s with time := { s.time with pend := some theta } }
    if had then s1 else raise 232 [(8, ofSigned 64 theta), (1, fget s .TIM_SERVO_CTRL_source)] s1
  else
    let s1 := { s with time := { s.time with pend := none } }
    match s.time.srv with
    | .idle => s1
    | .holdover => if s.time.cause = 1 ∨ (s.time.cause ≠ 4 ∧ s.time.resumed) then applyOffset theta s1 else s1
    | _ => applyOffset theta s1

/-- A path-delay sample: the first sets d_f, one within the threshold moves it by a sixteenth, an outlier counts, and the
fourth in a row puts the servo into HOLDOVER with cause 2 (R285). -/
def pathSample (d : Int) (s : State) : State :=
  match s.time.df with
  | none => { s with time := { s.time with df := some d, pathOk := true, outl := 0 } }
  | some f =>
    if (d - f).natAbs ≤ fget s .TIM_ASYM_THR_ns then
      { s with time := { s.time with df := some (f + (d - f) / 16), pathOk := true, outl := 0 } }
    else
      let n := s.time.outl + 1
      let s1 := fbump .TIM_SERVO_COUNT_outliers 1 { s with time := { s.time with pathOk := false, outl := n } }
      if n < 4 then s1
      else
        let s2 := enterHoldover 2 { s1 with time := { s1.time with df := some d, outl := 0 } }
        raise 235 [(8, ofSigned 64 f), (8, ofSigned 64 d)] s2

/-- Whether an instant, by its counter value, came before the latest step; one of the same cycle did (R285, R292). -/
def beforeJump (s : State) (count : Nat) : Bool := s.time.stepAt.any (fun c => decide (count ≤ c))

/-- A (t1, t2) pair from the PTP engine, t2 stamped at a counter value: the offset sample it gives, used when the latest
path-delay sample was accepted and t2 came after the latest step (R285). -/
def syncPair (t1 t2 : Int) (count : Nat) (s : State) : State :=
  let s1 := { s with time := { s.time with t12 := some (t1, t2), t12Count := count } }
  match s.time.df with
  | none => s1
  | some f =>
    if !s.time.pathOk || beforeJump s count then s1
    else offsetSample (t2 - t1 - f - asSigned 32 (fget s .TIM_ASYM_asym)) s1

/-- A (t3, t4) pair from the PTP engine: with the latest (t1, t2) it gives a path-delay sample, discarded where that t2 came
before the latest step (R285). -/
def delayPair (t3 t4 : Int) (s : State) : State :=
  match s.time.t12 with
  | some (t1, t2) => if beforeJump s s.time.t12Count then s else pathSample (((t2 - t1) + (t4 - t3)) / 2) s
  | none => s

/-- Whether the servo runs on a source: 0 the PTP engine, 1 the host (R285). -/
def servoOn (s : State) (source : Nat) : Bool :=
  fbit s .TIM_SERVO_CTRL_enable && fget s .TIM_SERVO_CTRL_source == source

/-- A host push: the path delay where flagged, then θ itself; one in the cycle of a step came before it (R285, R292). -/
def hostSample (pd : Bool) (s : State) : State :=
  if servoOn s 1 && !beforeJump s s.time.counter.toNat then
    let s1 := if pd then pathSample (fget s .TIM_HOST_PD_NS_ns) s else s
    let theta := asSigned 32 (fget s .TIM_HOST_OFS_SEC_sec) * 1000000000 + (fget s .TIM_HOST_OFS_NS_ns : Int)
    if s1.time.df.isSome && !s1.time.pathOk then s1 else offsetSample theta s1
  else s

/-- The servo as TIM_SERVO_CTRL leaves it: enable starts FREE_RUN with d_f cleared, disable goes IDLE, a change of source
clears d_f and returns to FREE_RUN (R285, R288, R292). -/
def servoCtrl (oldSource : Nat) (s : State) : State :=
  let clear := { s with time := { s.time with
    df := none, pathOk := false, outl := 0, near := 0, far := 0, t12 := none, resumed := false } }
  if !fbit s .TIM_SERVO_CTRL_enable then
    if s.time.srv = .idle then s else setServo .idle 0 s
  else if s.time.srv = .idle then setServo .freeRun 0 { clear with time := { clear.time with i := 0 } }
  else if fget s .TIM_SERVO_CTRL_source = oldSource then s
  else if s.time.srv = .holdover then clear
  else setServo .freeRun 0 clear

/-- TIM_SERVO_CMD.accept: a step by -θ of the stored jump (R286). -/
def acceptJump (s : State) : State :=
  match s.time.pend with
  | none => s
  | some theta => stepTime (-theta) 0 { s with time := { s.time with pend := none } }

/-- TIM_SERVO_CMD.step: the host step (R275). -/
def hostStep (s : State) : State :=
  stepTime (asSigned 32 (fget s .TIM_STEP_SEC_sec) * 1000000000 + (fget s .TIM_STEP_NS_ns : Int)) 1 s

/-- TIM_SERVO_CMD.resume in HOLDOVER with cause 2 or 3 (R289). -/
def servoResume (s : State) : State :=
  if s.time.srv = .holdover ∧ (s.time.cause = 2 ∨ s.time.cause = 3) then
    { s with time := { s.time with df := none, pathOk := false, outl := 0, resumed := true } }
  else s

/-- TIM_SERVO_CMD.hold: HOLDOVER with cause 3, or recorded while the cause is 4 (R289). -/
def servoHold (s : State) : State :=
  if s.time.srv = .holdover ∧ s.time.cause = 4 then { s with time := { s.time with hold := true } }
  else enterHoldover 3 s

/-- A write of TIM_SERVO_CMD: resume and hold, then the accepted step before the host step (R292). -/
def servoCmd (v : Nat) (s : State) : State :=
  let s1 := if bitsOf v 2 2 = 1 then servoResume s else s
  let s2 := if bitsOf v 3 3 = 1 then servoHold s1 else s1
  let s3 := if bitsOf v 0 0 = 1 then acceptJump s2 else s2
  if bitsOf v 1 1 = 1 then hostStep s3 else s3

/-- Reef entry's HOLDOVER with cause 4 (R289). -/
def reefHoldover (s : State) : State :=
  if s.time.srv = .holdover then { s with time := { s.time with cause := 4, hold := false, resumed := false } }
  else enterHoldover 4 s

/-- Reef exit: a recorded hold keeps HOLDOVER with cause 3, otherwise LOCKING (R288, R289). -/
def reefRelease (s : State) : State :=
  if s.time.srv = .holdover ∧ s.time.cause = 4 then
    if s.time.hold then { s with time := { s.time with cause := 3, hold := false, resumed := false } }
    else setServo .locking 0 s
  else s

end Sys2Proof.Machine
end

