-- ==== Sys2Proof/Machine/Ptp.lean ====
section
/-! DEFINITION. The PTP engine of the slave port and the transparent clock (R281 to R284). The layouts of PTP messages and
the comparison of the BMCA are those of IEEE 1588 (log entry 60). -/

namespace Sys2Proof.Machine

/-! ### Messages -/

/-- The transport of a frame that carries a PTP message: 0 Ethernet, 1 UDP over IPv4, 2 UDP over IPv6 (R281, R294). -/
def ptpTransport (f : Bytes) : Nat := if frameEt f = 0x88F7 then 0 else if frameEt f = 0x0800 then 1 else 2
/-- The message type of a PTP message. -/
def ptpType (m : Bytes) : Nat := leAt m 0 1 % 16
/-- The identity of the sending port: clockIdentity and port number. -/
def ptpSource (m : Bytes) : Bytes := slice m 20 10
/-- The sequenceId of a message. -/
def ptpSeq (m : Bytes) : Nat := beAt m 30 2
/-- The correctionField, in units of 2^-16 ns. -/
def ptpCorrection (m : Bytes) : Int := asSigned 64 (beAt m 8 8)
/-- The timestamp of a message's body, in units of 2^-16 ns. -/
def ptpStamp (m : Bytes) : Int := ((beAt m 34 6 * 1000000000 + beAt m 40 4) * 65536 : Nat)
/-- The Pdelay messages: Pdelay_Req, Pdelay_Resp, Pdelay_Resp_Follow_Up (R283). -/
def isPdelay (m : Bytes) : Bool := [2, 3, 10].contains (ptpType m)

/-- The port that the engine serves. -/
def ptpPort (s : State) : Nat := fget s .TIM_PTP_CTRL_port
/-- The engine's own clockIdentity, formed from its port's address (log entry 60). -/
def ptpIdentity (s : State) : Bytes :=
  let mac := portMac s (ptpPort s)
  mac.take 3 ++ [0xFF, 0xFE] ++ mac.drop 3
/-- The engine's own port identity. -/
def ptpSelf (s : State) : Bytes := ptpIdentity s ++ [0, 1]

/-- Whether a frame has a destination address of its PTP transport (R281, Table 4). -/
def ptpDest (f : Bytes) : Bool :=
  let p := f.drop (frameOff f)
  match ptpTransport f with
  | 0 => [[1, 0x1B, 0x19, 0, 0, 0], [1, 0x80, 0xC2, 0, 0, 0x0E]].contains (f.take 6)
  | 1 => slice p 16 4 == [224, 0, 1, 129]
  | _ => slice p 24 16 == [0xFF, 0x0E] ++ zeros 12 ++ [1, 0x81]

/-- The types of the TLVs behind a message's body. -/
def tlvTypes : Nat → Bytes → List Nat
  | 0, _ => []
  | fuel + 1, b => if b.length < 4 then [] else beAt b 0 2 :: tlvTypes fuel (b.drop (4 + beAt b 2 2))
/-- The TLVs of a message: the type of each. -/
def ptpTlvs (m : Bytes) : List Nat :=
  let body := if ptpType m = 11 then 64 else if ptpType m = 9 then 54 else 44
  tlvTypes m.length ((m.take (beAt m 2 2)).drop body)

/-- The messages of options that Table 4 excludes beside Pdelay: signalling, which carries unicast negotiation, management, and
those with a security or alternate-timescale TLV (R281; log entry 60). -/
def ptpExcluded (m : Bytes) : Bool :=
  let t := ptpType m
  t == 12 || t == 13 || (ptpTlvs m).any (fun x => x == 0x8009 || x == 9)

/-- Whether a frame's message is the engine's: its port, domain and transport, sent to an address of that transport (R281 to
R283). -/
def forEngine (s : State) (port : Nat) (f : Bytes) : Bool :=
  match ptpOff f with
  | none => false
  | some o =>
    fbit s .TIM_PTP_CTRL_enable && ptpPort s == port && ptpTransport f == fget s .TIM_PTP_CTRL_transport &&
      ptpDest f && leAt f (o + 4) 1 == fget s .TIM_PTP_CTRL_domain

/-! ### Port state and parent (R282) -/

/-- The engine in a port state: event 236 on a change (R293). -/
def setPtp (st : Nat) (s : State) : State :=
  if s.time.ptp = st then s
  else raise 236 [(1, s.time.ptp), (1, st)] { s with time := { s.time with ptp := st } }

/-- The engine with nothing learnt, in a port state: what TIM_PTP_CTRL leaves when it enables, disables or re-aims it. -/
def resetPtp (st : Nat) (s : State) : State :=
  setPtp st { s with time := { s.time with best := none, sync := none, t3 := none, foreign := [], dreqLog := 0 } }

/-- Whether the mast firmware runs, and with it the PTP engine (R281). -/
def firmwareRuns (s : State) : Bool := s.mast.fw && !s.mast.down

/-- The state of an engine that follows no parent: INITIALIZING until the firmware runs, DISABLED on a port that is not enabled,
FAULTY while its link is down, else LISTENING (R282; log entry 60). -/
def ptpIdle (s : State) : Nat :=
  if !firmwareRuns s then 1 else if !fbit s .TMC_CTRL_enable (ptpPort s) then 3 else if !(portAt s (ptpPort s)).link then 2 else 4

/-- An engine that follows no parent after a change of the firmware, the port or the link: its port state changes with it (R282).
-/
def ptpFollow (s : State) : State :=
  if fbit s .TIM_PTP_CTRL_enable && decide (s.time.ptp < 8) && s.time.ptp != ptpIdle s then resetPtp (ptpIdle s) s else s

/-- PORT_LINK_UP (R226). -/
def execPortLinkUp (port : Fin 2) (s : State) : Host.Outcome State Fault Refusal := .next (ptpFollow (linkUp port s))
/-- PORT_LINK_DOWN (R226). -/
def execPortLinkDown (fall : LinkFall) (s : State) : Host.Outcome State Fault Refusal :=
  .next (ptpFollow (linkFails fall.port fall.fault s))

/-- TIM_PTP_CTRL written: the engine starts where it is enabled or its port, transport or domain has changed, and is off where it
is not enabled (R282, R294). -/
def ptpCtrl (old : Nat) (s : State) : State :=
  let new := regWord s (RegId.addr .TIM_PTP_CTRL)
  let key := fun (w : Nat) => (bitsOf w 31 28, bitsOf w 7 0)
  if !fbit s .TIM_PTP_CTRL_enable then (if s.time.ptp = 0 then s else resetPtp 0 s)
  else if key old = key new then s
  else resetPtp (ptpIdle s) s

/-- A foreign master's window of four announce intervals, in ticks. -/
def announceWindow (m : Bytes) : Nat :=
  let l := asSigned 8 (leAt m 33 1)
  if 0 ≤ l then 4000 * 2 ^ l.toNat else 4000 / 2 ^ (-l).toNat

/-- Whether a foreign master is qualified: two of its Announce messages came within the window. -/
def Foreign.qualified (f : Foreign) (now : Nat) : Bool :=
  match f.prev with
  | some p => decide (f.last - p ≤ announceWindow f.data) && decide (now - f.last ≤ announceWindow f.data)
  | none => false

/-- Whether the first Announce message is better than the second under the data set comparison of the BMCA: priority1,
class, accuracy, variance, priority2 and identity of the grandmaster in turn, or for one grandmaster the steps removed and
then the sender. -/
def announceBetter (a b : Bytes) : Bool :=
  if slice a 53 8 = slice b 53 8 then
    if beAt a 61 2 = beAt b 61 2 then decide (beNat (ptpSource a) < beNat (ptpSource b))
    else decide (beAt a 61 2 < beAt b 61 2)
  else decide (beAt a 47 14 < beAt b 47 14)

/-- The best of the qualified foreign masters. -/
def bestForeign (l : List Foreign) (now : Nat) : Option Bytes :=
  l.foldl (fun best f =>
    if f.qualified now then
      match best with
      | none => some f.data
      | some b => if announceBetter f.data b then some f.data else best
    else best) none

/-- The selection of the parent: a change of sender makes the port UNCALIBRATED, and a change of clock raises event 237
(R282). -/
def selectParent (s : State) : State :=
  match bestForeign s.time.foreign (tickNow s) with
  | none => s
  | some b =>
    let same := s.time.best.map ptpSource == some (ptpSource b)
    let id := BitVec.ofNat 64 (beAt b 20 8)
    let s1 := { s with time := { s.time with best := some b } }
    if same then s1
    else
      let s2 := { s1 with time := { s1.time with sync := none, t3 := none, parent := id } }
      let s3 := if s.time.parent = id then s2 else raise 237 [(8, id.toNat)] s2
      setPtp 8 s3

/-- The record of a foreign master with one more Announce message. -/
def Foreign.heard (m : Bytes) (now : Nat) : List Foreign → List Foreign
  | [] => [{ data := m, last := now, prev := none }]
  | f :: t =>
    if ptpSource f.data = ptpSource m then { data := m, last := now, prev := some f.last } :: t
    else f :: Foreign.heard m now t

/-- An Announce message received: recorded unless it is the engine's own or 255 steps removed, then the parent selected
(R282). -/
def takeAnnounce (m : Bytes) (s : State) : State :=
  if m.length < 64 ∨ ptpSource m = ptpSelf s ∨ 255 ≤ beAt m 61 2 then s
  else selectParent { s with time := { s.time with foreign := Foreign.heard m (tickNow s) s.time.foreign } }

/-- Whether a message comes from the parent. -/
def fromParent (s : State) (m : Bytes) : Bool := s.time.best.map ptpSource == some (ptpSource m)

/-! ### Sync and delay exchanges (R282, R285) -/

/-- A Sync passed to the servo as a pair, all in units of 2^-16 ns, t2 stamped at a counter value; the first one makes the
port SLAVE (R282). -/
def passSync (t1 t2 : Int) (count : Nat) (s : State) : State :=
  let s1 := fbump .TIM_PTP_COUNT_sync_rx 1 s
  let s2 := if s1.time.ptp = 8 then setPtp 9 s1 else s1
  if servoOn s2 0 then syncPair (t1 / 65536) (t2 / 65536) (count / 65536) s2 else s2

/-- A Sync from the parent: its pair now where it is one-step, after its Follow_Up where it is two-step (R282). -/
def takeSync (m : Bytes) (stamp count : Nat) (s : State) : State :=
  if leAt m 6 1 / 2 % 2 = 1 then
    { s with time := { s.time with sync := some (ptpSeq m, stamp, ptpCorrection m), syncCount := count } }
  else passSync (ptpStamp m + ptpCorrection m) stamp count { s with time := { s.time with sync := none } }

/-- The Follow_Up of the Sync that waits for it (R282). -/
def takeFollowUp (m : Bytes) (s : State) : State :=
  match s.time.sync with
  | some (seq, t2, corr) =>
    if seq = ptpSeq m then
      passSync (ptpStamp m + corr + ptpCorrection m) t2 s.time.syncCount { s with time := { s.time with sync := none } }
    else s
  | none => s

/-- A Delay_Resp to the engine's Delay_Req: the exchange passed as (t3, t4) with the latest (t1, t2) (R282, R285). -/
def takeDelayResp (m : Bytes) (s : State) : State :=
  match s.time.t3 with
  | some (seq, t3) =>
    if slice m 44 10 = ptpSelf s ∧ seq = ptpSeq m then
      let t4 := (ptpStamp m - ptpCorrection m) / 65536
      let s1 := { s with time := { s.time with t3 := none, dreqLog := asSigned 8 (leAt m 33 1) } }
      if servoOn s1 0 then delayPair t3 t4 s1 else s1
    else s
  | none => s

/-- A message of the engine's port, domain and transport; a faulty or disabled port heeds none (R281, R282). -/
def engineMessage (m : Bytes) (stamp count : Nat) (s : State) : State :=
  let t := ptpType m
  let slave := decide (8 ≤ s.time.ptp)
  if isPdelay m then raiseCounting 239 0 [] (fbump .TIM_TC_COUNT_dropped 1 s)
  else if ptpExcluded m then fbump .TIM_PTP_COUNT_discarded 1 s
  else if s.time.ptp < 4 then s
  else if t = 11 then takeAnnounce m s
  else if !slave || !fromParent s m then s
  else if t = 0 then takeSync m stamp count s
  else if t = 8 then takeFollowUp m s
  else if t = 9 then takeDelayResp m s
  else s

/-- PTP_RECEIVE (R282): the engine takes the head frame of a port's timing queue, once the transparent clock has had it. -/
def execPtpReceive (port : Fin 2) (s : State) : Host.Outcome State Fault Refusal :=
  .next (match (tget (portAt s port).rx 8 []).head? with
    | none => s
    | some f =>
      if !firmwareRuns s || (fbit s .TIM_PTP_CTRL_tc_enable && !f.fwd) then s
      else
        let s1 := takeRx port 8 f s
        if forEngine s port f.bytes then
          engineMessage (f.bytes.drop ((ptpOff f.bytes).getD 0)) (stampValue f.stamp) f.count s1
        else s1)

/-- The Delay_Req message, of version 2.1 as the 2019 edition numbers it (R281, R282). -/
def delayReq (s : State) : Bytes :=
  [1, 0x12] ++ toBe 2 44 ++ [BitVec.ofNat 8 (fget s .TIM_PTP_CTRL_domain), 0] ++ zeros 2 ++ zeros 8 ++ zeros 4 ++ ptpSelf s ++
    toBe 2 s.time.dreqSeq ++ [1, 0x7F] ++ zeros 10

/-- The frame that carries a PTP event message from the engine's port (R281, R294). -/
def ptpFrame (m : Bytes) (s : State) : Bytes :=
  let r := identRec s (ptpPort s)
  let mac := portMac s (ptpPort s)
  let tci := beAt r 6 2
  let t := fget s .TIM_PTP_CTRL_transport
  if t = 0 then
    ethHead (if fbit s .TIM_PTP_CTRL_eth_da then [1, 0x80, 0xC2, 0, 0, 0x0E] else [1, 0x1B, 0x19, 0, 0, 0]) mac tci
      0x88F7 ++ m
  else if t = 1 then
    udpFrame s.free [1, 0, 0x5E, 0, 1, 0x81] mac tci false (slice r 8 4) [224, 0, 1, 129] 319 319 m
  else
    udpFrame s.free [0x33, 0x33, 0, 0, 1, 0x81] mac tci true (slice r 12 16) ([0xFF, 0x0E] ++ zeros 12 ++ [1, 0x81]) 319
      319 m

/-- DELAY_REQ_SEND (R282): a Delay_Req enters the egress queue of PTP while the engine follows a parent. -/
def execDelayReqSend (s : State) : Host.Outcome State Fault Refusal :=
  .next (if firmwareRuns s && decide (8 ≤ s.time.ptp) then
    let f : TxFrame := { bytes := ptpFrame (delayReq s) s, source := 3 }
    let s1 := pushTx (ptpPort s) (txQueue s (ptpPort s) 3 0) f s
    draw { s1 with time := { s1.time with dreqSeq := (s1.time.dreqSeq + 1) % 65536 } }
  else s)

/-- ANNOUNCE_TIMEOUT (R282): the engine leaves SLAVE, the parent's record is dropped and the servo is put into HOLDOVER with
cause 1; the cause 4 of reefed mode outranks it (R289). -/
def execAnnounceTimeout (s : State) : Host.Outcome State Fault Refusal :=
  .next (if firmwareRuns s && decide (8 ≤ s.time.ptp) then
    let keep := s.time.foreign.filter (fun f => !fromParent s f.data)
    enterHoldover 1 (setPtp (ptpIdle s)
      { s with time := { s.time with foreign := keep, best := none, sync := none, t3 := none } })
  else s)

/-! ### The transparent clock (R283) -/

/-- The first frame of a list that the transparent clock has not had, removed, or marked where the engine also takes it. -/
def markForwarded (keep : Bytes → Bool) : List RxFrame → List RxFrame
  | [] => []
  | f :: t =>
    if f.fwd then f :: markForwarded keep t
    else if keep f.bytes then { f with fwd := true } :: t
    else t

/-- A frame forwarded by the transparent clock to the other port's PTP queue (R283). -/
def forwardPtp (port : Nat) (f : RxFrame) (s : State) : State :=
  let other := 1 - port
  let t : TxFrame := { bytes := f.bytes, source := 3, from_ := some f.count }
  fbump .TIM_TC_COUNT_forwarded 1 (pushTx other (txQueue s other 3 0) t s)

/-- TC_FORWARD (R283): the transparent clock takes the next frame of a port's timing queue, and forwards it or drops a
Pdelay message; a frame that carries no PTP message, which a filter steered there, it neither forwards nor counts. -/
def execTcForward (port : Fin 2) (s : State) : Host.Outcome State Fault Refusal :=
  .next (if !fbit s .TIM_PTP_CTRL_tc_enable then s
    else
      let p := portAt s port
      let ring := tget p.rx 8 []
      match ring.find? (fun f => !f.fwd) with
      | none => s
      | some f =>
        let ptp := (ptpOff f.bytes).isSome
        let pd := isPdelay (f.bytes.drop ((ptpOff f.bytes).getD 0))
        let keep := fun b => forEngine s port b && !pd
        let freed := if keep f.bytes then 0 else f.bufs
        let s1 := putPort port { p with
          rx := tset p.rx 8 (markForwarded keep ring), used := tset p.used 8 (tget p.used 8 0 - freed) } s
        if !ptp then s1
        else if pd then raiseCounting 239 0 [] (fbump .TIM_TC_COUNT_dropped 1 s1)
        else forwardPtp port f s1)

end Sys2Proof.Machine
end

