-- ==== Sys2Proof/Machine/Boot.lean ====
section
/-! DEFINITION. Reset, the boot stages, the identity key, the keys that sign images, measurements and attestation (R345 to
R355, R472, R476, R491). -/

namespace Sys2Proof.Machine

/-! ### Reset (R345, R476, R491) -/

/-- VID leaves its code for another: the code left counts for the VDD monitor for 1 ms more (R386, R474). -/
def setVid (v : BitVec 4) (s : State) : State :=
  if s.age.vid = v then s
  else { s with
    age := { s.age with vid := v }
    supply := { s.supply with past := s.supply.past ++ [(s.age.vid, 1000000)] } }

/-- What a reset leaves: everything at its reset value but the fuses, the provisional ID, the supply monitors, PWR_SEQ, the
code that VID left for its reset value, the boundary scan, the contents of the memories, and what is the model's own (log
entry 74). -/
def resetDevice (cause : Nat) (s : State) : State :=
  let t : State := { State.reset with
    pending := s.pending
    free := s.free
    mem := s.mem
    poison := s.poison
    jtag := s.jtag
    supply := (setVid 5 s).supply
    sysLost := s.sysLost }
  let keep := fun (a : Nat) (t : State) => setWord a (regWord s a) t
  let t1 := keep (RegId.addr .PWR_SEQ) (keep (RegId.addr .PWR_MON) t)
  let t2 := fset .PWR_RESET_cause cause t1
  { t2 with
    host := { t2.host with pid := s.host.pid }
    boot := { t2.boot with fuses := s.boot.fuses, held := s.boot.held, sel := s.boot.sel } }

/-- The lanes' data memory cleared as the cluster islands leave reset (R79). -/
def clearLanes (s : State) : State := (List.range 128).foldl (fun s l => clearRange (laneBase l) 0x80000 s) s

/-- HST_FAULT.supply as the monitors report it (R385, R473). -/
def showSupply (s : State) : State := fset .HST_FAULT_supply (if s.supply.out = 0 then 0 else 1) s

/-- The islands leave reset: BOOT_SEL sampled, the provisional ID drawn, lane data memory cleared, what the supply monitors
report shown again, and the boot stages begun: stage SUPPLY (R79, R345, R346, R371, R385). -/
def startBoot (sel : BitVec 2) (s : State) : State :=
  let s1 := draw <| clearLanes { s with
    boot := { s.boot with sel := sel, stage := .supply }
    host := { s.host with pid := Config.freeWord s.free } }
  let s2 := noteIbi (showSupply s1)
  if sel = 3 then raise 47 [(4, 3)] s2 else s2

/-- RESET_ASSERT (R345): RESET_N falls. -/
def execResetAssert (s : State) : Host.Outcome State Fault Refusal :=
  .next (resetDevice 1 { s with boot := { s.boot with held := true } })

/-- RESET_RELEASE (R345, R346, R469): RESET_N rises, VID drives, and with SYSCLK running the boot stages begin. -/
def execResetRelease (bootSel : BitVec 2) (s : State) : Host.Outcome State Fault Refusal :=
  .next (if s.boot.held then
    let s1 := { s with
      boot := { s.boot with held := false, sel := bootSel }
      supply := { s.supply with vidDrives := true } }
    if s.sysLost then s1 else startBoot bootSel s1
  else s)

/-- SYSCLK_LOSS (R476): the device behaves as if RESET_N were low. -/
def execSysclkLoss (s : State) : Host.Outcome State Fault Refusal :=
  .next (resetDevice 2 { s with sysLost := true })

/-- SYSCLK_RETURN (R476): the boot stages run as after a release of RESET_N. -/
def execSysclkReturn (bootSel : BitVec 2) (s : State) : Host.Outcome State Fault Refusal :=
  .next (if s.sysLost then
    let s1 := { s with sysLost := false }
    if s.boot.held then s1 else startBoot bootSel s1
  else s)

/-! ### The identity key (R350, R351) -/

/-- A seed drawn from the random source. -/
def seedDraw (n : Nat) : BitVec 640 := BitVec.ofNat 640 (leNat ((List.range 80).map (Config.freeByte n)))

/-- A seed in use: the identity key stands (R350). -/
def useSeed (b : Nat) (s : State) : State := { s with boot := { s.boot with idOk := true, seed := b } }
/-- An identity fault: 0 the health tests, 1 the seeds exhausted (R351). -/
def identityFault (cause : Nat) (s : State) : State := raise 44 [(1, cause)] { s with boot := { s.boot with idOk := false } }

/-- The fuses with seed A (0) or B (1) blown, and its valid bit where the read-back agrees. -/
def blownSeed (b : Nat) (v : BitVec 640) (ok : Bool) (f : Fuses) : Fuses :=
  if b = 0 then { f with seedA := v, validA := ok } else { f with seedB := v, validB := ok }

/-- Generation in one seed: its bits blown and read back, the valid bit blown only when they agree (R350). A read-back that
differs leaves bits that nothing names. -/
def generateSeed (b : Nat) (ok : Bool) (s : State) : State :=
  let v := seedDraw (if ok then s.free else s.free + 1)
  let s1 := draw (draw { s with boot := { s.boot with fuses := blownSeed b v ok s.boot.fuses } })
  if ok then raise 43 [(1, b)] (useSeed b s1) else s1

/-- Generation tried once more, in seed B, where it still reads unblown, after a read-back that differed (R350, R351). -/
def retryIdentity (ok : Bool) (s : State) : State :=
  if s.boot.fuses.seedB ≠ 0 then identityFault 1 s
  else if ok then generateSeed 1 true s
  else identityFault 1 (generateSeed 1 false s)

/-- The IDENTITY stage: whether the random source passes its health tests, and whether the read-backs of the first and of the
second generation would agree (R350, R351). -/
def identityStage (healthy first second : Bool) (s : State) : State :=
  let f := s.boot.fuses
  if f.validA then useSeed 0 s
  else if f.validB then useSeed 1 s
  else if !healthy then identityFault 0 s
  else if f.seedA = 0 then
    if first then generateSeed 0 true s else retryIdentity second (generateSeed 0 false s)
  else if f.seedB = 0 then
    if first then generateSeed 1 true s else retryIdentity second (generateSeed 1 false s)
  else identityFault 1 s

/-! ### The boot stages (R345, Table 3) -/

/-- Stage ROM passed: M0 taken, mast memory and the attics cleared (R345, Table 3). -/
def measureRom (s : State) : State :=
  clearRange (atticBase 0) 0x02000000 { s with
    boot := { s.boot with m0 := sha512 Config.rom }
    mast := { s.mast with mem := [] } }

/-- Stage LOAD entered: the boot load that BOOT_SEL selects (R346, Table 1). -/
def enterLoad (s : State) : State :=
  let s1 := { s with boot := { s.boot with stage := .load } }
  if s.boot.sel = 0 ∨ s.boot.sel = 1 then beginLoad 1 0 none s1
  else { s1 with rig := { s1.rig with st := .waitHost } }

/-- BOOT_SUPPLY_READY (R345): stages FUSES, ROM and IDENTITY run, and stage LOAD begins. A violated ramp keeps the device in
SUPPLY (R472). -/
def execBootSupplyReady (fusesOk romOk healthy first second : Bool) (s : State) : Host.Outcome State Fault Refusal :=
  .next (if inReset s || s.boot.stage != .supply || fbit s .PWR_SEQ_violation || fget s .PWR_MON_in_range != 0x7FF then s
    else if !fusesOk then haltBoot 1 1 s
    else if !romOk then haltBoot 2 2 s
    else enterLoad (identityStage healthy first second (measureRom s)))

/-- BOOT_SUPPLY_TIMEOUT (R345): 100 ms in stage SUPPLY assert FAULT_N. -/
def execBootSupplyTimeout (s : State) : Host.Outcome State Fault Refusal :=
  .next (if !inReset s && s.boot.stage == .supply then noteIbi { s with boot := { s.boot with bootFault := true } } else s)

/-- FIRMWARE_READY (R345, R428, R507): the firmware reports ready in stage START, and the device is RUNNING. -/
def execFirmwareReady (s : State) : Host.Outcome State Fault Refusal :=
  .next (if s.boot.stage = .start then
    let ms := s.time.counter.toNat / 1000000
    let s1 := { s with
      boot := { s.boot with stage := .running, bootFault := false }
      mast := { s.mast with fw := true, mem := Memory.writeBytes s.mast.mem Config.firmwarePlace (sparData s 1) }
      pair := { s.pair with
        role := if fget s .PAIR_CFG_mode = 0 then .unpaired else .listening
        heldTick := tickNow s } }
    let s2 := setWord (RegId.addr .MST_FW_VER) (Config.firmwareVersion (sparData s 1)).toNat
      (setWord (RegId.addr .BOOT_TIME) ms s1)
    ptpFollow (refuseReserved s.host.cmds.length (noteIbi (raise 40 [(1, s.rig.src), (4, s.rig.slot), (4, s.rig.rollback), (2, ms % 65536)] s2)))
  else s)

/-- FW_START_TIMEOUT (R345): the firmware has not reported ready within 1 s. -/
def execFwStartTimeout (s : State) : Host.Outcome State Fault Refusal :=
  .next (if s.boot.stage = .start then haltBoot 4 5 s else s)

/-! ### Keys that sign images (R352, R353, R348) -/

/-- A result of BOOT_CTRL: 1 DONE, 2 REFUSED. -/
def bootResult (n : Nat) (s : State) : State := { s with boot := { s.boot with result := n } }

/-- The digest that BOOT_OWNER_DIGEST holds: as written, else as the fuses read. -/
def ownerDigest (s : State) : Bytes :=
  (List.range 16).flatMap (fun j => match tget? s.regs (RegId.addr .BOOT_OWNER_DIGEST 0 j) with
    | some w => toLe 4 w.toNat
    | none => (slice s.boot.fuses.owner (4 * j) 4 ++ zeros 4).take 4)

/-- Whether a digest keeps every bit that already reads blown (R352). -/
def keepsBlown (new old : Bytes) : Bool := (List.range 64).all (fun i => (new.getD i 0 &&& old.getD i 0) == old.getD i 0)

/-- BOOT_CTRL.enrol (R352). -/
def enrolOwner (s : State) : State :=
  let f := s.boot.fuses
  let d := ownerDigest s
  if s.boot.stage = .load ∧ (s.rig.st = .waitHost ∨ s.rig.st = .failed) ∧ !f.enrolled ∧ !allZero d ∧ keepsBlown d f.owner then
    bootResult 1 (raise 46 [(1, 0), (4, 4)]
      { s with boot := { s.boot with fuses := { f with owner := d, enrolled := true } } })
  else bootResult 2 s

/-- Whether a slot is revoked. -/
def slotRevoked (f : Fuses) (i : Nat) : Bool := if i = 4 then f.ownerRevoked else f.rootRevoked.getLsbD i
/-- Whether a slot could be accepted under R352. -/
def slotUsable (f : Fuses) (i : Nat) : Bool := !slotRevoked f i && (i != 4 || f.enrolled)

/-- BOOT_CTRL.revoke of a slot (R353). -/
def revokeSlot (i : Nat) (s : State) : State :=
  let f := s.boot.fuses
  let late := [BootStage.load, .start, .running, .halted].contains s.boot.stage
  if late && slotRevoked f i then bootResult 1 s
  else if !late || i == s.rig.slot || (i == 4 && !f.enrolled) ||
      !([0, 1, 2, 3, 4].any (fun k => k != i && slotUsable f k)) then bootResult 2 s
  else
    let g := if i = 4 then { f with ownerRevoked := true }
      else { f with rootRevoked := f.rootRevoked ||| BitVec.ofNat 4 (2 ^ i) }
    bootResult 1 (raise 46 [(1, 1), (4, i)] { s with boot := { s.boot with fuses := g } })

/-- BOOT_CTRL written: one of enrol, revoke and lock_debug acts; more than one is REFUSED (R348, R352, R353). -/
def bootCtrl (v : Nat) (s : State) : State :=
  let enrol := bitsOf v 31 31
  let revoke := bitsOf v 30 30
  let lock := bitsOf v 29 29
  let n := enrol + revoke + lock
  let s1 := fset .BOOT_CTRL_enrol 0 (fset .BOOT_CTRL_revoke 0 (fset .BOOT_CTRL_lock_debug 0 s))
  if n = 0 then s1
  else if 1 < n then bootResult 2 s1
  else if enrol = 1 then enrolOwner s1
  else if revoke = 1 then revokeSlot (fget s1 .BOOT_CTRL_slot) s1
  else bootResult 1 { s1 with boot := { s1.boot with fuses := { s1.boot.fuses with debugLocked := true } } }

/-! ### Measurements (R354) -/

/-- The fuse record behind M11. -/
def fuseRecord (s : State) : Bytes :=
  let f := s.boot.fuses
  let fill := fun (n : Nat) (b : Bytes) => (b ++ zeros n).take n
  (List.range 4).flatMap (fun i => fill 64 (f.roots.getD i [])) ++ toLe 1 f.rootRevoked.toNat ++
    toLe 1 ((if f.enrolled then 1 else 0) + (if f.ownerRevoked then 2 else 0)) ++ toLe 1 f.rollback ++
    toLe 1 (if f.debugLocked then 1 else 0) ++ toLe 1 (if s.boot.seed = 3 then 0xFF else s.boot.seed) ++ zeros 3 ++
    fill 64 f.owner

/-- The digest fields of the running image's spars of a cluster, or of the device for 0xFF. -/
def sparDigests (s : State) (c : Nat) : Bytes := (s.rig.spars.filter (fun p => p.cluster == c)).flatMap (fun p => p.digest)

/-- Measurement `k`: M0 to M11 (R354, Table 5). -/
def measurement (s : State) (k : Nat) : Bytes :=
  if k = 0 then (s.boot.m0 ++ zeros 64).take 64
  else if k = 11 then sha512 (fuseRecord s)
  else if !s.rig.running then zeros 64
  else if k = 1 then sha512 (toLe 1 s.rig.slot ++ s.rig.pub)
  else if k = 2 then sha512 (sparDigests s 0xFF)
  else if s.rig.rigged.getLsbD (k - 3) then sha512 (sparDigests s (k - 3))
  else zeros 64

/-! ### Attestation (R355) -/

/-- The identity seed in use. -/
def seedInUse (s : State) : BitVec 640 := if s.boot.seed = 1 then s.boot.fuses.seedB else s.boot.fuses.seedA
/-- The identity public key, 133 bytes (R350). -/
def identityKey (s : State) : Bytes := publicKey (seedInUse s)

/-- Bytes 0 to 999 of the report as the request latches them (R355, Table 6). -/
def reportHead (s : State) : Bytes :=
  let nonce := (List.range 16).flatMap (fun j => toLe 4 (regWord s (RegId.addr .BOOT_ATT_NONCE 0 j)))
  let f := s.boot.fuses
  let flags := (if s.rig.running then 1 else 0) + (if f.enrolled then 2 else 0) + (if f.debugLocked then 4 else 0) +
    (if s.boot.stage = .halted then 8 else 0) + (if s.age.reefed then 16 else 0)
  [0x41, 0x54, 0x54, 0x52] ++ toLe 2 1 ++ toLe 2 1136 ++ toLe 1 (revision s) ++ toLe 1 s.rig.lastSrc ++
    toLe 1 (if s.rig.slot = 7 then 0xFF else s.rig.slot) ++ toLe 1 s.rig.rollback ++ toLe 1 f.rollback ++ toLe 1 flags ++
    zeros 2 ++ toLe 8 (s.boot.serial + 1) ++ toLe 8 (tickNow s) ++ nonce ++ (List.range 12).flatMap (measurement s) ++
    identityKey s ++ zeros 3

/-- BOOT_ATT_CTRL.request (R355). -/
def attestRequest (s : State) : State :=
  let early := [BootStage.supply, .fuses, .rom].contains s.boot.stage
  if early || s.boot.busy then s
  else if !s.boot.idOk then raise 45 [(4, s.boot.serial)] { s with boot := { s.boot with attResult := 2 } }
  else { s with boot := { s.boot with busy := true, ready := false, latch := reportHead s } }

/-- ATTEST_DONE (R355): the report is signed and stands in BOOT_ATT_REPORT. -/
def execAttestDone (s : State) : Host.Outcome State Fault Refusal :=
  .next (if s.boot.busy then
    let sig := ecdsaSign (seedInUse s) (Config.freeNat s.free) s.boot.latch
    draw { s with boot := { s.boot with
      busy := false, ready := true, attResult := 1, serial := s.boot.serial + 1, report := s.boot.latch ++ sig ++ zeros 4 } }
  else s)

end Sys2Proof.Machine
end

