-- ==== Sys2Proof/Machine/Stay.lean ====
section
/-! DEFINITION. The stay links: link state, HELLO, delivery of frames, retransmission, cuts and relay (R313, R414 to R419;
log entry 80). -/

namespace Sys2Proof.Machine

/-! ### Link, cuts and HELLO (R415, R418, R419) -/

/-- A stay port as a lost link or a cut leaves it: nothing waits, every sequence restarts from 0. -/
def StayPort.cleared (x : StayPort) : StayPort :=
  { x with hello := 0, peerPos := 7, txSeq := 0, rxNext := 0, unacked := [], waiting := [], helloDone := false }

/-- A port cuts its link: 1 type, 2 length, 3 ack, 4 retransmit, 5 lock (R418). -/
def cutPort (port cause : Nat) (s : State) : State :=
  let s1 := putStay port { (stayAt s port).cleared with cut := true } s
  let s2 := fset .STY_CUT_last_cause cause (fbump .STY_CUT_cuts 1 s1 port) port
  raise 210 [(1, port), (1, cause - 1)]
    { s2 with pair := { s2.pair with twins := s2.pair.twins.filter (fun t => t.1 != port) } }

/-- STAY_LINK_UP (R415): both lanes hold block lock and deskew, on a port that is enabled and not in its cut period. -/
def execStayLinkUp (port : Fin 2) (s : State) : Host.Outcome State Fault Refusal :=
  let x := stayAt s port
  .next (if fbit s .STY_CTRL_enable port && !x.link && !x.cut then
    raise 208 [(1, port), (1, 7)] (putStay port { x.cleared with link := true } s)
  else s)

/-- STAY_LINK_DOWN (R415, R418): a lane has lost lock or deskew; the port cuts its link for it. -/
def execStayLinkDown (port : Fin 2) (s : State) : Host.Outcome State Fault Refusal :=
  let x := stayAt s port
  .next (if x.link then cutPort port 5 (raise 209 [(1, port)] (putStay port { x with link := false } s)) else s)

/-- STAY_CUT_END (R418): the cut period is over, and the port retrains. -/
def execStayCutEnd (port : Fin 2) (s : State) : Host.Outcome State Fault Refusal :=
  let x := stayAt s port
  .next (if x.cut then putStay port { x.cleared with cut := false, link := false } s else s)

/-- The ring position at the other end of a port of a ring: STAY0 joins partners, STAY1 joins 1 to 2 and 3 to 0 (R413). -/
def linkPos (s : State) (port : Nat) : Nat :=
  if port = 0 then partnerPos s else (fget s .PAIR_CFG_ring_pos).xor 3

/-- The digest of the measurements M2 to M10 (R419). -/
def helloDigest (s : State) : Bytes := sha512 ((List.range 9).flatMap (fun k => measurement s (k + 2)))

/-- The ring position as a HELLO carries it: 0xFF outside a ring. -/
def helloPos (s : State) : Nat := if inRing s then fget s .PAIR_CFG_ring_pos else 0xFF

/-- The payload of a HELLO (R419). -/
def helloData (s : State) : Bytes :=
  toLe 2 (fget s .MST_ID_part) ++ toLe 1 (revision s) ++ toLe 1 (pairMode s) ++ toLe 1 (helloPos s) ++
    toLe 1 (fget s .PAIR_CFG_claim) ++ toLe 1 (fget s .PAIR_CFG_partner_claim) ++ [0] ++ toLe 8 (tickNow s) ++ helloDigest s

/-- HELLO_SEND (R419): until the port receives one. -/
def execHelloSend (port : Fin 2) (s : State) : Host.Outcome State Fault Refusal :=
  let x := stayAt s port
  .next (if x.link && !x.cut && !x.helloDone then staySendTo port 1 (linkPos s port) (helloData s) s else s)

/-- What a HELLO's checks say: 0 the partner, 1 a ring neighbour, or 2 with the field that differs: 0 mode, 1 claim, 2
position, 3 digest (R419). -/
def helloCheck (s : State) (d : Bytes) : Nat × Nat :=
  let pos := leAt d 4 1
  let mate := if inRing s then pos == partnerPos s else pos == 0xFF
  if leAt d 3 1 ≠ pairMode s then (2, 0)
  else if inRing s ∧ pos = (fget s .PAIR_CFG_ring_pos).xor 3 then (1, 0)
  else if !mate then (2, 2)
  else if leAt d 5 1 ≠ fget s .PAIR_CFG_partner_claim ∨ leAt d 6 1 ≠ fget s .PAIR_CFG_claim then (2, 1)
  else if pairMode s = 2 ∧ slice d 16 64 ≠ helloDigest s then (2, 3)
  else (0, 0)

/-- The first HELLO after the link came up decides what the port takes (R419). -/
def takeHello (port : Nat) (d : Bytes) (s : State) : State :=
  let x := stayAt s port
  if x.helloDone then s
  else
    let c := helloCheck s d
    let pos := if leAt d 4 1 < 4 then leAt d 4 1 else 7
    let s1 := putStay port { x with helloDone := true, peerPos := pos, hello := c.1 + 1 } s
    if c.1 = 2 then
      let s2 := raise 212 [(1, port), (1, c.2)] s1
      if partnerLinked s2 then s2 else unprotect 3 s2
    else s1

/-! ### Delivery (R414, R417) -/

/-- What a port does with the ack of a frame: acknowledged frames are freed, and frames held back go on; an ack for a seq not
sent cuts the link (R417, R418). -/
def stayAck (port : Nat) (ack : BitVec 16) (s : State) : State × Bool :=
  let x := stayAt s port
  let d := (ack - (x.txSeq - BitVec.ofNat 16 x.unacked.length)).toNat
  if d ≤ x.unacked.length then (stayFlow port (putStay port { x with unacked := x.unacked.drop d } s), true)
  else if d < 32768 then (cutPort port 3 s, false)
  else (s, true)

/-- The link's part in taking a frame: the wrong CRC, reserved type or length, the sequence, the ack. The flag says that the
frame is accepted (R417, R418). -/
def linkTake (port : Nat) (f : StayIn) (s : State) : State × Bool :=
  let x := stayAt s port
  if !x.link || x.cut then (s, false)
  else if !f.crcOk then (fbump .STY_ERR_crc_errors 1 s port, false)
  else if 10 ≤ f.type.toNat then (cutPort port 1 s, false)
  else if f.length.toNat ≠ f.data.length then (cutPort port 2 s, false)
  else if staySequenced f.type.toNat ∧ f.seq ≠ x.rxNext then (s, false)
  else
    let s1 := if staySequenced f.type.toNat then putStay port { x with rxNext := x.rxNext + 1 } s else s
    let r := if f.type = 1 then (s1, true) else stayAck port f.ack s1
    if r.2 then (fbump .STY_FRAMES_rx_frames 1 r.1 port, true) else r

/-- A frame for another ring position, sent on from the other port with one hop more; after three hops it is dropped (R414).
-/
def relayFrame (port : Nat) (f : StayIn) (w : StaySays) (s : State) : State :=
  let other := 1 - port
  let x := stayAt s other
  if 3 ≤ bitsOf f.route.toNat 5 4 then fbump .STY_RELAY_hop_drops 1 s port
  else if !x.link || x.cut then s
  else stayGive other { type := f.type.toNat, route := f.route + 16, tick := f.tick.toNat, data := f.data, tells := w }
    (fbump .STY_RELAY_relayed 1 s port)

/-- Whether a frame's copy from the other path has been taken already, and the record of what is still to come twice (R414).
-/
def secondCopy (port : Nat) (f : StayIn) (s : State) : State × Bool :=
  let key := (f.type.toNat, f.tick.toNat, f.data)
  if !inRing s || !staySequenced f.type.toNat then (s, false)
  else if s.pair.twins.contains (1 - port, key) then
    ({ s with pair := { s.pair with twins := s.pair.twins.erase (1 - port, key) } }, true)
  else if carriesPartner s (1 - port) then
    ({ s with pair := { s.pair with twins := s.pair.twins ++ [(port, key)] } }, false)
  else (s, false)

/-- Whether what arrives on a port is taken: its HELLO has passed, and in a ring the frame is from the partner (R413, R414,
R419). -/
def takesFrom (s : State) (port : Nat) (f : StayIn) : Bool :=
  carriesPartner s port && pairMode s != 0 && (!inRing s || bitsOf f.route.toNat 3 2 == partnerPos s)

/-- A frame taken from a port, with what it says: the payload of its row's type goes to its handler (R414, R417). -/
def deliverFrame (port : Nat) (type : Nat) (f : StayIn) (w : StaySays) (body : State → State) (s : State) : State :=
  if f.type.toNat = 1 then (if type = 1 then body s else s)
  else if f.type.toNat = 0 then s
  else if inRing s && bitsOf f.route.toNat 1 0 != fget s .PAIR_CFG_ring_pos then relayFrame port f w s
  else if !takesFrom s port f || f.type.toNat != type then s
  else
    let r := secondCopy port f s
    if r.2 then r.1 else body r.1

/-- A frame arrives on a port, with what it says: accepted or not by the link, then delivered. A sequenced frame that nothing
else answers is answered with an ACK (R417). -/
def receiveSays (port : Nat) (type : Nat) (f : StayIn) (w : StaySays) (body : State → State) (s : State) : State :=
  let n := (stayAt s port).out.length
  let r := linkTake port f s
  if !r.2 then r.1
  else
    let t := deliverFrame port type f w body r.1
    if staySequenced f.type.toNat && (stayAt t port).out.length == n then staySendTo port 0 (linkPos t port) [] t else t

/-- A frame whose bytes say everything arrives on a port. -/
def receiveStay (port : Nat) (type : Nat) (f : StayIn) (body : State → State) (s : State) : State :=
  receiveSays port type f .bytes body s

/-- ACK (R417). -/
def execAck (port : Fin 2) (f : StayIn) (s : State) : Host.Outcome State Fault Refusal :=
  .next (receiveStay port 0 f (fun s => s) s)

/-- HELLO (R419). -/
def execHello (port : Fin 2) (f : StayIn) (s : State) : Host.Outcome State Fault Refusal :=
  .next (receiveStay port 1 f (takeHello port f.data) s)

/-- STAY_RETRANSMIT (R313, R417, R418): the unacknowledged frames go again from the oldest; a frame sent 16 times escalates
and cuts the link. -/
def execStayRetransmit (port : Fin 2) (s : State) : Host.Outcome State Fault Refusal :=
  let x := stayAt s port
  .next (if !x.link || x.cut || x.unacked.isEmpty then s
    else if x.unacked.any (fun f => decide (16 ≤ f.2)) then
      cutPort port 4 (raise 70 [(4, 3), (4, port.val), (1, 2)] s)
    else
      let again := x.unacked.map (fun f => (f.1, f.2 + 1))
      let s1 := putStay port { x with unacked := again, out := x.out ++ x.unacked.map (fun f => { f.1 with ack := x.rxNext }) } s
      fbump .STY_FRAMES_tx_frames x.unacked.length (fbump .STY_ERR_retransmits 1 s1 port) port)

end Sys2Proof.Machine
end

