-- ==== Sys2Proof/Machine/Tdm.lean ====
section
/-! DEFINITION. The TDM island: groups, frames, slips, the tick transfer, missing samples, map swaps, held values (R255 to
R272). -/

namespace Sys2Proof.Machine

/-! ### Groups and slots -/

/-- A clock group. -/
def groupAt (s : State) (g : Nat) : TdmGroup := tget s.tdm.groups g {}
/-- A state with a group replaced. -/
def putGroup (g : Nat) (x : TdmGroup) (s : State) : State := { s with tdm := { s.tdm with groups := tset s.tdm.groups g x } }
/-- The entries that hold TDM keys: logical slot and handle. -/
def tdmEntries (s : State) : List (Nat × Nat) :=
  (s.sess.filter (fun e => keyKind e.2.key == 1)).map (fun e => (keySlot e.2.key, e.1))
/-- The idle code of a highway (R258). -/
def idleCode (s : State) (h : Nat) : Byte := if fbit s .TDM_HWY_CTRL_law h then 0xFF else 0xD5
/-- The group of a physical or logical slot. -/
def slotGroup (p : Nat) : Nat := p / 1024
/-- Whether the island may drive a physical slot's highway (R259). -/
def mayDrive (s : State) (p : Nat) : Bool :=
  fbit s .TDM_HWY_CTRL_enable (p / 128) && (groupAt s (slotGroup p)).st == .locked && ownsHalyard s

/-- Event 226 at most once a window per group and direction, with the slips since (R262). -/
def noteSlip (g dir rep : Nat) (s : State) : State := raiseCounting 226 (2 * g + dir) [(1, g), (1, dir), (1, rep)] s

/-- A group changes state: frames and drive of the old one are gone. The frame that runs as the group locks is in progress
(R261, R263, R264). -/
def groupState (g : Nat) (st : GroupState) (s : State) : State :=
  putGroup g { groupAt s g with
    st := st, rx := [], tx := [], last := [], lastMap := none, driven := [], begun := st == .locked, oldMap := none,
    backlog := false, left := false } s

/-! ### Frames (R257, R259, R261, R262, R265, R268) -/

/-- The physical slot of a logical slot for a frame: under the map at its start where a swap has come since (R265). -/
def physAt (s : State) (old : Option (Tab Nat)) (l : Nat) : Option Nat :=
  match old with
  | some m => tget? m l
  | none => physOf s l

/-- The code that a received frame gives a logical slot, if its physical slot is of the group. -/
def rxCode (s : State) (g : Nat) (rx : List (Nat × Byte)) (l : Nat) : Option Byte :=
  match physAt s (groupAt s g).oldMap l with
  | some p =>
    if slotGroup p ≠ g then none
    else if fbit s .TDM_HWY_CTRL_enable (p / 128) then some ((rx.find? (fun x => x.1 == p)).map (fun x => x.2) |>.getD (idleCode s (p / 128)))
    else some (idleCode s (p / 128))
  | none => none

/-- The received frame that has just ended, by logical slot. -/
def rxFrame (s : State) (g : Nat) (rx : List (Nat × Byte)) : Tab Byte :=
  (tdmEntries s).foldl (fun t e => match rxCode s g rx e.1 with
    | some b => tset t e.1 b
    | none => t) []

/-- What a group drives in a frame that begins: each physical slot that an entry not FREE holds, with its code; a frame sent
again keeps the map `old` of its own start (R259, R268, R270, R31). -/
def driveFrame (s : State) (g : Nat) (old : Option (Tab Nat)) (f : Tab Byte) : List (Nat × Byte) :=
  (tdmEntries s).filterMap (fun e => match physAt s old e.1 with
    | some p =>
      if slotGroup p ≠ g ∨ !mayDrive s p then none
      else if (sessAt s e.2).st = .parked then some (p, idleCode s (p / 128))
      else if s.tdm.holding.contains p then some (p, tget s.tdm.held p (idleCode s (p / 128)))
      else some (p, tget f e.1 (idleCode s (p / 128)))
    | none => none)

/-- The values of the transmit pins that a device without ownership records: those of slots that a valid map entry in use
names, of slots that were driven (R268, R272). -/
def recordHeld (g : Nat) (tx : List (Nat × Byte)) (s : State) : State :=
  let named := fun (p : Nat) => (List.range 4096).any (fun l => decide (l % 128 < slotCount s (l / 128)) && physOf s l == some p)
  { s with tdm := { s.tdm with
      held := tx.foldl (fun t x => if slotGroup x.1 = g && named x.1 then tset t x.1 x.2 else t) s.tdm.held } }

/-- TDM_FRAME_START (R262): the frame that ends is received, the oldest queued one leaves. `rx` holds the codes received on
physical slots, `tx` those seen on the transmit pins that another device drives. A frame starts on edges of the clock, with FS
at its expected position until a misplaced one shows otherwise (R272, log entry 55). -/
def execTdmFrameStart (group : Fin 4) (rx tx : List (Nat × Byte)) (s : State) : Host.Outcome State Fault Refusal :=
  let g := group.val
  let x : TdmGroup := { groupAt s g with clock := true, fs := true }
  .next (if x.st = .locked then
      let s0 := if ownsHalyard s then s else recordHeld g tx s
      let x1 := { x with rx := if x.begun then x.rx ++ [rxFrame s g rx] else x.rx, begun := true, oldMap := none }
      match x.tx with
      | f :: t => putGroup g { x1 with tx := t, last := f, lastMap := none, driven := driveFrame s g none f } s0
      | [] =>
        noteSlip g 1 1 (fbump .TDM_GRP_SLIP_tx_slips 1
          (putGroup g { x1 with driven := driveFrame s g x.lastMap x.last } s0) g)
    else if x.st = .qualifying then putGroup g x s
    else s)

/-- TDM_FS_MISPLACED (R257): FS is not at its expected position in this frame (R272). -/
def execTdmFsMisplaced (group : Fin 4) (s : State) : Host.Outcome State Fault Refusal :=
  let g := group.val
  .next (if (groupAt s g).st = .disabled then s
    else fbump .TDM_GRP_ERR_fs_errors 1 (putGroup g { groupAt s g with clock := true, fs := false } s) g)

/-! ### Clock and frame-sync (R263) -/

/-- TDM_GROUP_LOCKED. -/
def execTdmGroupLocked (group : Fin 4) (s : State) : Host.Outcome State Fault Refusal :=
  let g := group.val
  .next (if (groupAt s g).st = .qualifying then
      let s1 := groupState g .locked s
      raise 225 [(1, g), (8, tickNow s)] (putGroup g { groupAt s1 g with clock := true, fs := true } s1)
    else s)

/-- TDM_GROUP_LOST: the cause is clock absent, clock frequency or frame sync. -/
def execTdmGroupLost (group : Fin 4) (cause : Fin 3) (s : State) : Host.Outcome State Fault Refusal :=
  let g := group.val
  let st := (groupAt s g).st
  .next (if st = .locked ∨ st = .qualifying then
      let s1 := groupState g .lost s
      let x := groupAt s1 g
      let s2 := putGroup g { x with clock := x.clock && cause.val != 0, fs := x.fs && cause.val == 1 } s1
      raise 224 [(1, g), (1, cause.val)] (fbump .TDM_GRP_ERR_losses 1 s2 g)
    else s)

/-- TDM_CLOCK_RETURN. -/
def execTdmClockReturn (group : Fin 4) (s : State) : Host.Outcome State Fault Refusal :=
  let g := group.val
  .next (if (groupAt s g).st = .lost then
      let s1 := groupState g .qualifying s
      putGroup g { groupAt s1 g with clock := true } s1
    else s)

/-- Whether a lower rate would strand a slot (R256). -/
def strands (s : State) (g rate : Nat) : Bool :=
  let n := 32 * 2 ^ rate
  let count := fun (h : Nat) => if h / 8 = g then n else slotCount s h
  (tdmEntries s).any (fun e => slotGroup e.1 == g && decide (n ≤ e.1 % 128)) ||
  (List.range 4096).any (fun l =>
    let w := regWord s (RegId.addr .TDM_MAP_ACTIVE l)
    bitsOf w 31 31 == 1 && decide (l % 128 < count (l / 128)) && bitsOf w 12 8 / 8 == g && decide (n ≤ bitsOf w 6 0))

/-- What an accepted write of TDM_GRP_CTRL does (R256, R263): `was` is the word before it. A field counts as written where
its value changes (DEDUCED, log entry 55). -/
def groupControl (g was : Nat) (s : State) : State :=
  let w := regWord s (RegId.addr .TDM_GRP_CTRL g)
  let changed := bitsOf was 30 27 != bitsOf w 30 27 || bitsOf was 2 0 != bitsOf w 2 0
  if bitsOf w 31 31 = 0 then (if (groupAt s g).st = .disabled then s else groupState g .disabled s)
  else if bitsOf was 31 31 = 0 ∨ changed then groupState g .qualifying s
  else s

/-! ### The tick transfer (R259 to R261, R264) -/

/-- Frames of a group delivered at a boundary: at most one discarded, the newest repeated until there are eight (R261). -/
def deliverFrames (g : Nat) (s : State) : List (Tab Byte) × State :=
  let x := groupAt s g
  let u := x.rx.length
  let take := fun (l : List (Tab Byte)) (s : State) =>
    (l.take 8, putGroup g { groupAt s g with rx := l.drop 8, left := decide (8 < l.length) } s)
  if 10 ≤ u then take (x.rx.drop 1) (noteSlip g 0 0 (fbump .TDM_GRP_SLIP_rx_slips 1 s g))
  else if 8 ≤ u then take x.rx s
  else
    let s1 := (List.range (8 - u)).foldl (fun s _ => noteSlip g 0 1 (fbump .TDM_GRP_SLIP_rx_slips 1 s g)) s
    (x.rx ++ List.replicate (8 - u) (x.rx.getLast?.getD []), putGroup g { groupAt s1 g with rx := [], left := false } s1)

/-- The received samples of one group at a boundary, for the logical slots whose entry is ACTIVE: eight codes of its frames,
idle codes while it is not LOCKED (R259, R264). -/
def receiveGroup (g : Nat) (s : State) : State :=
  let mine := (tdmEntries s).filter (fun e => (sessAt s e.2).st != .parked &&
    (match physOf s e.1 with
    | some p => slotGroup p == g
    | none => false))
  let idle := fun (l : Nat) => idleCode s (((physOf s l).getD l) / 128)
  let put := fun (codes : Nat → Bytes) (s : State) =>
    { s with tdm := { s.tdm with got := mine.foldl (fun t e => tset t e.1 (codes e.1)) s.tdm.got } }
  if (groupAt s g).st = .locked then
    let r := deliverFrames g s
    put (fun l => r.1.map (fun f => tget f l (idle l))) r.2
  else put (fun l => List.replicate 8 (idle l)) s

/-- The samples of a driven slot that the lanes did not write: the previous tick's again, in the next tick too the idle code
(R260). -/
def missingSlot (l p : Nat) (s : State) : State :=
  let h := p / 128
  let n := tget s.tdm.miss l 0 + 1
  let b := if n = 1 then tget s.tdm.prev l (List.replicate 8 (idleCode s h)) else List.replicate 8 (idleCode s h)
  let s1 := fbump .TDM_HWY_MISS_tx_missing 1
    { s with tdm := { s.tdm with miss := tset s.tdm.miss l n, smp := tset s.tdm.smp l b } } (l / 128)
  raiseLimited 228 (l / 128) 1 [(1, l / 128), (2, l % 128)] s1

/-- The missing samples of every driven slot of a group. -/
def fillMissing (g : Nat) (s : State) : State :=
  (tdmEntries s).foldl (fun s e => match physOf s e.1 with
    | some p =>
      if slotGroup p ≠ g ∨ !mayDrive s p ∨ (sessAt s e.2).st = .parked then s
      else if (tget? s.tdm.smp e.1).isSome then
        { s with tdm := { s.tdm with holding := s.tdm.holding.filter (fun x => x != p) } }
      else if s.tdm.holding.contains p && (tget? s.tdm.held p).isSome then s
      else missingSlot e.1 p s
    | none => s) s

/-- The transmit side of a group at a boundary: the oldest of two queued frames goes, eight frames of the lanes' samples are
appended (R259, R262). -/
def transmitGroup (g : Nat) (s : State) : State :=
  if (groupAt s g).st ≠ .locked then s
  else
    let s1 := if 2 ≤ (groupAt s g).tx.length then
        noteSlip g 1 0 (fbump .TDM_GRP_SLIP_tx_slips 1
          (putGroup g { groupAt s g with tx := (groupAt s g).tx.drop 1 } s) g)
      else s
    let s2 := fillMissing g s1
    let frames := (List.range 8).map (fun i => s2.tdm.smp.map (fun e => (e.1, e.2.getD i 0)))
    let tx := (groupAt s2 g).tx ++ frames
    putGroup g { groupAt s2 g with tx := tx, backlog := decide (8 < tx.length) } s2

/-- The transmit side of the tick transfer: the lanes' samples of the tick just ended. A slot whose samples were written misses
none in a row, driven or not (R25, R259, R260). -/
def tdmSend (s : State) : State :=
  let s0 := { s with tdm := { s.tdm with miss := s.tdm.miss.filter (fun e => (tget? s.tdm.smp e.1).isNone) } }
  let s1 := [0, 1, 2, 3].foldl (fun s g => transmitGroup g s) s0
  { s1 with tdm := { s1.tdm with prev := s1.tdm.smp, smp := [] } }
/-- The clusters whose frame buffers hold samples of a logical slot: the one that carries its channel, both while it
migrates (R41, R259). -/
def slotClusters (s : State) (l : Nat) : List Nat :=
  match (s.sess.find? (fun e => keyKind e.2.key == 1 && keySlot e.2.key == l)).bind (fun e => e.2.chan) with
  | none => []
  | some n =>
    let c := chanAt s n
    let from_ := clusterOf c.lane
    match c.move with
    | none => [from_]
    | some m => if clusterOf m.target = from_ then [from_] else [from_, clusterOf m.target]
/-- The receive side of the tick transfer, and one notice to each cluster that received samples (R259). -/
def tdmReceive (s : State) : State :=
  let t := [0, 1, 2, 3].foldl (fun s g => receiveGroup g s) { s with tdm := { s.tdm with gotPrev := s.tdm.got, got := [] } }
  let cs := t.tdm.got.flatMap (fun e => slotClusters t e.1)
  { t with tdm := { t.tdm with told := (List.range 8).filter (fun c => cs.contains c) } }

/-- The samples that a cluster's lanes wrote for the highways in this tick are missing (R260, R393). -/
def missSamples (c : Nat) (s : State) : State :=
  { s with tdm := { s.tdm with smp := s.tdm.smp.filter (fun e =>
      !(s.sess.any (fun x => keyKind x.2.key == 1 && keySlot x.2.key == e.1 && (match x.2.chan with
        | some n => clusterOf (chanAt s n).worker == c
        | none => false)))) } }

/-- QUEUE_NOTICE (R307). A drop record that stands for a cluster's samples leaves the TDM island without them (R393). -/
def execQueueNotice (queue : Fin 512) (vc : Fin 4) (s : State) : Host.Outcome State Fault Refusal :=
  let lost := match queLane s queue, (vcAt s queue vc).done with
    | none, x :: _ => x.2.1 && queConsumer s queue == 11 && decide (fget s .QUE_CFG_producer queue < 8)
    | _, _ => false
  let t := postNotice queue vc s
  .next (if lost then missSamples (fget s .QUE_CFG_producer queue) t else t)

/-! ### Map swaps (R265, R266) -/

/-- Whether the shadow bank passes the check of R266. -/
def shadowOk (s : State) : Bool :=
  let used := (List.range 4096).filterMap (fun l =>
    let w := regWord s (RegId.addr .TDM_MAP_SHADOW l)
    if l % 128 < slotCount s (l / 128) ∧ bitsOf w 31 31 = 1 then some (bitsOf w 12 8, bitsOf w 6 0) else none)
  used.all (fun p => decide (p.2 < slotCount s p.1)) && decide (used.Nodup)

/-- The requested time of a swap in ns of corrected time. -/
def swapTime (s : State) : Nat :=
  (fget s .TDM_SWAP_SEC_HI_sec_hi * 2 ^ 32 + fget s .TDM_SWAP_SEC_LO_sec_lo) * 1000000000 + fget s .TDM_SWAP_NS_ns

/-- A result other than PENDING: event 227 with the time that the arming requested, and the boundary tick if DONE (R266,
R271). -/
def swapResult (r time tick : Nat) (s : State) : State :=
  raise 227 [(4, r), (8, time), (8, tick)] (fset .TDM_SWAP_CTRL_result r s)

/-- TDM_SWAP_CTRL.arm (R266). -/
def armSwap (s : State) : State :=
  let t := swapTime s
  let pend := fun (now : Bool) => fset .TDM_SWAP_CTRL_result 1
    { s with tdm := { s.tdm with swap := some { now := now, time := t, tick := tickNow s } } }
  if s.tdm.swap.isSome then s
  else if !shadowOk s then swapResult 4 t 0 s
  else if fbit s .TDM_SWAP_CTRL_immediate then pend true
  else if nowNs s < t then pend false
  else swapResult 3 t 0 s

/-- TDM_SWAP_CTRL.cancel (R266). -/
def cancelSwap (s : State) : State :=
  match s.tdm.swap with
  | some w => swapResult 5 w.time 0 { s with tdm := { s.tdm with swap := none } }
  | none => s

/-- The shadow bank copied into the active one. -/
def copyMap (s : State) : State :=
  (List.range 4096).foldl (fun s l => setWord (RegId.addr .TDM_MAP_ACTIVE l) (regWord s (RegId.addr .TDM_MAP_SHADOW l)) s) s

/-- Held values belong to physical slots: a logical slot that still sends one sends that of its place under the new map
(R270); `old` is the map before. -/
def moveHolding (old : Tab Nat) (s : State) : State :=
  { s with tdm := { s.tdm with
      holding := old.filterMap (fun e => if s.tdm.holding.contains e.2 then physOf s e.1 else none) } }

/-- The active map: the physical slot of each logical slot that has one. -/
def wholeMap (s : State) : Tab Nat := (List.range 4096).filterMap (fun l => (physOf s l).map (fun p => (l, p)))

/-- A LOCKED group whose frames in progress, received and sent, began under the map `old` (R265, R270). -/
def keepMap (old : Tab Nat) (s : State) (g : Nat) : State :=
  let x := groupAt s g
  putGroup g (if x.begun then { x with oldMap := some (x.oldMap.getD old), lastMap := some (x.lastMap.getD old) } else x) s

/-- A swap at its boundary: the check again, the copy, TDM_SWAP_TICK; a frame in progress keeps the old map (R265, R266). -/
def swapNow (time : Nat) (s : State) : State :=
  let s1 := { s with tdm := { s.tdm with swap := none } }
  if !shadowOk s then swapResult 4 time 0 s1
  else
    let old := wholeMap s
    swapResult 2 time (tickNow s) (fset .TDM_SWAP_TICK_tick (tickNow s % 2 ^ 32)
      (moveHolding old (copyMap ([0, 1, 2, 3].foldl (keepMap old) s1))))

/-- Whether the boundary of a pending swap is the one that the time island stands at: the first after the arming, or the first
at or after the requested time (R266, R290). -/
def swapDue (s : State) (w : SwapWait) : Bool :=
  decide (s.time.counter.toNat = s.time.beganAt) && decide (w.tick < tickNow s) && (w.now || decide (w.time ≤ s.time.began))

/-- TDM_MAP_SWAP (R265): a pending swap whose boundary has come. -/
def execTdmMapSwap (s : State) : Host.Outcome State Fault Refusal :=
  .next (match s.tdm.swap with
    | some w => if swapDue s w then swapNow w.time s else s
    | none => s)

/-! ### Ownership (R267, R268) -/

/-- Loss of ownership: every transmit pin is high-impedance (R267). -/
def tdmRelease (s : State) : State :=
  { s with tdm := { s.tdm with groups := s.tdm.groups.map (fun g => (g.1, { g.2 with driven := [] })), holding := [] } }

/-- Gain of ownership: each driven slot sends its recorded value until the lane's samples reach the queue (R268). -/
def tdmGain (s : State) : State :=
  { s with tdm := { s.tdm with
      holding := (tdmEntries s).filterMap (fun e => if (sessAt s e.2).st = .parked then none else physOf s e.1) } }

/-- TDM_OWN.held_slots: the driven slots still sending held values; one without a recorded value sends the idle code and none
(R268, R272). -/
def heldSlots (s : State) : Nat :=
  ((tdmEntries s).filter (fun e => match physOf s e.1 with
    | some p => (sessAt s e.2).st != .parked && s.tdm.holding.contains p && (tget? s.tdm.held p).isSome && mayDrive s p
    | none => false)).length

end Sys2Proof.Machine
end

