-- ==== Sys2Proof/Machine/Pair.lean ====
section
/-! DEFINITION. The pair: heartbeats, the halyard and ownership, switch-over, the pair commands (R420 to R429, R436 to R439;
log entry 81). -/

namespace Sys2Proof.Machine

/-- The device's own claim and the partner's (R330). -/
def ownClaim (s : State) : Nat := fget s .PAIR_CFG_claim
def partnerClaim (s : State) : Nat := fget s .PAIR_CFG_partner_claim
/-- Whether a flag of the partner's last heartbeat is set: 0 eligible, 1 owner, 2 yielding (R421, Table 4). -/
def partnerFlag (s : State) (i : Nat) : Bool := s.pair.pFlags.getLsbD i

/-! ### The pair commands' data (R439) -/

/-- The 16 bytes of completion data of a pair command. -/
def pairData (s : State) (eff : Nat) : Bytes :=
  toLe 8 eff ++ toLe 1 s.pair.role.code ++ toLe 1 s.pair.sync ++ toLe 1 (ownClaim s) ++ toLe 1 (partnerClaim s) ++
    toLe 1 (pairFlags s) ++ zeros 3

/-- Completes a pair command. -/
def finishPair (seq status eff : Nat) (s : State) : State := complete seq status (pairData s eff) s

/-! ### Ownership (R425, R436) -/

/-- The commands and timed actions that wait for the yield learn what became of it (R379, R380, R438). -/
def endYield (status eff : Nat) (s : State) : State :=
  s.pair.yieldCmds.foldl (fun s c => if c.2 then timedResult c.1 status eff s else finishPair c.1 status eff s)
    { s with pair := { s.pair with yielding := false, yieldCmds := [] } }

/-- The channels of a device that becomes the standby of selected mirroring lie dormant (R431). -/
def sleepChannels (s : State) : State :=
  if pairMode s = 1 then { s with chans := s.chans.map (fun c => (c.1, { c.2 with dormant := true })) } else s

/-- Loss of ownership at a claim read: outputs off, the role STANDBY, event 252 (R425, R428). Self-checks under way are
discarded (R440). -/
def loseOwner (read : Nat) (s : State) : State :=
  let s1 := tdmRelease { s with pair := { s.pair with
    owner := false, role := .standby, checks := [], resume := none, late := none, copied := [], acks := [] } }
  let s2 := raise 252 [(4, read), (8, tickNow s)] (fbump .PAIR_COUNT_losses 1 s1)
  let s3 := if s.pair.sync = 0 then s2 else unprotect (if s.pair.lost then 2 else 7) s2
  endYield 0 (tickNow s) (sleepChannels s3)

/-- The gratuitous ARP of a port for its IPv4 address (R425; log entry 81). -/
def gratuitousArp (mac ip : Bytes) (tci : Nat) : Bytes :=
  ethHead (List.replicate 6 0xFF) mac tci 0x0806 ++ toBe 2 1 ++ toBe 2 0x0800 ++ [6, 4] ++ toBe 2 1 ++ mac ++ ip ++ zeros 6 ++
    ip

/-- The unsolicited neighbour advertisement of a port for its IPv6 address (R425; log entry 81). -/
def unsolicitedNa (mac ip : Bytes) (tci : Nat) : Bytes :=
  let all : Bytes := [0xFF, 2] ++ zeros 13 ++ [1]
  ethHead [0x33, 0x33, 0, 0, 0, 1] mac tci 0x86DD ++
    icmp6Packet ip all ([136, 0, 0, 0, 0x20, 0, 0, 0] ++ ip ++ [2, 1] ++ mac)

/-- The addresses of a trunk port announced after a gain of ownership (R425). -/
def announcePort (s : State) (port : Nat) : State :=
  let r := identRec s port
  let mac := portMac s port
  let tci := beAt r 6 2
  let s1 := if leNat (slice r 8 4) = 0 then s else pushMast port (gratuitousArp mac (slice r 8 4) tci) s
  if leNat (slice r 12 16) = 0 then s1 else pushMast port (unsolicitedNa mac (slice r 12 16) tci) s1

/-- The mirrored seq and epoch of each peer, which the new active device of selected mirroring goes on from (R219). -/
def takeMirrored (s : State) : State :=
  s.pair.tx.foldl (fun s x => modPeer x.1 (fun p => { p with seq := x.2.1, epoch := x.2.2 }) s)
    { s with pair := { s.pair with tx := [] } }

/-- The channels of lanes under resync (R435). -/
def unsyncedChans (s : State) : List Nat :=
  (s.chans.filter (fun c => (fget s .PAIR_LANE_UNSYNC_unsync (c.2.lane / 32)).testBit (c.2.lane % 32))).map (fun c => c.1)

/-- Every lane's resync is over: the new active device's lanes are the ones to follow (R440). -/
def endResyncs (s : State) : State :=
  (List.range 4).foldl (fun s i => fset .PAIR_LANE_UNSYNC_unsync 0 s i) { s with pair := { s.pair with resynced := [] } }

/-- Gain of ownership (R268, R425, R428, R436): the role ACTIVE, TDM with held values, addresses announced, event 251; under
selected mirroring every peer restarts, in full shadow its streams start (R200, R219). -/
def gainOwner (s : State) : State :=
  let t := tickNow s
  let first := s.pair.role == .listening
  let mode := pairMode s
  let out := if mode = 2 then unsyncedChans s else []
  let s0 := out.foldl (fun s n => modChan n (fun c => { c with dormant := true }) s) s
  let s1 := tdmGain { s0 with pair := { s.pair with
    owner := true, gaining := false, role := .active, checks := [], listenOver := false, challengeAt := none
    resume := some (if mode = 1 then t + 2 else t + 1)
    late := if out.isEmpty then none else some (t + 2, out), copied := [] } }
  let s2 := raise 251 [(4, ownClaim s), (8, t)] (fbump .PAIR_COUNT_gains 1 (endResyncs s1))
  let s3 := if s.pair.sync = 0 then s2 else unprotect (if s.pair.lost then 2 else 7) s2
  let s4 := if first then s3
    else if mode = 1 then peersRestart 16 (takeMirrored s3)
    else if mode = 2 then (s3.peers.map (fun p => p.1)).foldl (fun s k => reanchor k s) s3 else s3
  [0, 1].foldl announcePort s4

/-- PAIR_OWNER_GAINED (R425): the end of the guard slot of a round that the device won. -/
def execPairOwnerGained (s : State) : Host.Outcome State Fault Refusal :=
  .next (if s.pair.gaining then gainOwner s else s)

/-- A leg as the new active device takes it up: its timestamp advanced by the media time of the ticks skipped since the last
copied one; under selected mirroring the marker set and the store room empty (R186, R404, R436). -/
def resumeLeg (selected : Bool) (l : Nat) (s : State) (n : Nat) : State :=
  let d := BitVec.ofNat 32 ((tickNow s - 1 - s.pair.copyTick) * legClock s n l)
  modLeg n l (fun g => { g with
    pos := g.pos + d, marker := g.marker || selected, room := if selected then {} else g.room }) s

/-- A channel as the new active device takes it up: the canceller in ACQUIRE under selected mirroring (R130, R436). -/
def resumeChannel (selected : Bool) (s : State) (n : Nat) : State :=
  let s1 := resumeLeg selected 1 (resumeLeg selected 0 s n) n
  draw (modChan n (fun c => { c with
    dormant := false, worked := tickNow s - 1
    ec := if selected then { seed := Config.freeWord s.free } else c.ec }) s1)

/-- The sender of a peer as the new active device of a full shadow goes on with it: an interval that closed after the last
copied tick is encoded, so that the dictionaries stand as the failed device's did, its bundles are not sent, and seq and
epoch go on from the copied ones (R219, R436). -/
def resumePeer (s : State) (k : Nat) : State :=
  let p := peerAt s k
  let t := s.pair.copyTick + 1
  let s1 := if p.on && t % p.interval == 0 && p.closed != some t then { closeInterval k t s with ports := s.ports } else s
  match tget? s.pair.tx k with
  | some x => modPeer k (fun p => { p with seq := x.1, epoch := x.2 }) s1
  | none => s1

/-- The channels of lanes that were out of step go live as under selected mirroring (R435). -/
def resumeLate (s : State) : State :=
  match s.pair.late with
  | some (t, l) =>
    if t = tickNow s then l.foldl (resumeChannel true) { s with pair := { s.pair with late := none } } else s
  | none => s

/-- Whether a channel waits to go live as under selected mirroring (R435). -/
def goesLate (s : State) (n : Nat) : Bool :=
  match s.pair.late with
  | some (_, l) => l.contains n
  | none => false

/-- The channels go live at the boundary that R436 names; in full shadow the peers' senders go on. -/
def resumeChannels (s : State) : State :=
  if s.pair.resume = some (tickNow s) then
    let s1 := { s with pair := { s.pair with resume := none } }
    let s2 := if pairMode s = 2 then (s.peers.map (fun p => p.1)).foldl resumePeer s1 else s1
    ((s.chans.map (fun c => c.1)).filter (fun n => !goesLate s n)).foldl (resumeChannel (pairMode s == 1)) s2
  else resumeLate s

/-! ### Challenges and rounds (R423, R424, R426, R427) -/

/-- Whether the device has a reason to challenge: loss of heartbeats as STANDBY, an ineligible or yielding owner, or the end
of LISTENING without an active partner (R426). -/
def wantsOwner (s : State) : Bool :=
  let p := s.pair
  eligible s && !p.owner && !p.gaining && ownClaim s != 0 &&
    ((p.role == .standby && p.lost) || (p.seen && partnerFlag s 1 && !partnerFlag s 0) || (p.seen && partnerFlag s 2) ||
      (p.role == .listening && p.listenOver && !(p.seen && p.pRole == 2)))

/-- A fault of the line: 1 stuck low, 2 stuck high, 3 foreign (R427, R442). -/
def halyardFault (cause read : Nat) (s : State) : State :=
  raise 254 [(1, cause - 1), (4, read)] (fset .PAIR_HALYARD_fault cause s)

/-- CHALLENGE (R424, R426): the start slot driven; nothing starts on a line that is low, and a line that stays high abandons
the round (R427). -/
def execChallenge (line : HalyardLine) (s : State) : Host.Outcome State Fault Refusal :=
  let due := match s.pair.challengeAt with
    | some t => decide (t ≤ tickNow s)
    | none => true
  .next (if !wantsOwner s || !due || s.pair.round.isSome then s
    else match line with
      | .heldLow => s
      | .heldHigh =>
        halyardFault 2 (fget s .PAIR_HALYARD_last_claim) { s with pair := { s.pair with
          lineLow := false, challengeAt := some (tickNow s + fget s .PAIR_CTRL_rechallenge_ticks) } }
      | .works => { s with pair := { s.pair with lineLow := false, round := some { entered := true, eligible := true } } })

/-- HALYARD_START (R424): a start edge that the device did not drive; an eligible owner that is not yielding defends. -/
def execHalyardStart (s : State) : Host.Outcome State Fault Refusal :=
  .next (if pairMode s = 0 || s.pair.round.isSome || inReset s then s
    else
      let e := eligible s
      let defend := s.pair.owner && e && !s.pair.yielding && ownClaim s != 0
      { s with pair := { s.pair with lineLow := false, round := some { entered := defend, eligible := e } } })

/-- The device's role after a round it did not win: from LISTENING to STANDBY where it entered or its partner won, and the
next challenge put off (R426, R428). -/
def afterLoss (read : Nat) (entered : Bool) (s : State) : State :=
  let leave := s.pair.role == .listening && (entered || read == partnerClaim s)
  { s with pair := { s.pair with
      role := if leave then .standby else s.pair.role
      challengeAt := if entered then some (tickNow s + fget s .PAIR_CTRL_rechallenge_ticks) else s.pair.challengeAt } }

/-- HALYARD_ROUND (R424, R425): the release slot of a round ends. `others` is the highest claim that other entrants drive, 0
where there are none. -/
def execHalyardRound (others : BitVec 8) (s : State) : Host.Outcome State Fault Refusal :=
  .next (match s.pair.round with
    | none => s
    | some r =>
      let own := ownClaim s
      let read := if r.entered then max own others.toNat else others.toNat
      let won := r.entered && read == own
      let s1 := { s with pair := { s.pair with round := none } }
      let s2 := if s.pair.owner && read != own then loseOwner read s1 else s1
      let s3 := fset .PAIR_HALYARD_last_claim read (fbump .PAIR_HALYARD_rounds 1 s2)
      let s4 := raise 250 [(4, read), (4, if r.entered then 1 else 0), (4, if won then 1 else 0)] s3
      let s5 := if read = own ∨ read = partnerClaim s then s4 else halyardFault 3 read s4
      if won then { s5 with pair := { s5.pair with gaining := !s5.pair.owner } }
      else afterLoss read (r.entered && !s.pair.owner) s5)

/-- HALYARD_STUCK_LOW (R427): the line is held low outside a round. -/
def execHalyardStuckLow (s : State) : Host.Outcome State Fault Refusal :=
  .next (if pairMode s = 0 || s.pair.round.isSome || s.pair.lineLow then s
    else halyardFault 1 (fget s .PAIR_HALYARD_last_claim) { s with pair := { s.pair with lineLow := true } })

/-- LISTENING_END (R426, R428): startup_ticks after RUNNING. -/
def execListeningEnd (s : State) : Host.Outcome State Fault Refusal :=
  .next (if s.pair.role = .listening ∧ s.pair.heldTick + fget s .PAIR_CTRL_startup_ticks ≤ tickNow s then
    { s with pair := { s.pair with listenOver := true } }
  else s)

/-! ### Heartbeats (R421, R422, R429, R437) -/

/-- The payload of a heartbeat (R421, Table 4). -/
def heartbeatData (s : State) : Bytes :=
  toLe 1 s.pair.role.code ++ toLe 1 (pairFlags s) ++ toLe 1 (ownClaim s) ++ toLe 1 s.pair.sync ++ toLe 4 s.pair.copyTick

/-- The heartbeat of a tick boundary, stamped as it leaves each port; the clock phase of the SerDes is a free value (R20, R278,
R402, R415, R421). -/
def sendHeartbeat (s : State) : State :=
  if s.pair.role ≠ .unpaired ∧ s.mast.fw ∧ !s.mast.down ∧ !fbit s .HST_FAULT_error then
    let s1 := sendPartner 2 (heartbeatData s) s
    let stamp := fun (s : State) (p : Nat) =>
      if carriesPartner s p then
        let phase := BitVec.ofNat 16 (Config.freeWord s.free).toNat
        let adj := portLat s (2 + p) false
        draw (putStay p { stayAt s p with hbSent := some (stampTime s adj phase), hbCount := stampCount s adj phase } s)
      else s
    [0, 1].foldl stamp s1
  else s

/-- What the sync state of a partner's heartbeat does to the device's own (R429, R432). -/
def followSync (sync : Nat) (active : Bool) (s : State) : State :=
  if s.pair.sync = 2 then
    if sync = 0 then unprotect 7 s
    else if active && sync == 1 then
      let s1 := unprotect 7 s
      { s1 with pair := { s1.pair with sync := 1, syncStart := tickNow s } }
    else s
  else if !active then s
  else if s.pair.sync = 1 then (if sync = 0 then { s with pair := { s.pair with sync := 0 } } else s)
  else if sync = 1 then { s with pair := { s.pair with sync := 1, cause := 7, syncStart := tickNow s } }
  else s

/-- A heartbeat of the partner, stamped on arrival (R415, R421, R422, R428, R429). -/
def takeHeartbeat (port : Nat) (f : StayIn) (s : State) : State :=
  let d := f.data
  let back := s.pair.lost
  let adj := portLat s (2 + port) true
  let at_ := stampTime s adj f.phase
  let near := decide (at_ / 65536 ≤ s.time.began + 50000) && decide (s.time.began ≤ at_ / 65536 + 50000)
  let active := leAt d 0 1 == 2
  let s1 := { s with pair := { s.pair with
    seen := true, lost := false, hbTick := tickNow s, pRole := leAt d 0 1, pFlags := BitVec.ofNat 8 (leAt d 1 1)
    aligned := f.tick.toNat == tickNow s && near
    role := if s.pair.role == .listening && active then .standby else s.pair.role } }
  let s0 := putStay port { stayAt s1 port with hbSeen := at_, hbSeenCount := stampCount s adj f.phase } s1
  let s2 := if (stayAt s port).hbSent.isNone then s0
    else draw (fset .STY_RTT_rtt_ns (Config.freeWord s0.free).toNat s0 port)
  let s3 := if back then raise 249 [(1, port)] s2 else s2
  let s4 := followSync (leAt d 3 1) active s3
  if s4.pair.sync = 2 ∧ !partnerFlag s4 0 then unprotect 6 s4 else s4

/-- HEARTBEAT (R421). -/
def execHeartbeat (port : Fin 2) (f : StayIn) (s : State) : Host.Outcome State Fault Refusal :=
  .next (receiveStay port 2 f (takeHeartbeat port f) s)

/-- PAIR_HEARTBEAT_LOST (R422). -/
def execPairHeartbeatLost (s : State) : Host.Outcome State Fault Refusal :=
  .next (if s.pair.seen then
    unprotect 2 (raise 248 [(8, s.pair.hbTick)] { s with pair := { s.pair with seen := false, lost := true } })
  else s)

/-- YIELD (R426, R438): the partner yields. -/
def execYield (port : Fin 2) (f : StayIn) (s : State) : Host.Outcome State Fault Refusal :=
  .next (receiveStay port 3 f (fun s => { s with pair := { s.pair with
    pFlags := s.pair.pFlags ||| 4, challengeAt := none } }) s)

/-- The pair's own condition of eligibility at a boundary (R429). -/
def watchPair (s : State) : State := if s.pair.sync = 2 ∧ !eligible s then unprotect 6 s else s

/-- An unpaired device owns its outputs from the first tick boundary after RUNNING (R413). -/
def ownUnpaired (s : State) : State :=
  if s.pair.role = .unpaired ∧ isRunning s ∧ !s.pair.owner ∧ s.age.wakeAsk.isNone then
    tdmGain { s with pair := { s.pair with owner := true } }
  else s

/-! ### Yielding and the pair commands (R438, R439) -/

/-- The active device yields (R438). -/
def yieldOwner (s : State) : State := sendPartner 3 [] { s with pair := { s.pair with yielding := true } }

/-- A command, or with `timed` a timed action, that asks for the yield and waits for its end; a yield under way serves it too
(R380, R438). -/
def yieldFor (seq : Nat) (timed : Bool) (s : State) : State :=
  let s1 := if s.pair.yielding then s else yieldOwner s
  { s1 with pair := { s1.pair with yieldCmds := s1.pair.yieldCmds ++ [(seq, timed)] } }

/-- PAIR_YIELD_FAILED (R438): the partner has won no round within 10 ms. -/
def execPairYieldFailed (s : State) : Host.Outcome State Fault Refusal :=
  .next (if s.pair.yielding ∧ s.pair.owner then raise 255 [(8, tickNow s)] (endYield 9 0 s) else s)

/-- Whether a pair command's payload and flags are well formed. -/
def pairForm (c : Cmd) (n : Nat) : Bool := (cmdPayload c.desc).length == n && cmdForm c.desc

/-- PAIR_SWITCH at once, or armed (R439). -/
def pairSwitch (c : Cmd) (s : State) : Option State :=
  if !pairForm c 0 then some (finishPair c.seq 3 0 s)
  else if cmdTimed c.desc then armCommand c none (pairData s 0) s
  else if s.pair.role = .unpaired then some (finishPair c.seq 0x0F 0 s)
  else if s.pair.role ≠ .active then some (finishPair c.seq 0x12 0 s)
  else if s.pair.sync ≠ 2 then some (finishPair c.seq 0x0F 0 s)
  else if s.pair.yielding then none
  else some (yieldFor c.seq false s)

/-- A timed PAIR_SWITCH at its boundary (R439). -/
def switchAction (seq : Nat) (s : State) : State :=
  if s.pair.role ≠ .active ∨ s.pair.sync ≠ 2 then timedResult seq 0x0F 0 s
  else yieldFor seq true s

/-- PAIR_HOLD (R420, R439). -/
def pairHold (c : Cmd) (s : State) : Option State :=
  let p := cmdPayload c.desc
  if !pairForm c 4 || !allZero (slice p 1 3) || 1 < leAt p 0 1 then some (finishPair c.seq 3 0 s)
  else
    let s1 := { s with pair := { s.pair with held := leAt p 0 1 == 1 } }
    some (finishPair c.seq 0 0 s1)

/-- Whether a bulk sync can start: an active device, heartbeats, both eligible, a partner link passed (R429, R432). -/
def syncReady (s : State) : Bool :=
  s.pair.role == .active && s.pair.sync == 0 && s.pair.seen && partnerLinked s && eligible s && partnerFlag s 0 &&
    s.pair.pRole == 3 && !s.pair.yielding

/-- A run of bytes whose layout the specification does not give: free bytes, free in number within a frame (log entry 80). -/
def freePayload (s : State) : Bytes := freeBytes s (Config.freeNat s.free % 9233)

/-- A bulk sync starts; a full-shadow one only with aligned ticks (R432). -/
def startSync (s : State) : State :=
  if !syncReady s then s
  else if pairMode s = 2 ∧ !s.pair.aligned then unprotect 9 s
  else
    let s1 := { s with pair := { s.pair with
      sync := 1, cause := 7, syncStart := tickNow s, syncBytes := Config.freeNat s.free, resynced := [] } }
    draw (sayPartner 9 (freePayload s1) (.sync (syncItems s1)) (draw s1))

/-- BULK_SYNC_START (R432). -/
def execBulkSyncStart (s : State) : Host.Outcome State Fault Refusal := .next (startSync s)

/-- PAIR_RESYNC (R439). -/
def pairResync (c : Cmd) (s : State) : Option State :=
  if !pairForm c 0 then some (finishPair c.seq 3 0 s)
  else if s.pair.role ≠ .active then some (finishPair c.seq 0x12 0 s)
  else some (finishPair c.seq 0 0 (startSync (unprotect 7 s)))

/-- PAIR_QUERY (R439). -/
def pairQuery (c : Cmd) (s : State) : Option State :=
  some (finishPair c.seq (if pairForm c 0 then 0 else 3) 0 s)

/-- PAIR_SWITCH (R438, R439). -/
def execPairSwitch (s : State) : Host.Outcome State Fault Refusal := .next (runCmd 0x40 pairSwitch s)
/-- PAIR_HOLD (R439). -/
def execPairHold (s : State) : Host.Outcome State Fault Refusal := .next (runCmd 0x41 pairHold s)
/-- PAIR_RESYNC (R439). -/
def execPairResync (s : State) : Host.Outcome State Fault Refusal := .next (runCmd 0x42 pairResync s)
/-- PAIR_QUERY (R439). -/
def execPairQuery (s : State) : Host.Outcome State Fault Refusal := .next (runCmd 0x43 pairQuery s)

end Sys2Proof.Machine
end

