-- ==== Sys2Proof/Machine/Ageing.lean ====
section
/-! DEFINITION. Tell-tales, the planner and its forecast, the ageing record, reefed mode and the wake-only state (R443 to
R464; log entries 40, 90 to 92). -/

namespace Sys2Proof.Machine

/-! ### Tell-tales and margins (R443 to R446) -/

/-- The margin last sampled on a tell-tale, ps. -/
def ttMargin (s : State) (t : Nat) : Int := asSigned 15 (fget s .AGE_TT_margin_ps t)
/-- The valid tell-tales of an island. -/
def validTts (s : State) (i : Nat) : List Nat := ((List.range 4).map (fun k => 4 * i + k)).filter (fun t => fbit s .AGE_TT_valid t)
/-- The margin of an island: the lowest of its valid tell-tales, none where fewer than two are valid (R445). -/
def islandMargin (s : State) (i : Nat) : Option Int :=
  match validTts s i with
  | t :: u :: r => some ((u :: r).foldl (fun m v => min m (ttMargin s v)) (ttMargin s t))
  | _ => none
/-- Whether an island's tell-tales are sampled: it runs, or a REEF_EXIT has restarted it (R457, R458). -/
def islandSampled (s : State) (i : Nat) : Bool :=
  !s.age.stopped.getLsbD i || (s.age.run.bind (fun r => r.exit_)).isSome
/-- The monitored islands that run, with their margins. -/
def monitored (s : State) : List (Nat × Int) :=
  (List.range 15).filterMap (fun i => if islandSampled s i then (islandMargin s i).map (fun m => (i, m)) else none)
/-- The margin that a list of islands gives one of them. -/
def marginIn (l : List (Nat × Int)) (i : Nat) : Option Int := (l.find? (fun p => p.1 == i)).map (fun p => p.2)
/-- The lowest margin of a list of islands, 0x8000 where there are none (R461). -/
def lowestMargin (l : List (Nat × Int)) : Int := l.foldl (fun m p => if m = -32768 then p.2 else min m p.2) (-32768)
/-- The lower margins of two lists, island by island; an island of either list is in the result. -/
def lowerMargins (a b : List (Nat × Int)) : List (Nat × Int) :=
  (List.range 15).filterMap (fun i => match marginIn a i, marginIn b i with
    | some x, some y => some (i, min x y)
    | some x, none => some (i, x)
    | none, y => y.map (fun y => (i, y)))

/-- One tell-tale outside the reference set sampled (R444, R445, R447). -/
def takeSample (t : Nat) (m d : Int) (s : State) : State :=
  let i := t / 4
  let odd := decide (m < -500) || decide (2000 < m) || decide (d < -2000) || decide (2000 < d)
  let n := if odd then tget s.age.bad t 0 + 1 else 0
  let falls := fbit s .AGE_TT_valid t && decide (3 ≤ n)
  let valid := fbit s .AGE_TT_valid t && !falls
  let s1 := { s with age := { s.age with bad := tset s.age.bad t n } }
  let s2 := setWord (RegId.addr .AGE_TT t)
    ((if valid then 2 ^ 31 else 0) + ofSigned 15 m * 65536 + ofSigned 16 d) s1
  let mar := islandMargin s2 i
  let s3 := fset .AGE_ISL_margin_ps (ofSigned 16 (mar.getD (-32768))) s2 i
  let s4 := if falls then raise 20 [(4, t), (1, i), (1, if mar.isNone then 1 else 0)] s3 else s3
  if valid && !odd && decide (m < (fget s .AGE_CFG_margin_floor_ps : Int)) then
    let s5 := raise 18 [(1, i), (4, t), (4, ofSigned 32 m)] s4
    if s5.age.run.isSome then s5 else { s5 with age := { s5.age with planAsk := true } }
  else s4

/-- The sample of the tick that ends, and the end of a sweep with tell-tale 63 (R444). -/
def sampleTelltale (m d : Int) (s : State) : State :=
  let t := s.age.next
  let s1 := if t < 60 ∧ islandSampled s (t / 4) then takeSample t m d s else s
  let s2 := { s1 with age := { s1.age with
    next := (t + 1) % 64
    run := s1.age.run.map (fun r => { r with wait := r.wait - 1 }) } }
  if t = 63 then
    let w := monitored s2
    { s2 with age := { s2.age with sweep := w, low := lowerMargins s2.age.low w } }
  else s2

/-- One more tick with a condition, or none (R454). -/
def countTicks (n : Nat) (b : Bool) : Nat := if b then n + 1 else 0

/-- The temperature read in the tick that ends: the counts of R454 and R459, event 22 as a count starts, the reef cause
thermal, and event 25 as the wake-only state comes by temperature (R446, R454, R459, R463). -/
def takeTemperature (c : Int) (s : State) : State :=
  let a := s.age
  let hot := countTicks a.hot (decide ((fget s .AGE_THERM_thermal_reef_c : Int) ≤ c))
  let very := countTicks a.veryHot (a.reefed && decide ((fget s .AGE_THERM_thermal_wake_c : Int) ≤ c))
  let s1 := { s with age := { a with
    temp := c, hot := hot, veryHot := very, tempSum := a.tempSum + c, tempTicks := a.tempTicks + 1 } }
  let s2 := if hot = 1 then raise 22 [(4, ofSigned 32 c), (1, 0)] s1 else s1
  let s3 := if very = 1 then raise 22 [(4, ofSigned 32 c), (1, 1)] s2 else s2
  let s4 := if hot = 100 then askReef 2 s3 else s3
  if very = 100 then raise 25 [(1, 1)] s4 else s4

/-- The supply at a tick boundary: the reef cause supply at the second boundary in a row (R454). -/
def watchSupply (s : State) : State :=
  let n := countTicks s.age.lowSup (fbit s .HST_FAULT_supply)
  let s1 := { s with age := { s.age with lowSup := n } }
  if n = 2 then askReef 4 s1 else s1

/-- The factor an hour adds to the stress hours: exactly 1 at 105 degrees C, less in a cooler hour, more in a hotter one
(R446). -/
def hourFactor (sum : Int) (ticks : Nat) : BitVec 32 :=
  let w := Config.accelFactor sum ticks
  if ticks = 0 then w
  else if sum = 105 * (ticks : Int) then 0x3F800000
  else if sum < 105 * (ticks : Int) then (if w.toNat < 0x3F800000 then w else 0x3F7FFFFF)
  else if 0x3F800000 < w.toNat ∧ w.toNat < 0x7F800000 then w
  else 0x3F800001

/-- The value of a binary32 result of the planner: the exact one where binary32 holds it, else a free one (R452). -/
def planExact (exact : Num) (free : Word) : Word :=
  let w := (toF32 exact).1
  if exact.isNan || !eqNum (ofF32 w) exact then free else w
/-- A sum of the planner. -/
def planSum (a b : Word) : Word := planExact (addNum nan32 (ofF32 a) (ofF32 b)) (Config.planAdd a b)
/-- A product of the planner. -/
def planProd (a b : Word) : Word := planExact (mulNum nan32 (ofF32 a) (ofF32 b)) (Config.planMul a b)

/-- HOUR_END (R446): a whole hour since the release of RESET_N has passed. -/
def execHourEnd (s : State) : Host.Outcome State Fault Refusal :=
  let a := s.age
  .next (if inReset s then s
    else { s with age := { a with
      hours := a.hours + 1, tempSum := 0, tempTicks := 0
      he := if s.mast.fw then planSum a.he (hourFactor a.tempSum a.tempTicks) else a.he } })

/-! ### Completion data (R461) -/

/-- AGE_STATUS.state: 0 NORMAL, 1 PLANNING, 2 REEFED (R447, R455, R464; log entry 90). -/
def ageState (s : State) : Nat := if s.age.run.isSome then 1 else if s.age.reefed then 2 else 0

/-- The 16 bytes of completion data. -/
def ageData (s : State) (eff : Nat) : Bytes :=
  toLe 8 eff ++ toLe 1 (ageState s) ++ toLe 1 s.age.vid.toNat ++ toLe 1 s.age.cluster ++ [0] ++
    toLe 2 (ofSigned 16 (lowestMargin (monitored s))) ++ zeros 2

/-- Completes a command of this chapter. -/
def finishAge (seq status eff : Nat) (s : State) : State := complete seq status (ageData s eff) s

/-! ### The forecast and the record (R451, R452) -/

/-- A small integer as a binary32 number. -/
def planInt (v : Int) : Word := (toF32 (ofInt v 0 false)).1
/-- The sums of an island. -/
def sumsAt (s : State) (i : Nat) : IslSums := tget s.age.sums i {}

/-- A point added to an island's sums (R451). -/
def addPoint (s : State) (p : Nat × Int) : State :=
  let q := sumsAt s p.1
  let x := Config.stressPower s.age.he
  let m := planInt p.2
  { s with age := { s.age with sums := tset s.age.sums p.1 {
      n := q.n + 1, sx := planSum q.sx x, sxx := planSum q.sxx (planProd x x)
      sm := planSum q.sm m, sxm := planSum q.sxm (planProd x m) } } }

/-- A measured change of an island's margin carried into its stored points (R451). -/
def shiftPoints (i : Nat) (d : Int) (s : State) : State :=
  let q := sumsAt s i
  { s with age := { s.age with sums := tset s.age.sums i { q with
      sm := planSum q.sm (planProd (planInt q.n) (planInt d))
      sxm := planSum q.sxm (planProd (planInt d) q.sx) } } }

/-- The islands that have a forecast: monitored, with seven points or more. -/
def forecastIslands (s : State) : List Nat :=
  ((monitored s).filter (fun p => decide (7 ≤ (sumsAt s p.1).n))).map (fun p => p.1)
/-- The exact value of a finite binary32 number. -/
def f32Rat (w : Word) : Option Rat :=
  match ofF32 w with
  | .fin neg m e =>
    let v : Rat := if 0 ≤ e then (m * 2 ^ e.toNat : Nat) else mkRat m (2 ^ (-e).toNat)
    some (if neg then -v else v)
  | _ => none

/-- The line m = a - b x that fits an island's points by least squares; none where its sums fix none (R451). -/
def fitLine (q : IslSums) : Option (Rat × Rat) := do
  let sx ← f32Rat q.sx
  let sxx ← f32Rat q.sxx
  let sm ← f32Rat q.sm
  let sxm ← f32Rat q.sxm
  let n : Rat := (q.n : Rat)
  let d := n * sxx - sx * sx
  if d = 0 then none
  else
    let b := (sx * sm - n * sxm) / d
    some ((sm + b * sx) / n, b)

/-- A value as a whole number reports it: the value itself, or one of the two beside it. -/
def reported (v : Rat) : Int := if v.den = 1 then v.num else v.floor + (if Config.reportsUp v.num v.den then 1 else 0)

/-- The forecast margin at 20 years at 105 degrees C (R451). -/
def eolRat (q : IslSums) : Option Rat := (fitLine q).map (fun f => f.1 - f.2 * mkRat 1119 100)

/-- The forecast end-of-life margin of an island in ps. -/
def eolOf (s : State) (i : Nat) : Int :=
  let q := sumsAt s i
  match eolRat q with
  | some v => reported v
  | none => Config.forecastEol q.n q.sx q.sxx q.sm q.sxm

/-- Whether the forecast end-of-life margin of an island lies below the floor (R451). -/
def eolLow (s : State) (i : Nat) : Bool :=
  match eolRat (sumsAt s i) with
  | some v => decide (v < (fget s .AGE_CFG_margin_floor_ps : Rat))
  | none => decide (eolOf s i < (fget s .AGE_CFG_margin_floor_ps : Int))

/-- The years to the floor of an island in units of 0.1, 0xFFFF where b ≤ 0 or the value would exceed 6,553.4 years (R451). -/
def yearsOf (s : State) (i : Nat) : Nat :=
  let q := sumsAt s i
  let floor := fget s .AGE_CFG_margin_floor_ps
  let free := min (Config.forecastYears q.n q.sx q.sxx q.sm q.sxm floor) 0xFFFF
  match fitLine q with
  | some (a, b) =>
    if b ≤ 0 then 0xFFFF
    else
      let x := (a - (floor : Rat)) / b
      let v := x * x * x * x * x / 876
      if v < 0 then free else if 65534 < v then 0xFFFF else (reported v).toNat
  | none => free

/-- AGE_ISL.eol_ps and AGE_LIFE after the points of a run (R451). -/
def forecast (s : State) : State :=
  let s1 := (List.range 15).foldl (fun s i =>
    fset .AGE_ISL_eol_ps (if (forecastIslands s).contains i then ofSigned 16 (eolOf s i) else 0x8000) s i) s
  fset .AGE_LIFE_years_to_floor ((forecastIslands s).foldl (fun n i => min n (yearsOf s i)) 0xFFFF) s1

/-- Event 21 for each island whose forecast lies below the floor (R451). -/
def forecastLow (s : State) : State :=
  (forecastIslands s).foldl (fun s i =>
    if eolLow s i then raise 21 [(1, i), (4, ofSigned 32 (eolOf s i))] s else s) s

/-- The identity field of the record. -/
def recordIdentity (s : State) : Bytes := if s.boot.idOk then (sha512 (identityKey s)).take 8 else zeros 8

/-- Bytes 0 to 379 of the ageing record (R452, Table 2). -/
def recordHead (s : State) : Bytes :=
  [0x41, 0x47, 0x45, 0x52] ++ toLe 2 1 ++ toLe 2 384 ++ recordIdentity s ++ toLe 4 (s.age.hours + s.age.hoursBase) ++
    toLe 4 s.age.he.toNat ++
    (List.range 15).flatMap (fun i =>
      let q := sumsAt s i
      toLe 4 q.n ++ toLe 4 q.sx.toNat ++ toLe 4 q.sxx.toNat ++ toLe 4 q.sm.toNat ++ toLe 4 q.sxm.toNat) ++
    toLe 1 s.age.vid.toNat ++ [0] ++ (List.range 15).flatMap (fun i => toLe 2 (clockFreq s i)) ++ zeros 24

/-- AGE_RECORD takes the current record (R447, R452). -/
def storeAgeRecord (s : State) : State :=
  let b := recordHead s ++ toLe 4 (crc32 (recordHead s))
  (List.range 96).foldl (fun s j => setWord (RegId.addr .AGE_RECORD j) (leAt b (4 * j) 4) s) s

/-! ### VID and the clocks (R386, R448 to R450) -/

/-- The VID code raised by one: event 19 (R448). -/
def raiseVid (s : State) : State :=
  let v := s.age.vid
  raise 19 [(1, v.toNat), (1, v.toNat + 1)] (setVid (v + 1) s)

/-- Samples to the end of the first sweep that begins with a later tick. -/
def sweepAfterTick (s : State) : Nat := 128 - s.age.next
/-- Samples to the end of the first sweep that begins now or later. -/
def sweepFromNow (s : State) : Nat := (64 - s.age.next) % 64 + 64

/-- One planner step of an island, MHz (R295, Table 1). -/
def plannerStep (i : Nat) : Nat := (islandClock i).1 / 100
/-- The budget that a plan of clock steps leaves a lane (R17, R449). -/
def stepBudget (p : StepSt) (s : State) (lane : Nat) : Nat :=
  match p.plan.find? (fun x => x.1 == clusterOf lane) with
  | some x => x.2 - 60
  | none => budget s lane
/-- The lanes of the clusters of a plan. -/
def planLanes (p : StepSt) : List Nat :=
  (p.plan.filter (fun x => decide (x.1 < 8))).flatMap (fun x => (List.range 16).map (fun k => 16 * x.1 + k))

/-- A lane for a channel under a plan: R36 with every cluster, the stepping ones at their new budgets (R449). -/
def placePlan (p : StepSt) (s : State) (cost skip : Nat) : Option Nat :=
  let room := fun l => min (planBudget s l) (stepBudget p s l)
  (List.range 128).foldl (fun best l =>
    if l != skip && laneUsable s l && decide (usedLu s l + cost ≤ room l) && decide (contexts s l + 1 ≤ 96) then
      match best with
      | none => some l
      | some b => if room b - usedLu s b < room l - usedLu s l then some l else best
    else best) none

/-- The channels of a lane that the planner may move, in the order of R43, dormant ones like any others (R450). -/
def planLeaving (s : State) (lane : Nat) : List Nat :=
  ((s.chans.filter (fun c => c.2.lane == lane && c.2.move.isNone && c.2.park.isNone)).foldl
    (fun l c => insertLeaving s c l) []).map (fun c => c.1)

/-- One channel leaves a lane for the planner: at most two attempts at a move, then a park (R449). -/
def planLeave (lane n : Nat) (s : State) : State :=
  match s.age.steps with
  | none => s
  | some p =>
    let k := tget p.tries n 0
    match (if k < 2 then placePlan p s (chanAt s n).cost lane else none) with
    | none => forcePark n s
    | some t =>
      startMove n { target := t, cost := (chanAt s n).cost }
        { s with age := { s.age with steps := some { p with tries := tset p.tries n (k + 1) } } }

/-- A lane brought within the budget that the plan leaves it (R449). -/
def planRelieve (p : StepSt) (s : State) (lane : Nat) : State :=
  (planLeaving s lane).foldl (fun s n => if stayingLu s lane ≤ stepBudget p s lane then s else planLeave lane n s) s

/-- The requested steps have been made: the steps counted, and a run waits for a fresh sweep (R448). -/
def stepsDone (p : StepSt) (s : State) : State :=
  let done := p.plan.filter (fun x => clockFreq s x.1 == x.2)
  let mask : BitVec 15 := done.foldl (fun m x => m ||| BitVec.ofNat 15 (2 ^ x.1)) 0
  let s1 := fbump .AGE_COUNT_steps done.length { s with age := { s.age with steps := none } }
  if p.mine then
    { s1 with age := { s1.age with run := s1.age.run.map (fun r => { r with
        stepped := r.stepped ||| mask, wait := sweepFromNow s
        before := r.before.filter (fun b => done.any (fun x => x.1 == b.1)) }) } }
  else s1

/-- Clock steps in progress: channels moved off, then the steps requested, then the end of the last switch (R296, R449). -/
def advanceSteps (s : State) : State :=
  match s.age.steps with
  | none => s
  | some p =>
    if p.asked then (if p.plan.all (fun x => clockState s x.1 == 0) then stepsDone p s else s)
    else
      let s1 := (planLanes p).foldl (planRelieve p) s
      if (planLanes p).any (fun l => decide (stepBudget p s1 l < usedLu s1 l)) then s1
      else
        let s2 := p.plan.foldl (fun s x => requestClock x.1 x.2 true s) s1
        { s2 with age := { s2.age with steps := some { p with asked := true } } }

/-- Whether a full-shadow standby may lower a cluster's clock: the used LU that the copies show fits every lane (R450). -/
def shadowAllows (s : State) (i f : Nat) : Bool :=
  !(isStandby s && pairMode s == 2 && decide (i < 8)) ||
    (List.range 16).all (fun k => decide (usedLu s (16 * i + k) ≤ f - 60))

/-- The next clock steps of a run: every steppable island below the target that lies a step above its minimum (R448). -/
def stepPlan (s : State) : List (Nat × Nat) :=
  s.age.sweep.filterMap (fun p =>
    let f := clockFreq s p.1 - plannerStep p.1
    if p.2 < (fget s .AGE_CFG_margin_target_ps : Int) ∧ (islandClock p.1).2.2.2 ∧ islandSampled s p.1 ∧
        (islandClock p.1).2.1 + plannerStep p.1 ≤ clockFreq s p.1 ∧ shadowAllows s p.1 f then
      some (p.1, f)
    else none)

/-! ### A planner run (R447, R448, R458) -/

/-- A run starts. A REEF_EXIT's run waits for the sweep of the restarted islands. -/
def beginRun (exit_ cmd : Option Nat) (s : State) : State :=
  let r : RunSt := { exit_ := exit_, cmd := cmd, wait := if exit_.isSome then sweepAfterTick s else 0 }
  { s with age := { s.age with run := some r, lastPlan := some (tickNow s), planAsk := false } }

/-- The decision of REEF_EXIT at the end of its run (R458, R462). -/
def exitDecision (seq : Nat) (s : State) : State :=
  let a := s.age
  let floor : Int := fget s .AGE_CFG_margin_floor_ps
  if a.exitFail || (monitored s).any (fun p => decide (p.2 < floor)) ||
      decide ((fget s .AGE_THERM_thermal_reef_c : Int) - 5 ≤ a.temp) || fbit s .HST_FAULT_supply ||
      decide (fget s .ERR_UE_RATE_threshold ≤ fget s .ERR_UE_RATE_window_count) then
    finishAge seq 0x0F 0 s
  else { s with age := { a with leave := some seq } }

/-- A run ends: points, forecast, record, counter, event 16, event 21, and what waited for it (R447, R451). -/
def endRun (r : RunSt) (s : State) : State :=
  let pts := r.first.filter (fun p => (islandMargin s p.1).isSome)
  let s1 := forecast (pts.foldl addPoint s)
  let s2 := fbump .AGE_COUNT_plans 1 { s1 with age := { s1.age with run := none, low := [] } }
  let bad := match r.exit_ with
    | some seq => exitDecision seq
    | none => id
  let islands := ((List.range 15).filter (fun i => r.stepped.getLsbD i)).length
  let s3 := raise 16 [(1, s2.age.vid.toNat), (4, islands), (4, ofSigned 32 (lowestMargin (monitored s)))] (storeAgeRecord s2)
  let s4 := forecastLow s3
  let s5 := match r.cmd with
    | some seq => finishAge seq 0 0 s4
    | none => s4
  bad s5

/-- The change that a run measured, carried into the stored points and the run's own (R451). -/
def measureChange (r : RunSt) (s : State) : RunSt × State :=
  r.before.foldl (fun (x : RunSt × State) b =>
    match marginIn x.2.age.sweep b.1 with
    | none => x
    | some m =>
      let d := m - b.2
      ({ x.1 with first := x.1.first.map (fun p => if p.1 = b.1 then (p.1, p.2 + d) else p) }, shiftPoints b.1 d x.2))
    ({ r with before := [] }, s)

/-- A run's next step once nothing is waited for: VID, then clock steps, then the events of steps 4 and 5 and the end
(R448). -/
def decideRun (r : RunSt) (s : State) : State :=
  let target : Int := fget s .AGE_CFG_margin_target_ps
  let floor : Int := fget s .AGE_CFG_margin_floor_ps
  let w := s.age.sweep
  let low := w.filter (fun p => decide (p.2 < target))
  let put := fun (r : RunSt) (s : State) => { s with age := { s.age with run := some r } }
  if !low.isEmpty && decide (s.age.vid.toNat < fget s .AGE_CFG_vid_max) then
    put { r with before := w, wait := sweepAfterTick s } (raiseVid s)
  else
    let plan := stepPlan s
    if !plan.isEmpty then
      let s1 := put { r with before := w.filter (fun p => plan.any (fun x => x.1 == p.1)) } s
      { s1 with age := { s1.age with steps := some { plan := plan, mine := true } } }
    else
      let s1 := low.foldl (fun s p => raise 17 [(1, p.1), (4, ofSigned 32 p.2), (4, ofSigned 32 target)] s) (put r s)
      endRun r (if w.any (fun p => decide (p.2 < floor)) then askReef 1 s1 else s1)

/-- A run taken further (R448, R462). -/
def runStep (s : State) : State :=
  match s.age.run with
  | none => s
  | some r =>
    if r.wait ≠ 0 ∨ s.age.steps.isSome then s
    else if r.ending then endRun r s
    else
      let x := measureChange r s
      let r1 := if r.begun then x.1
        else { x.1 with begun := true, first := lowerMargins x.2.age.sweep (x.2.age.low.filter (fun p =>
          (marginIn x.2.age.sweep p.1).isSome)) }
      decideRun r1 x.2

/-- PLANNER_RUN (R448): the run in progress, or a restored record's clock steps, taken as far as they come without waiting. -/
def execPlannerRun (s : State) : Host.Outcome State Fault Refusal :=
  .next (if s.mast.fw && !s.mast.down then advanceSteps (runStep (advanceSteps s)) else s)

/-- Whether a run is due at a tick boundary: 10 s after RUNNING, an interval after the start of the previous one, or after a
sample below the floor (R447). -/
def runDue (s : State) : Bool :=
  s.age.planAsk || tickNow s == s.pair.heldTick + 10001 ||
    (match s.age.lastPlan with
      | some t => decide (t + fget s .AGE_CFG_plan_interval_h * 3600000 ≤ tickNow s)
      | none => false)

/-- The start of a due run at a tick boundary. -/
def startDue (s : State) : State :=
  if isRunning s && s.mast.fw && !s.mast.down && s.age.run.isNone && s.age.wakeAsk.isNone && runDue s then beginRun none none s
  else s

/-! ### Commands of the planner (R447, R453, R461) -/

/-- Whether a command of this chapter has a payload length and well-formed flags. -/
def ageForm (c : Cmd) (n : Nat) : Bool := (cmdPayload c.desc).length == n && cmdForm c.desc

/-- PLAN_RUN (R447, R461). -/
def planRun (c : Cmd) (s : State) : Option State :=
  if !ageForm c 0 then some (finishAge c.seq 3 0 s)
  else if cmdTimed c.desc then armCommand c none (ageData s 0) s
  else if s.age.run.isSome then some (finishAge c.seq 9 0 s)
  else some (beginRun none (some c.seq) s)

/-- A timed PLAN_RUN at its boundary (R290, R461). -/
def planAction (seq : Nat) (s : State) : State :=
  if s.age.run.isSome then timedResult seq 9 0 s else timedResult seq 0 (tickNow s) (beginRun none none s)

/-- Whether a record is refused (R453). -/
def ageRecordBad (s : State) (b : Bytes) : Bool :=
  b.length != 384 || slice b 0 4 != [0x41, 0x47, 0x45, 0x52] || leAt b 4 2 != 1 || leAt b 6 2 != 384 ||
    leAt b 380 4 != crc32 (slice b 0 380) || slice b 8 8 != recordIdentity s || leAt b 325 1 != 0 ||
    !allZero (slice b 356 24)

/-- The sums of a record. -/
def recordSums (b : Bytes) : Tab IslSums :=
  (List.range 15).map (fun i =>
    let o := 24 + 20 * i
    let w := fun k => BitVec.ofNat 32 (leAt b (o + k) 4)
    (i, { n := leAt b o 4, sx := w 4, sxx := w 8, sm := w 12, sxm := w 16 }))

/-- The clocks that a record lowers: steppable islands whose recorded clock lies in range and below the current one. -/
def recordClocks (s : State) (b : Bytes) : List (Nat × Nat) :=
  (List.range 15).filterMap (fun i =>
    let f := leAt b (326 + 2 * i) 2
    if (islandClock i).2.2.2 ∧ (islandClock i).2.1 ≤ f ∧ f < clockFreq s i then some (i, f) else none)

/-- PLAN_RECORD_SET (R453, R462). -/
def planRecordSet (c : Cmd) (s : State) : Option State :=
  let b := cmdPayload c.desc
  if !cmdForm c.desc then some (finishAge c.seq 3 0 s)
  else if s.age.run.isSome then some (finishAge c.seq 9 0 s)
  else if s.age.steps.isSome then none
  else if ageRecordBad s b then some (finishAge c.seq 3 0 (raise 26 [(1, 1)] s))
  else
    let clocks := recordClocks s b
    let now := clocks.filter (fun x => !s.age.stopped.getLsbD x.1)
    let code := leAt b 324 1
    let goal := s.age.vid.toNat < code ∧ code ≤ fget s .AGE_CFG_vid_max
    let s1 := { s with age := { s.age with
      hoursBase := leAt b 16 4, he := BitVec.ofNat 32 (leAt b 20 4), sums := recordSums b
      vidGoal := if goal then some (BitVec.ofNat 4 code) else none
      lower := clocks.filter (fun x => s.age.stopped.getLsbD x.1)
      steps := if now.isEmpty then none else some { plan := now } } }
    some (finishAge c.seq 0 0 (raise 26 [(1, 0)] (storeAgeRecord s1)))

/-- A restored record's VID code, one code at a tick boundary (R386, R453). -/
def followRecord (s : State) : State :=
  match s.age.vidGoal with
  | none => s
  | some g =>
    if s.age.vid < g then raiseVid s else { s with age := { s.age with vidGoal := none } }

/-! ### Reefing (R454 to R456) -/

/-- The faulted lanes of a cluster. -/
def faultedLanes (s : State) (c : Nat) : Nat :=
  ((List.range 16).filter (fun k => (laneAt s (16 * c + k)).st == .faulted)).length
/-- How a cluster's margin ranks: an unmonitored cluster lowest. -/
def marginRank (s : State) (c : Nat) : Int := (islandMargin s c).getD (-100000)
/-- The first of the best of a list under a preference. -/
def firstBest (better : Nat → Nat → Bool) : List Nat → Option Nat
  | [] => none
  | a :: t => some (t.foldl (fun b x => if better x b then x else b) a)

/-- The reef cluster (R456). -/
def chooseReef (s : State) : Option Nat :=
  let rigged := (List.range 8).filter (fun c => s.rig.rigged.getLsbD c)
  let good := rigged.filter (fun c => faultedLanes s c == 0 && !s.age.ueHit.getLsbD c)
  match firstBest (fun a b => decide (marginRank s b < marginRank s a)) good with
  | some c => some c
  | none =>
    firstBest (fun a b => decide (faultedLanes s a < faultedLanes s b)) (rigged.filter (fun c => decide (faultedLanes s c < 16)))

/-- A channel parks at once (R39, R455). -/
def parkAtOnce (n : Nat) (s : State) : State :=
  parkNow n (modChan n (fun c => { c with park := some (c.park.getD {}) }) s)

/-- Whether a waiting admission is refused with REEFED: every one, or those that would leave a channel without the keep flag
(R49). -/
def admissionReefed (s : State) (every : Bool) (r : AdmitReq) : Bool :=
  every || (match checkAdmit s r.acc r.oth r.ps with
    | .inl st => st == 0x11
    | .inr _ => false)

/-- The waiting admissions that reefing refuses (R49). -/
def refuseAdmissions (every : Bool) (s : State) : State :=
  s.mast.effects.foldl (fun t e => match e with
    | .admission r => if admissionReefed s every r then finish r.seq 0x11 r.acc 0 t else addEffect e t
    | _ => addEffect e t) { s with mast := { s.mast with effects := [] } }

/-- A kept channel at B0: it stays on the reef cluster, moves there, or parks (R456, R462). -/
def reefKept (rc : Option Nat) (n : Nat) (s : State) : State :=
  match rc with
  | none => forcePark n s
  | some c =>
    let toReef := match (chanAt s n).move with
      | some m => m.target / 16 == c
      | none => false
    let join := fun (s : State) => { s with age := { s.age with moves := s.age.moves ++ [n] } }
    if toReef then join s
    else
      let s1 := abandonMove n s
      if clusterOf (chanAt s1 n).lane = c then s1
      else match place s1 (2 ^ c) (chanAt s1 n).cost none with
        | some t => join (startMove n { target := t, cost := (chanAt s1 n).cost } s1)
        | none => forcePark n s1

/-- One channel at B0; a kept one loses its checkpoints and the windows beyond 128 ms (R49, R130, R186, R455, R456). -/
def reefChannel (rc : Option Nat) (s : State) (n : Nat) : State :=
  let kept := chanParam s n 0x0101 == 1
  if kept then reefKept rc n (fitWindows n (keepCheckpoints n 1 (keepCheckpoints n 0 s))) else parkAtOnce n s

/-- What reefing does to a planner run: it ends, once its requested steps have completed (R462). -/
def reefRun (s : State) : State :=
  match s.age.run with
  | none => s
  | some r => match s.age.steps with
    | some p =>
      if p.asked ∧ p.mine then { s with age := { s.age with run := some { r with ending := true } } }
      else if p.mine then endRun r { s with age := { s.age with steps := none } }
      else endRun r s
    | none => endRun r s

/-- The moves of reef entry have ended: the other clusters and the bundle island stop, and event 23 is raised (R455, R456). -/
def reefSettled (s : State) : State :=
  if s.age.entering && s.age.moves.isEmpty then
    let rc := s.age.cluster
    let keep : Nat := if rc < 8 then 2 ^ rc else 0
    let s1 := fset .AGE_REEF_kept (keepCount s) { s with age := { s.age with
      entering := false, stopped := BitVec.ofNat 15 (0x4FF - keep) } }
    raise 23 [(1, fget s1 .AGE_REEF_causes), (1, rc), (4, fget s1 .AGE_REEF_kept), (4, fget s1 .AGE_REEF_parked),
      (8, s.age.b0)] s1
  else s

/-- Reef entry at B0 (R455, Table 4). -/
def reefEntry (s : State) : State :=
  let t := tickNow s
  let rc := chooseReef s
  let cmds := s.age.askCmds
  let drop := (s.chans.filter (fun p => (p.2.live || p.2.dormant) && chanParam s p.1 0x0101 != 1)).length
  let s1 := rigAbort (reefRun s)
  let s2 := { s1 with age := { s1.age with
    reefed := true, cluster := rc.getD 0xFF, b0 := t, due := 0, ask := 0, askCmds := [], entering := true, moves := [] } }
  let s3 := fset .AGE_REEF_parked drop (fset .AGE_REEF_causes s.age.due.toNat (fbump .AGE_COUNT_reefs 1 s2))
  let s4 := refuseAdmissions rc.isNone ((s3.chans.map (fun c => c.1)).foldl (reefChannel rc) s3)
  let s5 := noteIbi (reefHoldover (peersReef s4))
  reefSettled (cmds.foldl (fun s seq => finishAge seq 0 t s) s5)

/-- REEF_ENTRY (R454, R455): the boundary after a reef cause has come. -/
def execReefEntry (s : State) : Host.Outcome State Fault Refusal :=
  .next (if s.age.due != 0 && !s.age.reefed && isRunning s then reefEntry s else s)

/-- REEF_ENTER (R454, R461). -/
def reefEnter (c : Cmd) (s : State) : Option State :=
  if !ageForm c 0 then some (finishAge c.seq 3 0 s)
  else if s.age.reefed then some (finishAge c.seq 0x0F 0 s)
  else some (askReef 16 { s with age := { s.age with askCmds := s.age.askCmds ++ [c.seq] } })

/-! ### Leaving reefed mode (R458) -/

/-- REEF_EXIT (R458, R462): the stopped islands restart, at the clocks that a record asked for, and the planner runs. -/
def reefExit (c : Cmd) (s : State) : Option State :=
  if !ageForm c 0 then some (finishAge c.seq 3 0 s)
  else if !s.age.reefed then some (finishAge c.seq 0x0F 0 s)
  else if s.age.run.isSome || s.age.leave.isSome || s.age.entering || s.age.steps.isSome then none
  else
    let s1 := s.age.lower.foldl (fun s x => if x.2 < clockFreq s x.1 then switchClock x.1 x.2 s else s) s
    some (beginRun (some c.seq) none { s1 with age := { s1.age with lower := [], exitFail := false } })

/-- A lane of a cluster that restarts: data memory cleared, program memory kept; a faulted lane stays faulted (R79, R458). -/
def restartLane (s : State) (l : Nat) : State :=
  let x := laneAt s l
  let s1 := clearRange (laneBase l) 0x80000 s
  if x.st = .faulted then s1 else putLane l { x with st := .idle, word := none, late := false, list := [] } s1

/-- The device leaves reefed mode at boundary E, or the exit fails by a cause that arose before it (R458, R462). -/
def leaveReef (s : State) : State :=
  match s.age.leave with
  | none => s
  | some seq =>
    let s1 := { s with age := { s.age with leave := none } }
    if s.age.exitFail then finishAge seq 0x0F 0 s1
    else
      let back := (List.range 8).filter (fun c => s.age.stopped.getLsbD c && s.rig.rigged.getLsbD c)
      let s2 := (back.flatMap (fun c => (List.range 16).map (fun k => 16 * c + k))).foldl restartLane s1
      let s3 := { s2 with age := { s2.age with reefed := false, stopped := 0, cluster := 0xFF } }
      let s4 := noteIbi (reefRelease (peersRestart 0 s3))
      finishAge seq 0 (tickNow s) (raise 24 [(8, tickNow s)] s4)

/-! ### The wake-only state (R459, R460) -/

/-- WAKE_ONLY (R459). -/
def wakeOnly (c : Cmd) (s : State) : Option State :=
  if !ageForm c 0 then some (finishAge c.seq 3 0 s)
  else if s.age.wakeAsk.isSome then none
  else if fbit s .SVC_CTRL_enable && (fbit s .SVC_WAKE_magic_en || fget s .SVC_WAKE_pattern_en != 0) then
    some { s with age := { s.age with wakeCmd := some c.seq, wakeAsk := some 1 } }
  else some (finishAge c.seq 0x0F 0 s)

/-- The halyard released and ownership lost on the way to the wake-only state (R425, R459). -/
def wakeRelease (s : State) : State :=
  let s1 := { s with pair := { s.pair with round := none, gaining := false } }
  if !s.pair.owner then s1
  else if pairMode s = 0 then tdmRelease { s1 with pair := { s1.pair with owner := false } }
  else loseOwner (fget s .PAIR_HALYARD_last_claim) s1

/-- The planner's run abandoned: the PLAN_RUN or the REEF_EXIT that made it completes with BAD_STATE (R54, R459; log entry
92). -/
def abandonRun (s : State) : State :=
  let s1 := { s with age := { s.age with run := none, steps := none } }
  match s.age.run with
  | none => s1
  | some r => (r.exit_.toList ++ r.cmd.toList).foldl (fun s seq => finishAge seq 0x0F 0 s) s1

/-- The tick boundary after an accepted WAKE_ONLY: every channel parked, ownership lost, a planner run and a re-rig
abandoned, event 25, the command complete (R459, R462). -/
def wakeBoundary (s : State) : State :=
  if s.age.wakeAsk = some 1 then
    let s1 := refuseAdmissions true ((s.chans.map (fun c => c.1)).foldl (fun s n => parkAtOnce n s) s)
    let s2 := rigAbort (wakeRelease (abandonRun { s1 with age := { s1.age with wakeAsk := some 2, wakeCmd := none } }))
    let s3 := raise 25 [(1, 0)] s2
    match s.age.wakeCmd with
    | some seq => finishAge seq 0 (tickNow s) s3
    | none => s3
  else s

/-- The wake-only state: the always-on island and the SVC receive path alone keep what they hold, and VID drives code 0
(R459; log entry 92). -/
def enterWake (cause : Nat) (s : State) : State :=
  let t := resetDevice (fget s .PWR_RESET_cause) s
  let svc := s.regs.filter (fun p => decide (0x220000 ≤ p.1 ∧ p.1 < 0x230000))
  { svc.foldl (fun t p => setWord p.1 p.2.toNat t) t with
    supply := (setVid 0 s).supply
    age := { t.age with wake := some cause, vid := 0, temp := s.age.temp, hours := s.age.hours } }

/-- WAKE_ONLY_ENTER (R459): 10 ms after the boundary of an accepted WAKE_ONLY, or by temperature while reefed. -/
def execWakeOnlyEnter (s : State) : Host.Outcome State Fault Refusal :=
  .next (if s.age.wakeAsk = some 2 then enterWake 0 s
    else if s.age.reefed ∧ 100 ≤ s.age.veryHot then enterWake 1 s
    else s)

/-- WAKE_ONLY_EXIT (R460): a wake match ends the state entered by command, 10 s below thermal_reef_c − 10 the state entered by
temperature; the boot stages run. -/
def execWakeOnlyExit (match_ : Bool) (bootSel : BitVec 2) (s : State) : Host.Outcome State Fault Refusal :=
  let hit := fbit s .SVC_WAKE_magic_hit || fget s .SVC_WAKE_pattern_hit != 0
  .next (if (s.age.wake = some 0 ∧ match_ ∧ hit) ∨ (s.age.wake = some 1 ∧ !match_) then startBoot bootSel (resetDevice 3 s)
    else s)

/-! ### The commands -/

/-- PLAN_RUN (R447). -/
def execPlanRun (s : State) : Host.Outcome State Fault Refusal := .next (runCmd 0x50 planRun s)
/-- PLAN_RECORD_SET (R453). -/
def execPlanRecordSet (s : State) : Host.Outcome State Fault Refusal := .next (runCmd 0x51 planRecordSet s)
/-- REEF_ENTER (R454). -/
def execReefEnter (s : State) : Host.Outcome State Fault Refusal := .next (runCmd 0x52 reefEnter s)
/-- REEF_EXIT (R458). -/
def execReefExit (s : State) : Host.Outcome State Fault Refusal := .next (runCmd 0x53 reefExit s)
/-- WAKE_ONLY (R459). -/
def execWakeOnly (s : State) : Host.Outcome State Fault Refusal := .next (runCmd 0x54 wakeOnly s)

/-! ### Tick boundaries -/

/-- What a tick boundary brings to this chapter before the tick's channels are settled: the wake-only boundary, boundary E,
the causes that now fall due, the record's VID code, a run that is due (R447, R453, R454, R458, R459). -/
def ageBegins (s : State) : State :=
  let s1 := leaveReef (wakeBoundary s)
  let s2 := { s1 with age := { s1.age with due := if s1.age.reefed then 0 else s1.age.due ||| s1.age.ask, ask := 0 } }
  startDue (followRecord s2)

/-- What the sensors gave in the tick that ended (R444, R446, R454). -/
def ageSamples (temp : BitVec 8) (margin drift : BitVec 16) (s : State) : State :=
  watchSupply (takeTemperature temp.toInt (sampleTelltale margin.toInt drift.toInt s))

end Sys2Proof.Machine
end

