-- ==== Sys2Proof/Machine/Classify.lean ====
section
/-! DEFINITION. The flow classifier (R29 to R31, R233, R236, R431). -/

namespace Sys2Proof.Machine

/-- The peer enabled on a port, with an encapsulation, whose template a condition selects. -/
def peerFor (s : State) (port : Nat) (udp : Bool) (want : Bytes → Bool) : Option Nat :=
  (List.range 64).find? (fun k =>
    (peerAt s k).on && fget s .BND_PEER_CTRL_port k == port && fbit s .BND_PEER_CTRL_encap k == udp && want (peerRec s k))

/-- The RTP key of a datagram, both ports less `minus` (R29). -/
def rtpKey (port vlan : Nat) (v6 : Bool) (src dst : Bytes) (sport dport minus : Nat) : Bytes :=
  [if v6 then 3 else 2, BitVec.ofNat 8 port] ++ toLe 2 vlan ++ dst ++ src ++ toBe 2 (dport - minus) ++ toBe 2 (sport - minus)

/-- An RTP or RTCP datagram for an entry (R31, R140, R144). -/
def legPacket (h : Nat) (rtcp : Bool) (data : Bytes) (s : State) : State :=
  match liveChan s h with
  | none => parkedDrop h s
  | some n =>
    let l := legOfHandle (chanAt s n) h
    if rtcp then rtcpPacket n l data s else rtpPacket n l data s

/-- A frame on its way to an entry, rows 5 to 7 of Table 3. -/
def sessionFrame (port : Nat) (f : Bytes) (u : Bool × Bytes × Bytes × Nat × Nat × Bytes) (s : State) : State :=
  let (v6, src, dst, sport, dport, data) := u
  let key := fun (m : Nat) => rtpKey port (frameVlan f) v6 src dst sport dport m
  let a := lookup (key 0) 11 s
  match a.1 with
  | some h => legPacket h false data a.2
  | none =>
    let b := if 1 < sport ∧ 1 < dport then lookup (key 1) 11 a.2 else (none, a.2)
    match b.1 with
    | some h => legPacket h true data b.2
    | none => fbump .FLT_DROP_no_session 1 b.2

/-- A frame through the classifier (R233, Table 3). -/
def classify (port : Nat) (f : Bytes) (s : State) : State :=
  let et := fun (r : Bytes) => beAt r 16 2 == frameEt f
  if (peerFor s port false et).isSome then
    match peerFor s port false (fun r => et r && slice r 2 6 == slice f 6 6) with
    | some k => receiveBundle k (f.drop (frameOff f)) s
    | none => raiseLimited 184 0 1 [(8, leNat (slice f 6 6))] (fbump .BND_NO_PEER_frames 1 s)
  else match udpOf f with
    | none => fbump .FLT_DROP_bad_ip 1 s
    | some u =>
      let (v6, src, dst, sport, dport, data) := u
      match peerFor s port true (fun r => v6 && slice r 34 16 == src && slice r 18 16 == dst &&
          beAt r 52 2 == sport && beAt r 50 2 == dport) with
      | some k => receiveBundle k data s
      | none => sessionFrame port f u s

/-- The oldest forwarded frame of a port (R431). -/
def nextForward (s : State) (port : Nat) : Option (Nat × Nat × Bytes) :=
  (s.pair.fwd.filter (fun f => f.2.1 == port)).foldl (fun best f =>
    match best with
    | none => some f
    | some b => if f.1 < b.1 then some f else best) none

/-- CLASSIFY_FRAME (R233): the oldest frame of a port's classifier-bound rings; on a standby, the oldest forwarded frame
(R236, R431). -/
def execClassifyFrame (port : Fin 2) (s : State) : Host.Outcome State Fault Refusal :=
  .next (if isStandby s then
      match nextForward s port with
      | none => s
      | some f =>
        let s1 := { s with pair := { s.pair with
          fwd := s.pair.fwd.filter (fun x => x != f), fwdTick := some (f.1 / 2 ^ 24) } }
        let s2 := classify port f.2.2 s1
        { s2 with pair := { s2.pair with fwdTick := none } }
    else match oldestFor s port 0 with
      | none => s
      | some (q, f) => classify port f.bytes (takeRx port q f s))

end Sys2Proof.Machine
end

