-- ==== Sys2Proof/Machine/Errors.lean ====
section
/-! DEFINITION. The mast island's resets and the command journal, uncorrectable words in transfers, the cellar's protection,
and the posting of events (R16, R20, R394, R396, R397, R399, R402, R403, R406 to R409). -/

namespace Sys2Proof.Machine

/-! ### The mast island (R20, R387, R399, R402, R403) -/

/-- The pushes that the mast island has in progress are cut (R309). -/
def cutMastPushes (s : State) : State :=
  (s.ques.filter (fun q => fget s .QUE_CFG_producer q.1 == 8)).foldl (fun s q =>
    (List.range q.2.ports.length).foldl (fun s k => abandonPush q.1 k s) s) s

/-- A mast island reset: its outputs, its firmware's work in progress and an unread response go; the third within 10,000
ticks is fatal (R20, R342, R356, R387, R402; log entry 75). -/
def resetMast (by_ : Nat) (s : State) : State :=
  let now := tickNow s
  let recent := s.mast.resets.filter (fun t => decide (now < t + 10000)) ++ [now]
  let s1 := { s with
    mast := { s.mast with down := true, resets := recent }
    host := { s.host with resp := none }
    boot := { s.boot with busy := false, ready := s.boot.ready && !s.boot.busy }
    age := { s.age with run := none, steps := none } }
  let s2 := cutMastPushes (rigAbort (fbump .MST_RESTART_restarts 1 s1))
  let s3 := noteIbi (fset .HST_FAULT_mast_watchdog 1 s2)
  if 3 ≤ recent.length then fatal 2 by_ s3 else s3

/-- The resets within the last 10,000 ticks, with one now. -/
def resetCount (s : State) : Nat := (s.mast.resets.filter (fun t => decide (tickNow s < t + 10000))).length + 1

/-- MAST_WATCHDOG (R20): the firmware has not served the watchdog for 50 ms. -/
def execMastWatchdog (s : State) : Host.Outcome State Fault Refusal :=
  .next (if s.mast.fw && !s.mast.down then resetMast 1 (raise 1 [(4, resetCount s)] s) else s)

/-- MAST_MEM_UE (R399): an uncorrectable mast memory word, with the journal words that are uncorrectable noted for the restart
(R403). -/
def execMastMemUe (word : MastWord) (s : State) : Host.Outcome State Fault Refusal :=
  .next (if s.mast.fw then
    let s1 := { s with mast := { s.mast with badWords := s.mast.badWords ++ word.journal.map (fun w => w.toNat) } }
    if s.mast.down then s1
    else resetMast 4 (raise 4 [(4, word.offset.toNat)] (fbump .MST_MEM_ECC_uncorrected 1 s1))
  else s)

/-- What a command that is executed again had begun, undone: nothing of it has taken effect yet (R403). -/
def unissue (seq : Nat) (s : State) : State :=
  let s1 := s.chans.foldl (fun s p =>
    let c := p.2
    if (c.park.bind (fun k => k.seq)) = some seq then modChan p.1 (fun c => { c with park := none }) s
    else match c.move with
      | some m =>
        if m.phase < 2 ∧ (m.cmd = some seq ∨ (m.mod.map (fun r => r.seq)) = some seq) then
          setEntries p.1 .active (modChan p.1 (fun c => { c with move := none }) s)
        else s
      | none => s) s
  let effects := s1.mast.effects.filter (fun e => match e with
    | .admission r => r.seq != seq
    | .change r => r.seq != seq
    | .park n => (chanAt s1 n).park.isSome)
  let reads := s1.mast.reads.filter (fun r => r.1 != seq)
  { s1 with mast := { s1.mast with effects := effects, reads := reads } }

/-- Whether a command's move has switched lanes already, so that its boundary has passed. -/
def switched (s : State) (seq : Nat) : Bool :=
  s.chans.any (fun p => match p.2.move with
    | some m => decide (2 ≤ m.phase) && (m.cmd == some seq || m.mod.map (fun r => r.seq) == some seq)
    | none => false)

/-- The journal commands with an uncorrectable word complete with DROPPED in their place (R403). -/
def dropJournal (bad : List Nat) (s : State) : State :=
  (s.host.cmds.filter (fun c => c.taken && bad.contains c.seq)).foldl (fun s c =>
    let s1 := if c.done.isSome || switched s c.seq then s else unissue c.seq s
    { s1 with host := { s1.host with cmds := s1.host.cmds.map (fun k =>
        if k.seq = c.seq then { k with done := some (cplRecord k.desc k.seq 8 (noneData (cmdOp k.desc))) } else k) } }) s

/-- Event 33 of a re-rig that completed while the mast island was down (R342). -/
def lateLoad (s : State) : State :=
  match s.rig.late with
  | none => s
  | some (re, c, n, t) => raise 33 [(1, re), (1, c), (4, n), (4, t)] { s with rig := { s.rig with late := none } }

/-- MAST_RESTART (R342, R403): the first journal command not marked complete completes from its boundary, or is executed
again; event 6 says which. -/
def execMastRestart (s : State) : Host.Outcome State Fault Refusal :=
  .next (if s.mast.down then
    let lost := s.mast.badWords
    let s1 := lateLoad (dropJournal lost (ptpFollow { s with mast := { s.mast with down := false, badWords := [] } }))
    match s1.host.cmds.find? (fun c => c.taken && !lost.contains c.seq) with
    | none => let s2 := postReady s1; refuseReserved s2.host.cmds.length s2
    | some c =>
      let past := c.done.isSome || switched s1 c.seq
      let s2 := raise 6 [(4, c.seq), (1, if past then 0 else 1)] (fbump .MST_RESTART_resumed 1 s1)
      if past then let s3 := postReady s2; refuseReserved s3.host.cmds.length s3
      else
        let s3 := unissue c.seq s2
        let cmds := s3.host.cmds.map (fun k => if k.seq = c.seq then { k with taken := false } else k)
        refuseReserved cmds.length { s3 with host := { s3.host with cmds := cmds } }
  else s)

/-! ### Transfers (R16, R366, R394) -/

/-- The poison marks of the words of a destination range (R394). -/
def poisonRange (a n : Nat) (s : State) : State :=
  let w := wordBytes a
  { s with poison := (List.range ((a % w + n + (w - 1)) / w)).foldl (fun l i => markPoison l (wordOf a + w * i)) s.poison }

/-- What the owner of a transfer does when it meets an uncorrectable word: a channel whose context it copies parks (R103), a
window of the canceller loses its slice (R124). -/
def transferLost (use_ : DmaUse) (s : State) : State :=
  match use_ with
  | .data => s
  | .context c => if (chanAt s c.toNat).move.isSome then forcePark c.toNat s else s
  | .slice c w => modChan c.toNat (fun x => { x with ec := { x.ec with lost := x.ec.lost ++ [w] } }) s

/-- What the owner of a transfer does when an access table refuses it: a window of the canceller loses its slice (R366,
R124); a context's copy is tried again (R42). -/
def transferRefused (use_ : DmaUse) (s : State) : State :=
  match use_ with
  | .slice _ _ => transferLost use_ s
  | _ => s

/-- A transfer that meets uncorrectable words of its source: the bytes before the first move, the words from it on are written
poisoned, the source stays, each word met and the loss are counted (R394). -/
def badTransfer (master src : Nat) (dst : Option Nat) (n : Nat) (use_ : DmaUse) (s : State) : State :=
  let bads := poisonedIn s src n
  let s1 := bads.foldl (fun s p => memoryUe master p s) s
  let s2 := match dst with
    | some d =>
      let b := bads.headD src - src
      poisonRange (d + b) (n - b) (storeBytes d (Memory.readBytes s1.mem src n) s1)
    | none => s1
  transferLost use_ (transferDropped master (accessTarget s (dst.getD src) n).1 s2)

/-- Where the cellar DMA engines move data: the cellar, the attics and the lane data memories (R16); 0 for any other range of
bytes, 1 in the cellar, 2 in an attic or a lane data memory. -/
def dmaSide (a n : Nat) : Nat :=
  let e := a + (n - 1)
  if cellarBase ≤ a then 1
  else if 0x02000000 ≤ a ∧ e < 0x04000000 then 2
  else if 0x08000000 ≤ a ∧ e < 0x10000000 ∧ a / 0x100000 = e / 0x100000 ∧ e % 0x100000 < 0x80000 then 2
  else 0

/-- Whether the engines make a transfer: between the cellar and an attic or a lane data memory (R16), and for the copy of a
channel's context also between those (R40). -/
def dmaMoves (a d n : Nat) (use_ : DmaUse) : Bool :=
  let x := dmaSide a n
  let y := dmaSide d n
  (x == 1 && y == 2) || (x == 2 && y == 1) || (match use_ with
    | .context _ => x == 2 && y == 2
    | _ => false)

/-- The copy of a channel's context in the final tick on its source lane, or from its faulted lane, is complete (R40, R103).
-/
def contextCopied (use_ : DmaUse) (s : State) : State :=
  match use_ with
  | .context c => modChan c.toNat (fun c => { c with
      move := c.move.map (fun m => if m.phase = 1 then { m with copied := true } else m) }) s
  | _ => s

/-- A cellar DMA transfer completes with a status in its place among its requester's completions (R366, R383, R394). -/
def dmaEnds (master status : Nat) (s : State) : State :=
  { s with cel := { s.cel with dmaEnd := tset s.cel.dmaEnd master status } }

/-- The master ID with which a transfer touches an address: at each end of a context's copy that of the cluster whose memory it
is, else the requester's (R359). -/
def endMaster (master a : Nat) (use_ : DmaUse) : Nat :=
  match use_ with
  | .context _ =>
    if 0x02000000 ≤ a ∧ a < 0x04000000 then 2 + (a - 0x02000000) / 0x400000
    else if 0x08000000 ≤ a ∧ a < 0x10000000 then 2 + (a - 0x08000000) / 0x1000000
    else master
  | _ => master

/-- The first end of a DMA transfer that an access table refuses: master, address, write (R359, R366). -/
def dmaRefusal (s : State) (master a d n : Nat) (use_ : DmaUse) : Option (Nat × Nat × Bool) :=
  if !permitted s (endMaster master a use_) a n false then some (endMaster master a use_, a, false)
  else if !permitted s (endMaster master d use_) d n true then some (endMaster master d use_, d, true)
  else none

/-- A cellar DMA transfer whose commands the memory took: it completes with a status, and its master's next command fails
afresh (R397). -/
def dmaServed (master status : Nat) (s : State) : State :=
  dmaEnds master status { s with cel := { s.cel with fails := tdel s.cel.fails master } }

/-- Whether a transfer waits for the cellar, which retrains (R397). -/
def cellarWaits (s : State) (a d : Nat) : Bool := s.cel.retrain.isSome && (decide (cellarBase ≤ a) || decide (cellarBase ≤ d))

/-- A DMA transfer that an access table refuses: recorded, completed DENIED, its data not moved (R366, R367). -/
def refuseDma (master n : Nat) (use_ : DmaUse) (r : Nat × Nat × Bool) (s : State) : State :=
  dmaEnds master 1 (transferRefused use_ (recordDenial r.1 r.2.1 n r.2.2 s))

/-- TRANSFER_UE (R394): a transfer meets an uncorrectable word of its source, which stays as it stands. One to memory is a cellar
DMA transfer, where the engines make it, and completes DROPPED; one to no memory is a read of an island engine. A refused one
meets no word, and none moves while the cellar retrains (R16, R366, R397). -/
def execTransferUe (master : Fin 16) (source : BitVec 36) (dest : TransferEnd) (len bad : BitVec 24) (s : State) :
    Host.Outcome State Fault Refusal :=
  let a := source.toNat
  let n := len.toNat
  let marked := { s with poison := markPoison s.poison (wordOf (a + bad.toNat)) }
  .next (if n ≤ bad.toNat ∨ cellarWaits s a ((dest.addr.map (fun d => d.toNat)).getD 0) then s
    else match dest.addr with
    | some d =>
      if !dmaMoves a d.toNat n dest.use_ then s
      else match dmaRefusal s master a d.toNat n dest.use_ with
        | some r => refuseDma master n dest.use_ r s
        | none => dmaServed master 8 (badTransfer (endMaster master a dest.use_) a (some d.toNat) n dest.use_ marked)
    | none =>
      if permitted s master a n false then badTransfer master a none n dest.use_ marked
      else transferLost dest.use_ (recordDenial master a n false s))

/-- CELLAR_DMA_DONE (R16): a cellar DMA transfer moves its data, words of its source corrected, is refused by an access
table (R366), or meets an uncorrectable word (R394). Where it copies a channel's context, the copy is complete (R40).
The engines make no transfer between other memories, and one of the cellar waits while it retrains (R397). -/
def execCellarDmaDone (master : Fin 16) (source dest : BitVec 36) (len : BitVec 24) (work : DmaWork) (s : State) :
    Host.Outcome State Fault Refusal :=
  let a := source.toNat
  let d := dest.toNat
  let n := len.toNat
  .next (if (n != 0 && !dmaMoves a d n work.use_) || cellarWaits s a d then s
    else match dmaRefusal s master a d n work.use_ with
      | some r => refuseDma master n work.use_ r s
      | none =>
        if meetsUe s a n then dmaServed master 8 (badTransfer (endMaster master a work.use_) a (some d) n work.use_ s)
        else dmaServed master 0 (contextCopied work.use_
          (storeBytes d (Memory.readBytes s.mem a n) (wordsFixed a (min work.fixed n) s))))

/-! ### The cellar (R396, R397) -/

/-- The next cellar address to scrub at or after an address, in the regions of non-zero size; none past the last (R396). -/
def scrubAt (s : State) (c : Nat) : Option Nat :=
  (List.range 16).foldl (fun best r =>
    let base := fget s .CEL_REGION_BASE_base_mib r * 1048576
    let size := fget s .CEL_REGION_SIZE_size_mib r * 1048576
    let x := max c base
    if x < base + size then some (match best with
      | some b => min b x
      | none => x) else best) (none : Option Nat)

/-- CEL_SCRUB_READ (R396): the patrol scrubber reads the next cellar word, whose check bits say correctable (1) or
uncorrectable (2, 3). -/
def execCelScrubRead (check : BitVec 2) (s : State) : Host.Outcome State Fault Refusal :=
  .next (if !fbit s .CEL_SCRUB_enable || s.cel.retrain.isSome then s
    else match scrubAt s s.cel.scrub with
      | none => s
      | some c =>
        let s1 := { s with cel := { s.cel with scrub := c + 8 } }
        let s2 := if (scrubAt s1 (c + 8)).isNone then
            fbump .CEL_SCRUB_STATUS_passes 1 { s1 with cel := { s1.cel with scrub := 0 } } else s1
        if poisoned s (cellarBase + c) 8 || 2 ≤ check.toNat then
          let region := ((regionOf s c).map (fun r => r.1)).getD 0
          let s3 := fbump .CEL_SCRUB_STATUS_found_ue 1 (fbump .CEL_ECC_uncorrected 1
            (if poisoned s (cellarBase + c) 8 then s2 else { s2 with poison := markPoison s2.poison (cellarBase + c) }))
          let s4 := fset .CEL_ECC_LAST_LO_offset_lo (c % 2 ^ 32) s3
          let s5 := fset .CEL_ECC_LAST_HI_valid 1 (fset .CEL_ECC_LAST_HI_master 10 (fset .CEL_ECC_LAST_HI_region region
            (fset .CEL_ECC_LAST_HI_offset_hi (c / 2 ^ 32) s4)))
          ueMet 4 (raise 98 [(1, region), (8, c)] s5)
        else if check = 1 then raiseCounting 96 0 [] (corrected (fbump .CEL_ECC_corrected 1 s2))
        else s2)

/-- CEL_CA_RETRY (R313, R397): a DDR4 command of a master fails parity, or write CRC, and is retried; the sixteenth failure in
a row escalates. No command is issued while the interface retrains. -/
def execCelCaRetry (master : Fin 16) (writeCrc : Bool) (s : State) : Host.Outcome State Fault Refusal :=
  let s1 := fbump .CEL_RETRY_ca_retries 1 s
  let n := tget s.cel.fails master 0 + 1
  .next (if s.cel.retrain.isSome then s
    else if n < 16 then { s1 with cel := { s1.cel with fails := tset s1.cel.fails master n } }
    else
      let s2 := raise 70 [(4, 1), (4, master.val), (1, 0)] (fbump .CEL_RETRY_escalations 1 s1)
      fset .CEL_STATUS_state 3
        { s2 with cel := { s2.cel with fails := tdel s2.cel.fails master, retrain := some writeCrc } })

/-- CEL_RETRAIN_DONE (R397): retraining ends; the third failure in a row is fatal. -/
def execCelRetrainDone (passed : Bool) (s : State) : Host.Outcome State Fault Refusal :=
  .next (match s.cel.retrain with
    | none => s
    | some crc =>
      let cause := if crc then 1 else 0
      if passed then
        let s1 := { s with
          cel := { s.cel with retrain := none, retries := 0 }
          ports := s.ports.map (fun p => (p.1, { p.2 with staged := 0 })) }
        raise 99 [(1, cause), (1, 0)] (fset .CEL_STATUS_state 2 (fbump .CEL_STATUS_trainings 1 s1))
      else
        let n := s.cel.retries + 1
        let s1 := raise 99 [(1, cause), (1, 1)] { s with cel := { s.cel with retries := n } }
        if n < 3 then s1
        else fatal 1 100 (raise 100 [(4, n)] (fset .CEL_STATUS_state 4
          { s1 with cel := { s1.cel with retrain := none, retries := 0 } })))

/-! ### Posting events (R245, R382, R406 to R409) -/

/-- Whether a source is withheld from the host and the collector (R409). -/
def maskedSource (s : State) (src : Nat) : Bool := (fget s .ERR_MASK_mask 0 (src / 32)).testBit (src % 32)

/-- The 64-byte record of an event (R406, Table 6). -/
def eventRecord (s : State) (e : Raised) : Bytes :=
  let flags := eventClass e.src + (if e.rom then 8 else 0) + (if s.ev.lostMark then 16 else 0)
  toLe 1 e.src ++ toLe 1 flags ++ toLe 2 e.payload.length ++ toLe 4 s.ev.seq.toNat ++ toLe 8 e.tick ++ toLe 4 e.ns ++
    toLe 4 e.sec ++ (e.payload ++ zeros 40).take 40

/-- The cellar address of record `i` of the log ring (R409). -/
def logAddr (s : State) (i : Nat) : Nat := cellarBase + (regionBase s 5).getD 0 + 64 * i

/-- A record written to the log ring, once an image has placed it (R409). -/
def logRecord (r : Bytes) (s : State) : State :=
  let size := fget s .ERR_LOG_SIZE_records
  if size = 0 then s
  else
    let i := fget s .ERR_LOG_WR_index
    let s1 := storeBytes (logAddr s i) r s
    if i + 1 < size then fset .ERR_LOG_WR_index (i + 1) s1
    else fbump .ERR_LOG_WRAPS_wraps 1 (fset .ERR_LOG_WR_index 0 s1)

/-- A record copied to the host event queue, or counted when 1,024 are held (R382). -/
def queueRecord (r : Bytes) (s : State) : State :=
  if s.host.evq.length < 1024 then { s with host := { s.host with evq := s.host.evq ++ [r] } }
  else
    let s1 := fbump .HST_EVQ_overflow 1 s
    { s1 with host := { s1.host with evLost := s1.host.evLost + 1 } }

/-- A record sent from SVC to the collector, where the image gives one; the fields of the frame that nothing names are free
(R245, R327; log entry 51). -/
def sendCollector (r : Bytes) (s : State) : State :=
  let c := identRec s 3
  let own := identRec s 2
  if beAt c 16 2 = 0 then s
  else
    let v4 := slice c 0 12 == zeros 10 ++ [0xFF, 0xFF]
    let src := if v4 then slice own 8 4 else slice own 12 16
    let dst := if v4 then slice c 12 4 else slice c 0 16
    let f := udpFrame s.free (freeBytes (draw s) 6) (portMac s 2) (beAt own 6 2) (!v4) src dst
      (leNat (freeBytes (draw (draw s)) 2)) (beAt c 16 2) r
    draw (draw (draw (pushSvc f s)))

/-- EVENT_POST (R408): the oldest raised event is posted with the next sequence number: log ring first, then the host queue
and the collector. Event 7 follows a loss. -/
def execEventPost (s : State) : Host.Outcome State Fault Refusal :=
  .next (match s.ev.pend with
    | [] => s
    | e :: rest =>
      if s.mast.down then s
      else
        let r := eventRecord s e
        let s1 := { s with ev := { s.ev with pend := rest, seq := s.ev.seq + 1, lostMark := false } }
        let s2 := logRecord r s1
        let s3 := if maskedSource s e.src then s2 else sendCollector r (queueRecord r s2)
        let s4 := if s3.ev.lost = 0 then s3
          else raise 7 [(4, s3.ev.lost)] { s3 with ev := { s3.ev with lost := 0 } }
        noteIbi s4)

end Sys2Proof.Machine
end

