-- ==== Sys2Proof/Machine/LaneTick.lean ====
section
/-! DEFINITION. The tick dispatcher: a lane's channel list, the start and the end of its tick, overruns and the watchdog, the
restart of a faulted lane (R99 to R101, R104; log entry 94). -/

namespace Sys2Proof.Machine

/-- Whether a channel is in its final tick on its lane before a move (R40, R100). -/
def finalTick (c : Channel) : Bool := match c.move with
  | some m => m.phase == 1
  | none => false

/-- Whether a channel is listed for a lane in the tick that begins (R40, R100): active, worked by that lane, and not one that
reef entry parks at this boundary (R455). -/
def listed (s : State) (lane : Nat) (p : Nat × Channel) : Bool :=
  p.2.live && !p.2.dormant && p.2.worker == lane && (s.age.due == 0 || s.age.reefed || chanParam s p.1 0x0101 == 1)

/-- The channels of a lane's list in their order: final ticks first, then by number (R100). -/
def channelList (s : State) (lane : Nat) : List (Nat × Channel) :=
  let l := s.chans.filter (listed s lane)
  (l.filter (fun p => finalTick p.2) ++ l.filter (fun p => !finalTick p.2)).take 96

/-- The cost in force in a tick: from its first tick on the target of a move, the one reserved there (R38). -/
def Channel.costNow (c : Channel) : Nat := match c.move with
  | some m => if m.phase = 2 then m.cost else c.cost
  | none => c.cost

/-- A channel-list entry (R100, Table 10). Bit 2 is set where a park or close waits for the coming boundary as the list is
written; one accepted within the tick sets it in the list as it stands (`flagLast`; log entry 94). -/
def listEntry (s : State) (lane : Nat) (p : Nat × Channel) : Bytes :=
  let c := p.2
  let flags := (if finalTick c then 1 else 0) + (if c.since = tickNow s then 2 else 0) + (if c.park.isSome then 4 else 0)
  toLe 2 p.1 ++ toLe 2 flags ++ toLe 4 (Config.contextPlace lane p.1 c.since false % 0x80000) ++
    toLe 4 (0x400000 + Config.contextPlace lane p.1 c.since true % 0x400000) ++
    toLe 2 (Config.entryRoutine lane p.1 c.since).toNat ++ toLe 2 (c.costNow)

/-- The offset in its attic of a lane's channel list. -/
def listOffset (lane tick : Nat) : Nat := 16 * (Config.listPlace lane tick % 262048)

/-- The tick start of a lane (R90, R99, R433). -/
def startTick (l : Nat) (s : State) : State :=
  let cs := channelList s l
  let off := listOffset l (tickNow s)
  let x := laneAt s l
  let s1 := storeBytes (atticBase (clusterOf l) + off) (cs.flatMap (listEntry s l)) s
  putLane l { x with
    st := .running, late := false, word := none, cut := false, list := cs.map (fun p => p.1), digest := 0xFFFFFFFFFFFFFFFF
    core := { x.core with
      tick := BitVec.ofNat 32 (workTick s), clist := BitVec.ofNat 32 (0x400000 + off), ccount := cs.length, cidx := 0
      cyc := 0, vrb := 0, loops := [], pc := BitVec.ofNat 12 (fget s .LAN_ENTRY_entry l) } } s1

/-- Whether the dispatcher of a lane's cluster works: rigged, not being re-rigged, its island not stopped. -/
def dispatches (s : State) (l : Nat) : Bool :=
  s.rig.running && s.rig.rigged.getLsbD (clusterOf l) && !s.age.stopped.getLsbD (clusterOf l) &&
    !(s.rig.rerig == some (clusterOf l) && s.rig.st == .applying)

/-- A tick boundary at a lane: an idle lane starts its tick; one still running overruns, and faults at the second boundary,
which LAN_OVERRUN does not count again (R99, R101; log entry 26). -/
def laneBoundary (s : State) (l : Nat) : State :=
  let x := laneAt s l
  if !dispatches s l then s
  else match x.st with
    | .idle => startTick l s
    | .running =>
      raise (laneEvent l 1) [(1, l)] (fbump .LAN_OVERRUN_overruns 1 (putLane l { x with st := .overrun, late := true } s) l)
    | .overrun => laneFault l 9 0 x.core.pc.toNat 0 s
    | _ => s

/-- A lane's tick ends at TDONE: loop levels cleared, the space of packets taken freed, the lane idle; after an overrun the
next tick starts at once (R90, R101, R308). -/
def endTick (l : Nat) (s : State) : State :=
  let x := laneAt s l
  let s1 := (List.range 8).foldl (fun s port =>
    let a := areaAt s l port
    putArea l port { a with used := a.used.filter (fun u => !a.taken.contains u.1), taken := [] } s) s
  let s2 := putLane l { x with st := .idle, late := false, word := none, core := { x.core with loops := [] } } s1
  if x.late ∧ dispatches s l then startTick l s2 else s2

/-- LAN_CTRL.restart (R79, R104): a faulted lane's data memory and fault records are cleared, and it is idle with an empty
list. -/
def restartFaulted (l : Nat) (s : State) : State :=
  let x := laneAt s l
  if x.st = .faulted then
    let s1 := clearRange (laneBase l) 0x80000 s
    let s2 := setWord (RegId.addr .LAN_FAULT l) 0 (setWord (RegId.addr .LAN_FAULT_ADDR l) 0 s1)
    putLane l { x with
      st := .idle, word := none, late := false, list := [], cut := false, core := { x.core with ccount := 0, cidx := 0, loops := [] } } s2
  else s

end Sys2Proof.Machine
end

