-- ==== Sys2Proof/Machine/Power.lean ====
section
/-! DEFINITION. Supply monitors, the sequence monitor, the loss of REFCLK, power-on, and boundary scan (R472, R473, R477,
R491, R498, R499; log entries 74, 93). -/

namespace Sys2Proof.Machine

/-! ### Supplies (R472, R473, R491) -/

/-- POWER_ON (R472, R491): VDD rises through its power-on threshold with RESET_N low; nothing but the fuses is kept. -/
def execPowerOn (s : State) : Host.Outcome State Fault Refusal :=
  let t := resetDevice 0 { s with
    boot := { s.boot with held := true }, regs := [], mem := [], poison := [], jtag := {}, sysLost := false }
  .next (fset .PWR_SEQ_violation 0 (fset .PWR_SEQ_rail 15 { t with supply := { vidDrives := false } }))

/-- VID[3:0] as the pins show it: a code, or nothing driven (R386, R469). -/
def vidPins (s : State) : Option (BitVec 4) := if s.supply.vidDrives then some s.age.vid else none

/-- The voltage of a VID code in millivolts (R386, Table 9). -/
def vidMv (v : BitVec 4) : Nat := if v.toNat ≤ 12 then 700 + 10 * v.toNat else 820 + 20 * (v.toNat - 12)

/-- The thresholds of a rail's monitor in millivolts (R473, Table 5); those of VDD reach over every code of the last 1 ms
(R474). -/
def railLimits (s : State) (rail : Nat) : Nat × Nat :=
  if rail = 0 then
    let codes := s.supply.past.map (fun p => vidMv p.1)
    (codes.foldl min (vidMv s.age.vid) - 40, codes.foldl max (vidMv s.age.vid) + 40)
  else if rail = 1 then (765, 835)
  else if rail = 2 ∨ rail = 4 then (1680, 1920)
  else if rail = 3 then (860, 940)
  else if rail = 5 then (1120, 1280)
  else if rail = 6 then (2330, 2800)
  else (1650, 3700)
/-- Whether a voltage lies between a rail's thresholds. -/
def railHolds (s : State) (rail uv : Nat) : Bool :=
  decide (1000 * (railLimits s rail).1 ≤ uv) && decide (uv ≤ 1000 * (railLimits s rail).2)

/-- A rail reported out of range, or no more, and HST_FAULT.supply set or cleared by it where the mast island works (R384, R385,
R473; log entry 95). -/
def noteSupply (rail : Nat) (bad : Bool) (s : State) : State :=
  let b : BitVec 11 := BitVec.twoPow 11 rail
  let s1 := { s with supply := { s.supply with out := if bad then s.supply.out ||| b else s.supply.out &&& ~~~b } }
  if inReset s1 then s1 else noteIbi (showSupply s1)

/-- A rail's voltage as its monitor reports it. -/
def noteVolts (rail uv : Nat) (s : State) : State :=
  { s with supply := { s.supply with volts := tset s.supply.volts rail uv } }

/-- SUPPLY_OUT_OF_RANGE (R473, R474): a rail that has stood beyond a threshold for 2 µs enters out of range. -/
def execSupplyOutOfRange (report : RailReport) (s : State) : Host.Outcome State Fault Refusal :=
  let m := fget s .PWR_MON_in_range
  .next (if m.testBit report.rail && !railHolds s report.rail report.microvolts then
    noteSupply report.rail true (fset .PWR_MON_in_range (m - 2 ^ report.rail.val)
      (fbump .PWR_COUNT_excursions 1 (noteVolts report.rail report.microvolts s)))
  else s)

/-- SUPPLY_IN_RANGE (R473, R474): a rail that has stood between its thresholds for 10 µs is in range again. -/
def execSupplyInRange (report : RailReport) (s : State) : Host.Outcome State Fault Refusal :=
  .next (if railHolds s report.rail report.microvolts then
    let m := (fget s .PWR_MON_in_range).lor (2 ^ report.rail.val)
    noteSupply report.rail false (fset .PWR_MON_in_range m (noteVolts report.rail report.microvolts s))
  else s)

/-- SEQUENCE_VIOLATION (R472): a rail of group 2 or 3 ramps early; the first such rail is recorded. -/
def execSequenceViolation (rail : Fin 11) (s : State) : Host.Outcome State Fault Refusal :=
  .next (if rail.val < 2 || fbit s .PWR_SEQ_violation then s
    else fset .PWR_SEQ_violation 1 (fset .PWR_SEQ_rail rail s))

/-! ### REFCLK (R477) -/

/-- A stay link loses its lock, and the port cuts it (R415, R418). -/
def stayLockLost (port : Nat) (s : State) : State :=
  let x := stayAt s port
  if x.link then cutPort port 5 (raise 209 [(1, port)] (putStay port { x with link := false } s)) else s

/-- REFCLK_LOSS (R477): every SerDes lane loses lock. -/
def execRefclkLoss (s : State) : Host.Outcome State Fault Refusal :=
  .next (if fbit s .PWR_MON_refclk_ok then
    let s1 := fset .PWR_MON_refclk_ok 0 (fbump .PWR_COUNT_refclk_losses 1 s)
    stayLockLost 1 (stayLockLost 0 (ptpFollow (linkDown 1 (linkDown 0 s1))))
  else s)

/-- REFCLK_RETURN (R477). -/
def execRefclkReturn (s : State) : Host.Outcome State Fault Refusal := .next (fset .PWR_MON_refclk_ok 1 s)

/-! ### Boundary scan (R498, R499) -/

/-- The identification register (R498). -/
def idcode : Nat := 0x1 * 2 ^ 28 + 0x8192 * 2 ^ 12 + 0x2C5 * 2 + 1

/-- The cells of the boundary register: 72 of banks A and B, 20 of C, 14 of D, 136 of the cellar (R498). -/
def scanCells : Nat := 242

/-- A TAP instruction in force, which selects a register and captures a value into it (IEEE 1149.1). -/
def tapSelect (i : TapInstr) (sel v : Nat) (s : State) : State :=
  { s with jtag := { s.jtag with instr := i, selected := sel, shift := v } }

/-- BYPASS (R498). -/
def execBypass (s : State) : Host.Outcome State Fault Refusal := .next (tapSelect .bypass 0 0 s)
/-- IDCODE (R498). -/
def execIdcode (s : State) : Host.Outcome State Fault Refusal := .next (tapSelect .idcode 1 idcode s)
/-- SAMPLE/PRELOAD (R498): the pins are captured, and the boundary register takes what is shifted in. -/
def execSamplePreload (pins preload : Nat) (s : State) : Host.Outcome State Fault Refusal :=
  let t := tapSelect .samplePreload 2 (pins % 2 ^ scanCells) s
  .next { t with jtag := { t.jtag with boundary := preload % 2 ^ scanCells } }
/-- EXTEST (R498, R499): the pins follow the boundary register. -/
def execExtest (s : State) : Host.Outcome State Fault Refusal := .next (tapSelect .extest 2 s.jtag.boundary s)
/-- CLAMP (R498): the pins follow the boundary register, bypass selected. -/
def execClamp (s : State) : Host.Outcome State Fault Refusal := .next (tapSelect .clamp 0 0 s)
/-- HIGHZ (R498): the pins go high-impedance, bypass selected. -/
def execHighz (s : State) : Host.Outcome State Fault Refusal := .next (tapSelect .highz 0 0 s)
/-- TAP_RESET (R499): the TAP resets, and the pins return to their functions. -/
def execTapReset (s : State) : Host.Outcome State Fault Refusal :=
  .next { s with jtag := { s.jtag with instr := .idcode, selected := 1 } }

end Sys2Proof.Machine
end

