-- ==== Sys2Proof/Machine/Registers.lean ====
section
/-! DEFINITION. Reads and writes of registers: what each register shows, what writing it does, and the commands that are a
write of one register (R8 to R12, R57, R105, R224, R253, R272, R294, R318, R344, R358, R370, R390, R412, R442, R464, R500 to
R511; log entry 100). -/

namespace Sys2Proof.Machine

/-! ### What a register shows -/

/-- A register word from fields, each given by its low bit. -/
def packed (fields : List (Nat × Nat)) : Nat := fields.foldl (fun n f => n + f.2 * 2 ^ f.1) 0

/-- A lane register's word (R57, R105); `n` is the word stored. -/
def laneView (s : State) (r : RegId) (l n : Nat) : Nat :=
  let x := laneAt s l
  match r with
  | .LAN_LOAD => packed [(16, satTo 0xFFFF (usedLu s l)), (0, budget s l)]
  | .LAN_CTX => contexts s l
  | .LAN_STATUS =>
    let code := match x.st with
      | .notRigged => 0 | .clearing => 1 | .idle => 2 | .running => 3 | .overrun => 4 | .faulted => 5
    packed [(28, code), (26, x.core.loops.length), (12, x.core.cidx), (0, x.core.pc.toNat)]
  | _ => n

/-- A trunk register's word (R206, R218, R224). -/
def peerView (s : State) (r : RegId) (k n : Nat) : Nat :=
  let p := peerAt s k
  match r with
  | .BND_PEER_STATE =>
    packed [(24, p.epoch.toNat), (16, (p.rxEpoch.getD 0).toNat), (14, rxState p), (13, p.resync.toNat), (12, p.restartTx.toNat)]
  | .BND_PEER_TXSEQ => p.seq.toNat
  | .BND_PEER_RXSEQ => (p.e.getD 0).toNat
  | .DIC_PEER => packed [(16, if p.on then p.txN else 0), (0, if rxState p = 0 then 0 else p.rxN)]
  | _ => n

/-- A port or highway register's word (R227, R240, R248, R253, R272). -/
def portView (s : State) (r : RegId) (i n : Nat) : Nat :=
  match r with
  | .TMC_STATUS =>
    let p := portAt s i
    setBits n 31 31 p.link.toNat + packed [(16, (ownsHalyard s).toNat), (8, p.paused.toNat), (0, p.holdoff.toNat)]
  | .TMC_GATE_CTRL => setBits n 30 30 (portAt s i).pending.isSome.toNat
  | .TMC_GATE_STATUS =>
    let p := portAt s i
    n + packed [(31, p.oper.isSome.toNat), (30, p.pending.isSome.toNat), (0, ((p.oper.map (fun l => l.entries.length)).getD 0))]
  | .SVC_MDIO_CMD => setBits n 30 30 s.svc.mdio.toNat
  | .TDM_GRP_STATUS =>
    let x := groupAt s i
    let code := match x.st with
      | .disabled => 0 | .qualifying => 1 | .locked => 2 | .lost => 3
    packed [(30, code), (29, x.clock.toNat), (28, x.fs.toNat), (1, x.left.toNat), (0, x.backlog.toNat)]
  | .TDM_OWN => packed [(31, s.pair.owner.toNat), (0, heldSlots s)]
  | _ => n

/-- A time register's word (R274, R277, R294). -/
def timeView (s : State) (r : RegId) (n : Nat) : Nat :=
  let t := s.time
  match r with
  | .TIM_OFS_SEC_LO => t.ofs / unitsPerSec % 2 ^ 32
  | .TIM_OFS_SEC_HI => t.ofs / unitsPerSec / 2 ^ 32 % 2 ^ 16
  | .TIM_OFS_NS => t.ofs / 65536 % 1000000000
  | .TIM_OFS_FRAC => t.ofs % 65536
  | .TIM_RATE => t.r.toNat
  | .TIM_SERVO_STATUS => packed [(29, t.srv.code), (26, t.cause), (25, t.pend.isSome.toNat), (24, (decide (2147483647 ≤ t.r.toInt.natAbs)).toNat)]
  | .TIM_PEND_SEC => ofSigned 32 ((t.pend.getD 0) / 1000000000)
  | .TIM_PEND_NS => ((t.pend.getD 0) % 1000000000).toNat
  | .TIM_PD_FILT => ofSigned 32 (t.df.getD 0)
  | .TIM_SERVO_LAST => ofSigned 32 (max (-2147483648) (min 2147483647 t.last))
  | .TIM_TICK_PHASE => ofSigned 32 t.phi
  | .TIM_PTP_STATUS => packed [(28, t.ptp)]
  | .TIM_PTP_PARENT_LO => t.parent.toNat % 2 ^ 32
  | .TIM_PTP_PARENT_HI => t.parent.toNat / 2 ^ 32
  | _ => n

/-- The number of a boot stage (R345, Table 3). -/
def BootStage.code : BootStage → Nat
  | .supply => 0 | .fuses => 1 | .rom => 2 | .identity => 3 | .load => 4 | .start => 5 | .running => 6 | .halted => 7

/-- The number of a loader state (R335, Table 9). -/
def LoaderState.code : LoaderState → Nat
  | .idle => 0 | .waitHost => 1 | .receiving => 2 | .verifying => 3 | .checking => 4 | .applying => 5 | .failed => 6

/-- A register word of the loader, boot and attestation (R344, R358). -/
def bootView (s : State) (r : RegId) (j n : Nat) : Nat :=
  let b := s.boot
  let f := b.fuses
  match r with
  | .RIG_STATUS => packed [(28, s.rig.st.code), (20, s.rig.code), (10, s.rig.spar)]
  | .RIG_PROGRESS => s.rig.bytes
  | .RIG_RUN => packed [(24, s.rig.rollback), (16, f.rollback), (0, s.rig.rigged.toNat)]
  | .BOOT_STATUS =>
    packed [(28, b.stage.code), (20, b.halt), (18, b.sel.toNat), (17, b.fallback.toNat), (16, b.idOk.toNat), (13, s.rig.slot)]
  | .BOOT_KEYS =>
    packed [(29, b.result), (8, b.seed), (7, f.validB.toNat), (6, f.validA.toNat), (5, f.debugLocked.toNat),
      (4, f.ownerRevoked.toNat), (3, f.enrolled.toNat)]
  | .BOOT_ROOT_REVOKED => f.rootRevoked.toNat
  | .BOOT_OWNER_DIGEST => leAt (ownerDigest s) (4 * j) 4
  | .BOOT_ATT_CTRL => packed [(30, b.busy.toNat), (29, b.ready.toNat), (27, b.attResult)]
  | .BOOT_ID_KEY => if b.idOk then leAt (identityKey s) (4 * j) 4 else 0
  | .BOOT_ATT_REPORT => leAt b.report (4 * j) 4
  | _ => n

/-- An access-table register's word, for the entry that ACC_SEL selects (R370). -/
def accView (s : State) (r : RegId) (i n : Nat) : Nat :=
  let ws := tget s.acc.entries (16 * fget s .ACC_SEL_target + fget s .ACC_SEL_master) []
  let w := ws.getD i {}
  match r with
  | .ACC_STATUS => if s.acc.locked then packed [(31, 1), (0, 62)] else 0
  | .ACC_ENTRY => ws.length
  | .ACC_WIN_START => w.start
  | .ACC_WIN_LEN => packed [(31, w.r.toNat), (30, w.w.toNat), (29, w.x.toNat), (0, w.len)]
  | _ => n

/-- A register word of the host port (R390). -/
def hostView (s : State) (r : RegId) (n : Nat) : Nat :=
  let h := s.host
  match r with
  | .HST_STATUS =>
    packed [(31, h.dyn.isSome.toNat), (24, (h.dyn.getD 0).toNat), (16, 0x5C), (0, h.enint.toNat)]
  | .HST_PID_LO => h.pid.toNat
  | .HST_PENDING => pendingBits s
  | .HST_CMDQ => 256 - (h.cmds.length + h.cpls.length)
  | .HST_CMD_SEQ => h.nextSeq % 2 ^ 32
  | .HST_EVQ => setBits n 10 0 h.evq.length
  | .HST_CPLQ => h.cpls.length
  | .HST_FAULT => faultBits s
  | _ => n

/-- A register word of the errors, of the stay links and of the pair (R412, R442). -/
def pairView (s : State) (r : RegId) (i n : Nat) : Nat :=
  let p := s.pair
  match r with
  | .ERR_SEQ => s.ev.seq.toNat
  | .ERR_PENDING => setBits n 8 0 s.ev.pend.length
  | .ERR_LOG_REC =>
    if fget s .ERR_LOG_SIZE_records = 0 then 0
    else leNat (Memory.readBytes s.mem (logAddr s (fget s .ERR_LOG_IDX_index) + 4 * i) 4)
  | .STY_STATUS =>
    let x := stayAt s i
    packed [(31, x.link.toNat), (30, x.link.toNat), (29, x.link.toNat), (28, x.link.toNat), (26, x.hello), (25, x.cut.toNat),
      (22, x.peerPos)]
  | .PAIR_STATUS =>
    packed [(30, p.role.code), (28, p.sync), (27, p.owner.toNat), (26, (eligible s).toNat), (25, p.seen.toNat),
      (24, (p.pFlags.getLsbD 0).toNat), (23, p.yielding.toNat), (22, p.held.toNat),
      (21, (s.lanes.any (fun l => l.2.selfFail)).toNat), (0, p.cause)]
  | .PAIR_HALYARD => setBits n 31 31 (!p.lineLow).toNat
  | .PAIR_COPY => p.copyTick % 2 ^ 32
  | .PAIR_SYNC => (p.syncBytes + 1048575) / 1048576
  | _ => n

/-- A register word of the mast controller, the queues and ageing (R57, R318, R464, R506 to R508); `m` is the master that
reads. -/
def mastView (s : State) (m : Nat) (r : RegId) (i j n : Nat) : Nat :=
  match r with
  | .MST_CHAN_STATUS => packed [(16, activeCount s), (0, keepCount s)]
  | .MST_SESSION_COUNT => s.sess.length
  | .MST_ID => setBits n 17 16 s.boot.fuses.ordering.toNat
  | .MST_SERIAL_LO => s.boot.fuses.serial.toNat % 2 ^ 32
  | .MST_SERIAL_HI => s.boot.fuses.serial.toNat / 2 ^ 32
  | .MST_TICK_LO => tickNow s % 2 ^ 32
  | .MST_TICK_HI => (tget s.time.tickHi m 0).toNat
  | .QUE_VC_STAT => setBits n 12 0 ((vcAt s i j).pkts.foldl (fun c p => c + p.words.length) 0)
  | .AGE_STATUS =>
    packed [(29, ageState s), (28, if (forecastIslands s).isEmpty then 0 else 1), (24, s.age.vid.toNat),
      (16, s.age.cluster), (8, ofSigned 8 s.age.temp)]
  | .AGE_HOURS => satTo 0xFFFFFFFF (s.age.hours + s.age.hoursBase)
  | _ => n

/-- Whether an address lies in the LAN window of a lane whose cluster is not rigged (R505). -/
def unriggedWindow (s : State) (a : Nat) : Bool :=
  decide (0x1000000 ≤ a ∧ a < 0x1800000) && (laneAt s (a / 65536 % 256)).st == .notRigged

/-- The word that master `m` reads at a register address; 0 at a hole (R8, R502, R505). -/
def regValue (s : State) (m a : Nat) : Nat :=
  match regAt a with
  | none => 0
  | some (r, i, j) =>
    if unriggedWindow s a then r.resetWord i j
    else
      let n := regWord s a
      let b := a / 65536
      if b < 1 then mastView s m r i j n
      else if b ≤ 2 then bootView s r i n
      else if b = 3 then accView s r i n
      else if b = 5 ∨ b = 7 then mastView s m r i j n
      else if b = 6 ∨ b = 0x28 ∨ b = 0x29 then pairView s r i n
      else if b = 9 then hostView s r n
      else if b = 0x24 ∨ b = 0x25 then peerView s r i n
      else if b = 0x27 then timeView s r n
      else if 0x20 ≤ b ∧ b ≤ 0x26 then portView s r i n
      else if 0x100 ≤ b then laneView s r i n
      else n

/-- A read-to-clear field cleared. -/
def FieldDesc.cleared (f : FieldDesc) (n : Nat) : Nat := if f.acc == .rc then setBits n f.hi f.lo 0 else n

/-- The RC fields of a register cleared by a read (R8). -/
def clearRc (a : Nat) (s : State) : State :=
  match regAt a with
  | none => s
  | some (r, _, _) =>
    let n := r.fields.foldl (fun n f => f.cleared n) (regWord s a)
    if n = regWord s a then s else setWord a n s

/-- A read of a register by a master: the word, and the state with its RC fields cleared and, for MST_TICK_LO, the upper half
latched (R8, R505, R508). -/
def readReg (m a : Nat) (s : State) : Nat × State :=
  let v := regValue s m a
  if unriggedWindow s a then (v, s)
  else if a = RegId.addr .MST_TICK_LO then
    (v, { s with time := { s.time with tickHi := tset s.time.tickHi m (BitVec.ofNat 32 (tickNow s / 2 ^ 32)) } })
  else (v, clearRc a s)

/-! ### What a write does -/

/-- The low bit of the field that a rule names when it refuses a write as a whole (R11, R256, R464). -/
def wholeRefusal (s : State) (r : RegId) (i a w : Nat) : Option Nat :=
  let n := r.fields.foldl (fun n f => f.written s i w n) (regWord s a)
  match r with
  | .TDM_GRP_CTRL => if bitsOf n 30 29 < fget s .TDM_GRP_CTRL_rate i ∧ strands s i (bitsOf n 30 29) then some 29 else none
  | .AGE_CFG => if bitsOf n 23 16 ≤ bitsOf n 15 8 then some 8 else none
  | .AGE_THERM => if bitsOf n 23 16 < bitsOf n 31 24 + 5 then some 16 else none
  | _ => none

/-- Writes that a rule ignores as a whole (R248, R274, R349, R355). -/
def ignoredWrite (s : State) (r : RegId) : Bool :=
  match r with
  | .TIM_RATE => s.time.srv != .idle
  | .SVC_MDIO_CMD => s.svc.mdio
  | .BOOT_ATT_NONCE => s.boot.busy
  | .BOOT_OWNER_DIGEST => s.boot.fuses.enrolled
  | _ => false

/-- RIG_CTRL's action bits: commit_rollback, abort, then start, each reading 0 again (R335, R339, R341; log entry 100). -/
def rigControl (w : Nat) (s : State) : State :=
  let s1 := fset .RIG_CTRL_start 0 (fset .RIG_CTRL_abort 0 (fset .RIG_CTRL_commit_rollback 0 s))
  let s2 := if bitsOf w 29 29 = 1 then commitRollback s1 else s1
  let s3 := if bitsOf w 30 30 = 1 then rigAbort s2 else s2
  if bitsOf w 31 31 = 1 then rigStart s3 else s3

/-- TDM_SWAP_CTRL's action bits: cancel, then arm (R266; log entry 100). -/
def swapControl (w : Nat) (s : State) : State :=
  let s1 := fset .TDM_SWAP_CTRL_arm 0 (fset .TDM_SWAP_CTRL_cancel 0 s)
  let s2 := if bitsOf w 30 30 = 1 then cancelSwap s1 else s1
  if bitsOf w 31 31 = 1 then armSwap s2 else s2

/-- What writing the word `w` to copy `i` of a register does beyond its fields; `old` is the word before it. -/
def afterWrite (r : RegId) (i old w : Nat) (s : State) : State :=
  match r with
  | .BND_PEER_CTRL => peerControl i old s
  | .DIC_CMD => if bitsOf w 6 6 = 1 then dicTurn (bitsOf w 5 0) s else s
  | .TMC_CTRL => ptpFollow (restartPort i old s)
  | .TMC_GATE_CTRL => if bitsOf w 30 30 = 1 then applyGates i (fset .TMC_GATE_CTRL_apply 0 s i) else s
  | .FLT_PORT => if i = 2 then fset .FLT_PORT_ptp_en 0 s 2 else s
  | .SVC_MDIO_CMD => if bitsOf w 31 31 = 1 then startMdio (fset .SVC_MDIO_CMD_start 0 s) else s
  | .TDM_GRP_CTRL => groupControl i old s
  | .TDM_SWAP_CTRL => swapControl w s
  | .TIM_SNAP => if bitsOf w 0 0 = 1 then capture s else s
  | .TIM_SERVO_CTRL => servoCtrl (bitsOf old 30 30) s
  | .TIM_RATE => setRate (BitVec.ofNat 32 w) s
  | .TIM_SERVO_CMD => gatesAfterStep (servoCmd w s)
  | .TIM_HOST_PUSH => if bitsOf w 0 0 = 1 then hostSample (bitsOf w 1 1 == 1) s else s
  | .TIM_PTP_CTRL => ptpCtrl old s
  | .ISL_CLK_REQ => if bitsOf w 31 31 = 1 then requestClock i (fget s .ISL_CLK_REQ_freq_mhz i) false s else s
  | .RIG_CTRL => rigControl w s
  | .RIG_DATA => takeImage (toLe 4 w) s
  | .BOOT_CTRL => bootCtrl w s
  | .BOOT_ATT_CTRL => if bitsOf w 31 31 = 1 then attestRequest (fset .BOOT_ATT_CTRL_request 0 s) else s
  | .LAN_CTRL => if bitsOf w 0 0 = 1 then restartFaulted i s else s
  | .STY_CTRL => if bitsOf w 31 31 = 0 then stayLockLost i s else s
  | .HST_IRQ_EN => noteIbi s
  | .HST_FAULT => noteIbi s
  | _ => s

/-- A write of a register: holes and the windows of an unrigged cluster ignore it (R8, R11, R502, R505). -/
def writeReg (a w : Nat) (s : State) : State :=
  match regAt a with
  | none => s
  | some (r, i, _) =>
    if unriggedWindow s a || ignoredWrite s r then s
    else match wholeRefusal s r i a w with
      | some lo => reservedEvent a lo s
      | none => afterWrite r i (regWord s a) w (plainWrite a w s)

/-! ### One write as a command -/

/-- A write of one register by a master: nothing where the device is held in reset, no effect at an address that is no whole
word, refused where the access tables or the boot rules refuse it (R348, R363, R502). -/
def writeBy (m a w : Nat) (s : State) : State :=
  if inReset s || a % 4 != 0 || 0x02000000 ≤ a then s
  else if permitted s m a 4 true then writeReg a w s else recordDenial m a 4 true s

/-- A write of copy `i` of a register. -/
def writeTo (m : Nat) (r : RegId) (i : Nat) (w : Word) (s : State) : Host.Outcome State Fault Refusal :=
  .next (writeBy m (r.addr i) w.toNat s)

/-- PEER_ENABLE (R191). -/
def execPeerEnable (master : Fin 16) (peer : Fin 64) (value : Word) (s : State) : Host.Outcome State Fault Refusal :=
  writeTo master .BND_PEER_CTRL peer value s
/-- DIC_CMD_TURN (R215). -/
def execDicCmdTurn (master : Fin 16) (value : Word) (s : State) : Host.Outcome State Fault Refusal :=
  writeTo master .DIC_CMD 0 value s
/-- PORT_RESTART (R226). -/
def execPortRestart (master : Fin 16) (port : Fin 2) (value : Word) (s : State) : Host.Outcome State Fault Refusal :=
  writeTo master .TMC_CTRL port value s
/-- GATE_APPLY (R240). -/
def execGateApply (master : Fin 16) (port : Fin 2) (value : Word) (s : State) : Host.Outcome State Fault Refusal :=
  writeTo master .TMC_GATE_CTRL port value s
/-- MDIO_START (R248). -/
def execMdioStart (master : Fin 16) (value : Word) (s : State) : Host.Outcome State Fault Refusal :=
  writeTo master .SVC_MDIO_CMD 0 value s
/-- TDM_GROUP_CTRL_WRITE (R256). -/
def execTdmGroupCtrlWrite (master : Fin 16) (group : Fin 4) (value : Word) (s : State) : Host.Outcome State Fault Refusal :=
  writeTo master .TDM_GRP_CTRL group value s
/-- MAP_SWAP_ARM (R266). -/
def execMapSwapArm (master : Fin 16) (value : Word) (s : State) : Host.Outcome State Fault Refusal :=
  writeTo master .TDM_SWAP_CTRL 0 value s
/-- MAP_SWAP_CANCEL (R266). -/
def execMapSwapCancel (master : Fin 16) (value : Word) (s : State) : Host.Outcome State Fault Refusal :=
  writeTo master .TDM_SWAP_CTRL 0 value s
/-- TIME_CAPTURE (R276). -/
def execTimeCapture (master : Fin 16) (value : Word) (s : State) : Host.Outcome State Fault Refusal :=
  writeTo master .TIM_SNAP 0 value s
/-- TIME_STEP (R275). -/
def execTimeStep (master : Fin 16) (value : Word) (s : State) : Host.Outcome State Fault Refusal :=
  writeTo master .TIM_SERVO_CMD 0 value s
/-- TIME_ACCEPT (R286). -/
def execTimeAccept (master : Fin 16) (value : Word) (s : State) : Host.Outcome State Fault Refusal :=
  writeTo master .TIM_SERVO_CMD 0 value s
/-- SERVO_HOLD (R289). -/
def execServoHold (master : Fin 16) (value : Word) (s : State) : Host.Outcome State Fault Refusal :=
  writeTo master .TIM_SERVO_CMD 0 value s
/-- SERVO_RESUME (R289). -/
def execServoResume (master : Fin 16) (value : Word) (s : State) : Host.Outcome State Fault Refusal :=
  writeTo master .TIM_SERVO_CMD 0 value s
/-- SERVO_CTRL_WRITE (R288). -/
def execServoCtrlWrite (master : Fin 16) (value : Word) (s : State) : Host.Outcome State Fault Refusal :=
  writeTo master .TIM_SERVO_CTRL 0 value s
/-- TIM_RATE_WRITE (R274). -/
def execTimRateWrite (master : Fin 16) (value : Word) (s : State) : Host.Outcome State Fault Refusal :=
  writeTo master .TIM_RATE 0 value s
/-- HOST_PUSH (R285). -/
def execHostPush (master : Fin 16) (value : Word) (s : State) : Host.Outcome State Fault Refusal :=
  writeTo master .TIM_HOST_PUSH 0 value s
/-- ISL_CLK_REQUEST (R296). -/
def execIslClkRequest (master : Fin 16) (island : Fin 15) (value : Word) (s : State) : Host.Outcome State Fault Refusal :=
  writeTo master .ISL_CLK_REQ island value s
/-- RIG_START (R339). -/
def execRigStart (master : Fin 16) (value : Word) (s : State) : Host.Outcome State Fault Refusal :=
  writeTo master .RIG_CTRL 0 value s
/-- RIG_ABORT (R341). -/
def execRigAbort (master : Fin 16) (value : Word) (s : State) : Host.Outcome State Fault Refusal :=
  writeTo master .RIG_CTRL 0 value s
/-- RIG_ROLLBACK_COMMIT (R341). -/
def execRigRollbackCommit (master : Fin 16) (value : Word) (s : State) : Host.Outcome State Fault Refusal :=
  writeTo master .RIG_CTRL 0 value s
/-- OWNER_ENROL (R352). -/
def execOwnerEnrol (master : Fin 16) (value : Word) (s : State) : Host.Outcome State Fault Refusal :=
  writeTo master .BOOT_CTRL 0 value s
/-- KEY_REVOKE (R353). -/
def execKeyRevoke (master : Fin 16) (value : Word) (s : State) : Host.Outcome State Fault Refusal :=
  writeTo master .BOOT_CTRL 0 value s
/-- LOCK_DEBUG (R348). -/
def execLockDebug (master : Fin 16) (value : Word) (s : State) : Host.Outcome State Fault Refusal :=
  writeTo master .BOOT_CTRL 0 value s
/-- ATTEST_REQUEST (R355). -/
def execAttestRequest (master : Fin 16) (value : Word) (s : State) : Host.Outcome State Fault Refusal :=
  writeTo master .BOOT_ATT_CTRL 0 value s
/-- LANE_RESTART (R104). -/
def execLaneRestart (master : Fin 16) (lane : Fin 128) (value : Word) (s : State) : Host.Outcome State Fault Refusal :=
  writeTo master .LAN_CTRL lane value s
/-- REGISTER_WRITE (R8): any register of the register space. -/
def execRegisterWrite (master : Fin 16) (address : BitVec 36) (value : Word) (s : State) : Host.Outcome State Fault Refusal :=
  .next (writeBy master address.toNat value.toNat s)

/-- RIG_DATA (R337): the bytes of one write frame, appended in order. -/
def execRigData (master : Fin 16) (bytes : Bytes) (s : State) : Host.Outcome State Fault Refusal :=
  let a := RegId.addr .RIG_DATA
  .next (if inReset s then s
    else if permitted s master a 4 true then takeImage bytes s else recordDenial master a 4 true s)

/-- MST_TICK_LO_READ (R508). -/
def execMstTickLoRead (master : Fin 16) (s : State) : Host.Outcome State Fault Refusal :=
  let a := RegId.addr .MST_TICK_LO
  .next (if inReset s then s
    else if permitted s master a 4 false then (readReg master a s).2 else recordDenial master a 4 false s)

end Sys2Proof.Machine
end

