-- ==== Sys2Proof/Machine/HostPort.lean ====
section
/-! DEFINITION. The host port: frames and their checks, responses, the command and event queues, common commands, in-band
interrupts and the pins (R247, R249, R371 to R387; log entry 101). -/

namespace Sys2Proof.Machine

/-! ### Frames and their checks (R374, R375) -/

/-- Opcode, tag, length and address of a request header (R374, Table 3). -/
def reqOp (f : Bytes) : Nat := leAt f 0 1
def reqTag (f : Bytes) : Nat := leAt f 1 1
def reqLen (f : Bytes) : Nat := leAt f 2 2
def reqAddr (f : Bytes) : Nat := leAt f 4 4
/-- The payload of a request. -/
def reqPayload (f : Bytes) : Bytes := (f.drop 8).take (f.length - 10)

/-- Whether an opcode's frame carries a payload: WRITE, WRITE_POSTED, CMD_SUBMIT. -/
def carriesPayload (op : Nat) : Bool := [2, 3, 0x10].contains op

/-- Check 4: the frame's bytes against its length field (R375, Table 4). -/
def lengthOk (f : Bytes) : Bool :=
  let op := reqOp f
  let n := reqLen f
  decide (f.length = if carriesPayload op then 10 + n else 10) && decide (n ≤ 4096) &&
    (op != 0x10 || (decide (24 ≤ n) && decide (n ≤ 536) && n == 24 + leAt (reqPayload f) 2 2))

/-- Check 5: alignment, and a zero address for the queue reads (R375, Table 4). -/
def frameParamOk (f : Bytes) : Bool :=
  let op := reqOp f
  if [1, 2, 3].contains op then reqAddr f % 4 == 0 && reqLen f % 4 == 0
  else if [0x11, 0x12].contains op then reqAddr f == 0 else true

/-- The status of checks 1 to 5 on a frame received with a limit of `mwl` bytes; 0 where all pass (R373, R375). -/
def frameCheck (mwl : Nat) (f : Bytes) : Nat :=
  let cut := decide (mwl < f.length)
  if f.length < 10 then 2
  else if !cut && crc16 (f.take (f.length - 2)) != leAt f (f.length - 2) 2 then 5
  else if ! [1, 2, 3, 0x10, 0x11, 0x12].contains (reqOp f) then 4
  else if cut || !lengthOk f then 2
  else if !frameParamOk f then 3 else 0

/-- Whether the port answers the bus: not in reset, and not during a mast island reset (R387). -/
def portAlive (s : State) : Bool := !inReset s && !s.mast.down

/-- A failed frame counted, and event 8 (R375, R389). -/
def countFrameError (status : Nat) (f : Bytes) (s : State) : State :=
  let known := decide (10 ≤ f.length)
  let s1 := if status = 5 then fbump .HST_FRAME_ERR_crc_errors 1 s else fbump .HST_FRAME_ERR_format_errors 1 s
  raiseLimited 8 0 1 [(4, status), (1, if known then reqOp f else 0), (4, if known then reqTag f else 0)] s1

/-! ### Responses (R376) -/

/-- A response frame (R376). -/
def respFrame (s : State) (op tag status : Nat) (data : Bytes) : Bytes :=
  let held := (if s.host.cpls.isEmpty then 0 else 1) + (if s.host.evq.isEmpty then 0 else 2)
  let b := toLe 1 op ++ toLe 1 tag ++ toLe 2 data.length ++ toLe 2 status ++ toLe 1 held ++ [0] ++ data
  b ++ toLe 2 (crc16 b)

/-- The device holds one response: an unread one is replaced and counted. `kind` and `take` say which records leave when it
is read. -/
def respond (op tag status : Nat) (data : Bytes) (kind take : Nat) (s : State) : State :=
  let s1 := if s.host.resp.isSome then fbump .HST_RESP_lost_responses 1 s else s
  { s1 with host := { s1.host with resp := some { bytes := respFrame s1 op tag status data, kind := kind, take := take } } }

/-- A new request takes the place of an unread response; one that answers nothing leaves none held (R376). -/
def dropResponse (s : State) : State :=
  if s.host.resp.isSome then fbump .HST_RESP_lost_responses 1 { s with host := { s.host with resp := none } } else s

/-- A posted write that failed: HST_POSTED unless one is recorded, and event 11 (R376). -/
def postedFail (status addr : Nat) (s : State) : State :=
  let s1 := if fbit s .HST_POSTED_valid then s
    else fset .HST_POSTED_valid 1 (fset .HST_POSTED_status status (setWord (RegId.addr .HST_POSTED_ADDR) addr s))
  raise 11 [(4, status), (4, addr)] s1

/-- A frame answered with a failure: by a response, or for a posted write by HST_POSTED. -/
def answerFail (status : Nat) (f : Bytes) (s : State) : State :=
  if f.length < 10 then respond 0 0 status [] 0 0 s
  else if reqOp f = 3 then postedFail status (reqAddr f) (dropResponse s)
  else respond (reqOp f) (reqTag f) status [] 0 0 s

/-! ### READ and WRITE (R377) -/

/-- One word that the host reads: a register, or memory where a table opens it; a word whose check bits fail is counted, and
its bytes are free (R8, R394, R398, R503; log entry 101). -/
def hostReadWord (a : Nat) (s : State) : Bytes × State :=
  if a < 0x02000000 then
    let r := readReg 0 a s
    (toLe 4 r.1, r.2)
  else if laneHole a then (zeros 4, s)
  else if meetsUe s a 4 then (freeBytes s 4, draw (transferDropped 0 (accessTarget s a 4).1 (memoryUe 0 a s)))
  else (Memory.readBytes s.mem a 4, s)

/-- `n` words read in increasing address order. -/
def hostRead : Nat → Nat → State → Bytes × State
  | 0, _, s => ([], s)
  | n + 1, a, s =>
    let r := hostReadWord a s
    let t := hostRead n (a + 4) r.2
    (r.1 ++ t.1, t.2)

/-- One word that the host writes. -/
def hostWriteWord (a : Nat) (b : Bytes) (s : State) : State :=
  if a < 0x02000000 then writeReg a (leNat b) s
  else if laneHole a then s
  else storeBytes a b s

/-- Words written in increasing address order. -/
def hostWrite : Nat → Nat → Bytes → State → State
  | 0, _, _, s => s
  | n + 1, a, b, s => hostWrite n (a + 4) (b.drop 4) (hostWriteWord a (b.take 4) s)

/-- A permitted WRITE; one addressed to RIG_DATA appends its bytes (R337, R377). -/
def hostStore (a : Nat) (b : Bytes) (s : State) : State :=
  if a = RegId.addr .RIG_DATA then takeImage b s else hostWrite (b.length / 4) a b s

/-! ### Commands, completions and events (R379, R382) -/

/-- CMD_SUBMIT: the command takes the next sequence number, unless 256 are queued or hold unread completions (R379). -/
def submit (f : Bytes) (s : State) : State :=
  let h := s.host
  if 256 ≤ h.cmds.length + h.cpls.length then respond 0x10 (reqTag f) 6 [] 0 0 s
  else
    let s1 := { s with host := { h with
      cmds := h.cmds ++ [{ seq := h.nextSeq, desc := reqPayload f }], nextSeq := (h.nextSeq + 1) % 2 ^ 32 } }
    let s2 := respond 0x10 (reqTag f) 0 (toLe 4 h.nextSeq) 0 0 s1
    refuseReserved s2.host.cmds.length s2

/-- The leading records that fit whole into a length. -/
def fitting : Nat → List Bytes → List Bytes
  | _, [] => []
  | n, r :: t => if r.length ≤ n then r :: fitting (n - r.length) t else []

/-- CPL_READ and EVT_READ: whole records in order; BAD_LENGTH where the first does not fit, but a length of 0 takes nothing
(R13, R379, R382). -/
def recordRead (kind : Nat) (held : List Bytes) (f : Bytes) (s : State) : State :=
  let rs := fitting (reqLen f) held
  if rs.isEmpty && !held.isEmpty && reqLen f != 0 then respond (reqOp f) (reqTag f) 2 [] 0 0 s
  else respond (reqOp f) (reqTag f) 0 rs.flatten kind rs.length s

/-! ### One frame -/

/-- A frame that passed checks 1 to 5: check 6, then its action; a refused read returns zeros (R366, R375 to
R382). -/
def frameAction (f : Bytes) (s : State) : State :=
  let op := reqOp f
  let a := reqAddr f
  let n := reqLen f
  if op = 0x10 then submit f s
  else if op = 0x11 then recordRead 1 s.host.cpls f s
  else if op = 0x12 then recordRead 2 s.host.evq f s
  else if !permitted s 0 a n (op != 1) then
    let s1 := recordDenial 0 a n (op != 1) s
    if op = 1 then respond 1 (reqTag f) 1 (zeros n) 0 0 s1 else answerFail 1 f s1
  else if op = 1 then
    let r := hostRead (n / 4) a s
    respond 1 (reqTag f) 0 r.1 0 0 r.2
  else if op = 2 then respond 2 (reqTag f) 0 [] 0 0 (hostStore a (reqPayload f) s)
  else hostStore a (reqPayload f) (dropResponse s)

/-- A private write carrying a frame: nothing is acknowledged while the port does not answer (R374, R375, R387). -/
def hostFrame (f : Bytes) (s : State) : State :=
  if !portAlive s then s
  else
    let c := frameCheck s.host.mwl f
    if c ≠ 0 then answerFail c f (countFrameError c f s) else frameAction f s

/-- READ (R377). -/
def execRead (frame : Bytes) (s : State) : Host.Outcome State Fault Refusal := .next (hostFrame frame s)
/-- WRITE (R377). -/
def execWrite (frame : Bytes) (s : State) : Host.Outcome State Fault Refusal := .next (hostFrame frame s)
/-- WRITE_POSTED (R376). -/
def execWritePosted (frame : Bytes) (s : State) : Host.Outcome State Fault Refusal := .next (hostFrame frame s)
/-- CMD_SUBMIT (R379). -/
def execCmdSubmit (frame : Bytes) (s : State) : Host.Outcome State Fault Refusal := .next (hostFrame frame s)
/-- CPL_READ (R379). -/
def execCplRead (frame : Bytes) (s : State) : Host.Outcome State Fault Refusal := .next (hostFrame frame s)
/-- EVT_READ (R382). -/
def execEvtRead (frame : Bytes) (s : State) : Host.Outcome State Fault Refusal := .next (hostFrame frame s)

/-! ### Fetching the response (R376, R379, R382) -/

/-- The records that a response took leave with its last byte; event 10 follows an overflow once the queue has room. -/
def leaveRecords (r : Resp) (s : State) : State :=
  if r.kind = 1 then noteIbi { s with host := { s.host with cpls := s.host.cpls.drop r.take } }
  else if r.kind = 2 then
    let s1 := { s with host := { s.host with evq := s.host.evq.drop r.take } }
    let s2 := if s.host.evLost = 0 ∨ r.take = 0 then s1
      else raise 10 [(4, s.host.evLost)] { s1 with host := { s1.host with evLost := 0 } }
    noteIbi s2
  else s

/-- The bytes that a private read of `clocked` bytes returns: the device ends it at the response's last byte and at MRL; over
I2C, which has no such end, what follows is 0xFF (R372, R373, R376; log entry 101). -/
def readBack (clocked : Nat) (r : Resp) (s : State) : Bytes :=
  let b := r.bytes.take (min clocked s.host.mrl)
  if s.host.dyn.isNone then b ++ List.replicate (clocked - b.length) 0xFF else b

/-- RESPONSE_READ (R373, R376): a private read of `clocked` bytes. A read that ends early, by the host or at MRL, leaves the
response readable again. -/
def execResponseRead (clocked : Nat) (s : State) : Host.Outcome State Fault Refusal :=
  .next (if !portAlive s then s
    else match s.host.resp with
      | none => fbump .HST_RESP_not_ready 1 s
      | some r =>
        let s1 := { s with host := { s.host with got := readBack clocked r s } }
        if min clocked s.host.mrl < r.bytes.length then s1
        else leaveRecords r { s1 with host := { s1.host with resp := none } })

/-! ### Common commands (R372, R373) -/

/-- Whether the device takes a common command: addressed directly only at its dynamic address and outside a mast island reset
(R372, R387). -/
def takesCommon (s : State) (direct : Bool) : Bool :=
  !inReset s && (!direct || (!s.mast.down && s.host.dyn.isSome))

/-- A common command taken: HDR mode, if it was entered, has been left (log entry 101). -/
def common (direct : Bool) (f : HostPort → HostPort) (s : State) : State :=
  if takesCommon s direct then { s with host := f { s.host with hdr := false } } else s

/-- The groups that ENEC signals: those pending with their ibi_en bit (R384, R388). -/
def askPending (s : State) : List Nat :=
  (List.range 16).filter (fun g => groupPending s g && (fget s .HST_IRQ_EN_ibi_en).testBit g)

/-- ENEC (R373, R388): ENINT enables IBIs. -/
def execEnec (direct : Bool) (events : Byte) (s : State) : Host.Outcome State Fault Refusal :=
  .next (common direct (fun h =>
    if events.getLsbD 0 && !h.enint then { h with enint := true, ibi := askPending s } else h) s)
/-- DISEC (R373, R388): ENINT disables IBIs. -/
def execDisec (direct : Bool) (events : Byte) (s : State) : Host.Outcome State Fault Refusal :=
  .next (common direct (fun h => if events.getLsbD 0 then { h with enint := false, ibi := [] } else h) s)
/-- RSTDAA (R372). -/
def execRstdaa (s : State) : Host.Outcome State Fault Refusal := .next (common false (fun h => { h with dyn := none }) s)
/-- ENTDAA (R373): the device takes part unless it has an address or the mast island is in reset; `won` says whether its ID
won the arbitration. -/
def execEntdaa (addr : BitVec 7) (won : Bool) (s : State) : Host.Outcome State Fault Refusal :=
  .next (if s.mast.down then s
    else common false (fun h => if won && h.dyn.isNone then { h with dyn := some addr } else h) s)
/-- SETDASA (R372, R373): from the static address. -/
def execSetdasa (static addr : BitVec 7) (s : State) : Host.Outcome State Fault Refusal :=
  .next (if s.mast.down then s
    else common false (fun h => if static = 0x5C ∧ h.dyn.isNone then { h with dyn := some addr } else h) s)
/-- SETAASA (R373): the static address becomes the dynamic address. -/
def execSetaasa (s : State) : Host.Outcome State Fault Refusal :=
  .next (common false (fun h => if h.dyn.isNone then { h with dyn := some 0x5C } else h) s)
/-- SETNEWDA (R373). -/
def execSetnewda (addr : BitVec 7) (s : State) : Host.Outcome State Fault Refusal :=
  .next (common true (fun h => { h with dyn := some addr }) s)

/-- A direct GET command: the bytes it returns. -/
def getCommon (b : State → Bytes) (s : State) : State := common true (fun h => { h with ccc := b s }) s

/-- GETPID (R371, R373): the provisional ID, most significant byte first. -/
def execGetpid (s : State) : Host.Outcome State Fault Refusal :=
  .next (getCommon (fun s => toBe 2 (fget s .HST_PID_HI_pid_hi) ++ toBe 4 s.host.pid.toNat) s)
/-- GETBCR (R371). -/
def execGetbcr (s : State) : Host.Outcome State Fault Refusal := .next (getCommon (fun _ => [0x26]) s)
/-- GETDCR (R371). -/
def execGetdcr (s : State) : Host.Outcome State Fault Refusal := .next (getCommon (fun _ => [0x00]) s)
/-- GETSTATUS (R373): the number of groups pending, limited to 15. -/
def execGetstatus (s : State) : Host.Outcome State Fault Refusal :=
  .next (getCommon (fun s => [BitVec.ofNat 8 (satTo 15 ((List.range 16).filter (groupPending s)).length), 0]) s)
/-- Whether SETMWL and SETMRL accept a length (R373). -/
def lenOk (len : BitVec 16) : Bool := decide (10 ≤ len.toNat) && decide (len.toNat ≤ 4106)
/-- SETMWL, direct or broadcast (R373). -/
def execSetmwl (len : SetLen) (s : State) : Host.Outcome State Fault Refusal :=
  .next (common len.direct (fun h => if lenOk len.bytes then { h with mwl := len.bytes.toNat } else h) s)
/-- SETMRL, direct or broadcast (R373). -/
def execSetmrl (len : SetLen) (s : State) : Host.Outcome State Fault Refusal :=
  .next (common len.direct (fun h => if lenOk len.bytes then { h with mrl := len.bytes.toNat } else h) s)
/-- GETMWL (R373). -/
def execGetmwl (s : State) : Host.Outcome State Fault Refusal := .next (getCommon (fun s => toBe 2 s.host.mwl) s)
/-- GETMRL (R373): no IBI payload size. -/
def execGetmrl (s : State) : Host.Outcome State Fault Refusal := .next (getCommon (fun s => toBe 2 s.host.mrl) s)
/-- GETMXDS (R373): no limits. -/
def execGetmxds (s : State) : Host.Outcome State Fault Refusal := .next (getCommon (fun _ => [0, 0]) s)
/-- GETCAPS (R373): HDR-DDR, HDR mode 0, alone (log entry 101). -/
def execGetcaps (s : State) : Host.Outcome State Fault Refusal := .next (getCommon (fun _ => [1, 0]) s)
/-- ENTHDR0 (R373): the bus enters HDR-DDR. -/
def execEnthdr0 (s : State) : Host.Outcome State Fault Refusal := .next (common false (fun h => { h with hdr := true }) s)
/-- ENTAS0 (R373): accepted, changes nothing but the HDR mode left. -/
def execEntas0 (s : State) : Host.Outcome State Fault Refusal := .next (common false (fun h => h) s)
/-- ENTAS1 (R373). -/
def execEntas1 (s : State) : Host.Outcome State Fault Refusal := .next (common false (fun h => h) s)
/-- ENTAS2 (R373). -/
def execEntas2 (s : State) : Host.Outcome State Fault Refusal := .next (common false (fun h => h) s)
/-- ENTAS3 (R373). -/
def execEntas3 (s : State) : Host.Outcome State Fault Refusal := .next (common false (fun h => h) s)

/-! ### In-band interrupts and pins (R249, R384, R385) -/

/-- BUS_AVAILABLE (R384): the lowest requested group asks for an IBI, which the controller accepts or refuses. -/
def execBusAvailable (accepted : Bool) (s : State) : Host.Outcome State Fault Refusal :=
  .next (if portAlive s && s.host.enint && s.host.dyn.isSome && accepted then
    match s.host.ibi with
    | [] => s
    | g :: t => { s with host := { s.host with ibi := t, ibiSent := some g } }
  else s)

/-- INT_N is low (R384). -/
def intLow (s : State) : Bool := !inReset s && (pendingBits s).land (fget s .HST_IRQ_EN_int_en) != 0
/-- FAULT_N is low (R385); in the wake-only state where it was entered by temperature (R459), and never while the pins are in
reset (R496). -/
def faultLow (s : State) : Bool :=
  match s.age.wake with
  | some cause => cause == 1
  | none => !inReset s && faultBits s != 0
/-- WAKE is low (R249). -/
def wakeLow (s : State) : Bool := fbit s .SVC_WAKE_magic_hit || fget s .SVC_WAKE_pattern_hit != 0

end Sys2Proof.Machine
end

