-- ==== Sys2Proof/Machine/LaneWord.lean ====
section
/-! DEFINITION. The lane's instruction word: its slots (R80), the fields and opcodes of the V, LS and S slots (R93 to R95),
the operations that a word holds. -/

namespace Sys2Proof.Machine

/-- The bits of a slot: 0 V, 1 LS0, 2 LS1, 3 S (R80, Table 1). -/
def slotV (w : BitVec 128) : BitVec 40 := w.extractLsb' 0 40
/-- The bits of slot LS0. -/
def slotLs0 (w : BitVec 128) : BitVec 28 := w.extractLsb' 40 28
/-- The bits of slot LS1. -/
def slotLs1 (w : BitVec 128) : BitVec 28 := w.extractLsb' 68 28
/-- The bits of slot S. -/
def slotS (w : BitVec 128) : BitVec 32 := w.extractLsb' 96 32

/-- The V slot's operations from opcode 1 on (R93, Table 6). -/
def vTable : List (Issue → VFields → Instr) :=
  [.vadd, .vsub, .vmul, .vfma, .vfms, .vmin, .vmax, .vrcp, .vrsq, .vcmpeq, .vcmplt, .vcmple, .vabs, .vneg, .vmov, .vand, .vor,
   .vxor, .vsel, .vbcast] ++
  [.aclr, .aldv, .aadd, .amac, .amsc, .amul, .ascl, .ared, .astv] ++ [.cvtHf, .cvtFh, .cvtWf, .cvtFw] ++
  [.vaddH, .vsubH, .vaddsH, .vsubsH, .vmulqH, .vmulqrH, .vabssH, .vnegsH, .vshlsH, .vshrH, .vnormH, .vaddsW, .vsubsW, .vshlsW,
   .vshrW, .vnormW, .vlmacW, .vlmscW, .vrndW]

/-- The LS slots' operations from opcode 1 on (R94, Table 7). -/
def lsTable : List (Issue → LsFields → Instr) :=
  [.ldW, .ldD, .ldQ, .ldWb, .stW, .stD, .stQ, .stfQ, .aload, .asave, .adda, .awr, .ard]

/-- The fields of the V slot (R93). -/
def vFieldsOf (x : BitVec 40) : VFields :=
  { d := x.extractLsb' 25 6, a := x.extractLsb' 19 6, b := x.extractLsb' 13 6, c := x.extractLsb' 7 6,
    imm := x.extractLsb' 0 7 }

/-- The fields of an LS slot (R94). -/
def lsFieldsOf (slot1 : Bool) (x : BitVec 28) : LsFields :=
  { slot1 := slot1, reg := x.extractLsb' 14 6, areg := x.extractLsb' 10 4, mode := x.extractLsb' 8 2,
    imm := x.extractLsb' 0 8 }

/-- The S slot's ALU format (R95); reserved bits of a slot in any format are ignored (log entry 26). -/
def aluFieldsOf (x : BitVec 32) : AluFields :=
  { d := x.extractLsb' 18 5, a := x.extractLsb' 13 5, b := x.extractLsb' 8 5, low := x.extractLsb' 0 8 }
/-- The S slot's imm format (R95). -/
def immFieldsOf (x : BitVec 32) : ImmFields :=
  { d := x.extractLsb' 18 5, a := x.extractLsb' 13 5, imm := x.extractLsb' 0 13 }
/-- The S slot's MOV16 format (R95). -/
def movFieldsOf (x : BitVec 32) : MovFields :=
  { d := x.extractLsb' 18 5, high := x.getLsbD 17, imm := x.extractLsb' 0 16 }
/-- The S slot's branch format (R95). -/
def branchFieldsOf (x : BitVec 32) : BranchFields := { a := x.extractLsb' 18 5, target := x.extractLsb' 0 12 }
/-- The S slot's LOOP format (R95). -/
def loopFieldsOf (x : BitVec 32) : LoopFields :=
  { fromReg := x.getLsbD 22, rotate := x.getLsbD 21, drain := x.extractLsb' 18 3, count := x.extractLsb' 12 6,
    last := x.extractLsb' 0 12 }
/-- The S slot's special format (R95). -/
def specialFieldsOf (x : BitVec 32) : SpecialFields := { r := x.extractLsb' 18 5, id := x.extractLsb' 0 6 }

/-- The S slot's operations from opcode 1 on, with their operands (R95, Table 8). -/
def sTable (x : BitVec 32) : List (Issue → Instr) :=
  let alu := fun (op : Issue → AluFields → Instr) (i : Issue) => op i (aluFieldsOf x)
  let imm := fun (op : Issue → ImmFields → Instr) (i : Issue) => op i (immFieldsOf x)
  let branch := fun (op : Issue → BranchFields → Instr) (i : Issue) => op i (branchFieldsOf x)
  let special := fun (op : Issue → SpecialFields → Instr) (i : Issue) => op i (specialFieldsOf x)
  [alu .add, alu .sub, alu .and, alu .or, alu .xor, alu .shl, alu .shr, alu .sra, alu .mul, alu .seq, alu .slt, alu .sltu] ++
  [imm .addi, imm .andi, imm .ori, imm .shli, imm .shri, imm .srai] ++
  [fun i => .mov16 i (movFieldsOf x)] ++ [branch .b, branch .bz, branch .bnz, branch .call, branch .ret] ++
  [fun i => .loop i (loopFieldsOf x)] ++ [special .mfs, special .mts] ++ [alu .qpush, alu .qnote, alu .qwait] ++
  [.cnext, .tdone]

/-- The operation of an opcode in a slot's table: none for opcode 0, a no-operation (R80), and for a reserved one. -/
def rowOf {α : Type} (table : List α) (op : Nat) : Option α := if op = 0 then none else table[op - 1]?

/-- Whether an opcode is reserved in a slot's table. -/
def reservedOp {α : Type} (table : List α) (op : Nat) : Bool := decide (table.length < op)

/-- The opcode fields of the four slots (R93 to R95). -/
def opcodeV (w : BitVec 128) : Nat := ((slotV w).extractLsb' 31 6).toNat
/-- The opcode field of an LS slot. -/
def opcodeLs (x : BitVec 28) : Nat := (x.extractLsb' 20 5).toNat
/-- The opcode field of the S slot. -/
def opcodeS (w : BitVec 128) : Nat := ((slotS w).extractLsb' 23 6).toNat

/-- The stage field with which every slot begins (R82): 0 V, 1 LS0, 2 LS1, 3 S. -/
def stageOf (w : BitVec 128) (slot : Nat) : BitVec 3 :=
  if slot = 0 then w.extractLsb' 37 3 else if slot = 1 then w.extractLsb' 65 3 else if slot = 2 then w.extractLsb' 93 3
  else w.extractLsb' 125 3

/-- The slots of a word that hold a reserved opcode (R93 to R95). -/
def reservedSlots (w : BitVec 128) : List Nat :=
  (if reservedOp vTable (opcodeV w) then [0] else []) ++ (if reservedOp lsTable (opcodeLs (slotLs0 w)) then [1] else []) ++
  (if reservedOp lsTable (opcodeLs (slotLs1 w)) then [2] else []) ++
  (if reservedOp (sTable 0) (opcodeS w) then [3] else [])

/-- The operations of a word in slot order, each with its slot's number. -/
def wordOps (w : BitVec 128) : List (Nat × (Issue → Instr)) :=
  ((rowOf vTable (opcodeV w)).map (fun op => (0, fun i => op i (vFieldsOf (slotV w))))).toList ++
  ((rowOf lsTable (opcodeLs (slotLs0 w))).map (fun op => (1, fun i => op i (lsFieldsOf false (slotLs0 w))))).toList ++
  ((rowOf lsTable (opcodeLs (slotLs1 w))).map (fun op => (2, fun i => op i (lsFieldsOf true (slotLs1 w))))).toList ++
  ((rowOf (sTable (slotS w)) (opcodeS w)).map (fun op => (3, op))).toList

/-- The commands that a lane's instruction word stands for: its operations in slot order, the first one after `gap` words that
hold none, the last one marked as such (R80, R81). -/
def decodeLaneWord (lane : Fin 128) (gap : BitVec 12) (w : BitVec 128) : List Instr :=
  let ops := wordOps w
  (List.range ops.length).flatMap (fun k => match ops[k]? with
    | some (slot, op) =>
      [op { lane := lane, stage := stageOf w slot, gap := if k = 0 then gap else 0, last := k + 1 == ops.length }]
    | none => [])

end Sys2Proof.Machine
end

