-- ==== Sys2Proof/Machine/Operands.lean ====
section
/-! DEFINITION. Operands of the lane's operations and the issue of an instruction word: register reads, rotation and stages
(R91, R92), address generation (R84 to R87), loops at a word's end (R88 to R90), latencies (R96). -/

namespace Sys2Proof.Machine

/-! ### Reads at issue (R81) -/

/-- The physical vector register that a name denotes under the rotating-region base (R91). -/
def physReg (vrb : BitVec 5) (n : Nat) : Nat := if n < 32 then n else 32 + (n - 32 + 32 - vrb.toNat) % 32
/-- A vector register as a name reads it. -/
def readV (c : LaneCore) (n : BitVec 6) : BitVec 128 := tget c.v (physReg c.vrb n.toNat) 0
/-- A scalar register; S0 reads 0 (R83). -/
def readS (c : LaneCore) (n : Nat) : Word := if n = 0 then 0 else tget c.s n 0
/-- A scalar register written; S0 ignores writes (R83). -/
def writeS (n : Nat) (w : Word) (c : LaneCore) : LaneCore := if n = 0 then c else { c with s := tset c.s n w }
/-- An accumulator. -/
def readAcc (c : LaneCore) (n : Nat) : BitVec 192 := tget c.acc n 0
/-- An address register. -/
def readA (c : LaneCore) (n : Nat) : AReg := tget c.a n {}
/-- Float or word element `i` of a vector register (R58). -/
def elemW (x : BitVec 128) (i : Nat) : BitVec 32 := x.extractLsb' (32 * i) 32
/-- Half element `i` of a vector register (R58). -/
def elemH (x : BitVec 128) (i : Nat) : BitVec 16 := x.extractLsb' (16 * i) 16
/-- Element `i` of an accumulator. -/
def elemA (x : BitVec 192) (i : Nat) : BitVec 48 := x.extractLsb' (48 * i) 48
/-- Four word elements joined. -/
def joinW (f : Nat → BitVec 32) : BitVec 128 := f 3 ++ f 2 ++ f 1 ++ f 0
/-- Eight half elements joined. -/
def joinH (f : Nat → BitVec 16) : BitVec 128 := f 7 ++ f 6 ++ f 5 ++ f 4 ++ f 3 ++ f 2 ++ f 1 ++ f 0
/-- Four accumulator elements joined. -/
def joinA (f : Nat → BitVec 48) : BitVec 192 := f 3 ++ f 2 ++ f 1 ++ f 0

/-! ### What one operation may do to its word -/

/-- A lane at work on one operation: its registers as they become, the word's context, the state around them. -/
structure Work where
  lane : Nat
  slot : Nat
  core : LaneCore
  ctx : WordCtx
  st : State
  deriving DecidableEq, Repr

/-- The outcome of one operation: the work done, or a lane fault with its cause and data address. -/
inductive OpResult where
  | ok (w : Work)
  | fault (cause addr : Nat) (s : State)
  deriving DecidableEq, Repr

/-- A vector result that lands a number of issued words later (R96). -/
def landLater (n : BitVec 6) (val : BitVec 128) (latency : Nat) (w : Work) : Work :=
  { w with ctx := { w.ctx with
      vw := w.ctx.vw ++ [{ reg := physReg w.ctx.core0.vrb n.toNat, val := val, due := w.ctx.core0.issued + latency }] } }

/-- Flags an operation raises: bit 0 acc_ovf, bit 1 sat, bit 2 nan_seen (R71). -/
def raiseFlags (acc sat nan : Bool) (w : Work) : Work :=
  let m : BitVec 3 := BitVec.ofBool nan ++ BitVec.ofBool sat ++ BitVec.ofBool acc
  { w with ctx := { w.ctx with flags := w.ctx.flags ||| m } }

/-- The interlock cycles until a register that `due` names may be read (R97). -/
def waitFor (c : LaneCore) (key : Nat) : Nat := tget c.due key 0 - (c.issued + c.waited)

/-- A word that reads interlocked registers: it waits for the latest of them (R97). -/
def WordCtx.await (keys : List Nat) (c : WordCtx) : WordCtx :=
  { c with wait := keys.foldl (fun n k => max n (waitFor c.core0 k)) c.wait }

/-- An operation that reads scalar registers, by their numbers, or accumulators, by 32 and up (R97). -/
def await (keys : List Nat) (w : Work) : Work := { w with ctx := w.ctx.await keys }

/-- An operation whose scalar register or accumulator is written after a latency above 1 (R96). -/
def lockLater (key latency : Nat) (w : Work) : Work :=
  if key = 0 then w else { w with ctx := { w.ctx with locks := w.ctx.locks ++ [(key, latency)] } }

/-- An operation that stalls its lane for a number of cycles the specification does not give (log entry 21). -/
def freeStall (w : Work) : Work :=
  { w with ctx := { w.ctx with stall := w.ctx.stall + Config.freeNat w.st.free }, st := draw w.st }

/-- A scalar result. Of two writes in flight to one register or accumulator, the one issued later remains (log entry 26). -/
def setScalar (n : Nat) (v : Word) (w : Work) : Work := { w with core := writeS n v w.core }
/-- An accumulator result. -/
def setAcc (n : Nat) (v : BitVec 192) (w : Work) : Work := { w with core := { w.core with acc := tset w.core.acc n v } }

/-! ### Loops at the end of a word (R88 to R92) -/

/-- Ends of iterations at a word: innermost levels whose end word it is count down and loop back, or end and hand on
outward; a rotating level advances VRB (R88, R91). The result is the levels left, VRB, and the next word. -/
def endLevels (pc : BitVec 12) : List LoopLevel → BitVec 5 → List LoopLevel × BitVec 5 × BitVec 12
  | [], vrb => ([], vrb, pc + 1)
  | l :: t, vrb =>
    if l.last = pc then
      let vrb' := if l.rotate then vrb + 1 else vrb
      if 1 < l.left then ({ l with left := l.left - 1, iter := l.iter + 1 } :: t, vrb', l.body)
      else endLevels pc t vrb'
    else (l :: t, vrb, pc + 1)

/-- The levels that a taken branch to a target leaves: those whose body holds the target and that stand outside every level
it leaves (R90). -/
def levelsKept (t : BitVec 12) (ls : List LoopLevel) : List LoopLevel :=
  (ls.reverse.takeWhile (fun l => decide (l.body ≤ t) && decide (t ≤ l.last))).reverse

/-- Whether the stage field lets an operation execute: in a rotating innermost level, stage s runs in iteration j when
s ≤ j ≤ count - 1 + s; elsewhere the field is ignored (R82, R92). -/
def stageRuns (c : LaneCore) (stage : BitVec 3) : Bool :=
  match c.loops with
  | [] => true
  | l :: _ => if l.rotate then decide (stage.toNat ≤ l.iter) && decide (l.iter < l.count + stage.toNat) else true

/-- The next program word and loop state at the end of a word. A LOOP of count 0 goes on after its end word as if that word had
ended: an enclosing level with the same end word ends its iteration there (R88; log entry 26). -/
def nextWord (c : LaneCore) (x : WordCtx) : LaneCore :=
  match x.jump with
  | some t => { c with pc := t, loops := if x.call then c.loops else levelsKept t c.loops, cyc := c.cyc + 2 }
  | none => match x.skip with
    | some e =>
      let r := endLevels (e - 1) c.loops c.vrb
      { c with pc := r.2.2, loops := r.1, vrb := r.2.1 }
    | none => match x.loop with
      | some l => { c with pc := c.pc + 1, loops := l :: c.loops }
      | none =>
        let r := endLevels c.pc c.loops c.vrb
        { c with pc := r.2.2, loops := r.1, vrb := r.2.1 }

/-- Writes one field of an address register: 0 P, 1 B, 2 L, 3 M (R86, R94). -/
def AReg.put (a : AReg) (k : Nat) (v : Word) : AReg :=
  if k = 0 then { a with p := v } else if k = 1 then { a with b := v } else if k = 2 then { a with l := v }
  else { a with m := v }

/-- One MTS write as it takes effect: AFS and AGF by ones written, VRB whole, the rest ignored (R71, R83). -/
def applySpecial (c : LaneCore) (p : Nat × Word) : LaneCore :=
  if p.1 = 0 then { c with afs := c.afs &&& ~~~(p.2.setWidth 3) }
  else if p.1 = 1 then { c with agf := c.agf && !p.2.getLsbD 0 }
  else if p.1 = 2 then { c with vrb := p.2.setWidth 5 }
  else c

/-- The registers after a word: AWR and MTS writes take effect, flags are set after any clear, results join those in flight,
registers written late are locked until then, and the issue count and cycle count advance (R71, R83, R86, R96, R97). An
operation's flags are set at the end of its own word, whatever its latency, and a VRB that MTS writes replaces the one that
the word's loops advance (log entry 25). -/
def closeWord (c : LaneCore) (x : WordCtx) : LaneCore :=
  let c1 := x.spec.foldl applySpecial (nextWord c x)
  let c2 := x.awr.foldl (fun c p => { c with a := tset c.a p.1 ((readA c p.1).put p.2.1 p.2.2) }) c1
  { c2 with
    afs := c2.afs ||| x.flags
    agf := c2.agf || !x.folds.isEmpty
    flight := c2.flight ++ x.vw
    issued := c2.issued + 1
    waited := c2.waited + x.wait
    due := x.locks.foldl (fun t p => tset t p.1 (max (tget t p.1 0) (c2.issued + c2.waited + x.wait + p.2))) c2.due
    cyc := c2.cyc + 1 + x.stall + x.wait }

/-- The end of an instruction word: everything its operations did becomes the lane's state (R81); with TDONE in it the tick
ends (R101). -/
def endWord (l : Nat) (s : State) : State :=
  let x := laneAt s l
  match x.word with
  | none => s
  | some c =>
    let pc := c.core0.pc.toNat
    let s1 := putLane l { x with core := closeWord x.core c, word := none } s
    let s2 := commitArith l c.flags pc s1
    let s3 := c.folds.foldl (fun s a => setFold l a pc s) s2
    if c.done then endTick l s3 else s3

/-- The program word that a lane issues next (R80). -/
def fetchAddr (l : Nat) (s : State) : Nat := laneBase l + 0x80000 + 16 * (laneAt s l).core.pc.toNat

/-- A fetch that finds uncorrectable words keeps finding them until they are written (R394). -/
def markFetch (a : Nat) (fetch : List Ecc) (s : State) : State :=
  let bad := (List.range 2).filter (fun k => fetch[k]? == some Ecc.uncorrectable)
  { s with poison := bad.foldl (fun p k => markPoison p (a + 8 * k)) s.poison }

/-- The start of an instruction word: due results land; an uncorrectable fetch is counted, its bad words enter the rate of R400,
and it faults with PMEM_UE; a correctable one is counted; a reserved opcode in a slot whose stage runs faults with ILLEGAL (R96,
R102, R93 to R95; log entry 25). -/
def beginWord (l : Nat) (fetch : List Ecc) (s : State) : State :=
  let x := laneAt s l
  let pc := x.core.pc.toNat
  let a := fetchAddr l s
  let s1 := markFetch a fetch s
  let bad := poisonedIn s1 a 16
  if !bad.isEmpty then
    laneFault l 5 0 pc 0
      (bad.foldl (fun s _ => clusterUe (l / 16) (ueMet 1 s)) (fbump .LAN_PMEM_ECC_uncorrected 1 s1 l))
  else
    let s2 := wordsFixed a ((fetch.take 2).filter (fun e => e == Ecc.correctable)).length s1
    let core := landUpTo x.core.issued x.core
    let word : BitVec 128 := BitVec.ofNat 128 (leNat (Memory.readBytes s.mem a 16))
    match (reservedSlots word).find? (fun k => stageRuns core (stageOf word k)) with
    | some k => laneFault l 1 k pc 0 (putLane l { x with core := core } s2)
    | none => putLane l { x with core := core, word := some { core0 := core } } s2

/-- Issues a number of words that hold no operation. -/
def emptyWords : Nat → Nat → State → State
  | 0, _, s => s
  | n + 1, l, s =>
    if (laneAt s l).runs then emptyWords n l (endWord l (beginWord l [] s)) else s

/-- Opens the word an operation belongs to, if it is the word's first. -/
def openWord (w : Issue) (s : State) : State :=
  if (laneAt s w.lane).word.isSome then s
  else
    let s1 := emptyWords w.gap.toNat w.lane s
    if (laneAt s1 w.lane).runs then beginWord w.lane w.fetch s1 else s1

/-- Whether a lane's words go on: it runs, stalls in no push, and its island is not stopped (R98, R102). -/
def laneGoes (s : State) (l : Nat) : Bool :=
  (laneAt s l).runs && !laneStalled s l && !s.age.stopped.getLsbD (l / 16)

/-- Whether a lane stalls in a QWAIT of its open word (R98). -/
def Lane.waits (x : Lane) : Bool := (x.word.map (fun c => c.held)).getD false

/-- Whether a lane can take an operation: its words go on and none of them stalls in a QWAIT (R98, R102). -/
def laneReady (s : State) (l : Nat) : Bool := laneGoes s l && !(laneAt s l).waits

/-- One operation in the word that its lane has open: its effect if its stage runs; a fault undoes the word (R81, R82, R102).
-/
def runOp (w : Issue) (slot : Nat) (op : Work → OpResult) (s : State) : State :=
  let x := laneAt s w.lane
  match x.word with
  | none => s
  | some c =>
    let s1 :=
      if stageRuns c.core0 w.stage then
        match op { lane := w.lane, slot := slot, core := x.core, ctx := c, st := s } with
        | .ok r => putLane w.lane { laneAt r.st w.lane with core := r.core, word := some r.ctx } r.st
        | .fault cause addr s' =>
          let s2 := laneFault w.lane cause slot c.core0.pc.toNat addr s'
          if cause = 8 ∧ !w.last then putLane w.lane { laneAt s2 w.lane with cut := true } s2 else s2
      else s
    if w.last && (laneAt s1 w.lane).runs then endWord w.lane s1 else s1

/-- An operation that its lane does not take; the last one of a word that an attic refusal has cut ends that word (R368). -/
def passOp (w : Issue) (s : State) : State :=
  if w.last && (laneAt s w.lane).cut then putLane w.lane { laneAt s w.lane with cut := false } s else s

/-- One operation of a lane's instruction word in slot 0 V, 1 LS0, 2 LS1 or 3 S: nothing on a lane that does not run, that
stalls in a push or a QWAIT or whose island is stopped; else it runs in the word that it belongs to (R81, R82, R98, R102). -/
def laneOp (w : Issue) (slot : Nat) (op : Work → OpResult) (s : State) : State :=
  if !laneReady s w.lane then passOp w s else runOp w slot op (openWord w s)

/-! ### Addresses (R84, R85) -/

/-- The address of an access with offset `d` (R85): linear, or folded into the circular buffer. -/
def accessAddr (a : AReg) (d : Int) : Nat :=
  if a.l = 0 then ofSigned 32 ((a.p.toNat : Int) + d)
  else ofSigned 32 ((a.b.toNat : Int) + ((a.p.toNat : Int) + d - a.b.toNat) % (a.l.toNat : Int))

/-- The pointer after a post-modify by `m` (R85). -/
def postModify (a : AReg) (m : Int) : Word :=
  BitVec.ofNat 32 (accessAddr a m)

/-- Whether a post-modify folds the pointer: it lies outside the circular buffer (R85). -/
def folds (a : AReg) : Bool :=
  a.l != 0 && !(decide (a.b.toNat ≤ a.p.toNat) && decide (a.p.toNat < a.b.toNat + a.l.toNat))

/-- An address register with its pointer moved by a post-modify, in the word's context. -/
def moveTo (n : Nat) (m : Int) (w : Work) : Work :=
  let a := readA w.core n
  let w1 : Work := { w with core := { w.core with a := tset w.core.a n { a with p := postModify a m } } }
  if folds a then { w1 with ctx := { w1.ctx with folds := w1.ctx.folds ++ [n] } } else w1

/-- Whether an LS slot's common fields name nothing reserved: A0 to A11 and modes 0 to 2 (R94). -/
def lsLegal (f : LsFields) : Bool := decide (f.areg.toNat < 12) && f.mode != 3

/-- The access address of an LS operation of size `z`: d = imm * z in indexed mode, 0 in a post-modify (R85, R94). -/
def lsAddr (f : LsFields) (z : Nat) (w : Work) : Nat :=
  accessAddr (readA w.core f.areg.toNat) (if f.mode = 0 then f.imm.toInt * (z : Int) else 0)

/-- The pointer update of an LS operation: by M in mode 1, by imm * z in mode 2 (R85, R94). -/
def lsUpdate (f : LsFields) (z : Nat) (w : Work) : Work :=
  if f.mode = 1 then moveTo f.areg.toNat (readA w.core f.areg.toNat).m.toInt w
  else if f.mode = 2 then moveTo f.areg.toNat (f.imm.toInt * (z : Int)) w
  else w

/-- The slot number of an LS operation: 1 LS0, 2 LS1. -/
def lsSlot (f : LsFields) : Nat := if f.slot1 then 2 else 1

end Sys2Proof.Machine
end

