-- ==== Sys2Proof/Machine/LaneVector.lean ====
section
/-! DEFINITION. The V slot: vector float and raw operations (R62), accumulator operations (R65 to R67), conversions (R69)
and fixed-point operations (R70), with the latencies of R96. -/

namespace Sys2Proof.Machine

/-- Lane fault ILLEGAL of an operation (R93, R102). -/
def illegal (w : Work) : OpResult := .fault 1 0 w.st

/-- A float operation on each element of two registers; sat if any element sets it (R58, R62). -/
def vec2 (latency : Nat) (fn : BitVec 32 → BitVec 32 → BitVec 32 × Bool) (f : VFields) (w : Work) : OpResult :=
  let r := fun i => fn (elemW (readV w.ctx.core0 f.a) i) (elemW (readV w.ctx.core0 f.b) i)
  .ok (raiseFlags false ((r 0).2 || (r 1).2 || (r 2).2 || (r 3).2) false
    (landLater f.d (joinW (fun i => (r i).1)) latency w))

/-- A float operation on each element of three registers. -/
def vec3 (latency : Nat) (fn : BitVec 32 → BitVec 32 → BitVec 32 → BitVec 32 × Bool) (f : VFields) (w : Work) :
    OpResult :=
  let r := fun i => fn (elemW (readV w.ctx.core0 f.a) i) (elemW (readV w.ctx.core0 f.b) i)
    (elemW (readV w.ctx.core0 f.c) i)
  .ok (raiseFlags false ((r 0).2 || (r 1).2 || (r 2).2 || (r 3).2) false
    (landLater f.d (joinW (fun i => (r i).1)) latency w))

/-- A raw operation over 128 bits of up to three registers, latency 1, no flag (R62). -/
def raw (fn : BitVec 128 → BitVec 128 → BitVec 128 → BitVec 128) (f : VFields) (w : Work) : OpResult :=
  .ok (landLater f.d (fn (readV w.ctx.core0 f.a) (readV w.ctx.core0 f.b) (readV w.ctx.core0 f.c)) 1 w)

/-- The accumulator that a field names, bits [5:3] being 0 (R93). -/
def accOf (n : BitVec 6) : Option Nat := if n.toNat < 8 then some n.toNat else none

/-- An accumulator operation on each element: what becomes of the element of acc, a and b, and whether acc_ovf is set
(R65); one that reads the accumulator waits for it (R97). -/
def accVec (reads : Bool) (fn : BitVec 48 → BitVec 32 → BitVec 32 → BitVec 48 × Bool) (f : VFields) (w : Work) : OpResult :=
  match accOf f.d with
  | none => illegal w
  | some n =>
    let r := fun i => fn (elemA (readAcc w.ctx.core0 n) i) (elemW (readV w.ctx.core0 f.a) i)
      (elemW (readV w.ctx.core0 f.b) i)
    .ok (raiseFlags ((r 0).2 || (r 1).2 || (r 2).2 || (r 3).2) false false
      (setAcc n (joinA (fun i => (r i).1)) (if reads then await [32 + n] w else w)))

/-- acc + p for a product or addend p, the operands' NaNs first (R65, R66). -/
def accSum (acc : BitVec 48) (ops : List Num) (p : Num) : BitVec 48 × Bool :=
  accOp (ofAcc acc :: ops) (addAfter defaultNanAcc p (ofAcc acc))

/-- AADD of an element. -/
def accAdd (acc : BitVec 48) (a _b : BitVec 32) : BitVec 48 × Bool := accSum acc [accOperand a] (accOperand a)
/-- AMAC of an element: acc + a × b, rounded once. -/
def accMac (acc : BitVec 48) (a b : BitVec 32) : BitVec 48 × Bool :=
  accSum acc [accOperand a, accOperand b] (mulNum defaultNanAcc (accOperand a) (accOperand b))
/-- AMSC of an element: acc - a × b, rounded once. -/
def accMsc (acc : BitVec 48) (a b : BitVec 32) : BitVec 48 × Bool :=
  accSum acc [accOperand a, accOperand b] (mulNum defaultNanAcc (accOperand a) (accOperand b)).negate
/-- AMUL of an element. -/
def accMul (acc : BitVec 48) (a _b : BitVec 32) : BitVec 48 × Bool :=
  accOp [ofAcc acc, accOperand a] (mulNum defaultNanAcc (ofAcc acc) (accOperand a))
/-- ALDV of an element: a exactly. -/
def accLoad (_acc : BitVec 48) (a _b : BitVec 32) : BitVec 48 × Bool := toAcc (accOperand a)

/-- Exact sum of four numbers of which none is a NaN; an exact zero sum is -0 only when every term is -0 (R65, R66). -/
def sum4 (a b c d : Num) : Num :=
  let l := [a, b, c, d]
  let infs := l.filter (fun n => match n with
    | .inf _ => true
    | _ => false)
  match infs with
  | x :: t => if t.all (fun y => y.neg == x.neg) then x else defaultNanAcc
  | [] => addNum defaultNanAcc (addNum defaultNanAcc a b) (addNum defaultNanAcc c d)

/-- ARED of an accumulator: the sum of the four elements with one rounding in element 0, +0 in the others; of several NaNs the
lowest element's is kept (log entry 25). -/
def accReduce (x : BitVec 192) : BitVec 192 × Bool :=
  let n := fun i => ofAcc (elemA x i)
  let r := accOp [n 0, n 1, n 2, n 3] (sum4 (n 0) (n 1) (n 2) (n 3))
  (joinA (fun i => if i = 0 then r.1 else 0), r.2)

/-- The scale s of a conversion, imm[5:0] signed; none for -32 (R93). -/
def scaleOf (imm : BitVec 7) : Option Int :=
  let s := (imm.setWidth 6).toInt
  if s = -32 then none else some s

/-- A signed integer times 2^s as binary32. -/
def intToF32 (v s : Int) : BitVec 32 := (toF32 (ofInt v s false)).1

/-- sat16 or sat32: a value limited to `w` signed bits and whether it was limited (R70). -/
def satTo2 (w : Nat) (v : Int) : Int × Bool :=
  let hi : Int := 2 ^ (w - 1) - 1
  let lo : Int := -(2 ^ (w - 1))
  if v > hi then (hi, true) else if v < lo then (lo, true) else (v, false)

/-- A fixed-point operation on each half element, latency 2: the value and whether it was limited (R70). -/
def fixH (fn : Int → Int → Int × Bool) (f : VFields) (w : Work) : OpResult :=
  let r := fun i => fn (elemH (readV w.ctx.core0 f.a) i).toInt (elemH (readV w.ctx.core0 f.b) i).toInt
  .ok (raiseFlags false ((List.range 8).any (fun i => (r i).2)) false
    (landLater f.d (joinH (fun i => BitVec.ofInt 16 (r i).1)) 2 w))

/-- A fixed-point operation on each word element, latency 2. -/
def fixW (fn : Int → Int → Int × Bool) (f : VFields) (w : Work) : OpResult :=
  let r := fun i => fn (elemW (readV w.ctx.core0 f.a) i).toInt (elemW (readV w.ctx.core0 f.b) i).toInt
  .ok (raiseFlags false ((List.range 4).any (fun i => (r i).2)) false
    (landLater f.d (joinW (fun i => BitVec.ofInt 32 (r i).1)) 2 w))

/-- A half-element shift by n 0 to 15; a greater count is ILLEGAL (R70, R93). -/
def shiftH (fn : Nat → Int → Int × Bool) (f : VFields) (w : Work) : OpResult :=
  let n := f.imm.toNat % 32
  if n < 16 then fixH (fun a _ => fn n a) f w else illegal w

/-- The redundant sign bits of a value of `w` bits: 0 for 0, else the leading bits equal to the sign, less 1 (R70). -/
def norm (w : Nat) (v : Int) : Int :=
  if v = 0 then 0
  else
    let m : Nat := if v < 0 then (-v - 1).toNat else v.toNat
    (w : Int) - 1 - (if m = 0 then 0 else (m.log2 : Int) + 1)

/-- VLMAC.W and VLMSC.W: the doubled product of two halves, saturated, added to or taken from the word of d, saturated
(R70). -/
def mac16 (sub : Bool) (f : VFields) (w : Work) : OpResult :=
  let d := readV w.ctx.core0 f.d
  let r := fun i =>
    let p := satTo2 32 (2 * ((elemH (readV w.ctx.core0 f.a) i).toInt * (elemH (readV w.ctx.core0 f.b) i).toInt))
    let q := satTo2 32 ((elemW d i).toInt + (if sub then -p.1 else p.1))
    (q.1, p.2 || q.2)
  .ok (raiseFlags false ((List.range 4).any (fun i => (r i).2)) false
    (landLater f.d (joinW (fun i => BitVec.ofInt 32 (r i).1)) 2 w))

/-- VRND.W: words rounded to saturated halves in h0 to h3, h4 to h7 cleared (R70). -/
def roundW (f : VFields) (w : Work) : OpResult :=
  let r := fun i => if i < 4 then satTo2 16 (((elemW (readV w.ctx.core0 f.a) i).toInt + 32768) / 65536) else (0, false)
  .ok (raiseFlags false ((List.range 4).any (fun i => (r i).2)) false
    (landLater f.d (joinH (fun i => BitVec.ofInt 16 (r i).1)) 2 w))

/-- CVT.HF: four half elements times 2^s as binary32, exactly (R69). -/
def cvtHf (f : VFields) (w : Work) : OpResult :=
  match scaleOf f.imm with
  | none => illegal w
  | some s =>
    let half := if f.imm.getLsbD 6 then 4 else 0
    .ok (landLater f.d (joinW (fun i => intToF32 (elemH (readV w.ctx.core0 f.a) (half + i)).toInt s)) 3 w)

/-- CVT.FH: eight binary32 elements of a and b times 2^s, rounded and limited to 16 bits (R69). -/
def cvtFh (f : VFields) (w : Work) : OpResult :=
  match scaleOf f.imm with
  | none => illegal w
  | some s =>
    let r := fun i => toInt (-32768) 32767 s (ofF32 (if i < 4 then elemW (readV w.ctx.core0 f.a) i
      else elemW (readV w.ctx.core0 f.b) (i - 4)))
    .ok (raiseFlags false ((List.range 8).any (fun i => (r i).2.1)) ((List.range 8).any (fun i => (r i).2.2))
      (landLater f.d (joinH (fun i => BitVec.ofInt 16 (r i).1)) 3 w))

/-- CVT.WF: 32-bit integers times 2^s rounded to binary32 (R69). -/
def cvtWf (f : VFields) (w : Work) : OpResult :=
  match scaleOf f.imm with
  | none => illegal w
  | some s => .ok (landLater f.d (joinW (fun i => intToF32 (elemW (readV w.ctx.core0 f.a) i).toInt s)) 3 w)

/-- CVT.FW: binary32 elements times 2^s, rounded and limited to 32 bits (R69). -/
def cvtFw (f : VFields) (w : Work) : OpResult :=
  match scaleOf f.imm with
  | none => illegal w
  | some s =>
    let r := fun i => toInt (-2147483648) 2147483647 s (ofF32 (elemW (readV w.ctx.core0 f.a) i))
    .ok (raiseFlags false ((List.range 4).any (fun i => (r i).2.1)) ((List.range 4).any (fun i => (r i).2.2))
      (landLater f.d (joinW (fun i => BitVec.ofInt 32 (r i).1)) 3 w))

/-- ASCL: the accumulator times 2^k (R65). -/
def accScale (f : VFields) (w : Work) : OpResult :=
  accVec true (fun acc _ _ => accOp [ofAcc acc] (scaleNum f.imm.toInt (ofAcc acc))) f w

/-- ARED (R65). -/
def accRed (f : VFields) (w : Work) : OpResult :=
  match accOf f.d with
  | none => illegal w
  | some n =>
    let r := accReduce (readAcc w.ctx.core0 n)
    .ok (raiseFlags r.2 false false (setAcc n r.1 (lockLater (32 + n) 4 (await [32 + n] w))))

/-- ASTV: the accumulator that field a names as binary32 (R67). -/
def accStoreV (f : VFields) (w : Work) : OpResult :=
  match accOf f.a with
  | none => illegal w
  | some n =>
    let r := fun i => accToF32 (elemA (readAcc w.ctx.core0 n) i)
    .ok (raiseFlags false ((List.range 4).any (fun i => (r i).2.2)) ((List.range 4).any (fun i => (r i).2.1))
      (landLater f.d (joinW (fun i => (r i).1)) 4 (await [32 + n] w)))

/-- VBCAST: element k of a in all four elements (R62). -/
def broadcast (f : VFields) (w : Work) : OpResult :=
  raw (fun a _ _ => joinW (fun _ => elemW a (f.imm.toNat % 4))) f w

/-- VADD (R62). -/
def execVadd (w : Issue) (f : VFields) (s : State) : Host.Outcome State Fault Refusal :=
  .next (laneOp w 0 (vec2 4 f32Add f) s)
/-- VSUB (R62). -/
def execVsub (w : Issue) (f : VFields) (s : State) : Host.Outcome State Fault Refusal :=
  .next (laneOp w 0 (vec2 4 f32Sub f) s)
/-- VMUL (R62). -/
def execVmul (w : Issue) (f : VFields) (s : State) : Host.Outcome State Fault Refusal :=
  .next (laneOp w 0 (vec2 4 f32Mul f) s)
/-- VFMA (R62). -/
def execVfma (w : Issue) (f : VFields) (s : State) : Host.Outcome State Fault Refusal :=
  .next (laneOp w 0 (vec3 4 f32Fma f) s)
/-- VFMS (R62). -/
def execVfms (w : Issue) (f : VFields) (s : State) : Host.Outcome State Fault Refusal :=
  .next (laneOp w 0 (vec3 4 f32Fms f) s)
/-- VMIN (R62). -/
def execVmin (w : Issue) (f : VFields) (s : State) : Host.Outcome State Fault Refusal :=
  .next (laneOp w 0 (vec2 4 f32Min f) s)
/-- VMAX (R62). -/
def execVmax (w : Issue) (f : VFields) (s : State) : Host.Outcome State Fault Refusal :=
  .next (laneOp w 0 (vec2 4 f32Max f) s)
/-- VRCP (R62). -/
def execVrcp (w : Issue) (f : VFields) (s : State) : Host.Outcome State Fault Refusal :=
  .next (laneOp w 0 (vec2 6 (fun a _ => f32Rcp a) f) s)
/-- VRSQ (R62). -/
def execVrsq (w : Issue) (f : VFields) (s : State) : Host.Outcome State Fault Refusal :=
  .next (laneOp w 0 (vec2 6 (fun a _ => f32Rsq a) f) s)
/-- VCMPEQ (R62). -/
def execVcmpeq (w : Issue) (f : VFields) (s : State) : Host.Outcome State Fault Refusal :=
  .next (laneOp w 0 (vec2 4 (f32Cmp eqNum) f) s)
/-- VCMPLT (R62). -/
def execVcmplt (w : Issue) (f : VFields) (s : State) : Host.Outcome State Fault Refusal :=
  .next (laneOp w 0 (vec2 4 (f32Cmp ltNum) f) s)
/-- VCMPLE (R62). -/
def execVcmple (w : Issue) (f : VFields) (s : State) : Host.Outcome State Fault Refusal :=
  .next (laneOp w 0 (vec2 4 (f32Cmp (fun a b => ltNum a b || eqNum a b)) f) s)
/-- VABS (R62). -/
def execVabs (w : Issue) (f : VFields) (s : State) : Host.Outcome State Fault Refusal :=
  .next (laneOp w 0 (raw (fun a _ _ => a &&& 0x7FFFFFFF7FFFFFFF7FFFFFFF7FFFFFFF) f) s)
/-- VNEG (R62). -/
def execVneg (w : Issue) (f : VFields) (s : State) : Host.Outcome State Fault Refusal :=
  .next (laneOp w 0 (raw (fun a _ _ => a ^^^ 0x80000000800000008000000080000000) f) s)
/-- VMOV (R62). -/
def execVmov (w : Issue) (f : VFields) (s : State) : Host.Outcome State Fault Refusal :=
  .next (laneOp w 0 (raw (fun a _ _ => a) f) s)
/-- VAND (R62). -/
def execVand (w : Issue) (f : VFields) (s : State) : Host.Outcome State Fault Refusal :=
  .next (laneOp w 0 (raw (fun a b _ => a &&& b) f) s)
/-- VOR (R62). -/
def execVor (w : Issue) (f : VFields) (s : State) : Host.Outcome State Fault Refusal :=
  .next (laneOp w 0 (raw (fun a b _ => a ||| b) f) s)
/-- VXOR (R62). -/
def execVxor (w : Issue) (f : VFields) (s : State) : Host.Outcome State Fault Refusal :=
  .next (laneOp w 0 (raw (fun a b _ => a ^^^ b) f) s)
/-- VSEL (R62). -/
def execVsel (w : Issue) (f : VFields) (s : State) : Host.Outcome State Fault Refusal :=
  .next (laneOp w 0 (raw (fun m a b => (m &&& a) ||| (~~~m &&& b)) f) s)
/-- VBCAST (R62). -/
def execVbcast (w : Issue) (f : VFields) (s : State) : Host.Outcome State Fault Refusal :=
  .next (laneOp w 0 (broadcast f) s)
/-- ACLR (R65). -/
def execAclr (w : Issue) (f : VFields) (s : State) : Host.Outcome State Fault Refusal :=
  .next (laneOp w 0 (accVec false (fun _ _ _ => (0, false)) f) s)
/-- ALDV (R65). -/
def execAldv (w : Issue) (f : VFields) (s : State) : Host.Outcome State Fault Refusal :=
  .next (laneOp w 0 (accVec false accLoad f) s)
/-- AADD (R65). -/
def execAadd (w : Issue) (f : VFields) (s : State) : Host.Outcome State Fault Refusal :=
  .next (laneOp w 0 (accVec true accAdd f) s)
/-- AMAC (R65). -/
def execAmac (w : Issue) (f : VFields) (s : State) : Host.Outcome State Fault Refusal :=
  .next (laneOp w 0 (accVec true accMac f) s)
/-- AMSC (R65). -/
def execAmsc (w : Issue) (f : VFields) (s : State) : Host.Outcome State Fault Refusal :=
  .next (laneOp w 0 (accVec true accMsc f) s)
/-- AMUL (R65). -/
def execAmul (w : Issue) (f : VFields) (s : State) : Host.Outcome State Fault Refusal :=
  .next (laneOp w 0 (accVec true accMul f) s)
/-- ASCL (R65). -/
def execAscl (w : Issue) (f : VFields) (s : State) : Host.Outcome State Fault Refusal :=
  .next (laneOp w 0 (accScale f) s)
/-- ARED (R65). -/
def execAred (w : Issue) (f : VFields) (s : State) : Host.Outcome State Fault Refusal :=
  .next (laneOp w 0 (accRed f) s)
/-- ASTV (R67). -/
def execAstv (w : Issue) (f : VFields) (s : State) : Host.Outcome State Fault Refusal :=
  .next (laneOp w 0 (accStoreV f) s)
/-- CVT_HF (R69). -/
def execCvtHf (w : Issue) (f : VFields) (s : State) : Host.Outcome State Fault Refusal :=
  .next (laneOp w 0 (cvtHf f) s)
/-- CVT_FH (R69). -/
def execCvtFh (w : Issue) (f : VFields) (s : State) : Host.Outcome State Fault Refusal :=
  .next (laneOp w 0 (cvtFh f) s)
/-- CVT_WF (R69). -/
def execCvtWf (w : Issue) (f : VFields) (s : State) : Host.Outcome State Fault Refusal :=
  .next (laneOp w 0 (cvtWf f) s)
/-- CVT_FW (R69). -/
def execCvtFw (w : Issue) (f : VFields) (s : State) : Host.Outcome State Fault Refusal :=
  .next (laneOp w 0 (cvtFw f) s)
/-- VADD_H (R70). -/
def execVaddH (w : Issue) (f : VFields) (s : State) : Host.Outcome State Fault Refusal :=
  .next (laneOp w 0 (fixH (fun a b => (a + b, false)) f) s)
/-- VSUB_H (R70). -/
def execVsubH (w : Issue) (f : VFields) (s : State) : Host.Outcome State Fault Refusal :=
  .next (laneOp w 0 (fixH (fun a b => (a - b, false)) f) s)
/-- VADDS_H (R70). -/
def execVaddsH (w : Issue) (f : VFields) (s : State) : Host.Outcome State Fault Refusal :=
  .next (laneOp w 0 (fixH (fun a b => satTo2 16 (a + b)) f) s)
/-- VSUBS_H (R70). -/
def execVsubsH (w : Issue) (f : VFields) (s : State) : Host.Outcome State Fault Refusal :=
  .next (laneOp w 0 (fixH (fun a b => satTo2 16 (a - b)) f) s)
/-- VMULQ_H (R70). -/
def execVmulqH (w : Issue) (f : VFields) (s : State) : Host.Outcome State Fault Refusal :=
  .next (laneOp w 0 (fixH (fun a b => satTo2 16 (a * b / 32768)) f) s)
/-- VMULQR_H (R70). -/
def execVmulqrH (w : Issue) (f : VFields) (s : State) : Host.Outcome State Fault Refusal :=
  .next (laneOp w 0 (fixH (fun a b => satTo2 16 ((a * b + 16384) / 32768)) f) s)
/-- VABSS_H (R70). -/
def execVabssH (w : Issue) (f : VFields) (s : State) : Host.Outcome State Fault Refusal :=
  .next (laneOp w 0 (fixH (fun a _ => satTo2 16 (a.natAbs : Int)) f) s)
/-- VNEGS_H (R70). -/
def execVnegsH (w : Issue) (f : VFields) (s : State) : Host.Outcome State Fault Refusal :=
  .next (laneOp w 0 (fixH (fun a _ => satTo2 16 (-a)) f) s)
/-- VSHLS_H (R70). -/
def execVshlsH (w : Issue) (f : VFields) (s : State) : Host.Outcome State Fault Refusal :=
  .next (laneOp w 0 (shiftH (fun n a => satTo2 16 (a * 2 ^ n)) f) s)
/-- VSHR_H (R70). -/
def execVshrH (w : Issue) (f : VFields) (s : State) : Host.Outcome State Fault Refusal :=
  .next (laneOp w 0 (shiftH (fun n a => (a / 2 ^ n, false)) f) s)
/-- VNORM_H (R70). -/
def execVnormH (w : Issue) (f : VFields) (s : State) : Host.Outcome State Fault Refusal :=
  .next (laneOp w 0 (fixH (fun a _ => (norm 16 a, false)) f) s)
/-- VADDS_W (R70). -/
def execVaddsW (w : Issue) (f : VFields) (s : State) : Host.Outcome State Fault Refusal :=
  .next (laneOp w 0 (fixW (fun a b => satTo2 32 (a + b)) f) s)
/-- VSUBS_W (R70). -/
def execVsubsW (w : Issue) (f : VFields) (s : State) : Host.Outcome State Fault Refusal :=
  .next (laneOp w 0 (fixW (fun a b => satTo2 32 (a - b)) f) s)
/-- VSHLS_W (R70). -/
def execVshlsW (w : Issue) (f : VFields) (s : State) : Host.Outcome State Fault Refusal :=
  .next (laneOp w 0 (fixW (fun a _ => satTo2 32 (a * 2 ^ (f.imm.toNat % 32))) f) s)
/-- VSHR_W (R70). -/
def execVshrW (w : Issue) (f : VFields) (s : State) : Host.Outcome State Fault Refusal :=
  .next (laneOp w 0 (fixW (fun a _ => (a / 2 ^ (f.imm.toNat % 32), false)) f) s)
/-- VNORM_W (R70). -/
def execVnormW (w : Issue) (f : VFields) (s : State) : Host.Outcome State Fault Refusal :=
  .next (laneOp w 0 (fixW (fun a _ => (norm 32 a, false)) f) s)
/-- VLMAC_W (R70). -/
def execVlmacW (w : Issue) (f : VFields) (s : State) : Host.Outcome State Fault Refusal :=
  .next (laneOp w 0 (mac16 false f) s)
/-- VLMSC_W (R70). -/
def execVlmscW (w : Issue) (f : VFields) (s : State) : Host.Outcome State Fault Refusal :=
  .next (laneOp w 0 (mac16 true f) s)
/-- VRND_W (R70). -/
def execVrndW (w : Issue) (f : VFields) (s : State) : Host.Outcome State Fault Refusal :=
  .next (laneOp w 0 (roundW f) s)

end Sys2Proof.Machine
end

