-- ==== Sys2Proof/Machine/LaneMemory.lean ====
section
/-! DEFINITION. The LS slots: loads, stores and address operations (R63, R68, R74 to R78, R84 to R87, R94). -/

namespace Sys2Proof.Machine

/-- The cycles that the word's accesses add beyond its first, as LS0 and then LS1 of `k` cycles join it: LS1 starts a cycle
later where both name one generator (R84), and after LS0's accesses to its own bank (R68, R76). The second component counts
the cycles in which LS1 is not served. -/
def slotCycles (gen : Nat) (bank : Option Nat) (k : Nat) : Option (Nat × Option Nat × Nat) → Nat × Nat
  | none => (k - 1, 0)
  | some (g0, b0, k0) =>
    let turn := if g0 = gen then 1 else 0
    let start := max turn (if bank.isSome && b0 == bank then k0 else 0)
    (max k0 (start + k) - k0, start - turn)

/-- An LS operation of `k` cycles at a bank, or at none, as the cycles of its word go (R76, R84); the cycles that the DMA port
takes first are counted with those that LS1 waits (R76, Table 14). -/
def noteSlot (f : LsFields) (bank : Option Nat) (k : Nat) (w : Work) : Work :=
  let gen := f.areg.toNat / 4
  let r := slotCycles gen bank k (if f.slot1 then w.ctx.ls0 else none)
  let dma := if bank.isSome then f.dma else 0
  let ls0 := if f.slot1 then w.ctx.ls0 else some (gen, bank, k)
  { w with
    ctx := { w.ctx with ls0 := ls0, stall := w.ctx.stall + r.1 + dma }
    st := fbump .LAN_BANK_STALL_stalls (r.2 + dma) w.st w.lane }

/-- The data-memory bank of a lane-local address; the attic uses none (R74, Table 12). -/
def bankOf (a : Nat) : Option Nat := if a < 0x80000 then some (a / 0x20000) else none

/-- The protected words of an access of `z` bytes at a device address that a load finds uncorrectable: those that stand so,
and those that its check bits show so now (R21, R78). -/
def badWords (s : State) (d z : Nat) (check : List Ecc) : List Nat :=
  let k := wordBytes d
  ((List.range ((z + k - 1) / k)).filter (fun i =>
    s.poison.contains (wordOf d + k * i) || check[i]? == some Ecc.uncorrectable)).map (fun i => wordOf d + k * i)

/-- What an access of `z` bytes at a lane-local address meets: the lane fault cause, or the device address (R74, R75, R78,
R102). Accumulators move only to data memory (R68): an attic address is outside their range, cause 3 (log entry 25). -/
def checkAccess (w : Work) (a z : Nat) (write acc : Bool) (check : List Ecc) : Except Nat Nat :=
  match laneAddr w.lane a with
  | none => .error 3
  | some d =>
    if acc && decide (0x80000 ≤ a) then .error 3
    else if a % z ≠ 0 then .error 2
    else if decide (0x80000 ≤ a) && !permitted w.st (2 + w.lane / 16) d z write then .error 8
    else if !write && !(badWords w.st d z check).isEmpty then .error 4
    else .ok d

/-- The counters, records and events that a refused or uncorrectable access leaves, each bad word counted; correctable words
of such an access are not, as R78 does not say (R78, R366, R394, R398; log entry 26). -/
def accessTrouble (w : Work) (a z cause : Nat) (write : Bool) (check : List Ecc) : State :=
  let c := w.lane / 16
  if cause = 8 then recordDenial (2 + c) (atticBase c + (a - 0x400000)) z write w.st
  else if cause = 4 then
    let bad := badWords w.st ((laneAddr w.lane a).getD 0) z check
    bad.foldl (fun s b => memoryUe (2 + c) b { s with poison := markPoison s.poison b }) w.st
  else w.st

/-- The cycles of an access of `z` bytes: a transfer of 32 bytes takes two of its bank (R68). -/
def accessCycles (z : Nat) : Nat := if z = 32 then 2 else 1

/-- A load that its memory serves: correctable words counted, and from the attic a stall until the data return (R74, R78,
R398; log entry 21). -/
def loadWords (a d z : Nat) (check : List Ecc) (w : Work) : Work :=
  let n := ((check.take (z / wordBytes d)).filter (fun e => e == Ecc.correctable)).length
  let w1 : Work := { w with st := wordsFixed d n w.st }
  if a < 0x80000 then w1 else freeStall w1

/-- A load of `z` bytes: what is done with the bytes, after the pointer update (R63, R94). -/
def loadOp (z : Nat) (acc legal : Bool) (f : LsFields) (k : Bytes → Work → Work) (w : Work) : OpResult :=
  if !lsLegal f || !legal then illegal w
  else
    let a := lsAddr f z w
    match checkAccess w a z false acc f.check with
    | .error cause => .fault cause a (accessTrouble w a z cause false f.check)
    | .ok d => .ok (lsUpdate f z (k (Memory.readBytes w.st.mem d z)
        (noteSlot f (bankOf a) (accessCycles z) (loadWords a d z f.check w))))

/-- Bytes stored by an operation, with what they replace kept until the word ends (R81). -/
def storeIn (d : Nat) (b : Bytes) (w : Work) : Work :=
  let old := (List.range b.length).map (fun i => (d + i, Memory.read w.st.mem (d + i)))
  let gone := w.st.poison.filter (fun p => decide (d ≤ p) && decide (p + wordBytes p ≤ d + b.length))
  { w with
    st := storeBytes d b w.st
    ctx := { w.ctx with undo := old.reverse ++ w.ctx.undo, undoPoison := gone ++ w.ctx.undoPoison } }

/-- A store of `z` bytes (R63, R75, R94). -/
def storeOp (z : Nat) (acc legal : Bool) (f : LsFields) (data : Work → Bytes) (after : Work → Work) (w : Work) :
    OpResult :=
  if !lsLegal f || !legal then illegal w
  else
    let a := lsAddr f z w
    match checkAccess w a z true acc [] with
    | .error cause => .fault cause a (accessTrouble w a z cause true [])
    | .ok d => .ok (after (lsUpdate f z (storeIn d (data w) (noteSlot f (bankOf a) (accessCycles z) w))))

/-- Whether the reg field names a scalar register: bit 5 clear (R94). -/
def namesScalar (f : LsFields) : Bool := !f.reg.getLsbD 5
/-- Whether the reg field names an accumulator: bits [5:3] clear (R94). -/
def namesAcc (f : LsFields) : Bool := decide (f.reg.toNat < 8)
/-- A word of bytes, little-endian. -/
def wordOfBytes (n : Nat) (b : Bytes) : BitVec n := BitVec.ofNat n (leNat b)
/-- The bytes of a vector register, little-endian. -/
def bytesOf {n : Nat} (k : Nat) (x : BitVec n) : Bytes := toLe k x.toNat

/-- Four elements of an accumulator from 32 bytes; patterns that are not produced load as zero (R68). -/
def accOfBytes (b : Bytes) : BitVec 192 :=
  joinA (fun i =>
    let x : BitVec 48 := wordOfBytes 48 (slice b (8 * i) 6)
    if (ofAcc x).isZero then packAcc (x.getLsbD 47) 0 0 else x)

/-- The 32 bytes of an accumulator, bits [63:48] of each element 0 (R68). -/
def bytesOfAcc (x : BitVec 192) : Bytes :=
  (List.range 4).flatMap (fun i => bytesOf 6 (elemA x i) ++ zeros 2)

/-- The bytes of a float store and the flags nan_seen and sat (R63). -/
def floatBytes (x : BitVec 128) : Bytes × Bool × Bool :=
  let r := fun i => storeFix (elemW x i)
  ((List.range 4).flatMap (fun i => bytesOf 4 (r i).1), (List.range 4).any (fun i => (r i).2.1),
    (List.range 4).any (fun i => (r i).2.2))

/-- LD.W (R94). -/
def execLdW (w : Issue) (f : LsFields) (s : State) : Host.Outcome State Fault Refusal :=
  .next (laneOp w (lsSlot f) (loadOp 4 false (namesScalar f) f
    (fun b w => setScalar f.reg.toNat (wordOfBytes 32 b) (lockLater f.reg.toNat 3 w))) s)
/-- LD.D (R94). -/
def execLdD (w : Issue) (f : LsFields) (s : State) : Host.Outcome State Fault Refusal :=
  .next (laneOp w (lsSlot f) (loadOp 8 false true f (fun b => landLater f.reg (wordOfBytes 128 b) 3)) s)
/-- LD.Q (R94). -/
def execLdQ (w : Issue) (f : LsFields) (s : State) : Host.Outcome State Fault Refusal :=
  .next (laneOp w (lsSlot f) (loadOp 16 false true f (fun b => landLater f.reg (wordOfBytes 128 b) 3)) s)
/-- LD.WB (R94). -/
def execLdWb (w : Issue) (f : LsFields) (s : State) : Host.Outcome State Fault Refusal :=
  .next (laneOp w (lsSlot f) (loadOp 4 false true f (fun b => landLater f.reg (joinW (fun _ => wordOfBytes 32 b)) 3)) s)
/-- ST.W (R94). -/
def execStW (w : Issue) (f : LsFields) (s : State) : Host.Outcome State Fault Refusal :=
  .next (laneOp w (lsSlot f)
    (storeOp 4 false (namesScalar f) f (fun w => bytesOf 4 (readS w.ctx.core0 f.reg.toNat)) (await [f.reg.toNat])) s)
/-- ST.D (R94). -/
def execStD (w : Issue) (f : LsFields) (s : State) : Host.Outcome State Fault Refusal :=
  .next (laneOp w (lsSlot f) (storeOp 8 false true f (fun w => bytesOf 8 (readV w.ctx.core0 f.reg)) id) s)
/-- ST.Q (R94). -/
def execStQ (w : Issue) (f : LsFields) (s : State) : Host.Outcome State Fault Refusal :=
  .next (laneOp w (lsSlot f) (storeOp 16 false true f (fun w => bytesOf 16 (readV w.ctx.core0 f.reg)) id) s)
/-- STF.Q: a float store (R63). -/
def execStfQ (w : Issue) (f : LsFields) (s : State) : Host.Outcome State Fault Refusal :=
  .next (laneOp w (lsSlot f) (storeOp 16 false true f (fun w => (floatBytes (readV w.ctx.core0 f.reg)).1)
    (fun w => raiseFlags false (floatBytes (readV w.ctx.core0 f.reg)).2.2 (floatBytes (readV w.ctx.core0 f.reg)).2.1 w))
    s)
/-- ALOAD (R68). -/
def execAload (w : Issue) (f : LsFields) (s : State) : Host.Outcome State Fault Refusal :=
  .next (laneOp w (lsSlot f) (loadOp 32 true (namesAcc f) f
    (fun b w => setAcc f.reg.toNat (accOfBytes b) (lockLater (32 + f.reg.toNat) 4 w))) s)
/-- ASAVE (R68). -/
def execAsave (w : Issue) (f : LsFields) (s : State) : Host.Outcome State Fault Refusal :=
  .next (laneOp w (lsSlot f) (storeOp 32 true (namesAcc f) f (fun w => bytesOfAcc (readAcc w.ctx.core0 f.reg.toNat))
    (await [32 + f.reg.toNat])) s)
/-- ADDA: a pointer update with no access, imm counting bytes (R85, R94; log entry 23). -/
def execAdda (w : Issue) (f : LsFields) (s : State) : Host.Outcome State Fault Refusal :=
  .next (laneOp w (lsSlot f) (fun w => if lsLegal f then .ok (lsUpdate f 1 (noteSlot f none 1 w)) else illegal w) s)
/-- AWR: a field of an address register written, for the words that follow (R86, R94). -/
def execAwr (w : Issue) (f : LsFields) (s : State) : Host.Outcome State Fault Refusal :=
  .next (laneOp w (lsSlot f) (fun w =>
    if lsLegal f && namesScalar f && decide (f.imm.toNat < 4) then
      let w1 := await [f.reg.toNat] (noteSlot f none 1 w)
      .ok { w1 with ctx := { w1.ctx with
        awr := w1.ctx.awr ++ [(f.areg.toNat, f.imm.toNat, readS w.ctx.core0 f.reg.toNat)] } }
    else illegal w) s)
/-- The field of an address register: 0 P, 1 B, 2 L, 3 M (R94). -/
def AReg.field (a : AReg) (k : Nat) : Word := if k = 0 then a.p else if k = 1 then a.b else if k = 2 then a.l else a.m
/-- ARD (R94): of a register that LS0 post-modifies, LS1 reads the pointer as that leaves it (R86). -/
def execArd (w : Issue) (f : LsFields) (s : State) : Host.Outcome State Fault Refusal :=
  .next (laneOp w (lsSlot f) (fun w =>
    if lsLegal f && namesScalar f && decide (f.imm.toNat < 4) then
      .ok (setScalar f.reg.toNat ((readA w.core f.areg.toNat).field f.imm.toNat) (noteSlot f none 1 w))
    else illegal w) s)

end Sys2Proof.Machine
end

