-- ==== Sys2Proof/Machine/LaneScalar.lean ====
section
/-! DEFINITION. The S slot: scalar arithmetic, branches, loops, special registers and queue operations (R83, R88 to R90,
R95, R98). -/

namespace Sys2Proof.Machine

/-- An ALU operation on two scalar registers (R95). -/
def alu (fn : Word → Word → Word) (f : AluFields) (w : Work) : OpResult :=
  .ok (setScalar f.d.toNat (fn (readS w.ctx.core0 f.a.toNat) (readS w.ctx.core0 f.b.toNat)) (await [f.a.toNat, f.b.toNat] w))

/-- An operation on a scalar register and the immediate, signed to 32 bits (R95). -/
def aluImm (fn : Word → Word → Word) (f : ImmFields) (w : Work) : OpResult :=
  .ok (setScalar f.d.toNat (fn (readS w.ctx.core0 f.a.toNat) (f.imm.signExtend 32)) (await [f.a.toNat] w))

/-- A shift count: bits [4:0] (R95). -/
def shiftBy (b : Word) : Nat := b.toNat % 32

/-- A taken branch, or none (R90, R95). -/
def branch (taken call : Bool) (t : BitVec 12) (w : Work) : OpResult :=
  if taken then .ok { w with ctx := { w.ctx with jump := some t, call := call } } else .ok w

/-- Where a LOOP faults: three levels active, an end word not after it, or beyond the enclosing level's (R89). -/
def loopFault (c : LaneCore) (f : LoopFields) : Option Nat :=
  if 3 ≤ c.loops.length then some 6
  else if f.last ≤ c.pc then some 7
  else match c.loops with
    | l :: _ => if l.last < f.last then some 7 else none
    | [] => none

/-- The count of a LOOP: the immediate 0 to 63, or a register read unsigned (R88, R95). -/
def loopCount (c : LaneCore) (f : LoopFields) : Nat :=
  if f.fromReg then (readS c (f.count.toNat % 32)).toNat else f.count.toNat

/-- A special register as MFS reads it (R83, Table 2); none for a reserved ID. The iterations remaining at a loop level
count the one in progress (log entry 25), and CYC those cycles that had passed as the word began (log entry 26). -/
def special (w : Work) (id : Nat) : Option Word :=
  let c := w.ctx.core0
  let lc := fun k => match c.loops.reverse[k]? with
    | some l => BitVec.ofNat 32 l.left
    | none => 0
  if id = 0 then some (c.afs.setWidth 32)
  else if id = 1 then some (if c.agf then 1 else 0)
  else if id = 2 then some (c.vrb.setWidth 32)
  else if id = 3 then some (lc 0)
  else if id = 4 then some (lc 1)
  else if id = 5 then some (lc 2)
  else if id = 6 then some (BitVec.ofNat 32 c.loops.length)
  else if id = 7 then some c.tick
  else if id = 8 then some c.clist
  else if id = 9 then some (BitVec.ofNat 32 c.ccount)
  else if id = 10 then some (BitVec.ofNat 32 c.cidx)
  else if id = 11 then some (BitVec.ofNat 32 c.cyc)
  else if id = 12 then some (BitVec.ofNat 32 w.lane)
  else none

/-- MFS of a special register (R83); a read of AFS waits for the operations before it (R72; log entry 21). -/
def moveFrom (f : SpecialFields) (w : Work) : OpResult :=
  match special w f.id.toNat with
  | none => illegal w
  | some v => .ok (setScalar f.r.toNat v (if f.id = 0 then freeStall w else w))

/-- MTS to a special register, for the words that follow; a read-only one ignores it (R83). -/
def moveTo' (f : SpecialFields) (w : Work) : OpResult :=
  if f.id.toNat < 13 then
    let w1 := await [f.r.toNat] w
    .ok { w1 with ctx := { w1.ctx with spec := w1.ctx.spec ++ [(f.id.toNat, readS w.ctx.core0 f.r.toNat)] } }
  else illegal w

/-- A lane's digest of the tick with one more packet: a word of its output port and length, then its bytes, under the CRC-64
of R433. It runs in full shadow with digest_en set, over packets for the packet, bundle and TDM islands. -/
def digestPush (lane port q : Nat) (b : Bytes) (s : State) : State :=
  if fget s .PAIR_CFG_mode = 2 ∧ fbit s .PAIR_CTRL_digest_en ∧ 9 ≤ queConsumer s q ∧ queConsumer s q ≤ 11 then
    let x := laneAt s lane
    let d := (toLe 4 (port * 2 ^ 24 + b.length % 2 ^ 24) ++ b).foldl (crcByte 64 0x42F0E1EBA9EA3693) x.digest.toNat
    putLane lane { x with digest := BitVec.ofNat 64 d } s
  else s

/-- The uncorrectable words among the bytes that a push reads, each counted, with event 103 (R78, R394). -/
def pushTrouble (lane d n : Nat) (s : State) : State :=
  if meetsUe s d n then
    transferDropped (2 + lane / 16) (accessTarget s d n).1
      ((poisonedIn s d n).foldl (fun s b => memoryUe (2 + lane / 16) b s) s)
  else s

/-- The words of a packet of `n` bytes at a device address that hold an uncorrectable byte. -/
def badParts (s : State) (d n : Nat) : List Nat :=
  (List.range (wordsOf n)).filter (fun i => meetsUe s (d + 8 * i) (min 8 (n - 8 * i)))

/-- A status of Table 7 that the specification does not fix: one of its codes 0x0000 to 0x0012, bits [31:16] zero (R383). -/
def openStatus (k : Nat) : Word := BitVec.ofNat 32 (Config.freeNat k % 0x13)

/-- A push of the bytes of data memory that its registers name (R98): BAD_LENGTH for none of them (R14), RANGE for bytes outside
data memory before any test of the length (log entry 26); a packet with an uncorrectable word becomes a drop record (R394). A
push that its VC makes wait gives its status when it starts; one not taken whole at once stalls the lane for cycles that the
specification does not count (log entry 21). An unbound port gives an open status (log entry 25). -/
def pushOp (f : AluFields) (w : Work) : OpResult :=
  let a := (readS w.ctx.core0 f.a.toNat).toNat
  let n := (readS w.ctx.core0 f.b.toNat).toNat
  let port := f.low.toNat % 8
  let w := await [f.a.toNat, f.b.toNat] w
  if n ≠ 0 ∧ 0x80000 < a + n then .fault 3 a w.st
  else match lanePort w.st w.lane port with
    | none => .ok (setScalar f.d.toNat (openStatus w.st.free) { w with st := draw w.st })
    | some (q, k) =>
      let d := laneBase w.lane + a
      let bytes := Memory.readBytes w.st.mem d n
      let r := pushMarked q k bytes (badParts w.st d n) w.st
      if r.2 = 2 then .ok (setScalar f.d.toNat 2 { w with st := r.1 })
      else
        let s1 := pushTrouble w.lane d n (if r.2 = 0 then digestPush w.lane port q bytes r.1 else r.1)
        if !pushing s1 q k then .ok (setScalar f.d.toNat (BitVec.ofNat 32 r.2) { w with st := s1 })
        else
          let w1 := freeStall { w with st := putLane w.lane { laneAt s1 w.lane with pushReg := none } s1 }
          if pushWaits s1 q k then
            .ok { w1 with st := putLane w.lane { laneAt w1.st w.lane with pushReg := some f.d.toNat } w1.st }
          else .ok (setScalar f.d.toNat (BitVec.ofNat 32 r.2) w1)

/-- Frees the receive-area space of the packet whose notice QNOTE took last (R308). -/
def freeTaken (x : RxArea) : RxArea := { x with used := x.used.filter (fun u => !x.taken.contains u.1), taken := [] }

/-- The oldest notice pending in a receive area, if the tick that it belongs to has begun (R24, R307). -/
def noticeDue (s : State) (x : RxArea) : Option (BitVec 32) :=
  (x.noted.head?).bind (fun n => if n.2 ≤ tickNow s then some n.1 else none)

/-- QNOTE: the oldest notice of an input port, or 0 (R24, R98, R308); the port is named as by QPUSH (log entry 26). -/
def noteOp (f : AluFields) (w : Work) : OpResult :=
  let port := f.low.toNat % 8
  let x := freeTaken (areaAt w.st w.lane port)
  match noticeDue w.st x with
  | none => .ok (setScalar f.d.toNat 0 { w with st := putArea w.lane port x w.st })
  | some n => .ok (setScalar f.d.toNat n
      { w with st := putArea w.lane port { x with noted := x.noted.tail, taken := [n.toNat % 8192 * 16] } w.st })

/-- A QPUSH in a word of which an attic access was refused: the packet that it starts becomes a drop record (R309, R368). -/
def cutPush (w : Issue) (f : AluFields) (s : State) : State :=
  let c := (laneAt s w.lane).core
  let a := (readS c f.a.toNat).toNat
  let n := (readS c f.b.toNat).toNat
  match lanePort s w.lane (f.low.toNat % 8) with
  | none => s
  | some (q, k) =>
    if !stageRuns c w.stage || decide (n ≠ 0 ∧ 0x80000 < a + n) then s
    else
      let r := pushMarked q k (Memory.readBytes s.mem (laneBase w.lane + a) n) [] s
      if r.2 = 0 then cutStarted q k r.1 else r.1

/-- QPUSH (R98, R302). -/
def execQpush (w : Issue) (f : AluFields) (s : State) : Host.Outcome State Fault Refusal :=
  .next (if (laneAt s w.lane).cut then passOp w (cutPush w f s) else laneOp w 3 (pushOp f) s)
/-- QNOTE (R98). -/
def execQnote (w : Issue) (f : AluFields) (s : State) : Host.Outcome State Fault Refusal := .next (laneOp w 3 (noteOp f) s)
/-- A QWAIT that its stage runs and whose input port holds no notice keeps its word open, and the lane stalls: it takes no
other operation until then (R98). -/
def stallWait (w : Issue) (s : State) : State :=
  let x := laneAt s w.lane
  match x.word with
  | none => s
  | some c => putLane w.lane { x with word := some { c with held := true } } s

/-- A QWAIT that goes on: with its stage off, or once its input port holds a notice (R92, R98; log entry 21). -/
def goOn (w : Work) : OpResult :=
  .ok (if w.ctx.held then freeStall { w with ctx := { w.ctx with held := false } } else w)

/-- QWAIT: the lane stalls in the word until the input port holds a notice whose tick has begun (R24, R98; log entries 20,
26). -/
def execQwait (w : Issue) (f : AluFields) (s : State) : Host.Outcome State Fault Refusal :=
  if !laneGoes s w.lane then .next (passOp w s)
  else
    let s1 := openWord w s
    match (laneAt s1 w.lane).word with
    | none => .next s1
    | some c =>
      if stageRuns c.core0 w.stage && (noticeDue s1 (areaAt s1 w.lane (f.low.toNat % 8))).isNone then .next (stallWait w s1)
      else .next (runOp w 3 goOn s1)
/-- TDONE (R101): the lane's tick ends with the word. -/
def execTdone (w : Issue) (s : State) : Host.Outcome State Fault Refusal :=
  .next (laneOp w 3 (fun w => .ok { w with ctx := { w.ctx with done := true } }) s)
/-- MOV16 (R95). -/
def execMov16 (w : Issue) (f : MovFields) (s : State) : Host.Outcome State Fault Refusal :=
  .next (laneOp w 3 (fun w =>
    let x := readS w.ctx.core0 f.d.toNat
    .ok (setScalar f.d.toNat (if f.high then f.imm ++ x.setWidth 16 else x.extractLsb' 16 16 ++ f.imm)
      (await [f.d.toNat] w))) s)
/-- B (R90, R95). -/
def execB (w : Issue) (f : BranchFields) (s : State) : Host.Outcome State Fault Refusal :=
  .next (laneOp w 3 (branch true false f.target) s)
/-- BZ: taken if a is 0 (R95). -/
def execBz (w : Issue) (f : BranchFields) (s : State) : Host.Outcome State Fault Refusal :=
  .next (laneOp w 3 (fun w => branch (readS w.ctx.core0 f.a.toNat == 0) false f.target (await [f.a.toNat] w)) s)
/-- BNZ: taken if a is not 0 (R95). -/
def execBnz (w : Issue) (f : BranchFields) (s : State) : Host.Outcome State Fault Refusal :=
  .next (laneOp w 3 (fun w => branch (readS w.ctx.core0 f.a.toNat != 0) false f.target (await [f.a.toNat] w)) s)
/-- CALL: the next word's address to S31 (R83, R90, R95). -/
def execCall (w : Issue) (f : BranchFields) (s : State) : Host.Outcome State Fault Refusal :=
  .next (laneOp w 3 (fun w => branch true true f.target (setScalar 31 ((w.ctx.core0.pc + 1).setWidth 32) w)) s)
/-- RET: to S31[11:0]; the target field is ignored (R90, R95). -/
def execRet (w : Issue) (_f : BranchFields) (s : State) : Host.Outcome State Fault Refusal :=
  .next (laneOp w 3 (fun w => branch true true ((readS w.ctx.core0 31).setWidth 12) (await [31] w)) s)
/-- LOOP (R88, R89, R92). -/
def execLoop (w : Issue) (f : LoopFields) (s : State) : Host.Outcome State Fault Refusal :=
  .next (laneOp w 3 (fun w =>
    let c := w.ctx.core0
    match loopFault c f with
    | some cause => .fault cause 0 w.st
    | none =>
      let n := loopCount c f
      let w := if f.fromReg then await [f.count.toNat % 32] w else w
      if n = 0 then .ok { w with ctx := { w.ctx with skip := some (f.last + 1) } }
      else
        let l : LoopLevel := { body := c.pc + 1, last := f.last, left := if f.rotate then n + f.drain.toNat else n,
                               rotate := f.rotate, count := n, iter := 0 }
        .ok { w with ctx := { w.ctx with loop := some l } }) s)
/-- MFS (R72, R83). -/
def execMfs (w : Issue) (f : SpecialFields) (s : State) : Host.Outcome State Fault Refusal := .next (laneOp w 3 (moveFrom f) s)
/-- MTS (R71, R83). -/
def execMts (w : Issue) (f : SpecialFields) (s : State) : Host.Outcome State Fault Refusal := .next (laneOp w 3 (moveTo' f) s)
/-- CNEXT: the current entry's work is complete; CIDX stops at CCOUNT (R101). -/
def execCnext (w : Issue) (s : State) : Host.Outcome State Fault Refusal :=
  .next (laneOp w 3 (fun w => .ok { w with core := { w.core with cidx := min w.core.ccount (w.core.cidx + 1) } }) s)

/-- ADD (R95). -/
def execAdd (w : Issue) (f : AluFields) (s : State) : Host.Outcome State Fault Refusal :=
  .next (laneOp w 3 (alu (fun a b => a + b) f) s)
/-- SUB (R95). -/
def execSub (w : Issue) (f : AluFields) (s : State) : Host.Outcome State Fault Refusal :=
  .next (laneOp w 3 (alu (fun a b => a - b) f) s)
/-- AND (R95). -/
def execAnd (w : Issue) (f : AluFields) (s : State) : Host.Outcome State Fault Refusal :=
  .next (laneOp w 3 (alu (fun a b => a &&& b) f) s)
/-- OR (R95). -/
def execOr (w : Issue) (f : AluFields) (s : State) : Host.Outcome State Fault Refusal :=
  .next (laneOp w 3 (alu (fun a b => a ||| b) f) s)
/-- XOR (R95). -/
def execXor (w : Issue) (f : AluFields) (s : State) : Host.Outcome State Fault Refusal :=
  .next (laneOp w 3 (alu (fun a b => a ^^^ b) f) s)
/-- SHL (R95). -/
def execShl (w : Issue) (f : AluFields) (s : State) : Host.Outcome State Fault Refusal :=
  .next (laneOp w 3 (alu (fun a b => a <<< shiftBy b) f) s)
/-- SHR (R95). -/
def execShr (w : Issue) (f : AluFields) (s : State) : Host.Outcome State Fault Refusal :=
  .next (laneOp w 3 (alu (fun a b => a >>> shiftBy b) f) s)
/-- SRA (R95). -/
def execSra (w : Issue) (f : AluFields) (s : State) : Host.Outcome State Fault Refusal :=
  .next (laneOp w 3 (alu (fun a b => a.sshiftRight (shiftBy b)) f) s)
/-- MUL (R95). -/
def execMul (w : Issue) (f : AluFields) (s : State) : Host.Outcome State Fault Refusal :=
  .next (laneOp w 3 (alu (fun a b => a * b) f) s)
/-- SEQ (R95). -/
def execSeq (w : Issue) (f : AluFields) (s : State) : Host.Outcome State Fault Refusal :=
  .next (laneOp w 3 (alu (fun a b => if a = b then 1 else 0) f) s)
/-- SLT (R95). -/
def execSlt (w : Issue) (f : AluFields) (s : State) : Host.Outcome State Fault Refusal :=
  .next (laneOp w 3 (alu (fun a b => if a.slt b then 1 else 0) f) s)
/-- SLTU (R95). -/
def execSltu (w : Issue) (f : AluFields) (s : State) : Host.Outcome State Fault Refusal :=
  .next (laneOp w 3 (alu (fun a b => if a.ult b then 1 else 0) f) s)
/-- ADDI (R95). -/
def execAddi (w : Issue) (f : ImmFields) (s : State) : Host.Outcome State Fault Refusal :=
  .next (laneOp w 3 (aluImm (fun a b => a + b) f) s)
/-- ANDI (R95). -/
def execAndi (w : Issue) (f : ImmFields) (s : State) : Host.Outcome State Fault Refusal :=
  .next (laneOp w 3 (aluImm (fun a b => a &&& b) f) s)
/-- ORI (R95). -/
def execOri (w : Issue) (f : ImmFields) (s : State) : Host.Outcome State Fault Refusal :=
  .next (laneOp w 3 (aluImm (fun a b => a ||| b) f) s)
/-- SHLI (R95). -/
def execShli (w : Issue) (f : ImmFields) (s : State) : Host.Outcome State Fault Refusal :=
  .next (laneOp w 3 (aluImm (fun a b => a <<< shiftBy b) f) s)
/-- SHRI (R95). -/
def execShri (w : Issue) (f : ImmFields) (s : State) : Host.Outcome State Fault Refusal :=
  .next (laneOp w 3 (aluImm (fun a b => a >>> shiftBy b) f) s)
/-- SRAI (R95). -/
def execSrai (w : Issue) (f : ImmFields) (s : State) : Host.Outcome State Fault Refusal :=
  .next (laneOp w 3 (aluImm (fun a b => a.sshiftRight (shiftBy b)) f) s)

end Sys2Proof.Machine
end

