-- ==== Sys2Proof/Machine/Mirror.lean ====
section
/-! DEFINITION. Mirroring: per-tick copies, forwarded frames, bulk syncs, lane digests and the self-check (R404, R430 to R435;
log entry 80). -/

namespace Sys2Proof.Machine

/-! ### What a COPY or SYNC carries, applied on the standby (R430 to R432) -/

/-- The state of an entry by its number: 1 PARKED, 2 ACTIVE, 3 MIGRATING. -/
def entryState (n : Nat) : EntryState := if n = 2 then .active else if n = 3 then .migrating else .parked

/-- A mirrored session entry. In full shadow the RTP state of one that exists comes with its leg's item. -/
def putEntry (h : Nat) (key : Bytes) (params : List (BitVec 16 × BitVec 32)) (partner : Option Nat) (st : Nat)
    (chan : Option Nat) (txSeq : BitVec 16) (ts : Word) (s : State) : State :=
  if st = 0 then freeEntry h s
  else
    let p : Tab Word := params.foldl (fun t e => tset t e.1.toNat e.2) []
    let old := sessAt s h
    let keep := pairMode s == 2 && (tget? s.sess h).isSome
    let e : Session := { old with
      key := key, params := p, partner := partner, st := entryState st, chan := chan
      txSeq := if keep then old.txSeq else some txSeq, ts := if keep then old.ts else ts
      parkTick := if st = 1 ∧ old.st ≠ .parked then tickNow s else old.parkTick }
    { s with sess := tset s.sess h e }

/-- A mirrored channel: in full shadow on the active device's lane, else on a lane of the device's own by R36, dormant
(R431). One that no lane can take is not carried. -/
def putChannel (n acc oth lane cost : Nat) (s : State) : State :=
  let shadow := pairMode s == 2
  let old := tget? s.chans n
  let where_ := match old with
    | some c => if shadow then some lane else some c.lane
    | none => if shadow then some lane else place s 255 cost none
  match where_ with
  | none => s
  | some l =>
    let c : Channel := { (old.getD { worked := workTick s - 1, since := tickNow s }) with
      acc := acc, oth := oth, lane := l, cost := cost, live := true, dormant := !shadow }
    { s with chans := tset s.chans n c }

/-- The mirrored RTP state of a leg (R404). -/
def putLegState (h : Nat) (seq : BitVec 16) (ts : Word) (s : State) : State :=
  let s1 := modSess h (fun e => { e with txSeq := some seq, ts := ts }) s
  match (sessAt s h).chan with
  | some n => modLeg n (legOfHandle (chanAt s n) h) (fun g => { g with pos := ts }) s1
  | none => s1

/-- The memory that an item stands in: the session table's record of an entry, or the addressed bytes. -/
def itemRange (s : State) : CopyItem → Option (Nat × Nat)
  | .entry h _ _ _ _ _ _ _ => (regionBase s 1).map (fun b => (cellarBase + b + 256 * h.toNat, 256))
  | .memory a b => some (a.toNat, b.length)
  | _ => none

/-- Whether the access tables let the stay peer, master 13, write what an item stands in (R430). -/
def itemPermitted (s : State) (i : CopyItem) : Bool :=
  match itemRange s i with
  | some (a, n) => permitted s 13 a n true
  | none => true

/-- A lane's resync ended: its bit clears and event 217 is raised (R435). -/
def laneSynced (l : Nat) (s : State) : State :=
  let w := fget s .PAIR_LANE_UNSYNC_unsync (l / 32)
  if w.testBit (l % 32) then
    raise 217 [(1, l)] (fset .PAIR_LANE_UNSYNC_unsync (w - 2 ^ (l % 32)) s (l / 32))
  else s

/-- The context of a channel as a bulk sync carries it: what is committed of it (R177). -/
def putContext (n : Nat) (vbd : Bool) (quiet : Nat) (ec : Ec) (a b : Leg) (s : State) : State :=
  modChan n (fun c => { c with
    vbd := vbd, vbdQuiet := quiet, ec := ec, legA := committedLeg a, legB := committedLeg b }) s

/-- One item applied. A peer's next seq and epoch are kept beside the standby's own until a switch-over (R219, R436). -/
def applyItem (i : CopyItem) (s : State) : State :=
  match i with
  | .entry h key ps partner st chan seq ts =>
    putEntry h.toNat key ps (partner.map (fun p => p.toNat)) st.toNat (chan.map (fun c => c.toNat)) seq ts s
  | .place n acc oth lane cost => putChannel n.toNat acc.toNat oth.toNat lane cost.toNat s
  | .unplace n => { s with chans := tdel s.chans n.toNat }
  | .leg h seq ts => putLegState h.toNat seq ts s
  | .stat n id v => statSet n.toNat id.toNat v.toNat s
  | .peer k seq epoch => { s with pair := { s.pair with tx := tset s.pair.tx k (seq, epoch) } }
  | .budget l lu => { s with pair := { s.pair with budgets := tset s.pair.budgets l lu.toNat } }
  | .seed n v => modChan n.toNat (fun c => { c with ec := { c.ec with seed := v } }) s
  | .room n leg room => modRoom n.toNat (if leg then 1 else 0) (fun own => followRoom own room) s
  | .context n vbd quiet ec a b => putContext n.toNat vbd quiet ec a b s
  | .acks k h => takeFields k h s
  | .memory a b => storeBytes a.toNat b s
  | .coder k p => putPeer k p s
  | .laneDone l => laneSynced l s

/-- Whether a copied item of a full shadow is a result of the tick's work, which the standby's lanes do a tick later. -/
def followsWork (i : CopyItem) : Bool :=
  match i with
  | .leg .. | .stat .. | .seed .. | .room .. | .context .. | .coder .. | .acks .. => true
  | _ => false

/-- An item of a COPY takes effect: in full shadow the results of work wait until the standby has done the same work (R430,
R431). -/
def copyItem (i : CopyItem) (s : State) : State :=
  if pairMode s = 2 ∧ followsWork i then { s with pair := { s.pair with owed := s.pair.owed ++ [i] } } else applyItem i s

/-- What the last copies owe, at the boundary after the work they belong to (R431). -/
def takeOwed (s : State) : State :=
  s.pair.owed.foldl (fun s i => applyItem i s) { s with pair := { s.pair with owed := [] } }

/-- One item written as master 13; the flag keeps whether any was refused. -/
def writeItem (f : CopyItem → State → State) (s : State) (i : CopyItem) : State :=
  if itemPermitted s i then f i s
  else
    let r := (itemRange s i).getD (0, 0)
    let s1 := recordDenial 13 r.1 r.2 true s
    { s1 with pair := { s1.pair with copyBad := true } }

/-- COPY_ACK to the partner (R430). -/
def sendCopyAck (t : Nat) (s : State) : State := sendPartner 5 (toLe 8 t) s

/-- A segment of a per-tick copy: kept until the tick's last one, which writes them all and is acknowledged where nothing of
the tick was refused (R430). -/
def takeCopy (c : CopyIn) (s : State) : State :=
  if !isStandby s then s
  else
    let before := match s.pair.staging with
      | some (t, l) => if t = c.tick.toNat then l else []
      | none => []
    let items := before ++ c.items
    if !c.last then { s with pair := { s.pair with staging := some (c.tick.toNat, items) } }
    else
      let s1 := items.foldl (writeItem copyItem) { s with pair := { s.pair with staging := none, copyBad := false } }
      let bad := s1.pair.copyBad
      let s2 := { s1 with pair := { s1.pair with copyBad := false } }
      if bad then s2
      else sendCopyAck c.tick.toNat { s2 with pair := { s2.pair with copyTick := c.tick.toNat } }

/-- COPY (R430). -/
def execCopy (port : Fin 2) (f : StayIn) (c : CopyIn) (s : State) : Host.Outcome State Fault Refusal :=
  .next (receiveSays port 4 f (.copy c) (takeCopy c) s)

/-- SYNC (R432, R435). -/
def execSync (port : Fin 2) (f : StayIn) (items : List CopyItem) (s : State) : Host.Outcome State Fault Refusal :=
  .next (receiveSays port 9 f (.sync items) (fun s =>
    if isStandby s then
      let s1 := items.foldl (writeItem applyItem) s
      { s1 with pair := { s1.pair with copyBad := s.pair.copyBad } }
    else s) s)

/-- The active device takes the acknowledgement of a tick's copy (R404, R430). -/
def takeCopyAck (t : Nat) (s : State) : State :=
  if s.pair.role ≠ .active then s
  else
    let s1 := { s with pair := { s.pair with
      copyTick := max s.pair.copyTick t
      copyWait := match s.pair.copyWait with
        | some w => if w ≤ t then none else some w
        | none => none } }
    releaseAll t s1

/-- COPY_ACK (R430). -/
def execCopyAck (port : Fin 2) (f : StayIn) (s : State) : Host.Outcome State Fault Refusal :=
  .next (receiveStay port 5 f (takeCopyAck (leAt f.data 0 8)) s)

/-- PAIR_COPY_TIMEOUT (R430). -/
def execPairCopyTimeout (s : State) : Host.Outcome State Fault Refusal :=
  .next (match s.pair.copyWait with
    | some t => unprotect 4 (raise 213 [(8, t)] s)
    | none => s)

/-- PAIR_SYNC_DONE (R429, R432): the pair is protected where every other condition holds. -/
def execPairSyncDone (s : State) : Host.Outcome State Fault Refusal :=
  .next (if s.pair.sync ≠ 1 then s
    else
      let s1 := raise 218 [(1, pairMode s), (4, tickNow s - s.pair.syncStart)]
        { s with pair := { s.pair with syncBytes := 0 } }
      if s.pair.seen && eligible s && partnerFlag s 0 then
        raise 253 [(1, 0), (1, 0)] { s1 with pair := { s1.pair with sync := 2, cause := 0 } }
      else unprotect (if s.pair.seen then 6 else 2) s1)

/-! ### Forwarded frames (R431) -/

/-- A forwarded frame, kept for the classifier in the recorded order. -/
def takeForward (d : Bytes) (s : State) : State :=
  if isStandby s && pairMode s == 2 then
    let x := (leAt d 0 8 * 2 ^ 24 + leAt d 9 3, leAt d 8 1, d.drop 12)
    fbump .PAIR_FWD_forwarded 1 { s with pair := { s.pair with fwd := s.pair.fwd ++ [x] } }
  else s

/-- FORWARD (R431). -/
def execForward (port : Fin 2) (f : StayIn) (s : State) : Host.Outcome State Fault Refusal :=
  .next (receiveStay port 6 f (takeForward f.data) s)

/-! ### The self-check (R434) -/

/-- A CHECK frame to the partner: a request, or a result (R434; the bytes of its payload are free: log entry 80). -/
def sendCheck (c : CheckIn) (s : State) : State := draw (sayPartner 8 (freePayload s) (.check c) (draw s))

/-- A lane resync begins (R435). -/
def resyncLane (l : Nat) (s : State) : State :=
  let w := fget s .PAIR_LANE_UNSYNC_unsync (l / 32)
  fset .PAIR_LANE_UNSYNC_unsync (w.lor (2 ^ (l % 32)))
    { s with pair := { s.pair with resynced := s.pair.resynced.filter (fun x => x != l) } } (l / 32)

/-- A lane of this device failed its self-check. -/
def markFailed (l : Nat) (own : Bool) (s : State) : State :=
  if own then s else putLane l { laneAt s l with selfFail := true } s

/-- The outcome of a self-check whose results are both known, by Table 9 (R434). -/
def checkOutcome (c : CheckSt) (own other : Bool) (s : State) : State :=
  let isActive := s.pair.role == .active
  let a := if isActive then own else other
  let b := if isActive then other else own
  let code := fun (x : Bool) => if x then 0 else 1
  let s1 := raise 215 [(1, c.lane), (1, code own), (1, code other)] s
  let s2 := { s1 with pair := { s1.pair with checks := s1.pair.checks.filter (fun x => x.lane != c.lane) } }
  let s3 := markFailed c.lane own s2
  if a && b then resyncLane c.lane (raise 216 [(1, c.lane), (8, c.tick)] (fbump .PAIR_DIGEST_divergences 1 s3))
  else if !a && b then (if isActive && !s3.pair.yielding then yieldOwner s3 else s3)
  else unprotect 8 s3

/-- A self-check's outcome, once both results are there. -/
def settleCheck (l : Nat) (s : State) : State :=
  match s.pair.checks.find? (fun c => c.lane == l) with
  | some c => match c.own, c.other with
    | some a, some b => checkOutcome c a b s
    | _, _ => s
  | none => s

/-- A self-check of a lane, asked for at a tick. -/
def askCheck (l t : Nat) (s : State) : State :=
  if s.pair.checks.any (fun c => c.lane == l) then s
  else { s with pair := { s.pair with checks := s.pair.checks ++ [{ lane := l, tick := t }] } }

/-- The result of one side of a self-check. -/
def noteResult (l : Nat) (f : CheckSt → CheckSt) (s : State) : State :=
  settleCheck l { s with pair := { s.pair with checks := s.pair.checks.map (fun c => if c.lane = l then f c else c) } }

/-- A CHECK frame: a request, or the partner's result (R434). -/
def takeCheck (c : CheckIn) (s : State) : State :=
  match c.result with
  | none => askCheck c.lane c.tick.toNat s
  | some r => noteResult c.lane (fun x => { x with other := some r }) s

/-- CHECK (R434). -/
def execCheck (port : Fin 2) (f : StayIn) (c : CheckIn) (s : State) : Host.Outcome State Fault Refusal :=
  .next (receiveSays port 8 f (.check c) (takeCheck c) s)

/-- SELF_CHECK (R434): the oldest check that this device has not run yet; its result goes to the partner. -/
def execSelfCheck (passed : Bool) (s : State) : Host.Outcome State Fault Refusal :=
  .next (match s.pair.checks.find? (fun c => c.own.isNone) with
    | none => s
    | some c =>
      let x := laneAt s c.lane
      let s1 := putLane c.lane { x with core := { x.core with cyc := x.core.cyc + 50000 } } s
      noteResult c.lane (fun x => { x with own := some passed })
        (sendCheck ⟨laneName c.lane, BitVec.ofNat 64 c.tick, some passed⟩ s1))

/-- SELF_CHECK_TIMEOUT (R434): a result that has not arrived within 2 ticks counts as failed. -/
def execSelfCheckTimeout (s : State) : Host.Outcome State Fault Refusal :=
  .next (match s.pair.checks.find? (fun c => c.other.isNone && decide (c.tick + 2 ≤ tickNow s)) with
    | none => s
    | some c => noteResult c.lane (fun x => { x with other := some false }) s)

/-! ### Digests (R433) -/

/-- Whether lanes are digested. -/
def digesting (s : State) : Bool := pairMode s == 2 && fbit s .PAIR_CTRL_digest_en

/-- A mismatch of a lane's digests: event 214 and a CHECK request (R434). -/
def digestMismatch (l t : Nat) (s : State) : State :=
  let s1 := fset .PAIR_DIGEST_last_lane l (fbump .PAIR_DIGEST_mismatches 1 s)
  askCheck l (tickNow s) (sendCheck ⟨laneName l, BitVec.ofNat 64 (tickNow s), none⟩ (raise 214 [(1, l), (8, t)] s1))

/-- Two sets of digests of a tick compared, lanes under resync left out. -/
def compareDigests (t : Nat) (a b : List (BitVec 64)) (s : State) : State :=
  (List.range 128).foldl (fun s l =>
    if (fget s .PAIR_LANE_UNSYNC_unsync (l / 32)).testBit (l % 32) || a.getD l 0 == b.getD l 0 then s
    else digestMismatch l t s) s

/-- The digests of a tick from one side, compared once the other side's are there; older ones are forgotten. -/
def noteDigests (t : Nat) (received : Bool) (d : List (BitVec 64)) (s : State) : State :=
  let mine := 2 * t + (if received then 1 else 0)
  let theirs := 2 * t + (if received then 0 else 1)
  match tget? s.pair.digests theirs with
  | some x => compareDigests t d x { s with pair := { s.pair with digests := tdel s.pair.digests theirs } }
  | none =>
    let keep := (tset s.pair.digests mine d).filter (fun e => decide (2 * t ≤ e.1 + 8))
    { s with pair := { s.pair with digests := keep } }

/-- The digests of a frame. -/
def digestList (d : Bytes) : List (BitVec 64) := (List.range 128).map (fun l => BitVec.ofNat 64 (leAt d (8 + 8 * l) 8))

/-- DIGEST (R433). -/
def execDigest (port : Fin 2) (f : StayIn) (s : State) : Host.Outcome State Fault Refusal :=
  .next (receiveStay port 7 f (fun s =>
    if isStandby s && digesting s then noteDigests (leAt f.data 0 8) true (digestList f.data) s else s) s)

/-! ### The mirror's part of a tick boundary (R430, R433, R435) -/

/-- The digests of the lanes' work in the tick that ends, the work of tick `t`: sent by the active device, compared by the
standby. -/
def closeDigests (t : Nat) (s : State) : State :=
  if !digesting s then s
  else
    let d := (List.range 128).map (fun l => ~~~(laneAt s l).digest)
    if s.pair.role = .active then sendPartner 7 (toLe 8 t ++ d.flatMap (fun x => toLe 8 x.toNat)) s
    else if isStandby s then noteDigests (t - 1) false d s
    else s

/-- The COPY of the tick just ended, whole in one segment (R430); what it carries is known to the standby from then on. The bulk
sync goes on in a SYNC frame (R432). -/
def sendCopy (t : Nat) (s : State) : State :=
  if s.pair.role ≠ .active ∨ ! [0, 1].any (carriesPartner s) then
    { s with pair := { s.pair with copied := [], acks := [] } }
  else
    let c : CopyIn := { tick := BitVec.ofNat 64 t, last := true, items := copyItems s }
    let s1 := draw (sayPartner 4 (freePayload s) (.copy c) (draw s))
    let s2 := { s1 with pair := { s1.pair with
      copied := copyMarks s, acks := [], copyWait := if s.pair.sync = 0 then s1.pair.copyWait else some t } }
    if s.pair.sync = 1 then draw (sayPartner 9 (freePayload s2) (.sync (syncItems s2)) (draw s2)) else s2

/-- Whether frames of a type wait for their acknowledgement on any port. -/
def awaitsAck (s : State) (type : Nat) : Bool := [0, 1].any (fun p => (stayAt s p).unacked.any (fun f => f.1.type == type))

/-- The active device's part in one lane's resync: its contexts go in SYNC frames at the boundary, and the bit clears once
they are acknowledged (R435). -/
def serveResync (s : State) (l : Nat) : State :=
  if !(fget s .PAIR_LANE_UNSYNC_unsync (l / 32)).testBit (l % 32) then s
  else if s.pair.resynced.contains l then
    if awaitsAck s 9 then s
    else laneSynced l { s with pair := { s.pair with resynced := s.pair.resynced.filter (fun x => x != l) } }
  else
    let s1 := draw (sayPartner 9 (freePayload s) (.sync (resyncItems s l)) (draw s))
    { s1 with pair := { s1.pair with resynced := s1.pair.resynced ++ [l] } }

/-- The resyncs of every lane on an active device. -/
def serveResyncs (s : State) : State := if s.pair.role = .active then (List.range 128).foldl serveResync s else s

/-- The stay ports' lines and the mirror at the boundary that ends tick `t`. -/
def mirrorBoundary (t : Nat) (s : State) : State := serveResyncs (closeDigests t (sendCopy t (sendHeartbeat (watchPair s))))

end Sys2Proof.Machine
end

