-- ==== Sys2Proof/Machine/RigApply.lean ====
section
/-! DEFINITION. Applying an image at boot, re-rigging one cluster, and the boundary at which the lanes start (R79, R322 to
R334, R338, R340, R365, R511). -/

namespace Sys2Proof.Machine

/-! ### The device's part of an image (R338) -/

/-- Step 1: each island at its CLOCK_PLAN frequency (R322). -/
def startClocks (d : Bytes) (s : State) : State :=
  (List.range 15).foldl (fun s i => fset .ISL_CLK_STATUS_freq_mhz (leAt d (2 * i) 2) s i) s

/-- One cellar region's registers (R323, R509). -/
def writeRegion (d : Bytes) (s : State) (r : Nat) : State :=
  setWord (RegId.addr .CEL_REGION_SIZE r) (packed [(24, mapPurpose d r), (0, mapMib d r)])
    (setWord (RegId.addr .CEL_REGION_BASE r) (mapBase d r / 1048576) s)

/-- Step 2: the cellar trained and laid out under CELLAR_MAP, the staged image copied to the region of purpose 7, and the log
ring sized (R323, R408, R509). -/
def openCellar (d : Bytes) (s : State) : State :=
  let s1 := setWord (RegId.addr .CEL_CFG) (packed [(16, leAt d 0 2), (4, leAt d 3 1 % 16), (0, leAt d 2 1)]) s
  let s2 := (List.range 16).foldl (writeRegion d) s1
  let s3 := fbump .CEL_STATUS_trainings 1 (fset .CEL_STATUS_state 2 s2)
  let mib := ((List.range 16).filter (fun r => mapPurpose d r == 5)).foldl (fun n r => n + mapMib d r) 0
  let s4 := setWord (RegId.addr .ERR_LOG_SIZE) (mib * 16384) s3
  storeBytes (cellarBase + (regionBase s4 7).getD 0) s.rig.image s4

/-- One queue instance (R318, R324). -/
def writeQueue (s : State) (r : Bytes) : State :=
  let q := leAt r 0 2
  let s1 := setWord (RegId.addr .QUE_CFG q)
    (packed [(28, leAt r 2 1), (24, leAt r 3 1), (22, leAt r 6 1 - 1), (18, leAt r 7 1 - 1), (0, leAt r 4 2)]) s
  let s2 := (List.range (leAt r 6 1)).foldl (fun s v =>
    setWord (RegId.addr .QUE_VC_CFG q v) (packed [(31, (recDrop r v).toNat), (16, recCredits r v), (0, recMax r v)]) s) s1
  { s2 with ques := tset s2.ques q {
      ports := (List.range (leAt r 7 1)).map (fun i => (leAt r (40 + 2 * i) 1, leAt r (41 + 2 * i) 1))
      consumer := leAt r 8 1 } }

/-- One ring record: a trunk receive ring is reported in TMC_RXQ_CFG (R253, R326). -/
def writeRing (s : State) (r : Bytes) : State :=
  if leAt r 0 1 < 2 ∧ leAt r 1 1 = 0 then
    setWord (RegId.addr .TMC_RXQ_CFG (leAt r 0 1) (leAt r 2 1))
      (packed [(30, leAt r 3 1), (16, leAt r 6 1), (0, leAt r 4 2)]) s
  else s

/-- The MAC addresses of NET_IDENT (R327). -/
def writeAddresses (d : Bytes) (s : State) : State :=
  let put := fun (hi lo : Nat) (n : Nat) (s : State) => setWord lo (beAt d (32 * n + 2) 4) (setWord hi (beAt d (32 * n) 2) s)
  put (RegId.addr .SVC_ADDR_HI) (RegId.addr .SVC_ADDR_LO) 2
    (put (RegId.addr .TMC_ADDR_HI 1) (RegId.addr .TMC_ADDR_LO 1) 1
      (put (RegId.addr .TMC_ADDR_HI) (RegId.addr .TMC_ADDR_LO) 0 s))

/-- PAIR_CFG from the PAIR spar (R330, R442). -/
def writePair (d : Bytes) (s : State) : State :=
  let pos := leAt d 4 1
  setWord (RegId.addr .PAIR_CFG)
    (packed [(24, leAt d 0 1), (16, leAt d 1 1), (14, leAt d 2 1), (12, leAt d 3 1 % 4), (8, if pos = 0xFF then 15 else pos)]) s

/-- Step 3: the structure (R338). -/
def writeStructure (s : State) : State :=
  let rings := sparOf s 7 0xFF
  let s1 := (queueRecs (sparOf s 4 0xFF)).foldl writeQueue s
  let s2 := ((List.range (leAt rings 0 1)).map (ringRec rings)).foldl writeRing s1
  writePair (sparOf s 0xB 0xFF) (writeAddresses (sparOf s 8 0xFF) s2)

/-! ### A cluster's part of an image (R332 to R334, R338, R340) -/

/-- One lane: data memory cleared, program memory and LAN_ENTRY written, the receive areas laid out, the lane in state
clearing, its registers 0 (R79, R308, R332, R333; in a re-rig too: log entry 25). -/
def writeLane (code layout : Bytes) (c : Nat) (s : State) (k : Nat) : State :=
  let l := 16 * c + k
  let n := leAt code (8 * k + 4) 2
  let s1 := clearRange (laneBase l) 0x90000 s
  let s2 := storeBytes (laneBase l + 0x80000) (slice code (leAt code (8 * k) 4) (16 * n)) s1
  let s3 := setWord (RegId.addr .LAN_ENTRY l) (leAt code (8 * k + 6) 2) s2
  let s4 := (List.range 8).foldl (fun s p =>
    let a := recvArea layout k p
    { s with areas := tset s.areas (8 * l + p) { base := a.1, len := a.2 } }) s3
  putLane l { st := .clearing, selfFail := (laneAt s l).selfFail } s4

/-- The lanes of a cluster with its LANE_CODE and LANE_LAYOUT. -/
def writeLanes (s : State) (c : Nat) : State :=
  let code := sparOf s 0x10 c
  let layout := sparOf s 0x11 c
  (List.range 16).foldl (writeLane code layout c) s

/-- One LANE_DATA spar of a cluster (R334). -/
def writeData (c : Nat) (d : Bytes) (s : State) : State :=
  let b := d.drop 16
  if leAt d 2 1 = 1 then storeBytes (atticBase c + leAt d 4 4) b s
  else (List.range 16).foldl (fun s k =>
    if (leAt d 0 2).testBit k then storeBytes (laneBase (16 * c + k) + leAt d 4 4) b s else s) s

/-- Whether the image in the loader rigs a cluster (R320). -/
def imageRigs (s : State) (c : Nat) : Bool := (imgEntries s.rig.image).any (fun e => rowType e == 0x10 && rowCluster e == c)

/-! ### Boot (R338) -/

/-- Step 6: one REG_INIT spar, its writes in order (R331). -/
def writeInit (s : State) (d : Bytes) : State :=
  (List.range (d.length / 8)).foldl (fun s k => writeReg (leAt d (8 * k) 4) (leAt d (8 * k + 4) 4) s) s

/-- Step 7: the access tables loaded and locked (R362, R365). -/
def lockAccess (d : Bytes) (s : State) : State :=
  let entries : Tab (List AccWin) := (List.range 992).foldl (fun t k =>
    let ws := entryWins (accEntry d (k / 16) (k % 16))
    if ws.isEmpty then t else t ++ [(k, ws)]) []
  raise 49 [(4, 62)] { s with acc := { locked := true, entries := entries } }

/-- The spars of the image in the loader, as the device keeps them. -/
def keptSpars (s : State) : List Spar :=
  (imgEntries s.rig.image).map (fun e =>
    { type := rowType e, cluster := rowCluster e, data := sparBytes s e, digest := rowDigest e })

/-- Steps 3 to 8, with the cellar ready (R338). -/
def applySpars (s : State) : State :=
  let es := imgEntries s.rig.image
  let kept := keptSpars s
  let lanes := fun (s : State) => ((List.range 8).filter (imageRigs s)).foldl writeLanes s
  let s1 := lanes (writeStructure s)
  let s2 := clearRange (atticBase 0) 0x02000000 { s1 with rig := { s1.rig with spars := kept } }
  let data := kept.filter (fun p => p.type == 0x12)
  let s3 := data.foldl (fun s p => writeData p.cluster p.data s) s2
  let s4 := copyMap ((es.filter (fun e => rowType e == 0x0C)).foldl (fun t e => writeInit t (sparBytes s e)) s3)
  let s5 := lockAccess (sparOf s 6 0xFF) s4
  { s5 with
    boot := { s5.boot with stage := .start }
    rig := { s5.rig with st := .applying } }

/-- RIG_APPLY (R338): APPLYING of a boot load; `trained` says whether the cellar's training passes (R336, step 14). -/
def execRigApply (trained : Bool) (s : State) : Host.Outcome State Fault Refusal :=
  .next (if s.rig.st = .checking ∧ s.rig.go ∧ s.rig.rerig.isNone then
    let s1 := startClocks (sparOf s 2 0xFF) s
    if trained then applySpars (openCellar (sparOf s 3 0xFF) s1)
    else rigFail 0x15 0x3FF (fset .CEL_STATUS_state 4 s1)
  else s)

/-! ### Re-rig (R340) -/

/-- Steps 1 and 2: the cluster's lanes held, its queued packets discarded and its own begun packets cut (R309, R311). -/
def holdCluster (c : Nat) (s : State) : State :=
  let s1 := (List.range 16).foldl (fun s k => putLane (16 * c + k) { laneAt s (16 * c + k) with st := .clearing, word := none }
    (abandonLane (16 * c + k) s)) s
  let qs := (s1.ques.map (fun p => p.1)).filter (fun q => queConsumer s1 q == c && fget s1 .QUE_CFG_producer q != 15)
  qs.foldl (fun s q => (List.range 4).foldl (fun s v => grantWaiting 17 q v s) (discardQueue q s)) s1

/-- Whether a staged spar of the cluster meets an uncorrectable word. -/
def stagingBad (s : State) (c : Nat) : Bool :=
  (imgEntries s.rig.image).any (fun e => rowCluster e == c && poisoned s (stageBase s + rowOff e) (rowLen e))

/-- Steps 3 to 5. -/
def rewriteCluster (c : Nat) (s : State) : State :=
  let kept := keptSpars s
  let s1 := if imageRigs s c then writeLanes s c
    else (List.range 16).foldl (fun s k => clearRange (laneBase (16 * c + k)) 0x80000 s) s
  let s2 := clearRange (atticBase c) 0x400000 s1
  let data := kept.filter (fun p => p.type == 0x12 && p.cluster == c)
  let s3 := data.foldl (fun s p => writeData c p.data s) s2
  { s3 with rig := { s3.rig with coming := some kept } }

/-- RERIG_APPLY (R340): APPLYING of a re-rig at the first boundary after its checks. -/
def execRerigApply (s : State) : Host.Outcome State Fault Refusal :=
  .next (match s.rig.rerig with
    | none => s
    | some c =>
      if s.rig.st = .checking ∧ s.rig.go then
        let s1 := holdCluster c { s with rig := { s.rig with st := .applying } }
        if stagingBad s c then
          let s2 := (List.range 16).foldl (fun s k => clearRange (laneBase (16 * c + k)) 0x80000 s) s1
          rigFail 0x16 0x3FF { s2 with rig := { s2.rig with
            rigged := s2.rig.rigged &&& ~~~ BitVec.ofNat 8 (2 ^ c)
            spars := s2.rig.spars.filter (fun p => p.cluster != c) } }
        else rewriteCluster c s1
      else s)

/-! ### The boundary after APPLYING (R338, R340, R511) -/

/-- A cluster left unrigged: its lanes are not rigged and its LAN windows hold their reset values. -/
def unrigCluster (s : State) (c : Nat) : State :=
  if s.rig.rigged.getLsbD c then s
  else
    let held := fun (k : Nat) => (laneAt s (16 * c + k)).st == .clearing
    if (List.range 16).any held then
      dropRegs (0x1000000 + 0x100000 * c) (0x10FFFFF + 0x100000 * c)
        ((List.range 16).foldl (fun s k => putLane (16 * c + k) { selfFail := (laneAt s (16 * c + k)).selfFail } s) s)
    else s

/-- The image in the loader becomes the running image: RIG_RUN, RIG_COUNT.loads, IDLE, event 33, after the restart where the
mast island is down (R342). -/
def loadDone (s : State) : State :=
  let img := s.rig.image
  let rigs := (List.range 8).foldl (fun n c => if imageRigs s c then n + 2 ^ c else n) 0
  let g := sigBlock img
  let s1 := { s with rig := { s.rig with
    st := .idle, go := false, rerig := none, image := [], running := true, rollback := imgRollback img
    spars := s.rig.coming.getD s.rig.spars, coming := none
    rigged := BitVec.ofNat 8 rigs, slot := sigSlot g, pub := sigKey g, lastSrc := 1 - s.rig.src } }
  let s2 := s1.lanes.foldl (fun s p =>
    if p.2.st == .clearing && s.rig.rigged.getLsbD (p.1 / 16) then putLane p.1 { p.2 with st := .idle } s else s) s1
  let s3 := fbump .RIG_COUNT_loads 1 s2
  let re := if s.rig.rerig.isSome then 1 else 0
  let c := s.rig.rerig.getD 0xFF
  let t := tickNow s - s.rig.started
  if s.mast.down then { s3 with rig := { s3.rig with late := some (re, c, imgRollback img, t) } }
  else raise 33 [(1, re), (1, c), (4, imgRollback img), (4, t)] s3

/-- A tick boundary at the loader: an applied image runs, and clusters that it leaves unrigged are so. -/
def rigBoundary (s : State) : State :=
  let s1 := if s.rig.st = .applying then loadDone s else s
  (List.range 8).foldl unrigCluster s1

end Sys2Proof.Machine
end

