-- ==== Sys2Proof/Machine/Tick.lean ====
section
/-! DEFINITION. The tick boundary and one-shot timed actions (R24, R25, R37 to R43, R259, R277, R290, R380, R388, R400; log
entry 102). -/

namespace Sys2Proof.Machine

/-! ### Timed actions (R290, R380) -/

/-- Whether an action waits for a move of its channel (R380). -/
def actionWaits (s : State) (a : Armed) : Bool :=
  match a.handle with
  | none => false
  | some h => !a.freed && (match activeChan s h with
    | some n => (chanAt s n).move.isSome
    | none => false)

/-- A due action, judged by its bound entry as it stands, acts or is discarded; event 9 reports it (R380). -/
def actNow (a : Armed) (s : State) : State :=
  match a.handle with
  | some h =>
    if a.freed ∨ (a.wasActive ∧ (sessAt s h).st = .parked) then timedResult a.seq 0x0D 0 s
    else boundaryModify (modReqOf { seq := a.seq, desc := a.desc } h true) s
  | none => if cmdOp a.desc = 0x40 then switchAction a.seq s else planAction a.seq s

/-- An action taken from the armed ones, unless it must wait. -/
def takeAction (s : State) (a : Armed) : State :=
  if actionWaits s a then s
  else actNow a { s with host := { s.host with armed := s.host.armed.filter (fun b => b.seq != a.seq) } }

/-- The armed actions whose time a boundary at `ns` of corrected time has reached, in sequence order. -/
def dueActions (s : State) (ns : Nat) : List Armed := s.host.armed.filter (fun a => decide (a.time ≤ ns))

/-- Corrected time at the next tick boundary, in ns. -/
def boundaryNs (s : State) : Nat := correctedTime { s.time with counter := BitVec.ofNat 64 (boundaryCount s.time) } / 65536

/-- What happens at the boundary to come, before the rest of it: the tick it begins is the next one. -/
def atNextTick (f : State → State) (s : State) : State :=
  let t := f { s with time := { s.time with tick := s.time.tick + 1 } }
  { t with time := { t.time with tick := s.time.tick } }

/-- TIMED_ACTION (R380): the armed action with a sequence number reaches its boundary, the next one; a tick boundary takes
whatever due action no such command has taken. -/
def execTimedAction (seq : Word) (s : State) : Host.Outcome State Fault Refusal :=
  .next (if inReset s || s.mast.down then s
    else match (dueActions s (boundaryNs s)).find? (fun a => a.seq == seq.toNat) with
      | some a => atNextTick (fun t => takeAction t a) s
      | none => s)

/-! ### The boundary (R24, R25) -/

/-- Every channel, in increasing number, taken through a step. -/
def overChannels (f : Nat → State → State) (s : State) : State := (s.chans.map (fun c => c.1)).foldl (fun s n => f n s) s

/-- Whether a modify waits on: a move of its channel is in progress (R48). -/
def effectWaits (s : State) (e : Effect) : Bool :=
  match e with
  | .change r => match activeChan s r.handle with
    | some n => (chanAt s n).move.isSome
    | none => false
  | _ => false

/-- One effect at its boundary (R37 to R39). -/
def takeEffect (e : Effect) (s : State) : State :=
  match e with
  | .admission r => boundaryAdmit r s
  | .change r => boundaryModify r s
  | .park n => parkNow n s

/-- The effects of channel commands at a boundary, in the order of their commands; `held` are those that a move in progress
held when the boundary came (R48). -/
def takeEffects (held : List Effect) (s : State) : State :=
  s.mast.effects.foldl (fun s e => if held.contains e || effectWaits s e then addEffect e s else takeEffect e s)
    { s with mast := { s.mast with effects := [] } }

/-- The parks that no command asked for (R43, R449, R456). -/
def forcedPark (n : Nat) (s : State) : State :=
  match (chanAt s n).park with
  | some p => if p.forced ∨ p.seq.isNone then parkNow n s else s
  | none => s

/-- The statistics reads that wait for the boundary (R381). -/
def waitingReads (s : State) : State :=
  s.mast.reads.foldl (fun s r => answerRead r s) { s with mast := { s.mast with reads := [] } }

/-- The channels that stand on a faulted lane with no move of their own leave it (R43, R103). -/
def leaveFaulted (s : State) : State :=
  s.lanes.foldl (fun s l =>
    if l.2.st == .faulted then
      (leaving s l.1).foldl (fun s n => if (chanAt s n).live then leaveLane l.1 n s else s) s
    else s) s

/-- Held bundles have waited one boundary more (R210). -/
def ageHeld (s : State) : State :=
  { s with peers := s.peers.map (fun p => (p.1, { p.2 with held := p.2.held.map (fun h => { h with wait := h.wait + 1 }) })) }

/-- The channels' part of a boundary: moves, evacuations, timed actions, the effects of commands, voiceband-data entries (R37
to R43, R154, R388). What waited for a move that ends here acts at the next boundary (R48, R380). -/
def channelBoundary (s : State) : State :=
  let held := s.mast.effects.filter (effectWaits s)
  let due := if s.mast.down then [] else (dueActions s s.time.began).filter (fun a => !actionWaits s a)
  let s1 := reefSettled (overChannels stepMove s)
  let s2 := overChannels forcedPark (leaveFaulted s1)
  overChannels enterVbd (takeEffects held (due.foldl takeAction s2))

/-- The exchanges of a boundary: samples received, acks, statistics, the mirror of the tick `t` that ended (R25, R212, R259,
R381, R430). -/
def exchangeBoundary (t : Nat) (s : State) : State :=
  let s1 := ageHeld (tdmReceive s)
  let s2 := waitingReads ((List.range 64).foldl (fun s k => ackOnly k s) s1)
  mirrorBoundary t (ownUnpaired (resumeChannels (takeOwed s2)))

/-- The window of R400 that a boundary may begin. -/
def ueWindow (s : State) : State :=
  if tickNow s % 1000 = 0 then fset .ERR_UE_RATE_window_count 0 { s with age := { s.age with ueHit := 0 } } else s

/-- What the stay ports gave to their lines before the boundary is behind. -/
def clearLines (s : State) : State := { s with stay := s.stay.map (fun p => (p.1, { p.2 with out := [] })) }

/-- FEC blocks or code words of a trunk port in the tick that ended: counted, event 197 for uncorrectable ones (R227). -/
def fecFacts (p : Fin 2 × Nat × Nat) (s : State) : State :=
  let s1 := fbump .TMC_FEC_uncorrected p.2.2 (fbump .TMC_FEC_corrected p.2.1 s p.1) p.1
  if p.2.2 = 0 then s1 else raiseCountingBy p.2.2 197 p.1 [(1, p.1)] s1

/-- The words of mast memory and of the attics that were corrected in the tick that ended, and the ports' FEC (R227, R398,
R399). -/
def tickFixed (f : TickFixed) (s : State) : State :=
  let s1 := if f.mast = 0 then s
    else raiseCountingBy f.mast 3 0 [] (fbump .ERR_CORRECTED_corrected f.mast (fbump .MST_MEM_ECC_corrected f.mast s))
  f.fec.foldl (fun s p => fecFacts p s) (f.attics.foldl (fun s p => wordsFixed (atticBase p.1) p.2 s) s1)

/-- TICK_BOUNDARY (R24): the tick ends and the next begins. -/
def execTickBoundary (temp : BitVec 8) (sample : TtSample) (fixed : TickFixed) (s : State) : Host.Outcome State Fault Refusal :=
  .next (if inReset s then s
    else
      let s1 := ageBegins (clearLines (tdmSend (tickTime (tickFixed fixed s))))
      let s2 := exchangeBoundary (tickNow s) (channelBoundary s1)
      let s3 := ueWindow (ageSamples temp sample.margin sample.drift (rigBoundary s2))
      (List.range 128).foldl laneBoundary s3)

end Sys2Proof.Machine
end

