-- ==== Sys2Proof/Machine/Dispatch.lean ====
section
/-! DEFINITION. The dispatch: one arm per command, a direct call of its meaning. -/

namespace Sys2Proof.Machine

def exec (i : Instr) (s : State) : Host.Outcome State Fault Refusal :=
  match i with
  | .tickBoundary temp sample fixed => Sys2Proof.Machine.execTickBoundary temp sample fixed s
  | .migrateAbandoned chan => Sys2Proof.Machine.execMigrateAbandoned chan s
  | .tdmFrameStart group rx tx => Sys2Proof.Machine.execTdmFrameStart group rx tx s
  | .mastWatchdog => Sys2Proof.Machine.execMastWatchdog s
  | .mastMemUe word => Sys2Proof.Machine.execMastMemUe word s
  | .mastRestart => Sys2Proof.Machine.execMastRestart s
  | .sessionInsert => Sys2Proof.Machine.execSessionInsert s
  | .sessionDelete => Sys2Proof.Machine.execSessionDelete s
  | .chanAdmit => Sys2Proof.Machine.execChanAdmit s
  | .chanModify => Sys2Proof.Machine.execChanModify s
  | .chanPark => Sys2Proof.Machine.execChanPark s
  | .chanMigrate => Sys2Proof.Machine.execChanMigrate s
  | .chanQuery => Sys2Proof.Machine.execChanQuery s
  | .chanClose => Sys2Proof.Machine.execChanClose s
  | .statsRead => Sys2Proof.Machine.execStatsRead s
  | .channelTickWork chan sig => Sys2Proof.Machine.execChannelTickWork chan sig s
  | .windowPlacement chan => Sys2Proof.Machine.execWindowPlacement chan s
  | .windowRelease chan => Sys2Proof.Machine.execWindowRelease chan s
  | .dtdHangoverEnd chan => Sys2Proof.Machine.execDtdHangoverEnd chan s
  | .divergenceReset chan => Sys2Proof.Machine.execDivergenceReset chan s
  | .toneDisableEnter chan => Sys2Proof.Machine.execToneDisableEnter chan s
  | .toneDisableExit chan => Sys2Proof.Machine.execToneDisableExit chan s
  | .muteLift chan leg => Sys2Proof.Machine.execMuteLift chan leg s
  | .eventGenerationEnd chan leg => Sys2Proof.Machine.execEventGenerationEnd chan leg s
  | .toneGenEnd chan leg => Sys2Proof.Machine.execToneGenEnd chan leg s
  | .rtcpReport chan leg => Sys2Proof.Machine.execRtcpReport chan leg s
  | .vbdExit chan => Sys2Proof.Machine.execVbdExit chan s
  | .adaptWindowEnd chan leg => Sys2Proof.Machine.execAdaptWindowEnd chan leg s
  | .intervalClose peer dic => Sys2Proof.Machine.execIntervalClose peer dic s
  | .bundleReceive peer bytes dic => Sys2Proof.Machine.execBundleReceive peer bytes dic s
  | .reorderTimeout peer => Sys2Proof.Machine.execReorderTimeout peer s
  | .bndPeerDown peer => Sys2Proof.Machine.execBndPeerDown peer s
  | .peerEnable master peer value => Sys2Proof.Machine.execPeerEnable master peer value s
  | .dicCmdTurn master value => Sys2Proof.Machine.execDicCmdTurn master value s
  | .portRestart master port value => Sys2Proof.Machine.execPortRestart master port value s
  | .portLinkUp port => Sys2Proof.Machine.execPortLinkUp port s
  | .portLinkDown fall => Sys2Proof.Machine.execPortLinkDown fall s
  | .frameReceive port bytes arrival => Sys2Proof.Machine.execFrameReceive port bytes arrival s
  | .pauseExpire port queue => Sys2Proof.Machine.execPauseExpire port queue s
  | .pauseWatchdog port queue => Sys2Proof.Machine.execPauseWatchdog port queue s
  | .holdoffEnd port queue => Sys2Proof.Machine.execHoldoffEnd port queue s
  | .classifyFrame port => Sys2Proof.Machine.execClassifyFrame port s
  | .mastFrameReceive port => Sys2Proof.Machine.execMastFrameReceive port s
  | .frameTransmit start => Sys2Proof.Machine.execFrameTransmit start s
  | .txMapChange port => Sys2Proof.Machine.execTxMapChange port s
  | .gateApply master port value => Sys2Proof.Machine.execGateApply master port value s
  | .gateListStart port => Sys2Proof.Machine.execGateListStart port s
  | .gateEntryChange port => Sys2Proof.Machine.execGateEntryChange port s
  | .svcCollision late => Sys2Proof.Machine.execSvcCollision late s
  | .svcBackoffEnd => Sys2Proof.Machine.execSvcBackoffEnd s
  | .mdioStart master value => Sys2Proof.Machine.execMdioStart master value s
  | .mdioDone data => Sys2Proof.Machine.execMdioDone data s
  | .tdmGroupCtrlWrite master group value => Sys2Proof.Machine.execTdmGroupCtrlWrite master group value s
  | .tdmGroupLocked group => Sys2Proof.Machine.execTdmGroupLocked group s
  | .tdmGroupLost group cause => Sys2Proof.Machine.execTdmGroupLost group cause s
  | .tdmClockReturn group => Sys2Proof.Machine.execTdmClockReturn group s
  | .mapSwapArm master value => Sys2Proof.Machine.execMapSwapArm master value s
  | .mapSwapCancel master value => Sys2Proof.Machine.execMapSwapCancel master value s
  | .tdmMapSwap => Sys2Proof.Machine.execTdmMapSwap s
  | .timeCapture master value => Sys2Proof.Machine.execTimeCapture master value s
  | .timeStep master value => Sys2Proof.Machine.execTimeStep master value s
  | .timeAccept master value => Sys2Proof.Machine.execTimeAccept master value s
  | .servoHold master value => Sys2Proof.Machine.execServoHold master value s
  | .servoResume master value => Sys2Proof.Machine.execServoResume master value s
  | .servoCtrlWrite master value => Sys2Proof.Machine.execServoCtrlWrite master value s
  | .timRateWrite master value => Sys2Proof.Machine.execTimRateWrite master value s
  | .hostPush master value => Sys2Proof.Machine.execHostPush master value s
  | .ptpReceive port => Sys2Proof.Machine.execPtpReceive port s
  | .delayReqSend => Sys2Proof.Machine.execDelayReqSend s
  | .announceTimeout => Sys2Proof.Machine.execAnnounceTimeout s
  | .tcForward port => Sys2Proof.Machine.execTcForward port s
  | .timedAction seq => Sys2Proof.Machine.execTimedAction seq s
  | .islClkRequest master island value => Sys2Proof.Machine.execIslClkRequest master island value s
  | .synthLock island => Sys2Proof.Machine.execSynthLock island s
  | .islClkSwitch island => Sys2Proof.Machine.execIslClkSwitch island s
  | .islClkLockFail island => Sys2Proof.Machine.execIslClkLockFail island s
  | .queuePushStart queue port bytes => Sys2Proof.Machine.execQueuePushStart queue port bytes s
  | .queuePushWord queue vc => Sys2Proof.Machine.execQueuePushWord queue vc s
  | .queuePop queue vc check => Sys2Proof.Machine.execQueuePop queue vc check s
  | .queueNotice queue vc => Sys2Proof.Machine.execQueueNotice queue vc s
  | .deliveryWrite lane port => Sys2Proof.Machine.execDeliveryWrite lane port s
  | .queStall queue vc => Sys2Proof.Machine.execQueStall queue vc s
  | .rigStart master value => Sys2Proof.Machine.execRigStart master value s
  | .rigAbort master value => Sys2Proof.Machine.execRigAbort master value s
  | .rigRollbackCommit master value => Sys2Proof.Machine.execRigRollbackCommit master value s
  | .rigData master bytes => Sys2Proof.Machine.execRigData master bytes s
  | .rigDataTimeout => Sys2Proof.Machine.execRigDataTimeout s
  | .qspiRead data ok => Sys2Proof.Machine.execQspiRead data ok s
  | .imageReceived => Sys2Proof.Machine.execImageReceived s
  | .loaderCheckDone => Sys2Proof.Machine.execLoaderCheckDone s
  | .rigApply trained => Sys2Proof.Machine.execRigApply trained s
  | .rerigApply => Sys2Proof.Machine.execRerigApply s
  | .resetAssert => Sys2Proof.Machine.execResetAssert s
  | .resetRelease bootSel => Sys2Proof.Machine.execResetRelease bootSel s
  | .bootSupplyReady fusesOk romOk healthy readA readB => Sys2Proof.Machine.execBootSupplyReady fusesOk romOk healthy readA readB s
  | .firmwareReady => Sys2Proof.Machine.execFirmwareReady s
  | .fwStartTimeout => Sys2Proof.Machine.execFwStartTimeout s
  | .ownerEnrol master value => Sys2Proof.Machine.execOwnerEnrol master value s
  | .keyRevoke master value => Sys2Proof.Machine.execKeyRevoke master value s
  | .lockDebug master value => Sys2Proof.Machine.execLockDebug master value s
  | .attestRequest master value => Sys2Proof.Machine.execAttestRequest master value s
  | .attestDone => Sys2Proof.Machine.execAttestDone s
  | .registerWrite master address value => Sys2Proof.Machine.execRegisterWrite master address value s
  | .laneRestart master lane value => Sys2Proof.Machine.execLaneRestart master lane value s
  | .mstTickLoRead master => Sys2Proof.Machine.execMstTickLoRead master s
  | .read frame => Sys2Proof.Machine.execRead frame s
  | .write frame => Sys2Proof.Machine.execWrite frame s
  | .writePosted frame => Sys2Proof.Machine.execWritePosted frame s
  | .cmdSubmit frame => Sys2Proof.Machine.execCmdSubmit frame s
  | .cplRead frame => Sys2Proof.Machine.execCplRead frame s
  | .evtRead frame => Sys2Proof.Machine.execEvtRead frame s
  | .responseRead clocked => Sys2Proof.Machine.execResponseRead clocked s
  | .enec direct events => Sys2Proof.Machine.execEnec direct events s
  | .disec direct events => Sys2Proof.Machine.execDisec direct events s
  | .rstdaa => Sys2Proof.Machine.execRstdaa s
  | .entdaa addr won => Sys2Proof.Machine.execEntdaa addr won s
  | .setdasa static addr => Sys2Proof.Machine.execSetdasa static addr s
  | .setaasa => Sys2Proof.Machine.execSetaasa s
  | .setnewda addr => Sys2Proof.Machine.execSetnewda addr s
  | .getpid => Sys2Proof.Machine.execGetpid s
  | .getbcr => Sys2Proof.Machine.execGetbcr s
  | .getdcr => Sys2Proof.Machine.execGetdcr s
  | .getstatus => Sys2Proof.Machine.execGetstatus s
  | .setmwl len => Sys2Proof.Machine.execSetmwl len s
  | .getmwl => Sys2Proof.Machine.execGetmwl s
  | .setmrl len => Sys2Proof.Machine.execSetmrl len s
  | .getmrl => Sys2Proof.Machine.execGetmrl s
  | .getmxds => Sys2Proof.Machine.execGetmxds s
  | .getcaps => Sys2Proof.Machine.execGetcaps s
  | .enthdr0 => Sys2Proof.Machine.execEnthdr0 s
  | .entas0 => Sys2Proof.Machine.execEntas0 s
  | .entas1 => Sys2Proof.Machine.execEntas1 s
  | .entas2 => Sys2Proof.Machine.execEntas2 s
  | .entas3 => Sys2Proof.Machine.execEntas3 s
  | .eventPost => Sys2Proof.Machine.execEventPost s
  | .transferUe master source dest len bad => Sys2Proof.Machine.execTransferUe master source dest len bad s
  | .celScrubRead check => Sys2Proof.Machine.execCelScrubRead check s
  | .celCaRetry master writeCrc => Sys2Proof.Machine.execCelCaRetry master writeCrc s
  | .celRetrainDone passed => Sys2Proof.Machine.execCelRetrainDone passed s
  | .stayLinkUp port => Sys2Proof.Machine.execStayLinkUp port s
  | .stayLinkDown port => Sys2Proof.Machine.execStayLinkDown port s
  | .stayCutEnd port => Sys2Proof.Machine.execStayCutEnd port s
  | .helloSend port => Sys2Proof.Machine.execHelloSend port s
  | .stayRetransmit port => Sys2Proof.Machine.execStayRetransmit port s
  | .ack port f => Sys2Proof.Machine.execAck port f s
  | .hello port f => Sys2Proof.Machine.execHello port f s
  | .heartbeat port f => Sys2Proof.Machine.execHeartbeat port f s
  | .yield port f => Sys2Proof.Machine.execYield port f s
  | .copy port f c => Sys2Proof.Machine.execCopy port f c s
  | .copyAck port f => Sys2Proof.Machine.execCopyAck port f s
  | .forward port f => Sys2Proof.Machine.execForward port f s
  | .digest port f => Sys2Proof.Machine.execDigest port f s
  | .check port f c => Sys2Proof.Machine.execCheck port f c s
  | .sync port f items => Sys2Proof.Machine.execSync port f items s
  | .selfCheck passed => Sys2Proof.Machine.execSelfCheck passed s
  | .selfCheckTimeout => Sys2Proof.Machine.execSelfCheckTimeout s
  | .bulkSyncStart => Sys2Proof.Machine.execBulkSyncStart s
  | .pairSyncDone => Sys2Proof.Machine.execPairSyncDone s
  | .pairCopyTimeout => Sys2Proof.Machine.execPairCopyTimeout s
  | .pairHeartbeatLost => Sys2Proof.Machine.execPairHeartbeatLost s
  | .challenge line => Sys2Proof.Machine.execChallenge line s
  | .halyardStart => Sys2Proof.Machine.execHalyardStart s
  | .halyardRound others => Sys2Proof.Machine.execHalyardRound others s
  | .pairOwnerGained => Sys2Proof.Machine.execPairOwnerGained s
  | .halyardStuckLow => Sys2Proof.Machine.execHalyardStuckLow s
  | .listeningEnd => Sys2Proof.Machine.execListeningEnd s
  | .pairYieldFailed => Sys2Proof.Machine.execPairYieldFailed s
  | .pairSwitch => Sys2Proof.Machine.execPairSwitch s
  | .pairHold => Sys2Proof.Machine.execPairHold s
  | .pairResync => Sys2Proof.Machine.execPairResync s
  | .pairQuery => Sys2Proof.Machine.execPairQuery s
  | .hourEnd => Sys2Proof.Machine.execHourEnd s
  | .plannerRun => Sys2Proof.Machine.execPlannerRun s
  | .planRun => Sys2Proof.Machine.execPlanRun s
  | .planRecordSet => Sys2Proof.Machine.execPlanRecordSet s
  | .reefEnter => Sys2Proof.Machine.execReefEnter s
  | .reefExit => Sys2Proof.Machine.execReefExit s
  | .wakeOnly => Sys2Proof.Machine.execWakeOnly s
  | .reefEntry => Sys2Proof.Machine.execReefEntry s
  | .wakeOnlyEnter => Sys2Proof.Machine.execWakeOnlyEnter s
  | .wakeOnlyExit match_ bootSel => Sys2Proof.Machine.execWakeOnlyExit match_ bootSel s
  | .supplyOutOfRange report => Sys2Proof.Machine.execSupplyOutOfRange report s
  | .supplyInRange report => Sys2Proof.Machine.execSupplyInRange report s
  | .sequenceViolation rail => Sys2Proof.Machine.execSequenceViolation rail s
  | .sysclkLoss => Sys2Proof.Machine.execSysclkLoss s
  | .sysclkReturn bootSel => Sys2Proof.Machine.execSysclkReturn bootSel s
  | .refclkLoss => Sys2Proof.Machine.execRefclkLoss s
  | .refclkReturn => Sys2Proof.Machine.execRefclkReturn s
  | .bypass => Sys2Proof.Machine.execBypass s
  | .idcode => Sys2Proof.Machine.execIdcode s
  | .samplePreload pins preload => Sys2Proof.Machine.execSamplePreload pins preload s
  | .extest => Sys2Proof.Machine.execExtest s
  | .clamp => Sys2Proof.Machine.execClamp s
  | .highz => Sys2Proof.Machine.execHighz s
  | .tapReset => Sys2Proof.Machine.execTapReset s
  | .vadd w f => Sys2Proof.Machine.execVadd w f s
  | .vsub w f => Sys2Proof.Machine.execVsub w f s
  | .vmul w f => Sys2Proof.Machine.execVmul w f s
  | .vfma w f => Sys2Proof.Machine.execVfma w f s
  | .vfms w f => Sys2Proof.Machine.execVfms w f s
  | .vmin w f => Sys2Proof.Machine.execVmin w f s
  | .vmax w f => Sys2Proof.Machine.execVmax w f s
  | .vrcp w f => Sys2Proof.Machine.execVrcp w f s
  | .vrsq w f => Sys2Proof.Machine.execVrsq w f s
  | .vcmpeq w f => Sys2Proof.Machine.execVcmpeq w f s
  | .vcmplt w f => Sys2Proof.Machine.execVcmplt w f s
  | .vcmple w f => Sys2Proof.Machine.execVcmple w f s
  | .vabs w f => Sys2Proof.Machine.execVabs w f s
  | .vneg w f => Sys2Proof.Machine.execVneg w f s
  | .vmov w f => Sys2Proof.Machine.execVmov w f s
  | .vand w f => Sys2Proof.Machine.execVand w f s
  | .vor w f => Sys2Proof.Machine.execVor w f s
  | .vxor w f => Sys2Proof.Machine.execVxor w f s
  | .vsel w f => Sys2Proof.Machine.execVsel w f s
  | .vbcast w f => Sys2Proof.Machine.execVbcast w f s
  | .aclr w f => Sys2Proof.Machine.execAclr w f s
  | .aldv w f => Sys2Proof.Machine.execAldv w f s
  | .aadd w f => Sys2Proof.Machine.execAadd w f s
  | .amac w f => Sys2Proof.Machine.execAmac w f s
  | .amsc w f => Sys2Proof.Machine.execAmsc w f s
  | .amul w f => Sys2Proof.Machine.execAmul w f s
  | .ascl w f => Sys2Proof.Machine.execAscl w f s
  | .ared w f => Sys2Proof.Machine.execAred w f s
  | .astv w f => Sys2Proof.Machine.execAstv w f s
  | .cvtHf w f => Sys2Proof.Machine.execCvtHf w f s
  | .cvtFh w f => Sys2Proof.Machine.execCvtFh w f s
  | .cvtWf w f => Sys2Proof.Machine.execCvtWf w f s
  | .cvtFw w f => Sys2Proof.Machine.execCvtFw w f s
  | .vaddH w f => Sys2Proof.Machine.execVaddH w f s
  | .vsubH w f => Sys2Proof.Machine.execVsubH w f s
  | .vaddsH w f => Sys2Proof.Machine.execVaddsH w f s
  | .vsubsH w f => Sys2Proof.Machine.execVsubsH w f s
  | .vmulqH w f => Sys2Proof.Machine.execVmulqH w f s
  | .vmulqrH w f => Sys2Proof.Machine.execVmulqrH w f s
  | .vabssH w f => Sys2Proof.Machine.execVabssH w f s
  | .vnegsH w f => Sys2Proof.Machine.execVnegsH w f s
  | .vshlsH w f => Sys2Proof.Machine.execVshlsH w f s
  | .vshrH w f => Sys2Proof.Machine.execVshrH w f s
  | .vnormH w f => Sys2Proof.Machine.execVnormH w f s
  | .vaddsW w f => Sys2Proof.Machine.execVaddsW w f s
  | .vsubsW w f => Sys2Proof.Machine.execVsubsW w f s
  | .vshlsW w f => Sys2Proof.Machine.execVshlsW w f s
  | .vshrW w f => Sys2Proof.Machine.execVshrW w f s
  | .vnormW w f => Sys2Proof.Machine.execVnormW w f s
  | .vlmacW w f => Sys2Proof.Machine.execVlmacW w f s
  | .vlmscW w f => Sys2Proof.Machine.execVlmscW w f s
  | .vrndW w f => Sys2Proof.Machine.execVrndW w f s
  | .ldW w f => Sys2Proof.Machine.execLdW w f s
  | .ldD w f => Sys2Proof.Machine.execLdD w f s
  | .ldQ w f => Sys2Proof.Machine.execLdQ w f s
  | .ldWb w f => Sys2Proof.Machine.execLdWb w f s
  | .stW w f => Sys2Proof.Machine.execStW w f s
  | .stD w f => Sys2Proof.Machine.execStD w f s
  | .stQ w f => Sys2Proof.Machine.execStQ w f s
  | .stfQ w f => Sys2Proof.Machine.execStfQ w f s
  | .aload w f => Sys2Proof.Machine.execAload w f s
  | .asave w f => Sys2Proof.Machine.execAsave w f s
  | .adda w f => Sys2Proof.Machine.execAdda w f s
  | .awr w f => Sys2Proof.Machine.execAwr w f s
  | .ard w f => Sys2Proof.Machine.execArd w f s
  | .add w f => Sys2Proof.Machine.execAdd w f s
  | .sub w f => Sys2Proof.Machine.execSub w f s
  | .and w f => Sys2Proof.Machine.execAnd w f s
  | .or w f => Sys2Proof.Machine.execOr w f s
  | .xor w f => Sys2Proof.Machine.execXor w f s
  | .shl w f => Sys2Proof.Machine.execShl w f s
  | .shr w f => Sys2Proof.Machine.execShr w f s
  | .sra w f => Sys2Proof.Machine.execSra w f s
  | .mul w f => Sys2Proof.Machine.execMul w f s
  | .seq w f => Sys2Proof.Machine.execSeq w f s
  | .slt w f => Sys2Proof.Machine.execSlt w f s
  | .sltu w f => Sys2Proof.Machine.execSltu w f s
  | .addi w f => Sys2Proof.Machine.execAddi w f s
  | .andi w f => Sys2Proof.Machine.execAndi w f s
  | .ori w f => Sys2Proof.Machine.execOri w f s
  | .shli w f => Sys2Proof.Machine.execShli w f s
  | .shri w f => Sys2Proof.Machine.execShri w f s
  | .srai w f => Sys2Proof.Machine.execSrai w f s
  | .mov16 w f => Sys2Proof.Machine.execMov16 w f s
  | .b w f => Sys2Proof.Machine.execB w f s
  | .bz w f => Sys2Proof.Machine.execBz w f s
  | .bnz w f => Sys2Proof.Machine.execBnz w f s
  | .call w f => Sys2Proof.Machine.execCall w f s
  | .ret w f => Sys2Proof.Machine.execRet w f s
  | .loop w f => Sys2Proof.Machine.execLoop w f s
  | .mfs w f => Sys2Proof.Machine.execMfs w f s
  | .mts w f => Sys2Proof.Machine.execMts w f s
  | .qpush w f => Sys2Proof.Machine.execQpush w f s
  | .qnote w f => Sys2Proof.Machine.execQnote w f s
  | .qwait w f => Sys2Proof.Machine.execQwait w f s
  | .cnext w => Sys2Proof.Machine.execCnext w s
  | .tdone w => Sys2Proof.Machine.execTdone w s
  | .bootSupplyTimeout => Sys2Proof.Machine.execBootSupplyTimeout s
  | .powerOn => Sys2Proof.Machine.execPowerOn s
  | .busAvailable accepted => Sys2Proof.Machine.execBusAvailable accepted s
  | .cellarDmaDone master source dest len work => Sys2Proof.Machine.execCellarDmaDone master source dest len work s
  | .tdmFsMisplaced group => Sys2Proof.Machine.execTdmFsMisplaced group s

end Sys2Proof.Machine
end

