-- ==== Sys2Proof/Machine/Pins.lean ====
section
/-! DEFINITION. The pins: the array of balls, each signal's direction, bank and state in reset, and what a pin does as the
device stands (R386, R459, R469, R472, R478, R493 to R496, R498, R499). -/

namespace Sys2Proof.Machine

/-- The signals of the package, a pair's ball by whether it is the positive one (R494, R495). -/
inductive Pin where
  | tdmTx (n : Fin 32) | tdmRx (n : Fin 32) | tdmClk (g : Fin 4) | tdmFs (g : Fin 4)
  | svcTxc | svcTxCtl | svcTxd (n : Fin 4) | svcMdc | svcRxc | svcRxCtl | svcRxd (n : Fin 4) | svcMdio
  | qspiClk | qspiCs | qspiIo (n : Fin 4)
  | i3cScl | i3cSda | resetN | sysclk | bootSel (n : Fin 2) | intN | faultN | halyard | wake | vid (n : Fin 4)
  | tck | trst | tms | tdi | tdo
  | trkTx (port : Fin 2) (p : Bool) | trkRx (port : Fin 2) (p : Bool)
  | stayTx (port lane : Fin 2) (p : Bool) | stayRx (port lane : Fin 2) (p : Bool) | refclk (p : Bool)
  | celReset | celCke (n : Fin 2) | celTen | celCk (n : Fin 2) (p : Bool) | celA (n : Fin 18) | celRas | celCas | celWe
  | celBa (n : Fin 2) | celBg (n : Fin 2) | celAct | celPar | celCs (n : Fin 2) | celOdt (n : Fin 2)
  | celDq (n : Fin 64) | celCb (n : Fin 8) | celDqs (n : Fin 9) (p : Bool) | celDm (n : Fin 9) | celAlert | celZq | celVref
  | tdiode (p : Bool) | sense (vdd : Bool) | sdRcal | atest (pll : Bool)
  deriving DecidableEq, Repr

/-- What a ball carries: a signal, a supply by its index in Table 1 of the supplies, VSS, or nothing (R465, R494). -/
inductive Ball where
  | pin (p : Pin)
  | rail (k : Fin 11)
  | vss
  | nc
  deriving DecidableEq, Repr

/-- The bank of a pin (R478, R495). -/
inductive Bank where
  | a | b | c | d | serdes | cel | none
  deriving DecidableEq, Repr

/-- The direction of a pin (R495). -/
inductive PinDir where
  | input | output | inout | openDrain | analogue
  deriving DecidableEq, Repr

/-- What a pin does: takes its signal in, drives nothing, drives a level, stands in electrical idle, is analogue, is driven by the
function that owns it, follows the boundary register (R496, R498). -/
inductive PinDrive where
  | input | highZ | low | high | idle | analogue | function | scan
  deriving DecidableEq, Repr

/-! ### The array (R493, R494, Table 2) -/

/-- Row A of the array (R494, Table 2). -/
def ballRowA : List Ball :=
  [.pin (.tdmTx 0), .pin (.tdmTx 1), .pin (.tdmTx 2), .pin (.tdmTx 3), .pin (.tdmTx 4), .pin (.tdmTx 5),
   .pin (.tdmTx 6), .pin (.tdmTx 7), .pin (.tdmClk 0), .pin (.tdmTx 16), .pin (.tdmTx 17), .pin (.tdmTx 18),
   .pin (.tdmTx 19), .pin (.tdmTx 20), .pin (.tdmTx 21), .pin (.tdmTx 22), .pin (.tdmTx 23), .pin (.tdmClk 2),
   .pin (.trkTx 0 true), .pin (.trkTx 0 false), .pin (.trkRx 0 true), .pin (.trkRx 0 false)]
/-- Row B of the array (R494, Table 2). -/
def ballRowB : List Ball :=
  [.pin (.tdmRx 0), .pin (.tdmRx 1), .pin (.tdmRx 2), .pin (.tdmRx 3), .pin (.tdmRx 4), .pin (.tdmRx 5),
   .pin (.tdmRx 6), .pin (.tdmRx 7), .pin (.tdmFs 0), .pin (.tdmRx 16), .pin (.tdmRx 17), .pin (.tdmRx 18),
   .pin (.tdmRx 19), .pin (.tdmRx 20), .pin (.tdmRx 21), .pin (.tdmRx 22), .pin (.tdmRx 23), .pin (.tdmFs 2), .vss,
   .vss, .vss, .vss]
/-- Row C of the array (R494, Table 2). -/
def ballRowC : List Ball :=
  [.vss, .rail 7, .vss, .rail 7, .vss, .rail 7, .vss, .vss, .vss, .vss, .rail 8, .vss, .rail 8, .vss, .rail 8, .vss,
   .vss, .vss, .pin (.trkTx 1 true), .pin (.trkTx 1 false), .pin (.trkRx 1 true), .pin (.trkRx 1 false)]
/-- Row D of the array (R494, Table 2). -/
def ballRowD : List Ball :=
  [.pin (.tdmTx 8), .pin (.tdmTx 9), .pin (.tdmTx 10), .pin (.tdmTx 11), .pin (.tdmTx 12), .pin (.tdmTx 13),
   .pin (.tdmTx 14), .pin (.tdmTx 15), .pin (.tdmClk 1), .pin (.tdmTx 24), .pin (.tdmTx 25), .pin (.tdmTx 26),
   .pin (.tdmTx 27), .pin (.tdmTx 28), .pin (.tdmTx 29), .pin (.tdmTx 30), .pin (.tdmTx 31), .pin (.tdmClk 3), .vss,
   .rail 3, .rail 3, .vss]
/-- Row E of the array (R494, Table 2). -/
def ballRowE : List Ball :=
  [.pin (.tdmRx 8), .pin (.tdmRx 9), .pin (.tdmRx 10), .pin (.tdmRx 11), .pin (.tdmRx 12), .pin (.tdmRx 13),
   .pin (.tdmRx 14), .pin (.tdmRx 15), .pin (.tdmFs 1), .pin (.tdmRx 24), .pin (.tdmRx 25), .pin (.tdmRx 26),
   .pin (.tdmRx 27), .pin (.tdmRx 28), .pin (.tdmRx 29), .pin (.tdmRx 30), .pin (.tdmRx 31), .pin (.tdmFs 3),
   .pin (.stayTx 0 0 true), .pin (.stayTx 0 0 false), .pin (.stayRx 0 0 true), .pin (.stayRx 0 0 false)]
/-- Row F of the array (R494, Table 2). -/
def ballRowF : List Ball :=
  [.pin .svcTxc, .pin .svcTxCtl, .pin (.svcTxd 0), .pin (.svcTxd 1), .pin (.svcTxd 2), .rail 1, .rail 0, .rail 0,
   .vss, .rail 0, .rail 0, .rail 1, .rail 0, .rail 0, .vss, .rail 0, .rail 0, .rail 1, .vss, .vss, .vss, .vss]
/-- Row G of the array (R494, Table 2). -/
def ballRowG : List Ball :=
  [.pin (.svcTxd 3), .rail 9, .pin .svcRxc, .pin .svcRxCtl, .pin (.svcRxd 0), .vss, .vss, .vss, .vss, .vss, .vss,
   .vss, .vss, .vss, .vss, .vss, .vss, .vss, .pin (.stayTx 0 1 true), .pin (.stayTx 0 1 false),
   .pin (.stayRx 0 1 true), .pin (.stayRx 0 1 false)]
/-- Row H of the array (R494, Table 2). -/
def ballRowH : List Ball :=
  [.pin (.svcRxd 1), .pin (.svcRxd 2), .pin (.svcRxd 3), .pin .svcMdc, .pin .svcMdio, .rail 1, .rail 0, .rail 0,
   .vss, .rail 0, .rail 0, .rail 1, .rail 0, .rail 0, .vss, .rail 0, .rail 0, .rail 1, .vss, .rail 3, .rail 3, .vss]
/-- Row J of the array (R494, Table 2). -/
def ballRowJ : List Ball :=
  [.pin .qspiClk, .pin .qspiCs, .pin (.qspiIo 0), .pin (.qspiIo 1), .pin (.qspiIo 2), .vss, .vss, .vss, .vss, .vss,
   .vss, .vss, .vss, .vss, .vss, .vss, .vss, .vss, .pin (.stayTx 1 0 true), .pin (.stayTx 1 0 false),
   .pin (.stayRx 1 0 true), .pin (.stayRx 1 0 false)]
/-- Row K of the array (R494, Table 2). -/
def ballRowK : List Ball :=
  [.pin (.qspiIo 3), .rail 9, .pin .i3cScl, .pin .i3cSda, .rail 10, .rail 1, .rail 0, .rail 0, .vss, .rail 0,
   .rail 0, .rail 1, .rail 0, .rail 0, .vss, .rail 0, .rail 0, .rail 1, .vss, .vss, .vss, .vss]
/-- Row L of the array (R494, Table 2). -/
def ballRowL : List Ball :=
  [.pin .resetN, .pin .intN, .pin .faultN, .pin .halyard, .pin .wake, .vss, .vss, .vss, .vss, .vss, .vss, .vss, .vss,
   .vss, .vss, .vss, .vss, .vss, .pin (.stayTx 1 1 true), .pin (.stayTx 1 1 false), .pin (.stayRx 1 1 true),
   .pin (.stayRx 1 1 false)]
/-- Row M of the array (R494, Table 2). -/
def ballRowM : List Ball :=
  [.pin (.bootSel 0), .pin (.bootSel 1), .pin (.vid 0), .pin (.vid 1), .pin (.vid 2), .rail 1, .rail 0, .rail 0,
   .vss, .rail 0, .rail 0, .rail 1, .rail 0, .rail 0, .vss, .rail 0, .rail 0, .rail 1, .rail 4, .rail 3, .rail 3,
   .rail 4]
/-- Row N of the array (R494, Table 2). -/
def ballRowN : List Ball :=
  [.pin (.vid 3), .pin .sysclk, .rail 10, .pin .tck, .pin .tms, .vss, .vss, .vss, .vss, .vss, .vss, .vss, .vss, .vss,
   .vss, .vss, .vss, .vss, .pin (.refclk true), .pin (.refclk false), .rail 2, .rail 2]
/-- Row P of the array (R494, Table 2). -/
def ballRowP : List Ball :=
  [.pin .tdi, .pin .tdo, .pin .trst, .pin (.tdiode true), .pin (.tdiode false), .vss, .rail 0, .rail 0, .vss,
   .rail 0, .rail 0, .vss, .rail 0, .rail 0, .vss, .rail 0, .rail 0, .vss, .vss, .rail 3, .rail 3, .vss]
/-- Row T of the array (R494, Table 2). -/
def ballRowT : List Ball :=
  [.pin (.sense true), .pin (.sense false), .pin .sdRcal, .pin (.atest true), .pin (.atest false), .nc, .nc, .nc,
   .nc, .nc, .rail 6, .vss, .rail 6, .nc, .nc, .nc, .nc, .nc, .rail 4, .rail 2, .rail 2, .rail 4]
/-- Row U of the array (R494, Table 2). -/
def ballRowU : List Ball :=
  [.rail 5, .pin (.celCk 0 true), .pin (.celCk 0 false), .pin (.celCk 1 true), .pin (.celCk 1 false), .rail 5,
   .pin .celRas, .pin .celCas, .pin .celWe, .pin (.celCs 0), .pin (.celCs 1), .rail 5, .pin (.celCke 0),
   .pin (.celCke 1), .pin (.celOdt 0), .pin (.celOdt 1), .rail 5, .pin .celAlert, .pin .celReset, .pin .celTen,
   .pin .celZq, .pin .celVref]
/-- Row V of the array (R494, Table 2). -/
def ballRowV : List Ball :=
  [.pin (.celA 0), .pin (.celA 1), .pin (.celA 2), .pin (.celA 3), .pin (.celA 4), .pin (.celA 5), .pin (.celA 6),
   .pin (.celA 7), .pin (.celA 8), .pin (.celA 9), .pin (.celA 10), .pin (.celA 11), .pin (.celA 12),
   .pin (.celA 13), .pin (.celA 17), .pin (.celBa 0), .pin (.celBa 1), .pin (.celBg 0), .pin (.celBg 1),
   .pin .celAct, .pin .celPar, .rail 5]
/-- Row W of the array (R494, Table 2). -/
def ballRowW : List Ball :=
  [.pin (.celDq 56), .pin (.celDq 57), .pin (.celDq 58), .pin (.celDq 59), .pin (.celDqs 7 true),
   .pin (.celDqs 7 false), .pin (.celDm 7), .pin (.celDq 60), .pin (.celDq 61), .pin (.celDq 62), .pin (.celDq 63),
   .pin (.celCb 0), .pin (.celCb 1), .pin (.celCb 2), .pin (.celCb 3), .pin (.celDqs 8 true), .pin (.celDqs 8 false),
   .pin (.celDm 8), .pin (.celCb 4), .pin (.celCb 5), .pin (.celCb 6), .pin (.celCb 7)]
/-- Row Y of the array (R494, Table 2). -/
def ballRowY : List Ball :=
  [.pin (.celDq 0), .pin (.celDq 1), .pin (.celDq 2), .pin (.celDq 8), .pin (.celDq 9), .pin (.celDq 10),
   .pin (.celDq 16), .pin (.celDq 17), .pin (.celDq 18), .pin (.celDq 24), .pin (.celDq 25), .pin (.celDq 26),
   .pin (.celDq 32), .pin (.celDq 33), .pin (.celDq 34), .pin (.celDq 40), .pin (.celDq 41), .pin (.celDq 42),
   .pin (.celDq 48), .pin (.celDq 49), .pin (.celDq 50), .rail 5]
/-- Row AA of the array (R494, Table 2). -/
def ballRowAA : List Ball :=
  [.pin (.celDq 3), .pin (.celDqs 0 true), .pin (.celDqs 0 false), .pin (.celDq 11), .pin (.celDqs 1 true),
   .pin (.celDqs 1 false), .pin (.celDq 19), .pin (.celDqs 2 true), .pin (.celDqs 2 false), .pin (.celDq 27),
   .pin (.celDqs 3 true), .pin (.celDqs 3 false), .pin (.celDq 35), .pin (.celDqs 4 true), .pin (.celDqs 4 false),
   .pin (.celDq 43), .pin (.celDqs 5 true), .pin (.celDqs 5 false), .pin (.celDq 51), .pin (.celDqs 6 true),
   .pin (.celDqs 6 false), .rail 5]
/-- Row AB of the array (R494, Table 2). -/
def ballRowAB : List Ball :=
  [.pin (.celDq 4), .pin (.celDm 0), .pin (.celDq 5), .pin (.celDq 12), .pin (.celDm 1), .pin (.celDq 13),
   .pin (.celDq 20), .pin (.celDm 2), .pin (.celDq 21), .pin (.celDq 28), .pin (.celDm 3), .pin (.celDq 29),
   .pin (.celDq 36), .pin (.celDm 4), .pin (.celDq 37), .pin (.celDq 44), .pin (.celDm 5), .pin (.celDq 45),
   .pin (.celDq 52), .pin (.celDm 6), .pin (.celDq 53), .rail 5]
/-- Row AC of the array (R494, Table 2). -/
def ballRowAC : List Ball :=
  [.pin (.celDq 6), .rail 5, .pin (.celDq 7), .pin (.celDq 14), .rail 5, .pin (.celDq 15), .pin (.celDq 22), .rail 5,
   .pin (.celDq 23), .pin (.celDq 30), .rail 5, .pin (.celDq 31), .pin (.celDq 38), .rail 5, .pin (.celDq 39),
   .pin (.celDq 46), .rail 5, .pin (.celDq 47), .pin (.celDq 54), .rail 5, .pin (.celDq 55), .rail 5]

/-- The array, by row letters, columns from 1 (R493, R494). -/
def ballMap : List (String × List Ball) :=
  [("A", ballRowA), ("B", ballRowB), ("C", ballRowC), ("D", ballRowD), ("E", ballRowE), ("F", ballRowF), ("G",
   ballRowG), ("H", ballRowH), ("J", ballRowJ), ("K", ballRowK), ("L", ballRowL), ("M", ballRowM), ("N", ballRowN),
   ("P", ballRowP), ("T", ballRowT), ("U", ballRowU), ("V", ballRowV), ("W", ballRowW), ("Y", ballRowY), ("AA",
   ballRowAA), ("AB", ballRowAB), ("AC", ballRowAC)]

/-- What the ball of a row and a column carries (R493). -/
def ballAt (row : String) (col : Nat) : Option Ball :=
  (ballMap.find? (fun r => r.1 == row)).bind (fun r => if col = 0 then none else r.2[col - 1]?)

/-! ### Banks, directions and reset states (R478, R495, Table 4) -/

/-- The bank of a pin. -/
def Pin.bank : Pin → Bank
  | .tdmTx n | .tdmRx n => if n.val < 16 then .a else .b
  | .tdmClk g | .tdmFs g => if g.val < 2 then .a else .b
  | .svcTxc | .svcTxCtl | .svcTxd _ | .svcMdc | .svcRxc | .svcRxCtl | .svcRxd _ | .svcMdio | .qspiClk | .qspiCs
  | .qspiIo _ => .c
  | .i3cScl | .i3cSda | .resetN | .sysclk | .bootSel _ | .intN | .faultN | .halyard | .wake | .vid _ | .tck | .trst | .tms
  | .tdi | .tdo => .d
  | .trkTx .. | .trkRx .. | .stayTx .. | .stayRx .. | .refclk _ | .sdRcal => .serdes
  | .celReset | .celCke _ | .celTen | .celCk .. | .celA _ | .celRas | .celCas | .celWe | .celBa _ | .celBg _ | .celAct
  | .celPar | .celCs _ | .celOdt _ | .celDq _ | .celCb _ | .celDqs .. | .celDm _ | .celAlert | .celZq | .celVref => .cel
  | .tdiode _ | .sense _ | .atest _ => .none

/-- The rail of a bank's pins, by its index (R465, R478). -/
def Bank.rail : Bank → Option (Fin 11)
  | .a => some 7 | .b => some 8 | .c => some 9 | .d => some 10 | .cel => some 5
  | .serdes | .none => Option.none

/-- The direction of a pin. -/
def Pin.dir : Pin → PinDir
  | .tdmTx _ | .svcTxc | .svcTxCtl | .svcTxd _ | .svcMdc | .qspiClk | .qspiCs | .vid _ | .tdo | .trkTx .. | .stayTx ..
  | .celReset | .celCke _ | .celTen | .celCk .. | .celA _ | .celRas | .celCas | .celWe | .celBa _ | .celBg _ | .celAct
  | .celPar | .celCs _ | .celOdt _ | .celDm _ => .output
  | .svcMdio | .qspiIo _ | .i3cSda | .celDq _ | .celCb _ | .celDqs .. => .inout
  | .intN | .faultN | .halyard | .wake => .openDrain
  | .tdmRx _ | .tdmClk _ | .tdmFs _ | .svcRxc | .svcRxCtl | .svcRxd _ | .i3cScl | .resetN | .sysclk | .bootSel _ | .tck
  | .trst | .tms | .tdi | .trkRx .. | .stayRx .. | .refclk _ | .celAlert => .input
  | .celZq | .celVref | .tdiode _ | .sense _ | .sdRcal | .atest _ => .analogue

/-- The weak pull of a pin, up or down (R495). -/
def Pin.pullUp : Pin → Option Bool
  | .svcRxc | .svcRxCtl | .svcRxd _ | .qspiClk | .bootSel _ | .tck | .trst => some false
  | .qspiCs | .qspiIo _ | .tms | .tdi => some true
  | _ => none

/-- The reset state of a pin but for VID, which stands as the code in force has it (R495, Table 4). -/
def Pin.resetDrive (p : Pin) : PinDrive :=
  match p with
  | .svcTxc | .svcTxCtl | .svcTxd _ | .svcMdc | .celReset | .celCke _ | .celTen => .low
  | .celA n => if n = 17 then .low else .highZ
  | .trkTx .. | .stayTx .. => .idle
  | .celVref | .atest _ => .highZ
  | _ => match p.dir with
    | .input => if p = .i3cScl then .highZ else .input
    | .analogue => .analogue
    | _ => .highZ

/-- Whether the boundary register has a cell for a pin: the pins of banks A to D but the five of the TAP, and the digital pins
of the cellar (R498). -/
def Pin.scanned (p : Pin) : Bool :=
  match p.bank, p with
  | .d, .tck | .d, .trst | .d, .tms | .d, .tdi | .d, .tdo => false
  | .a, _ | .b, _ | .c, _ | .d, _ => true
  | .cel, q => q.dir != .analogue
  | _, _ => false

/-! ### What a pin does (R459, R496, R498, R499) -/

/-- An open-drain pin that its function pulls low or releases. -/
def pullsLow (b : Bool) : PinDrive := if b then .low else .highZ

/-- A VID pin: driven once RESET_N has risen (R386, R469). -/
def vidDrive (s : State) (n : Nat) : PinDrive :=
  match vidPins s with
  | some v => if v.toNat.testBit n then .high else .low
  | none => .highZ

/-- A pin while its function may own it (R496): as that function drives it, or in its reset state before. -/
def ownedDrive (s : State) (p : Pin) : PinDrive :=
  let by_ := fun (taken : Bool) => if taken then PinDrive.function else p.resetDrive
  match p with
  | .tdmTx n => by_ (mayDrive s (128 * n.val))
  | .svcTxc | .svcTxCtl | .svcTxd _ | .svcMdc | .svcMdio => by_ (fbit s .SVC_CTRL_enable)
  | .qspiClk | .qspiCs | .qspiIo _ => by_ (s.rig.st == .receiving && s.rig.src == 1)
  | .i3cSda => by_ (portAlive s)
  | .intN => pullsLow (intLow s)
  | .faultN => pullsLow (faultLow s)
  | .wake => pullsLow (wakeLow s)
  | .halyard => by_ (match s.pair.round with
    | some r => r.entered
    | none => false)
  | .vid n => vidDrive s n
  | .trkTx port _ => by_ (fbit s .TMC_CTRL_enable port)
  | .stayTx port _ _ => by_ (fbit s .STY_CTRL_enable port)
  | .celTen => .low
  | .celA n => if n = 17 then .low else by_ (fget s .CEL_STATUS_state != 0)
  | _ => match p.bank with
    | .cel => if p.dir = .input ∨ p = .celZq then p.resetDrive else by_ (fget s .CEL_STATUS_state != 0)
    | _ => p.resetDrive

/-- A pin in the wake-only state: those that R459 names, and the reset state of every other (R496). -/
def wakeDrive (s : State) (p : Pin) : PinDrive :=
  match p with
  | .faultN => pullsLow (faultLow s)
  | .wake => pullsLow (wakeLow s)
  | .vid n => vidDrive s n
  | _ => p.resetDrive

/-- A pin as its function and resets have it: the reset state while RESET_N is low or SYSCLK is lost (R496). -/
def functionDrive (s : State) (p : Pin) : PinDrive :=
  if s.boot.held ∨ s.sysLost then
    match p with
    | .vid n => vidDrive s n
    | _ => p.resetDrive
  else if s.age.wake.isSome then wakeDrive s p
  else ownedDrive s p

/-- What a pin does: the boundary register has the scanned pins that can drive in EXTEST and CLAMP, HIGHZ lets them go, whatever
the rest of the device does (R498, R499). -/
def pinDrive (s : State) (p : Pin) : PinDrive :=
  let drives := p.scanned && p.dir != .input
  match s.jtag.instr with
  | .extest | .clamp => if drives then .scan else functionDrive s p
  | .highz => if drives then .highZ else functionDrive s p
  | .bypass | .idcode | .samplePreload => functionDrive s p

end Sys2Proof.Machine
end

