-- ==== Sys2Proof/Safety.lean ====
section
/-! DEFINITION. What a safe run is, and what every state of one keeps, in the terms that claims use. -/

namespace Sys2Proof

open Machine

/-- A step that is no stop: it answers a next state. -/
def StepOk (s : State) : Prop := ∃ t, step s = .next t

/-- What every step keeps: memory is in its canonical form. -/
def Inv (s : State) : Prop := Memory.wf s.mem = true

/-- What boundary scan keeps: the register between TDI and TDO is the one that the TAP instruction in force selects, and the
boundary register has one bit for each scanned pin (R498). -/
def TapInv (s : State) : Prop :=
  (s.jtag.selected = match s.jtag.instr with
    | .bypass => 0
    | .clamp => 0
    | .highz => 0
    | .idcode => 1
    | .samplePreload => 2
    | .extest => 2) ∧ s.jtag.boundary < 2 ^ scanCells

/-- No fuse of `a` is unblown in `b`, and the fields written at manufacture stand (R349, Table 2). -/
def FusesKept (a b : Fuses) : Prop :=
  b.roots = a.roots ∧
  a.rootRevoked &&& b.rootRevoked = a.rootRevoked ∧
  keepsBlown b.owner a.owner = true ∧
  (a.enrolled = true → b.enrolled = true) ∧
  (a.ownerRevoked = true → b.ownerRevoked = true) ∧
  a.rollback ≤ b.rollback ∧
  (a.debugLocked = true → b.debugLocked = true) ∧
  a.seedA &&& b.seedA = a.seedA ∧
  a.seedB &&& b.seedB = a.seedB ∧
  (a.validA = true → b.validA = true) ∧
  (a.validB = true → b.validB = true) ∧
  b.ordering = a.ordering ∧
  b.serial = a.serial

end Sys2Proof
end

