-- ==== Sys2Proof/Certificates/Slice0/Obligations.lean ====
section
/-! DEFINITION. Statements about the machine, from the rules of spec/, for the provers. The names under `Spec` say what a
statement assumes of a state and what it says of the next one. -/

namespace Sys2Proof.Spec

open Sys2Proof.Machine

/-! ### Lanes -/

/-- An operation of the word `c` can execute: its lane runs a tick, no push stalls it, its cluster's island is not stopped,
its word is open, no refusal has cut it and no QWAIT of it stalls, its stage runs (R92), and another operation of the word
follows. -/
structure WordOpen (w : Issue) (s : State) (c : WordCtx) : Prop where
  runs : (laneAt s w.lane).runs = true
  pushes : laneStalled s w.lane = false
  clocked : s.age.stopped.getLsbD (w.lane / 16) = false
  word : (laneAt s w.lane).word = some c
  held : c.held = false
  whole : (laneAt s w.lane).cut = false
  stage : stageRuns c.core0 w.stage = true
  more : w.last = false

/-- A state with the registers of a lane and its word's context replaced. -/
def withLane (w : Issue) (core : LaneCore) (c : WordCtx) (s : State) : State :=
  putLane w.lane { laneAt s w.lane with core := core, word := some c } s

/-- A word with a vector result that lands a latency after its issue (R96), and with flags raised (R71). -/
def lands (c : WordCtx) (d : BitVec 6) (val : BitVec 128) (latency : Nat) (flags : BitVec 3) : WordCtx :=
  { c with
    vw := c.vw ++ [{ reg := physReg c.core0.vrb d.toNat, val := val, due := c.core0.issued + latency }]
    flags := c.flags ||| flags }

/-- A word with flags raised. -/
def flagged (c : WordCtx) (flags : BitVec 3) : WordCtx := { c with flags := c.flags ||| flags }

/-- The AFS bit sat, where any of `n` elements was limited. -/
def satIf (n : Nat) (r : Nat → Bool) : BitVec 3 := if (List.range n).any r then 2 else 0
/-- The AFS bit nan_seen, where any of `n` elements asks for it. -/
def nanIf (n : Nat) (r : Nat → Bool) : BitVec 3 := if (List.range n).any r then 4 else 0
/-- The AFS bit acc_ovf, where any of four elements overflowed. -/
def ovfIf (r : Nat → Bool) : BitVec 3 := if (List.range 4).any r then 1 else 0

/-- What a float operation leaves: four elements and their sat bits, landing after a latency. -/
def floatLands (w : Issue) (d : BitVec 6) (latency : Nat) (r : Nat → BitVec 32 × Bool) (c : WordCtx) (s : State) :
    Host.Outcome State Fault Refusal :=
  .next (withLane w (laneAt s w.lane).core (lands c d (joinW (fun i => (r i).1)) latency (satIf 4 (fun i => (r i).2))) s)

/-- What a raw operation leaves: 128 bits landing in the next word, no flag. -/
def rawLands (w : Issue) (d : BitVec 6) (x : BitVec 128) (c : WordCtx) (s : State) : Host.Outcome State Fault Refusal :=
  .next (withLane w (laneAt s w.lane).core (lands c d x 1 0) s)

/-- What a fixed-point operation on half elements leaves: eight halves and their sat bits, landing after 2 words. -/
def halvesLand (w : Issue) (d : BitVec 6) (r : Nat → Int × Bool) (c : WordCtx) (s : State) :
    Host.Outcome State Fault Refusal :=
  .next (withLane w (laneAt s w.lane).core
    (lands c d (joinH (fun i => BitVec.ofInt 16 (r i).1)) 2 (satIf 8 (fun i => (r i).2))) s)

/-- What a fixed-point operation on words leaves: four words and their sat bits, landing after 2 words. -/
def wordsLand (w : Issue) (d : BitVec 6) (r : Nat → Int × Bool) (c : WordCtx) (s : State) :
    Host.Outcome State Fault Refusal :=
  .next (withLane w (laneAt s w.lane).core
    (lands c d (joinW (fun i => BitVec.ofInt 32 (r i).1)) 2 (satIf 4 (fun i => (r i).2))) s)

/-- What an accumulator operation leaves: the accumulator replaced at once, acc_ovf raised. -/
def accTakes (w : Issue) (n : Nat) (x : BitVec 192) (ovf : BitVec 3) (c : WordCtx) (s : State) :
    Host.Outcome State Fault Refusal :=
  let core := (laneAt s w.lane).core
  .next (withLane w { core with acc := tset core.acc n x } (flagged c ovf) s)

/-- What a scalar result leaves: the register written, S0 excepted (R83), and the context given. -/
def scalarTakes (w : Issue) (n : Nat) (v : Word) (c : WordCtx) (s : State) : Host.Outcome State Fault Refusal :=
  let core := (laneAt s w.lane).core
  .next (withLane w (if n = 0 then core else { core with s := tset core.s n v }) c s)

end Sys2Proof.Spec

open Sys2Proof Sys2Proof.Machine Sys2Proof.Spec

/-! ### Lanes: the V slot -/

/-- Table 3 of R62 with the latencies of R96: each float operation lands, for each of four elements, what the element
function gives of the operands as the word found them, and raises sat where an element sets it. VRCP and VRSQ take their
estimates from free values (log entry 22). -/
def Sys2Proof.Spec.FloatOperationsLandTheirElements : Prop :=
  ∀ (w : Issue) (f : VFields) (s : State) (c : WordCtx), WordOpen w s c →
    let a := fun i => elemW (readV c.core0 f.a) i
    let b := fun i => elemW (readV c.core0 f.b) i
    let e := fun i => elemW (readV c.core0 f.c) i
    exec (.vadd w f) s = floatLands w f.d 4 (fun i => f32Add (a i) (b i)) c s ∧
    exec (.vsub w f) s = floatLands w f.d 4 (fun i => f32Sub (a i) (b i)) c s ∧
    exec (.vmul w f) s = floatLands w f.d 4 (fun i => f32Mul (a i) (b i)) c s ∧
    exec (.vfma w f) s = floatLands w f.d 4 (fun i => f32Fma (a i) (b i) (e i)) c s ∧
    exec (.vfms w f) s = floatLands w f.d 4 (fun i => f32Fms (a i) (b i) (e i)) c s ∧
    exec (.vmin w f) s = floatLands w f.d 4 (fun i => f32Min (a i) (b i)) c s ∧
    exec (.vmax w f) s = floatLands w f.d 4 (fun i => f32Max (a i) (b i)) c s ∧
    exec (.vrcp w f) s = floatLands w f.d 6 (fun i => f32Rcp (a i)) c s ∧
    exec (.vrsq w f) s = floatLands w f.d 6 (fun i => f32Rsq (a i)) c s ∧
    exec (.vcmpeq w f) s = floatLands w f.d 4 (fun i => f32Cmp eqNum (a i) (b i)) c s ∧
    exec (.vcmplt w f) s = floatLands w f.d 4 (fun i => f32Cmp ltNum (a i) (b i)) c s ∧
    exec (.vcmple w f) s = floatLands w f.d 4 (fun i => f32Cmp (fun x y => ltNum x y || eqNum x y) (a i) (b i)) c s

/-- Table 3 of R62: the raw operations work on the 128 bits as they stand, with latency 1 and no flag; VABS clears and
VNEG inverts the sign bit of each element, VSEL takes b where a is 1 and c where it is 0, VBCAST copies one element to
all four. -/
def Sys2Proof.Spec.RawOperationsLandTheirBits : Prop :=
  ∀ (w : Issue) (f : VFields) (s : State) (c : WordCtx), WordOpen w s c →
    let a := readV c.core0 f.a
    let b := readV c.core0 f.b
    let e := readV c.core0 f.c
    exec (.vabs w f) s = rawLands w f.d (joinW (fun i => elemW a i &&& 0x7FFFFFFF)) c s ∧
    exec (.vneg w f) s = rawLands w f.d (joinW (fun i => elemW a i ^^^ 0x80000000)) c s ∧
    exec (.vmov w f) s = rawLands w f.d a c s ∧
    exec (.vand w f) s = rawLands w f.d (a &&& b) c s ∧
    exec (.vor w f) s = rawLands w f.d (a ||| b) c s ∧
    exec (.vxor w f) s = rawLands w f.d (a ^^^ b) c s ∧
    exec (.vsel w f) s = rawLands w f.d ((a &&& b) ||| (~~~a &&& e)) c s ∧
    exec (.vbcast w f) s = rawLands w f.d (joinW (fun _ => elemW a (f.imm.toNat % 4))) c s

/-- Table 6 of R65: an accumulator operation replaces the accumulator that d names, d from 0 to 7, element by element
and rounded once, and raises acc_ovf; ARED leaves the sum in element 0 and +0 elsewhere. One that reads the accumulator
waits for an earlier write of it (R97), and ARED's own write has latency 4 (R96). -/
def Sys2Proof.Spec.AccumulatorOperationsReplaceTheAccumulator : Prop :=
  ∀ (w : Issue) (f : VFields) (s : State) (c : WordCtx), WordOpen w s c → f.d.toNat < 8 →
    let n := f.d.toNat
    let x := fun i => elemA (readAcc c.core0 n) i
    let a := fun i => elemW (readV c.core0 f.a) i
    let b := fun i => elemW (readV c.core0 f.b) i
    let k := c.await [32 + n]
    let out := fun (r : Nat → BitVec 48 × Bool) => accTakes w n (joinA (fun i => (r i).1)) (ovfIf (fun i => (r i).2)) k s
    let load := fun i => toAcc (accOperand (a i))
    exec (.aclr w f) s = accTakes w n 0 0 c s ∧
    exec (.aldv w f) s = accTakes w n (joinA (fun i => (load i).1)) (ovfIf (fun i => (load i).2)) c s ∧
    exec (.aadd w f) s = out (fun i => accAdd (x i) (a i) (b i)) ∧
    exec (.amac w f) s = out (fun i => accMac (x i) (a i) (b i)) ∧
    exec (.amsc w f) s = out (fun i => accMsc (x i) (a i) (b i)) ∧
    exec (.amul w f) s = out (fun i => accMul (x i) (a i) (b i)) ∧
    exec (.ascl w f) s = out (fun i => accOp [ofAcc (x i)] (scaleNum f.imm.toInt (ofAcc (x i)))) ∧
    exec (.ared w f) s = accTakes w n (accReduce (readAcc c.core0 n)).1
      (if (accReduce (readAcc c.core0 n)).2 then 1 else 0) { k with locks := k.locks ++ [(32 + n, 4)] } s

/-- From R93: a V slot that names an accumulator above 7, a conversion whose scale is -32 and a half-element shift by
more than 15 are lane fault ILLEGAL, cause 1, of slot 0 at the word's address. -/
def Obligations.ReservedOperandsOfTheVSlotFault : Prop :=
  ∀ (w : Issue) (f : VFields) (s : State) (c : WordCtx), WordOpen w s c →
    let ill := Host.Outcome.next (ρ := Refusal) (φ := Fault) (laneFault w.lane 1 0 c.core0.pc.toNat 0 s)
    (8 ≤ f.d.toNat →
      exec (.aclr w f) s = ill ∧ exec (.aldv w f) s = ill ∧ exec (.aadd w f) s = ill ∧ exec (.amac w f) s = ill ∧
      exec (.amsc w f) s = ill ∧ exec (.amul w f) s = ill ∧ exec (.ascl w f) s = ill ∧ exec (.ared w f) s = ill) ∧
    (8 ≤ f.a.toNat → exec (.astv w f) s = ill) ∧
    (f.imm.toNat % 64 = 32 →
      exec (.cvtHf w f) s = ill ∧ exec (.cvtFh w f) s = ill ∧ exec (.cvtWf w f) s = ill ∧ exec (.cvtFw w f) s = ill) ∧
    (16 ≤ f.imm.toNat % 32 → exec (.vshlsH w f) s = ill ∧ exec (.vshrH w f) s = ill)

/-- From R67 and R69: ASTV lands an accumulator as binary32 once the accumulator stands (R97), and the conversions land
x × 2^s, with s from -31 to 31 and the flags that rounding and limiting raise. CVT.HF takes halves h4 to h7 where bit 6
of the immediate is set. -/
def Sys2Proof.Spec.ConversionsLandTheirElements : Prop :=
  ∀ (w : Issue) (f : VFields) (s : State) (c : WordCtx), WordOpen w s c →
    let a := readV c.core0 f.a
    let b := readV c.core0 f.b
    let lane := (laneAt s w.lane).core
    (f.a.toNat < 8 →
      let r := fun i => accToF32 (elemA (readAcc c.core0 f.a.toNat) i)
      exec (.astv w f) s = .next (withLane w lane (lands (c.await [32 + f.a.toNat]) f.d (joinW (fun i => (r i).1)) 4
        (satIf 4 (fun i => (r i).2.2) ||| nanIf 4 (fun i => (r i).2.1))) s)) ∧
    (f.imm.toNat % 64 ≠ 32 →
      let k := (f.imm.setWidth 6).toInt
      let half := if f.imm.getLsbD 6 then 4 else 0
      let h := fun i => toInt (-32768) 32767 k (ofF32 (if i < 4 then elemW a i else elemW b (i - 4)))
      let q := fun i => toInt (-2147483648) 2147483647 k (ofF32 (elemW a i))
      exec (.cvtHf w f) s = .next (withLane w lane
        (lands c f.d (joinW (fun i => intToF32 (elemH a (half + i)).toInt k)) 3 0) s) ∧
      exec (.cvtFh w f) s = .next (withLane w lane (lands c f.d (joinH (fun i => BitVec.ofInt 16 (h i).1)) 3
        (satIf 8 (fun i => (h i).2.1) ||| nanIf 8 (fun i => (h i).2.2))) s) ∧
      exec (.cvtWf w f) s = .next (withLane w lane
        (lands c f.d (joinW (fun i => intToF32 (elemW a i).toInt k)) 3 0) s) ∧
      exec (.cvtFw w f) s = .next (withLane w lane (lands c f.d (joinW (fun i => BitVec.ofInt 32 (q i).1)) 3
        (satIf 4 (fun i => (q i).2.1) ||| nanIf 4 (fun i => (q i).2.2))) s))

/-- Both hold: `AccumulatorOperationsReplaceTheAccumulator`, `ConversionsLandTheirElements`. -/
def Obligations.AccumulatorsAndConversionsTakeTheirElements : Prop :=
  Sys2Proof.Spec.AccumulatorOperationsReplaceTheAccumulator ∧ Sys2Proof.Spec.ConversionsLandTheirElements

/-- Table 9 of R70, half elements: sums and differences that wrap or are limited to 16 bits, the products a × b / 2^15
toward minus infinity or rounded, magnitude and negation limited, shifts by an immediate up to 15, and the redundant
sign bits. -/
def Sys2Proof.Spec.HalfElementOperationsLandTheirElements : Prop :=
  ∀ (w : Issue) (f : VFields) (s : State) (c : WordCtx), WordOpen w s c →
    let a := fun i => (elemH (readV c.core0 f.a) i).toInt
    let b := fun i => (elemH (readV c.core0 f.b) i).toInt
    let n := f.imm.toNat % 32
    exec (.vaddH w f) s = halvesLand w f.d (fun i => (a i + b i, false)) c s ∧
    exec (.vsubH w f) s = halvesLand w f.d (fun i => (a i - b i, false)) c s ∧
    exec (.vaddsH w f) s = halvesLand w f.d (fun i => satTo2 16 (a i + b i)) c s ∧
    exec (.vsubsH w f) s = halvesLand w f.d (fun i => satTo2 16 (a i - b i)) c s ∧
    exec (.vmulqH w f) s = halvesLand w f.d (fun i => satTo2 16 (a i * b i / 32768)) c s ∧
    exec (.vmulqrH w f) s = halvesLand w f.d (fun i => satTo2 16 ((a i * b i + 16384) / 32768)) c s ∧
    exec (.vabssH w f) s = halvesLand w f.d (fun i => satTo2 16 ((a i).natAbs : Int)) c s ∧
    exec (.vnegsH w f) s = halvesLand w f.d (fun i => satTo2 16 (-(a i))) c s ∧
    exec (.vnormH w f) s = halvesLand w f.d (fun i => (norm 16 (a i), false)) c s ∧
    (n < 16 →
      exec (.vshlsH w f) s = halvesLand w f.d (fun i => satTo2 16 (a i * 2 ^ n)) c s ∧
      exec (.vshrH w f) s = halvesLand w f.d (fun i => (a i / 2 ^ n, false)) c s)

/-- Table 9 of R70, words: limited sums and differences, shifts by an immediate, the redundant sign bits; VLMAC.W and
VLMSC.W add to, or take from, the word of d the doubled product of halves 0 to 3, both limited; VRND.W rounds words to
the halves h0 to h3 and clears the others. -/
def Sys2Proof.Spec.WordElementOperationsLandTheirElements : Prop :=
  ∀ (w : Issue) (f : VFields) (s : State) (c : WordCtx), WordOpen w s c →
    let a := fun i => (elemW (readV c.core0 f.a) i).toInt
    let b := fun i => (elemW (readV c.core0 f.b) i).toInt
    let d := fun i => (elemW (readV c.core0 f.d) i).toInt
    let n := f.imm.toNat % 32
    let p := fun i => satTo2 32
      (2 * ((elemH (readV c.core0 f.a) i).toInt * (elemH (readV c.core0 f.b) i).toInt))
    let r := fun i => if i < 4 then satTo2 16 ((a i + 32768) / 65536) else (0, false)
    exec (.vaddsW w f) s = wordsLand w f.d (fun i => satTo2 32 (a i + b i)) c s ∧
    exec (.vsubsW w f) s = wordsLand w f.d (fun i => satTo2 32 (a i - b i)) c s ∧
    exec (.vshlsW w f) s = wordsLand w f.d (fun i => satTo2 32 (a i * 2 ^ n)) c s ∧
    exec (.vshrW w f) s = wordsLand w f.d (fun i => (a i / 2 ^ n, false)) c s ∧
    exec (.vnormW w f) s = wordsLand w f.d (fun i => (norm 32 (a i), false)) c s ∧
    exec (.vlmacW w f) s = wordsLand w f.d
      (fun i => ((satTo2 32 (d i + (p i).1)).1, (p i).2 || (satTo2 32 (d i + (p i).1)).2)) c s ∧
    exec (.vlmscW w f) s = wordsLand w f.d
      (fun i => ((satTo2 32 (d i - (p i).1)).1, (p i).2 || (satTo2 32 (d i - (p i).1)).2)) c s ∧
    exec (.vrndW w f) s = .next (withLane w (laneAt s w.lane).core
      (lands c f.d (joinH (fun i => BitVec.ofInt 16 (r i).1)) 2 (satIf 4 (fun i => (r i).2))) s)

/-- All hold: `FloatOperationsLandTheirElements`, `RawOperationsLandTheirBits`,
`HalfElementOperationsLandTheirElements`, `WordElementOperationsLandTheirElements`. -/
def Obligations.VectorOperationsLandTheirElements : Prop :=
  Sys2Proof.Spec.FloatOperationsLandTheirElements ∧
  Sys2Proof.Spec.RawOperationsLandTheirBits ∧
  Sys2Proof.Spec.HalfElementOperationsLandTheirElements ∧
  Sys2Proof.Spec.WordElementOperationsLandTheirElements

/-! ### Lanes: the S slot -/

/-- From R95 and R83: each operation of the ALU, immediate and MOV16 formats writes its scalar result from the operands
as the word found them, for the operations that follow in the next word; S0 takes no write. Sums, differences and
products are taken mod 2^32, shifts by bits [4:0], comparisons give 1 or 0; MOV16 replaces one half of the register. The
word waits for registers that earlier words still write (R97). -/
def Sys2Proof.Spec.ScalarOperationsWriteTheirResult : Prop :=
  ∀ (w : Issue) (s : State) (c : WordCtx), WordOpen w s c →
    (∀ f : AluFields,
      let a := readS c.core0 f.a.toNat
      let b := readS c.core0 f.b.toNat
      let takes := fun v : Word => scalarTakes w f.d.toNat v (c.await [f.a.toNat, f.b.toNat]) s
      exec (.add w f) s = takes (BitVec.ofNat 32 (a.toNat + b.toNat)) ∧
      exec (.sub w f) s = takes (BitVec.ofInt 32 (a.toNat - b.toNat)) ∧
      exec (.and w f) s = takes (a &&& b) ∧
      exec (.or w f) s = takes (a ||| b) ∧
      exec (.xor w f) s = takes (a ^^^ b) ∧
      exec (.shl w f) s = takes (BitVec.ofNat 32 (a.toNat * 2 ^ (b.toNat % 32))) ∧
      exec (.shr w f) s = takes (BitVec.ofNat 32 (a.toNat / 2 ^ (b.toNat % 32))) ∧
      exec (.sra w f) s = takes (BitVec.ofInt 32 (a.toInt / 2 ^ (b.toNat % 32))) ∧
      exec (.mul w f) s = takes (BitVec.ofNat 32 (a.toNat * b.toNat)) ∧
      exec (.seq w f) s = takes (if a = b then 1 else 0) ∧
      exec (.slt w f) s = takes (if a.toInt < b.toInt then 1 else 0) ∧
      exec (.sltu w f) s = takes (if a.toNat < b.toNat then 1 else 0)) ∧
    (∀ f : ImmFields,
      let a := readS c.core0 f.a.toNat
      let b := BitVec.ofInt 32 f.imm.toInt
      let takes := fun v : Word => scalarTakes w f.d.toNat v (c.await [f.a.toNat]) s
      exec (.addi w f) s = takes (a + b) ∧
      exec (.andi w f) s = takes (a &&& b) ∧
      exec (.ori w f) s = takes (a ||| b) ∧
      exec (.shli w f) s = takes (BitVec.ofNat 32 (a.toNat * 2 ^ (f.imm.toNat % 32))) ∧
      exec (.shri w f) s = takes (BitVec.ofNat 32 (a.toNat / 2 ^ (f.imm.toNat % 32))) ∧
      exec (.srai w f) s = takes (BitVec.ofInt 32 (a.toInt / 2 ^ (f.imm.toNat % 32)))) ∧
    (∀ f : MovFields,
      let x := (readS c.core0 f.d.toNat).toNat
      exec (.mov16 w f) s = scalarTakes w f.d.toNat
        (BitVec.ofNat 32 (if f.high then f.imm.toNat * 65536 + x % 65536 else x / 65536 * 65536 + f.imm.toNat))
        (c.await [f.d.toNat]) s)

/-- From R90 and R95: B, CALL, RET, and BZ and BNZ where their register is, or is not, 0, name the word that follows;
CALL also puts the next word's address in S31, and RET goes to S31[11:0]. BZ and BNZ not taken name none. The word waits
for a register it reads (R97). -/
def Sys2Proof.Spec.BranchesNameTheWordThatFollows : Prop :=
  ∀ (w : Issue) (f : BranchFields) (s : State) (c : WordCtx), WordOpen w s c →
    let core := (laneAt s w.lane).core
    let a := readS c.core0 f.a.toNat
    let goes := fun (c : WordCtx) (k : LaneCore) (call : Bool) (t : BitVec 12) =>
      Host.Outcome.next (ρ := Refusal) (φ := Fault) (withLane w k { c with jump := some t, call := call } s)
    let test := c.await [f.a.toNat]
    let stays := Host.Outcome.next (ρ := Refusal) (φ := Fault) (withLane w core test s)
    exec (.b w f) s = goes c core false f.target ∧
    exec (.bz w f) s = (if a = 0 then goes test core false f.target else stays) ∧
    exec (.bnz w f) s = (if a = 0 then stays else goes test core false f.target) ∧
    exec (.call w f) s =
      goes c { core with s := tset core.s 31 (BitVec.ofNat 32 ((c.core0.pc.toNat + 1) % 4096)) } true f.target ∧
    exec (.ret w f) s = goes (c.await [31]) core true ((readS c.core0 31).setWidth 12)

/-- Both hold: `ScalarOperationsWriteTheirResult`, `BranchesNameTheWordThatFollows`. -/
def Obligations.ScalarResultsAndBranches : Prop :=
  Sys2Proof.Spec.ScalarOperationsWriteTheirResult ∧ Sys2Proof.Spec.BranchesNameTheWordThatFollows

/-- From R88, R89 and R92: LOOP with a count above 0 starts a level at the next word with its count, and with the drain
added to it where it rotates; with count 0 the lane goes on after the end word; three active levels are fault
LOOP_DEPTH, an end word that is not after the LOOP or lies outside the enclosing level is fault BAD_LOOP. -/
def Obligations.LoopStartsALevelOrFaults : Prop :=
  ∀ (w : Issue) (f : LoopFields) (s : State) (c : WordCtx), WordOpen w s c →
    let core := (laneAt s w.lane).core
    let n := if f.fromReg then (readS c.core0 (f.count.toNat % 32)).toNat else f.count.toNat
    let fault := fun cause : Nat =>
      Host.Outcome.next (ρ := Refusal) (φ := Fault) (laneFault w.lane cause 3 c.core0.pc.toNat 0 s)
    let inside := ∀ l ∈ c.core0.loops.head?, f.last.toNat ≤ l.last.toNat
    let c' := if f.fromReg then c.await [f.count.toNat % 32] else c
    (3 ≤ c.core0.loops.length → exec (.loop w f) s = fault 6) ∧
    (c.core0.loops.length < 3 → f.last.toNat ≤ c.core0.pc.toNat ∨ ¬ inside → exec (.loop w f) s = fault 7) ∧
    (c.core0.loops.length < 3 → c.core0.pc.toNat < f.last.toNat → inside →
      (n = 0 → exec (.loop w f) s = .next (withLane w core { c' with skip := some (f.last + 1) } s)) ∧
      (n ≠ 0 → exec (.loop w f) s = .next (withLane w core { c' with loop := some {
        body := c.core0.pc + 1, last := f.last, left := if f.rotate then n + f.drain.toNat else n,
        rotate := f.rotate, count := n, iter := 0 } } s)))

/-- Table 2 of R83 and R72: MFS copies a special register to a scalar register; IDs above 12 are lane fault ILLEGAL. A
read of AFS stalls for a free number of cycles, which the specification does not count (R72; log entry 21), and takes a
draw. -/
def Sys2Proof.Spec.SpecialRegistersReadIntoScalars : Prop :=
  ∀ (w : Issue) (f : SpecialFields) (s : State) (c : WordCtx), WordOpen w s c →
    let k := c.core0
    let takes := fun v : Word => exec (.mfs w f) s = scalarTakes w f.r.toNat v c s
    (f.id = 0 → exec (.mfs w f) s = scalarTakes w f.r.toNat (BitVec.ofNat 32 k.afs.toNat)
      { c with stall := c.stall + Config.freeNat s.free } (draw s)) ∧
    (f.id = 1 → takes (if k.agf then 1 else 0)) ∧
    (f.id = 2 → takes (BitVec.ofNat 32 k.vrb.toNat)) ∧
    (∀ j < 3, f.id.toNat = 3 + j → takes (BitVec.ofNat 32 (((k.loops.reverse[j]?).map (fun l => l.left)).getD 0))) ∧
    (f.id = 6 → takes (BitVec.ofNat 32 k.loops.length)) ∧
    (f.id = 7 → takes k.tick) ∧
    (f.id = 8 → takes k.clist) ∧
    (f.id = 9 → takes (BitVec.ofNat 32 k.ccount)) ∧
    (f.id = 10 → takes (BitVec.ofNat 32 k.cidx)) ∧
    (f.id = 11 → takes (BitVec.ofNat 32 k.cyc)) ∧
    (f.id = 12 → takes (BitVec.ofNat 32 w.lane)) ∧
    (13 ≤ f.id.toNat → exec (.mfs w f) s = .next (laneFault w.lane 1 3 k.pc.toNat 0 s))

/-- From R71, R83 and Table 2: MTS is taken with the word, and at its end AFS loses the bits written as ones before it
gains those that the word raised, AGF is cleared by a one, VRB is replaced and the read-only registers keep their value.
-/
def Sys2Proof.Spec.SpecialWritesTakeEffectAtTheWordEnd : Prop :=
  (∀ (w : Issue) (f : SpecialFields) (s : State) (c : WordCtx), WordOpen w s c →
    (f.id.toNat < 13 → exec (.mts w f) s = .next (withLane w (laneAt s w.lane).core
      { c.await [f.r.toNat] with spec := c.spec ++ [(f.id.toNat, readS c.core0 f.r.toNat)] } s)) ∧
    (13 ≤ f.id.toNat → exec (.mts w f) s = .next (laneFault w.lane 1 3 c.core0.pc.toNat 0 s))) ∧
  (∀ (k : LaneCore) (x : WordCtx) (id : Nat) (v : Word), x.spec = [(id, v)] →
    (closeWord k x).afs = (if id = 0 then k.afs &&& ~~~(v.setWidth 3) else k.afs) ||| x.flags ∧
    (closeWord k x).agf = ((k.agf && !(id == 1 && v.getLsbD 0)) || !x.folds.isEmpty) ∧
    (id = 2 → (closeWord k x).vrb = v.setWidth 5) ∧
    (id ≠ 2 → (closeWord k x).vrb = (nextWord k x).vrb) ∧
    (closeWord k x).tick = k.tick ∧ (closeWord k x).clist = k.clist ∧ (closeWord k x).ccount = k.ccount ∧
    (closeWord k x).cidx = k.cidx)

/-- Both hold: `SpecialRegistersReadIntoScalars`, `SpecialWritesTakeEffectAtTheWordEnd`. -/
def Obligations.SpecialRegistersReadAndWrite : Prop :=
  Sys2Proof.Spec.SpecialRegistersReadIntoScalars ∧ Sys2Proof.Spec.SpecialWritesTakeEffectAtTheWordEnd

/-- From R101: CNEXT advances CIDX, which stops at CCOUNT. -/
def Sys2Proof.Spec.CnextAdvancesTheIndex : Prop :=
  ∀ (w : Issue) (s : State) (c : WordCtx), WordOpen w s c →
    ∃ t, exec (.cnext w) s = .next t ∧
      let k := (laneAt s w.lane).core
      let k' := (laneAt t w.lane).core
      (k.cidx < k.ccount → k'.cidx = k.cidx + 1) ∧
      (k.ccount ≤ k.cidx → k'.cidx = k.ccount) ∧
      { k' with cidx := k.cidx } = k ∧ (laneAt t w.lane).word = some c ∧
      (∀ l, l ≠ w.lane.val → laneAt t l = laneAt s l) ∧ t.mem = s.mem ∧ t.regs = s.regs

/-- From R101 and R90: a word that holds TDONE ends the lane's tick: the lane is idle with no loop level active, and
where a boundary passed before it the next tick starts at once. -/
def Sys2Proof.Spec.TdoneEndsTheTick : Prop :=
  ∀ (w : Issue) (s : State) (c : WordCtx),
    (laneAt s w.lane).runs = true → laneStalled s w.lane = false → s.age.stopped.getLsbD (w.lane / 16) = false →
    (laneAt s w.lane).word = some c → c.held = false → stageRuns c.core0 w.stage = true → w.last = true →
    ∃ t, exec (.tdone w) s = .next t ∧
      ((laneAt s w.lane).late = false →
        (laneAt t w.lane).st = .idle ∧ (laneAt t w.lane).core.loops = [] ∧ (laneAt t w.lane).word = none) ∧
      ((laneAt s w.lane).late = true → dispatches s w.lane = true →
        (laneAt t w.lane).st = .running ∧ (laneAt t w.lane).late = false ∧ (laneAt t w.lane).core.cidx = 0 ∧
        (laneAt t w.lane).core.loops = [] ∧ (laneAt t w.lane).core.cyc = 0)

/-- From R98, R302, R303 and R309: QPUSH of a packet whose bytes are sound, to an output port whose VC is idle: a range
of bytes that leaves data memory is lane fault RANGE, whatever its length (the model's choice, log entry 26); length 0
or above max_bytes gives BAD_LENGTH and leaves the VC as it stood; a packet for which the VC holds credits gives OK and
joins the VC with its words; without them a drop-capable VC gives DROPPED and takes nothing. An unbound port gives an
open status, one of Table 7 (the model's choice, log entry 25: the specification names none). -/
def Sys2Proof.Spec.PushesReachTheirQueue : Prop :=
  ∀ (w : Issue) (f : AluFields) (s : State) (c : WordCtx), WordOpen w s c →
    let a := (readS c.core0 f.a.toNat).toNat
    let n := (readS c.core0 f.b.toNat).toNat
    let port := f.low.toNat % 8
    let result := fun (t : State) (v : Word) =>
      readS (laneAt t w.lane).core f.d.toNat = if f.d = 0 then 0 else v
    let inside := n = 0 ∨ a + n ≤ 0x80000
    (¬ inside → exec (.qpush w f) s = .next (laneFault w.lane 3 3 c.core0.pc.toNat a s)) ∧
    (inside → lanePort s w.lane port = none → exec (.qpush w f) s =
      scalarTakes w f.d.toNat (openStatus s.free) (c.await [f.a.toNat, f.b.toNat]) (draw s)) ∧
    (∀ q k v e, inside → lanePort s w.lane port = some (q, k) →
      (tget? s.ques q).bind (fun x => x.ports[k]?) = some (v, e) → meetsUe s (laneBase w.lane + a) n = false →
      (n = 0 ∨ fget s .QUE_VC_CFG_max_bytes q v < n →
        ∃ t, exec (.qpush w f) s = .next t ∧ result t 2 ∧ vcAt t q v = vcAt s q v ∧ t.mem = s.mem) ∧
      (0 < n → n ≤ fget s .QUE_VC_CFG_max_bytes q v → vcBusy (vcAt s q v) = false → (vcAt s q v).wait = [] →
        (wordsOf n ≤ freeCredits s q v →
          ∃ t, exec (.qpush w f) s = .next t ∧ result t 0 ∧ t.mem = s.mem ∧
            (vcAt t q v).pkts = (vcAt s q v).pkts ++
              [{ len := n, left := 0, port := k, rest := (Memory.readBytes s.mem (laneBase w.lane + a) n).drop (8 * wordsOf n),
                 words := packWords (wordsOf n) [] (Memory.readBytes s.mem (laneBase w.lane + a) n) }]) ∧
        (fbit s .QUE_VC_CFG_drop_capable q v = true → freeCredits s q v < wordsOf n →
          ∃ t, exec (.qpush w f) s = .next t ∧ result t 8 ∧ vcAt t q v = vcAt s q v ∧ t.mem = s.mem)))

/-- From R24, R98, R307 and R308: QNOTE takes the oldest notice of an input port whose tick has begun (the model's
reading, log entry 26), or gives 0 where there is none, and frees the space of the packet whose notice it took before;
QWAIT goes on when such a notice is pending, and stalls its lane in the word until then, for a free number of cycles
(log entries 20 and 21): the lane takes no other operation meanwhile. A QWAIT whose stage does not run has no effect
(R92). -/
def Sys2Proof.Spec.NoticesAreTakenInOrder : Prop :=
  (∀ (w : Issue) (f : AluFields) (s : State) (c : WordCtx), WordOpen w s c →
    let core := (laneAt s w.lane).core
    let p := f.low.toNat % 8
    let x := areaAt s w.lane p
    let freed := x.used.filter (fun u => !x.taken.contains u.1)
    (noticeDue s x = none →
      exec (.qwait w f) s = .next (withLane w core { c with held := true } s) ∧
      exec (.qnote w f) s = scalarTakes w f.d.toNat 0 c (putArea w.lane p { x with used := freed, taken := [] } s)) ∧
    (∀ n, noticeDue s x = some n →
      exec (.qwait w f) s = .next (withLane w core c s) ∧
      exec (.qnote w f) s = scalarTakes w f.d.toNat n c
        (putArea w.lane p { x with used := freed, noted := x.noted.tail, taken := [n.toNat % 8192 * 16] } s)) ∧
    (∀ n t rest, x.noted = (n, t) :: rest →
      (t ≤ tickNow s → noticeDue s x = some n) ∧ (tickNow s < t → noticeDue s x = none))) ∧
  (∀ (w : Issue) (f : AluFields) (s : State) (c : WordCtx), laneGoes s w.lane = true → (laneAt s w.lane).word = some c →
    let core := (laneAt s w.lane).core
    let due := noticeDue s (areaAt s w.lane (f.low.toNat % 8))
    (stageRuns c.core0 w.stage = false → w.last = false → exec (.qwait w f) s = .next s) ∧
    (stageRuns c.core0 w.stage = true → c.held = true →
      (due = none → exec (.qwait w f) s = .next (withLane w core c s)) ∧
      (due.isSome = true → w.last = false → exec (.qwait w f) s =
        .next (withLane w core { c with held := false, stall := c.stall + Config.freeNat s.free } (draw s)))))

/-- All hold: `CnextAdvancesTheIndex`, `TdoneEndsTheTick`, `PushesReachTheirQueue`, `NoticesAreTakenInOrder`. -/
def Obligations.ListTickAndQueueOperations : Prop :=
  Sys2Proof.Spec.CnextAdvancesTheIndex ∧
  Sys2Proof.Spec.TdoneEndsTheTick ∧
  Sys2Proof.Spec.PushesReachTheirQueue ∧
  Sys2Proof.Spec.NoticesAreTakenInOrder

/-! ### Lanes: the LS slots -/

namespace Sys2Proof.Spec

open Sys2Proof.Machine

/-- An operation at work: what its access is judged by. -/
def atWork (w : Issue) (f : LsFields) (s : State) (c : WordCtx) : Work :=
  { lane := w.lane, slot := lsSlot f, core := (laneAt s w.lane).core, ctx := c, st := s }

/-- The address register that the operation names, as it finds it: LS1 finds LS0's post-modify (R86). -/
def pointer (w : Issue) (f : LsFields) (s : State) : AReg := readA (laneAt s w.lane).core f.areg.toNat

/-- The lane-local address of an access of `z` bytes (R85): the pointer, or in indexed mode `imm` elements from it, folded into
the buffer where the length is not 0. -/
def accessAt (w : Issue) (f : LsFields) (z : Nat) (s : State) : Nat :=
  accessAddr (pointer w f s) (if f.mode = 0 then f.imm.toInt * (z : Int) else 0)

/-- What the pointer becomes (R85): by M in mode 1, by `imm` elements in mode 2, as it stands in mode 0. -/
def pointerAfter (w : Issue) (f : LsFields) (z : Nat) (s : State) : AReg :=
  let a := pointer w f s
  if f.mode = 1 then { a with p := BitVec.ofNat 32 (accessAddr a a.m.toInt) }
  else if f.mode = 2 then { a with p := BitVec.ofNat 32 (accessAddr a (f.imm.toInt * (z : Int))) }
  else a

/-- An access of `z` bytes that the lane's memory serves (R74, R75, R78): its register and mode are legal, its address lies in
data memory or, where `attic` allows it, in the cluster's attic under an access table that permits it, is aligned, and for a
load every word is sound. `d` is its device address. -/
structure Served (w : Issue) (f : LsFields) (z : Nat) (attic write : Bool) (s : State) (d : Nat) : Prop where
  areg : f.areg.toNat < 12
  mode : f.mode ≠ 3
  place : laneAddr w.lane (accessAt w f z s) = some d
  aligned : accessAt w f z s % z = 0
  local_ : accessAt w f z s < 0x80000 ∨ (attic = true ∧ permitted s (2 + w.lane.val / 16) d z write = true)
  sound : write = false → badWords s d z f.check = []

/-- What an LS operation leaves beside its data: its pointer moved, every other register of the lane, every other lane and the
flags of the word as they were. -/
structure PointerMoved (w : Issue) (f : LsFields) (z : Nat) (s t : State) (c c' : WordCtx) : Prop where
  word : (laneAt t w.lane).word = some c'
  moved : readA (laneAt t w.lane).core f.areg.toNat = pointerAfter w f z s
  pointers : ∀ k, k ≠ f.areg.toNat → readA (laneAt t w.lane).core k = readA (laneAt s w.lane).core k
  operands : c'.core0 = c.core0
  vrb : (laneAt t w.lane).core.vrb = (laneAt s w.lane).core.vrb
  pc : (laneAt t w.lane).core.pc = (laneAt s w.lane).core.pc
  loops : (laneAt t w.lane).core.loops = (laneAt s w.lane).core.loops
  vectors : (laneAt t w.lane).core.v = (laneAt s w.lane).core.v
  lanes : ∀ l, l ≠ w.lane.val → laneAt t l = laneAt s l
  chans : t.chans = s.chans
  events : Ecc.correctable ∉ f.check → t.ev = s.ev

/-- The rows of the LS slots that access memory, with their access sizes, whether they move accumulators, and what their reg
field must name. -/
def accessRows : List ((Issue → LsFields → Instr) × Nat × Bool × Bool × (LsFields → Bool)) :=
  [(.ldW, 4, false, false, namesScalar), (.ldD, 8, false, false, fun _ => true), (.ldQ, 16, false, false, fun _ => true),
   (.ldWb, 4, false, false, fun _ => true), (.aload, 32, true, false, namesAcc), (.stW, 4, false, true, namesScalar),
   (.stD, 8, false, true, fun _ => true), (.stQ, 16, false, true, fun _ => true), (.stfQ, 16, false, true, fun _ => true),
   (.asave, 32, true, true, namesAcc)]

end Sys2Proof.Spec

/-- From R94, R68, R85 and R96: a load that its memory serves puts the bytes in its register (LD.W at once in a scalar
register, LD.D, LD.Q and LD.WB after 3 words in a vector register, ALOAD at once in an accumulator, patterns not
produced as zero), moves its pointer and leaves all of memory and the lane's other registers as they were. -/
def Sys2Proof.Spec.LoadsFillTheirRegister : Prop :=
  ∀ (w : Issue) (f : LsFields) (s : State) (c : WordCtx) (d : Nat), WordOpen w s c →
    let core := (laneAt s w.lane).core
    let bytes := fun z => Memory.readBytes s.mem d z
    let vector := fun (i : Instr) (z : Nat) (x : BitVec 128) => ∃ t c', exec i s = .next t ∧
      PointerMoved w f z s t c c' ∧ t.mem = s.mem ∧
      (laneAt t w.lane).core.s = core.s ∧ (laneAt t w.lane).core.acc = core.acc ∧ c'.flags = c.flags ∧
      c'.vw = c.vw ++ [{ reg := physReg c.core0.vrb f.reg.toNat, val := x, due := c.core0.issued + 3 }]
    (Served w f 4 true false s d →
      (f.reg.toNat < 32 → ∃ t c', exec (.ldW w f) s = .next t ∧ PointerMoved w f 4 s t c c' ∧ t.mem = s.mem ∧
        c'.vw = c.vw ∧ c'.flags = c.flags ∧ (laneAt t w.lane).core.acc = core.acc ∧
        (laneAt t w.lane).core.s =
          if f.reg = 0 then core.s else tset core.s f.reg.toNat (BitVec.ofNat 32 (leNat (bytes 4)))) ∧
      vector (.ldWb w f) 4 (joinW (fun _ => BitVec.ofNat 32 (leNat (bytes 4))))) ∧
    (Served w f 8 true false s d → vector (.ldD w f) 8 (BitVec.ofNat 128 (leNat (bytes 8)))) ∧
    (Served w f 16 true false s d → vector (.ldQ w f) 16 (BitVec.ofNat 128 (leNat (bytes 16)))) ∧
    (Served w f 32 false false s d → f.reg.toNat < 8 →
      ∃ t c', exec (.aload w f) s = .next t ∧ PointerMoved w f 32 s t c c' ∧ t.mem = s.mem ∧
        c'.vw = c.vw ∧ c'.flags = c.flags ∧ (laneAt t w.lane).core.s = core.s ∧
        (laneAt t w.lane).core.acc = tset core.acc f.reg.toNat (accOfBytes (bytes 32)))

/-- From R94, R63, R68 and R81: a store that its memory serves puts the bytes of its register, as the word found it, at
its address, keeps what they replace until the word ends, and changes no other byte of memory; STF.Q stores each element
as R63 gives it and raises the flags of R63. -/
def Sys2Proof.Spec.StoresWriteTheirBytesAndNoOthers : Prop :=
  ∀ (w : Issue) (f : LsFields) (s : State) (c : WordCtx) (d : Nat), WordOpen w s c → Memory.wf s.mem = true →
    let core := (laneAt s w.lane).core
    let stores := fun (i : Instr) (z : Nat) (b : Bytes) (flags : BitVec 3) => ∃ t c', exec i s = .next t ∧
      PointerMoved w f z s t c c' ∧ (laneAt t w.lane).core.s = core.s ∧ (laneAt t w.lane).core.acc = core.acc ∧
      c'.vw = c.vw ∧ c'.flags = c.flags ||| flags ∧ b.length = z ∧
      (∀ i (h : i < b.length), Memory.read t.mem (d + i) = b[i]) ∧
      (∀ p, p < d ∨ d + z ≤ p → Memory.read t.mem p = Memory.read s.mem p)
    (Served w f 4 true true s d → f.reg.toNat < 32 → stores (.stW w f) 4 (toLe 4 (readS c.core0 f.reg.toNat).toNat) 0) ∧
    (Served w f 8 true true s d → stores (.stD w f) 8 (toLe 8 (readV c.core0 f.reg).toNat) 0) ∧
    (Served w f 16 true true s d →
      stores (.stQ w f) 16 (toLe 16 (readV c.core0 f.reg).toNat) 0 ∧
      stores (.stfQ w f) 16 ((List.range 4).flatMap (fun i => toLe 4 (storeFix (elemW (readV c.core0 f.reg) i)).1.toNat))
        (satIf 4 (fun i => (storeFix (elemW (readV c.core0 f.reg) i)).2.2) |||
          nanIf 4 (fun i => (storeFix (elemW (readV c.core0 f.reg) i)).2.1))) ∧
    (Served w f 32 false true s d → f.reg.toNat < 8 →
      stores (.asave w f) 32 (bytesOfAcc (readAcc c.core0 f.reg.toNat)) 0)

/-- Both hold: `LoadsFillTheirRegister`, `StoresWriteTheirBytesAndNoOthers`. -/
def Obligations.LoadsAndStoresMoveTheirBytes : Prop :=
  Sys2Proof.Spec.LoadsFillTheirRegister ∧ Sys2Proof.Spec.StoresWriteTheirBytesAndNoOthers

/-- From R102, R74 and R75: an access outside the lane's memory is fault RANGE, of an accumulator also one outside data
memory; else an unaligned one is fault MISALIGNED; each is recorded with its address. R93 and R94: a reserved address
register or mode, or a reg field that names no register of the operation, is fault ILLEGAL. -/
def Sys2Proof.Spec.BadAccessesFaultTheLane : Prop :=
  ∀ (w : Issue) (f : LsFields) (s : State) (c : WordCtx), WordOpen w s c → ∀ r ∈ accessRows,
    let a := accessAt w f r.2.1 s
    let legal := f.areg.toNat < 12 ∧ f.mode ≠ 3 ∧ r.2.2.2.2 f = true
    let fault := fun cause addr => exec (r.1 w f) s = .next (laneFault w.lane cause (lsSlot f) c.core0.pc.toNat addr s)
    let inside := (laneAddr w.lane a).isSome = true ∧ (r.2.2.1 = true → a < 0x80000)
    (¬ legal → fault 1 0) ∧
    (legal → ¬ inside → fault 3 a) ∧
    (legal → inside → a % r.2.1 ≠ 0 → fault 2 a)

/-- From R85, R86 and R94: ADDA moves a pointer and accesses nothing (log entry 23: imm counts bytes); AWR gives a field
of an address register the value of a scalar register for the words that follow; ARD reads a field as it stands, after
LS0's post-modify; a field above 3 is fault ILLEGAL. -/
def Sys2Proof.Spec.AddressOperationsMoveAndCopyPointers : Prop :=
  ∀ (w : Issue) (f : LsFields) (s : State) (c : WordCtx), WordOpen w s c → f.areg.toNat < 12 → f.mode ≠ 3 →
    let core := (laneAt s w.lane).core
    let field := fun (a : AReg) =>
      if f.imm = 0 then a.p else if f.imm = 1 then a.b else if f.imm = 2 then a.l else a.m
    let illegal := Host.Outcome.next (ρ := Refusal) (φ := Fault) (laneFault w.lane 1 (lsSlot f) c.core0.pc.toNat 0 s)
    (∃ t c', exec (.adda w f) s = .next t ∧ PointerMoved w f 1 s t c c' ∧ t.mem = s.mem ∧
      (laneAt t w.lane).core.s = core.s ∧ (laneAt t w.lane).core.acc = core.acc) ∧
    (f.imm.toNat < 4 → f.reg.toNat < 32 →
      (∃ t c', exec (.awr w f) s = .next t ∧ (laneAt t w.lane).core = core ∧ t.mem = s.mem ∧
        (laneAt t w.lane).word = some c' ∧ c'.awr = c.awr ++ [(f.areg.toNat, f.imm.toNat, readS c.core0 f.reg.toNat)]) ∧
      (∃ t, exec (.ard w f) s = .next t ∧ t.mem = s.mem ∧
        (laneAt t w.lane).core = writeS f.reg.toNat (field (readA core f.areg.toNat)) core)) ∧
    (4 ≤ f.imm.toNat ∨ 32 ≤ f.reg.toNat → exec (.awr w f) s = illegal ∧ exec (.ard w f) s = illegal)

/-- From R86: a field that AWR writes is read by accesses of the following word: it is in the address registers once the
word has ended, the other fields of the register unchanged. -/
def Sys2Proof.Spec.AwrTakesEffectInTheNextWord : Prop :=
  ∀ (k : LaneCore) (x : WordCtx) (n : Nat) (v : Word), x.spec = [] →
    let a := readA k n
    let after := fun (j : Nat) => readA (closeWord k { x with awr := [(n, j, v)] }) n
    after 0 = { a with p := v } ∧ after 1 = { a with b := v } ∧ after 2 = { a with l := v } ∧ after 3 = { a with m := v } ∧
    (∀ j m, m ≠ n → readA (closeWord k { x with awr := [(n, j, v)] }) m = readA k m)

/-- Both hold: `AddressOperationsMoveAndCopyPointers`, `AwrTakesEffectInTheNextWord`. -/
def Obligations.AddressOperationsChangePointers : Prop :=
  Sys2Proof.Spec.AddressOperationsMoveAndCopyPointers ∧ Sys2Proof.Spec.AwrTakesEffectInTheNextWord

/-! ### Lanes: the word -/

namespace Sys2Proof.Spec

open Sys2Proof.Machine

/-- The rows of the V slot. -/
def vRows : List (Issue → VFields → Instr) :=
  [.vadd, .vsub, .vmul, .vfma, .vfms, .vmin, .vmax, .vrcp, .vrsq, .vcmpeq, .vcmplt, .vcmple, .vabs, .vneg, .vmov, .vand, .vor,
   .vxor, .vsel, .vbcast] ++
  [.aclr, .aldv, .aadd, .amac, .amsc, .amul, .ascl, .ared, .astv, .cvtHf, .cvtFh, .cvtWf, .cvtFw] ++
  [.vaddH, .vsubH, .vaddsH, .vsubsH, .vmulqH, .vmulqrH, .vabssH, .vnegsH, .vshlsH, .vshrH, .vnormH, .vaddsW, .vsubsW, .vshlsW,
   .vshrW, .vnormW, .vlmacW, .vlmscW, .vrndW]
/-- The rows of the LS slots. -/
def lsRows : List (Issue → LsFields → Instr) :=
  [.ldW, .ldD, .ldQ, .ldWb, .stW, .stD, .stQ, .stfQ, .aload, .asave, .adda, .awr, .ard]
/-- The rows of the ALU format but the queue operations. -/
def aluRows : List (Issue → AluFields → Instr) :=
  [.add, .sub, .and, .or, .xor, .shl, .shr, .sra, .mul, .seq, .slt, .sltu]
/-- The rows of the immediate format. -/
def immRows : List (Issue → ImmFields → Instr) := [.addi, .andi, .ori, .shli, .shri, .srai]
/-- The rows of the branch format. -/
def branchRows : List (Issue → BranchFields → Instr) := [.b, .bz, .bnz, .call, .ret]

/-- What is asked of every operation of a lane's word but QWAIT. -/
def ofEveryOperation (P : (Issue → Instr) → Prop) : Prop :=
  (∀ r ∈ vRows, ∀ f, P (fun w => r w f)) ∧ (∀ r ∈ lsRows, ∀ f, P (fun w => r w f)) ∧ (∀ r ∈ aluRows, ∀ f, P (fun w => r w f)) ∧
  (∀ r ∈ immRows, ∀ f, P (fun w => r w f)) ∧ (∀ r ∈ branchRows, ∀ f, P (fun w => r w f)) ∧
  (∀ f, P (fun w => .qpush w f)) ∧ (∀ f, P (fun w => .qnote w f)) ∧ (∀ f, P (fun w => .mov16 w f)) ∧
  (∀ f, P (fun w => .loop w f)) ∧ (∀ f, P (fun w => .mfs w f)) ∧ (∀ f, P (fun w => .mts w f)) ∧
  P (fun w => .cnext w) ∧ P (fun w => .tdone w)

/-- A lane can take an operation: it runs a tick, neither a push nor a QWAIT of its word stalls it, its cluster's island is not
stopped, and no refusal has cut its word. -/
def canIssue (l : Nat) (s : State) : Prop :=
  (laneAt s l).runs = true ∧ laneStalled s l = false ∧ s.age.stopped.getLsbD (l / 16) = false ∧
    (∀ c, (laneAt s l).word = some c → c.held = false) ∧ (laneAt s l).cut = false

end Sys2Proof.Spec

/-- From R81 and R102: the first operation of a word opens it and is then as in an open word: due results land and the
registers as they then stand are what the word's operations read; an uncorrectable instruction word is fault PMEM_UE, a
reserved opcode in a slot whose stage runs is fault ILLEGAL of the lowest such slot (log entry 25), and nothing of the
operation then happens. On a lane that cannot issue an operation has no effect. -/
def Sys2Proof.Spec.FirstOperationOpensTheWord : Prop :=
  ofEveryOperation (fun i => ∀ (w : Issue) (s : State), w.gap = 0 →
    (canIssue w.lane s → (laneAt s w.lane).word = none →
      let pc := (laneAt s w.lane).core.pc.toNat
      let core := landUpTo (laneAt s w.lane).core.issued (laneAt s w.lane).core
      let a := laneBase w.lane + 0x80000 + 16 * pc
      let word : BitVec 128 := BitVec.ofNat 128 (leNat (Memory.readBytes s.mem a 16))
      let bad := (reservedSlots word).find? (fun k => stageRuns core (stageOf word k))
      (w.fetch = [] → poisoned s a 16 = false →
        (bad = none →
          exec (i w) s = exec (i w) (putLane w.lane { laneAt s w.lane with core := core, word := some { core0 := core } } s)) ∧
        (∀ k, bad = some k →
          exec (i w) s = .next (laneFault w.lane 1 k pc 0 (putLane w.lane { laneAt s w.lane with core := core } s)))) ∧
      (poisoned s a 16 = true ∨ w.fetch[0]? = some Ecc.uncorrectable ∨ w.fetch[1]? = some Ecc.uncorrectable →
        ∃ t, exec (i w) s = .next (laneFault w.lane 5 0 pc 0 t) ∧ t.mem = s.mem ∧ t.lanes = s.lanes)) ∧
    ((laneAt s w.lane).cut = false → ¬ canIssue w.lane s → exec (i w) s = .next s))

/-- From R81 and R92: the last operation of a word is as any other of it, and the word then ends, unless the operation
faulted the lane, after which no operation of the word is to come; an operation whose stage does not run has no effect
of its own. -/
def Sys2Proof.Spec.LastOperationEndsTheWord : Prop :=
  ofEveryOperation (fun i => ∀ (w : Issue) (s : State) (c : WordCtx), canIssue w.lane s → (laneAt s w.lane).word = some c →
    (stageRuns c.core0 w.stage = false → w.last = false → exec (i w) s = .next s) ∧
    (w.last = true → ∃ t u, exec (i { w with last := false }) s = .next t ∧ exec (i w) s = .next u ∧
      ((laneAt t w.lane).runs = true → u = endWord w.lane t) ∧
      ((laneAt t w.lane).runs = false → u = t ∨ t = putLane w.lane { laneAt u w.lane with cut := true } u)))

/-- From R88, R90 to R92: at the end of a word the lane goes to the target of a taken branch, 2 cycles later beside the
word's stalls and waits, else on past a loop that was skipped, else into a loop that starts; a level whose end word it
is counts down, loops back while iterations are left, and a rotating one advances VRB. -/
def Sys2Proof.Spec.WordEndsGoWhereTheirLoopsSay : Prop :=
  ∀ (k : LaneCore) (x : WordCtx), x.spec = [] →
    let e := closeWord k x
    e.issued = k.issued + 1 ∧ e.flight = k.flight ++ x.vw ∧ e.afs = k.afs ||| x.flags ∧
    (∀ t, x.jump = some t → e.pc = t ∧ e.cyc = k.cyc + 3 + x.stall + x.wait ∧
      (x.call = true → e.loops = k.loops) ∧ (x.call = false → e.loops = levelsKept t k.loops)) ∧
    (x.jump = none → x.skip = none → ∀ l, x.loop = some l → e.pc = k.pc + 1 ∧ e.loops = l :: k.loops) ∧
    (x.jump = none → x.skip = none → x.loop = none →
      e.cyc = k.cyc + 1 + x.stall + x.wait ∧
      (k.loops = [] → e.pc = k.pc + 1 ∧ e.loops = [] ∧ e.vrb = k.vrb) ∧
      (∀ l ls, k.loops = l :: ls →
        (l.last ≠ k.pc → e.pc = k.pc + 1 ∧ e.loops = l :: ls ∧ e.vrb = k.vrb) ∧
        (l.last = k.pc → 1 < l.left →
          e.pc = l.body ∧ e.loops = { l with left := l.left - 1, iter := l.iter + 1 } :: ls ∧
          e.vrb = if l.rotate then k.vrb + 1 else k.vrb) ∧
        (l.last = k.pc → l.left ≤ 1 → ls = [] →
          e.pc = k.pc + 1 ∧ e.loops = [] ∧ e.vrb = if l.rotate then k.vrb + 1 else k.vrb)))

/-- All hold: `FirstOperationOpensTheWord`, `LastOperationEndsTheWord`, `WordEndsGoWhereTheirLoopsSay`. -/
def Obligations.WordsOpenAndEnd : Prop :=
  Sys2Proof.Spec.FirstOperationOpensTheWord ∧
  Sys2Proof.Spec.LastOperationEndsTheWord ∧
  Sys2Proof.Spec.WordEndsGoWhereTheirLoopsSay

/-- From R102 and R309: a lane fault takes back what the word's stores did, lands the earlier results, stops the lane
with no word open, and records cause, slot, program address and data address. -/
def Sys2Proof.Spec.LaneFaultsUndoTheirWord : Prop :=
  ∀ (l cause slot pc addr : Nat) (s : State) (c : WordCtx), (laneAt s l).word = some c → (laneAt s l).pushReg = none → l < 128 →
    cause < 16 → slot < 4 → pc < 4096 → addr < 2 ^ 32 →
    let t := laneFault l cause slot pc addr s
    (laneAt t l).st = .faulted ∧ (laneAt t l).word = none ∧ (laneAt t l).core = landAll c.core0 ∧
    t.mem = c.undo.foldl (fun m p => Memory.write m p.1 p.2) s.mem ∧
    fget t .LAN_FAULT_cause l = cause ∧ fget t .LAN_FAULT_slot l = slot ∧ fget t .LAN_FAULT_pc l = pc ∧
    fget t .LAN_FAULT_ADDR_address l = addr

/-- Both hold: `BadAccessesFaultTheLane`, `LaneFaultsUndoTheirWord`. -/
def Obligations.BadAccessesAndLaneFaults : Prop :=
  Sys2Proof.Spec.BadAccessesFaultTheLane ∧ Sys2Proof.Spec.LaneFaultsUndoTheirWord

/-! ### The host port -/

namespace Sys2Proof.Spec

open Sys2Proof.Machine

/-- The response held for the host: header, data and CRC (R376); `held` says which queues hold records. -/
def holdsResponse (t : State) (op tag status : Nat) (data : Bytes) : Prop :=
  ∃ r held, t.host.resp = some r ∧
    let head := toLe 1 op ++ toLe 1 tag ++ toLe 2 data.length ++ toLe 2 status ++ toLe 1 held ++ [0] ++ data
    held < 4 ∧ r.bytes = head ++ toLe 2 (crc16 head)

/-- A frame that the port acts on: it is alive and checks 1 to 5 pass. -/
structure FrameTaken (f : Bytes) (s : State) (op : Nat) : Prop where
  alive : portAlive s = true
  checked : frameCheck s.host.mwl f = 0
  opcode : reqOp f = op

/-- The rows that carry a frame. -/
def frameRows : List (Bytes → Instr) := [.read, .write, .writePosted, .cmdSubmit, .cplRead, .evtRead]

/-- A register field one higher, stopping at its greatest value (R12). -/
def counted (s t : State) (f : Fld) (i : Nat := 0) : Prop :=
  fget t f i = satTo (2 ^ (f.hi - f.lo + 1) - 1) (fget s f i + 1)

/-- A state whose unread response a new request has replaced: none is held, and HST_RESP counts one that was (R376). -/
def unheld (s : State) : State :=
  match s.host.resp with
  | none => s
  | some _ =>
    fset .HST_RESP_lost_responses (satTo 65535 (fget s .HST_RESP_lost_responses + 1))
      { s with host := { s.host with resp := none } }

/-- The host port after a common command: HDR mode left, and what the command changes. -/
def hostBecomes (s : State) (h : HostPort → HostPort) : Host.Outcome State Fault Refusal :=
  .next { s with host := h { s.host with hdr := false } }

end Sys2Proof.Spec

/-- From R374, R375 and R387: a frame that fails a check is counted by its failure (CRC errors apart from the rest) and
its action does not happen; one that came whole, and is no posted write, is answered with the status of the first failed
check. While the port does not answer the bus a frame has no effect. -/
def Sys2Proof.Spec.BadFramesAreCountedAndAnswered : Prop :=
  ∀ r ∈ frameRows, ∀ (f : Bytes) (s : State),
    (portAlive s = false → exec (r f) s = .next s) ∧
    (portAlive s = true → frameCheck s.host.mwl f ≠ 0 →
      ∃ t, exec (r f) s = .next t ∧
        (frameCheck s.host.mwl f = 5 → counted s t .HST_FRAME_ERR_crc_errors) ∧
        (frameCheck s.host.mwl f ≠ 5 → counted s t .HST_FRAME_ERR_format_errors) ∧
        (10 ≤ f.length → reqOp f ≠ 3 → holdsResponse t (reqOp f) (reqTag f) (frameCheck s.host.mwl f) []) ∧
        (f.length < 10 → holdsResponse t 0 0 (frameCheck s.host.mwl f) []) ∧
        t.host.cmds = s.host.cmds ∧ t.host.cpls = s.host.cpls ∧ t.host.evq = s.host.evq ∧ t.mem = s.mem)

/-- From R366 and R375 to R377: a READ that a table permits is answered with its words, lowest address first; a WRITE
that a table permits stores its words in increasing address order and is answered, a WRITE_POSTED stores them
unanswered. Refused by the tables they give DENIED, a READ with zeros for its words, a posted write in HST_POSTED where
that holds no earlier failure, and memory stays as it was. A posted write, which is answered by nothing, leaves no
response held. -/
def Sys2Proof.Spec.ReadsAndWritesPassTheTables : Prop :=
  ∀ (f : Bytes) (s : State),
    let a := reqAddr f
    let n := reqLen f
    (FrameTaken f s 1 → permitted s 0 a n false = true →
      ∃ t, exec (.read f) s = .next t ∧ holdsResponse t 1 (reqTag f) 0 (hostRead (n / 4) a s).1 ∧
        (hostRead (n / 4) a s).1.length = n ∧ t.mem = s.mem) ∧
    (FrameTaken f s 1 → permitted s 0 a n false = false →
      ∃ t, exec (.read f) s = .next t ∧ holdsResponse t 1 (reqTag f) 1 (zeros n) ∧ t.mem = s.mem) ∧
    (FrameTaken f s 2 → permitted s 0 a n true = true →
      ∃ t, exec (.write f) s = .next t ∧ holdsResponse t 2 (reqTag f) 0 [] ∧
        t.mem = (hostStore a (reqPayload f) s).mem ∧ t.rig = (hostStore a (reqPayload f) s).rig) ∧
    (FrameTaken f s 2 → permitted s 0 a n true = false →
      ∃ t, exec (.write f) s = .next t ∧ holdsResponse t 2 (reqTag f) 1 [] ∧ t.mem = s.mem) ∧
    (FrameTaken f s 3 → permitted s 0 a n true = true →
      exec (.writePosted f) s = .next (hostStore a (reqPayload f) (unheld s))) ∧
    (FrameTaken f s 3 → permitted s 0 a n true = false →
      ∃ t, exec (.writePosted f) s = .next t ∧ t.host.resp = none ∧ t.mem = s.mem ∧ fget t .HST_POSTED_valid = 1 ∧
        (fget s .HST_POSTED_valid = 0 → fget t .HST_POSTED_status = 1) ∧
        (s.host.resp.isSome = true → counted s t .HST_RESP_lost_responses))

/-- From R377 and R503: words that a WRITE stores in cellar or attic memory, and that no lane window swallows, are there
afterwards and no other byte of memory has changed. -/
def Sys2Proof.Spec.HostWritesStoreTheirBytes : Prop :=
  ∀ (a : Nat) (b : Bytes) (s : State), Memory.wf s.mem = true → 0x02000000 ≤ a → b.length % 4 = 0 →
    (∀ i, i < b.length → laneHole (a + i / 4 * 4) = false) →
    (∀ i (h : i < b.length), Memory.read (hostStore a b s).mem (a + i) = b[i]) ∧
    (∀ p, p < a ∨ a + b.length ≤ p → Memory.read (hostStore a b s).mem p = Memory.read s.mem p)

/-- Both hold: `ReadsAndWritesPassTheTables`, `HostWritesStoreTheirBytes`. -/
def Obligations.HostFramesReadAndWrite : Prop :=
  Sys2Proof.Spec.ReadsAndWritesPassTheTables ∧ Sys2Proof.Spec.HostWritesStoreTheirBytes

/-- From R378, R379 and R382: CMD_SUBMIT queues its descriptor under the next sequence number, which the response
returns, or answers QUEUE_FULL with 256 commands queued or completions unread; CPL_READ and EVT_READ answer with the
oldest records that fit whole, which stay held until the response is read, or with BAD_LENGTH where not even one fits.
-/
def Sys2Proof.Spec.QueueFramesSubmitAndFetch : Prop :=
  ∀ (f : Bytes) (s : State),
    (FrameTaken f s 0x10 → 256 ≤ s.host.cmds.length + s.host.cpls.length →
      ∃ t, exec (.cmdSubmit f) s = .next t ∧ holdsResponse t 0x10 (reqTag f) 6 [] ∧ t.host.cmds = s.host.cmds ∧
        t.host.nextSeq = s.host.nextSeq) ∧
    (FrameTaken f s 0x10 → s.host.cmds.length + s.host.cpls.length < 256 →
      cmdReserved (cmdOp (reqPayload f)) = false → (∀ c ∈ s.host.cmds, cmdReserved (cmdOp c.desc) = false) →
      ∃ t, exec (.cmdSubmit f) s = .next t ∧ holdsResponse t 0x10 (reqTag f) 0 (toLe 4 s.host.nextSeq) ∧
        t.host.cmds = s.host.cmds ++ [{ seq := s.host.nextSeq, desc := reqPayload f }] ∧
        t.host.nextSeq = (s.host.nextSeq + 1) % 2 ^ 32) ∧
    (FrameTaken f s 0x11 →
      ∃ t, exec (.cplRead f) s = .next t ∧ t.host.cpls = s.host.cpls ∧ t.host.cmds = s.host.cmds ∧
        (∀ r rest, s.host.cpls = r :: rest → 0 < reqLen f → reqLen f < r.length → holdsResponse t 0x11 (reqTag f) 2 []) ∧
        (∀ r rest, s.host.cpls = r :: rest → r.length ≤ reqLen f →
          holdsResponse t 0x11 (reqTag f) 0 (fitting (reqLen f) s.host.cpls).flatten) ∧
        (s.host.cpls = [] → holdsResponse t 0x11 (reqTag f) 0 [])) ∧
    (FrameTaken f s 0x12 →
      ∃ t, exec (.evtRead f) s = .next t ∧ t.host.evq = s.host.evq ∧ t.host.cmds = s.host.cmds ∧
        (∀ r rest, s.host.evq = r :: rest → 0 < reqLen f → reqLen f < r.length → holdsResponse t 0x12 (reqTag f) 2 []) ∧
        (∀ r rest, s.host.evq = r :: rest → r.length ≤ reqLen f →
          holdsResponse t 0x12 (reqTag f) 0 (fitting (reqLen f) s.host.evq).flatten) ∧
        (s.host.evq = [] → holdsResponse t 0x12 (reqTag f) 0 []))

/-- Both hold: `BadFramesAreCountedAndAnswered`, `QueueFramesSubmitAndFetch`. -/
def Obligations.HostFramesAreCheckedAndQueued : Prop :=
  Sys2Proof.Spec.BadFramesAreCountedAndAnswered ∧ Sys2Proof.Spec.QueueFramesSubmitAndFetch

/-- From R372, R373, R376, R379 and R382: a private read that clocks all of the held response, and no more than MRL
allows, takes it and the records it carries leave their queue; one that ends early leaves it held. The host reads the
response's bytes as far as it clocks and MRL goes, and over I2C, which a target without a dynamic address speaks, 0xFF
after them. With no response held the read is counted. -/
def Obligations.ReadingTheResponseReleasesItsRecords : Prop :=
  ∀ (clocked : Nat) (s : State), portAlive s = true →
    (s.host.resp = none → ∃ t, exec (.responseRead clocked) s = .next t ∧ counted s t .HST_RESP_not_ready ∧
      t.host = s.host) ∧
    (∀ r, s.host.resp = some r →
      let bytes := r.bytes.take (min clocked s.host.mrl)
      let read := bytes ++ if s.host.dyn.isNone then List.replicate (clocked - bytes.length) 0xFF else []
      (min clocked s.host.mrl < r.bytes.length →
        exec (.responseRead clocked) s = .next { s with host := { s.host with got := read } }) ∧
      (r.bytes.length ≤ clocked → r.bytes.length ≤ s.host.mrl →
        ∃ t, exec (.responseRead clocked) s = .next t ∧ t.host.resp = none ∧ t.host.got = read ∧ t.host.cmds = s.host.cmds ∧
          t.host.cpls = (if r.kind = 1 then s.host.cpls.drop r.take else s.host.cpls) ∧
          t.host.evq = (if r.kind = 2 then s.host.evq.drop r.take else s.host.evq)))

/-- From R372, R373 and R388: the common commands that set something. A dynamic address comes from ENTDAA, SETDASA and
SETAASA where there is none, from SETNEWDA always, and goes with RSTDAA; ENEC and DISEC switch IBIs; SETMWL and SETMRL
take 10 to 4,106; ENTHDR0 enters HDR-DDR, and ENTAS0 to ENTAS3 change nothing. Each leaves HDR mode (the model's choice,
log entry 101). -/
def Sys2Proof.Spec.CommonCommandsSetTheTarget : Prop :=
  ∀ s : State, inReset s = false →
    let h := s.host
    (exec .rstdaa s = hostBecomes s (fun h => { h with dyn := none })) ∧
    (exec .enthdr0 s = .next { s with host := { h with hdr := true } }) ∧
    (exec .entas0 s = hostBecomes s id ∧ exec .entas1 s = hostBecomes s id ∧ exec .entas2 s = hostBecomes s id ∧
      exec .entas3 s = hostBecomes s id) ∧
    (exec .setaasa s = hostBecomes s (fun k => { k with dyn := some (h.dyn.getD 0x5C) })) ∧
    (s.mast.down = false → ∀ addr static : BitVec 7,
      exec (.entdaa addr true) s = hostBecomes s (fun k => { k with dyn := some (h.dyn.getD addr) }) ∧
      exec (.entdaa addr false) s = hostBecomes s id ∧
      exec (.setdasa 0x5C addr) s = hostBecomes s (fun k => { k with dyn := some (h.dyn.getD addr) }) ∧
      (static ≠ 0x5C → exec (.setdasa static addr) s = hostBecomes s id)) ∧
    (s.mast.down = true → ∀ addr static : BitVec 7, ∀ won : Bool,
      exec (.entdaa addr won) s = .next s ∧ exec (.setdasa static addr) s = .next s) ∧
    (∀ direct : Bool, (direct = true → s.mast.down = false ∧ h.dyn.isSome = true) → ∀ e : Byte,
      (e.getLsbD 0 = false → exec (.enec direct e) s = hostBecomes s id ∧ exec (.disec direct e) s = hostBecomes s id) ∧
      (e.getLsbD 0 = true →
        exec (.disec direct e) s = hostBecomes s (fun k => { k with enint := false, ibi := [] }) ∧
        exec (.enec direct e) s = hostBecomes s (fun k =>
          { k with enint := true, ibi := if h.enint then h.ibi else askPending s }))) ∧
    (s.mast.down = false → h.dyn.isSome = true → ∀ addr : BitVec 7,
      exec (.setnewda addr) s = hostBecomes s (fun k => { k with dyn := some addr })) ∧
    (∀ direct : Bool, (direct = true → s.mast.down = false ∧ h.dyn.isSome = true) → ∀ len : BitVec 16,
      let ok := 10 ≤ len.toNat ∧ len.toNat ≤ 4106
      exec (.setmwl { direct := direct, bytes := len }) s =
        hostBecomes s (fun k => if ok then { k with mwl := len.toNat } else k) ∧
      exec (.setmrl { direct := direct, bytes := len }) s =
        hostBecomes s (fun k => if ok then { k with mrl := len.toNat } else k))

/-- From R371, R373 and R384: the direct GET commands answer the provisional ID, BCR 0x26, DCR 0x00, the number of
pending groups up to 15, the two length limits, no speed limits, and HDR mode 0; the order of the bytes and GETCAPS are
the model's choice (log entry 101). A target without a dynamic address answers none. -/
def Sys2Proof.Spec.CommonCommandsGetTheTarget : Prop :=
  ∀ s : State, inReset s = false → s.mast.down = false →
    let gives := fun (i : Instr) (b : Bytes) => exec i s = hostBecomes s (fun k => { k with ccc := b })
    let gets : List Instr := [.getpid, .getbcr, .getdcr, .getstatus, .getmwl, .getmrl, .getmxds, .getcaps]
    (s.host.dyn.isSome = true →
      gives .getpid ((toLe 4 s.host.pid.toNat ++ toLe 2 (fget s .HST_PID_HI_pid_hi)).reverse) ∧
      gives .getbcr [0x26] ∧ gives .getdcr [0x00] ∧
      gives .getstatus [BitVec.ofNat 8 (min 15 ((List.range 16).filter (groupPending s)).length), 0] ∧
      gives .getmwl (toBe 2 s.host.mwl) ∧ gives .getmrl (toBe 2 s.host.mrl) ∧ gives .getmxds [0, 0] ∧
      gives .getcaps [1, 0]) ∧
    (s.host.dyn = none → ∀ i ∈ gets, exec i s = .next s)

/-- Both hold: `CommonCommandsSetTheTarget`, `CommonCommandsGetTheTarget`. -/
def Obligations.CommonCommandsSetAndGet : Prop :=
  Sys2Proof.Spec.CommonCommandsSetTheTarget ∧ Sys2Proof.Spec.CommonCommandsGetTheTarget

/-- From R384: a free bus lets the lowest requested group ask for an IBI; an accepted request is answered with its
group, a refused one stays. -/
def Sys2Proof.Spec.BusAvailableServesTheLowestGroup : Prop :=
  ∀ (s : State) (g : Nat) (rest : List Nat), s.host.ibi = g :: rest → portAlive s = true → s.host.enint = true →
    s.host.dyn.isSome = true →
    exec (.busAvailable true) s = .next { s with host := { s.host with ibi := rest, ibiSent := some g } } ∧
    exec (.busAvailable false) s = .next s

/-- From R382, R406, R408 and R409: the oldest raised event is posted with the next sequence number; its record goes to
the host event queue unless its source is masked, and one that finds 1,024 records there is counted lost. After a loss
event 7 is raised. -/
def Sys2Proof.Spec.EventsArePostedInOrder : Prop :=
  ∀ (s : State) (e : Raised) (rest : List Raised), s.ev.pend = e :: rest → s.mast.down = false →
    ∃ t, exec .eventPost s = .next t ∧ t.ev.seq = s.ev.seq + 1 ∧
      (s.ev.lost = 0 → t.ev.pend = rest) ∧
      (s.ev.lost ≠ 0 → rest.length < 256 → t.ev.lost = 0 ∧ ∃ x, t.ev.pend = rest ++ [x] ∧ x.src = 7) ∧
      (maskedSource s e.src = true → t.host.evq = s.host.evq) ∧
      (maskedSource s e.src = false → s.host.evq.length < 1024 → t.host.evq = s.host.evq ++ [eventRecord s e]) ∧
      (maskedSource s e.src = false → 1024 ≤ s.host.evq.length →
        t.host.evq = s.host.evq ∧ counted s t .HST_EVQ_overflow ∧ t.host.evLost = s.host.evLost + 1)

/-- Both hold: `EventsArePostedInOrder`, `BusAvailableServesTheLowestGroup`. -/
def Obligations.EventsReachTheHost : Prop :=
  Sys2Proof.Spec.EventsArePostedInOrder ∧ Sys2Proof.Spec.BusAvailableServesTheLowestGroup

/-! ### Commands of the command queue -/

namespace Sys2Proof.Spec

open Sys2Proof.Machine

/-- The command `c`, of opcode `op`, is at the head of the queue and is the next that the mast controller executes; the commands
behind it wait and are none of a reserved opcode. -/
structure CommandNext (op : Nat) (c : Cmd) (rest : List Cmd) (s : State) : Prop where
  fw : s.mast.fw = true
  up : s.mast.down = false
  queue : s.host.cmds = c :: rest
  fresh : c.taken = false ∧ c.done = none
  opcode : cmdOp c.desc = op
  others : ∀ k ∈ rest, k.seq ≠ c.seq ∧ k.taken = false ∧ k.done = none ∧ cmdReserved (cmdOp k.desc) = false

/-- The command has completed with a status and its completion record is the last one held for the host. -/
def completed (s t : State) (c : Cmd) (rest : List Cmd) (status : Nat) : Prop :=
  t.host.cmds = rest ∧ ∃ data, t.host.cpls = s.host.cpls ++ [cplRecord c.desc c.seq status data]

/-- The command has been taken, and completes later. -/
def underWay (s t : State) (c : Cmd) (rest : List Cmd) : Prop :=
  t.host.cmds = { c with taken := true } :: rest ∧ t.host.cpls = s.host.cpls

/-- The command's target is the entry `h`: 4 bytes of payload name it, or its channel, and the device takes channel commands. -/
def aims (c : Cmd) (s : State) (h : Nat) : Prop := targetOr c true s = .inr h

/-- Where the flags of a channel stand in the channel list that a lane works: at its place in the list, 16 bytes an entry, in
the attic of the lane's cluster at the address that the list's register points to (R100). -/
def lastFlag (s : State) (lane n : Nat) : Nat :=
  let x := laneAt s lane
  atticBase (clusterOf lane) + (x.core.clist.toNat - 0x400000) + 16 * x.list.idxOf n + 2

/-- The rows of the command queue with their opcodes. -/
def commandRows : List (Instr × Nat) :=
  [(.sessionInsert, 0x20), (.sessionDelete, 0x21), (.chanAdmit, 0x22), (.chanModify, 0x23), (.chanPark, 0x24),
   (.chanMigrate, 0x25), (.chanQuery, 0x26), (.chanClose, 0x27), (.statsRead, 0x30), (.pairSwitch, 0x40), (.pairHold, 0x41),
   (.pairResync, 0x42), (.pairQuery, 0x43), (.planRun, 0x50), (.planRecordSet, 0x51), (.reefEnter, 0x52), (.reefExit, 0x53),
   (.wakeOnly, 0x54)]

end Sys2Proof.Spec

/-- From R379 and R403: commands execute one at a time in the order submitted: a command's row does nothing unless the
first command not yet taken has its opcode, and nothing while the firmware does not run or the mast island is in reset.
-/
def Sys2Proof.Spec.CommandsRunInTheirOrder : Prop :=
  ∀ r ∈ commandRows, ∀ s : State,
    (s.mast.fw = false ∨ s.mast.down = true → exec r.1 s = .next s) ∧
    (s.host.cmds.find? (fun c => !c.taken) = none → exec r.1 s = .next s) ∧
    (∀ c, s.host.cmds.find? (fun c => !c.taken) = some c → cmdOp c.desc ≠ r.2 → exec r.1 s = .next s)

/-- From R49 and R428: on a standby, and on a device that is listening, the commands that change sessions and channels
complete with STANDBY and change no entry and no channel. -/
def Sys2Proof.Spec.StandbyRefusesChannelCommands : Prop :=
  ∀ (s : State) (c : Cmd) (rest : List Cmd), s.pair.role = .standby ∨ s.pair.role = .listening → cmdForm c.desc = true →
    let p := cmdPayload c.desc
    let refused := fun i : Instr => ∃ t, exec i s = .next t ∧ completed s t c rest 0x12 ∧ t.sess = s.sess ∧ t.chans = s.chans
    (targetOfWord s (leAt p 0 4) ≠ .bad → p.length = 4 →
      (CommandNext 0x21 c rest s → refused .sessionDelete) ∧
      (CommandNext 0x24 c rest s → refused .chanPark) ∧
      (CommandNext 0x27 c rest s → refused .chanClose)) ∧
    (CommandNext 0x23 c rest s → targetOfWord s (leAt p 0 4) ≠ .bad → leAt p 4 2 ≤ 24 → p.length = 72 + 8 * leAt p 4 2 →
      refused .chanModify) ∧
    (CommandNext 0x25 c rest s → targetOfWord s (leAt p 0 4) ≠ .bad → p.length = 5 → leAt p 4 1 < 128 ∨ leAt p 4 1 = 0xFF →
      refused .chanMigrate) ∧
    (CommandNext 0x22 c rest s → leAt p 12 2 ≤ 24 → p.length = 16 + 8 * leAt p 12 2 → leAt p 0 4 < 2 ^ 20 →
      leAt p 4 4 < 2 ^ 20 ∨ leAt p 4 4 = 0xFFFFFFFF → leAt p 0 4 ≠ leAt p 4 4 → leAt p 8 2 < 8192 ∨ leAt p 8 2 = 0xFFFF →
      leAt p 10 1 ≠ 0 → refused .chanAdmit) ∧
    (let key := p.take 64
     let ps := parseParams (leAt p 64 2) (p.drop 68)
     CommandNext 0x20 c rest s → leAt p 64 2 ≤ 24 → p.length = 68 + 8 * leAt p 64 2 → keyOk s key = true →
      paramForm ps 1 = true → paramsOk key (mergeParams key [] (ofLeg 0 ps)) (ofLeg 0 ps) = true → refused .sessionInsert)

/-- Both hold: `CommandsRunInTheirOrder`, `StandbyRefusesChannelCommands`. -/
def Obligations.CommandsRunInTheirOrderOrAreRefused : Prop :=
  Sys2Proof.Spec.CommandsRunInTheirOrder ∧ Sys2Proof.Spec.StandbyRefusesChannelCommands

/-- From R30, R45 and R50: SESSION_INSERT of a new key takes the lowest free handle for an entry that is parked and
holds the key; a key that an entry holds gives KEY_EXISTS, and a full table gives TABLE_FULL, with nothing inserted.
SESSION_DELETE frees a parked entry, and gives BAD_STATE of an active one. -/
def Obligations.SessionCommandsKeepTheTable : Prop :=
  ∀ (s : State) (c : Cmd) (rest : List Cmd),
    let p := cmdPayload c.desc
    let key := p.take 64
    let n := leAt p 64 2
    let new := ofLeg 0 (parseParams n (p.drop 68))
    (CommandNext 0x20 c rest s → n ≤ 24 → p.length = 68 + 8 * n → cmdForm c.desc = true → keyOk s key = true →
      paramForm (parseParams n (p.drop 68)) 1 = true → paramsOk key (mergeParams key [] new) new = true →
      refusesChannels s = false →
      (∀ h, findKey s key = some h →
        ∃ t, exec .sessionInsert s = .next t ∧ completed s t c rest 0x0C ∧ t.sess = s.sess ∧ t.ev = s.ev) ∧
      (findKey s key = none → 1048576 ≤ s.sess.length →
        ∃ t, exec .sessionInsert s = .next t ∧ completed s t c rest 0x0B ∧ t.sess = s.sess ∧
          counted s t .MST_ADMIT_FAILS_table_full) ∧
      (findKey s key = none → s.sess.length < 1048576 →
        ∃ t e, exec .sessionInsert s = .next t ∧ completed s t c rest 0 ∧
          t.sess = tset s.sess (lowestFree 0 s.sess) e ∧ e.key = key ∧ e.st = .parked ∧ e.partner = none)) ∧
    (∀ h, CommandNext 0x21 c rest s → p.length = 4 → aims c s h → chanBusy s h = false →
      ((sessAt s h).st ≠ .parked →
        ∃ t, exec .sessionDelete s = .next t ∧ completed s t c rest 0x0F ∧ t.sess = s.sess) ∧
      ((sessAt s h).st = .parked → (sessAt s h).partner = none →
        ∃ t, exec .sessionDelete s = .next t ∧ completed s t c rest 0 ∧ t.sess = tdel s.sess h))

/-- From R33, R36, R37, R44 and R48: CHAN_ADMIT of two entries that pass its checks waits for the tick boundary. There
it links them, makes them ACTIVE, and gives them the channel number asked for, or the lowest free one, on a lane that
takes the cost under the budgets of the activation tick; with the number taken or no lane it makes no channel, and the
refusal is counted. That the placement is decided at the boundary is the model's reading (log entry 110). -/
def Obligations.AdmissionPlacesAChannel : Prop :=
  (∀ (s : State) (c : Cmd) (rest : List Cmd) (b : Nat) (m : Admit),
    let p := cmdPayload c.desc
    let a := leAt p 0 4
    let o := leAt p 4 4
    let want := leAt p 8 2
    let n := leAt p 12 2
    CommandNext 0x22 c rest s → n ≤ 24 → p.length = 16 + 8 * n → cmdForm c.desc = true → a < 2 ^ 20 →
    (o < 2 ^ 20 ∧ (tget? s.sess o).isSome = true ∧ b = o ∨ o = 0xFFFFFFFF ∧ (sessAt s a).partner = some b) → b ≠ a →
    (want < 8192 ∨ want = 0xFFFF) → leAt p 10 1 ≠ 0 → refusesChannels s = false → (tget? s.sess a).isSome = true →
    (tget? s.sess b).isSome = true →
    chanBusy s a = false → chanBusy s b = false → checkAdmit s a b (parseParams n (p.drop 16)) = .inr m →
    ∃ t, exec .chanAdmit s = .next t ∧ underWay s t c rest ∧ t.sess = s.sess ∧ t.chans = s.chans ∧
      t.mast.effects = s.mast.effects ++ [.admission
        { acc := a, oth := b, want := want, mask := leAt p 10 1, ps := parseParams n (p.drop 16), seq := c.seq }]) ∧
  (∀ (s : State) (r : AdmitReq) (m : Admit), s.mast.effects = [.admission r] → r.acc ≠ r.oth →
    (tget? s.sess r.acc).isSome = true → (tget? s.sess r.oth).isSome = true → checkAdmit s r.acc r.oth r.ps = .inr m →
    (param (sessAt s m.acc).key m.pa 0x0101 ≠ 1 ∨ keepCount s < 512) →
    let num := if r.want = 0xFFFF then lowestFree 0 s.chans else r.want
    let lane := place (withNextClocks s) (openClusters s r.mask) m.cost none
    let t := takeEffects [] s
    (8192 ≤ s.chans.length ∨ (tget? s.chans num).isSome = true ∨ lane = none →
      t.chans = s.chans ∧ t.sess = s.sess ∧ t.mast.effects = [] ∧ counted s t .MST_ADMIT_FAILS_no_context) ∧
    (∀ l, s.chans.length < 8192 → tget? s.chans num = none → lane = some l →
      t.mast.effects = [] ∧ (∃ ch, tget? t.chans num = some ch ∧ ch.acc = m.acc ∧ ch.oth = m.oth ∧ ch.lane = l ∧
        ch.cost = m.cost ∧ ch.live = true ∧ ch.since = tickNow s) ∧
      ∀ h ∈ [r.acc, r.oth], (sessAt t h).chan = some num ∧ (sessAt t h).st = .active ∧
        (sessAt t h).partner = some (if h = r.acc then r.oth else r.acc)))

/-- From R38 to R40, R50 and R100: on an active channel CHAN_PARK and CHAN_CLOSE wait for their boundary, bit 2 of the
flags of the channel's entry in its lane's list of the tick in progress set, and CHAN_MIGRATE starts a move to a lane
that takes the cost; without one it gives NO_CONTEXT, and to its own lane OK at once. On an entry with no channel
CHAN_PARK and CHAN_MIGRATE give BAD_STATE and CHAN_CLOSE frees it. CHAN_QUERY answers the entry's data. -/
def Obligations.ChannelCommandsActOnTheirChannel : Prop :=
  ∀ (s : State) (c : Cmd) (rest : List Cmd) (h : Nat), aims c s h →
    let p := cmdPayload c.desc
    let lane := leAt p 4 1
    let lastTick := fun (n : Nat) (ch : Channel) (t : State) =>
      (n ∉ (laneAt s ch.worker).list → t.mem = s.mem) ∧
      (n ∈ (laneAt s ch.worker).list → t.mem = Memory.writeBytes s.mem (lastFlag s ch.worker n)
        [Memory.read s.mem (lastFlag s ch.worker n) ||| 4])
    (CommandNext 0x26 c rest s → p.length = 4 → chanBusy s h = false →
      ∃ t, exec .chanQuery s = .next t ∧ t.host.cmds = rest ∧
        t.host.cpls = s.host.cpls ++ [cplRecord c.desc c.seq 0 (chanData s h 0)] ∧ t.sess = s.sess ∧ t.chans = s.chans) ∧
    (chanBusy s h = false → activeChan s h = none →
      (CommandNext 0x24 c rest s → p.length = 4 →
        ∃ t, exec .chanPark s = .next t ∧ completed s t c rest 0x0F ∧ t.sess = s.sess ∧ t.chans = s.chans) ∧
      (CommandNext 0x25 c rest s → p.length = 5 → lane < 128 ∨ lane = 0xFF →
        ∃ t, exec .chanMigrate s = .next t ∧ completed s t c rest 0x0F ∧ t.sess = s.sess ∧ t.chans = s.chans) ∧
      (CommandNext 0x27 c rest s → p.length = 4 → (sessAt s h).partner = none →
        ∃ t, exec .chanClose s = .next t ∧ completed s t c rest 0 ∧ t.sess = tdel s.sess h)) ∧
    (∀ n ch, chanBusy s h = false → activeChan s h = some n → tget? s.chans n = some ch →
      (CommandNext 0x24 c rest s → p.length = 4 →
        ∃ t, exec .chanPark s = .next t ∧ underWay s t c rest ∧ t.sess = s.sess ∧
          t.mast.effects = s.mast.effects ++ [.park n] ∧ lastTick n ch t ∧
          t.chans = tset s.chans n { ch with park := some { seq := some c.seq, addressed := h } }) ∧
      (CommandNext 0x27 c rest s → p.length = 4 →
        ∃ t, exec .chanClose s = .next t ∧ underWay s t c rest ∧ t.sess = s.sess ∧
          t.mast.effects = s.mast.effects ++ [.park n] ∧ lastTick n ch t ∧
          t.chans = tset s.chans n { ch with park := some { close := true, seq := some c.seq, addressed := h } }) ∧
      (CommandNext 0x25 c rest s → p.length = 5 →
        (lane < 128 → lane = ch.lane → ∃ t, exec .chanMigrate s = .next t ∧ completed s t c rest 0 ∧ t.chans = s.chans) ∧
        (lane < 128 → lane ≠ ch.lane → laneTakes s lane ch.cost = false →
          ∃ t, exec .chanMigrate s = .next t ∧ completed s t c rest 0x0A ∧ t.chans = s.chans) ∧
        (lane < 128 → lane ≠ ch.lane → laneTakes s lane ch.cost = true →
          ∃ t, exec .chanMigrate s = .next t ∧ underWay s t c rest ∧
            t.chans = tset s.chans n { ch with move := some { target := lane, cost := ch.cost, cmd := some c.seq, addressed := h } })))

/-- From R38, R290, R380 and R381: CHAN_MODIFY that passes its checks waits for its boundary, with an action time it is
armed, or LATE where the time has passed; STATS_READ of known statistics of an active channel waits for its boundary. -/
def Obligations.ModifiesAndReadsWaitForTheirBoundary : Prop :=
  ∀ (s : State) (c : Cmd) (rest : List Cmd) (h : Nat),
    let p := cmdPayload c.desc
    let n := leAt p 4 2
    (CommandNext 0x23 c rest s → aims c s h → n ≤ 24 → p.length = 72 + 8 * n →
      (cmdTimed c.desc = true → cmdTime c.desc ≤ nowNs s →
        ∃ t, exec .chanModify s = .next t ∧ completed s t c rest 7 ∧ t.host.armed = s.host.armed ∧ t.sess = s.sess) ∧
      (cmdTimed c.desc = true → nowNs s < cmdTime c.desc →
        ∃ t a, exec .chanModify s = .next t ∧ completed s t c rest 0 ∧ t.host.armed = s.host.armed ++ [a] ∧
          a.seq = c.seq ∧ a.time = cmdTime c.desc ∧ a.handle = some h ∧ t.sess = s.sess) ∧
      (cmdTimed c.desc = false → chanBusy s h = false → ∀ st,
        checkModify s h (modReqOf c h false).key (modReqOf c h false).ps = .inl st →
        ∃ t, exec .chanModify s = .next t ∧ completed s t c rest st ∧ t.sess = s.sess ∧ t.chans = s.chans) ∧
      (cmdTimed c.desc = false → chanBusy s h = false → ∀ m,
        checkModify s h (modReqOf c h false).key (modReqOf c h false).ps = .inr m →
        ∃ t, exec .chanModify s = .next t ∧ underWay s t c rest ∧ t.sess = s.sess ∧
          t.mast.effects = s.mast.effects ++ [.change (modReqOf c h false)])) ∧
    (∀ ch, CommandNext 0x30 c rest s → targetOfWord s (leAt p 0 4) = .entry h → cmdForm c.desc = true → p.length = 8 →
      leAt p 6 2 ≤ 64 → (List.range (leAt p 6 2)).all (fun i => statKnown (leAt p 4 2 + i)) = true → chanBusy s h = false →
      (activeChan s h = some ch → ∃ t, exec .statsRead s = .next t ∧ underWay s t c rest ∧
        t.mast.reads = s.mast.reads ++ [(c.seq, h, leAt p 4 2, leAt p 6 2)]) ∧
      (activeChan s h = none → ∃ t, exec .statsRead s = .next t ∧ completed s t c rest 0x0D ∧ t.mast.reads = s.mast.reads))

/-- From R380, R438 and R439: PAIR_SWITCH makes a protected active device yield and waits for the yield's end behind
those that wait for it already, gives STANDBY on one that is not active and BAD_STATE on an unpaired or unprotected one;
PAIR_HOLD sets or clears the hold; PAIR_RESYNC drops protection on the active device; PAIR_QUERY answers and changes
nothing else. -/
def Obligations.PairCommandsActOnThePair : Prop :=
  ∀ (s : State) (c : Cmd) (rest : List Cmd), cmdForm c.desc = true →
    let p := cmdPayload c.desc
    (CommandNext 0x40 c rest s → p = [] → cmdTimed c.desc = false →
      (s.pair.role = .unpaired → ∃ t, exec .pairSwitch s = .next t ∧ completed s t c rest 0x0F ∧ t.pair = s.pair) ∧
      (s.pair.role ≠ .unpaired → s.pair.role ≠ .active →
        ∃ t, exec .pairSwitch s = .next t ∧ completed s t c rest 0x12 ∧ t.pair = s.pair) ∧
      (s.pair.role = .active → s.pair.sync ≠ 2 →
        ∃ t, exec .pairSwitch s = .next t ∧ completed s t c rest 0x0F ∧ t.pair = s.pair) ∧
      (s.pair.role = .active → s.pair.sync = 2 → s.pair.yielding = false →
        ∃ t, exec .pairSwitch s = .next t ∧ underWay s t c rest ∧ t.pair.yielding = true ∧
          t.pair.yieldCmds = s.pair.yieldCmds ++ [(c.seq, false)])) ∧
    (CommandNext 0x41 c rest s → p.length = 4 → (slice p 1 3) = [0, 0, 0] →
      (leAt p 0 1 ≤ 1 → ∃ t, exec .pairHold s = .next t ∧ completed s t c rest 0 ∧
        t.pair = { s.pair with held := leAt p 0 1 == 1 }) ∧
      (1 < leAt p 0 1 → ∃ t, exec .pairHold s = .next t ∧ completed s t c rest 3 ∧ t.pair = s.pair)) ∧
    (CommandNext 0x42 c rest s → p = [] →
      (s.pair.role = .active → s.pair.seen = false →
        ∃ t, exec .pairResync s = .next t ∧ completed s t c rest 0 ∧ t.pair.sync = 0) ∧
      (s.pair.role ≠ .active → ∃ t, exec .pairResync s = .next t ∧ completed s t c rest 0x12 ∧ t.pair = s.pair)) ∧
    (CommandNext 0x43 c rest s → p = [] →
      ∃ t, exec .pairQuery s = .next t ∧ t.host.cmds = rest ∧ t.pair = s.pair ∧
        t.host.cpls = s.host.cpls ++ [cplRecord c.desc c.seq 0 (pairData s 0)])

/-- From R447, R453, R454, R458, R459, R461 and R462: PLAN_RUN starts a run, or gives BUSY while one is in progress;
PLAN_RECORD_SET refuses a malformed record with BAD_PARAM and takes hours and equivalent hours from a good one;
REEF_ENTER asks for the next boundary and REEF_EXIT starts its run, each BAD_STATE in the other mode; WAKE_ONLY waits
for the next boundary where a wake condition is enabled, else BAD_STATE. -/
def Obligations.AgeCommandsPlanReefAndSleep : Prop :=
  ∀ (s : State) (c : Cmd) (rest : List Cmd), cmdForm c.desc = true →
    let b := cmdPayload c.desc
    (CommandNext 0x50 c rest s → b = [] → cmdTimed c.desc = false →
      (s.age.run.isSome = true → ∃ t, exec .planRun s = .next t ∧ completed s t c rest 9 ∧ t.age = s.age) ∧
      (s.age.run = none → ∃ t r, exec .planRun s = .next t ∧ underWay s t c rest ∧ t.age.run = some r ∧
        r.cmd = some c.seq ∧ r.exit_ = none ∧ t.age.lastPlan = some (tickNow s))) ∧
    (CommandNext 0x51 c rest s →
      (s.age.run.isSome = true → ∃ t, exec .planRecordSet s = .next t ∧ completed s t c rest 9 ∧ t.age = s.age) ∧
      (s.age.run = none → s.age.steps = none → ageRecordBad s b = true →
        ∃ t, exec .planRecordSet s = .next t ∧ completed s t c rest 3 ∧ t.age = s.age) ∧
      (s.age.run = none → s.age.steps = none → ageRecordBad s b = false →
        ∃ t, exec .planRecordSet s = .next t ∧ completed s t c rest 0 ∧ t.age.hoursBase = leAt b 16 4 ∧
          t.age.he = BitVec.ofNat 32 (leAt b 20 4))) ∧
    (CommandNext 0x52 c rest s → b = [] →
      (s.age.reefed = true → ∃ t, exec .reefEnter s = .next t ∧ completed s t c rest 0x0F ∧ t.age = s.age) ∧
      (s.age.reefed = false → ∃ t, exec .reefEnter s = .next t ∧ underWay s t c rest ∧
        t.age = { s.age with askCmds := s.age.askCmds ++ [c.seq], ask := s.age.ask ||| 16 })) ∧
    (CommandNext 0x53 c rest s → b = [] →
      (s.age.reefed = false → ∃ t, exec .reefExit s = .next t ∧ completed s t c rest 0x0F ∧ t.age = s.age) ∧
      (s.age.reefed = true → s.age.run = none → s.age.leave = none → s.age.entering = false → s.age.steps = none →
        ∃ t r, exec .reefExit s = .next t ∧ underWay s t c rest ∧ t.age.run = some r ∧ r.exit_ = some c.seq)) ∧
    (CommandNext 0x54 c rest s → b = [] → s.age.wakeAsk = none →
      let wakes := fbit s .SVC_CTRL_enable = true ∧ (fbit s .SVC_WAKE_magic_en = true ∨ fget s .SVC_WAKE_pattern_en ≠ 0)
      (wakes → ∃ t, exec .wakeOnly s = .next t ∧ underWay s t c rest ∧ t.age.wakeAsk = some 1 ∧ t.age.wakeCmd = some c.seq) ∧
      (¬ wakes → ∃ t, exec .wakeOnly s = .next t ∧ completed s t c rest 0x0F ∧ t.age = s.age))

/-! ### Registers -/

namespace Sys2Proof.Spec

open Sys2Proof.Machine

/-- The master, address and word of a command that is a write of one register. -/
def writes : Instr → Option (Nat × Nat × Nat)
  | .peerEnable m i v => some (m, RegId.addr .BND_PEER_CTRL i, v.toNat)
  | .dicCmdTurn m v => some (m, RegId.addr .DIC_CMD, v.toNat)
  | .portRestart m i v => some (m, RegId.addr .TMC_CTRL i, v.toNat)
  | .gateApply m i v => some (m, RegId.addr .TMC_GATE_CTRL i, v.toNat)
  | .mdioStart m v => some (m, RegId.addr .SVC_MDIO_CMD, v.toNat)
  | .tdmGroupCtrlWrite m i v => some (m, RegId.addr .TDM_GRP_CTRL i, v.toNat)
  | .mapSwapArm m v => some (m, RegId.addr .TDM_SWAP_CTRL, v.toNat)
  | .mapSwapCancel m v => some (m, RegId.addr .TDM_SWAP_CTRL, v.toNat)
  | .timeCapture m v => some (m, RegId.addr .TIM_SNAP, v.toNat)
  | .timeStep m v => some (m, RegId.addr .TIM_SERVO_CMD, v.toNat)
  | .timeAccept m v => some (m, RegId.addr .TIM_SERVO_CMD, v.toNat)
  | .servoHold m v => some (m, RegId.addr .TIM_SERVO_CMD, v.toNat)
  | .servoResume m v => some (m, RegId.addr .TIM_SERVO_CMD, v.toNat)
  | .servoCtrlWrite m v => some (m, RegId.addr .TIM_SERVO_CTRL, v.toNat)
  | .timRateWrite m v => some (m, RegId.addr .TIM_RATE, v.toNat)
  | .hostPush m v => some (m, RegId.addr .TIM_HOST_PUSH, v.toNat)
  | .islClkRequest m i v => some (m, RegId.addr .ISL_CLK_REQ i, v.toNat)
  | .rigStart m v => some (m, RegId.addr .RIG_CTRL, v.toNat)
  | .rigAbort m v => some (m, RegId.addr .RIG_CTRL, v.toNat)
  | .rigRollbackCommit m v => some (m, RegId.addr .RIG_CTRL, v.toNat)
  | .ownerEnrol m v => some (m, RegId.addr .BOOT_CTRL, v.toNat)
  | .keyRevoke m v => some (m, RegId.addr .BOOT_CTRL, v.toNat)
  | .lockDebug m v => some (m, RegId.addr .BOOT_CTRL, v.toNat)
  | .attestRequest m v => some (m, RegId.addr .BOOT_ATT_CTRL, v.toNat)
  | .laneRestart m i v => some (m, RegId.addr .LAN_CTRL i, v.toNat)
  | .registerWrite m a v => some (m, a.toNat, v.toNat)
  | _ => none

/-- A master may write copy `i` of a register: the device is not held in reset, and the tables or the boot rules permit it. -/
def mayWrite (m : Fin 16) (r : RegId) (i : Nat) (s : State) : Prop :=
  inReset s = false ∧ permitted s m (r.addr i) 4 true = true

/-- Bit `k` of a written word. -/
abbrev bit (v : Word) (k : Nat) : Prop := v.getLsbD k = true

/-- A write of a word of this command changes nothing but what follows: the state afterwards satisfies `P`. -/
def leaves (i : Instr) (s : State) (P : State → Prop) : Prop := ∃ t, exec i s = .next t ∧ P t

end Sys2Proof.Spec

/-- From R348, R363 and R366: a write of a register by a master that the tables, or before their lock the boot rules,
refuse changes no register but the counters, records and events of refusals, and nothing else; while the device is held
in reset a write has no effect, and neither has one of a hole or of an address that is no whole word. -/
def Obligations.RegisterWritesAreChecked : Prop :=
  ∀ (i : Instr) (m a v : Nat) (s : State), writes i = some (m, a, v) →
    (inReset s = true → exec i s = .next s) ∧
    (inReset s = false → a % 4 = 0 → a < 0x02000000 → permitted s m a 4 true = false →
      leaves i s (fun t => t = recordDenial m a 4 true s ∧ t.mem = s.mem ∧ t.time = s.time ∧ t.rig = s.rig ∧ t.boot = s.boot ∧
        t.tdm = s.tdm ∧ t.ports = s.ports ∧ t.peers = s.peers ∧ t.lanes = s.lanes ∧
        (∀ b, b ≠ RegId.addr .ACC_DENY_COUNT → b ≠ RegId.addr .ACC_DENY_FIRST_INFO → b ≠ RegId.addr .ACC_DENY_FIRST_ADDR →
          b ≠ RegId.addr .ACC_DENY_LAST_INFO → b ≠ RegId.addr .ACC_DENY_LAST_ADDR → b ≠ RegId.addr .ERR_CLASS →
          b ≠ RegId.addr .ERR_PENDING → regWord t b = regWord s b))) ∧
    (a % 4 ≠ 0 ∨ regAt a = none → permitted s m a 4 true = true → exec i s = .next s)

/-- From R8 to R11: a write of a register whose fields act by their types alone: an RW field takes its bits, unless the
value is reserved for it, a W1C field loses and a W1S field gains the bits written as ones, and an RO, RC or WO field
stays. Other registers stay as they were, but for the counters of an event that a reserved value raises. -/
def Obligations.FieldsFollowTheirAccessTypes : Prop :=
  ∀ (m : Fin 16) (a : BitVec 36) (v : Word) (s : State) (r : RegId) (i j : Nat), regAt a.toNat = some (r, i, j) →
    inReset s = false → permitted s m a.toNat 4 true = true → unriggedWindow s a.toNat = false → ignoredWrite s r = false →
    wholeRefusal s r i a.toNat v.toNat = none →
    (∀ old u, afterWrite r i old v.toNat u = u) →
    leaves (.registerWrite m a v) s (fun t =>
      (∀ f ∈ r.fields,
        let old := bitsOf (regWord s a.toNat) f.hi f.lo
        let bits := bitsOf v.toNat f.hi f.lo
        bitsOf (regWord t a.toNat) f.hi f.lo =
          match f.acc with
          | .rw => if f.refuses s i v.toNat then old else bits
          | .w1c => old - old.land bits
          | .w1s => old.lor bits
          | .ro => old
          | .rc => old
          | .wo => old) ∧
      (∀ b, b ≠ a.toNat → b ≠ RegId.addr .ERR_CLASS → b ≠ RegId.addr .ERR_PENDING → regWord t b = regWord s b) ∧
      t.mem = s.mem ∧ t.time = s.time ∧ t.lanes = s.lanes)

/-- From R508, whole: a read of MST_TICK_LO gives the low half of the tick number and latches the high half for its
master, whose reads of MST_TICK_HI give the latch, 0 before any latch; no other master's latch changes; and a host frame
that reads both gets the whole tick number. -/
def Obligations.TickHalvesComeFromOneInstant : Prop :=
  ∀ (m : Fin 16) (s : State), inReset s = false →
    regValue s m (RegId.addr .MST_TICK_LO) = s.time.tick.toNat % 2 ^ 32 ∧
    (permitted s m (RegId.addr .MST_TICK_LO) 4 false = true →
      leaves (.mstTickLoRead m) s (fun t => regValue t m (RegId.addr .MST_TICK_HI) = s.time.tick.toNat / 2 ^ 32 ∧
        t.time.tick = s.time.tick ∧
        (∀ k, k ≠ m.val → regValue t k (RegId.addr .MST_TICK_HI) = regValue s k (RegId.addr .MST_TICK_HI)) ∧
        t.regs = s.regs ∧ t.mem = s.mem)) ∧
    (tget? s.time.tickHi m = none → regValue s m (RegId.addr .MST_TICK_HI) = 0) ∧
    (hostRead 2 (RegId.addr .MST_TICK_LO) s).1 = toLe 8 s.time.tick.toNat

/-- From R273 to R276, R285, R286, R288 and R289: the commands of the time island. TIM_RATE sets the rate with the servo
IDLE, and corrected time does not jump; a capture latches counter, corrected time and tick number; a step moves
corrected time by what it is given, and not the grid of the tick boundaries; an accepted jump is taken out; hold, resume
and TIM_SERVO_CTRL move the servo between its states; a push beyond the jump threshold is refused and stored, and one at
the counter value of a step, which came before it, is not used. -/
def Obligations.TimeCommandsSteerTheClock : Prop :=
  ∀ (m : Fin 16) (v : Word) (s : State),
    (mayWrite m .TIM_RATE 0 s →
      (s.time.srv = .idle → leaves (.timRateWrite m v) s (fun t => t.time.r = v ∧
        correctedTime t.time = correctedTime s.time ∧ t.time.counter = s.time.counter)) ∧
      (s.time.srv ≠ .idle → exec (.timRateWrite m v) s = .next s)) ∧
    (mayWrite m .TIM_SNAP 0 s → bit v 0 → leaves (.timeCapture m v) s (fun t => t.time = s.time ∧
      let T := correctedTime s.time
      regWord t (RegId.addr .TIM_SNAP_CNT_LO) + 2 ^ 32 * regWord t (RegId.addr .TIM_SNAP_CNT_HI) = s.time.counter.toNat ∧
      regWord t (RegId.addr .TIM_SNAP_SEC_LO) + 2 ^ 32 * regWord t (RegId.addr .TIM_SNAP_SEC_HI) = T / 65536000000000 ∧
      regWord t (RegId.addr .TIM_SNAP_NS) = T / 65536 % 1000000000 ∧ regWord t (RegId.addr .TIM_SNAP_FRAC) = T % 65536 ∧
      regWord t (RegId.addr .TIM_SNAP_TICK_LO) + 2 ^ 32 * regWord t (RegId.addr .TIM_SNAP_TICK_HI) = s.time.tick.toNat)) ∧
    (mayWrite m .TIM_SERVO_CMD 0 s →
      (v = 2 → leaves (.timeStep m v) s (fun t =>
        let ns := asSigned 32 (fget s .TIM_STEP_SEC_sec) * 1000000000 + (fget s .TIM_STEP_NS_ns : Int)
        t.time.plain = s.time.plain ∧ t.time.ofs = addOfs s.time.ofs (ns * 65536) ∧
        t.time.stepAt = some s.time.counter.toNat ∧ t.time.r = s.time.r ∧ t.time.counter = s.time.counter)) ∧
      (v = 1 → ∀ theta, s.time.pend = some theta → leaves (.timeAccept m v) s (fun t =>
        t.time.pend = none ∧ t.time.plain = s.time.plain ∧ t.time.stepAt = some s.time.counter.toNat ∧
        t.time.ofs = addOfs s.time.ofs (-theta * 65536))) ∧
      (v = 1 → s.time.pend = none → leaves (.timeAccept m v) s (fun t => t.time = s.time)) ∧
      (v = 8 → leaves (.servoHold m v) s (fun t =>
        (s.time.srv = .idle → t.time.srv = .idle) ∧
        (s.time.srv ≠ .idle → ¬ (s.time.srv = .holdover ∧ s.time.cause = 4) → t.time.srv = .holdover ∧ t.time.cause = 3) ∧
        (s.time.srv = .holdover → s.time.cause = 4 → t.time.srv = .holdover ∧ t.time.cause = 4 ∧ t.time.hold = true))) ∧
      (v = 4 → leaves (.servoResume m v) s (fun t => t.time.srv = s.time.srv ∧
        (s.time.srv = .holdover → s.time.cause = 2 ∨ s.time.cause = 3 → t.time.df = none ∧ t.time.resumed = true) ∧
        (s.time.srv ≠ .holdover → t.time.df = s.time.df ∧ t.time.resumed = s.time.resumed)))) ∧
    (mayWrite m .TIM_SERVO_CTRL 0 s →
      (¬ bit v 31 → leaves (.servoCtrlWrite m v) s (fun t => t.time.srv = .idle)) ∧
      (bit v 31 → s.time.srv = .idle → leaves (.servoCtrlWrite m v) s (fun t => t.time.srv = .freeRun ∧ t.time.df = none ∧
        t.time.i = 0))) ∧
    (mayWrite m .TIM_HOST_PUSH 0 s → ¬ bit v 1 →
      let theta := asSigned 32 (fget s .TIM_HOST_OFS_SEC_sec) * 1000000000 + (fget s .TIM_HOST_OFS_NS_ns : Int)
      let stepped := s.time.stepAt.any (fun c => decide (s.time.counter.toNat ≤ c))
      (¬ (bit v 0 ∧ servoOn s 1 = true ∧ stepped = false) → leaves (.hostPush m v) s (fun t => t.time = s.time)) ∧
      (bit v 0 → servoOn s 1 = true → stepped = false → s.time.df = none →
        (fget s .TIM_JUMP_THR_ns < theta.natAbs → leaves (.hostPush m v) s (fun t =>
          t.time.pend = some theta ∧ counted s t .TIM_SERVO_COUNT_refused ∧ t.time.r = s.time.r)) ∧
        (theta.natAbs ≤ fget s .TIM_JUMP_THR_ns → s.time.srv = .locked → leaves (.hostPush m v) s (fun t =>
          t.time.pend = none ∧ t.time.last = theta ∧ counted s t .TIM_SERVO_COUNT_applied ∧
          t.time.i = limit31 (s.time.i + fget s .TIM_SERVO_GAIN_ki * theta) ∧
          correctedTime t.time = correctedTime s.time))))

/-- From R191, R215, R226, R240, R248, R256, R263, R266 and R296: the commands of the trunk, the ports, the highways and
the islands. A peer with its template present is enabled with a random sequence number and its interval; a dictionary
turn is asked of a peer that is on; a port whose enable, speed or fec changes loses its link; the administrative gate
list is pending; a management frame starts; a highway group disabled or enabled changes state; a map swap is armed,
refused late, or cancelled; a steppable island that runs prepares for another frequency. -/
def Obligations.IslandCommandsActOnTheirIsland : Prop :=
  ∀ (m : Fin 16) (v : Word) (s : State),
    (∀ k : Fin 64, mayWrite m .BND_PEER_CTRL k s → bit v 31 → fget s .BND_PEER_CTRL_enable k = 0 →
      (templateOk (plainWrite (RegId.addr .BND_PEER_CTRL k) v.toNat s) k = true → leaves (.peerEnable m k v) s (fun t =>
        (peerAt t k).on = true ∧ (peerAt t k).everOn = true ∧ (peerAt t k).items = [] ∧
        (peerAt t k).interval = fget t .BND_PEER_CTRL_interval k ∧ fget t .BND_PEER_CTRL_enable k = 1)) ∧
      (templateOk (plainWrite (RegId.addr .BND_PEER_CTRL k) v.toNat s) k = false → leaves (.peerEnable m k v) s (fun t =>
        t.peers = s.peers ∧ fget t .BND_PEER_CTRL_enable k = 0))) ∧
    (mayWrite m .DIC_CMD 0 s →
      let k := bitsOf v.toNat 5 0
      (bit v 6 → (peerAt s k).on = true → leaves (.dicCmdTurn m v) s (fun t =>
        peerAt t k = { peerAt s k with turnCause := (peerAt s k).turnCause ||| 16 })) ∧
      (¬ bit v 6 ∨ (peerAt s k).on = false → leaves (.dicCmdTurn m v) s (fun t => t.peers = s.peers))) ∧
    (∀ p : Fin 2, mayWrite m .TMC_CTRL p s → bitsOf v.toNat 29 28 ≤ 2 →
      (bitsOf v.toNat 31 28 ≠ bitsOf (regWord s (RegId.addr .TMC_CTRL p)) 31 28 → leaves (.portRestart m p v) s (fun t =>
        (portAt t p).link = false ∧ fget t .TMC_STATUS_block_lock p = 0 ∧ fget t .TMC_STATUS_fec_lock p = 0)) ∧
      (bitsOf v.toNat 31 28 = bitsOf (regWord s (RegId.addr .TMC_CTRL p)) 31 28 → leaves (.portRestart m p v) s (fun t =>
        t.ports = s.ports))) ∧
    (∀ p : Fin 2, mayWrite m .TMC_GATE_CTRL p s →
      (bit v 30 → nowNs s < (adminList (plainWrite (RegId.addr .TMC_GATE_CTRL p) v.toNat s) p).base →
        leaves (.gateApply m p v) s (fun t =>
          (portAt t p).pending = some (adminList (plainWrite (RegId.addr .TMC_GATE_CTRL p) v.toNat s) p) ∧
          (portAt t p).oper = (portAt s p).oper)) ∧
      (¬ bit v 30 → leaves (.gateApply m p v) s (fun t => t.ports = s.ports))) ∧
    (mayWrite m .SVC_MDIO_CMD 0 s →
      (s.svc.mdio = true → exec (.mdioStart m v) s = .next s) ∧
      (s.svc.mdio = false → bit v 31 → leaves (.mdioStart m v) s (fun t =>
        t.svc = { s.svc with mdio := true, mdioOut := some (mdioFrame t) })) ∧
      (¬ bit v 31 → leaves (.mdioStart m v) s (fun t => t.svc = s.svc))) ∧
    (∀ g : Fin 4, mayWrite m .TDM_GRP_CTRL g s → bitsOf v.toNat 30 29 ≤ 2 →
      let old := regWord s (RegId.addr .TDM_GRP_CTRL g)
      let refused := bitsOf v.toNat 30 29 < bitsOf old 30 29 ∧ strands s g (bitsOf v.toNat 30 29) = true
      let framing := bitsOf v.toNat 30 27 ≠ bitsOf old 30 27 ∨ bitsOf v.toNat 2 0 ≠ bitsOf old 2 0
      (refused → leaves (.tdmGroupCtrlWrite m g v) s (fun t => t.tdm = s.tdm ∧
        regWord t (RegId.addr .TDM_GRP_CTRL g) = old)) ∧
      (¬ refused → ¬ bit v 31 → leaves (.tdmGroupCtrlWrite m g v) s (fun t => (groupAt t g).st = .disabled)) ∧
      (¬ refused → bit v 31 → (bitsOf old 31 31 = 0 ∨ framing) → leaves (.tdmGroupCtrlWrite m g v) s (fun t =>
        (groupAt t g).st = .qualifying ∧ (groupAt t g).rx = [] ∧ (groupAt t g).driven = [])) ∧
      (¬ refused → bit v 31 → bitsOf old 31 31 = 1 → ¬ framing → leaves (.tdmGroupCtrlWrite m g v) s (fun t =>
        t.tdm = s.tdm))) ∧
    (mayWrite m .TDM_SWAP_CTRL 0 s →
      (v = 0xA0000000 → s.tdm.swap = none → shadowOk s = true → leaves (.mapSwapArm m v) s (fun t =>

        t.tdm = { s.tdm with swap := some { now := true, time := swapTime s, tick := tickNow s } } ∧
        fget t .TDM_SWAP_CTRL_result = 1)) ∧
      (v = 0x80000000 → s.tdm.swap = none → shadowOk s = true → nowNs s < swapTime s → leaves (.mapSwapArm m v) s (fun t =>

        t.tdm = { s.tdm with swap := some { now := false, time := swapTime s, tick := tickNow s } } ∧
        fget t .TDM_SWAP_CTRL_result = 1)) ∧
      (v = 0x80000000 → s.tdm.swap = none → shadowOk s = true → swapTime s ≤ nowNs s → leaves (.mapSwapArm m v) s (fun t =>
        t.tdm = s.tdm ∧ fget t .TDM_SWAP_CTRL_result = 3)) ∧
      (bit v 31 → ¬ bit v 30 → s.tdm.swap = none → shadowOk s = false → leaves (.mapSwapArm m v) s (fun t =>
        t.tdm = s.tdm ∧ fget t .TDM_SWAP_CTRL_result = 4)) ∧
      (v = 0x40000000 → s.tdm.swap.isSome = true → leaves (.mapSwapCancel m v) s (fun t =>
        t.tdm = { s.tdm with swap := none } ∧ fget t .TDM_SWAP_CTRL_result = 5)) ∧
      (v = 0x40000000 → s.tdm.swap = none → leaves (.mapSwapCancel m v) s (fun t => t.tdm = s.tdm))) ∧
    (∀ k : Fin 15, mayWrite m .ISL_CLK_REQ k s → bit v 31 →
      let f := bitsOf v.toNat 11 0
      (islandClock k).2.1 ≤ f → f ≤ (islandClock k).2.2.1 → clockState s k = 0 →
      ((islandClock k).2.2.2 = true → f ≠ clockFreq s k → leaves (.islClkRequest m k v) s (fun t =>
        clockState t k = 1 ∧ (islandAt t k).asked = f ∧ clockFreq t k = clockFreq s k)) ∧
      ((islandClock k).2.2.2 = false ∨ f = clockFreq s k → leaves (.islClkRequest m k v) s (fun t =>
        clockState t k = 0 ∧ t.isls = s.isls ∧ fget t .ISL_CLK_REQ_go k = 0)))

/-- From R104, R335, R337, R339, R341, R348, R352, R353 and R355: the commands of the loader, the fuses and the lanes. A
load begins and is received from its first byte; an abort fails it with code 0x14; a committed rollback counter raises
the fuse count; data joins the image; enrolment, revocation and the debug lock blow their fuses; an attestation is
latched; a faulted lane is cleared and idle, with its fault records gone. -/
def Obligations.LoaderFuseAndLaneCommands : Prop :=
  ∀ (m : Fin 16) (v : Word) (s : State),
    (mayWrite m .RIG_CTRL 0 s →
      (bit v 31 → ¬ bit v 30 → ¬ bit v 29 →
        let c := bitsOf v.toNat 2 0
        (s.boot.stage = .load → s.rig.st = .waitHost ∨ s.rig.st = .failed →
          leaves (.rigStart m v) s (fun t => t.rig.st = .receiving ∧ t.rig.bytes = 0 ∧ t.rig.image = [] ∧ t.rig.rerig = none ∧
            t.rig.src = bitsOf v.toNat 25 25 ∧ t.rig.ofs = 16 * fget s .RIG_QSPI_OFS_offset)) ∧
        (s.boot.stage = .running → s.rig.st = .failed → leaves (.rigStart m v) s (fun t => t.rig = s.rig)) ∧
        (s.boot.stage = .running → s.rig.running = true → s.rig.st = .idle →
          ((∀ k < 16, usedLu s (16 * c + k) = 0) → leaves (.rigStart m v) s (fun t =>
            t.rig.st = .receiving ∧ t.rig.bytes = 0 ∧ t.rig.image = [] ∧ t.rig.rerig = some c ∧
            t.rig.src = bitsOf v.toNat 25 25 ∧ t.rig.ofs = 16 * fget s .RIG_QSPI_OFS_offset)) ∧
          ((∃ k < 16, usedLu s (16 * c + k) ≠ 0) → leaves (.rigStart m v) s (fun t =>
            t.rig.st = .failed ∧ t.rig.code = 0x13)))) ∧
      (v = 0x40000000 → s.boot.stage ≠ .load →
        (loadUnderCheck s = true → leaves (.rigAbort m v) s (fun t => t.rig.st = .failed ∧ t.rig.code = 0x14 ∧
          t.rig.image = [] ∧ counted s t .RIG_COUNT_failures)) ∧
        (loadUnderCheck s = false → leaves (.rigAbort m v) s (fun t => t.rig = s.rig))) ∧
      (v = 0x20000000 →
        (s.rig.st = .idle → s.rig.running = true → s.boot.fuses.rollback < s.rig.rollback →
          leaves (.rigRollbackCommit m v) s (fun t =>
            t.boot.fuses = { s.boot.fuses with rollback := s.rig.rollback })) ∧
        (s.rig.st ≠ .idle ∨ s.rig.running = false ∨ s.rig.rollback ≤ s.boot.fuses.rollback →
          leaves (.rigRollbackCommit m v) s (fun t => t.boot = s.boot)))) ∧
    (∀ b : Bytes, mayWrite m .RIG_DATA 0 s →
      (s.rig.st ≠ .receiving → exec (.rigData m b) s = .next s) ∧
      (s.rig.st = .receiving → s.rig.image.length + b.length < 128 → leaves (.rigData m b) s (fun t =>
        t.rig.image = s.rig.image ++ b ∧ t.rig.bytes = s.rig.image.length + b.length ∧ t.rig.st = .receiving))) ∧
    (mayWrite m .BOOT_CTRL 0 s →
      (v = 0x80000000 → s.boot.stage = .load → s.rig.st = .waitHost ∨ s.rig.st = .failed → s.boot.fuses.enrolled = false →
        allZero (ownerDigest s) = false → keepsBlown (ownerDigest s) s.boot.fuses.owner = true →
        leaves (.ownerEnrol m v) s (fun t => t.boot.fuses = { s.boot.fuses with owner := ownerDigest s, enrolled := true } ∧
          t.boot.result = 1)) ∧
      (v = 0x80000000 → s.boot.fuses.enrolled = true →
        leaves (.ownerEnrol m v) s (fun t => t.boot.fuses = s.boot.fuses ∧ t.boot.result = 2)) ∧
      (∀ i < 5, v = BitVec.ofNat 32 (0x40000000 + i) → s.boot.stage = .running → slotRevoked s.boot.fuses i = false →
        (i = s.rig.slot ∨ (i = 4 ∧ s.boot.fuses.enrolled = false) → leaves (.keyRevoke m v) s (fun t =>
          t.boot.fuses = s.boot.fuses ∧ t.boot.result = 2)) ∧
        (i ≠ s.rig.slot → (i = 4 → s.boot.fuses.enrolled = true) → (∃ k < 5, k ≠ i ∧ slotUsable s.boot.fuses k = true) →
          leaves (.keyRevoke m v) s (fun t => t.boot.result = 1 ∧
            t.boot.fuses = if i = 4 then { s.boot.fuses with ownerRevoked := true }
              else { s.boot.fuses with rootRevoked := s.boot.fuses.rootRevoked ||| BitVec.ofNat 4 (2 ^ i) }))) ∧
      (v = 0x60000000 → leaves (.lockDebug m v) s (fun t => t.boot.fuses = s.boot.fuses ∧ t.boot.result = 2)) ∧
      (v = 0x20000000 → leaves (.lockDebug m v) s (fun t =>
        t.boot.fuses = { s.boot.fuses with debugLocked := true } ∧ t.boot.result = 1))) ∧
    (mayWrite m .BOOT_ATT_CTRL 0 s → v = 0x80000000 →
      s.boot.stage ≠ .supply → s.boot.stage ≠ .fuses → s.boot.stage ≠ .rom →
      (s.boot.busy = true → leaves (.attestRequest m v) s (fun t => t.boot = s.boot)) ∧
      (s.boot.busy = false → s.boot.idOk = true → leaves (.attestRequest m v) s (fun t =>
        t.boot.busy = true ∧ t.boot.ready = false ∧ t.boot.latch.take 4 = [0x41, 0x54, 0x54, 0x52])) ∧
      (s.boot.busy = false → s.boot.idOk = false → leaves (.attestRequest m v) s (fun t =>
        t.boot = { s.boot with attResult := 2 }))) ∧
    (∀ l : Fin 128, mayWrite m .LAN_CTRL l s → v = 1 →
      ((laneAt s l).st = .faulted → leaves (.laneRestart m l v) s (fun t =>
        (laneAt t l).st = .idle ∧ (laneAt t l).list = [] ∧ (laneAt t l).word = none ∧
        regWord t (RegId.addr .LAN_FAULT l) = 0 ∧ regWord t (RegId.addr .LAN_FAULT_ADDR l) = 0 ∧
        (∀ p, Memory.read t.mem p =
          if laneBase l ≤ p ∧ p < laneBase l + 0x80000 then 0 else Memory.read s.mem p))) ∧
      ((laneAt s l).st ≠ .faulted → leaves (.laneRestart m l v) s (fun t => t = s)))

/-! ### Channels -/

namespace Sys2Proof.Spec

open Sys2Proof.Machine

/-- A counter statistic of a channel one higher, stopping at all ones (R12). -/
def statCounted (s t : State) (n id : Nat) : Prop :=
  statOf (chanAt t n) id = satTo 0xFFFFFFFF (statOf (chanAt s n) id + 1)

/-- What a change of a channel alone leaves. -/
def channelBecomes (n : Nat) (c : Channel) (s : State) : Host.Outcome State Fault Refusal :=
  .next { s with chans := tset s.chans n c }

end Sys2Proof.Spec

/-- From R111 to R113, R117, R120, R121 and R125: the canceller's rows. Placement takes a mature candidate that no
window covers, where a unit is free, into a window 2 ms before it, or else in the place of the weakest window, of at
most half its correlation, whose taps stay at the lags the two share; a weaker one waits; release frees the windows weak
for the release time; neither acts while OFF, TONE_DISABLED or FROZEN; double talk ends once the hangover has passed; a
divergence of 64 ticks zeroes the taps and is counted; tone disable is entered after a tone condition, counted once, and
left after 250 quiet ticks. -/
def Obligations.CancellerRowsActOnTheirChannel : Prop :=
  ∀ (ch : BitVec 13) (s : State) (c : Channel), tget? s.chans ch.toNat = some c →
    let n := ch.toNat
    let e := c.ec
    (ecMoves s n = false → exec (.windowPlacement ch) s = .next s ∧ exec (.windowRelease ch) s = .next s) ∧
    (ecMoves s n = true →
      ((∀ k ∈ e.cands, k.age < chanParam s n 0x020E) → exec (.windowPlacement ch) s = .next s) ∧
      (∀ k, e.cands = [k] → chanParam s n 0x020E ≤ k.age → (∀ w ∈ e.windows, w.covers k.lag = false) →
        let start := if ecTail s n < k.lag - 2 + 16 then ecTail s n - 16 else k.lag - 2
        (unitsUsed e.windows < chanParam s n 0x0203 → chanParam s n 0x0204 = 0 →
          leaves (.windowPlacement ch) s (fun t => (ecAt t n).cands = [] ∧ statCounted s t n 0x028B ∧
            (ecAt t n).windows = insertWindow
              { startMs := start, lenMs := 16, units := 1, peak := k.rho, taps := List.replicate (16 * ecRate s n) 0 } e.windows)) ∧
        (∀ x, e.windows = [x] → chanParam s n 0x0203 ≤ unitsUsed [x] → 2 * x.peak ≤ k.rho → chanParam s n 0x0204 = 0 →
          leaves (.windowPlacement ch) s (fun t => (ecAt t n).cands = [] ∧ statCounted s t n 0x028B ∧
            (ecAt t n).windows = [{ startMs := start, lenMs := 16, units := 1, peak := k.rho
                                    taps := (x.span (ecRate s n) start 16).taps }])) ∧
        (chanParam s n 0x0203 ≤ unitsUsed e.windows → (∀ w ∈ e.windows, k.rho < 2 * w.peak) →
          exec (.windowPlacement ch) s = .next s)) ∧
      exec (.windowRelease ch) s = channelBecomes n { c with ec := { e with
        windows := e.windows.filter (fun w => decide (w.weak < chanParam s n 0x020F)) } } s) ∧
    (e.hangover = 0 → exec (.dtdHangoverEnd ch) s = channelBecomes n { c with ec := { e with dtNow := false } } s) ∧
    (e.hangover ≠ 0 → exec (.dtdHangoverEnd ch) s = .next s) ∧
    (e.diverge < 64 → exec (.divergenceReset ch) s = .next s) ∧
    (64 ≤ e.diverge → leaves (.divergenceReset ch) s (fun t => (ecAt t n).diverge = 0 ∧ statCounted s t n 0x028E ∧
      (ecAt t n).windows = e.windows.map (fun w => { w with taps := w.taps.map (fun _ => 0) }) ∧
      t.sess = s.sess ∧ t.mem = s.mem)) ∧
    (e.toneSeen = none → exec (.toneDisableEnter ch) s = .next s) ∧
    (e.toneSeen.isSome = true → e.toneDisabled = true →
      exec (.toneDisableEnter ch) s = channelBecomes n { c with ec := { e with toneSeen := none } } s) ∧
    (e.toneSeen.isSome = true → e.toneDisabled = false → leaves (.toneDisableEnter ch) s (fun t =>
      statCounted s t n 0x028C ∧ t.sess = s.sess ∧ ecAt t n = { e with toneSeen := none, toneDisabled := true, quiet := 0 })) ∧
    (e.toneDisabled = true → 250 ≤ e.quiet → exec (.toneDisableExit ch) s =
      channelBecomes n { c with ec := { e with toneDisabled := false, toneSeen := none } } s) ∧
    (e.toneDisabled = false ∨ e.quiet < 250 → exec (.toneDisableExit ch) s = .next s)

/-- From R42, R139, R144, R149, R152, R153, R156 and R180: the rows at which something of a channel ends or its tick is
worked. An unconfirmed mute lifts after 40 ms, counted; generators end with their tone or event; a report goes when its
interval has passed, and sets the next; voiceband data ends after its quiet time; an adaptation window starts anew, and
keeps the delay while the slack lies in its band; a move whose sixteen copies failed is given up; a lane that can run
works a live channel once a tick, a lane that lags once its decisions were copied. -/
def Obligations.ChannelRowsEndWhatTheyName : Prop :=
  ∀ (ch : BitVec 13) (s : State) (c : Channel), tget? s.chans ch.toNat = some c →
    let n := ch.toNat
    (∀ leg : Bool,
      let o := if leg then 1 else 0
      let tone := (c.leg (1 - o)).detTone
      (∀ t0, (c.leg o).mute = some t0 → t0 + 40 ≤ workTick s → tone = 0 ∨ 0x10 < tone →
        leaves (.muteLift ch leg) s (fun t => legAt t n o = { c.leg o with mute := none, muteOver := true } ∧
          statCounted s t n 0x03A6 ∧ legAt t n (1 - o) = c.leg (1 - o))) ∧
      (∀ t0, (c.leg o).mute = some t0 → workTick s < t0 + 40 ∨ (tone ≠ 0 ∧ tone ≤ 0x10) →
        exec (.muteLift ch leg) s = .next s) ∧
      ((c.leg o).mute = none → exec (.muteLift ch leg) s = .next s) ∧
      (∀ g e, (c.leg o).gen = some g → (c.leg (1 - o)).evRx = some e →
        (g.event = some e.pos → eventOver s n (1 - o) e = true → leaves (.eventGenerationEnd ch leg) s (fun t =>
          (legAt t n o).gen = none ∧ (legAt t n (1 - o)).evRx = none ∧ (legAt t n (1 - o)).evIgnore = some e.pos ∧
          (roomAt t n (1 - o)).events = (c.leg (1 - o)).room.events.filter (fun x => x.pos != e.pos))) ∧
        (g.event ≠ some e.pos ∨ eventOver s n (1 - o) e = false → exec (.eventGenerationEnd ch leg) s = .next s) ∧
        (g.left = some 0 → exec (.toneGenEnd ch leg) s = channelBecomes n (c.withLeg o (fun g => { g with gen := none })) s)) ∧
      (c.live = true → kindAt s n o = 2 → legParam s n o 0x0308 = 1 →
        (tickNow s < (c.leg o).rtcpAt → exec (.rtcpReport ch leg) s = .next s) ∧
        ((c.leg o).rtcpAt ≤ tickNow s → leaves (.rtcpReport ch leg) s (fun t =>
          let wait := legParam s n o 0x0309
          (legAt t n o).rtcpSent = false ∧ (legAt t n o).priorRx = (c.leg o).rxCount ∧
          tickNow s + wait * 500 / 1000 ≤ (legAt t n o).rtcpAt ∧ (legAt t n o).rtcpAt ≤ tickNow s + wait * 1500 / 1000))) ∧
      (let r := (c.leg o).room
      let width := legParam s n o 0x0406
      (r.running = false ∨ workTick s + 1 < r.winStart + width → exec (.adaptWindowEnd ch leg) s = .next s) ∧
      (r.running = true → r.winStart + width ≤ workTick s + 1 → c.vbd = true ∨ r.slacks = [] →
        exec (.adaptWindowEnd ch leg) s = channelBecomes n (c.withLeg o (fun g => { g with
          room := { g.room with winStart := r.winStart + width, slacks := [] } })) s) ∧
      (r.running = true → r.winStart + width ≤ workTick s + 1 → c.vbd = false → legParam s n o 0x0401 = 1 → r.slacks ≠ [] →
        let head : Int := legParam s n o 0x0405
        (∀ x ∈ r.slacks, head ≤ x ∧ x < head + 10) → legParam s n o 0x0403 ≤ r.d →
        r.d ≤ legParam s n o 0x0404 → leaves (.adaptWindowEnd ch leg) s (fun t =>
          (roomAt t n o).d = r.d ∧ (roomAt t n o).target = r.d ∧
          (roomAt t n o).winStart = r.winStart + width ∧ (roomAt t n o).slacks = [])))) ∧
    (c.vbd = true → chanParam s n 0x0316 ≤ c.vbdQuiet → leaves (.vbdExit ch) s (fun t =>
      (chanAt t n).vbd = false ∧ statOf (chanAt t n) 0x03A7 = 0)) ∧
    (c.vbd = false ∨ c.vbdQuiet < chanParam s n 0x0316 → exec (.vbdExit ch) s = .next s) ∧
    (∀ m, c.move = some m →
      (m.phase = 1 → 16 ≤ m.fails → leaves (.migrateAbandoned ch) s (fun t =>
        (chanAt t n).move = none ∧ (chanAt t n).lane = c.lane)) ∧
      (m.phase ≠ 1 ∨ m.fails < 16 → exec (.migrateAbandoned ch) s = .next s)) ∧
    (∀ sig : Signals,
      let st := (laneAt s c.worker).st
      (c.live = true → c.worked < workTick s → workReady s = true → st = .idle ∨ st = .running ∨ st = .overrun →
        exec (.channelTickWork ch sig) s = .next (tickWork n sig s)) ∧
      (c.live = false ∨ workTick s ≤ c.worked ∨ workReady s = false ∨ (st ≠ .idle ∧ st ≠ .running ∧ st ≠ .overrun) →
        exec (.channelTickWork ch sig) s = .next s))

/-! ### Trunk bundles -/

namespace Sys2Proof.Spec

open Sys2Proof.Machine

/-- A data bundle that the receiver of a peer can take and that carries no code word and no item (R195, R196, R211). -/
structure EmptyBundle (b : Bytes) (p : Peer) : Prop where
  header : headerOk b = true
  data : leAt b 0 1 = 0x10
  plain : bFlag b 2 = false ∧ bCount b = 0 ∧ bSection b = []
  epoch : p.rxEpoch = some (BitVec.ofNat 8 (leAt b 2 1))
  first : p.rxN ≤ bFirst b
  joined : p.opened = none

end Sys2Proof.Spec

/-- From R193, R195, R196, R199, R210, R216 and R218: an interval that closes with no item still sends one bundle,
counted, under the next seq; a bundle with a bad header is counted and the receiver asks for a resync; a good one brings
the peer up; the next one expected is delivered, one before it is late, one less than 8 ahead is held, until reorder_ms
have passed, when those missing before it are lost; 100 ticks without a bundle take the peer down. A peer that is off
takes no part. -/
def Obligations.BundlesFollowTheirOrder : Prop :=
  ∀ (peer : Fin 64) (s : State),
    let k := peer.val
    let p := peerAt s k
    let t0 := tickNow s
    let t1 := workTick s
    (p.on = false ∨ s.age.reefed = true → ∀ b,
      exec (.intervalClose peer none) s = .next s ∧ exec (.bundleReceive peer b none) s = .next s) ∧
    (t1 % p.interval ≠ 0 ∨ p.closed = some t1 → exec (.intervalClose peer none) s = .next s) ∧
    (p.on = true → s.age.reefed = false →
      (t1 % p.interval = 0 → p.closed ≠ some t1 → (∀ i ∈ p.items, t1 ≤ i.tick) →
        let want := fget s .BND_PEER_CTRL_interval k
        leaves (.intervalClose peer none) s (fun t => (peerAt t k).closed = some t1 ∧ (peerAt t k).seq = p.seq + 1 ∧
          (peerAt t k).items = p.items ∧ (peerAt t k).interval = want ∧
          counted s t .BND_PEER_COUNT_tx_bundles k)) ∧
      (∀ b, headerOk b = false → leaves (.bundleReceive peer b none) s (fun t =>
        counted s t .BND_PEER_ERR_bad_bundles k ∧ peerAt t k = { p with synced := false, resync := true })) ∧
      (∀ b, headerOk b = true → leAt b 0 1 = 0x11 → leaves (.bundleReceive peer b none) s (fun t =>
        (peerAt t k).up = true ∧ (peerAt t k).passTick = t0 ∧ (peerAt t k).e = p.e ∧ (peerAt t k).held = p.held ∧
        (peerAt t k).synced = p.synced ∧ (peerAt t k).peerAsks = bFlag b 1)) ∧
      (∀ b e, headerOk b = true → leAt b 0 1 = 0x10 → bFlag b 2 = false → p.synced = true → p.e = some e →
        let d := (bSeq b - e).toInt
        (-64 ≤ d → d < 0 → leaves (.bundleReceive peer b none) s (fun t =>
          counted s t .BND_PEER_LOSS_late k ∧ (peerAt t k).e = p.e ∧ (peerAt t k).held = p.held)) ∧
        (0 < d → d < 8 → (∀ h ∈ p.held, h.seq ≠ bSeq b) → leaves (.bundleReceive peer b none) s (fun t =>
          (peerAt t k).e = p.e ∧ (peerAt t k).held = p.held ++ [{ seq := bSeq b, bytes := b }])) ∧
        (d = 0 → p.held = [] → EmptyBundle b p → leaves (.bundleReceive peer b none) s (fun t =>
          (peerAt t k).e = some (e + 1) ∧ (peerAt t k).synced = true ∧
          counted s t .BND_PEER_COUNT_rx_bundles k)))) ∧
    (p.held = [] → exec (.reorderTimeout peer) s = .next s) ∧
    (∀ h e, p.held = [h] → p.e = some e → p.synced = true → 0 < (h.seq - e).toInt → (h.seq - e).toInt < 8 →
      (h.wait < fget s .BND_PEER_CTRL_reorder_ms k → exec (.reorderTimeout peer) s = .next s) ∧
      (fget s .BND_PEER_CTRL_reorder_ms k ≤ h.wait → h.seq = bSeq h.bytes → EmptyBundle h.bytes p →
        leaves (.reorderTimeout peer) s (fun t => (peerAt t k).held = [] ∧ (peerAt t k).e = some (h.seq + 1) ∧
          fget t .BND_PEER_LOSS_lost k = satTo (2 ^ (Fld.hi .BND_PEER_LOSS_lost - Fld.lo .BND_PEER_LOSS_lost + 1) - 1)
            (fget s .BND_PEER_LOSS_lost k + (h.seq - e).toNat)))) ∧
    (p.on = true → p.up = true → p.passTick + 100 ≤ t0 → leaves (.bndPeerDown peer) s (fun t =>
      peerAt t k = { p with up := false, downed := true } ∧ t.chans = s.chans)) ∧
    (p.on = false ∨ p.up = false ∨ t0 < p.passTick + 100 → exec (.bndPeerDown peer) s = .next s)

/-! ### Ports -/

/-- From R226, R228, R230, R235, R244, R246, R247 and R249: a port whose link is down receives nothing; it comes up
where it is enabled, and goes down with the condition that failed shown, the frame that it was sending then lost and
counted. A frame for another address, a runt, one with a wrong FCS, one too long, one steered to drop and one that lacks
a buffer are counted under the row met at the earliest byte and not stored; another is stored at the end of its queue's
ring, without its FCS. The service port stores what it takes, and sends its head frame unless it is disabled, paused or
backing off. -/
def Obligations.PortsReceiveFrames : Prop :=
  ∀ (p : Fin 2) (s : State),
    let x := portAt s p
    (fget s .TMC_CTRL_enable p = 1 → x.link = false → leaves (.portLinkUp p) s (fun t => portAt t p = { x with link := true } ∧
      fget t .TMC_STATUS_block_lock p = 1 ∧ fget t .TMC_STATUS_hi_ber p = 0 ∧ fget t .TMC_STATUS_fec_active p = fecInUse s p ∧
      (fget t .TMC_STATUS_fec_lock p = 0 ↔ fecInUse s p = 0))) ∧
    (fget s .TMC_CTRL_enable p = 0 ∨ x.link = true → exec (.portLinkUp p) s = .next s) ∧
    (∀ f : LinkFault, leaves (.portLinkDown ⟨p, f⟩) s (fun t =>
      (x.link = false ∨ x.sentEnd ≤ 100 * s.time.counter.toNat → portAt t p = { x with link := false }) ∧
      (x.link = true → 100 * s.time.counter.toNat < x.sentEnd →
        portAt t p = { x with link := false, sent := none, sentEnd := 0 } ∧ counted s t .TMC_TX_DROP_link_drops p) ∧
      (f = .blockLock → fget t .TMC_STATUS_block_lock p = 0) ∧ (f = .highBer → fget t .TMC_STATUS_hi_ber p = 1) ∧
      (f = .fecLock → fget t .TMC_STATUS_fec_lock p = 0))) ∧
    (∀ (b : Bytes) (a : Arrival),
      let n := b.length
      let q := steer s p b
      let most := fget s .TMC_CTRL_max_frame p
      let need := buffersFor (n - 4) (max 1 (256 * fget s .TMC_RXQ_CFG_buf_size p q))
      let wrong := (a.error || badFcs b) = true
      let control := frameEt b = 0x8808
      let room := x.staged + most ≤ 262144
      let fits := tget x.used q 0 + need ≤ fget s .TMC_RXQ_CFG_buffers p q
      let rx := Instr.frameReceive (p.castLE (by decide)) b a
      (x.link = false → exec rx s = .next s) ∧
      (x.link = true → 1518 ≤ most →
        (otherAddress s p b = true → leaves rx s (fun t => counted s t .TMC_RX_ERR2_da_drops p ∧ t.ports = s.ports)) ∧
        (otherAddress s p b = false →
          (n < 64 → leaves rx s (fun t => counted s t .TMC_RX_ERR1_runts p ∧ t.ports = s.ports)) ∧
          (64 ≤ n → n ≤ most + 1 → wrong → n ≤ 128 ∨ control ∨ (q ≠ 9 ∧ room ∧ fits) →
            leaves rx s (fun t => counted s t .TMC_RX_ERR1_fcs_errors p ∧ t.ports = s.ports)) ∧
          (most < n → (wrong → most + 1 < n) → control ∨ (q ≠ 9 ∧ room ∧ fits) →
            leaves rx s (fun t => counted s t .TMC_RX_ERR2_oversize p ∧ t.ports = s.ports)) ∧
          (64 ≤ n → ¬ wrong → ¬ control →
            (q ≠ 9 → n ≤ most → room → ¬ fits → leaves rx s (fun t => t.ports = s.ports ∧
              fget t .TMC_RXQ_DROP_no_buffer p q = satTo (2 ^ (Fld.hi .TMC_RXQ_DROP_no_buffer -
                Fld.lo .TMC_RXQ_DROP_no_buffer + 1) - 1) (fget s .TMC_RXQ_DROP_no_buffer p q + 1))) ∧
            (q = 9 → leaves rx s (fun t => counted s t .FLT_FILTER_DROP_filter_drops ∧ t.ports = s.ports)) ∧
            (q < 9 → room → n ≤ most → s.cel.retrain = none → fget s .TMC_RXQ_CFG_consumer p q ≠ 0 → fits → leaves rx s (fun t =>
                counted s t .TMC_RX_FRAMES_rx_frames p ∧ tget (portAt t p).used q 0 = tget x.used q 0 + need ∧
                ∃ r, tget (portAt t p).rx q [] = tget x.rx q [] ++ [r] ∧ r.bytes = b.take (n - 4) ∧ r.bufs = need ∧
                  r.tick = tickNow s)))))) ∧
    (∀ (b : Bytes) (a : Arrival), s.age.wake = none →
      let n := b.length
      let ring := ringOf s 2 0 0
      let need := buffersFor (n - 4) (max 1 ring.2)
      let rx := Instr.frameReceive 2 b a
      (fget s .SVC_CTRL_enable = 0 → exec rx s = .next s) ∧
      (fget s .SVC_CTRL_enable = 1 → otherAddress s 2 b = false → 64 ≤ n → n ≤ fget s .SVC_CTRL_max_frame → a.error = false →
        badFcs b = false → frameEt b ≠ 0x8808 → steer s 2 b ≠ 9 → s.svc.used + need ≤ ring.1 →
        leaves rx s (fun t => counted s t .SVC_FRAMES_rx_frames ∧ t.svc.used = s.svc.used + need ∧
          ∃ r, t.svc.rx = s.svc.rx ++ [r] ∧ r.bytes = b.take (n - 4))) ∧
      (fget s .SVC_CTRL_enable = 1 → otherAddress s 2 b = false → 64 ≤ n → n ≤ fget s .SVC_CTRL_max_frame → a.error = false →
        badFcs b = false → frameEt b ≠ 0x8808 → steer s 2 b ≠ 9 → ring.1 < s.svc.used + need →
        leaves rx s (fun t => counted s t .SVC_RX_ERR_no_buffer ∧ t.svc = s.svc))) ∧
    (∀ phase : BitVec 16, fget s .SVC_CTRL_enable = 0 ∨ s.svc.paused = true ∨ s.svc.backoff.isSome = true →
      exec (.frameTransmit ⟨2, phase⟩) s = .next s) ∧
    (∀ f rest, ∀ phase : BitVec 16, s.svc.tx = f :: rest → fget s .SVC_CTRL_enable = 1 → s.svc.paused = false →
      s.svc.backoff = none → max 60 f.bytes.length + 4 ≤ fget s .SVC_CTRL_max_frame →
      leaves (.frameTransmit ⟨2, phase⟩) s (fun t =>
        t.svc = { s.svc with tx := rest, attempt := 0, sent := some (onLine f.bytes) } ∧
        counted s t .SVC_FRAMES_tx_frames))

/-- From R229, R236 to R239, R241, R244 and R283: a trunk port sends the head frame of the highest-numbered queue that
may start, or discards a head frame under a rule and counts it; a queue map changes for a source once its old queue
holds none of its frames; the transparent clock forwards a PTP frame to the other port, or drops a Pdelay message,
counted; a frame that is no PTP frame it does not forward. -/
def Obligations.PortsSendFrames : Prop :=
  ∀ (p : Fin 2) (phase : BitVec 16) (s : State),
    let x := portAt s p
    let tx := Instr.frameTransmit ⟨p.castLE (by decide), phase⟩
    ((∀ q < 8, headFate s p q = 0) → exec tx s = .next s) ∧
    (∀ q f, q < 8 → txHead s p q = some f → (∀ k, q < k → k < 8 → headFate s p k = 0) →
      let popped := fun t : State => tget (portAt t p).tx q [] = dropHead (tget x.tx q []) ∧
        ∀ k, k ≠ q → tget (portAt t p).tx k [] = tget x.tx k []
      (headFate s p q = 1 → f.from_ = none → ptpOff f.bytes = none → leaves tx s (fun t => popped t ∧
        (portAt t p).sent = some (onLine f.bytes) ∧ counted s t .TMC_TX_FRAMES_tx_frames p ∧
        (portAt t p).sentEnd = 100 * s.time.counter.toNat + lineBytes f.bytes.length * byteTime s p)) ∧
      (headFate s p q = 2 → leaves tx s (fun t => popped t ∧ counted s t .TMC_TX_DROP_link_drops p)) ∧
      (headFate s p q = 3 → leaves tx s (fun t => popped t ∧ counted s t .TMC_TX_DROP_standby p)) ∧
      (headFate s p q = 4 → leaves tx s (fun t => popped t ∧
        fget t .TMC_TXQ_DROP_tx_oversize p q = satTo (2 ^ (Fld.hi .TMC_TXQ_DROP_tx_oversize -
          Fld.lo .TMC_TXQ_DROP_tx_oversize + 1) - 1) (fget s .TMC_TXQ_DROP_tx_oversize p q + 1))) ∧
      (headFate s p q = 5 → leaves tx s (fun t => popped t ∧ counted s t .TMC_PAUSE_BREAK_gate_drops p))) ∧
    leaves (.txMapChange p) s (fun t => (portAt t p).tx = x.tx ∧
      (∀ src ∈ [1, 2, 3, 4],
        (holdsSource s p (txQueue s p src 0) src 0 = true → txQueue t p src 0 = txQueue s p src 0) ∧
        (holdsSource s p (txQueue s p src 0) src 0 = false →
          let lo := if src = 1 then 0 else if src = 2 then 3 else if src = 3 then 9 else 6
          txQueue t p src 0 = bitsOf (regWord s (RegId.addr .TMC_TX_MAP p)) (lo + 2) lo)) ∧
      (∀ k < 64,
        (holdsSource s p (txQueue s p 0 k) 0 k = true → txQueue t p 0 k = txQueue s p 0 k) ∧
        (holdsSource s p (txQueue s p 0 k) 0 k = false → txQueue t p 0 k = fget s .BND_PEER_CTRL_tx_queue k))) ∧
    (fget s .TIM_PTP_CTRL_tc_enable = 0 ∨ (∀ f ∈ tget x.rx 8 [], f.fwd = true) → exec (.tcForward p) s = .next s) ∧
    (∀ f rest, fget s .TIM_PTP_CTRL_tc_enable = 1 → tget x.rx 8 [] = f :: rest → f.fwd = false →
      let pd := isPdelay (f.bytes.drop ((ptpOff f.bytes).getD 0))
      let keep := forEngine s p f.bytes && !pd
      let ring := if keep then { f with fwd := true } :: rest else rest
      (ptpOff f.bytes = none → leaves (.tcForward p) s (fun t => tget (portAt t p).rx 8 [] = rest ∧ t.regs = s.regs)) ∧
      ((ptpOff f.bytes).isSome = true → pd = true → leaves (.tcForward p) s (fun t =>
        tget (portAt t p).rx 8 [] = ring ∧ counted s t .TIM_TC_COUNT_dropped)) ∧
      ((ptpOff f.bytes).isSome = true → pd = false →
        let q := txQueue s (1 - p) 3 0
        let r := ringOf s (1 - p) 1 q
        let old := tget (portAt s (1 - p)).tx q []
        txUsed r.2 old + buffersFor f.bytes.length r.2 ≤ r.1 → leaves (.tcForward p) s (fun t =>
          tget (portAt t p).rx 8 [] = ring ∧ counted s t .TIM_TC_COUNT_forwarded ∧
          tget (portAt t (1 - p)).tx q [] = old ++ [{ bytes := f.bytes, source := 3, from_ := some f.count }])))

/-- From R31, R233, R236, R245 and R431: the classifier and the mast controller take the oldest frame of a port that
waits for them. A frame that is no bundle and no good datagram is counted and dropped, one of no session too; one for a
parked entry is counted there; a bundle goes to its peer, an RTP packet to its leg. The mast controller answers a frame
that asks for it, or counts it. With nothing waiting, and the mast controller's firmware not running, they do nothing.
-/
def Obligations.FramesReachTheirConsumers : Prop :=
  ∀ (p : Fin 2) (s : State),
    let x := portAt s p
    (isStandby s = false →
      (oldestFor s p 0 = none → exec (.classifyFrame p) s = .next s) ∧
      (∀ q f, oldestFor s p 0 = some (q, f) →
        let taken := fun t : State => tget (portAt t p).rx q [] = (tget x.rx q []).tail
        let et := fun r : Bytes => beAt r 16 2 == frameEt f.bytes
        ((peerFor s p false et).isSome = true →
          (∀ k, peerFor s p false (fun r => et r && slice r 2 6 == slice f.bytes 6 6) = some k →
            exec (.classifyFrame p) s = .next (receiveBundle k (f.bytes.drop (frameOff f.bytes)) (takeRx p q f s))) ∧
          (peerFor s p false (fun r => et r && slice r 2 6 == slice f.bytes 6 6) = none →
            leaves (.classifyFrame p) s (fun t => taken t ∧ counted s t .BND_NO_PEER_frames ∧ t.peers = s.peers))) ∧
        (peerFor s p false et = none →
          (udpOf f.bytes = none → leaves (.classifyFrame p) s (fun t => taken t ∧ counted s t .FLT_DROP_bad_ip ∧
            t.chans = s.chans)) ∧
          (∀ v6 src dst sport dport data, udpOf f.bytes = some (v6, src, dst, sport, dport, data) →
            peerFor s p true (fun r => v6 && slice r 34 16 == src && slice r 18 16 == dst &&
              beAt r 52 2 == sport && beAt r 50 2 == dport) = none →
            let key := fun m => rtpKey p (frameVlan f.bytes) v6 src dst sport dport m
            (findKey s (key 0) = none → findKey s (key 1) = none → leaves (.classifyFrame p) s (fun t =>
              taken t ∧ counted s t .FLT_DROP_no_session ∧ t.chans = s.chans)) ∧
            (∀ h, findKey s (key 0) = some h → entryUe s h = false →
              (liveChan s h = none → (tget? s.sess h).isSome = true → leaves (.classifyFrame p) s (fun t => taken t ∧
                (sessAt t h).drops = satTo 65535 ((sessAt s h).drops + 1) ∧ t.chans = s.chans)) ∧
              (∀ n, liveChan s h = some n → exec (.classifyFrame p) s =
                .next (rtpPacket n (legOfHandle (chanAt s n) h) data (takeRx p q f s)))))))) ∧
    (isStandby s = true →
      (nextForward s p = none → exec (.classifyFrame p) s = .next s) ∧
      (∀ f, nextForward s p = some f → peerFor s p false (fun r => beAt r 16 2 == frameEt f.2.2) = none →
        udpOf f.2.2 = none → leaves (.classifyFrame p) s (fun t => counted s t .FLT_DROP_bad_ip ∧
          t.pair.fwd = s.pair.fwd.filter (fun y => y != f) ∧ t.ports = s.ports))) ∧
    (s.mast.fw = false ∨ s.mast.down = true → ∀ port, exec (.mastFrameReceive port) s = .next s) ∧
    (s.mast.fw = true → s.mast.down = false →
      let rx := Instr.mastFrameReceive (p.castLE (by decide))
      (oldestFor s p 1 = none → exec rx s = .next s) ∧
      (∀ q f, oldestFor s p 1 = some (q, f) →
        (∀ r, mastAnswer s p f.bytes = some r → exec rx s = .next (draw (pushMast p r (takeRx p q f s)))) ∧
        (mastAnswer s p f.bytes = none → leaves rx s (fun t => counted s t .FLT_FILTER_DROP_mast_unhandled ∧
          tget (portAt t p).rx q [] = (tget x.rx q []).tail ∧ tget (portAt t p).tx q [] = tget x.tx q []))) ∧
      (s.svc.rx = [] → exec (.mastFrameReceive 2) s = .next s) ∧
      (∀ f rest, s.svc.rx = f :: rest → mastAnswer s 2 f.bytes = none → leaves (.mastFrameReceive 2) s (fun t =>
        counted s t .FLT_FILTER_DROP_mast_unhandled ∧ t.svc = { s.svc with rx := rest, used := s.svc.used - f.bufs })))

/-- From R240, R242, R243, R247 and R248: a pause frame stops every queue not in holdoff, and its end lets a queue go
on; the watchdog breaks a pause under which a frame waits, counted, and the queue is in holdoff until that ends; a
pending gate list whose base time has come becomes the operational one, whose entry gives the gates; a collision is
counted and backs off by a draw below 2^n, 16 of them or a late one lose the frame; a management frame ends with a
read's result. -/
def Obligations.PausesGatesAndTheServicePort : Prop :=
  ∀ (p : Fin 2) (q : Fin 8) (s : State),
    let x := portAt s p
    (∀ (b : Bytes), x.link = true → otherAddress s p b = false → 64 ≤ b.length → b.length ≤ fget s .TMC_CTRL_max_frame p →
      badFcs b = false → frameEt b = 0x8808 → beAt (b.take (b.length - 4)) (frameOff (b.take (b.length - 4))) 2 = 1 →
      fget s .TMC_CTRL_pause_mode p = 1 →
      let quanta := beAt (b.take (b.length - 4)) (frameOff (b.take (b.length - 4)) + 2) 2
      ∀ phase : BitVec 16, leaves (.frameReceive (p.castLE (by decide)) b ⟨false, phase⟩) s (fun t => counted s t .TMC_CTRL_RX_pause_rx p ∧
        (portAt t p).paused.getLsbD q = (if quanta = 0 then false else x.paused.getLsbD q || !x.holdoff.getLsbD q) ∧
        (portAt t p).rx = x.rx)) ∧
    leaves (.pauseExpire (p.castLE (by decide)) q) s (fun t =>
      portAt t p = { x with paused := x.paused &&& ~~~(1#8 <<< q.val) } ∧ t.svc = s.svc) ∧
    exec (.pauseExpire 2 q) s = .next { s with svc := { s.svc with paused := false } } ∧
    (x.paused.getLsbD q = true → (txHead s p q).isSome = true → leaves (.pauseWatchdog p q) s (fun t =>
      portAt t p = { x with
        paused := x.paused &&& ~~~(1#8 <<< q.val), holdoff := x.holdoff ||| (1#8 <<< q.val) } ∧
      counted s t .TMC_PAUSE_BREAK_pause_breaks p)) ∧
    (x.paused.getLsbD q = false ∨ txHead s p q = none → exec (.pauseWatchdog p q) s = .next s) ∧
    leaves (.holdoffEnd p q) s (fun t => portAt t p = { x with holdoff := x.holdoff &&& ~~~(1#8 <<< q.val) } ∧
      t.regs = s.regs) ∧
    (x.pending = none → exec (.gateListStart p) s = .next s) ∧
    (∀ l, x.pending = some l → nowNs s < l.base → exec (.gateListStart p) s = .next s) ∧
    (∀ l, x.pending = some l → l.base ≤ nowNs s → leaves (.gateListStart p) s (fun t => portAt t p = { x with
      pending := none, oper := some l, gate := BitVec.ofNat 8 (gatesAt l (nowNs s)) } ∧ t.regs = s.regs)) ∧
    (x.oper = none → exec (.gateEntryChange p) s = .next s) ∧
    (∀ l, x.oper = some l → leaves (.gateEntryChange p) s (fun t =>
      portAt t p = { x with gate := BitVec.ofNat 8 (gatesAt l (nowNs s)) } ∧ t.regs = s.regs)) ∧
    (s.svc.tx = [] ∨ svcFull s = true → ∀ late, exec (.svcCollision late) s = .next s) ∧
    (∀ f rest, s.svc.tx = f :: rest → svcFull s = false →
      (s.svc.attempt < 15 → leaves (.svcCollision false) s (fun t => t.svc.tx = s.svc.tx ∧
        t.svc.attempt = s.svc.attempt + 1 ∧ counted s t .SVC_COLL_collisions ∧
        ∃ n, t.svc.backoff = some n ∧ n < 2 ^ min (s.svc.attempt + 1) 10)) ∧
      (15 ≤ s.svc.attempt → leaves (.svcCollision false) s (fun t => counted s t .SVC_COLL_excess ∧
        t.svc = { s.svc with tx := rest, attempt := 0, backoff := none })) ∧
      leaves (.svcCollision true) s (fun t => counted s t .SVC_COLL_late ∧
        t.svc = { s.svc with tx := rest, attempt := 0, backoff := none })) ∧
    exec .svcBackoffEnd s = .next { s with svc := { s.svc with backoff := none } } ∧
    (∀ d : BitVec 16,
      (s.svc.mdio = false → exec (.mdioDone d) s = .next s) ∧
      (s.svc.mdio = true → fget s .SVC_MDIO_CMD_op = 2 →
        leaves (.mdioDone d) s (fun t => t.svc = { s.svc with mdio := false } ∧ fget t .SVC_MDIO_CMD_data = d.toNat)) ∧
      (s.svc.mdio = true → fget s .SVC_MDIO_CMD_op < 2 →
        exec (.mdioDone d) s = .next { s with svc := { s.svc with mdio := false } }))

/-! ### The TDM island -/

/-- From R257, R259, R261 to R263, R265, R266, R270, R272 and R290: a frame pulse of a LOCKED group receives the frame
that ends and drives the oldest queued one; with none queued it drives the last again, under the map of its own start,
and counts a slip. A misplaced pulse is counted and takes fs_present away until a frame begins (the model's choice, log
entry 55); a group that qualifies locks, its frame in progress begun, one that loses its clock or pulses is LOST,
counted, and qualifies when the clock returns; each change drops the group's frames. A swap copies the shadow map at its
boundary, the first after the arming or the first at or after its time, and says at which tick, and is refused where the
map fails its check. -/
def Obligations.HighwaysFollowTheirGroups : Prop :=
  ∀ (group : Fin 4) (s : State),
    let g := group.val
    let x := groupAt s g
    (∀ rx tx : List (Nat × Byte),
      (x.st = .disabled ∨ x.st = .lost → exec (.tdmFrameStart group rx tx) s = .next s) ∧
      (x.st = .qualifying → leaves (.tdmFrameStart group rx tx) s (fun t =>
        groupAt t g = { x with clock := true, fs := true } ∧ t.regs = s.regs)) ∧
      (x.st = .locked → ownsHalyard s = true →
        let got := if x.begun then x.rx ++ [rxFrame s g rx] else x.rx
        (∀ f rest, x.tx = f :: rest → leaves (.tdmFrameStart group rx tx) s (fun t => groupAt t g = { x with
          rx := got, tx := rest, last := f, lastMap := none, driven := driveFrame s g none f, begun := true, oldMap := none
          clock := true, fs := true } ∧ t.regs = s.regs)) ∧
        (x.tx = [] → leaves (.tdmFrameStart group rx tx) s (fun t => groupAt t g = { x with
          rx := got, driven := driveFrame s g x.lastMap x.last, begun := true, oldMap := none, clock := true, fs := true } ∧
          counted s t .TDM_GRP_SLIP_tx_slips g))) ∧
      (x.st = .locked → ownsHalyard s = false → leaves (.tdmFrameStart group rx tx) s (fun t =>
        (groupAt t g).begun = true ∧ t.tdm.held = (recordHeld g tx s).tdm.held))) ∧
    (x.st = .disabled → exec (.tdmFsMisplaced group) s = .next s) ∧
    (x.st ≠ .disabled → leaves (.tdmFsMisplaced group) s (fun t => counted s t .TDM_GRP_ERR_fs_errors g ∧
      groupAt t g = { x with clock := true, fs := false } ∧ t.tdm.swap = s.tdm.swap ∧ t.tdm.got = s.tdm.got)) ∧
    (let cleared := fun (st : GroupState) (clock fs : Bool) => { x with
      st := st, rx := [], tx := [], last := [], lastMap := none, driven := [], begun := st == .locked, oldMap := none
      backlog := false, left := false, clock := clock, fs := fs }
    (x.st = .qualifying → leaves (.tdmGroupLocked group) s (fun t => groupAt t g = cleared .locked true true)) ∧
    (x.st ≠ .qualifying → exec (.tdmGroupLocked group) s = .next s) ∧
    (∀ cause : Fin 3,
      (x.st = .locked ∨ x.st = .qualifying → leaves (.tdmGroupLost group cause) s (fun t =>
        groupAt t g = cleared .lost (x.clock && cause != 0) (x.fs && cause == 1) ∧
        counted s t .TDM_GRP_ERR_losses g)) ∧
      (x.st ≠ .locked → x.st ≠ .qualifying → exec (.tdmGroupLost group cause) s = .next s)) ∧
    (x.st = .lost → leaves (.tdmClockReturn group) s (fun t => groupAt t g = cleared .qualifying true x.fs)) ∧
    (x.st ≠ .lost → exec (.tdmClockReturn group) s = .next s)) ∧
    (s.tdm.swap = none → exec .tdmMapSwap s = .next s) ∧
    (∀ w, s.tdm.swap = some w → s.time.counter.toNat ≠ s.time.beganAt ∨ tickNow s ≤ w.tick ∨
      (w.now = false ∧ s.time.began < w.time) → exec .tdmMapSwap s = .next s) ∧
    (∀ w, s.tdm.swap = some w → s.time.counter.toNat = s.time.beganAt → w.tick < tickNow s →
      w.now = true ∨ w.time ≤ s.time.began →
      (shadowOk s = false → leaves .tdmMapSwap s (fun t => t.tdm = { s.tdm with swap := none } ∧
        fget t .TDM_SWAP_CTRL_result = 4 ∧
        ∀ l < 4096, regWord t (RegId.addr .TDM_MAP_ACTIVE l) = regWord s (RegId.addr .TDM_MAP_ACTIVE l))) ∧
      (shadowOk s = true → leaves .tdmMapSwap s (fun t => t.tdm.swap = none ∧ fget t .TDM_SWAP_CTRL_result = 2 ∧
        regWord t (RegId.addr .TDM_SWAP_TICK) = tickNow s % 2 ^ 32 ∧
        ∀ l < 4096, regWord t (RegId.addr .TDM_MAP_ACTIVE l) = regWord s (RegId.addr .TDM_MAP_SHADOW l))))

/-! ### Time and the islands' clocks -/

namespace Sys2Proof.Spec

open Sys2Proof.Machine

/-- A PTP message of a frame. -/
def messageOf (f : RxFrame) : Bytes := f.bytes.drop ((ptpOff f.bytes).getD 0)

/-- An event raised between two states: it waits behind the others, unless 256 wait already (R408). -/
def raised (s t : State) (src : Nat) (fields : List (Nat × Nat)) : Prop :=
  t.ev.pend = if s.ev.pend.length < 256 then
      s.ev.pend ++ [{ src := src, payload := payloadOf fields, tick := tickNow s, ns := timeNs s, sec := timeSec s }]
    else s.ev.pend

end Sys2Proof.Spec

/-- From R281 to R283 and R288: the engine takes a frame of the timing queue once the transparent clock has had it. One
that is not its own leaves no trace; signaling, management and messages with TLVs that it heeds none of are counted; the
engine's own Announce is dropped; a one-step Sync from the parent is counted and makes the port SLAVE. A Delay_Req
follows a parent and advances its sequence; a timeout returns the port to LISTENING, or DISABLED or FAULTY where the
port is off or down, and the servo to HOLDOVER with cause 1, which the cause of reefed mode outranks. Nothing happens
without firmware. -/
def Obligations.TheEngineFollowsItsParent : Prop :=
  ∀ (p : Fin 2) (s : State),
    let x := portAt s p
    (tget x.rx 8 [] = [] → exec (.ptpReceive p) s = .next s) ∧
    (firmwareRuns s = false →
      exec (.ptpReceive p) s = .next s ∧ exec .delayReqSend s = .next s ∧ exec .announceTimeout s = .next s) ∧
    (s.time.ptp < 8 → exec .delayReqSend s = .next s ∧ exec .announceTimeout s = .next s) ∧
    (∀ f rest, tget x.rx 8 [] = f :: rest →
      let m := messageOf f
      let taken := fun t : State => tget (portAt t p).rx 8 [] = rest
      (fget s .TIM_PTP_CTRL_tc_enable = 1 → f.fwd = false → exec (.ptpReceive p) s = .next s) ∧
      (firmwareRuns s = true → fget s .TIM_PTP_CTRL_tc_enable = 0 ∨ f.fwd = true →
        (forEngine s p f.bytes = false → leaves (.ptpReceive p) s (fun t => taken t ∧ t.time = s.time ∧ t.regs = s.regs)) ∧
        (forEngine s p f.bytes = true →
          (isPdelay m = false → ptpExcluded m = true → leaves (.ptpReceive p) s (fun t => taken t ∧ t.time = s.time ∧
            counted s t .TIM_PTP_COUNT_discarded)) ∧
          (ptpType m = 12 ∨ ptpType m = 13 → isPdelay m = false ∧ ptpExcluded m = true) ∧
          (ptpType m = 2 ∨ ptpType m = 3 ∨ ptpType m = 10 → leaves (.ptpReceive p) s (fun t => taken t ∧
            t.time = s.time ∧ counted s t .TIM_TC_COUNT_dropped)) ∧
          (ptpType m = 11 → ptpExcluded m = false → ptpSource m = ptpSelf s ∨ 255 ≤ beAt m 61 2 → leaves (.ptpReceive p) s (fun t => taken t ∧
            t.time = s.time ∧ t.regs = s.regs)) ∧
          (ptpType m = 0 → ptpExcluded m = false → leAt m 6 1 / 2 % 2 = 0 → s.time.ptp = 8 ∨ s.time.ptp = 9 → fromParent s m = true →
            servoOn s 0 = false → leaves (.ptpReceive p) s (fun t => taken t ∧ t.time.ptp = 9 ∧ t.time.sync = none ∧
              counted s t .TIM_PTP_COUNT_sync_rx ∧ t.time.r = s.time.r)) ∧
          (ptpType m = 0 → ptpExcluded m = false → leAt m 6 1 / 2 % 2 = 1 → 8 ≤ s.time.ptp → fromParent s m = true →
            leaves (.ptpReceive p) s (fun t => taken t ∧ t.regs = s.regs ∧
              t.time.sync = some (ptpSeq m, (stampValue f.stamp : Int), ptpCorrection m) ∧ t.time.ptp = s.time.ptp))))) ∧
    (firmwareRuns s = true → 8 ≤ s.time.ptp →
      (ptpPort s = p → let q := txQueue s p 3 0
        let r := ringOf s p 1 q
        let b := ptpFrame (delayReq s) s
        txUsed r.2 (tget x.tx q []) + buffersFor b.length r.2 ≤ r.1 → leaves .delayReqSend s (fun t =>
          tget (portAt t p).tx q [] = tget x.tx q [] ++ [{ bytes := b, source := 3 }] ∧
          t.time = { s.time with dreqSeq := (s.time.dreqSeq + 1) % 65536 })) ∧
      leaves .announceTimeout s (fun t => t.time.best = none ∧ t.time.sync = none ∧
        (fget s .TMC_CTRL_enable (ptpPort s) = 0 → t.time.ptp = 3) ∧
        (fget s .TMC_CTRL_enable (ptpPort s) = 1 → t.time.ptp = if (portAt s (ptpPort s)).link then 4 else 2) ∧
        (s.time.srv = .idle ∨ s.time.srv = .holdover → t.time.srv = s.time.srv ∧ t.time.r = s.time.r) ∧
        (s.time.srv = .holdover → t.time.cause = if s.time.cause = 4 then 4 else 1) ∧
        (s.time.srv ≠ .idle → s.time.srv ≠ .holdover → t.time.srv = .holdover ∧ t.time.cause = 1 ∧
          t.time.r = BitVec.ofInt 32 s.time.i)))

/-- From R295 to R298: an island that prepares is ARMED once its idle synthesizer locks, and at its boundary an ARMED
island runs at the frequency asked for on the other synthesizer, counted. Without lock the request is given up: the
island is RUNNING at its old clock on the same synthesizer, the failure counted and event 65 raised. In any other state
the rows do nothing. -/
def Obligations.IslandClocksSwitchOrStay : Prop :=
  ∀ (island : Fin 15) (s : State),
    let k := island.val
    (clockState s k = 1 →
      leaves (.synthLock island) s (fun t => clockState t k = 2 ∧ clockFreq t k = clockFreq s k ∧ t.isls = s.isls) ∧
      leaves (.islClkLockFail island) s (fun t => clockState t k = 0 ∧ clockFreq t k = clockFreq s k ∧
        fget t .ISL_CLK_STATUS_synth k = fget s .ISL_CLK_STATUS_synth k ∧ fget t .ISL_CLK_REQ_go k = 0 ∧
        counted s t .ISL_CLK_COUNT_lock_fails k ∧
        raised s t 65 [(1, k), (2, (islandAt s k).asked), (1, 1 - fget s .ISL_CLK_STATUS_synth k)])) ∧
    (clockState s k ≠ 1 → exec (.synthLock island) s = .next s ∧ exec (.islClkLockFail island) s = .next s) ∧
    (clockState s k = 2 → (islandAt s k).asked < 4096 → leaves (.islClkSwitch island) s (fun t =>
      clockState t k = 0 ∧ clockFreq t k = (islandAt s k).asked ∧ fget t .ISL_CLK_REQ_go k = 0 ∧
      fget t .ISL_CLK_STATUS_synth k = 1 - fget s .ISL_CLK_STATUS_synth k ∧
      counted s t .ISL_CLK_COUNT_switches k)) ∧
    (clockState s k ≠ 2 → exec (.islClkSwitch island) s = .next s)

/-- From R24, R25, R277 and R380: at a tick boundary the tick number is one higher, the counter has come to the boundary
and the next tick's length is 1 ms less the limited phase error; the parts of the boundary follow in their order (log
entry 102). A timed action that is due is taken once, waits for a move of its channel, and is discarded where its entry
was freed. In reset nothing happens. -/
def Obligations.TicksBeginInOrder : Prop :=
  ∀ (temp : BitVec 8) (sample : TtSample) (fixed : TickFixed) (seq : Word) (s : State),
    (inReset s = true → exec (.tickBoundary temp sample fixed) s = .next s ∧ exec (.timedAction seq) s = .next s) ∧
    (inReset s = false → exec (.tickBoundary temp sample fixed) s = .next ((List.range 128).foldl laneBoundary
      (ueWindow (ageSamples temp sample.margin sample.drift (rigBoundary (exchangeBoundary (tickNow s)
        (channelBoundary (ageBegins (clearLines (tdmSend (tickTime (tickFixed fixed s))))))))))))  ∧
    (let t := (tickTime s).time
     t.tick = s.time.tick + 1 ∧ t.counter = BitVec.ofNat 64 (boundaryCount s.time) ∧ t.beganAt = t.counter.toNat ∧
      ∃ sl : Int, t.next = s.time.next + (1000000 - sl) * 65536 ∧ -(fget s .TIM_TICK_CTRL_slew_ns : Int) ≤ sl ∧
        sl ≤ fget s .TIM_TICK_CTRL_slew_ns ∧ (t.phi.natAbs ≤ fget s .TIM_TICK_CTRL_slew_ns → sl = t.phi)) ∧
    (inReset s = false → s.mast.down = false →
      ((∀ a ∈ s.host.armed, boundaryNs s < a.time ∨ a.seq ≠ seq.toNat) → exec (.timedAction seq) s = .next s) ∧
      (∀ a, (dueActions s (boundaryNs s)).find? (fun a => a.seq == seq.toNat) = some a →
        let others := s.host.armed.filter (fun b => b.seq != a.seq)
        (actionWaits s a = true → exec (.timedAction seq) s = .next s) ∧
        (∀ h, a.handle = some h → a.freed = true ∨ (a.wasActive = true ∧ (sessAt s h).st = .parked) →
          actionWaits s a = false → leaves (.timedAction seq) s (fun t => t.host.armed = others ∧ t.sess = s.sess ∧
            t.chans = s.chans ∧ t.time = s.time)) ∧
        (actionWaits s a = false → exec (.timedAction seq) s =
          .next (atNextTick (fun u => actNow a { u with host := { u.host with armed := others } }) s))))

/-! ### Inter-island queues -/

namespace Sys2Proof.Spec

open Sys2Proof.Machine

/-- A counter of a queue's VC one higher, stopping at its greatest value (R12). -/
def vcCounted (s t : State) (f : Fld) (q v : Nat) : Prop :=
  fget t f q v = satTo (2 ^ (f.hi - f.lo + 1) - 1) (fget s f q v + 1)

end Sys2Proof.Spec

/-- From R300 to R304 and R313: a push of a bad length is refused and counted; one on a VC that is being pushed waits,
and refused 16 times over it escalates, counted; a drop-capable VC without credits for all of a packet drops it,
counted; else the packet starts with as many words as credits allow, in push order. A further word is stored once a
credit is free. -/
def Obligations.PushesTakeCredits : Prop :=
  ∀ (queue : Fin 512) (port : Nat) (b : Bytes) (s : State) (x : Queue) (v ep : Nat),
    let q := queue.val
    tget? s.ques q = some x → x.ports[port]? = some (v, ep) → v < 4 →
    let y := vcAt s q v
    let room := 0 < b.length ∧ b.length ≤ fget s .QUE_VC_CFG_max_bytes q v
    (¬ room → leaves (.queuePushStart queue port b) s (fun t => counted s t .QUE_DROPREC_bad_length q ∧ t.vcs = s.vcs)) ∧
    (room → (∀ w ∈ y.wait, w.port ≠ port) → vcBusy y = true ∨ y.wait ≠ [] →
      leaves (.queuePushStart queue port b) s (fun t =>
        vcAt t q v = { y with wait := y.wait ++ [{ port := port, bytes := b }] } ∧ t.regs = s.regs)) ∧
    (room → ∀ w, y.wait = [w] → w.port = port →
      (w.refused < 15 → leaves (.queuePushStart queue port b) s (fun t => t.regs = s.regs ∧
        vcAt t q v = { y with wait := [{ w with refused := w.refused + 1 }] })) ∧
      (w.refused = 15 → leaves (.queuePushStart queue port b) s (fun t => counted s t .QUE_ESC_escalations q ∧
        vcAt t q v = { y with wait := [{ w with refused := 16, urgent := true }] }))) ∧
    (room → vcBusy y = false → y.wait = [] →
      (fget s .QUE_VC_CFG_drop_capable q v = 1 → freeCredits s q v < wordsOf b.length →
        leaves (.queuePushStart queue port b) s (fun t => vcCounted s t .QUE_VC_STAT_drops q v ∧ t.vcs = s.vcs)) ∧
      (fget s .QUE_VC_CFG_drop_capable q v = 0 ∨ wordsOf b.length ≤ freeCredits s q v →
        leaves (.queuePushStart queue port b) s (fun t => t.regs = s.regs ∧
          ∃ p, vcAt t q v = { y with pkts := y.pkts ++ [p] } ∧ p.len = b.length ∧ p.port = port ∧ p.bad = false ∧
            p.words.length = min (freeCredits s q v) (wordsOf b.length) ∧ p.words.length + p.left = wordsOf b.length ∧
            ∀ i (h : i < p.words.length), p.words[i] = (BitVec.ofNat 64 (leAt b (8 * i) 8), Ecc.ok)))) ∧
    (∀ vc : Fin 4,
      let z := vcAt s q vc
      let held := z.pkts.foldl (fun n p => n + p.words.length) 0
      (vcBusy z = false ∨ fget s .QUE_VC_CFG_credits q vc ≤ held → exec (.queuePushWord queue vc) s = .next s) ∧
      (∀ front p, z.pkts = front ++ [p] → 1 < p.left → held < fget s .QUE_VC_CFG_credits q vc →
        leaves (.queuePushWord queue vc) s (fun t => t.regs = s.regs ∧
          vcAt t q vc = { z with pkts := front ++ [{ p with
            words := p.words ++ [(BitVec.ofNat 64 (leAt p.rest 0 8),
              if p.marks.contains 0 then Ecc.uncorrectable else Ecc.ok)]
            left := p.left - 1, rest := p.rest.drop 8
            marks := (p.marks.filter (fun i => decide (1 ≤ i))).map (fun i => i - 1) }] })))

/-- From R306 to R310 and R315: a pop takes the word at the head of a VC; with the last word of a sound packet the
packet is done, with an uncorrectable one it is a drop record, counted. A lane's port pops only what its receive area
has room for. A notice gives a lane's input port its word, for the first tick that begins after it, and an island its
packet. The delivery engine writes the oldest done packet at its place in the receive area, with its notice ready. A
head word held too long marks the VC stalled. With nothing at hand these do nothing. -/
def Obligations.QueuesDeliverPackets : Prop :=
  ∀ (queue : Fin 512) (vc : Fin 4) (s : State),
    let q := queue.val
    let v := vc.val
    let y := vcAt s q v
    (y.pkts = [] → exec (.queStall queue vc) s = .next s) ∧
    (readyPacket q v s = none → ∀ e, exec (.queuePop queue vc e) s = .next s) ∧
    (y.pkts = [] → readyPacket q v s = none) ∧
    (∀ p t0, y.pkts = p :: t0 → p.words ≠ [] →
      (queLane s q = none → readyPacket q v s = some (p, s)) ∧
      (∀ lane port off, queLane s q = some (lane, port) → p.off = some off →
        (areaSpan ((areaAt s lane port).used.erase (off, p.len)) (off + p.got.length) = true →
          readyPacket q v s = some (p, putArea lane port (areaAt s lane port) s)) ∧
        (areaSpan ((areaAt s lane port).used.erase (off, p.len)) (off + p.got.length) = false →
          readyPacket q v s = none))) ∧
    (∀ p s0 w e ws, readyPacket q v s = some (p, s0) → p.words = (w, e) :: ws →
      let t0 := y.pkts.drop 1
      (e = .ok → p.bad = false → p.filled = 0 →
        (ws ≠ [] ∨ 0 < p.left → leaves (.queuePop queue vc 0) s (fun t => t.regs = s.regs ∧ t.areas = s0.areas ∧
          vcAt t q v = { y with stalled := false, pkts := { p with words := ws, got := p.got ++ toLe 8 w.toNat } :: t0 })) ∧
        (ws = [] → p.left = 0 → leaves (.queuePop queue vc 0) s (fun t => t.regs = s.regs ∧
          vcAt t q v = { y with stalled := false, pkts := t0
                                done := y.done ++ [((p.got ++ toLe 8 w.toNat).take p.len, false, p.len, p.off.getD 0)] }))) ∧
      (e = .ok → p.filled = 0 → ws = [] → p.left = 0 → leaves (.queuePop queue vc 2) s (fun t =>
        (vcAt t q v).pkts = t0 ∧
        (vcAt t q v).done = y.done ++ [((p.got ++ toLe 8 w.toNat).take p.len, true, p.len, p.off.getD 0)] ∧
        counted s t .QUE_ECC_TOTAL_uncorrected ∧ counted s t .QUE_DROPREC_drop_records q)) ∧
      (y.stalled = true → exec (.queStall queue vc) s = .next s) ∧
      (y.stalled = false → fget s .QUE_VC_CFG_drop_capable q v = 1 → leaves (.queStall queue vc) s (fun t =>
        vcAt t q v = { y with stalled := true } ∧ fget t .QUE_STALL_stalled_queue = q ∧ fget t .QUE_STALL_stalled_vc = v))) ∧
    (queLane s q = none →
      (y.done = [] → exec (.queueNotice queue vc) s = .next s) ∧
      (∀ d t0, y.done = d :: t0 → leaves (.queueNotice queue vc) s (fun t =>
        vcAt t q v = { y with done := t0, last := some (d.1, d.2.1, tickNow s + 1) } ∧
        (d.2.1 = true → counted s t .ERR_CLASS_contained)))) ∧
    (∀ lane port, queLane s q = some (lane, port) →
      let mine := fun n : BitVec 32 => n.toNat / 2 ^ 28 % 4 == v
      ((areaAt s lane port).ready.find? mine = none → exec (.queueNotice queue vc) s = .next s) ∧
      (∀ n, (areaAt s lane port).ready.find? mine = some n → leaves (.queueNotice queue vc) s (fun t =>
        areaAt t lane port = { areaAt s lane port with
          ready := (areaAt s lane port).ready.erase n, noted := (areaAt s lane port).noted ++ [(n, tickNow s + 1)] } ∧ t.mem = s.mem))) ∧
    (∀ (lane : Fin 128) (port : Fin 8) (x : Queue),
      let a := areaAt s lane port
      s.ques.find? (fun p => queLane s p.1 == some (lane.val, port.val)) = some (q, x) →
        (firstDone s q = none → exec (.deliveryWrite lane port) s = .next s) ∧
        (∀ b drop n off t0, firstDone s q = some v → y.done = (b, drop, n, off) :: t0 →
          leaves (.deliveryWrite lane port) s (fun t =>
            vcAt t q v = { y with done := t0 } ∧
            areaAt t lane port = { a with ready := a.ready ++ [noticeWord drop v n off] } ∧
            t.mem = if drop then s.mem else (storeBytes (laneBase lane + a.base + off) b s).mem)))

/-! ### The loader, boot and power -/

namespace Sys2Proof.Spec

open Sys2Proof.Machine

/-- A load has failed with a code, and is counted; the image is gone and nothing else of the boot has changed. -/
def loadFails (s t : State) (code spar : Nat) : Prop :=
  t.rig.st = .failed ∧ t.rig.code = code ∧ t.rig.spar = spar ∧ t.rig.image = [] ∧ t.boot = s.boot ∧
    counted s t .RIG_COUNT_failures

/-- A failed load leaves the loader FAILED: it is none that falls back or halts the boot under R346. -/
def plainFailure (s : State) : Prop := s.boot.stage ≠ .load ∨ (s.boot.sel ≠ 1 ∧ (s.boot.sel ≠ 0 ∨ s.rig.src ≠ 1))

end Sys2Proof.Spec

/-- From R336 to R340 and R346: a load takes what QSPI gives at the place that it has come to, from the offset it began
at; it fails with 0x06 where data stay out, under BOOT_SEL 0b00 falling back to the host from QSPI, under 0b01 halting
the device; a whole image is VERIFYING, is verified, then checked, each failing with its code; applied, a boot load
locks the access tables and the device starts, an untrained cellar fails with 0x15; a re-rig holds the cluster's lanes
clearing. Out of their turn these do nothing. -/
def Obligations.LoadsAreReceivedCheckedAndApplied : Prop :=
  ∀ (f : FlashData) (s : State),
    let r := s.rig
    let b := f.bytes
    (¬ (r.st = .receiving ∧ r.src = 0) → exec .rigDataTimeout s = .next s) ∧
    (r.st = .receiving → r.src = 0 → plainFailure s → leaves .rigDataTimeout s (fun t => loadFails s t 0x06 0x3FF)) ∧
    (¬ (r.st = .receiving ∧ r.src = 1 ∧ f.offset = r.ofs + r.image.length) →
      exec (.qspiRead f true) s = .next s ∧ exec (.qspiRead f false) s = .next s) ∧
    (r.st = .receiving → r.src = 1 → f.offset = r.ofs + r.image.length →
      (r.image.length + b.length < 128 → leaves (.qspiRead f true) s (fun t => t.rig.image = r.image ++ b ∧
        t.rig.st = .receiving ∧ t.rig.bytes = r.image.length + b.length)) ∧
      (plainFailure s → leaves (.qspiRead f false) s (fun t => loadFails s t 0x06 0x3FF)) ∧
      (s.boot.stage = .load → s.boot.sel = 0 → leaves (.qspiRead f false) s (fun t =>
        t.rig.st = .waitHost ∧ t.rig.code = 0x06 ∧ t.boot.fallback = true ∧ t.boot.stage = .load)) ∧
      (s.boot.stage = .load → s.boot.sel = 1 → leaves (.qspiRead f false) s (fun t =>
        t.rig.st = .idle ∧ t.rig.code = 0x06 ∧ t.boot.stage = .halted ∧ t.boot.halt = 3 ∧ t.boot.bootFault = true))) ∧
    (r.st = .receiving → r.src = 1 → f.offset = r.ofs + r.image.length → 128 ≤ r.image.length →
      r.image.length < imgLen r.image → tableEnd r.image ≤ r.image.length → imgLen r.image ≤ r.image.length + b.length →
      leaves (.qspiRead f true) s (fun t => t.rig.image = (r.image ++ b).take (imgLen r.image) ∧ t.rig.st = .verifying)) ∧
    (r.st ≠ .verifying → exec .imageReceived s = .next s) ∧
    (r.st = .verifying →
      (signatureCheck s.boot.fuses r.image = 0 →
        exec .imageReceived s = .next { s with rig := { r with st := .checking, go := false } }) ∧
      (signatureCheck s.boot.fuses r.image ≠ 0 → plainFailure s →
        leaves .imageReceived s (fun t => loadFails s t (signatureCheck s.boot.fuses r.image) 0x3FF))) ∧
    (r.st ≠ .checking ∨ r.go = true → exec .loaderCheckDone s = .next s) ∧
    (r.st = .checking → r.go = false →
      (checkImage s = none → exec .loaderCheckDone s = .next { s with rig := { r with go := true } }) ∧
      (∀ code spar, checkImage s = some (code, spar) → plainFailure s →
        leaves .loaderCheckDone s (fun t => loadFails s t code spar))) ∧
    (r.st ≠ .checking ∨ r.go = false → exec (.rigApply true) s = .next s ∧ exec (.rigApply false) s = .next s ∧
      exec .rerigApply s = .next s) ∧
    (r.st = .checking → r.go = true →
      (r.rerig = none → exec .rerigApply s = .next s ∧
        leaves (.rigApply true) s (fun t => t.boot.stage = .start ∧ t.rig.st = .applying ∧ t.acc.locked = true) ∧
        (s.boot.stage = .load → s.boot.sel = 2 → leaves (.rigApply false) s (fun t => t.rig.st = .failed ∧
          t.rig.code = 0x15 ∧ fget t .CEL_STATUS_state = 4 ∧ t.boot.stage = .load))) ∧
      (∀ c, r.rerig = some c → exec (.rigApply true) s = .next s ∧ leaves .rerigApply s (fun t =>
        (∀ k < 16, (laneAt t (16 * c + k)).st = .clearing) ∧ (t.rig.st = .applying ∨ t.rig.code = 0x16))))

/-- From R345, R346, R348, R350, R355, R469, R472 to R474, R476, R477 and R491: power-on and a reset leave the fuses,
and a reset the memories; released, the boot stages begin in SUPPLY, halt with their codes, and reach LOAD with the
identity key of a valid seed, RUNNING once the firmware is ready. VID drives from the first release of RESET_N. A report
is signed under the next serial number. Supply excursions beyond a rail's thresholds, with VDD's window 40 mV around
every VID code of the last 1 ms, the first sequence violation and the loss of REFCLK, which takes every link down, are
recorded, and HST_FAULT.supply shows them as long as a rail is out of range, through a reset too. -/
def Obligations.BootStagesFollowThePower : Prop :=
  ∀ (sel : BitVec 2) (s : State),
    leaves .powerOn s (fun t => t.boot.fuses = s.boot.fuses ∧ t.boot.held = true ∧ t.mem = [] ∧ t.jtag = {} ∧
      t.chans = [] ∧ t.sess = [] ∧ t.host.cmds = [] ∧ fget t .PWR_RESET_cause = 0 ∧ vidPins t = none ∧
      fget t .PWR_SEQ_violation = 0 ∧
      fget t .PWR_SEQ_rail = 15 ∧ t.pending = s.pending) ∧
    leaves .resetAssert s (fun t => t.boot.held = true ∧ t.boot.fuses = s.boot.fuses ∧ t.mem = s.mem ∧
      t.time = State.reset.time ∧ t.chans = [] ∧ t.sess = [] ∧ t.lanes = State.reset.lanes ∧ t.acc = State.reset.acc ∧
      fget t .PWR_RESET_cause = 1 ∧ regWord t (RegId.addr .PWR_MON) = regWord s (RegId.addr .PWR_MON) ∧
      t.jtag = s.jtag ∧ t.pending = s.pending ∧ t.supply.vidDrives = s.supply.vidDrives ∧ t.age.vid = 5 ∧
      t.supply.past = if s.age.vid = 5 then s.supply.past else s.supply.past ++ [(s.age.vid, 1000000)]) ∧
    leaves .sysclkLoss s (fun t => t.sysLost = true ∧ t.boot.fuses = s.boot.fuses ∧ t.mem = s.mem ∧
      t.time = State.reset.time ∧ t.chans = [] ∧ fget t .PWR_RESET_cause = 2) ∧
    (s.boot.held = false → exec (.resetRelease sel) s = .next s) ∧
    (s.sysLost = false → exec (.sysclkReturn sel) s = .next s) ∧
    (s.boot.held = true → s.sysLost = false → leaves (.resetRelease sel) s (fun t => t.boot.held = false ∧
      vidPins t = some s.age.vid ∧ (∀ l < 128, ∀ i < 0x80000, Memory.read t.mem (laneBase l + i) = 0) ∧
      t.boot.stage = .supply ∧ t.boot.sel = sel ∧ t.boot.fuses = s.boot.fuses ∧
      fget t .HST_FAULT_supply = if s.supply.out = 0 then 0 else 1)) ∧
    (s.sysLost = true → s.boot.held = false → leaves (.sysclkReturn sel) s (fun t => t.sysLost = false ∧
      t.boot.stage = .supply ∧ t.boot.sel = sel ∧ t.boot.fuses = s.boot.fuses)) ∧
    (inReset s = true ∨ s.boot.stage ≠ .supply → (∀ a b c d e, exec (.bootSupplyReady a b c d e) s = .next s) ∧
      exec .bootSupplyTimeout s = .next s) ∧
    (inReset s = false → s.boot.stage = .supply →
      leaves .bootSupplyTimeout s (fun t => t.boot = { s.boot with bootFault := true }) ∧
      (fget s .PWR_SEQ_violation = 0 → fget s .PWR_MON_in_range = 0x7FF → ∀ rom healthy readA readB : Bool,
        leaves (.bootSupplyReady false rom healthy readA readB) s (fun t => t.boot.stage = .halted ∧ t.boot.halt = 1) ∧
        leaves (.bootSupplyReady true false healthy readA readB) s (fun t => t.boot.stage = .halted ∧ t.boot.halt = 2) ∧
        leaves (.bootSupplyReady true true healthy readA readB) s (fun t => t.boot.stage = .load ∧
          t.boot.m0 = sha512 Config.rom ∧ t.mast.mem = [] ∧ t.rig.ofs = (if s.boot.sel = 0 ∨ s.boot.sel = 1 then 0 else s.rig.ofs) ∧
          t.rig.st = (if s.boot.sel = 0 ∨ s.boot.sel = 1 then .receiving else .waitHost) ∧
          (s.boot.fuses.validA = true → t.boot.idOk = true ∧ t.boot.seed = 0 ∧ t.boot.fuses = s.boot.fuses) ∧
          (s.boot.fuses.validA = false → s.boot.fuses.validB = true →
            t.boot.idOk = true ∧ t.boot.seed = 1 ∧ t.boot.fuses = s.boot.fuses)))) ∧
    (s.boot.stage ≠ .start → exec .firmwareReady s = .next s ∧ exec .fwStartTimeout s = .next s) ∧
    (s.boot.stage = .start →
      (s.host.cmds = [] → leaves .firmwareReady s (fun t => t.boot.stage = .running ∧ t.mast.fw = true ∧
        t.pair.role = (if fget s .PAIR_CFG_mode = 0 then .unpaired else .listening) ∧
        regWord t (RegId.addr .BOOT_TIME) = s.time.counter.toNat / 1000000 % 2 ^ 32)) ∧
      leaves .fwStartTimeout s (fun t => t.boot.stage = .halted ∧ t.boot.halt = 4 ∧ t.boot.bootFault = true)) ∧
    (s.boot.busy = false → exec .attestDone s = .next s) ∧
    (s.boot.busy = true → leaves .attestDone s (fun t => t.boot.busy = false ∧ t.boot.ready = true ∧
      t.boot.attResult = 1 ∧ t.boot.serial = s.boot.serial + 1 ∧ t.boot.report.take s.boot.latch.length = s.boot.latch ∧
      t.boot.report.length = s.boot.latch.length + 136)) ∧
    (∀ (rail : Fin 11) (uv : Nat),
      ((fget s .PWR_MON_in_range).testBit rail = false ∨ railHolds s rail uv = true →
        exec (.supplyOutOfRange ⟨rail, uv⟩) s = .next s) ∧
      ((fget s .PWR_MON_in_range).testBit rail = true → railHolds s rail uv = false →
        leaves (.supplyOutOfRange ⟨rail, uv⟩) s (fun t => tget t.supply.volts rail 0 = uv ∧
          fget t .PWR_MON_in_range = fget s .PWR_MON_in_range - 2 ^ rail.val ∧ counted s t .PWR_COUNT_excursions ∧
          t.supply.out = s.supply.out ||| BitVec.twoPow 11 rail ∧
          (inReset s = false → fget t .HST_FAULT_supply = 1))) ∧
      (railHolds s rail uv = false → exec (.supplyInRange ⟨rail, uv⟩) s = .next s) ∧
      (railHolds s rail uv = true → leaves (.supplyInRange ⟨rail, uv⟩) s (fun t => tget t.supply.volts rail 0 = uv ∧
        (fget t .PWR_MON_in_range).testBit rail = true ∧ t.supply.out = s.supply.out &&& ~~~(BitVec.twoPow 11 rail) ∧
        (inReset s = false → fget t .HST_FAULT_supply = if t.supply.out = 0 then 0 else 1))) ∧
      (rail.val < 2 ∨ fget s .PWR_SEQ_violation = 1 → exec (.sequenceViolation rail) s = .next s) ∧
      (2 ≤ rail.val → fget s .PWR_SEQ_violation = 0 → leaves (.sequenceViolation rail) s (fun t =>
        fget t .PWR_SEQ_violation = 1 ∧ fget t .PWR_SEQ_rail = rail ∧ t.boot = s.boot))) ∧
    (fget s .PWR_MON_refclk_ok = 0 → exec .refclkLoss s = .next s) ∧
    (fget s .PWR_MON_refclk_ok = 1 → leaves .refclkLoss s (fun t => fget t .PWR_MON_refclk_ok = 0 ∧
      counted s t .PWR_COUNT_refclk_losses ∧ (portAt t 0).link = false ∧ (portAt t 1).link = false ∧
      (stayAt t 0).link = false ∧ (stayAt t 1).link = false)) ∧
    (let limits := railLimits s 0
     limits.1 ≤ vidMv s.age.vid - 40 ∧ vidMv s.age.vid + 40 ≤ limits.2 ∧
      (∀ p ∈ s.supply.past, limits.1 ≤ vidMv p.1 - 40 ∧ vidMv p.1 + 40 ≤ limits.2) ∧
      (s.supply.past = [] → limits = (vidMv s.age.vid - 40, vidMv s.age.vid + 40))) ∧
    leaves .refclkReturn s (fun t => fget t .PWR_MON_refclk_ok = 1 ∧ t.ports = s.ports)

/-! ### Errors, transfers and the cellar -/

/-- From R20, R399, R402, R403 and R342: a watchdog expiry or an uncorrectable mast memory word takes the mast island
down, counted, with HST_FAULT.mast_watchdog set, the response and a planner run gone and the journal kept; the third
within 10,000 ticks is fatal. After the restart a journal command that had not reached its boundary is executed again,
one that is done completes, and one whose journal words are lost completes with DROPPED. -/
def Obligations.MastResetsKeepTheJournal : Prop :=
  ∀ (word : MastWord) (s : State),
    let told := s.mast.badWords ++ word.journal.map (fun w => w.toNat)
    let now := tickNow s
    let recent := s.mast.resets.filter (fun t => decide (now < t + 10000)) ++ [now]
    let reset := fun t : State => t.mast.down = true ∧ t.mast.resets = recent ∧ t.host.resp = none ∧
      t.host.cmds = s.host.cmds ∧ t.boot.busy = false ∧ t.age.run = none ∧ counted s t .MST_RESTART_restarts ∧
      fget t .HST_FAULT_mast_watchdog = 1 ∧ (3 ≤ recent.length → fget t .ERR_FATAL_cause = 2)
    (s.mast.fw = false ∨ s.mast.down = true → exec .mastWatchdog s = .next s) ∧
    (s.mast.fw = false → exec (.mastMemUe word) s = .next s) ∧
    (s.mast.fw = true → s.mast.down = true →
      exec (.mastMemUe word) s = .next { s with mast := { s.mast with badWords := told } }) ∧
    (s.mast.fw = true → s.mast.down = false →
      leaves .mastWatchdog s (fun t => reset t ∧ t.mast.badWords = s.mast.badWords) ∧
      leaves (.mastMemUe word) s (fun t => reset t ∧ t.mast.badWords = told ∧ counted s t .MST_MEM_ECC_uncorrected)) ∧
    (s.mast.down = false → exec .mastRestart s = .next s) ∧
    (s.mast.down = true → s.mast.fw = true →
      (s.host.cmds = [] → leaves .mastRestart s (fun t => t.mast.down = false ∧ t.mast.badWords = [] ∧
        t.host.cmds = [] ∧ t.host.cpls = s.host.cpls ∧ t.rig.late = none)) ∧
      (∀ c, s.host.cmds = [c] → c.taken = true → cmdReserved (cmdOp c.desc) = false →
        (c.done = none → s.mast.badWords = [] → s.chans = [] → s.mast.effects = [] → s.mast.reads = [] →
          leaves .mastRestart s (fun t =>
          t.mast.down = false ∧ t.host.cmds = [{ c with taken := false }] ∧ t.host.cpls = s.host.cpls ∧
          counted s t .MST_RESTART_resumed)) ∧
        (c.seq ∈ s.mast.badWords → s.chans = [] → leaves .mastRestart s (fun t => t.mast.down = false ∧
          t.host.cmds = [] ∧ t.host.cpls = s.host.cpls ++ [cplRecord c.desc c.seq 8 (noneData (cmdOp c.desc))])) ∧
        (∀ r, c.done = some r → s.mast.badWords = [] → leaves .mastRestart s (fun t => t.mast.down = false ∧
          t.host.cmds = [] ∧ t.host.cpls = s.host.cpls ++ [r]))))

/-- From R16, R21, R40, R359, R366, R383 and R394: a transfer that meets an uncorrectable word moves the bytes before
it, poisons the destination from that word on, leaves all other memory and completes DROPPED; a cellar DMA transfer
moves data between the cellar and an attic or a lane's data memory where the tables permit it at both ends, the ends of
a context's copy under the IDs of the clusters they lie in; a refused one is recorded, completes DENIED and moves
nothing; any other range is none of its transfers; a copy of a channel's context is marked complete; what touches the
cellar waits while it retrains (R397). -/
def Obligations.TransfersMoveOrPoison : Prop :=
  ∀ (m : Fin 16) (src dst : BitVec 36) (len bad : BitVec 24) (u : DmaUse) (s : State), Memory.wf s.mem = true →
    let a := src.toNat
    let d := dst.toNat
    let n := len.toNat
    let b := bad.toNat
    let m1 := endMaster m a u
    let m2 := endMaster m d u
    let reads := permitted s m1 a n false = true
    let writes := permitted s m2 d n true = true
    let ended := fun (t : State) (status : Nat) => tget t.cel.dmaEnd m 0 = status
    let denied := fun (i : Instr) =>
      (¬ reads → leaves i s (fun t => t.mem = s.mem ∧ t.regs = (recordDenial m1 a n false s).regs ∧ ended t 1)) ∧
      (reads → ¬ writes → leaves i s (fun t => t.mem = s.mem ∧ t.regs = (recordDenial m2 d n true s).regs ∧ ended t 1))
    (n ≤ b → ∀ e, exec (.transferUe m src ⟨e, u⟩ len bad) s = .next s) ∧
    (cellarWaits s a d = true → exec (.transferUe m src ⟨some dst, u⟩ len bad) s = .next s ∧
      ∀ fixed : Nat, exec (.cellarDmaDone m src dst len ⟨u, fixed⟩) s = .next s) ∧
    (cellarWaits s a 0 = true → exec (.transferUe m src ⟨none, u⟩ len bad) s = .next s) ∧
    (b < n → cellarWaits s a 0 = false →
      (permitted s m a n false = true → leaves (.transferUe m src ⟨none, u⟩ len bad) s (fun t =>
        t.mem = s.mem ∧ poisoned t (a + b) 1 = true)) ∧
      (permitted s m a n false = false → leaves (.transferUe m src ⟨none, u⟩ len bad) s (fun t =>
        t.mem = s.mem ∧ t.poison = s.poison ∧ t.regs = (recordDenial m a n false s).regs))) ∧
    (b < n → cellarWaits s a d = false →
      (dmaMoves a d n u = false → exec (.transferUe m src ⟨some dst, u⟩ len bad) s = .next s) ∧
      (dmaMoves a d n u = true → denied (.transferUe m src ⟨some dst, u⟩ len bad)) ∧
      (dmaMoves a d n u = true → reads → writes → poisoned s a n = false → (∀ i < n, wordBytes (d + i) = wordBytes d) →
        leaves (.transferUe m src ⟨some dst, u⟩ len bad) s (fun t =>
          let k := wordOf (a + b) - a
          (∀ i < k, Memory.read t.mem (d + i) = Memory.read s.mem (a + i)) ∧
          (∀ i, k ≤ i → i < n → poisoned t (d + i) 1 = true) ∧
          (∀ p, p < d ∨ d + n ≤ p → Memory.read t.mem p = Memory.read s.mem p) ∧ ended t 8))) ∧
    (∀ fixed : Nat,
      let done := Instr.cellarDmaDone m src dst len ⟨u, fixed⟩
      let moves := n = 0 ∨ dmaMoves a d n u = true
      (¬ moves → exec done s = .next s) ∧
      (moves → cellarWaits s a d = false → denied done) ∧
      (moves → cellarWaits s a d = false → reads → writes →
        (meetsUe s a n = true → leaves done s (fun t => ended t 8 ∧
          ∀ p, p < d ∨ d + n ≤ p → Memory.read t.mem p = Memory.read s.mem p)) ∧
        (meetsUe s a n = false → leaves done s (fun t => ended t 0 ∧
          (∀ i < n, Memory.read t.mem (d + i) = Memory.read s.mem (a + i)) ∧
          (∀ p, p < d ∨ d + n ≤ p → Memory.read t.mem p = Memory.read s.mem p) ∧ (fixed = 0 → t.regs = s.regs) ∧
          (∀ k c mv, u = .context k → tget? s.chans k.toNat = some c → c.move = some mv → mv.phase = 1 →
            (chanAt t k.toNat).move = some { mv with copied := true })))))

/-- From R313, R396, R397 and R402: the scrubber, where it is enabled, reads the next word and goes on 8 bytes further,
counting what it finds and recording an uncorrectable word with the cellar's master ID; the sixteenth parity failure of
a master's command in a row escalates and retrains, during which none is issued; retraining that passes is counted, and
the third that fails is fatal. -/
def Obligations.TheCellarScrubsAndRetrains : Prop :=
  ∀ (check : BitVec 2) (m : Fin 16) (crc : Bool) (s : State),
    let failed := tget s.cel.fails m 0
    (fget s .CEL_SCRUB_enable = 0 ∨ s.cel.retrain.isSome = true → exec (.celScrubRead check) s = .next s) ∧
    (∀ c, fget s .CEL_SCRUB_enable = 1 → s.cel.retrain = none → scrubAt s s.cel.scrub = some c →
      poisoned s (cellarBase + c) 8 = false → leaves (.celScrubRead check) s (fun t =>
        (∀ k, scrubAt s (c + 8) = some k → t.cel.scrub = c + 8) ∧ (scrubAt s (c + 8) = none → t.cel.scrub = 0) ∧
        t.mem = s.mem ∧
        (check = 1 → counted s t .CEL_ECC_corrected ∧ t.poison = s.poison) ∧
        (check = 0 → t.poison = s.poison ∧ fget t .CEL_ECC_corrected = fget s .CEL_ECC_corrected) ∧
        (2 ≤ check.toNat → counted s t .CEL_ECC_uncorrected ∧ counted s t .CEL_SCRUB_STATUS_found_ue ∧
          poisoned t (cellarBase + c) 8 = true ∧ fget t .CEL_ECC_LAST_HI_valid = 1 ∧
          fget t .CEL_ECC_LAST_HI_master = 10 ∧ fget t .CEL_ECC_LAST_LO_offset_lo = c % 2 ^ 32))) ∧
    (s.cel.retrain.isSome = true → exec (.celCaRetry m crc) s = .next s) ∧
    (s.cel.retrain = none → failed < 15 → leaves (.celCaRetry m crc) s (fun t =>
      t.cel = { s.cel with fails := tset s.cel.fails m (failed + 1) } ∧ counted s t .CEL_RETRY_ca_retries)) ∧
    (s.cel.retrain = none → 15 ≤ failed → leaves (.celCaRetry m crc) s (fun t =>
      t.cel = { s.cel with fails := tdel s.cel.fails m, retrain := some crc } ∧
      counted s t .CEL_RETRY_ca_retries ∧ counted s t .CEL_RETRY_escalations ∧ fget t .CEL_STATUS_state = 3)) ∧
    (s.cel.retrain = none → ∀ ok, exec (.celRetrainDone ok) s = .next s) ∧
    (s.cel.retrain.isSome = true →
      leaves (.celRetrainDone true) s (fun t => t.cel = { s.cel with retrain := none, retries := 0 } ∧
        fget t .CEL_STATUS_state = 2 ∧ counted s t .CEL_STATUS_trainings) ∧
      (s.cel.retries < 2 → leaves (.celRetrainDone false) s (fun t =>
        t.cel = { s.cel with retries := s.cel.retries + 1 } ∧ fget t .CEL_STATUS_state = fget s .CEL_STATUS_state)) ∧
      (2 ≤ s.cel.retries → leaves (.celRetrainDone false) s (fun t => fget t .CEL_STATUS_state = 4 ∧
        t.cel = { s.cel with retrain := none, retries := 0 } ∧ fget t .ERR_FATAL_cause = 1)))

/-! ### Stay links and the pair -/

namespace Sys2Proof.Spec

open Sys2Proof.Machine

/-- A frame that a stay port's link accepts (R417, R418). -/
structure Accepted (p : Nat) (f : StayIn) (s : State) : Prop where
  up : (stayAt s p).link = true ∧ (stayAt s p).cut = false
  sound : f.crcOk = true ∧ f.length.toNat = f.data.length
  next : staySequenced f.type.toNat = true → f.seq = (stayAt s p).rxNext
  acked : f.type ≠ 1 →
    (f.ack - ((stayAt s p).txSeq - BitVec.ofNat 16 (stayAt s p).unacked.length)).toNat ≤ (stayAt s p).unacked.length

/-- An accepted frame of a type, from the partner, on a pair outside a ring whose HELLO has passed (R413, R419). -/
structure FromPartner (p type : Nat) (f : StayIn) (s : State) : Prop where
  taken : Accepted p f s
  type : f.type.toNat = type
  hello : (stayAt s p).hello = 1
  paired : pairMode s ≠ 0
  pair : inRing s = false

/-- The rows of the stay frames. -/
def stayRows (c : CopyIn) (k : CheckIn) (l : List CopyItem) : List (Fin 2 → StayIn → Instr) :=
  [.ack, .hello, .heartbeat, .yield, fun p f => .copy p f c, .copyAck, .forward, .digest, fun p f => .check p f k,
   fun p f => .sync p f l]

end Sys2Proof.Spec

/-- From R415, R417 and R418: a frame on a link that is down or cut has no effect; one with a wrong CRC is counted; a
reserved type or a wrong length cuts the link, counted with its cause; one out of sequence is dropped. A link comes up
on an enabled port, goes down and is cut, and trains again after the cut; HELLOs go until one has come; unacknowledged
frames go again, and one sent 16 times cuts the link. -/
def Obligations.StayLinksCheckTheirFrames : Prop :=
  ∀ (p : Fin 2) (s : State),
    let x := stayAt s p
    let cutWith := fun (cause : Nat) (t : State) => (stayAt t p).cut = true ∧ (stayAt t p).unacked = [] ∧
      (stayAt t p).waiting = [] ∧ (stayAt t p).hello = 0 ∧ counted s t .STY_CUT_cuts p ∧ fget t .STY_CUT_last_cause p = cause
    (∀ c k l, ∀ r ∈ stayRows c k l, ∀ f : StayIn,
      (x.link = false ∨ x.cut = true → exec (r p f) s = .next s) ∧
      (x.link = true → x.cut = false →
        (f.crcOk = false → leaves (r p f) s (fun t => counted s t .STY_ERR_crc_errors p ∧ t.stay = s.stay ∧
          t.pair = s.pair)) ∧
        (f.crcOk = true →
          (10 ≤ f.type.toNat → leaves (r p f) s (cutWith 1)) ∧
          (f.type.toNat < 10 → f.length.toNat ≠ f.data.length → leaves (r p f) s (cutWith 2)) ∧
          (f.length.toNat = f.data.length → staySequenced f.type.toNat = true → f.seq ≠ x.rxNext →
            exec (r p f) s = .next s)))) ∧
    (fget s .STY_CTRL_enable p = 1 → x.link = false → x.cut = false → leaves (.stayLinkUp p) s (fun t =>
      stayAt t p = { x.cleared with link := true })) ∧
    (fget s .STY_CTRL_enable p = 0 ∨ x.link = true ∨ x.cut = true → exec (.stayLinkUp p) s = .next s) ∧
    (x.link = true → leaves (.stayLinkDown p) s (fun t => (stayAt t p).link = false ∧ cutWith 5 t)) ∧
    (x.link = false → exec (.stayLinkDown p) s = .next s) ∧
    (x.cut = true → leaves (.stayCutEnd p) s (fun t => stayAt t p = { x.cleared with cut := false, link := false } ∧
      t.regs = s.regs)) ∧
    (x.cut = false → exec (.stayCutEnd p) s = .next s) ∧
    (x.link = true → x.cut = false → x.helloDone = false → leaves (.helloSend p) s (fun t =>
      counted s t .STY_FRAMES_tx_frames p ∧ ∃ f, stayAt t p = { x with out := x.out ++ [f] } ∧ f.type = 1 ∧
        f.data = helloData s)) ∧
    (x.link = false ∨ x.cut = true ∨ x.helloDone = true → exec (.helloSend p) s = .next s) ∧
    (x.link = false ∨ x.cut = true ∨ x.unacked = [] → exec (.stayRetransmit p) s = .next s) ∧
    (x.link = true → x.cut = false → x.unacked ≠ [] →
      ((∀ f ∈ x.unacked, f.2 < 16) → leaves (.stayRetransmit p) s (fun t => counted s t .STY_ERR_retransmits p ∧
        stayAt t p = { x with
          unacked := x.unacked.map (fun f => (f.1, f.2 + 1))
          out := x.out ++ x.unacked.map (fun f => { f.1 with ack := x.rxNext }) })) ∧
      ((∃ f ∈ x.unacked, 16 ≤ f.2) → leaves (.stayRetransmit p) s (cutWith 4)))

/-- From R404, R417, R419, R421, R426, R430, R431, R433 and R434: what an accepted frame of the partner does. An ACK
frees what it acknowledges, and frames held back go on; the first HELLO decides the link; a heartbeat is noted; a YIELD
is remembered; a standby keeps a COPY's segments, writes them with the last one and acknowledges it, and in full shadow
owes the results of work to its own, applies a SYNC, keeps a forwarded frame and holds digests against its own; the
active device takes a COPY_ACK; a CHECK asks for a self-check or brings the partner's result. -/
def Obligations.StayFramesReachThePair : Prop :=
  ∀ (p : Fin 2) (f : StayIn) (s : State),
    let x := stayAt s p
    let d := f.data
    let freed := (f.ack - (x.txSeq - BitVec.ofNat 16 x.unacked.length)).toNat
    (f.type = 0 → Accepted p f s → leaves (.ack p f) s (fun t => t.pair = s.pair ∧
      stayAt t p = stayAt (stayFlow p (putStay p { x with unacked := x.unacked.drop freed } s)) p ∧
      (x.waiting = [] → stayAt t p = { x with unacked := x.unacked.drop freed }) ∧ counted s t .STY_FRAMES_rx_frames p)) ∧
    (f.type = 1 → Accepted p f s →
      (x.helloDone = true → leaves (.hello p f) s (fun t => stayAt t p = x ∧ t.pair = s.pair)) ∧
      (x.helloDone = false → leaves (.hello p f) s (fun t => (stayAt t p).helloDone = true ∧
        (stayAt t p).hello = (helloCheck s d).1 + 1 ∧ (stayAt t p).unacked = x.unacked))) ∧
    (FromPartner p 2 f s → leaves (.heartbeat p f) s (fun t => t.pair.seen = true ∧ t.pair.lost = false ∧
      t.pair.hbTick = tickNow s ∧ t.pair.pRole = leAt d 0 1 ∧ t.pair.pFlags = BitVec.ofNat 8 (leAt d 1 1) ∧
      t.pair.role = (if s.pair.role = .listening ∧ leAt d 0 1 = 2 then .standby else s.pair.role) ∧
      t.pair.owner = s.pair.owner)) ∧
    (FromPartner p 3 f s → leaves (.yield p f) s (fun t =>
      t.pair = { s.pair with pFlags := s.pair.pFlags ||| 4, challengeAt := none })) ∧
    (∀ c : CopyIn, FromPartner p 4 f s →
      (isStandby s = false → leaves (.copy p f c) s (fun t => t.pair = s.pair ∧ t.mem = s.mem)) ∧
      (isStandby s = true → c.items = [] → c.last = true → s.pair.staging = none → leaves (.copy p f c) s (fun t =>
        t.pair = { s.pair with copyTick := c.tick.toNat, copyBad := false } ∧ ∃ g ∈ (stayAt t p).out ++ (stayAt t p).waiting, g.type = 5 ∧
          g.data = toLe 8 c.tick.toNat)) ∧
      (isStandby s = true → c.last = false → s.pair.staging = none → leaves (.copy p f c) s (fun t => t.mem = s.mem ∧
        t.sess = s.sess ∧ t.chans = s.chans ∧ t.pair = { s.pair with staging := some (c.tick.toNat, c.items) })) ∧
      (∀ a b, isStandby s = true → c.items = [.memory a b] → c.last = true → s.pair.staging = none →
        (permitted s 13 a.toNat b.length true = true → leaves (.copy p f c) s (fun t =>
          t.pair.copyTick = c.tick.toNat ∧ t.mem = (storeBytes a.toNat b s).mem)) ∧
        (permitted s 13 a.toNat b.length true = false → leaves (.copy p f c) s (fun t =>
          t.pair.copyTick = s.pair.copyTick ∧ t.mem = s.mem))) ∧
      (∀ h q ts, isStandby s = true → c.items = [.leg h q ts] → c.last = true → s.pair.staging = none → pairMode s = 2 →
        leaves (.copy p f c) s (fun t => t.pair.owed = s.pair.owed ++ c.items ∧ t.sess = s.sess ∧ t.chans = s.chans))) ∧
    (FromPartner p 5 f s →
      (s.pair.role ≠ .active → leaves (.copyAck p f) s (fun t => t.pair = s.pair)) ∧
      (s.pair.role = .active → leaves (.copyAck p f) s (fun t => t.pair = { s.pair with
        copyTick := max s.pair.copyTick (leAt d 0 8)
        copyWait := s.pair.copyWait.filter (fun w => decide (leAt d 0 8 < w)) }))) ∧
    (FromPartner p 6 f s →
      (isStandby s = true → pairMode s = 2 → leaves (.forward p f) s (fun t => counted s t .PAIR_FWD_forwarded ∧
        t.pair = { s.pair with fwd := s.pair.fwd ++ [(leAt d 0 8 * 2 ^ 24 + leAt d 9 3, leAt d 8 1, d.drop 12)] })) ∧
      (isStandby s = false ∨ pairMode s ≠ 2 → leaves (.forward p f) s (fun t => t.pair = s.pair))) ∧
    (FromPartner p 7 f s →
      let k := 2 * leAt d 0 8
      (isStandby s = false ∨ digesting s = false → leaves (.digest p f) s (fun t => t.pair = s.pair)) ∧
      (isStandby s = true → digesting s = true →
        (tget? s.pair.digests k = none → leaves (.digest p f) s (fun t =>
          tget? t.pair.digests (k + 1) = some (digestList d) ∧ t.pair.checks = s.pair.checks)) ∧
        (tget? s.pair.digests k = some (digestList d) → leaves (.digest p f) s (fun t =>
          t.pair = { s.pair with digests := tdel s.pair.digests k })))) ∧
    (∀ c : CheckIn, FromPartner p 8 f s →
      (c.result = none → (∀ k ∈ s.pair.checks, k.lane ≠ c.lane) → leaves (.check p f c) s (fun t =>
        t.pair = { s.pair with checks := s.pair.checks ++ [{ lane := c.lane, tick := c.tick.toNat }] })) ∧
      (∀ r k, c.result = some r → s.pair.checks = [k] → k.lane = c.lane → k.own = none →
        leaves (.check p f c) s (fun t => t.pair = { s.pair with checks := [{ k with other := some r }] }))) ∧
    (∀ l : List CopyItem, FromPartner p 9 f s →
      (isStandby s = false ∨ l = [] → leaves (.sync p f l) s (fun t => t.pair = s.pair ∧ t.mem = s.mem)) ∧
      (∀ a b, isStandby s = true → l = [.memory a b] → permitted s 13 a.toNat b.length true = true →
        leaves (.sync p f l) s (fun t => t.pair = s.pair ∧ t.mem = (storeBytes a.toNat b s).mem)))

/-- From R422, R424 to R430, R432, R434 and R438: the pair's own rows. A lost heartbeat, a copy timeout and a failed
condition make the pair unprotected with their cause; a bulk sync starts where its conditions hold, and done it protects
the pair; a challenge is put to the line where the device wants ownership, and a round won gains it, a round lost takes
it; the line's faults, the end of listening and of a self-check are noted. Where their condition does not hold, these do
nothing. -/
def Obligations.ThePairKeepsOneOwner : Prop :=
  ∀ s : State,
    let x := s.pair
    (x.seen = false → exec .pairHeartbeatLost s = .next s) ∧
    (x.seen = true → leaves .pairHeartbeatLost s (fun t => t.pair.seen = false ∧ t.pair.lost = true ∧
      t.pair.sync = 0 ∧ t.pair.cause = 2 ∧ t.pair.copyWait = none ∧ t.pair.role = x.role)) ∧
    (x.copyWait = none → exec .pairCopyTimeout s = .next s) ∧
    (∀ w, x.copyWait = some w → leaves .pairCopyTimeout s (fun t => t.pair.sync = 0 ∧ t.pair.copyWait = none ∧
      t.pair.cause = (if x.cause = 2 then 2 else 4))) ∧
    (x.sync ≠ 1 → exec .pairSyncDone s = .next s) ∧
    (x.sync = 1 →
      (x.seen = true → eligible s = true → partnerFlag s 0 = true → leaves .pairSyncDone s (fun t =>
        t.pair = { x with syncBytes := 0, sync := 2, cause := 0 })) ∧
      (x.seen = true → eligible s = false ∨ partnerFlag s 0 = false → leaves .pairSyncDone s (fun t =>
        t.pair = { x with syncBytes := 0, sync := 0, cause := 6, copyWait := none }))) ∧
    (syncReady s = false → exec .bulkSyncStart s = .next s) ∧
    (syncReady s = true →
      (pairMode s = 2 → x.aligned = false → leaves .bulkSyncStart s (fun t => t.pair.sync = 0 ∧ t.pair.cause = 9)) ∧
      (pairMode s ≠ 2 ∨ x.aligned = true → leaves .bulkSyncStart s (fun t => t.pair.sync = 1 ∧
        t.pair.syncStart = tickNow s ∧ t.pair.resynced = []))) ∧
    (let due := ∀ k, x.challengeAt = some k → k ≤ tickNow s
     (wantsOwner s = false ∨ x.round.isSome = true ∨ ¬ due → ∀ line, exec (.challenge line) s = .next s) ∧
     (wantsOwner s = true → due → x.round = none →
       exec (.challenge .works) s = .next { s with pair := { x with
         lineLow := false, round := some { entered := true, eligible := true } } } ∧
       exec (.challenge .heldLow) s = .next s ∧
       leaves (.challenge .heldHigh) s (fun t => fget t .PAIR_HALYARD_fault = 2 ∧ t.pair = { x with
         lineLow := false, challengeAt := some (tickNow s + fget s .PAIR_CTRL_rechallenge_ticks) }))) ∧
    (pairMode s = 0 ∨ x.round.isSome = true ∨ inReset s = true → exec .halyardStart s = .next s) ∧
    (pairMode s ≠ 0 → x.round = none → inReset s = false → exec .halyardStart s = .next { s with pair := { x with
      lineLow := false, round := some {
        entered := x.owner && eligible s && !x.yielding && ownClaim s != 0, eligible := eligible s } } }) ∧
    (pairMode s = 0 ∨ x.round.isSome = true ∨ x.lineLow = true → exec .halyardStuckLow s = .next s) ∧
    (pairMode s ≠ 0 → x.round = none → x.lineLow = false → leaves .halyardStuckLow s (fun t =>
      fget t .PAIR_HALYARD_fault = 1 ∧ t.pair = { x with lineLow := true })) ∧
    (∀ others : BitVec 8,
      (x.round = none → exec (.halyardRound others) s = .next s) ∧
      (∀ r, x.round = some r →
        (r.entered = true → others.toNat ≤ ownClaim s → leaves (.halyardRound others) s (fun t =>
          counted s t .PAIR_HALYARD_rounds ∧ fget t .PAIR_HALYARD_last_claim = ownClaim s ∧
          t.pair = { x with round := none, gaining := !x.owner })) ∧
        (ownClaim s < others.toNat → leaves (.halyardRound others) s (fun t => t.pair.round = none ∧
          t.pair.owner = false ∧ t.pair.gaining = x.gaining ∧
          (x.owner = true → t.pair.role = .standby ∧ ∀ g ∈ t.tdm.groups, g.2.driven = []) ∧
          (x.owner = false → r.entered = true →
            t.pair.challengeAt = some (tickNow s + fget s .PAIR_CTRL_rechallenge_ticks)))))) ∧
    (x.gaining = false → exec .pairOwnerGained s = .next s) ∧
    (x.gaining = true → leaves .pairOwnerGained s (fun t => t.pair.owner = true ∧ t.pair.gaining = false ∧
      t.pair.role = .active ∧ t.pair.challengeAt = none ∧
      t.pair.resume = some (tickNow s + (if pairMode s = 1 then 2 else 1)) ∧
      (pairMode s = 2 → unsyncedChans s ≠ [] → t.pair.late = some (tickNow s + 2, unsyncedChans s)))) ∧
    (x.role = .listening → x.heldTick + fget s .PAIR_CTRL_startup_ticks ≤ tickNow s →
      exec .listeningEnd s = .next { s with pair := { x with listenOver := true } }) ∧
    (x.role ≠ .listening ∨ tickNow s < x.heldTick + fget s .PAIR_CTRL_startup_ticks → exec .listeningEnd s = .next s) ∧
    (x.yielding = false ∨ x.owner = false → exec .pairYieldFailed s = .next s) ∧
    (x.yielding = true → x.owner = true → leaves .pairYieldFailed s (fun t =>
      t.pair = { x with yielding := false, yieldCmds := [] })) ∧
    (∀ ok : Bool,
      ((∀ k ∈ x.checks, k.own.isSome = true) → exec (.selfCheck ok) s = .next s) ∧
      (∀ k, x.checks = [k] → k.own = none → k.other = none → leaves (.selfCheck ok) s (fun t =>
        t.pair = { x with checks := [{ k with own := some ok }] }))) ∧
    ((∀ k ∈ x.checks, k.other.isSome = true ∨ tickNow s < k.tick + 2) → exec .selfCheckTimeout s = .next s) ∧
    (∀ k, x.checks = [k] → k.own = none → k.other = none → k.tick + 2 ≤ tickNow s → leaves .selfCheckTimeout s (fun t =>
      t.pair = { x with checks := [{ k with other := some false }] }))

/-! ### Ageing, reefed mode, the wake-only state, boundary scan -/

/-- From R446, R448, R454, R455, R459 and R460: an hour is counted, and the firmware adds its stress; a planner run is
taken on while the firmware runs, and ends; a due reef cause reefs a running device that is not reefed; the wake-only
state keeps the fuses and the service port's registers and is left for the boot stages, by a wake match where a command
began it, else by temperature. Without their condition these do nothing. -/
def Obligations.AgeingReefsAndSleeps : Prop :=
  ∀ s : State,
    let a := s.age
    (inReset s = true → exec .hourEnd s = .next s) ∧
    (inReset s = false → exec .hourEnd s = .next { s with age := { a with
      hours := a.hours + 1, tempSum := 0, tempTicks := 0
      he := if s.mast.fw then planSum a.he (hourFactor a.tempSum a.tempTicks) else a.he } }) ∧
    (s.mast.fw = false ∨ s.mast.down = true → exec .plannerRun s = .next s) ∧
    (a.steps = none → a.run = none → exec .plannerRun s = .next s) ∧
    (∀ r, a.steps = none → a.run = some r →
      (r.wait ≠ 0 → exec .plannerRun s = .next s) ∧
      (r.wait = 0 → r.ending = true → r.exit_ = none → s.mast.fw = true → s.mast.down = false →
        leaves .plannerRun s (fun t => t.age.run = none ∧ t.age.low = [] ∧ t.age.reefed = a.reefed))) ∧
    (a.due = 0 ∨ a.reefed = true ∨ isRunning s = false → exec .reefEntry s = .next s) ∧
    (a.due ≠ 0 → a.reefed = false → isRunning s = true → leaves .reefEntry s (fun t => t.age.reefed = true ∧
      t.age.b0 = tickNow s ∧ t.age.due = 0 ∧ t.age.askCmds = [] ∧
      (s.chans = [] → a.askCmds = [] → t.age.entering = false ∧ fget t .AGE_REEF_causes = a.due.toNat ∧
        counted s t .AGE_COUNT_reefs ∧ fget t .AGE_REEF_parked = 0))) ∧
    (let asleep := fun (cause : Nat) (t : State) => t.age.wake = some cause ∧ t.age.vid = 0 ∧ t.sess = [] ∧
       t.chans = [] ∧ t.boot.fuses = s.boot.fuses ∧ t.mem = s.mem ∧ t.age.hours = a.hours ∧
       (s.regs.Pairwise (fun x y => x.1 < y.1) → ∀ r, 0x220000 ≤ r → r < 0x230000 → regWord t r = regWord s r)
     (a.wakeAsk = some 2 → leaves .wakeOnlyEnter s (asleep 0)) ∧
     (a.wakeAsk ≠ some 2 → a.reefed = true → 100 ≤ a.veryHot → leaves .wakeOnlyEnter s (asleep 1)) ∧
     (a.wakeAsk ≠ some 2 → a.reefed = false ∨ a.veryHot < 100 → exec .wakeOnlyEnter s = .next s)) ∧
    (∀ sel : BitVec 2,
      let hit := fget s .SVC_WAKE_magic_hit = 1 ∨ fget s .SVC_WAKE_pattern_hit ≠ 0
      let boots := fun t : State => t.age.wake = none ∧ t.boot.stage = .supply ∧ t.boot.sel = sel ∧
        t.boot.fuses = s.boot.fuses ∧ fget t .PWR_RESET_cause = 3
      (a.wake = some 0 → hit → leaves (.wakeOnlyExit true sel) s boots) ∧
      (a.wake = some 1 → leaves (.wakeOnlyExit false sel) s boots) ∧
      (a.wake = none ∨ (a.wake = some 0 ∧ ¬ hit) → ∀ m, exec (.wakeOnlyExit m sel) s = .next s))

namespace Sys2Proof.Spec

/-- Power-on and the commands of boundary scan (R497 to R499). -/
def touchesTap : Instr → Bool
  | .powerOn .. | .bypass | .idcode | .samplePreload .. | .extest | .clamp | .highz | .tapReset => true
  | _ => false

end Sys2Proof.Spec

/-- From R498 and R499: each TAP instruction takes force and selects its register, with the value it captures (0 in
bypass by log entry 93): the identification of IDCODE, the pins of SAMPLE/PRELOAD, which loads the boundary register,
and that register in EXTEST; a reset of the TAP selects identification. The scanned pins that drive follow the boundary
register in EXTEST and CLAMP, in reset too, and go high-impedance in HIGHZ; a reset of the TAP gives them back to their
functions, and in reset of the device to their reset states (R496). Nothing else of the device changes, and no other
command but power-on touches the TAP. -/
def Obligations.BoundaryScanSelectsItsRegister : Prop :=
  (∀ (i : Instr) (s t : State), touchesTap i = false → exec i s = .next t → t.jtag = s.jtag) ∧
  ∀ (pins preload : Nat) (s : State),
    let j := s.jtag
    exec .bypass s = .next { s with jtag := { j with instr := .bypass, selected := 0, shift := 0 } } ∧
    exec .clamp s = .next { s with jtag := { j with instr := .clamp, selected := 0, shift := 0 } } ∧
    exec .highz s = .next { s with jtag := { j with instr := .highz, selected := 0, shift := 0 } } ∧
    exec .idcode s = .next { s with jtag := { j with instr := .idcode, selected := 1, shift := 0x1819258B } } ∧
    exec (.samplePreload pins preload) s = .next { s with jtag := {
      instr := .samplePreload, selected := 2, shift := pins % 2 ^ scanCells, boundary := preload % 2 ^ scanCells } } ∧
    exec .extest s = .next { s with jtag := { j with instr := .extest, selected := 2, shift := j.boundary } } ∧
    exec .tapReset s = .next { s with jtag := { j with instr := .idcode, selected := 1 } } ∧
    ∀ p : Pin,
      let drives := p.scanned = true ∧ p.dir ≠ .input
      (∀ i, i = Instr.extest ∨ i = .clamp → leaves i s (fun t => pinDrive t p = if drives then .scan else functionDrive s p)) ∧
      leaves .highz s (fun t => pinDrive t p = if drives then .highZ else functionDrive s p) ∧
      leaves .tapReset s (fun t => pinDrive t p = functionDrive s p) ∧
      (s.boot.held = true ∨ s.sysLost = true → (∀ n, p ≠ .vid n) → functionDrive s p = p.resetDrive)

/-! ### Where pair commands and the rows of ageing complete -/

/-- From R438, R439, R446, R448, R454, R455, R459 and R460: where the pair commands and the ageing rows have their own
effect. A protected active device that does not yield already takes PAIR_SWITCH and yields; a well-formed PAIR_HOLD sets
or clears the hold and PAIR_QUERY answers, each in any role; PAIR_RESYNC drops the protection of an active device.
Outside reset an hour is counted; a planner run whose ending has come ends; a due cause reefs a running device; the
wake-only state is entered 10 ms after its boundary or by temperature, and left by its wake match or below its
temperature. -/
def Obligations.PairAndAgeingCommandsComplete : Prop :=
  (∀ (s : State) (c : Cmd) (rest : List Cmd), cmdForm c.desc = true →
    let p := cmdPayload c.desc
    (CommandNext 0x40 c rest s → p = [] → cmdTimed c.desc = false → s.pair.role = .active → s.pair.sync = 2 →
      s.pair.yielding = false → ∃ t, exec .pairSwitch s = .next t ∧ t.pair.yielding = true ∧
        t.pair.yieldCmds = s.pair.yieldCmds ++ [(c.seq, false)] ∧ t.host.cmds = { c with taken := true } :: rest) ∧
    (CommandNext 0x41 c rest s → p.length = 4 → leAt p 0 1 ≤ 1 → slice p 1 3 = [0, 0, 0] →
      ∃ t, exec .pairHold s = .next t ∧ t.pair.held = (leAt p 0 1 == 1) ∧ t.host.cmds = rest ∧ t.sess = s.sess ∧
        t.chans = s.chans) ∧
    (CommandNext 0x42 c rest s → p = [] → s.pair.role = .active →
      ∃ t, exec .pairResync s = .next t ∧ t.host.cmds = rest ∧ t.pair.role = .active ∧ t.pair.sync ≠ 2 ∧
        t.pair.copyWait = none) ∧
    (CommandNext 0x43 c rest s → p = [] →
      ∃ t, exec .pairQuery s = .next t ∧ t.pair = s.pair ∧
        t.host.cpls = s.host.cpls ++ [cplRecord c.desc c.seq 0 (pairData s 0)])) ∧
  ∀ s : State,
    let a := s.age
    (inReset s = false → ∃ t, exec .hourEnd s = .next t ∧ t.age.hours = a.hours + 1 ∧ t.age.tempTicks = 0 ∧
      (s.mast.fw = true → t.age.he = planSum a.he (hourFactor a.tempSum a.tempTicks))) ∧
    (∀ r, s.mast.fw = true → s.mast.down = false → a.steps = none → a.run = some r → r.wait = 0 → r.ending = true →
      r.exit_ = none → ∃ t, exec .plannerRun s = .next t ∧ t.age.run = none ∧ counted s t .AGE_COUNT_plans) ∧
    (a.due ≠ 0 → a.reefed = false → isRunning s = true →
      ∃ t, exec .reefEntry s = .next t ∧ t.age.reefed = true ∧ t.age.b0 = tickNow s ∧ t.age.due = 0) ∧
    (a.wakeAsk = some 2 → ∃ t, exec .wakeOnlyEnter s = .next t ∧ t.age.wake = some 0 ∧ t.age.vid = 0 ∧ t.sess = []) ∧
    (a.wakeAsk ≠ some 2 → a.reefed = true → 100 ≤ a.veryHot →
      ∃ t, exec .wakeOnlyEnter s = .next t ∧ t.age.wake = some 1 ∧ t.age.vid = 0 ∧ t.sess = []) ∧
    (∀ sel : BitVec 2,
      (a.wake = some 0 → fget s .SVC_WAKE_magic_hit = 1 ∨ fget s .SVC_WAKE_pattern_hit ≠ 0 →
        ∃ t, exec (.wakeOnlyExit true sel) s = .next t ∧ t.age.wake = none ∧ t.boot.stage = .supply ∧ t.boot.sel = sel) ∧
      (a.wake = some 1 →
        ∃ t, exec (.wakeOnlyExit false sel) s = .next t ∧ t.age.wake = none ∧ t.boot.stage = .supply ∧ t.boot.sel = sel))

namespace Sys2Proof.Spec

/-- What an operation of lane `w.lane` leaves as it was: the other lanes and every group of state outside the lanes' reach. -/
structure OnlyLane (w : Issue) (s t : State) : Prop where
  lanes : ∀ l, l ≠ w.lane.val → (laneAt s l).pushReg = none → laneAt t l = laneAt s l
  waiting : ∀ l, l ≠ w.lane.val → laneAt t l = { laneAt s l with
    core := { (laneAt s l).core with s := (laneAt t l).core.s }, pushReg := (laneAt t l).pushReg }
  time : t.time = s.time
  mast : t.mast = s.mast
  peers : ∀ k, ∃ items, peerAt t k = { peerAt s k with items := items } ∧ items.Sublist (peerAt s k).items
  ports : t.ports = s.ports
  svc : t.svc = s.svc
  tdm : t.tdm = s.tdm
  isls : t.isls = s.isls
  ques : t.ques = s.ques
  rig : t.rig = s.rig
  boot : t.boot = s.boot
  acc : t.acc = s.acc
  cel : t.cel = s.cel
  stay : t.stay = s.stay
  pair : t.pair = s.pair
  jtag : t.jtag = s.jtag
  sysLost : t.sysLost = s.sysLost
  supply : t.supply = s.supply
  pending : t.pending = s.pending

end Sys2Proof.Spec

/-! ### The whole machine -/

/-- A step takes the command at the front of the queue and runs it with the queue's rest; on an empty queue the block
idles, in which nothing but the free-running counter of the time island moves, which stands in reset, and the time for
which codes that VID has left still count (the model's choice, log entry 2). -/
def Obligations.StepRunsTheCommandInFront : Prop :=
  (∀ (c : Instr) (rest : List Instr) (s : State), step { s with pending := c :: rest } = exec c { s with pending := rest }) ∧
  ∀ s : State, s.pending = [] → ∃ n past,
    step s = .next { s with time := { s.time with counter := n }, supply := { s.supply with past := past } } ∧
    (inReset s = true → n = s.time.counter) ∧ past.length ≤ s.supply.past.length

/-- The state after reset has its memory in canonical form and boundary scan selects the register of its instruction. -/
def Obligations.ResetKeepsTheInvariants : Prop := Inv State.reset ∧ TapInv State.reset

/-- Every step keeps memory in its canonical form, whatever the command and the state. -/
def Sys2Proof.Spec.StepKeepsMemoryCanonical : Prop := ∀ s t : State, Inv s → step s = .next t → Inv t

/-- Every step keeps the register between TDI and TDO the one that the TAP instruction in force selects, and the
boundary register as wide as its cells (R498). -/
def Sys2Proof.Spec.StepKeepsTheTap : Prop := ∀ s t : State, TapInv s → step s = .next t → TapInv t

/-- Both hold: `StepKeepsMemoryCanonical`, `StepKeepsTheTap`. -/
def Obligations.StepKeepsTheInvariants : Prop :=
  Sys2Proof.Spec.StepKeepsMemoryCanonical ∧ Sys2Proof.Spec.StepKeepsTheTap

/-- From R349: no step unblows a fuse, and the fields written at manufacture stand: no command, no reset and no loss of
power undoes what is blown. -/
def Obligations.NoStepUnblowsAFuse : Prop := ∀ s t : State, step s = .next t → FusesKept s.boot.fuses t.boot.fuses

/-- A command's effect is on everything but the queue of commands: what waits behind it waits still. -/
def Obligations.CommandsLeaveTheQueue : Prop := ∀ (i : Instr) (s t : State), exec i s = .next t → t.pending = s.pending

/-- From R70, R73 and R501: the registers, the word and the list of a lane are its own: an operation changes no lane but
the one it is issued on, but for the status of a push that waited there for the same VC, and nothing of the clocks, the
ports, the highways, the queues' delivery, the loader, the boot stages, the pair or the links; of the trunk a fault that
abandons a modify takes its signal items out of the open interval. An operation of every row is meant, QWAIT among them.
-/
def Obligations.LaneOperationsStayInTheirLane : Prop :=
  ofEveryOperation (fun i => ∀ (w : Issue) (s t : State), exec (i w) s = .next t → OnlyLane w s t) ∧
  ∀ (w : Issue) (f : AluFields) (s t : State), exec (.qwait w f) s = .next t → OnlyLane w s t

/-- From R501, R502 and R505: every copy of every register of the register index has an address of its own, a multiple
of four within the register space, at which a read or a write meets that copy and no other register. -/
def Obligations.EveryRegisterCopyHasItsAddress : Prop :=
  ∀ (r : RegId) (i j : Nat), i < r.place.n1 → j < r.place.n2 →
    regAt (r.addr i j) = some (r, i, j) ∧ r.addr i j % 4 = 0 ∧ r.addr i j < 0x02000000
end

