-- ==== Sys2Proof/Laws/Filter.lean ====
section
/-! SUPPORT. The canceller's filter: what it leaves where it does not adapt, and how many samples it gives. -/

namespace Sys2Proof.Machine

/-- Runs of the lengths of some lists cut those lists out of what they make together. -/
theorem cutRuns_flatMap {α β : Type} (f : β → List α) (ws : List β) :
    cutRuns (ws.map (fun w => (f w).length)) (ws.flatMap f) = ws.map f := by
  induction ws with
  | nil => rfl
  | cons w t ih => simp [cutRuns, List.flatMap_cons, ih]

/-- A tick that does not adapt leaves every tap of every window (R116, R117). -/
theorem filterTick_keeps_taps (mu alpha : Nat) (ws : List (List (BitVec 32) × List Int)) (ys : List Int) :
    (filterTick false mu alpha ws ys).taps = ws.map (fun w => w.1) :=
  cutRuns_flatMap (fun w : List (BitVec 32) × List Int => w.1) ws

/-- A tick gives one residual a sample (R115). -/
theorem filterTick_residuals (adapts : Bool) (mu alpha : Nat) (ws : List (List (BitVec 32) × List Int)) (ys : List Int) :
    (filterTick adapts mu alpha ws ys).e.length = ys.length := by
  simp [filterTick]

/-- An update gives as many taps as there were, where each has its gain and its sample (R115). -/
theorem adaptSample_length (mu : Nat) (gains : List Flagged) (x : List (BitVec 32)) (e : Flagged) (taps : List (BitVec 32))
    (fs : BitVec 3) (hg : gains.length = taps.length) (hx : x.length = taps.length) :
    (adaptSample mu gains x e taps fs).1.length = taps.length := by
  simp [adaptSample, hg, hx]

/-- A level lies where its search does (R116). -/
theorem highestReached_bounds (m : Nat) (e : Int) (fuel : Nat) : ∀ (low : Int) (span : Nat), 0 < span →
    low ≤ highestReached m e fuel low span ∧ highestReached m e fuel low span < low + span := by
  induction fuel with
  | zero => intro low span h; simp only [highestReached]; omega
  | succ fuel ih =>
    intro low span h
    simp only [highestReached]
    split
    · omega
    · split
      · have := ih (low + (span / 2 : Nat)) (span - span / 2) (by omega)
        omega
      · have := ih low (span / 2) (by omega)
        omega

end Sys2Proof.Machine
end

