-- ==== Sys2Proof/Laws/Tables.lean ====
section
/-! SUPPORT. Tables: what an entry reads as after another is written or removed, and that the keys stay in order. -/

namespace Sys2Proof.Machine

/-- Whether the keys of a table rise strictly. -/
def Rising {α : Type} (t : Tab α) : Prop := (t.map (fun p => p.1)).Pairwise (fun a b => a < b)

theorem rising_nil {α : Type} : Rising ([] : Tab α) := List.Pairwise.nil

theorem rising_cons {α : Type} {p : Nat × α} {t : Tab α} :
    Rising (p :: t) ↔ (∀ q ∈ t, p.1 < q.1) ∧ Rising t := by
  simp [Rising]

@[simp] theorem tget?_tset_same {α : Type} (t : Tab α) (k : Nat) (v : α) : tget? (tset t k v) k = some v := by
  induction t with
  | nil => simp [tset, tget?]
  | cons p t ih =>
    obtain ⟨a, w⟩ := p
    by_cases h1 : k < a
    · simp [tset, h1, tget?]
    · by_cases h2 : k = a
      · simp [tset, h2, tget?]
      · simp [tset, h1, h2, tget?, ih, Ne.symm h2]

theorem tget?_tset_other {α : Type} (t : Tab α) {k j : Nat} (v : α) (h : j ≠ k) : tget? (tset t k v) j = tget? t j := by
  induction t with
  | nil => simp [tset, tget?, Ne.symm h]
  | cons p t ih =>
    obtain ⟨a, w⟩ := p
    by_cases h1 : k < a
    · simp [tset, h1, tget?, Ne.symm h]
    · by_cases h2 : k = a
      · subst h2; simp [tset, tget?, Ne.symm h]
      · simp only [tset, h1, h2, if_false, tget?]
        split
        · rfl
        · exact ih

@[simp] theorem tget_tset_same {α : Type} (t : Tab α) (k : Nat) (v d : α) : tget (tset t k v) k d = v := by
  simp [tget]

theorem tget_tset_other {α : Type} (t : Tab α) {k j : Nat} (v d : α) (h : j ≠ k) :
    tget (tset t k v) j d = tget t j d := by
  simp [tget, tget?_tset_other t v h]

@[simp] theorem tset_tset_same {α : Type} (t : Tab α) (k : Nat) (v w : α) : tset (tset t k v) k w = tset t k w := by
  induction t with
  | nil => simp [tset]
  | cons p t ih =>
    obtain ⟨a, x⟩ := p
    by_cases h1 : k < a
    · simp [tset, h1]
    · by_cases h2 : k = a
      · simp [tset, h2]
      · simp [tset, h1, h2, ih]

/-- The keys of a table with one entry written. -/
theorem mem_tset {α : Type} {t : Tab α} {k : Nat} {v : α} {q : Nat × α} (h : q ∈ tset t k v) : q = (k, v) ∨ q ∈ t := by
  induction t with
  | nil => simp [tset] at h; exact .inl h
  | cons p t ih =>
    obtain ⟨a, w⟩ := p
    simp only [tset] at h
    split at h
    · simpa [or_assoc] using h
    · split at h
      · simp only [List.mem_cons] at h ⊢; tauto
      · simp only [List.mem_cons] at h ⊢
        rcases h with h | h
        · exact .inr (.inl h)
        · rcases ih h with h | h <;> tauto

theorem mem_tdel {α : Type} {t : Tab α} {k : Nat} {q : Nat × α} (h : q ∈ tdel t k) : q ∈ t := by
  induction t with
  | nil => simp [tdel] at h
  | cons p t ih =>
    obtain ⟨a, w⟩ := p
    simp only [tdel] at h
    split at h
    · exact List.mem_cons_of_mem _ h
    · simp only [List.mem_cons] at h ⊢
      exact h.imp id ih

theorem rising_tset {α : Type} {t : Tab α} (k : Nat) (v : α) (h : Rising t) : Rising (tset t k v) := by
  induction t with
  | nil => simp [tset, Rising]
  | cons p t ih =>
    obtain ⟨a, w⟩ := p
    obtain ⟨h1, h2⟩ := rising_cons.1 h
    simp only [tset]
    split
    · rename_i hk
      refine rising_cons.2 ⟨?_, h⟩
      intro q hq
      rcases List.mem_cons.1 hq with rfl | hq
      · exact hk
      · exact Nat.lt_trans hk (h1 q hq)
    · rename_i hk
      split
      · rename_i he
        subst he
        exact rising_cons.2 ⟨h1, h2⟩
      · rename_i hn
        refine rising_cons.2 ⟨?_, ih h2⟩
        intro q hq
        rcases mem_tset hq with rfl | hq
        · simp only; omega
        · exact h1 q hq

theorem rising_tdel {α : Type} {t : Tab α} (k : Nat) (h : Rising t) : Rising (tdel t k) := by
  induction t with
  | nil => simpa [tdel] using h
  | cons p t ih =>
    obtain ⟨a, w⟩ := p
    obtain ⟨h1, h2⟩ := rising_cons.1 h
    simp only [tdel]
    split
    · exact h2
    · exact rising_cons.2 ⟨fun q hq => h1 q (mem_tdel hq), ih h2⟩

/-- An entry below every key of a table is absent. -/
theorem tget?_below {α : Type} {t : Tab α} {k : Nat} (h : ∀ q ∈ t, k < q.1) : tget? t k = none := by
  induction t with
  | nil => rfl
  | cons p t ih =>
    obtain ⟨a, w⟩ := p
    have ha : k < a := h (a, w) (List.mem_cons_self ..)
    simp only [tget?]
    rw [if_neg (by omega)]
    exact ih (fun q hq => h q (List.mem_cons_of_mem _ hq))

theorem tget?_tdel_same {α : Type} {t : Tab α} (k : Nat) (h : Rising t) : tget? (tdel t k) k = none := by
  induction t with
  | nil => rfl
  | cons p t ih =>
    obtain ⟨a, w⟩ := p
    obtain ⟨h1, h2⟩ := rising_cons.1 h
    simp only [tdel]
    split
    · rename_i he
      subst he
      exact tget?_below h1
    · rename_i hn
      simp only [tget?, hn, if_false]
      exact ih h2

theorem tget?_tdel_other {α : Type} (t : Tab α) {k j : Nat} (h : j ≠ k) : tget? (tdel t k) j = tget? t j := by
  induction t with
  | nil => rfl
  | cons p t ih =>
    obtain ⟨a, w⟩ := p
    simp only [tdel]
    split
    · rename_i he
      subst he
      simp [tget?, Ne.symm h]
    · simp only [tget?]
      split
      · rfl
      · exact ih

end Sys2Proof.Machine
end

