-- ==== Sys2Proof/Laws/Memory.lean ====
section
/-! SUPPORT. Memory: a read after a write, and that every operation keeps the canonical form. -/

namespace Sys2Proof.Machine

/-- The canonical form, as rising addresses and no entry that an unlisted address reads as. -/
theorem Memory.wf_iff (m : List Host.Cell) : Memory.wf m = true ↔ Rising m ∧ ∀ c ∈ m, c.2 ≠ Memory.unlisted := by
  induction m with
  | nil => simp [Memory.wf, rising_nil]
  | cons p t ih =>
    obtain ⟨a, b⟩ := p
    simp only [Memory.wf, Bool.and_eq_true, ih, rising_cons, List.all_eq_true, decide_eq_true_eq, bne_iff_ne, ne_eq,
      List.mem_cons, forall_eq_or_imp]
    tauto

theorem Memory.wf_write {m : List Host.Cell} (a : Nat) (b : Byte) (h : Memory.wf m = true) :
    Memory.wf (Memory.write m a b) = true := by
  obtain ⟨h1, h2⟩ := (Memory.wf_iff m).1 h
  rw [Memory.wf_iff]
  unfold Memory.write
  split
  · exact ⟨rising_tdel a h1, fun c hc => h2 c (mem_tdel hc)⟩
  · rename_i hb
    refine ⟨rising_tset a b h1, fun c hc => ?_⟩
    rcases mem_tset hc with rfl | hc
    · exact hb
    · exact h2 c hc

theorem Memory.wf_writeBytes {m : List Host.Cell} (a : Nat) (b : Bytes) (h : Memory.wf m = true) :
    Memory.wf (Memory.writeBytes m a b) = true := by
  induction b generalizing m a with
  | nil => exact h
  | cons x t ih => exact ih (a + 1) (Memory.wf_write a x h)

theorem Memory.wf_filter {m : List Host.Cell} (p : Host.Cell → Bool) (h : Memory.wf m = true) :
    Memory.wf (m.filter p) = true := by
  obtain ⟨h1, h2⟩ := (Memory.wf_iff m).1 h
  rw [Memory.wf_iff]
  refine ⟨?_, fun c hc => h2 c (List.mem_filter.1 hc).1⟩
  exact h1.sublist ((List.filter_sublist (p := p) (l := m)).map _)

theorem Memory.wf_clear {m : List Host.Cell} (a n : Nat) (h : Memory.wf m = true) :
    Memory.wf (Memory.clear m a n) = true := Memory.wf_filter _ h

theorem Memory.wf_writes {m : List Host.Cell} (l : List (Nat × Byte)) (h : Memory.wf m = true) :
    Memory.wf (l.foldl (fun m p => Memory.write m p.1 p.2) m) = true := by
  induction l generalizing m with
  | nil => exact h
  | cons p t ih => exact ih (Memory.wf_write p.1 p.2 h)

theorem Memory.read_write_same {m : List Host.Cell} (a : Nat) (b : Byte) (h : Memory.wf m = true) :
    Memory.read (Memory.write m a b) a = b := by
  obtain ⟨h1, -⟩ := (Memory.wf_iff m).1 h
  unfold Memory.read Memory.write
  split
  · rename_i hb
    simp [tget, tget?_tdel_same a h1, hb]
  · simp

theorem Memory.read_write_other (m : List Host.Cell) {a c : Nat} (b : Byte) (h : c ≠ a) :
    Memory.read (Memory.write m a b) c = Memory.read m c := by
  unfold Memory.read Memory.write
  split
  · simp [tget, tget?_tdel_other m h]
  · exact tget_tset_other m b _ h

/-- A byte outside the bytes written reads as before. -/
theorem Memory.read_writeBytes_outside (m : List Host.Cell) (a : Nat) (b : Bytes) {c : Nat}
    (h : c < a ∨ a + b.length ≤ c) : Memory.read (Memory.writeBytes m a b) c = Memory.read m c := by
  induction b generalizing m a with
  | nil => rfl
  | cons x t ih =>
    simp only [List.length_cons] at h
    rw [Memory.writeBytes, ih (Memory.write m a x) (a + 1) (by omega), Memory.read_write_other m x (by omega)]

/-- A byte among the bytes written reads as written. -/
theorem Memory.read_writeBytes_inside {m : List Host.Cell} (a : Nat) (b : Bytes) {i : Nat} (hi : i < b.length)
    (h : Memory.wf m = true) : Memory.read (Memory.writeBytes m a b) (a + i) = b[i] := by
  induction b generalizing m a i with
  | nil => simp at hi
  | cons x t ih =>
    cases i with
    | zero =>
      rw [Memory.writeBytes, Memory.read_writeBytes_outside _ _ _ (by omega)]
      simpa using Memory.read_write_same a x h
    | succ i =>
      rw [Memory.writeBytes, show a + (i + 1) = a + 1 + i by omega,
        ih (a + 1) (by simpa using hi) (Memory.wf_write a x h)]
      simp

/-- A byte outside a cleared range reads as before. -/
theorem Memory.read_clear_outside (m : List Host.Cell) (a n : Nat) {c : Nat} (h : c < a ∨ a + n ≤ c) :
    Memory.read (Memory.clear m a n) c = Memory.read m c := by
  induction m with
  | nil => rfl
  | cons p t ih =>
    obtain ⟨x, y⟩ := p
    simp only [Memory.clear, Memory.read, tget] at ih ⊢
    by_cases hk : (decide (x < a) || decide (a + n ≤ x)) = true
    · rw [List.filter_cons_of_pos (by simpa using hk)]
      simp only [tget?]
      split
      · rfl
      · exact ih
    · rw [List.filter_cons_of_neg (by simpa using hk)]
      have hx : x ≠ c := by
        rintro rfl
        simp at hk
        omega
      simp only [tget?, hx, if_false]
      exact ih

/-- A byte inside a cleared range reads zero. -/
theorem Memory.read_clear_inside (m : List Host.Cell) (a n : Nat) {c : Nat} (h1 : a ≤ c) (h2 : c < a + n) :
    Memory.read (Memory.clear m a n) c = 0 := by
  induction m with
  | nil => rfl
  | cons p t ih =>
    obtain ⟨x, y⟩ := p
    simp only [Memory.clear, Memory.read, tget] at ih ⊢
    by_cases hk : (decide (x < a) || decide (a + n ≤ x)) = true
    · rw [List.filter_cons_of_pos (by simpa using hk)]
      have hx : x ≠ c := by
        rintro rfl
        simp at hk
        omega
      simp only [tget?, hx, if_false]
      exact ih
    · rw [List.filter_cons_of_neg (by simpa using hk)]
      exact ih

end Sys2Proof.Machine
end

