-- ==== Sys2Proof/Laws/Kept.lean ====
section
/-! SUPPORT. What every command but the boundary scan's leaves: memory in its canonical form, the TAP and the queue of
commands as they were, and no fuse unblown. One lemma per operation, in the order of the model's files, so that a
    claim
about every step cites the lemma of the command. -/

namespace Sys2Proof.Machine

theorem keepsBlown_refl (b : Bytes) : keepsBlown b b = true := by
  simp [keepsBlown]

theorem keepsBlown_trans {a b c : Bytes} (h1 : keepsBlown b a = true) (h2 : keepsBlown c b = true) :
    keepsBlown c a = true := by
  simp only [keepsBlown, List.all_eq_true, beq_iff_eq] at *
  intro i hi
  rw [← h1 i hi, ← BitVec.and_assoc, h2 i hi]

theorem fusesKept_refl (a : Fuses) : FusesKept a a := by
  simp [FusesKept, keepsBlown_refl]

theorem fusesKept_trans {a b c : Fuses} (h1 : FusesKept a b) (h2 : FusesKept b c) : FusesKept a c := by
  obtain ⟨a1, a2, a3, a4, a5, a6, a7, a8, a9, a10, a11, a12, a13⟩ := h1
  obtain ⟨b1, b2, b3, b4, b5, b6, b7, b8, b9, b10, b11, b12, b13⟩ := h2
  refine ⟨b1.trans a1, ?_, keepsBlown_trans a3 b3, b4 ∘ a4, b5 ∘ a5, a6.trans b6, b7 ∘ a7, ?_, ?_, b10 ∘ a10, b11 ∘ a11,
    b12.trans a12, b13.trans a13⟩
  · rw [← a2, BitVec.and_assoc, b2]
  · rw [← a8, BitVec.and_assoc, b8]
  · rw [← a9, BitVec.and_assoc, b9]

/-- What a command leaves of the state `r` it began in. -/
structure Kept (r t : State) : Prop where
  mem : Memory.wf r.mem = true → Memory.wf t.mem = true
  jtag : t.jtag = r.jtag
  pending : t.pending = r.pending
  fuses : FusesKept r.boot.fuses t.boot.fuses

theorem Kept.refl (r : State) : Kept r r := ⟨id, rfl, rfl, fusesKept_refl _⟩

/-- A state with any fields replaced but memory, the TAP, the queue of commands and the fuses. -/
theorem Kept.upd {r s : State} {x_free : Nat} {x_regs : Tab Word} {x_poison : List Nat} {x_time : Time} {x_host :
    HostPort} {x_ev : Events} {x_mast : Mast} {x_lanes : Tab Lane} {x_sess : Tab Session} {x_chans : Tab Channel}
    {x_peers : Tab Peer} {x_ports : Tab Port} {x_svc : Svc} {x_tdm : Tdm} {x_isls : Tab Island} {x_ques : Tab Queue}
    {x_vcs : Tab Vc} {x_areas : Tab RxArea} {x_rig : Rig} {b_boot : Boot} {x_acc : AccTabs} {x_cel : Celar} {x_stay
    : Tab StayPort} {x_pair : Pair} {x_age : Age} {x_supply : Supply} {x_sysLost : Bool} (h : Kept r s) (hb : b_boot.fuses =
    s.boot.fuses) :
    Kept r (State.mk s.pending x_free x_regs s.mem x_poison x_time x_host x_ev x_mast x_lanes x_sess x_chans x_peers
    x_ports x_svc x_tdm x_isls x_ques x_vcs x_areas x_rig b_boot x_acc x_cel x_stay x_pair x_age s.jtag x_supply x_sysLost)
    :=
  ⟨h.mem, h.jtag, h.pending, hb ▸ h.fuses⟩

/-- The same, where fuses are blown. -/
theorem Kept.updFuses {r s : State} {x_free : Nat} {x_regs : Tab Word} {x_poison : List Nat} {x_time : Time} {x_host :
    HostPort} {x_ev : Events} {x_mast : Mast} {x_lanes : Tab Lane} {x_sess : Tab Session} {x_chans : Tab Channel}
    {x_peers : Tab Peer} {x_ports : Tab Port} {x_svc : Svc} {x_tdm : Tdm} {x_isls : Tab Island} {x_ques : Tab Queue}
    {x_vcs : Tab Vc} {x_areas : Tab RxArea} {x_rig : Rig} {b_boot : Boot} {x_acc : AccTabs} {x_cel : Celar} {x_stay
    : Tab StayPort} {x_pair : Pair} {x_age : Age} {x_supply : Supply} {x_sysLost : Bool} (h : Kept r s) (hb : FusesKept s.boot.fuses b_boot.fuses) :
    Kept r (State.mk s.pending x_free x_regs s.mem x_poison x_time x_host x_ev x_mast x_lanes x_sess x_chans x_peers
    x_ports x_svc x_tdm x_isls x_ques x_vcs x_areas x_rig b_boot x_acc x_cel x_stay x_pair x_age s.jtag x_supply x_sysLost)
    :=
  ⟨h.mem, h.jtag, h.pending, fusesKept_trans h.fuses hb⟩

theorem Kept.foldl {α : Type} {r s : State} {f : State → α → State} {l : List α} (h : Kept r s)
    (hf : ∀ s x, Kept r s → Kept r (f s x)) : Kept r (l.foldl f s) := by
  induction l generalizing s with
  | nil => exact h
  | cons x t ih => exact ih (hf s x h)

theorem Kept.foldlFst {α β : Type} {r : State} {f : State × β → α → State × β} {l : List α} {p : State × β}
    (h : Kept r p.1) (hf : ∀ p x, Kept r p.1 → Kept r (f p x).1) : Kept r (l.foldl f p).1 := by
  induction l generalizing p with
  | nil => exact h
  | cons x t ih => exact ih (hf p x h)

theorem Kept.foldlSnd {α β : Type} {r : State} {f : β × State → α → β × State} {l : List α} {p : β × State}
    (h : Kept r p.2) (hf : ∀ p x, Kept r p.2 → Kept r (f p x).2) : Kept r (l.foldl f p).2 := by
  induction l generalizing p with
  | nil => exact h
  | cons x t ih => exact ih (hf p x h)

/-- A state in an Option keeps what a command must. -/
def KeptO (r : State) (o : Option State) : Prop := ∀ t, o = some t → Kept r t

theorem KeptO.some {r t : State} (h : Kept r t) : KeptO r (some t) := fun _ e => by cases e; exact h
theorem KeptO.none {r : State} : KeptO r none := fun _ e => by cases e

/-- An outcome keeps what a command must. -/
def KeptX (r : State) (o : Host.Outcome State Fault Refusal) : Prop := ∀ t, o = .next t → Kept r t

theorem KeptX.next {r t : State} (h : Kept r t) : KeptX r (.next t) := fun _ e => by cases e; exact h

theorem storeBytes_kept {r s : State} (a : Nat) (b : Bytes) (h : Kept r s) : Kept r (storeBytes a b s) :=
  ⟨fun hm => Memory.wf_writeBytes a b (h.mem hm), h.jtag, h.pending, h.fuses⟩

theorem clearRange_kept {r s : State} (a n : Nat) (h : Kept r s) : Kept r (clearRange a n s) :=
  ⟨fun hm => Memory.wf_clear a n (h.mem hm), h.jtag, h.pending, h.fuses⟩

theorem undoStores_kept {r s : State} (c : WordCtx) (h : Kept r s) : Kept r (undoStores c s) :=
  ⟨fun hm => Memory.wf_writes c.undo (h.mem hm), h.jtag, h.pending, h.fuses⟩

end Sys2Proof.Machine
end

