-- ==== Sys2Proof/Laws/KeptOps.lean ====
section
/-! SUPPORT. What the operations of Machine/Ops.lean keep. -/

set_option linter.unusedTactic false
set_option linter.unreachableTactic false

namespace Sys2Proof.Machine

theorem setWord_kept {r₀ : State} (a : Nat) (w : Nat) (s : State) (hk₀ : Kept r₀ s) :
    Kept r₀ (setWord a w s) := by
  unfold setWord
  repeat' first
    | with_reducible assumption
    | dsimp only
    | fail_if_no_progress with_reducible refine Kept.upd ?_ (by rfl)

theorem fset_kept {r₀ : State} (f : Fld) (v : Nat) (s : State) (i : Nat) (j : Nat) (hk₀ : Kept r₀ s) :
    Kept r₀ (fset f v s i j) := by
  unfold fset
  repeat' first
    | with_reducible assumption
    | with_reducible apply setWord_kept
    | dsimp only

theorem fbump_kept {r₀ : State} (f : Fld) (n : Nat) (s : State) (i : Nat) (j : Nat) (hk₀ : Kept r₀ s) :
    Kept r₀ (fbump f n s i j) := by
  unfold fbump
  repeat' first
    | with_reducible assumption
    | with_reducible apply fset_kept
    | dsimp only

theorem dropRegs_kept {r₀ : State} (lo hi : Nat) (s : State) (hk₀ : Kept r₀ s) :
    Kept r₀ (dropRegs lo hi s) := by
  unfold dropRegs
  repeat' first
    | with_reducible assumption
    | dsimp only
    | fail_if_no_progress with_reducible refine Kept.upd ?_ (by rfl)
    | intro _

theorem draw_kept {r₀ : State} (s : State) (hk₀ : Kept r₀ s) :
    Kept r₀ (draw s) := by
  unfold draw
  repeat' first
    | with_reducible assumption
    | dsimp only
    | fail_if_no_progress with_reducible refine Kept.upd ?_ (by rfl)

theorem passVid_kept {r₀ : State} (ns : Nat) (s : State) (hk₀ : Kept r₀ s) :
    Kept r₀ (passVid ns s) := by
  unfold passVid
  repeat' first
    | with_reducible assumption
    | dsimp only
    | fail_if_no_progress with_reducible refine Kept.upd ?_ (by rfl)
    | intro _

theorem countClass_kept {r₀ : State} (src : Nat) (s : State) (hk₀ : Kept r₀ s) :
    Kept r₀ (countClass src s) := by
  unfold countClass
  repeat' first
    | with_reducible assumption
    | with_reducible apply fbump_kept
    | split
    | dsimp only

theorem enqueueEvent_kept {r₀ : State} (src : Nat) (payload : Bytes) (s : State) (hk₀ : Kept r₀ s) :
    Kept r₀ (enqueueEvent src payload s) := by
  unfold enqueueEvent
  repeat' first
    | with_reducible assumption
    | with_reducible apply fbump_kept
    | split
    | dsimp only
    | fail_if_no_progress with_reducible refine Kept.upd ?_ (by rfl)

theorem raise_kept {r₀ : State} (src : Nat) (fields : List (Nat × Nat)) (s : State) (hk₀ : Kept r₀ s) :
    Kept r₀ (raise src fields s) := by
  unfold raise
  repeat' first
    | with_reducible assumption
    | with_reducible apply enqueueEvent_kept
    | with_reducible apply countClass_kept
    | dsimp only

theorem countLimit_kept {r₀ : State} (key : Nat) (s : State) (hk₀ : Kept r₀ s) :
    Kept r₀ (countLimit key s) := by
  unfold countLimit
  repeat' first
    | with_reducible assumption
    | split
    | dsimp only
    | fail_if_no_progress with_reducible refine Kept.upd ?_ (by rfl)

theorem raiseLimited_kept {r₀ : State} (src sub n : Nat) (fields : List (Nat × Nat)) (s : State) (hk₀ : Kept r₀ s) :
    Kept r₀ (raiseLimited src sub n fields s) := by
  unfold raiseLimited
  repeat' first
    | with_reducible assumption
    | with_reducible apply raise_kept
    | with_reducible apply countLimit_kept
    | with_reducible apply countClass_kept
    | split
    | dsimp only

theorem raiseCountingBy_kept {r₀ : State} (k src sub : Nat) (fields : List (Nat × Nat)) (s : State) (hk₀ : Kept r₀ s) :
    Kept r₀ (raiseCountingBy k src sub fields s) := by
  unfold raiseCountingBy
  repeat' first
    | with_reducible assumption
    | with_reducible apply raise_kept
    | with_reducible apply countLimit_kept
    | with_reducible apply countClass_kept
    | split
    | dsimp only
    | fail_if_no_progress with_reducible refine Kept.upd ?_ (by rfl)
    | intro _

theorem raiseCounting_kept {r₀ : State} (src sub : Nat) (fields : List (Nat × Nat)) (s : State) (hk₀ : Kept r₀ s) :
    Kept r₀ (raiseCounting src sub fields s) := by
  unfold raiseCounting
  repeat' first
    | with_reducible assumption
    | with_reducible apply raiseCountingBy_kept
    | dsimp only

theorem noteIbi_kept {r₀ : State} (s : State) (hk₀ : Kept r₀ s) :
    Kept r₀ (noteIbi s) := by
  unfold noteIbi
  repeat' first
    | with_reducible assumption
    | dsimp only
    | fail_if_no_progress with_reducible refine Kept.upd ?_ (by rfl)
    | intro _

theorem fatal_kept {r₀ : State} (cause by_ : Nat) (s : State) (hk₀ : Kept r₀ s) :
    Kept r₀ (fatal cause by_ s) := by
  unfold fatal
  repeat' first
    | with_reducible assumption
    | with_reducible apply raise_kept
    | with_reducible apply fset_kept
    | with_reducible apply fbump_kept
    | with_reducible apply noteIbi_kept
    | dsimp only

theorem askReef_kept {r₀ : State} (bit : Nat) (s : State) (hk₀ : Kept r₀ s) :
    Kept r₀ (askReef bit s) := by
  unfold askReef
  repeat' first
    | with_reducible assumption
    | split
    | dsimp only
    | fail_if_no_progress with_reducible refine Kept.upd ?_ (by rfl)

theorem clusterUe_kept {r₀ : State} (c : Nat) (s : State) (hk₀ : Kept r₀ s) :
    Kept r₀ (clusterUe c s) := by
  unfold clusterUe
  repeat' first
    | with_reducible assumption
    | dsimp only
    | fail_if_no_progress with_reducible refine Kept.upd ?_ (by rfl)

theorem ueMet_kept {r₀ : State} (memory : Nat) (s : State) (hk₀ : Kept r₀ s) :
    Kept r₀ (ueMet memory s) := by
  unfold ueMet
  repeat' first
    | with_reducible assumption
    | with_reducible apply fset_kept
    | with_reducible apply askReef_kept
    | with_reducible apply raise_kept
    | split
    | dsimp only

theorem corrected_kept {r₀ : State} (s : State) (hk₀ : Kept r₀ s) :
    Kept r₀ (corrected s) := by
  unfold corrected
  repeat' first
    | with_reducible assumption
    | with_reducible apply fbump_kept
    | dsimp only

end Sys2Proof.Machine
end

