-- ==== Sys2Proof/Laws/KeptAccess.lean ====
section
/-! SUPPORT. What the operations of Machine/Access.lean keep. -/

set_option linter.unusedTactic false
set_option linter.unreachableTactic false

namespace Sys2Proof.Machine

theorem recordDenial_kept {r₀ : State} (master a n : Nat) (write : Bool) (s : State) (hk₀ : Kept r₀ s) :
    Kept r₀ (recordDenial master a n write s) := by
  unfold recordDenial
  repeat' first
    | with_reducible assumption
    | with_reducible apply fbump_kept
    | with_reducible apply setWord_kept
    | with_reducible apply raiseLimited_kept
    | split
    | dsimp only

end Sys2Proof.Machine
end

