-- ==== Sys2Proof/Laws/KeptQueues.lean ====
section
/-! SUPPORT. What the operations of Machine/Queues.lean keep. -/

set_option linter.unusedTactic false
set_option linter.unreachableTactic false

namespace Sys2Proof.Machine

theorem putVc_kept {r₀ : State} (q v : Nat) (x : Vc) (s : State) (hk₀ : Kept r₀ s) :
    Kept r₀ (putVc q v x s) := by
  unfold putVc
  repeat' first
    | with_reducible assumption
    | dsimp only
    | fail_if_no_progress with_reducible refine Kept.upd ?_ (by rfl)

theorem startPacket_kept {r₀ : State} (q v port : Nat) (bytes : Bytes) (marks : List Nat) (s : State) (hk₀ : Kept r₀ s) :
    Kept r₀ (startPacket q v port bytes marks s).1 := by
  unfold startPacket
  repeat' first
    | with_reducible assumption
    | with_reducible apply raiseCounting_kept
    | with_reducible apply fbump_kept
    | with_reducible apply putVc_kept
    | split
    | dsimp only
    | fail_if_no_progress with_reducible refine Kept.upd ?_ (by rfl)

theorem refuseWaiting_kept {r₀ : State} (q v port : Nat) (s : State) (hk₀ : Kept r₀ s) :
    Kept r₀ (refuseWaiting q v port s) := by
  unfold refuseWaiting
  repeat' first
    | with_reducible assumption
    | with_reducible apply putVc_kept
    | with_reducible apply raise_kept
    | with_reducible apply fbump_kept
    | split
    | dsimp only
    | fail_if_no_progress with_reducible refine Kept.upd ?_ (by rfl)
    | intro _

theorem pushMarked_kept {r₀ : State} (q port : Nat) (bytes : Bytes) (marks : List Nat) (s : State) (hk₀ : Kept r₀ s) :
    Kept r₀ (pushMarked q port bytes marks s).1 := by
  unfold pushMarked
  repeat' first
    | with_reducible assumption
    | with_reducible apply raiseLimited_kept
    | with_reducible apply fbump_kept
    | with_reducible apply refuseWaiting_kept
    | with_reducible apply putVc_kept
    | with_reducible apply startPacket_kept
    | split
    | dsimp only
    | fail_if_no_progress with_reducible refine Kept.upd ?_ (by rfl)
    | intro _

theorem pushPacket_kept {r₀ : State} (q port : Nat) (bytes : Bytes) (s : State) (hk₀ : Kept r₀ s) :
    Kept r₀ (pushPacket q port bytes s).1 := by
  unfold pushPacket
  repeat' first
    | with_reducible assumption
    | with_reducible apply pushMarked_kept
    | dsimp only

theorem pushResult_kept {r₀ : State} (q port status : Nat) (s : State) (hk₀ : Kept r₀ s) :
    Kept r₀ (pushResult q port status s) := by
  unfold pushResult
  repeat' first
    | with_reducible assumption
    | split
    | dsimp only
    | fail_if_no_progress with_reducible refine Kept.upd ?_ (by rfl)
    | intro _

theorem grantWaiting_kept {r₀ : State} (n : Nat) (q : Nat) (v : Nat) (s : State) (hk₀ : Kept r₀ s) :
    Kept r₀ (grantWaiting n q v s) := by
  induction n generalizing q v s with
  | zero => exact hk₀
  | succ n ih =>
    unfold grantWaiting
    repeat' first
      | with_reducible assumption
      | with_reducible apply ih
      | with_reducible apply startPacket_kept
      | with_reducible apply putVc_kept
      | with_reducible apply pushResult_kept
      | split
      | dsimp only
      | fail_if_no_progress with_reducible refine Kept.upd ?_ (by rfl)

theorem pushWord_kept {r₀ : State} (q v : Nat) (s : State) (hk₀ : Kept r₀ s) :
    Kept r₀ (pushWord q v s) := by
  unfold pushWord
  repeat' first
    | with_reducible assumption
    | with_reducible apply grantWaiting_kept
    | with_reducible apply putVc_kept
    | (with_reducible apply Kept.foldl <;> intros)
    | (with_reducible apply Kept.foldlFst <;> intros)
    | (with_reducible apply Kept.foldlSnd <;> intros)
    | split
    | dsimp only
    | fail_if_no_progress with_reducible refine Kept.upd ?_ (by rfl)
    | intro _

theorem truncatePacket_kept {r₀ : State} (q v : Nat) (s : State) (hk₀ : Kept r₀ s) :
    Kept r₀ (truncatePacket q v s) := by
  unfold truncatePacket
  repeat' first
    | with_reducible assumption
    | with_reducible apply raise_kept
    | with_reducible apply fbump_kept
    | with_reducible apply putVc_kept
    | with_reducible apply grantWaiting_kept
    | split
    | dsimp only
    | fail_if_no_progress with_reducible refine Kept.upd ?_ (by rfl)
    | intro _

theorem countEcc_kept {r₀ : State} (q : Nat) (e : Ecc) (s : State) (hk₀ : Kept r₀ s) :
    Kept r₀ (countEcc q e s) := by
  unfold countEcc
  repeat' first
    | with_reducible assumption
    | with_reducible apply raiseCounting_kept
    | with_reducible apply corrected_kept
    | with_reducible apply fbump_kept
    | split
    | dsimp only
    | intro _

theorem putArea_kept {r₀ : State} (lane port : Nat) (x : RxArea) (s : State) (hk₀ : Kept r₀ s) :
    Kept r₀ (putArea lane port x s) := by
  unfold putArea
  repeat' first
    | with_reducible assumption
    | dsimp only
    | fail_if_no_progress with_reducible refine Kept.upd ?_ (by rfl)

theorem finishPop_kept {r₀ : State} (q v : Nat) (p : QPacket) (s : State) (hk₀ : Kept r₀ s) :
    Kept r₀ (finishPop q v p s) := by
  unfold finishPop
  repeat' first
    | with_reducible assumption
    | with_reducible apply putVc_kept
    | with_reducible apply raise_kept
    | with_reducible apply fbump_kept
    | split
    | dsimp only
    | fail_if_no_progress with_reducible refine Kept.upd ?_ (by rfl)

theorem readyPacket_kept {r : State} (q v : Nat) (s : State) (h : Kept r s) {x : QPacket × State}
    (hx : readyPacket q v s = some x) : Kept r x.2 := by
  unfold readyPacket at hx
  split at hx
  · cases hx
  · split at hx
    · cases hx
    · split at hx
      · cases hx; exact h
      · rw [Option.map_eq_some_iff] at hx
        obtain ⟨y, _, rfl⟩ := hx
        exact putArea_kept _ _ _ _ h

theorem popWord_kept {r : State} (q v check : Nat) (s : State) (h : Kept r s) : Kept r (popWord q v check s) := by
  unfold popWord
  split
  · exact h
  · rename_i p s0 e
    have h0 : Kept r s0 := readyPacket_kept q v s h e
    dsimp only
    split
    · exact h
    · split
      · exact finishPop_kept _ _ _ _ (countEcc_kept _ _ _ (putVc_kept _ _ _ _ h0))
      · exact countEcc_kept _ _ _ (putVc_kept _ _ _ _ h0)

theorem deliver_kept {r₀ : State} (lane port : Nat) (s : State) (hk₀ : Kept r₀ s) :
    Kept r₀ (deliver lane port s) := by
  unfold deliver
  repeat' first
    | with_reducible assumption
    | with_reducible apply putVc_kept
    | with_reducible apply putArea_kept
    | with_reducible apply storeBytes_kept
    | split
    | dsimp only
    | fail_if_no_progress with_reducible refine Kept.upd ?_ (by rfl)
    | intro _

theorem postNotice_kept {r₀ : State} (q v : Nat) (s : State) (hk₀ : Kept r₀ s) :
    Kept r₀ (postNotice q v s) := by
  unfold postNotice
  repeat' first
    | with_reducible assumption
    | with_reducible apply putArea_kept
    | with_reducible apply putVc_kept
    | with_reducible apply fbump_kept
    | split
    | dsimp only
    | fail_if_no_progress with_reducible refine Kept.upd ?_ (by rfl)
    | intro _

theorem stallVc_kept {r₀ : State} (q v : Nat) (s : State) (hk₀ : Kept r₀ s) :
    Kept r₀ (stallVc q v s) := by
  unfold stallVc
  repeat' first
    | with_reducible assumption
    | with_reducible apply putVc_kept
    | with_reducible apply fset_kept
    | with_reducible apply raise_kept
    | with_reducible apply fatal_kept
    | split
    | dsimp only
    | fail_if_no_progress with_reducible refine Kept.upd ?_ (by rfl)
    | intro _

theorem abandonPush_kept {r₀ : State} (q port : Nat) (s : State) (hk₀ : Kept r₀ s) :
    Kept r₀ (abandonPush q port s) := by
  unfold abandonPush
  repeat' first
    | with_reducible assumption
    | with_reducible apply putVc_kept
    | with_reducible apply truncatePacket_kept
    | split
    | dsimp only
    | fail_if_no_progress with_reducible refine Kept.upd ?_ (by rfl)
    | intro _

theorem cutStarted_kept {r₀ : State} (q port : Nat) (s : State) (hk₀ : Kept r₀ s) :
    Kept r₀ (cutStarted q port s) := by
  unfold cutStarted
  repeat' first
    | with_reducible assumption
    | with_reducible apply putVc_kept
    | with_reducible apply raise_kept
    | with_reducible apply fbump_kept
    | split
    | dsimp only
    | fail_if_no_progress with_reducible refine Kept.upd ?_ (by rfl)
    | intro _

theorem abandonLane_kept {r₀ : State} (lane : Nat) (s : State) (hk₀ : Kept r₀ s) :
    Kept r₀ (abandonLane lane s) := by
  unfold abandonLane
  repeat' first
    | with_reducible assumption
    | with_reducible apply abandonPush_kept
    | (with_reducible apply Kept.foldl <;> intros)
    | (with_reducible apply Kept.foldlFst <;> intros)
    | (with_reducible apply Kept.foldlSnd <;> intros)
    | split
    | dsimp only
    | intro _

theorem discardQueue_kept {r₀ : State} (q : Nat) (s : State) (hk₀ : Kept r₀ s) :
    Kept r₀ (discardQueue q s) := by
  unfold discardQueue
  repeat' first
    | with_reducible assumption
    | with_reducible apply fbump_kept
    | with_reducible apply putVc_kept
    | (with_reducible apply Kept.foldl <;> intros)
    | (with_reducible apply Kept.foldlFst <;> intros)
    | (with_reducible apply Kept.foldlSnd <;> intros)
    | dsimp only
    | fail_if_no_progress with_reducible refine Kept.upd ?_ (by rfl)
    | intro _

theorem execQueuePushStart_kept {r₀ : State} (queue : Fin 512) (port : Nat) (bytes : Bytes) (s : State) (hk₀ : Kept r₀ s) :
    KeptX r₀ (execQueuePushStart queue port bytes s) := by
  unfold execQueuePushStart
  repeat' first
    | with_reducible assumption
    | with_reducible apply KeptX.next
    | with_reducible apply pushPacket_kept
    | dsimp only
    | intro _

theorem execQueuePushWord_kept {r₀ : State} (queue : Fin 512) (vc : Fin 4) (s : State) (hk₀ : Kept r₀ s) :
    KeptX r₀ (execQueuePushWord queue vc s) := by
  unfold execQueuePushWord
  repeat' first
    | with_reducible assumption
    | with_reducible apply KeptX.next
    | with_reducible apply pushWord_kept
    | dsimp only
    | intro _

theorem execQueuePop_kept {r₀ : State} (queue : Fin 512) (vc : Fin 4) (check : BitVec 2) (s : State) (hk₀ : Kept r₀ s) :
    KeptX r₀ (execQueuePop queue vc check s) := by
  unfold execQueuePop
  repeat' first
    | with_reducible assumption
    | with_reducible apply KeptX.next
    | with_reducible apply popWord_kept
    | dsimp only
    | intro _

theorem execDeliveryWrite_kept {r₀ : State} (lane : Fin 128) (port : Fin 8) (s : State) (hk₀ : Kept r₀ s) :
    KeptX r₀ (execDeliveryWrite lane port s) := by
  unfold execDeliveryWrite
  repeat' first
    | with_reducible assumption
    | with_reducible apply KeptX.next
    | with_reducible apply deliver_kept
    | dsimp only
    | intro _

theorem execQueStall_kept {r₀ : State} (queue : Fin 512) (vc : Fin 4) (s : State) (hk₀ : Kept r₀ s) :
    KeptX r₀ (execQueStall queue vc s) := by
  unfold execQueStall
  repeat' first
    | with_reducible assumption
    | with_reducible apply KeptX.next
    | with_reducible apply stallVc_kept
    | dsimp only
    | intro _

end Sys2Proof.Machine
end

