-- ==== Sys2Proof/Laws/KeptFlags.lean ====
section
/-! SUPPORT. What the operations of Machine/Flags.lean keep. -/

set_option linter.unusedTactic false
set_option linter.unreachableTactic false

namespace Sys2Proof.Machine

theorem putLane_kept {r₀ : State} (l : Nat) (x : Lane) (s : State) (hk₀ : Kept r₀ s) :
    Kept r₀ (putLane l x s) := by
  unfold putLane
  repeat' first
    | with_reducible assumption
    | dsimp only
    | fail_if_no_progress with_reducible refine Kept.upd ?_ (by rfl)

theorem setArith_kept {r₀ : State} (l : Nat) (flag en : Fld) (code pc : Nat) (s : State) (hk₀ : Kept r₀ s) :
    Kept r₀ (setArith l flag en code pc s) := by
  unfold setArith
  repeat' first
    | with_reducible assumption
    | with_reducible apply fset_kept
    | with_reducible apply raise_kept
    | split
    | dsimp only

theorem commitArith_kept {r₀ : State} (l : Nat) (flags : BitVec 3) (pc : Nat) (s : State) (hk₀ : Kept r₀ s) :
    Kept r₀ (commitArith l flags pc s) := by
  unfold commitArith
  repeat' first
    | with_reducible assumption
    | with_reducible apply setArith_kept
    | split
    | dsimp only

theorem setFold_kept {r₀ : State} (l areg pc : Nat) (s : State) (hk₀ : Kept r₀ s) :
    Kept r₀ (setFold l areg pc s) := by
  unfold setFold
  repeat' first
    | with_reducible assumption
    | with_reducible apply fset_kept
    | with_reducible apply raise_kept
    | (with_reducible apply Kept.foldl <;> intros)
    | (with_reducible apply Kept.foldlFst <;> intros)
    | (with_reducible apply Kept.foldlSnd <;> intros)
    | split
    | dsimp only

end Sys2Proof.Machine
end

