-- ==== Sys2Proof/Laws/KeptHostOps.lean ====
section
/-! SUPPORT. What the operations of Machine/HostOps.lean keep. -/

set_option linter.unusedTactic false
set_option linter.unreachableTactic false

namespace Sys2Proof.Machine

theorem postReady_kept {r₀ : State} (s : State) (hk₀ : Kept r₀ s) :
    Kept r₀ (postReady s) := by
  unfold postReady
  repeat' first
    | with_reducible assumption
    | with_reducible apply noteIbi_kept
    | split
    | dsimp only
    | fail_if_no_progress with_reducible refine Kept.upd ?_ (by rfl)

theorem complete_kept {r₀ : State} (seq status : Nat) (data : Bytes) (s : State) (hk₀ : Kept r₀ s) :
    Kept r₀ (complete seq status data s) := by
  unfold complete
  repeat' first
    | with_reducible assumption
    | with_reducible apply postReady_kept
    | split
    | dsimp only
    | fail_if_no_progress with_reducible refine Kept.upd ?_ (by rfl)
    | intro _

theorem takeCmd_kept {r₀ : State} (seq : Nat) (s : State) (hk₀ : Kept r₀ s) :
    Kept r₀ (takeCmd seq s) := by
  unfold takeCmd
  repeat' first
    | with_reducible assumption
    | split
    | dsimp only
    | fail_if_no_progress with_reducible refine Kept.upd ?_ (by rfl)
    | intro _

theorem refuseReserved_kept {r₀ : State} (n : Nat) (s : State) (hk₀ : Kept r₀ s) :
    Kept r₀ (refuseReserved n s) := by
  induction n generalizing s with
  | zero => exact hk₀
  | succ n ih =>
    unfold refuseReserved
    repeat' first
      | with_reducible assumption
      | with_reducible apply ih
      | with_reducible apply complete_kept
      | split
      | dsimp only

theorem runCmd_kept {r : State} (op : Nat) (body : Cmd → State → Option State) (s : State)
    (hb : ∀ c s, Kept r s → KeptO r (body c s)) (h : Kept r s) : Kept r (runCmd op body s) := by
  unfold runCmd
  split
  · split
    · split
      · rename_i t e
        exact refuseReserved_kept _ _ (hb _ _ (takeCmd_kept _ _ h) t e)
      · exact h
    · exact h
  · exact h

end Sys2Proof.Machine
end

