-- ==== Sys2Proof/Laws/KeptFrames.lean ====
section
/-! SUPPORT. What the operations of Machine/Frames.lean keep. -/

set_option linter.unusedTactic false
set_option linter.unreachableTactic false

namespace Sys2Proof.Machine

theorem putPort_kept {r₀ : State} (p : Nat) (x : Port) (s : State) (hk₀ : Kept r₀ s) :
    Kept r₀ (putPort p x s) := by
  unfold putPort
  repeat' first
    | with_reducible assumption
    | dsimp only
    | fail_if_no_progress with_reducible refine Kept.upd ?_ (by rfl)

theorem pushTx_kept {r₀ : State} (port q : Nat) (f : TxFrame) (s : State) (hk₀ : Kept r₀ s) :
    Kept r₀ (pushTx port q f s) := by
  unfold pushTx
  repeat' first
    | with_reducible assumption
    | with_reducible apply putPort_kept
    | with_reducible apply fbump_kept
    | split
    | dsimp only
    | fail_if_no_progress with_reducible refine Kept.upd ?_ (by rfl)

theorem releaseTx_kept {r₀ : State} (port q n : Nat) (s : State) (hk₀ : Kept r₀ s) :
    Kept r₀ (releaseTx port q n s) := by
  unfold releaseTx
  repeat' first
    | with_reducible assumption
    | with_reducible apply pushTx_kept
    | with_reducible apply putPort_kept
    | (with_reducible apply Kept.foldl <;> intros)
    | (with_reducible apply Kept.foldlFst <;> intros)
    | (with_reducible apply Kept.foldlSnd <;> intros)
    | split
    | dsimp only
    | fail_if_no_progress with_reducible refine Kept.upd ?_ (by rfl)
    | intro _

theorem releaseAll_kept {r₀ : State} (n : Nat) (s : State) (hk₀ : Kept r₀ s) :
    Kept r₀ (releaseAll n s) := by
  unfold releaseAll
  repeat' first
    | with_reducible assumption
    | with_reducible apply releaseTx_kept
    | (with_reducible apply Kept.foldl <;> intros)
    | (with_reducible apply Kept.foldlFst <;> intros)
    | (with_reducible apply Kept.foldlSnd <;> intros)
    | dsimp only
    | intro _

theorem popTx_kept {r₀ : State} (port q : Nat) (s : State) (hk₀ : Kept r₀ s) :
    Kept r₀ (popTx port q s) := by
  unfold popTx
  repeat' first
    | with_reducible assumption
    | with_reducible apply putPort_kept
    | dsimp only
    | fail_if_no_progress with_reducible refine Kept.upd ?_ (by rfl)

theorem startFrame_kept {r₀ : State} (port q : Nat) (phase : BitVec 16) (f : TxFrame) (s : State) (hk₀ : Kept r₀ s) :
    Kept r₀ (startFrame port q phase f s) := by
  unfold startFrame
  repeat' first
    | with_reducible assumption
    | with_reducible apply popTx_kept
    | with_reducible apply putPort_kept
    | with_reducible apply fbump_kept
    | split
    | dsimp only
    | fail_if_no_progress with_reducible refine Kept.upd ?_ (by rfl)
    | intro _

theorem discardHead_kept {r₀ : State} (port q fate : Nat) (s : State) (hk₀ : Kept r₀ s) :
    Kept r₀ (discardHead port q fate s) := by
  unfold discardHead
  repeat' first
    | with_reducible assumption
    | with_reducible apply popTx_kept
    | with_reducible apply fbump_kept
    | split
    | dsimp only

theorem transmit_kept {r₀ : State} (port : Nat) (phase : BitVec 16) (s : State) (hk₀ : Kept r₀ s) :
    Kept r₀ (transmit port phase s) := by
  unfold transmit
  repeat' first
    | with_reducible assumption
    | with_reducible apply startFrame_kept
    | with_reducible apply discardHead_kept
    | split
    | dsimp only
    | intro _

theorem pushSvc_kept {r₀ : State} (b : Bytes) (s : State) (hk₀ : Kept r₀ s) :
    Kept r₀ (pushSvc b s) := by
  unfold pushSvc
  repeat' first
    | with_reducible assumption
    | split
    | dsimp only
    | fail_if_no_progress with_reducible refine Kept.upd ?_ (by rfl)

theorem pushMast_kept {r₀ : State} (port : Nat) (b : Bytes) (s : State) (hk₀ : Kept r₀ s) :
    Kept r₀ (pushMast port b s) := by
  unfold pushMast
  repeat' first
    | with_reducible assumption
    | with_reducible apply pushTx_kept
    | with_reducible apply pushSvc_kept
    | split
    | dsimp only
    | fail_if_no_progress with_reducible refine Kept.upd ?_ (by rfl)

end Sys2Proof.Machine
end

