-- ==== Sys2Proof/Laws/KeptStayOps.lean ====
section
/-! SUPPORT. What the operations of Machine/StayOps.lean keep. -/

set_option linter.unusedTactic false
set_option linter.unreachableTactic false

namespace Sys2Proof.Machine

theorem putStay_kept {r₀ : State} (p : Nat) (x : StayPort) (s : State) (hk₀ : Kept r₀ s) :
    Kept r₀ (putStay p x s) := by
  unfold putStay
  repeat' first
    | with_reducible assumption
    | dsimp only
    | fail_if_no_progress with_reducible refine Kept.upd ?_ (by rfl)

theorem stayGive_kept {r₀ : State} (port : Nat) (f : StayFrame) (s : State) (hk₀ : Kept r₀ s) :
    Kept r₀ (stayGive port f s) := by
  unfold stayGive
  repeat' first
    | with_reducible assumption
    | with_reducible apply putStay_kept
    | with_reducible apply fbump_kept
    | split
    | dsimp only
    | fail_if_no_progress with_reducible refine Kept.upd ?_ (by rfl)

theorem stayFlow_kept {r₀ : State} (port : Nat) (s : State) (hk₀ : Kept r₀ s) :
    Kept r₀ (stayFlow port s) := by
  unfold stayFlow
  repeat' first
    | with_reducible assumption
    | with_reducible apply stayGive_kept
    | with_reducible apply putStay_kept
    | (with_reducible apply Kept.foldl <;> intros)
    | (with_reducible apply Kept.foldlFst <;> intros)
    | (with_reducible apply Kept.foldlSnd <;> intros)
    | dsimp only
    | fail_if_no_progress with_reducible refine Kept.upd ?_ (by rfl)
    | intro _

theorem staySay_kept {r₀ : State} (port type pos : Nat) (data : Bytes) (w : StaySays) (s : State) (hk₀ : Kept r₀ s) :
    Kept r₀ (staySay port type pos data w s) := by
  unfold staySay
  repeat' first
    | with_reducible assumption
    | with_reducible apply stayGive_kept
    | dsimp only
    | fail_if_no_progress with_reducible refine Kept.upd ?_ (by rfl)

theorem staySendTo_kept {r₀ : State} (port type pos : Nat) (data : Bytes) (s : State) (hk₀ : Kept r₀ s) :
    Kept r₀ (staySendTo port type pos data s) := by
  unfold staySendTo
  repeat' first
    | with_reducible assumption
    | with_reducible apply staySay_kept
    | dsimp only

theorem sayPartner_kept {r₀ : State} (type : Nat) (data : Bytes) (w : StaySays) (s : State) (hk₀ : Kept r₀ s) :
    Kept r₀ (sayPartner type data w s) := by
  unfold sayPartner
  repeat' first
    | with_reducible assumption
    | with_reducible apply staySay_kept
    | (with_reducible apply Kept.foldl <;> intros)
    | (with_reducible apply Kept.foldlFst <;> intros)
    | (with_reducible apply Kept.foldlSnd <;> intros)
    | split
    | dsimp only
    | intro _

theorem sendPartner_kept {r₀ : State} (type : Nat) (data : Bytes) (s : State) (hk₀ : Kept r₀ s) :
    Kept r₀ (sendPartner type data s) := by
  unfold sendPartner
  repeat' first
    | with_reducible assumption
    | with_reducible apply sayPartner_kept
    | dsimp only

theorem unprotect_kept {r₀ : State} (cause : Nat) (s : State) (hk₀ : Kept r₀ s) :
    Kept r₀ (unprotect cause s) := by
  unfold unprotect
  repeat' first
    | with_reducible assumption
    | with_reducible apply releaseAll_kept
    | with_reducible apply raise_kept
    | split
    | dsimp only
    | fail_if_no_progress with_reducible refine Kept.upd ?_ (by rfl)

theorem forwardFrame_kept {r₀ : State} (port order : Nat) (b : Bytes) (s : State) (hk₀ : Kept r₀ s) :
    Kept r₀ (forwardFrame port order b s) := by
  unfold forwardFrame
  repeat' first
    | with_reducible assumption
    | with_reducible apply unprotect_kept
    | with_reducible apply fbump_kept
    | with_reducible apply sendPartner_kept
    | split
    | dsimp only
    | intro _

end Sys2Proof.Machine
end

