-- ==== Sys2Proof/Laws/KeptPorts.lean ====
section
/-! SUPPORT. What the operations of Machine/Ports.lean keep. -/

set_option linter.unusedTactic false
set_option linter.unreachableTactic false

namespace Sys2Proof.Machine

theorem dropLink_kept {r₀ : State} (port : Nat) (s : State) (hk₀ : Kept r₀ s) :
    Kept r₀ (dropLink port s) := by
  unfold dropLink
  repeat' first
    | with_reducible assumption
    | with_reducible apply raise_kept
    | with_reducible apply putPort_kept
    | with_reducible apply fbump_kept
    | split
    | dsimp only
    | fail_if_no_progress with_reducible refine Kept.upd ?_ (by rfl)

theorem linkDown_kept {r₀ : State} (port : Nat) (s : State) (hk₀ : Kept r₀ s) :
    Kept r₀ (linkDown port s) := by
  unfold linkDown
  repeat' first
    | with_reducible assumption
    | with_reducible apply dropLink_kept
    | with_reducible apply fset_kept
    | dsimp only

theorem linkFails_kept {r₀ : State} (port : Nat) (f : LinkFault) (s : State) (hk₀ : Kept r₀ s) :
    Kept r₀ (linkFails port f s) := by
  unfold linkFails
  repeat' first
    | with_reducible assumption
    | with_reducible apply dropLink_kept
    | with_reducible apply fset_kept
    | split
    | dsimp only
    | intro _

theorem linkUp_kept {r₀ : State} (port : Nat) (s : State) (hk₀ : Kept r₀ s) :
    Kept r₀ (linkUp port s) := by
  unfold linkUp
  repeat' first
    | with_reducible assumption
    | with_reducible apply fset_kept
    | with_reducible apply putPort_kept
    | with_reducible apply raise_kept
    | split
    | dsimp only
    | fail_if_no_progress with_reducible refine Kept.upd ?_ (by rfl)

theorem restartPort_kept {r₀ : State} (port old : Nat) (s : State) (hk₀ : Kept r₀ s) :
    Kept r₀ (restartPort port old s) := by
  unfold restartPort
  repeat' first
    | with_reducible assumption
    | with_reducible apply fset_kept
    | with_reducible apply linkDown_kept
    | split
    | dsimp only

theorem pauseQueues_kept {r₀ : State} (port : Nat) (which : Nat → Option Nat) (s : State) (hk₀ : Kept r₀ s) :
    Kept r₀ (pauseQueues port which s) := by
  unfold pauseQueues
  repeat' first
    | with_reducible assumption
    | with_reducible apply putPort_kept
    | (with_reducible apply Kept.foldl <;> intros)
    | (with_reducible apply Kept.foldlFst <;> intros)
    | (with_reducible apply Kept.foldlSnd <;> intros)
    | split
    | dsimp only
    | fail_if_no_progress with_reducible refine Kept.upd ?_ (by rfl)
    | intro _

theorem controlFrame_kept {r₀ : State} (port : Nat) (f : Bytes) (s : State) (hk₀ : Kept r₀ s) :
    Kept r₀ (controlFrame port f s) := by
  unfold controlFrame
  repeat' first
    | with_reducible assumption
    | with_reducible apply fbump_kept
    | with_reducible apply pauseQueues_kept
    | split
    | dsimp only
    | intro _

theorem storeFrame_kept {r₀ : State} (port q bufs : Nat) (phase : BitVec 16) (f : Bytes) (s : State) (hk₀ : Kept r₀ s) :
    Kept r₀ (storeFrame port q bufs phase f s) := by
  unfold storeFrame
  repeat' first
    | with_reducible assumption
    | with_reducible apply fbump_kept
    | with_reducible apply putPort_kept
    | with_reducible apply forwardFrame_kept
    | split
    | dsimp only
    | fail_if_no_progress with_reducible refine Kept.upd ?_ (by rfl)

theorem receiveTrunk_kept {r₀ : State} (port : Nat) (b : Bytes) (a : Arrival) (s : State) (hk₀ : Kept r₀ s) :
    Kept r₀ (receiveTrunk port b a s) := by
  unfold receiveTrunk
  repeat' first
    | with_reducible assumption
    | with_reducible apply fbump_kept
    | with_reducible apply raiseLimited_kept
    | with_reducible apply controlFrame_kept
    | with_reducible apply storeFrame_kept
    | split
    | dsimp only
    | intro _

theorem wakeHits_kept {r₀ : State} (b : Bytes) (s : State) (hk₀ : Kept r₀ s) :
    Kept r₀ (wakeHits b s) := by
  unfold wakeHits
  repeat' first
    | with_reducible assumption
    | with_reducible apply raise_kept
    | with_reducible apply fset_kept
    | (with_reducible apply Kept.foldl <;> intros)
    | (with_reducible apply Kept.foldlFst <;> intros)
    | (with_reducible apply Kept.foldlSnd <;> intros)
    | split
    | dsimp only
    | intro _

theorem receiveSvc_kept {r₀ : State} (b : Bytes) (bad : Bool) (s : State) (hk₀ : Kept r₀ s) :
    Kept r₀ (receiveSvc b bad s) := by
  unfold receiveSvc
  repeat' first
    | with_reducible assumption
    | with_reducible apply wakeHits_kept
    | with_reducible apply fbump_kept
    | with_reducible apply raiseLimited_kept
    | split
    | dsimp only
    | fail_if_no_progress with_reducible refine Kept.upd ?_ (by rfl)
    | intro _

theorem execFrameReceive_kept {r₀ : State} (port : Fin 3) (bytes : Bytes) (arrival : Arrival) (s : State) (hk₀ : Kept r₀ s) :
    KeptX r₀ (execFrameReceive port bytes arrival s) := by
  unfold execFrameReceive
  repeat' first
    | with_reducible assumption
    | with_reducible apply KeptX.next
    | with_reducible apply wakeHits_kept
    | with_reducible apply receiveSvc_kept
    | with_reducible apply receiveTrunk_kept
    | split
    | dsimp only
    | intro _

theorem execPauseExpire_kept {r₀ : State} (port : Fin 3) (queue : Fin 8) (s : State) (hk₀ : Kept r₀ s) :
    KeptX r₀ (execPauseExpire port queue s) := by
  unfold execPauseExpire
  repeat' first
    | with_reducible assumption
    | with_reducible apply KeptX.next
    | with_reducible apply pauseQueues_kept
    | split
    | dsimp only
    | fail_if_no_progress with_reducible refine Kept.upd ?_ (by rfl)
    | intro _

theorem execPauseWatchdog_kept {r₀ : State} (port : Fin 2) (queue : Fin 8) (s : State) (hk₀ : Kept r₀ s) :
    KeptX r₀ (execPauseWatchdog port queue s) := by
  unfold execPauseWatchdog
  repeat' first
    | with_reducible assumption
    | with_reducible apply KeptX.next
    | with_reducible apply putPort_kept
    | with_reducible apply raise_kept
    | with_reducible apply fbump_kept
    | split
    | dsimp only
    | fail_if_no_progress with_reducible refine Kept.upd ?_ (by rfl)
    | intro _

theorem execHoldoffEnd_kept {r₀ : State} (port : Fin 2) (queue : Fin 8) (s : State) (hk₀ : Kept r₀ s) :
    KeptX r₀ (execHoldoffEnd port queue s) := by
  unfold execHoldoffEnd
  repeat' first
    | with_reducible assumption
    | with_reducible apply KeptX.next
    | with_reducible apply putPort_kept
    | dsimp only
    | fail_if_no_progress with_reducible refine Kept.upd ?_ (by rfl)
    | intro _

theorem startGates_kept {r₀ : State} (port : Nat) (l : GateList) (s : State) (hk₀ : Kept r₀ s) :
    Kept r₀ (startGates port l s) := by
  unfold startGates
  repeat' first
    | with_reducible assumption
    | with_reducible apply putPort_kept
    | dsimp only
    | fail_if_no_progress with_reducible refine Kept.upd ?_ (by rfl)

theorem applyGates_kept {r₀ : State} (port : Nat) (s : State) (hk₀ : Kept r₀ s) :
    Kept r₀ (applyGates port s) := by
  unfold applyGates
  repeat' first
    | with_reducible assumption
    | with_reducible apply putPort_kept
    | with_reducible apply raise_kept
    | with_reducible apply fset_kept
    | with_reducible apply startGates_kept
    | split
    | dsimp only
    | fail_if_no_progress with_reducible refine Kept.upd ?_ (by rfl)

theorem gateListStart_kept {r₀ : State} (port : Nat) (s : State) (hk₀ : Kept r₀ s) :
    Kept r₀ (gateListStart port s) := by
  unfold gateListStart
  repeat' first
    | with_reducible assumption
    | with_reducible apply startGates_kept
    | with_reducible apply putPort_kept
    | split
    | dsimp only
    | fail_if_no_progress with_reducible refine Kept.upd ?_ (by rfl)
    | intro _

theorem moveGates_kept {r₀ : State} (port : Nat) (s : State) (hk₀ : Kept r₀ s) :
    Kept r₀ (moveGates port s) := by
  unfold moveGates
  repeat' first
    | with_reducible assumption
    | with_reducible apply startGates_kept
    | split
    | dsimp only
    | intro _

theorem gatesAfterStep_kept {r₀ : State} (s : State) (hk₀ : Kept r₀ s) :
    Kept r₀ (gatesAfterStep s) := by
  unfold gatesAfterStep
  repeat' first
    | with_reducible assumption
    | with_reducible apply gateListStart_kept
    | with_reducible apply moveGates_kept
    | (with_reducible apply Kept.foldl <;> intros)
    | (with_reducible apply Kept.foldlFst <;> intros)
    | (with_reducible apply Kept.foldlSnd <;> intros)
    | split
    | dsimp only
    | intro _

theorem execGateListStart_kept {r₀ : State} (port : Fin 2) (s : State) (hk₀ : Kept r₀ s) :
    KeptX r₀ (execGateListStart port s) := by
  unfold execGateListStart
  repeat' first
    | with_reducible assumption
    | with_reducible apply KeptX.next
    | with_reducible apply gateListStart_kept
    | split
    | dsimp only
    | intro _

theorem execGateEntryChange_kept {r₀ : State} (port : Fin 2) (s : State) (hk₀ : Kept r₀ s) :
    KeptX r₀ (execGateEntryChange port s) := by
  unfold execGateEntryChange
  repeat' first
    | with_reducible assumption
    | with_reducible apply KeptX.next
    | with_reducible apply moveGates_kept
    | dsimp only
    | intro _

theorem transmitSvc_kept {r₀ : State} (s : State) (hk₀ : Kept r₀ s) :
    Kept r₀ (transmitSvc s) := by
  unfold transmitSvc
  repeat' first
    | with_reducible assumption
    | with_reducible apply fbump_kept
    | split
    | dsimp only
    | fail_if_no_progress with_reducible refine Kept.upd ?_ (by rfl)
    | intro _

theorem execFrameTransmit_kept {r₀ : State} (start : TxStart) (s : State) (hk₀ : Kept r₀ s) :
    KeptX r₀ (execFrameTransmit start s) := by
  unfold execFrameTransmit
  repeat' first
    | with_reducible assumption
    | with_reducible apply KeptX.next
    | with_reducible apply transmitSvc_kept
    | with_reducible apply transmit_kept
    | split
    | dsimp only
    | intro _

theorem moveSource_kept {r₀ : State} (port source lo : Nat) (s : State) (hk₀ : Kept r₀ s) :
    Kept r₀ (moveSource port source lo s) := by
  unfold moveSource
  repeat' first
    | with_reducible assumption
    | with_reducible apply putPort_kept
    | split
    | dsimp only
    | fail_if_no_progress with_reducible refine Kept.upd ?_ (by rfl)

theorem movePeer_kept {r₀ : State} (port peer : Nat) (s : State) (hk₀ : Kept r₀ s) :
    Kept r₀ (movePeer port peer s) := by
  unfold movePeer
  repeat' first
    | with_reducible assumption
    | with_reducible apply putPort_kept
    | split
    | dsimp only
    | fail_if_no_progress with_reducible refine Kept.upd ?_ (by rfl)

theorem execTxMapChange_kept {r₀ : State} (port : Fin 2) (s : State) (hk₀ : Kept r₀ s) :
    KeptX r₀ (execTxMapChange port s) := by
  unfold execTxMapChange
  repeat' first
    | with_reducible assumption
    | with_reducible apply KeptX.next
    | with_reducible apply moveSource_kept
    | with_reducible apply movePeer_kept
    | (with_reducible apply Kept.foldl <;> intros)
    | (with_reducible apply Kept.foldlFst <;> intros)
    | (with_reducible apply Kept.foldlSnd <;> intros)
    | dsimp only
    | intro _

theorem collisionLimit_kept {r₀ : State} (late : Nat) (s : State) (hk₀ : Kept r₀ s) :
    Kept r₀ (collisionLimit late s) := by
  unfold collisionLimit
  repeat' first
    | with_reducible assumption
    | with_reducible apply raiseLimited_kept
    | dsimp only

theorem execSvcCollision_kept {r₀ : State} (late : Bool) (s : State) (hk₀ : Kept r₀ s) :
    KeptX r₀ (execSvcCollision late s) := by
  unfold execSvcCollision
  repeat' first
    | with_reducible assumption
    | with_reducible apply KeptX.next
    | with_reducible apply fbump_kept
    | with_reducible apply collisionLimit_kept
    | with_reducible apply draw_kept
    | split
    | dsimp only
    | fail_if_no_progress with_reducible refine Kept.upd ?_ (by rfl)
    | intro _

theorem execSvcBackoffEnd_kept {r₀ : State} (s : State) (hk₀ : Kept r₀ s) :
    KeptX r₀ (execSvcBackoffEnd s) := by
  unfold execSvcBackoffEnd
  repeat' first
    | with_reducible assumption
    | with_reducible apply KeptX.next
    | dsimp only
    | fail_if_no_progress with_reducible refine Kept.upd ?_ (by rfl)
    | intro _

theorem startMdio_kept {r₀ : State} (s : State) (hk₀ : Kept r₀ s) :
    Kept r₀ (startMdio s) := by
  unfold startMdio
  repeat' first
    | with_reducible assumption
    | dsimp only
    | fail_if_no_progress with_reducible refine Kept.upd ?_ (by rfl)

theorem execMdioDone_kept {r₀ : State} (data : BitVec 16) (s : State) (hk₀ : Kept r₀ s) :
    KeptX r₀ (execMdioDone data s) := by
  unfold execMdioDone
  repeat' first
    | with_reducible assumption
    | with_reducible apply KeptX.next
    | with_reducible apply fset_kept
    | split
    | dsimp only
    | fail_if_no_progress with_reducible refine Kept.upd ?_ (by rfl)
    | intro _

theorem takeRx_kept {r₀ : State} (port q : Nat) (f : RxFrame) (s : State) (hk₀ : Kept r₀ s) :
    Kept r₀ (takeRx port q f s) := by
  unfold takeRx
  repeat' first
    | with_reducible assumption
    | with_reducible apply putPort_kept
    | dsimp only
    | fail_if_no_progress with_reducible refine Kept.upd ?_ (by rfl)

theorem mastFrame_kept {r₀ : State} (port : Nat) (f : Bytes) (s : State) (hk₀ : Kept r₀ s) :
    Kept r₀ (mastFrame port f s) := by
  unfold mastFrame
  repeat' first
    | with_reducible assumption
    | with_reducible apply draw_kept
    | with_reducible apply pushMast_kept
    | with_reducible apply fbump_kept
    | split
    | dsimp only
    | intro _

theorem execMastFrameReceive_kept {r₀ : State} (port : Fin 3) (s : State) (hk₀ : Kept r₀ s) :
    KeptX r₀ (execMastFrameReceive port s) := by
  unfold execMastFrameReceive
  repeat' first
    | with_reducible assumption
    | with_reducible apply KeptX.next
    | with_reducible apply mastFrame_kept
    | with_reducible apply takeRx_kept
    | split
    | dsimp only
    | fail_if_no_progress with_reducible refine Kept.upd ?_ (by rfl)
    | intro _

end Sys2Proof.Machine
end

