-- ==== Sys2Proof/Laws/KeptChannels.lean ====
section
/-! SUPPORT. What the operations of Machine/Channels.lean keep. -/

set_option linter.unusedTactic false
set_option linter.unreachableTactic false

namespace Sys2Proof.Machine

theorem modChan_kept {r₀ : State} (n : Nat) (f : Channel → Channel) (s : State) (hk₀ : Kept r₀ s) :
    Kept r₀ (modChan n f s) := by
  unfold modChan
  repeat' first
    | with_reducible assumption
    | split
    | dsimp only
    | fail_if_no_progress with_reducible refine Kept.upd ?_ (by rfl)
    | intro _

theorem modSess_kept {r₀ : State} (h : Nat) (f : Session → Session) (s : State) (hk₀ : Kept r₀ s) :
    Kept r₀ (modSess h f s) := by
  unfold modSess
  repeat' first
    | with_reducible assumption
    | split
    | dsimp only
    | fail_if_no_progress with_reducible refine Kept.upd ?_ (by rfl)
    | intro _

theorem modLeg_kept {r₀ : State} (n l : Nat) (f : Leg → Leg) (s : State) (hk₀ : Kept r₀ s) :
    Kept r₀ (modLeg n l f s) := by
  unfold modLeg
  repeat' first
    | with_reducible assumption
    | with_reducible apply modChan_kept
    | dsimp only
    | intro _

theorem statSet_kept {r₀ : State} (n id v : Nat) (s : State) (hk₀ : Kept r₀ s) :
    Kept r₀ (statSet n id v s) := by
  unfold statSet
  repeat' first
    | with_reducible assumption
    | with_reducible apply modChan_kept
    | dsimp only
    | fail_if_no_progress with_reducible refine Kept.upd ?_ (by rfl)
    | intro _
    | dsimp only [id_eq]

theorem statBump_kept {r₀ : State} (n id k : Nat) (s : State) (hk₀ : Kept r₀ s) :
    Kept r₀ (statBump n id k s) := by
  unfold statBump
  repeat' first
    | with_reducible assumption
    | with_reducible apply modChan_kept
    | dsimp only
    | fail_if_no_progress with_reducible refine Kept.upd ?_ (by rfl)
    | intro _
    | dsimp only [id_eq]

theorem atBoundary_kept {r₀ : State} (f : State → State) (s : State) (hf : ∀ s, Kept r₀ s → Kept r₀ (f s)) (hk₀ : Kept r₀ s) :
    Kept r₀ (atBoundary f s) := by
  unfold atBoundary
  repeat' first
    | with_reducible assumption
    | with_reducible apply hf
    | dsimp only
    | fail_if_no_progress with_reducible refine Kept.upd ?_ (by rfl)

end Sys2Proof.Machine
end

