-- ==== Sys2Proof/Laws/KeptMemErr.lean ====
section
/-! SUPPORT. What the operations of Machine/MemErr.lean keep. -/

set_option linter.unusedTactic false
set_option linter.unreachableTactic false

namespace Sys2Proof.Machine

theorem cellarUe_kept {r₀ : State} (master c : Nat) (s : State) (hk₀ : Kept r₀ s) :
    Kept r₀ (cellarUe master c s) := by
  unfold cellarUe
  repeat' first
    | with_reducible assumption
    | with_reducible apply fbump_kept
    | with_reducible apply fset_kept
    | with_reducible apply ueMet_kept
    | with_reducible apply raise_kept
    | dsimp only
    | intro _

theorem atticUe_kept {r₀ : State} (cluster master off : Nat) (s : State) (hk₀ : Kept r₀ s) :
    Kept r₀ (atticUe cluster master off s) := by
  unfold atticUe
  repeat' first
    | with_reducible assumption
    | with_reducible apply clusterUe_kept
    | with_reducible apply ueMet_kept
    | with_reducible apply raise_kept
    | with_reducible apply fbump_kept
    | dsimp only

theorem laneDataUe_kept {r₀ : State} (lane : Nat) (s : State) (hk₀ : Kept r₀ s) :
    Kept r₀ (laneDataUe lane s) := by
  unfold laneDataUe
  repeat' first
    | with_reducible assumption
    | with_reducible apply clusterUe_kept
    | with_reducible apply ueMet_kept
    | with_reducible apply fbump_kept
    | dsimp only

theorem laneProgramUe_kept {r₀ : State} (lane : Nat) (s : State) (hk₀ : Kept r₀ s) :
    Kept r₀ (laneProgramUe lane s) := by
  unfold laneProgramUe
  repeat' first
    | with_reducible assumption
    | with_reducible apply clusterUe_kept
    | with_reducible apply ueMet_kept
    | with_reducible apply fbump_kept
    | dsimp only

theorem transferDropped_kept {r₀ : State} (master target : Nat) (s : State) (hk₀ : Kept r₀ s) :
    Kept r₀ (transferDropped master target s) := by
  unfold transferDropped
  repeat' first
    | with_reducible assumption
    | with_reducible apply raiseCounting_kept
    | dsimp only

theorem memoryUe_kept {r₀ : State} (master a : Nat) (s : State) (hk₀ : Kept r₀ s) :
    Kept r₀ (memoryUe master a s) := by
  unfold memoryUe
  repeat' first
    | with_reducible assumption
    | with_reducible apply cellarUe_kept
    | with_reducible apply atticUe_kept
    | with_reducible apply laneDataUe_kept
    | with_reducible apply laneProgramUe_kept
    | split
    | dsimp only

theorem wordsFixed_kept {r₀ : State} (a n : Nat) (s : State) (hk₀ : Kept r₀ s) :
    Kept r₀ (wordsFixed a n s) := by
  unfold wordsFixed
  repeat' first
    | with_reducible assumption
    | with_reducible apply fbump_kept
    | with_reducible apply raiseCountingBy_kept
    | split
    | dsimp only

end Sys2Proof.Machine
end

