-- ==== Sys2Proof/Laws/KeptStoreRoom.lean ====
section
/-! SUPPORT. What the operations of Machine/StoreRoom.lean keep. -/

set_option linter.unusedTactic false
set_option linter.unreachableTactic false

namespace Sys2Proof.Machine

theorem modRoom_kept {r₀ : State} (n l : Nat) (f : StoreRoom → StoreRoom) (s : State) (hk₀ : Kept r₀ s) :
    Kept r₀ (modRoom n l f s) := by
  unfold modRoom
  repeat' first
    | with_reducible assumption
    | with_reducible apply modLeg_kept
    | dsimp only
    | fail_if_no_progress with_reducible refine Kept.upd ?_ (by rfl)
    | intro _

theorem storeRecord_kept {r₀ : State} (n l : Nat) (cell : Int) (s : State) (hk₀ : Kept r₀ s) :
    Kept r₀ (storeRecord n l cell s) := by
  unfold storeRecord
  repeat' first
    | with_reducible assumption
    | with_reducible apply storeBytes_kept
    | split
    | dsimp only
    | intro _

theorem storeEvents_kept {r₀ : State} (n l : Nat) (s : State) (hk₀ : Kept r₀ s) :
    Kept r₀ (storeEvents n l s) := by
  unfold storeEvents
  repeat' first
    | with_reducible assumption
    | with_reducible apply storeBytes_kept
    | split
    | dsimp only
    | intro _

theorem clearRing_kept {r₀ : State} (n l : Nat) (s : State) (hk₀ : Kept r₀ s) :
    Kept r₀ (clearRing n l s) := by
  unfold clearRing
  repeat' first
    | with_reducible assumption
    | with_reducible apply clearRange_kept
    | split
    | dsimp only
    | intro _

theorem storeHeader_kept {r₀ : State} (n l : Nat) (s : State) (hk₀ : Kept r₀ s) :
    Kept r₀ (storeHeader n l s) := by
  unfold storeHeader
  repeat' first
    | with_reducible assumption
    | with_reducible apply recordDenial_kept
    | with_reducible apply storeBytes_kept
    | split
    | dsimp only
    | intro _

theorem dropCell_kept {r₀ : State} (n l : Nat) (cell : Int) (s : State) (hk₀ : Kept r₀ s) :
    Kept r₀ (dropCell n l cell s) := by
  unfold dropCell
  repeat' first
    | with_reducible assumption
    | with_reducible apply modRoom_kept
    | dsimp only
    | fail_if_no_progress with_reducible refine Kept.upd ?_ (by rfl)
    | intro _

theorem recordUe_kept {r₀ : State} (n l : Nat) (cell : Int) (bad : List Nat) (s : State) (hk₀ : Kept r₀ s) :
    Kept r₀ (recordUe n l cell bad s) := by
  unfold recordUe
  repeat' first
    | with_reducible assumption
    | with_reducible apply statBump_kept
    | with_reducible apply dropCell_kept
    | with_reducible apply cellarUe_kept
    | with_reducible apply raise_kept
    | with_reducible apply transferDropped_kept
    | (with_reducible apply Kept.foldl <;> intros)
    | (with_reducible apply Kept.foldlFst <;> intros)
    | (with_reducible apply Kept.foldlSnd <;> intros)
    | split
    | dsimp only
    | intro _

theorem checkRecord_kept {r₀ : State} (n l : Nat) (cell : Int) (s : State) (hk₀ : Kept r₀ s) :
    Kept r₀ (checkRecord n l cell s) := by
  unfold checkRecord
  repeat' first
    | with_reducible assumption
    | with_reducible apply recordDenial_kept
    | with_reducible apply dropCell_kept
    | with_reducible apply recordUe_kept
    | split
    | dsimp only

theorem startStream_kept {r₀ : State} (n l a : Nat) (pos : Word) (s : State) (hk₀ : Kept r₀ s) :
    Kept r₀ (startStream n l a pos s) := by
  unfold startStream
  repeat' first
    | with_reducible assumption
    | with_reducible apply clearRing_kept
    | with_reducible apply modLeg_kept
    | split
    | dsimp only
    | fail_if_no_progress with_reducible refine Kept.upd ?_ (by rfl)
    | intro _

theorem noteRestart_kept {r₀ : State} (n l cause : Nat) (s : State) (hk₀ : Kept r₀ s) :
    Kept r₀ (noteRestart n l cause s) := by
  unfold noteRestart
  repeat' first
    | with_reducible assumption
    | with_reducible apply raise_kept
    | with_reducible apply statBump_kept
    | dsimp only

theorem stopStream_kept {r₀ : State} (n l cause : Nat) (s : State) (hk₀ : Kept r₀ s) :
    Kept r₀ (stopStream n l cause s) := by
  unfold stopStream
  repeat' first
    | with_reducible assumption
    | with_reducible apply noteRestart_kept
    | with_reducible apply modLeg_kept
    | split
    | dsimp only
    | fail_if_no_progress with_reducible refine Kept.upd ?_ (by rfl)
    | intro _

theorem notePlaced_kept {r₀ : State} (n l : Nat) (slack : Int) (s : State) (hk₀ : Kept r₀ s) :
    Kept r₀ (notePlaced n l slack s) := by
  unfold notePlaced
  repeat' first
    | with_reducible assumption
    | with_reducible apply statBump_kept
    | with_reducible apply modRoom_kept
    | dsimp only
    | fail_if_no_progress with_reducible refine Kept.upd ?_ (by rfl)
    | intro _

theorem placePart_kept {r₀ : State} (n l : Nat) (p : Part) (cell : Int) (off : Nat) (s : State) (hk₀ : Kept r₀ s) :
    Kept r₀ (placePart n l p cell off s) := by
  unfold placePart
  repeat' first
    | with_reducible assumption
    | with_reducible apply modRoom_kept
    | with_reducible apply notePlaced_kept
    | with_reducible apply storeRecord_kept
    | split
    | dsimp only
    | fail_if_no_progress with_reducible refine Kept.upd ?_ (by rfl)
    | intro _

theorem decidePart_kept {r₀ : State} (n l : Nat) (p : Part) (s : State) (hk₀ : Kept r₀ s) :
    Kept r₀ (decidePart n l p s).1 := by
  unfold decidePart
  repeat' first
    | with_reducible assumption
    | with_reducible apply modRoom_kept
    | with_reducible apply statBump_kept
    | with_reducible apply startStream_kept
    | with_reducible apply placePart_kept
    | with_reducible apply noteRestart_kept
    | split
    | dsimp only
    | fail_if_no_progress with_reducible refine Kept.upd ?_ (by rfl)
    | intro _

theorem handlePart_kept {r₀ : State} (fuel : Nat) (n : Nat) (l : Nat) (p : Part) (s : State) (hk₀ : Kept r₀ s) :
    Kept r₀ (handlePart fuel n l p s).1 := by
  induction fuel generalizing n l p s with
  | zero => exact hk₀
  | succ fuel ih =>
    unfold handlePart
    repeat' first
      | with_reducible assumption
      | with_reducible apply ih
      | with_reducible apply decidePart_kept
      | split
      | dsimp only
      | fail_if_no_progress with_reducible refine Kept.upd ?_ (by rfl)

theorem handleNotices_kept {r₀ : State} (n l t : Nat) (s : State) (hk₀ : Kept r₀ s) :
    Kept r₀ (handleNotices n l t s).1 := by
  unfold handleNotices
  repeat' first
    | with_reducible assumption
    | with_reducible apply modRoom_kept
    | with_reducible apply handlePart_kept
    | (with_reducible apply Kept.foldl <;> intros)
    | (with_reducible apply Kept.foldlFst <;> intros)
    | (with_reducible apply Kept.foldlSnd <;> intros)
    | dsimp only
    | fail_if_no_progress with_reducible refine Kept.upd ?_ (by rfl)
    | intro _

theorem passCell_kept {r₀ : State} (n l : Nat) (cell : Int) (s : State) (hk₀ : Kept r₀ s) :
    Kept r₀ (passCell n l cell s) := by
  unfold passCell
  repeat' first
    | with_reducible assumption
    | with_reducible apply modLeg_kept
    | with_reducible apply checkRecord_kept
    | with_reducible apply modRoom_kept
    | split
    | dsimp only
    | fail_if_no_progress with_reducible refine Kept.upd ?_ (by rfl)
    | intro _

theorem keepCheckpoints_kept {r₀ : State} (n l : Nat) (s : State) (hk₀ : Kept r₀ s) :
    Kept r₀ (keepCheckpoints n l s) := by
  unfold keepCheckpoints
  repeat' first
    | with_reducible assumption
    | with_reducible apply modRoom_kept
    | with_reducible apply modLeg_kept
    | split
    | dsimp only
    | fail_if_no_progress with_reducible refine Kept.upd ?_ (by rfl)
    | intro _

theorem decodeOn_kept {r₀ : State} (n l : Nat) (s : State) (hk₀ : Kept r₀ s) :
    Kept r₀ (decodeOn n l s) := by
  unfold decodeOn
  repeat' first
    | with_reducible assumption
    | with_reducible apply keepCheckpoints_kept
    | with_reducible apply passCell_kept
    | (with_reducible apply Kept.foldl <;> intros)
    | (with_reducible apply Kept.foldlFst <;> intros)
    | (with_reducible apply Kept.foldlSnd <;> intros)
    | split
    | dsimp only
    | intro _

theorem rollback_kept {r₀ : State} (n l : Nat) (m : Option Int) (s : State) (hk₀ : Kept r₀ s) :
    Kept r₀ (rollback n l m s) := by
  unfold rollback
  repeat' first
    | with_reducible assumption
    | with_reducible apply passCell_kept
    | with_reducible apply modLeg_kept
    | with_reducible apply statBump_kept
    | with_reducible apply keepCheckpoints_kept
    | (with_reducible apply Kept.foldl <;> intros)
    | (with_reducible apply Kept.foldlFst <;> intros)
    | (with_reducible apply Kept.foldlSnd <;> intros)
    | split
    | dsimp only
    | intro _

theorem overtake_kept {r₀ : State} (n l : Nat) (s : State) (hk₀ : Kept r₀ s) :
    Kept r₀ (overtake n l s) := by
  unfold overtake
  repeat' first
    | with_reducible assumption
    | with_reducible apply keepCheckpoints_kept
    | with_reducible apply modRoom_kept
    | with_reducible apply raise_kept
    | with_reducible apply statBump_kept
    | (with_reducible apply Kept.foldl <;> intros)
    | (with_reducible apply Kept.foldlFst <;> intros)
    | (with_reducible apply Kept.foldlSnd <;> intros)
    | split
    | dsimp only
    | fail_if_no_progress with_reducible refine Kept.upd ?_ (by rfl)
    | intro _

theorem commitCell_kept {r₀ : State} (n l : Nat) (missed : Bool) (s0 : State) (hk₀ : Kept r₀ s0) :
    Kept r₀ (commitCell n l missed s0) := by
  unfold commitCell
  repeat' first
    | with_reducible assumption
    | with_reducible apply checkRecord_kept
    | with_reducible apply modRoom_kept
    | with_reducible apply keepCheckpoints_kept
    | with_reducible apply modLeg_kept
    | with_reducible apply statBump_kept
    | split
    | dsimp only
    | fail_if_no_progress with_reducible refine Kept.upd ?_ (by rfl)
    | intro _

theorem commitDue_kept {r₀ : State} (fuel : Nat) (n : Nat) (l : Nat) (t : Nat) (s : State) (hk₀ : Kept r₀ s) :
    Kept r₀ (commitDue fuel n l t s) := by
  induction fuel generalizing n l t s with
  | zero => exact hk₀
  | succ fuel ih =>
    unfold commitDue
    repeat' first
      | with_reducible assumption
      | with_reducible apply ih
      | with_reducible apply commitCell_kept
      | split
      | dsimp only

theorem raiseDelay_kept {r₀ : State} (n l target : Nat) (s : State) (hk₀ : Kept r₀ s) :
    Kept r₀ (raiseDelay n l target s) := by
  unfold raiseDelay
  repeat' first
    | with_reducible assumption
    | with_reducible apply statBump_kept
    | with_reducible apply modRoom_kept
    | split
    | dsimp only
    | fail_if_no_progress with_reducible refine Kept.upd ?_ (by rfl)
    | intro _

theorem removeTick_kept {r₀ : State} (n l t : Nat) (s : State) (hk₀ : Kept r₀ s) :
    Kept r₀ (removeTick n l t s) := by
  unfold removeTick
  repeat' first
    | with_reducible assumption
    | with_reducible apply statBump_kept
    | with_reducible apply modRoom_kept
    | split
    | dsimp only
    | fail_if_no_progress with_reducible refine Kept.upd ?_ (by rfl)
    | intro _

theorem setDelay_kept {r₀ : State} (n l want : Nat) (s : State) (hk₀ : Kept r₀ s) :
    Kept r₀ (setDelay n l want s) := by
  unfold setDelay
  repeat' first
    | with_reducible assumption
    | with_reducible apply modRoom_kept
    | with_reducible apply raiseDelay_kept
    | with_reducible apply statBump_kept
    | split
    | dsimp only
    | fail_if_no_progress with_reducible refine Kept.upd ?_ (by rfl)
    | intro _

theorem switchRoom_kept {r₀ : State} (n l : Nat) (s : State) (hk₀ : Kept r₀ s) :
    Kept r₀ (switchRoom n l s) := by
  unfold switchRoom
  repeat' first
    | with_reducible assumption
    | with_reducible apply setDelay_kept
    | with_reducible apply modRoom_kept
    | with_reducible apply stopStream_kept
    | split
    | dsimp only
    | fail_if_no_progress with_reducible refine Kept.upd ?_ (by rfl)
    | intro _

theorem modifyRoom_kept {r₀ : State} (old : State) (n l : Nat) (s : State) (hk₀ : Kept r₀ s) :
    Kept r₀ (modifyRoom old n l s) := by
  unfold modifyRoom
  repeat' first
    | with_reducible assumption
    | with_reducible apply modRoom_kept
    | split
    | dsimp only
    | fail_if_no_progress with_reducible refine Kept.upd ?_ (by rfl)
    | intro _
    | dsimp only [id_eq]

theorem limitTarget_kept {r₀ : State} (n l t : Nat) (s : State) (hk₀ : Kept r₀ s) :
    Kept r₀ (limitTarget n l t s).2 := by
  unfold limitTarget
  repeat' first
    | with_reducible assumption
    | with_reducible apply raise_kept
    | split
    | dsimp only

theorem noteSeam_kept {r₀ : State} (n l : Nat) (k0 : Int) (s : State) (hk₀ : Kept r₀ s) :
    Kept r₀ (noteSeam n l k0 s) := by
  unfold noteSeam
  repeat' first
    | with_reducible assumption
    | with_reducible apply modRoom_kept
    | split
    | dsimp only
    | fail_if_no_progress with_reducible refine Kept.upd ?_ (by rfl)
    | intro _

theorem lowerSeam_kept {r₀ : State} (n l t target : Nat) (s : State) (hk₀ : Kept r₀ s) :
    Kept r₀ (lowerSeam n l t target s) := by
  unfold lowerSeam
  repeat' first
    | with_reducible assumption
    | with_reducible apply noteSeam_kept
    | with_reducible apply commitDue_kept
    | with_reducible apply removeTick_kept
    | split
    | dsimp only

theorem windowDecision_kept {r₀ : State} (n l : Nat) (s : State) (hk₀ : Kept r₀ s) :
    Kept r₀ (windowDecision n l s) := by
  unfold windowDecision
  repeat' first
    | with_reducible assumption
    | with_reducible apply statSet_kept
    | with_reducible apply limitTarget_kept
    | with_reducible apply raiseDelay_kept
    | with_reducible apply modRoom_kept
    | with_reducible apply lowerSeam_kept
    | (with_reducible apply Kept.foldl <;> intros)
    | (with_reducible apply Kept.foldlFst <;> intros)
    | (with_reducible apply Kept.foldlSnd <;> intros)
    | split
    | dsimp only
    | fail_if_no_progress with_reducible refine Kept.upd ?_ (by rfl)
    | intro _

theorem windowEnd_kept {r₀ : State} (n l : Nat) (s : State) (hk₀ : Kept r₀ s) :
    Kept r₀ (windowEnd n l s) := by
  unfold windowEnd
  repeat' first
    | with_reducible assumption
    | with_reducible apply windowDecision_kept
    | with_reducible apply modRoom_kept
    | split
    | dsimp only
    | fail_if_no_progress with_reducible refine Kept.upd ?_ (by rfl)
    | intro _

theorem execAdaptWindowEnd_kept {r₀ : State} (chan : BitVec 13) (leg : Bool) (s : State) (hk₀ : Kept r₀ s) :
    KeptX r₀ (execAdaptWindowEnd chan leg s) := by
  unfold execAdaptWindowEnd
  repeat' first
    | with_reducible assumption
    | with_reducible apply KeptX.next
    | with_reducible apply windowEnd_kept
    | split
    | dsimp only
    | intro _

theorem playoutChange_kept {r₀ : State} (n l t : Nat) (s : State) (hk₀ : Kept r₀ s) :
    Kept r₀ (playoutChange n l t s) := by
  unfold playoutChange
  repeat' first
    | with_reducible assumption
    | with_reducible apply raiseDelay_kept
    | with_reducible apply modRoom_kept
    | with_reducible apply lowerSeam_kept
    | split
    | dsimp only
    | fail_if_no_progress with_reducible refine Kept.upd ?_ (by rfl)
    | intro _

theorem serveRoom_kept {r₀ : State} (n l : Nat) (s : State) (hk₀ : Kept r₀ s) :
    Kept r₀ (serveRoom n l s) := by
  unfold serveRoom
  repeat' first
    | with_reducible assumption
    | with_reducible apply commitDue_kept
    | with_reducible apply noteSeam_kept
    | with_reducible apply overtake_kept
    | with_reducible apply handleNotices_kept
    | with_reducible apply rollback_kept
    | with_reducible apply storeHeader_kept
    | with_reducible apply playoutChange_kept
    | with_reducible apply decodeOn_kept
    | dsimp only

theorem dropAudio_kept {r₀ : State} (n l t : Nat) (s : State) (hk₀ : Kept r₀ s) :
    Kept r₀ (dropAudio n l t s) := by
  unfold dropAudio
  repeat' first
    | with_reducible assumption
    | with_reducible apply modRoom_kept
    | dsimp only
    | fail_if_no_progress with_reducible refine Kept.upd ?_ (by rfl)
    | intro _

end Sys2Proof.Machine
end

