-- ==== Sys2Proof/Laws/KeptEcho.lean ====
section
/-! SUPPORT. What the operations of Machine/Echo.lean keep. -/

set_option linter.unusedTactic false
set_option linter.unreachableTactic false

namespace Sys2Proof.Machine

theorem modEc_kept {r₀ : State} (n : Nat) (f : Ec → Ec) (s : State) (hk₀ : Kept r₀ s) :
    Kept r₀ (modEc n f s) := by
  unfold modEc
  repeat' first
    | with_reducible assumption
    | with_reducible apply modChan_kept
    | dsimp only
    | fail_if_no_progress with_reducible refine Kept.upd ?_ (by rfl)
    | intro _

theorem takeCandidate_kept {r₀ : State} (n : Nat) (c : Candidate) (s : State) (hk₀ : Kept r₀ s) :
    Kept r₀ (takeCandidate n c s) := by
  unfold takeCandidate
  repeat' first
    | with_reducible assumption
    | with_reducible apply statBump_kept
    | with_reducible apply modEc_kept
    | split
    | dsimp only
    | fail_if_no_progress with_reducible refine Kept.upd ?_ (by rfl)
    | intro _

theorem execWindowPlacement_kept {r₀ : State} (chan : BitVec 13) (s : State) (hk₀ : Kept r₀ s) :
    KeptX r₀ (execWindowPlacement chan s) := by
  unfold execWindowPlacement
  repeat' first
    | with_reducible assumption
    | with_reducible apply KeptX.next
    | with_reducible apply takeCandidate_kept
    | (with_reducible apply Kept.foldl <;> intros)
    | (with_reducible apply Kept.foldlFst <;> intros)
    | (with_reducible apply Kept.foldlSnd <;> intros)
    | split
    | dsimp only
    | intro _

theorem execWindowRelease_kept {r₀ : State} (chan : BitVec 13) (s : State) (hk₀ : Kept r₀ s) :
    KeptX r₀ (execWindowRelease chan s) := by
  unfold execWindowRelease
  repeat' first
    | with_reducible assumption
    | with_reducible apply KeptX.next
    | with_reducible apply modEc_kept
    | split
    | dsimp only
    | fail_if_no_progress with_reducible refine Kept.upd ?_ (by rfl)
    | intro _

theorem fitWindows_kept {r₀ : State} (n : Nat) (s : State) (hk₀ : Kept r₀ s) :
    Kept r₀ (fitWindows n s) := by
  unfold fitWindows
  repeat' first
    | with_reducible assumption
    | with_reducible apply modEc_kept
    | dsimp only
    | fail_if_no_progress with_reducible refine Kept.upd ?_ (by rfl)
    | intro _

theorem ecReset_kept {r₀ : State} (n : Nat) (s : State) (hk₀ : Kept r₀ s) :
    Kept r₀ (ecReset n s) := by
  unfold ecReset
  repeat' first
    | with_reducible assumption
    | with_reducible apply modChan_kept
    | dsimp only
    | fail_if_no_progress with_reducible refine Kept.upd ?_ (by rfl)
    | intro _

theorem zeroTaps_kept {r₀ : State} (n : Nat) (s : State) (hk₀ : Kept r₀ s) :
    Kept r₀ (zeroTaps n s) := by
  unfold zeroTaps
  repeat' first
    | with_reducible assumption
    | with_reducible apply modEc_kept
    | dsimp only
    | fail_if_no_progress with_reducible refine Kept.upd ?_ (by rfl)
    | intro _

theorem storeReference_kept {r₀ : State} (n t : Nat) (xs : List Int) (s : State) (hk₀ : Kept r₀ s) :
    Kept r₀ (storeReference n t xs s) := by
  unfold storeReference
  repeat' first
    | with_reducible assumption
    | with_reducible apply modEc_kept
    | with_reducible apply recordDenial_kept
    | with_reducible apply storeBytes_kept
    | split
    | dsimp only
    | fail_if_no_progress with_reducible refine Kept.upd ?_ (by rfl)
    | intro _

theorem fetchTick_kept {r₀ : State} (n t : Nat) (s : State) (hk₀ : Kept r₀ s) :
    Kept r₀ (fetchTick n t s).2 := by
  unfold fetchTick
  repeat' first
    | with_reducible assumption
    | with_reducible apply recordDenial_kept
    | with_reducible apply transferDropped_kept
    | with_reducible apply memoryUe_kept
    | (with_reducible apply Kept.foldl <;> intros)
    | (with_reducible apply Kept.foldlFst <;> intros)
    | (with_reducible apply Kept.foldlSnd <;> intros)
    | split
    | dsimp only
    | intro _

theorem requestSlices_kept {r₀ : State} (n t : Nat) (s : State) (hk₀ : Kept r₀ s) :
    Kept r₀ (requestSlices n t s) := by
  unfold requestSlices
  repeat' first
    | with_reducible assumption
    | with_reducible apply fetchTick_kept
    | with_reducible apply modEc_kept
    | (with_reducible apply Kept.foldl <;> intros)
    | (with_reducible apply Kept.foldlFst <;> intros)
    | (with_reducible apply Kept.foldlSnd <;> intros)
    | split
    | dsimp only
    | fail_if_no_progress with_reducible refine Kept.upd ?_ (by rfl)
    | intro _

theorem showReference_kept {r₀ : State} (n t : Nat) (lost : List Nat) (s : State) (hk₀ : Kept r₀ s) :
    Kept r₀ (showReference n t lost s) := by
  unfold showReference
  repeat' first
    | with_reducible assumption
    | with_reducible apply statBump_kept
    | with_reducible apply modEc_kept
    | dsimp only
    | fail_if_no_progress with_reducible refine Kept.upd ?_ (by rfl)
    | intro _

theorem ecLevels_kept {r₀ : State} (n : Nat) (near resid : Int) (level : Option Int) (single : Bool) (s : State) (hk₀ : Kept r₀ s) :
    Kept r₀ (ecLevels n near resid level single s) := by
  unfold ecLevels
  repeat' first
    | with_reducible assumption
    | with_reducible apply statSet_kept
    | split
    | dsimp only
    | intro _

theorem noteTone_kept {r₀ : State} (n : Nat) (g : EcSignal) (s : State) (hk₀ : Kept r₀ s) :
    Kept r₀ (noteTone n g s) := by
  unfold noteTone
  repeat' first
    | with_reducible assumption
    | with_reducible apply modEc_kept
    | split
    | dsimp only
    | fail_if_no_progress with_reducible refine Kept.upd ?_ (by rfl)
    | intro _

theorem ecRun_kept {r : State} (n : Nat) (st : EcState) (g : EcSignal) (ys upper : List Int) (dt inDt far lost : Bool)
    (level : Option Int) (s : State) (h : Kept r s) :
    Kept r (ecRun n st g ys upper dt inDt far lost level s).state := by
  unfold ecRun
  repeat' first
    | with_reducible assumption
    | with_reducible apply ecLevels_kept
    | with_reducible apply modEc_kept
    | with_reducible apply statBump_kept
    | split
    | dsimp only

theorem raiseAfs_kept {r₀ : State} (lane : Nat) (flags : BitVec 3) (s : State) (hk₀ : Kept r₀ s) :
    Kept r₀ (raiseAfs lane flags s) := by
  unfold raiseAfs
  repeat' first
    | with_reducible assumption
    | with_reducible apply commitArith_kept
    | with_reducible apply putLane_kept
    | split
    | dsimp only
    | fail_if_no_progress with_reducible refine Kept.upd ?_ (by rfl)

theorem clearAfs_kept {r₀ : State} (lane : Nat) (s : State) (hk₀ : Kept r₀ s) :
    Kept r₀ (clearAfs lane s) := by
  unfold clearAfs
  repeat' first
    | with_reducible assumption
    | with_reducible apply putLane_kept
    | split
    | dsimp only
    | fail_if_no_progress with_reducible refine Kept.upd ?_ (by rfl)

theorem takeAfs_kept {r₀ : State} (lane : Nat) (s : State) (hk₀ : Kept r₀ s) :
    Kept r₀ (takeAfs lane s).2 := by
  unfold takeAfs
  repeat' first
    | with_reducible assumption
    | with_reducible apply clearAfs_kept
    | dsimp only

theorem ecNumeric_kept {r₀ : State} (n : Nat) (flags : BitVec 3) (s : State) (hk₀ : Kept r₀ s) :
    Kept r₀ (ecNumeric n flags s).1 := by
  unfold ecNumeric
  repeat' first
    | with_reducible assumption
    | with_reducible apply takeAfs_kept
    | with_reducible apply raiseAfs_kept
    | with_reducible apply raise_kept
    | with_reducible apply statBump_kept
    | with_reducible apply zeroTaps_kept
    | split
    | dsimp only

theorem ecWork_kept {r : State} (n : Nat) (g : EcSignal) (x : Sound) (s : State) (h : Kept r s) :
    Kept r (ecWork n g x s).1 := by
  unfold ecWork
  dsimp only
  refine statSet_kept _ _ _ _ (noteTone_kept _ _ _ (modEc_kept _ _ _ ?_))
  have h0 := showReference_kept n (workTick s) (lostSlices (ecAt s n) g)
    (modEc n (fun e => { e with near := smoothPower e.near (meanSquare (padSamples (ecRate s n) x.base)) }) s)
    (modEc_kept _ _ _ h)
  generalize showReference n (workTick s) (lostSlices (ecAt s n) g) _ = s0 at h0
  repeat' first
    | with_reducible assumption
    | with_reducible apply ecNumeric_kept
    | with_reducible apply ecRun_kept
    | with_reducible apply modEc_kept
    | split

theorem execDtdHangoverEnd_kept {r₀ : State} (chan : BitVec 13) (s : State) (hk₀ : Kept r₀ s) :
    KeptX r₀ (execDtdHangoverEnd chan s) := by
  unfold execDtdHangoverEnd
  repeat' first
    | with_reducible assumption
    | with_reducible apply KeptX.next
    | with_reducible apply modEc_kept
    | split
    | dsimp only
    | fail_if_no_progress with_reducible refine Kept.upd ?_ (by rfl)
    | intro _

theorem execDivergenceReset_kept {r₀ : State} (chan : BitVec 13) (s : State) (hk₀ : Kept r₀ s) :
    KeptX r₀ (execDivergenceReset chan s) := by
  unfold execDivergenceReset
  repeat' first
    | with_reducible assumption
    | with_reducible apply KeptX.next
    | with_reducible apply raise_kept
    | with_reducible apply statBump_kept
    | with_reducible apply modEc_kept
    | with_reducible apply zeroTaps_kept
    | split
    | dsimp only
    | fail_if_no_progress with_reducible refine Kept.upd ?_ (by rfl)
    | intro _

theorem execToneDisableEnter_kept {r₀ : State} (chan : BitVec 13) (s : State) (hk₀ : Kept r₀ s) :
    KeptX r₀ (execToneDisableEnter chan s) := by
  unfold execToneDisableEnter
  repeat' first
    | with_reducible assumption
    | with_reducible apply KeptX.next
    | with_reducible apply modEc_kept
    | with_reducible apply raise_kept
    | with_reducible apply statBump_kept
    | split
    | dsimp only
    | fail_if_no_progress with_reducible refine Kept.upd ?_ (by rfl)
    | intro _

theorem execToneDisableExit_kept {r₀ : State} (chan : BitVec 13) (s : State) (hk₀ : Kept r₀ s) :
    KeptX r₀ (execToneDisableExit chan s) := by
  unfold execToneDisableExit
  repeat' first
    | with_reducible assumption
    | with_reducible apply KeptX.next
    | with_reducible apply modEc_kept
    | split
    | dsimp only
    | fail_if_no_progress with_reducible refine Kept.upd ?_ (by rfl)
    | intro _

end Sys2Proof.Machine
end

