-- ==== Sys2Proof/Laws/KeptRtp.lean ====
section
/-! SUPPORT. What the operations of Machine/Rtp.lean keep. -/

set_option linter.unusedTactic false
set_option linter.unreachableTactic false

namespace Sys2Proof.Machine

theorem countRtp_kept {r₀ : State} (n l : Nat) (p : RtpIn) (s : State) (hk₀ : Kept r₀ s) :
    Kept r₀ (countRtp n l p s) := by
  unfold countRtp
  repeat' first
    | with_reducible assumption
    | with_reducible apply modLeg_kept
    | with_reducible apply statBump_kept
    | with_reducible apply statSet_kept
    | split
    | dsimp only
    | fail_if_no_progress with_reducible refine Kept.upd ?_ (by rfl)
    | intro _

theorem takeEvent_kept {r₀ : State} (n l : Nat) (s : State) (e : EvItem) (hk₀ : Kept r₀ s) :
    Kept r₀ (takeEvent n l s e) := by
  unfold takeEvent
  repeat' first
    | with_reducible assumption
    | with_reducible apply modRoom_kept
    | with_reducible apply modLeg_kept
    | with_reducible apply statBump_kept
    | split
    | dsimp only
    | fail_if_no_progress with_reducible refine Kept.upd ?_ (by rfl)
    | intro _

theorem acceptEvent_kept {r₀ : State} (n l : Nat) (e : EvItem) (s : State) (hk₀ : Kept r₀ s) :
    Kept r₀ (acceptEvent n l e s).2 := by
  unfold acceptEvent
  repeat' first
    | with_reducible assumption
    | with_reducible apply modRoom_kept
    | split
    | dsimp only
    | fail_if_no_progress with_reducible refine Kept.upd ?_ (by rfl)
    | intro _

theorem takeInputs_kept {r₀ : State} (n l t : Nat) (s : State) (hk₀ : Kept r₀ s) :
    Kept r₀ (takeInputs n l t s) := by
  unfold takeInputs
  repeat' first
    | with_reducible assumption
    | with_reducible apply modLeg_kept
    | with_reducible apply storeEvents_kept
    | with_reducible apply takeEvent_kept
    | (with_reducible apply Kept.foldl <;> intros)
    | (with_reducible apply Kept.foldlFst <;> intros)
    | (with_reducible apply Kept.foldlSnd <;> intros)
    | split
    | dsimp only
    | fail_if_no_progress with_reducible refine Kept.upd ?_ (by rfl)
    | intro _

theorem rtpEvent_kept {r₀ : State} (n l : Nat) (p : RtpIn) (s : State) (hk₀ : Kept r₀ s) :
    Kept r₀ (rtpEvent n l p s) := by
  unfold rtpEvent
  repeat' first
    | with_reducible assumption
    | with_reducible apply statBump_kept
    | with_reducible apply acceptEvent_kept
    | split
    | dsimp only
    | fail_if_no_progress with_reducible refine Kept.upd ?_ (by rfl)
    | intro _

theorem askVbd_kept {r₀ : State} (n cause : Nat) (s : State) (hk₀ : Kept r₀ s) :
    Kept r₀ (askVbd n cause s) := by
  unfold askVbd
  repeat' first
    | with_reducible assumption
    | with_reducible apply modChan_kept
    | split
    | dsimp only
    | fail_if_no_progress with_reducible refine Kept.upd ?_ (by rfl)
    | intro _

theorem giveParts_kept {r₀ : State} (n l codec : Nat) (parts : List Part) (s : State) (hk₀ : Kept r₀ s) :
    Kept r₀ (giveParts n l codec parts s) := by
  unfold giveParts
  repeat' first
    | with_reducible assumption
    | with_reducible apply modRoom_kept
    | dsimp only
    | fail_if_no_progress with_reducible refine Kept.upd ?_ (by rfl)
    | intro _

theorem rtpPayload_kept {r₀ : State} (n l : Nat) (p : RtpIn) (s : State) (hk₀ : Kept r₀ s) :
    Kept r₀ (rtpPayload n l p s) := by
  unfold rtpPayload
  repeat' first
    | with_reducible assumption
    | with_reducible apply statBump_kept
    | with_reducible apply rtpEvent_kept
    | with_reducible apply countRtp_kept
    | with_reducible apply modLeg_kept
    | with_reducible apply askVbd_kept
    | with_reducible apply giveParts_kept
    | split
    | dsimp only
    | fail_if_no_progress with_reducible refine Kept.upd ?_ (by rfl)
    | intro _

theorem setSsrc_kept {r₀ : State} (n l : Nat) (ssrc : Word) (s : State) (hk₀ : Kept r₀ s) :
    Kept r₀ (setSsrc n l ssrc s) := by
  unfold setSsrc
  repeat' first
    | with_reducible assumption
    | with_reducible apply statSet_kept
    | with_reducible apply modLeg_kept
    | dsimp only
    | fail_if_no_progress with_reducible refine Kept.upd ?_ (by rfl)
    | intro _

theorem endEvent_kept {r₀ : State} (n o dur : Nat) (s : State) (hk₀ : Kept r₀ s) :
    Kept r₀ (endEvent n o dur s) := by
  unfold endEvent
  repeat' first
    | with_reducible assumption
    | with_reducible apply modLeg_kept
    | split
    | dsimp only
    | fail_if_no_progress with_reducible refine Kept.upd ?_ (by rfl)
    | intro _

theorem cutEvent_kept {r₀ : State} (n o : Nat) (s : State) (hk₀ : Kept r₀ s) :
    Kept r₀ (cutEvent n o s) := by
  unfold cutEvent
  repeat' first
    | with_reducible assumption
    | with_reducible apply endEvent_kept
    | dsimp only
    | intro _

theorem dropEvents_kept {r₀ : State} (n l : Nat) (s : State) (hk₀ : Kept r₀ s) :
    Kept r₀ (dropEvents n l s) := by
  unfold dropEvents
  repeat' first
    | with_reducible assumption
    | with_reducible apply modLeg_kept
    | with_reducible apply cutEvent_kept
    | split
    | dsimp only
    | fail_if_no_progress with_reducible refine Kept.upd ?_ (by rfl)
    | intro _

theorem rtpPacket_kept {r₀ : State} (n l : Nat) (udp : Bytes) (s : State) (hk₀ : Kept r₀ s) :
    Kept r₀ (rtpPacket n l udp s) := by
  unfold rtpPacket
  repeat' first
    | with_reducible assumption
    | with_reducible apply statBump_kept
    | with_reducible apply modLeg_kept
    | with_reducible apply raise_kept
    | with_reducible apply rtpPayload_kept
    | with_reducible apply setSsrc_kept
    | with_reducible apply stopStream_kept
    | with_reducible apply dropEvents_kept
    | with_reducible apply modRoom_kept
    | split
    | dsimp only
    | fail_if_no_progress with_reducible refine Kept.upd ?_ (by rfl)
    | intro _

theorem sendLeg_kept {r₀ : State} (h source plus : Nat) (data : Bytes) (s : State) (hk₀ : Kept r₀ s) :
    Kept r₀ (sendLeg h source plus data s) := by
  unfold sendLeg
  repeat' first
    | with_reducible assumption
    | with_reducible apply draw_kept
    | with_reducible apply pushTx_kept
    | dsimp only
    | fail_if_no_progress with_reducible refine Kept.upd ?_ (by rfl)

theorem sendRtp_kept {r₀ : State} (n l pt : Nat) (marker : Bool) (ts : Word) (payload : Bytes) (s : State) (hk₀ : Kept r₀ s) :
    Kept r₀ (sendRtp n l pt marker ts payload s) := by
  unfold sendRtp
  repeat' first
    | with_reducible assumption
    | with_reducible apply sendLeg_kept
    | with_reducible apply modSess_kept
    | with_reducible apply statBump_kept
    | with_reducible apply statSet_kept
    | with_reducible apply modLeg_kept
    | split
    | dsimp only
    | fail_if_no_progress with_reducible refine Kept.upd ?_ (by rfl)
    | intro _

theorem sendReport_kept {r₀ : State} (n l : Nat) (s : State) (hk₀ : Kept r₀ s) :
    Kept r₀ (sendReport n l s) := by
  unfold sendReport
  repeat' first
    | with_reducible assumption
    | with_reducible apply sendLeg_kept
    | with_reducible apply modLeg_kept
    | dsimp only
    | fail_if_no_progress with_reducible refine Kept.upd ?_ (by rfl)
    | intro _

theorem execRtcpReport_kept {r₀ : State} (chan : BitVec 13) (leg : Bool) (s : State) (hk₀ : Kept r₀ s) :
    KeptX r₀ (execRtcpReport chan leg s) := by
  unfold execRtcpReport
  repeat' first
    | with_reducible assumption
    | with_reducible apply KeptX.next
    | with_reducible apply sendReport_kept
    | split
    | dsimp only
    | intro _

theorem sendBye_kept {r₀ : State} (n l : Nat) (s : State) (hk₀ : Kept r₀ s) :
    Kept r₀ (sendBye n l s) := by
  unfold sendBye
  repeat' first
    | with_reducible assumption
    | with_reducible apply sendLeg_kept
    | split
    | dsimp only

theorem rtcpTake_kept {r₀ : State} (n l : Nat) (p : Nat × Nat × Bytes) (s : State) (hk₀ : Kept r₀ s) :
    Kept r₀ (rtcpTake n l p s) := by
  unfold rtcpTake
  repeat' first
    | with_reducible assumption
    | with_reducible apply modLeg_kept
    | with_reducible apply statSet_kept
    | (with_reducible apply Kept.foldl <;> intros)
    | (with_reducible apply Kept.foldlFst <;> intros)
    | (with_reducible apply Kept.foldlSnd <;> intros)
    | split
    | dsimp only
    | fail_if_no_progress with_reducible refine Kept.upd ?_ (by rfl)
    | intro _

theorem rtcpPacket_kept {r₀ : State} (n l : Nat) (udp : Bytes) (s : State) (hk₀ : Kept r₀ s) :
    Kept r₀ (rtcpPacket n l udp s) := by
  unfold rtcpPacket
  repeat' first
    | with_reducible assumption
    | with_reducible apply statBump_kept
    | with_reducible apply rtcpTake_kept
    | (with_reducible apply Kept.foldl <;> intros)
    | (with_reducible apply Kept.foldlFst <;> intros)
    | (with_reducible apply Kept.foldlSnd <;> intros)
    | split
    | dsimp only
    | intro _

end Sys2Proof.Machine
end

