-- ==== Sys2Proof/Laws/KeptTones.lean ====
section
/-! SUPPORT. What the operations of Machine/Tones.lean keep. -/

set_option linter.unusedTactic false
set_option linter.unreachableTactic false

namespace Sys2Proof.Machine

theorem pushItem_kept {r₀ : State} (h : Nat) (i : BItem) (s : State) (hk₀ : Kept r₀ s) :
    Kept r₀ (pushItem h i s) := by
  unfold pushItem
  repeat' first
    | with_reducible assumption
    | split
    | dsimp only
    | fail_if_no_progress with_reducible refine Kept.upd ?_ (by rfl)

theorem startGen_kept {r₀ : State} (n l v : Nat) (s : State) (hk₀ : Kept r₀ s) :
    Kept r₀ (startGen n l v s) := by
  unfold startGen
  repeat' first
    | with_reducible assumption
    | with_reducible apply cutEvent_kept
    | with_reducible apply modLeg_kept
    | split
    | dsimp only
    | fail_if_no_progress with_reducible refine Kept.upd ?_ (by rfl)
    | intro _

theorem execToneGenEnd_kept {r₀ : State} (chan : BitVec 13) (leg : Bool) (s : State) (hk₀ : Kept r₀ s) :
    KeptX r₀ (execToneGenEnd chan leg s) := by
  unfold execToneGenEnd
  repeat' first
    | with_reducible assumption
    | with_reducible apply KeptX.next
    | with_reducible apply modLeg_kept
    | split
    | dsimp only
    | fail_if_no_progress with_reducible refine Kept.upd ?_ (by rfl)
    | intro _

theorem sendEvent_kept {r₀ : State} (n o dur : Nat) (marker fin : Bool) (e : EvTx) (s : State) (hk₀ : Kept r₀ s) :
    Kept r₀ (sendEvent n o dur marker fin e s) := by
  unfold sendEvent
  repeat' first
    | with_reducible assumption
    | with_reducible apply sendRtp_kept
    | with_reducible apply pushItem_kept
    | split
    | dsimp only
    | fail_if_no_progress with_reducible refine Kept.upd ?_ (by rfl)

theorem serveEnd_kept {r₀ : State} (n o : Nat) (e : EvTx) (s : State) (hk₀ : Kept r₀ s) :
    Kept r₀ (serveEnd n o e s).2 := by
  unfold serveEnd
  repeat' first
    | with_reducible assumption
    | with_reducible apply sendEvent_kept
    | split
    | dsimp only
    | fail_if_no_progress with_reducible refine Kept.upd ?_ (by rfl)

theorem serveEnds_kept {r₀ : State} (n o : Nat) (s : State) (hk₀ : Kept r₀ s) :
    Kept r₀ (serveEnds n o s) := by
  unfold serveEnds
  repeat' first
    | with_reducible assumption
    | with_reducible apply serveEnd_kept
    | with_reducible apply modLeg_kept
    | (with_reducible apply Kept.foldl <;> intros)
    | (with_reducible apply Kept.foldlFst <;> intros)
    | (with_reducible apply Kept.foldlSnd <;> intros)
    | dsimp only
    | fail_if_no_progress with_reducible refine Kept.upd ?_ (by rfl)
    | intro _

theorem retireEvent_kept {r₀ : State} (n o : Nat) (s : State) (hk₀ : Kept r₀ s) :
    Kept r₀ (retireEvent n o s) := by
  unfold retireEvent
  repeat' first
    | with_reducible assumption
    | with_reducible apply cutEvent_kept
    | with_reducible apply serveEnd_kept
    | with_reducible apply modLeg_kept
    | split
    | dsimp only
    | fail_if_no_progress with_reducible refine Kept.upd ?_ (by rfl)
    | intro _

theorem beginEvent_kept {r₀ : State} (n o code : Nat) (volume : Nat) (start : Word) (s0 : State) (hk₀ : Kept r₀ s0) :
    Kept r₀ (beginEvent n o code volume start s0) := by
  unfold beginEvent
  repeat' first
    | with_reducible assumption
    | with_reducible apply retireEvent_kept
    | with_reducible apply statBump_kept
    | with_reducible apply modLeg_kept
    | with_reducible apply sendEvent_kept
    | dsimp only
    | fail_if_no_progress with_reducible refine Kept.upd ?_ (by rfl)
    | intro _

theorem serveEvent_kept {r₀ : State} (n o : Nat) (s0 : State) (hk₀ : Kept r₀ s0) :
    Kept r₀ (serveEvent n o s0) := by
  unfold serveEvent
  repeat' first
    | with_reducible assumption
    | with_reducible apply serveEnds_kept
    | with_reducible apply modLeg_kept
    | with_reducible apply serveEnd_kept
    | with_reducible apply sendEvent_kept
    | with_reducible apply statBump_kept
    | split
    | dsimp only
    | fail_if_no_progress with_reducible refine Kept.upd ?_ (by rfl)
    | intro _

theorem releaseTone_kept {r₀ : State} (n l code : Nat) (level : Int) (pos start : Word) (s : State) (hk₀ : Kept r₀ s) :
    Kept r₀ (releaseTone n l code level pos start s) := by
  unfold releaseTone
  repeat' first
    | with_reducible assumption
    | with_reducible apply statBump_kept
    | with_reducible apply raise_kept
    | with_reducible apply beginEvent_kept
    | with_reducible apply askVbd_kept
    | split
    | dsimp only
    | intro _
    | dsimp only [id_eq]

theorem releaseEnd_kept {r₀ : State} (n l : Nat) (stop : Word) (s : State) (hk₀ : Kept r₀ s) :
    Kept r₀ (releaseEnd n l stop s) := by
  unfold releaseEnd
  repeat' first
    | with_reducible assumption
    | with_reducible apply modLeg_kept
    | with_reducible apply endEvent_kept
    | split
    | dsimp only
    | fail_if_no_progress with_reducible refine Kept.upd ?_ (by rfl)
    | intro _

theorem releaseReports_kept {r₀ : State} (n l : Nat) (s : State) (hk₀ : Kept r₀ s) :
    Kept r₀ (releaseReports n l s) := by
  unfold releaseReports
  repeat' first
    | with_reducible assumption
    | with_reducible apply modLeg_kept
    | with_reducible apply releaseEnd_kept
    | with_reducible apply releaseTone_kept
    | (with_reducible apply Kept.foldl <;> intros)
    | (with_reducible apply Kept.foldlFst <;> intros)
    | (with_reducible apply Kept.foldlSnd <;> intros)
    | split
    | dsimp only
    | fail_if_no_progress with_reducible refine Kept.upd ?_ (by rfl)
    | intro _

theorem holdReport_kept {r₀ : State} (n l code back : Nat) (level : Int) (s : State) (hk₀ : Kept r₀ s) :
    Kept r₀ (holdReport n l code back level s) := by
  unfold holdReport
  repeat' first
    | with_reducible assumption
    | with_reducible apply modLeg_kept
    | dsimp only
    | fail_if_no_progress with_reducible refine Kept.upd ?_ (by rfl)
    | intro _

theorem endTone_kept {r₀ : State} (n l back : Nat) (s : State) (hk₀ : Kept r₀ s) :
    Kept r₀ (endTone n l back s) := by
  unfold endTone
  repeat' first
    | with_reducible assumption
    | with_reducible apply modLeg_kept
    | with_reducible apply releaseEnd_kept
    | with_reducible apply holdReport_kept
    | split
    | dsimp only
    | fail_if_no_progress with_reducible refine Kept.upd ?_ (by rfl)
    | intro _

theorem beginTone_kept {r₀ : State} (n l : Nat) (t : ToneHeard) (s : State) (hk₀ : Kept r₀ s) :
    Kept r₀ (beginTone n l t s) := by
  unfold beginTone
  repeat' first
    | with_reducible assumption
    | with_reducible apply modLeg_kept
    | with_reducible apply endTone_kept
    | with_reducible apply releaseTone_kept
    | with_reducible apply holdReport_kept
    | split
    | dsimp only
    | fail_if_no_progress with_reducible refine Kept.upd ?_ (by rfl)
    | intro _

theorem detect_kept {r₀ : State} (n l : Nat) (g : LegSignal) (s : State) (hk₀ : Kept r₀ s) :
    Kept r₀ (detect n l g s) := by
  unfold detect
  repeat' first
    | with_reducible assumption
    | with_reducible apply endTone_kept
    | with_reducible apply beginTone_kept
    | with_reducible apply releaseReports_kept
    | with_reducible apply modLeg_kept
    | split
    | dsimp only
    | intro _

theorem noteMute_kept {r₀ : State} (n o : Nat) (held : Bool) (s : State) (hk₀ : Kept r₀ s) :
    Kept r₀ (noteMute n o held s) := by
  unfold noteMute
  repeat' first
    | with_reducible assumption
    | with_reducible apply modLeg_kept
    | split
    | dsimp only
    | fail_if_no_progress with_reducible refine Kept.upd ?_ (by rfl)
    | intro _

theorem execMuteLift_kept {r₀ : State} (chan : BitVec 13) (leg : Bool) (s : State) (hk₀ : Kept r₀ s) :
    KeptX r₀ (execMuteLift chan leg s) := by
  unfold execMuteLift
  repeat' first
    | with_reducible assumption
    | with_reducible apply KeptX.next
    | with_reducible apply statBump_kept
    | with_reducible apply modLeg_kept
    | split
    | dsimp only
    | fail_if_no_progress with_reducible refine Kept.upd ?_ (by rfl)
    | intro _

theorem playEvent_kept {r₀ : State} (n l : Nat) (e : EvItem) (s : State) (hk₀ : Kept r₀ s) :
    Kept r₀ (playEvent n l e s) := by
  unfold playEvent
  repeat' first
    | with_reducible assumption
    | with_reducible apply modLeg_kept
    | with_reducible apply beginEvent_kept
    | split
    | dsimp only
    | fail_if_no_progress with_reducible refine Kept.upd ?_ (by rfl)
    | intro _

theorem finishEvent_kept {r₀ : State} (n l : Nat) (x : EvItem) (s : State) (hk₀ : Kept r₀ s) :
    Kept r₀ (finishEvent n l x s) := by
  unfold finishEvent
  repeat' first
    | with_reducible assumption
    | with_reducible apply modRoom_kept
    | with_reducible apply endEvent_kept
    | with_reducible apply modLeg_kept
    | split
    | dsimp only
    | fail_if_no_progress with_reducible refine Kept.upd ?_ (by rfl)
    | intro _

theorem serveEvents_kept {r₀ : State} (n l : Nat) (s : State) (hk₀ : Kept r₀ s) :
    Kept r₀ (serveEvents n l s) := by
  unfold serveEvents
  repeat' first
    | with_reducible assumption
    | with_reducible apply modLeg_kept
    | with_reducible apply finishEvent_kept
    | with_reducible apply modRoom_kept
    | with_reducible apply playEvent_kept
    | split
    | dsimp only
    | fail_if_no_progress with_reducible refine Kept.upd ?_ (by rfl)
    | intro _

theorem execEventGenerationEnd_kept {r₀ : State} (chan : BitVec 13) (leg : Bool) (s : State) (hk₀ : Kept r₀ s) :
    KeptX r₀ (execEventGenerationEnd chan leg s) := by
  unfold execEventGenerationEnd
  repeat' first
    | with_reducible assumption
    | with_reducible apply KeptX.next
    | with_reducible apply finishEvent_kept
    | with_reducible apply modLeg_kept
    | split
    | dsimp only
    | fail_if_no_progress with_reducible refine Kept.upd ?_ (by rfl)
    | intro _

theorem switchLeg_kept {r₀ : State} (n l : Nat) (s : State) (hk₀ : Kept r₀ s) :
    Kept r₀ (switchLeg n l s) := by
  unfold switchLeg
  repeat' first
    | with_reducible assumption
    | with_reducible apply switchRoom_kept
    | with_reducible apply modLeg_kept
    | with_reducible apply cutEvent_kept
    | split
    | dsimp only
    | fail_if_no_progress with_reducible refine Kept.upd ?_ (by rfl)
    | intro _

theorem switchVbd_kept {r₀ : State} (n : Nat) (on_ : Bool) (cause : Nat) (s : State) (hk₀ : Kept r₀ s) :
    Kept r₀ (switchVbd n on_ cause s) := by
  unfold switchVbd
  repeat' first
    | with_reducible assumption
    | with_reducible apply switchLeg_kept
    | with_reducible apply modChan_kept
    | with_reducible apply statSet_kept
    | with_reducible apply statBump_kept
    | with_reducible apply raise_kept
    | split
    | dsimp only
    | fail_if_no_progress with_reducible refine Kept.upd ?_ (by rfl)
    | intro _

theorem enterVbd_kept {r₀ : State} (n : Nat) (s : State) (hk₀ : Kept r₀ s) :
    Kept r₀ (enterVbd n s) := by
  unfold enterVbd
  repeat' first
    | with_reducible assumption
    | with_reducible apply modChan_kept
    | with_reducible apply switchVbd_kept
    | split
    | dsimp only
    | fail_if_no_progress with_reducible refine Kept.upd ?_ (by rfl)
    | intro _

theorem execVbdExit_kept {r₀ : State} (chan : BitVec 13) (s : State) (hk₀ : Kept r₀ s) :
    KeptX r₀ (execVbdExit chan s) := by
  unfold execVbdExit
  repeat' first
    | with_reducible assumption
    | with_reducible apply KeptX.next
    | with_reducible apply switchVbd_kept
    | split
    | dsimp only
    | intro _

end Sys2Proof.Machine
end

