-- ==== Sys2Proof/Laws/KeptChannelWork.lean ====
section
/-! SUPPORT. What the operations of Machine/ChannelWork.lean keep. -/

set_option linter.unusedTactic false
set_option linter.unreachableTactic false

namespace Sys2Proof.Machine

theorem keepPast_kept {r₀ : State} (n l : Nat) (x : Sound) (out : Bool) (s : State) (hk₀ : Kept r₀ s) :
    Kept r₀ (keepPast n l x out s) := by
  unfold keepPast
  repeat' first
    | with_reducible assumption
    | with_reducible apply modLeg_kept
    | split
    | dsimp only
    | fail_if_no_progress with_reducible refine Kept.upd ?_ (by rfl)
    | intro _

theorem sendAudio_kept {r₀ : State} (n o ticks back : Nat) (speech : Bool) (s : State) (hk₀ : Kept r₀ s) :
    Kept r₀ (sendAudio n o ticks back speech s) := by
  unfold sendAudio
  repeat' first
    | with_reducible assumption
    | with_reducible apply modLeg_kept
    | with_reducible apply sendRtp_kept
    | dsimp only
    | fail_if_no_progress with_reducible refine Kept.upd ?_ (by rfl)
    | intro _

theorem sendTrunk_kept {r₀ : State} (n o ticks : Nat) (data : Bytes) (s : State) (hk₀ : Kept r₀ s) :
    Kept r₀ (sendTrunk n o ticks data s) := by
  unfold sendTrunk
  repeat' first
    | with_reducible assumption
    | with_reducible apply modLeg_kept
    | with_reducible apply pushItem_kept
    | split
    | dsimp only
    | fail_if_no_progress with_reducible refine Kept.upd ?_ (by rfl)
    | intro _

theorem muteBuffer_kept {r₀ : State} (n o : Nat) (begins : Bool) (s : State) (hk₀ : Kept r₀ s) :
    Kept r₀ (muteBuffer n o begins s) := by
  unfold muteBuffer
  repeat' first
    | with_reducible assumption
    | with_reducible apply modLeg_kept
    | split
    | dsimp only
    | fail_if_no_progress with_reducible refine Kept.upd ?_ (by rfl)
    | intro _

theorem countCmr_kept {r₀ : State} (n o : Nat) (sid : Bool) (s : State) (hk₀ : Kept r₀ s) :
    Kept r₀ (countCmr n o sid s) := by
  unfold countCmr
  repeat' first
    | with_reducible assumption
    | with_reducible apply statBump_kept
    | split
    | dsimp only

theorem encodeTick_kept {r₀ : State} (n o : Nat) (pcm : List Int) (bad : Bool) (s : State) (hk₀ : Kept r₀ s) :
    Kept r₀ (encodeTick n o pcm bad s) := by
  unfold encodeTick
  repeat' first
    | with_reducible assumption
    | with_reducible apply modLeg_kept
    | with_reducible apply sendTrunk_kept
    | with_reducible apply sendAudio_kept
    | split
    | dsimp only
    | fail_if_no_progress with_reducible refine Kept.upd ?_ (by rfl)
    | intro _

theorem gatherFrame_kept {r₀ : State} (n o at_ : Nat) (sid : Bool) (frame : Bytes) (s : State) (hk₀ : Kept r₀ s) :
    Kept r₀ (gatherFrame n o at_ sid frame s) := by
  unfold gatherFrame
  repeat' first
    | with_reducible assumption
    | with_reducible apply sendAudio_kept
    | with_reducible apply modLeg_kept
    | split
    | dsimp only
    | fail_if_no_progress with_reducible refine Kept.upd ?_ (by rfl)
    | intro _

theorem encodeFrame_kept {r₀ : State} (n o : Nat) (pcm : List Int) (bad : Bool) (s : State) (hk₀ : Kept r₀ s) :
    Kept r₀ (encodeFrame n o pcm bad s) := by
  unfold encodeFrame
  repeat' first
    | with_reducible assumption
    | with_reducible apply modLeg_kept
    | with_reducible apply sendAudio_kept
    | with_reducible apply countCmr_kept
    | with_reducible apply sendTrunk_kept
    | with_reducible apply gatherFrame_kept
    | split
    | dsimp only
    | fail_if_no_progress with_reducible refine Kept.upd ?_ (by rfl)
    | intro _

theorem encodePacket_kept {r₀ : State} (n o : Nat) (x : Sound) (bad : Bool) (s : State) (hk₀ : Kept r₀ s) :
    Kept r₀ (encodePacket n o x bad s) := by
  unfold encodePacket
  repeat' first
    | with_reducible assumption
    | with_reducible apply encodeTick_kept
    | with_reducible apply encodeFrame_kept
    | split
    | dsimp only

theorem writeTdm_kept {r₀ : State} (n o : Nat) (x : Sound) (s : State) (hk₀ : Kept r₀ s) :
    Kept r₀ (writeTdm n o x s) := by
  unfold writeTdm
  repeat' first
    | with_reducible assumption
    | dsimp only
    | fail_if_no_progress with_reducible refine Kept.upd ?_ (by rfl)
    | intro _

theorem codecReset_kept {r₀ : State} (n l which : Nat) (flags : BitVec 3) (s : State) (hk₀ : Kept r₀ s) :
    Kept r₀ (codecReset n l which flags s).1 := by
  unfold codecReset
  repeat' first
    | with_reducible assumption
    | with_reducible apply takeAfs_kept
    | with_reducible apply raiseAfs_kept
    | with_reducible apply statBump_kept
    | with_reducible apply modLeg_kept
    | with_reducible apply raise_kept
    | split
    | dsimp only
    | fail_if_no_progress with_reducible refine Kept.upd ?_ (by rfl)
    | intro _

theorem workDirection_kept {r₀ : State} (n l : Nat) (x : Sound) (g go : LegSignal) (s : State) (hk₀ : Kept r₀ s) :
    Kept r₀ (workDirection n l x g go s).1 := by
  unfold workDirection
  repeat' first
    | with_reducible assumption
    | with_reducible apply codecReset_kept
    | with_reducible apply noteMute_kept
    | with_reducible apply serveEvents_kept
    | with_reducible apply detect_kept
    | with_reducible apply muteBuffer_kept
    | with_reducible apply serveEvent_kept
    | with_reducible apply keepPast_kept
    | with_reducible apply writeTdm_kept
    | with_reducible apply encodePacket_kept
    | with_reducible apply modLeg_kept
    | split
    | dsimp only
    | fail_if_no_progress with_reducible refine Kept.upd ?_ (by rfl)
    | intro _

theorem serveLeg_kept {r₀ : State} (n l : Nat) (s : State) (hk₀ : Kept r₀ s) :
    Kept r₀ (serveLeg n l s) := by
  unfold serveLeg
  repeat' first
    | with_reducible assumption
    | with_reducible apply serveRoom_kept
    | with_reducible apply takeInputs_kept
    | split
    | dsimp only

theorem tickWork_kept {r₀ : State} (n : Nat) (g : Signals) (s : State) (hk₀ : Kept r₀ s) :
    Kept r₀ (tickWork n g s) := by
  unfold tickWork
  repeat' first
    | with_reducible assumption
    | with_reducible apply ecWork_kept
    | with_reducible apply modChan_kept
    | with_reducible apply serveLeg_kept
    | with_reducible apply dropAudio_kept
    | with_reducible apply workDirection_kept
    | with_reducible apply requestSlices_kept
    | with_reducible apply storeReference_kept
    | split
    | dsimp only
    | fail_if_no_progress with_reducible refine Kept.upd ?_ (by rfl)
    | intro _

theorem execChannelTickWork_kept {r₀ : State} (chan : BitVec 13) (sig : Signals) (s : State) (hk₀ : Kept r₀ s) :
    KeptX r₀ (execChannelTickWork chan sig s) := by
  unfold execChannelTickWork
  repeat' first
    | with_reducible assumption
    | with_reducible apply KeptX.next
    | with_reducible apply tickWork_kept
    | split
    | dsimp only
    | intro _

end Sys2Proof.Machine
end

