-- ==== Sys2Proof/Laws/KeptMoves.lean ====
section
/-! SUPPORT. What the operations of Machine/Moves.lean keep. -/

set_option linter.unusedTactic false
set_option linter.unreachableTactic false

namespace Sys2Proof.Machine

theorem finish_kept {r₀ : State} (seq status h eff : Nat) (s : State) (hk₀ : Kept r₀ s) :
    Kept r₀ (finish seq status h eff s) := by
  unfold finish
  repeat' first
    | with_reducible assumption
    | with_reducible apply complete_kept
    | dsimp only

theorem setEntries_kept {r₀ : State} (n : Nat) (st : EntryState) (s : State) (hk₀ : Kept r₀ s) :
    Kept r₀ (setEntries n st s) := by
  unfold setEntries
  repeat' first
    | with_reducible assumption
    | with_reducible apply modSess_kept
    | dsimp only
    | fail_if_no_progress with_reducible refine Kept.upd ?_ (by rfl)
    | intro _

theorem startMove_kept {r₀ : State} (n : Nat) (m : Move) (s : State) (hk₀ : Kept r₀ s) :
    Kept r₀ (startMove n m s) := by
  unfold startMove
  repeat' first
    | with_reducible assumption
    | with_reducible apply setEntries_kept
    | with_reducible apply modChan_kept
    | dsimp only
    | fail_if_no_progress with_reducible refine Kept.upd ?_ (by rfl)
    | intro _

theorem flagLast_kept {r₀ : State} (n : Nat) (s : State) (hk₀ : Kept r₀ s) :
    Kept r₀ (flagLast n s) := by
  unfold flagLast
  repeat' first
    | with_reducible assumption
    | with_reducible apply storeBytes_kept
    | split
    | dsimp only
    | intro _

theorem timedResult_kept {r₀ : State} (seq status eff : Nat) (s : State) (hk₀ : Kept r₀ s) :
    Kept r₀ (timedResult seq status eff s) := by
  unfold timedResult
  repeat' first
    | with_reducible assumption
    | with_reducible apply raise_kept
    | dsimp only

theorem refuseModify_kept {r₀ : State} (r : ModReq) (status : Nat) (s : State) (hk₀ : Kept r₀ s) :
    Kept r₀ (refuseModify r status s) := by
  unfold refuseModify
  repeat' first
    | with_reducible assumption
    | with_reducible apply timedResult_kept
    | with_reducible apply finish_kept
    | split
    | dsimp only

theorem forcePark_kept {r₀ : State} (n : Nat) (s : State) (hk₀ : Kept r₀ s) :
    Kept r₀ (forcePark n s) := by
  unfold forcePark
  repeat' first
    | with_reducible assumption
    | with_reducible apply modChan_kept
    | dsimp only
    | fail_if_no_progress with_reducible refine Kept.upd ?_ (by rfl)
    | intro _

theorem dropReefMove_kept {r₀ : State} (n : Nat) (s : State) (hk₀ : Kept r₀ s) :
    Kept r₀ (dropReefMove n s) := by
  unfold dropReefMove
  repeat' first
    | with_reducible assumption
    | dsimp only
    | fail_if_no_progress with_reducible refine Kept.upd ?_ (by rfl)
    | intro _

theorem actLeg_kept {r₀ : State} (n l side : Nat) (ps : List (Nat × Nat × Word)) (s : State) (hk₀ : Kept r₀ s) :
    Kept r₀ (actLeg n l side ps s) := by
  unfold actLeg
  repeat' first
    | with_reducible assumption
    | with_reducible apply startGen_kept
    | with_reducible apply pushItem_kept
    | split
    | dsimp only
    | fail_if_no_progress with_reducible refine Kept.upd ?_ (by rfl)
    | intro _

theorem modifyLeg_kept {r₀ : State} (old : State) (n l side : Nat) (ps : List (Nat × Nat × Word)) (s : State) (hk₀ : Kept r₀ s) :
    Kept r₀ (modifyLeg old n l side ps s) := by
  unfold modifyLeg
  repeat' first
    | with_reducible assumption
    | with_reducible apply cutEvent_kept
    | with_reducible apply stopStream_kept
    | with_reducible apply modLeg_kept
    | with_reducible apply actLeg_kept
    | with_reducible apply modifyRoom_kept
    | split
    | dsimp only
    | fail_if_no_progress with_reducible refine Kept.upd ?_ (by rfl)
    | intro _
    | dsimp only [id_eq]

theorem modifyEc_kept {r₀ : State} (old : State) (n side : Nat) (ps : List (Nat × Nat × Word)) (s : State) (hk₀ : Kept r₀ s) :
    Kept r₀ (modifyEc old n side ps s) := by
  unfold modifyEc
  repeat' first
    | with_reducible assumption
    | with_reducible apply ecReset_kept
    | with_reducible apply fitWindows_kept
    | with_reducible apply modEc_kept
    | split
    | dsimp only
    | fail_if_no_progress with_reducible refine Kept.upd ?_ (by rfl)
    | intro _

theorem applyModify_kept {r₀ : State} (r : ModReq) (m : Modified) (s : State) (hk₀ : Kept r₀ s) :
    Kept r₀ (applyModify r m s) := by
  unfold applyModify
  repeat' first
    | with_reducible assumption
    | with_reducible apply modSess_kept
    | with_reducible apply modChan_kept
    | with_reducible apply modifyEc_kept
    | with_reducible apply modifyLeg_kept
    | split
    | dsimp only
    | fail_if_no_progress with_reducible refine Kept.upd ?_ (by rfl)
    | intro _

theorem unsendSig_kept {r₀ : State} (n l side : Nat) (w : ModWas) (ps : List (Nat × Nat × Word)) (s : State) (hk₀ : Kept r₀ s) :
    Kept r₀ (unsendSig n l side w ps s) := by
  unfold unsendSig
  repeat' first
    | with_reducible assumption
    | split
    | dsimp only
    | fail_if_no_progress with_reducible refine Kept.upd ?_ (by rfl)
    | intro _

theorem undoModify_kept {r₀ : State} (n : Nat) (m : Move) (s : State) (hk₀ : Kept r₀ s) :
    Kept r₀ (undoModify n m s) := by
  unfold undoModify
  repeat' first
    | with_reducible assumption
    | with_reducible apply unsendSig_kept
    | with_reducible apply modSess_kept
    | with_reducible apply modChan_kept
    | with_reducible apply applyModify_kept
    | split
    | dsimp only
    | fail_if_no_progress with_reducible refine Kept.upd ?_ (by rfl)
    | intro _

theorem unmove_kept {r₀ : State} (n : Nat) (m : Move) (s : State) (hk₀ : Kept r₀ s) :
    Kept r₀ (unmove n m s) := by
  unfold unmove
  repeat' first
    | with_reducible assumption
    | with_reducible apply setEntries_kept
    | with_reducible apply modChan_kept
    | with_reducible apply dropReefMove_kept
    | with_reducible apply raise_kept
    | with_reducible apply forcePark_kept
    | split
    | dsimp only
    | fail_if_no_progress with_reducible refine Kept.upd ?_ (by rfl)
    | intro _

theorem moveBusy_kept {r₀ : State} (m : Move) (s : State) (hk₀ : Kept r₀ s) :
    Kept r₀ (moveBusy m s) := by
  unfold moveBusy
  repeat' first
    | with_reducible assumption
    | with_reducible apply finish_kept
    | with_reducible apply refuseModify_kept
    | split
    | dsimp only
    | intro _

theorem abandonMove_kept {r₀ : State} (n : Nat) (s : State) (hk₀ : Kept r₀ s) :
    Kept r₀ (abandonMove n s) := by
  unfold abandonMove
  repeat' first
    | with_reducible assumption
    | with_reducible apply moveBusy_kept
    | with_reducible apply undoModify_kept
    | with_reducible apply unmove_kept
    | split
    | dsimp only
    | intro _

theorem leaveLane_kept {r₀ : State} (lane n : Nat) (s : State) (hk₀ : Kept r₀ s) :
    Kept r₀ (leaveLane lane n s) := by
  unfold leaveLane
  repeat' first
    | with_reducible assumption
    | with_reducible apply startMove_kept
    | with_reducible apply forcePark_kept
    | split
    | dsimp only
    | fail_if_no_progress with_reducible refine Kept.upd ?_ (by rfl)
    | intro _

theorem faultMove_kept {r₀ : State} (lane : Nat) (s : State) (n : Nat) (hk₀ : Kept r₀ s) :
    Kept r₀ (faultMove lane s n) := by
  unfold faultMove
  repeat' first
    | with_reducible assumption
    | with_reducible apply abandonMove_kept
    | with_reducible apply modChan_kept
    | split
    | dsimp only
    | fail_if_no_progress with_reducible refine Kept.upd ?_ (by rfl)
    | intro _

theorem evacuate_kept {r₀ : State} (lane : Nat) (s : State) (hk₀ : Kept r₀ s) :
    Kept r₀ (evacuate lane s) := by
  unfold evacuate
  repeat' first
    | with_reducible assumption
    | with_reducible apply faultMove_kept
    | with_reducible apply leaveLane_kept
    | (with_reducible apply Kept.foldl <;> intros)
    | (with_reducible apply Kept.foldlFst <;> intros)
    | (with_reducible apply Kept.foldlSnd <;> intros)
    | split
    | dsimp only
    | intro _

theorem laneFault_kept {r₀ : State} (l cause slot pc addr : Nat) (s : State) (hk₀ : Kept r₀ s) :
    Kept r₀ (laneFault l cause slot pc addr s) := by
  unfold laneFault
  repeat' first
    | with_reducible assumption
    | with_reducible apply undoStores_kept
    | with_reducible apply putLane_kept
    | with_reducible apply abandonLane_kept
    | with_reducible apply fset_kept
    | with_reducible apply evacuate_kept
    | with_reducible apply raise_kept
    | split
    | dsimp only
    | fail_if_no_progress with_reducible refine Kept.upd ?_ (by rfl)
    | intro _

end Sys2Proof.Machine
end

