-- ==== Sys2Proof/Laws/KeptSessions.lean ====
section
/-! SUPPORT. What the operations of Machine/Sessions.lean keep. -/

set_option linter.unusedTactic false
set_option linter.unreachableTactic false

namespace Sys2Proof.Machine

theorem sessionInsert_kept {r₀ : State} (c : Cmd) (s : State) (hk₀ : Kept r₀ s) :
    KeptO r₀ (sessionInsert c s) := by
  unfold sessionInsert
  repeat' first
    | with_reducible assumption
    | with_reducible apply KeptO.some
    | with_reducible exact KeptO.none
    | with_reducible apply complete_kept
    | with_reducible apply raise_kept
    | with_reducible apply fbump_kept
    | with_reducible apply finish_kept
    | with_reducible apply draw_kept
    | split
    | dsimp only
    | fail_if_no_progress with_reducible refine Kept.upd ?_ (by rfl)
    | intro _

theorem freeEntry_kept {r₀ : State} (h : Nat) (s : State) (hk₀ : Kept r₀ s) :
    Kept r₀ (freeEntry h s) := by
  unfold freeEntry
  repeat' first
    | with_reducible assumption
    | with_reducible apply modSess_kept
    | split
    | dsimp only
    | fail_if_no_progress with_reducible refine Kept.upd ?_ (by rfl)
    | intro _

theorem finishAs_kept {r₀ : State} (data : Bytes) (seq : Nat) (s : State) (hk₀ : Kept r₀ s) :
    Kept r₀ (finishAs data seq s) := by
  unfold finishAs
  repeat' first
    | with_reducible assumption
    | with_reducible apply complete_kept
    | dsimp only

theorem sessionDelete_kept {r₀ : State} (c : Cmd) (s : State) (hk₀ : Kept r₀ s) :
    KeptO r₀ (sessionDelete c s) := by
  unfold sessionDelete
  repeat' first
    | with_reducible assumption
    | with_reducible apply KeptO.some
    | with_reducible exact KeptO.none
    | with_reducible apply complete_kept
    | with_reducible apply finish_kept
    | with_reducible apply finishAs_kept
    | with_reducible apply freeEntry_kept
    | split
    | dsimp only
    | intro _

theorem linkPair_kept {r₀ : State} (a b : Nat) (s : State) (hk₀ : Kept r₀ s) :
    Kept r₀ (linkPair a b s) := by
  unfold linkPair
  repeat' first
    | with_reducible assumption
    | with_reducible apply modSess_kept
    | split
    | dsimp only
    | fail_if_no_progress with_reducible refine Kept.upd ?_ (by rfl)
    | intro _

theorem makeChannel_kept {r₀ : State} (n lane : Nat) (m : Admit) (s : State) (hk₀ : Kept r₀ s) :
    Kept r₀ (makeChannel n lane m s) := by
  unfold makeChannel
  repeat' first
    | with_reducible assumption
    | with_reducible apply linkPair_kept
    | with_reducible apply modSess_kept
    | dsimp only
    | fail_if_no_progress with_reducible refine Kept.upd ?_ (by rfl)
    | intro _

theorem noContext_kept {r₀ : State} (seq : Nat) (m : Admit) (want : Nat) (s : State) (hk₀ : Kept r₀ s) :
    Kept r₀ (noContext seq m want s) := by
  unfold noContext
  repeat' first
    | with_reducible assumption
    | with_reducible apply finish_kept
    | with_reducible apply raise_kept
    | with_reducible apply fbump_kept
    | dsimp only

theorem addEffect_kept {r₀ : State} (e : Effect) (s : State) (hk₀ : Kept r₀ s) :
    Kept r₀ (addEffect e s) := by
  unfold addEffect
  repeat' first
    | with_reducible assumption
    | dsimp only
    | fail_if_no_progress with_reducible refine Kept.upd ?_ (by rfl)

theorem chanAdmit_kept {r₀ : State} (c : Cmd) (s : State) (hk₀ : Kept r₀ s) :
    KeptO r₀ (chanAdmit c s) := by
  unfold chanAdmit
  repeat' first
    | with_reducible assumption
    | with_reducible apply KeptO.some
    | with_reducible exact KeptO.none
    | with_reducible apply complete_kept
    | with_reducible apply finish_kept
    | with_reducible apply addEffect_kept
    | split
    | dsimp only
    | fail_if_no_progress with_reducible refine Kept.upd ?_ (by rfl)
    | intro _

theorem startLeg_kept {r₀ : State} (n l : Nat) (s : State) (hk₀ : Kept r₀ s) :
    Kept r₀ (startLeg n l s) := by
  unfold startLeg
  repeat' first
    | with_reducible assumption
    | with_reducible apply modChan_kept
    | with_reducible apply modSess_kept
    | with_reducible apply statSet_kept
    | with_reducible apply draw_kept
    | split
    | dsimp only
    | fail_if_no_progress with_reducible refine Kept.upd ?_ (by rfl)
    | intro _

theorem activate_kept {r₀ : State} (n seq : Nat) (s : State) (hk₀ : Kept r₀ s) :
    Kept r₀ (activate n seq s) := by
  unfold activate
  repeat' first
    | with_reducible assumption
    | with_reducible apply setEntries_kept
    | with_reducible apply modChan_kept
    | with_reducible apply startLeg_kept
    | with_reducible apply draw_kept
    | with_reducible apply finish_kept
    | dsimp only
    | fail_if_no_progress with_reducible refine Kept.upd ?_ (by rfl)
    | intro _

theorem withNextClocks_kept {r₀ : State} (s : State) (hk₀ : Kept r₀ s) :
    Kept r₀ (withNextClocks s) := by
  unfold withNextClocks
  repeat' first
    | with_reducible assumption
    | with_reducible apply fset_kept
    | (with_reducible apply Kept.foldl <;> intros)
    | (with_reducible apply Kept.foldlFst <;> intros)
    | (with_reducible apply Kept.foldlSnd <;> intros)
    | split
    | dsimp only
    | fail_if_no_progress with_reducible refine Kept.upd ?_ (by rfl)
    | intro _

theorem boundaryAdmit_kept {r₀ : State} (r : AdmitReq) (s : State) (hk₀ : Kept r₀ s) :
    Kept r₀ (boundaryAdmit r s) := by
  unfold boundaryAdmit
  repeat' first
    | with_reducible assumption
    | with_reducible apply finish_kept
    | with_reducible apply noContext_kept
    | with_reducible apply withNextClocks_kept
    | with_reducible apply actLeg_kept
    | with_reducible apply activate_kept
    | with_reducible apply makeChannel_kept
    | split
    | dsimp only
    | intro _

theorem effectModify_kept {r₀ : State} (r : ModReq) (m : Modified) (s : State) (hk₀ : Kept r₀ s) :
    Kept r₀ (effectModify r m s) := by
  unfold effectModify
  repeat' first
    | with_reducible assumption
    | with_reducible apply applyModify_kept
    | with_reducible apply timedResult_kept
    | with_reducible apply finish_kept
    | split
    | dsimp only

theorem placeModify_kept {r₀ : State} (r : ModReq) (m : Modified) (s : State) (hk₀ : Kept r₀ s) :
    Kept r₀ (placeModify r m s) := by
  unfold placeModify
  repeat' first
    | with_reducible assumption
    | with_reducible apply effectModify_kept
    | with_reducible apply withNextClocks_kept
    | with_reducible apply refuseModify_kept
    | with_reducible apply startMove_kept
    | split
    | dsimp only
    | fail_if_no_progress with_reducible refine Kept.upd ?_ (by rfl)
    | intro _

theorem boundaryModify_kept {r₀ : State} (r : ModReq) (s : State) (hk₀ : Kept r₀ s) :
    Kept r₀ (boundaryModify r s) := by
  unfold boundaryModify
  repeat' first
    | with_reducible assumption
    | with_reducible apply refuseModify_kept
    | with_reducible apply placeModify_kept
    | split
    | dsimp only
    | intro _

theorem armCommand_kept {r₀ : State} (c : Cmd) (h : Option Nat) (data : Bytes) (s : State) (hk₀ : Kept r₀ s) :
    KeptO r₀ (armCommand c h data s) := by
  unfold armCommand
  repeat' first
    | with_reducible assumption
    | with_reducible apply KeptO.some
    | with_reducible exact KeptO.none
    | with_reducible apply complete_kept
    | split
    | dsimp only
    | fail_if_no_progress with_reducible refine Kept.upd ?_ (by rfl)
    | intro _

theorem chanModify_kept {r₀ : State} (c : Cmd) (s : State) (hk₀ : Kept r₀ s) :
    KeptO r₀ (chanModify c s) := by
  unfold chanModify
  repeat' first
    | with_reducible assumption
    | with_reducible apply KeptO.some
    | with_reducible exact KeptO.none
    | with_reducible apply complete_kept
    | with_reducible apply armCommand_kept
    | with_reducible apply finish_kept
    | with_reducible apply addEffect_kept
    | split
    | dsimp only
    | intro _

theorem chanPark_kept {r₀ : State} (c : Cmd) (s : State) (hk₀ : Kept r₀ s) :
    KeptO r₀ (chanPark c s) := by
  unfold chanPark
  repeat' first
    | with_reducible assumption
    | with_reducible apply KeptO.some
    | with_reducible exact KeptO.none
    | with_reducible apply complete_kept
    | with_reducible apply finish_kept
    | with_reducible apply addEffect_kept
    | with_reducible apply flagLast_kept
    | with_reducible apply modChan_kept
    | split
    | dsimp only
    | fail_if_no_progress with_reducible refine Kept.upd ?_ (by rfl)
    | intro _

theorem chanMigrate_kept {r₀ : State} (c : Cmd) (s : State) (hk₀ : Kept r₀ s) :
    KeptO r₀ (chanMigrate c s) := by
  unfold chanMigrate
  repeat' first
    | with_reducible assumption
    | with_reducible apply KeptO.some
    | with_reducible exact KeptO.none
    | with_reducible apply complete_kept
    | with_reducible apply finish_kept
    | with_reducible apply startMove_kept
    | split
    | dsimp only
    | fail_if_no_progress with_reducible refine Kept.upd ?_ (by rfl)
    | intro _

theorem chanQuery_kept {r₀ : State} (c : Cmd) (s : State) (hk₀ : Kept r₀ s) :
    KeptO r₀ (chanQuery c s) := by
  unfold chanQuery
  repeat' first
    | with_reducible assumption
    | with_reducible apply KeptO.some
    | with_reducible exact KeptO.none
    | with_reducible apply complete_kept
    | with_reducible apply finish_kept
    | split
    | dsimp only
    | intro _

theorem chanClose_kept {r₀ : State} (c : Cmd) (s : State) (hk₀ : Kept r₀ s) :
    KeptO r₀ (chanClose c s) := by
  unfold chanClose
  repeat' first
    | with_reducible assumption
    | with_reducible apply KeptO.some
    | with_reducible exact KeptO.none
    | with_reducible apply complete_kept
    | with_reducible apply addEffect_kept
    | with_reducible apply flagLast_kept
    | with_reducible apply modChan_kept
    | with_reducible apply freeEntry_kept
    | with_reducible apply finishAs_kept
    | split
    | dsimp only
    | fail_if_no_progress with_reducible refine Kept.upd ?_ (by rfl)
    | intro _

theorem keepLeg_kept {r₀ : State} (n l : Nat) (s : State) (hk₀ : Kept r₀ s) :
    Kept r₀ (keepLeg n l s) := by
  unfold keepLeg
  repeat' first
    | with_reducible assumption
    | with_reducible apply modSess_kept
    | dsimp only
    | fail_if_no_progress with_reducible refine Kept.upd ?_ (by rfl)
    | intro _

theorem parkNow_kept {r₀ : State} (n : Nat) (s : State) (hk₀ : Kept r₀ s) :
    Kept r₀ (parkNow n s) := by
  unfold parkNow
  repeat' first
    | with_reducible assumption
    | with_reducible apply undoModify_kept
    | with_reducible apply unmove_kept
    | with_reducible apply sendBye_kept
    | with_reducible apply keepLeg_kept
    | with_reducible apply raise_kept
    | with_reducible apply moveBusy_kept
    | with_reducible apply freeEntry_kept
    | with_reducible apply finishAs_kept
    | split
    | dsimp only
    | fail_if_no_progress with_reducible refine Kept.upd ?_ (by rfl)
    | intro _

theorem stepMove_kept {r₀ : State} (n : Nat) (s : State) (hk₀ : Kept r₀ s) :
    Kept r₀ (stepMove n s) := by
  unfold stepMove
  repeat' first
    | with_reducible assumption
    | with_reducible apply modChan_kept
    | with_reducible apply applyModify_kept
    | with_reducible apply abandonMove_kept
    | with_reducible apply setEntries_kept
    | with_reducible apply dropReefMove_kept
    | with_reducible apply finish_kept
    | with_reducible apply timedResult_kept
    | split
    | dsimp only
    | fail_if_no_progress with_reducible refine Kept.upd ?_ (by rfl)
    | intro _

theorem execMigrateAbandoned_kept {r₀ : State} (chan : BitVec 13) (s : State) (hk₀ : Kept r₀ s) :
    KeptX r₀ (execMigrateAbandoned chan s) := by
  unfold execMigrateAbandoned
  repeat' first
    | with_reducible assumption
    | with_reducible apply KeptX.next
    | with_reducible apply abandonMove_kept
    | split
    | dsimp only
    | intro _

theorem statsRead_kept {r₀ : State} (c : Cmd) (s : State) (hk₀ : Kept r₀ s) :
    KeptO r₀ (statsRead c s) := by
  unfold statsRead
  repeat' first
    | with_reducible assumption
    | with_reducible apply KeptO.some
    | with_reducible exact KeptO.none
    | with_reducible apply complete_kept
    | split
    | dsimp only
    | fail_if_no_progress with_reducible refine Kept.upd ?_ (by rfl)
    | intro _

theorem answerRead_kept {r₀ : State} (r : Nat × Nat × Nat × Nat) (s : State) (hk₀ : Kept r₀ s) :
    Kept r₀ (answerRead r s) := by
  unfold answerRead
  repeat' first
    | with_reducible assumption
    | with_reducible apply complete_kept
    | split
    | dsimp only
    | intro _

theorem execSessionInsert_kept {r₀ : State} (s : State) (hk₀ : Kept r₀ s) :
    KeptX r₀ (execSessionInsert s) := by
  unfold execSessionInsert
  repeat' first
    | with_reducible assumption
    | with_reducible apply KeptX.next
    | with_reducible apply runCmd_kept
    | with_reducible apply sessionInsert_kept
    | dsimp only
    | intro _

theorem execSessionDelete_kept {r₀ : State} (s : State) (hk₀ : Kept r₀ s) :
    KeptX r₀ (execSessionDelete s) := by
  unfold execSessionDelete
  repeat' first
    | with_reducible assumption
    | with_reducible apply KeptX.next
    | with_reducible apply runCmd_kept
    | with_reducible apply sessionDelete_kept
    | dsimp only
    | intro _

theorem execChanAdmit_kept {r₀ : State} (s : State) (hk₀ : Kept r₀ s) :
    KeptX r₀ (execChanAdmit s) := by
  unfold execChanAdmit
  repeat' first
    | with_reducible assumption
    | with_reducible apply KeptX.next
    | with_reducible apply runCmd_kept
    | with_reducible apply chanAdmit_kept
    | dsimp only
    | intro _

theorem execChanModify_kept {r₀ : State} (s : State) (hk₀ : Kept r₀ s) :
    KeptX r₀ (execChanModify s) := by
  unfold execChanModify
  repeat' first
    | with_reducible assumption
    | with_reducible apply KeptX.next
    | with_reducible apply runCmd_kept
    | with_reducible apply chanModify_kept
    | dsimp only
    | intro _

theorem execChanPark_kept {r₀ : State} (s : State) (hk₀ : Kept r₀ s) :
    KeptX r₀ (execChanPark s) := by
  unfold execChanPark
  repeat' first
    | with_reducible assumption
    | with_reducible apply KeptX.next
    | with_reducible apply runCmd_kept
    | with_reducible apply chanPark_kept
    | dsimp only
    | intro _

theorem execChanMigrate_kept {r₀ : State} (s : State) (hk₀ : Kept r₀ s) :
    KeptX r₀ (execChanMigrate s) := by
  unfold execChanMigrate
  repeat' first
    | with_reducible assumption
    | with_reducible apply KeptX.next
    | with_reducible apply runCmd_kept
    | with_reducible apply chanMigrate_kept
    | dsimp only
    | intro _

theorem execChanQuery_kept {r₀ : State} (s : State) (hk₀ : Kept r₀ s) :
    KeptX r₀ (execChanQuery s) := by
  unfold execChanQuery
  repeat' first
    | with_reducible assumption
    | with_reducible apply KeptX.next
    | with_reducible apply runCmd_kept
    | with_reducible apply chanQuery_kept
    | dsimp only
    | intro _

theorem execChanClose_kept {r₀ : State} (s : State) (hk₀ : Kept r₀ s) :
    KeptX r₀ (execChanClose s) := by
  unfold execChanClose
  repeat' first
    | with_reducible assumption
    | with_reducible apply KeptX.next
    | with_reducible apply runCmd_kept
    | with_reducible apply chanClose_kept
    | dsimp only
    | intro _

theorem execStatsRead_kept {r₀ : State} (s : State) (hk₀ : Kept r₀ s) :
    KeptX r₀ (execStatsRead s) := by
  unfold execStatsRead
  repeat' first
    | with_reducible assumption
    | with_reducible apply KeptX.next
    | with_reducible apply runCmd_kept
    | with_reducible apply statsRead_kept
    | dsimp only
    | intro _

end Sys2Proof.Machine
end

