-- ==== Sys2Proof/Laws/KeptIslands.lean ====
section
/-! SUPPORT. What the operations of Machine/Islands.lean keep. -/

set_option linter.unusedTactic false
set_option linter.unreachableTactic false

namespace Sys2Proof.Machine

theorem clockRunning_kept {r₀ : State} (i : Nat) (s : State) (hk₀ : Kept r₀ s) :
    Kept r₀ (clockRunning i s) := by
  unfold clockRunning
  repeat' first
    | with_reducible assumption
    | with_reducible apply fset_kept
    | dsimp only

theorem requestClock_kept {r₀ : State} (i freq : Nat) (planner : Bool) (s : State) (hk₀ : Kept r₀ s) :
    Kept r₀ (requestClock i freq planner s) := by
  unfold requestClock
  repeat' first
    | with_reducible assumption
    | with_reducible apply fset_kept
    | split
    | dsimp only
    | fail_if_no_progress with_reducible refine Kept.upd ?_ (by rfl)

theorem execSynthLock_kept {r₀ : State} (island : Fin 15) (s : State) (hk₀ : Kept r₀ s) :
    KeptX r₀ (execSynthLock island s) := by
  unfold execSynthLock
  repeat' first
    | with_reducible assumption
    | with_reducible apply KeptX.next
    | with_reducible apply fset_kept
    | split
    | dsimp only
    | intro _

theorem relieveChannel_kept {r₀ : State} (lane n : Nat) (s : State) (hk₀ : Kept r₀ s) :
    Kept r₀ (relieveChannel lane n s) := by
  unfold relieveChannel
  repeat' first
    | with_reducible assumption
    | with_reducible apply startMove_kept
    | with_reducible apply parkNow_kept
    | with_reducible apply forcePark_kept
    | split
    | dsimp only
    | fail_if_no_progress with_reducible refine Kept.upd ?_ (by rfl)
    | intro _

theorem relieveLane_kept {r₀ : State} (lane : Nat) (s : State) (hk₀ : Kept r₀ s) :
    Kept r₀ (relieveLane lane s) := by
  unfold relieveLane
  repeat' first
    | with_reducible assumption
    | with_reducible apply raise_kept
    | with_reducible apply relieveChannel_kept
    | (with_reducible apply Kept.foldl <;> intros)
    | (with_reducible apply Kept.foldlFst <;> intros)
    | (with_reducible apply Kept.foldlSnd <;> intros)
    | split
    | dsimp only
    | intro _

theorem switchClock_kept {r₀ : State} (i freq : Nat) (s : State) (hk₀ : Kept r₀ s) :
    Kept r₀ (switchClock i freq s) := by
  unfold switchClock
  repeat' first
    | with_reducible assumption
    | with_reducible apply fset_kept
    | with_reducible apply clockRunning_kept
    | with_reducible apply raise_kept
    | with_reducible apply fbump_kept
    | with_reducible apply relieveLane_kept
    | (with_reducible apply Kept.foldl <;> intros)
    | (with_reducible apply Kept.foldlFst <;> intros)
    | (with_reducible apply Kept.foldlSnd <;> intros)
    | split
    | dsimp only
    | intro _

theorem execIslClkSwitch_kept {r₀ : State} (island : Fin 15) (s : State) (hk₀ : Kept r₀ s) :
    KeptX r₀ (execIslClkSwitch island s) := by
  unfold execIslClkSwitch
  repeat' first
    | with_reducible assumption
    | with_reducible apply KeptX.next
    | with_reducible apply switchClock_kept
    | split
    | dsimp only
    | intro _

theorem execIslClkLockFail_kept {r₀ : State} (island : Fin 15) (s : State) (hk₀ : Kept r₀ s) :
    KeptX r₀ (execIslClkLockFail island s) := by
  unfold execIslClkLockFail
  repeat' first
    | with_reducible assumption
    | with_reducible apply KeptX.next
    | with_reducible apply raise_kept
    | with_reducible apply fbump_kept
    | with_reducible apply clockRunning_kept
    | split
    | dsimp only
    | intro _

end Sys2Proof.Machine
end

