-- ==== Sys2Proof/Laws/KeptBundles.lean ====
section
/-! SUPPORT. What the operations of Machine/Bundles.lean keep. -/

set_option linter.unusedTactic false
set_option linter.unreachableTactic false

namespace Sys2Proof.Machine

theorem putPeer_kept {r₀ : State} (k : Nat) (p : Peer) (s : State) (hk₀ : Kept r₀ s) :
    Kept r₀ (putPeer k p s) := by
  unfold putPeer
  repeat' first
    | with_reducible assumption
    | dsimp only
    | fail_if_no_progress with_reducible refine Kept.upd ?_ (by rfl)

theorem modPeer_kept {r₀ : State} (k : Nat) (f : Peer → Peer) (s : State) (hk₀ : Kept r₀ s) :
    Kept r₀ (modPeer k f s) := by
  unfold modPeer
  repeat' first
    | with_reducible assumption
    | with_reducible apply putPeer_kept
    | dsimp only

theorem loseEntry_kept {r₀ : State} (h master : Nat) (s : State) (hk₀ : Kept r₀ s) :
    Kept r₀ (loseEntry h master s) := by
  unfold loseEntry
  repeat' first
    | with_reducible assumption
    | with_reducible apply cellarUe_kept
    | with_reducible apply flagLast_kept
    | with_reducible apply modChan_kept
    | with_reducible apply freeEntry_kept
    | split
    | dsimp only
    | fail_if_no_progress with_reducible refine Kept.upd ?_ (by rfl)
    | intro _

theorem lookup_kept {r₀ : State} (k : Bytes) (master : Nat) (s : State) (hk₀ : Kept r₀ s) :
    Kept r₀ (lookup k master s).2 := by
  unfold lookup
  repeat' first
    | with_reducible assumption
    | with_reducible apply loseEntry_kept
    | split
    | dsimp only
    | intro _

theorem parkedDrop_kept {r₀ : State} (h : Nat) (s : State) (hk₀ : Kept r₀ s) :
    Kept r₀ (parkedDrop h s) := by
  unfold parkedDrop
  repeat' first
    | with_reducible assumption
    | with_reducible apply modSess_kept
    | with_reducible apply raise_kept
    | split
    | dsimp only
    | fail_if_no_progress with_reducible refine Kept.upd ?_ (by rfl)
    | intro _

theorem reanchor_kept {r₀ : State} (k : Nat) (s : State) (hk₀ : Kept r₀ s) :
    Kept r₀ (reanchor k s) := by
  unfold reanchor
  repeat' first
    | with_reducible assumption
    | split
    | dsimp only
    | fail_if_no_progress with_reducible refine Kept.upd ?_ (by rfl)
    | intro _

theorem unsync_kept {r₀ : State} (k cause : Nat) (s : State) (hk₀ : Kept r₀ s) :
    Kept r₀ (unsync k cause s) := by
  unfold unsync
  repeat' first
    | with_reducible assumption
    | with_reducible apply putPeer_kept
    | with_reducible apply raise_kept
    | split
    | dsimp only
    | fail_if_no_progress with_reducible refine Kept.upd ?_ (by rfl)

theorem badBundle_kept {r₀ : State} (k cause : Nat) (seq : Word) (s : State) (hk₀ : Kept r₀ s) :
    Kept r₀ (badBundle k cause seq s) := by
  unfold badBundle
  repeat' first
    | with_reducible assumption
    | with_reducible apply raise_kept
    | with_reducible apply fbump_kept
    | dsimp only

theorem dicWord_kept {r₀ : State} (k dir : Nat) (dic : Option (BitVec 12 × Bool)) (s : State) (hk₀ : Kept r₀ s) :
    Kept r₀ (dicWord k dir dic s) := by
  unfold dicWord
  repeat' first
    | with_reducible assumption
    | with_reducible apply corrected_kept
    | with_reducible apply fbump_kept
    | with_reducible apply transferDropped_kept
    | with_reducible apply ueMet_kept
    | with_reducible apply raise_kept
    | with_reducible apply modPeer_kept
    | with_reducible apply unsync_kept
    | split
    | dsimp only
    | fail_if_no_progress with_reducible refine Kept.upd ?_ (by rfl)
    | intro _

theorem sendBundle_kept {r₀ : State} (k : Nat) (b : Bytes) (s : State) (hk₀ : Kept r₀ s) :
    Kept r₀ (sendBundle k b s) := by
  unfold sendBundle
  repeat' first
    | with_reducible assumption
    | with_reducible apply draw_kept
    | with_reducible apply pushTx_kept
    | split
    | dsimp only
    | fail_if_no_progress with_reducible refine Kept.upd ?_ (by rfl)

theorem trunkStat_kept {r₀ : State} (k chan id n : Nat) (s : State) (hk₀ : Kept r₀ s) :
    Kept r₀ (trunkStat k chan id n s) := by
  unfold trunkStat
  repeat' first
    | with_reducible assumption
    | with_reducible apply statBump_kept
    | split
    | dsimp only
    | intro _
    | dsimp only [id_eq]

theorem itemSent_kept {r₀ : State} (k : Nat) (seq : Word) (i : BItem) (s : State) (hk₀ : Kept r₀ s) :
    Kept r₀ (itemSent k seq i s) := by
  unfold itemSent
  repeat' first
    | with_reducible assumption
    | with_reducible apply trunkStat_kept
    | with_reducible apply modLeg_kept
    | split
    | dsimp only
    | fail_if_no_progress with_reducible refine Kept.upd ?_ (by rfl)
    | intro _

theorem bundleOut_kept {r₀ : State} (k : Nat) (b : Sent) (s : State) (hk₀ : Kept r₀ s) :
    Kept r₀ (bundleOut k b s) := by
  unfold bundleOut
  repeat' first
    | with_reducible assumption
    | with_reducible apply raise_kept
    | with_reducible apply fbump_kept
    | with_reducible apply reanchor_kept
    | with_reducible apply itemSent_kept
    | with_reducible apply sendBundle_kept
    | (with_reducible apply Kept.foldl <;> intros)
    | (with_reducible apply Kept.foldlFst <;> intros)
    | (with_reducible apply Kept.foldlSnd <;> intros)
    | split
    | dsimp only
    | intro _

theorem closeInterval_kept {r₀ : State} (k t : Nat) (s : State) (hk₀ : Kept r₀ s) :
    Kept r₀ (closeInterval k t s) := by
  unfold closeInterval
  repeat' first
    | with_reducible assumption
    | with_reducible apply trunkStat_kept
    | with_reducible apply bundleOut_kept
    | with_reducible apply putPeer_kept
    | with_reducible apply raise_kept
    | with_reducible apply fbump_kept
    | (with_reducible apply Kept.foldl <;> intros)
    | (with_reducible apply Kept.foldlFst <;> intros)
    | (with_reducible apply Kept.foldlSnd <;> intros)
    | split
    | dsimp only
    | fail_if_no_progress with_reducible refine Kept.upd ?_ (by rfl)
    | intro _

theorem execIntervalClose_kept {r₀ : State} (peer : Fin 64) (dic : Option (BitVec 12 × Bool)) (s : State) (hk₀ : Kept r₀ s) :
    KeptX r₀ (execIntervalClose peer dic s) := by
  unfold execIntervalClose
  repeat' first
    | with_reducible assumption
    | with_reducible apply KeptX.next
    | with_reducible apply closeInterval_kept
    | with_reducible apply dicWord_kept
    | split
    | dsimp only
    | intro _

theorem ackOnly_kept {r₀ : State} (k : Nat) (s : State) (hk₀ : Kept r₀ s) :
    Kept r₀ (ackOnly k s) := by
  unfold ackOnly
  repeat' first
    | with_reducible assumption
    | with_reducible apply sendBundle_kept
    | with_reducible apply putPeer_kept
    | split
    | dsimp only
    | fail_if_no_progress with_reducible refine Kept.upd ?_ (by rfl)

theorem frameItem_kept {r₀ : State} (k n l : Nat) (i : BItem) (s : State) (hk₀ : Kept r₀ s) :
    Kept r₀ (frameItem k n l i s) := by
  unfold frameItem
  repeat' first
    | with_reducible assumption
    | with_reducible apply modLeg_kept
    | with_reducible apply askVbd_kept
    | with_reducible apply statBump_kept
    | with_reducible apply raise_kept
    | with_reducible apply giveParts_kept
    | split
    | dsimp only
    | fail_if_no_progress with_reducible refine Kept.upd ?_ (by rfl)
    | intro _

theorem itemIn_kept {r₀ : State} (k : Nat) (i : BItem) (s : State) (hk₀ : Kept r₀ s) :
    Kept r₀ (itemIn k i s) := by
  unfold itemIn
  repeat' first
    | with_reducible assumption
    | with_reducible apply fbump_kept
    | with_reducible apply lookup_kept
    | with_reducible apply parkedDrop_kept
    | with_reducible apply frameItem_kept
    | with_reducible apply acceptEvent_kept
    | with_reducible apply statBump_kept
    | with_reducible apply raise_kept
    | with_reducible apply statSet_kept
    | split
    | dsimp only
    | fail_if_no_progress with_reducible refine Kept.upd ?_ (by rfl)
    | intro _

theorem protocolError_kept {r₀ : State} (k cause : Nat) (b : Bytes) (p : Peer) (s : State) (hk₀ : Kept r₀ s) :
    Kept r₀ (protocolError k cause b p s) := by
  unfold protocolError
  repeat' first
    | with_reducible assumption
    | with_reducible apply unsync_kept
    | with_reducible apply badBundle_kept
    | with_reducible apply putPeer_kept
    | dsimp only
    | fail_if_no_progress with_reducible refine Kept.upd ?_ (by rfl)

theorem epochOpened_kept {r₀ : State} (k : Nat) (old new : Peer) (s : State) (hk₀ : Kept r₀ s) :
    Kept r₀ (epochOpened k old new s) := by
  unfold epochOpened
  repeat' first
    | with_reducible assumption
    | with_reducible apply fbump_kept
    | split
    | dsimp only

theorem deliverBundle_kept {r₀ : State} (k : Nat) (b : Bytes) (s : State) (hk₀ : Kept r₀ s) :
    Kept r₀ (deliverBundle k b s) := by
  unfold deliverBundle
  repeat' first
    | with_reducible assumption
    | with_reducible apply protocolError_kept
    | with_reducible apply epochOpened_kept
    | with_reducible apply fbump_kept
    | with_reducible apply putPeer_kept
    | with_reducible apply itemIn_kept
    | (with_reducible apply Kept.foldl <;> intros)
    | (with_reducible apply Kept.foldlFst <;> intros)
    | (with_reducible apply Kept.foldlSnd <;> intros)
    | split
    | dsimp only
    | fail_if_no_progress with_reducible refine Kept.upd ?_ (by rfl)
    | intro _

theorem declareLost_kept {r₀ : State} (k : Nat) (first : Word) (n : Nat) (s : State) (hk₀ : Kept r₀ s) :
    Kept r₀ (declareLost k first n s) := by
  unfold declareLost
  repeat' first
    | with_reducible assumption
    | with_reducible apply modPeer_kept
    | with_reducible apply raise_kept
    | with_reducible apply fbump_kept
    | (with_reducible apply Kept.foldl <;> intros)
    | (with_reducible apply Kept.foldlFst <;> intros)
    | (with_reducible apply Kept.foldlSnd <;> intros)
    | split
    | dsimp only
    | fail_if_no_progress with_reducible refine Kept.upd ?_ (by rfl)
    | intro _

theorem deliverHeld_kept {r₀ : State} (fuel : Nat) (k : Nat) (s : State) (hk₀ : Kept r₀ s) :
    Kept r₀ (deliverHeld fuel k s) := by
  induction fuel generalizing k s with
  | zero => exact hk₀
  | succ fuel ih =>
    unfold deliverHeld
    repeat' first
      | with_reducible assumption
      | with_reducible apply ih
      | with_reducible apply deliverBundle_kept
      | with_reducible apply putPeer_kept
      | split
      | dsimp only
      | fail_if_no_progress with_reducible refine Kept.upd ?_ (by rfl)

theorem decideUpTo_kept {r₀ : State} (fuel : Nat) (k : Nat) (last : Word) (s : State) (hk₀ : Kept r₀ s) :
    Kept r₀ (decideUpTo fuel k last s) := by
  induction fuel generalizing k last s with
  | zero => exact hk₀
  | succ fuel ih =>
    unfold decideUpTo
    repeat' first
      | with_reducible assumption
      | with_reducible apply ih
      | with_reducible apply deliverHeld_kept
      | with_reducible apply declareLost_kept
      | (with_reducible apply Kept.foldl <;> intros)
      | split
      | dsimp only

theorem restartBundle_kept {r₀ : State} (k : Nat) (b : Bytes) (s : State) (hk₀ : Kept r₀ s) :
    Kept r₀ (restartBundle k b s) := by
  unfold restartBundle
  repeat' first
    | with_reducible assumption
    | with_reducible apply fbump_kept
    | with_reducible apply putPeer_kept
    | with_reducible apply deliverBundle_kept
    | split
    | dsimp only
    | fail_if_no_progress with_reducible refine Kept.upd ?_ (by rfl)

theorem dataBundle_kept {r₀ : State} (k : Nat) (b : Bytes) (s : State) (hk₀ : Kept r₀ s) :
    Kept r₀ (dataBundle k b s) := by
  unfold dataBundle
  repeat' first
    | with_reducible assumption
    | with_reducible apply restartBundle_kept
    | with_reducible apply putPeer_kept
    | with_reducible apply fbump_kept
    | with_reducible apply unsync_kept
    | with_reducible apply modPeer_kept
    | with_reducible apply deliverHeld_kept
    | with_reducible apply deliverBundle_kept
    | with_reducible apply decideUpTo_kept
    | split
    | dsimp only
    | fail_if_no_progress with_reducible refine Kept.upd ?_ (by rfl)
    | intro _

theorem learnAnchors_kept {r₀ : State} (k : Nat) (d map : Word) (s : State) (hk₀ : Kept r₀ s) :
    Kept r₀ (learnAnchors k d map s) := by
  unfold learnAnchors
  repeat' first
    | with_reducible assumption
    | split
    | dsimp only
    | fail_if_no_progress with_reducible refine Kept.upd ?_ (by rfl)
    | intro _

theorem noteAcks_kept {r₀ : State} (k : Nat) (b : Bytes) (s : State) (hk₀ : Kept r₀ s) :
    Kept r₀ (noteAcks k b s) := by
  unfold noteAcks
  repeat' first
    | with_reducible assumption
    | split
    | dsimp only
    | fail_if_no_progress with_reducible refine Kept.upd ?_ (by rfl)

theorem takeFields_kept {r₀ : State} (k : Nat) (b : Bytes) (s : State) (hk₀ : Kept r₀ s) :
    Kept r₀ (takeFields k b s) := by
  unfold takeFields
  repeat' first
    | with_reducible assumption
    | with_reducible apply noteAcks_kept
    | with_reducible apply modPeer_kept
    | with_reducible apply learnAnchors_kept
    | split
    | dsimp only
    | fail_if_no_progress with_reducible refine Kept.upd ?_ (by rfl)
    | intro _

theorem receiveBundle_kept {r₀ : State} (k : Nat) (b : Bytes) (s : State) (hk₀ : Kept r₀ s) :
    Kept r₀ (receiveBundle k b s) := by
  unfold receiveBundle
  repeat' first
    | with_reducible assumption
    | with_reducible apply unsync_kept
    | with_reducible apply badBundle_kept
    | with_reducible apply takeFields_kept
    | with_reducible apply putPeer_kept
    | with_reducible apply dataBundle_kept
    | with_reducible apply raise_kept
    | split
    | dsimp only
    | fail_if_no_progress with_reducible refine Kept.upd ?_ (by rfl)

theorem execBundleReceive_kept {r₀ : State} (peer : Fin 64) (bytes : Bytes) (dic : Option (BitVec 12 × Bool)) (s : State) (hk₀ : Kept r₀ s) :
    KeptX r₀ (execBundleReceive peer bytes dic s) := by
  unfold execBundleReceive
  repeat' first
    | with_reducible assumption
    | with_reducible apply KeptX.next
    | with_reducible apply receiveBundle_kept
    | with_reducible apply dicWord_kept
    | split
    | dsimp only
    | intro _

theorem execReorderTimeout_kept {r₀ : State} (peer : Fin 64) (s : State) (hk₀ : Kept r₀ s) :
    KeptX r₀ (execReorderTimeout peer s) := by
  unfold execReorderTimeout
  repeat' first
    | with_reducible assumption
    | with_reducible apply KeptX.next
    | with_reducible apply atBoundary_kept
    | with_reducible apply deliverHeld_kept
    | with_reducible apply decideUpTo_kept
    | split
    | dsimp only
    | intro _

theorem execBndPeerDown_kept {r₀ : State} (peer : Fin 64) (s : State) (hk₀ : Kept r₀ s) :
    KeptX r₀ (execBndPeerDown peer s) := by
  unfold execBndPeerDown
  repeat' first
    | with_reducible assumption
    | with_reducible apply KeptX.next
    | with_reducible apply raise_kept
    | with_reducible apply putPeer_kept
    | split
    | dsimp only
    | fail_if_no_progress with_reducible refine Kept.upd ?_ (by rfl)
    | intro _

theorem startReceiver_kept {r₀ : State} (k : Nat) (s : State) (hk₀ : Kept r₀ s) :
    Kept r₀ (startReceiver k s) := by
  unfold startReceiver
  repeat' first
    | with_reducible assumption
    | with_reducible apply unsync_kept
    | with_reducible apply modPeer_kept
    | dsimp only
    | fail_if_no_progress with_reducible refine Kept.upd ?_ (by rfl)
    | intro _

theorem startSender_kept {r₀ : State} (k : Nat) (epoch : BitVec 8) (s : State) (hk₀ : Kept r₀ s) :
    Kept r₀ (startSender k epoch s) := by
  unfold startSender
  repeat' first
    | with_reducible assumption
    | with_reducible apply reanchor_kept
    | with_reducible apply modPeer_kept
    | dsimp only
    | fail_if_no_progress with_reducible refine Kept.upd ?_ (by rfl)
    | intro _

theorem peerOn_kept {r₀ : State} (k : Nat) (s : State) (hk₀ : Kept r₀ s) :
    Kept r₀ (peerOn k s) := by
  unfold peerOn
  repeat' first
    | with_reducible assumption
    | with_reducible apply putPeer_kept
    | with_reducible apply startReceiver_kept
    | with_reducible apply startSender_kept
    | with_reducible apply draw_kept
    | split
    | dsimp only
    | fail_if_no_progress with_reducible refine Kept.upd ?_ (by rfl)

theorem peerOff_kept {r₀ : State} (k : Nat) (s : State) (hk₀ : Kept r₀ s) :
    Kept r₀ (peerOff k s) := by
  unfold peerOff
  repeat' first
    | with_reducible assumption
    | with_reducible apply putPeer_kept
    | dsimp only
    | fail_if_no_progress with_reducible refine Kept.upd ?_ (by rfl)

theorem peerControl_kept {r₀ : State} (k was : Nat) (s : State) (hk₀ : Kept r₀ s) :
    Kept r₀ (peerControl k was s) := by
  unfold peerControl
  repeat' first
    | with_reducible assumption
    | with_reducible apply peerOn_kept
    | with_reducible apply fset_kept
    | with_reducible apply peerOff_kept
    | split
    | dsimp only

theorem dicTurn_kept {r₀ : State} (k : Nat) (s : State) (hk₀ : Kept r₀ s) :
    Kept r₀ (dicTurn k s) := by
  unfold dicTurn
  repeat' first
    | with_reducible assumption
    | with_reducible apply modPeer_kept
    | split
    | dsimp only
    | fail_if_no_progress with_reducible refine Kept.upd ?_ (by rfl)
    | intro _

theorem peersReef_kept {r₀ : State} (s : State) (hk₀ : Kept r₀ s) :
    Kept r₀ (peersReef s) := by
  unfold peersReef
  repeat' first
    | with_reducible assumption
    | dsimp only
    | fail_if_no_progress with_reducible refine Kept.upd ?_ (by rfl)
    | intro _

theorem peersRestart_kept {r₀ : State} (seqAdd : Nat) (s : State) (hk₀ : Kept r₀ s) :
    Kept r₀ (peersRestart seqAdd s) := by
  unfold peersRestart
  repeat' first
    | with_reducible assumption
    | with_reducible apply startReceiver_kept
    | with_reducible apply startSender_kept
    | with_reducible apply putPeer_kept
    | (with_reducible apply Kept.foldl <;> intros)
    | (with_reducible apply Kept.foldlFst <;> intros)
    | (with_reducible apply Kept.foldlSnd <;> intros)
    | split
    | dsimp only
    | fail_if_no_progress with_reducible refine Kept.upd ?_ (by rfl)
    | intro _

end Sys2Proof.Machine
end

