-- ==== Sys2Proof/Laws/KeptRegRules.lean ====
section
/-! SUPPORT. What the operations of Machine/RegRules.lean keep. -/

set_option linter.unusedTactic false
set_option linter.unreachableTactic false

namespace Sys2Proof.Machine

theorem reservedEvent_kept {r₀ : State} (a lo : Nat) (s : State) (hk₀ : Kept r₀ s) :
    Kept r₀ (reservedEvent a lo s) := by
  unfold reservedEvent
  repeat' first
    | with_reducible assumption
    | with_reducible apply raise_kept
    | dsimp only

theorem plainWrite_kept {r₀ : State} (a w : Nat) (s : State) (hk₀ : Kept r₀ s) :
    Kept r₀ (plainWrite a w s) := by
  unfold plainWrite
  repeat' first
    | with_reducible assumption
    | with_reducible apply reservedEvent_kept
    | with_reducible apply setWord_kept
    | (with_reducible apply Kept.foldl <;> intros)
    | (with_reducible apply Kept.foldlFst <;> intros)
    | (with_reducible apply Kept.foldlSnd <;> intros)
    | split
    | dsimp only
    | intro _

end Sys2Proof.Machine
end

