-- ==== Sys2Proof/Laws/KeptLoader.lean ====
section
/-! SUPPORT. What the operations of Machine/Loader.lean keep. -/

set_option linter.unusedTactic false
set_option linter.unreachableTactic false

namespace Sys2Proof.Machine

theorem haltBoot_kept {r₀ : State} (code stage : Nat) (s : State) (hk₀ : Kept r₀ s) :
    Kept r₀ (haltBoot code stage s) := by
  unfold haltBoot
  repeat' first
    | with_reducible assumption
    | with_reducible apply raise_kept
    | with_reducible apply noteIbi_kept
    | dsimp only
    | fail_if_no_progress with_reducible refine Kept.upd ?_ (by rfl)

theorem bootLoadFailed_kept {r₀ : State} (code src : Nat) (s : State) (hk₀ : Kept r₀ s) :
    Kept r₀ (bootLoadFailed code src s) := by
  unfold bootLoadFailed
  repeat' first
    | with_reducible assumption
    | with_reducible apply haltBoot_kept
    | with_reducible apply raise_kept
    | with_reducible apply noteIbi_kept
    | split
    | dsimp only
    | fail_if_no_progress with_reducible refine Kept.upd ?_ (by rfl)

theorem rigFail_kept {r₀ : State} (code spar : Nat) (s : State) (hk₀ : Kept r₀ s) :
    Kept r₀ (rigFail code spar s) := by
  unfold rigFail
  repeat' first
    | with_reducible assumption
    | with_reducible apply raise_kept
    | with_reducible apply fbump_kept
    | with_reducible apply bootLoadFailed_kept
    | split
    | dsimp only
    | fail_if_no_progress with_reducible refine Kept.upd ?_ (by rfl)

theorem rigAbort_kept {r₀ : State} (s : State) (hk₀ : Kept r₀ s) :
    Kept r₀ (rigAbort s) := by
  unfold rigAbort
  repeat' first
    | with_reducible assumption
    | with_reducible apply rigFail_kept
    | split
    | dsimp only

theorem beginLoad_kept {r₀ : State} (src ofs : Nat) (cluster : Option Nat) (s : State) (hk₀ : Kept r₀ s) :
    Kept r₀ (beginLoad src ofs cluster s) := by
  unfold beginLoad
  repeat' first
    | with_reducible assumption
    | with_reducible apply raise_kept
    | split
    | dsimp only
    | fail_if_no_progress with_reducible refine Kept.upd ?_ (by rfl)

theorem rigStart_kept {r₀ : State} (s : State) (hk₀ : Kept r₀ s) :
    Kept r₀ (rigStart s) := by
  unfold rigStart
  repeat' first
    | with_reducible assumption
    | with_reducible apply beginLoad_kept
    | with_reducible apply rigFail_kept
    | split
    | dsimp only
    | fail_if_no_progress with_reducible refine Kept.upd ?_ (by rfl)
    | intro _

theorem stageSpar_kept {r₀ : State} (cluster old : Nat) (img : Bytes) (s : State) (e : Bytes) (hk₀ : Kept r₀ s) :
    Kept r₀ (stageSpar cluster old img s e) := by
  unfold stageSpar
  repeat' first
    | with_reducible assumption
    | with_reducible apply storeBytes_kept
    | split
    | dsimp only

theorem stageBytes_kept {r₀ : State} (old : Nat) (img : Bytes) (s : State) (hk₀ : Kept r₀ s) :
    Kept r₀ (stageBytes old img s) := by
  unfold stageBytes
  repeat' first
    | with_reducible assumption
    | with_reducible apply storeBytes_kept
    | with_reducible apply stageSpar_kept
    | (with_reducible apply Kept.foldl <;> intros)
    | (with_reducible apply Kept.foldlFst <;> intros)
    | (with_reducible apply Kept.foldlSnd <;> intros)
    | split
    | dsimp only
    | intro _

theorem wholeImage_kept {r₀ : State} (s : State) (hk₀ : Kept r₀ s) :
    Kept r₀ (wholeImage s) := by
  unfold wholeImage
  repeat' first
    | with_reducible assumption
    | split
    | dsimp only
    | fail_if_no_progress with_reducible refine Kept.upd ?_ (by rfl)

theorem takeImage_kept {r₀ : State} (b : Bytes) (s : State) (hk₀ : Kept r₀ s) :
    Kept r₀ (takeImage b s) := by
  unfold takeImage
  repeat' first
    | with_reducible assumption
    | with_reducible apply rigFail_kept
    | with_reducible apply wholeImage_kept
    | with_reducible apply stageBytes_kept
    | split
    | dsimp only
    | fail_if_no_progress with_reducible refine Kept.upd ?_ (by rfl)
    | intro _

theorem execQspiRead_kept {r₀ : State} (data : FlashData) (ok : Bool) (s : State) (hk₀ : Kept r₀ s) :
    KeptX r₀ (execQspiRead data ok s) := by
  unfold execQspiRead
  repeat' first
    | with_reducible assumption
    | with_reducible apply KeptX.next
    | with_reducible apply takeImage_kept
    | with_reducible apply rigFail_kept
    | split
    | dsimp only
    | intro _

theorem execRigDataTimeout_kept {r₀ : State} (s : State) (hk₀ : Kept r₀ s) :
    KeptX r₀ (execRigDataTimeout s) := by
  unfold execRigDataTimeout
  repeat' first
    | with_reducible assumption
    | with_reducible apply KeptX.next
    | with_reducible apply rigFail_kept
    | split
    | dsimp only
    | intro _

theorem execImageReceived_kept {r₀ : State} (s : State) (hk₀ : Kept r₀ s) :
    KeptX r₀ (execImageReceived s) := by
  unfold execImageReceived
  repeat' first
    | with_reducible assumption
    | with_reducible apply KeptX.next
    | with_reducible apply rigFail_kept
    | split
    | dsimp only
    | fail_if_no_progress with_reducible refine Kept.upd ?_ (by rfl)
    | intro _

theorem execLoaderCheckDone_kept {r₀ : State} (s : State) (hk₀ : Kept r₀ s) :
    KeptX r₀ (execLoaderCheckDone s) := by
  unfold execLoaderCheckDone
  repeat' first
    | with_reducible assumption
    | with_reducible apply KeptX.next
    | with_reducible apply rigFail_kept
    | split
    | dsimp only
    | fail_if_no_progress with_reducible refine Kept.upd ?_ (by rfl)
    | intro _

theorem commitRollback_kept {r : State} (s : State) (h : Kept r s) : Kept r (commitRollback s) := by
  unfold commitRollback
  dsimp only
  split
  · rename_i hc
    refine raise_kept _ _ _ (Kept.updFuses h ?_)
    simp [FusesKept, keepsBlown_refl]
    omega
  · exact h

end Sys2Proof.Machine
end

