-- ==== Sys2Proof/Laws/KeptTimeOps.lean ====
section
/-! SUPPORT. What the operations of Machine/TimeOps.lean keep. -/

set_option linter.unusedTactic false
set_option linter.unreachableTactic false

namespace Sys2Proof.Machine

theorem setRate_kept {r₀ : State} (r : BitVec 32) (s : State) (hk₀ : Kept r₀ s) :
    Kept r₀ (setRate r s) := by
  unfold setRate
  repeat' first
    | with_reducible assumption
    | dsimp only
    | fail_if_no_progress with_reducible refine Kept.upd ?_ (by rfl)

theorem stepTime_kept {r₀ : State} (ns : Int) (cause : Nat) (s : State) (hk₀ : Kept r₀ s) :
    Kept r₀ (stepTime ns cause s) := by
  unfold stepTime
  repeat' first
    | with_reducible assumption
    | with_reducible apply raise_kept
    | split
    | dsimp only
    | fail_if_no_progress with_reducible refine Kept.upd ?_ (by rfl)

theorem capture_kept {r₀ : State} (s : State) (hk₀ : Kept r₀ s) :
    Kept r₀ (capture s) := by
  unfold capture
  repeat' first
    | with_reducible assumption
    | with_reducible apply setWord_kept
    | (with_reducible apply Kept.foldl <;> intros)
    | (with_reducible apply Kept.foldlFst <;> intros)
    | (with_reducible apply Kept.foldlSnd <;> intros)
    | dsimp only
    | intro _

theorem tickTime_kept {r₀ : State} (s : State) (hk₀ : Kept r₀ s) :
    Kept r₀ (tickTime s) := by
  unfold tickTime
  repeat' first
    | with_reducible assumption
    | with_reducible apply passVid_kept
    | dsimp only
    | fail_if_no_progress with_reducible refine Kept.upd ?_ (by rfl)

theorem idleTick_kept {r₀ : State} (s : State) (hk₀ : Kept r₀ s) :
    Kept r₀ (idleTick s) := by
  unfold idleTick
  repeat' first
    | with_reducible assumption
    | with_reducible apply passVid_kept
    | split
    | dsimp only
    | fail_if_no_progress with_reducible refine Kept.upd ?_ (by rfl)

theorem setServo_kept {r₀ : State} (st : ServoState) (cause : Nat) (s : State) (hk₀ : Kept r₀ s) :
    Kept r₀ (setServo st cause s) := by
  unfold setServo
  repeat' first
    | with_reducible assumption
    | with_reducible apply raise_kept
    | split
    | dsimp only
    | fail_if_no_progress with_reducible refine Kept.upd ?_ (by rfl)

theorem enterHoldover_kept {r₀ : State} (cause : Nat) (s : State) (hk₀ : Kept r₀ s) :
    Kept r₀ (enterHoldover cause s) := by
  unfold enterHoldover
  repeat' first
    | with_reducible assumption
    | with_reducible apply setRate_kept
    | with_reducible apply setServo_kept
    | split
    | dsimp only
    | fail_if_no_progress with_reducible refine Kept.upd ?_ (by rfl)

theorem servoAfter_kept {r₀ : State} (theta : Int) (s : State) (hk₀ : Kept r₀ s) :
    Kept r₀ (servoAfter theta s) := by
  unfold servoAfter
  repeat' first
    | with_reducible assumption
    | with_reducible apply setServo_kept
    | split
    | dsimp only
    | fail_if_no_progress with_reducible refine Kept.upd ?_ (by rfl)
    | intro _

theorem applyOffset_kept {r₀ : State} (theta : Int) (s : State) (hk₀ : Kept r₀ s) :
    Kept r₀ (applyOffset theta s) := by
  unfold applyOffset
  repeat' first
    | with_reducible assumption
    | with_reducible apply setRate_kept
    | with_reducible apply raise_kept
    | with_reducible apply servoAfter_kept
    | with_reducible apply fbump_kept
    | split
    | dsimp only
    | fail_if_no_progress with_reducible refine Kept.upd ?_ (by rfl)

theorem offsetSample_kept {r₀ : State} (theta : Int) (s : State) (hk₀ : Kept r₀ s) :
    Kept r₀ (offsetSample theta s) := by
  unfold offsetSample
  repeat' first
    | with_reducible assumption
    | with_reducible apply fbump_kept
    | with_reducible apply raise_kept
    | with_reducible apply applyOffset_kept
    | split
    | dsimp only
    | fail_if_no_progress with_reducible refine Kept.upd ?_ (by rfl)
    | intro _

theorem pathSample_kept {r₀ : State} (d : Int) (s : State) (hk₀ : Kept r₀ s) :
    Kept r₀ (pathSample d s) := by
  unfold pathSample
  repeat' first
    | with_reducible assumption
    | with_reducible apply fbump_kept
    | with_reducible apply enterHoldover_kept
    | with_reducible apply raise_kept
    | split
    | dsimp only
    | fail_if_no_progress with_reducible refine Kept.upd ?_ (by rfl)
    | intro _

theorem syncPair_kept {r₀ : State} (t1 t2 : Int) (count : Nat) (s : State) (hk₀ : Kept r₀ s) :
    Kept r₀ (syncPair t1 t2 count s) := by
  unfold syncPair
  repeat' first
    | with_reducible assumption
    | with_reducible apply offsetSample_kept
    | split
    | dsimp only
    | fail_if_no_progress with_reducible refine Kept.upd ?_ (by rfl)
    | intro _

theorem delayPair_kept {r₀ : State} (t3 t4 : Int) (s : State) (hk₀ : Kept r₀ s) :
    Kept r₀ (delayPair t3 t4 s) := by
  unfold delayPair
  repeat' first
    | with_reducible assumption
    | with_reducible apply pathSample_kept
    | split
    | dsimp only
    | intro _

theorem hostSample_kept {r₀ : State} (pd : Bool) (s : State) (hk₀ : Kept r₀ s) :
    Kept r₀ (hostSample pd s) := by
  unfold hostSample
  repeat' first
    | with_reducible assumption
    | with_reducible apply pathSample_kept
    | with_reducible apply offsetSample_kept
    | split
    | dsimp only

theorem servoCtrl_kept {r₀ : State} (oldSource : Nat) (s : State) (hk₀ : Kept r₀ s) :
    Kept r₀ (servoCtrl oldSource s) := by
  unfold servoCtrl
  repeat' first
    | with_reducible assumption
    | with_reducible apply setServo_kept
    | split
    | dsimp only
    | fail_if_no_progress with_reducible refine Kept.upd ?_ (by rfl)

theorem acceptJump_kept {r₀ : State} (s : State) (hk₀ : Kept r₀ s) :
    Kept r₀ (acceptJump s) := by
  unfold acceptJump
  repeat' first
    | with_reducible assumption
    | with_reducible apply stepTime_kept
    | split
    | dsimp only
    | fail_if_no_progress with_reducible refine Kept.upd ?_ (by rfl)
    | intro _

theorem hostStep_kept {r₀ : State} (s : State) (hk₀ : Kept r₀ s) :
    Kept r₀ (hostStep s) := by
  unfold hostStep
  repeat' first
    | with_reducible assumption
    | with_reducible apply stepTime_kept
    | dsimp only

theorem servoResume_kept {r₀ : State} (s : State) (hk₀ : Kept r₀ s) :
    Kept r₀ (servoResume s) := by
  unfold servoResume
  repeat' first
    | with_reducible assumption
    | split
    | dsimp only
    | fail_if_no_progress with_reducible refine Kept.upd ?_ (by rfl)

theorem servoHold_kept {r₀ : State} (s : State) (hk₀ : Kept r₀ s) :
    Kept r₀ (servoHold s) := by
  unfold servoHold
  repeat' first
    | with_reducible assumption
    | with_reducible apply enterHoldover_kept
    | split
    | dsimp only
    | fail_if_no_progress with_reducible refine Kept.upd ?_ (by rfl)

theorem servoCmd_kept {r₀ : State} (v : Nat) (s : State) (hk₀ : Kept r₀ s) :
    Kept r₀ (servoCmd v s) := by
  unfold servoCmd
  repeat' first
    | with_reducible assumption
    | with_reducible apply servoResume_kept
    | with_reducible apply servoHold_kept
    | with_reducible apply acceptJump_kept
    | with_reducible apply hostStep_kept
    | split
    | dsimp only

theorem reefHoldover_kept {r₀ : State} (s : State) (hk₀ : Kept r₀ s) :
    Kept r₀ (reefHoldover s) := by
  unfold reefHoldover
  repeat' first
    | with_reducible assumption
    | with_reducible apply enterHoldover_kept
    | split
    | dsimp only
    | fail_if_no_progress with_reducible refine Kept.upd ?_ (by rfl)

theorem reefRelease_kept {r₀ : State} (s : State) (hk₀ : Kept r₀ s) :
    Kept r₀ (reefRelease s) := by
  unfold reefRelease
  repeat' first
    | with_reducible assumption
    | with_reducible apply setServo_kept
    | split
    | dsimp only
    | fail_if_no_progress with_reducible refine Kept.upd ?_ (by rfl)

end Sys2Proof.Machine
end

