-- ==== Sys2Proof/Laws/KeptPtp.lean ====
section
/-! SUPPORT. What the operations of Machine/Ptp.lean keep. -/

set_option linter.unusedTactic false
set_option linter.unreachableTactic false

namespace Sys2Proof.Machine

theorem setPtp_kept {r₀ : State} (st : Nat) (s : State) (hk₀ : Kept r₀ s) :
    Kept r₀ (setPtp st s) := by
  unfold setPtp
  repeat' first
    | with_reducible assumption
    | with_reducible apply raise_kept
    | split
    | dsimp only
    | fail_if_no_progress with_reducible refine Kept.upd ?_ (by rfl)

theorem resetPtp_kept {r₀ : State} (st : Nat) (s : State) (hk₀ : Kept r₀ s) :
    Kept r₀ (resetPtp st s) := by
  unfold resetPtp
  repeat' first
    | with_reducible assumption
    | with_reducible apply setPtp_kept
    | dsimp only
    | fail_if_no_progress with_reducible refine Kept.upd ?_ (by rfl)

theorem ptpFollow_kept {r₀ : State} (s : State) (hk₀ : Kept r₀ s) :
    Kept r₀ (ptpFollow s) := by
  unfold ptpFollow
  repeat' first
    | with_reducible assumption
    | with_reducible apply resetPtp_kept
    | split
    | dsimp only

theorem execPortLinkUp_kept {r₀ : State} (port : Fin 2) (s : State) (hk₀ : Kept r₀ s) :
    KeptX r₀ (execPortLinkUp port s) := by
  unfold execPortLinkUp
  repeat' first
    | with_reducible assumption
    | with_reducible apply KeptX.next
    | with_reducible apply ptpFollow_kept
    | with_reducible apply linkUp_kept
    | dsimp only
    | intro _

theorem execPortLinkDown_kept {r₀ : State} (fall : LinkFall) (s : State) (hk₀ : Kept r₀ s) :
    KeptX r₀ (execPortLinkDown fall s) := by
  unfold execPortLinkDown
  repeat' first
    | with_reducible assumption
    | with_reducible apply KeptX.next
    | with_reducible apply ptpFollow_kept
    | with_reducible apply linkFails_kept
    | dsimp only
    | intro _

theorem ptpCtrl_kept {r₀ : State} (old : Nat) (s : State) (hk₀ : Kept r₀ s) :
    Kept r₀ (ptpCtrl old s) := by
  unfold ptpCtrl
  repeat' first
    | with_reducible assumption
    | with_reducible apply resetPtp_kept
    | split
    | dsimp only
    | intro _

theorem selectParent_kept {r₀ : State} (s : State) (hk₀ : Kept r₀ s) :
    Kept r₀ (selectParent s) := by
  unfold selectParent
  repeat' first
    | with_reducible assumption
    | with_reducible apply raise_kept
    | with_reducible apply setPtp_kept
    | split
    | dsimp only
    | fail_if_no_progress with_reducible refine Kept.upd ?_ (by rfl)
    | intro _
    | dsimp only [id_eq]

theorem takeAnnounce_kept {r₀ : State} (m : Bytes) (s : State) (hk₀ : Kept r₀ s) :
    Kept r₀ (takeAnnounce m s) := by
  unfold takeAnnounce
  repeat' first
    | with_reducible assumption
    | with_reducible apply selectParent_kept
    | split
    | dsimp only
    | fail_if_no_progress with_reducible refine Kept.upd ?_ (by rfl)

theorem passSync_kept {r₀ : State} (t1 t2 : Int) (count : Nat) (s : State) (hk₀ : Kept r₀ s) :
    Kept r₀ (passSync t1 t2 count s) := by
  unfold passSync
  repeat' first
    | with_reducible assumption
    | with_reducible apply fbump_kept
    | with_reducible apply setPtp_kept
    | with_reducible apply syncPair_kept
    | split
    | dsimp only

theorem takeSync_kept {r₀ : State} (m : Bytes) (stamp count : Nat) (s : State) (hk₀ : Kept r₀ s) :
    Kept r₀ (takeSync m stamp count s) := by
  unfold takeSync
  repeat' first
    | with_reducible assumption
    | with_reducible apply passSync_kept
    | split
    | dsimp only
    | fail_if_no_progress with_reducible refine Kept.upd ?_ (by rfl)

theorem takeFollowUp_kept {r₀ : State} (m : Bytes) (s : State) (hk₀ : Kept r₀ s) :
    Kept r₀ (takeFollowUp m s) := by
  unfold takeFollowUp
  repeat' first
    | with_reducible assumption
    | with_reducible apply passSync_kept
    | split
    | dsimp only
    | fail_if_no_progress with_reducible refine Kept.upd ?_ (by rfl)
    | intro _

theorem takeDelayResp_kept {r₀ : State} (m : Bytes) (s : State) (hk₀ : Kept r₀ s) :
    Kept r₀ (takeDelayResp m s) := by
  unfold takeDelayResp
  repeat' first
    | with_reducible assumption
    | with_reducible apply delayPair_kept
    | split
    | dsimp only
    | fail_if_no_progress with_reducible refine Kept.upd ?_ (by rfl)
    | intro _

theorem engineMessage_kept {r₀ : State} (m : Bytes) (stamp count : Nat) (s : State) (hk₀ : Kept r₀ s) :
    Kept r₀ (engineMessage m stamp count s) := by
  unfold engineMessage
  repeat' first
    | with_reducible assumption
    | with_reducible apply raiseCounting_kept
    | with_reducible apply fbump_kept
    | with_reducible apply takeAnnounce_kept
    | with_reducible apply takeSync_kept
    | with_reducible apply takeFollowUp_kept
    | with_reducible apply takeDelayResp_kept
    | split
    | dsimp only

theorem execPtpReceive_kept {r₀ : State} (port : Fin 2) (s : State) (hk₀ : Kept r₀ s) :
    KeptX r₀ (execPtpReceive port s) := by
  unfold execPtpReceive
  repeat' first
    | with_reducible assumption
    | with_reducible apply KeptX.next
    | with_reducible apply takeRx_kept
    | with_reducible apply engineMessage_kept
    | split
    | dsimp only
    | intro _

theorem execDelayReqSend_kept {r₀ : State} (s : State) (hk₀ : Kept r₀ s) :
    KeptX r₀ (execDelayReqSend s) := by
  unfold execDelayReqSend
  repeat' first
    | with_reducible assumption
    | with_reducible apply KeptX.next
    | with_reducible apply pushTx_kept
    | with_reducible apply draw_kept
    | split
    | dsimp only
    | fail_if_no_progress with_reducible refine Kept.upd ?_ (by rfl)
    | intro _

theorem execAnnounceTimeout_kept {r₀ : State} (s : State) (hk₀ : Kept r₀ s) :
    KeptX r₀ (execAnnounceTimeout s) := by
  unfold execAnnounceTimeout
  repeat' first
    | with_reducible assumption
    | with_reducible apply KeptX.next
    | with_reducible apply enterHoldover_kept
    | with_reducible apply setPtp_kept
    | split
    | dsimp only
    | fail_if_no_progress with_reducible refine Kept.upd ?_ (by rfl)
    | intro _

theorem forwardPtp_kept {r₀ : State} (port : Nat) (f : RxFrame) (s : State) (hk₀ : Kept r₀ s) :
    Kept r₀ (forwardPtp port f s) := by
  unfold forwardPtp
  repeat' first
    | with_reducible assumption
    | with_reducible apply fbump_kept
    | with_reducible apply pushTx_kept
    | dsimp only
    | fail_if_no_progress with_reducible refine Kept.upd ?_ (by rfl)

theorem execTcForward_kept {r₀ : State} (port : Fin 2) (s : State) (hk₀ : Kept r₀ s) :
    KeptX r₀ (execTcForward port s) := by
  unfold execTcForward
  repeat' first
    | with_reducible assumption
    | with_reducible apply KeptX.next
    | with_reducible apply putPort_kept
    | with_reducible apply raiseCounting_kept
    | with_reducible apply fbump_kept
    | with_reducible apply forwardPtp_kept
    | split
    | dsimp only
    | fail_if_no_progress with_reducible refine Kept.upd ?_ (by rfl)
    | intro _

end Sys2Proof.Machine
end

