-- ==== Sys2Proof/Laws/KeptBoot.lean ====
section
/-! SUPPORT. What the operations of Machine/Boot.lean keep. -/

set_option linter.unusedTactic false
set_option linter.unreachableTactic false

namespace Sys2Proof.Machine

theorem setVid_kept {r₀ : State} (v : BitVec 4) (s : State) (hk₀ : Kept r₀ s) :
    Kept r₀ (setVid v s) := by
  unfold setVid
  repeat' first
    | with_reducible assumption
    | split
    | dsimp only
    | fail_if_no_progress with_reducible refine Kept.upd ?_ (by rfl)

theorem resetDevice_kept {r : State} (cause : Nat) (s : State) (h : Kept r s) : Kept r (resetDevice cause s) :=
  ⟨h.mem, h.jtag, h.pending, h.fuses⟩

theorem clearLanes_kept {r₀ : State} (s : State) (hk₀ : Kept r₀ s) :
    Kept r₀ (clearLanes s) := by
  unfold clearLanes
  repeat' first
    | with_reducible assumption
    | with_reducible apply clearRange_kept
    | (with_reducible apply Kept.foldl <;> intros)
    | (with_reducible apply Kept.foldlFst <;> intros)
    | (with_reducible apply Kept.foldlSnd <;> intros)
    | dsimp only
    | intro _

theorem showSupply_kept {r₀ : State} (s : State) (hk₀ : Kept r₀ s) :
    Kept r₀ (showSupply s) := by
  unfold showSupply
  repeat' first
    | with_reducible assumption
    | with_reducible apply fset_kept
    | split
    | dsimp only

theorem startBoot_kept {r₀ : State} (sel : BitVec 2) (s : State) (hk₀ : Kept r₀ s) :
    Kept r₀ (startBoot sel s) := by
  unfold startBoot
  repeat' first
    | with_reducible assumption
    | with_reducible apply draw_kept
    | with_reducible apply clearLanes_kept
    | with_reducible apply noteIbi_kept
    | with_reducible apply showSupply_kept
    | with_reducible apply raise_kept
    | split
    | dsimp only
    | fail_if_no_progress with_reducible refine Kept.upd ?_ (by rfl)

theorem execResetAssert_kept {r₀ : State} (s : State) (hk₀ : Kept r₀ s) :
    KeptX r₀ (execResetAssert s) := by
  unfold execResetAssert
  repeat' first
    | with_reducible assumption
    | with_reducible apply KeptX.next
    | with_reducible apply resetDevice_kept
    | dsimp only
    | fail_if_no_progress with_reducible refine Kept.upd ?_ (by rfl)
    | intro _

theorem execResetRelease_kept {r₀ : State} (bootSel : BitVec 2) (s : State) (hk₀ : Kept r₀ s) :
    KeptX r₀ (execResetRelease bootSel s) := by
  unfold execResetRelease
  repeat' first
    | with_reducible assumption
    | with_reducible apply KeptX.next
    | with_reducible apply startBoot_kept
    | split
    | dsimp only
    | fail_if_no_progress with_reducible refine Kept.upd ?_ (by rfl)
    | intro _

theorem execSysclkLoss_kept {r₀ : State} (s : State) (hk₀ : Kept r₀ s) :
    KeptX r₀ (execSysclkLoss s) := by
  unfold execSysclkLoss
  repeat' first
    | with_reducible assumption
    | with_reducible apply KeptX.next
    | with_reducible apply resetDevice_kept
    | dsimp only
    | fail_if_no_progress with_reducible refine Kept.upd ?_ (by rfl)
    | intro _

theorem execSysclkReturn_kept {r₀ : State} (bootSel : BitVec 2) (s : State) (hk₀ : Kept r₀ s) :
    KeptX r₀ (execSysclkReturn bootSel s) := by
  unfold execSysclkReturn
  repeat' first
    | with_reducible assumption
    | with_reducible apply KeptX.next
    | with_reducible apply startBoot_kept
    | split
    | dsimp only
    | fail_if_no_progress with_reducible refine Kept.upd ?_ (by rfl)
    | intro _

theorem useSeed_kept {r₀ : State} (b : Nat) (s : State) (hk₀ : Kept r₀ s) :
    Kept r₀ (useSeed b s) := by
  unfold useSeed
  repeat' first
    | with_reducible assumption
    | dsimp only
    | fail_if_no_progress with_reducible refine Kept.upd ?_ (by rfl)

theorem identityFault_kept {r₀ : State} (cause : Nat) (s : State) (hk₀ : Kept r₀ s) :
    Kept r₀ (identityFault cause s) := by
  unfold identityFault
  repeat' first
    | with_reducible assumption
    | with_reducible apply raise_kept
    | dsimp only
    | fail_if_no_progress with_reducible refine Kept.upd ?_ (by rfl)

theorem blownSeed_zero (v : BitVec 640) (ok : Bool) (f : Fuses) :
    (blownSeed 0 v ok f).validA = ok ∧ (blownSeed 0 v ok f).validB = f.validB ∧
      (blownSeed 0 v ok f).seedB = f.seedB := ⟨rfl, rfl, rfl⟩

/-- Seed bits blown in a seed of which no bit is blown. -/
theorem fusesKept_blownSeed (b : Nat) (v : BitVec 640) (ok : Bool) (f : Fuses) (hv : f.validA = false)
    (hw : f.validB = false) (hs : if b = 0 then f.seedA = 0 else f.seedB = 0) : FusesKept f (blownSeed b v ok f) := by
  by_cases hb : b = 0 <;> simp_all [FusesKept, keepsBlown_refl, blownSeed]

theorem generateSeed_kept {r : State} (b : Nat) (ok : Bool) (s : State) (hv : s.boot.fuses.validA = false)
    (hw : s.boot.fuses.validB = false) (hs : if b = 0 then s.boot.fuses.seedA = 0 else s.boot.fuses.seedB = 0)
    (h : Kept r s) : Kept r (generateSeed b ok s) := by
  have h1 : ∀ v, Kept r { s with boot := { s.boot with fuses := blownSeed b v ok s.boot.fuses } } :=
    fun v => Kept.updFuses h (fusesKept_blownSeed b v ok _ hv hw hs)
  unfold generateSeed
  dsimp only
  generalize seedDraw _ = v
  split
  · refine raise_kept _ _ _ (useSeed_kept _ _ ?_)
    refine draw_kept _ ?_
    refine draw_kept _ ?_
    exact h1 v
  · refine draw_kept _ ?_
    refine draw_kept _ ?_
    exact h1 v

/-- A seed whose read-back differs leaves its valid bit unblown. -/
theorem generateSeed_bad (b : Nat) (s : State) :
    ∃ v, (generateSeed b false s).boot.fuses = blownSeed b v false s.boot.fuses := ⟨_, rfl⟩

/-- It leaves both valid bits as they were where neither was blown. -/
theorem generateSeed_invalid (b : Nat) (s : State) (hv : s.boot.fuses.validA = false) (hw : s.boot.fuses.validB = false) :
    (generateSeed b false s).boot.fuses.validA = false ∧ (generateSeed b false s).boot.fuses.validB = false := by
  obtain ⟨v, e⟩ := generateSeed_bad b s
  rw [e]
  unfold blownSeed
  split
  · exact ⟨rfl, hw⟩
  · exact ⟨hv, rfl⟩

theorem retryIdentity_kept {r : State} (ok : Bool) (s : State) (hv : s.boot.fuses.validA = false)
    (hw : s.boot.fuses.validB = false) (h : Kept r s) : Kept r (retryIdentity ok s) := by
  unfold retryIdentity
  split
  · exact identityFault_kept _ _ h
  rename_i hs
  have h0 : if (1 : Nat) = 0 then s.boot.fuses.seedA = 0 else s.boot.fuses.seedB = 0 := by
    rw [if_neg (by decide)]; exact not_not.mp hs
  split
  · exact generateSeed_kept 1 true s hv hw h0 h
  · exact identityFault_kept _ _ (generateSeed_kept 1 false s hv hw h0 h)

theorem identityStage_kept {r : State} (healthy first second : Bool) (s : State) (h : Kept r s) :
    Kept r (identityStage healthy first second s) := by
  unfold identityStage
  dsimp only
  split
  · exact useSeed_kept _ _ h
  rename_i hA
  split
  · exact useSeed_kept _ _ h
  rename_i hB
  simp only [Bool.not_eq_true] at hA hB
  split
  · exact identityFault_kept _ _ h
  split
  · rename_i h0
    have hs : if (0 : Nat) = 0 then s.boot.fuses.seedA = 0 else s.boot.fuses.seedB = 0 := by rw [if_pos rfl]; exact h0
    split
    · exact generateSeed_kept 0 true s hA hB hs h
    · exact retryIdentity_kept second _ (generateSeed_invalid 0 s hA hB).1 (generateSeed_invalid 0 s hA hB).2 (generateSeed_kept 0 false s hA hB hs h)
  · split
    · rename_i h0
      have hs : if (1 : Nat) = 0 then s.boot.fuses.seedA = 0 else s.boot.fuses.seedB = 0 := by
        rw [if_neg (by decide)]; exact h0
      split
      · exact generateSeed_kept 1 true s hA hB hs h
      · exact retryIdentity_kept second _ (generateSeed_invalid 1 s hA hB).1 (generateSeed_invalid 1 s hA hB).2 (generateSeed_kept 1 false s hA hB hs h)
    · exact identityFault_kept _ _ h

theorem measureRom_kept {r : State} (s : State) (h : Kept r s) : Kept r (measureRom s) := by
  unfold measureRom
  generalize sha512 Config.rom = m
  exact clearRange_kept _ _ (Kept.upd h rfl)

theorem enterLoad_kept {r₀ : State} (s : State) (hk₀ : Kept r₀ s) :
    Kept r₀ (enterLoad s) := by
  unfold enterLoad
  repeat' first
    | with_reducible assumption
    | with_reducible apply beginLoad_kept
    | split
    | dsimp only
    | fail_if_no_progress with_reducible refine Kept.upd ?_ (by rfl)

theorem execBootSupplyReady_kept {r₀ : State} (fusesOk romOk healthy first second : Bool) (s : State) (hk₀ : Kept r₀ s) :
    KeptX r₀ (execBootSupplyReady fusesOk romOk healthy first second s) := by
  unfold execBootSupplyReady
  repeat' first
    | with_reducible assumption
    | with_reducible apply KeptX.next
    | with_reducible apply haltBoot_kept
    | with_reducible apply enterLoad_kept
    | with_reducible apply identityStage_kept
    | with_reducible apply measureRom_kept
    | split
    | dsimp only
    | intro _

theorem execBootSupplyTimeout_kept {r₀ : State} (s : State) (hk₀ : Kept r₀ s) :
    KeptX r₀ (execBootSupplyTimeout s) := by
  unfold execBootSupplyTimeout
  repeat' first
    | with_reducible assumption
    | with_reducible apply KeptX.next
    | with_reducible apply noteIbi_kept
    | split
    | dsimp only
    | fail_if_no_progress with_reducible refine Kept.upd ?_ (by rfl)
    | intro _

theorem execFirmwareReady_kept {r₀ : State} (s : State) (hk₀ : Kept r₀ s) :
    KeptX r₀ (execFirmwareReady s) := by
  unfold execFirmwareReady
  repeat' first
    | with_reducible assumption
    | with_reducible apply KeptX.next
    | with_reducible apply setWord_kept
    | with_reducible apply ptpFollow_kept
    | with_reducible apply refuseReserved_kept
    | with_reducible apply noteIbi_kept
    | with_reducible apply raise_kept
    | split
    | dsimp only
    | fail_if_no_progress with_reducible refine Kept.upd ?_ (by rfl)
    | intro _

theorem execFwStartTimeout_kept {r₀ : State} (s : State) (hk₀ : Kept r₀ s) :
    KeptX r₀ (execFwStartTimeout s) := by
  unfold execFwStartTimeout
  repeat' first
    | with_reducible assumption
    | with_reducible apply KeptX.next
    | with_reducible apply haltBoot_kept
    | split
    | dsimp only
    | intro _

theorem bootResult_kept {r₀ : State} (n : Nat) (s : State) (hk₀ : Kept r₀ s) :
    Kept r₀ (bootResult n s) := by
  unfold bootResult
  repeat' first
    | with_reducible assumption
    | dsimp only
    | fail_if_no_progress with_reducible refine Kept.upd ?_ (by rfl)

theorem enrolOwner_kept {r : State} (s : State) (h : Kept r s) : Kept r (enrolOwner s) := by
  unfold enrolOwner
  dsimp only
  split
  · rename_i hc
    refine bootResult_kept _ _ (raise_kept _ _ _ (Kept.updFuses h ?_))
    simp [FusesKept, hc.2.2.2.2]
  · exact bootResult_kept _ _ h

theorem revokeSlot_kept {r : State} (i : Nat) (s : State) (h : Kept r s) : Kept r (revokeSlot i s) := by
  unfold revokeSlot
  dsimp only
  split
  · exact bootResult_kept _ _ h
  · split
    · exact bootResult_kept _ _ h
    · refine bootResult_kept _ _ (raise_kept _ _ _ (Kept.updFuses h ?_))
      split
      · simp [FusesKept, keepsBlown_refl]
      · simp only [FusesKept, keepsBlown_refl, BitVec.and_self, and_true, true_and, le_refl, imp_self]
        ext k hk
        simp only [BitVec.getElem_and, BitVec.getElem_or]
        cases s.boot.fuses.rootRevoked[k] <;> simp

theorem bootCtrl_kept {r : State} (v : Nat) (s : State) (h : Kept r s) : Kept r (bootCtrl v s) := by
  have h1 : Kept r (fset .BOOT_CTRL_enrol 0 (fset .BOOT_CTRL_revoke 0 (fset .BOOT_CTRL_lock_debug 0 s))) :=
    fset_kept _ _ _ _ _ (fset_kept _ _ _ _ _ (fset_kept _ _ _ _ _ h))
  unfold bootCtrl
  dsimp only
  repeat' split
  · exact h1
  · exact bootResult_kept _ _ h1
  · exact enrolOwner_kept _ h1
  · exact revokeSlot_kept _ _ h1
  · refine bootResult_kept _ _ (Kept.updFuses h1 ?_)
    simp [FusesKept, keepsBlown_refl]

theorem attestRequest_kept {r₀ : State} (s : State) (hk₀ : Kept r₀ s) :
    Kept r₀ (attestRequest s) := by
  unfold attestRequest
  repeat' first
    | with_reducible assumption
    | with_reducible apply raise_kept
    | split
    | dsimp only
    | fail_if_no_progress with_reducible refine Kept.upd ?_ (by rfl)

theorem execAttestDone_kept {r₀ : State} (s : State) (hk₀ : Kept r₀ s) :
    KeptX r₀ (execAttestDone s) := by
  unfold execAttestDone
  repeat' first
    | with_reducible assumption
    | with_reducible apply KeptX.next
    | with_reducible apply draw_kept
    | split
    | dsimp only
    | fail_if_no_progress with_reducible refine Kept.upd ?_ (by rfl)
    | intro _

end Sys2Proof.Machine
end

