-- ==== Sys2Proof/Laws/KeptStay.lean ====
section
/-! SUPPORT. What the operations of Machine/Stay.lean keep. -/

set_option linter.unusedTactic false
set_option linter.unreachableTactic false

namespace Sys2Proof.Machine

theorem cutPort_kept {r₀ : State} (port cause : Nat) (s : State) (hk₀ : Kept r₀ s) :
    Kept r₀ (cutPort port cause s) := by
  unfold cutPort
  repeat' first
    | with_reducible assumption
    | with_reducible apply putStay_kept
    | with_reducible apply fset_kept
    | with_reducible apply fbump_kept
    | with_reducible apply raise_kept
    | dsimp only
    | fail_if_no_progress with_reducible refine Kept.upd ?_ (by rfl)
    | intro _

theorem execStayLinkUp_kept {r₀ : State} (port : Fin 2) (s : State) (hk₀ : Kept r₀ s) :
    KeptX r₀ (execStayLinkUp port s) := by
  unfold execStayLinkUp
  repeat' first
    | with_reducible assumption
    | with_reducible apply KeptX.next
    | with_reducible apply raise_kept
    | with_reducible apply putStay_kept
    | split
    | dsimp only
    | fail_if_no_progress with_reducible refine Kept.upd ?_ (by rfl)
    | intro _

theorem execStayLinkDown_kept {r₀ : State} (port : Fin 2) (s : State) (hk₀ : Kept r₀ s) :
    KeptX r₀ (execStayLinkDown port s) := by
  unfold execStayLinkDown
  repeat' first
    | with_reducible assumption
    | with_reducible apply KeptX.next
    | with_reducible apply cutPort_kept
    | with_reducible apply raise_kept
    | with_reducible apply putStay_kept
    | split
    | dsimp only
    | fail_if_no_progress with_reducible refine Kept.upd ?_ (by rfl)
    | intro _

theorem execStayCutEnd_kept {r₀ : State} (port : Fin 2) (s : State) (hk₀ : Kept r₀ s) :
    KeptX r₀ (execStayCutEnd port s) := by
  unfold execStayCutEnd
  repeat' first
    | with_reducible assumption
    | with_reducible apply KeptX.next
    | with_reducible apply putStay_kept
    | split
    | dsimp only
    | fail_if_no_progress with_reducible refine Kept.upd ?_ (by rfl)
    | intro _

theorem execHelloSend_kept {r₀ : State} (port : Fin 2) (s : State) (hk₀ : Kept r₀ s) :
    KeptX r₀ (execHelloSend port s) := by
  unfold execHelloSend
  repeat' first
    | with_reducible assumption
    | with_reducible apply KeptX.next
    | with_reducible apply staySendTo_kept
    | split
    | dsimp only
    | intro _

theorem takeHello_kept {r₀ : State} (port : Nat) (d : Bytes) (s : State) (hk₀ : Kept r₀ s) :
    Kept r₀ (takeHello port d s) := by
  unfold takeHello
  repeat' first
    | with_reducible assumption
    | with_reducible apply putStay_kept
    | with_reducible apply raise_kept
    | with_reducible apply unprotect_kept
    | split
    | dsimp only
    | fail_if_no_progress with_reducible refine Kept.upd ?_ (by rfl)

theorem stayAck_kept {r₀ : State} (port : Nat) (ack : BitVec 16) (s : State) (hk₀ : Kept r₀ s) :
    Kept r₀ (stayAck port ack s).1 := by
  unfold stayAck
  repeat' first
    | with_reducible assumption
    | with_reducible apply stayFlow_kept
    | with_reducible apply putStay_kept
    | with_reducible apply cutPort_kept
    | split
    | dsimp only
    | fail_if_no_progress with_reducible refine Kept.upd ?_ (by rfl)

theorem linkTake_kept {r₀ : State} (port : Nat) (f : StayIn) (s : State) (hk₀ : Kept r₀ s) :
    Kept r₀ (linkTake port f s).1 := by
  unfold linkTake
  repeat' first
    | with_reducible assumption
    | with_reducible apply fbump_kept
    | with_reducible apply cutPort_kept
    | with_reducible apply putStay_kept
    | with_reducible apply stayAck_kept
    | split
    | dsimp only
    | fail_if_no_progress with_reducible refine Kept.upd ?_ (by rfl)

theorem relayFrame_kept {r₀ : State} (port : Nat) (f : StayIn) (w : StaySays) (s : State) (hk₀ : Kept r₀ s) :
    Kept r₀ (relayFrame port f w s) := by
  unfold relayFrame
  repeat' first
    | with_reducible assumption
    | with_reducible apply fbump_kept
    | with_reducible apply stayGive_kept
    | split
    | dsimp only
    | fail_if_no_progress with_reducible refine Kept.upd ?_ (by rfl)

theorem secondCopy_kept {r₀ : State} (port : Nat) (f : StayIn) (s : State) (hk₀ : Kept r₀ s) :
    Kept r₀ (secondCopy port f s).1 := by
  unfold secondCopy
  repeat' first
    | with_reducible assumption
    | split
    | dsimp only
    | fail_if_no_progress with_reducible refine Kept.upd ?_ (by rfl)

theorem deliverFrame_kept {r₀ : State} (port : Nat) (type : Nat) (f : StayIn) (w : StaySays) (body : State → State) (s : State) (hbody : ∀ s, Kept r₀ s → Kept r₀ (body s)) (hk₀ : Kept r₀ s) :
    Kept r₀ (deliverFrame port type f w body s) := by
  unfold deliverFrame
  repeat' first
    | with_reducible assumption
    | with_reducible apply relayFrame_kept
    | with_reducible apply secondCopy_kept
    | with_reducible apply hbody
    | split
    | dsimp only

theorem receiveSays_kept {r₀ : State} (port : Nat) (type : Nat) (f : StayIn) (w : StaySays) (body : State → State) (s : State) (hbody : ∀ s, Kept r₀ s → Kept r₀ (body s)) (hk₀ : Kept r₀ s) :
    Kept r₀ (receiveSays port type f w body s) := by
  unfold receiveSays
  repeat' first
    | with_reducible assumption
    | with_reducible apply linkTake_kept
    | with_reducible apply deliverFrame_kept
    | with_reducible apply staySendTo_kept
    | with_reducible apply hbody
    | split
    | dsimp only

theorem receiveStay_kept {r₀ : State} (port : Nat) (type : Nat) (f : StayIn) (body : State → State) (s : State) (hbody : ∀ s, Kept r₀ s → Kept r₀ (body s)) (hk₀ : Kept r₀ s) :
    Kept r₀ (receiveStay port type f body s) := by
  unfold receiveStay
  repeat' first
    | with_reducible assumption
    | with_reducible apply receiveSays_kept
    | with_reducible apply hbody
    | dsimp only

theorem execAck_kept {r₀ : State} (port : Fin 2) (f : StayIn) (s : State) (hk₀ : Kept r₀ s) :
    KeptX r₀ (execAck port f s) := by
  unfold execAck
  repeat' first
    | with_reducible assumption
    | with_reducible apply KeptX.next
    | with_reducible apply receiveStay_kept
    | dsimp only
    | intro _

theorem execHello_kept {r₀ : State} (port : Fin 2) (f : StayIn) (s : State) (hk₀ : Kept r₀ s) :
    KeptX r₀ (execHello port f s) := by
  unfold execHello
  repeat' first
    | with_reducible assumption
    | with_reducible apply KeptX.next
    | with_reducible apply receiveStay_kept
    | with_reducible apply takeHello_kept
    | dsimp only
    | intro _

theorem execStayRetransmit_kept {r₀ : State} (port : Fin 2) (s : State) (hk₀ : Kept r₀ s) :
    KeptX r₀ (execStayRetransmit port s) := by
  unfold execStayRetransmit
  repeat' first
    | with_reducible assumption
    | with_reducible apply KeptX.next
    | with_reducible apply cutPort_kept
    | with_reducible apply raise_kept
    | with_reducible apply putStay_kept
    | with_reducible apply fbump_kept
    | split
    | dsimp only
    | fail_if_no_progress with_reducible refine Kept.upd ?_ (by rfl)
    | intro _

end Sys2Proof.Machine
end

