-- ==== Sys2Proof/Laws/KeptTdm.lean ====
section
/-! SUPPORT. What the operations of Machine/Tdm.lean keep. -/

set_option linter.unusedTactic false
set_option linter.unreachableTactic false

namespace Sys2Proof.Machine

theorem putGroup_kept {r₀ : State} (g : Nat) (x : TdmGroup) (s : State) (hk₀ : Kept r₀ s) :
    Kept r₀ (putGroup g x s) := by
  unfold putGroup
  repeat' first
    | with_reducible assumption
    | dsimp only
    | fail_if_no_progress with_reducible refine Kept.upd ?_ (by rfl)

theorem noteSlip_kept {r₀ : State} (g dir rep : Nat) (s : State) (hk₀ : Kept r₀ s) :
    Kept r₀ (noteSlip g dir rep s) := by
  unfold noteSlip
  repeat' first
    | with_reducible assumption
    | with_reducible apply raiseCounting_kept
    | dsimp only

theorem groupState_kept {r₀ : State} (g : Nat) (st : GroupState) (s : State) (hk₀ : Kept r₀ s) :
    Kept r₀ (groupState g st s) := by
  unfold groupState
  repeat' first
    | with_reducible assumption
    | with_reducible apply putGroup_kept
    | dsimp only
    | fail_if_no_progress with_reducible refine Kept.upd ?_ (by rfl)

theorem recordHeld_kept {r₀ : State} (g : Nat) (tx : List (Nat × Byte)) (s : State) (hk₀ : Kept r₀ s) :
    Kept r₀ (recordHeld g tx s) := by
  unfold recordHeld
  repeat' first
    | with_reducible assumption
    | (with_reducible apply Kept.foldl <;> intros)
    | (with_reducible apply Kept.foldlFst <;> intros)
    | (with_reducible apply Kept.foldlSnd <;> intros)
    | split
    | dsimp only
    | fail_if_no_progress with_reducible refine Kept.upd ?_ (by rfl)
    | intro _

theorem execTdmFrameStart_kept {r₀ : State} (group : Fin 4) (rx tx : List (Nat × Byte)) (s : State) (hk₀ : Kept r₀ s) :
    KeptX r₀ (execTdmFrameStart group rx tx s) := by
  unfold execTdmFrameStart
  repeat' first
    | with_reducible assumption
    | with_reducible apply KeptX.next
    | with_reducible apply recordHeld_kept
    | with_reducible apply putGroup_kept
    | with_reducible apply noteSlip_kept
    | with_reducible apply fbump_kept
    | split
    | dsimp only
    | fail_if_no_progress with_reducible refine Kept.upd ?_ (by rfl)
    | intro _

theorem execTdmFsMisplaced_kept {r₀ : State} (group : Fin 4) (s : State) (hk₀ : Kept r₀ s) :
    KeptX r₀ (execTdmFsMisplaced group s) := by
  unfold execTdmFsMisplaced
  repeat' first
    | with_reducible assumption
    | with_reducible apply KeptX.next
    | with_reducible apply fbump_kept
    | with_reducible apply putGroup_kept
    | split
    | dsimp only
    | fail_if_no_progress with_reducible refine Kept.upd ?_ (by rfl)
    | intro _

theorem execTdmGroupLocked_kept {r₀ : State} (group : Fin 4) (s : State) (hk₀ : Kept r₀ s) :
    KeptX r₀ (execTdmGroupLocked group s) := by
  unfold execTdmGroupLocked
  repeat' first
    | with_reducible assumption
    | with_reducible apply KeptX.next
    | with_reducible apply groupState_kept
    | with_reducible apply raise_kept
    | with_reducible apply putGroup_kept
    | split
    | dsimp only
    | fail_if_no_progress with_reducible refine Kept.upd ?_ (by rfl)
    | intro _

theorem execTdmGroupLost_kept {r₀ : State} (group : Fin 4) (cause : Fin 3) (s : State) (hk₀ : Kept r₀ s) :
    KeptX r₀ (execTdmGroupLost group cause s) := by
  unfold execTdmGroupLost
  repeat' first
    | with_reducible assumption
    | with_reducible apply KeptX.next
    | with_reducible apply groupState_kept
    | with_reducible apply putGroup_kept
    | with_reducible apply raise_kept
    | with_reducible apply fbump_kept
    | split
    | dsimp only
    | fail_if_no_progress with_reducible refine Kept.upd ?_ (by rfl)
    | intro _

theorem execTdmClockReturn_kept {r₀ : State} (group : Fin 4) (s : State) (hk₀ : Kept r₀ s) :
    KeptX r₀ (execTdmClockReturn group s) := by
  unfold execTdmClockReturn
  repeat' first
    | with_reducible assumption
    | with_reducible apply KeptX.next
    | with_reducible apply groupState_kept
    | with_reducible apply putGroup_kept
    | split
    | dsimp only
    | fail_if_no_progress with_reducible refine Kept.upd ?_ (by rfl)
    | intro _

theorem groupControl_kept {r₀ : State} (g was : Nat) (s : State) (hk₀ : Kept r₀ s) :
    Kept r₀ (groupControl g was s) := by
  unfold groupControl
  repeat' first
    | with_reducible assumption
    | with_reducible apply groupState_kept
    | split
    | dsimp only

theorem deliverFrames_kept {r₀ : State} (g : Nat) (s : State) (hk₀ : Kept r₀ s) :
    Kept r₀ (deliverFrames g s).2 := by
  unfold deliverFrames
  repeat' first
    | with_reducible assumption
    | with_reducible apply putGroup_kept
    | with_reducible apply noteSlip_kept
    | with_reducible apply fbump_kept
    | (with_reducible apply Kept.foldl <;> intros)
    | (with_reducible apply Kept.foldlFst <;> intros)
    | (with_reducible apply Kept.foldlSnd <;> intros)
    | split
    | dsimp only
    | fail_if_no_progress with_reducible refine Kept.upd ?_ (by rfl)
    | intro _

theorem receiveGroup_kept {r₀ : State} (g : Nat) (s : State) (hk₀ : Kept r₀ s) :
    Kept r₀ (receiveGroup g s) := by
  unfold receiveGroup
  repeat' first
    | with_reducible assumption
    | with_reducible apply deliverFrames_kept
    | (with_reducible apply Kept.foldl <;> intros)
    | (with_reducible apply Kept.foldlFst <;> intros)
    | (with_reducible apply Kept.foldlSnd <;> intros)
    | split
    | dsimp only
    | fail_if_no_progress with_reducible refine Kept.upd ?_ (by rfl)
    | intro _

theorem missingSlot_kept {r₀ : State} (l p : Nat) (s : State) (hk₀ : Kept r₀ s) :
    Kept r₀ (missingSlot l p s) := by
  unfold missingSlot
  repeat' first
    | with_reducible assumption
    | with_reducible apply fbump_kept
    | with_reducible apply raiseLimited_kept
    | split
    | dsimp only
    | fail_if_no_progress with_reducible refine Kept.upd ?_ (by rfl)

theorem fillMissing_kept {r₀ : State} (g : Nat) (s : State) (hk₀ : Kept r₀ s) :
    Kept r₀ (fillMissing g s) := by
  unfold fillMissing
  repeat' first
    | with_reducible assumption
    | with_reducible apply missingSlot_kept
    | (with_reducible apply Kept.foldl <;> intros)
    | (with_reducible apply Kept.foldlFst <;> intros)
    | (with_reducible apply Kept.foldlSnd <;> intros)
    | split
    | dsimp only
    | fail_if_no_progress with_reducible refine Kept.upd ?_ (by rfl)
    | intro _

theorem transmitGroup_kept {r₀ : State} (g : Nat) (s : State) (hk₀ : Kept r₀ s) :
    Kept r₀ (transmitGroup g s) := by
  unfold transmitGroup
  repeat' first
    | with_reducible assumption
    | with_reducible apply noteSlip_kept
    | with_reducible apply fbump_kept
    | with_reducible apply putGroup_kept
    | with_reducible apply fillMissing_kept
    | split
    | dsimp only
    | fail_if_no_progress with_reducible refine Kept.upd ?_ (by rfl)
    | intro _

theorem tdmSend_kept {r₀ : State} (s : State) (hk₀ : Kept r₀ s) :
    Kept r₀ (tdmSend s) := by
  unfold tdmSend
  repeat' first
    | with_reducible assumption
    | with_reducible apply transmitGroup_kept
    | (with_reducible apply Kept.foldl <;> intros)
    | (with_reducible apply Kept.foldlFst <;> intros)
    | (with_reducible apply Kept.foldlSnd <;> intros)
    | dsimp only
    | fail_if_no_progress with_reducible refine Kept.upd ?_ (by rfl)
    | intro _

theorem tdmReceive_kept {r₀ : State} (s : State) (hk₀ : Kept r₀ s) :
    Kept r₀ (tdmReceive s) := by
  unfold tdmReceive
  repeat' first
    | with_reducible assumption
    | with_reducible apply receiveGroup_kept
    | (with_reducible apply Kept.foldl <;> intros)
    | (with_reducible apply Kept.foldlFst <;> intros)
    | (with_reducible apply Kept.foldlSnd <;> intros)
    | dsimp only
    | fail_if_no_progress with_reducible refine Kept.upd ?_ (by rfl)
    | intro _

theorem missSamples_kept {r₀ : State} (c : Nat) (s : State) (hk₀ : Kept r₀ s) :
    Kept r₀ (missSamples c s) := by
  unfold missSamples
  repeat' first
    | with_reducible assumption
    | split
    | dsimp only
    | fail_if_no_progress with_reducible refine Kept.upd ?_ (by rfl)
    | intro _

theorem execQueueNotice_kept {r₀ : State} (queue : Fin 512) (vc : Fin 4) (s : State) (hk₀ : Kept r₀ s) :
    KeptX r₀ (execQueueNotice queue vc s) := by
  unfold execQueueNotice
  repeat' first
    | with_reducible assumption
    | with_reducible apply KeptX.next
    | with_reducible apply postNotice_kept
    | with_reducible apply missSamples_kept
    | split
    | dsimp only
    | intro _

theorem swapResult_kept {r₀ : State} (r time tick : Nat) (s : State) (hk₀ : Kept r₀ s) :
    Kept r₀ (swapResult r time tick s) := by
  unfold swapResult
  repeat' first
    | with_reducible assumption
    | with_reducible apply raise_kept
    | with_reducible apply fset_kept
    | dsimp only

theorem armSwap_kept {r₀ : State} (s : State) (hk₀ : Kept r₀ s) :
    Kept r₀ (armSwap s) := by
  unfold armSwap
  repeat' first
    | with_reducible assumption
    | with_reducible apply fset_kept
    | with_reducible apply swapResult_kept
    | split
    | dsimp only
    | fail_if_no_progress with_reducible refine Kept.upd ?_ (by rfl)
    | intro _

theorem cancelSwap_kept {r₀ : State} (s : State) (hk₀ : Kept r₀ s) :
    Kept r₀ (cancelSwap s) := by
  unfold cancelSwap
  repeat' first
    | with_reducible assumption
    | with_reducible apply swapResult_kept
    | split
    | dsimp only
    | fail_if_no_progress with_reducible refine Kept.upd ?_ (by rfl)
    | intro _

theorem copyMap_kept {r₀ : State} (s : State) (hk₀ : Kept r₀ s) :
    Kept r₀ (copyMap s) := by
  unfold copyMap
  repeat' first
    | with_reducible assumption
    | with_reducible apply setWord_kept
    | (with_reducible apply Kept.foldl <;> intros)
    | (with_reducible apply Kept.foldlFst <;> intros)
    | (with_reducible apply Kept.foldlSnd <;> intros)
    | dsimp only
    | intro _

theorem moveHolding_kept {r₀ : State} (old : Tab Nat) (s : State) (hk₀ : Kept r₀ s) :
    Kept r₀ (moveHolding old s) := by
  unfold moveHolding
  repeat' first
    | with_reducible assumption
    | split
    | dsimp only
    | fail_if_no_progress with_reducible refine Kept.upd ?_ (by rfl)
    | intro _

theorem keepMap_kept {r₀ : State} (old : Tab Nat) (s : State) (g : Nat) (hk₀ : Kept r₀ s) :
    Kept r₀ (keepMap old s g) := by
  unfold keepMap
  repeat' first
    | with_reducible assumption
    | with_reducible apply putGroup_kept
    | split
    | dsimp only
    | fail_if_no_progress with_reducible refine Kept.upd ?_ (by rfl)

theorem swapNow_kept {r₀ : State} (time : Nat) (s : State) (hk₀ : Kept r₀ s) :
    Kept r₀ (swapNow time s) := by
  unfold swapNow
  repeat' first
    | with_reducible assumption
    | with_reducible apply swapResult_kept
    | with_reducible apply fset_kept
    | with_reducible apply moveHolding_kept
    | with_reducible apply copyMap_kept
    | with_reducible apply keepMap_kept
    | (with_reducible apply Kept.foldl <;> intros)
    | (with_reducible apply Kept.foldlFst <;> intros)
    | (with_reducible apply Kept.foldlSnd <;> intros)
    | split
    | dsimp only
    | fail_if_no_progress with_reducible refine Kept.upd ?_ (by rfl)

theorem execTdmMapSwap_kept {r₀ : State} (s : State) (hk₀ : Kept r₀ s) :
    KeptX r₀ (execTdmMapSwap s) := by
  unfold execTdmMapSwap
  repeat' first
    | with_reducible assumption
    | with_reducible apply KeptX.next
    | with_reducible apply swapNow_kept
    | split
    | dsimp only
    | intro _

theorem tdmRelease_kept {r₀ : State} (s : State) (hk₀ : Kept r₀ s) :
    Kept r₀ (tdmRelease s) := by
  unfold tdmRelease
  repeat' first
    | with_reducible assumption
    | dsimp only
    | fail_if_no_progress with_reducible refine Kept.upd ?_ (by rfl)
    | intro _

theorem tdmGain_kept {r₀ : State} (s : State) (hk₀ : Kept r₀ s) :
    Kept r₀ (tdmGain s) := by
  unfold tdmGain
  repeat' first
    | with_reducible assumption
    | split
    | dsimp only
    | fail_if_no_progress with_reducible refine Kept.upd ?_ (by rfl)
    | intro _

end Sys2Proof.Machine
end

