-- ==== Sys2Proof/Laws/KeptPair.lean ====
section
/-! SUPPORT. What the operations of Machine/Pair.lean keep. -/

set_option linter.unusedTactic false
set_option linter.unreachableTactic false

namespace Sys2Proof.Machine

theorem finishPair_kept {r₀ : State} (seq status eff : Nat) (s : State) (hk₀ : Kept r₀ s) :
    Kept r₀ (finishPair seq status eff s) := by
  unfold finishPair
  repeat' first
    | with_reducible assumption
    | with_reducible apply complete_kept
    | dsimp only

theorem endYield_kept {r₀ : State} (status eff : Nat) (s : State) (hk₀ : Kept r₀ s) :
    Kept r₀ (endYield status eff s) := by
  unfold endYield
  repeat' first
    | with_reducible assumption
    | with_reducible apply timedResult_kept
    | with_reducible apply finishPair_kept
    | (with_reducible apply Kept.foldl <;> intros)
    | (with_reducible apply Kept.foldlFst <;> intros)
    | (with_reducible apply Kept.foldlSnd <;> intros)
    | split
    | dsimp only
    | fail_if_no_progress with_reducible refine Kept.upd ?_ (by rfl)
    | intro _

theorem sleepChannels_kept {r₀ : State} (s : State) (hk₀ : Kept r₀ s) :
    Kept r₀ (sleepChannels s) := by
  unfold sleepChannels
  repeat' first
    | with_reducible assumption
    | split
    | dsimp only
    | fail_if_no_progress with_reducible refine Kept.upd ?_ (by rfl)
    | intro _

theorem loseOwner_kept {r₀ : State} (read : Nat) (s : State) (hk₀ : Kept r₀ s) :
    Kept r₀ (loseOwner read s) := by
  unfold loseOwner
  repeat' first
    | with_reducible assumption
    | with_reducible apply tdmRelease_kept
    | with_reducible apply raise_kept
    | with_reducible apply fbump_kept
    | with_reducible apply unprotect_kept
    | with_reducible apply endYield_kept
    | with_reducible apply sleepChannels_kept
    | split
    | dsimp only
    | fail_if_no_progress with_reducible refine Kept.upd ?_ (by rfl)

theorem announcePort_kept {r₀ : State} (s : State) (port : Nat) (hk₀ : Kept r₀ s) :
    Kept r₀ (announcePort s port) := by
  unfold announcePort
  repeat' first
    | with_reducible assumption
    | with_reducible apply pushMast_kept
    | split
    | dsimp only

theorem takeMirrored_kept {r₀ : State} (s : State) (hk₀ : Kept r₀ s) :
    Kept r₀ (takeMirrored s) := by
  unfold takeMirrored
  repeat' first
    | with_reducible assumption
    | with_reducible apply modPeer_kept
    | (with_reducible apply Kept.foldl <;> intros)
    | (with_reducible apply Kept.foldlFst <;> intros)
    | (with_reducible apply Kept.foldlSnd <;> intros)
    | dsimp only
    | fail_if_no_progress with_reducible refine Kept.upd ?_ (by rfl)
    | intro _

theorem endResyncs_kept {r₀ : State} (s : State) (hk₀ : Kept r₀ s) :
    Kept r₀ (endResyncs s) := by
  unfold endResyncs
  repeat' first
    | with_reducible assumption
    | with_reducible apply fset_kept
    | (with_reducible apply Kept.foldl <;> intros)
    | (with_reducible apply Kept.foldlFst <;> intros)
    | (with_reducible apply Kept.foldlSnd <;> intros)
    | dsimp only
    | fail_if_no_progress with_reducible refine Kept.upd ?_ (by rfl)
    | intro _

theorem gainOwner_kept {r₀ : State} (s : State) (hk₀ : Kept r₀ s) :
    Kept r₀ (gainOwner s) := by
  unfold gainOwner
  repeat' first
    | with_reducible assumption
    | with_reducible apply modChan_kept
    | with_reducible apply tdmGain_kept
    | with_reducible apply raise_kept
    | with_reducible apply fbump_kept
    | with_reducible apply endResyncs_kept
    | with_reducible apply unprotect_kept
    | with_reducible apply peersRestart_kept
    | with_reducible apply takeMirrored_kept
    | with_reducible apply reanchor_kept
    | with_reducible apply announcePort_kept
    | (with_reducible apply Kept.foldl <;> intros)
    | (with_reducible apply Kept.foldlFst <;> intros)
    | (with_reducible apply Kept.foldlSnd <;> intros)
    | split
    | dsimp only
    | fail_if_no_progress with_reducible refine Kept.upd ?_ (by rfl)
    | intro _

theorem execPairOwnerGained_kept {r₀ : State} (s : State) (hk₀ : Kept r₀ s) :
    KeptX r₀ (execPairOwnerGained s) := by
  unfold execPairOwnerGained
  repeat' first
    | with_reducible assumption
    | with_reducible apply KeptX.next
    | with_reducible apply gainOwner_kept
    | split
    | dsimp only
    | intro _

theorem resumeLeg_kept {r₀ : State} (selected : Bool) (l : Nat) (s : State) (n : Nat) (hk₀ : Kept r₀ s) :
    Kept r₀ (resumeLeg selected l s n) := by
  unfold resumeLeg
  repeat' first
    | with_reducible assumption
    | with_reducible apply modLeg_kept
    | split
    | dsimp only
    | fail_if_no_progress with_reducible refine Kept.upd ?_ (by rfl)
    | intro _

theorem resumeChannel_kept {r₀ : State} (selected : Bool) (s : State) (n : Nat) (hk₀ : Kept r₀ s) :
    Kept r₀ (resumeChannel selected s n) := by
  unfold resumeChannel
  repeat' first
    | with_reducible assumption
    | with_reducible apply resumeLeg_kept
    | with_reducible apply draw_kept
    | with_reducible apply modChan_kept
    | split
    | dsimp only
    | fail_if_no_progress with_reducible refine Kept.upd ?_ (by rfl)
    | intro _

theorem resumePeer_kept {r₀ : State} (s : State) (k : Nat) (hk₀ : Kept r₀ s) :
    Kept r₀ (resumePeer s k) := by
  unfold resumePeer
  repeat' first
    | with_reducible assumption
    | with_reducible apply closeInterval_kept
    | with_reducible apply modPeer_kept
    | split
    | dsimp only
    | fail_if_no_progress with_reducible refine Kept.upd ?_ (by rfl)
    | intro _

theorem resumeLate_kept {r₀ : State} (s : State) (hk₀ : Kept r₀ s) :
    Kept r₀ (resumeLate s) := by
  unfold resumeLate
  repeat' first
    | with_reducible assumption
    | with_reducible apply resumeChannel_kept
    | (with_reducible apply Kept.foldl <;> intros)
    | (with_reducible apply Kept.foldlFst <;> intros)
    | (with_reducible apply Kept.foldlSnd <;> intros)
    | split
    | dsimp only
    | fail_if_no_progress with_reducible refine Kept.upd ?_ (by rfl)
    | intro _

theorem resumeChannels_kept {r₀ : State} (s : State) (hk₀ : Kept r₀ s) :
    Kept r₀ (resumeChannels s) := by
  unfold resumeChannels
  repeat' first
    | with_reducible assumption
    | with_reducible apply resumePeer_kept
    | with_reducible apply resumeChannel_kept
    | with_reducible apply resumeLate_kept
    | (with_reducible apply Kept.foldl <;> intros)
    | (with_reducible apply Kept.foldlFst <;> intros)
    | (with_reducible apply Kept.foldlSnd <;> intros)
    | split
    | dsimp only
    | fail_if_no_progress with_reducible refine Kept.upd ?_ (by rfl)
    | intro _

theorem halyardFault_kept {r₀ : State} (cause read : Nat) (s : State) (hk₀ : Kept r₀ s) :
    Kept r₀ (halyardFault cause read s) := by
  unfold halyardFault
  repeat' first
    | with_reducible assumption
    | with_reducible apply raise_kept
    | with_reducible apply fset_kept
    | dsimp only

theorem execChallenge_kept {r₀ : State} (line : HalyardLine) (s : State) (hk₀ : Kept r₀ s) :
    KeptX r₀ (execChallenge line s) := by
  unfold execChallenge
  repeat' first
    | with_reducible assumption
    | with_reducible apply KeptX.next
    | with_reducible apply halyardFault_kept
    | split
    | dsimp only
    | fail_if_no_progress with_reducible refine Kept.upd ?_ (by rfl)
    | intro _

theorem execHalyardStart_kept {r₀ : State} (s : State) (hk₀ : Kept r₀ s) :
    KeptX r₀ (execHalyardStart s) := by
  unfold execHalyardStart
  repeat' first
    | with_reducible assumption
    | with_reducible apply KeptX.next
    | split
    | dsimp only
    | fail_if_no_progress with_reducible refine Kept.upd ?_ (by rfl)
    | intro _

theorem afterLoss_kept {r₀ : State} (read : Nat) (entered : Bool) (s : State) (hk₀ : Kept r₀ s) :
    Kept r₀ (afterLoss read entered s) := by
  unfold afterLoss
  repeat' first
    | with_reducible assumption
    | split
    | dsimp only
    | fail_if_no_progress with_reducible refine Kept.upd ?_ (by rfl)

theorem execHalyardRound_kept {r₀ : State} (others : BitVec 8) (s : State) (hk₀ : Kept r₀ s) :
    KeptX r₀ (execHalyardRound others s) := by
  unfold execHalyardRound
  repeat' first
    | with_reducible assumption
    | with_reducible apply KeptX.next
    | with_reducible apply loseOwner_kept
    | with_reducible apply fset_kept
    | with_reducible apply fbump_kept
    | with_reducible apply raise_kept
    | with_reducible apply halyardFault_kept
    | with_reducible apply afterLoss_kept
    | split
    | dsimp only
    | fail_if_no_progress with_reducible refine Kept.upd ?_ (by rfl)
    | intro _

theorem execHalyardStuckLow_kept {r₀ : State} (s : State) (hk₀ : Kept r₀ s) :
    KeptX r₀ (execHalyardStuckLow s) := by
  unfold execHalyardStuckLow
  repeat' first
    | with_reducible assumption
    | with_reducible apply KeptX.next
    | with_reducible apply halyardFault_kept
    | split
    | dsimp only
    | fail_if_no_progress with_reducible refine Kept.upd ?_ (by rfl)
    | intro _

theorem execListeningEnd_kept {r₀ : State} (s : State) (hk₀ : Kept r₀ s) :
    KeptX r₀ (execListeningEnd s) := by
  unfold execListeningEnd
  repeat' first
    | with_reducible assumption
    | with_reducible apply KeptX.next
    | split
    | dsimp only
    | fail_if_no_progress with_reducible refine Kept.upd ?_ (by rfl)
    | intro _

theorem sendHeartbeat_kept {r₀ : State} (s : State) (hk₀ : Kept r₀ s) :
    Kept r₀ (sendHeartbeat s) := by
  unfold sendHeartbeat
  repeat' first
    | with_reducible assumption
    | with_reducible apply sendPartner_kept
    | with_reducible apply draw_kept
    | with_reducible apply putStay_kept
    | (with_reducible apply Kept.foldl <;> intros)
    | (with_reducible apply Kept.foldlFst <;> intros)
    | (with_reducible apply Kept.foldlSnd <;> intros)
    | split
    | dsimp only
    | fail_if_no_progress with_reducible refine Kept.upd ?_ (by rfl)
    | intro _

theorem followSync_kept {r₀ : State} (sync : Nat) (active : Bool) (s : State) (hk₀ : Kept r₀ s) :
    Kept r₀ (followSync sync active s) := by
  unfold followSync
  repeat' first
    | with_reducible assumption
    | with_reducible apply unprotect_kept
    | split
    | dsimp only
    | fail_if_no_progress with_reducible refine Kept.upd ?_ (by rfl)

theorem takeHeartbeat_kept {r₀ : State} (port : Nat) (f : StayIn) (s : State) (hk₀ : Kept r₀ s) :
    Kept r₀ (takeHeartbeat port f s) := by
  unfold takeHeartbeat
  repeat' first
    | with_reducible assumption
    | with_reducible apply putStay_kept
    | with_reducible apply draw_kept
    | with_reducible apply fset_kept
    | with_reducible apply raise_kept
    | with_reducible apply followSync_kept
    | with_reducible apply unprotect_kept
    | split
    | dsimp only
    | fail_if_no_progress with_reducible refine Kept.upd ?_ (by rfl)

theorem execHeartbeat_kept {r₀ : State} (port : Fin 2) (f : StayIn) (s : State) (hk₀ : Kept r₀ s) :
    KeptX r₀ (execHeartbeat port f s) := by
  unfold execHeartbeat
  repeat' first
    | with_reducible assumption
    | with_reducible apply KeptX.next
    | with_reducible apply receiveStay_kept
    | with_reducible apply takeHeartbeat_kept
    | dsimp only
    | intro _

theorem execPairHeartbeatLost_kept {r₀ : State} (s : State) (hk₀ : Kept r₀ s) :
    KeptX r₀ (execPairHeartbeatLost s) := by
  unfold execPairHeartbeatLost
  repeat' first
    | with_reducible assumption
    | with_reducible apply KeptX.next
    | with_reducible apply unprotect_kept
    | with_reducible apply raise_kept
    | split
    | dsimp only
    | fail_if_no_progress with_reducible refine Kept.upd ?_ (by rfl)
    | intro _

theorem execYield_kept {r₀ : State} (port : Fin 2) (f : StayIn) (s : State) (hk₀ : Kept r₀ s) :
    KeptX r₀ (execYield port f s) := by
  unfold execYield
  repeat' first
    | with_reducible assumption
    | with_reducible apply KeptX.next
    | with_reducible apply receiveStay_kept
    | dsimp only
    | fail_if_no_progress with_reducible refine Kept.upd ?_ (by rfl)
    | intro _

theorem watchPair_kept {r₀ : State} (s : State) (hk₀ : Kept r₀ s) :
    Kept r₀ (watchPair s) := by
  unfold watchPair
  repeat' first
    | with_reducible assumption
    | with_reducible apply unprotect_kept
    | split
    | dsimp only

theorem ownUnpaired_kept {r₀ : State} (s : State) (hk₀ : Kept r₀ s) :
    Kept r₀ (ownUnpaired s) := by
  unfold ownUnpaired
  repeat' first
    | with_reducible assumption
    | with_reducible apply tdmGain_kept
    | split
    | dsimp only
    | fail_if_no_progress with_reducible refine Kept.upd ?_ (by rfl)

theorem yieldOwner_kept {r₀ : State} (s : State) (hk₀ : Kept r₀ s) :
    Kept r₀ (yieldOwner s) := by
  unfold yieldOwner
  repeat' first
    | with_reducible assumption
    | with_reducible apply sendPartner_kept
    | dsimp only
    | fail_if_no_progress with_reducible refine Kept.upd ?_ (by rfl)

theorem yieldFor_kept {r₀ : State} (seq : Nat) (timed : Bool) (s : State) (hk₀ : Kept r₀ s) :
    Kept r₀ (yieldFor seq timed s) := by
  unfold yieldFor
  repeat' first
    | with_reducible assumption
    | with_reducible apply yieldOwner_kept
    | split
    | dsimp only
    | fail_if_no_progress with_reducible refine Kept.upd ?_ (by rfl)

theorem execPairYieldFailed_kept {r₀ : State} (s : State) (hk₀ : Kept r₀ s) :
    KeptX r₀ (execPairYieldFailed s) := by
  unfold execPairYieldFailed
  repeat' first
    | with_reducible assumption
    | with_reducible apply KeptX.next
    | with_reducible apply raise_kept
    | with_reducible apply endYield_kept
    | split
    | dsimp only
    | intro _

theorem pairSwitch_kept {r₀ : State} (c : Cmd) (s : State) (hk₀ : Kept r₀ s) :
    KeptO r₀ (pairSwitch c s) := by
  unfold pairSwitch
  repeat' first
    | with_reducible assumption
    | with_reducible apply KeptO.some
    | with_reducible exact KeptO.none
    | with_reducible apply finishPair_kept
    | with_reducible apply armCommand_kept
    | with_reducible apply yieldFor_kept
    | split
    | dsimp only

theorem switchAction_kept {r₀ : State} (seq : Nat) (s : State) (hk₀ : Kept r₀ s) :
    Kept r₀ (switchAction seq s) := by
  unfold switchAction
  repeat' first
    | with_reducible assumption
    | with_reducible apply timedResult_kept
    | with_reducible apply yieldFor_kept
    | split
    | dsimp only

theorem pairHold_kept {r₀ : State} (c : Cmd) (s : State) (hk₀ : Kept r₀ s) :
    KeptO r₀ (pairHold c s) := by
  unfold pairHold
  repeat' first
    | with_reducible assumption
    | with_reducible apply KeptO.some
    | with_reducible exact KeptO.none
    | with_reducible apply finishPair_kept
    | split
    | dsimp only
    | fail_if_no_progress with_reducible refine Kept.upd ?_ (by rfl)

theorem startSync_kept {r₀ : State} (s : State) (hk₀ : Kept r₀ s) :
    Kept r₀ (startSync s) := by
  unfold startSync
  repeat' first
    | with_reducible assumption
    | with_reducible apply unprotect_kept
    | with_reducible apply draw_kept
    | with_reducible apply sayPartner_kept
    | split
    | dsimp only
    | fail_if_no_progress with_reducible refine Kept.upd ?_ (by rfl)

theorem execBulkSyncStart_kept {r₀ : State} (s : State) (hk₀ : Kept r₀ s) :
    KeptX r₀ (execBulkSyncStart s) := by
  unfold execBulkSyncStart
  repeat' first
    | with_reducible assumption
    | with_reducible apply KeptX.next
    | with_reducible apply startSync_kept
    | dsimp only
    | intro _

theorem pairResync_kept {r₀ : State} (c : Cmd) (s : State) (hk₀ : Kept r₀ s) :
    KeptO r₀ (pairResync c s) := by
  unfold pairResync
  repeat' first
    | with_reducible assumption
    | with_reducible apply KeptO.some
    | with_reducible exact KeptO.none
    | with_reducible apply finishPair_kept
    | with_reducible apply startSync_kept
    | with_reducible apply unprotect_kept
    | split
    | dsimp only

theorem pairQuery_kept {r₀ : State} (c : Cmd) (s : State) (hk₀ : Kept r₀ s) :
    KeptO r₀ (pairQuery c s) := by
  unfold pairQuery
  repeat' first
    | with_reducible assumption
    | with_reducible apply KeptO.some
    | with_reducible exact KeptO.none
    | with_reducible apply finishPair_kept
    | split
    | dsimp only

theorem execPairSwitch_kept {r₀ : State} (s : State) (hk₀ : Kept r₀ s) :
    KeptX r₀ (execPairSwitch s) := by
  unfold execPairSwitch
  repeat' first
    | with_reducible assumption
    | with_reducible apply KeptX.next
    | with_reducible apply runCmd_kept
    | with_reducible apply pairSwitch_kept
    | dsimp only
    | intro _

theorem execPairHold_kept {r₀ : State} (s : State) (hk₀ : Kept r₀ s) :
    KeptX r₀ (execPairHold s) := by
  unfold execPairHold
  repeat' first
    | with_reducible assumption
    | with_reducible apply KeptX.next
    | with_reducible apply runCmd_kept
    | with_reducible apply pairHold_kept
    | dsimp only
    | intro _

theorem execPairResync_kept {r₀ : State} (s : State) (hk₀ : Kept r₀ s) :
    KeptX r₀ (execPairResync s) := by
  unfold execPairResync
  repeat' first
    | with_reducible assumption
    | with_reducible apply KeptX.next
    | with_reducible apply runCmd_kept
    | with_reducible apply pairResync_kept
    | dsimp only
    | intro _

theorem execPairQuery_kept {r₀ : State} (s : State) (hk₀ : Kept r₀ s) :
    KeptX r₀ (execPairQuery s) := by
  unfold execPairQuery
  repeat' first
    | with_reducible assumption
    | with_reducible apply KeptX.next
    | with_reducible apply runCmd_kept
    | with_reducible apply pairQuery_kept
    | dsimp only
    | intro _

end Sys2Proof.Machine
end

