-- ==== Sys2Proof/Laws/KeptAgeing.lean ====
section
/-! SUPPORT. What the operations of Machine/Ageing.lean keep. -/

set_option linter.unusedTactic false
set_option linter.unreachableTactic false

namespace Sys2Proof.Machine

theorem takeSample_kept {r₀ : State} (t : Nat) (m d : Int) (s : State) (hk₀ : Kept r₀ s) :
    Kept r₀ (takeSample t m d s) := by
  unfold takeSample
  repeat' first
    | with_reducible assumption
    | with_reducible apply setWord_kept
    | with_reducible apply fset_kept
    | with_reducible apply raise_kept
    | split
    | dsimp only
    | fail_if_no_progress with_reducible refine Kept.upd ?_ (by rfl)

theorem sampleTelltale_kept {r₀ : State} (m d : Int) (s : State) (hk₀ : Kept r₀ s) :
    Kept r₀ (sampleTelltale m d s) := by
  unfold sampleTelltale
  repeat' first
    | with_reducible assumption
    | with_reducible apply takeSample_kept
    | split
    | dsimp only
    | fail_if_no_progress with_reducible refine Kept.upd ?_ (by rfl)
    | intro _

theorem takeTemperature_kept {r₀ : State} (c : Int) (s : State) (hk₀ : Kept r₀ s) :
    Kept r₀ (takeTemperature c s) := by
  unfold takeTemperature
  repeat' first
    | with_reducible assumption
    | with_reducible apply raise_kept
    | with_reducible apply askReef_kept
    | split
    | dsimp only
    | fail_if_no_progress with_reducible refine Kept.upd ?_ (by rfl)

theorem watchSupply_kept {r₀ : State} (s : State) (hk₀ : Kept r₀ s) :
    Kept r₀ (watchSupply s) := by
  unfold watchSupply
  repeat' first
    | with_reducible assumption
    | with_reducible apply askReef_kept
    | split
    | dsimp only
    | fail_if_no_progress with_reducible refine Kept.upd ?_ (by rfl)

theorem execHourEnd_kept {r₀ : State} (s : State) (hk₀ : Kept r₀ s) :
    KeptX r₀ (execHourEnd s) := by
  unfold execHourEnd
  repeat' first
    | with_reducible assumption
    | with_reducible apply KeptX.next
    | split
    | dsimp only
    | fail_if_no_progress with_reducible refine Kept.upd ?_ (by rfl)
    | intro _

theorem finishAge_kept {r₀ : State} (seq status eff : Nat) (s : State) (hk₀ : Kept r₀ s) :
    Kept r₀ (finishAge seq status eff s) := by
  unfold finishAge
  repeat' first
    | with_reducible assumption
    | with_reducible apply complete_kept
    | dsimp only

theorem addPoint_kept {r₀ : State} (s : State) (p : Nat × Int) (hk₀ : Kept r₀ s) :
    Kept r₀ (addPoint s p) := by
  unfold addPoint
  repeat' first
    | with_reducible assumption
    | dsimp only
    | fail_if_no_progress with_reducible refine Kept.upd ?_ (by rfl)

theorem shiftPoints_kept {r₀ : State} (i : Nat) (d : Int) (s : State) (hk₀ : Kept r₀ s) :
    Kept r₀ (shiftPoints i d s) := by
  unfold shiftPoints
  repeat' first
    | with_reducible assumption
    | dsimp only
    | fail_if_no_progress with_reducible refine Kept.upd ?_ (by rfl)

theorem forecast_kept {r₀ : State} (s : State) (hk₀ : Kept r₀ s) :
    Kept r₀ (forecast s) := by
  unfold forecast
  repeat' first
    | with_reducible assumption
    | with_reducible apply fset_kept
    | (with_reducible apply Kept.foldl <;> intros)
    | (with_reducible apply Kept.foldlFst <;> intros)
    | (with_reducible apply Kept.foldlSnd <;> intros)
    | split
    | dsimp only
    | intro _

theorem forecastLow_kept {r₀ : State} (s : State) (hk₀ : Kept r₀ s) :
    Kept r₀ (forecastLow s) := by
  unfold forecastLow
  repeat' first
    | with_reducible assumption
    | with_reducible apply raise_kept
    | (with_reducible apply Kept.foldl <;> intros)
    | (with_reducible apply Kept.foldlFst <;> intros)
    | (with_reducible apply Kept.foldlSnd <;> intros)
    | split
    | dsimp only
    | intro _

theorem storeAgeRecord_kept {r₀ : State} (s : State) (hk₀ : Kept r₀ s) :
    Kept r₀ (storeAgeRecord s) := by
  unfold storeAgeRecord
  repeat' first
    | with_reducible assumption
    | with_reducible apply setWord_kept
    | (with_reducible apply Kept.foldl <;> intros)
    | (with_reducible apply Kept.foldlFst <;> intros)
    | (with_reducible apply Kept.foldlSnd <;> intros)
    | dsimp only
    | intro _

theorem raiseVid_kept {r₀ : State} (s : State) (hk₀ : Kept r₀ s) :
    Kept r₀ (raiseVid s) := by
  unfold raiseVid
  repeat' first
    | with_reducible assumption
    | with_reducible apply raise_kept
    | with_reducible apply setVid_kept
    | dsimp only

theorem planLeave_kept {r₀ : State} (lane n : Nat) (s : State) (hk₀ : Kept r₀ s) :
    Kept r₀ (planLeave lane n s) := by
  unfold planLeave
  repeat' first
    | with_reducible assumption
    | with_reducible apply forcePark_kept
    | with_reducible apply startMove_kept
    | split
    | dsimp only
    | fail_if_no_progress with_reducible refine Kept.upd ?_ (by rfl)
    | intro _

theorem planRelieve_kept {r₀ : State} (p : StepSt) (s : State) (lane : Nat) (hk₀ : Kept r₀ s) :
    Kept r₀ (planRelieve p s lane) := by
  unfold planRelieve
  repeat' first
    | with_reducible assumption
    | with_reducible apply planLeave_kept
    | (with_reducible apply Kept.foldl <;> intros)
    | (with_reducible apply Kept.foldlFst <;> intros)
    | (with_reducible apply Kept.foldlSnd <;> intros)
    | split
    | dsimp only
    | intro _

theorem stepsDone_kept {r₀ : State} (p : StepSt) (s : State) (hk₀ : Kept r₀ s) :
    Kept r₀ (stepsDone p s) := by
  unfold stepsDone
  repeat' first
    | with_reducible assumption
    | with_reducible apply fbump_kept
    | (with_reducible apply Kept.foldl <;> intros)
    | (with_reducible apply Kept.foldlFst <;> intros)
    | (with_reducible apply Kept.foldlSnd <;> intros)
    | split
    | dsimp only
    | fail_if_no_progress with_reducible refine Kept.upd ?_ (by rfl)
    | intro _

theorem advanceSteps_kept {r₀ : State} (s : State) (hk₀ : Kept r₀ s) :
    Kept r₀ (advanceSteps s) := by
  unfold advanceSteps
  repeat' first
    | with_reducible assumption
    | with_reducible apply stepsDone_kept
    | with_reducible apply planRelieve_kept
    | with_reducible apply requestClock_kept
    | (with_reducible apply Kept.foldl <;> intros)
    | (with_reducible apply Kept.foldlFst <;> intros)
    | (with_reducible apply Kept.foldlSnd <;> intros)
    | split
    | dsimp only
    | fail_if_no_progress with_reducible refine Kept.upd ?_ (by rfl)
    | intro _

theorem beginRun_kept {r₀ : State} (exit_ cmd : Option Nat) (s : State) (hk₀ : Kept r₀ s) :
    Kept r₀ (beginRun exit_ cmd s) := by
  unfold beginRun
  repeat' first
    | with_reducible assumption
    | split
    | dsimp only
    | fail_if_no_progress with_reducible refine Kept.upd ?_ (by rfl)

theorem exitDecision_kept {r₀ : State} (seq : Nat) (s : State) (hk₀ : Kept r₀ s) :
    Kept r₀ (exitDecision seq s) := by
  unfold exitDecision
  repeat' first
    | with_reducible assumption
    | with_reducible apply finishAge_kept
    | split
    | dsimp only
    | fail_if_no_progress with_reducible refine Kept.upd ?_ (by rfl)
    | intro _

theorem endRun_kept {r₀ : State} (r : RunSt) (s : State) (hk₀ : Kept r₀ s) :
    Kept r₀ (endRun r s) := by
  unfold endRun
  repeat' first
    | with_reducible assumption
    | with_reducible apply forecast_kept
    | with_reducible apply addPoint_kept
    | with_reducible apply fbump_kept
    | with_reducible apply exitDecision_kept
    | with_reducible apply raise_kept
    | with_reducible apply storeAgeRecord_kept
    | with_reducible apply forecastLow_kept
    | with_reducible apply finishAge_kept
    | (with_reducible apply Kept.foldl <;> intros)
    | (with_reducible apply Kept.foldlFst <;> intros)
    | (with_reducible apply Kept.foldlSnd <;> intros)
    | split
    | dsimp only
    | fail_if_no_progress with_reducible refine Kept.upd ?_ (by rfl)
    | intro _
    | dsimp only [id_eq]

theorem measureChange_kept {r₀ : State} (r : RunSt) (s : State) (hk₀ : Kept r₀ s) :
    Kept r₀ (measureChange r s).2 := by
  unfold measureChange
  repeat' first
    | with_reducible assumption
    | with_reducible apply shiftPoints_kept
    | (with_reducible apply Kept.foldl <;> intros)
    | (with_reducible apply Kept.foldlFst <;> intros)
    | (with_reducible apply Kept.foldlSnd <;> intros)
    | split
    | dsimp only
    | fail_if_no_progress with_reducible refine Kept.upd ?_ (by rfl)
    | intro _

theorem decideRun_kept {r₀ : State} (r : RunSt) (s : State) (hk₀ : Kept r₀ s) :
    Kept r₀ (decideRun r s) := by
  unfold decideRun
  repeat' first
    | with_reducible assumption
    | with_reducible apply raiseVid_kept
    | with_reducible apply raise_kept
    | with_reducible apply endRun_kept
    | with_reducible apply askReef_kept
    | (with_reducible apply Kept.foldl <;> intros)
    | (with_reducible apply Kept.foldlFst <;> intros)
    | (with_reducible apply Kept.foldlSnd <;> intros)
    | split
    | dsimp only
    | fail_if_no_progress with_reducible refine Kept.upd ?_ (by rfl)
    | intro _

theorem runStep_kept {r₀ : State} (s : State) (hk₀ : Kept r₀ s) :
    Kept r₀ (runStep s) := by
  unfold runStep
  repeat' first
    | with_reducible assumption
    | with_reducible apply endRun_kept
    | with_reducible apply measureChange_kept
    | with_reducible apply decideRun_kept
    | split
    | dsimp only
    | fail_if_no_progress with_reducible refine Kept.upd ?_ (by rfl)
    | intro _

theorem execPlannerRun_kept {r₀ : State} (s : State) (hk₀ : Kept r₀ s) :
    KeptX r₀ (execPlannerRun s) := by
  unfold execPlannerRun
  repeat' first
    | with_reducible assumption
    | with_reducible apply KeptX.next
    | with_reducible apply advanceSteps_kept
    | with_reducible apply runStep_kept
    | split
    | dsimp only
    | intro _

theorem startDue_kept {r₀ : State} (s : State) (hk₀ : Kept r₀ s) :
    Kept r₀ (startDue s) := by
  unfold startDue
  repeat' first
    | with_reducible assumption
    | with_reducible apply beginRun_kept
    | split
    | dsimp only

theorem planRun_kept {r₀ : State} (c : Cmd) (s : State) (hk₀ : Kept r₀ s) :
    KeptO r₀ (planRun c s) := by
  unfold planRun
  repeat' first
    | with_reducible assumption
    | with_reducible apply KeptO.some
    | with_reducible exact KeptO.none
    | with_reducible apply finishAge_kept
    | with_reducible apply armCommand_kept
    | with_reducible apply beginRun_kept
    | split
    | dsimp only

theorem planAction_kept {r₀ : State} (seq : Nat) (s : State) (hk₀ : Kept r₀ s) :
    Kept r₀ (planAction seq s) := by
  unfold planAction
  repeat' first
    | with_reducible assumption
    | with_reducible apply timedResult_kept
    | with_reducible apply beginRun_kept
    | split
    | dsimp only

theorem planRecordSet_kept {r₀ : State} (c : Cmd) (s : State) (hk₀ : Kept r₀ s) :
    KeptO r₀ (planRecordSet c s) := by
  unfold planRecordSet
  repeat' first
    | with_reducible assumption
    | with_reducible apply KeptO.some
    | with_reducible exact KeptO.none
    | with_reducible apply finishAge_kept
    | with_reducible apply raise_kept
    | with_reducible apply storeAgeRecord_kept
    | split
    | dsimp only
    | fail_if_no_progress with_reducible refine Kept.upd ?_ (by rfl)
    | intro _

theorem followRecord_kept {r₀ : State} (s : State) (hk₀ : Kept r₀ s) :
    Kept r₀ (followRecord s) := by
  unfold followRecord
  repeat' first
    | with_reducible assumption
    | with_reducible apply raiseVid_kept
    | split
    | dsimp only
    | fail_if_no_progress with_reducible refine Kept.upd ?_ (by rfl)
    | intro _

theorem parkAtOnce_kept {r₀ : State} (n : Nat) (s : State) (hk₀ : Kept r₀ s) :
    Kept r₀ (parkAtOnce n s) := by
  unfold parkAtOnce
  repeat' first
    | with_reducible assumption
    | with_reducible apply parkNow_kept
    | with_reducible apply modChan_kept
    | dsimp only
    | fail_if_no_progress with_reducible refine Kept.upd ?_ (by rfl)
    | intro _

theorem refuseAdmissions_kept {r₀ : State} (every : Bool) (s : State) (hk₀ : Kept r₀ s) :
    Kept r₀ (refuseAdmissions every s) := by
  unfold refuseAdmissions
  repeat' first
    | with_reducible assumption
    | with_reducible apply finish_kept
    | with_reducible apply addEffect_kept
    | (with_reducible apply Kept.foldl <;> intros)
    | (with_reducible apply Kept.foldlFst <;> intros)
    | (with_reducible apply Kept.foldlSnd <;> intros)
    | split
    | dsimp only
    | fail_if_no_progress with_reducible refine Kept.upd ?_ (by rfl)
    | intro _

theorem reefKept_kept {r₀ : State} (rc : Option Nat) (n : Nat) (s : State) (hk₀ : Kept r₀ s) :
    Kept r₀ (reefKept rc n s) := by
  unfold reefKept
  repeat' first
    | with_reducible assumption
    | with_reducible apply forcePark_kept
    | with_reducible apply abandonMove_kept
    | with_reducible apply startMove_kept
    | split
    | dsimp only
    | fail_if_no_progress with_reducible refine Kept.upd ?_ (by rfl)
    | intro _

theorem reefChannel_kept {r₀ : State} (rc : Option Nat) (s : State) (n : Nat) (hk₀ : Kept r₀ s) :
    Kept r₀ (reefChannel rc s n) := by
  unfold reefChannel
  repeat' first
    | with_reducible assumption
    | with_reducible apply reefKept_kept
    | with_reducible apply fitWindows_kept
    | with_reducible apply keepCheckpoints_kept
    | with_reducible apply parkAtOnce_kept
    | split
    | dsimp only

theorem reefRun_kept {r₀ : State} (s : State) (hk₀ : Kept r₀ s) :
    Kept r₀ (reefRun s) := by
  unfold reefRun
  repeat' first
    | with_reducible assumption
    | with_reducible apply endRun_kept
    | split
    | dsimp only
    | fail_if_no_progress with_reducible refine Kept.upd ?_ (by rfl)
    | intro _

theorem reefSettled_kept {r₀ : State} (s : State) (hk₀ : Kept r₀ s) :
    Kept r₀ (reefSettled s) := by
  unfold reefSettled
  repeat' first
    | with_reducible assumption
    | with_reducible apply fset_kept
    | with_reducible apply raise_kept
    | split
    | dsimp only
    | fail_if_no_progress with_reducible refine Kept.upd ?_ (by rfl)

theorem reefEntry_kept {r₀ : State} (s : State) (hk₀ : Kept r₀ s) :
    Kept r₀ (reefEntry s) := by
  unfold reefEntry
  repeat' first
    | with_reducible assumption
    | with_reducible apply rigAbort_kept
    | with_reducible apply reefRun_kept
    | with_reducible apply fset_kept
    | with_reducible apply fbump_kept
    | with_reducible apply refuseAdmissions_kept
    | with_reducible apply reefChannel_kept
    | with_reducible apply noteIbi_kept
    | with_reducible apply reefHoldover_kept
    | with_reducible apply peersReef_kept
    | with_reducible apply reefSettled_kept
    | with_reducible apply finishAge_kept
    | (with_reducible apply Kept.foldl <;> intros)
    | (with_reducible apply Kept.foldlFst <;> intros)
    | (with_reducible apply Kept.foldlSnd <;> intros)
    | dsimp only
    | fail_if_no_progress with_reducible refine Kept.upd ?_ (by rfl)
    | intro _

theorem execReefEntry_kept {r₀ : State} (s : State) (hk₀ : Kept r₀ s) :
    KeptX r₀ (execReefEntry s) := by
  unfold execReefEntry
  repeat' first
    | with_reducible assumption
    | with_reducible apply KeptX.next
    | with_reducible apply reefEntry_kept
    | split
    | dsimp only
    | intro _

theorem reefEnter_kept {r₀ : State} (c : Cmd) (s : State) (hk₀ : Kept r₀ s) :
    KeptO r₀ (reefEnter c s) := by
  unfold reefEnter
  repeat' first
    | with_reducible assumption
    | with_reducible apply KeptO.some
    | with_reducible exact KeptO.none
    | with_reducible apply finishAge_kept
    | with_reducible apply askReef_kept
    | split
    | dsimp only
    | fail_if_no_progress with_reducible refine Kept.upd ?_ (by rfl)

theorem reefExit_kept {r₀ : State} (c : Cmd) (s : State) (hk₀ : Kept r₀ s) :
    KeptO r₀ (reefExit c s) := by
  unfold reefExit
  repeat' first
    | with_reducible assumption
    | with_reducible apply KeptO.some
    | with_reducible exact KeptO.none
    | with_reducible apply finishAge_kept
    | with_reducible apply switchClock_kept
    | with_reducible apply beginRun_kept
    | (with_reducible apply Kept.foldl <;> intros)
    | (with_reducible apply Kept.foldlFst <;> intros)
    | (with_reducible apply Kept.foldlSnd <;> intros)
    | split
    | dsimp only
    | fail_if_no_progress with_reducible refine Kept.upd ?_ (by rfl)
    | intro _

theorem restartLane_kept {r₀ : State} (s : State) (l : Nat) (hk₀ : Kept r₀ s) :
    Kept r₀ (restartLane s l) := by
  unfold restartLane
  repeat' first
    | with_reducible assumption
    | with_reducible apply clearRange_kept
    | with_reducible apply putLane_kept
    | split
    | dsimp only
    | fail_if_no_progress with_reducible refine Kept.upd ?_ (by rfl)

theorem leaveReef_kept {r₀ : State} (s : State) (hk₀ : Kept r₀ s) :
    Kept r₀ (leaveReef s) := by
  unfold leaveReef
  repeat' first
    | with_reducible assumption
    | with_reducible apply finishAge_kept
    | with_reducible apply restartLane_kept
    | with_reducible apply noteIbi_kept
    | with_reducible apply reefRelease_kept
    | with_reducible apply peersRestart_kept
    | with_reducible apply raise_kept
    | (with_reducible apply Kept.foldl <;> intros)
    | (with_reducible apply Kept.foldlFst <;> intros)
    | (with_reducible apply Kept.foldlSnd <;> intros)
    | split
    | dsimp only
    | fail_if_no_progress with_reducible refine Kept.upd ?_ (by rfl)
    | intro _

theorem wakeOnly_kept {r₀ : State} (c : Cmd) (s : State) (hk₀ : Kept r₀ s) :
    KeptO r₀ (wakeOnly c s) := by
  unfold wakeOnly
  repeat' first
    | with_reducible assumption
    | with_reducible apply KeptO.some
    | with_reducible exact KeptO.none
    | with_reducible apply finishAge_kept
    | split
    | dsimp only
    | fail_if_no_progress with_reducible refine Kept.upd ?_ (by rfl)

theorem wakeRelease_kept {r₀ : State} (s : State) (hk₀ : Kept r₀ s) :
    Kept r₀ (wakeRelease s) := by
  unfold wakeRelease
  repeat' first
    | with_reducible assumption
    | with_reducible apply tdmRelease_kept
    | with_reducible apply loseOwner_kept
    | split
    | dsimp only
    | fail_if_no_progress with_reducible refine Kept.upd ?_ (by rfl)

theorem abandonRun_kept {r₀ : State} (s : State) (hk₀ : Kept r₀ s) :
    Kept r₀ (abandonRun s) := by
  unfold abandonRun
  repeat' first
    | with_reducible assumption
    | with_reducible apply finishAge_kept
    | (with_reducible apply Kept.foldl <;> intros)
    | (with_reducible apply Kept.foldlFst <;> intros)
    | (with_reducible apply Kept.foldlSnd <;> intros)
    | split
    | dsimp only
    | fail_if_no_progress with_reducible refine Kept.upd ?_ (by rfl)
    | intro _

theorem wakeBoundary_kept {r₀ : State} (s : State) (hk₀ : Kept r₀ s) :
    Kept r₀ (wakeBoundary s) := by
  unfold wakeBoundary
  repeat' first
    | with_reducible assumption
    | with_reducible apply refuseAdmissions_kept
    | with_reducible apply parkAtOnce_kept
    | with_reducible apply rigAbort_kept
    | with_reducible apply wakeRelease_kept
    | with_reducible apply abandonRun_kept
    | with_reducible apply raise_kept
    | with_reducible apply finishAge_kept
    | (with_reducible apply Kept.foldl <;> intros)
    | (with_reducible apply Kept.foldlFst <;> intros)
    | (with_reducible apply Kept.foldlSnd <;> intros)
    | split
    | dsimp only
    | fail_if_no_progress with_reducible refine Kept.upd ?_ (by rfl)
    | intro _

theorem enterWake_kept {r₀ : State} (cause : Nat) (s : State) (hk₀ : Kept r₀ s) :
    Kept r₀ (enterWake cause s) := by
  unfold enterWake
  repeat' first
    | with_reducible assumption
    | with_reducible apply resetDevice_kept
    | with_reducible apply setWord_kept
    | with_reducible apply setVid_kept
    | (with_reducible apply Kept.foldl <;> intros)
    | (with_reducible apply Kept.foldlFst <;> intros)
    | (with_reducible apply Kept.foldlSnd <;> intros)
    | dsimp only
    | fail_if_no_progress with_reducible refine Kept.upd ?_ (by rfl)
    | intro _

theorem execWakeOnlyEnter_kept {r₀ : State} (s : State) (hk₀ : Kept r₀ s) :
    KeptX r₀ (execWakeOnlyEnter s) := by
  unfold execWakeOnlyEnter
  repeat' first
    | with_reducible assumption
    | with_reducible apply KeptX.next
    | with_reducible apply enterWake_kept
    | split
    | dsimp only
    | intro _

theorem execWakeOnlyExit_kept {r₀ : State} (match_ : Bool) (bootSel : BitVec 2) (s : State) (hk₀ : Kept r₀ s) :
    KeptX r₀ (execWakeOnlyExit match_ bootSel s) := by
  unfold execWakeOnlyExit
  repeat' first
    | with_reducible assumption
    | with_reducible apply KeptX.next
    | with_reducible apply startBoot_kept
    | with_reducible apply resetDevice_kept
    | split
    | dsimp only
    | intro _

theorem execPlanRun_kept {r₀ : State} (s : State) (hk₀ : Kept r₀ s) :
    KeptX r₀ (execPlanRun s) := by
  unfold execPlanRun
  repeat' first
    | with_reducible assumption
    | with_reducible apply KeptX.next
    | with_reducible apply runCmd_kept
    | with_reducible apply planRun_kept
    | dsimp only
    | intro _

theorem execPlanRecordSet_kept {r₀ : State} (s : State) (hk₀ : Kept r₀ s) :
    KeptX r₀ (execPlanRecordSet s) := by
  unfold execPlanRecordSet
  repeat' first
    | with_reducible assumption
    | with_reducible apply KeptX.next
    | with_reducible apply runCmd_kept
    | with_reducible apply planRecordSet_kept
    | dsimp only
    | intro _

theorem execReefEnter_kept {r₀ : State} (s : State) (hk₀ : Kept r₀ s) :
    KeptX r₀ (execReefEnter s) := by
  unfold execReefEnter
  repeat' first
    | with_reducible assumption
    | with_reducible apply KeptX.next
    | with_reducible apply runCmd_kept
    | with_reducible apply reefEnter_kept
    | dsimp only
    | intro _

theorem execReefExit_kept {r₀ : State} (s : State) (hk₀ : Kept r₀ s) :
    KeptX r₀ (execReefExit s) := by
  unfold execReefExit
  repeat' first
    | with_reducible assumption
    | with_reducible apply KeptX.next
    | with_reducible apply runCmd_kept
    | with_reducible apply reefExit_kept
    | dsimp only
    | intro _

theorem execWakeOnly_kept {r₀ : State} (s : State) (hk₀ : Kept r₀ s) :
    KeptX r₀ (execWakeOnly s) := by
  unfold execWakeOnly
  repeat' first
    | with_reducible assumption
    | with_reducible apply KeptX.next
    | with_reducible apply runCmd_kept
    | with_reducible apply wakeOnly_kept
    | dsimp only
    | intro _

theorem ageBegins_kept {r₀ : State} (s : State) (hk₀ : Kept r₀ s) :
    Kept r₀ (ageBegins s) := by
  unfold ageBegins
  repeat' first
    | with_reducible assumption
    | with_reducible apply leaveReef_kept
    | with_reducible apply wakeBoundary_kept
    | with_reducible apply startDue_kept
    | with_reducible apply followRecord_kept
    | split
    | dsimp only
    | fail_if_no_progress with_reducible refine Kept.upd ?_ (by rfl)

theorem ageSamples_kept {r₀ : State} (temp : BitVec 8) (margin drift : BitVec 16) (s : State) (hk₀ : Kept r₀ s) :
    Kept r₀ (ageSamples temp margin drift s) := by
  unfold ageSamples
  repeat' first
    | with_reducible assumption
    | with_reducible apply watchSupply_kept
    | with_reducible apply takeTemperature_kept
    | with_reducible apply sampleTelltale_kept
    | dsimp only

end Sys2Proof.Machine
end

