-- ==== Sys2Proof/Laws/KeptClassify.lean ====
section
/-! SUPPORT. What the operations of Machine/Classify.lean keep. -/

set_option linter.unusedTactic false
set_option linter.unreachableTactic false

namespace Sys2Proof.Machine

theorem legPacket_kept {r₀ : State} (h : Nat) (rtcp : Bool) (data : Bytes) (s : State) (hk₀ : Kept r₀ s) :
    Kept r₀ (legPacket h rtcp data s) := by
  unfold legPacket
  repeat' first
    | with_reducible assumption
    | with_reducible apply parkedDrop_kept
    | with_reducible apply rtcpPacket_kept
    | with_reducible apply rtpPacket_kept
    | split
    | dsimp only
    | intro _

theorem sessionFrame_kept {r₀ : State} (port : Nat) (f : Bytes) (u : Bool × Bytes × Bytes × Nat × Nat × Bytes) (s : State) (hk₀ : Kept r₀ s) :
    Kept r₀ (sessionFrame port f u s) := by
  unfold sessionFrame
  repeat' first
    | with_reducible assumption
    | with_reducible apply lookup_kept
    | with_reducible apply legPacket_kept
    | with_reducible apply fbump_kept
    | split
    | dsimp only
    | intro _

theorem classify_kept {r₀ : State} (port : Nat) (f : Bytes) (s : State) (hk₀ : Kept r₀ s) :
    Kept r₀ (classify port f s) := by
  unfold classify
  repeat' first
    | with_reducible assumption
    | with_reducible apply receiveBundle_kept
    | with_reducible apply raiseLimited_kept
    | with_reducible apply fbump_kept
    | with_reducible apply sessionFrame_kept
    | split
    | dsimp only
    | intro _

theorem execClassifyFrame_kept {r₀ : State} (port : Fin 2) (s : State) (hk₀ : Kept r₀ s) :
    KeptX r₀ (execClassifyFrame port s) := by
  unfold execClassifyFrame
  repeat' first
    | with_reducible assumption
    | with_reducible apply KeptX.next
    | with_reducible apply classify_kept
    | with_reducible apply takeRx_kept
    | split
    | dsimp only
    | fail_if_no_progress with_reducible refine Kept.upd ?_ (by rfl)
    | intro _

end Sys2Proof.Machine
end

