-- ==== Sys2Proof/Laws/KeptErrors.lean ====
section
/-! SUPPORT. What the operations of Machine/Errors.lean keep. -/

set_option linter.unusedTactic false
set_option linter.unreachableTactic false

namespace Sys2Proof.Machine

theorem cutMastPushes_kept {r₀ : State} (s : State) (hk₀ : Kept r₀ s) :
    Kept r₀ (cutMastPushes s) := by
  unfold cutMastPushes
  repeat' first
    | with_reducible assumption
    | with_reducible apply abandonPush_kept
    | (with_reducible apply Kept.foldl <;> intros)
    | (with_reducible apply Kept.foldlFst <;> intros)
    | (with_reducible apply Kept.foldlSnd <;> intros)
    | dsimp only
    | intro _

theorem resetMast_kept {r₀ : State} (by_ : Nat) (s : State) (hk₀ : Kept r₀ s) :
    Kept r₀ (resetMast by_ s) := by
  unfold resetMast
  repeat' first
    | with_reducible assumption
    | with_reducible apply cutMastPushes_kept
    | with_reducible apply rigAbort_kept
    | with_reducible apply fbump_kept
    | with_reducible apply noteIbi_kept
    | with_reducible apply fset_kept
    | with_reducible apply fatal_kept
    | split
    | dsimp only
    | fail_if_no_progress with_reducible refine Kept.upd ?_ (by rfl)
    | intro _

theorem execMastWatchdog_kept {r₀ : State} (s : State) (hk₀ : Kept r₀ s) :
    KeptX r₀ (execMastWatchdog s) := by
  unfold execMastWatchdog
  repeat' first
    | with_reducible assumption
    | with_reducible apply KeptX.next
    | with_reducible apply resetMast_kept
    | with_reducible apply raise_kept
    | split
    | dsimp only
    | intro _

theorem execMastMemUe_kept {r₀ : State} (word : MastWord) (s : State) (hk₀ : Kept r₀ s) :
    KeptX r₀ (execMastMemUe word s) := by
  unfold execMastMemUe
  repeat' first
    | with_reducible assumption
    | with_reducible apply KeptX.next
    | with_reducible apply resetMast_kept
    | with_reducible apply raise_kept
    | with_reducible apply fbump_kept
    | split
    | dsimp only
    | fail_if_no_progress with_reducible refine Kept.upd ?_ (by rfl)
    | intro _

theorem unissue_kept {r₀ : State} (seq : Nat) (s : State) (hk₀ : Kept r₀ s) :
    Kept r₀ (unissue seq s) := by
  unfold unissue
  repeat' first
    | with_reducible assumption
    | with_reducible apply modChan_kept
    | with_reducible apply setEntries_kept
    | (with_reducible apply Kept.foldl <;> intros)
    | (with_reducible apply Kept.foldlFst <;> intros)
    | (with_reducible apply Kept.foldlSnd <;> intros)
    | split
    | dsimp only
    | fail_if_no_progress with_reducible refine Kept.upd ?_ (by rfl)
    | intro _

theorem dropJournal_kept {r₀ : State} (bad : List Nat) (s : State) (hk₀ : Kept r₀ s) :
    Kept r₀ (dropJournal bad s) := by
  unfold dropJournal
  repeat' first
    | with_reducible assumption
    | with_reducible apply unissue_kept
    | (with_reducible apply Kept.foldl <;> intros)
    | (with_reducible apply Kept.foldlFst <;> intros)
    | (with_reducible apply Kept.foldlSnd <;> intros)
    | split
    | dsimp only
    | fail_if_no_progress with_reducible refine Kept.upd ?_ (by rfl)
    | intro _

theorem lateLoad_kept {r₀ : State} (s : State) (hk₀ : Kept r₀ s) :
    Kept r₀ (lateLoad s) := by
  unfold lateLoad
  repeat' first
    | with_reducible assumption
    | with_reducible apply raise_kept
    | split
    | dsimp only
    | fail_if_no_progress with_reducible refine Kept.upd ?_ (by rfl)
    | intro _

theorem execMastRestart_kept {r₀ : State} (s : State) (hk₀ : Kept r₀ s) :
    KeptX r₀ (execMastRestart s) := by
  unfold execMastRestart
  repeat' first
    | with_reducible assumption
    | with_reducible apply KeptX.next
    | with_reducible apply lateLoad_kept
    | with_reducible apply dropJournal_kept
    | with_reducible apply ptpFollow_kept
    | with_reducible apply postReady_kept
    | with_reducible apply refuseReserved_kept
    | with_reducible apply raise_kept
    | with_reducible apply fbump_kept
    | with_reducible apply unissue_kept
    | split
    | dsimp only
    | fail_if_no_progress with_reducible refine Kept.upd ?_ (by rfl)
    | intro _

theorem poisonRange_kept {r₀ : State} (a n : Nat) (s : State) (hk₀ : Kept r₀ s) :
    Kept r₀ (poisonRange a n s) := by
  unfold poisonRange
  repeat' first
    | with_reducible assumption
    | (with_reducible apply Kept.foldl <;> intros)
    | (with_reducible apply Kept.foldlFst <;> intros)
    | (with_reducible apply Kept.foldlSnd <;> intros)
    | dsimp only
    | fail_if_no_progress with_reducible refine Kept.upd ?_ (by rfl)
    | intro _

theorem transferLost_kept {r₀ : State} (use_ : DmaUse) (s : State) (hk₀ : Kept r₀ s) :
    Kept r₀ (transferLost use_ s) := by
  unfold transferLost
  repeat' first
    | with_reducible assumption
    | with_reducible apply forcePark_kept
    | with_reducible apply modChan_kept
    | split
    | dsimp only
    | fail_if_no_progress with_reducible refine Kept.upd ?_ (by rfl)
    | intro _

theorem transferRefused_kept {r₀ : State} (use_ : DmaUse) (s : State) (hk₀ : Kept r₀ s) :
    Kept r₀ (transferRefused use_ s) := by
  unfold transferRefused
  repeat' first
    | with_reducible assumption
    | with_reducible apply transferLost_kept
    | split
    | dsimp only
    | intro _

theorem badTransfer_kept {r₀ : State} (master src : Nat) (dst : Option Nat) (n : Nat) (use_ : DmaUse) (s : State) (hk₀ : Kept r₀ s) :
    Kept r₀ (badTransfer master src dst n use_ s) := by
  unfold badTransfer
  repeat' first
    | with_reducible assumption
    | with_reducible apply memoryUe_kept
    | with_reducible apply poisonRange_kept
    | with_reducible apply storeBytes_kept
    | with_reducible apply transferLost_kept
    | with_reducible apply transferDropped_kept
    | (with_reducible apply Kept.foldl <;> intros)
    | (with_reducible apply Kept.foldlFst <;> intros)
    | (with_reducible apply Kept.foldlSnd <;> intros)
    | split
    | dsimp only
    | intro _

theorem contextCopied_kept {r₀ : State} (use_ : DmaUse) (s : State) (hk₀ : Kept r₀ s) :
    Kept r₀ (contextCopied use_ s) := by
  unfold contextCopied
  repeat' first
    | with_reducible assumption
    | with_reducible apply modChan_kept
    | split
    | dsimp only
    | fail_if_no_progress with_reducible refine Kept.upd ?_ (by rfl)
    | intro _

theorem dmaEnds_kept {r₀ : State} (master status : Nat) (s : State) (hk₀ : Kept r₀ s) :
    Kept r₀ (dmaEnds master status s) := by
  unfold dmaEnds
  repeat' first
    | with_reducible assumption
    | dsimp only
    | fail_if_no_progress with_reducible refine Kept.upd ?_ (by rfl)

theorem dmaServed_kept {r₀ : State} (master status : Nat) (s : State) (hk₀ : Kept r₀ s) :
    Kept r₀ (dmaServed master status s) := by
  unfold dmaServed
  repeat' first
    | with_reducible assumption
    | with_reducible apply dmaEnds_kept
    | dsimp only
    | fail_if_no_progress with_reducible refine Kept.upd ?_ (by rfl)

theorem refuseDma_kept {r₀ : State} (master n : Nat) (use_ : DmaUse) (r : Nat × Nat × Bool) (s : State) (hk₀ : Kept r₀ s) :
    Kept r₀ (refuseDma master n use_ r s) := by
  unfold refuseDma
  repeat' first
    | with_reducible assumption
    | with_reducible apply dmaEnds_kept
    | with_reducible apply transferRefused_kept
    | with_reducible apply recordDenial_kept
    | dsimp only

theorem execTransferUe_kept {r₀ : State} (master : Fin 16) (source : BitVec 36) (dest : TransferEnd) (len bad : BitVec 24) (s : State) (hk₀ : Kept r₀ s) :
    KeptX r₀ (execTransferUe master source dest len bad s) := by
  unfold execTransferUe
  repeat' first
    | with_reducible assumption
    | with_reducible apply KeptX.next
    | with_reducible apply refuseDma_kept
    | with_reducible apply dmaServed_kept
    | with_reducible apply badTransfer_kept
    | with_reducible apply transferLost_kept
    | with_reducible apply recordDenial_kept
    | split
    | dsimp only
    | fail_if_no_progress with_reducible refine Kept.upd ?_ (by rfl)
    | intro _

theorem execCellarDmaDone_kept {r₀ : State} (master : Fin 16) (source dest : BitVec 36) (len : BitVec 24) (work : DmaWork) (s : State) (hk₀ : Kept r₀ s) :
    KeptX r₀ (execCellarDmaDone master source dest len work s) := by
  unfold execCellarDmaDone
  repeat' first
    | with_reducible assumption
    | with_reducible apply KeptX.next
    | with_reducible apply refuseDma_kept
    | with_reducible apply dmaServed_kept
    | with_reducible apply badTransfer_kept
    | with_reducible apply contextCopied_kept
    | with_reducible apply storeBytes_kept
    | with_reducible apply wordsFixed_kept
    | split
    | dsimp only
    | intro _

theorem execCelScrubRead_kept {r₀ : State} (check : BitVec 2) (s : State) (hk₀ : Kept r₀ s) :
    KeptX r₀ (execCelScrubRead check s) := by
  unfold execCelScrubRead
  repeat' first
    | with_reducible assumption
    | with_reducible apply KeptX.next
    | with_reducible apply fbump_kept
    | with_reducible apply fset_kept
    | with_reducible apply ueMet_kept
    | with_reducible apply raise_kept
    | with_reducible apply raiseCounting_kept
    | with_reducible apply corrected_kept
    | split
    | dsimp only
    | fail_if_no_progress with_reducible refine Kept.upd ?_ (by rfl)
    | intro _

theorem execCelCaRetry_kept {r₀ : State} (master : Fin 16) (writeCrc : Bool) (s : State) (hk₀ : Kept r₀ s) :
    KeptX r₀ (execCelCaRetry master writeCrc s) := by
  unfold execCelCaRetry
  repeat' first
    | with_reducible assumption
    | with_reducible apply KeptX.next
    | with_reducible apply fbump_kept
    | with_reducible apply raise_kept
    | with_reducible apply fset_kept
    | split
    | dsimp only
    | fail_if_no_progress with_reducible refine Kept.upd ?_ (by rfl)
    | intro _

theorem execCelRetrainDone_kept {r₀ : State} (passed : Bool) (s : State) (hk₀ : Kept r₀ s) :
    KeptX r₀ (execCelRetrainDone passed s) := by
  unfold execCelRetrainDone
  repeat' first
    | with_reducible assumption
    | with_reducible apply KeptX.next
    | with_reducible apply raise_kept
    | with_reducible apply fset_kept
    | with_reducible apply fbump_kept
    | with_reducible apply fatal_kept
    | split
    | dsimp only
    | fail_if_no_progress with_reducible refine Kept.upd ?_ (by rfl)
    | intro _

theorem logRecord_kept {r₀ : State} (r : Bytes) (s : State) (hk₀ : Kept r₀ s) :
    Kept r₀ (logRecord r s) := by
  unfold logRecord
  repeat' first
    | with_reducible assumption
    | with_reducible apply storeBytes_kept
    | with_reducible apply fset_kept
    | with_reducible apply fbump_kept
    | split
    | dsimp only

theorem queueRecord_kept {r₀ : State} (r : Bytes) (s : State) (hk₀ : Kept r₀ s) :
    Kept r₀ (queueRecord r s) := by
  unfold queueRecord
  repeat' first
    | with_reducible assumption
    | with_reducible apply fbump_kept
    | split
    | dsimp only
    | fail_if_no_progress with_reducible refine Kept.upd ?_ (by rfl)

theorem sendCollector_kept {r₀ : State} (r : Bytes) (s : State) (hk₀ : Kept r₀ s) :
    Kept r₀ (sendCollector r s) := by
  unfold sendCollector
  repeat' first
    | with_reducible assumption
    | with_reducible apply draw_kept
    | with_reducible apply pushSvc_kept
    | split
    | dsimp only

theorem execEventPost_kept {r₀ : State} (s : State) (hk₀ : Kept r₀ s) :
    KeptX r₀ (execEventPost s) := by
  unfold execEventPost
  repeat' first
    | with_reducible assumption
    | with_reducible apply KeptX.next
    | with_reducible apply logRecord_kept
    | with_reducible apply sendCollector_kept
    | with_reducible apply queueRecord_kept
    | with_reducible apply raise_kept
    | with_reducible apply noteIbi_kept
    | split
    | dsimp only
    | fail_if_no_progress with_reducible refine Kept.upd ?_ (by rfl)
    | intro _

end Sys2Proof.Machine
end

