-- ==== Sys2Proof/Laws/KeptLaneTick.lean ====
section
/-! SUPPORT. What the operations of Machine/LaneTick.lean keep. -/

set_option linter.unusedTactic false
set_option linter.unreachableTactic false

namespace Sys2Proof.Machine

theorem startTick_kept {r₀ : State} (l : Nat) (s : State) (hk₀ : Kept r₀ s) :
    Kept r₀ (startTick l s) := by
  unfold startTick
  repeat' first
    | with_reducible assumption
    | with_reducible apply storeBytes_kept
    | with_reducible apply putLane_kept
    | dsimp only
    | fail_if_no_progress with_reducible refine Kept.upd ?_ (by rfl)
    | intro _

theorem laneBoundary_kept {r₀ : State} (s : State) (l : Nat) (hk₀ : Kept r₀ s) :
    Kept r₀ (laneBoundary s l) := by
  unfold laneBoundary
  repeat' first
    | with_reducible assumption
    | with_reducible apply startTick_kept
    | with_reducible apply raise_kept
    | with_reducible apply fbump_kept
    | with_reducible apply putLane_kept
    | with_reducible apply laneFault_kept
    | split
    | dsimp only
    | fail_if_no_progress with_reducible refine Kept.upd ?_ (by rfl)
    | intro _

theorem endTick_kept {r₀ : State} (l : Nat) (s : State) (hk₀ : Kept r₀ s) :
    Kept r₀ (endTick l s) := by
  unfold endTick
  repeat' first
    | with_reducible assumption
    | with_reducible apply putArea_kept
    | with_reducible apply putLane_kept
    | with_reducible apply startTick_kept
    | (with_reducible apply Kept.foldl <;> intros)
    | (with_reducible apply Kept.foldlFst <;> intros)
    | (with_reducible apply Kept.foldlSnd <;> intros)
    | split
    | dsimp only
    | fail_if_no_progress with_reducible refine Kept.upd ?_ (by rfl)
    | intro _

theorem restartFaulted_kept {r₀ : State} (l : Nat) (s : State) (hk₀ : Kept r₀ s) :
    Kept r₀ (restartFaulted l s) := by
  unfold restartFaulted
  repeat' first
    | with_reducible assumption
    | with_reducible apply clearRange_kept
    | with_reducible apply setWord_kept
    | with_reducible apply putLane_kept
    | split
    | dsimp only
    | fail_if_no_progress with_reducible refine Kept.upd ?_ (by rfl)

end Sys2Proof.Machine
end

