-- ==== Sys2Proof/Laws/KeptPower.lean ====
section
/-! SUPPORT. What the operations of Machine/Power.lean keep. -/

set_option linter.unusedTactic false
set_option linter.unreachableTactic false

namespace Sys2Proof.Machine

theorem noteSupply_kept {r₀ : State} (rail : Nat) (bad : Bool) (s : State) (hk₀ : Kept r₀ s) :
    Kept r₀ (noteSupply rail bad s) := by
  unfold noteSupply
  repeat' first
    | with_reducible assumption
    | with_reducible apply noteIbi_kept
    | with_reducible apply showSupply_kept
    | split
    | dsimp only
    | fail_if_no_progress with_reducible refine Kept.upd ?_ (by rfl)

theorem noteVolts_kept {r₀ : State} (rail uv : Nat) (s : State) (hk₀ : Kept r₀ s) :
    Kept r₀ (noteVolts rail uv s) := by
  unfold noteVolts
  repeat' first
    | with_reducible assumption
    | dsimp only
    | fail_if_no_progress with_reducible refine Kept.upd ?_ (by rfl)

theorem execSupplyOutOfRange_kept {r₀ : State} (report : RailReport) (s : State) (hk₀ : Kept r₀ s) :
    KeptX r₀ (execSupplyOutOfRange report s) := by
  unfold execSupplyOutOfRange
  repeat' first
    | with_reducible assumption
    | with_reducible apply KeptX.next
    | with_reducible apply noteSupply_kept
    | with_reducible apply fset_kept
    | with_reducible apply fbump_kept
    | with_reducible apply noteVolts_kept
    | split
    | dsimp only
    | intro _

theorem execSupplyInRange_kept {r₀ : State} (report : RailReport) (s : State) (hk₀ : Kept r₀ s) :
    KeptX r₀ (execSupplyInRange report s) := by
  unfold execSupplyInRange
  repeat' first
    | with_reducible assumption
    | with_reducible apply KeptX.next
    | with_reducible apply noteSupply_kept
    | with_reducible apply fset_kept
    | with_reducible apply noteVolts_kept
    | split
    | dsimp only
    | intro _

theorem execSequenceViolation_kept {r₀ : State} (rail : Fin 11) (s : State) (hk₀ : Kept r₀ s) :
    KeptX r₀ (execSequenceViolation rail s) := by
  unfold execSequenceViolation
  repeat' first
    | with_reducible assumption
    | with_reducible apply KeptX.next
    | with_reducible apply fset_kept
    | split
    | dsimp only
    | intro _

theorem stayLockLost_kept {r₀ : State} (port : Nat) (s : State) (hk₀ : Kept r₀ s) :
    Kept r₀ (stayLockLost port s) := by
  unfold stayLockLost
  repeat' first
    | with_reducible assumption
    | with_reducible apply cutPort_kept
    | with_reducible apply raise_kept
    | with_reducible apply putStay_kept
    | split
    | dsimp only
    | fail_if_no_progress with_reducible refine Kept.upd ?_ (by rfl)

theorem execRefclkLoss_kept {r₀ : State} (s : State) (hk₀ : Kept r₀ s) :
    KeptX r₀ (execRefclkLoss s) := by
  unfold execRefclkLoss
  repeat' first
    | with_reducible assumption
    | with_reducible apply KeptX.next
    | with_reducible apply fset_kept
    | with_reducible apply fbump_kept
    | with_reducible apply stayLockLost_kept
    | with_reducible apply ptpFollow_kept
    | with_reducible apply linkDown_kept
    | split
    | dsimp only
    | intro _

theorem execRefclkReturn_kept {r₀ : State} (s : State) (hk₀ : Kept r₀ s) :
    KeptX r₀ (execRefclkReturn s) := by
  unfold execRefclkReturn
  repeat' first
    | with_reducible assumption
    | with_reducible apply KeptX.next
    | with_reducible apply fset_kept
    | dsimp only
    | intro _

end Sys2Proof.Machine
end

