-- ==== Sys2Proof/Laws/KeptRegisters.lean ====
section
/-! SUPPORT. What the operations of Machine/Registers.lean keep. -/

set_option linter.unusedTactic false
set_option linter.unreachableTactic false

namespace Sys2Proof.Machine

theorem clearRc_kept {r₀ : State} (a : Nat) (s : State) (hk₀ : Kept r₀ s) :
    Kept r₀ (clearRc a s) := by
  unfold clearRc
  repeat' first
    | with_reducible assumption
    | with_reducible apply setWord_kept
    | (with_reducible apply Kept.foldl <;> intros)
    | (with_reducible apply Kept.foldlFst <;> intros)
    | (with_reducible apply Kept.foldlSnd <;> intros)
    | split
    | dsimp only
    | intro _

theorem readReg_kept {r₀ : State} (m a : Nat) (s : State) (hk₀ : Kept r₀ s) :
    Kept r₀ (readReg m a s).2 := by
  unfold readReg
  repeat' first
    | with_reducible assumption
    | with_reducible apply clearRc_kept
    | split
    | dsimp only
    | fail_if_no_progress with_reducible refine Kept.upd ?_ (by rfl)

theorem rigControl_kept {r₀ : State} (w : Nat) (s : State) (hk₀ : Kept r₀ s) :
    Kept r₀ (rigControl w s) := by
  unfold rigControl
  repeat' first
    | with_reducible assumption
    | with_reducible apply fset_kept
    | with_reducible apply commitRollback_kept
    | with_reducible apply rigAbort_kept
    | with_reducible apply rigStart_kept
    | split
    | dsimp only

theorem swapControl_kept {r₀ : State} (w : Nat) (s : State) (hk₀ : Kept r₀ s) :
    Kept r₀ (swapControl w s) := by
  unfold swapControl
  repeat' first
    | with_reducible assumption
    | with_reducible apply fset_kept
    | with_reducible apply cancelSwap_kept
    | with_reducible apply armSwap_kept
    | split
    | dsimp only

theorem afterWrite_kept {r₀ : State} (r : RegId) (i old w : Nat) (s : State) (hk₀ : Kept r₀ s) :
    Kept r₀ (afterWrite r i old w s) := by
  unfold afterWrite
  repeat' first
    | with_reducible assumption
    | with_reducible apply peerControl_kept
    | with_reducible apply dicTurn_kept
    | with_reducible apply ptpFollow_kept
    | with_reducible apply restartPort_kept
    | with_reducible apply applyGates_kept
    | with_reducible apply fset_kept
    | with_reducible apply startMdio_kept
    | with_reducible apply groupControl_kept
    | with_reducible apply swapControl_kept
    | with_reducible apply capture_kept
    | with_reducible apply servoCtrl_kept
    | with_reducible apply setRate_kept
    | with_reducible apply gatesAfterStep_kept
    | with_reducible apply servoCmd_kept
    | with_reducible apply hostSample_kept
    | with_reducible apply ptpCtrl_kept
    | with_reducible apply requestClock_kept
    | with_reducible apply rigControl_kept
    | with_reducible apply takeImage_kept
    | with_reducible apply bootCtrl_kept
    | with_reducible apply attestRequest_kept
    | with_reducible apply restartFaulted_kept
    | with_reducible apply stayLockLost_kept
    | with_reducible apply noteIbi_kept
    | split
    | dsimp only
    | intro _

theorem writeReg_kept {r₀ : State} (a w : Nat) (s : State) (hk₀ : Kept r₀ s) :
    Kept r₀ (writeReg a w s) := by
  unfold writeReg
  repeat' first
    | with_reducible assumption
    | with_reducible apply reservedEvent_kept
    | with_reducible apply afterWrite_kept
    | with_reducible apply plainWrite_kept
    | split
    | dsimp only
    | intro _

theorem writeBy_kept {r₀ : State} (m a w : Nat) (s : State) (hk₀ : Kept r₀ s) :
    Kept r₀ (writeBy m a w s) := by
  unfold writeBy
  repeat' first
    | with_reducible assumption
    | with_reducible apply writeReg_kept
    | with_reducible apply recordDenial_kept
    | split
    | dsimp only

theorem writeTo_kept {r₀ : State} (m : Nat) (r : RegId) (i : Nat) (w : Word) (s : State) (hk₀ : Kept r₀ s) :
    KeptX r₀ (writeTo m r i w s) := by
  unfold writeTo
  repeat' first
    | with_reducible assumption
    | with_reducible apply KeptX.next
    | with_reducible apply writeBy_kept
    | dsimp only
    | intro _

theorem execPeerEnable_kept {r₀ : State} (master : Fin 16) (peer : Fin 64) (value : Word) (s : State) (hk₀ : Kept r₀ s) :
    KeptX r₀ (execPeerEnable master peer value s) := by
  unfold execPeerEnable
  repeat' first
    | with_reducible assumption
    | with_reducible apply KeptX.next
    | with_reducible apply writeTo_kept
    | dsimp only
    | intro _

theorem execDicCmdTurn_kept {r₀ : State} (master : Fin 16) (value : Word) (s : State) (hk₀ : Kept r₀ s) :
    KeptX r₀ (execDicCmdTurn master value s) := by
  unfold execDicCmdTurn
  repeat' first
    | with_reducible assumption
    | with_reducible apply KeptX.next
    | with_reducible apply writeTo_kept
    | dsimp only
    | intro _

theorem execPortRestart_kept {r₀ : State} (master : Fin 16) (port : Fin 2) (value : Word) (s : State) (hk₀ : Kept r₀ s) :
    KeptX r₀ (execPortRestart master port value s) := by
  unfold execPortRestart
  repeat' first
    | with_reducible assumption
    | with_reducible apply KeptX.next
    | with_reducible apply writeTo_kept
    | dsimp only
    | intro _

theorem execGateApply_kept {r₀ : State} (master : Fin 16) (port : Fin 2) (value : Word) (s : State) (hk₀ : Kept r₀ s) :
    KeptX r₀ (execGateApply master port value s) := by
  unfold execGateApply
  repeat' first
    | with_reducible assumption
    | with_reducible apply KeptX.next
    | with_reducible apply writeTo_kept
    | dsimp only
    | intro _

theorem execMdioStart_kept {r₀ : State} (master : Fin 16) (value : Word) (s : State) (hk₀ : Kept r₀ s) :
    KeptX r₀ (execMdioStart master value s) := by
  unfold execMdioStart
  repeat' first
    | with_reducible assumption
    | with_reducible apply KeptX.next
    | with_reducible apply writeTo_kept
    | dsimp only
    | intro _

theorem execTdmGroupCtrlWrite_kept {r₀ : State} (master : Fin 16) (group : Fin 4) (value : Word) (s : State) (hk₀ : Kept r₀ s) :
    KeptX r₀ (execTdmGroupCtrlWrite master group value s) := by
  unfold execTdmGroupCtrlWrite
  repeat' first
    | with_reducible assumption
    | with_reducible apply KeptX.next
    | with_reducible apply writeTo_kept
    | dsimp only
    | intro _

theorem execMapSwapArm_kept {r₀ : State} (master : Fin 16) (value : Word) (s : State) (hk₀ : Kept r₀ s) :
    KeptX r₀ (execMapSwapArm master value s) := by
  unfold execMapSwapArm
  repeat' first
    | with_reducible assumption
    | with_reducible apply KeptX.next
    | with_reducible apply writeTo_kept
    | dsimp only
    | intro _

theorem execMapSwapCancel_kept {r₀ : State} (master : Fin 16) (value : Word) (s : State) (hk₀ : Kept r₀ s) :
    KeptX r₀ (execMapSwapCancel master value s) := by
  unfold execMapSwapCancel
  repeat' first
    | with_reducible assumption
    | with_reducible apply KeptX.next
    | with_reducible apply writeTo_kept
    | dsimp only
    | intro _

theorem execTimeCapture_kept {r₀ : State} (master : Fin 16) (value : Word) (s : State) (hk₀ : Kept r₀ s) :
    KeptX r₀ (execTimeCapture master value s) := by
  unfold execTimeCapture
  repeat' first
    | with_reducible assumption
    | with_reducible apply KeptX.next
    | with_reducible apply writeTo_kept
    | dsimp only
    | intro _

theorem execTimeStep_kept {r₀ : State} (master : Fin 16) (value : Word) (s : State) (hk₀ : Kept r₀ s) :
    KeptX r₀ (execTimeStep master value s) := by
  unfold execTimeStep
  repeat' first
    | with_reducible assumption
    | with_reducible apply KeptX.next
    | with_reducible apply writeTo_kept
    | dsimp only
    | intro _

theorem execTimeAccept_kept {r₀ : State} (master : Fin 16) (value : Word) (s : State) (hk₀ : Kept r₀ s) :
    KeptX r₀ (execTimeAccept master value s) := by
  unfold execTimeAccept
  repeat' first
    | with_reducible assumption
    | with_reducible apply KeptX.next
    | with_reducible apply writeTo_kept
    | dsimp only
    | intro _

theorem execServoHold_kept {r₀ : State} (master : Fin 16) (value : Word) (s : State) (hk₀ : Kept r₀ s) :
    KeptX r₀ (execServoHold master value s) := by
  unfold execServoHold
  repeat' first
    | with_reducible assumption
    | with_reducible apply KeptX.next
    | with_reducible apply writeTo_kept
    | dsimp only
    | intro _

theorem execServoResume_kept {r₀ : State} (master : Fin 16) (value : Word) (s : State) (hk₀ : Kept r₀ s) :
    KeptX r₀ (execServoResume master value s) := by
  unfold execServoResume
  repeat' first
    | with_reducible assumption
    | with_reducible apply KeptX.next
    | with_reducible apply writeTo_kept
    | dsimp only
    | intro _

theorem execServoCtrlWrite_kept {r₀ : State} (master : Fin 16) (value : Word) (s : State) (hk₀ : Kept r₀ s) :
    KeptX r₀ (execServoCtrlWrite master value s) := by
  unfold execServoCtrlWrite
  repeat' first
    | with_reducible assumption
    | with_reducible apply KeptX.next
    | with_reducible apply writeTo_kept
    | dsimp only
    | intro _

theorem execTimRateWrite_kept {r₀ : State} (master : Fin 16) (value : Word) (s : State) (hk₀ : Kept r₀ s) :
    KeptX r₀ (execTimRateWrite master value s) := by
  unfold execTimRateWrite
  repeat' first
    | with_reducible assumption
    | with_reducible apply KeptX.next
    | with_reducible apply writeTo_kept
    | dsimp only
    | intro _

theorem execHostPush_kept {r₀ : State} (master : Fin 16) (value : Word) (s : State) (hk₀ : Kept r₀ s) :
    KeptX r₀ (execHostPush master value s) := by
  unfold execHostPush
  repeat' first
    | with_reducible assumption
    | with_reducible apply KeptX.next
    | with_reducible apply writeTo_kept
    | dsimp only
    | intro _

theorem execIslClkRequest_kept {r₀ : State} (master : Fin 16) (island : Fin 15) (value : Word) (s : State) (hk₀ : Kept r₀ s) :
    KeptX r₀ (execIslClkRequest master island value s) := by
  unfold execIslClkRequest
  repeat' first
    | with_reducible assumption
    | with_reducible apply KeptX.next
    | with_reducible apply writeTo_kept
    | dsimp only
    | intro _

theorem execRigStart_kept {r₀ : State} (master : Fin 16) (value : Word) (s : State) (hk₀ : Kept r₀ s) :
    KeptX r₀ (execRigStart master value s) := by
  unfold execRigStart
  repeat' first
    | with_reducible assumption
    | with_reducible apply KeptX.next
    | with_reducible apply writeTo_kept
    | dsimp only
    | intro _

theorem execRigAbort_kept {r₀ : State} (master : Fin 16) (value : Word) (s : State) (hk₀ : Kept r₀ s) :
    KeptX r₀ (execRigAbort master value s) := by
  unfold execRigAbort
  repeat' first
    | with_reducible assumption
    | with_reducible apply KeptX.next
    | with_reducible apply writeTo_kept
    | dsimp only
    | intro _

theorem execRigRollbackCommit_kept {r₀ : State} (master : Fin 16) (value : Word) (s : State) (hk₀ : Kept r₀ s) :
    KeptX r₀ (execRigRollbackCommit master value s) := by
  unfold execRigRollbackCommit
  repeat' first
    | with_reducible assumption
    | with_reducible apply KeptX.next
    | with_reducible apply writeTo_kept
    | dsimp only
    | intro _

theorem execOwnerEnrol_kept {r₀ : State} (master : Fin 16) (value : Word) (s : State) (hk₀ : Kept r₀ s) :
    KeptX r₀ (execOwnerEnrol master value s) := by
  unfold execOwnerEnrol
  repeat' first
    | with_reducible assumption
    | with_reducible apply KeptX.next
    | with_reducible apply writeTo_kept
    | dsimp only
    | intro _

theorem execKeyRevoke_kept {r₀ : State} (master : Fin 16) (value : Word) (s : State) (hk₀ : Kept r₀ s) :
    KeptX r₀ (execKeyRevoke master value s) := by
  unfold execKeyRevoke
  repeat' first
    | with_reducible assumption
    | with_reducible apply KeptX.next
    | with_reducible apply writeTo_kept
    | dsimp only
    | intro _

theorem execLockDebug_kept {r₀ : State} (master : Fin 16) (value : Word) (s : State) (hk₀ : Kept r₀ s) :
    KeptX r₀ (execLockDebug master value s) := by
  unfold execLockDebug
  repeat' first
    | with_reducible assumption
    | with_reducible apply KeptX.next
    | with_reducible apply writeTo_kept
    | dsimp only
    | intro _

theorem execAttestRequest_kept {r₀ : State} (master : Fin 16) (value : Word) (s : State) (hk₀ : Kept r₀ s) :
    KeptX r₀ (execAttestRequest master value s) := by
  unfold execAttestRequest
  repeat' first
    | with_reducible assumption
    | with_reducible apply KeptX.next
    | with_reducible apply writeTo_kept
    | dsimp only
    | intro _

theorem execLaneRestart_kept {r₀ : State} (master : Fin 16) (lane : Fin 128) (value : Word) (s : State) (hk₀ : Kept r₀ s) :
    KeptX r₀ (execLaneRestart master lane value s) := by
  unfold execLaneRestart
  repeat' first
    | with_reducible assumption
    | with_reducible apply KeptX.next
    | with_reducible apply writeTo_kept
    | dsimp only
    | intro _

theorem execRegisterWrite_kept {r₀ : State} (master : Fin 16) (address : BitVec 36) (value : Word) (s : State) (hk₀ : Kept r₀ s) :
    KeptX r₀ (execRegisterWrite master address value s) := by
  unfold execRegisterWrite
  repeat' first
    | with_reducible assumption
    | with_reducible apply KeptX.next
    | with_reducible apply writeBy_kept
    | dsimp only
    | intro _

theorem execRigData_kept {r₀ : State} (master : Fin 16) (bytes : Bytes) (s : State) (hk₀ : Kept r₀ s) :
    KeptX r₀ (execRigData master bytes s) := by
  unfold execRigData
  repeat' first
    | with_reducible assumption
    | with_reducible apply KeptX.next
    | with_reducible apply takeImage_kept
    | with_reducible apply recordDenial_kept
    | split
    | dsimp only
    | intro _

theorem execMstTickLoRead_kept {r₀ : State} (master : Fin 16) (s : State) (hk₀ : Kept r₀ s) :
    KeptX r₀ (execMstTickLoRead master s) := by
  unfold execMstTickLoRead
  repeat' first
    | with_reducible assumption
    | with_reducible apply KeptX.next
    | with_reducible apply readReg_kept
    | with_reducible apply recordDenial_kept
    | split
    | dsimp only
    | intro _

end Sys2Proof.Machine
end

