-- ==== Sys2Proof/Laws/KeptHostPort.lean ====
section
/-! SUPPORT. What the operations of Machine/HostPort.lean keep. -/

set_option linter.unusedTactic false
set_option linter.unreachableTactic false

namespace Sys2Proof.Machine

theorem countFrameError_kept {r₀ : State} (status : Nat) (f : Bytes) (s : State) (hk₀ : Kept r₀ s) :
    Kept r₀ (countFrameError status f s) := by
  unfold countFrameError
  repeat' first
    | with_reducible assumption
    | with_reducible apply fbump_kept
    | with_reducible apply raiseLimited_kept
    | split
    | dsimp only

theorem respond_kept {r₀ : State} (op tag status : Nat) (data : Bytes) (kind take : Nat) (s : State) (hk₀ : Kept r₀ s) :
    Kept r₀ (respond op tag status data kind take s) := by
  unfold respond
  repeat' first
    | with_reducible assumption
    | with_reducible apply fbump_kept
    | split
    | dsimp only
    | fail_if_no_progress with_reducible refine Kept.upd ?_ (by rfl)

theorem dropResponse_kept {r₀ : State} (s : State) (hk₀ : Kept r₀ s) :
    Kept r₀ (dropResponse s) := by
  unfold dropResponse
  repeat' first
    | with_reducible assumption
    | with_reducible apply fbump_kept
    | split
    | dsimp only
    | fail_if_no_progress with_reducible refine Kept.upd ?_ (by rfl)

theorem postedFail_kept {r₀ : State} (status addr : Nat) (s : State) (hk₀ : Kept r₀ s) :
    Kept r₀ (postedFail status addr s) := by
  unfold postedFail
  repeat' first
    | with_reducible assumption
    | with_reducible apply fset_kept
    | with_reducible apply setWord_kept
    | with_reducible apply raise_kept
    | split
    | dsimp only

theorem answerFail_kept {r₀ : State} (status : Nat) (f : Bytes) (s : State) (hk₀ : Kept r₀ s) :
    Kept r₀ (answerFail status f s) := by
  unfold answerFail
  repeat' first
    | with_reducible assumption
    | with_reducible apply respond_kept
    | with_reducible apply postedFail_kept
    | with_reducible apply dropResponse_kept
    | split
    | dsimp only

theorem hostReadWord_kept {r₀ : State} (a : Nat) (s : State) (hk₀ : Kept r₀ s) :
    Kept r₀ (hostReadWord a s).2 := by
  unfold hostReadWord
  repeat' first
    | with_reducible assumption
    | with_reducible apply readReg_kept
    | with_reducible apply draw_kept
    | with_reducible apply transferDropped_kept
    | with_reducible apply memoryUe_kept
    | split
    | dsimp only

theorem hostRead_kept {r₀ : State} (n : Nat) (a : Nat) (s : State) (hk₀ : Kept r₀ s) :
    Kept r₀ (hostRead n a s).2 := by
  induction n generalizing a s with
  | zero => exact hk₀
  | succ n ih =>
    unfold hostRead
    repeat' first
      | with_reducible assumption
      | with_reducible apply ih
      | with_reducible apply hostReadWord_kept
      | split
      | dsimp only

theorem hostWriteWord_kept {r₀ : State} (a : Nat) (b : Bytes) (s : State) (hk₀ : Kept r₀ s) :
    Kept r₀ (hostWriteWord a b s) := by
  unfold hostWriteWord
  repeat' first
    | with_reducible assumption
    | with_reducible apply writeReg_kept
    | with_reducible apply storeBytes_kept
    | split
    | dsimp only

theorem hostWrite_kept {r₀ : State} (n : Nat) (a : Nat) (b : Bytes) (s : State) (hk₀ : Kept r₀ s) :
    Kept r₀ (hostWrite n a b s) := by
  induction n generalizing a b s with
  | zero => exact hk₀
  | succ n ih =>
    unfold hostWrite
    repeat' first
      | with_reducible assumption
      | with_reducible apply ih
      | with_reducible apply hostWriteWord_kept
      | split
      | dsimp only

theorem hostStore_kept {r₀ : State} (a : Nat) (b : Bytes) (s : State) (hk₀ : Kept r₀ s) :
    Kept r₀ (hostStore a b s) := by
  unfold hostStore
  repeat' first
    | with_reducible assumption
    | with_reducible apply takeImage_kept
    | with_reducible apply hostWrite_kept
    | split
    | dsimp only

theorem submit_kept {r₀ : State} (f : Bytes) (s : State) (hk₀ : Kept r₀ s) :
    Kept r₀ (submit f s) := by
  unfold submit
  repeat' first
    | with_reducible assumption
    | with_reducible apply respond_kept
    | with_reducible apply refuseReserved_kept
    | split
    | dsimp only
    | fail_if_no_progress with_reducible refine Kept.upd ?_ (by rfl)

theorem recordRead_kept {r₀ : State} (kind : Nat) (held : List Bytes) (f : Bytes) (s : State) (hk₀ : Kept r₀ s) :
    Kept r₀ (recordRead kind held f s) := by
  unfold recordRead
  repeat' first
    | with_reducible assumption
    | with_reducible apply respond_kept
    | split
    | dsimp only

theorem frameAction_kept {r₀ : State} (f : Bytes) (s : State) (hk₀ : Kept r₀ s) :
    Kept r₀ (frameAction f s) := by
  unfold frameAction
  repeat' first
    | with_reducible assumption
    | with_reducible apply submit_kept
    | with_reducible apply recordRead_kept
    | with_reducible apply recordDenial_kept
    | with_reducible apply respond_kept
    | with_reducible apply answerFail_kept
    | with_reducible apply hostRead_kept
    | with_reducible apply hostStore_kept
    | with_reducible apply dropResponse_kept
    | split
    | dsimp only

theorem hostFrame_kept {r₀ : State} (f : Bytes) (s : State) (hk₀ : Kept r₀ s) :
    Kept r₀ (hostFrame f s) := by
  unfold hostFrame
  repeat' first
    | with_reducible assumption
    | with_reducible apply answerFail_kept
    | with_reducible apply countFrameError_kept
    | with_reducible apply frameAction_kept
    | split
    | dsimp only

theorem execRead_kept {r₀ : State} (frame : Bytes) (s : State) (hk₀ : Kept r₀ s) :
    KeptX r₀ (execRead frame s) := by
  unfold execRead
  repeat' first
    | with_reducible assumption
    | with_reducible apply KeptX.next
    | with_reducible apply hostFrame_kept
    | dsimp only
    | intro _

theorem execWrite_kept {r₀ : State} (frame : Bytes) (s : State) (hk₀ : Kept r₀ s) :
    KeptX r₀ (execWrite frame s) := by
  unfold execWrite
  repeat' first
    | with_reducible assumption
    | with_reducible apply KeptX.next
    | with_reducible apply hostFrame_kept
    | dsimp only
    | intro _

theorem execWritePosted_kept {r₀ : State} (frame : Bytes) (s : State) (hk₀ : Kept r₀ s) :
    KeptX r₀ (execWritePosted frame s) := by
  unfold execWritePosted
  repeat' first
    | with_reducible assumption
    | with_reducible apply KeptX.next
    | with_reducible apply hostFrame_kept
    | dsimp only
    | intro _

theorem execCmdSubmit_kept {r₀ : State} (frame : Bytes) (s : State) (hk₀ : Kept r₀ s) :
    KeptX r₀ (execCmdSubmit frame s) := by
  unfold execCmdSubmit
  repeat' first
    | with_reducible assumption
    | with_reducible apply KeptX.next
    | with_reducible apply hostFrame_kept
    | dsimp only
    | intro _

theorem execCplRead_kept {r₀ : State} (frame : Bytes) (s : State) (hk₀ : Kept r₀ s) :
    KeptX r₀ (execCplRead frame s) := by
  unfold execCplRead
  repeat' first
    | with_reducible assumption
    | with_reducible apply KeptX.next
    | with_reducible apply hostFrame_kept
    | dsimp only
    | intro _

theorem execEvtRead_kept {r₀ : State} (frame : Bytes) (s : State) (hk₀ : Kept r₀ s) :
    KeptX r₀ (execEvtRead frame s) := by
  unfold execEvtRead
  repeat' first
    | with_reducible assumption
    | with_reducible apply KeptX.next
    | with_reducible apply hostFrame_kept
    | dsimp only
    | intro _

theorem leaveRecords_kept {r₀ : State} (r : Resp) (s : State) (hk₀ : Kept r₀ s) :
    Kept r₀ (leaveRecords r s) := by
  unfold leaveRecords
  repeat' first
    | with_reducible assumption
    | with_reducible apply noteIbi_kept
    | with_reducible apply raise_kept
    | split
    | dsimp only
    | fail_if_no_progress with_reducible refine Kept.upd ?_ (by rfl)

theorem execResponseRead_kept {r₀ : State} (clocked : Nat) (s : State) (hk₀ : Kept r₀ s) :
    KeptX r₀ (execResponseRead clocked s) := by
  unfold execResponseRead
  repeat' first
    | with_reducible assumption
    | with_reducible apply KeptX.next
    | with_reducible apply fbump_kept
    | with_reducible apply leaveRecords_kept
    | split
    | dsimp only
    | fail_if_no_progress with_reducible refine Kept.upd ?_ (by rfl)
    | intro _

theorem common_kept {r₀ : State} (direct : Bool) (f : HostPort → HostPort) (s : State) (hk₀ : Kept r₀ s) :
    Kept r₀ (common direct f s) := by
  unfold common
  repeat' first
    | with_reducible assumption
    | split
    | dsimp only
    | fail_if_no_progress with_reducible refine Kept.upd ?_ (by rfl)

theorem execEnec_kept {r₀ : State} (direct : Bool) (events : Byte) (s : State) (hk₀ : Kept r₀ s) :
    KeptX r₀ (execEnec direct events s) := by
  unfold execEnec
  repeat' first
    | with_reducible assumption
    | with_reducible apply KeptX.next
    | with_reducible apply common_kept
    | split
    | dsimp only
    | fail_if_no_progress with_reducible refine Kept.upd ?_ (by rfl)
    | intro _

theorem execDisec_kept {r₀ : State} (direct : Bool) (events : Byte) (s : State) (hk₀ : Kept r₀ s) :
    KeptX r₀ (execDisec direct events s) := by
  unfold execDisec
  repeat' first
    | with_reducible assumption
    | with_reducible apply KeptX.next
    | with_reducible apply common_kept
    | split
    | dsimp only
    | fail_if_no_progress with_reducible refine Kept.upd ?_ (by rfl)
    | intro _

theorem execRstdaa_kept {r₀ : State} (s : State) (hk₀ : Kept r₀ s) :
    KeptX r₀ (execRstdaa s) := by
  unfold execRstdaa
  repeat' first
    | with_reducible assumption
    | with_reducible apply KeptX.next
    | with_reducible apply common_kept
    | dsimp only
    | fail_if_no_progress with_reducible refine Kept.upd ?_ (by rfl)
    | intro _

theorem execEntdaa_kept {r₀ : State} (addr : BitVec 7) (won : Bool) (s : State) (hk₀ : Kept r₀ s) :
    KeptX r₀ (execEntdaa addr won s) := by
  unfold execEntdaa
  repeat' first
    | with_reducible assumption
    | with_reducible apply KeptX.next
    | with_reducible apply common_kept
    | split
    | dsimp only
    | fail_if_no_progress with_reducible refine Kept.upd ?_ (by rfl)
    | intro _

theorem execSetdasa_kept {r₀ : State} (static addr : BitVec 7) (s : State) (hk₀ : Kept r₀ s) :
    KeptX r₀ (execSetdasa static addr s) := by
  unfold execSetdasa
  repeat' first
    | with_reducible assumption
    | with_reducible apply KeptX.next
    | with_reducible apply common_kept
    | split
    | dsimp only
    | fail_if_no_progress with_reducible refine Kept.upd ?_ (by rfl)
    | intro _

theorem execSetaasa_kept {r₀ : State} (s : State) (hk₀ : Kept r₀ s) :
    KeptX r₀ (execSetaasa s) := by
  unfold execSetaasa
  repeat' first
    | with_reducible assumption
    | with_reducible apply KeptX.next
    | with_reducible apply common_kept
    | split
    | dsimp only
    | fail_if_no_progress with_reducible refine Kept.upd ?_ (by rfl)
    | intro _

theorem execSetnewda_kept {r₀ : State} (addr : BitVec 7) (s : State) (hk₀ : Kept r₀ s) :
    KeptX r₀ (execSetnewda addr s) := by
  unfold execSetnewda
  repeat' first
    | with_reducible assumption
    | with_reducible apply KeptX.next
    | with_reducible apply common_kept
    | dsimp only
    | fail_if_no_progress with_reducible refine Kept.upd ?_ (by rfl)
    | intro _

theorem getCommon_kept {r₀ : State} (b : State → Bytes) (s : State) (hk₀ : Kept r₀ s) :
    Kept r₀ (getCommon b s) := by
  unfold getCommon
  repeat' first
    | with_reducible assumption
    | with_reducible apply common_kept
    | dsimp only
    | fail_if_no_progress with_reducible refine Kept.upd ?_ (by rfl)
    | intro _

theorem execGetpid_kept {r₀ : State} (s : State) (hk₀ : Kept r₀ s) :
    KeptX r₀ (execGetpid s) := by
  unfold execGetpid
  repeat' first
    | with_reducible assumption
    | with_reducible apply KeptX.next
    | with_reducible apply getCommon_kept
    | dsimp only
    | intro _

theorem execGetbcr_kept {r₀ : State} (s : State) (hk₀ : Kept r₀ s) :
    KeptX r₀ (execGetbcr s) := by
  unfold execGetbcr
  repeat' first
    | with_reducible assumption
    | with_reducible apply KeptX.next
    | with_reducible apply getCommon_kept
    | dsimp only
    | intro _

theorem execGetdcr_kept {r₀ : State} (s : State) (hk₀ : Kept r₀ s) :
    KeptX r₀ (execGetdcr s) := by
  unfold execGetdcr
  repeat' first
    | with_reducible assumption
    | with_reducible apply KeptX.next
    | with_reducible apply getCommon_kept
    | dsimp only
    | intro _

theorem execGetstatus_kept {r₀ : State} (s : State) (hk₀ : Kept r₀ s) :
    KeptX r₀ (execGetstatus s) := by
  unfold execGetstatus
  repeat' first
    | with_reducible assumption
    | with_reducible apply KeptX.next
    | with_reducible apply getCommon_kept
    | dsimp only
    | intro _

theorem execSetmwl_kept {r₀ : State} (len : SetLen) (s : State) (hk₀ : Kept r₀ s) :
    KeptX r₀ (execSetmwl len s) := by
  unfold execSetmwl
  repeat' first
    | with_reducible assumption
    | with_reducible apply KeptX.next
    | with_reducible apply common_kept
    | split
    | dsimp only
    | fail_if_no_progress with_reducible refine Kept.upd ?_ (by rfl)
    | intro _

theorem execSetmrl_kept {r₀ : State} (len : SetLen) (s : State) (hk₀ : Kept r₀ s) :
    KeptX r₀ (execSetmrl len s) := by
  unfold execSetmrl
  repeat' first
    | with_reducible assumption
    | with_reducible apply KeptX.next
    | with_reducible apply common_kept
    | split
    | dsimp only
    | fail_if_no_progress with_reducible refine Kept.upd ?_ (by rfl)
    | intro _

theorem execGetmwl_kept {r₀ : State} (s : State) (hk₀ : Kept r₀ s) :
    KeptX r₀ (execGetmwl s) := by
  unfold execGetmwl
  repeat' first
    | with_reducible assumption
    | with_reducible apply KeptX.next
    | with_reducible apply getCommon_kept
    | dsimp only
    | intro _

theorem execGetmrl_kept {r₀ : State} (s : State) (hk₀ : Kept r₀ s) :
    KeptX r₀ (execGetmrl s) := by
  unfold execGetmrl
  repeat' first
    | with_reducible assumption
    | with_reducible apply KeptX.next
    | with_reducible apply getCommon_kept
    | dsimp only
    | intro _

theorem execGetmxds_kept {r₀ : State} (s : State) (hk₀ : Kept r₀ s) :
    KeptX r₀ (execGetmxds s) := by
  unfold execGetmxds
  repeat' first
    | with_reducible assumption
    | with_reducible apply KeptX.next
    | with_reducible apply getCommon_kept
    | dsimp only
    | intro _

theorem execGetcaps_kept {r₀ : State} (s : State) (hk₀ : Kept r₀ s) :
    KeptX r₀ (execGetcaps s) := by
  unfold execGetcaps
  repeat' first
    | with_reducible assumption
    | with_reducible apply KeptX.next
    | with_reducible apply getCommon_kept
    | dsimp only
    | intro _

theorem execEnthdr0_kept {r₀ : State} (s : State) (hk₀ : Kept r₀ s) :
    KeptX r₀ (execEnthdr0 s) := by
  unfold execEnthdr0
  repeat' first
    | with_reducible assumption
    | with_reducible apply KeptX.next
    | with_reducible apply common_kept
    | dsimp only
    | fail_if_no_progress with_reducible refine Kept.upd ?_ (by rfl)
    | intro _

theorem execEntas0_kept {r₀ : State} (s : State) (hk₀ : Kept r₀ s) :
    KeptX r₀ (execEntas0 s) := by
  unfold execEntas0
  repeat' first
    | with_reducible assumption
    | with_reducible apply KeptX.next
    | with_reducible apply common_kept
    | dsimp only
    | intro _

theorem execEntas1_kept {r₀ : State} (s : State) (hk₀ : Kept r₀ s) :
    KeptX r₀ (execEntas1 s) := by
  unfold execEntas1
  repeat' first
    | with_reducible assumption
    | with_reducible apply KeptX.next
    | with_reducible apply common_kept
    | dsimp only
    | intro _

theorem execEntas2_kept {r₀ : State} (s : State) (hk₀ : Kept r₀ s) :
    KeptX r₀ (execEntas2 s) := by
  unfold execEntas2
  repeat' first
    | with_reducible assumption
    | with_reducible apply KeptX.next
    | with_reducible apply common_kept
    | dsimp only
    | intro _

theorem execEntas3_kept {r₀ : State} (s : State) (hk₀ : Kept r₀ s) :
    KeptX r₀ (execEntas3 s) := by
  unfold execEntas3
  repeat' first
    | with_reducible assumption
    | with_reducible apply KeptX.next
    | with_reducible apply common_kept
    | dsimp only
    | intro _

theorem execBusAvailable_kept {r₀ : State} (accepted : Bool) (s : State) (hk₀ : Kept r₀ s) :
    KeptX r₀ (execBusAvailable accepted s) := by
  unfold execBusAvailable
  repeat' first
    | with_reducible assumption
    | with_reducible apply KeptX.next
    | split
    | dsimp only
    | fail_if_no_progress with_reducible refine Kept.upd ?_ (by rfl)
    | intro _

end Sys2Proof.Machine
end

