-- ==== Sys2Proof/Laws/KeptOperands.lean ====
section
/-! SUPPORT. What the operations of Machine/Operands.lean keep. -/

set_option linter.unusedTactic false
set_option linter.unreachableTactic false

namespace Sys2Proof.Machine

/-- The outcome of an operation keeps what a command must. -/
def KeptOp (r : State) : OpResult → Prop
  | .ok w => Kept r w.st
  | .fault _ _ s => Kept r s

theorem KeptOp.ok {r : State} {w : Work} (h : Kept r w.st) : KeptOp r (.ok w) := h
theorem KeptOp.fault {r : State} {c a : Nat} {s : State} (h : Kept r s) : KeptOp r (.fault c a s) := h

theorem landLater_kept {r₀ : State} (n : BitVec 6) (val : BitVec 128) (latency : Nat) (w : Work) (hk₀ : Kept r₀ w.st) :
    Kept r₀ (landLater n val latency w).st := by
  unfold landLater
  repeat' first
    | with_reducible assumption
    | with_reducible apply physReg_kept
    | dsimp only
    | fail_if_no_progress with_reducible refine Kept.upd ?_ (by rfl)

theorem raiseFlags_kept {r₀ : State} (acc sat nan : Bool) (w : Work) (hk₀ : Kept r₀ w.st) :
    Kept r₀ (raiseFlags acc sat nan w).st := by
  unfold raiseFlags
  repeat' first
    | with_reducible assumption
    | dsimp only
    | fail_if_no_progress with_reducible refine Kept.upd ?_ (by rfl)

theorem await_kept {r₀ : State} (keys : List Nat) (w : Work) (hk₀ : Kept r₀ w.st) :
    Kept r₀ (await keys w).st := by
  unfold await
  repeat' first
    | with_reducible assumption
    | dsimp only
    | fail_if_no_progress with_reducible refine Kept.upd ?_ (by rfl)

theorem lockLater_kept {r₀ : State} (key latency : Nat) (w : Work) (hk₀ : Kept r₀ w.st) :
    Kept r₀ (lockLater key latency w).st := by
  unfold lockLater
  repeat' first
    | with_reducible assumption
    | split
    | dsimp only
    | fail_if_no_progress with_reducible refine Kept.upd ?_ (by rfl)

theorem freeStall_kept {r₀ : State} (w : Work) (hk₀ : Kept r₀ w.st) :
    Kept r₀ (freeStall w).st := by
  unfold freeStall
  repeat' first
    | with_reducible assumption
    | with_reducible apply draw_kept
    | dsimp only
    | fail_if_no_progress with_reducible refine Kept.upd ?_ (by rfl)

theorem setScalar_kept {r₀ : State} (n : Nat) (v : Word) (w : Work) (hk₀ : Kept r₀ w.st) :
    Kept r₀ (setScalar n v w).st := by
  unfold setScalar
  repeat' first
    | with_reducible assumption
    | dsimp only
    | fail_if_no_progress with_reducible refine Kept.upd ?_ (by rfl)

theorem setAcc_kept {r₀ : State} (n : Nat) (v : BitVec 192) (w : Work) (hk₀ : Kept r₀ w.st) :
    Kept r₀ (setAcc n v w).st := by
  unfold setAcc
  repeat' first
    | with_reducible assumption
    | dsimp only
    | fail_if_no_progress with_reducible refine Kept.upd ?_ (by rfl)

theorem endWord_kept {r₀ : State} (l : Nat) (s : State) (hk₀ : Kept r₀ s) :
    Kept r₀ (endWord l s) := by
  unfold endWord
  repeat' first
    | with_reducible assumption
    | with_reducible apply putLane_kept
    | with_reducible apply commitArith_kept
    | with_reducible apply setFold_kept
    | with_reducible apply endTick_kept
    | (with_reducible apply Kept.foldl <;> intros)
    | (with_reducible apply Kept.foldlFst <;> intros)
    | (with_reducible apply Kept.foldlSnd <;> intros)
    | split
    | dsimp only
    | fail_if_no_progress with_reducible refine Kept.upd ?_ (by rfl)
    | intro _

theorem markFetch_kept {r₀ : State} (a : Nat) (fetch : List Ecc) (s : State) (hk₀ : Kept r₀ s) :
    Kept r₀ (markFetch a fetch s) := by
  unfold markFetch
  repeat' first
    | with_reducible assumption
    | (with_reducible apply Kept.foldl <;> intros)
    | (with_reducible apply Kept.foldlFst <;> intros)
    | (with_reducible apply Kept.foldlSnd <;> intros)
    | dsimp only
    | fail_if_no_progress with_reducible refine Kept.upd ?_ (by rfl)
    | intro _

theorem beginWord_kept {r₀ : State} (l : Nat) (fetch : List Ecc) (s : State) (hk₀ : Kept r₀ s) :
    Kept r₀ (beginWord l fetch s) := by
  unfold beginWord
  repeat' first
    | with_reducible assumption
    | with_reducible apply markFetch_kept
    | with_reducible apply laneFault_kept
    | with_reducible apply clusterUe_kept
    | with_reducible apply ueMet_kept
    | with_reducible apply fbump_kept
    | with_reducible apply wordsFixed_kept
    | with_reducible apply putLane_kept
    | (with_reducible apply Kept.foldl <;> intros)
    | (with_reducible apply Kept.foldlFst <;> intros)
    | (with_reducible apply Kept.foldlSnd <;> intros)
    | split
    | dsimp only
    | fail_if_no_progress with_reducible refine Kept.upd ?_ (by rfl)
    | intro _

theorem emptyWords_kept {r₀ : State} (n : Nat) (l : Nat) (s : State) (hk₀ : Kept r₀ s) :
    Kept r₀ (emptyWords n l s) := by
  induction n generalizing l s with
  | zero => exact hk₀
  | succ n ih =>
    unfold emptyWords
    repeat' first
      | with_reducible assumption
      | with_reducible apply ih
      | with_reducible apply endWord_kept
      | with_reducible apply beginWord_kept
      | split
      | dsimp only

theorem openWord_kept {r₀ : State} (w : Issue) (s : State) (hk₀ : Kept r₀ s) :
    Kept r₀ (openWord w s) := by
  unfold openWord
  repeat' first
    | with_reducible assumption
    | with_reducible apply emptyWords_kept
    | with_reducible apply beginWord_kept
    | split
    | dsimp only

theorem runOp_kept {r : State} (w : Issue) (slot : Nat) (op : Work → OpResult) (s : State)
    (ho : ∀ w : Work, Kept r w.st → KeptOp r (op w)) (h : Kept r s) : Kept r (runOp w slot op s) := by
  have key : ∀ t, Kept r t → Kept r (if (w.last && (laneAt t w.lane).runs) = true then endWord w.lane t else t) := by
    intro t ht
    split
    · exact endWord_kept _ _ ht
    · exact ht
  unfold runOp
  dsimp only
  split
  · exact h
  · refine key _ ?_
    split
    · split
      · rename_i e
        refine putLane_kept _ _ _ (?_ : KeptOp r (.ok _))
        rw [← e]
        exact ho _ h
      · rename_i e
        split
        · exact putLane_kept _ _ _ (laneFault_kept _ _ _ _ _ _ ((show KeptOp r (.fault _ _ _) by rw [← e]; exact ho _ h)))
        · exact laneFault_kept _ _ _ _ _ _ ((show KeptOp r (.fault _ _ _) by rw [← e]; exact ho _ h))
    · exact h

theorem passOp_kept {r₀ : State} (w : Issue) (s : State) (hk₀ : Kept r₀ s) :
    Kept r₀ (passOp w s) := by
  unfold passOp
  repeat' first
    | with_reducible assumption
    | with_reducible apply putLane_kept
    | split
    | dsimp only
    | fail_if_no_progress with_reducible refine Kept.upd ?_ (by rfl)

theorem laneOp_kept {r : State} (w : Issue) (slot : Nat) (op : Work → OpResult) (s : State)
    (ho : ∀ w : Work, Kept r w.st → KeptOp r (op w)) (h : Kept r s) : Kept r (laneOp w slot op s) := by
  unfold laneOp
  split
  · exact passOp_kept _ _ h
  · exact runOp_kept _ _ _ _ ho (openWord_kept _ _ h)

theorem moveTo_kept {r₀ : State} (n : Nat) (m : Int) (w : Work) (hk₀ : Kept r₀ w.st) :
    Kept r₀ (moveTo n m w).st := by
  unfold moveTo
  repeat' first
    | with_reducible assumption
    | (with_reducible apply Kept.foldl <;> intros)
    | (with_reducible apply Kept.foldlFst <;> intros)
    | (with_reducible apply Kept.foldlSnd <;> intros)
    | split
    | dsimp only
    | fail_if_no_progress with_reducible refine Kept.upd ?_ (by rfl)

theorem lsUpdate_kept {r₀ : State} (f : LsFields) (z : Nat) (w : Work) (hk₀ : Kept r₀ w.st) :
    Kept r₀ (lsUpdate f z w).st := by
  unfold lsUpdate
  repeat' first
    | with_reducible assumption
    | with_reducible apply moveTo_kept
    | split
    | dsimp only

end Sys2Proof.Machine
end

