-- ==== Sys2Proof/Laws/KeptLaneVector.lean ====
section
/-! SUPPORT. What the operations of Machine/LaneVector.lean keep. -/

set_option linter.unusedTactic false
set_option linter.unreachableTactic false

namespace Sys2Proof.Machine

theorem illegal_kept {r₀ : State} (w : Work) (hk₀ : Kept r₀ w.st) :
    KeptOp r₀ (illegal w) := by
  unfold illegal
  repeat' first
    | with_reducible assumption
    | with_reducible apply KeptOp.ok
    | with_reducible apply KeptOp.fault
    | dsimp only

theorem vec2_kept {r₀ : State} (latency : Nat) (fn : BitVec 32 → BitVec 32 → BitVec 32 × Bool) (f : VFields) (w : Work) (hk₀ : Kept r₀ w.st) :
    KeptOp r₀ (vec2 latency fn f w) := by
  unfold vec2
  repeat' first
    | with_reducible assumption
    | with_reducible apply KeptOp.ok
    | with_reducible apply KeptOp.fault
    | with_reducible apply raiseFlags_kept
    | with_reducible apply landLater_kept
    | dsimp only
    | intro _

theorem vec3_kept {r₀ : State} (latency : Nat) (fn : BitVec 32 → BitVec 32 → BitVec 32 → BitVec 32 × Bool) (f : VFields) (w : Work) (hk₀ : Kept r₀ w.st) :
    KeptOp r₀ (vec3 latency fn f w) := by
  unfold vec3
  repeat' first
    | with_reducible assumption
    | with_reducible apply KeptOp.ok
    | with_reducible apply KeptOp.fault
    | with_reducible apply raiseFlags_kept
    | with_reducible apply landLater_kept
    | dsimp only
    | intro _

theorem raw_kept {r₀ : State} (fn : BitVec 128 → BitVec 128 → BitVec 128 → BitVec 128) (f : VFields) (w : Work) (hk₀ : Kept r₀ w.st) :
    KeptOp r₀ (raw fn f w) := by
  unfold raw
  repeat' first
    | with_reducible assumption
    | with_reducible apply KeptOp.ok
    | with_reducible apply KeptOp.fault
    | with_reducible apply landLater_kept
    | dsimp only

theorem accVec_kept {r₀ : State} (reads : Bool) (fn : BitVec 48 → BitVec 32 → BitVec 32 → BitVec 48 × Bool) (f : VFields) (w : Work) (hk₀ : Kept r₀ w.st) :
    KeptOp r₀ (accVec reads fn f w) := by
  unfold accVec
  repeat' first
    | with_reducible assumption
    | with_reducible apply KeptOp.ok
    | with_reducible apply KeptOp.fault
    | with_reducible apply illegal_kept
    | with_reducible apply raiseFlags_kept
    | with_reducible apply setAcc_kept
    | with_reducible apply await_kept
    | split
    | dsimp only
    | intro _

theorem fixH_kept {r₀ : State} (fn : Int → Int → Int × Bool) (f : VFields) (w : Work) (hk₀ : Kept r₀ w.st) :
    KeptOp r₀ (fixH fn f w) := by
  unfold fixH
  repeat' first
    | with_reducible assumption
    | with_reducible apply KeptOp.ok
    | with_reducible apply KeptOp.fault
    | with_reducible apply raiseFlags_kept
    | with_reducible apply landLater_kept
    | dsimp only
    | intro _

theorem fixW_kept {r₀ : State} (fn : Int → Int → Int × Bool) (f : VFields) (w : Work) (hk₀ : Kept r₀ w.st) :
    KeptOp r₀ (fixW fn f w) := by
  unfold fixW
  repeat' first
    | with_reducible assumption
    | with_reducible apply KeptOp.ok
    | with_reducible apply KeptOp.fault
    | with_reducible apply raiseFlags_kept
    | with_reducible apply landLater_kept
    | dsimp only
    | intro _

theorem shiftH_kept {r₀ : State} (fn : Nat → Int → Int × Bool) (f : VFields) (w : Work) (hk₀ : Kept r₀ w.st) :
    KeptOp r₀ (shiftH fn f w) := by
  unfold shiftH
  repeat' first
    | with_reducible assumption
    | with_reducible apply KeptOp.ok
    | with_reducible apply KeptOp.fault
    | with_reducible apply fixH_kept
    | with_reducible apply illegal_kept
    | split
    | dsimp only
    | intro _

theorem mac16_kept {r₀ : State} (sub : Bool) (f : VFields) (w : Work) (hk₀ : Kept r₀ w.st) :
    KeptOp r₀ (mac16 sub f w) := by
  unfold mac16
  repeat' first
    | with_reducible assumption
    | with_reducible apply KeptOp.ok
    | with_reducible apply KeptOp.fault
    | with_reducible apply raiseFlags_kept
    | with_reducible apply landLater_kept
    | split
    | dsimp only
    | intro _

theorem roundW_kept {r₀ : State} (f : VFields) (w : Work) (hk₀ : Kept r₀ w.st) :
    KeptOp r₀ (roundW f w) := by
  unfold roundW
  repeat' first
    | with_reducible assumption
    | with_reducible apply KeptOp.ok
    | with_reducible apply KeptOp.fault
    | with_reducible apply raiseFlags_kept
    | with_reducible apply landLater_kept
    | split
    | dsimp only
    | intro _

theorem cvtHf_kept {r₀ : State} (f : VFields) (w : Work) (hk₀ : Kept r₀ w.st) :
    KeptOp r₀ (cvtHf f w) := by
  unfold cvtHf
  repeat' first
    | with_reducible assumption
    | with_reducible apply KeptOp.ok
    | with_reducible apply KeptOp.fault
    | with_reducible apply illegal_kept
    | with_reducible apply landLater_kept
    | split
    | dsimp only
    | intro _

theorem cvtFh_kept {r₀ : State} (f : VFields) (w : Work) (hk₀ : Kept r₀ w.st) :
    KeptOp r₀ (cvtFh f w) := by
  unfold cvtFh
  repeat' first
    | with_reducible assumption
    | with_reducible apply KeptOp.ok
    | with_reducible apply KeptOp.fault
    | with_reducible apply illegal_kept
    | with_reducible apply raiseFlags_kept
    | with_reducible apply landLater_kept
    | split
    | dsimp only
    | intro _

theorem cvtWf_kept {r₀ : State} (f : VFields) (w : Work) (hk₀ : Kept r₀ w.st) :
    KeptOp r₀ (cvtWf f w) := by
  unfold cvtWf
  repeat' first
    | with_reducible assumption
    | with_reducible apply KeptOp.ok
    | with_reducible apply KeptOp.fault
    | with_reducible apply illegal_kept
    | with_reducible apply landLater_kept
    | split
    | dsimp only
    | intro _

theorem cvtFw_kept {r₀ : State} (f : VFields) (w : Work) (hk₀ : Kept r₀ w.st) :
    KeptOp r₀ (cvtFw f w) := by
  unfold cvtFw
  repeat' first
    | with_reducible assumption
    | with_reducible apply KeptOp.ok
    | with_reducible apply KeptOp.fault
    | with_reducible apply illegal_kept
    | with_reducible apply raiseFlags_kept
    | with_reducible apply landLater_kept
    | split
    | dsimp only
    | intro _

theorem accScale_kept {r₀ : State} (f : VFields) (w : Work) (hk₀ : Kept r₀ w.st) :
    KeptOp r₀ (accScale f w) := by
  unfold accScale
  repeat' first
    | with_reducible assumption
    | with_reducible apply KeptOp.ok
    | with_reducible apply KeptOp.fault
    | with_reducible apply accVec_kept
    | dsimp only
    | intro _

theorem accRed_kept {r₀ : State} (f : VFields) (w : Work) (hk₀ : Kept r₀ w.st) :
    KeptOp r₀ (accRed f w) := by
  unfold accRed
  repeat' first
    | with_reducible assumption
    | with_reducible apply KeptOp.ok
    | with_reducible apply KeptOp.fault
    | with_reducible apply illegal_kept
    | with_reducible apply raiseFlags_kept
    | with_reducible apply setAcc_kept
    | with_reducible apply lockLater_kept
    | with_reducible apply await_kept
    | split
    | dsimp only
    | intro _

theorem accStoreV_kept {r₀ : State} (f : VFields) (w : Work) (hk₀ : Kept r₀ w.st) :
    KeptOp r₀ (accStoreV f w) := by
  unfold accStoreV
  repeat' first
    | with_reducible assumption
    | with_reducible apply KeptOp.ok
    | with_reducible apply KeptOp.fault
    | with_reducible apply illegal_kept
    | with_reducible apply raiseFlags_kept
    | with_reducible apply landLater_kept
    | with_reducible apply await_kept
    | split
    | dsimp only
    | intro _

theorem broadcast_kept {r₀ : State} (f : VFields) (w : Work) (hk₀ : Kept r₀ w.st) :
    KeptOp r₀ (broadcast f w) := by
  unfold broadcast
  repeat' first
    | with_reducible assumption
    | with_reducible apply KeptOp.ok
    | with_reducible apply KeptOp.fault
    | with_reducible apply raw_kept
    | dsimp only
    | intro _

theorem execVadd_kept {r₀ : State} (w : Issue) (f : VFields) (s : State) (hk₀ : Kept r₀ s) :
    KeptX r₀ (execVadd w f s) := by
  unfold execVadd
  repeat' first
    | with_reducible assumption
    | with_reducible apply KeptX.next
    | with_reducible apply laneOp_kept
    | with_reducible apply vec2_kept
    | dsimp only
    | intro _

theorem execVsub_kept {r₀ : State} (w : Issue) (f : VFields) (s : State) (hk₀ : Kept r₀ s) :
    KeptX r₀ (execVsub w f s) := by
  unfold execVsub
  repeat' first
    | with_reducible assumption
    | with_reducible apply KeptX.next
    | with_reducible apply laneOp_kept
    | with_reducible apply vec2_kept
    | dsimp only
    | intro _

theorem execVmul_kept {r₀ : State} (w : Issue) (f : VFields) (s : State) (hk₀ : Kept r₀ s) :
    KeptX r₀ (execVmul w f s) := by
  unfold execVmul
  repeat' first
    | with_reducible assumption
    | with_reducible apply KeptX.next
    | with_reducible apply laneOp_kept
    | with_reducible apply vec2_kept
    | dsimp only
    | intro _

theorem execVfma_kept {r₀ : State} (w : Issue) (f : VFields) (s : State) (hk₀ : Kept r₀ s) :
    KeptX r₀ (execVfma w f s) := by
  unfold execVfma
  repeat' first
    | with_reducible assumption
    | with_reducible apply KeptX.next
    | with_reducible apply laneOp_kept
    | with_reducible apply vec3_kept
    | dsimp only
    | intro _

theorem execVfms_kept {r₀ : State} (w : Issue) (f : VFields) (s : State) (hk₀ : Kept r₀ s) :
    KeptX r₀ (execVfms w f s) := by
  unfold execVfms
  repeat' first
    | with_reducible assumption
    | with_reducible apply KeptX.next
    | with_reducible apply laneOp_kept
    | with_reducible apply vec3_kept
    | dsimp only
    | intro _

theorem execVmin_kept {r₀ : State} (w : Issue) (f : VFields) (s : State) (hk₀ : Kept r₀ s) :
    KeptX r₀ (execVmin w f s) := by
  unfold execVmin
  repeat' first
    | with_reducible assumption
    | with_reducible apply KeptX.next
    | with_reducible apply laneOp_kept
    | with_reducible apply vec2_kept
    | dsimp only
    | intro _

theorem execVmax_kept {r₀ : State} (w : Issue) (f : VFields) (s : State) (hk₀ : Kept r₀ s) :
    KeptX r₀ (execVmax w f s) := by
  unfold execVmax
  repeat' first
    | with_reducible assumption
    | with_reducible apply KeptX.next
    | with_reducible apply laneOp_kept
    | with_reducible apply vec2_kept
    | dsimp only
    | intro _

theorem execVrcp_kept {r₀ : State} (w : Issue) (f : VFields) (s : State) (hk₀ : Kept r₀ s) :
    KeptX r₀ (execVrcp w f s) := by
  unfold execVrcp
  repeat' first
    | with_reducible assumption
    | with_reducible apply KeptX.next
    | with_reducible apply laneOp_kept
    | with_reducible apply vec2_kept
    | dsimp only
    | intro _

theorem execVrsq_kept {r₀ : State} (w : Issue) (f : VFields) (s : State) (hk₀ : Kept r₀ s) :
    KeptX r₀ (execVrsq w f s) := by
  unfold execVrsq
  repeat' first
    | with_reducible assumption
    | with_reducible apply KeptX.next
    | with_reducible apply laneOp_kept
    | with_reducible apply vec2_kept
    | dsimp only
    | intro _

theorem execVcmpeq_kept {r₀ : State} (w : Issue) (f : VFields) (s : State) (hk₀ : Kept r₀ s) :
    KeptX r₀ (execVcmpeq w f s) := by
  unfold execVcmpeq
  repeat' first
    | with_reducible assumption
    | with_reducible apply KeptX.next
    | with_reducible apply laneOp_kept
    | with_reducible apply vec2_kept
    | dsimp only
    | intro _

theorem execVcmplt_kept {r₀ : State} (w : Issue) (f : VFields) (s : State) (hk₀ : Kept r₀ s) :
    KeptX r₀ (execVcmplt w f s) := by
  unfold execVcmplt
  repeat' first
    | with_reducible assumption
    | with_reducible apply KeptX.next
    | with_reducible apply laneOp_kept
    | with_reducible apply vec2_kept
    | dsimp only
    | intro _

theorem execVcmple_kept {r₀ : State} (w : Issue) (f : VFields) (s : State) (hk₀ : Kept r₀ s) :
    KeptX r₀ (execVcmple w f s) := by
  unfold execVcmple
  repeat' first
    | with_reducible assumption
    | with_reducible apply KeptX.next
    | with_reducible apply laneOp_kept
    | with_reducible apply vec2_kept
    | dsimp only
    | intro _

theorem execVabs_kept {r₀ : State} (w : Issue) (f : VFields) (s : State) (hk₀ : Kept r₀ s) :
    KeptX r₀ (execVabs w f s) := by
  unfold execVabs
  repeat' first
    | with_reducible assumption
    | with_reducible apply KeptX.next
    | with_reducible apply laneOp_kept
    | with_reducible apply raw_kept
    | dsimp only
    | intro _

theorem execVneg_kept {r₀ : State} (w : Issue) (f : VFields) (s : State) (hk₀ : Kept r₀ s) :
    KeptX r₀ (execVneg w f s) := by
  unfold execVneg
  repeat' first
    | with_reducible assumption
    | with_reducible apply KeptX.next
    | with_reducible apply laneOp_kept
    | with_reducible apply raw_kept
    | dsimp only
    | intro _

theorem execVmov_kept {r₀ : State} (w : Issue) (f : VFields) (s : State) (hk₀ : Kept r₀ s) :
    KeptX r₀ (execVmov w f s) := by
  unfold execVmov
  repeat' first
    | with_reducible assumption
    | with_reducible apply KeptX.next
    | with_reducible apply laneOp_kept
    | with_reducible apply raw_kept
    | dsimp only
    | intro _

theorem execVand_kept {r₀ : State} (w : Issue) (f : VFields) (s : State) (hk₀ : Kept r₀ s) :
    KeptX r₀ (execVand w f s) := by
  unfold execVand
  repeat' first
    | with_reducible assumption
    | with_reducible apply KeptX.next
    | with_reducible apply laneOp_kept
    | with_reducible apply raw_kept
    | dsimp only
    | intro _

theorem execVor_kept {r₀ : State} (w : Issue) (f : VFields) (s : State) (hk₀ : Kept r₀ s) :
    KeptX r₀ (execVor w f s) := by
  unfold execVor
  repeat' first
    | with_reducible assumption
    | with_reducible apply KeptX.next
    | with_reducible apply laneOp_kept
    | with_reducible apply raw_kept
    | dsimp only
    | intro _

theorem execVxor_kept {r₀ : State} (w : Issue) (f : VFields) (s : State) (hk₀ : Kept r₀ s) :
    KeptX r₀ (execVxor w f s) := by
  unfold execVxor
  repeat' first
    | with_reducible assumption
    | with_reducible apply KeptX.next
    | with_reducible apply laneOp_kept
    | with_reducible apply raw_kept
    | dsimp only
    | intro _

theorem execVsel_kept {r₀ : State} (w : Issue) (f : VFields) (s : State) (hk₀ : Kept r₀ s) :
    KeptX r₀ (execVsel w f s) := by
  unfold execVsel
  repeat' first
    | with_reducible assumption
    | with_reducible apply KeptX.next
    | with_reducible apply laneOp_kept
    | with_reducible apply raw_kept
    | dsimp only
    | intro _

theorem execVbcast_kept {r₀ : State} (w : Issue) (f : VFields) (s : State) (hk₀ : Kept r₀ s) :
    KeptX r₀ (execVbcast w f s) := by
  unfold execVbcast
  repeat' first
    | with_reducible assumption
    | with_reducible apply KeptX.next
    | with_reducible apply laneOp_kept
    | with_reducible apply broadcast_kept
    | dsimp only
    | intro _

theorem execAclr_kept {r₀ : State} (w : Issue) (f : VFields) (s : State) (hk₀ : Kept r₀ s) :
    KeptX r₀ (execAclr w f s) := by
  unfold execAclr
  repeat' first
    | with_reducible assumption
    | with_reducible apply KeptX.next
    | with_reducible apply laneOp_kept
    | with_reducible apply accVec_kept
    | dsimp only
    | intro _

theorem execAldv_kept {r₀ : State} (w : Issue) (f : VFields) (s : State) (hk₀ : Kept r₀ s) :
    KeptX r₀ (execAldv w f s) := by
  unfold execAldv
  repeat' first
    | with_reducible assumption
    | with_reducible apply KeptX.next
    | with_reducible apply laneOp_kept
    | with_reducible apply accVec_kept
    | dsimp only
    | intro _

theorem execAadd_kept {r₀ : State} (w : Issue) (f : VFields) (s : State) (hk₀ : Kept r₀ s) :
    KeptX r₀ (execAadd w f s) := by
  unfold execAadd
  repeat' first
    | with_reducible assumption
    | with_reducible apply KeptX.next
    | with_reducible apply laneOp_kept
    | with_reducible apply accVec_kept
    | dsimp only
    | intro _

theorem execAmac_kept {r₀ : State} (w : Issue) (f : VFields) (s : State) (hk₀ : Kept r₀ s) :
    KeptX r₀ (execAmac w f s) := by
  unfold execAmac
  repeat' first
    | with_reducible assumption
    | with_reducible apply KeptX.next
    | with_reducible apply laneOp_kept
    | with_reducible apply accVec_kept
    | dsimp only
    | intro _

theorem execAmsc_kept {r₀ : State} (w : Issue) (f : VFields) (s : State) (hk₀ : Kept r₀ s) :
    KeptX r₀ (execAmsc w f s) := by
  unfold execAmsc
  repeat' first
    | with_reducible assumption
    | with_reducible apply KeptX.next
    | with_reducible apply laneOp_kept
    | with_reducible apply accVec_kept
    | dsimp only
    | intro _

theorem execAmul_kept {r₀ : State} (w : Issue) (f : VFields) (s : State) (hk₀ : Kept r₀ s) :
    KeptX r₀ (execAmul w f s) := by
  unfold execAmul
  repeat' first
    | with_reducible assumption
    | with_reducible apply KeptX.next
    | with_reducible apply laneOp_kept
    | with_reducible apply accVec_kept
    | dsimp only
    | intro _

theorem execAscl_kept {r₀ : State} (w : Issue) (f : VFields) (s : State) (hk₀ : Kept r₀ s) :
    KeptX r₀ (execAscl w f s) := by
  unfold execAscl
  repeat' first
    | with_reducible assumption
    | with_reducible apply KeptX.next
    | with_reducible apply laneOp_kept
    | with_reducible apply accScale_kept
    | dsimp only
    | intro _

theorem execAred_kept {r₀ : State} (w : Issue) (f : VFields) (s : State) (hk₀ : Kept r₀ s) :
    KeptX r₀ (execAred w f s) := by
  unfold execAred
  repeat' first
    | with_reducible assumption
    | with_reducible apply KeptX.next
    | with_reducible apply laneOp_kept
    | with_reducible apply accRed_kept
    | dsimp only
    | intro _

theorem execAstv_kept {r₀ : State} (w : Issue) (f : VFields) (s : State) (hk₀ : Kept r₀ s) :
    KeptX r₀ (execAstv w f s) := by
  unfold execAstv
  repeat' first
    | with_reducible assumption
    | with_reducible apply KeptX.next
    | with_reducible apply laneOp_kept
    | with_reducible apply accStoreV_kept
    | dsimp only
    | intro _

theorem execCvtHf_kept {r₀ : State} (w : Issue) (f : VFields) (s : State) (hk₀ : Kept r₀ s) :
    KeptX r₀ (execCvtHf w f s) := by
  unfold execCvtHf
  repeat' first
    | with_reducible assumption
    | with_reducible apply KeptX.next
    | with_reducible apply laneOp_kept
    | with_reducible apply cvtHf_kept
    | dsimp only
    | intro _

theorem execCvtFh_kept {r₀ : State} (w : Issue) (f : VFields) (s : State) (hk₀ : Kept r₀ s) :
    KeptX r₀ (execCvtFh w f s) := by
  unfold execCvtFh
  repeat' first
    | with_reducible assumption
    | with_reducible apply KeptX.next
    | with_reducible apply laneOp_kept
    | with_reducible apply cvtFh_kept
    | dsimp only
    | intro _

theorem execCvtWf_kept {r₀ : State} (w : Issue) (f : VFields) (s : State) (hk₀ : Kept r₀ s) :
    KeptX r₀ (execCvtWf w f s) := by
  unfold execCvtWf
  repeat' first
    | with_reducible assumption
    | with_reducible apply KeptX.next
    | with_reducible apply laneOp_kept
    | with_reducible apply cvtWf_kept
    | dsimp only
    | intro _

theorem execCvtFw_kept {r₀ : State} (w : Issue) (f : VFields) (s : State) (hk₀ : Kept r₀ s) :
    KeptX r₀ (execCvtFw w f s) := by
  unfold execCvtFw
  repeat' first
    | with_reducible assumption
    | with_reducible apply KeptX.next
    | with_reducible apply laneOp_kept
    | with_reducible apply cvtFw_kept
    | dsimp only
    | intro _

theorem execVaddH_kept {r₀ : State} (w : Issue) (f : VFields) (s : State) (hk₀ : Kept r₀ s) :
    KeptX r₀ (execVaddH w f s) := by
  unfold execVaddH
  repeat' first
    | with_reducible assumption
    | with_reducible apply KeptX.next
    | with_reducible apply laneOp_kept
    | with_reducible apply fixH_kept
    | dsimp only
    | intro _

theorem execVsubH_kept {r₀ : State} (w : Issue) (f : VFields) (s : State) (hk₀ : Kept r₀ s) :
    KeptX r₀ (execVsubH w f s) := by
  unfold execVsubH
  repeat' first
    | with_reducible assumption
    | with_reducible apply KeptX.next
    | with_reducible apply laneOp_kept
    | with_reducible apply fixH_kept
    | dsimp only
    | intro _

theorem execVaddsH_kept {r₀ : State} (w : Issue) (f : VFields) (s : State) (hk₀ : Kept r₀ s) :
    KeptX r₀ (execVaddsH w f s) := by
  unfold execVaddsH
  repeat' first
    | with_reducible assumption
    | with_reducible apply KeptX.next
    | with_reducible apply laneOp_kept
    | with_reducible apply fixH_kept
    | dsimp only
    | intro _

theorem execVsubsH_kept {r₀ : State} (w : Issue) (f : VFields) (s : State) (hk₀ : Kept r₀ s) :
    KeptX r₀ (execVsubsH w f s) := by
  unfold execVsubsH
  repeat' first
    | with_reducible assumption
    | with_reducible apply KeptX.next
    | with_reducible apply laneOp_kept
    | with_reducible apply fixH_kept
    | dsimp only
    | intro _

theorem execVmulqH_kept {r₀ : State} (w : Issue) (f : VFields) (s : State) (hk₀ : Kept r₀ s) :
    KeptX r₀ (execVmulqH w f s) := by
  unfold execVmulqH
  repeat' first
    | with_reducible assumption
    | with_reducible apply KeptX.next
    | with_reducible apply laneOp_kept
    | with_reducible apply fixH_kept
    | dsimp only
    | intro _

theorem execVmulqrH_kept {r₀ : State} (w : Issue) (f : VFields) (s : State) (hk₀ : Kept r₀ s) :
    KeptX r₀ (execVmulqrH w f s) := by
  unfold execVmulqrH
  repeat' first
    | with_reducible assumption
    | with_reducible apply KeptX.next
    | with_reducible apply laneOp_kept
    | with_reducible apply fixH_kept
    | dsimp only
    | intro _

theorem execVabssH_kept {r₀ : State} (w : Issue) (f : VFields) (s : State) (hk₀ : Kept r₀ s) :
    KeptX r₀ (execVabssH w f s) := by
  unfold execVabssH
  repeat' first
    | with_reducible assumption
    | with_reducible apply KeptX.next
    | with_reducible apply laneOp_kept
    | with_reducible apply fixH_kept
    | dsimp only
    | intro _

theorem execVnegsH_kept {r₀ : State} (w : Issue) (f : VFields) (s : State) (hk₀ : Kept r₀ s) :
    KeptX r₀ (execVnegsH w f s) := by
  unfold execVnegsH
  repeat' first
    | with_reducible assumption
    | with_reducible apply KeptX.next
    | with_reducible apply laneOp_kept
    | with_reducible apply fixH_kept
    | dsimp only
    | intro _

theorem execVshlsH_kept {r₀ : State} (w : Issue) (f : VFields) (s : State) (hk₀ : Kept r₀ s) :
    KeptX r₀ (execVshlsH w f s) := by
  unfold execVshlsH
  repeat' first
    | with_reducible assumption
    | with_reducible apply KeptX.next
    | with_reducible apply laneOp_kept
    | with_reducible apply shiftH_kept
    | dsimp only
    | intro _

theorem execVshrH_kept {r₀ : State} (w : Issue) (f : VFields) (s : State) (hk₀ : Kept r₀ s) :
    KeptX r₀ (execVshrH w f s) := by
  unfold execVshrH
  repeat' first
    | with_reducible assumption
    | with_reducible apply KeptX.next
    | with_reducible apply laneOp_kept
    | with_reducible apply shiftH_kept
    | dsimp only
    | intro _

theorem execVnormH_kept {r₀ : State} (w : Issue) (f : VFields) (s : State) (hk₀ : Kept r₀ s) :
    KeptX r₀ (execVnormH w f s) := by
  unfold execVnormH
  repeat' first
    | with_reducible assumption
    | with_reducible apply KeptX.next
    | with_reducible apply laneOp_kept
    | with_reducible apply fixH_kept
    | dsimp only
    | intro _

theorem execVaddsW_kept {r₀ : State} (w : Issue) (f : VFields) (s : State) (hk₀ : Kept r₀ s) :
    KeptX r₀ (execVaddsW w f s) := by
  unfold execVaddsW
  repeat' first
    | with_reducible assumption
    | with_reducible apply KeptX.next
    | with_reducible apply laneOp_kept
    | with_reducible apply fixW_kept
    | dsimp only
    | intro _

theorem execVsubsW_kept {r₀ : State} (w : Issue) (f : VFields) (s : State) (hk₀ : Kept r₀ s) :
    KeptX r₀ (execVsubsW w f s) := by
  unfold execVsubsW
  repeat' first
    | with_reducible assumption
    | with_reducible apply KeptX.next
    | with_reducible apply laneOp_kept
    | with_reducible apply fixW_kept
    | dsimp only
    | intro _

theorem execVshlsW_kept {r₀ : State} (w : Issue) (f : VFields) (s : State) (hk₀ : Kept r₀ s) :
    KeptX r₀ (execVshlsW w f s) := by
  unfold execVshlsW
  repeat' first
    | with_reducible assumption
    | with_reducible apply KeptX.next
    | with_reducible apply laneOp_kept
    | with_reducible apply fixW_kept
    | dsimp only
    | intro _

theorem execVshrW_kept {r₀ : State} (w : Issue) (f : VFields) (s : State) (hk₀ : Kept r₀ s) :
    KeptX r₀ (execVshrW w f s) := by
  unfold execVshrW
  repeat' first
    | with_reducible assumption
    | with_reducible apply KeptX.next
    | with_reducible apply laneOp_kept
    | with_reducible apply fixW_kept
    | dsimp only
    | intro _

theorem execVnormW_kept {r₀ : State} (w : Issue) (f : VFields) (s : State) (hk₀ : Kept r₀ s) :
    KeptX r₀ (execVnormW w f s) := by
  unfold execVnormW
  repeat' first
    | with_reducible assumption
    | with_reducible apply KeptX.next
    | with_reducible apply laneOp_kept
    | with_reducible apply fixW_kept
    | dsimp only
    | intro _

theorem execVlmacW_kept {r₀ : State} (w : Issue) (f : VFields) (s : State) (hk₀ : Kept r₀ s) :
    KeptX r₀ (execVlmacW w f s) := by
  unfold execVlmacW
  repeat' first
    | with_reducible assumption
    | with_reducible apply KeptX.next
    | with_reducible apply laneOp_kept
    | with_reducible apply mac16_kept
    | dsimp only
    | intro _

theorem execVlmscW_kept {r₀ : State} (w : Issue) (f : VFields) (s : State) (hk₀ : Kept r₀ s) :
    KeptX r₀ (execVlmscW w f s) := by
  unfold execVlmscW
  repeat' first
    | with_reducible assumption
    | with_reducible apply KeptX.next
    | with_reducible apply laneOp_kept
    | with_reducible apply mac16_kept
    | dsimp only
    | intro _

theorem execVrndW_kept {r₀ : State} (w : Issue) (f : VFields) (s : State) (hk₀ : Kept r₀ s) :
    KeptX r₀ (execVrndW w f s) := by
  unfold execVrndW
  repeat' first
    | with_reducible assumption
    | with_reducible apply KeptX.next
    | with_reducible apply laneOp_kept
    | with_reducible apply roundW_kept
    | dsimp only
    | intro _

end Sys2Proof.Machine
end

