-- ==== Sys2Proof/Laws/KeptLaneMemory.lean ====
section
/-! SUPPORT. What the operations of Machine/LaneMemory.lean keep. -/

set_option linter.unusedTactic false
set_option linter.unreachableTactic false

namespace Sys2Proof.Machine

theorem noteSlot_kept {r₀ : State} (f : LsFields) (bank : Option Nat) (k : Nat) (w : Work) (hk₀ : Kept r₀ w.st) :
    Kept r₀ (noteSlot f bank k w).st := by
  unfold noteSlot
  repeat' first
    | with_reducible assumption
    | with_reducible apply fbump_kept
    | split
    | dsimp only
    | fail_if_no_progress with_reducible refine Kept.upd ?_ (by rfl)

theorem accessTrouble_kept {r : State} (w : Work) (a z cause : Nat) (write : Bool) (check : List Ecc) (h : Kept r w.st) :
    Kept r (accessTrouble w a z cause write check) := by
  unfold accessTrouble
  dsimp only
  split
  · exact recordDenial_kept _ _ _ _ _ h
  · split
    · exact Kept.foldl h (fun s b hs => memoryUe_kept _ _ _ (Kept.upd hs rfl))
    · exact h

theorem loadWords_kept {r₀ : State} (a d z : Nat) (check : List Ecc) (w : Work) (hk₀ : Kept r₀ w.st) :
    Kept r₀ (loadWords a d z check w).st := by
  unfold loadWords
  repeat' first
    | with_reducible assumption
    | with_reducible apply wordsFixed_kept
    | with_reducible apply freeStall_kept
    | split
    | dsimp only
    | fail_if_no_progress with_reducible refine Kept.upd ?_ (by rfl)
    | intro _

theorem loadOp_kept {r : State} (z : Nat) (acc legal : Bool) (f : LsFields) (k : Bytes → Work → Work) (w : Work)
    (hk : ∀ b w, Kept r w.st → Kept r (k b w).st) (h : Kept r w.st) : KeptOp r (loadOp z acc legal f k w) := by
  unfold loadOp
  split
  · exact h
  · dsimp only
    split
    · exact accessTrouble_kept _ _ _ _ _ _ h
    · exact KeptOp.ok (lsUpdate_kept _ _ _ (hk _ _ (noteSlot_kept _ _ _ _ (loadWords_kept _ _ _ _ _ h))))

theorem storeIn_kept {r₀ : State} (d : Nat) (b : Bytes) (w : Work) (hk₀ : Kept r₀ w.st) :
    Kept r₀ (storeIn d b w).st := by
  unfold storeIn
  repeat' first
    | with_reducible assumption
    | with_reducible apply storeBytes_kept
    | dsimp only
    | fail_if_no_progress with_reducible refine Kept.upd ?_ (by rfl)
    | intro _

theorem storeOp_kept {r : State} (z : Nat) (acc legal : Bool) (f : LsFields) (data : Work → Bytes) (after : Work → Work)
    (w : Work) (ha : ∀ w, Kept r w.st → Kept r (after w).st) (h : Kept r w.st) :
    KeptOp r (storeOp z acc legal f data after w) := by
  unfold storeOp
  split
  · exact h
  · dsimp only
    split
    · exact accessTrouble_kept _ _ _ _ _ _ h
    · exact KeptOp.ok (ha _ (lsUpdate_kept _ _ _ (storeIn_kept _ _ _ (noteSlot_kept _ _ _ _ h))))

theorem execLdW_kept {r₀ : State} (w : Issue) (f : LsFields) (s : State) (hk₀ : Kept r₀ s) :
    KeptX r₀ (execLdW w f s) := by
  unfold execLdW
  repeat' first
    | with_reducible assumption
    | with_reducible apply KeptX.next
    | with_reducible apply laneOp_kept
    | with_reducible apply loadOp_kept
    | with_reducible apply setScalar_kept
    | with_reducible apply lockLater_kept
    | dsimp only
    | intro _

theorem execLdD_kept {r₀ : State} (w : Issue) (f : LsFields) (s : State) (hk₀ : Kept r₀ s) :
    KeptX r₀ (execLdD w f s) := by
  unfold execLdD
  repeat' first
    | with_reducible assumption
    | with_reducible apply KeptX.next
    | with_reducible apply laneOp_kept
    | with_reducible apply loadOp_kept
    | with_reducible apply landLater_kept
    | dsimp only
    | intro _

theorem execLdQ_kept {r₀ : State} (w : Issue) (f : LsFields) (s : State) (hk₀ : Kept r₀ s) :
    KeptX r₀ (execLdQ w f s) := by
  unfold execLdQ
  repeat' first
    | with_reducible assumption
    | with_reducible apply KeptX.next
    | with_reducible apply laneOp_kept
    | with_reducible apply loadOp_kept
    | with_reducible apply landLater_kept
    | dsimp only
    | intro _

theorem execLdWb_kept {r₀ : State} (w : Issue) (f : LsFields) (s : State) (hk₀ : Kept r₀ s) :
    KeptX r₀ (execLdWb w f s) := by
  unfold execLdWb
  repeat' first
    | with_reducible assumption
    | with_reducible apply KeptX.next
    | with_reducible apply laneOp_kept
    | with_reducible apply loadOp_kept
    | with_reducible apply landLater_kept
    | dsimp only
    | intro _

theorem execStW_kept {r₀ : State} (w : Issue) (f : LsFields) (s : State) (hk₀ : Kept r₀ s) :
    KeptX r₀ (execStW w f s) := by
  unfold execStW
  repeat' first
    | with_reducible assumption
    | with_reducible apply KeptX.next
    | with_reducible apply laneOp_kept
    | with_reducible apply storeOp_kept
    | with_reducible apply await_kept
    | dsimp only
    | intro _

theorem execStD_kept {r₀ : State} (w : Issue) (f : LsFields) (s : State) (hk₀ : Kept r₀ s) :
    KeptX r₀ (execStD w f s) := by
  unfold execStD
  repeat' first
    | with_reducible assumption
    | with_reducible apply KeptX.next
    | with_reducible apply laneOp_kept
    | with_reducible apply storeOp_kept
    | dsimp only
    | intro _
    | dsimp only [id_eq]

theorem execStQ_kept {r₀ : State} (w : Issue) (f : LsFields) (s : State) (hk₀ : Kept r₀ s) :
    KeptX r₀ (execStQ w f s) := by
  unfold execStQ
  repeat' first
    | with_reducible assumption
    | with_reducible apply KeptX.next
    | with_reducible apply laneOp_kept
    | with_reducible apply storeOp_kept
    | dsimp only
    | intro _
    | dsimp only [id_eq]

theorem execStfQ_kept {r₀ : State} (w : Issue) (f : LsFields) (s : State) (hk₀ : Kept r₀ s) :
    KeptX r₀ (execStfQ w f s) := by
  unfold execStfQ
  repeat' first
    | with_reducible assumption
    | with_reducible apply KeptX.next
    | with_reducible apply laneOp_kept
    | with_reducible apply storeOp_kept
    | with_reducible apply raiseFlags_kept
    | dsimp only
    | intro _

theorem execAload_kept {r₀ : State} (w : Issue) (f : LsFields) (s : State) (hk₀ : Kept r₀ s) :
    KeptX r₀ (execAload w f s) := by
  unfold execAload
  repeat' first
    | with_reducible assumption
    | with_reducible apply KeptX.next
    | with_reducible apply laneOp_kept
    | with_reducible apply loadOp_kept
    | with_reducible apply setAcc_kept
    | with_reducible apply lockLater_kept
    | dsimp only
    | intro _

theorem execAsave_kept {r₀ : State} (w : Issue) (f : LsFields) (s : State) (hk₀ : Kept r₀ s) :
    KeptX r₀ (execAsave w f s) := by
  unfold execAsave
  repeat' first
    | with_reducible assumption
    | with_reducible apply KeptX.next
    | with_reducible apply laneOp_kept
    | with_reducible apply storeOp_kept
    | with_reducible apply await_kept
    | dsimp only
    | intro _

theorem execAdda_kept {r₀ : State} (w : Issue) (f : LsFields) (s : State) (hk₀ : Kept r₀ s) :
    KeptX r₀ (execAdda w f s) := by
  unfold execAdda
  repeat' first
    | with_reducible assumption
    | with_reducible apply KeptX.next
    | with_reducible apply KeptOp.ok
    | with_reducible apply KeptOp.fault
    | with_reducible apply laneOp_kept
    | with_reducible apply lsUpdate_kept
    | with_reducible apply noteSlot_kept
    | with_reducible apply illegal_kept
    | split
    | dsimp only
    | intro _

theorem execAwr_kept {r₀ : State} (w : Issue) (f : LsFields) (s : State) (hk₀ : Kept r₀ s) :
    KeptX r₀ (execAwr w f s) := by
  unfold execAwr
  repeat' first
    | with_reducible assumption
    | with_reducible apply KeptX.next
    | with_reducible apply KeptOp.ok
    | with_reducible apply KeptOp.fault
    | with_reducible apply laneOp_kept
    | with_reducible apply await_kept
    | with_reducible apply noteSlot_kept
    | with_reducible apply illegal_kept
    | split
    | dsimp only
    | fail_if_no_progress with_reducible refine Kept.upd ?_ (by rfl)
    | intro _

theorem execArd_kept {r₀ : State} (w : Issue) (f : LsFields) (s : State) (hk₀ : Kept r₀ s) :
    KeptX r₀ (execArd w f s) := by
  unfold execArd
  repeat' first
    | with_reducible assumption
    | with_reducible apply KeptX.next
    | with_reducible apply KeptOp.ok
    | with_reducible apply KeptOp.fault
    | with_reducible apply laneOp_kept
    | with_reducible apply setScalar_kept
    | with_reducible apply noteSlot_kept
    | with_reducible apply illegal_kept
    | split
    | dsimp only
    | intro _

end Sys2Proof.Machine
end

