-- ==== Sys2Proof/Laws/KeptLaneScalar.lean ====
section
/-! SUPPORT. What the operations of Machine/LaneScalar.lean keep. -/

set_option linter.unusedTactic false
set_option linter.unreachableTactic false

namespace Sys2Proof.Machine

theorem alu_kept {r₀ : State} (fn : Word → Word → Word) (f : AluFields) (w : Work) (hk₀ : Kept r₀ w.st) :
    KeptOp r₀ (alu fn f w) := by
  unfold alu
  repeat' first
    | with_reducible assumption
    | with_reducible apply KeptOp.ok
    | with_reducible apply KeptOp.fault
    | with_reducible apply setScalar_kept
    | with_reducible apply await_kept
    | dsimp only

theorem aluImm_kept {r₀ : State} (fn : Word → Word → Word) (f : ImmFields) (w : Work) (hk₀ : Kept r₀ w.st) :
    KeptOp r₀ (aluImm fn f w) := by
  unfold aluImm
  repeat' first
    | with_reducible assumption
    | with_reducible apply KeptOp.ok
    | with_reducible apply KeptOp.fault
    | with_reducible apply setScalar_kept
    | with_reducible apply await_kept
    | dsimp only

theorem branch_kept {r₀ : State} (taken call : Bool) (t : BitVec 12) (w : Work) (hk₀ : Kept r₀ w.st) :
    KeptOp r₀ (branch taken call t w) := by
  unfold branch
  repeat' first
    | with_reducible assumption
    | with_reducible apply KeptOp.ok
    | with_reducible apply KeptOp.fault
    | split
    | dsimp only
    | fail_if_no_progress with_reducible refine Kept.upd ?_ (by rfl)

theorem moveFrom_kept {r₀ : State} (f : SpecialFields) (w : Work) (hk₀ : Kept r₀ w.st) :
    KeptOp r₀ (moveFrom f w) := by
  unfold moveFrom
  repeat' first
    | with_reducible assumption
    | with_reducible apply KeptOp.ok
    | with_reducible apply KeptOp.fault
    | with_reducible apply illegal_kept
    | with_reducible apply setScalar_kept
    | with_reducible apply freeStall_kept
    | split
    | dsimp only
    | intro _
    | dsimp only [id_eq]

theorem moveTo'_kept {r₀ : State} (f : SpecialFields) (w : Work) (hk₀ : Kept r₀ w.st) :
    KeptOp r₀ (moveTo' f w) := by
  unfold moveTo'
  repeat' first
    | with_reducible assumption
    | with_reducible apply KeptOp.ok
    | with_reducible apply KeptOp.fault
    | with_reducible apply await_kept
    | with_reducible apply illegal_kept
    | split
    | dsimp only
    | fail_if_no_progress with_reducible refine Kept.upd ?_ (by rfl)
    | dsimp only [id_eq]

theorem digestPush_kept {r₀ : State} (lane port q : Nat) (b : Bytes) (s : State) (hk₀ : Kept r₀ s) :
    Kept r₀ (digestPush lane port q b s) := by
  unfold digestPush
  repeat' first
    | with_reducible assumption
    | with_reducible apply putLane_kept
    | (with_reducible apply Kept.foldl <;> intros)
    | (with_reducible apply Kept.foldlFst <;> intros)
    | (with_reducible apply Kept.foldlSnd <;> intros)
    | split
    | dsimp only
    | fail_if_no_progress with_reducible refine Kept.upd ?_ (by rfl)

theorem pushTrouble_kept {r₀ : State} (lane d n : Nat) (s : State) (hk₀ : Kept r₀ s) :
    Kept r₀ (pushTrouble lane d n s) := by
  unfold pushTrouble
  repeat' first
    | with_reducible assumption
    | with_reducible apply transferDropped_kept
    | with_reducible apply memoryUe_kept
    | (with_reducible apply Kept.foldl <;> intros)
    | (with_reducible apply Kept.foldlFst <;> intros)
    | (with_reducible apply Kept.foldlSnd <;> intros)
    | split
    | dsimp only
    | intro _

theorem pushOp_kept {r₀ : State} (f : AluFields) (w : Work) (hk₀ : Kept r₀ w.st) :
    KeptOp r₀ (pushOp f w) := by
  unfold pushOp
  repeat' first
    | with_reducible assumption
    | with_reducible apply KeptOp.ok
    | with_reducible apply KeptOp.fault
    | with_reducible apply await_kept
    | with_reducible apply setScalar_kept
    | with_reducible apply draw_kept
    | with_reducible apply pushMarked_kept
    | with_reducible apply pushTrouble_kept
    | with_reducible apply digestPush_kept
    | with_reducible apply freeStall_kept
    | with_reducible apply putLane_kept
    | split
    | dsimp only
    | fail_if_no_progress with_reducible refine Kept.upd ?_ (by rfl)
    | intro _

theorem noteOp_kept {r₀ : State} (f : AluFields) (w : Work) (hk₀ : Kept r₀ w.st) :
    KeptOp r₀ (noteOp f w) := by
  unfold noteOp
  repeat' first
    | with_reducible assumption
    | with_reducible apply KeptOp.ok
    | with_reducible apply KeptOp.fault
    | with_reducible apply setScalar_kept
    | with_reducible apply putArea_kept
    | split
    | dsimp only
    | fail_if_no_progress with_reducible refine Kept.upd ?_ (by rfl)
    | intro _

theorem cutPush_kept {r₀ : State} (w : Issue) (f : AluFields) (s : State) (hk₀ : Kept r₀ s) :
    Kept r₀ (cutPush w f s) := by
  unfold cutPush
  repeat' first
    | with_reducible assumption
    | with_reducible apply pushMarked_kept
    | with_reducible apply cutStarted_kept
    | split
    | dsimp only
    | intro _

theorem execQpush_kept {r₀ : State} (w : Issue) (f : AluFields) (s : State) (hk₀ : Kept r₀ s) :
    KeptX r₀ (execQpush w f s) := by
  unfold execQpush
  repeat' first
    | with_reducible assumption
    | with_reducible apply KeptX.next
    | with_reducible apply passOp_kept
    | with_reducible apply cutPush_kept
    | with_reducible apply laneOp_kept
    | with_reducible apply pushOp_kept
    | split
    | dsimp only
    | intro _

theorem execQnote_kept {r₀ : State} (w : Issue) (f : AluFields) (s : State) (hk₀ : Kept r₀ s) :
    KeptX r₀ (execQnote w f s) := by
  unfold execQnote
  repeat' first
    | with_reducible assumption
    | with_reducible apply KeptX.next
    | with_reducible apply laneOp_kept
    | with_reducible apply noteOp_kept
    | dsimp only
    | intro _

theorem stallWait_kept {r₀ : State} (w : Issue) (s : State) (hk₀ : Kept r₀ s) :
    Kept r₀ (stallWait w s) := by
  unfold stallWait
  repeat' first
    | with_reducible assumption
    | with_reducible apply putLane_kept
    | split
    | dsimp only
    | fail_if_no_progress with_reducible refine Kept.upd ?_ (by rfl)
    | intro _

theorem goOn_kept {r₀ : State} (w : Work) (hk₀ : Kept r₀ w.st) :
    KeptOp r₀ (goOn w) := by
  unfold goOn
  repeat' first
    | with_reducible assumption
    | with_reducible apply KeptOp.ok
    | with_reducible apply KeptOp.fault
    | with_reducible apply freeStall_kept
    | split
    | dsimp only
    | fail_if_no_progress with_reducible refine Kept.upd ?_ (by rfl)

theorem execQwait_kept {r₀ : State} (w : Issue) (f : AluFields) (s : State) (hk₀ : Kept r₀ s) :
    KeptX r₀ (execQwait w f s) := by
  unfold execQwait
  repeat' first
    | with_reducible assumption
    | with_reducible apply KeptX.next
    | with_reducible apply passOp_kept
    | with_reducible apply openWord_kept
    | with_reducible apply stallWait_kept
    | with_reducible apply runOp_kept
    | with_reducible apply goOn_kept
    | split
    | dsimp only
    | intro _

theorem execTdone_kept {r₀ : State} (w : Issue) (s : State) (hk₀ : Kept r₀ s) :
    KeptX r₀ (execTdone w s) := by
  unfold execTdone
  repeat' first
    | with_reducible assumption
    | with_reducible apply KeptX.next
    | with_reducible apply KeptOp.ok
    | with_reducible apply KeptOp.fault
    | with_reducible apply laneOp_kept
    | dsimp only
    | fail_if_no_progress with_reducible refine Kept.upd ?_ (by rfl)
    | intro _

theorem execMov16_kept {r₀ : State} (w : Issue) (f : MovFields) (s : State) (hk₀ : Kept r₀ s) :
    KeptX r₀ (execMov16 w f s) := by
  unfold execMov16
  repeat' first
    | with_reducible assumption
    | with_reducible apply KeptX.next
    | with_reducible apply KeptOp.ok
    | with_reducible apply KeptOp.fault
    | with_reducible apply laneOp_kept
    | with_reducible apply setScalar_kept
    | with_reducible apply await_kept
    | split
    | dsimp only
    | intro _

theorem execB_kept {r₀ : State} (w : Issue) (f : BranchFields) (s : State) (hk₀ : Kept r₀ s) :
    KeptX r₀ (execB w f s) := by
  unfold execB
  repeat' first
    | with_reducible assumption
    | with_reducible apply KeptX.next
    | with_reducible apply laneOp_kept
    | with_reducible apply branch_kept
    | dsimp only
    | intro _

theorem execBz_kept {r₀ : State} (w : Issue) (f : BranchFields) (s : State) (hk₀ : Kept r₀ s) :
    KeptX r₀ (execBz w f s) := by
  unfold execBz
  repeat' first
    | with_reducible assumption
    | with_reducible apply KeptX.next
    | with_reducible apply laneOp_kept
    | with_reducible apply branch_kept
    | with_reducible apply await_kept
    | dsimp only
    | intro _

theorem execBnz_kept {r₀ : State} (w : Issue) (f : BranchFields) (s : State) (hk₀ : Kept r₀ s) :
    KeptX r₀ (execBnz w f s) := by
  unfold execBnz
  repeat' first
    | with_reducible assumption
    | with_reducible apply KeptX.next
    | with_reducible apply laneOp_kept
    | with_reducible apply branch_kept
    | with_reducible apply await_kept
    | dsimp only
    | intro _

theorem execCall_kept {r₀ : State} (w : Issue) (f : BranchFields) (s : State) (hk₀ : Kept r₀ s) :
    KeptX r₀ (execCall w f s) := by
  unfold execCall
  repeat' first
    | with_reducible assumption
    | with_reducible apply KeptX.next
    | with_reducible apply laneOp_kept
    | with_reducible apply branch_kept
    | with_reducible apply setScalar_kept
    | dsimp only
    | intro _

theorem execRet_kept {r₀ : State} (w : Issue) (_f : BranchFields) (s : State) (hk₀ : Kept r₀ s) :
    KeptX r₀ (execRet w _f s) := by
  unfold execRet
  repeat' first
    | with_reducible assumption
    | with_reducible apply KeptX.next
    | with_reducible apply laneOp_kept
    | with_reducible apply branch_kept
    | with_reducible apply await_kept
    | dsimp only
    | intro _

theorem execLoop_kept {r₀ : State} (w : Issue) (f : LoopFields) (s : State) (hk₀ : Kept r₀ s) :
    KeptX r₀ (execLoop w f s) := by
  unfold execLoop
  repeat' first
    | with_reducible assumption
    | with_reducible apply KeptX.next
    | with_reducible apply KeptOp.ok
    | with_reducible apply KeptOp.fault
    | with_reducible apply laneOp_kept
    | with_reducible apply await_kept
    | split
    | dsimp only
    | fail_if_no_progress with_reducible refine Kept.upd ?_ (by rfl)
    | intro _

theorem execMfs_kept {r₀ : State} (w : Issue) (f : SpecialFields) (s : State) (hk₀ : Kept r₀ s) :
    KeptX r₀ (execMfs w f s) := by
  unfold execMfs
  repeat' first
    | with_reducible assumption
    | with_reducible apply KeptX.next
    | with_reducible apply laneOp_kept
    | with_reducible apply moveFrom_kept
    | dsimp only
    | intro _

theorem execMts_kept {r₀ : State} (w : Issue) (f : SpecialFields) (s : State) (hk₀ : Kept r₀ s) :
    KeptX r₀ (execMts w f s) := by
  unfold execMts
  repeat' first
    | with_reducible assumption
    | with_reducible apply KeptX.next
    | with_reducible apply laneOp_kept
    | with_reducible apply moveTo'_kept
    | dsimp only
    | intro _

theorem execCnext_kept {r₀ : State} (w : Issue) (s : State) (hk₀ : Kept r₀ s) :
    KeptX r₀ (execCnext w s) := by
  unfold execCnext
  repeat' first
    | with_reducible assumption
    | with_reducible apply KeptX.next
    | with_reducible apply KeptOp.ok
    | with_reducible apply KeptOp.fault
    | with_reducible apply laneOp_kept
    | dsimp only
    | fail_if_no_progress with_reducible refine Kept.upd ?_ (by rfl)
    | intro _

theorem execAdd_kept {r₀ : State} (w : Issue) (f : AluFields) (s : State) (hk₀ : Kept r₀ s) :
    KeptX r₀ (execAdd w f s) := by
  unfold execAdd
  repeat' first
    | with_reducible assumption
    | with_reducible apply KeptX.next
    | with_reducible apply laneOp_kept
    | with_reducible apply alu_kept
    | dsimp only
    | intro _

theorem execSub_kept {r₀ : State} (w : Issue) (f : AluFields) (s : State) (hk₀ : Kept r₀ s) :
    KeptX r₀ (execSub w f s) := by
  unfold execSub
  repeat' first
    | with_reducible assumption
    | with_reducible apply KeptX.next
    | with_reducible apply laneOp_kept
    | with_reducible apply alu_kept
    | dsimp only
    | intro _

theorem execAnd_kept {r₀ : State} (w : Issue) (f : AluFields) (s : State) (hk₀ : Kept r₀ s) :
    KeptX r₀ (execAnd w f s) := by
  unfold execAnd
  repeat' first
    | with_reducible assumption
    | with_reducible apply KeptX.next
    | with_reducible apply laneOp_kept
    | with_reducible apply alu_kept
    | dsimp only
    | intro _

theorem execOr_kept {r₀ : State} (w : Issue) (f : AluFields) (s : State) (hk₀ : Kept r₀ s) :
    KeptX r₀ (execOr w f s) := by
  unfold execOr
  repeat' first
    | with_reducible assumption
    | with_reducible apply KeptX.next
    | with_reducible apply laneOp_kept
    | with_reducible apply alu_kept
    | dsimp only
    | intro _

theorem execXor_kept {r₀ : State} (w : Issue) (f : AluFields) (s : State) (hk₀ : Kept r₀ s) :
    KeptX r₀ (execXor w f s) := by
  unfold execXor
  repeat' first
    | with_reducible assumption
    | with_reducible apply KeptX.next
    | with_reducible apply laneOp_kept
    | with_reducible apply alu_kept
    | dsimp only
    | intro _

theorem execShl_kept {r₀ : State} (w : Issue) (f : AluFields) (s : State) (hk₀ : Kept r₀ s) :
    KeptX r₀ (execShl w f s) := by
  unfold execShl
  repeat' first
    | with_reducible assumption
    | with_reducible apply KeptX.next
    | with_reducible apply laneOp_kept
    | with_reducible apply alu_kept
    | dsimp only
    | intro _

theorem execShr_kept {r₀ : State} (w : Issue) (f : AluFields) (s : State) (hk₀ : Kept r₀ s) :
    KeptX r₀ (execShr w f s) := by
  unfold execShr
  repeat' first
    | with_reducible assumption
    | with_reducible apply KeptX.next
    | with_reducible apply laneOp_kept
    | with_reducible apply alu_kept
    | dsimp only
    | intro _

theorem execSra_kept {r₀ : State} (w : Issue) (f : AluFields) (s : State) (hk₀ : Kept r₀ s) :
    KeptX r₀ (execSra w f s) := by
  unfold execSra
  repeat' first
    | with_reducible assumption
    | with_reducible apply KeptX.next
    | with_reducible apply laneOp_kept
    | with_reducible apply alu_kept
    | dsimp only
    | intro _

theorem execMul_kept {r₀ : State} (w : Issue) (f : AluFields) (s : State) (hk₀ : Kept r₀ s) :
    KeptX r₀ (execMul w f s) := by
  unfold execMul
  repeat' first
    | with_reducible assumption
    | with_reducible apply KeptX.next
    | with_reducible apply laneOp_kept
    | with_reducible apply alu_kept
    | dsimp only
    | intro _

theorem execSeq_kept {r₀ : State} (w : Issue) (f : AluFields) (s : State) (hk₀ : Kept r₀ s) :
    KeptX r₀ (execSeq w f s) := by
  unfold execSeq
  repeat' first
    | with_reducible assumption
    | with_reducible apply KeptX.next
    | with_reducible apply laneOp_kept
    | with_reducible apply alu_kept
    | split
    | dsimp only
    | intro _

theorem execSlt_kept {r₀ : State} (w : Issue) (f : AluFields) (s : State) (hk₀ : Kept r₀ s) :
    KeptX r₀ (execSlt w f s) := by
  unfold execSlt
  repeat' first
    | with_reducible assumption
    | with_reducible apply KeptX.next
    | with_reducible apply laneOp_kept
    | with_reducible apply alu_kept
    | split
    | dsimp only
    | intro _

theorem execSltu_kept {r₀ : State} (w : Issue) (f : AluFields) (s : State) (hk₀ : Kept r₀ s) :
    KeptX r₀ (execSltu w f s) := by
  unfold execSltu
  repeat' first
    | with_reducible assumption
    | with_reducible apply KeptX.next
    | with_reducible apply laneOp_kept
    | with_reducible apply alu_kept
    | split
    | dsimp only
    | intro _

theorem execAddi_kept {r₀ : State} (w : Issue) (f : ImmFields) (s : State) (hk₀ : Kept r₀ s) :
    KeptX r₀ (execAddi w f s) := by
  unfold execAddi
  repeat' first
    | with_reducible assumption
    | with_reducible apply KeptX.next
    | with_reducible apply laneOp_kept
    | with_reducible apply aluImm_kept
    | dsimp only
    | intro _

theorem execAndi_kept {r₀ : State} (w : Issue) (f : ImmFields) (s : State) (hk₀ : Kept r₀ s) :
    KeptX r₀ (execAndi w f s) := by
  unfold execAndi
  repeat' first
    | with_reducible assumption
    | with_reducible apply KeptX.next
    | with_reducible apply laneOp_kept
    | with_reducible apply aluImm_kept
    | dsimp only
    | intro _

theorem execOri_kept {r₀ : State} (w : Issue) (f : ImmFields) (s : State) (hk₀ : Kept r₀ s) :
    KeptX r₀ (execOri w f s) := by
  unfold execOri
  repeat' first
    | with_reducible assumption
    | with_reducible apply KeptX.next
    | with_reducible apply laneOp_kept
    | with_reducible apply aluImm_kept
    | dsimp only
    | intro _

theorem execShli_kept {r₀ : State} (w : Issue) (f : ImmFields) (s : State) (hk₀ : Kept r₀ s) :
    KeptX r₀ (execShli w f s) := by
  unfold execShli
  repeat' first
    | with_reducible assumption
    | with_reducible apply KeptX.next
    | with_reducible apply laneOp_kept
    | with_reducible apply aluImm_kept
    | dsimp only
    | intro _

theorem execShri_kept {r₀ : State} (w : Issue) (f : ImmFields) (s : State) (hk₀ : Kept r₀ s) :
    KeptX r₀ (execShri w f s) := by
  unfold execShri
  repeat' first
    | with_reducible assumption
    | with_reducible apply KeptX.next
    | with_reducible apply laneOp_kept
    | with_reducible apply aluImm_kept
    | dsimp only
    | intro _

theorem execSrai_kept {r₀ : State} (w : Issue) (f : ImmFields) (s : State) (hk₀ : Kept r₀ s) :
    KeptX r₀ (execSrai w f s) := by
  unfold execSrai
  repeat' first
    | with_reducible assumption
    | with_reducible apply KeptX.next
    | with_reducible apply laneOp_kept
    | with_reducible apply aluImm_kept
    | dsimp only
    | intro _

end Sys2Proof.Machine
end

