-- ==== Sys2Proof/Laws/KeptMirror.lean ====
section
/-! SUPPORT. What the operations of Machine/Mirror.lean keep. -/

set_option linter.unusedTactic false
set_option linter.unreachableTactic false

namespace Sys2Proof.Machine

theorem putEntry_kept {r₀ : State} (h : Nat) (key : Bytes) (params : List (BitVec 16 × BitVec 32)) (partner : Option Nat) (st : Nat) (chan : Option Nat) (txSeq : BitVec 16) (ts : Word) (s : State) (hk₀ : Kept r₀ s) :
    Kept r₀ (putEntry h key params partner st chan txSeq ts s) := by
  unfold putEntry
  repeat' first
    | with_reducible assumption
    | with_reducible apply freeEntry_kept
    | (with_reducible apply Kept.foldl <;> intros)
    | (with_reducible apply Kept.foldlFst <;> intros)
    | (with_reducible apply Kept.foldlSnd <;> intros)
    | split
    | dsimp only
    | fail_if_no_progress with_reducible refine Kept.upd ?_ (by rfl)
    | intro _

theorem putChannel_kept {r₀ : State} (n acc oth lane cost : Nat) (s : State) (hk₀ : Kept r₀ s) :
    Kept r₀ (putChannel n acc oth lane cost s) := by
  unfold putChannel
  repeat' first
    | with_reducible assumption
    | split
    | dsimp only
    | fail_if_no_progress with_reducible refine Kept.upd ?_ (by rfl)
    | intro _

theorem putLegState_kept {r₀ : State} (h : Nat) (seq : BitVec 16) (ts : Word) (s : State) (hk₀ : Kept r₀ s) :
    Kept r₀ (putLegState h seq ts s) := by
  unfold putLegState
  repeat' first
    | with_reducible assumption
    | with_reducible apply modSess_kept
    | with_reducible apply modLeg_kept
    | split
    | dsimp only
    | fail_if_no_progress with_reducible refine Kept.upd ?_ (by rfl)
    | intro _

theorem laneSynced_kept {r₀ : State} (l : Nat) (s : State) (hk₀ : Kept r₀ s) :
    Kept r₀ (laneSynced l s) := by
  unfold laneSynced
  repeat' first
    | with_reducible assumption
    | with_reducible apply raise_kept
    | with_reducible apply fset_kept
    | split
    | dsimp only

theorem putContext_kept {r₀ : State} (n : Nat) (vbd : Bool) (quiet : Nat) (ec : Ec) (a b : Leg) (s : State) (hk₀ : Kept r₀ s) :
    Kept r₀ (putContext n vbd quiet ec a b s) := by
  unfold putContext
  repeat' first
    | with_reducible assumption
    | with_reducible apply modChan_kept
    | dsimp only
    | fail_if_no_progress with_reducible refine Kept.upd ?_ (by rfl)
    | intro _

theorem applyItem_kept {r₀ : State} (i : CopyItem) (s : State) (hk₀ : Kept r₀ s) :
    Kept r₀ (applyItem i s) := by
  unfold applyItem
  repeat' first
    | with_reducible assumption
    | with_reducible apply putEntry_kept
    | with_reducible apply putChannel_kept
    | with_reducible apply putLegState_kept
    | with_reducible apply statSet_kept
    | with_reducible apply modChan_kept
    | with_reducible apply modRoom_kept
    | with_reducible apply putContext_kept
    | with_reducible apply takeFields_kept
    | with_reducible apply storeBytes_kept
    | with_reducible apply putPeer_kept
    | with_reducible apply laneSynced_kept
    | split
    | dsimp only
    | fail_if_no_progress with_reducible refine Kept.upd ?_ (by rfl)
    | intro _
    | dsimp only [id_eq]

theorem copyItem_kept {r₀ : State} (i : CopyItem) (s : State) (hk₀ : Kept r₀ s) :
    Kept r₀ (copyItem i s) := by
  unfold copyItem
  repeat' first
    | with_reducible assumption
    | with_reducible apply applyItem_kept
    | split
    | dsimp only
    | fail_if_no_progress with_reducible refine Kept.upd ?_ (by rfl)

theorem takeOwed_kept {r₀ : State} (s : State) (hk₀ : Kept r₀ s) :
    Kept r₀ (takeOwed s) := by
  unfold takeOwed
  repeat' first
    | with_reducible assumption
    | with_reducible apply applyItem_kept
    | (with_reducible apply Kept.foldl <;> intros)
    | (with_reducible apply Kept.foldlFst <;> intros)
    | (with_reducible apply Kept.foldlSnd <;> intros)
    | dsimp only
    | fail_if_no_progress with_reducible refine Kept.upd ?_ (by rfl)
    | intro _

theorem writeItem_kept {r : State} (f : CopyItem → State → State) (s : State) (i : CopyItem)
    (hf : ∀ i s, Kept r s → Kept r (f i s)) (h : Kept r s) : Kept r (writeItem f s i) := by
  unfold writeItem
  split
  · exact hf _ _ h
  · exact Kept.upd (recordDenial_kept _ _ _ _ _ h) rfl

theorem sendCopyAck_kept {r₀ : State} (t : Nat) (s : State) (hk₀ : Kept r₀ s) :
    Kept r₀ (sendCopyAck t s) := by
  unfold sendCopyAck
  repeat' first
    | with_reducible assumption
    | with_reducible apply sendPartner_kept
    | dsimp only

theorem takeCopy_kept {r₀ : State} (c : CopyIn) (s : State) (hk₀ : Kept r₀ s) :
    Kept r₀ (takeCopy c s) := by
  unfold takeCopy
  repeat' first
    | with_reducible assumption
    | with_reducible apply writeItem_kept
    | with_reducible apply copyItem_kept
    | with_reducible apply sendCopyAck_kept
    | (with_reducible apply Kept.foldl <;> intros)
    | (with_reducible apply Kept.foldlFst <;> intros)
    | (with_reducible apply Kept.foldlSnd <;> intros)
    | split
    | dsimp only
    | fail_if_no_progress with_reducible refine Kept.upd ?_ (by rfl)
    | intro _

theorem execCopy_kept {r₀ : State} (port : Fin 2) (f : StayIn) (c : CopyIn) (s : State) (hk₀ : Kept r₀ s) :
    KeptX r₀ (execCopy port f c s) := by
  unfold execCopy
  repeat' first
    | with_reducible assumption
    | with_reducible apply KeptX.next
    | with_reducible apply receiveSays_kept
    | with_reducible apply takeCopy_kept
    | dsimp only
    | intro _

theorem execSync_kept {r₀ : State} (port : Fin 2) (f : StayIn) (items : List CopyItem) (s : State) (hk₀ : Kept r₀ s) :
    KeptX r₀ (execSync port f items s) := by
  unfold execSync
  repeat' first
    | with_reducible assumption
    | with_reducible apply KeptX.next
    | with_reducible apply receiveSays_kept
    | with_reducible apply writeItem_kept
    | with_reducible apply applyItem_kept
    | (with_reducible apply Kept.foldl <;> intros)
    | (with_reducible apply Kept.foldlFst <;> intros)
    | (with_reducible apply Kept.foldlSnd <;> intros)
    | split
    | dsimp only
    | fail_if_no_progress with_reducible refine Kept.upd ?_ (by rfl)
    | intro _

theorem takeCopyAck_kept {r₀ : State} (t : Nat) (s : State) (hk₀ : Kept r₀ s) :
    Kept r₀ (takeCopyAck t s) := by
  unfold takeCopyAck
  repeat' first
    | with_reducible assumption
    | with_reducible apply releaseAll_kept
    | split
    | dsimp only
    | fail_if_no_progress with_reducible refine Kept.upd ?_ (by rfl)
    | intro _

theorem execCopyAck_kept {r₀ : State} (port : Fin 2) (f : StayIn) (s : State) (hk₀ : Kept r₀ s) :
    KeptX r₀ (execCopyAck port f s) := by
  unfold execCopyAck
  repeat' first
    | with_reducible assumption
    | with_reducible apply KeptX.next
    | with_reducible apply receiveStay_kept
    | with_reducible apply takeCopyAck_kept
    | dsimp only
    | intro _

theorem execPairCopyTimeout_kept {r₀ : State} (s : State) (hk₀ : Kept r₀ s) :
    KeptX r₀ (execPairCopyTimeout s) := by
  unfold execPairCopyTimeout
  repeat' first
    | with_reducible assumption
    | with_reducible apply KeptX.next
    | with_reducible apply unprotect_kept
    | with_reducible apply raise_kept
    | split
    | dsimp only
    | intro _

theorem execPairSyncDone_kept {r₀ : State} (s : State) (hk₀ : Kept r₀ s) :
    KeptX r₀ (execPairSyncDone s) := by
  unfold execPairSyncDone
  repeat' first
    | with_reducible assumption
    | with_reducible apply KeptX.next
    | with_reducible apply raise_kept
    | with_reducible apply unprotect_kept
    | split
    | dsimp only
    | fail_if_no_progress with_reducible refine Kept.upd ?_ (by rfl)
    | intro _

theorem takeForward_kept {r₀ : State} (d : Bytes) (s : State) (hk₀ : Kept r₀ s) :
    Kept r₀ (takeForward d s) := by
  unfold takeForward
  repeat' first
    | with_reducible assumption
    | with_reducible apply fbump_kept
    | split
    | dsimp only
    | fail_if_no_progress with_reducible refine Kept.upd ?_ (by rfl)

theorem execForward_kept {r₀ : State} (port : Fin 2) (f : StayIn) (s : State) (hk₀ : Kept r₀ s) :
    KeptX r₀ (execForward port f s) := by
  unfold execForward
  repeat' first
    | with_reducible assumption
    | with_reducible apply KeptX.next
    | with_reducible apply receiveStay_kept
    | with_reducible apply takeForward_kept
    | dsimp only
    | intro _

theorem sendCheck_kept {r₀ : State} (c : CheckIn) (s : State) (hk₀ : Kept r₀ s) :
    Kept r₀ (sendCheck c s) := by
  unfold sendCheck
  repeat' first
    | with_reducible assumption
    | with_reducible apply draw_kept
    | with_reducible apply sayPartner_kept
    | dsimp only

theorem resyncLane_kept {r₀ : State} (l : Nat) (s : State) (hk₀ : Kept r₀ s) :
    Kept r₀ (resyncLane l s) := by
  unfold resyncLane
  repeat' first
    | with_reducible assumption
    | with_reducible apply fset_kept
    | dsimp only
    | fail_if_no_progress with_reducible refine Kept.upd ?_ (by rfl)
    | intro _

theorem markFailed_kept {r₀ : State} (l : Nat) (own : Bool) (s : State) (hk₀ : Kept r₀ s) :
    Kept r₀ (markFailed l own s) := by
  unfold markFailed
  repeat' first
    | with_reducible assumption
    | with_reducible apply putLane_kept
    | split
    | dsimp only
    | fail_if_no_progress with_reducible refine Kept.upd ?_ (by rfl)

theorem checkOutcome_kept {r₀ : State} (c : CheckSt) (own other : Bool) (s : State) (hk₀ : Kept r₀ s) :
    Kept r₀ (checkOutcome c own other s) := by
  unfold checkOutcome
  repeat' first
    | with_reducible assumption
    | with_reducible apply raise_kept
    | with_reducible apply markFailed_kept
    | with_reducible apply resyncLane_kept
    | with_reducible apply fbump_kept
    | with_reducible apply yieldOwner_kept
    | with_reducible apply unprotect_kept
    | split
    | dsimp only
    | fail_if_no_progress with_reducible refine Kept.upd ?_ (by rfl)
    | intro _

theorem settleCheck_kept {r₀ : State} (l : Nat) (s : State) (hk₀ : Kept r₀ s) :
    Kept r₀ (settleCheck l s) := by
  unfold settleCheck
  repeat' first
    | with_reducible assumption
    | with_reducible apply checkOutcome_kept
    | split
    | dsimp only
    | intro _

theorem askCheck_kept {r₀ : State} (l t : Nat) (s : State) (hk₀ : Kept r₀ s) :
    Kept r₀ (askCheck l t s) := by
  unfold askCheck
  repeat' first
    | with_reducible assumption
    | split
    | dsimp only
    | fail_if_no_progress with_reducible refine Kept.upd ?_ (by rfl)
    | intro _

theorem noteResult_kept {r₀ : State} (l : Nat) (f : CheckSt → CheckSt) (s : State) (hk₀ : Kept r₀ s) :
    Kept r₀ (noteResult l f s) := by
  unfold noteResult
  repeat' first
    | with_reducible assumption
    | with_reducible apply settleCheck_kept
    | split
    | dsimp only
    | fail_if_no_progress with_reducible refine Kept.upd ?_ (by rfl)
    | intro _

theorem takeCheck_kept {r₀ : State} (c : CheckIn) (s : State) (hk₀ : Kept r₀ s) :
    Kept r₀ (takeCheck c s) := by
  unfold takeCheck
  repeat' first
    | with_reducible assumption
    | with_reducible apply askCheck_kept
    | with_reducible apply noteResult_kept
    | split
    | dsimp only
    | fail_if_no_progress with_reducible refine Kept.upd ?_ (by rfl)
    | intro _

theorem execCheck_kept {r₀ : State} (port : Fin 2) (f : StayIn) (c : CheckIn) (s : State) (hk₀ : Kept r₀ s) :
    KeptX r₀ (execCheck port f c s) := by
  unfold execCheck
  repeat' first
    | with_reducible assumption
    | with_reducible apply KeptX.next
    | with_reducible apply receiveSays_kept
    | with_reducible apply takeCheck_kept
    | dsimp only
    | intro _

theorem execSelfCheck_kept {r₀ : State} (passed : Bool) (s : State) (hk₀ : Kept r₀ s) :
    KeptX r₀ (execSelfCheck passed s) := by
  unfold execSelfCheck
  repeat' first
    | with_reducible assumption
    | with_reducible apply KeptX.next
    | with_reducible apply putLane_kept
    | with_reducible apply noteResult_kept
    | with_reducible apply sendCheck_kept
    | split
    | dsimp only
    | fail_if_no_progress with_reducible refine Kept.upd ?_ (by rfl)
    | intro _

theorem execSelfCheckTimeout_kept {r₀ : State} (s : State) (hk₀ : Kept r₀ s) :
    KeptX r₀ (execSelfCheckTimeout s) := by
  unfold execSelfCheckTimeout
  repeat' first
    | with_reducible assumption
    | with_reducible apply KeptX.next
    | with_reducible apply noteResult_kept
    | split
    | dsimp only
    | fail_if_no_progress with_reducible refine Kept.upd ?_ (by rfl)
    | intro _

theorem digestMismatch_kept {r₀ : State} (l t : Nat) (s : State) (hk₀ : Kept r₀ s) :
    Kept r₀ (digestMismatch l t s) := by
  unfold digestMismatch
  repeat' first
    | with_reducible assumption
    | with_reducible apply fset_kept
    | with_reducible apply fbump_kept
    | with_reducible apply askCheck_kept
    | with_reducible apply sendCheck_kept
    | with_reducible apply raise_kept
    | dsimp only

theorem compareDigests_kept {r₀ : State} (t : Nat) (a b : List (BitVec 64)) (s : State) (hk₀ : Kept r₀ s) :
    Kept r₀ (compareDigests t a b s) := by
  unfold compareDigests
  repeat' first
    | with_reducible assumption
    | with_reducible apply digestMismatch_kept
    | (with_reducible apply Kept.foldl <;> intros)
    | (with_reducible apply Kept.foldlFst <;> intros)
    | (with_reducible apply Kept.foldlSnd <;> intros)
    | split
    | dsimp only
    | intro _

theorem noteDigests_kept {r₀ : State} (t : Nat) (received : Bool) (d : List (BitVec 64)) (s : State) (hk₀ : Kept r₀ s) :
    Kept r₀ (noteDigests t received d s) := by
  unfold noteDigests
  repeat' first
    | with_reducible assumption
    | with_reducible apply compareDigests_kept
    | split
    | dsimp only
    | fail_if_no_progress with_reducible refine Kept.upd ?_ (by rfl)
    | intro _

theorem execDigest_kept {r₀ : State} (port : Fin 2) (f : StayIn) (s : State) (hk₀ : Kept r₀ s) :
    KeptX r₀ (execDigest port f s) := by
  unfold execDigest
  repeat' first
    | with_reducible assumption
    | with_reducible apply KeptX.next
    | with_reducible apply receiveStay_kept
    | with_reducible apply noteDigests_kept
    | split
    | dsimp only
    | intro _

theorem closeDigests_kept {r₀ : State} (t : Nat) (s : State) (hk₀ : Kept r₀ s) :
    Kept r₀ (closeDigests t s) := by
  unfold closeDigests
  repeat' first
    | with_reducible assumption
    | with_reducible apply sendPartner_kept
    | with_reducible apply noteDigests_kept
    | split
    | dsimp only
    | intro _

theorem sendCopy_kept {r₀ : State} (t : Nat) (s : State) (hk₀ : Kept r₀ s) :
    Kept r₀ (sendCopy t s) := by
  unfold sendCopy
  repeat' first
    | with_reducible assumption
    | with_reducible apply draw_kept
    | with_reducible apply sayPartner_kept
    | split
    | dsimp only
    | fail_if_no_progress with_reducible refine Kept.upd ?_ (by rfl)

theorem serveResync_kept {r₀ : State} (s : State) (l : Nat) (hk₀ : Kept r₀ s) :
    Kept r₀ (serveResync s l) := by
  unfold serveResync
  repeat' first
    | with_reducible assumption
    | with_reducible apply laneSynced_kept
    | with_reducible apply draw_kept
    | with_reducible apply sayPartner_kept
    | split
    | dsimp only
    | fail_if_no_progress with_reducible refine Kept.upd ?_ (by rfl)
    | intro _

theorem serveResyncs_kept {r₀ : State} (s : State) (hk₀ : Kept r₀ s) :
    Kept r₀ (serveResyncs s) := by
  unfold serveResyncs
  repeat' first
    | with_reducible assumption
    | with_reducible apply serveResync_kept
    | (with_reducible apply Kept.foldl <;> intros)
    | (with_reducible apply Kept.foldlFst <;> intros)
    | (with_reducible apply Kept.foldlSnd <;> intros)
    | split
    | dsimp only

theorem mirrorBoundary_kept {r₀ : State} (t : Nat) (s : State) (hk₀ : Kept r₀ s) :
    Kept r₀ (mirrorBoundary t s) := by
  unfold mirrorBoundary
  repeat' first
    | with_reducible assumption
    | with_reducible apply serveResyncs_kept
    | with_reducible apply closeDigests_kept
    | with_reducible apply sendCopy_kept
    | with_reducible apply sendHeartbeat_kept
    | with_reducible apply watchPair_kept
    | dsimp only

end Sys2Proof.Machine
end

