-- ==== Sys2Proof/Laws/KeptRigApply.lean ====
section
/-! SUPPORT. What the operations of Machine/RigApply.lean keep. -/

set_option linter.unusedTactic false
set_option linter.unreachableTactic false

namespace Sys2Proof.Machine

theorem startClocks_kept {r₀ : State} (d : Bytes) (s : State) (hk₀ : Kept r₀ s) :
    Kept r₀ (startClocks d s) := by
  unfold startClocks
  repeat' first
    | with_reducible assumption
    | with_reducible apply fset_kept
    | (with_reducible apply Kept.foldl <;> intros)
    | (with_reducible apply Kept.foldlFst <;> intros)
    | (with_reducible apply Kept.foldlSnd <;> intros)
    | dsimp only
    | intro _

theorem writeRegion_kept {r₀ : State} (d : Bytes) (s : State) (r : Nat) (hk₀ : Kept r₀ s) :
    Kept r₀ (writeRegion d s r) := by
  unfold writeRegion
  repeat' first
    | with_reducible assumption
    | with_reducible apply setWord_kept
    | dsimp only

theorem openCellar_kept {r₀ : State} (d : Bytes) (s : State) (hk₀ : Kept r₀ s) :
    Kept r₀ (openCellar d s) := by
  unfold openCellar
  repeat' first
    | with_reducible assumption
    | with_reducible apply setWord_kept
    | with_reducible apply writeRegion_kept
    | with_reducible apply fbump_kept
    | with_reducible apply fset_kept
    | with_reducible apply storeBytes_kept
    | (with_reducible apply Kept.foldl <;> intros)
    | (with_reducible apply Kept.foldlFst <;> intros)
    | (with_reducible apply Kept.foldlSnd <;> intros)
    | dsimp only
    | intro _

theorem writeQueue_kept {r₀ : State} (s : State) (r : Bytes) (hk₀ : Kept r₀ s) :
    Kept r₀ (writeQueue s r) := by
  unfold writeQueue
  repeat' first
    | with_reducible assumption
    | with_reducible apply setWord_kept
    | (with_reducible apply Kept.foldl <;> intros)
    | (with_reducible apply Kept.foldlFst <;> intros)
    | (with_reducible apply Kept.foldlSnd <;> intros)
    | dsimp only
    | fail_if_no_progress with_reducible refine Kept.upd ?_ (by rfl)
    | intro _

theorem writeRing_kept {r₀ : State} (s : State) (r : Bytes) (hk₀ : Kept r₀ s) :
    Kept r₀ (writeRing s r) := by
  unfold writeRing
  repeat' first
    | with_reducible assumption
    | with_reducible apply setWord_kept
    | split
    | dsimp only

theorem writeAddresses_kept {r₀ : State} (d : Bytes) (s : State) (hk₀ : Kept r₀ s) :
    Kept r₀ (writeAddresses d s) := by
  unfold writeAddresses
  repeat' first
    | with_reducible assumption
    | with_reducible apply setWord_kept
    | dsimp only
    | intro _

theorem writePair_kept {r₀ : State} (d : Bytes) (s : State) (hk₀ : Kept r₀ s) :
    Kept r₀ (writePair d s) := by
  unfold writePair
  repeat' first
    | with_reducible assumption
    | with_reducible apply setWord_kept
    | split
    | dsimp only

theorem writeStructure_kept {r₀ : State} (s : State) (hk₀ : Kept r₀ s) :
    Kept r₀ (writeStructure s) := by
  unfold writeStructure
  repeat' first
    | with_reducible assumption
    | with_reducible apply writeQueue_kept
    | with_reducible apply writeRing_kept
    | with_reducible apply writePair_kept
    | with_reducible apply writeAddresses_kept
    | (with_reducible apply Kept.foldl <;> intros)
    | (with_reducible apply Kept.foldlFst <;> intros)
    | (with_reducible apply Kept.foldlSnd <;> intros)
    | dsimp only

theorem writeLane_kept {r₀ : State} (code layout : Bytes) (c : Nat) (s : State) (k : Nat) (hk₀ : Kept r₀ s) :
    Kept r₀ (writeLane code layout c s k) := by
  unfold writeLane
  repeat' first
    | with_reducible assumption
    | with_reducible apply clearRange_kept
    | with_reducible apply storeBytes_kept
    | with_reducible apply setWord_kept
    | with_reducible apply putLane_kept
    | (with_reducible apply Kept.foldl <;> intros)
    | (with_reducible apply Kept.foldlFst <;> intros)
    | (with_reducible apply Kept.foldlSnd <;> intros)
    | dsimp only
    | fail_if_no_progress with_reducible refine Kept.upd ?_ (by rfl)
    | intro _

theorem writeLanes_kept {r₀ : State} (s : State) (c : Nat) (hk₀ : Kept r₀ s) :
    Kept r₀ (writeLanes s c) := by
  unfold writeLanes
  repeat' first
    | with_reducible assumption
    | with_reducible apply writeLane_kept
    | (with_reducible apply Kept.foldl <;> intros)
    | (with_reducible apply Kept.foldlFst <;> intros)
    | (with_reducible apply Kept.foldlSnd <;> intros)
    | dsimp only

theorem writeData_kept {r₀ : State} (c : Nat) (d : Bytes) (s : State) (hk₀ : Kept r₀ s) :
    Kept r₀ (writeData c d s) := by
  unfold writeData
  repeat' first
    | with_reducible assumption
    | with_reducible apply storeBytes_kept
    | (with_reducible apply Kept.foldl <;> intros)
    | (with_reducible apply Kept.foldlFst <;> intros)
    | (with_reducible apply Kept.foldlSnd <;> intros)
    | split
    | dsimp only
    | intro _

theorem writeInit_kept {r₀ : State} (s : State) (d : Bytes) (hk₀ : Kept r₀ s) :
    Kept r₀ (writeInit s d) := by
  unfold writeInit
  repeat' first
    | with_reducible assumption
    | with_reducible apply writeReg_kept
    | (with_reducible apply Kept.foldl <;> intros)
    | (with_reducible apply Kept.foldlFst <;> intros)
    | (with_reducible apply Kept.foldlSnd <;> intros)
    | dsimp only
    | intro _

theorem lockAccess_kept {r₀ : State} (d : Bytes) (s : State) (hk₀ : Kept r₀ s) :
    Kept r₀ (lockAccess d s) := by
  unfold lockAccess
  repeat' first
    | with_reducible assumption
    | with_reducible apply raise_kept
    | (with_reducible apply Kept.foldl <;> intros)
    | (with_reducible apply Kept.foldlFst <;> intros)
    | (with_reducible apply Kept.foldlSnd <;> intros)
    | split
    | dsimp only
    | fail_if_no_progress with_reducible refine Kept.upd ?_ (by rfl)
    | intro _

theorem applySpars_kept {r₀ : State} (s : State) (hk₀ : Kept r₀ s) :
    Kept r₀ (applySpars s) := by
  unfold applySpars
  repeat' first
    | with_reducible assumption
    | with_reducible apply writeLanes_kept
    | with_reducible apply writeStructure_kept
    | with_reducible apply clearRange_kept
    | with_reducible apply writeData_kept
    | with_reducible apply copyMap_kept
    | with_reducible apply writeInit_kept
    | with_reducible apply lockAccess_kept
    | (with_reducible apply Kept.foldl <;> intros)
    | (with_reducible apply Kept.foldlFst <;> intros)
    | (with_reducible apply Kept.foldlSnd <;> intros)
    | dsimp only
    | fail_if_no_progress with_reducible refine Kept.upd ?_ (by rfl)
    | intro _

theorem execRigApply_kept {r₀ : State} (trained : Bool) (s : State) (hk₀ : Kept r₀ s) :
    KeptX r₀ (execRigApply trained s) := by
  unfold execRigApply
  repeat' first
    | with_reducible assumption
    | with_reducible apply KeptX.next
    | with_reducible apply startClocks_kept
    | with_reducible apply applySpars_kept
    | with_reducible apply openCellar_kept
    | with_reducible apply rigFail_kept
    | with_reducible apply fset_kept
    | split
    | dsimp only
    | intro _

theorem holdCluster_kept {r₀ : State} (c : Nat) (s : State) (hk₀ : Kept r₀ s) :
    Kept r₀ (holdCluster c s) := by
  unfold holdCluster
  repeat' first
    | with_reducible assumption
    | with_reducible apply putLane_kept
    | with_reducible apply abandonLane_kept
    | with_reducible apply grantWaiting_kept
    | with_reducible apply discardQueue_kept
    | (with_reducible apply Kept.foldl <;> intros)
    | (with_reducible apply Kept.foldlFst <;> intros)
    | (with_reducible apply Kept.foldlSnd <;> intros)
    | dsimp only
    | fail_if_no_progress with_reducible refine Kept.upd ?_ (by rfl)
    | intro _

theorem rewriteCluster_kept {r₀ : State} (c : Nat) (s : State) (hk₀ : Kept r₀ s) :
    Kept r₀ (rewriteCluster c s) := by
  unfold rewriteCluster
  repeat' first
    | with_reducible assumption
    | with_reducible apply writeLanes_kept
    | with_reducible apply clearRange_kept
    | with_reducible apply writeData_kept
    | (with_reducible apply Kept.foldl <;> intros)
    | (with_reducible apply Kept.foldlFst <;> intros)
    | (with_reducible apply Kept.foldlSnd <;> intros)
    | split
    | dsimp only
    | fail_if_no_progress with_reducible refine Kept.upd ?_ (by rfl)
    | intro _

theorem execRerigApply_kept {r₀ : State} (s : State) (hk₀ : Kept r₀ s) :
    KeptX r₀ (execRerigApply s) := by
  unfold execRerigApply
  repeat' first
    | with_reducible assumption
    | with_reducible apply KeptX.next
    | with_reducible apply holdCluster_kept
    | with_reducible apply clearRange_kept
    | with_reducible apply rigFail_kept
    | with_reducible apply rewriteCluster_kept
    | (with_reducible apply Kept.foldl <;> intros)
    | (with_reducible apply Kept.foldlFst <;> intros)
    | (with_reducible apply Kept.foldlSnd <;> intros)
    | split
    | dsimp only
    | fail_if_no_progress with_reducible refine Kept.upd ?_ (by rfl)
    | intro _

theorem unrigCluster_kept {r₀ : State} (s : State) (c : Nat) (hk₀ : Kept r₀ s) :
    Kept r₀ (unrigCluster s c) := by
  unfold unrigCluster
  repeat' first
    | with_reducible assumption
    | with_reducible apply dropRegs_kept
    | with_reducible apply putLane_kept
    | (with_reducible apply Kept.foldl <;> intros)
    | (with_reducible apply Kept.foldlFst <;> intros)
    | (with_reducible apply Kept.foldlSnd <;> intros)
    | split
    | dsimp only
    | fail_if_no_progress with_reducible refine Kept.upd ?_ (by rfl)
    | intro _

theorem loadDone_kept {r₀ : State} (s : State) (hk₀ : Kept r₀ s) :
    Kept r₀ (loadDone s) := by
  unfold loadDone
  repeat' first
    | with_reducible assumption
    | with_reducible apply rollback_kept
    | with_reducible apply putLane_kept
    | with_reducible apply fbump_kept
    | with_reducible apply raise_kept
    | (with_reducible apply Kept.foldl <;> intros)
    | (with_reducible apply Kept.foldlFst <;> intros)
    | (with_reducible apply Kept.foldlSnd <;> intros)
    | split
    | dsimp only
    | fail_if_no_progress with_reducible refine Kept.upd ?_ (by rfl)
    | intro _

theorem rigBoundary_kept {r₀ : State} (s : State) (hk₀ : Kept r₀ s) :
    Kept r₀ (rigBoundary s) := by
  unfold rigBoundary
  repeat' first
    | with_reducible assumption
    | with_reducible apply loadDone_kept
    | with_reducible apply unrigCluster_kept
    | (with_reducible apply Kept.foldl <;> intros)
    | (with_reducible apply Kept.foldlFst <;> intros)
    | (with_reducible apply Kept.foldlSnd <;> intros)
    | split
    | dsimp only

end Sys2Proof.Machine
end

