-- ==== Sys2Proof/Laws/KeptTick.lean ====
section
/-! SUPPORT. What the operations of Machine/Tick.lean keep. -/

set_option linter.unusedTactic false
set_option linter.unreachableTactic false

namespace Sys2Proof.Machine

theorem actNow_kept {r₀ : State} (a : Armed) (s : State) (hk₀ : Kept r₀ s) :
    Kept r₀ (actNow a s) := by
  unfold actNow
  repeat' first
    | with_reducible assumption
    | with_reducible apply timedResult_kept
    | with_reducible apply boundaryModify_kept
    | with_reducible apply switchAction_kept
    | with_reducible apply planAction_kept
    | split
    | dsimp only
    | fail_if_no_progress with_reducible refine Kept.upd ?_ (by rfl)
    | intro _

theorem takeAction_kept {r₀ : State} (s : State) (a : Armed) (hk₀ : Kept r₀ s) :
    Kept r₀ (takeAction s a) := by
  unfold takeAction
  repeat' first
    | with_reducible assumption
    | with_reducible apply actNow_kept
    | split
    | dsimp only
    | fail_if_no_progress with_reducible refine Kept.upd ?_ (by rfl)
    | intro _

theorem atNextTick_kept {r₀ : State} (f : State → State) (s : State) (hf : ∀ s, Kept r₀ s → Kept r₀ (f s)) (hk₀ : Kept r₀ s) :
    Kept r₀ (atNextTick f s) := by
  unfold atNextTick
  repeat' first
    | with_reducible assumption
    | with_reducible apply hf
    | dsimp only
    | fail_if_no_progress with_reducible refine Kept.upd ?_ (by rfl)

theorem execTimedAction_kept {r₀ : State} (seq : Word) (s : State) (hk₀ : Kept r₀ s) :
    KeptX r₀ (execTimedAction seq s) := by
  unfold execTimedAction
  repeat' first
    | with_reducible assumption
    | with_reducible apply KeptX.next
    | with_reducible apply atNextTick_kept
    | with_reducible apply takeAction_kept
    | split
    | dsimp only
    | intro _

theorem overChannels_kept {r : State} (f : Nat → State → State) (s : State) (hf : ∀ n s, Kept r s → Kept r (f n s))
    (h : Kept r s) : Kept r (overChannels f s) := Kept.foldl h (fun _ _ hs => hf _ _ hs)

theorem takeEffect_kept {r₀ : State} (e : Effect) (s : State) (hk₀ : Kept r₀ s) :
    Kept r₀ (takeEffect e s) := by
  unfold takeEffect
  repeat' first
    | with_reducible assumption
    | with_reducible apply boundaryAdmit_kept
    | with_reducible apply boundaryModify_kept
    | with_reducible apply parkNow_kept
    | split
    | dsimp only
    | intro _

theorem takeEffects_kept {r₀ : State} (held : List Effect) (s : State) (hk₀ : Kept r₀ s) :
    Kept r₀ (takeEffects held s) := by
  unfold takeEffects
  repeat' first
    | with_reducible assumption
    | with_reducible apply addEffect_kept
    | with_reducible apply takeEffect_kept
    | (with_reducible apply Kept.foldl <;> intros)
    | (with_reducible apply Kept.foldlFst <;> intros)
    | (with_reducible apply Kept.foldlSnd <;> intros)
    | split
    | dsimp only
    | fail_if_no_progress with_reducible refine Kept.upd ?_ (by rfl)
    | intro _

theorem forcedPark_kept {r₀ : State} (n : Nat) (s : State) (hk₀ : Kept r₀ s) :
    Kept r₀ (forcedPark n s) := by
  unfold forcedPark
  repeat' first
    | with_reducible assumption
    | with_reducible apply parkNow_kept
    | split
    | dsimp only
    | intro _

theorem waitingReads_kept {r₀ : State} (s : State) (hk₀ : Kept r₀ s) :
    Kept r₀ (waitingReads s) := by
  unfold waitingReads
  repeat' first
    | with_reducible assumption
    | with_reducible apply answerRead_kept
    | (with_reducible apply Kept.foldl <;> intros)
    | (with_reducible apply Kept.foldlFst <;> intros)
    | (with_reducible apply Kept.foldlSnd <;> intros)
    | dsimp only
    | fail_if_no_progress with_reducible refine Kept.upd ?_ (by rfl)
    | intro _

theorem leaveFaulted_kept {r₀ : State} (s : State) (hk₀ : Kept r₀ s) :
    Kept r₀ (leaveFaulted s) := by
  unfold leaveFaulted
  repeat' first
    | with_reducible assumption
    | with_reducible apply leaveLane_kept
    | (with_reducible apply Kept.foldl <;> intros)
    | (with_reducible apply Kept.foldlFst <;> intros)
    | (with_reducible apply Kept.foldlSnd <;> intros)
    | split
    | dsimp only
    | intro _

theorem ageHeld_kept {r₀ : State} (s : State) (hk₀ : Kept r₀ s) :
    Kept r₀ (ageHeld s) := by
  unfold ageHeld
  repeat' first
    | with_reducible assumption
    | dsimp only
    | fail_if_no_progress with_reducible refine Kept.upd ?_ (by rfl)
    | intro _

theorem channelBoundary_kept {r₀ : State} (s : State) (hk₀ : Kept r₀ s) :
    Kept r₀ (channelBoundary s) := by
  unfold channelBoundary
  repeat' first
    | with_reducible assumption
    | with_reducible apply reefSettled_kept
    | with_reducible apply overChannels_kept
    | with_reducible apply stepMove_kept
    | with_reducible apply forcedPark_kept
    | with_reducible apply leaveFaulted_kept
    | with_reducible apply enterVbd_kept
    | with_reducible apply takeEffects_kept
    | with_reducible apply takeAction_kept
    | (with_reducible apply Kept.foldl <;> intros)
    | (with_reducible apply Kept.foldlFst <;> intros)
    | (with_reducible apply Kept.foldlSnd <;> intros)
    | split
    | dsimp only
    | intro _

theorem exchangeBoundary_kept {r₀ : State} (t : Nat) (s : State) (hk₀ : Kept r₀ s) :
    Kept r₀ (exchangeBoundary t s) := by
  unfold exchangeBoundary
  repeat' first
    | with_reducible assumption
    | with_reducible apply ageHeld_kept
    | with_reducible apply tdmReceive_kept
    | with_reducible apply waitingReads_kept
    | with_reducible apply ackOnly_kept
    | with_reducible apply mirrorBoundary_kept
    | with_reducible apply ownUnpaired_kept
    | with_reducible apply resumeChannels_kept
    | with_reducible apply takeOwed_kept
    | (with_reducible apply Kept.foldl <;> intros)
    | (with_reducible apply Kept.foldlFst <;> intros)
    | (with_reducible apply Kept.foldlSnd <;> intros)
    | dsimp only
    | intro _

theorem ueWindow_kept {r₀ : State} (s : State) (hk₀ : Kept r₀ s) :
    Kept r₀ (ueWindow s) := by
  unfold ueWindow
  repeat' first
    | with_reducible assumption
    | with_reducible apply fset_kept
    | split
    | dsimp only
    | fail_if_no_progress with_reducible refine Kept.upd ?_ (by rfl)

theorem clearLines_kept {r₀ : State} (s : State) (hk₀ : Kept r₀ s) :
    Kept r₀ (clearLines s) := by
  unfold clearLines
  repeat' first
    | with_reducible assumption
    | dsimp only
    | fail_if_no_progress with_reducible refine Kept.upd ?_ (by rfl)
    | intro _

theorem fecFacts_kept {r₀ : State} (p : Fin 2 × Nat × Nat) (s : State) (hk₀ : Kept r₀ s) :
    Kept r₀ (fecFacts p s) := by
  unfold fecFacts
  repeat' first
    | with_reducible assumption
    | with_reducible apply fbump_kept
    | with_reducible apply raiseCountingBy_kept
    | split
    | dsimp only

theorem tickFixed_kept {r₀ : State} (f : TickFixed) (s : State) (hk₀ : Kept r₀ s) :
    Kept r₀ (tickFixed f s) := by
  unfold tickFixed
  repeat' first
    | with_reducible assumption
    | with_reducible apply raiseCountingBy_kept
    | with_reducible apply fbump_kept
    | with_reducible apply fecFacts_kept
    | with_reducible apply wordsFixed_kept
    | (with_reducible apply Kept.foldl <;> intros)
    | (with_reducible apply Kept.foldlFst <;> intros)
    | (with_reducible apply Kept.foldlSnd <;> intros)
    | split
    | dsimp only
    | intro _

theorem execTickBoundary_kept {r₀ : State} (temp : BitVec 8) (sample : TtSample) (fixed : TickFixed) (s : State) (hk₀ : Kept r₀ s) :
    KeptX r₀ (execTickBoundary temp sample fixed s) := by
  unfold execTickBoundary
  repeat' first
    | with_reducible assumption
    | with_reducible apply KeptX.next
    | with_reducible apply ageBegins_kept
    | with_reducible apply clearLines_kept
    | with_reducible apply tdmSend_kept
    | with_reducible apply tickTime_kept
    | with_reducible apply tickFixed_kept
    | with_reducible apply exchangeBoundary_kept
    | with_reducible apply channelBoundary_kept
    | with_reducible apply ueWindow_kept
    | with_reducible apply ageSamples_kept
    | with_reducible apply rigBoundary_kept
    | with_reducible apply laneBoundary_kept
    | (with_reducible apply Kept.foldl <;> intros)
    | (with_reducible apply Kept.foldlFst <;> intros)
    | (with_reducible apply Kept.foldlSnd <;> intros)
    | split
    | dsimp only
    | intro _

end Sys2Proof.Machine
end

