-- ==== Sys2Proof/Laws/KeptExec.lean ====
section
/-! SUPPORT. What every command keeps, from the lemmas of the single commands. -/

namespace Sys2Proof.Machine

/-- Whether a command is power-on or one of the boundary scan's, which alone change the TAP (R498, R499). -/
def scans : Instr → Bool
  | .powerOn .. => true
  | .bypass .. => true
  | .idcode .. => true
  | .samplePreload .. => true
  | .extest .. => true
  | .clamp .. => true
  | .highz .. => true
  | .tapReset .. => true
  | _ => false

theorem exec_kept (i : Instr) (s : State) (h : scans i = false) : KeptX s (exec i s) := by
  cases i with
  | tickBoundary temp sample fixed => exact execTickBoundary_kept temp sample fixed s (Kept.refl s)
  | migrateAbandoned chan => exact execMigrateAbandoned_kept chan s (Kept.refl s)
  | tdmFrameStart group rx tx => exact execTdmFrameStart_kept group rx tx s (Kept.refl s)
  | mastWatchdog => exact execMastWatchdog_kept s (Kept.refl s)
  | mastMemUe word => exact execMastMemUe_kept word s (Kept.refl s)
  | mastRestart => exact execMastRestart_kept s (Kept.refl s)
  | sessionInsert => exact execSessionInsert_kept s (Kept.refl s)
  | sessionDelete => exact execSessionDelete_kept s (Kept.refl s)
  | chanAdmit => exact execChanAdmit_kept s (Kept.refl s)
  | chanModify => exact execChanModify_kept s (Kept.refl s)
  | chanPark => exact execChanPark_kept s (Kept.refl s)
  | chanMigrate => exact execChanMigrate_kept s (Kept.refl s)
  | chanQuery => exact execChanQuery_kept s (Kept.refl s)
  | chanClose => exact execChanClose_kept s (Kept.refl s)
  | statsRead => exact execStatsRead_kept s (Kept.refl s)
  | channelTickWork chan sig => exact execChannelTickWork_kept chan sig s (Kept.refl s)
  | windowPlacement chan => exact execWindowPlacement_kept chan s (Kept.refl s)
  | windowRelease chan => exact execWindowRelease_kept chan s (Kept.refl s)
  | dtdHangoverEnd chan => exact execDtdHangoverEnd_kept chan s (Kept.refl s)
  | divergenceReset chan => exact execDivergenceReset_kept chan s (Kept.refl s)
  | toneDisableEnter chan => exact execToneDisableEnter_kept chan s (Kept.refl s)
  | toneDisableExit chan => exact execToneDisableExit_kept chan s (Kept.refl s)
  | muteLift chan leg => exact execMuteLift_kept chan leg s (Kept.refl s)
  | eventGenerationEnd chan leg => exact execEventGenerationEnd_kept chan leg s (Kept.refl s)
  | toneGenEnd chan leg => exact execToneGenEnd_kept chan leg s (Kept.refl s)
  | rtcpReport chan leg => exact execRtcpReport_kept chan leg s (Kept.refl s)
  | vbdExit chan => exact execVbdExit_kept chan s (Kept.refl s)
  | adaptWindowEnd chan leg => exact execAdaptWindowEnd_kept chan leg s (Kept.refl s)
  | intervalClose peer dic => exact execIntervalClose_kept peer dic s (Kept.refl s)
  | bundleReceive peer bytes dic => exact execBundleReceive_kept peer bytes dic s (Kept.refl s)
  | reorderTimeout peer => exact execReorderTimeout_kept peer s (Kept.refl s)
  | bndPeerDown peer => exact execBndPeerDown_kept peer s (Kept.refl s)
  | peerEnable master peer value => exact execPeerEnable_kept master peer value s (Kept.refl s)
  | dicCmdTurn master value => exact execDicCmdTurn_kept master value s (Kept.refl s)
  | portRestart master port value => exact execPortRestart_kept master port value s (Kept.refl s)
  | portLinkUp port => exact execPortLinkUp_kept port s (Kept.refl s)
  | portLinkDown fall => exact execPortLinkDown_kept fall s (Kept.refl s)
  | frameReceive port bytes arrival => exact execFrameReceive_kept port bytes arrival s (Kept.refl s)
  | pauseExpire port queue => exact execPauseExpire_kept port queue s (Kept.refl s)
  | pauseWatchdog port queue => exact execPauseWatchdog_kept port queue s (Kept.refl s)
  | holdoffEnd port queue => exact execHoldoffEnd_kept port queue s (Kept.refl s)
  | classifyFrame port => exact execClassifyFrame_kept port s (Kept.refl s)
  | mastFrameReceive port => exact execMastFrameReceive_kept port s (Kept.refl s)
  | frameTransmit start => exact execFrameTransmit_kept start s (Kept.refl s)
  | txMapChange port => exact execTxMapChange_kept port s (Kept.refl s)
  | gateApply master port value => exact execGateApply_kept master port value s (Kept.refl s)
  | gateListStart port => exact execGateListStart_kept port s (Kept.refl s)
  | gateEntryChange port => exact execGateEntryChange_kept port s (Kept.refl s)
  | svcCollision late => exact execSvcCollision_kept late s (Kept.refl s)
  | svcBackoffEnd => exact execSvcBackoffEnd_kept s (Kept.refl s)
  | mdioStart master value => exact execMdioStart_kept master value s (Kept.refl s)
  | mdioDone data => exact execMdioDone_kept data s (Kept.refl s)
  | tdmGroupCtrlWrite master group value => exact execTdmGroupCtrlWrite_kept master group value s (Kept.refl s)
  | tdmGroupLocked group => exact execTdmGroupLocked_kept group s (Kept.refl s)
  | tdmGroupLost group cause => exact execTdmGroupLost_kept group cause s (Kept.refl s)
  | tdmClockReturn group => exact execTdmClockReturn_kept group s (Kept.refl s)
  | mapSwapArm master value => exact execMapSwapArm_kept master value s (Kept.refl s)
  | mapSwapCancel master value => exact execMapSwapCancel_kept master value s (Kept.refl s)
  | tdmMapSwap => exact execTdmMapSwap_kept s (Kept.refl s)
  | timeCapture master value => exact execTimeCapture_kept master value s (Kept.refl s)
  | timeStep master value => exact execTimeStep_kept master value s (Kept.refl s)
  | timeAccept master value => exact execTimeAccept_kept master value s (Kept.refl s)
  | servoHold master value => exact execServoHold_kept master value s (Kept.refl s)
  | servoResume master value => exact execServoResume_kept master value s (Kept.refl s)
  | servoCtrlWrite master value => exact execServoCtrlWrite_kept master value s (Kept.refl s)
  | timRateWrite master value => exact execTimRateWrite_kept master value s (Kept.refl s)
  | hostPush master value => exact execHostPush_kept master value s (Kept.refl s)
  | ptpReceive port => exact execPtpReceive_kept port s (Kept.refl s)
  | delayReqSend => exact execDelayReqSend_kept s (Kept.refl s)
  | announceTimeout => exact execAnnounceTimeout_kept s (Kept.refl s)
  | tcForward port => exact execTcForward_kept port s (Kept.refl s)
  | timedAction seq => exact execTimedAction_kept seq s (Kept.refl s)
  | islClkRequest master island value => exact execIslClkRequest_kept master island value s (Kept.refl s)
  | synthLock island => exact execSynthLock_kept island s (Kept.refl s)
  | islClkSwitch island => exact execIslClkSwitch_kept island s (Kept.refl s)
  | islClkLockFail island => exact execIslClkLockFail_kept island s (Kept.refl s)
  | queuePushStart queue port bytes => exact execQueuePushStart_kept queue port bytes s (Kept.refl s)
  | queuePushWord queue vc => exact execQueuePushWord_kept queue vc s (Kept.refl s)
  | queuePop queue vc check => exact execQueuePop_kept queue vc check s (Kept.refl s)
  | queueNotice queue vc => exact execQueueNotice_kept queue vc s (Kept.refl s)
  | deliveryWrite lane port => exact execDeliveryWrite_kept lane port s (Kept.refl s)
  | queStall queue vc => exact execQueStall_kept queue vc s (Kept.refl s)
  | rigStart master value => exact execRigStart_kept master value s (Kept.refl s)
  | rigAbort master value => exact execRigAbort_kept master value s (Kept.refl s)
  | rigRollbackCommit master value => exact execRigRollbackCommit_kept master value s (Kept.refl s)
  | rigData master bytes => exact execRigData_kept master bytes s (Kept.refl s)
  | rigDataTimeout => exact execRigDataTimeout_kept s (Kept.refl s)
  | qspiRead data ok => exact execQspiRead_kept data ok s (Kept.refl s)
  | imageReceived => exact execImageReceived_kept s (Kept.refl s)
  | loaderCheckDone => exact execLoaderCheckDone_kept s (Kept.refl s)
  | rigApply trained => exact execRigApply_kept trained s (Kept.refl s)
  | rerigApply => exact execRerigApply_kept s (Kept.refl s)
  | resetAssert => exact execResetAssert_kept s (Kept.refl s)
  | resetRelease bootSel => exact execResetRelease_kept bootSel s (Kept.refl s)
  | bootSupplyReady fusesOk romOk healthy readA readB => exact execBootSupplyReady_kept fusesOk romOk healthy readA readB s (Kept.refl s)
  | firmwareReady => exact execFirmwareReady_kept s (Kept.refl s)
  | fwStartTimeout => exact execFwStartTimeout_kept s (Kept.refl s)
  | ownerEnrol master value => exact execOwnerEnrol_kept master value s (Kept.refl s)
  | keyRevoke master value => exact execKeyRevoke_kept master value s (Kept.refl s)
  | lockDebug master value => exact execLockDebug_kept master value s (Kept.refl s)
  | attestRequest master value => exact execAttestRequest_kept master value s (Kept.refl s)
  | attestDone => exact execAttestDone_kept s (Kept.refl s)
  | registerWrite master address value => exact execRegisterWrite_kept master address value s (Kept.refl s)
  | laneRestart master lane value => exact execLaneRestart_kept master lane value s (Kept.refl s)
  | mstTickLoRead master => exact execMstTickLoRead_kept master s (Kept.refl s)
  | read frame => exact execRead_kept frame s (Kept.refl s)
  | write frame => exact execWrite_kept frame s (Kept.refl s)
  | writePosted frame => exact execWritePosted_kept frame s (Kept.refl s)
  | cmdSubmit frame => exact execCmdSubmit_kept frame s (Kept.refl s)
  | cplRead frame => exact execCplRead_kept frame s (Kept.refl s)
  | evtRead frame => exact execEvtRead_kept frame s (Kept.refl s)
  | responseRead clocked => exact execResponseRead_kept clocked s (Kept.refl s)
  | enec direct events => exact execEnec_kept direct events s (Kept.refl s)
  | disec direct events => exact execDisec_kept direct events s (Kept.refl s)
  | rstdaa => exact execRstdaa_kept s (Kept.refl s)
  | entdaa addr won => exact execEntdaa_kept addr won s (Kept.refl s)
  | setdasa static addr => exact execSetdasa_kept static addr s (Kept.refl s)
  | setaasa => exact execSetaasa_kept s (Kept.refl s)
  | setnewda addr => exact execSetnewda_kept addr s (Kept.refl s)
  | getpid => exact execGetpid_kept s (Kept.refl s)
  | getbcr => exact execGetbcr_kept s (Kept.refl s)
  | getdcr => exact execGetdcr_kept s (Kept.refl s)
  | getstatus => exact execGetstatus_kept s (Kept.refl s)
  | setmwl len => exact execSetmwl_kept len s (Kept.refl s)
  | getmwl => exact execGetmwl_kept s (Kept.refl s)
  | setmrl len => exact execSetmrl_kept len s (Kept.refl s)
  | getmrl => exact execGetmrl_kept s (Kept.refl s)
  | getmxds => exact execGetmxds_kept s (Kept.refl s)
  | getcaps => exact execGetcaps_kept s (Kept.refl s)
  | enthdr0 => exact execEnthdr0_kept s (Kept.refl s)
  | entas0 => exact execEntas0_kept s (Kept.refl s)
  | entas1 => exact execEntas1_kept s (Kept.refl s)
  | entas2 => exact execEntas2_kept s (Kept.refl s)
  | entas3 => exact execEntas3_kept s (Kept.refl s)
  | eventPost => exact execEventPost_kept s (Kept.refl s)
  | transferUe master source dest len bad => exact execTransferUe_kept master source dest len bad s (Kept.refl s)
  | celScrubRead check => exact execCelScrubRead_kept check s (Kept.refl s)
  | celCaRetry master writeCrc => exact execCelCaRetry_kept master writeCrc s (Kept.refl s)
  | celRetrainDone passed => exact execCelRetrainDone_kept passed s (Kept.refl s)
  | stayLinkUp port => exact execStayLinkUp_kept port s (Kept.refl s)
  | stayLinkDown port => exact execStayLinkDown_kept port s (Kept.refl s)
  | stayCutEnd port => exact execStayCutEnd_kept port s (Kept.refl s)
  | helloSend port => exact execHelloSend_kept port s (Kept.refl s)
  | stayRetransmit port => exact execStayRetransmit_kept port s (Kept.refl s)
  | ack port f => exact execAck_kept port f s (Kept.refl s)
  | hello port f => exact execHello_kept port f s (Kept.refl s)
  | heartbeat port f => exact execHeartbeat_kept port f s (Kept.refl s)
  | yield port f => exact execYield_kept port f s (Kept.refl s)
  | copy port f c => exact execCopy_kept port f c s (Kept.refl s)
  | copyAck port f => exact execCopyAck_kept port f s (Kept.refl s)
  | forward port f => exact execForward_kept port f s (Kept.refl s)
  | digest port f => exact execDigest_kept port f s (Kept.refl s)
  | check port f c => exact execCheck_kept port f c s (Kept.refl s)
  | sync port f items => exact execSync_kept port f items s (Kept.refl s)
  | selfCheck passed => exact execSelfCheck_kept passed s (Kept.refl s)
  | selfCheckTimeout => exact execSelfCheckTimeout_kept s (Kept.refl s)
  | bulkSyncStart => exact execBulkSyncStart_kept s (Kept.refl s)
  | pairSyncDone => exact execPairSyncDone_kept s (Kept.refl s)
  | pairCopyTimeout => exact execPairCopyTimeout_kept s (Kept.refl s)
  | pairHeartbeatLost => exact execPairHeartbeatLost_kept s (Kept.refl s)
  | challenge line => exact execChallenge_kept line s (Kept.refl s)
  | halyardStart => exact execHalyardStart_kept s (Kept.refl s)
  | halyardRound others => exact execHalyardRound_kept others s (Kept.refl s)
  | pairOwnerGained => exact execPairOwnerGained_kept s (Kept.refl s)
  | halyardStuckLow => exact execHalyardStuckLow_kept s (Kept.refl s)
  | listeningEnd => exact execListeningEnd_kept s (Kept.refl s)
  | pairYieldFailed => exact execPairYieldFailed_kept s (Kept.refl s)
  | pairSwitch => exact execPairSwitch_kept s (Kept.refl s)
  | pairHold => exact execPairHold_kept s (Kept.refl s)
  | pairResync => exact execPairResync_kept s (Kept.refl s)
  | pairQuery => exact execPairQuery_kept s (Kept.refl s)
  | hourEnd => exact execHourEnd_kept s (Kept.refl s)
  | plannerRun => exact execPlannerRun_kept s (Kept.refl s)
  | planRun => exact execPlanRun_kept s (Kept.refl s)
  | planRecordSet => exact execPlanRecordSet_kept s (Kept.refl s)
  | reefEnter => exact execReefEnter_kept s (Kept.refl s)
  | reefExit => exact execReefExit_kept s (Kept.refl s)
  | wakeOnly => exact execWakeOnly_kept s (Kept.refl s)
  | reefEntry => exact execReefEntry_kept s (Kept.refl s)
  | wakeOnlyEnter => exact execWakeOnlyEnter_kept s (Kept.refl s)
  | wakeOnlyExit match_ bootSel => exact execWakeOnlyExit_kept match_ bootSel s (Kept.refl s)
  | supplyOutOfRange report => exact execSupplyOutOfRange_kept report s (Kept.refl s)
  | supplyInRange report => exact execSupplyInRange_kept report s (Kept.refl s)
  | sequenceViolation rail => exact execSequenceViolation_kept rail s (Kept.refl s)
  | sysclkLoss => exact execSysclkLoss_kept s (Kept.refl s)
  | sysclkReturn bootSel => exact execSysclkReturn_kept bootSel s (Kept.refl s)
  | refclkLoss => exact execRefclkLoss_kept s (Kept.refl s)
  | refclkReturn => exact execRefclkReturn_kept s (Kept.refl s)
  | bypass => cases h
  | idcode => cases h
  | samplePreload pins preload => cases h
  | extest => cases h
  | clamp => cases h
  | highz => cases h
  | tapReset => cases h
  | vadd w f => exact execVadd_kept w f s (Kept.refl s)
  | vsub w f => exact execVsub_kept w f s (Kept.refl s)
  | vmul w f => exact execVmul_kept w f s (Kept.refl s)
  | vfma w f => exact execVfma_kept w f s (Kept.refl s)
  | vfms w f => exact execVfms_kept w f s (Kept.refl s)
  | vmin w f => exact execVmin_kept w f s (Kept.refl s)
  | vmax w f => exact execVmax_kept w f s (Kept.refl s)
  | vrcp w f => exact execVrcp_kept w f s (Kept.refl s)
  | vrsq w f => exact execVrsq_kept w f s (Kept.refl s)
  | vcmpeq w f => exact execVcmpeq_kept w f s (Kept.refl s)
  | vcmplt w f => exact execVcmplt_kept w f s (Kept.refl s)
  | vcmple w f => exact execVcmple_kept w f s (Kept.refl s)
  | vabs w f => exact execVabs_kept w f s (Kept.refl s)
  | vneg w f => exact execVneg_kept w f s (Kept.refl s)
  | vmov w f => exact execVmov_kept w f s (Kept.refl s)
  | vand w f => exact execVand_kept w f s (Kept.refl s)
  | vor w f => exact execVor_kept w f s (Kept.refl s)
  | vxor w f => exact execVxor_kept w f s (Kept.refl s)
  | vsel w f => exact execVsel_kept w f s (Kept.refl s)
  | vbcast w f => exact execVbcast_kept w f s (Kept.refl s)
  | aclr w f => exact execAclr_kept w f s (Kept.refl s)
  | aldv w f => exact execAldv_kept w f s (Kept.refl s)
  | aadd w f => exact execAadd_kept w f s (Kept.refl s)
  | amac w f => exact execAmac_kept w f s (Kept.refl s)
  | amsc w f => exact execAmsc_kept w f s (Kept.refl s)
  | amul w f => exact execAmul_kept w f s (Kept.refl s)
  | ascl w f => exact execAscl_kept w f s (Kept.refl s)
  | ared w f => exact execAred_kept w f s (Kept.refl s)
  | astv w f => exact execAstv_kept w f s (Kept.refl s)
  | cvtHf w f => exact execCvtHf_kept w f s (Kept.refl s)
  | cvtFh w f => exact execCvtFh_kept w f s (Kept.refl s)
  | cvtWf w f => exact execCvtWf_kept w f s (Kept.refl s)
  | cvtFw w f => exact execCvtFw_kept w f s (Kept.refl s)
  | vaddH w f => exact execVaddH_kept w f s (Kept.refl s)
  | vsubH w f => exact execVsubH_kept w f s (Kept.refl s)
  | vaddsH w f => exact execVaddsH_kept w f s (Kept.refl s)
  | vsubsH w f => exact execVsubsH_kept w f s (Kept.refl s)
  | vmulqH w f => exact execVmulqH_kept w f s (Kept.refl s)
  | vmulqrH w f => exact execVmulqrH_kept w f s (Kept.refl s)
  | vabssH w f => exact execVabssH_kept w f s (Kept.refl s)
  | vnegsH w f => exact execVnegsH_kept w f s (Kept.refl s)
  | vshlsH w f => exact execVshlsH_kept w f s (Kept.refl s)
  | vshrH w f => exact execVshrH_kept w f s (Kept.refl s)
  | vnormH w f => exact execVnormH_kept w f s (Kept.refl s)
  | vaddsW w f => exact execVaddsW_kept w f s (Kept.refl s)
  | vsubsW w f => exact execVsubsW_kept w f s (Kept.refl s)
  | vshlsW w f => exact execVshlsW_kept w f s (Kept.refl s)
  | vshrW w f => exact execVshrW_kept w f s (Kept.refl s)
  | vnormW w f => exact execVnormW_kept w f s (Kept.refl s)
  | vlmacW w f => exact execVlmacW_kept w f s (Kept.refl s)
  | vlmscW w f => exact execVlmscW_kept w f s (Kept.refl s)
  | vrndW w f => exact execVrndW_kept w f s (Kept.refl s)
  | ldW w f => exact execLdW_kept w f s (Kept.refl s)
  | ldD w f => exact execLdD_kept w f s (Kept.refl s)
  | ldQ w f => exact execLdQ_kept w f s (Kept.refl s)
  | ldWb w f => exact execLdWb_kept w f s (Kept.refl s)
  | stW w f => exact execStW_kept w f s (Kept.refl s)
  | stD w f => exact execStD_kept w f s (Kept.refl s)
  | stQ w f => exact execStQ_kept w f s (Kept.refl s)
  | stfQ w f => exact execStfQ_kept w f s (Kept.refl s)
  | aload w f => exact execAload_kept w f s (Kept.refl s)
  | asave w f => exact execAsave_kept w f s (Kept.refl s)
  | adda w f => exact execAdda_kept w f s (Kept.refl s)
  | awr w f => exact execAwr_kept w f s (Kept.refl s)
  | ard w f => exact execArd_kept w f s (Kept.refl s)
  | add w f => exact execAdd_kept w f s (Kept.refl s)
  | sub w f => exact execSub_kept w f s (Kept.refl s)
  | and w f => exact execAnd_kept w f s (Kept.refl s)
  | or w f => exact execOr_kept w f s (Kept.refl s)
  | xor w f => exact execXor_kept w f s (Kept.refl s)
  | shl w f => exact execShl_kept w f s (Kept.refl s)
  | shr w f => exact execShr_kept w f s (Kept.refl s)
  | sra w f => exact execSra_kept w f s (Kept.refl s)
  | mul w f => exact execMul_kept w f s (Kept.refl s)
  | seq w f => exact execSeq_kept w f s (Kept.refl s)
  | slt w f => exact execSlt_kept w f s (Kept.refl s)
  | sltu w f => exact execSltu_kept w f s (Kept.refl s)
  | addi w f => exact execAddi_kept w f s (Kept.refl s)
  | andi w f => exact execAndi_kept w f s (Kept.refl s)
  | ori w f => exact execOri_kept w f s (Kept.refl s)
  | shli w f => exact execShli_kept w f s (Kept.refl s)
  | shri w f => exact execShri_kept w f s (Kept.refl s)
  | srai w f => exact execSrai_kept w f s (Kept.refl s)
  | mov16 w f => exact execMov16_kept w f s (Kept.refl s)
  | b w f => exact execB_kept w f s (Kept.refl s)
  | bz w f => exact execBz_kept w f s (Kept.refl s)
  | bnz w f => exact execBnz_kept w f s (Kept.refl s)
  | call w f => exact execCall_kept w f s (Kept.refl s)
  | ret w f => exact execRet_kept w f s (Kept.refl s)
  | loop w f => exact execLoop_kept w f s (Kept.refl s)
  | mfs w f => exact execMfs_kept w f s (Kept.refl s)
  | mts w f => exact execMts_kept w f s (Kept.refl s)
  | qpush w f => exact execQpush_kept w f s (Kept.refl s)
  | qnote w f => exact execQnote_kept w f s (Kept.refl s)
  | qwait w f => exact execQwait_kept w f s (Kept.refl s)
  | cnext w => exact execCnext_kept w s (Kept.refl s)
  | tdone w => exact execTdone_kept w s (Kept.refl s)
  | bootSupplyTimeout => exact execBootSupplyTimeout_kept s (Kept.refl s)
  | powerOn => cases h
  | busAvailable accepted => exact execBusAvailable_kept accepted s (Kept.refl s)
  | cellarDmaDone master source dest len work => exact execCellarDmaDone_kept master source dest len work s (Kept.refl s)
  | tdmFsMisplaced group => exact execTdmFsMisplaced_kept group s (Kept.refl s)

end Sys2Proof.Machine
end

