-- ==== Sys2Proof/Laws/State.lean ====
section
/-! SUPPORT. The state: what each named update and shared operation leaves as it was, field by field, so that no proof unfolds
one of them to read a field that it does not touch. -/

set_option linter.unusedSimpArgs false
set_option linter.unusedTactic false
set_option linter.unreachableTactic false

namespace Sys2Proof.Machine

/-- `setWord` changes `regs` alone. -/
@[simp] theorem setWord_frame (a : Nat) (w : Nat) (s : State) :
    (setWord a w s).pending = s.pending ∧ (setWord a w s).free = s.free ∧ (setWord a w s).mem = s.mem ∧
    (setWord a w s).poison = s.poison ∧ (setWord a w s).time = s.time ∧ (setWord a w s).host = s.host ∧
    (setWord a w s).ev = s.ev ∧ (setWord a w s).mast = s.mast ∧ (setWord a w s).lanes = s.lanes ∧
    (setWord a w s).sess = s.sess ∧ (setWord a w s).chans = s.chans ∧ (setWord a w s).peers = s.peers ∧
    (setWord a w s).ports = s.ports ∧ (setWord a w s).svc = s.svc ∧ (setWord a w s).tdm = s.tdm ∧
    (setWord a w s).isls = s.isls ∧ (setWord a w s).ques = s.ques ∧ (setWord a w s).vcs = s.vcs ∧
    (setWord a w s).areas = s.areas ∧ (setWord a w s).rig = s.rig ∧ (setWord a w s).boot = s.boot ∧
    (setWord a w s).acc = s.acc ∧ (setWord a w s).cel = s.cel ∧ (setWord a w s).stay = s.stay ∧
    (setWord a w s).pair = s.pair ∧ (setWord a w s).age = s.age ∧ (setWord a w s).jtag = s.jtag ∧
    (setWord a w s).supply = s.supply ∧ (setWord a w s).sysLost = s.sysLost := by
  simp only [setWord, and_self]

/-- `fset` changes `regs` alone. -/
@[simp] theorem fset_frame (f : Fld) (v : Nat) (s : State) (i : Nat) (j : Nat) :
    (fset f v s i j).pending = s.pending ∧ (fset f v s i j).free = s.free ∧ (fset f v s i j).mem = s.mem ∧
    (fset f v s i j).poison = s.poison ∧ (fset f v s i j).time = s.time ∧ (fset f v s i j).host = s.host ∧
    (fset f v s i j).ev = s.ev ∧ (fset f v s i j).mast = s.mast ∧ (fset f v s i j).lanes = s.lanes ∧
    (fset f v s i j).sess = s.sess ∧ (fset f v s i j).chans = s.chans ∧ (fset f v s i j).peers = s.peers ∧
    (fset f v s i j).ports = s.ports ∧ (fset f v s i j).svc = s.svc ∧ (fset f v s i j).tdm = s.tdm ∧
    (fset f v s i j).isls = s.isls ∧ (fset f v s i j).ques = s.ques ∧ (fset f v s i j).vcs = s.vcs ∧
    (fset f v s i j).areas = s.areas ∧ (fset f v s i j).rig = s.rig ∧ (fset f v s i j).boot = s.boot ∧
    (fset f v s i j).acc = s.acc ∧ (fset f v s i j).cel = s.cel ∧ (fset f v s i j).stay = s.stay ∧
    (fset f v s i j).pair = s.pair ∧ (fset f v s i j).age = s.age ∧ (fset f v s i j).jtag = s.jtag ∧
    (fset f v s i j).supply = s.supply ∧ (fset f v s i j).sysLost = s.sysLost := by
  unfold fset
  try dsimp only
  repeat' split
  all_goals simp only [setWord_frame, and_self]

/-- `fbump` changes `regs` alone. -/
@[simp] theorem fbump_frame (f : Fld) (n : Nat) (s : State) (i : Nat) (j : Nat) :
    (fbump f n s i j).pending = s.pending ∧ (fbump f n s i j).free = s.free ∧ (fbump f n s i j).mem = s.mem ∧
    (fbump f n s i j).poison = s.poison ∧ (fbump f n s i j).time = s.time ∧ (fbump f n s i j).host = s.host ∧
    (fbump f n s i j).ev = s.ev ∧ (fbump f n s i j).mast = s.mast ∧ (fbump f n s i j).lanes = s.lanes ∧
    (fbump f n s i j).sess = s.sess ∧ (fbump f n s i j).chans = s.chans ∧ (fbump f n s i j).peers = s.peers ∧
    (fbump f n s i j).ports = s.ports ∧ (fbump f n s i j).svc = s.svc ∧ (fbump f n s i j).tdm = s.tdm ∧
    (fbump f n s i j).isls = s.isls ∧ (fbump f n s i j).ques = s.ques ∧ (fbump f n s i j).vcs = s.vcs ∧
    (fbump f n s i j).areas = s.areas ∧ (fbump f n s i j).rig = s.rig ∧ (fbump f n s i j).boot = s.boot ∧
    (fbump f n s i j).acc = s.acc ∧ (fbump f n s i j).cel = s.cel ∧ (fbump f n s i j).stay = s.stay ∧
    (fbump f n s i j).pair = s.pair ∧ (fbump f n s i j).age = s.age ∧ (fbump f n s i j).jtag = s.jtag ∧
    (fbump f n s i j).supply = s.supply ∧ (fbump f n s i j).sysLost = s.sysLost := by
  unfold fbump
  try dsimp only
  repeat' split
  all_goals simp only [fset_frame, and_self]

/-- `dropRegs` changes `regs` alone. -/
@[simp] theorem dropRegs_frame (lo hi : Nat) (s : State) :
    (dropRegs lo hi s).pending = s.pending ∧ (dropRegs lo hi s).free = s.free ∧ (dropRegs lo hi s).mem = s.mem ∧
    (dropRegs lo hi s).poison = s.poison ∧ (dropRegs lo hi s).time = s.time ∧ (dropRegs lo hi s).host = s.host ∧
    (dropRegs lo hi s).ev = s.ev ∧ (dropRegs lo hi s).mast = s.mast ∧ (dropRegs lo hi s).lanes = s.lanes ∧
    (dropRegs lo hi s).sess = s.sess ∧ (dropRegs lo hi s).chans = s.chans ∧ (dropRegs lo hi s).peers = s.peers ∧
    (dropRegs lo hi s).ports = s.ports ∧ (dropRegs lo hi s).svc = s.svc ∧ (dropRegs lo hi s).tdm = s.tdm ∧
    (dropRegs lo hi s).isls = s.isls ∧ (dropRegs lo hi s).ques = s.ques ∧ (dropRegs lo hi s).vcs = s.vcs ∧
    (dropRegs lo hi s).areas = s.areas ∧ (dropRegs lo hi s).rig = s.rig ∧ (dropRegs lo hi s).boot = s.boot ∧
    (dropRegs lo hi s).acc = s.acc ∧ (dropRegs lo hi s).cel = s.cel ∧ (dropRegs lo hi s).stay = s.stay ∧
    (dropRegs lo hi s).pair = s.pair ∧ (dropRegs lo hi s).age = s.age ∧ (dropRegs lo hi s).jtag = s.jtag ∧
    (dropRegs lo hi s).supply = s.supply ∧ (dropRegs lo hi s).sysLost = s.sysLost := by
  simp only [dropRegs, and_self]

/-- `draw` changes `free` alone. -/
@[simp] theorem draw_frame (s : State) :
    (draw s).pending = s.pending ∧ (draw s).regs = s.regs ∧ (draw s).mem = s.mem ∧
    (draw s).poison = s.poison ∧ (draw s).time = s.time ∧ (draw s).host = s.host ∧
    (draw s).ev = s.ev ∧ (draw s).mast = s.mast ∧ (draw s).lanes = s.lanes ∧
    (draw s).sess = s.sess ∧ (draw s).chans = s.chans ∧ (draw s).peers = s.peers ∧
    (draw s).ports = s.ports ∧ (draw s).svc = s.svc ∧ (draw s).tdm = s.tdm ∧
    (draw s).isls = s.isls ∧ (draw s).ques = s.ques ∧ (draw s).vcs = s.vcs ∧
    (draw s).areas = s.areas ∧ (draw s).rig = s.rig ∧ (draw s).boot = s.boot ∧
    (draw s).acc = s.acc ∧ (draw s).cel = s.cel ∧ (draw s).stay = s.stay ∧
    (draw s).pair = s.pair ∧ (draw s).age = s.age ∧ (draw s).jtag = s.jtag ∧
    (draw s).supply = s.supply ∧ (draw s).sysLost = s.sysLost := by
  simp only [draw, and_self]

/-- `countClass` changes `regs` alone. -/
@[simp] theorem countClass_frame (src : Nat) (s : State) :
    (countClass src s).pending = s.pending ∧ (countClass src s).free = s.free ∧ (countClass src s).mem = s.mem ∧
    (countClass src s).poison = s.poison ∧ (countClass src s).time = s.time ∧ (countClass src s).host = s.host ∧
    (countClass src s).ev = s.ev ∧ (countClass src s).mast = s.mast ∧ (countClass src s).lanes = s.lanes ∧
    (countClass src s).sess = s.sess ∧ (countClass src s).chans = s.chans ∧ (countClass src s).peers = s.peers ∧
    (countClass src s).ports = s.ports ∧ (countClass src s).svc = s.svc ∧ (countClass src s).tdm = s.tdm ∧
    (countClass src s).isls = s.isls ∧ (countClass src s).ques = s.ques ∧ (countClass src s).vcs = s.vcs ∧
    (countClass src s).areas = s.areas ∧ (countClass src s).rig = s.rig ∧ (countClass src s).boot = s.boot ∧
    (countClass src s).acc = s.acc ∧ (countClass src s).cel = s.cel ∧ (countClass src s).stay = s.stay ∧
    (countClass src s).pair = s.pair ∧ (countClass src s).age = s.age ∧ (countClass src s).jtag = s.jtag ∧
    (countClass src s).supply = s.supply ∧ (countClass src s).sysLost = s.sysLost := by
  unfold countClass
  try dsimp only
  repeat' split
  all_goals simp only [fbump_frame, and_self]

/-- `enqueueEvent` changes `regs`, `ev` alone. -/
@[simp] theorem enqueueEvent_frame (src : Nat) (payload : Bytes) (s : State) :
    (enqueueEvent src payload s).pending = s.pending ∧ (enqueueEvent src payload s).free = s.free ∧ (enqueueEvent src payload s).mem = s.mem ∧
    (enqueueEvent src payload s).poison = s.poison ∧ (enqueueEvent src payload s).time = s.time ∧ (enqueueEvent src payload s).host = s.host ∧
    (enqueueEvent src payload s).mast = s.mast ∧ (enqueueEvent src payload s).lanes = s.lanes ∧ (enqueueEvent src payload s).sess = s.sess ∧
    (enqueueEvent src payload s).chans = s.chans ∧ (enqueueEvent src payload s).peers = s.peers ∧ (enqueueEvent src payload s).ports = s.ports ∧
    (enqueueEvent src payload s).svc = s.svc ∧ (enqueueEvent src payload s).tdm = s.tdm ∧ (enqueueEvent src payload s).isls = s.isls ∧
    (enqueueEvent src payload s).ques = s.ques ∧ (enqueueEvent src payload s).vcs = s.vcs ∧ (enqueueEvent src payload s).areas = s.areas ∧
    (enqueueEvent src payload s).rig = s.rig ∧ (enqueueEvent src payload s).boot = s.boot ∧ (enqueueEvent src payload s).acc = s.acc ∧
    (enqueueEvent src payload s).cel = s.cel ∧ (enqueueEvent src payload s).stay = s.stay ∧ (enqueueEvent src payload s).pair = s.pair ∧
    (enqueueEvent src payload s).age = s.age ∧ (enqueueEvent src payload s).jtag = s.jtag ∧ (enqueueEvent src payload s).supply = s.supply ∧
    (enqueueEvent src payload s).sysLost = s.sysLost := by
  unfold enqueueEvent
  try dsimp only
  repeat' split
  all_goals simp only [fbump_frame, and_self]

/-- `raise` changes `regs`, `ev` alone. -/
@[simp] theorem raise_frame (src : Nat) (fields : List (Nat × Nat)) (s : State) :
    (raise src fields s).pending = s.pending ∧ (raise src fields s).free = s.free ∧ (raise src fields s).mem = s.mem ∧
    (raise src fields s).poison = s.poison ∧ (raise src fields s).time = s.time ∧ (raise src fields s).host = s.host ∧
    (raise src fields s).mast = s.mast ∧ (raise src fields s).lanes = s.lanes ∧ (raise src fields s).sess = s.sess ∧
    (raise src fields s).chans = s.chans ∧ (raise src fields s).peers = s.peers ∧ (raise src fields s).ports = s.ports ∧
    (raise src fields s).svc = s.svc ∧ (raise src fields s).tdm = s.tdm ∧ (raise src fields s).isls = s.isls ∧
    (raise src fields s).ques = s.ques ∧ (raise src fields s).vcs = s.vcs ∧ (raise src fields s).areas = s.areas ∧
    (raise src fields s).rig = s.rig ∧ (raise src fields s).boot = s.boot ∧ (raise src fields s).acc = s.acc ∧
    (raise src fields s).cel = s.cel ∧ (raise src fields s).stay = s.stay ∧ (raise src fields s).pair = s.pair ∧
    (raise src fields s).age = s.age ∧ (raise src fields s).jtag = s.jtag ∧ (raise src fields s).supply = s.supply ∧
    (raise src fields s).sysLost = s.sysLost := by
  unfold raise
  try dsimp only
  repeat' split
  all_goals simp only [countClass_frame, enqueueEvent_frame, and_self]

/-- `countLimit` changes `ev` alone. -/
@[simp] theorem countLimit_frame (key : Nat) (s : State) :
    (countLimit key s).pending = s.pending ∧ (countLimit key s).free = s.free ∧ (countLimit key s).regs = s.regs ∧
    (countLimit key s).mem = s.mem ∧ (countLimit key s).poison = s.poison ∧ (countLimit key s).time = s.time ∧
    (countLimit key s).host = s.host ∧ (countLimit key s).mast = s.mast ∧ (countLimit key s).lanes = s.lanes ∧
    (countLimit key s).sess = s.sess ∧ (countLimit key s).chans = s.chans ∧ (countLimit key s).peers = s.peers ∧
    (countLimit key s).ports = s.ports ∧ (countLimit key s).svc = s.svc ∧ (countLimit key s).tdm = s.tdm ∧
    (countLimit key s).isls = s.isls ∧ (countLimit key s).ques = s.ques ∧ (countLimit key s).vcs = s.vcs ∧
    (countLimit key s).areas = s.areas ∧ (countLimit key s).rig = s.rig ∧ (countLimit key s).boot = s.boot ∧
    (countLimit key s).acc = s.acc ∧ (countLimit key s).cel = s.cel ∧ (countLimit key s).stay = s.stay ∧
    (countLimit key s).pair = s.pair ∧ (countLimit key s).age = s.age ∧ (countLimit key s).jtag = s.jtag ∧
    (countLimit key s).supply = s.supply ∧ (countLimit key s).sysLost = s.sysLost := by
  unfold countLimit
  try dsimp only
  repeat' split
  all_goals simp only [and_self]

/-- `raiseLimited` changes `regs`, `ev` alone. -/
@[simp] theorem raiseLimited_frame (src sub n : Nat) (fields : List (Nat × Nat)) (s : State) :
    (raiseLimited src sub n fields s).pending = s.pending ∧ (raiseLimited src sub n fields s).free = s.free ∧ (raiseLimited src sub n fields s).mem = s.mem ∧
    (raiseLimited src sub n fields s).poison = s.poison ∧ (raiseLimited src sub n fields s).time = s.time ∧ (raiseLimited src sub n fields s).host = s.host ∧
    (raiseLimited src sub n fields s).mast = s.mast ∧ (raiseLimited src sub n fields s).lanes = s.lanes ∧ (raiseLimited src sub n fields s).sess = s.sess ∧
    (raiseLimited src sub n fields s).chans = s.chans ∧ (raiseLimited src sub n fields s).peers = s.peers ∧ (raiseLimited src sub n fields s).ports = s.ports ∧
    (raiseLimited src sub n fields s).svc = s.svc ∧ (raiseLimited src sub n fields s).tdm = s.tdm ∧ (raiseLimited src sub n fields s).isls = s.isls ∧
    (raiseLimited src sub n fields s).ques = s.ques ∧ (raiseLimited src sub n fields s).vcs = s.vcs ∧ (raiseLimited src sub n fields s).areas = s.areas ∧
    (raiseLimited src sub n fields s).rig = s.rig ∧ (raiseLimited src sub n fields s).boot = s.boot ∧ (raiseLimited src sub n fields s).acc = s.acc ∧
    (raiseLimited src sub n fields s).cel = s.cel ∧ (raiseLimited src sub n fields s).stay = s.stay ∧ (raiseLimited src sub n fields s).pair = s.pair ∧
    (raiseLimited src sub n fields s).age = s.age ∧ (raiseLimited src sub n fields s).jtag = s.jtag ∧ (raiseLimited src sub n fields s).supply = s.supply ∧
    (raiseLimited src sub n fields s).sysLost = s.sysLost := by
  unfold raiseLimited
  try dsimp only
  repeat' split
  all_goals simp only [countClass_frame, raise_frame, countLimit_frame, and_self]

/-- `raiseCountingBy` changes `regs`, `ev` alone. -/
@[simp] theorem raiseCountingBy_frame (k src sub : Nat) (fields : List (Nat × Nat)) (s : State) :
    (raiseCountingBy k src sub fields s).pending = s.pending ∧ (raiseCountingBy k src sub fields s).free = s.free ∧ (raiseCountingBy k src sub fields s).mem = s.mem ∧
    (raiseCountingBy k src sub fields s).poison = s.poison ∧ (raiseCountingBy k src sub fields s).time = s.time ∧ (raiseCountingBy k src sub fields s).host = s.host ∧
    (raiseCountingBy k src sub fields s).mast = s.mast ∧ (raiseCountingBy k src sub fields s).lanes = s.lanes ∧ (raiseCountingBy k src sub fields s).sess = s.sess ∧
    (raiseCountingBy k src sub fields s).chans = s.chans ∧ (raiseCountingBy k src sub fields s).peers = s.peers ∧ (raiseCountingBy k src sub fields s).ports = s.ports ∧
    (raiseCountingBy k src sub fields s).svc = s.svc ∧ (raiseCountingBy k src sub fields s).tdm = s.tdm ∧ (raiseCountingBy k src sub fields s).isls = s.isls ∧
    (raiseCountingBy k src sub fields s).ques = s.ques ∧ (raiseCountingBy k src sub fields s).vcs = s.vcs ∧ (raiseCountingBy k src sub fields s).areas = s.areas ∧
    (raiseCountingBy k src sub fields s).rig = s.rig ∧ (raiseCountingBy k src sub fields s).boot = s.boot ∧ (raiseCountingBy k src sub fields s).acc = s.acc ∧
    (raiseCountingBy k src sub fields s).cel = s.cel ∧ (raiseCountingBy k src sub fields s).stay = s.stay ∧ (raiseCountingBy k src sub fields s).pair = s.pair ∧
    (raiseCountingBy k src sub fields s).age = s.age ∧ (raiseCountingBy k src sub fields s).jtag = s.jtag ∧ (raiseCountingBy k src sub fields s).supply = s.supply ∧
    (raiseCountingBy k src sub fields s).sysLost = s.sysLost := by
  unfold raiseCountingBy
  try dsimp only
  repeat' split
  all_goals simp only [countClass_frame, raise_frame, countLimit_frame, and_self]

/-- `raiseCounting` changes `regs`, `ev` alone. -/
@[simp] theorem raiseCounting_frame (src sub : Nat) (fields : List (Nat × Nat)) (s : State) :
    (raiseCounting src sub fields s).pending = s.pending ∧ (raiseCounting src sub fields s).free = s.free ∧ (raiseCounting src sub fields s).mem = s.mem ∧
    (raiseCounting src sub fields s).poison = s.poison ∧ (raiseCounting src sub fields s).time = s.time ∧ (raiseCounting src sub fields s).host = s.host ∧
    (raiseCounting src sub fields s).mast = s.mast ∧ (raiseCounting src sub fields s).lanes = s.lanes ∧ (raiseCounting src sub fields s).sess = s.sess ∧
    (raiseCounting src sub fields s).chans = s.chans ∧ (raiseCounting src sub fields s).peers = s.peers ∧ (raiseCounting src sub fields s).ports = s.ports ∧
    (raiseCounting src sub fields s).svc = s.svc ∧ (raiseCounting src sub fields s).tdm = s.tdm ∧ (raiseCounting src sub fields s).isls = s.isls ∧
    (raiseCounting src sub fields s).ques = s.ques ∧ (raiseCounting src sub fields s).vcs = s.vcs ∧ (raiseCounting src sub fields s).areas = s.areas ∧
    (raiseCounting src sub fields s).rig = s.rig ∧ (raiseCounting src sub fields s).boot = s.boot ∧ (raiseCounting src sub fields s).acc = s.acc ∧
    (raiseCounting src sub fields s).cel = s.cel ∧ (raiseCounting src sub fields s).stay = s.stay ∧ (raiseCounting src sub fields s).pair = s.pair ∧
    (raiseCounting src sub fields s).age = s.age ∧ (raiseCounting src sub fields s).jtag = s.jtag ∧ (raiseCounting src sub fields s).supply = s.supply ∧
    (raiseCounting src sub fields s).sysLost = s.sysLost := by
  unfold raiseCounting
  try dsimp only
  repeat' split
  all_goals simp only [raiseCountingBy_frame, and_self]

/-- `noteIbi` changes `host` alone. -/
@[simp] theorem noteIbi_frame (s : State) :
    (noteIbi s).pending = s.pending ∧ (noteIbi s).free = s.free ∧ (noteIbi s).regs = s.regs ∧
    (noteIbi s).mem = s.mem ∧ (noteIbi s).poison = s.poison ∧ (noteIbi s).time = s.time ∧
    (noteIbi s).ev = s.ev ∧ (noteIbi s).mast = s.mast ∧ (noteIbi s).lanes = s.lanes ∧
    (noteIbi s).sess = s.sess ∧ (noteIbi s).chans = s.chans ∧ (noteIbi s).peers = s.peers ∧
    (noteIbi s).ports = s.ports ∧ (noteIbi s).svc = s.svc ∧ (noteIbi s).tdm = s.tdm ∧
    (noteIbi s).isls = s.isls ∧ (noteIbi s).ques = s.ques ∧ (noteIbi s).vcs = s.vcs ∧
    (noteIbi s).areas = s.areas ∧ (noteIbi s).rig = s.rig ∧ (noteIbi s).boot = s.boot ∧
    (noteIbi s).acc = s.acc ∧ (noteIbi s).cel = s.cel ∧ (noteIbi s).stay = s.stay ∧
    (noteIbi s).pair = s.pair ∧ (noteIbi s).age = s.age ∧ (noteIbi s).jtag = s.jtag ∧
    (noteIbi s).supply = s.supply ∧ (noteIbi s).sysLost = s.sysLost := by
  simp only [noteIbi, and_self]

/-- `fatal` changes `regs`, `ev`, `host` alone. -/
@[simp] theorem fatal_frame (cause by_ : Nat) (s : State) :
    (fatal cause by_ s).pending = s.pending ∧ (fatal cause by_ s).free = s.free ∧ (fatal cause by_ s).mem = s.mem ∧
    (fatal cause by_ s).poison = s.poison ∧ (fatal cause by_ s).time = s.time ∧ (fatal cause by_ s).mast = s.mast ∧
    (fatal cause by_ s).lanes = s.lanes ∧ (fatal cause by_ s).sess = s.sess ∧ (fatal cause by_ s).chans = s.chans ∧
    (fatal cause by_ s).peers = s.peers ∧ (fatal cause by_ s).ports = s.ports ∧ (fatal cause by_ s).svc = s.svc ∧
    (fatal cause by_ s).tdm = s.tdm ∧ (fatal cause by_ s).isls = s.isls ∧ (fatal cause by_ s).ques = s.ques ∧
    (fatal cause by_ s).vcs = s.vcs ∧ (fatal cause by_ s).areas = s.areas ∧ (fatal cause by_ s).rig = s.rig ∧
    (fatal cause by_ s).boot = s.boot ∧ (fatal cause by_ s).acc = s.acc ∧ (fatal cause by_ s).cel = s.cel ∧
    (fatal cause by_ s).stay = s.stay ∧ (fatal cause by_ s).pair = s.pair ∧ (fatal cause by_ s).age = s.age ∧
    (fatal cause by_ s).jtag = s.jtag ∧ (fatal cause by_ s).supply = s.supply ∧ (fatal cause by_ s).sysLost = s.sysLost := by
  unfold fatal
  try dsimp only
  repeat' split
  all_goals simp only [fset_frame, fbump_frame, raise_frame, noteIbi_frame, and_self]

/-- `askReef` changes `age` alone. -/
@[simp] theorem askReef_frame (bit : Nat) (s : State) :
    (askReef bit s).pending = s.pending ∧ (askReef bit s).free = s.free ∧ (askReef bit s).regs = s.regs ∧
    (askReef bit s).mem = s.mem ∧ (askReef bit s).poison = s.poison ∧ (askReef bit s).time = s.time ∧
    (askReef bit s).host = s.host ∧ (askReef bit s).ev = s.ev ∧ (askReef bit s).mast = s.mast ∧
    (askReef bit s).lanes = s.lanes ∧ (askReef bit s).sess = s.sess ∧ (askReef bit s).chans = s.chans ∧
    (askReef bit s).peers = s.peers ∧ (askReef bit s).ports = s.ports ∧ (askReef bit s).svc = s.svc ∧
    (askReef bit s).tdm = s.tdm ∧ (askReef bit s).isls = s.isls ∧ (askReef bit s).ques = s.ques ∧
    (askReef bit s).vcs = s.vcs ∧ (askReef bit s).areas = s.areas ∧ (askReef bit s).rig = s.rig ∧
    (askReef bit s).boot = s.boot ∧ (askReef bit s).acc = s.acc ∧ (askReef bit s).cel = s.cel ∧
    (askReef bit s).stay = s.stay ∧ (askReef bit s).pair = s.pair ∧ (askReef bit s).jtag = s.jtag ∧
    (askReef bit s).supply = s.supply ∧ (askReef bit s).sysLost = s.sysLost := by
  unfold askReef
  try dsimp only
  repeat' split
  all_goals simp only [and_self]

/-- `clusterUe` changes `age` alone. -/
@[simp] theorem clusterUe_frame (c : Nat) (s : State) :
    (clusterUe c s).pending = s.pending ∧ (clusterUe c s).free = s.free ∧ (clusterUe c s).regs = s.regs ∧
    (clusterUe c s).mem = s.mem ∧ (clusterUe c s).poison = s.poison ∧ (clusterUe c s).time = s.time ∧
    (clusterUe c s).host = s.host ∧ (clusterUe c s).ev = s.ev ∧ (clusterUe c s).mast = s.mast ∧
    (clusterUe c s).lanes = s.lanes ∧ (clusterUe c s).sess = s.sess ∧ (clusterUe c s).chans = s.chans ∧
    (clusterUe c s).peers = s.peers ∧ (clusterUe c s).ports = s.ports ∧ (clusterUe c s).svc = s.svc ∧
    (clusterUe c s).tdm = s.tdm ∧ (clusterUe c s).isls = s.isls ∧ (clusterUe c s).ques = s.ques ∧
    (clusterUe c s).vcs = s.vcs ∧ (clusterUe c s).areas = s.areas ∧ (clusterUe c s).rig = s.rig ∧
    (clusterUe c s).boot = s.boot ∧ (clusterUe c s).acc = s.acc ∧ (clusterUe c s).cel = s.cel ∧
    (clusterUe c s).stay = s.stay ∧ (clusterUe c s).pair = s.pair ∧ (clusterUe c s).jtag = s.jtag ∧
    (clusterUe c s).supply = s.supply ∧ (clusterUe c s).sysLost = s.sysLost := by
  simp only [clusterUe, and_self]

/-- `ueMet` changes `regs`, `ev`, `age` alone. -/
@[simp] theorem ueMet_frame (memory : Nat) (s : State) :
    (ueMet memory s).pending = s.pending ∧ (ueMet memory s).free = s.free ∧ (ueMet memory s).mem = s.mem ∧
    (ueMet memory s).poison = s.poison ∧ (ueMet memory s).time = s.time ∧ (ueMet memory s).host = s.host ∧
    (ueMet memory s).mast = s.mast ∧ (ueMet memory s).lanes = s.lanes ∧ (ueMet memory s).sess = s.sess ∧
    (ueMet memory s).chans = s.chans ∧ (ueMet memory s).peers = s.peers ∧ (ueMet memory s).ports = s.ports ∧
    (ueMet memory s).svc = s.svc ∧ (ueMet memory s).tdm = s.tdm ∧ (ueMet memory s).isls = s.isls ∧
    (ueMet memory s).ques = s.ques ∧ (ueMet memory s).vcs = s.vcs ∧ (ueMet memory s).areas = s.areas ∧
    (ueMet memory s).rig = s.rig ∧ (ueMet memory s).boot = s.boot ∧ (ueMet memory s).acc = s.acc ∧
    (ueMet memory s).cel = s.cel ∧ (ueMet memory s).stay = s.stay ∧ (ueMet memory s).pair = s.pair ∧
    (ueMet memory s).jtag = s.jtag ∧ (ueMet memory s).supply = s.supply ∧ (ueMet memory s).sysLost = s.sysLost := by
  unfold ueMet
  try dsimp only
  repeat' split
  all_goals simp only [fset_frame, raise_frame, askReef_frame, and_self]

/-- `corrected` changes `regs` alone. -/
@[simp] theorem corrected_frame (s : State) :
    (corrected s).pending = s.pending ∧ (corrected s).free = s.free ∧ (corrected s).mem = s.mem ∧
    (corrected s).poison = s.poison ∧ (corrected s).time = s.time ∧ (corrected s).host = s.host ∧
    (corrected s).ev = s.ev ∧ (corrected s).mast = s.mast ∧ (corrected s).lanes = s.lanes ∧
    (corrected s).sess = s.sess ∧ (corrected s).chans = s.chans ∧ (corrected s).peers = s.peers ∧
    (corrected s).ports = s.ports ∧ (corrected s).svc = s.svc ∧ (corrected s).tdm = s.tdm ∧
    (corrected s).isls = s.isls ∧ (corrected s).ques = s.ques ∧ (corrected s).vcs = s.vcs ∧
    (corrected s).areas = s.areas ∧ (corrected s).rig = s.rig ∧ (corrected s).boot = s.boot ∧
    (corrected s).acc = s.acc ∧ (corrected s).cel = s.cel ∧ (corrected s).stay = s.stay ∧
    (corrected s).pair = s.pair ∧ (corrected s).age = s.age ∧ (corrected s).jtag = s.jtag ∧
    (corrected s).supply = s.supply ∧ (corrected s).sysLost = s.sysLost := by
  unfold corrected
  try dsimp only
  repeat' split
  all_goals simp only [fbump_frame, and_self]

/-- `storeBytes` changes `mem`, `poison` alone. -/
@[simp] theorem storeBytes_frame (a : Nat) (b : Bytes) (s : State) :
    (storeBytes a b s).pending = s.pending ∧ (storeBytes a b s).free = s.free ∧ (storeBytes a b s).regs = s.regs ∧
    (storeBytes a b s).time = s.time ∧ (storeBytes a b s).host = s.host ∧ (storeBytes a b s).ev = s.ev ∧
    (storeBytes a b s).mast = s.mast ∧ (storeBytes a b s).lanes = s.lanes ∧ (storeBytes a b s).sess = s.sess ∧
    (storeBytes a b s).chans = s.chans ∧ (storeBytes a b s).peers = s.peers ∧ (storeBytes a b s).ports = s.ports ∧
    (storeBytes a b s).svc = s.svc ∧ (storeBytes a b s).tdm = s.tdm ∧ (storeBytes a b s).isls = s.isls ∧
    (storeBytes a b s).ques = s.ques ∧ (storeBytes a b s).vcs = s.vcs ∧ (storeBytes a b s).areas = s.areas ∧
    (storeBytes a b s).rig = s.rig ∧ (storeBytes a b s).boot = s.boot ∧ (storeBytes a b s).acc = s.acc ∧
    (storeBytes a b s).cel = s.cel ∧ (storeBytes a b s).stay = s.stay ∧ (storeBytes a b s).pair = s.pair ∧
    (storeBytes a b s).age = s.age ∧ (storeBytes a b s).jtag = s.jtag ∧ (storeBytes a b s).supply = s.supply ∧
    (storeBytes a b s).sysLost = s.sysLost := by
  simp only [storeBytes, and_self]

/-- `clearRange` changes `mem`, `poison` alone. -/
@[simp] theorem clearRange_frame (a n : Nat) (s : State) :
    (clearRange a n s).pending = s.pending ∧ (clearRange a n s).free = s.free ∧ (clearRange a n s).regs = s.regs ∧
    (clearRange a n s).time = s.time ∧ (clearRange a n s).host = s.host ∧ (clearRange a n s).ev = s.ev ∧
    (clearRange a n s).mast = s.mast ∧ (clearRange a n s).lanes = s.lanes ∧ (clearRange a n s).sess = s.sess ∧
    (clearRange a n s).chans = s.chans ∧ (clearRange a n s).peers = s.peers ∧ (clearRange a n s).ports = s.ports ∧
    (clearRange a n s).svc = s.svc ∧ (clearRange a n s).tdm = s.tdm ∧ (clearRange a n s).isls = s.isls ∧
    (clearRange a n s).ques = s.ques ∧ (clearRange a n s).vcs = s.vcs ∧ (clearRange a n s).areas = s.areas ∧
    (clearRange a n s).rig = s.rig ∧ (clearRange a n s).boot = s.boot ∧ (clearRange a n s).acc = s.acc ∧
    (clearRange a n s).cel = s.cel ∧ (clearRange a n s).stay = s.stay ∧ (clearRange a n s).pair = s.pair ∧
    (clearRange a n s).age = s.age ∧ (clearRange a n s).jtag = s.jtag ∧ (clearRange a n s).supply = s.supply ∧
    (clearRange a n s).sysLost = s.sysLost := by
  simp only [clearRange, and_self]

/-- `recordDenial` changes `regs`, `ev` alone. -/
@[simp] theorem recordDenial_frame (master a n : Nat) (write : Bool) (s : State) :
    (recordDenial master a n write s).pending = s.pending ∧ (recordDenial master a n write s).free = s.free ∧ (recordDenial master a n write s).mem = s.mem ∧
    (recordDenial master a n write s).poison = s.poison ∧ (recordDenial master a n write s).time = s.time ∧ (recordDenial master a n write s).host = s.host ∧
    (recordDenial master a n write s).mast = s.mast ∧ (recordDenial master a n write s).lanes = s.lanes ∧ (recordDenial master a n write s).sess = s.sess ∧
    (recordDenial master a n write s).chans = s.chans ∧ (recordDenial master a n write s).peers = s.peers ∧ (recordDenial master a n write s).ports = s.ports ∧
    (recordDenial master a n write s).svc = s.svc ∧ (recordDenial master a n write s).tdm = s.tdm ∧ (recordDenial master a n write s).isls = s.isls ∧
    (recordDenial master a n write s).ques = s.ques ∧ (recordDenial master a n write s).vcs = s.vcs ∧ (recordDenial master a n write s).areas = s.areas ∧
    (recordDenial master a n write s).rig = s.rig ∧ (recordDenial master a n write s).boot = s.boot ∧ (recordDenial master a n write s).acc = s.acc ∧
    (recordDenial master a n write s).cel = s.cel ∧ (recordDenial master a n write s).stay = s.stay ∧ (recordDenial master a n write s).pair = s.pair ∧
    (recordDenial master a n write s).age = s.age ∧ (recordDenial master a n write s).jtag = s.jtag ∧ (recordDenial master a n write s).supply = s.supply ∧
    (recordDenial master a n write s).sysLost = s.sysLost := by
  unfold recordDenial
  try dsimp only
  repeat' split
  all_goals simp only [setWord_frame, fbump_frame, raiseLimited_frame, and_self]

/-- `putVc` changes `vcs` alone. -/
@[simp] theorem putVc_frame (q v : Nat) (x : Vc) (s : State) :
    (putVc q v x s).pending = s.pending ∧ (putVc q v x s).free = s.free ∧ (putVc q v x s).regs = s.regs ∧
    (putVc q v x s).mem = s.mem ∧ (putVc q v x s).poison = s.poison ∧ (putVc q v x s).time = s.time ∧
    (putVc q v x s).host = s.host ∧ (putVc q v x s).ev = s.ev ∧ (putVc q v x s).mast = s.mast ∧
    (putVc q v x s).lanes = s.lanes ∧ (putVc q v x s).sess = s.sess ∧ (putVc q v x s).chans = s.chans ∧
    (putVc q v x s).peers = s.peers ∧ (putVc q v x s).ports = s.ports ∧ (putVc q v x s).svc = s.svc ∧
    (putVc q v x s).tdm = s.tdm ∧ (putVc q v x s).isls = s.isls ∧ (putVc q v x s).ques = s.ques ∧
    (putVc q v x s).areas = s.areas ∧ (putVc q v x s).rig = s.rig ∧ (putVc q v x s).boot = s.boot ∧
    (putVc q v x s).acc = s.acc ∧ (putVc q v x s).cel = s.cel ∧ (putVc q v x s).stay = s.stay ∧
    (putVc q v x s).pair = s.pair ∧ (putVc q v x s).age = s.age ∧ (putVc q v x s).jtag = s.jtag ∧
    (putVc q v x s).supply = s.supply ∧ (putVc q v x s).sysLost = s.sysLost := by
  simp only [putVc, and_self]

/-- `putArea` changes `areas` alone. -/
@[simp] theorem putArea_frame (lane port : Nat) (x : RxArea) (s : State) :
    (putArea lane port x s).pending = s.pending ∧ (putArea lane port x s).free = s.free ∧ (putArea lane port x s).regs = s.regs ∧
    (putArea lane port x s).mem = s.mem ∧ (putArea lane port x s).poison = s.poison ∧ (putArea lane port x s).time = s.time ∧
    (putArea lane port x s).host = s.host ∧ (putArea lane port x s).ev = s.ev ∧ (putArea lane port x s).mast = s.mast ∧
    (putArea lane port x s).lanes = s.lanes ∧ (putArea lane port x s).sess = s.sess ∧ (putArea lane port x s).chans = s.chans ∧
    (putArea lane port x s).peers = s.peers ∧ (putArea lane port x s).ports = s.ports ∧ (putArea lane port x s).svc = s.svc ∧
    (putArea lane port x s).tdm = s.tdm ∧ (putArea lane port x s).isls = s.isls ∧ (putArea lane port x s).ques = s.ques ∧
    (putArea lane port x s).vcs = s.vcs ∧ (putArea lane port x s).rig = s.rig ∧ (putArea lane port x s).boot = s.boot ∧
    (putArea lane port x s).acc = s.acc ∧ (putArea lane port x s).cel = s.cel ∧ (putArea lane port x s).stay = s.stay ∧
    (putArea lane port x s).pair = s.pair ∧ (putArea lane port x s).age = s.age ∧ (putArea lane port x s).jtag = s.jtag ∧
    (putArea lane port x s).supply = s.supply ∧ (putArea lane port x s).sysLost = s.sysLost := by
  simp only [putArea, and_self]

/-- `putLane` changes `lanes` alone. -/
@[simp] theorem putLane_frame (l : Nat) (x : Lane) (s : State) :
    (putLane l x s).pending = s.pending ∧ (putLane l x s).free = s.free ∧ (putLane l x s).regs = s.regs ∧
    (putLane l x s).mem = s.mem ∧ (putLane l x s).poison = s.poison ∧ (putLane l x s).time = s.time ∧
    (putLane l x s).host = s.host ∧ (putLane l x s).ev = s.ev ∧ (putLane l x s).mast = s.mast ∧
    (putLane l x s).sess = s.sess ∧ (putLane l x s).chans = s.chans ∧ (putLane l x s).peers = s.peers ∧
    (putLane l x s).ports = s.ports ∧ (putLane l x s).svc = s.svc ∧ (putLane l x s).tdm = s.tdm ∧
    (putLane l x s).isls = s.isls ∧ (putLane l x s).ques = s.ques ∧ (putLane l x s).vcs = s.vcs ∧
    (putLane l x s).areas = s.areas ∧ (putLane l x s).rig = s.rig ∧ (putLane l x s).boot = s.boot ∧
    (putLane l x s).acc = s.acc ∧ (putLane l x s).cel = s.cel ∧ (putLane l x s).stay = s.stay ∧
    (putLane l x s).pair = s.pair ∧ (putLane l x s).age = s.age ∧ (putLane l x s).jtag = s.jtag ∧
    (putLane l x s).supply = s.supply ∧ (putLane l x s).sysLost = s.sysLost := by
  simp only [putLane, and_self]

/-- `undoStores` changes `mem`, `poison` alone. -/
@[simp] theorem undoStores_frame (c : WordCtx) (s : State) :
    (undoStores c s).pending = s.pending ∧ (undoStores c s).free = s.free ∧ (undoStores c s).regs = s.regs ∧
    (undoStores c s).time = s.time ∧ (undoStores c s).host = s.host ∧ (undoStores c s).ev = s.ev ∧
    (undoStores c s).mast = s.mast ∧ (undoStores c s).lanes = s.lanes ∧ (undoStores c s).sess = s.sess ∧
    (undoStores c s).chans = s.chans ∧ (undoStores c s).peers = s.peers ∧ (undoStores c s).ports = s.ports ∧
    (undoStores c s).svc = s.svc ∧ (undoStores c s).tdm = s.tdm ∧ (undoStores c s).isls = s.isls ∧
    (undoStores c s).ques = s.ques ∧ (undoStores c s).vcs = s.vcs ∧ (undoStores c s).areas = s.areas ∧
    (undoStores c s).rig = s.rig ∧ (undoStores c s).boot = s.boot ∧ (undoStores c s).acc = s.acc ∧
    (undoStores c s).cel = s.cel ∧ (undoStores c s).stay = s.stay ∧ (undoStores c s).pair = s.pair ∧
    (undoStores c s).age = s.age ∧ (undoStores c s).jtag = s.jtag ∧ (undoStores c s).supply = s.supply ∧
    (undoStores c s).sysLost = s.sysLost := by
  simp only [undoStores, and_self]

/-- `postReady` changes `host` alone. -/
@[simp] theorem postReady_frame (s : State) :
    (postReady s).pending = s.pending ∧ (postReady s).free = s.free ∧ (postReady s).regs = s.regs ∧
    (postReady s).mem = s.mem ∧ (postReady s).poison = s.poison ∧ (postReady s).time = s.time ∧
    (postReady s).ev = s.ev ∧ (postReady s).mast = s.mast ∧ (postReady s).lanes = s.lanes ∧
    (postReady s).sess = s.sess ∧ (postReady s).chans = s.chans ∧ (postReady s).peers = s.peers ∧
    (postReady s).ports = s.ports ∧ (postReady s).svc = s.svc ∧ (postReady s).tdm = s.tdm ∧
    (postReady s).isls = s.isls ∧ (postReady s).ques = s.ques ∧ (postReady s).vcs = s.vcs ∧
    (postReady s).areas = s.areas ∧ (postReady s).rig = s.rig ∧ (postReady s).boot = s.boot ∧
    (postReady s).acc = s.acc ∧ (postReady s).cel = s.cel ∧ (postReady s).stay = s.stay ∧
    (postReady s).pair = s.pair ∧ (postReady s).age = s.age ∧ (postReady s).jtag = s.jtag ∧
    (postReady s).supply = s.supply ∧ (postReady s).sysLost = s.sysLost := by
  unfold postReady
  try dsimp only
  repeat' split
  all_goals simp only [noteIbi_frame, and_self]

/-- `complete` changes `host` alone. -/
@[simp] theorem complete_frame (seq status : Nat) (data : Bytes) (s : State) :
    (complete seq status data s).pending = s.pending ∧ (complete seq status data s).free = s.free ∧ (complete seq status data s).regs = s.regs ∧
    (complete seq status data s).mem = s.mem ∧ (complete seq status data s).poison = s.poison ∧ (complete seq status data s).time = s.time ∧
    (complete seq status data s).ev = s.ev ∧ (complete seq status data s).mast = s.mast ∧ (complete seq status data s).lanes = s.lanes ∧
    (complete seq status data s).sess = s.sess ∧ (complete seq status data s).chans = s.chans ∧ (complete seq status data s).peers = s.peers ∧
    (complete seq status data s).ports = s.ports ∧ (complete seq status data s).svc = s.svc ∧ (complete seq status data s).tdm = s.tdm ∧
    (complete seq status data s).isls = s.isls ∧ (complete seq status data s).ques = s.ques ∧ (complete seq status data s).vcs = s.vcs ∧
    (complete seq status data s).areas = s.areas ∧ (complete seq status data s).rig = s.rig ∧ (complete seq status data s).boot = s.boot ∧
    (complete seq status data s).acc = s.acc ∧ (complete seq status data s).cel = s.cel ∧ (complete seq status data s).stay = s.stay ∧
    (complete seq status data s).pair = s.pair ∧ (complete seq status data s).age = s.age ∧ (complete seq status data s).jtag = s.jtag ∧
    (complete seq status data s).supply = s.supply ∧ (complete seq status data s).sysLost = s.sysLost := by
  unfold complete
  try dsimp only
  repeat' split
  all_goals simp only [postReady_frame, and_self]

/-- `takeCmd` changes `host` alone. -/
@[simp] theorem takeCmd_frame (seq : Nat) (s : State) :
    (takeCmd seq s).pending = s.pending ∧ (takeCmd seq s).free = s.free ∧ (takeCmd seq s).regs = s.regs ∧
    (takeCmd seq s).mem = s.mem ∧ (takeCmd seq s).poison = s.poison ∧ (takeCmd seq s).time = s.time ∧
    (takeCmd seq s).ev = s.ev ∧ (takeCmd seq s).mast = s.mast ∧ (takeCmd seq s).lanes = s.lanes ∧
    (takeCmd seq s).sess = s.sess ∧ (takeCmd seq s).chans = s.chans ∧ (takeCmd seq s).peers = s.peers ∧
    (takeCmd seq s).ports = s.ports ∧ (takeCmd seq s).svc = s.svc ∧ (takeCmd seq s).tdm = s.tdm ∧
    (takeCmd seq s).isls = s.isls ∧ (takeCmd seq s).ques = s.ques ∧ (takeCmd seq s).vcs = s.vcs ∧
    (takeCmd seq s).areas = s.areas ∧ (takeCmd seq s).rig = s.rig ∧ (takeCmd seq s).boot = s.boot ∧
    (takeCmd seq s).acc = s.acc ∧ (takeCmd seq s).cel = s.cel ∧ (takeCmd seq s).stay = s.stay ∧
    (takeCmd seq s).pair = s.pair ∧ (takeCmd seq s).age = s.age ∧ (takeCmd seq s).jtag = s.jtag ∧
    (takeCmd seq s).supply = s.supply ∧ (takeCmd seq s).sysLost = s.sysLost := by
  simp only [takeCmd, and_self]

/-- `refuseReserved` changes `host` alone. -/
@[simp] theorem refuseReserved_frame (n : Nat) (s : State) :
    (refuseReserved n s).pending = s.pending ∧ (refuseReserved n s).free = s.free ∧ (refuseReserved n s).regs = s.regs ∧
    (refuseReserved n s).mem = s.mem ∧ (refuseReserved n s).poison = s.poison ∧ (refuseReserved n s).time = s.time ∧
    (refuseReserved n s).ev = s.ev ∧ (refuseReserved n s).mast = s.mast ∧ (refuseReserved n s).lanes = s.lanes ∧
    (refuseReserved n s).sess = s.sess ∧ (refuseReserved n s).chans = s.chans ∧ (refuseReserved n s).peers = s.peers ∧
    (refuseReserved n s).ports = s.ports ∧ (refuseReserved n s).svc = s.svc ∧ (refuseReserved n s).tdm = s.tdm ∧
    (refuseReserved n s).isls = s.isls ∧ (refuseReserved n s).ques = s.ques ∧ (refuseReserved n s).vcs = s.vcs ∧
    (refuseReserved n s).areas = s.areas ∧ (refuseReserved n s).rig = s.rig ∧ (refuseReserved n s).boot = s.boot ∧
    (refuseReserved n s).acc = s.acc ∧ (refuseReserved n s).cel = s.cel ∧ (refuseReserved n s).stay = s.stay ∧
    (refuseReserved n s).pair = s.pair ∧ (refuseReserved n s).age = s.age ∧ (refuseReserved n s).jtag = s.jtag ∧
    (refuseReserved n s).supply = s.supply ∧ (refuseReserved n s).sysLost = s.sysLost := by
  induction n generalizing s with
  | zero => simp [refuseReserved]
  | succ n ih =>
    unfold refuseReserved
    repeat' split
    all_goals simp [ih]

/-- `putPort` changes `ports` alone. -/
@[simp] theorem putPort_frame (p : Nat) (x : Port) (s : State) :
    (putPort p x s).pending = s.pending ∧ (putPort p x s).free = s.free ∧ (putPort p x s).regs = s.regs ∧
    (putPort p x s).mem = s.mem ∧ (putPort p x s).poison = s.poison ∧ (putPort p x s).time = s.time ∧
    (putPort p x s).host = s.host ∧ (putPort p x s).ev = s.ev ∧ (putPort p x s).mast = s.mast ∧
    (putPort p x s).lanes = s.lanes ∧ (putPort p x s).sess = s.sess ∧ (putPort p x s).chans = s.chans ∧
    (putPort p x s).peers = s.peers ∧ (putPort p x s).svc = s.svc ∧ (putPort p x s).tdm = s.tdm ∧
    (putPort p x s).isls = s.isls ∧ (putPort p x s).ques = s.ques ∧ (putPort p x s).vcs = s.vcs ∧
    (putPort p x s).areas = s.areas ∧ (putPort p x s).rig = s.rig ∧ (putPort p x s).boot = s.boot ∧
    (putPort p x s).acc = s.acc ∧ (putPort p x s).cel = s.cel ∧ (putPort p x s).stay = s.stay ∧
    (putPort p x s).pair = s.pair ∧ (putPort p x s).age = s.age ∧ (putPort p x s).jtag = s.jtag ∧
    (putPort p x s).supply = s.supply ∧ (putPort p x s).sysLost = s.sysLost := by
  simp only [putPort, and_self]

/-- `pushTx` changes `ports`, `regs` alone. -/
@[simp] theorem pushTx_frame (port q : Nat) (f : TxFrame) (s : State) :
    (pushTx port q f s).pending = s.pending ∧ (pushTx port q f s).free = s.free ∧ (pushTx port q f s).mem = s.mem ∧
    (pushTx port q f s).poison = s.poison ∧ (pushTx port q f s).time = s.time ∧ (pushTx port q f s).host = s.host ∧
    (pushTx port q f s).ev = s.ev ∧ (pushTx port q f s).mast = s.mast ∧ (pushTx port q f s).lanes = s.lanes ∧
    (pushTx port q f s).sess = s.sess ∧ (pushTx port q f s).chans = s.chans ∧ (pushTx port q f s).peers = s.peers ∧
    (pushTx port q f s).svc = s.svc ∧ (pushTx port q f s).tdm = s.tdm ∧ (pushTx port q f s).isls = s.isls ∧
    (pushTx port q f s).ques = s.ques ∧ (pushTx port q f s).vcs = s.vcs ∧ (pushTx port q f s).areas = s.areas ∧
    (pushTx port q f s).rig = s.rig ∧ (pushTx port q f s).boot = s.boot ∧ (pushTx port q f s).acc = s.acc ∧
    (pushTx port q f s).cel = s.cel ∧ (pushTx port q f s).stay = s.stay ∧ (pushTx port q f s).pair = s.pair ∧
    (pushTx port q f s).age = s.age ∧ (pushTx port q f s).jtag = s.jtag ∧ (pushTx port q f s).supply = s.supply ∧
    (pushTx port q f s).sysLost = s.sysLost := by
  unfold pushTx
  try dsimp only
  repeat' split
  all_goals simp only [fbump_frame, putPort_frame, and_self]

/-- `putStay` changes `stay` alone. -/
@[simp] theorem putStay_frame (p : Nat) (x : StayPort) (s : State) :
    (putStay p x s).pending = s.pending ∧ (putStay p x s).free = s.free ∧ (putStay p x s).regs = s.regs ∧
    (putStay p x s).mem = s.mem ∧ (putStay p x s).poison = s.poison ∧ (putStay p x s).time = s.time ∧
    (putStay p x s).host = s.host ∧ (putStay p x s).ev = s.ev ∧ (putStay p x s).mast = s.mast ∧
    (putStay p x s).lanes = s.lanes ∧ (putStay p x s).sess = s.sess ∧ (putStay p x s).chans = s.chans ∧
    (putStay p x s).peers = s.peers ∧ (putStay p x s).ports = s.ports ∧ (putStay p x s).svc = s.svc ∧
    (putStay p x s).tdm = s.tdm ∧ (putStay p x s).isls = s.isls ∧ (putStay p x s).ques = s.ques ∧
    (putStay p x s).vcs = s.vcs ∧ (putStay p x s).areas = s.areas ∧ (putStay p x s).rig = s.rig ∧
    (putStay p x s).boot = s.boot ∧ (putStay p x s).acc = s.acc ∧ (putStay p x s).cel = s.cel ∧
    (putStay p x s).pair = s.pair ∧ (putStay p x s).age = s.age ∧ (putStay p x s).jtag = s.jtag ∧
    (putStay p x s).supply = s.supply ∧ (putStay p x s).sysLost = s.sysLost := by
  simp only [putStay, and_self]

/-- `stayGive` changes `stay`, `regs` alone. -/
@[simp] theorem stayGive_frame (port : Nat) (f : StayFrame) (s : State) :
    (stayGive port f s).pending = s.pending ∧ (stayGive port f s).free = s.free ∧ (stayGive port f s).mem = s.mem ∧
    (stayGive port f s).poison = s.poison ∧ (stayGive port f s).time = s.time ∧ (stayGive port f s).host = s.host ∧
    (stayGive port f s).ev = s.ev ∧ (stayGive port f s).mast = s.mast ∧ (stayGive port f s).lanes = s.lanes ∧
    (stayGive port f s).sess = s.sess ∧ (stayGive port f s).chans = s.chans ∧ (stayGive port f s).peers = s.peers ∧
    (stayGive port f s).ports = s.ports ∧ (stayGive port f s).svc = s.svc ∧ (stayGive port f s).tdm = s.tdm ∧
    (stayGive port f s).isls = s.isls ∧ (stayGive port f s).ques = s.ques ∧ (stayGive port f s).vcs = s.vcs ∧
    (stayGive port f s).areas = s.areas ∧ (stayGive port f s).rig = s.rig ∧ (stayGive port f s).boot = s.boot ∧
    (stayGive port f s).acc = s.acc ∧ (stayGive port f s).cel = s.cel ∧ (stayGive port f s).pair = s.pair ∧
    (stayGive port f s).age = s.age ∧ (stayGive port f s).jtag = s.jtag ∧ (stayGive port f s).supply = s.supply ∧
    (stayGive port f s).sysLost = s.sysLost := by
  unfold stayGive
  try dsimp only
  repeat' split
  all_goals simp only [fbump_frame, putStay_frame, and_self]

/-- `staySay` changes `stay`, `regs` alone. -/
@[simp] theorem staySay_frame (port type pos : Nat) (data : Bytes) (w : StaySays) (s : State) :
    (staySay port type pos data w s).pending = s.pending ∧ (staySay port type pos data w s).free = s.free ∧ (staySay port type pos data w s).mem = s.mem ∧
    (staySay port type pos data w s).poison = s.poison ∧ (staySay port type pos data w s).time = s.time ∧ (staySay port type pos data w s).host = s.host ∧
    (staySay port type pos data w s).ev = s.ev ∧ (staySay port type pos data w s).mast = s.mast ∧ (staySay port type pos data w s).lanes = s.lanes ∧
    (staySay port type pos data w s).sess = s.sess ∧ (staySay port type pos data w s).chans = s.chans ∧ (staySay port type pos data w s).peers = s.peers ∧
    (staySay port type pos data w s).ports = s.ports ∧ (staySay port type pos data w s).svc = s.svc ∧ (staySay port type pos data w s).tdm = s.tdm ∧
    (staySay port type pos data w s).isls = s.isls ∧ (staySay port type pos data w s).ques = s.ques ∧ (staySay port type pos data w s).vcs = s.vcs ∧
    (staySay port type pos data w s).areas = s.areas ∧ (staySay port type pos data w s).rig = s.rig ∧ (staySay port type pos data w s).boot = s.boot ∧
    (staySay port type pos data w s).acc = s.acc ∧ (staySay port type pos data w s).cel = s.cel ∧ (staySay port type pos data w s).pair = s.pair ∧
    (staySay port type pos data w s).age = s.age ∧ (staySay port type pos data w s).jtag = s.jtag ∧ (staySay port type pos data w s).supply = s.supply ∧
    (staySay port type pos data w s).sysLost = s.sysLost := by
  unfold staySay
  try dsimp only
  repeat' split
  all_goals simp only [stayGive_frame, and_self]

/-- `staySendTo` changes `stay`, `regs` alone. -/
@[simp] theorem staySendTo_frame (port type pos : Nat) (data : Bytes) (s : State) :
    (staySendTo port type pos data s).pending = s.pending ∧ (staySendTo port type pos data s).free = s.free ∧ (staySendTo port type pos data s).mem = s.mem ∧
    (staySendTo port type pos data s).poison = s.poison ∧ (staySendTo port type pos data s).time = s.time ∧ (staySendTo port type pos data s).host = s.host ∧
    (staySendTo port type pos data s).ev = s.ev ∧ (staySendTo port type pos data s).mast = s.mast ∧ (staySendTo port type pos data s).lanes = s.lanes ∧
    (staySendTo port type pos data s).sess = s.sess ∧ (staySendTo port type pos data s).chans = s.chans ∧ (staySendTo port type pos data s).peers = s.peers ∧
    (staySendTo port type pos data s).ports = s.ports ∧ (staySendTo port type pos data s).svc = s.svc ∧ (staySendTo port type pos data s).tdm = s.tdm ∧
    (staySendTo port type pos data s).isls = s.isls ∧ (staySendTo port type pos data s).ques = s.ques ∧ (staySendTo port type pos data s).vcs = s.vcs ∧
    (staySendTo port type pos data s).areas = s.areas ∧ (staySendTo port type pos data s).rig = s.rig ∧ (staySendTo port type pos data s).boot = s.boot ∧
    (staySendTo port type pos data s).acc = s.acc ∧ (staySendTo port type pos data s).cel = s.cel ∧ (staySendTo port type pos data s).pair = s.pair ∧
    (staySendTo port type pos data s).age = s.age ∧ (staySendTo port type pos data s).jtag = s.jtag ∧ (staySendTo port type pos data s).supply = s.supply ∧
    (staySendTo port type pos data s).sysLost = s.sysLost := by
  unfold staySendTo
  try dsimp only
  repeat' split
  all_goals simp only [staySay_frame, and_self]

/-- `sayPartner` changes `stay`, `regs` alone. -/
@[simp] theorem sayPartner_frame (type : Nat) (data : Bytes) (w : StaySays) (s : State) :
    (sayPartner type data w s).pending = s.pending ∧ (sayPartner type data w s).free = s.free ∧ (sayPartner type data w s).mem = s.mem ∧
    (sayPartner type data w s).poison = s.poison ∧ (sayPartner type data w s).time = s.time ∧ (sayPartner type data w s).host = s.host ∧
    (sayPartner type data w s).ev = s.ev ∧ (sayPartner type data w s).mast = s.mast ∧ (sayPartner type data w s).lanes = s.lanes ∧
    (sayPartner type data w s).sess = s.sess ∧ (sayPartner type data w s).chans = s.chans ∧ (sayPartner type data w s).peers = s.peers ∧
    (sayPartner type data w s).ports = s.ports ∧ (sayPartner type data w s).svc = s.svc ∧ (sayPartner type data w s).tdm = s.tdm ∧
    (sayPartner type data w s).isls = s.isls ∧ (sayPartner type data w s).ques = s.ques ∧ (sayPartner type data w s).vcs = s.vcs ∧
    (sayPartner type data w s).areas = s.areas ∧ (sayPartner type data w s).rig = s.rig ∧ (sayPartner type data w s).boot = s.boot ∧
    (sayPartner type data w s).acc = s.acc ∧ (sayPartner type data w s).cel = s.cel ∧ (sayPartner type data w s).pair = s.pair ∧
    (sayPartner type data w s).age = s.age ∧ (sayPartner type data w s).jtag = s.jtag ∧ (sayPartner type data w s).supply = s.supply ∧
    (sayPartner type data w s).sysLost = s.sysLost := by
  simp only [sayPartner, List.foldl_cons, List.foldl_nil]
  repeat' split
  all_goals simp only [staySay_frame, and_self]

/-- `sendPartner` changes `stay`, `regs` alone. -/
@[simp] theorem sendPartner_frame (type : Nat) (data : Bytes) (s : State) :
    (sendPartner type data s).pending = s.pending ∧ (sendPartner type data s).free = s.free ∧ (sendPartner type data s).mem = s.mem ∧
    (sendPartner type data s).poison = s.poison ∧ (sendPartner type data s).time = s.time ∧ (sendPartner type data s).host = s.host ∧
    (sendPartner type data s).ev = s.ev ∧ (sendPartner type data s).mast = s.mast ∧ (sendPartner type data s).lanes = s.lanes ∧
    (sendPartner type data s).sess = s.sess ∧ (sendPartner type data s).chans = s.chans ∧ (sendPartner type data s).peers = s.peers ∧
    (sendPartner type data s).ports = s.ports ∧ (sendPartner type data s).svc = s.svc ∧ (sendPartner type data s).tdm = s.tdm ∧
    (sendPartner type data s).isls = s.isls ∧ (sendPartner type data s).ques = s.ques ∧ (sendPartner type data s).vcs = s.vcs ∧
    (sendPartner type data s).areas = s.areas ∧ (sendPartner type data s).rig = s.rig ∧ (sendPartner type data s).boot = s.boot ∧
    (sendPartner type data s).acc = s.acc ∧ (sendPartner type data s).cel = s.cel ∧ (sendPartner type data s).pair = s.pair ∧
    (sendPartner type data s).age = s.age ∧ (sendPartner type data s).jtag = s.jtag ∧ (sendPartner type data s).supply = s.supply ∧
    (sendPartner type data s).sysLost = s.sysLost := by
  unfold sendPartner
  try dsimp only
  repeat' split
  all_goals simp only [sayPartner_frame, and_self]

/-- `dropLink` changes `ports`, `regs`, `ev` alone. -/
@[simp] theorem dropLink_frame (port : Nat) (s : State) :
    (dropLink port s).pending = s.pending ∧ (dropLink port s).free = s.free ∧ (dropLink port s).mem = s.mem ∧
    (dropLink port s).poison = s.poison ∧ (dropLink port s).time = s.time ∧ (dropLink port s).host = s.host ∧
    (dropLink port s).mast = s.mast ∧ (dropLink port s).lanes = s.lanes ∧ (dropLink port s).sess = s.sess ∧
    (dropLink port s).chans = s.chans ∧ (dropLink port s).peers = s.peers ∧ (dropLink port s).svc = s.svc ∧
    (dropLink port s).tdm = s.tdm ∧ (dropLink port s).isls = s.isls ∧ (dropLink port s).ques = s.ques ∧
    (dropLink port s).vcs = s.vcs ∧ (dropLink port s).areas = s.areas ∧ (dropLink port s).rig = s.rig ∧
    (dropLink port s).boot = s.boot ∧ (dropLink port s).acc = s.acc ∧ (dropLink port s).cel = s.cel ∧
    (dropLink port s).stay = s.stay ∧ (dropLink port s).pair = s.pair ∧ (dropLink port s).age = s.age ∧
    (dropLink port s).jtag = s.jtag ∧ (dropLink port s).supply = s.supply ∧ (dropLink port s).sysLost = s.sysLost := by
  unfold dropLink
  try dsimp only
  repeat' split
  all_goals simp only [fbump_frame, raise_frame, putPort_frame, and_self]

/-- `linkDown` changes `ports`, `regs`, `ev` alone. -/
@[simp] theorem linkDown_frame (port : Nat) (s : State) :
    (linkDown port s).pending = s.pending ∧ (linkDown port s).free = s.free ∧ (linkDown port s).mem = s.mem ∧
    (linkDown port s).poison = s.poison ∧ (linkDown port s).time = s.time ∧ (linkDown port s).host = s.host ∧
    (linkDown port s).mast = s.mast ∧ (linkDown port s).lanes = s.lanes ∧ (linkDown port s).sess = s.sess ∧
    (linkDown port s).chans = s.chans ∧ (linkDown port s).peers = s.peers ∧ (linkDown port s).svc = s.svc ∧
    (linkDown port s).tdm = s.tdm ∧ (linkDown port s).isls = s.isls ∧ (linkDown port s).ques = s.ques ∧
    (linkDown port s).vcs = s.vcs ∧ (linkDown port s).areas = s.areas ∧ (linkDown port s).rig = s.rig ∧
    (linkDown port s).boot = s.boot ∧ (linkDown port s).acc = s.acc ∧ (linkDown port s).cel = s.cel ∧
    (linkDown port s).stay = s.stay ∧ (linkDown port s).pair = s.pair ∧ (linkDown port s).age = s.age ∧
    (linkDown port s).jtag = s.jtag ∧ (linkDown port s).supply = s.supply ∧ (linkDown port s).sysLost = s.sysLost := by
  unfold linkDown
  try dsimp only
  repeat' split
  all_goals simp only [fset_frame, dropLink_frame, and_self]

/-- `linkUp` changes `ports`, `regs`, `ev` alone. -/
@[simp] theorem linkUp_frame (port : Nat) (s : State) :
    (linkUp port s).pending = s.pending ∧ (linkUp port s).free = s.free ∧ (linkUp port s).mem = s.mem ∧
    (linkUp port s).poison = s.poison ∧ (linkUp port s).time = s.time ∧ (linkUp port s).host = s.host ∧
    (linkUp port s).mast = s.mast ∧ (linkUp port s).lanes = s.lanes ∧ (linkUp port s).sess = s.sess ∧
    (linkUp port s).chans = s.chans ∧ (linkUp port s).peers = s.peers ∧ (linkUp port s).svc = s.svc ∧
    (linkUp port s).tdm = s.tdm ∧ (linkUp port s).isls = s.isls ∧ (linkUp port s).ques = s.ques ∧
    (linkUp port s).vcs = s.vcs ∧ (linkUp port s).areas = s.areas ∧ (linkUp port s).rig = s.rig ∧
    (linkUp port s).boot = s.boot ∧ (linkUp port s).acc = s.acc ∧ (linkUp port s).cel = s.cel ∧
    (linkUp port s).stay = s.stay ∧ (linkUp port s).pair = s.pair ∧ (linkUp port s).age = s.age ∧
    (linkUp port s).jtag = s.jtag ∧ (linkUp port s).supply = s.supply ∧ (linkUp port s).sysLost = s.sysLost := by
  unfold linkUp
  try dsimp only
  repeat' split
  all_goals simp only [fset_frame, raise_frame, putPort_frame, and_self]

/-- `pauseQueues` changes `ports` alone. -/
@[simp] theorem pauseQueues_frame (port : Nat) (which : Nat → Option Nat) (s : State) :
    (pauseQueues port which s).pending = s.pending ∧ (pauseQueues port which s).free = s.free ∧ (pauseQueues port which s).regs = s.regs ∧
    (pauseQueues port which s).mem = s.mem ∧ (pauseQueues port which s).poison = s.poison ∧ (pauseQueues port which s).time = s.time ∧
    (pauseQueues port which s).host = s.host ∧ (pauseQueues port which s).ev = s.ev ∧ (pauseQueues port which s).mast = s.mast ∧
    (pauseQueues port which s).lanes = s.lanes ∧ (pauseQueues port which s).sess = s.sess ∧ (pauseQueues port which s).chans = s.chans ∧
    (pauseQueues port which s).peers = s.peers ∧ (pauseQueues port which s).svc = s.svc ∧ (pauseQueues port which s).tdm = s.tdm ∧
    (pauseQueues port which s).isls = s.isls ∧ (pauseQueues port which s).ques = s.ques ∧ (pauseQueues port which s).vcs = s.vcs ∧
    (pauseQueues port which s).areas = s.areas ∧ (pauseQueues port which s).rig = s.rig ∧ (pauseQueues port which s).boot = s.boot ∧
    (pauseQueues port which s).acc = s.acc ∧ (pauseQueues port which s).cel = s.cel ∧ (pauseQueues port which s).stay = s.stay ∧
    (pauseQueues port which s).pair = s.pair ∧ (pauseQueues port which s).age = s.age ∧ (pauseQueues port which s).jtag = s.jtag ∧
    (pauseQueues port which s).supply = s.supply ∧ (pauseQueues port which s).sysLost = s.sysLost := by
  simp only [pauseQueues, putPort_frame, and_self]

/-- `modChan` changes `chans` alone. -/
@[simp] theorem modChan_frame (n : Nat) (f : Channel → Channel) (s : State) :
    (modChan n f s).pending = s.pending ∧ (modChan n f s).free = s.free ∧ (modChan n f s).regs = s.regs ∧
    (modChan n f s).mem = s.mem ∧ (modChan n f s).poison = s.poison ∧ (modChan n f s).time = s.time ∧
    (modChan n f s).host = s.host ∧ (modChan n f s).ev = s.ev ∧ (modChan n f s).mast = s.mast ∧
    (modChan n f s).lanes = s.lanes ∧ (modChan n f s).sess = s.sess ∧ (modChan n f s).peers = s.peers ∧
    (modChan n f s).ports = s.ports ∧ (modChan n f s).svc = s.svc ∧ (modChan n f s).tdm = s.tdm ∧
    (modChan n f s).isls = s.isls ∧ (modChan n f s).ques = s.ques ∧ (modChan n f s).vcs = s.vcs ∧
    (modChan n f s).areas = s.areas ∧ (modChan n f s).rig = s.rig ∧ (modChan n f s).boot = s.boot ∧
    (modChan n f s).acc = s.acc ∧ (modChan n f s).cel = s.cel ∧ (modChan n f s).stay = s.stay ∧
    (modChan n f s).pair = s.pair ∧ (modChan n f s).age = s.age ∧ (modChan n f s).jtag = s.jtag ∧
    (modChan n f s).supply = s.supply ∧ (modChan n f s).sysLost = s.sysLost := by
  unfold modChan
  try dsimp only
  repeat' split
  all_goals simp only [and_self]

/-- `modSess` changes `sess` alone. -/
@[simp] theorem modSess_frame (h : Nat) (f : Session → Session) (s : State) :
    (modSess h f s).pending = s.pending ∧ (modSess h f s).free = s.free ∧ (modSess h f s).regs = s.regs ∧
    (modSess h f s).mem = s.mem ∧ (modSess h f s).poison = s.poison ∧ (modSess h f s).time = s.time ∧
    (modSess h f s).host = s.host ∧ (modSess h f s).ev = s.ev ∧ (modSess h f s).mast = s.mast ∧
    (modSess h f s).lanes = s.lanes ∧ (modSess h f s).chans = s.chans ∧ (modSess h f s).peers = s.peers ∧
    (modSess h f s).ports = s.ports ∧ (modSess h f s).svc = s.svc ∧ (modSess h f s).tdm = s.tdm ∧
    (modSess h f s).isls = s.isls ∧ (modSess h f s).ques = s.ques ∧ (modSess h f s).vcs = s.vcs ∧
    (modSess h f s).areas = s.areas ∧ (modSess h f s).rig = s.rig ∧ (modSess h f s).boot = s.boot ∧
    (modSess h f s).acc = s.acc ∧ (modSess h f s).cel = s.cel ∧ (modSess h f s).stay = s.stay ∧
    (modSess h f s).pair = s.pair ∧ (modSess h f s).age = s.age ∧ (modSess h f s).jtag = s.jtag ∧
    (modSess h f s).supply = s.supply ∧ (modSess h f s).sysLost = s.sysLost := by
  unfold modSess
  try dsimp only
  repeat' split
  all_goals simp only [and_self]

/-- `modLeg` changes `chans` alone. -/
@[simp] theorem modLeg_frame (n l : Nat) (f : Leg → Leg) (s : State) :
    (modLeg n l f s).pending = s.pending ∧ (modLeg n l f s).free = s.free ∧ (modLeg n l f s).regs = s.regs ∧
    (modLeg n l f s).mem = s.mem ∧ (modLeg n l f s).poison = s.poison ∧ (modLeg n l f s).time = s.time ∧
    (modLeg n l f s).host = s.host ∧ (modLeg n l f s).ev = s.ev ∧ (modLeg n l f s).mast = s.mast ∧
    (modLeg n l f s).lanes = s.lanes ∧ (modLeg n l f s).sess = s.sess ∧ (modLeg n l f s).peers = s.peers ∧
    (modLeg n l f s).ports = s.ports ∧ (modLeg n l f s).svc = s.svc ∧ (modLeg n l f s).tdm = s.tdm ∧
    (modLeg n l f s).isls = s.isls ∧ (modLeg n l f s).ques = s.ques ∧ (modLeg n l f s).vcs = s.vcs ∧
    (modLeg n l f s).areas = s.areas ∧ (modLeg n l f s).rig = s.rig ∧ (modLeg n l f s).boot = s.boot ∧
    (modLeg n l f s).acc = s.acc ∧ (modLeg n l f s).cel = s.cel ∧ (modLeg n l f s).stay = s.stay ∧
    (modLeg n l f s).pair = s.pair ∧ (modLeg n l f s).age = s.age ∧ (modLeg n l f s).jtag = s.jtag ∧
    (modLeg n l f s).supply = s.supply ∧ (modLeg n l f s).sysLost = s.sysLost := by
  simp only [modLeg, modChan_frame, and_self]

/-- `statSet` changes `chans` alone. -/
@[simp] theorem statSet_frame (n id v : Nat) (s : State) :
    (statSet n id v s).pending = s.pending ∧ (statSet n id v s).free = s.free ∧ (statSet n id v s).regs = s.regs ∧
    (statSet n id v s).mem = s.mem ∧ (statSet n id v s).poison = s.poison ∧ (statSet n id v s).time = s.time ∧
    (statSet n id v s).host = s.host ∧ (statSet n id v s).ev = s.ev ∧ (statSet n id v s).mast = s.mast ∧
    (statSet n id v s).lanes = s.lanes ∧ (statSet n id v s).sess = s.sess ∧ (statSet n id v s).peers = s.peers ∧
    (statSet n id v s).ports = s.ports ∧ (statSet n id v s).svc = s.svc ∧ (statSet n id v s).tdm = s.tdm ∧
    (statSet n id v s).isls = s.isls ∧ (statSet n id v s).ques = s.ques ∧ (statSet n id v s).vcs = s.vcs ∧
    (statSet n id v s).areas = s.areas ∧ (statSet n id v s).rig = s.rig ∧ (statSet n id v s).boot = s.boot ∧
    (statSet n id v s).acc = s.acc ∧ (statSet n id v s).cel = s.cel ∧ (statSet n id v s).stay = s.stay ∧
    (statSet n id v s).pair = s.pair ∧ (statSet n id v s).age = s.age ∧ (statSet n id v s).jtag = s.jtag ∧
    (statSet n id v s).supply = s.supply ∧ (statSet n id v s).sysLost = s.sysLost := by
  unfold statSet
  try dsimp only
  repeat' split
  all_goals simp only [modChan_frame, and_self]

/-- `statBump` changes `chans` alone. -/
@[simp] theorem statBump_frame (n id k : Nat) (s : State) :
    (statBump n id k s).pending = s.pending ∧ (statBump n id k s).free = s.free ∧ (statBump n id k s).regs = s.regs ∧
    (statBump n id k s).mem = s.mem ∧ (statBump n id k s).poison = s.poison ∧ (statBump n id k s).time = s.time ∧
    (statBump n id k s).host = s.host ∧ (statBump n id k s).ev = s.ev ∧ (statBump n id k s).mast = s.mast ∧
    (statBump n id k s).lanes = s.lanes ∧ (statBump n id k s).sess = s.sess ∧ (statBump n id k s).peers = s.peers ∧
    (statBump n id k s).ports = s.ports ∧ (statBump n id k s).svc = s.svc ∧ (statBump n id k s).tdm = s.tdm ∧
    (statBump n id k s).isls = s.isls ∧ (statBump n id k s).ques = s.ques ∧ (statBump n id k s).vcs = s.vcs ∧
    (statBump n id k s).areas = s.areas ∧ (statBump n id k s).rig = s.rig ∧ (statBump n id k s).boot = s.boot ∧
    (statBump n id k s).acc = s.acc ∧ (statBump n id k s).cel = s.cel ∧ (statBump n id k s).stay = s.stay ∧
    (statBump n id k s).pair = s.pair ∧ (statBump n id k s).age = s.age ∧ (statBump n id k s).jtag = s.jtag ∧
    (statBump n id k s).supply = s.supply ∧ (statBump n id k s).sysLost = s.sysLost := by
  unfold statBump
  try dsimp only
  repeat' split
  all_goals simp only [modChan_frame, and_self]

/-- `finish` changes `host` alone. -/
@[simp] theorem finish_frame (seq status h eff : Nat) (s : State) :
    (finish seq status h eff s).pending = s.pending ∧ (finish seq status h eff s).free = s.free ∧ (finish seq status h eff s).regs = s.regs ∧
    (finish seq status h eff s).mem = s.mem ∧ (finish seq status h eff s).poison = s.poison ∧ (finish seq status h eff s).time = s.time ∧
    (finish seq status h eff s).ev = s.ev ∧ (finish seq status h eff s).mast = s.mast ∧ (finish seq status h eff s).lanes = s.lanes ∧
    (finish seq status h eff s).sess = s.sess ∧ (finish seq status h eff s).chans = s.chans ∧ (finish seq status h eff s).peers = s.peers ∧
    (finish seq status h eff s).ports = s.ports ∧ (finish seq status h eff s).svc = s.svc ∧ (finish seq status h eff s).tdm = s.tdm ∧
    (finish seq status h eff s).isls = s.isls ∧ (finish seq status h eff s).ques = s.ques ∧ (finish seq status h eff s).vcs = s.vcs ∧
    (finish seq status h eff s).areas = s.areas ∧ (finish seq status h eff s).rig = s.rig ∧ (finish seq status h eff s).boot = s.boot ∧
    (finish seq status h eff s).acc = s.acc ∧ (finish seq status h eff s).cel = s.cel ∧ (finish seq status h eff s).stay = s.stay ∧
    (finish seq status h eff s).pair = s.pair ∧ (finish seq status h eff s).age = s.age ∧ (finish seq status h eff s).jtag = s.jtag ∧
    (finish seq status h eff s).supply = s.supply ∧ (finish seq status h eff s).sysLost = s.sysLost := by
  unfold finish
  try dsimp only
  repeat' split
  all_goals simp only [complete_frame, and_self]

/-- `setEntries` changes `sess` alone. -/
@[simp] theorem setEntries_frame (n : Nat) (st : EntryState) (s : State) :
    (setEntries n st s).pending = s.pending ∧ (setEntries n st s).free = s.free ∧ (setEntries n st s).regs = s.regs ∧
    (setEntries n st s).mem = s.mem ∧ (setEntries n st s).poison = s.poison ∧ (setEntries n st s).time = s.time ∧
    (setEntries n st s).host = s.host ∧ (setEntries n st s).ev = s.ev ∧ (setEntries n st s).mast = s.mast ∧
    (setEntries n st s).lanes = s.lanes ∧ (setEntries n st s).chans = s.chans ∧ (setEntries n st s).peers = s.peers ∧
    (setEntries n st s).ports = s.ports ∧ (setEntries n st s).svc = s.svc ∧ (setEntries n st s).tdm = s.tdm ∧
    (setEntries n st s).isls = s.isls ∧ (setEntries n st s).ques = s.ques ∧ (setEntries n st s).vcs = s.vcs ∧
    (setEntries n st s).areas = s.areas ∧ (setEntries n st s).rig = s.rig ∧ (setEntries n st s).boot = s.boot ∧
    (setEntries n st s).acc = s.acc ∧ (setEntries n st s).cel = s.cel ∧ (setEntries n st s).stay = s.stay ∧
    (setEntries n st s).pair = s.pair ∧ (setEntries n st s).age = s.age ∧ (setEntries n st s).jtag = s.jtag ∧
    (setEntries n st s).supply = s.supply ∧ (setEntries n st s).sysLost = s.sysLost := by
  unfold setEntries
  try dsimp only
  repeat' split
  all_goals simp only [modSess_frame, and_self]

/-- `startMove` changes `sess`, `chans` alone. -/
@[simp] theorem startMove_frame (n : Nat) (m : Move) (s : State) :
    (startMove n m s).pending = s.pending ∧ (startMove n m s).free = s.free ∧ (startMove n m s).regs = s.regs ∧
    (startMove n m s).mem = s.mem ∧ (startMove n m s).poison = s.poison ∧ (startMove n m s).time = s.time ∧
    (startMove n m s).host = s.host ∧ (startMove n m s).ev = s.ev ∧ (startMove n m s).mast = s.mast ∧
    (startMove n m s).lanes = s.lanes ∧ (startMove n m s).peers = s.peers ∧ (startMove n m s).ports = s.ports ∧
    (startMove n m s).svc = s.svc ∧ (startMove n m s).tdm = s.tdm ∧ (startMove n m s).isls = s.isls ∧
    (startMove n m s).ques = s.ques ∧ (startMove n m s).vcs = s.vcs ∧ (startMove n m s).areas = s.areas ∧
    (startMove n m s).rig = s.rig ∧ (startMove n m s).boot = s.boot ∧ (startMove n m s).acc = s.acc ∧
    (startMove n m s).cel = s.cel ∧ (startMove n m s).stay = s.stay ∧ (startMove n m s).pair = s.pair ∧
    (startMove n m s).age = s.age ∧ (startMove n m s).jtag = s.jtag ∧ (startMove n m s).supply = s.supply ∧
    (startMove n m s).sysLost = s.sysLost := by
  unfold startMove
  try dsimp only
  repeat' split
  all_goals simp only [modChan_frame, setEntries_frame, and_self]

/-- `timedResult` changes `regs`, `ev` alone. -/
@[simp] theorem timedResult_frame (seq status eff : Nat) (s : State) :
    (timedResult seq status eff s).pending = s.pending ∧ (timedResult seq status eff s).free = s.free ∧ (timedResult seq status eff s).mem = s.mem ∧
    (timedResult seq status eff s).poison = s.poison ∧ (timedResult seq status eff s).time = s.time ∧ (timedResult seq status eff s).host = s.host ∧
    (timedResult seq status eff s).mast = s.mast ∧ (timedResult seq status eff s).lanes = s.lanes ∧ (timedResult seq status eff s).sess = s.sess ∧
    (timedResult seq status eff s).chans = s.chans ∧ (timedResult seq status eff s).peers = s.peers ∧ (timedResult seq status eff s).ports = s.ports ∧
    (timedResult seq status eff s).svc = s.svc ∧ (timedResult seq status eff s).tdm = s.tdm ∧ (timedResult seq status eff s).isls = s.isls ∧
    (timedResult seq status eff s).ques = s.ques ∧ (timedResult seq status eff s).vcs = s.vcs ∧ (timedResult seq status eff s).areas = s.areas ∧
    (timedResult seq status eff s).rig = s.rig ∧ (timedResult seq status eff s).boot = s.boot ∧ (timedResult seq status eff s).acc = s.acc ∧
    (timedResult seq status eff s).cel = s.cel ∧ (timedResult seq status eff s).stay = s.stay ∧ (timedResult seq status eff s).pair = s.pair ∧
    (timedResult seq status eff s).age = s.age ∧ (timedResult seq status eff s).jtag = s.jtag ∧ (timedResult seq status eff s).supply = s.supply ∧
    (timedResult seq status eff s).sysLost = s.sysLost := by
  unfold timedResult
  try dsimp only
  repeat' split
  all_goals simp only [raise_frame, and_self]

/-- `refuseModify` changes `host`, `regs`, `ev` alone. -/
@[simp] theorem refuseModify_frame (r : ModReq) (status : Nat) (s : State) :
    (refuseModify r status s).pending = s.pending ∧ (refuseModify r status s).free = s.free ∧ (refuseModify r status s).mem = s.mem ∧
    (refuseModify r status s).poison = s.poison ∧ (refuseModify r status s).time = s.time ∧ (refuseModify r status s).mast = s.mast ∧
    (refuseModify r status s).lanes = s.lanes ∧ (refuseModify r status s).sess = s.sess ∧ (refuseModify r status s).chans = s.chans ∧
    (refuseModify r status s).peers = s.peers ∧ (refuseModify r status s).ports = s.ports ∧ (refuseModify r status s).svc = s.svc ∧
    (refuseModify r status s).tdm = s.tdm ∧ (refuseModify r status s).isls = s.isls ∧ (refuseModify r status s).ques = s.ques ∧
    (refuseModify r status s).vcs = s.vcs ∧ (refuseModify r status s).areas = s.areas ∧ (refuseModify r status s).rig = s.rig ∧
    (refuseModify r status s).boot = s.boot ∧ (refuseModify r status s).acc = s.acc ∧ (refuseModify r status s).cel = s.cel ∧
    (refuseModify r status s).stay = s.stay ∧ (refuseModify r status s).pair = s.pair ∧ (refuseModify r status s).age = s.age ∧
    (refuseModify r status s).jtag = s.jtag ∧ (refuseModify r status s).supply = s.supply ∧ (refuseModify r status s).sysLost = s.sysLost := by
  unfold refuseModify
  try dsimp only
  repeat' split
  all_goals simp only [finish_frame, timedResult_frame, and_self]

/-- `forcePark` changes `chans` alone. -/
@[simp] theorem forcePark_frame (n : Nat) (s : State) :
    (forcePark n s).pending = s.pending ∧ (forcePark n s).free = s.free ∧ (forcePark n s).regs = s.regs ∧
    (forcePark n s).mem = s.mem ∧ (forcePark n s).poison = s.poison ∧ (forcePark n s).time = s.time ∧
    (forcePark n s).host = s.host ∧ (forcePark n s).ev = s.ev ∧ (forcePark n s).mast = s.mast ∧
    (forcePark n s).lanes = s.lanes ∧ (forcePark n s).sess = s.sess ∧ (forcePark n s).peers = s.peers ∧
    (forcePark n s).ports = s.ports ∧ (forcePark n s).svc = s.svc ∧ (forcePark n s).tdm = s.tdm ∧
    (forcePark n s).isls = s.isls ∧ (forcePark n s).ques = s.ques ∧ (forcePark n s).vcs = s.vcs ∧
    (forcePark n s).areas = s.areas ∧ (forcePark n s).rig = s.rig ∧ (forcePark n s).boot = s.boot ∧
    (forcePark n s).acc = s.acc ∧ (forcePark n s).cel = s.cel ∧ (forcePark n s).stay = s.stay ∧
    (forcePark n s).pair = s.pair ∧ (forcePark n s).age = s.age ∧ (forcePark n s).jtag = s.jtag ∧
    (forcePark n s).supply = s.supply ∧ (forcePark n s).sysLost = s.sysLost := by
  unfold forcePark
  try dsimp only
  repeat' split
  all_goals simp only [modChan_frame, and_self]

/-- `dropReefMove` changes `age` alone. -/
@[simp] theorem dropReefMove_frame (n : Nat) (s : State) :
    (dropReefMove n s).pending = s.pending ∧ (dropReefMove n s).free = s.free ∧ (dropReefMove n s).regs = s.regs ∧
    (dropReefMove n s).mem = s.mem ∧ (dropReefMove n s).poison = s.poison ∧ (dropReefMove n s).time = s.time ∧
    (dropReefMove n s).host = s.host ∧ (dropReefMove n s).ev = s.ev ∧ (dropReefMove n s).mast = s.mast ∧
    (dropReefMove n s).lanes = s.lanes ∧ (dropReefMove n s).sess = s.sess ∧ (dropReefMove n s).chans = s.chans ∧
    (dropReefMove n s).peers = s.peers ∧ (dropReefMove n s).ports = s.ports ∧ (dropReefMove n s).svc = s.svc ∧
    (dropReefMove n s).tdm = s.tdm ∧ (dropReefMove n s).isls = s.isls ∧ (dropReefMove n s).ques = s.ques ∧
    (dropReefMove n s).vcs = s.vcs ∧ (dropReefMove n s).areas = s.areas ∧ (dropReefMove n s).rig = s.rig ∧
    (dropReefMove n s).boot = s.boot ∧ (dropReefMove n s).acc = s.acc ∧ (dropReefMove n s).cel = s.cel ∧
    (dropReefMove n s).stay = s.stay ∧ (dropReefMove n s).pair = s.pair ∧ (dropReefMove n s).jtag = s.jtag ∧
    (dropReefMove n s).supply = s.supply ∧ (dropReefMove n s).sysLost = s.sysLost := by
  simp only [dropReefMove, and_self]

/-- `clockRunning` changes `regs` alone. -/
@[simp] theorem clockRunning_frame (i : Nat) (s : State) :
    (clockRunning i s).pending = s.pending ∧ (clockRunning i s).free = s.free ∧ (clockRunning i s).mem = s.mem ∧
    (clockRunning i s).poison = s.poison ∧ (clockRunning i s).time = s.time ∧ (clockRunning i s).host = s.host ∧
    (clockRunning i s).ev = s.ev ∧ (clockRunning i s).mast = s.mast ∧ (clockRunning i s).lanes = s.lanes ∧
    (clockRunning i s).sess = s.sess ∧ (clockRunning i s).chans = s.chans ∧ (clockRunning i s).peers = s.peers ∧
    (clockRunning i s).ports = s.ports ∧ (clockRunning i s).svc = s.svc ∧ (clockRunning i s).tdm = s.tdm ∧
    (clockRunning i s).isls = s.isls ∧ (clockRunning i s).ques = s.ques ∧ (clockRunning i s).vcs = s.vcs ∧
    (clockRunning i s).areas = s.areas ∧ (clockRunning i s).rig = s.rig ∧ (clockRunning i s).boot = s.boot ∧
    (clockRunning i s).acc = s.acc ∧ (clockRunning i s).cel = s.cel ∧ (clockRunning i s).stay = s.stay ∧
    (clockRunning i s).pair = s.pair ∧ (clockRunning i s).age = s.age ∧ (clockRunning i s).jtag = s.jtag ∧
    (clockRunning i s).supply = s.supply ∧ (clockRunning i s).sysLost = s.sysLost := by
  unfold clockRunning
  try dsimp only
  repeat' split
  all_goals simp only [fset_frame, and_self]

/-- `bootResult` changes `boot` alone. -/
@[simp] theorem bootResult_frame (n : Nat) (s : State) :
    (bootResult n s).pending = s.pending ∧ (bootResult n s).free = s.free ∧ (bootResult n s).regs = s.regs ∧
    (bootResult n s).mem = s.mem ∧ (bootResult n s).poison = s.poison ∧ (bootResult n s).time = s.time ∧
    (bootResult n s).host = s.host ∧ (bootResult n s).ev = s.ev ∧ (bootResult n s).mast = s.mast ∧
    (bootResult n s).lanes = s.lanes ∧ (bootResult n s).sess = s.sess ∧ (bootResult n s).chans = s.chans ∧
    (bootResult n s).peers = s.peers ∧ (bootResult n s).ports = s.ports ∧ (bootResult n s).svc = s.svc ∧
    (bootResult n s).tdm = s.tdm ∧ (bootResult n s).isls = s.isls ∧ (bootResult n s).ques = s.ques ∧
    (bootResult n s).vcs = s.vcs ∧ (bootResult n s).areas = s.areas ∧ (bootResult n s).rig = s.rig ∧
    (bootResult n s).acc = s.acc ∧ (bootResult n s).cel = s.cel ∧ (bootResult n s).stay = s.stay ∧
    (bootResult n s).pair = s.pair ∧ (bootResult n s).age = s.age ∧ (bootResult n s).jtag = s.jtag ∧
    (bootResult n s).supply = s.supply ∧ (bootResult n s).sysLost = s.sysLost := by
  simp only [bootResult, and_self]

/-- `useSeed` changes `boot` alone. -/
@[simp] theorem useSeed_frame (b : Nat) (s : State) :
    (useSeed b s).pending = s.pending ∧ (useSeed b s).free = s.free ∧ (useSeed b s).regs = s.regs ∧
    (useSeed b s).mem = s.mem ∧ (useSeed b s).poison = s.poison ∧ (useSeed b s).time = s.time ∧
    (useSeed b s).host = s.host ∧ (useSeed b s).ev = s.ev ∧ (useSeed b s).mast = s.mast ∧
    (useSeed b s).lanes = s.lanes ∧ (useSeed b s).sess = s.sess ∧ (useSeed b s).chans = s.chans ∧
    (useSeed b s).peers = s.peers ∧ (useSeed b s).ports = s.ports ∧ (useSeed b s).svc = s.svc ∧
    (useSeed b s).tdm = s.tdm ∧ (useSeed b s).isls = s.isls ∧ (useSeed b s).ques = s.ques ∧
    (useSeed b s).vcs = s.vcs ∧ (useSeed b s).areas = s.areas ∧ (useSeed b s).rig = s.rig ∧
    (useSeed b s).acc = s.acc ∧ (useSeed b s).cel = s.cel ∧ (useSeed b s).stay = s.stay ∧
    (useSeed b s).pair = s.pair ∧ (useSeed b s).age = s.age ∧ (useSeed b s).jtag = s.jtag ∧
    (useSeed b s).supply = s.supply ∧ (useSeed b s).sysLost = s.sysLost := by
  simp only [useSeed, and_self]

/-- `putGroup` changes `tdm` alone. -/
@[simp] theorem putGroup_frame (g : Nat) (x : TdmGroup) (s : State) :
    (putGroup g x s).pending = s.pending ∧ (putGroup g x s).free = s.free ∧ (putGroup g x s).regs = s.regs ∧
    (putGroup g x s).mem = s.mem ∧ (putGroup g x s).poison = s.poison ∧ (putGroup g x s).time = s.time ∧
    (putGroup g x s).host = s.host ∧ (putGroup g x s).ev = s.ev ∧ (putGroup g x s).mast = s.mast ∧
    (putGroup g x s).lanes = s.lanes ∧ (putGroup g x s).sess = s.sess ∧ (putGroup g x s).chans = s.chans ∧
    (putGroup g x s).peers = s.peers ∧ (putGroup g x s).ports = s.ports ∧ (putGroup g x s).svc = s.svc ∧
    (putGroup g x s).isls = s.isls ∧ (putGroup g x s).ques = s.ques ∧ (putGroup g x s).vcs = s.vcs ∧
    (putGroup g x s).areas = s.areas ∧ (putGroup g x s).rig = s.rig ∧ (putGroup g x s).boot = s.boot ∧
    (putGroup g x s).acc = s.acc ∧ (putGroup g x s).cel = s.cel ∧ (putGroup g x s).stay = s.stay ∧
    (putGroup g x s).pair = s.pair ∧ (putGroup g x s).age = s.age ∧ (putGroup g x s).jtag = s.jtag ∧
    (putGroup g x s).supply = s.supply ∧ (putGroup g x s).sysLost = s.sysLost := by
  simp only [putGroup, and_self]

/-- `putPeer` changes `peers` alone. -/
@[simp] theorem putPeer_frame (k : Nat) (p : Peer) (s : State) :
    (putPeer k p s).pending = s.pending ∧ (putPeer k p s).free = s.free ∧ (putPeer k p s).regs = s.regs ∧
    (putPeer k p s).mem = s.mem ∧ (putPeer k p s).poison = s.poison ∧ (putPeer k p s).time = s.time ∧
    (putPeer k p s).host = s.host ∧ (putPeer k p s).ev = s.ev ∧ (putPeer k p s).mast = s.mast ∧
    (putPeer k p s).lanes = s.lanes ∧ (putPeer k p s).sess = s.sess ∧ (putPeer k p s).chans = s.chans ∧
    (putPeer k p s).ports = s.ports ∧ (putPeer k p s).svc = s.svc ∧ (putPeer k p s).tdm = s.tdm ∧
    (putPeer k p s).isls = s.isls ∧ (putPeer k p s).ques = s.ques ∧ (putPeer k p s).vcs = s.vcs ∧
    (putPeer k p s).areas = s.areas ∧ (putPeer k p s).rig = s.rig ∧ (putPeer k p s).boot = s.boot ∧
    (putPeer k p s).acc = s.acc ∧ (putPeer k p s).cel = s.cel ∧ (putPeer k p s).stay = s.stay ∧
    (putPeer k p s).pair = s.pair ∧ (putPeer k p s).age = s.age ∧ (putPeer k p s).jtag = s.jtag ∧
    (putPeer k p s).supply = s.supply ∧ (putPeer k p s).sysLost = s.sysLost := by
  simp only [putPeer, and_self]

end Sys2Proof.Machine
end

