-- ==== Sys2Proof/Laws/Lane.lean ====
section
/-! SUPPORT. One operation of a lane's instruction word: what `laneOp` does with an open word, and where it does nothing. -/

namespace Sys2Proof.Machine

@[simp] theorem laneAt_putLane_same (l : Nat) (x : Lane) (s : State) : laneAt (putLane l x s) l = x := by
  simp [laneAt, putLane]

theorem laneAt_putLane_other {l k : Nat} (x : Lane) (s : State) (h : k ≠ l) : laneAt (putLane l x s) k = laneAt s k :=
  tget_tset_other _ _ _ h

/-- An operation, not its word's last, on a lane that can run with its word open and no QWAIT of it stalling: the outcome of the
operation alone; an attic refusal leaves the word cut. -/
theorem laneOp_open (w : Issue) (slot : Nat) (op : Work → OpResult) (s : State) {c : WordCtx}
    (hr : (laneAt s w.lane).runs = true) (hq : laneStalled s w.lane = false)
    (hc : s.age.stopped.getLsbD (w.lane / 16) = false) (hw : (laneAt s w.lane).word = some c) (hh : c.held = false)
    (hs : stageRuns c.core0 w.stage = true) (hl : w.last = false) :
    laneOp w slot op s =
      match op { lane := w.lane, slot := slot, core := (laneAt s w.lane).core, ctx := c, st := s } with
      | .ok r => putLane w.lane { laneAt r.st w.lane with core := r.core, word := some r.ctx } r.st
      | .fault cause addr s' =>
        let s2 := laneFault w.lane cause slot c.core0.pc.toNat addr s'
        if cause = 8 then putLane w.lane { laneAt s2 w.lane with cut := true } s2 else s2 := by
  have ho : openWord w s = s := by simp [openWord, hw]
  have hg : laneReady s w.lane = true := by simp [laneReady, laneGoes, Lane.waits, hr, hq, hc, hw, hh]
  unfold laneOp runOp
  rw [hg, ho]
  simp only [Bool.not_true, Bool.false_eq_true, if_false, hw, hs, if_true, hl, Bool.false_and, Bool.not_false, and_true]
  all_goals
    generalize op _ = r
    cases r <;> rfl

/-- An operation whose stage does not run, and which is not its word's last, has no effect (R92). -/
theorem laneOp_skipped (w : Issue) (slot : Nat) (op : Work → OpResult) (s : State) {c : WordCtx}
    (hw : (laneAt s w.lane).word = some c) (hs : stageRuns c.core0 w.stage = false) (hl : w.last = false) :
    laneOp w slot op s = s := by
  have ho : openWord w s = s := by simp [openWord, hw]
  simp [laneOp, runOp, passOp, ho, hw, hs, hl]

/-- A lane that does not run, that stalls in a push or whose island is stopped takes no operation. -/
theorem laneOp_idle (w : Issue) (slot : Nat) (op : Work → OpResult) (s : State) (hu : (laneAt s w.lane).cut = false)
    (h : (laneAt s w.lane).runs = false ∨ laneStalled s w.lane = true ∨ s.age.stopped.getLsbD (w.lane / 16) = true) :
    laneOp w slot op s = s := by
  have hg : laneReady s w.lane = false := by rcases h with h | h | h <;> simp [laneReady, laneGoes, h]
  simp [laneOp, passOp, hg, hu]

/-- No operation runs in a word that a QWAIT stalls (R98). -/
theorem laneOp_waits (w : Issue) (slot : Nat) (op : Work → OpResult) (s : State) {c : WordCtx}
    (hu : (laneAt s w.lane).cut = false) (hw : (laneAt s w.lane).word = some c) (hh : c.held = true) :
    laneOp w slot op s = s := by
  simp [laneOp, laneReady, Lane.waits, passOp, hw, hh, hu]

end Sys2Proof.Machine
end

