-- ==== Sys2Proof/Laws/Registers.lean ====
section
/-! SUPPORT. Register fields: what a field reads as after it, or another, is written. -/

namespace Sys2Proof.Machine

theorem regWord_setWord_same (a w : Nat) (s : State) : regWord (setWord a w s) a = w % 2 ^ 32 := by
  simp [regWord, setWord]

theorem regWord_setWord_other {a b : Nat} (w : Nat) (s : State) (h : b ≠ a) :
    regWord (setWord a w s) b = regWord s b := by
  simp [regWord, setWord, tget?_tset_other _ _ h]

/-- A field's bits of a word limited to 32 bits. -/
theorem bitsOf_mod (n : Nat) {hi lo : Nat} (h : lo ≤ hi) (h31 : hi < 32) : bitsOf (n % 2 ^ 32) hi lo = bitsOf n hi lo := by
  unfold bitsOf
  rw [show (2 : Nat) ^ 32 = 2 ^ lo * 2 ^ (32 - lo) by rw [← pow_add]; congr 1; omega, Nat.mod_mul_right_div_self,
    Nat.mod_mod_of_dvd]
  exact Nat.pow_dvd_pow 2 (by omega)

/-- A word split at a field: the bits below it, the field, the bits above. -/
theorem setBits_eq (n : Nat) {hi lo : Nat} (v : Nat) :
    setBits n hi lo v = n % 2 ^ lo + 2 ^ lo * (n / 2 ^ lo / 2 ^ (hi - lo + 1) * 2 ^ (hi - lo + 1) + v % 2 ^ (hi - lo + 1)) := by
  unfold setBits bitsOf
  set W := 2 ^ (hi - lo + 1) with hW
  set L := 2 ^ lo with hL
  have h1 := Nat.div_add_mod n L
  have h2 := Nat.div_add_mod (n / L) W
  have h3 : n = n % L + L * (W * (n / L / W)) + (n / L % W) * L := by
    calc n = L * (n / L) + n % L := h1.symm
      _ = L * (W * (n / L / W) + n / L % W) + n % L := by rw [h2]
      _ = _ := by ring
  have h4 : n - n / L % W * L = n % L + L * (W * (n / L / W)) := by omega
  rw [h4]; ring

/-- The field set. -/
theorem bitsOf_setBits_same (n : Nat) (hi lo v : Nat) :
    bitsOf (setBits n hi lo v) hi lo = v % 2 ^ (hi - lo + 1) := by
  rw [setBits_eq, bitsOf, Nat.add_mul_div_left _ _ (by positivity), Nat.div_eq_of_lt (Nat.mod_lt _ (by positivity)),
    zero_add, Nat.add_comm, Nat.add_mul_mod_self_right, Nat.mod_mod]

/-- Another field of the same word. -/
theorem bitsOf_setBits_other (n : Nat) {hi lo hi' lo' : Nat} (v : Nat) (h : lo ≤ hi) (h' : lo' ≤ hi')
    (hd : hi < lo' ∨ hi' < lo) : bitsOf (setBits n hi lo v) hi' lo' = bitsOf n hi' lo' := by
  rw [setBits_eq]
  unfold bitsOf
  rcases hd with hd | hd
  · have e : (2 : Nat) ^ lo' = 2 ^ lo * 2 ^ (hi - lo + 1) * 2 ^ (lo' - hi - 1) := by
      rw [← pow_add, ← pow_add]; congr 1; omega
    congr 1
    rw [e, ← Nat.div_div_eq_div_mul, ← Nat.div_div_eq_div_mul, ← Nat.div_div_eq_div_mul, ← Nat.div_div_eq_div_mul]
    congr 1
    rw [Nat.add_mul_div_left _ _ (by positivity), Nat.div_eq_of_lt (Nat.mod_lt _ (by positivity)), zero_add, Nat.add_comm,
      Nat.add_mul_div_right _ _ (by positivity), Nat.div_eq_of_lt (Nat.mod_lt _ (by positivity)), zero_add]
  · have key : ∀ m : Nat, m / 2 ^ lo' % 2 ^ (hi' - lo' + 1) = m % 2 ^ lo / 2 ^ lo' % 2 ^ (hi' - lo' + 1) := by
      intro m
      have e : (2 : Nat) ^ lo = 2 ^ lo' * 2 ^ (lo - lo') := by rw [← pow_add]; congr 1; omega
      rw [e, Nat.mod_mul_right_div_self, Nat.mod_mod_of_dvd]
      exact Nat.pow_dvd_pow 2 (by omega)
    rw [key, key n]
    simp

theorem fget_fset_same (s : State) (f : Fld) (v i j : Nat) (h : f.lo ≤ f.hi) (h31 : f.hi < 32) :
    fget (fset f v s i j) f i j = v % 2 ^ (f.hi - f.lo + 1) := by
  rw [fget, fset, regWord_setWord_same, bitsOf_mod _ h h31, bitsOf_setBits_same]

/-- A field of another register, or another copy. -/
theorem fget_setWord_other (s : State) (g : Fld) {a : Nat} (w i j : Nat) (h : g.reg.addr i j ≠ a) :
    fget (setWord a w s) g i j = fget s g i j := by
  rw [fget, regWord_setWord_other _ _ h, fget]

theorem fget_fset_other (s : State) (f g : Fld) (v i j i' j' : Nat) (h : g.reg.addr i' j' ≠ f.reg.addr i j) :
    fget (fset f v s i j) g i' j' = fget s g i' j' := fget_setWord_other s g _ i' j' h

/-- Another field of the same copy of a register. -/
theorem fget_fset_beside (s : State) (f g : Fld) (v i j : Nat) (hr : g.reg = f.reg) (h : f.lo ≤ f.hi) (h' : g.lo ≤ g.hi)
    (h31 : g.hi < 32) (hd : f.hi < g.lo ∨ g.hi < f.lo) : fget (fset f v s i j) g i j = fget s g i j := by
  rw [fget, fset, hr, regWord_setWord_same, bitsOf_mod _ h' h31, bitsOf_setBits_other _ _ h h' hd, fget, hr]

/-- A counter advanced (R12). -/
theorem fget_fbump_same (s : State) (f : Fld) (n i j : Nat) (h : f.lo ≤ f.hi) (h31 : f.hi < 32) :
    fget (fbump f n s i j) f i j = satTo (2 ^ (f.hi - f.lo + 1) - 1) (fget s f i j + n) := by
  rw [fbump, fget_fset_same _ _ _ _ _ h h31, Nat.mod_eq_of_lt]
  have : 0 < 2 ^ (f.hi - f.lo + 1) := by positivity
  unfold satTo
  split <;> omega

theorem fget_fbump_other (s : State) (f g : Fld) (n i j i' j' : Nat) (h : g.reg.addr i' j' ≠ f.reg.addr i j) :
    fget (fbump f n s i j) g i' j' = fget s g i' j' := fget_fset_other s f g _ i j i' j' h

theorem fget_fbump_beside (s : State) (f g : Fld) (n i j : Nat) (hr : g.reg = f.reg) (h : f.lo ≤ f.hi) (h' : g.lo ≤ g.hi)
    (h31 : g.hi < 32) (hd : f.hi < g.lo ∨ g.hi < f.lo) : fget (fbump f n s i j) g i j = fget s g i j :=
  fget_fset_beside s f g _ i j hr h h' h31 hd

/-- A field reads the registers alone. -/
theorem fget_congr {s t : State} (h : t.regs = s.regs) (f : Fld) (i j : Nat) : fget t f i j = fget s f i j := by
  simp only [fget, regWord, h]

/-- What raising an event leaves of a field outside the counters of R401 and R408. -/
theorem fget_raise (s : State) (src : Nat) (l : List (Nat × Nat)) (g : Fld) (i j : Nat)
    (h1 : g.reg.addr i j ≠ RegId.addr .ERR_CLASS) (h2 : g.reg.addr i j ≠ RegId.addr .ERR_PENDING) :
    fget (raise src l s) g i j = fget s g i j := by
  have hc : fget (countClass src s) g i j = fget s g i j := by
    unfold countClass
    repeat' split
    · exact fget_fbump_other _ _ _ _ _ _ _ _ h1
    · exact fget_fbump_other _ _ _ _ _ _ _ _ h1
    · rfl
  unfold raise enqueueEvent
  split
  · rw [← hc]; exact fget_congr rfl _ _ _
  · dsimp only
    rw [← hc, ← fget_fbump_other (countClass src s) .ERR_PENDING_lost g 1 0 0 i j h2]
    exact fget_congr rfl _ _ _

end Sys2Proof.Machine
end

