-- ==== Sys2Proof/Laws/Places.lean ====
section
/-! SUPPORT. Where registers stand: the places that matter for a stretch of addresses, found once for all of it. -/

namespace Sys2Proof.Machine

/-- Whether a place may have a copy between two addresses. -/
def RegPlace.meets (p : RegPlace) (lo hi : Nat) : Bool :=
  decide (p.base ≤ hi) && decide (lo ≤ p.base + p.s1 * (p.n1 - 1) + p.s2 * (p.n2 - 1))

theorem RegPlace.at?_none_of_not_meets {p : RegPlace} {lo hi a : Nat} (h : p.meets lo hi = false) (hl : lo ≤ a)
    (hh : a ≤ hi) : p.at? a = none := by
  unfold RegPlace.at?
  refine if_neg fun ⟨hb, hi', hj, hr⟩ => ?_
  have h1 := Nat.div_add_mod (a - p.base) p.s1
  have h2 := Nat.div_add_mod ((a - p.base) % p.s1) p.s2
  have h3 := Nat.mul_le_mul_left p.s1 (Nat.le_sub_one_of_lt hi')
  have h4 := Nat.mul_le_mul_left p.s2 (Nat.le_sub_one_of_lt hj)
  simp only [RegPlace.meets, Bool.and_eq_false_iff, decide_eq_false_iff_not] at h
  omega

theorem findSome?_filter {α β : Type} (f : α → Option β) (g : α → Bool) (h : ∀ p, g p = false → f p = none) (l : List α) :
    l.findSome? f = (l.filter g).findSome? f := by
  induction l with
  | nil => rfl
  | cons p t ih =>
    cases hg : g p with
    | false => rw [List.filter_cons_of_neg (by simp [hg]), List.findSome?_cons, h p hg, ih]
    | true => rw [List.filter_cons_of_pos hg, List.findSome?_cons, List.findSome?_cons, ih]

/-- Within a stretch of addresses, a register stands at a place that meets the stretch. -/
theorem regAt_of_meets {lo hi : Nat} {ps : List RegPlace} (h : regPlaces.filter (fun p => p.meets lo hi) = ps) {a : Nat}
    (hl : lo ≤ a) (hh : a ≤ hi) : regAt a = ps.findSome? (fun p => p.at? a) := by
  rw [regAt, findSome?_filter _ _ (fun p hp => RegPlace.at?_none_of_not_meets hp hl hh), h]

/-- A register that nothing has written holds its reset word. -/
theorem regWord_of_unlisted {s : State} {a : Nat} (h : tget? s.regs a = none) {r : RegId} {i j : Nat}
    (ha : regAt a = some (r, i, j)) : regWord s a = r.resetWord i j := by
  simp [regWord, h, ha]

theorem shadow_places : regPlaces.filter (fun p => p.meets 0x264000 0x267FFF) = [⟨.TDM_MAP_SHADOW, 0x264000, 4096, 4, 1, 4⟩] := by
  decide +kernel

theorem shadow_addr (l : Nat) : RegId.addr .TDM_MAP_SHADOW l = 0x264000 + 4 * l := by
  have h : RegId.place .TDM_MAP_SHADOW = ⟨.TDM_MAP_SHADOW, 0x264000, 4096, 4, 1, 4⟩ := by decide +kernel
  simp [RegId.addr, h]

theorem regAt_shadow {l : Nat} (h : l < 4096) : regAt (RegId.addr .TDM_MAP_SHADOW l) = some (.TDM_MAP_SHADOW, l, 0) := by
  rw [shadow_addr, regAt_of_meets shadow_places (by omega) (by omega)]
  simp [RegPlace.at?]
  omega

/-- After reset each logical slot maps to its own physical slot (R272). -/
theorem shadow_reset {s : State} {l : Nat} (h : l < 4096) (hs : tget? s.regs (RegId.addr .TDM_MAP_SHADOW l) = none) :
    let w := regWord s (RegId.addr .TDM_MAP_SHADOW l)
    bitsOf w 31 31 = 1 ∧ bitsOf w 12 8 = l / 128 ∧ bitsOf w 6 0 = l % 128 := by
  intro w
  have e : w = setBits (setBits 0x80000000 12 8 (l / 128)) 6 0 (l % 128) := by
    show regWord s _ = _
    rw [regWord_of_unlisted hs (regAt_shadow h)]
    rfl
  rw [e]
  refine ⟨?_, ?_, ?_⟩
  · rw [bitsOf_setBits_other _ _ (by omega) (by omega) (by omega), bitsOf_setBits_other _ _ (by omega) (by omega) (by omega)]
    rfl
  · rw [bitsOf_setBits_other _ _ (by omega) (by omega) (by omega), bitsOf_setBits_same]
    omega
  · rw [bitsOf_setBits_same]
    omega

/-- A shadow map that nothing has written passes its check (R266). -/
theorem shadowOk_of_unlisted {s : State} (h : ∀ l, l < 4096 → tget? s.regs (RegId.addr .TDM_MAP_SHADOW l) = none) :
    shadowOk s = true := by
  simp only [shadowOk, Bool.and_eq_true, List.all_eq_true, decide_eq_true_eq]
  refine ⟨fun p hp => ?_, ?_⟩
  · obtain ⟨l, hl, hp⟩ := List.mem_filterMap.1 hp
    rw [List.mem_range] at hl
    obtain ⟨-, h2, h3⟩ := shadow_reset hl (h l hl)
    split at hp
    · next hc =>
      cases hp
      simpa [h2, h3] using hc.1
    · cases hp
  · rw [List.Nodup, List.pairwise_filterMap]
    refine List.Pairwise.imp_of_mem ?_ (List.nodup_range (n := 4096))
    intro a b ha hb hab p hp q hq hpq
    rw [List.mem_range] at ha hb
    obtain ⟨-, a2, a3⟩ := shadow_reset ha (h a ha)
    obtain ⟨-, b2, b3⟩ := shadow_reset hb (h b hb)
    split at hp <;> split at hq <;> simp_all
    obtain ⟨rfl⟩ := hp
    obtain ⟨h1, h2⟩ := Prod.mk.inj hq
    omega

end Sys2Proof.Machine
end

