-- ==== Sys2Proof/Tests/Slice0.lean ====
section
/-! SUPPORT. Small tests, and for every statement with hypotheses a state and operands that meet them. Expected values are
worked out by hand from the rules named. -/

namespace Sys2Proof.Tests

open Sys2Proof Sys2Proof.Machine Sys2Proof.Spec

set_option maxRecDepth 20000
set_option Elab.async false

/-- A command answers a next state with a property. -/
def after (i : Instr) (s : State) (P : State → Bool) : Bool :=
  match exec i s with
  | .next t => P t
  | .fault _ => false
  | .refused _ => false

/-- Two outcomes are the same next state. -/
def same (a b : Host.Outcome State Fault Refusal) : Bool :=
  match a, b with
  | .next x, .next y => decide (x = y)
  | _, _ => false

/-- A command changes nothing. -/
def stays (i : Instr) (s : State) : Bool := same (exec i s) (.next s)

/-! ### Lanes -/

/-- A lane in the middle of a word at address 5: scalars, vectors and pointers with known contents. -/
def core : LaneCore :=
  { s := [(1, 5), (2, 7), (4, 0x80000000)]
    v := [(1, joinW (fun _ => 0x3F800000)), (2, joinW (fun _ => 0x40000000)), (3, joinH (fun _ => 0x7FFF))]
    acc := [(1, joinA (fun _ => 3))]
    a := [(0, { p := 64 }), (1, { p := 0x80000 }), (2, { p := 0x900000 }), (3, { p := 66 }),
          (4, { p := 128, b := 128, l := 64, m := 16 })]
    pc := 5, ccount := 2, issued := 9, cyc := 30 }
def ctx : WordCtx := { core0 := core }
def lane : Lane := { st := .running, core := core, word := some ctx }
/-- Lane 3 in the middle of a word. -/
def sLane : State := { State.reset with lanes := [(3, lane)] }
def w0 : Issue := { lane := 3, stage := 0, gap := 0, last := false }
def v0 : VFields := { d := 1, a := 1, b := 2, c := 1, imm := 0 }
def vH : VFields := { d := 1, a := 3, b := 3, c := 0, imm := 3 }

theorem wit_open : WordOpen w0 sLane ctx :=
  ⟨by decide +kernel, by decide +kernel, by decide +kernel, by decide +kernel, rfl, by decide +kernel, by decide +kernel, rfl⟩

/-- 1.0 + 2.0 = 3.0 in each element, due 4 words after this one (R62, R96). -/
theorem test_vadd : after (.vadd w0 v0) sLane (fun t => ((laneAt t 3).word.map (fun c => c.vw)) ==
    some [{ reg := 1, val := joinW (fun _ => 0x40400000), due := 13 }]) = true := by decide +kernel

/-- 0x7FFF × 0x7FFF / 2^15, rounded, is 0x7FFE, with no flag (R70). -/
theorem test_vmulqr : after (.vmulqrH w0 vH) sLane (fun t => ((laneAt t 3).word.map (fun c => (c.vw, c.flags))) ==
    some ([{ reg := 1, val := joinH (fun _ => 0x7FFE), due := 11 }], 0)) = true := by decide +kernel
/-- 0x7FFF + 0x7FFF is limited to 0x7FFF and sets sat (R70, R71). -/
theorem test_vadds_h : after (.vaddsH w0 vH) sLane (fun t => ((laneAt t 3).word.map (fun c => (c.vw, c.flags))) ==
    some ([{ reg := 1, val := joinH (fun _ => 0x7FFF), due := 11 }], 2)) = true := by decide +kernel
/-- 0x80000000 shifted right by 7 with its sign is 0xFF000000; S0 takes no write (R83, R95). -/
theorem test_sra : after (.sra w0 { d := 3, a := 4, b := 2, low := 0 }) sLane
      (fun t => readS (laneAt t 3).core 3 == 0xFF000000) = true ∧
    after (.add w0 { d := 0, a := 1, b := 2, low := 0 }) sLane (fun t => (laneAt t 3).core == core) = true := by
  decide +kernel
/-- 16-bit immediates replace one half of the register (R95). -/
theorem test_mov16 : after (.mov16 w0 { d := 4, high := false, imm := 0x1234 }) sLane
    (fun t => readS (laneAt t 3).core 4 == 0x80001234) = true := by decide +kernel

theorem wit_reserved_v :
    same (exec (.aclr w0 { v0 with d := 8 }) sLane) (.next (laneFault 3 1 0 5 0 sLane)) = true ∧
    same (exec (.ared w0 { v0 with d := 63 }) sLane) (.next (laneFault 3 1 0 5 0 sLane)) = true ∧
    same (exec (.astv w0 { v0 with a := 8 }) sLane) (.next (laneFault 3 1 0 5 0 sLane)) = true ∧
    same (exec (.cvtHf w0 { v0 with imm := 32 }) sLane) (.next (laneFault 3 1 0 5 0 sLane)) = true ∧
    same (exec (.cvtFw w0 { v0 with imm := 96 }) sLane) (.next (laneFault 3 1 0 5 0 sLane)) = true ∧
    same (exec (.vshrH w0 { v0 with imm := 16 }) sLane) (.next (laneFault 3 1 0 5 0 sLane)) = true := by decide +kernel
theorem wit_accumulators :
    same (exec (.aadd w0 { v0 with d := 7 }) sLane) (accTakes w0 7
      (joinA (fun i => (accAdd 0 (elemW (readV core 1) i) (elemW (readV core 2) i)).1)) 0 ctx sLane) = true ∧
    after (.astv w0 { v0 with a := 7 }) sLane (fun t => (laneAt t 3).core == core) = true ∧
    after (.cvtWf w0 { v0 with imm := 31 }) sLane (fun t => (laneAt t 3).st == .running) = true ∧
    after (.vshlsH w0 { v0 with imm := 15 }) sLane (fun t => (laneAt t 3).st == .running) = true := by decide +kernel

/-- LOOP at address 5: three levels active; an end word at its own address, or past the enclosing level's; count 0; count 4. -/
def inLoop (n : Nat) (last : BitVec 12) : State :=
  { State.reset with lanes := [(3, { lane with word := some { ctx with core0 := { core with
      loops := List.replicate n { body := 2, last := last, left := 3 } } } })] }
def loopTo (last : BitVec 12) (count : BitVec 6) : LoopFields :=
  { fromReg := false, rotate := true, drain := 2, count := count, last := last }
theorem wit_loop :
    same (exec (.loop w0 (loopTo 9 4)) (inLoop 3 20)) (.next (laneFault 3 6 3 5 0 (inLoop 3 20))) = true ∧
    same (exec (.loop w0 (loopTo 5 4)) (inLoop 2 20)) (.next (laneFault 3 7 3 5 0 (inLoop 2 20))) = true ∧
    same (exec (.loop w0 (loopTo 21 4)) (inLoop 2 20)) (.next (laneFault 3 7 3 5 0 (inLoop 2 20))) = true ∧
    after (.loop w0 (loopTo 20 0)) (inLoop 2 20) (fun t => (laneAt t 3).word.bind (fun c => c.skip) == some 21) = true ∧
    after (.loop w0 (loopTo 6 4)) sLane (fun t => ((laneAt t 3).word.bind (fun c => c.loop)).map (fun l => l.left) == some 6) =
      true := by decide +kernel

theorem wit_special :
    after (.mfs w0 { r := 6, id := 3 }) (inLoop 1 20) (fun t => readS (laneAt t 3).core 6 == 3) = true ∧
    after (.mfs w0 { r := 6, id := 5 }) (inLoop 1 20) (fun t => readS (laneAt t 3).core 6 == 0) = true ∧
    after (.mfs w0 { r := 6, id := 12 }) sLane (fun t => readS (laneAt t 3).core 6 == 3) = true ∧
    after (.mfs w0 { r := 6, id := 11 }) sLane (fun t => readS (laneAt t 3).core 6 == 30 && t.free == 0) = true ∧
    after (.mfs w0 { r := 6, id := 0 }) sLane (fun t => t.free == 1) = true ∧
    same (exec (.mfs w0 { r := 6, id := 13 }) sLane) (.next (laneFault 3 1 3 5 0 sLane)) = true ∧
    after (.mts w0 { r := 1, id := 12 }) sLane (fun t => (laneAt t 3).word.map (fun c => c.spec) == some [(12, 5)]) = true ∧
    same (exec (.mts w0 { r := 1, id := 13 }) sLane) (.next (laneFault 3 1 3 5 0 sLane)) = true ∧
    (closeWord { core with afs := 7 } { ctx with spec := [(0, 5)], flags := 4 }).afs = 6 ∧
    (closeWord core { ctx with spec := [(2, 33)] }).vrb = 1 := by decide +kernel

/-- A rigged device with lane 3 in a word that ends its tick, a boundary having passed or not. -/
def sDone (late : Bool) : State :=
  { State.reset with
    rig := { running := true, rigged := 255 }
    lanes := [(3, { lane with late := late, word := some { ctx with core0 := { core with loops := [{}] } } })] }
theorem wit_tick_end :
    after (.cnext w0) sLane (fun t => (laneAt t 3).core.cidx == 1) = true ∧
    after (.cnext w0) { sLane with lanes := [(3, { lane with core := { core with cidx := 2 } })] }
      (fun t => (laneAt t 3).core.cidx == 2) = true ∧
    after (.tdone { w0 with last := true }) (sDone false) (fun t => (laneAt t 3).st == .idle && (laneAt t 3).word == none) =
      true ∧
    dispatches (sDone true) 3 = true ∧
    after (.tdone { w0 with last := true }) (sDone true) (fun t => (laneAt t 3).st == .running && (laneAt t 3).core.cyc == 0) =
      true := by decide +kernel

/-- Queue 1, from output port 2 of lane 3, VC 0: 4 credits, 32 bytes, drop-capable or not, holding `n` words. -/
def sQueue (dropCapable : Bool) (n : Nat) : State :=
  { sLane with
    regs := [(RegId.addr .QUE_CFG 1, 0), (RegId.addr .QUE_VC_CFG 1 0, (if dropCapable then 0x80000000 else 0) + 0x40020)]
    ques := [(1, { ports := [(0, 0x32)], consumer := 0 })]
    vcs := if n = 0 then [] else [(4, { pkts := [{ len := 8 * n, words := List.replicate n (7, .ok) }] })] }
/-- QPUSH of `n` bytes at `a`. -/
def sPush (s : State) (a n : Word) : State :=
  { s with lanes := [(3, { lane with core := { core with s := [(1, a), (2, n)] }
                                     word := some { ctx with core0 := { core with s := [(1, a), (2, n)] } } })] }
def q0 : AluFields := { d := 6, a := 1, b := 2, low := 2 }
/-- The scalar that QPUSH wrote, and the packets VC 0 of queue 1 holds. -/
def pushed (t : State) (v : Word) (n : Nat) : Bool := readS (laneAt t 3).core 6 == v && (vcAt t 1 0).pkts.length == n
theorem wit_qpush :
    same (exec (.qpush w0 q0) (sPush (sQueue true 0) 0x7FFFF 2))
      (.next (laneFault 3 3 3 5 0x7FFFF (sPush (sQueue true 0) 0x7FFFF 2))) = true ∧
    lanePort (sPush (sQueue true 0) 0x7FFF0 16) 3 1 = none ∧
    after (.qpush w0 { q0 with low := 1 }) (sPush (sQueue true 0) 0x7FFF0 16) (fun t => t.free == 1) = true ∧
    lanePort (sPush (sQueue true 0) 0x7FFF0 16) 3 2 = some (1, 0) ∧
    after (.qpush w0 q0) (sPush (sQueue true 0) 0x7FFF0 0) (fun t => pushed t 2 0) = true ∧
    after (.qpush w0 q0) (sPush (sQueue true 0) 0x7FF00 33) (fun t => pushed t 2 0) = true ∧
    after (.qpush w0 q0) (sPush (sQueue true 0) 0x7FF00 32) (fun t => pushed t 0 1) = true ∧
    freeCredits (sPush (sQueue true 1) 0x7FF00 32) 1 0 = 3 ∧
    after (.qpush w0 q0) (sPush (sQueue true 1) 0x7FF00 32) (fun t => pushed t 8 1) = true := by decide +kernel
/-- A notice pending at input port 2 of lane 3, the packet of an earlier one taken. -/
def sNotice (noted : List (BitVec 32 × Nat)) : State :=
  { sLane with areas := [(26, { base := 0, len := 64, used := [(0, 9), (16, 3)], taken := [0], noted := noted })] }
theorem wit_notices :
    same (exec (.qwait w0 q0) (sNotice [])) (.next (withLane w0 core { ctx with held := true } (sNotice []))) = true ∧
    stays (.qwait { w0 with stage := 5 } q0) { sNotice [] with lanes := [(3, { lane with word := some { ctx with core0 :=
      { core with loops := [{ rotate := true, count := 1 }] } } })] } = true ∧
    after (.qnote w0 q0) (sNotice []) (fun t => readS (laneAt t 3).core 6 == 0 && (areaAt t 3 2).used == [(16, 3)]) = true ∧
    same (exec (.qwait w0 q0) (sNotice [(1, 0)])) (.next (withLane w0 core ctx (sNotice [(1, 0)]))) = true ∧
    after (.qnote w0 q0) (sNotice [(1, 0)]) (fun t => readS (laneAt t 3).core 6 == 1 && (areaAt t 3 2).taken == [16]) = true := by
  decide +kernel
/-- VRSQ of a negative subnormal is the quiet NaN, with no flag: row 2 of Table 2 comes before its row for zeros (R61). -/
theorem test_vrsq_negative_subnormal : f32Rsq 0x80000001 = (0x7FC00000, false) := by decide +kernel
theorem wit_held_wait :
    after (.qwait w0 q0) { sNotice [(1, 0)] with lanes := [(3, { lane with word := some { ctx with held := true } })] }
      (fun t => t.free == 1) = true := by decide +kernel


/-! ### Lanes: the LS slots and the word -/

/-- LS0 with a reg field, an address register, a mode and an immediate. -/
def ls (reg : BitVec 6) (areg : BitVec 4) (mode : BitVec 2) (imm : BitVec 8) : LsFields :=
  { slot1 := false, reg := reg, areg := areg, mode := mode, imm := imm }
/-- Lane 3 with a locked access table that opens the first two units of its cluster's attic to it. -/
def sAttic : State :=
  { sLane with
    acc := { locked := true, entries := [(482, [{ start := 0, len := 2, r := true, w := true }])] }
    lanes := [(3, { lane with core := { core with a := [(0, { p := 0x400040 })] } })]
    mem := [(0x02000040, 7), (0x02000041, 1)] }
/-- A served load of 16 bytes of data memory, the last of it, a served store in the attic, and a served load of 32 bytes. -/
theorem wit_served :
    Served w0 (ls 1 0 0 0) 16 true false sLane 0x08300040 ∧
    Served w0 (ls 1 1 0 0xFF) 8 true false sLane 0x0837FFF8 ∧
    Served w0 (ls 1 0 0 0) 4 true true sAttic 0x02000040 ∧
    Served w0 (ls 1 0 0 0) 32 false false sLane 0x08300040 ∧ Memory.wf sAttic.mem = true := by
  refine ⟨⟨?_, ?_, ?_, ?_, ?_, ?_⟩, ⟨?_, ?_, ?_, ?_, ?_, ?_⟩, ⟨?_, ?_, ?_, ?_, ?_, ?_⟩, ⟨?_, ?_, ?_, ?_, ?_, ?_⟩, ?_⟩ <;>
    decide +kernel
/-- LD.WB copies a little-endian word to all four elements (R94); a store puts the least significant byte first. -/
theorem test_ldwb : after (.ldWb w0 (ls 9 0 0 0)) sAttic (fun t => (laneAt t 3).word.map (fun c => c.vw) ==
    some [{ reg := 9, val := joinW (fun _ => 0x107), due := 12 }]) = true := by decide +kernel
theorem test_stw : after (.stW w0 (ls 1 0 0 0)) sLane (fun t => t.mem == [(0x08300040, 5)]) = true := by decide +kernel
/-- Table 3 of R87: with L = 0x100 and P = 0x1_0180 a post-modify by 16 folds P to 0x1_0090, and one with L = 0x200 and
P = 0x1_01F0 wraps it to 0x1_0000 with no fold. -/
theorem test_fold :
    let s := fun (p l : Word) =>
      { sLane with lanes := [(3, { lane with core := { core with a := [(4, { p := p, b := 0x10000, l := l, m := 16 })] } })] }
    let ends := fun (p : Word) (f : List Nat) (t : State) =>
      (readA (laneAt t 3).core 4).p == p && (laneAt t 3).word.map (fun c => c.folds) == some f
    after (.ldQ w0 (ls 9 4 1 0)) (s 0x10180 0x100) (ends 0x10090 [4]) = true ∧
    after (.ldQ w0 (ls 9 4 1 0)) (s 0x101F0 0x200) (ends 0x10000 []) = true := by decide +kernel

theorem wit_bad_access :
    same (exec (.ldQ w0 (ls 1 3 0 0)) sLane) (.next (laneFault 3 2 1 5 66 sLane)) = true ∧
    same (exec (.aload w0 (ls 8 0 0 0)) sLane) (.next (laneFault 3 1 1 5 0 sLane)) = true ∧
    same (exec (.stW w0 (ls 1 1 0 0)) sLane) (.next (laneFault 3 3 1 5 0x80000 sLane)) = true ∧
    same (exec (.asave w0 (ls 1 0 0 0)) sAttic) (.next (laneFault 3 3 1 5 0x400040 sAttic)) = true ∧
    same (exec (.ldD w0 (ls 1 12 0 0)) sLane) (.next (laneFault 3 1 1 5 0 sLane)) = true ∧
    same (exec (.ldD w0 (ls 1 0 3 0)) sLane) (.next (laneFault 3 1 1 5 0 sLane)) = true := by decide +kernel
theorem wit_lane_fault :
    let t := laneFault 3 2 1 5 66 { sLane with
      mem := [(0x08300040, 5)], lanes := [(3, { lane with word := some { ctx with undo := [(0x08300040, 0)] } })] }
    ((laneAt t 3).st == .faulted && t.mem == [] && fget t .LAN_FAULT_cause 3 == 2 && fget t .LAN_FAULT_pc 3 == 5 &&
      fget t .LAN_FAULT_ADDR_address 3 == 66) = true := by decide +kernel
theorem wit_pointers :
    after (.adda w0 (ls 0 11 2 4)) sLane (fun t => (readA (laneAt t 3).core 11).p == 4) = true ∧
    after (.awr w0 (ls 31 0 0 3)) sLane (fun t => (laneAt t 3).word.map (fun c => c.awr) == some [(0, 3, 0)]) = true ∧
    after (.ard w0 (ls 5 4 0 3)) sLane (fun t => readS (laneAt t 3).core 5 == 16) = true ∧
    same (exec (.awr w0 (ls 32 0 0 3)) sLane) (.next (laneFault 3 1 1 5 0 sLane)) = true ∧
    same (exec (.ard w0 (ls 1 0 0 4)) sLane) (.next (laneFault 3 1 1 5 0 sLane)) = true ∧
    readA (closeWord core { ctx with awr := [(0, 2, 9)] }) 0 = { p := 64, l := 9 } := by decide +kernel

/-- Lane 3 between words, its instruction word at address 5 sound or not. -/
def sFresh (bad : Bool) : State :=
  { State.reset with lanes := [(3, { lane with word := none })], poison := if bad then [0x08380050] else [] }
theorem wit_word_opens :
    same (exec (.cnext w0) (sFresh false)) (exec (.cnext w0) (putLane 3 { lane with word := some ctx } (sFresh false))) = true ∧
    after (.tdone w0) (sFresh true) (fun t => (laneAt t 3).st == .faulted && fget t .LAN_FAULT_cause 3 == 5) = true ∧
    stays (.vadd w0 v0) { sLane with lanes := [(3, { lane with st := .idle, word := none })] } = true ∧
    stays (.vadd w0 v0) { sLane with age := { stopped := 1 } } = true := by decide +kernel
theorem wit_word_ends :
    stageRuns { core with loops := [{ rotate := true, left := 4, count := 2 }] } 3 = false ∧
    stays (.vadd { w0 with stage := 3 } v0) { sLane with lanes := [(3, { lane with word := some { ctx with
      core0 := { core with loops := [{ rotate := true, left := 4, count := 2 }] } } })] } = true ∧
    after (.cnext { w0 with last := true }) sLane (fun t => (laneAt t 3).word == none && (laneAt t 3).core.pc == 6) = true := by
  decide +kernel
/-- A level of three iterations, its end word at `last`, which rotates. -/
def level (last : BitVec 12) (left : Nat) : LoopLevel := { body := 2, last := last, left := left, rotate := true }
theorem wit_word_goes_on :
    (closeWord core { ctx with jump := some 100 }).pc = 100 ∧ (closeWord core { ctx with jump := some 100 }).cyc = 33 ∧
    (closeWord core { ctx with loop := some (level 9 3) }).loops.length = 1 ∧
    (closeWord { core with loops := [level 6 3] } ctx).pc = 6 ∧
    (closeWord { core with loops := [level 5 2] } ctx).pc = 2 ∧ (closeWord { core with loops := [level 5 2] } ctx).vrb = 1 ∧
    (closeWord { core with loops := [level 5 1] } ctx).pc = 6 ∧ (closeWord { core with loops := [level 5 1] } ctx).loops = [] := by
  decide +kernel
/-- A word written out from R80 and R93 to R95: VADD V1, V2, V3; LD.Q V9 at A4, post-modified by -1 elements, stage 1; BNZ S5 to
word 0x123, stage 2. LS1 is empty. -/
theorem test_lane_word :
    decodeLaneWord 3 7 (0x1 <<< 31 ||| 1 <<< 25 ||| 2 <<< 19 ||| 3 <<< 13 |||
        (1 <<< 25 ||| 3 <<< 20 ||| 9 <<< 14 ||| 4 <<< 10 ||| 2 <<< 8 ||| 0xFF) <<< 40 |||
        (2 <<< 29 ||| 0x16 <<< 23 ||| 5 <<< 18 ||| 0x123) <<< 96) =
      [.vadd { lane := 3, stage := 0, gap := 7, last := false } { d := 1, a := 2, b := 3, c := 0, imm := 0 },
       .ldQ { lane := 3, stage := 1, gap := 0, last := false } { ls 9 4 2 0xFF with slot1 := false },
       .bnz { lane := 3, stage := 2, gap := 0, last := true } { a := 5, target := 0x123 }] := by decide +kernel
/-- LOOP from S7, rotating with drain 3, end word 0x40; SHLI S2, S1, 5; MTS VRB, S4; the queue port of QPUSH (R95). -/
theorem test_s_slot :
    (decodeLaneWord 0 0 ((0x19 <<< 23 ||| 1 <<< 22 ||| 1 <<< 21 ||| 3 <<< 18 ||| 7 <<< 12 ||| 0x40) <<< 96) =
      [.loop { lane := 0, stage := 0, gap := 0, last := true }
        { fromReg := true, rotate := true, drain := 3, count := 7, last := 0x40 }]) ∧
    (decodeLaneWord 0 0 ((0x10 <<< 23 ||| 2 <<< 18 ||| 1 <<< 13 ||| 5) <<< 96) =
      [.shli { lane := 0, stage := 0, gap := 0, last := true } { d := 2, a := 1, imm := 5 }]) ∧
    (decodeLaneWord 0 0 ((0x1B <<< 23 ||| 4 <<< 18 ||| 2) <<< 96) =
      [.mts { lane := 0, stage := 0, gap := 0, last := true } { r := 4, id := 2 }]) ∧
    (decodeLaneWord 0 0 ((0x1C <<< 23 ||| 6 <<< 18 ||| 1 <<< 13 ||| 2 <<< 8 ||| 5) <<< 96) =
      [.qpush { lane := 0, stage := 0, gap := 0, last := true } { d := 6, a := 1, b := 2, low := 5 }]) := by decide +kernel
/-- A word whose V slot holds the reserved opcode 0x35 is fault ILLEGAL of slot 0; one whose fetch met an uncorrectable error is
fault PMEM_UE (R93, R102). -/
theorem wit_reserved_opcode :
    after (.cnext w0) { sFresh false with mem := [(0x08380053, 0x80), (0x08380054, 0x1A)] }
      (fun t => (laneAt t 3).st == .faulted && fget t .LAN_FAULT_cause 3 == 1 && fget t .LAN_FAULT_pc 3 == 5) = true ∧
    after (.cnext { w0 with fetch := [.uncorrectable, .ok] }) (sFresh false)
      (fun t => (laneAt t 3).st == .faulted && fget t .LAN_FAULT_cause 3 == 5) = true ∧
    after (.cnext { w0 with fetch := [.correctable, .ok] }) (sFresh false)
      (fun t => (laneAt t 3).runs && fget t .LAN_PMEM_ECC_corrected 3 == 1) = true := by decide +kernel


/-! ### The host port -/

/-- CRC-16 of "123456789" under R374's parameters is 0x29B1, the published check value. -/
theorem test_crc16 : crc16 [0x31, 0x32, 0x33, 0x34, 0x35, 0x36, 0x37, 0x38, 0x39] = 0x29B1 := by decide +kernel

/-- A request frame (R374). -/
def frame (op tag len addr : Nat) (payload : Bytes) : Bytes :=
  let b := toLe 1 op ++ toLe 1 tag ++ toLe 2 len ++ toLe 4 addr ++ payload
  b ++ toLe 2 (crc16 b)
/-- A command descriptor with a payload (R378). -/
def desc (op : Nat) (payload : Bytes) : Bytes := toLe 2 op ++ toLe 2 payload.length ++ List.replicate 20 0 ++ payload
/-- Locked tables that open the first 128 bytes of the attic of cluster 0 to the host for reading and writing. -/
def sHost : State :=
  { State.reset with acc := { locked := true, entries := [(480, [{ start := 0, len := 2, r := true, w := true }])] } }
/-- The status and data of the response held. -/
def answers (status : Nat) (data : Bytes) (t : State) : Bool :=
  match t.host.resp with
  | some r => leAt r.bytes 4 2 == status && r.bytes.drop 8 == data ++ toLe 2 (crc16 (r.bytes.take (8 + data.length)))
  | none => false

theorem wit_frames_checked :
    portAlive { sHost with mast := { down := true } } = false ∧
    stays (.read (frame 1 0 4 0x02000000 [])) { sHost with mast := { down := true } } = true ∧
    frameCheck 4106 [1, 2, 3] = 2 ∧ frameCheck 4106 (frame 5 9 0 0 []) = 4 ∧
    frameCheck 4106 (frame 1 9 3 0x02000000 []) = 3 ∧ frameCheck 4106 (frame 1 9 4 0 [1]) = 2 ∧
    frameCheck 4106 ((frame 1 9 4 0 []).set 4 7) = 5 ∧
    after (.read ((frame 1 9 4 0 []).set 4 7)) sHost (fun t => fget t .HST_FRAME_ERR_crc_errors == 1 && answers 5 [] t) = true ∧
    after (.cplRead (frame 0x11 9 4 4 [])) sHost (fun t => fget t .HST_FRAME_ERR_format_errors == 1 && answers 3 [] t) = true ∧
    after (.evtRead [1, 2, 3]) sHost (fun t => answers 2 [] t) = true := by decide +kernel

theorem wit_read_taken : FrameTaken (frame 1 9 8 0x02000000 []) sHost 1 :=
  ⟨by decide +kernel, by decide +kernel, by decide +kernel⟩
theorem wit_write_taken : FrameTaken (frame 2 9 4 0x02000000 [1, 2, 3, 4]) sHost 2 :=
  ⟨by decide +kernel, by decide +kernel, by decide +kernel⟩
theorem wit_posted_taken : FrameTaken (frame 3 9 4 0x02000080 [1, 2, 3, 4]) sHost 3 :=
  ⟨by decide +kernel, by decide +kernel, by decide +kernel⟩
theorem wit_read_write :
    permitted sHost 0 0x02000000 8 false = true ∧ permitted sHost 0 0x02000080 4 true = false ∧
    after (.write (frame 2 9 4 0x0200007C [1, 2, 3, 4])) sHost (fun t => answers 0 [] t &&
      t.mem == [(0x0200007C, 1), (0x0200007D, 2), (0x0200007E, 3), (0x0200007F, 4)]) = true ∧
    after (.read (frame 1 9 8 0x02000078 [])) { sHost with mem := [(0x0200007C, 5)] } (answers 0 [0, 0, 0, 0, 5, 0, 0, 0]) =
      true ∧
    after (.read (frame 1 9 4 0x02000080 [])) sHost (answers 1 (zeros 4)) = true ∧
    after (.write (frame 2 9 4 0x02000080 [1, 2, 3, 4])) sHost (fun t => answers 1 [] t && t.mem == []) = true ∧
    after (.writePosted (frame 3 9 4 0x02000000 [1, 2, 3, 4])) sHost (fun t => t.host.resp == none && t.mem.length == 4) = true ∧
    after (.writePosted (frame 3 9 4 0x02000080 [1, 2, 3, 4])) { sHost with host := { resp := some {} } } (fun t =>
      fget t .HST_POSTED_status == 1 && t.host.resp == none && fget t .HST_RESP_lost_responses == 1) = true ∧
    Memory.wf sHost.mem = true ∧ laneHole 0x02000000 = false ∧ laneHole 0x0808FFFF = false := by decide +kernel

/-- 255 commands queued, or 256. -/
def queued (n : Nat) : State := { sHost with host := { cmds := List.replicate n { desc := desc 0x26 [0, 0, 0, 0] } } }
theorem wit_queue_taken :
    FrameTaken (frame 0x10 9 28 0 (desc 0x26 [0, 0, 0, 0])) (queued 256) 0x10 ∧
    FrameTaken (frame 0x11 9 16 0 []) sHost 0x11 ∧ FrameTaken (frame 0x12 9 16 0 []) sHost 0x12 :=
  ⟨⟨by decide +kernel, by decide +kernel, by decide +kernel⟩, ⟨by decide +kernel, by decide +kernel, by decide +kernel⟩,
    ⟨by decide +kernel, by decide +kernel, by decide +kernel⟩⟩
theorem wit_queue_frames :
    after (.cmdSubmit (frame 0x10 9 28 0 (desc 0x26 [0, 0, 0, 0]))) (queued 256) (answers 6 []) = true ∧
    after (.cmdSubmit (frame 0x10 9 28 0 (desc 0x26 [0, 0, 0, 0]))) (queued 255)
      (fun t => answers 0 [0, 0, 0, 0] t && t.host.nextSeq == 1 && t.host.cmds.length == 256) = true ∧
    after (.cplRead (frame 0x11 9 16 0 [])) { sHost with host := { cpls := [List.replicate 16 1, [2]] } }
      (answers 0 (List.replicate 16 1)) = true ∧
    after (.cplRead (frame 0x11 9 15 0 [])) { sHost with host := { cpls := [List.replicate 16 1] } } (answers 2 []) = true ∧
    after (.evtRead (frame 0x12 9 16 0 [])) sHost (answers 0 []) = true := by decide +kernel
/-- A response of 10 bytes held, with one completion record in it. -/
def sHeld : State := { sHost with host := { resp := some { bytes := List.replicate 10 0, kind := 1, take := 1 }, cpls := [[1]] } }
theorem wit_response :
    after (.responseRead 10) sHost (fun t => fget t .HST_RESP_not_ready == 1) = true ∧
    after (.responseRead 9) sHeld (fun t => t.host.resp == sHeld.host.resp && t.host.got == zeros 9) = true ∧
    after (.responseRead 11) sHeld (fun t => t.host.resp == none && t.host.cpls == [] && t.host.got == zeros 10 ++ [0xFF]) =
      true := by decide +kernel

/-- The target with a dynamic address. -/
def sBus : State := { sHost with host := { dyn := some 9 } }
theorem wit_common_commands :
    inReset sBus = false ∧
    after (.setmwl { direct := true, bytes := 10 }) sBus (fun t => t.host.mwl == 10) = true ∧
    after (.setmwl { direct := true, bytes := 9 }) sBus (fun t => t.host.mwl == 4106) = true ∧
    after (.setmrl { direct := false, bytes := 64 }) sHost (fun t => t.host.mrl == 64) = true ∧
    stays (.setmrl { direct := true, bytes := 64 }) sHost = true ∧
    after (.setdasa 0x5C 0x20) sHost (fun t => t.host.dyn == some 0x20) = true ∧
    after (.disec true 1) sBus (fun t => t.host.enint == false) = true ∧
    after (.disec true 2) sBus (fun t => t.host.enint == true) = true ∧
    stays (.entdaa 0x20 true) { sHost with mast := { down := true } } = true ∧
    after .getbcr sBus (fun t => t.host.ccc == [0x26]) = true ∧
    after .getmwl sBus (fun t => t.host.ccc == [0x10, 0x0A]) = true ∧ stays .getbcr sHost = true := by decide +kernel
/-- Event 9 waits to be posted, with `n` records in the host event queue and `lost` events lost. -/
def sEvent (n lost : Nat) : State :=
  { sHost with ev := { pend := [{ src := 9 }], lost := lost }, host := { evq := List.replicate n [] } }
theorem wit_events :
    maskedSource (sEvent 0 0) 9 = false ∧
    after .eventPost (sEvent 1023 0) (fun t => t.host.evq.length == 1024 && t.ev.pend == [] && t.ev.seq == 1) = true ∧
    after .eventPost (sEvent 1024 0) (fun t => t.host.evq.length == 1024 && fget t .HST_EVQ_overflow == 1) = true ∧
    after .eventPost { sEvent 0 0 with regs := [(RegId.addr .ERR_MASK 0, 512)] } (fun t => t.host.evq == []) = true ∧
    after .eventPost (sEvent 0 3) (fun t => t.ev.lost == 0 && t.ev.pend.map (fun e => e.src) == [7]) = true ∧
    after (.busAvailable true) { sBus with host := { dyn := some 9, ibi := [2, 4] } }
      (fun t => t.host.ibi == [4] && t.host.ibiSent == some 2) = true ∧
    stays (.busAvailable false) { sBus with host := { dyn := some 9, ibi := [2, 4] } } = true := by decide +kernel

/-! ### Commands of the command queue -/

/-- A TDM key (highway 0, slot `slot`) and an RTP key (TRK0, untagged, IPv4). -/
def keyTdm (slot : Byte) : Bytes := [1, 0, slot, 0] ++ zeros 60
def keyRtp : Bytes := [2, 0, 0xFF, 0xFF, 10, 0, 0, 1, 10, 0, 0, 2, 0x40, 0, 0x40, 2] ++ zeros 48
/-- A running device with every cluster rigged and two parked entries, 4 and 5. -/
def sRun : State :=
  { State.reset with
    mast := { fw := true }, boot := { stage := .running }
    rig := { running := true, rigged := 255 }
    lanes := [(0, { st := .idle }), (1, { st := .idle })]
    sess := [(4, { key := keyTdm 0 }), (5, { key := keyRtp })] }
/-- The same with channel 7 of the two entries on lane 0, live. -/
def sLive : State :=
  { sRun with
    sess := [(4, { key := keyTdm 0, st := .active, partner := some 5, chan := some 7 }),
             (5, { key := keyRtp, st := .active, partner := some 4, chan := some 7 })]
    chans := [(7, { acc := 4, oth := 5, lane := 0, cost := 16, live := true })] }
/-- A state with one command queued. -/
def sCmd (op : Nat) (p : Bytes) (s : State) : State := { s with host := { cmds := [{ seq := 3, desc := desc op p }] } }
theorem commandNext (op : Nat) (p : Bytes) (s : State) (fw : s.mast.fw = true) (up : s.mast.down = false)
    (h : cmdOp (desc op p) = op) : CommandNext op { seq := 3, desc := desc op p } [] (sCmd op p s) :=
  ⟨fw, up, rfl, ⟨rfl, rfl⟩, h, by simp⟩
/-- The command queue is empty and its last completion has a status. -/
def done (status : Nat) (t : State) : Bool :=
  t.host.cmds == [] && (t.host.cpls.map (fun r => leAt r 8 2)) == [status]
/-- The command has been taken and waits. -/
def taken (t : State) : Bool := t.host.cpls == [] && t.host.cmds.map (fun c => c.taken) == [true]

/-- The commands used below stand at the head of a queue of a device that runs, and are in form. -/
theorem wit_commands_next :
    (∀ x ∈ [(0x20, keyTdm 1 ++ zeros 4), (0x21, toLe 4 4), (0x22, toLe 4 4 ++ toLe 4 5 ++ [0xFF, 0xFF, 1, 0, 0, 0, 0, 0]),
        (0x23, toLe 4 4 ++ zeros 68), (0x24, toLe 4 4), (0x25, toLe 4 4 ++ [1]), (0x26, toLe 4 4), (0x27, toLe 4 4),
        (0x30, toLe 4 4 ++ [0x80, 2, 64, 0]), (0x40, []), (0x41, [1, 0, 0, 0]), (0x42, []), (0x43, []), (0x50, []),
        (0x51, zeros 384), (0x52, []), (0x53, []), (0x54, [])],
      cmdForm (desc x.1 x.2) = true ∧ CommandNext x.1 { seq := 3, desc := desc x.1 x.2 } [] (sCmd x.1 x.2 sRun)) := by
  intro x hx
  refine ⟨?_, commandNext x.1 x.2 sRun rfl rfl ?_⟩ <;> revert x <;> decide +kernel

/-- The queue of commands: none to take, or one of another opcode, or no firmware. -/
theorem wit_order :
    stays .chanPark sRun = true ∧ stays .chanPark (sCmd 0x26 (toLe 4 4) sRun) = true ∧
    stays .chanQuery (sCmd 0x26 (toLe 4 4) { sRun with mast := { fw := false } }) = true ∧
    stays .chanQuery (sCmd 0x26 (toLe 4 4) { sRun with mast := { fw := true, down := true } }) = true := by decide +kernel

/-- Commands that a standby and a listening device refuse, at their greatest parameter count among them. -/
def standby (r : Role) (s : State) : State := { s with pair := { role := r } }
theorem wit_standby :
    after .sessionInsert (sCmd 0x20 (keyTdm 1 ++ zeros 4) (standby .standby sRun)) (done 0x12) = true ∧
    after .sessionDelete (sCmd 0x21 (toLe 4 4) (standby .listening sRun)) (done 0x12) = true ∧
    after .chanAdmit (sCmd 0x22 (toLe 4 4 ++ toLe 4 5 ++ [0xFF, 0xFF, 1, 0, 0, 0, 0, 0]) (standby .standby sRun)) (done 0x12) =
      true ∧
    after .chanModify (sCmd 0x23 (toLe 4 4 ++ [24, 0, 0, 0] ++ zeros 256) (standby .standby sRun)) (done 0x12) = true ∧
    after .chanPark (sCmd 0x24 (toLe 4 4) (standby .standby sRun)) (done 0x12) = true ∧
    after .chanMigrate (sCmd 0x25 (toLe 4 4 ++ [127]) (standby .standby sRun)) (done 0x12) = true ∧
    after .chanClose (sCmd 0x27 (toLe 4 0xFFFFF) (standby .standby sRun)) (done 0x12) = true := by decide +kernel

theorem wit_sessions :
    keyOk sRun (keyTdm 1) = true ∧ findKey sRun (keyTdm 1) = none ∧ findKey sRun keyRtp = some 5 ∧
    paramForm [] 1 = true ∧ paramsOk (keyTdm 1) (mergeParams (keyTdm 1) [] []) [] = true ∧ refusesChannels sRun = false ∧
    after .sessionInsert (sCmd 0x20 (keyTdm 1 ++ zeros 4) sRun)
      (fun t => done 0 t && (tget? t.sess 0).map (fun e => e.key) == some (keyTdm 1)) = true ∧
    after .sessionInsert (sCmd 0x20 (keyRtp ++ zeros 4) sRun) (fun t => done 0x0C t && t.sess == sRun.sess) = true ∧
    targetOr { seq := 3, desc := desc 0x21 (toLe 4 4) } true (sCmd 0x21 (toLe 4 4) sRun) = .inr 4 ∧
    chanBusy (sCmd 0x21 (toLe 4 4) sRun) 4 = false ∧
    after .sessionDelete (sCmd 0x21 (toLe 4 4) sRun) (fun t => done 0 t && t.sess.length == 1) = true ∧
    after .sessionDelete (sCmd 0x21 (toLe 4 4) sLive) (fun t => done 0x0F t && t.sess.length == 2) = true := by decide +kernel
/-- A table of `n` copies of an entry stands for a full one. -/
def sMany (n : Nat) : State := { sRun with sess := List.replicate n (4, { key := keyTdm 0 }) }
theorem many_refuse (n : Nat) : (sMany n).sess.length = n ∧ (sMany n).mast.fw = true ∧ refusesChannels (sMany n) = false ∧
    findKey (sMany n) (keyTdm 1) = none := by
  have h : keyEq (keyTdm 0) (keyTdm 1) = false := by decide +kernel
  simp [sMany, sRun, findKey, refusesChannels, State.reset]
  exact fun _ => h
theorem wit_table_full : (sMany 1048576).sess.length = 1048576 ∧ findKey (sMany 1048576) (keyTdm 1) = none :=
  ⟨(many_refuse _).1, (many_refuse _).2.2.2⟩

/-- CHAN_ADMIT of entries 4 and 5 asking for a channel number, and clusters. -/
def admission (want : Nat) (mask : Byte) : Bytes := toLe 4 4 ++ toLe 4 5 ++ toLe 2 want ++ [mask, 0, 0, 0, 0, 0]
theorem wit_admission :
    (match checkAdmit sRun 4 5 [] with | .inr m => m.acc == 4 && m.oth == 5 && m.cost == 16 | .inl _ => false) = true ∧
    (tget? sRun.sess 5).isSome = true ∧ refusesChannels sRun = false ∧ chanBusy sRun 4 = false ∧ chanBusy sRun 5 = false ∧
    after .chanAdmit (sCmd 0x22 (admission 8191 0xFF) sRun) (fun t => taken t && t.mast.effects.length == 1) = true := by
  decide +kernel

/-- An admission of entries 4 and 5 that waits for its boundary. -/
def waiting (want : Nat) (s : State) : State :=
  { s with mast := { s.mast with effects := [.admission { acc := 4, oth := 5, want := want, mask := 1, seq := 3 }] } }
theorem wit_admission_boundary :
    place (withNextClocks sRun) (openClusters sRun 1) 16 none = some 0 ∧
    place (withNextClocks { sRun with rig := { running := true, rigged := 254 } }) 1 16 none = none ∧
    tget? (takeEffects [] (waiting 0xFFFF sRun)).chans 0 ≠ none ∧
    (sessAt (takeEffects [] (waiting 8191 sRun)) 5).chan = some 8191 ∧
    (sessAt (takeEffects [] (waiting 8191 sRun)) 4).st = .active ∧
    fget (takeEffects [] (waiting 7 { sRun with chans := sLive.chans })) .MST_ADMIT_FAILS_no_context = 1 ∧
    fget (takeEffects [] (waiting 0xFFFF { sRun with rig := { running := true, rigged := 254 } })) .MST_ADMIT_FAILS_no_context =
      1 := by decide +kernel

/-- A target handle resolves to its entry. -/
def aimed (op : Nat) (p : Bytes) (s : State) : Bool :=
  decide (targetOr { seq := 3, desc := desc op p } true (sCmd op p s) = .inr 4)
/-- The same with lane 1 full, as cluster 1's lanes are to channel 7. -/
def sFull : State := { sLive with chans := sLive.chans ++ [(8, { lane := 1, cost := 4000, live := true })] }
theorem wit_channel_commands :
    aimed 0x26 (toLe 4 4) sLive = true ∧ aimed 0x25 (toLe 4 4 ++ [1]) sLive = true ∧ aimed 0x24 (toLe 4 4) sRun = true ∧
    chanBusy sLive 4 = false ∧ activeChan sLive 4 = some 7 ∧ activeChan sRun 4 = none ∧
    after .chanQuery (sCmd 0x26 (toLe 4 4) sLive) (done 0) = true ∧
    after .chanPark (sCmd 0x24 (toLe 4 4) sRun) (done 0x0F) = true ∧
    after .chanMigrate (sCmd 0x25 (toLe 4 4 ++ [0xFF]) sRun) (done 0x0F) = true ∧
    after .chanClose (sCmd 0x27 (toLe 4 4) sRun) (fun t => done 0 t && t.sess.length == 1) = true ∧
    after .chanPark (sCmd 0x24 (toLe 4 4) sLive) (fun t => taken t && (chanAt t 7).park.isSome) = true ∧
    after .chanClose (sCmd 0x27 (toLe 4 4) sLive) (fun t => taken t && (chanAt t 7).park.any (fun p => p.close)) = true ∧
    after .chanMigrate (sCmd 0x25 (toLe 4 4 ++ [0]) sLive) (done 0) = true ∧
    after .chanMigrate (sCmd 0x25 (toLe 4 4 ++ [1]) sLive) (fun t => taken t && (chanAt t 7).move.any (fun m => m.target == 1)) =
      true ∧
    laneTakes sFull 1 16 = false ∧ after .chanMigrate (sCmd 0x25 (toLe 4 4 ++ [1]) sFull) (done 0x0A) = true := by decide +kernel

/-- CHAN_MODIFY with an action time in ns; 0x23 with the timed flag in byte 1. -/
def timed (ns : Nat) (p : Bytes) : Cmd :=
  { seq := 3, desc := [0x23, 1] ++ toLe 2 p.length ++ zeros 4 ++ toLe 6 0 ++ zeros 2 ++ toLe 4 ns ++ zeros 4 ++ p }
def sTimed (ns : Nat) : State := { sRun with host := { cmds := [timed ns (toLe 4 4 ++ zeros 68)] } }
theorem wit_modifies :
    (cmdTimed (timed 5 []).desc = true ∧ cmdTime (timed 5 []).desc = 5 ∧ cmdForm (timed 5 []).desc = true) ∧
    after .chanModify (sTimed 0) (done 7) = true ∧
    after .chanModify (sTimed 1) (fun t => done 0 t && t.host.armed.map (fun a => (a.time, a.handle)) == [(1, some 4)]) = true ∧
    (match checkModify sRun 4 none [] with | .inr _ => true | .inl _ => false) = true ∧
    after .chanModify (sCmd 0x23 (toLe 4 4 ++ zeros 68) sRun) (fun t => taken t && t.mast.effects.length == 1) = true ∧
    (match checkModify sRun 4 none [(9, 0, 0)] with | .inl st => st == 3 | .inr _ => false) = true ∧
    after .chanModify (sCmd 0x23 (toLe 4 4 ++ [1, 0, 0, 0] ++ zeros 64 ++ [9, 0, 0, 0, 0, 0, 0, 0]) sRun) (done 3) = true ∧
    after .statsRead (sCmd 0x30 (toLe 4 4 ++ [0x80, 2, 64, 0]) sLive) (fun t => taken t && t.mast.reads == [(3, 4, 0x280, 64)]) =
      true ∧
    after .statsRead (sCmd 0x30 (toLe 4 4 ++ [0x80, 2, 1, 0]) sRun) (done 0x0D) = true := by decide +kernel

/-- An active device of a pair, protected or not, and a device of another role. -/
def paired (r : Role) (sync : Nat) : State := { sRun with pair := { role := r, sync := sync } }
theorem wit_pair_commands :
    after .pairSwitch (sCmd 0x40 [] (paired .unpaired 0)) (done 0x0F) = true ∧
    after .pairSwitch (sCmd 0x40 [] (paired .standby 2)) (done 0x12) = true ∧
    after .pairSwitch (sCmd 0x40 [] (paired .active 1)) (done 0x0F) = true ∧
    after .pairSwitch (sCmd 0x40 [] (paired .active 2)) (fun t => taken t && t.pair.yielding) = true ∧
    after .pairHold (sCmd 0x41 [1, 0, 0, 0] sRun) (fun t => done 0 t && t.pair.held) = true ∧
    after .pairHold (sCmd 0x41 [2, 0, 0, 0] sRun) (done 3) = true ∧
    after .pairResync (sCmd 0x42 [] (paired .active 2)) (fun t => done 0 t && t.pair.sync == 0) = true ∧
    after .pairResync (sCmd 0x42 [] (paired .standby 2)) (done 0x12) = true ∧
    after .pairQuery (sCmd 0x43 [] (paired .standby 2)) (done 0) = true := by decide +kernel

/-- A record of age data with its CRC (R453), for a device that names no identity. -/
def record : Bytes :=
  let b := [0x41, 0x47, 0x45, 0x52] ++ toLe 2 1 ++ toLe 2 384 ++ zeros 8 ++ toLe 4 100 ++ toLe 4 0x42C80000 ++ zeros 356
  b ++ toLe 4 (crc32 b)
def withAge (a : Age) : State := { sRun with age := a }
theorem wit_age_commands :
    after .planRun (sCmd 0x50 [] (withAge { run := some {} })) (done 9) = true ∧
    after .planRun (sCmd 0x50 [] sRun) (fun t => taken t && t.age.run.isSome) = true ∧
    after .planRecordSet (sCmd 0x51 record (withAge { run := some {} })) (done 9) = true ∧
    ageRecordBad sRun record = false ∧ ageRecordBad sRun (record.set 16 101) = true ∧
    after .planRecordSet (sCmd 0x51 (record.set 16 101) sRun) (done 3) = true ∧
    after .planRecordSet (sCmd 0x51 record sRun) (fun t => done 0 t && t.age.hoursBase == 100 && t.age.he == 0x42C80000) = true ∧
    after .reefEnter (sCmd 0x52 [] (withAge { reefed := true })) (done 0x0F) = true ∧
    after .reefEnter (sCmd 0x52 [] sRun) (fun t => taken t && t.age.ask == 16) = true ∧
    after .reefExit (sCmd 0x53 [] sRun) (done 0x0F) = true ∧
    after .reefExit (sCmd 0x53 [] (withAge { reefed := true })) (fun t => taken t && t.age.run.any (fun r => r.exit_ == some 3)) =
      true ∧
    after .wakeOnly (sCmd 0x54 [] { sRun with regs := [(RegId.addr .SVC_CTRL, 0)] }) (done 0x0F) = true ∧
    fbit { sRun with regs := [(RegId.addr .SVC_CTRL, 0xFFFFFFFF), (RegId.addr .SVC_WAKE, 0xFFFFFFFF)] } .SVC_CTRL_enable = true ∧
    after .wakeOnly (sCmd 0x54 [] { sRun with
      regs := [(RegId.addr .SVC_CTRL, 0xFFFFFFFF), (RegId.addr .SVC_WAKE, 0xFFFFFFFF)] }) (fun t => taken t &&
      t.age.wakeAsk == some 1) = true := by decide +kernel

/-! ### Registers -/

/-- A register holds a word. -/
def reg (s : State) (r : RegId) (w : Word) (i : Nat := 0) (j : Nat := 0) : State := setWord (r.addr i j) w.toNat s
/-- A running device in its boot rules, which let the host write every register. -/
def host : Fin 16 := 0

theorem wit_writes_checked :
    stays (.registerWrite 0 0x60040 1) { sRun with sysLost := true } = true ∧
    permitted sRun 2 (RegId.addr .ERR_MASK) 4 true = false ∧
    after (.registerWrite 2 0x60040 1) sRun (fun t => fget t .ACC_DENY_COUNT_denials == 1 && fget t .ERR_MASK_mask == 0) = true ∧
    permitted sRun 0 0x60041 4 true = true ∧ regAt 0x60FFC = none ∧
    stays (.registerWrite 0 0x60041 1) sRun = true := by decide +kernel
theorem wit_field_types : regAt 0x60040 = some (.ERR_MASK, 0, 0) ∧ inReset sRun = false ∧
    permitted sRun 0 0x60040 4 true = true ∧ unriggedWindow sRun 0x60040 = false ∧ ignoredWrite sRun .ERR_MASK = false ∧
    wholeRefusal sRun .ERR_MASK 0 0x60040 0xFFFFFFFF = none ∧
    after (.registerWrite 0 0x60040 0xFFFFFFFF) sRun (fun t => fget t .ERR_MASK_mask == 0xFFFFFFFF) = true := by decide +kernel
theorem wit_field_rest (old : Nat) (u : State) : afterWrite .ERR_MASK 0 old 0xFFFFFFFF u = u := rfl

/-- Tick 2^33 + 5. -/
def sTick : State := { sRun with time := { tick := 0x200000005 } }
theorem wit_tick_halves :
    permitted sTick 3 (RegId.addr .MST_TICK_LO) 4 false = false ∧ permitted sTick 0 (RegId.addr .MST_TICK_LO) 4 false = true ∧
    regValue sTick 0 (RegId.addr .MST_TICK_LO) = 5 ∧ regValue sTick 0 (RegId.addr .MST_TICK_HI) = 0 ∧
    after (.mstTickLoRead 0) sTick (fun t => regValue t 0 (RegId.addr .MST_TICK_HI) == 2 &&
      regValue t 1 (RegId.addr .MST_TICK_HI) == 0) = true ∧
    (hostRead 2 (RegId.addr .MST_TICK_LO) sTick).1 = [5, 0, 0, 0, 2, 0, 0, 0] := by decide +kernel

/-- A clock at counter 10^9, in a servo state. -/
def sServo (v : ServoState) (cause : Nat) : State := { sRun with time := { counter := 1000000000, srv := v, cause := cause } }
/-- The servo enabled on the host's samples, and LOCKED. -/
def sPush' (theta : Word) : State :=
  reg (reg { sServo .locked 0 with time := { (sServo .locked 0).time with srv := .locked } } .TIM_SERVO_CTRL 0xC0000000)
    .TIM_HOST_OFS_NS theta
theorem wit_time_commands :
    permitted sRun 0 (RegId.addr .TIM_RATE) 4 true = true ∧ permitted sRun 0 (RegId.addr .TIM_SNAP) 4 true = true ∧
    permitted sRun 0 (RegId.addr .TIM_SERVO_CMD) 4 true = true ∧ permitted sRun 0 (RegId.addr .TIM_SERVO_CTRL) 4 true = true ∧
    permitted sRun 0 (RegId.addr .TIM_HOST_PUSH) 4 true = true ∧
    after (.timRateWrite 0 0x100) (sServo .idle 0) (fun t => t.time.r == 0x100 &&
      correctedTime t.time == correctedTime (sServo .idle 0).time) = true ∧
    stays (.timRateWrite 0 0x100) (sServo .freeRun 0) = true ∧
    after (.timeCapture 0 1) (sServo .idle 0) (fun t => regWord t (RegId.addr .TIM_SNAP_CNT_LO) == 1000000000 &&
      regWord t (RegId.addr .TIM_SNAP_SEC_LO) == 1) = true ∧
    after (.timeStep 0 2) (reg (sServo .idle 0) .TIM_STEP_SEC 0xFFFFFFFF) (fun t => t.time.plain == 0 &&
      t.time.stepAt == some 1000000000 && correctedTime t.time == 0) = true ∧
    after (.timeAccept 0 1) { sServo .locked 0 with time := { (sServo .locked 0).time with pend := some 7 } } (fun t =>
      t.time.pend == none && t.time.plain == 0 && t.time.stepSum == -458752) = true ∧
    after (.timeAccept 0 1) (sServo .locked 0) (fun t => t.time.stepAt == none) = true ∧
    after (.servoHold 0 8) (sServo .idle 0) (fun t => t.time.srv == .idle) = true ∧
    after (.servoHold 0 8) (sServo .locked 0) (fun t => t.time.srv == .holdover && t.time.cause == 3) = true ∧
    after (.servoHold 0 8) (sServo .holdover 4) (fun t => t.time.cause == 4 && t.time.hold) = true ∧
    after (.servoResume 0 4) (sServo .holdover 3) (fun t => t.time.srv == .holdover && t.time.resumed) = true ∧
    after (.servoResume 0 4) (sServo .locked 0) (fun t => t.time.srv == .locked && !t.time.resumed) = true ∧
    after (.servoCtrlWrite 0 0) (sServo .locked 0) (fun t => t.time.srv == .idle) = true ∧
    after (.servoCtrlWrite 0 0x80000000) (sServo .idle 0) (fun t => t.time.srv == .freeRun) = true := by decide +kernel
theorem wit_host_push :
    servoOn (sPush' 0) 1 = true ∧ servoOn sRun 1 = false ∧
    after (.hostPush 0 1) sRun (fun t => t.time == sRun.time) = true ∧
    after (.hostPush 0 1) { sPush' 5 with time := { (sPush' 5).time with stepAt := some 1000000000 } } (fun t =>
      t.time.last == 0) = true ∧
    after (.hostPush 0 1) (reg (sPush' 101) .TIM_JUMP_THR 100) (fun t => t.time.pend == some 101 &&
      fget t .TIM_SERVO_COUNT_refused == 1) = true ∧
    after (.hostPush 0 1) (reg (sPush' 100) .TIM_JUMP_THR 100) (fun t => t.time.pend == none && t.time.last == 100 &&
      fget t .TIM_SERVO_COUNT_applied == 1 && correctedTime t.time == correctedTime (sPush' 0).time) = true := by decide +kernel

theorem wit_island_commands :
    permitted sRun 0 (RegId.addr .BND_PEER_CTRL 63) 4 true = true ∧ templateOk sRun 63 = false ∧
    after (.peerEnable 0 63 0x80000000) sRun (fun t => t.peers == [] && fget t .BND_PEER_CTRL_enable 63 == 0) = true ∧
    after (.dicCmdTurn 0 0x7F) { sRun with peers := [(63, { on := true })] } (fun t => (peerAt t 63).turnCause == 16) = true ∧
    after (.dicCmdTurn 0 0x3F) { sRun with peers := [(63, { on := true })] } (fun t => (peerAt t 63).turnCause == 0) = true ∧
    after (.portRestart 0 1 0x80000000) { sRun with ports := [(1, { link := true })] } (fun t => !(portAt t 1).link) = true ∧
    after (.portRestart 0 1 (BitVec.ofNat 32 (regWord sRun (RegId.addr .TMC_CTRL 1)))) { sRun with ports := [(1, { link := true })] }
      (fun t => (portAt t 1).link) = true ∧
    after (.gateApply 0 1 0x40000000) (reg sRun .TMC_GATE_BASE_SEC_LO 5 1) (fun t =>
      (portAt t 1).pending.map (fun l => l.base) == some 5000000000) = true ∧
    after (.gateApply 0 1 0) sRun (fun t => t.ports == []) = true ∧
    after (.mdioStart 0 0x90460000) sRun (fun t => t.svc.mdio && t.svc.mdioOut == some ⟨0x3FFFFFFFD823, none⟩) = true ∧
    stays (.mdioStart 0 0x80000000) { sRun with svc := { mdio := true } } = true ∧
    after (.islClkRequest 0 0 (0x80000000 + 1400)) sRun (fun t => clockState t 0 == 1 && (islandAt t 0).asked == 1400) = true ∧
    after (.islClkRequest 0 9 (0x80000000 + 625)) sRun (fun t => clockState t 9 == 0 && fget t .ISL_CLK_REQ_go 9 == 0) = true := by
  decide +kernel
theorem wit_tdm_commands :
    permitted sRun 0 (RegId.addr .TDM_GRP_CTRL 3) 4 true = true ∧ permitted sRun 0 (RegId.addr .TDM_SWAP_CTRL) 4 true = true ∧
    strands { reg sRun .TDM_GRP_CTRL 0xA0000000 with sess := [(4, { key := keyTdm 32 })] } 0 0 = true ∧
    after (.tdmGroupCtrlWrite 0 0 0x80000000) { reg sRun .TDM_GRP_CTRL 0xA0000000 with sess := [(4, { key := keyTdm 32 })] }
      (fun t => regWord t (RegId.addr .TDM_GRP_CTRL) == 0xA0000000) = true ∧
    after (.tdmGroupCtrlWrite 0 3 0x80000000) sRun (fun t => (groupAt t 3).st == .qualifying) = true ∧
    after (.tdmGroupCtrlWrite 0 3 0) { sRun with tdm := { groups := [(3, { st := .locked })] } }
      (fun t => (groupAt t 3).st == .disabled) = true ∧
    after (.tdmGroupCtrlWrite 0 3 0x80000000) { reg sRun .TDM_GRP_CTRL 0x80000000 3 with
      tdm := { groups := [(3, { st := .locked })] } } (fun t => (groupAt t 3).st == .locked) = true := by decide +kernel
theorem wit_map_swap :
    shadowOk (reg sRun .TDM_MAP_SHADOW 0x80000020) = false ∧
    after (.mapSwapArm 0 0xA0000000) (reg sRun .TDM_MAP_SHADOW 0x80000020) (fun t => fget t .TDM_SWAP_CTRL_result == 4) = true ∧
    swapTime (reg sRun .TDM_SWAP_NS 1) = 1 ∧ nowNs (reg sRun .TDM_SWAP_NS 1) = 0 ∧ swapTime sRun = 0 ∧
    after (.mapSwapCancel 0 0x40000000) { sRun with tdm := { swap := some ⟨true, 0, 0⟩ } } (fun t => t.tdm.swap == none &&
      fget t .TDM_SWAP_CTRL_result == 5) = true ∧
    after (.mapSwapCancel 0 0x40000000) sRun (fun t => t.tdm.swap == none) = true := by decide +kernel
theorem wit_shadow_ok : shadowOk sRun = true ∧ shadowOk (reg sRun .TDM_SWAP_NS 1) = true := by
  refine ⟨shadowOk_of_unlisted fun _ _ => rfl, shadowOk_of_unlisted fun l _ => ?_⟩
  have h : (reg sRun .TDM_SWAP_NS 1).regs = [(0x260204, 1)] := by decide +kernel
  rw [h, shadow_addr]
  simp [tget?]
  omega
/-- The loader in a state of a boot load, or of a running device. -/
def sLoad (st : LoaderState) : State := { State.reset with boot := { stage := .load }, rig := { st := st } }
def sIdle (st : LoaderState) : State := { sRun with rig := { st := st, running := true, rigged := 255, rollback := 3, slot := 0 } }
theorem wit_loader_commands :
    permitted (sLoad .waitHost) 0 (RegId.addr .RIG_CTRL) 4 true = true ∧ permitted sRun 0 (RegId.addr .RIG_DATA) 4 true = true ∧
    after (.rigStart 0 0x80000000) (sLoad .waitHost) (fun t => t.rig.st == .receiving && t.rig.rerig == none) = true ∧
    after (.rigStart 0 0x82000007) (sIdle .idle) (fun t => t.rig.st == .receiving && t.rig.rerig == some 7 && t.rig.src == 1) =
      true ∧
    after (.rigStart 0 0x80000000) { sIdle .idle with chans := sLive.chans } (fun t => t.rig.st == .failed && t.rig.code == 0x13) =
      true ∧
    after (.rigStart 0 0x82000007) (sIdle .failed) (fun t => t.rig.st == .failed && t.rig.rerig == none) = true ∧
    loadUnderCheck (sIdle .checking) = true ∧ loadUnderCheck (sIdle .idle) = false ∧
    after (.rigAbort 0 0x40000000) (sIdle .checking) (fun t => t.rig.code == 0x14 && fget t .RIG_COUNT_failures == 1) = true ∧
    after (.rigAbort 0 0x40000000) (sIdle .idle) (fun t => t.rig.st == .idle) = true ∧
    after (.rigRollbackCommit 0 0x20000000) (sIdle .idle) (fun t => t.boot.fuses.rollback == 3) = true ∧
    after (.rigRollbackCommit 0 0x20000000) (sIdle .failed) (fun t => t.boot.fuses.rollback == 0) = true ∧
    stays (.rigData 0 [1, 2, 3, 4]) (sIdle .idle) = true ∧
    after (.rigData 0 [1, 2, 3, 4]) (sLoad .receiving) (fun t => t.rig.image == [1, 2, 3, 4] && t.rig.bytes == 4) = true := by
  decide +kernel
/-- A digest for BOOT_OWNER_DIGEST whose lowest bit is 1. -/
def sDigest (f : Fuses) : State := reg { sLoad .waitHost with boot := { stage := .load, fuses := f } } .BOOT_OWNER_DIGEST 1
theorem wit_fuse_commands :
    permitted sRun 0 (RegId.addr .BOOT_CTRL) 4 true = true ∧ permitted sRun 0 (RegId.addr .BOOT_ATT_CTRL) 4 true = true ∧
    keepsBlown (ownerDigest (sDigest {})) [] = true ∧ allZero (ownerDigest (sDigest {})) = false ∧
    after (.ownerEnrol 0 0x80000000) (sDigest {}) (fun t => t.boot.fuses.enrolled && t.boot.result == 1) = true ∧
    after (.ownerEnrol 0 0x80000000) (sDigest { enrolled := true }) (fun t => t.boot.result == 2) = true ∧
    after (.keyRevoke 0 0x40000000) (sIdle .idle) (fun t => t.boot.result == 2) = true ∧
    after (.keyRevoke 0 0x40000004) (sIdle .idle) (fun t => t.boot.result == 2) = true ∧
    after (.keyRevoke 0 0x40000003) (sIdle .idle) (fun t => t.boot.result == 1 && t.boot.fuses.rootRevoked == 8) = true ∧
    after (.keyRevoke 0 0x40000004) { sIdle .idle with boot := { stage := .running, fuses := { enrolled := true } } }
      (fun t => t.boot.fuses.ownerRevoked) = true ∧
    after (.lockDebug 0 0x60000000) sRun (fun t => t.boot.result == 2 && !t.boot.fuses.debugLocked) = true ∧
    after (.lockDebug 0 0x20000000) sRun (fun t => t.boot.fuses.debugLocked) = true ∧
    after (.attestRequest 0 0x80000000) { sRun with boot := { stage := .running, busy := true } } (fun t => t.boot.busy) = true ∧
    after (.attestRequest 0 0x80000000) sRun (fun t => t.boot.attResult == 2) = true := by decide +kernel
theorem wit_attest : ∃ t, exec (.attestRequest 0 0x80000000) { sRun with boot := { stage := .running, idOk := true } } = .next t ∧
    t.boot.busy = true ∧ t.boot.latch.take 4 = [0x41, 0x54, 0x54, 0x52] := ⟨_, rfl, by decide +kernel⟩
theorem wit_lane_restart :
    permitted sRun 0 (RegId.addr .LAN_CTRL 3) 4 true = true ∧
    after (.laneRestart 0 3 1) { sRun with mem := [(0x08300001, 5), (0x08380000, 6)]
                                           lanes := [(3, { lane with st := .faulted, word := none })] }
      (fun t => (laneAt t 3).st == .idle && t.mem == [(0x08380000, 6)]) = true ∧
    stays (.laneRestart 0 3 1) { sRun with lanes := [(3, { lane with word := none })] } = true := by decide +kernel

/-! ### Channels -/

/-- Channel 7 with a changed canceller, or with parameters of its access entry. -/
def sEc (e : Ec) (ps : List (Nat × Word) := []) : State :=
  { sLive with
    chans := [(7, { acc := 4, oth := 5, lane := 0, cost := 16, live := true, ec := e })]
    sess := [(4, { key := keyTdm 0, st := .active, partner := some 5, chan := some 7, params := ps }),
             (5, { key := keyRtp, st := .active, partner := some 4, chan := some 7 })] }
def cand (age rho : Nat) : Candidate := { lag := 100, age := age, rho := rho }
theorem wit_canceller :
    ecMoves (sEc {}) 7 = true ∧ ecMoves (sEc { toneDisabled := true }) 7 = false ∧
    chanParam (sEc {}) 7 0x020E = 32 ∧ chanParam (sEc {}) 7 0x020F = 2000 ∧
    chanParam (sEc {} [(0x0204, 0)]) 7 0x0204 = 0 ∧
    stays (.windowPlacement 7) (sEc { toneDisabled := true, cands := [cand 32 1] }) = true ∧
    stays (.windowPlacement 7) (sEc { cands := [cand 31 1] }) = true ∧
    after (.windowPlacement 7) (sEc { cands := [cand 32 1] } [(0x0204, 0)]) (fun t => (ecAt t 7).cands == [] &&
      statOf (chanAt t 7) 0x028B == 1 && (ecAt t 7).windows.map (fun w => (w.startMs, w.lenMs)) == [(98, 16)]) = true ∧
    stays (.windowPlacement 7) (sEc { cands := [cand 32 19], windows := [{ startMs := 0, lenMs := 64, units := 4, peak := 10 }] }) =
      true ∧
    after (.windowPlacement 7)
      (sEc { cands := [cand 32 9], windows := [{ startMs := 97, lenMs := 2, units := 100, peak := 4, taps := List.replicate 16 5 }] }
        [(0x0204, 0)])
      (fun t => (ecAt t 7).windows.map (fun w => (w.startMs, w.taps.take 9)) == [(98, List.replicate 8 5 ++ [0])]) = true ∧
    after (.windowRelease 7) (sEc { windows := [{ weak := 1999 }, { startMs := 50, weak := 2000 }] }) (fun t =>
      (ecAt t 7).windows == [{ weak := 1999 }]) = true ∧
    after (.dtdHangoverEnd 7) (sEc { dtNow := true }) (fun t => !(ecAt t 7).dtNow) = true ∧
    stays (.dtdHangoverEnd 7) (sEc { hangover := 1, dtNow := true }) = true ∧
    stays (.divergenceReset 7) (sEc { diverge := 63 }) = true ∧
    after (.divergenceReset 7) (sEc { diverge := 64, windows := [{ lenMs := 2, taps := [5, 6] }] }) (fun t => (ecAt t 7).diverge == 0 &&
      (ecAt t 7).windows == [{ lenMs := 2, taps := [0, 0] }] && statOf (chanAt t 7) 0x028E == 1) = true ∧
    stays (.toneDisableEnter 7) (sEc {}) = true ∧
    after (.toneDisableEnter 7) (sEc { toneSeen := some (true, true) }) (fun t => (ecAt t 7).toneDisabled &&
      statOf (chanAt t 7) 0x028C == 1) = true ∧
    after (.toneDisableEnter 7) (sEc { toneSeen := some (true, true), toneDisabled := true }) (fun t => (ecAt t 7).toneSeen == none &&
      statOf (chanAt t 7) 0x028C == 0) = true ∧
    after (.toneDisableExit 7) (sEc { toneDisabled := true, quiet := 250 }) (fun t => !(ecAt t 7).toneDisabled) = true ∧
    stays (.toneDisableExit 7) (sEc { toneDisabled := true, quiet := 249 }) = true := by decide +kernel

/-- Channel 7 with legs of its own at tick `n`. -/
def sLegs (n : BitVec 64) (a b : Leg) : State :=
  { sLive with
    time := { tick := n }
    chans := [(7, { acc := 4, oth := 5, lane := 0, cost := 16, live := true, legA := a, legB := b })] }
/-- A leg that has committed the whole of an event it received. -/
def heard : Leg := { evRx := some { pos := 9, ended := true }, room := { running := true, kPos := 100 } }
theorem wit_channel_rows :
    workTick (sLegs 100 {} {}) = 100 ∧
    after (.muteLift 7 false) (sLegs 100 { mute := some 60 } {}) (fun t => (legAt t 7 0).mute == none &&
      statOf (chanAt t 7) 0x03A6 == 1) = true ∧
    stays (.muteLift 7 false) (sLegs 100 { mute := some 61 } {}) = true ∧
    stays (.muteLift 7 false) (sLegs 100 { mute := some 60 } { detTone := 0x10 }) = true ∧
    stays (.muteLift 7 true) (sLegs 100 {} {}) = true ∧
    eventOver (sLegs 100 {} heard) 7 1 { pos := 9, ended := true } = true ∧
    after (.eventGenerationEnd 7 false) (sLegs 100 { gen := some { event := some 9 } } heard)
      (fun t => (legAt t 7 0).gen == none && (legAt t 7 1).evRx == none) = true ∧
    stays (.eventGenerationEnd 7 false) (sLegs 100 { gen := some { event := some 8 } } heard) =
      true ∧
    after (.toneGenEnd 7 true) (sLegs 100 {} { gen := some { left := some 0 } }) (fun t => (legAt t 7 1).gen == none) = true ∧
    kindAt (sLegs 100 {} {}) 7 1 = 2 ∧ legParam (sLegs 100 {} {}) 7 1 0x0308 = 1 ∧
    stays (.rtcpReport 7 true) (sLegs 100 {} { rtcpAt := 101 }) = true ∧
    legParam (sLegs 100 {} {}) 7 1 0x0406 = 1000 ∧ workTick (sLegs 1099 {} {}) = 1099 ∧
    stays (.adaptWindowEnd 7 true) (sLegs 1098 {} { room := { running := true, winStart := 100, slacks := [3] } }) = true ∧
    after (.adaptWindowEnd 7 true) (sLegs 1099 {} { room := { running := true, winStart := 100 } }) (fun t =>
      (roomAt t 7 1).winStart == 1100 && (roomAt t 7 1).slacks == []) = true ∧
    legParam (sLegs 100 {} {}) 7 1 0x0401 = 1 ∧ legParam (sLegs 100 {} {}) 7 1 0x0403 = 10 ∧
    after (.adaptWindowEnd 7 true) (sLegs 1099 {} { room := { running := true, winStart := 100, d := 40, slacks :=
      [(legParam (sLegs 1099 {} {}) 7 1 0x0405 : Int)] } }) (fun t => (roomAt t 7 1).d == 40 && (roomAt t 7 1).target == 40) = true := by
  decide +kernel
theorem wit_rtcp : ∃ t, exec (.rtcpReport 7 true) (sLegs 100 {} { rtcpAt := 100 }) = .next t ∧ (legAt t 7 1).rtcpSent = false :=
  ⟨_, rfl, by decide +kernel⟩
/-- What a lane finds in a quiet channel's audio. -/
def quietLeg : LegSignal :=
  { tone := none, toneEnd := false, dtmfHeld := false, decFlags := 0, encFlags := 0 }
def quietEc : EcSignal :=
  { decNear := 0, decRef := 0, flags := 0, lost := [] }
def quietSignals : Signals := { ec := quietEc, a := quietLeg, b := quietLeg }
/-- Channel 7 in voiceband data, or with a move. -/
def sChan (c : Channel) : State :=
  { sLive with chans := [(7, { c with acc := 4, oth := 5, lane := 0, cost := 16, live := true })], time := { tick := 10 } }
theorem wit_channel_ends :
    chanParam (sChan {}) 7 0x0316 = 5000 ∧
    after (.vbdExit 7) (sChan { vbd := true, vbdQuiet := 5000 }) (fun t => !(chanAt t 7).vbd) = true ∧
    stays (.vbdExit 7) (sChan { vbd := true, vbdQuiet := 4999 }) = true ∧
    after (.migrateAbandoned 7) (sChan { move := some { target := 1, phase := 1, fails := 16 } }) (fun t =>
      (chanAt t 7).move == none && (chanAt t 7).lane == 0) = true ∧
    stays (.migrateAbandoned 7) (sChan { move := some { target := 1, phase := 1, fails := 15 } }) = true ∧
    (laneAt (sChan {}) (chanAt (sChan {}) 7).worker).st = .idle ∧ workTick (sChan {}) = 10 ∧ workReady (sChan {}) = true ∧
    stays (.channelTickWork 7 quietSignals) (sChan { worked := 10 }) = true ∧
    (tickWork 7 quietSignals (sChan {})).chans.map (fun c => c.2.worked) = [10] := by decide +kernel

/-! The canceller's arithmetic (R107, R109, R115 to R118), by hand and, for a rounded quotient, in single precision outside. -/

theorem test_filter_subtracts :
    let r := filterTick false 512 192 [([0x3F000000, 0, 0, 0, 0, 0, 0, 0], [16384, 0, 0, 0, 0, 0, 0, 0])] [16384]
    r.e = [0x3E800000] ∧ r.taps = [[0x3F000000, 0, 0, 0, 0, 0, 0, 0]] ∧ r.flags = 0 := by decide +kernel
theorem test_filter_adapts :
    let r := filterTick true 512 192 [(List.replicate 8 0, [16384, 0, 0, 0, 0, 0, 0, 0])] [16384]
    r.e = [0x3F000000] ∧ r.taps = [[0x3EFD67B7, 0, 0, 0, 0, 0, 0, 0]] ∧ r.flags = 0 := by decide +kernel
theorem test_double_talk : talks 6 8212 16384 = true ∧ talks 6 8211 16384 = false ∧ talks 0 (-5) 5 = false := by decide +kernel
theorem test_level : levelOf 0x3E787931 = 0 ∧ levelOf 0x3E787600 = -1 ∧ levelOf 0 = -1000 := by decide +kernel
theorem test_crossing : crossed [8, 8, 8, 8, 8, 8, 8, 8] [0, 0, 0, 0, 0, 0, 0, 0] = [7, 6, 5, 4, 3, 2, 1, 0] := by decide +kernel
theorem test_finder : (Finder.after 3 64 64 { ref := [64, 32] }).corr = [0, 64 * 65536, 32 * 65536] := by decide +kernel
/-- A window 1 ms back over a steady reference: half of it is taken from the near end, which holds double talk. -/
theorem test_canceller_output :
    let w : Window := { startMs := 1, lenMs := 1, taps := [0x3F000000, 0, 0, 0, 0, 0, 0, 0] }
    let r := ecWork 7 quietEc { base := List.replicate 8 16384 } (sChan { ec := { windows := [w], ring := List.replicate 80 16384 } })
    r.2.base = List.replicate 8 8192 ∧ (ecAt r.1 7).state = .hold ∧ (ecAt r.1 7).hangover = 60 := by decide +kernel

/-! ### Bundles and ports -/

/-- A data bundle with no code word and no item (R195). -/
def bundle (type : Byte) (seq : Nat) : Bytes :=
  [type, 0, 0, 1] ++ toBe 4 seq ++ zeros 4 ++ toBe 4 (seq - 1) ++ zeros 8 ++ toBe 2 256 ++ zeros 6
/-- Peer 63 at tick 100. -/
def sPeer (p : Peer) : State := { sRun with time := { tick := 100 }, peers := [(63, p)] }
def peer : Peer := { on := true, up := true, synced := true, e := some 10, rxEpoch := some 0, passTick := 50 }
theorem wit_empty_bundle (seq : Nat) (h : seq = 10 ∨ seq = 12) : EmptyBundle (bundle 0x10 seq) peer := by
  rcases h with rfl | rfl <;>
    exact ⟨by decide +kernel, by decide +kernel, by decide +kernel, by decide +kernel, by decide +kernel, rfl⟩
theorem wit_bundles :
    stays (.intervalClose 63 none) (sPeer {}) = true ∧ stays (.bundleReceive 63 [1] none) (sPeer {}) = true ∧
    stays (.intervalClose 63 none) (sPeer { peer with closed := some 100 }) = true ∧
    stays (.intervalClose 63 none) (sPeer { peer with interval := 7 }) = true ∧
    after (.intervalClose 63 none) (sPeer peer) (fun t => (peerAt t 63).seq == 1 && (peerAt t 63).closed == some 100 &&
      fget t .BND_PEER_COUNT_tx_bundles 63 == 1) = true ∧
    headerOk [0x10] = false ∧ headerOk (bundle 0x11 3) = true ∧
    after (.bundleReceive 63 [0x10] none) (sPeer peer) (fun t => fget t .BND_PEER_ERR_bad_bundles 63 == 1 &&
      (peerAt t 63).resync) = true ∧
    after (.bundleReceive 63 (bundle 0x11 3) none) (sPeer { peer with up := false }) (fun t => (peerAt t 63).up &&
      (peerAt t 63).passTick == 100) = true ∧
    after (.bundleReceive 63 (bundle 0x10 9) none) (sPeer peer) (fun t => fget t .BND_PEER_LOSS_late 63 == 1) = true ∧
    after (.bundleReceive 63 (bundle 0x10 17) none) (sPeer peer) (fun t => (peerAt t 63).held.map (fun h => h.seq) == [17] &&
      (peerAt t 63).e == some 10) = true ∧
    after (.bundleReceive 63 (bundle 0x10 10) none) (sPeer peer) (fun t => (peerAt t 63).e == some 11 &&
      fget t .BND_PEER_COUNT_rx_bundles 63 == 1) = true ∧
    stays (.reorderTimeout 63) (sPeer peer) = true ∧
    stays (.reorderTimeout 63) (sPeer { peer with held := [{ seq := 12, wait := 1, bytes := bundle 0x10 12 }] }) = true ∧
    fget (sPeer peer) .BND_PEER_CTRL_reorder_ms 63 = 2 ∧
    after (.reorderTimeout 63) (sPeer { peer with held := [{ seq := 12, wait := 2, bytes := bundle 0x10 12 }] })
      (fun t => (peerAt t 63).held == [] && (peerAt t 63).e == some 13 && fget t .BND_PEER_LOSS_lost 63 == 2) = true ∧
    after (.bndPeerDown 63) (sPeer { peer with passTick := 0 }) (fun t => !(peerAt t 63).up && (peerAt t 63).downed) = true ∧
    stays (.bndPeerDown 63) (sPeer { peer with passTick := 1 }) = true := by decide +kernel

/-- A frame that arrives without an error. -/
def good : Arrival := { error := false }
/-- An Ethernet frame of 64 bytes with its FCS, to a group address, of an EtherType. -/
def eth (type : Nat) (payload : Bytes) : Bytes :=
  let b := [1, 0, 0, 0, 0, 0] ++ [2, 0, 0, 0, 0, 1] ++ toBe 2 type ++ payload ++ zeros (46 - payload.length)
  b ++ toLe 4 (crc32 b)
/-- The reference FCS of "123456789" under IEEE 802.3. -/
theorem test_crc32 : crc32 [0x31, 0x32, 0x33, 0x34, 0x35, 0x36, 0x37, 0x38, 0x39] = 0xCBF43926 := by decide +kernel
/-- TRK1 with its link up, frames of one EtherType dropped and the others steered to queue 0 with 4 buffers of 256 bytes. -/
def sPort (p : Port) : State :=
  let s : State := { sRun with ports := [(1, p)] }
  reg (reg (reg (reg s .TMC_RXQ_CFG 0x40010004 1 0) .FLT_ENTRY_A 0xE0090000) .FLT_ENTRY_B 0x12348000) .TMC_CTRL 0x80000640 1
theorem wit_rx :
    fget (sPort {}) .TMC_CTRL_enable 1 = 1 ∧ fget (sPort {}) .TMC_CTRL_max_frame 1 = 1600 ∧
    after (.portLinkUp 1) (sPort {}) (fun t => (portAt t 1).link && fget t .TMC_STATUS_block_lock 1 == 1) = true ∧
    stays (.portLinkUp 1) (sPort { link := true }) = true ∧ stays (.portLinkUp 0) (sPort {}) = true ∧
    after (.portLinkDown ⟨1, .blockLock⟩) (sPort { link := true }) (fun t => !(portAt t 1).link &&
      fget t .TMC_STATUS_block_lock 1 == 0) = true ∧
    after (.portLinkDown ⟨1, .blockLock⟩) (sPort { link := true, sentEnd := 1 }) (fun t => fget t .TMC_TX_DROP_link_drops 1 == 1) =
      true ∧
    after (.portLinkDown ⟨1, .highBer⟩) (sPort { link := true }) (fun t => !(portAt t 1).link &&
      fget t .TMC_STATUS_hi_ber 1 == 1) = true ∧
    after (.portLinkDown ⟨1, .fecLock⟩) (sPort { link := true }) (fun t => fget t .TMC_STATUS_fec_lock 1 == 0) = true ∧
    stays (.frameReceive 1 (eth 0x88B5 []) good) (sPort {}) = true ∧
    otherAddress (sPort {}) 1 ([2, 0, 0, 0, 0, 9] ++ zeros 58) = true ∧
    after (.frameReceive 1 ([2, 0, 0, 0, 0, 9] ++ zeros 58) good) (sPort { link := true }) (fun t =>
      fget t .TMC_RX_ERR2_da_drops 1 == 1) = true ∧
    after (.frameReceive 1 ((eth 0x88B5 []).take 63) good) (sPort { link := true }) (fun t => fget t .TMC_RX_ERR1_runts 1 == 1) =
      true ∧
    badFcs (eth 0x88B5 []) = false ∧ badFcs ((eth 0x88B5 []).set 20 1) = true ∧
    after (.frameReceive 1 ((eth 0x88B5 []).set 20 1) good) (sPort { link := true }) (fun t =>
      fget t .TMC_RX_ERR1_fcs_errors 1 == 1) = true ∧
    after (.frameReceive 1 (eth 0x88B5 []) good) (sPort { link := true, used := [(0, 4)] }) (fun t =>
      fget t .TMC_RXQ_DROP_no_buffer 1 0 == 1) = true ∧
    after (.frameReceive 1 (eth 0x1234 (zeros 1600)) good) (sPort { link := true }) (fun t =>
      fget t .FLT_FILTER_DROP_filter_drops == 1) = true ∧
    after (.frameReceive 1 (eth 0x88B5 (zeros 1583)) ⟨true, 0⟩) (sPort { link := true, used := [] }) (fun t =>
      fget t .TMC_RXQ_DROP_no_buffer 1 0 == 1) = true ∧
    steer (sPort {}) 1 (eth 0x1234 []) = 9 ∧ steer (sPort {}) 1 (eth 0x88B5 []) = 0 ∧
    after (.frameReceive 1 (eth 0x1234 []) good) (sPort { link := true }) (fun t =>
      fget t .FLT_FILTER_DROP_filter_drops == 1) = true ∧
    after (.frameReceive 1 (eth 0x88B5 []) good) (sPort { link := true, used := [(0, 3)] }) (fun t =>
      (tget (portAt t 1).rx 0 []).map (fun f => f.bytes) == [(eth 0x88B5 []).take 60] && tget (portAt t 1).used 0 0 == 4) = true := by
  decide +kernel
/-- The service port enabled at 1 Gbit/s with a ring of 2 buffers of 256 bytes, and TRK1's queue 7 with one. -/
def rings : Bytes := zeros 16 ++ [2, 0, 0, 0, 2, 0, 1, 0] ++ zeros 8 ++ [1, 1, 7, 0, 1, 0, 1, 0] ++ zeros 8
def sSvc (x : Svc) : State :=
  reg { sRun with rig := { sRun.rig with spars := [{ type := 7, data := rings }] }, svc := x } .SVC_CTRL 0xC0000640
theorem wit_service_port :
    stays (.frameReceive 2 (eth 0x88B5 []) good) sRun = true ∧ ringOf (sSvc {}) 2 0 0 = (2, 256) ∧
    otherAddress (sSvc {}) 2 (eth 0x88B5 []) = false ∧ steer (sSvc {}) 2 (eth 0x88B5 []) = 0 ∧
    after (.frameReceive 2 (eth 0x88B5 []) good) (sSvc { used := 1 }) (fun t => t.svc.used == 2 && t.svc.rx.length == 1 &&
      fget t .SVC_FRAMES_rx_frames == 1) = true ∧
    stays (.frameTransmit ⟨2, 0⟩) (sSvc { paused := true, tx := [{}] }) = true ∧
    after (.frameTransmit ⟨2, 0⟩) (sSvc { tx := [{ bytes := [1, 2] }] }) (fun t => t.svc.tx == [] && fget t .SVC_FRAMES_tx_frames == 1 &&
      t.svc.sent.map (fun b => b.length) == some 64) = true := by decide +kernel

/-- TRK1 with frames in queue 7. -/
def sTx (link : Bool) (f : TxFrame) : State := sPort { link := link, tx := [(7, [f])] }
theorem wit_tx :
    stays (.frameTransmit ⟨1, 9⟩) (sPort { link := true }) = true ∧ txHead (sTx true {}) 1 7 = some {} ∧ ptpOff [] = none ∧
    headFate (sTx true {}) 1 7 = 1 ∧ headFate (sTx false {}) 1 7 = 2 ∧ headFate (sTx true { voice := true }) 1 7 = 3 ∧
    headFate (sTx true { bytes := zeros 1597 }) 1 7 = 4 ∧
    (let shut : State := reg (sPort { link := true, tx := [(7, [{}])], oper := some { entries := [(1, 1000)], cycle := 1000 } })
      .TMC_GATE_CTRL 0x80000000 1
     headFate shut 1 7 = 5 ∧ after (.frameTransmit ⟨1, 9⟩) shut (fun t => fget t .TMC_PAUSE_BREAK_gate_drops 1 == 1) = true) ∧
    after (.frameTransmit ⟨1, 9⟩) (sTx true {}) (fun t => tget (portAt t 1).tx 7 [] == [] && fget t .TMC_TX_FRAMES_tx_frames 1 == 1 &&
      (portAt t 1).sent == some (onLine [])) = true ∧
    after (.frameTransmit ⟨1, 9⟩) (sTx false {}) (fun t => fget t .TMC_TX_DROP_link_drops 1 == 1) = true ∧
    after (.frameTransmit ⟨1, 9⟩) (sTx true { voice := true }) (fun t => fget t .TMC_TX_DROP_standby 1 == 1) = true ∧
    after (.frameTransmit ⟨1, 9⟩) (sTx true { bytes := zeros 1597 }) (fun t => fget t .TMC_TXQ_DROP_tx_oversize 1 7 == 1) = true := by
  decide +kernel
theorem wit_tx_map :
    holdsSource (sPort { tx := [(5, [{ source := 1 }])] }) 1 5 1 0 = true ∧ holdsSource (sPort {}) 1 5 1 0 = false ∧
    holdsSource (sPort { tx := [(0, [{ peer := 3 }])] }) 1 0 0 3 = true ∧
    holdsSource (sPort { tx := [(0, [{ peer := 3 }])] }) 1 0 0 4 = false ∧
    after (.txMapChange 1) (reg (sPort { tx := [(0, [{ peer := 3 }])] }) .BND_PEER_CTRL 0x07000000 3) (fun t =>
      txQueue t 1 0 3 == 0) = true ∧
    after (.txMapChange 1) (reg (sPort { tx := [(0, [{ peer := 4 }])] }) .BND_PEER_CTRL 0x07000000 3) (fun t =>
      txQueue t 1 0 3 == 7) = true ∧
    after (.txMapChange 1) (reg (sPort { tx := [(5, [{ source := 1 }])] }) .TMC_TX_MAP 0x249 1) (fun t =>
      txQueue t 1 1 0 == 5 && txQueue t 1 3 0 == 1 && txQueue t 1 2 0 == 1) = true := by decide +kernel

/-- A PTP frame of a message type in TRK0's timing queue. -/
def sPtp (f : RxFrame) (ctrl : Word) : State :=
  reg { sRun with ports := [(0, { rx := [(8, [f])] })]
                  rig := { sRun.rig with spars := [{ type := 7, data := rings }] } } .TIM_PTP_CTRL ctrl
theorem wit_transparent_clock :
    after (.tcForward 0) (sPtp { bytes := eth 0x88B5 [2] } 0x04000000) (fun t => fget t .TIM_TC_COUNT_dropped == 0 &&
      tget (portAt t 0).rx 8 [] == []) = true ∧
    fget (sPtp {} 0x04000000) .TIM_PTP_CTRL_tc_enable = 1 ∧ stays (.tcForward 0) (sPtp {} 0) = true ∧
    stays (.tcForward 0) (sPtp { fwd := true } 0x04000000) = true ∧
    isPdelay ((eth 0x88F7 [2]).drop 14) = true ∧ ptpOff (eth 0x88F7 [2]) = some 14 ∧
    after (.tcForward 0) (sPtp { bytes := eth 0x88F7 [2] } 0x04000000) (fun t => fget t .TIM_TC_COUNT_dropped == 1 &&
      tget (portAt t 0).rx 8 [] == []) = true ∧
    after (.tcForward 0) (sPtp { bytes := eth 0x88F7 [0] } 0x04000000) (fun t => fget t .TIM_TC_COUNT_forwarded == 1 &&
      (tget (portAt t 1).tx 7 []).length == 1) = true := by decide +kernel

/-- An IPv4 datagram of 4 bytes from 10.0.0.2, port 0x4002, to 10.0.0.1, port 0x4000: its header's sum is 0x9934. -/
def datagram : Bytes :=
  eth 0x0800 ([0x45, 0, 0, 32, 0, 0, 0, 0, 0x40, 17, 0x66, 0xCB, 10, 0, 0, 2, 10, 0, 0, 1] ++
    [0x40, 2, 0x40, 0, 0, 12, 0, 0] ++ [0x80, 0, 0, 1])
/-- A frame of TRK0 waiting for the classifier, or for the mast controller. -/
def sFrame (b : Bytes) (mast : Bool) (s : State) : State :=
  reg { s with ports := [(0, { rx := [(2, [{ bytes := b }])] })] } .TMC_RXQ_CFG (if mast then 0x40010004 else 0x00010004) 0 2
theorem wit_classifier :
    isStandby sRun = false ∧ oldestFor sRun 0 0 = none ∧ stays (.classifyFrame 0) sRun = true ∧
    (udpOf datagram == some (false, [10, 0, 0, 2], [10, 0, 0, 1], 0x4002, 0x4000, [0x80, 0, 0, 1])) = true ∧
    udpOf (eth 0x0800 []) = none ∧ peerFor sRun 0 false (fun _ => true) = none ∧
    after (.classifyFrame 0) (sFrame (eth 0x0800 []) false sRun) (fun t => fget t .FLT_DROP_bad_ip == 1) = true ∧
    after (.classifyFrame 0) (sFrame datagram false { sRun with sess := [] }) (fun t => fget t .FLT_DROP_no_session == 1) = true ∧
    findKey sRun (rtpKey 0 0xFFFF false [10, 0, 0, 2] [10, 0, 0, 1] 0x4002 0x4000 0 ++ zeros 48) = some 5 ∧
    after (.classifyFrame 0) (sFrame datagram false sRun) (fun t => (sessAt t 5).drops == 1 && tget (portAt t 0).rx 2 [] == []) =
      true ∧
    liveChan sLive 5 = some 7 ∧ after (.classifyFrame 0) (sFrame datagram false sLive) (fun t => tget (portAt t 0).rx 2 [] == []) =
      true ∧
    after (.classifyFrame 0) { sRun with pair := { role := .standby, fwd := [(1, 0, eth 0x0800 [])] } } (fun t =>
      t.pair.fwd == [] && fget t .FLT_DROP_bad_ip == 1) = true := by decide +kernel
/-- A peer whose template has EtherType 0x88B5 and address 02:00:00:00:00:01 (R328). -/
def sTemplate (mac : Bytes) : State :=
  { sFrame (eth 0x88B5 [0x10]) false sRun with
    peers := [(0, { on := true })]
    rig := { sRun.rig with spars := [{ type := 9, data := [1, 0] ++ mac ++ zeros 8 ++ toBe 2 0x88B5 ++ zeros 46 }] } }
theorem wit_bundle_frames :
    peerFor (sTemplate [2, 0, 0, 0, 0, 1]) 0 false (fun r => beAt r 16 2 == 0x88B5) = some 0 ∧
    after (.classifyFrame 0) (sTemplate [2, 0, 0, 0, 0, 1]) (fun t => fget t .BND_PEER_ERR_bad_bundles 0 == 1) = true ∧
    after (.classifyFrame 0) (sTemplate [2, 0, 0, 0, 0, 9]) (fun t => fget t .BND_NO_PEER_frames == 1) = true := by decide +kernel
theorem wit_mast_frames :
    oldestFor (sFrame (eth 0x0806 []) true sRun) 0 1 = some (2, { bytes := eth 0x0806 [] }) ∧
    mastAnswer sRun 0 (eth 0x0806 []) = none ∧ stays (.mastFrameReceive 0) sRun = true ∧
    stays (.mastFrameReceive 0) { sFrame (eth 0x0806 []) true sRun with mast := { fw := false } } = true ∧
    after (.mastFrameReceive 0) (sFrame (eth 0x0806 []) true sRun) (fun t => fget t .FLT_FILTER_DROP_mast_unhandled == 1) = true ∧
    stays (.mastFrameReceive 2) sRun = true ∧
    after (.mastFrameReceive 2) (sSvc { rx := [{ bytes := eth 0x0806 [], bufs := 1 }], used := 1 }) (fun t => t.svc.used == 0 &&
      fget t .FLT_FILTER_DROP_mast_unhandled == 1) = true := by decide +kernel

/-- A pause frame (R242), a list of one gate entry, a service port in half duplex. -/
def pause (quanta : Nat) : Bytes := eth 0x8808 (toBe 2 1 ++ toBe 2 quanta)
def gates : GateList := { entries := [(0x0F, 1000)], cycle := 1000 }
def sHalf (x : Svc) : State := reg { sRun with svc := x } .SVC_CTRL 0xA0000640
theorem wit_pauses :
    fget (sPort {}) .TMC_CTRL_pause_mode 1 = 0 ∧
    after (.frameReceive 1 (pause 5) good) (reg (sPort { link := true, holdoff := 1 }) .TMC_CTRL 0x84000640 1) (fun t =>
      (portAt t 1).paused == 0xFE && fget t .TMC_CTRL_RX_pause_rx 1 == 1) = true ∧
    after (.frameReceive 1 (pause 0) good) (reg (sPort { link := true, paused := 7 }) .TMC_CTRL 0x84000640 1) (fun t =>
      (portAt t 1).paused == 0) = true ∧
    after (.pauseExpire 1 7) (sPort { paused := 0x81 }) (fun t => (portAt t 1).paused == 1) = true ∧
    after (.pauseExpire 2 0) { sRun with svc := { paused := true } } (fun t => !t.svc.paused) = true ∧
    after (.pauseWatchdog 1 7) (sPort { paused := 0x80, tx := [(7, [{}])] }) (fun t => (portAt t 1).paused == 0 &&
      (portAt t 1).holdoff == 0x80 && fget t .TMC_PAUSE_BREAK_pause_breaks 1 == 1) = true ∧
    stays (.pauseWatchdog 1 7) (sPort { tx := [(7, [{}])] }) = true ∧
    after (.holdoffEnd 1 0) (sPort { holdoff := 3 }) (fun t => (portAt t 1).holdoff == 2) = true ∧
    stays (.gateListStart 1) (sPort {}) = true ∧ stays (.gateEntryChange 1) (sPort {}) = true ∧
    stays (.gateListStart 1) (sPort { pending := some { gates with base := 1 } }) = true ∧
    after (.gateListStart 1) (sPort { pending := some gates }) (fun t => (portAt t 1).gate == 0x0F && (portAt t 1).pending == none) =
      true ∧
    after (.gateEntryChange 1) (sPort { oper := some gates }) (fun t => (portAt t 1).gate == 0x0F) = true := by decide +kernel
theorem wit_collisions :
    svcFull (sHalf {}) = false ∧ stays (.svcCollision false) (sHalf {}) = true ∧
    after (.svcCollision false) (sHalf { tx := [{}], attempt := 15 }) (fun t => t.svc.tx == [] && fget t .SVC_COLL_excess == 1) =
      true ∧
    after (.svcCollision true) (sHalf { tx := [{}] }) (fun t => t.svc.tx == [] && fget t .SVC_COLL_late == 1) = true ∧
    after (.svcCollision false) (sHalf { tx := [{}], attempt := 14 }) (fun t => t.svc.attempt == 15 &&
      fget t .SVC_COLL_collisions == 1) = true ∧
    after .svcBackoffEnd (sHalf { backoff := some 3 }) (fun t => t.svc.backoff == none) = true ∧
    stays (.mdioDone 5) sRun = true ∧
    after (.mdioDone 5) (reg { sRun with svc := { mdio := true } } .SVC_MDIO_CMD 0x08000000) (fun t => !t.svc.mdio) = true ∧
    after (.mdioDone 5) (reg { sRun with svc := { mdio := true } } .SVC_MDIO_CMD 0x10000000) (fun t =>
      fget t .SVC_MDIO_CMD_data == 5) = true := by
  decide +kernel

/-! ### Highways, time, islands, ticks, queues -/

/-- Group 3 in a state; TDM slot 0 of highway 24 belongs to it. -/
def sGroup (g : TdmGroup) (owner : Bool) : State := { sRun with tdm := { groups := [(3, g)] }, pair := { owner := owner } }
/-- A pending swap at the boundary that tick `tick` begins with. -/
def sSwap (w : SwapWait) (tick : BitVec 64) : State := { sRun with tdm := { swap := some w }, time := { tick := tick } }
theorem wit_highways :
    after (.tdmFrameStart 3 [] []) (sGroup { st := .qualifying } true) (fun t => (groupAt t 3).clock && (groupAt t 3).fs) = true ∧
    stays (.tdmFrameStart 3 [] []) (sGroup { st := .lost } true) = true ∧
    after (.tdmFrameStart 3 [] []) (sGroup { st := .locked, begun := true, tx := [[(1, 5)], []] } true) (fun t =>
      (groupAt t 3).tx == [[]] && (groupAt t 3).last == [(1, 5)] && (groupAt t 3).rx.length == 1) = true ∧
    after (.tdmFrameStart 3 [] []) (sGroup { st := .locked } true) (fun t => fget t .TDM_GRP_SLIP_tx_slips 3 == 1) = true ∧
    after (.tdmFrameStart 3 [] []) (sGroup { st := .locked } false) (fun t => (groupAt t 3).begun) = true ∧
    stays (.tdmFsMisplaced 3) (sGroup {} true) = true ∧
    after (.tdmFsMisplaced 3) (sGroup { st := .lost } true) (fun t => fget t .TDM_GRP_ERR_fs_errors 3 == 1 &&
      (groupAt t 3).clock && !(groupAt t 3).fs) = true ∧
    after (.tdmGroupLocked 3) (sGroup { st := .qualifying } true) (fun t => (groupAt t 3).st == .locked) = true ∧
    stays (.tdmGroupLocked 3) (sGroup { st := .lost } true) = true ∧
    after (.tdmGroupLost 3 2) (sGroup { st := .locked, tx := [[]] } true) (fun t => (groupAt t 3).st == .lost &&
      (groupAt t 3).tx == [] && fget t .TDM_GRP_ERR_losses 3 == 1) = true ∧
    stays (.tdmGroupLost 3 0) (sGroup {} true) = true ∧
    after (.tdmClockReturn 3) (sGroup { st := .lost } true) (fun t => (groupAt t 3).st == .qualifying) = true ∧
    stays (.tdmClockReturn 3) (sGroup {} true) = true ∧ stays .tdmMapSwap sRun = true ∧
    stays .tdmMapSwap (sSwap ⟨false, 1, 0⟩ 1) = true ∧ stays .tdmMapSwap (sSwap ⟨true, 0, 1⟩ 1) = true ∧
    after .tdmMapSwap (reg (sSwap ⟨false, 0, 0⟩ 1) .TDM_MAP_SHADOW 0x80000020) (fun t =>
      t.tdm.swap == none && fget t .TDM_SWAP_CTRL_result == 4) = true := by decide +kernel
theorem wit_swap_due : swapDue (sSwap ⟨true, 0, 0⟩ 1) ⟨true, 0, 0⟩ = true := by decide +kernel
theorem wit_map_swaps : shadowOk (sSwap ⟨true, 0, 0⟩ 1) = true := shadowOk_of_unlisted fun _ _ => rfl

/-- A PTP message of 64 bytes: type, flags, domain 0, a source identity, sequenceId 9. -/
def ptpMsg (type flags source : Byte) (steps : Nat) : Bytes :=
  [type, 2] ++ toBe 2 64 ++ [0, 0, flags, 0] ++ zeros 12 ++ [source] ++ zeros 9 ++ toBe 2 9 ++ zeros 29 ++ toBe 2 steps ++ [0]
/-- A message to the address of PTP over IEEE 802.3. -/
def ptpEth (m : Bytes) : Bytes := [1, 0x1B, 0x19, 0, 0, 0] ++ (eth 0x88F7 m).drop 6
/-- The engine on TRK0, enabled and with its link up, with a parent of source 7, a message in the timing queue, the servo off. -/
def sEngine (m : Bytes) (state : Nat) : State :=
  let s0 := sPtp { bytes := ptpEth m } 0x80000000
  let s := reg { s0 with ports := [(0, { rx := [(8, [{ bytes := ptpEth m }])], link := true })] } .TMC_CTRL 0x80000000
  { s with time := { ptp := state, best := some (ptpMsg 11 0 7 1), srv := .locked, i := 5 } }
/-- One buffer for TRK0's queue 7. -/
def ring07 : Bytes := zeros 16 ++ [0, 1, 7, 0, 1, 0, 1, 0] ++ zeros 8
theorem wit_engine :
    stays (.ptpReceive 1) (sEngine [] 8) = true ∧ stays (.ptpReceive 0) { sEngine [] 8 with mast := { fw := false } } = true ∧
    stays .delayReqSend (sEngine [] 7) = true ∧ firmwareRuns (sEngine [] 8) = true ∧ servoOn (sEngine [] 8) 0 = false ∧
    forEngine (sEngine [] 8) 0 (ptpEth (ptpMsg 0 0 7 1)) = true ∧ forEngine (sEngine [] 8) 0 (ptpEth [0, 0, 0, 0, 3]) = false ∧
    forEngine (sEngine [] 8) 0 (eth 0x88F7 (ptpMsg 0 0 7 1)) = false ∧
    after (.ptpReceive 0) (sEngine [0, 0, 0, 0, 3] 8) (fun t => tget (portAt t 0).rx 8 [] == []) = true ∧
    after (.ptpReceive 0) (sEngine (ptpMsg 12 0 7 1) 8) (fun t => fget t .TIM_PTP_COUNT_discarded == 1) = true ∧
    after (.ptpReceive 0) (sEngine (ptpMsg 2 0 7 1) 8) (fun t => fget t .TIM_TC_COUNT_dropped == 1) = true ∧
    after (.ptpReceive 0) (sEngine (ptpMsg 11 0 7 255) 8) (fun t => t.time.foreign == []) = true ∧
    fromParent (sEngine [] 8) (ptpMsg 0 0 7 1) = true ∧
    after (.ptpReceive 0) (sEngine (ptpMsg 0 0 7 1) 8) (fun t => t.time.ptp == 9 && fget t .TIM_PTP_COUNT_sync_rx == 1) = true ∧
    after (.ptpReceive 0) (sEngine (ptpMsg 0 2 7 1) 8) (fun t => t.time.sync == some (9, 0, 0) && t.time.ptp == 8) = true ∧
    after .announceTimeout (sEngine [] 9) (fun t => t.time.ptp == 4 && t.time.srv == .holdover && t.time.cause == 1 &&
      t.time.r == 5) = true ∧
    txQueue (sEngine [] 9) 0 3 0 = 7 ∧
    after .delayReqSend { sEngine [] 9 with rig := { sRun.rig with spars := [{ type := 7, data := ring07 }] } } (fun t =>
      t.time.dreqSeq == 1 && (tget (portAt t 0).tx 7 []).length == 1) = true := by decide +kernel

/-- Island 0 in a switching state, asked for 1400 MHz. -/
def sIsl (st : Nat) : State := { fset .ISL_CLK_STATUS_state st sRun 0 with isls := [(0, { asked := 1400 })] }
theorem wit_islands :
    clockState (sIsl 1) 0 = 1 ∧
    after (.synthLock 0) (sIsl 1) (fun t => clockState t 0 == 2) = true ∧
    after (.islClkLockFail 0) (sIsl 1) (fun t => clockState t 0 == 0 && clockFreq t 0 == 1200 &&
      fget t .ISL_CLK_COUNT_lock_fails 0 == 1 && t.ev.pend.map (fun e => e.src) == [65]) = true ∧
    stays (.synthLock 0) (sIsl 2) = true ∧ stays (.islClkLockFail 0) sRun = true ∧ stays (.islClkSwitch 0) (sIsl 1) = true ∧
    after (.islClkSwitch 0) (sIsl 2) (fun t => clockState t 0 == 0 && clockFreq t 0 == 1400 &&
      fget t .ISL_CLK_COUNT_switches 0 == 1 && fget t .ISL_CLK_STATUS_synth 0 == 1) = true := by decide +kernel

/-- An action due at the next boundary on entry 4, whose entry was freed or not. -/
def sArmed (time : Nat) (freed : Bool) : State :=
  { sRun with
    host := { armed := [{ seq := 3, time := time, handle := some 4, freed := freed, desc := (timed 5 (toLe 4 4 ++ zeros 68)).desc }] } }
theorem wit_ticks :
    stays (.tickBoundary 0 {} {}) { sRun with sysLost := true } = true ∧ stays (.timedAction 3) { sRun with sysLost := true } = true ∧
    (tickTime sRun).time.tick = 1 ∧ (tickTime sRun).time.phi = 0 ∧ (tickTime sRun).time.counter = 1000000 ∧
    boundaryNs (sArmed 1000000 true) = 1000000 ∧
    stays (.timedAction 3) (sArmed 1000001 true) = true ∧ stays (.timedAction 4) (sArmed 1000000 true) = true ∧
    ((dueActions (sArmed 1000000 true) 1000000).find? (fun a => a.seq == 3)).isSome = true ∧
    after (.timedAction 3) (sArmed 1000000 true) (fun t => t.host.armed == []) = true ∧
    (∀ a ∈ (sArmed 1000000 false).host.armed, actionWaits (sArmed 1000000 false) a = false) ∧
    (∀ a ∈ (sArmed 1000000 false).host.armed, actionWaits { sArmed 1000000 false with sess := sLive.sess, chans :=
      [(7, { acc := 4, oth := 5, live := true, move := some {} })] } a = true) := by decide +kernel
/-- A tick boundary of a running device (R24): tick 1 begins. -/
theorem test_tick : after (.tickBoundary 40 {} {}) sRun (fun t => t.time.tick == 1) = true := by decide +kernel

/-- Queue 511 with one producer port on VC 3 and a consumer. -/
def sQue (drop : Bool) (consumer : Nat) (x : Vc) : State :=
  { sRun with
    regs := [(RegId.addr .QUE_CFG 511, BitVec.ofNat 32 (consumer * 2 ^ 24)),
             (RegId.addr .QUE_VC_CFG 511 3, (if drop then 0x80000000 else 0) + 0x40020)]
    ques := [(511, { ports := [(3, 0)], consumer := 0x21 })]
    vcs := [(2047, x)] }
def pkt (n left : Nat) : QPacket :=
  { len := 8 * (n + left), words := List.replicate n (7, .ok), left := left, rest := List.replicate (8 * left) 1 }
theorem wit_pushes :
    after (.queuePushStart 511 0 []) (sQue false 0 {}) (fun t => fget t .QUE_DROPREC_bad_length 511 == 1) = true ∧
    after (.queuePushStart 511 0 (zeros 33)) (sQue false 0 {}) (fun t => fget t .QUE_DROPREC_bad_length 511 == 1) = true ∧
    vcBusy (vcAt (sQue false 0 { pkts := [pkt 1 1] }) 511 3) = true ∧
    after (.queuePushStart 511 0 (zeros 32)) (sQue false 0 { pkts := [pkt 1 1] }) (fun t => (vcAt t 511 3).wait.length == 1) =
      true ∧
    after (.queuePushStart 511 0 (zeros 32)) (sQue false 0 { wait := [{ port := 0, bytes := zeros 32, refused := 15 }] }) (fun t =>
      (vcAt t 511 3).wait.map (fun w => w.urgent) == [true] && fget t .QUE_ESC_escalations 511 == 1) = true ∧
    after (.queuePushStart 511 0 (zeros 32)) (sQue true 0 { pkts := [pkt 1 0] }) (fun t => fget t .QUE_VC_STAT_drops 511 3 == 1 &&
      (vcAt t 511 3).pkts == [pkt 1 0]) = true ∧
    after (.queuePushStart 511 0 (zeros 32)) (sQue false 0 { pkts := [pkt 1 0] }) (fun t =>
      (vcAt t 511 3).pkts.map (fun p => (p.words.length, p.left)) == [(1, 0), (3, 1)]) = true ∧
    stays (.queuePushWord 511 3) (sQue false 0 {}) = true ∧ stays (.queuePushWord 511 3) (sQue false 0 { pkts := [pkt 4 2] }) = true ∧
    after (.queuePushWord 511 3) (sQue false 0 { pkts := [pkt 3 2] }) (fun t =>
      (vcAt t 511 3).pkts.map (fun p => (p.words.length, p.left)) == [(4, 1)]) = true := by decide +kernel
/-- The queue into lane 2's port 1, whose receive area of 32 bytes holds packets. -/
def sArea (used : List (Nat × Nat)) (x : Vc) : State :=
  { sQue false 0 x with areas := [(17, { base := 64, len := 32, next := 16, used := used })] }
theorem wit_deliveries :
    stays (.queuePop 511 3 0) (sQue false 8 {}) = true ∧ stays (.queStall 511 3) (sQue false 8 {}) = true ∧
    after (.queuePop 511 3 0) (sQue false 8 { pkts := [pkt 2 0] }) (fun t => (vcAt t 511 3).pkts.map (fun p => p.got.length) ==
      [8]) = true ∧
    after (.queuePop 511 3 0) (sQue false 8 { pkts := [pkt 1 0] }) (fun t => (vcAt t 511 3).done ==
      [([7, 0, 0, 0, 0, 0, 0, 0], false, 8, 0)]) = true ∧
    after (.queuePop 511 3 2) (sQue false 8 { pkts := [pkt 1 0] }) (fun t => (vcAt t 511 3).done.map (fun d => d.2.1) == [true] &&
      fget t .QUE_DROPREC_drop_records 511 == 1) = true ∧
    stays (.queStall 511 3) (sQue true 8 { pkts := [pkt 1 0], stalled := true }) = true ∧
    after (.queStall 511 3) (sQue true 8 { pkts := [pkt 1 0] }) (fun t => (vcAt t 511 3).stalled &&
      fget t .QUE_STALL_stalled_queue == 511 && fget t .QUE_STALL_stalled_vc == 3) = true ∧
    queLane (sQue false 8 {}) 511 = none ∧ stays (.queueNotice 511 3) (sQue false 8 {}) = true ∧
    after (.queueNotice 511 3) (sQue false 8 { done := [([], true, 8, 0)] }) (fun t => (vcAt t 511 3).done == [] &&
      (vcAt t 511 3).last == some ([], true, 1) && fget t .ERR_CLASS_contained == 1) = true ∧
    queLane (sQue false 0 {}) 511 = some (2, 1) ∧ stays (.queueNotice 511 3) (sQue false 0 {}) = true ∧
    after (.queueNotice 511 3) { sQue false 0 {} with areas := [(17, { ready := [0x30000000] })] } (fun t =>
      (areaAt t 2 1).noted == [(0x30000000, 1)] && (areaAt t 2 1).ready == []) = true ∧
    stays (.deliveryWrite 2 1) (sQue false 0 {}) = true ∧ firstDone (sQue false 0 { done := [([1, 2], false, 2, 16)] }) 511 = some 3 ∧
    (readyPacket 511 3 (sQue false 8 { pkts := [pkt 1 0] })).isSome = true ∧
    readyPacket 511 3 (sArea [] { pkts := [] }) = none ∧
    readyPacket 511 3 (sArea [(0, 32)] { pkts := [pkt 1 0] }) = none ∧
    (readyPacket 511 3 (sArea [] { pkts := [{ pkt 1 0 with off := some 0 }] })).isSome = true ∧
    after (.queuePop 511 3 0) (sArea [(0, 16)] { pkts := [pkt 1 0] }) (fun t => (areaAt t 2 1).used == [(0, 16), (16, 8)] &&
      (vcAt t 511 3).done == [([7, 0, 0, 0, 0, 0, 0, 0], false, 8, 16)]) = true ∧
    clearOf [(0, 20)] 32 16 = true ∧ clearOf [(0, 20)] 16 16 = false ∧ placeIn { len := 16 } 17 = 0 ∧ placeIn { len := 32, next := 16 } 16 = 16 ∧
    after (.deliveryWrite 2 1) { sQue false 0 { done := [([1, 2], false, 2, 16)] } with areas := [(17, { base := 64, len := 32, next :=
      32 })] } (fun t => t.mem == [(0x08200050, 1), (0x08200051, 2)] && (vcAt t 511 3).done == [] &&
      (areaAt t 2 1).ready.length == 1) = true := by decide +kernel

/-! ### The loader, boot and power -/

/-- An image of a header and a signature block of root slot 0; key and signature made with OpenSSL, private key 12345. -/
def image : Bytes :=
  zeros 8 ++ toLe 4 416 ++ zeros 116 ++ [0x53, 0x49, 0x47, 0x4E, 0, 1, 0, 0, 4] ++
  toBe 66 (0x76CA1FA9613A70E8B2CECD8F64877968E32B91B16CD65166CA44B1439883A919 * 2 ^ 260 +
    0xE263C09CFF2F7F39E770EBDA9057D2F1198804A1C160F0BB99EB9AE6FAB28F78B) ++
  toBe 66 (0xB3121FE54F8E83D9BDEA643E8F7A01FB6E0791D4D459AC5BA1EA434B87D2D6B9D * 2 ^ 260 +
    0x6476A5F521EE0F6B8DE3CE4F3474660235F88240CA7D0DDBA59A07D493692BD6B) ++ zeros 3 ++
  toBe 66 (0x19A86C2BB5827715E09F9AD1D42AFB5F6829BF04E2581382DE77A559C7738B2AA1 * 2 ^ 260 +
    0xF6D1F834369301908B9BEFBB67A87203657B41D9011C6E3E0D813C8D0C926FA67) ++
  toBe 66 (0x163B15AF35C3D2EC2259ADA3C0E35DFEE18D803B8498FCDFD1CDED72E03B640D38 * 2 ^ 260 +
    0x5948BC309D79B0C1D7C303357523A9FEE55729321C9094C5C09ED2C7AEF3A7143) ++ zeros 12
def fuses : Fuses := { roots := [sha512 (sigKey (sigBlock image))] }
/-- Its signature passes, under an unchanged image alone (R321, R336). -/
theorem wit_signature : image.length = 416 ∧ signatureCheck fuses image = 0 ∧ signatureCheck fuses (image.set 20 1) = 8 := by
  decide +kernel
def sImage (st : LoaderState) (b : Bytes) (src : Nat) : State :=
  { State.reset with boot := { stage := .load, sel := 2 }, rig := { st := st, image := b, src := src } }
/-- The message "abc" and its hash, from the standard's own example. -/
theorem test_sha512_abc : (sha512 [97, 98, 99]).take 8 = [0xDD, 0xAF, 0x35, 0xA1, 0x93, 0x61, 0x7A, 0xBA] := by decide +kernel
theorem wit_image_received : after .imageReceived { sImage .verifying image 0 with
    boot := { stage := .load, sel := 2, fuses := fuses } } (fun t => t.rig.st == .checking) = true := by decide +kernel
theorem wit_loads :
    stays .rigDataTimeout (sImage .receiving [] 1) = true ∧ plainFailure (sImage .receiving [] 0) ∧
    after .rigDataTimeout (sImage .receiving [] 0) (fun t => t.rig.st == .failed && t.rig.code == 6 &&
      fget t .RIG_COUNT_failures == 1) = true ∧
    stays (.qspiRead { bytes := [1] } true) (sImage .receiving [] 0) = true ∧
    after (.qspiRead { bytes := [1] } true) (sImage .receiving [] 1) (fun t => t.rig.image == [1]) = true ∧
    stays (.qspiRead { offset := 16, bytes := [1] } true) (sImage .receiving [] 1) = true ∧
    after (.qspiRead {} false) (sImage .receiving [] 1) (fun t => t.rig.code == 6) = true ∧
    after (.qspiRead {} false) { sImage .receiving [] 1 with boot := { stage := .load, sel := 0 } } (fun t =>
      t.rig.st == .waitHost && t.boot.fallback) = true ∧
    after (.qspiRead {} false) { sImage .receiving [] 1 with boot := { stage := .load, sel := 1 } } (fun t =>
      t.boot.stage == .halted && t.boot.halt == 3 && t.rig.st == .idle) = true ∧
    stays .imageReceived (sImage .receiving (image.take 415) 0) = true ∧
    image.length = imgLen image ∧ tableEnd image ≤ 415 ∧
    after (.qspiRead { offset := 415, bytes := [0, 9] } true) (sImage .receiving (image.take 415) 1) (fun t => t.rig.st == .verifying &&
      t.rig.image == image) = true ∧ signatureCheck {} (image.set 128 0) = 7 ∧
    after .imageReceived (sImage .verifying (image.set 128 0) 0) (fun t => t.rig.code == 7) = true ∧
    stays .loaderCheckDone (sImage .receiving [] 0) = true ∧
    stays (.rigApply true) (sImage .checking [] 0) = true ∧
    (let go := fun (r : Option Nat) (st : BootStage) => { sImage .checking [] 0 with
       boot := { stage := st, sel := 2 }, rig := { st := .checking, go := true, rerig := r } }
     stays .rerigApply (go none .load) = true ∧
     after (.rigApply true) (go none .load) (fun t => t.boot.stage == .start && t.acc.locked) = true ∧
     after (.rigApply false) (go none .load) (fun t => t.rig.code == 0x15 && fget t .CEL_STATUS_state == 4) = true ∧
     after .rerigApply (go (some 7) .running) (fun t => (laneAt t 127).st == .clearing && t.rig.st == .applying) = true) := by
  unfold plainFailure
  decide +kernel
/-- An image with no spar fails its checks, at the ACCESS spar if not before. -/
theorem wit_load_checks : ∃ x, checkImage (sImage .checking [] 0) = some x := by
  have h1 : imgEntries (sImage .checking [] 0).rig.image = [] := by decide +kernel
  have h2 : accessCheck (sparOf (sImage .checking [] 0) 3 0xFF) (sparOf (sImage .checking [] 0) 6 0xFF) [] = 12 := by
    decide +kernel
  unfold checkImage
  simp only [h1, List.filter_nil, List.map_nil, h2, firstSpar, List.length_nil, List.range_zero, List.findSome?_nil,
    List.find?_cons]
  split
  · exact ⟨_, rfl⟩
  · exact ⟨_, rfl⟩
theorem wit_power :
    after .powerOn sRun (fun t => t.boot.held && t.chans == [] && fget t .PWR_SEQ_rail == 15 && vidPins t == none) = true ∧
    after .resetAssert { sLive with mem := [(0x02000000, 1)] } (fun t => t.mem == [(0x02000000, 1)] && t.chans == [] &&
      fget t .PWR_RESET_cause == 1) = true ∧
    after .sysclkLoss sLive (fun t => t.sysLost && t.chans == []) = true ∧ stays (.resetRelease 2) sRun = true ∧
    stays (.sysclkReturn 2) sRun = true ∧
    after (.resetRelease 2) { State.reset with boot := { held := true } } (fun t => !t.boot.held && t.boot.sel == 2 &&
      vidPins t == some 5 && fget t .HST_FAULT_supply == 0) = true ∧
    after (.resetRelease 2) { State.reset with boot := { held := true }, supply := { out := 4 } } (fun t =>
      fget t .HST_FAULT_supply == 1) = true ∧
    after (.sysclkReturn 2) { State.reset with sysLost := true } (fun t => !t.sysLost && t.boot.stage == .supply) = true ∧
    stays .bootSupplyTimeout sRun = true ∧ after .bootSupplyTimeout State.reset (fun t => t.boot.bootFault) = true ∧
    fget (reg State.reset .PWR_MON 0x7FF) .PWR_MON_in_range = 0x7FF ∧
    after (.bootSupplyReady false true true true true) (reg State.reset .PWR_MON 0x7FF) (fun t => t.boot.halt == 1) = true ∧
    after (.bootSupplyReady true false true true true) (reg State.reset .PWR_MON 0x7FF) (fun t => t.boot.halt == 2) = true ∧
    after (.bootSupplyReady true true true true true) { reg State.reset .PWR_MON 0x7FF with boot := { fuses := { validB := true } } }
      (fun t => t.boot.stage == .load && t.boot.seed == 1 && t.rig.st == .receiving) = true ∧
    stays .firmwareReady sRun = true ∧
    after .firmwareReady { sRun with boot := { stage := .start } } (fun t => t.boot.stage == .running && t.pair.role == .unpaired) =
      true ∧
    after .fwStartTimeout { sRun with boot := { stage := .start } } (fun t => t.boot.halt == 4) = true ∧
    stays .attestDone sRun = true ∧ stays (.supplyOutOfRange ⟨10, 1649999⟩) sRun = true ∧
    railHolds sRun 10 3700000 = true ∧ railHolds sRun 10 1649999 = false ∧ railHolds sRun 0 790000 = true ∧
    railLimits sRun 0 = (710, 790) ∧ railLimits { sRun with supply := { past := [(12, 500000)] } } 0 = (710, 860) ∧
    after (.supplyOutOfRange ⟨0, 790001⟩) (reg sRun .PWR_MON 0x7FF) (fun t => fget t .PWR_MON_in_range == 0x7FE) = true ∧
    stays (.supplyOutOfRange ⟨0, 790000⟩) (reg sRun .PWR_MON 0x7FF) = true ∧ stays (.supplyInRange ⟨0, 700000⟩) sRun = true ∧
    after (.supplyOutOfRange ⟨10, 1649999⟩) (reg sRun .PWR_MON 0x7FF) (fun t => fget t .PWR_MON_in_range == 0x3FF &&
      fget t .HST_FAULT_supply == 1 && fget t .PWR_COUNT_excursions == 1) = true ∧
    after (.supplyInRange ⟨10, 1650000⟩) (reg sRun .PWR_MON 0x3FF) (fun t => fget t .PWR_MON_in_range == 0x7FF) = true ∧
    stays (.sequenceViolation 1) sRun = true ∧
    after (.sequenceViolation 2) sRun (fun t => fget t .PWR_SEQ_violation == 1 && fget t .PWR_SEQ_rail == 2) = true ∧
    stays .refclkLoss sRun = true ∧
    after .refclkLoss (reg { sRun with ports := [(1, { link := true })], stay := [(0, { link := true })] } .PWR_MON 0xFFF) (fun t =>
      !(portAt t 1).link && !(stayAt t 0).link && fget t .PWR_COUNT_refclk_losses == 1) = true ∧
    after .refclkReturn sRun (fun t => fget t .PWR_MON_refclk_ok == 1) = true := by decide +kernel
theorem wit_attest_done : ∃ t, exec .attestDone { sRun with boot := { stage := .running, busy := true, latch := [1, 2] } } = .next t ∧
    t.boot.ready = true ∧ t.boot.serial = 1 := ⟨_, rfl, by decide +kernel⟩

/-! ### Errors, transfers, the cellar, the pair, ageing -/

/-- A running mast controller with one command taken, and resets noted. -/
def sMast (down : Bool) (resets : List Nat) (cmds : List Cmd) : State :=
  { sRun with mast := { fw := true, down := down, resets := resets }, host := { cmds := cmds }, time := { tick := 9999 } }
def inHand : Cmd := { seq := 3, desc := desc 0x27 (toLe 4 4), taken := true }
theorem wit_mast :
    stays .mastWatchdog (sMast true [] []) = true ∧ stays (.mastMemUe ⟨0, []⟩) { sRun with mast := {} } = true ∧
    after (.mastMemUe ⟨0, [5]⟩) (sMast true [] []) (fun t => t.mast.badWords == [5]) = true ∧
    after .mastWatchdog (sMast false [] [inHand]) (fun t => t.mast.down && t.mast.resets == [9999] && t.host.cmds == [inHand] &&
      fget t .MST_RESTART_restarts == 1 && fget t .ERR_FATAL_cause == 0) = true ∧
    after (.mastMemUe ⟨8, []⟩) (sMast false [0, 5] []) (fun t => fget t .ERR_FATAL_cause == 2 &&
      fget t .MST_MEM_ECC_uncorrected == 1) = true ∧
    stays .mastRestart (sMast false [] []) = true ∧ after .mastRestart (sMast true [] []) (fun t => !t.mast.down) = true ∧
    after .mastRestart (let s := sMast true [] [inHand]; { s with mast := { s.mast with badWords := [3] } })
      (fun t => done 8 t && !t.mast.down) = true ∧
    after .mastRestart (sMast true [] [inHand]) (fun t => t.host.cmds == [{ inHand with taken := false }] &&
      fget t .MST_RESTART_resumed == 1) = true ∧
    after .mastRestart (sMast true [] [{ inHand with done := some [7] }]) (fun t => t.host.cmds == [] && t.host.cpls == [[7]]) =
      true := by decide +kernel

/-- Cluster 0's attic and the start of cellar region 0 open to the host, with a byte in each. -/
def sMove : State :=
  { reg State.reset .CEL_REGION_SIZE 1 0 with
    mem := [(0x02000001, 9), (0x400000000, 8)]
    acc := { locked := true, entries := [(480, [{ start := 0, len := 2, r := true, w := true }]),
      (608, [{ start := 0, len := 2, r := true, w := true }])] } }
theorem wit_transfers :
    Memory.wf sMove.mem = true ∧ permitted sMove 0 0x02000000 8 false = true ∧ permitted sMove 0 0x02000040 8 true = true ∧
    permitted sMove 0 0x02000080 8 true = false ∧ meetsUe sMove 0x02000000 8 = false ∧
    stays (.transferUe 0 0x02000000 ⟨some 0x400000040, .data⟩ 8 8) sMove = true ∧
    stays (.transferUe 0 0x02000000 ⟨some 0x02000040, .data⟩ 16 9) sMove = true ∧
    after (.transferUe 0 0x02000000 ⟨some 0x400000040, .data⟩ 16 9) sMove (fun t => Memory.read t.mem 0x400000041 == 9 &&
      poisoned t 0x400000048 8 && !poisoned t 0x400000040 8 && tget t.cel.dmaEnd 0 0 == 8) = true ∧
    after (.transferUe 0 0x02000080 ⟨some 0x400000040, .data⟩ 16 9) sMove (fun t => t.mem == sMove.mem && t.poison == [] &&
      tget t.cel.dmaEnd 0 0 == 1) = true ∧ endMaster 0 0x02400000 (.context 7) = 3 ∧
    after (.transferUe 0 0x02000000 {} 8 0) sMove (fun t => t.mem == sMove.mem && poisoned t 0x02000000 1) = true ∧
    dmaMoves 0x02000000 0x400000008 8 .data = true ∧ dmaMoves 0x02000000 0x02000040 8 .data = false ∧
    dmaMoves 0x02000000 0x02000040 8 (.context 7) = true ∧
    stays (.cellarDmaDone 0 0x02000000 0x02000040 8 ⟨.data, 0⟩) sMove = true ∧
    after (.cellarDmaDone 0 0x02000000 0x400000008 8 ⟨.data, 0⟩) sMove (fun t => Memory.read t.mem 0x400000009 == 9) = true ∧
    stays (.cellarDmaDone 0 0x02000000 0x400000008 8 ⟨.data, 0⟩) { sMove with cel := { retrain := some true } } = true ∧
    stays (.transferUe 0 0x400000000 ⟨none, .data⟩ 8 0) { sMove with cel := { retrain := some true } } = true ∧
    after (.cellarDmaDone 0 0x400000000 0x02000001 4 ⟨.data, 1⟩) sMove (fun t => Memory.read t.mem 0x02000001 == 8 &&
      fget t .CEL_ECC_corrected == 1) = true ∧
    after (.cellarDmaDone 0 0x400000000 0x02000008 4 ⟨.data, 0⟩) { sMove with poison := [0x400000000] }
      (fun t => poisoned t 0x02000008 4) = true ∧
    after (.cellarDmaDone 0 0x400000000 0x02000080 8 ⟨.data, 0⟩) sMove (fun t => fget t .ACC_DENY_COUNT_denials == 1) = true ∧
    after (.cellarDmaDone 0 0x02000080 0x400000000 8 ⟨.data, 0⟩) sMove (fun t => fget t .ACC_DENY_COUNT_denials == 1) = true ∧
    after (.cellarDmaDone 0 0x02000000 0x02000040 8 ⟨(.context 7), 0⟩) { sMove with
      acc := { sMove.acc with entries := sMove.acc.entries ++ [(482, [{ start := 0, len := 2, r := true, w := true }])] }, chans := [(7, { move := some { target := 1, phase := 1 } })] }
      (fun t => (chanAt t 7).move == some { target := 1, phase := 1, copied := true }) = true := by decide +kernel

/-- A cellar region of 1 MiB at 0, with the scrubber at an address. -/
def sCel (c : Celar) : State := { reg sRun .CEL_REGION_SIZE 1 0 with cel := c }
theorem wit_cellar :
    fget (sCel {}) .CEL_SCRUB_enable = 1 ∧ scrubAt (sCel {}) 0 = some 0 ∧ scrubAt (sCel {}) 0x100000 = none ∧
    stays (.celScrubRead 0) (sCel { retrain := some false }) = true ∧
    after (.celScrubRead 0) (sCel { scrub := 0xFFFF8 }) (fun t => t.cel.scrub == 0) = true ∧
    after (.celScrubRead 1) (sCel {}) (fun t => t.cel.scrub == 8 && fget t .CEL_ECC_corrected == 1) = true ∧
    after (.celScrubRead 2) (sCel { scrub := 16 }) (fun t => fget t .CEL_ECC_uncorrected == 1 &&
      fget t .CEL_ECC_LAST_HI_master == 10 && fget t .CEL_ECC_LAST_LO_offset_lo == 16) = true ∧
    after (.celCaRetry 0 true) (sCel { fails := [(0, 14), (1, 15)] }) (fun t => t.cel.fails == [(0, 15), (1, 15)]) = true ∧
    stays (.celCaRetry 0 true) (sCel { retrain := some false }) = true ∧
    after (.celCaRetry 0 true) (sCel { fails := [(0, 15)] }) (fun t => t.cel.retrain == some true &&
      fget t .CEL_RETRY_escalations == 1) = true ∧
    stays (.celRetrainDone true) (sCel {}) = true ∧
    after (.celRetrainDone true) (sCel { retrain := some true, retries := 1 }) (fun t => t.cel.retrain == none &&
      fget t .CEL_STATUS_trainings == 1) = true ∧
    after (.celRetrainDone false) (sCel { retrain := some true, retries := 1 }) (fun t => t.cel.retries == 2) = true ∧
    after (.celRetrainDone false) (sCel { retrain := some true, retries := 2 }) (fun t => fget t .ERR_FATAL_cause == 1) = true := by
  decide +kernel

/-- A stay port of a pair in selected mirroring, claims 2 and 1, outside a ring, and a frame for it. -/
def sStay (x : StayPort) (p : Pair := {}) : State :=
  reg (reg { sRun with stay := [(1, x)], pair := p } .STY_CTRL 0x80000000 1) .PAIR_CFG 0x02014F00
def stayIn (type : Byte) (data : Bytes) : StayIn :=
  { type := type, route := 0, seq := 0, ack := 0, tick := 0, length := BitVec.ofNat 16 data.length, data := data
    crcOk := true }
def up : StayPort := { link := true, hello := 1, helloDone := true }
theorem wit_accepted (type : Byte) (data : Bytes) (p : Pair)
    (h : data.length < 65536 := by decide) : Accepted 1 (stayIn type data) (sStay up p) :=
  ⟨⟨rfl, rfl⟩, ⟨rfl, by simp [stayIn]; omega⟩, fun _ => rfl, fun _ => by
    show ((0#16) - (0#16 - BitVec.ofNat 16 0)).toNat ≤ 0; decide⟩
theorem wit_from_partner :
    (∀ t ∈ [2, 3, 4, 5, 6, 7, 8, 9], FromPartner 1 t (stayIn (BitVec.ofNat 8 t) (zeros 16)) (sStay up)) := by
  intro t ht
  refine ⟨wit_accepted _ _ _, ?_, rfl, by decide +kernel, by decide +kernel⟩
  revert t
  decide
theorem wit_stay_links :
    stays (.yield 1 (stayIn 3 [])) (sStay {}) = true ∧ stays (.yield 1 (stayIn 3 [])) (sStay { up with cut := true }) = true ∧
    after (.yield 1 { stayIn 3 [] with crcOk := false }) (sStay up) (fun t => fget t .STY_ERR_crc_errors 1 == 1) = true ∧
    after (.yield 1 (stayIn 10 [])) (sStay up) (fun t => (stayAt t 1).cut && fget t .STY_CUT_last_cause 1 == 1) = true ∧
    after (.yield 1 { stayIn 3 [] with length := 1 }) (sStay up) (fun t => fget t .STY_CUT_last_cause 1 == 2) = true ∧
    stays (.yield 1 { stayIn 3 [] with seq := 1 }) (sStay up) = true ∧
    after (.stayLinkUp 1) (sStay {}) (fun t => (stayAt t 1).link) = true ∧ stays (.stayLinkUp 1) (sStay up) = true ∧
    after (.stayLinkDown 1) (sStay up) (fun t => !(stayAt t 1).link && fget t .STY_CUT_last_cause 1 == 5) = true ∧
    stays (.stayLinkDown 1) (sStay {}) = true ∧ after (.stayCutEnd 1) (sStay { cut := true }) (fun t => !(stayAt t 1).cut) = true ∧
    stays (.stayCutEnd 1) (sStay up) = true ∧ stays (.helloSend 1) (sStay up) = true ∧
    after (.helloSend 1) (sStay { link := true }) (fun t => (stayAt t 1).out.map (fun f => f.type) == [1]) = true ∧
    stays (.stayRetransmit 1) (sStay up) = true ∧
    after (.stayRetransmit 1) (sStay { up with unacked := [({}, 15)] }) (fun t => (stayAt t 1).unacked == [({}, 16)] &&
      (stayAt t 1).out.length == 1) = true ∧
    after (.stayRetransmit 1) (sStay { up with unacked := [({}, 15), ({}, 16)] }) (fun t =>
      fget t .STY_CUT_last_cause 1 == 4) = true := by decide +kernel
theorem wit_stay_frames :
    pairMode (sStay up) = 1 ∧ inRing (sStay up) = false ∧
    after (.ack 1 { stayIn 0 [] with ack := 2 }) (sStay { up with txSeq := 3, unacked := [({}, 1), ({}, 1)] }) (fun t =>
      (stayAt t 1).unacked.length == 1) = true ∧
    after (.hello 1 (stayIn 1 (helloData (sStay up)))) (sStay { up with helloDone := false }) (fun t => (stayAt t 1).helloDone) =
      true ∧
    after (.heartbeat 1 (stayIn 2 [2, 3, 0, 0, 0, 0, 0, 0])) (sStay up { role := .listening }) (fun t => t.pair.seen &&
      t.pair.role == .standby && t.pair.pFlags == 3) = true ∧
    after (.yield 1 (stayIn 3 [])) (sStay up) (fun t => t.pair.pFlags == 4) = true ∧
    after (.copy 1 (stayIn 4 []) { tick := 9, last := true, items := [] }) (sStay up { role := .standby }) (fun t =>
      t.pair.copyTick == 9 && (stayAt t 1).out.map (fun g => (g.type, g.data)) == [(5, toLe 8 9)]) = true ∧
    after (.copyAck 1 (stayIn 5 (toLe 8 9))) (sStay up { role := .active, copyWait := some 9 }) (fun t =>
      t.pair.copyTick == 9 && t.pair.copyWait == none) = true ∧
    after (.check 1 (stayIn 8 []) { lane := 3, tick := 7, result := none }) (sStay up) (fun t =>
      t.pair.checks == [{ lane := 3, tick := 7 }]) = true ∧
    after (.check 1 (stayIn 8 []) { lane := 3, tick := 7, result := some true }) (sStay up { checks := [{ lane := 3 }] }) (fun t =>
      t.pair.checks == [{ lane := 3, other := some true }]) = true ∧
    after (.sync 1 (stayIn 9 []) []) (sStay up { role := .standby }) (fun t => t.mem == []) = true := by decide +kernel
/-- The same in full shadow with digests on, and with memory open to the partner. -/
def sShadow (p : Pair) : State :=
  { reg (sStay up p) .PAIR_CFG 0x02018F00 with
    acc := { locked := true, entries := [(493, [{ start := 0, len := 1, r := true, w := true }])] } }
theorem wit_shadow_frames :
    isStandby (sShadow { role := .standby }) = true ∧ pairMode (sShadow {}) = 2 ∧ digesting (sShadow {}) = true ∧
    permitted (sShadow {}) 13 0x02000000 1 true = true ∧ permitted (sShadow {}) 13 0x02000040 1 true = false ∧
    after (.copy 1 (stayIn 4 []) { tick := 9, last := true, items := [.memory 0x02000000 [5]] }) (sShadow { role := .standby })
      (fun t => t.mem == [(0x02000000, 5)]) = true ∧
    after (.copy 1 (stayIn 4 []) { tick := 9, last := true, items := [.memory 0x02000040 [5]] }) (sShadow { role := .standby })
      (fun t => t.mem == [] && t.pair.copyTick == 0) = true ∧
    after (.copy 1 (stayIn 4 []) { tick := 9, last := false, items := [.memory 0x02000000 [5]] }) (sShadow { role := .standby })
      (fun t => t.mem == [] && t.pair.staging == some (9, [.memory 0x02000000 [5]])) = true ∧
    after (.copy 1 (stayIn 4 []) { tick := 9, last := true, items := [.leg 4 1 2] }) (sShadow { role := .standby })
      (fun t => t.pair.owed == [.leg 4 1 2] && t.sess == sRun.sess) = true ∧
    after (.sync 1 (stayIn 9 []) [.memory 0x02000000 [5]]) (sShadow { role := .standby }) (fun t => t.mem == [(0x02000000, 5)]) =
      true ∧
    after (.forward 1 (stayIn 6 (toLe 8 7 ++ [1, 0, 0, 0] ++ [9, 9]))) (sShadow { role := .standby }) (fun t =>
      t.pair.fwd == [(7 * 2 ^ 24, 1, [9, 9])] && fget t .PAIR_FWD_forwarded == 1) = true ∧
    after (.digest 1 (stayIn 7 (zeros 8))) (sShadow { role := .standby }) (fun t =>
      tget? t.pair.digests 1 == some (digestList (zeros 8))) = true ∧
    after (.digest 1 (stayIn 7 (zeros 8))) (sShadow { role := .standby, digests := [(0, digestList (zeros 8))] }) (fun t =>
      t.pair.digests == []) = true := by decide +kernel

/-- A pair of a role with a partner that is eligible. -/
def sPair (p : Pair) : State := sStay up { p with seen := true, pFlags := 1, pRole := 3 }
theorem wit_pair :
    stays .pairHeartbeatLost (sStay up) = true ∧
    after .pairHeartbeatLost (sPair { sync := 2 }) (fun t => t.pair.lost && t.pair.sync == 0 && t.pair.cause == 2) = true ∧
    stays .pairCopyTimeout (sStay up) = true ∧
    after .pairCopyTimeout (sPair { copyWait := some 3, sync := 2 }) (fun t => t.pair.sync == 0 && t.pair.cause == 4) = true ∧
    stays .pairSyncDone (sPair { role := .active }) = true ∧ eligible (sPair { role := .active }) = true ∧
    eligible (sPair {}) = false ∧
    after .pairSyncDone (sPair { role := .active, sync := 1 }) (fun t => t.pair.sync == 2) = true ∧
    after .pairSyncDone (sPair { sync := 1 }) (fun t => t.pair.sync == 0 && t.pair.cause == 6) = true ∧
    stays .bulkSyncStart (sPair {}) = true ∧ syncReady (sPair { role := .active }) = true ∧
    after .bulkSyncStart (sPair { role := .active }) (fun t => t.pair.sync == 1) = true ∧
    (let s := reg (sPair { role := .active }) .PAIR_CFG 0x02018F00
     syncReady s = true ∧ after .bulkSyncStart s (fun t => t.pair.sync == 0 && t.pair.cause == 9) = true) ∧
    wantsOwner (sStay up { role := .standby, lost := true }) = true ∧
    after (.challenge .works) (sStay up { role := .standby, lost := true }) (fun t => t.pair.round.isSome) = true ∧
    stays (.challenge .heldLow) (sStay up { role := .standby, lost := true }) = true ∧
    after (.challenge .heldHigh) (sStay up { role := .standby, lost := true }) (fun t => fget t .PAIR_HALYARD_fault == 2 &&
      t.pair.challengeAt == some 100) = true ∧
    stays (.challenge .works) (sStay up { role := .standby, lost := true, challengeAt := some 1 }) = true ∧
    stays .halyardStart sRun = true ∧
    after .halyardStart (sStay up { role := .active, owner := true, lineLow := true }) (fun t => !t.pair.lineLow &&
      t.pair.round == some { entered := true, eligible := true }) = true ∧
    stays .halyardStuckLow (sStay up { lineLow := true }) = true ∧
    after .halyardStuckLow (sStay up) (fun t => t.pair.lineLow && fget t .PAIR_HALYARD_fault == 1) = true := by decide +kernel
theorem wit_rounds :
    ownClaim (sStay up) = 2 ∧ stays (.halyardRound 9) (sStay up) = true ∧
    after (.halyardRound 2) (sStay up { round := some { entered := true } }) (fun t => t.pair.gaining && t.pair.round == none &&
      fget t .PAIR_HALYARD_last_claim == 2) = true ∧
    after (.halyardRound 3) (sStay up { role := .active, owner := true, round := some {} }) (fun t => !t.pair.owner &&
      t.pair.role == .standby) = true ∧
    after (.halyardRound 3) (sStay up { round := some { entered := true } }) (fun t => t.pair.challengeAt == some 100) = true ∧
    stays .pairOwnerGained (sStay up) = true ∧
    after .pairOwnerGained (sStay up { gaining := true }) (fun t => t.pair.owner && t.pair.role == .active &&
      t.pair.resume == some 2) = true ∧
    after .listeningEnd { sStay up { role := .listening } with time := { tick := 200 } } (fun t => t.pair.listenOver) = true ∧
    stays .listeningEnd { sStay up { role := .listening } with time := { tick := 199 } } = true ∧
    stays .pairYieldFailed (sStay up { yielding := true }) = true ∧
    after .pairYieldFailed (sStay up { yielding := true, owner := true }) (fun t => !t.pair.yielding) = true ∧
    stays (.selfCheck true) (sStay up { checks := [{ own := some true }] }) = true ∧
    after (.selfCheck false) (sStay up { checks := [{ lane := 3 }] }) (fun t => t.pair.checks == [{ lane := 3, own := some false }]) =
      true ∧
    stays .selfCheckTimeout { sStay up { checks := [{ tick := 5 }] } with time := { tick := 6 } } = true ∧
    after .selfCheckTimeout { sStay up { checks := [{ tick := 5 }] } with time := { tick := 7 } } (fun t =>
      t.pair.checks == [{ tick := 5, other := some false }]) = true := by decide +kernel

theorem wit_ageing :
    stays .hourEnd { sRun with sysLost := true } = true ∧
    after .hourEnd { sRun with age := { hours := 4, tempTicks := 9 }, mast := {} } (fun t => t.age.hours == 5 &&
      t.age.tempTicks == 0) = true ∧
    stays .plannerRun sRun = true ∧ stays .plannerRun (withAge { run := some { wait := 1 } }) = true ∧
    after .plannerRun (withAge { run := some { ending := true } }) (fun t => t.age.run == none) = true ∧
    stays .reefEntry (withAge { due := 16, reefed := true }) = true ∧ isRunning sRun = true ∧
    after .reefEntry (withAge { due := 16 }) (fun t => t.age.reefed && t.age.due == 0 && fget t .AGE_REEF_causes == 16 &&
      fget t .AGE_COUNT_reefs == 1) = true ∧
    after .wakeOnlyEnter (withAge { wakeAsk := some 2 }) (fun t => t.age.wake == some 0 && t.sess == []) = true ∧
    after .wakeOnlyEnter (withAge { reefed := true, veryHot := 100 }) (fun t => t.age.wake == some 1) = true ∧
    stays .wakeOnlyEnter (withAge { reefed := true, veryHot := 99 }) = true ∧
    after (.wakeOnlyExit true 2) (reg (withAge { wake := some 0 }) .SVC_WAKE 0x100) (fun t => t.age.wake == none &&
      t.boot.sel == 2 && fget t .PWR_RESET_cause == 3) = true ∧
    after (.wakeOnlyExit false 2) (withAge { wake := some 1 }) (fun t => t.age.wake == none) = true ∧
    stays (.wakeOnlyExit true 2) (withAge { wake := some 0 }) = true := by decide +kernel

/-- The identification code shifts out of IDCODE; EXTEST puts the boundary register between TDI and TDO (R498, R499). -/
theorem test_tap :
    after .idcode sRun (fun t => t.jtag.shift == 0x1819258B && t.jtag.selected == 1) = true ∧
    after .extest { sRun with jtag := { boundary := 5 } } (fun t => t.jtag.shift == 5 && t.jtag.selected == 2) = true := by
  decide +kernel

/-! ### The whole machine and well-formed commands -/

theorem wit_machine :
    Inv State.reset ∧ TapInv State.reset ∧ FusesKept State.reset.boot.fuses State.reset.boot.fuses ∧
    (match step { State.reset with pending := [.idcode, .bypass] } with
      | .next t => t.pending == [.bypass] && t.jtag.selected == 1
      | .fault _ => false
      | .refused _ => false) = true := by
  unfold Inv TapInv FusesKept
  decide +kernel
/-- Quiet legs, and a sample of the near end's 1 kHz filter. -/
def signals (near : Int) : Signals := { quietSignals with ec := { quietEc with decNear := near } }
/-- A lane that can run works a live channel once a tick (R139). -/
theorem test_channel_work :
    after (.channelTickWork 7 (signals 0)) (sChan {}) (fun t => (chanAt t 7).worked == 10) = true ∧
    stays (.channelTickWork 7 (signals 0)) (sChan { worked := 10 }) = true := by decide +kernel
theorem test_refuses_ill_formed :
    ([.tdmFrameStart 1 [(0, 5)] [], .tdmFrameStart 0 [(1, 5), (1, 6)] [], .tdmFrameStart 1 [] [(0, 5)],
      .bundleReceive 0 [] none, .frameReceive 0 [] ⟨false, 0⟩, .queuePushStart 0 16 [], .queuePop 0 0 3, .rigData 0 [1, 2, 3],
      .entdaa 7 true, .setdasa 0 0x7E, .setnewda 0, .transferUe 0 0 {} 4 4, .celScrubRead 3, .ack 0 (stayIn 1 []),
      .hello 0 (stayIn 0 []), .heartbeat 0 (stayIn 3 []), .yield 0 (stayIn 2 []), .copyAck 0 (stayIn 4 []),
      .forward 0 (stayIn 7 []), .digest 0 (stayIn 6 [])] : List Instr).all (fun i => !i.wellFormed) = true ∧
    (Instr.copy 0 (stayIn 5 []) { tick := 0, last := true, items := [] }).wellFormed = false ∧
    (Instr.check 0 (stayIn 9 []) { lane := 0, tick := 0, result := none }).wellFormed = false ∧
    (Instr.sync 0 (stayIn 8 []) []).wellFormed = false ∧
    signalsOk (signals 32768) = false ∧ signalsOk (signals (-32768)) = true ∧
    ([.tdmFrameStart 0 [(1023, 5)] [], .queuePop 0 0 2, .setdasa 0 8, .ack 0 (stayIn 10 []), .transferUe 0 0 {} 4 3] :
      List Instr).all (fun i => i.wellFormed) = true := by decide +kernel

/-- An operation on lane 3 answers a next state, and lanes 2 and 4 beside it, the first and the last stand. -/
theorem wit_lane_frame :
    after (.vadd w0 v0) { sLane with lanes := [(2, lane), (3, lane), (4, lane), (127, lane)] } (fun t =>
      [0, 2, 4, 127].all (fun l => decide (laneAt t l = laneAt { sLane with lanes := [(2, lane), (4, lane), (127, lane)] } l)) &&
      decide (laneAt t 3 ≠ lane)) = true ∧
    after (.qwait w0 { d := 1, a := 0, b := 0, low := 0 }) sLane (fun t => t.time == sLane.time && t.pending == []) = true := by
  decide +kernel

/-- The first and the last copy of registers at the ends of the register space's ranges, and of one with two indices. -/
theorem wit_register_copies :
    regAt (RegId.addr .MST_CHAN_STATUS) = some (.MST_CHAN_STATUS, 0, 0) ∧
    regAt 0x267FFC = some (.TDM_MAP_SHADOW, 4095, 0) ∧ RegId.addr .TDM_MAP_SHADOW 4095 = 0x267FFC ∧
    regAt (RegId.addr .LAN_LOAD 127) = some (.LAN_LOAD, 127, 0) ∧
    (regPlaces.all (fun p => regAt (RegId.addr p.id (p.n1 - 1) (p.n2 - 1)) == some (p.id, p.n1 - 1, p.n2 - 1))) = true := by
  decide +kernel
/-- Commands beside those of boundary scan, and the TAP as it was. -/
theorem wit_scan_frame : touchesTap .mastWatchdog = false ∧ touchesTap .idcode = true ∧
    after .mastWatchdog sRun (fun t => decide (t.jtag = sRun.jtag)) = true := by
  decide +kernel

/-! ### Pins, copies, the forecast -/

/-- The balls that a property holds of. -/
def ballCount (f : Ball → Bool) : Nat := ((ballMap.flatMap (fun r => r.2)).filter f).length
/-- The pins of the array. -/
def pinBalls : List Pin := (ballMap.flatMap (fun r => r.2)).filterMap (fun b => match b with
  | .pin p => some p
  | .rail _ => none
  | .vss => none
  | .nc => none)
/-- The counts of Table 3, and balls that R497 names (R494). -/
theorem test_balls :
    ballCount (fun _ => true) = 484 ∧ ballCount (· == .vss) = 96 ∧ ballCount (· == .rail 0) = 40 ∧ ballCount (· == .rail 5) = 16 ∧
    ballCount (· == .nc) = 10 ∧ (pinBalls.filter Pin.scanned).length = scanCells ∧
    (pinBalls.filter (fun p => p.bank == .cel)).length = 138 ∧ ballAt "L" 4 = some (.pin .halyard) ∧
    ballAt "H" 5 = some (.pin .svcMdio) ∧ ballAt "A" 23 = none := by decide +kernel
/-- Each signal occupies exactly one ball (R494). -/
theorem test_balls_once : pinBalls.Nodup := by decide +kernel
/-- Pins in boundary scan, in reset and under their functions (R459, R495, R496, R499). -/
theorem wit_pins :
    Pin.scanned .halyard = true ∧ Pin.scanned .tck = false ∧ Pin.dir (.tdmTx 0) ≠ .input ∧
    after .extest { sRun with boot := { sRun.boot with held := true } } (fun t => pinDrive t (.tdmTx 0) == .scan &&
      pinDrive t .resetN == .input && pinDrive t (.trkTx 0 true) == .idle) = true ∧
    after .highz sRun (fun t => pinDrive t (.vid 0) == .highZ) = true ∧
    after .tapReset { sRun with jtag := { instr := .extest, selected := 2 } } (fun t => pinDrive t (.vid 0) == .high &&
      pinDrive t (.vid 1) == .low) = true ∧
    functionDrive { sRun with sysLost := true } .svcMdc = .low ∧
    functionDrive (withAge { wake := some 1 }) .faultN = .low ∧ functionDrive (withAge { wake := some 0 }) .faultN = .highZ := by
  decide +kernel

/-- A frame that a full buffer held back goes on once an acknowledgement frees the buffer (R417). -/
theorem test_stay_flow :
    after (.ack 1 { stayIn 0 [] with ack := 1 }) (sStay { up with txSeq := 1, unacked := [({}, 1)], waiting := [{ type := 3 }] })
      (fun t => (stayAt t 1).waiting == [] && (stayAt t 1).unacked == [({ type := 3, seq := 1 }, 1)]) = true := by
  decide +kernel

/-- A copy names what changed and the RTP state of legs, and of what is gone that it is gone (R430, Table 8). -/
theorem test_copy :
    (let s := { sStay up { role := .active, copied := [.place 9 0 0 0 0] } with
       sess := [(5, { key := [1], st := .active, chan := some 7, txSeq := some 4 })]
       chans := [(7, { acc := 5, oth := 6, lane := 3, cost := 16, live := true, legA := { pos := 80 } })] }
     (copyItems s).filter (fun i => match i with | .budget .. => false | _ => true) ==
       [.unplace 9, .entry 5 [1] [] none 2 (some 7) 4 0, .place 7 5 6 3 16, .leg 5 4 80]) = true ∧
    (let s := sStay up { role := .active }
     copyItems { s with pair := { s.pair with copied := copyMarks s } } == []) = true := by decide +kernel

/-- Channels of a lane that was not in step wait a tick longer than the others (R435). -/
theorem wit_late :
    (let s := { reg (sShadow { gaining := true }) .PAIR_LANE_UNSYNC 8 with chans := [(7, { lane := 3, live := true })] }
     unsyncedChans s == [7] && after .pairOwnerGained s (fun t => t.pair.late == some (2, [7]) && (chanAt t 7).dormant &&
       t.pair.resume == some 1 && fget t .PAIR_LANE_UNSYNC_unsync == 0)) = true := by decide +kernel

/-- Seven points of m = 50 - 2 x at x = 1 to 7: 27.62 ps at 20 years (R451). -/
theorem test_forecast :
    eolRat { n := 7, sx := planInt 28, sxx := planInt 140, sm := planInt 294, sxm := planInt 1120 } = some (mkRat 2762 100) ∧
    planSum (planInt 5) (planInt (-7)) = planInt (-2) ∧ (hourFactor (105 * 3600) 3600).toNat = 0x3F800000 := by decide +kernel

end Sys2Proof.Tests
end

section
/-! PROOF. LOOP in the S slot: where it faults, and what it leaves in the word's context (R88, R89, R92). -/

namespace Sys2Proof.Proofs.LaneLoops

open Sys2Proof Sys2Proof.Machine Sys2Proof.Spec

/-! ### One operation of a word that `WordOpen` describes -/

section
variable {w : Issue} {s : State} {c : WordCtx} {op : Work → OpResult} (slot : Nat) (hw : WordOpen w s c)
include hw

/-- An operation that leaves the state around its lane alone replaces the lane's registers and the word's context. -/
theorem laneOp_eq_withLane {core : LaneCore} {c' : WordCtx}
    (h : op ⟨w.lane, slot, (laneAt s w.lane).core, c, s⟩ = .ok ⟨w.lane, slot, core, c', s⟩) :
    laneOp w slot op s = withLane w core c' s := by
  rw [laneOp_open w slot op s hw.runs hw.pushes hw.clocked hw.word hw.held hw.stage hw.more, h]
  rfl

/-- An operation that faults, other than by an attic refusal (cause 8, R368), leaves the lane's fault alone. -/
theorem laneOp_eq_laneFault {cause addr : Nat} (hc : cause ≠ 8)
    (h : op ⟨w.lane, slot, (laneAt s w.lane).core, c, s⟩ = .fault cause addr s) :
    laneOp w slot op s = laneFault w.lane cause slot c.core0.pc.toNat addr s := by
  rw [laneOp_open w slot op s hw.runs hw.pushes hw.clocked hw.word hw.held hw.stage hw.more, h]
  exact if_neg hc

end

/-! ### Where a LOOP faults (R89) -/

section
variable {k : LaneCore} {f : LoopFields}

theorem loopFault_of_three_levels (h : 3 ≤ k.loops.length) : loopFault k f = some 6 := if_pos h

theorem loopFault_of_end_not_after (hd : k.loops.length < 3) (h : f.last.toNat ≤ k.pc.toNat) :
    loopFault k f = some 7 := by
  have hp : f.last ≤ k.pc := h
  rw [loopFault, if_neg (Nat.not_le.mpr hd), if_pos hp]

/-- With its end word after it, and levels to spare, a LOOP faults exactly where the enclosing level ends earlier. -/
theorem loopFault_of_end_after (hd : k.loops.length < 3) (h : k.pc.toNat < f.last.toNat) :
    loopFault k f = if ∀ l ∈ k.loops.head?, f.last.toNat ≤ l.last.toNat then none else some 7 := by
  have hp : ¬ f.last ≤ k.pc := Nat.not_le.mpr h
  rw [loopFault, if_neg (Nat.not_le.mpr hd), if_neg hp]
  cases k.loops with
  | nil => simp
  | cons l ls => by_cases hl : l.last.toNat < f.last.toNat <;> simp [BitVec.lt_def, hl]

end

/-! ### LOOP in an open word -/

/-- The word's context once its LOOP has waited for the register that holds its count (R88, R97). -/
def countRead (f : LoopFields) (c : WordCtx) : WordCtx := if f.fromReg then c.await [f.count.toNat % 32] else c

/-- The level that a LOOP starts at the word after it, the drain added to its iterations where it rotates (R88, R92). -/
def startedLevel (f : LoopFields) (k : LaneCore) : LoopLevel where
  body := k.pc + 1
  last := f.last
  left := if f.rotate then loopCount k f + f.drain.toNat else loopCount k f
  rotate := f.rotate
  count := loopCount k f

section
variable {w : Issue} {f : LoopFields} {s : State} {c : WordCtx} (hw : WordOpen w s c)
include hw

theorem exec_loop_of_fault {cause : Nat} (hc : cause ≠ 8) (h : loopFault c.core0 f = some cause) :
    exec (.loop w f) s = .next (laneFault w.lane cause 3 c.core0.pc.toNat 0 s) := by
  refine congrArg Host.Outcome.next (laneOp_eq_laneFault 3 hw hc ?_)
  simp only [h]

theorem exec_loop_of_count_zero (h : loopFault c.core0 f = none) (hn : loopCount c.core0 f = 0) :
    exec (.loop w f) s =
      .next (withLane w (laneAt s w.lane).core { countRead f c with skip := some (f.last + 1) } s) := by
  refine congrArg Host.Outcome.next (laneOp_eq_withLane 3 hw ?_)
  simp only [h, hn, if_true, countRead]
  cases f.fromReg <;> rfl

theorem exec_loop_of_count_pos (h : loopFault c.core0 f = none) (hn : loopCount c.core0 f ≠ 0) :
    exec (.loop w f) s =
      .next (withLane w (laneAt s w.lane).core { countRead f c with loop := some (startedLevel f c.core0) } s) := by
  refine congrArg Host.Outcome.next (laneOp_eq_withLane 3 hw ?_)
  simp only [h, if_neg hn, countRead]
  cases f.fromReg <;> rfl

end

/-- Settles O5: `loopFault` tells which of R89's faults a LOOP meets; where it meets none, its count says whether the word
skips or starts a level. -/
theorem loopStartsALevelOrFaults : Obligations.LoopStartsALevelOrFaults := by
  intro w f s c hw core n fault inside c'
  refine ⟨fun hfull => ?_, fun hroom hbad => ?_, fun hroom hafter hin => ?_⟩
  · exact exec_loop_of_fault hw (by decide) (loopFault_of_three_levels hfull)
  · have hfault : loopFault c.core0 f = some 7 := by
      rcases Nat.lt_or_ge c.core0.pc.toNat f.last.toNat with hafter | hbefore
      · rw [loopFault_of_end_after hroom hafter, if_neg (hbad.resolve_left (Nat.not_le.mpr hafter))]
      · exact loopFault_of_end_not_after hroom hbefore
    exact exec_loop_of_fault hw (by decide) hfault
  · have hnone : loopFault c.core0 f = none := by rw [loopFault_of_end_after hroom hafter, if_pos hin]
    exact ⟨exec_loop_of_count_zero hw hnone, exec_loop_of_count_pos hw hnone⟩

end Sys2Proof.Proofs.LaneLoops
end

section
/-! PROOF. The island clocks: what a request given up for want of lock raises, and why that refutes the statement about its
event (R296, R298, R357, R406). -/

namespace Sys2Proof.Proofs.IslandClocks

open Sys2Proof Sys2Proof.Machine Sys2Proof.Spec

section
variable {s u : State}

/-- With room in the pending buffer, an event waits behind the others, with the boot-ROM flag where the firmware does not
run (R357, R406, R408). -/
theorem raise_pend_of_room (src : Nat) (fields : List (Nat × Nat)) (hroom : u.ev.pend.length < 256) :
    (raise src fields u).ev.pend = u.ev.pend ++ [{
      src := src, payload := payloadOf fields, tick := tickNow u, ns := timeNs u, sec := timeSec u, rom := !u.mast.fw }] := by
  rw [raise, enqueueEvent, if_pos (by simpa using hroom)]
  simp [tickNow, timeNs, timeSec]

/-- `raised` asks for a record without the boot-ROM flag: with room in the pending buffer, raising an event meets it exactly
where the firmware runs. -/
theorem raised_raise_iff_firmware (src : Nat) (fields : List (Nat × Nat)) (hev : u.ev = s.ev) (htime : u.time = s.time)
    (hmast : u.mast = s.mast) (hroom : s.ev.pend.length < 256) :
    Spec.raised s (raise src fields u) src fields ↔ s.mast.fw = true := by
  rw [Spec.raised, if_pos hroom, raise_pend_of_room src fields (hev ▸ hroom)]
  simp [hev, hmast, tickNow, timeNs, timeSec, htime]

/-- The fields of event 65: the island, the frequency asked for, the synthesizer that did not lock (R298). -/
def lockFailFields (s : State) (island : Fin 15) : List (Nat × Nat) :=
  [(1, island.val), (2, (islandAt s island.val).asked), (1, 1 - fget s .ISL_CLK_STATUS_synth island.val)]

/-- A prepared island whose synthesizer does not lock stops preparing, counts the failure and raises event 65 (R298). -/
theorem exec_islClkLockFail_of_preparing {island : Fin 15} (hprep : clockState s island.val = 1) :
    exec (.islClkLockFail island) s = .next (raise 65 (lockFailFields s island)
      (fbump .ISL_CLK_COUNT_lock_fails 1 (clockRunning island.val s) island.val)) :=
  congrArg Host.Outcome.next (if_pos hprep)

/-- Event 65 of a request given up is the one that the statement describes exactly where the firmware runs. -/
theorem lockFail_raised_iff_firmware {island : Fin 15} (hprep : clockState s island.val = 1)
    (hroom : s.ev.pend.length < 256) :
    leaves (.islClkLockFail island) s (fun t => Spec.raised s t 65 (lockFailFields s island)) ↔ s.mast.fw = true := by
  simp only [leaves, exec_islClkLockFail_of_preparing hprep, Host.Outcome.next.injEq, exists_eq_left']
  exact raised_raise_iff_firmware 65 _ (by simp) (by simp) (by simp) hroom

end

/-- Refutes O39: the event it describes lacks the boot-ROM flag, which an event raised before the firmware runs carries
(R357, R406). The host asks island 0 for 1,400 MHz at boot, straight after reset, and the idle synthesizer does not lock:
event 65 is raised with the flag. -/
theorem not_islandClocksSwitchOrStay : ¬ Obligations.IslandClocksSwitchOrStay := by
  intro h
  have hasked : leaves (.islClkRequest 0 0 (0x80000000 + 1400)) State.reset (fun s =>
      clockState s 0 = 1 ∧ s.ev.pend = [] ∧ s.mast.fw = false) := ⟨_, rfl, by decide +kernel⟩
  obtain ⟨s, -, hprep, hpend, hboot⟩ := hasked
  obtain ⟨hclaim, -⟩ := h 0 s
  obtain ⟨-, t, hexec, -, -, -, -, -, hraised⟩ := hclaim hprep
  have hfw : s.mast.fw = true := (lockFail_raised_iff_firmware (island := 0) hprep (by simp [hpend])).mp ⟨t, hexec, hraised⟩
  exact absurd hfw (by simp [hboot])

end Sys2Proof.Proofs.IslandClocks
end

section
/-! PROOF. The tick number in two halves: the latch that a read of MST_TICK_LO sets for its master, and the host frame that
reads both halves (R24, R377, R508). -/

namespace Sys2Proof.Proofs.TickNumber

open Sys2Proof Sys2Proof.Machine

/-! ### Little-endian bytes of a number in two parts -/

theorem toLe_mod (n v : Nat) : toLe n (v % 256 ^ n) = toLe n v := by
  induction n generalizing v with
  | zero => rfl
  | succ n ih =>
    have hlow : BitVec.ofNat 8 (v % 256 ^ (n + 1)) = BitVec.ofNat 8 v := BitVec.eq_of_toNat_eq (by simp)
    have hhigh : v % 256 ^ (n + 1) / 256 = v / 256 % 256 ^ n := by rw [Nat.pow_succ', Nat.mod_mul_right_div_self]
    rw [toLe, toLe, hlow, hhigh, ih]

theorem toLe_append (m n v : Nat) : toLe m v ++ toLe n (v / 256 ^ m) = toLe (m + n) v := by
  induction m generalizing v with
  | zero => simp [toLe]
  | succ m ih =>
    rw [Nat.succ_add, toLe, toLe, List.cons_append, Nat.pow_succ', ← Nat.div_div_eq_div_mul, ih]

/-! ### The two registers -/

theorem tickLo_addr : RegId.addr .MST_TICK_LO = 0x18 := by decide +kernel

theorem tickHi_addr : RegId.addr .MST_TICK_HI = 0x1C := by decide +kernel

theorem regAt_tickLo : regAt 0x18 = some (.MST_TICK_LO, 0, 0) := by decide +kernel

theorem regAt_tickHi : regAt 0x1C = some (.MST_TICK_HI, 0, 0) := by decide +kernel

/-- The lane windows begin at 0x1000000 (R505). -/
theorem unriggedWindow_of_below (s : State) {a : Nat} (h : a < 0x1000000) : unriggedWindow s a = false := by
  have hout : ¬ (0x1000000 ≤ a ∧ a < 0x1800000) := by omega
  simp [unriggedWindow, hout]

/-- A register of the first 64 KiB shows what `mastView` makes of its word. -/
theorem regValue_of_mast (s : State) (m : Nat) {a i j : Nat} {r : RegId} (ha : a < 65536) (hr : regAt a = some (r, i, j)) :
    regValue s m a = mastView s m r i j (regWord s a) := by
  have hb : a / 65536 < 1 := by omega
  simp [regValue, hr, unriggedWindow_of_below s (show a < 0x1000000 by omega), hb]

theorem regValue_tickLo (s : State) (m : Nat) : regValue s m (RegId.addr .MST_TICK_LO) = tickNow s % 2 ^ 32 := by
  rw [tickLo_addr]
  exact regValue_of_mast s m (by decide) regAt_tickLo

theorem regValue_tickHi (s : State) (m : Nat) :
    regValue s m (RegId.addr .MST_TICK_HI) = (tget s.time.tickHi m 0).toNat := by
  rw [tickHi_addr]
  exact regValue_of_mast s m (by decide) regAt_tickHi

/-! ### The latch (R508) -/

/-- The high half of the tick number, latched for master `m`. -/
def latchTick (m : Nat) (s : State) : State :=
  { s with time := { s.time with tickHi := tset s.time.tickHi m (BitVec.ofNat 32 (tickNow s / 2 ^ 32)) } }

/-- A read of MST_TICK_LO gives the low half and latches the high half, at one instant. -/
theorem readReg_tickLo (m : Nat) (s : State) :
    readReg m (RegId.addr .MST_TICK_LO) s = (tickNow s % 2 ^ 32, latchTick m s) := by
  have hwindow := unriggedWindow_of_below s (a := RegId.addr .MST_TICK_LO) (by rw [tickLo_addr]; decide)
  simp only [readReg, hwindow, regValue_tickLo, if_true, latchTick, Bool.false_eq_true, if_false]

/-- The value that a read of a register gives is the one that the register shows. -/
theorem readReg_fst (m a : Nat) (s : State) : (readReg m a s).1 = regValue s m a := by
  simp only [readReg]
  split
  · rfl
  · split <;> rfl

/-- The tick number has 64 bits, so its high half is a word. -/
theorem tickNow_div_lt (s : State) : tickNow s / 2 ^ 32 < 2 ^ 32 := by
  have h := s.time.tick.isLt
  unfold tickNow
  omega

theorem regValue_tickHi_latchTick_same (m : Nat) (s : State) :
    regValue (latchTick m s) m (RegId.addr .MST_TICK_HI) = tickNow s / 2 ^ 32 := by
  rw [regValue_tickHi, latchTick, tget_tset_same, BitVec.toNat_ofNat, Nat.mod_eq_of_lt (tickNow_div_lt s)]

theorem regValue_tickHi_latchTick_other (s : State) {m k : Nat} (h : k ≠ m) :
    regValue (latchTick m s) k (RegId.addr .MST_TICK_HI) = regValue s k (RegId.addr .MST_TICK_HI) := by
  rw [regValue_tickHi, regValue_tickHi, latchTick, tget_tset_other _ _ _ h]

theorem regValue_tickHi_of_unlatched {s : State} {m : Nat} (h : tget? s.time.tickHi m = none) :
    regValue s m (RegId.addr .MST_TICK_HI) = 0 := by
  rw [regValue_tickHi, tget, h]
  rfl

theorem exec_mstTickLoRead_of_permitted {m : Fin 16} {s : State} (hreset : inReset s = false)
    (hperm : permitted s m (RegId.addr .MST_TICK_LO) 4 false = true) :
    exec (.mstTickLoRead m) s = .next (latchTick m s) := by
  change execMstTickLoRead m s = _
  simp only [execMstTickLoRead, hreset, hperm, readReg_tickLo, Bool.false_eq_true, if_false, if_true]

/-! ### A host frame that reads both halves (R377) -/

theorem hostReadWord_tickLo (s : State) :
    hostReadWord (RegId.addr .MST_TICK_LO) s = (toLe 4 (tickNow s), latchTick 0 s) := by
  have hspace : RegId.addr .MST_TICK_LO < 0x02000000 := by rw [tickLo_addr]; decide
  rw [hostReadWord, if_pos hspace, readReg_tickLo]
  exact congrArg (·, latchTick 0 s) (toLe_mod 4 (tickNow s))

/-- The host reads MST_TICK_HI, the word after MST_TICK_LO, as master 0. -/
theorem hostReadWord_tickHi_fst (s : State) :
    (hostReadWord (RegId.addr .MST_TICK_LO + 4) s).1 = toLe 4 (regValue s 0 (RegId.addr .MST_TICK_HI)) := by
  have hnext : RegId.addr .MST_TICK_LO + 4 = RegId.addr .MST_TICK_HI := by rw [tickLo_addr, tickHi_addr]
  have hspace : RegId.addr .MST_TICK_HI < 0x02000000 := by rw [tickHi_addr]; decide
  rw [hnext, hostReadWord, if_pos hspace]
  exact congrArg (toLe 4) (readReg_fst 0 _ s)

/-- Two words read by the host are the two reads' bytes, the second in the state that the first leaves. -/
theorem hostRead_two_fst (a : Nat) (s : State) :
    (hostRead 2 a s).1 = (hostReadWord a s).1 ++ (hostReadWord (a + 4) (hostReadWord a s).2).1 := by
  simp [hostRead]

theorem hostRead_tick (s : State) : (hostRead 2 (RegId.addr .MST_TICK_LO) s).1 = toLe 8 (tickNow s) := by
  rw [hostRead_two_fst, hostReadWord_tickHi_fst, hostReadWord_tickLo, regValue_tickHi_latchTick_same]
  exact toLe_append 4 4 (tickNow s)

/-- Settles O26: a read of MST_TICK_LO leaves `latchTick` of its master, whose rules tell what each master reads of
MST_TICK_HI; the host's second word is read after that latch. -/
theorem tickHalvesComeFromOneInstant : Obligations.TickHalvesComeFromOneInstant := by
  intro m s hreset
  refine ⟨regValue_tickLo s m, fun hperm => ?_, regValue_tickHi_of_unlatched, hostRead_tick s⟩
  exact ⟨latchTick m s, exec_mstTickLoRead_of_permitted hreset hperm, regValue_tickHi_latchTick_same m s, rfl,
    fun _ hk => regValue_tickHi_latchTick_other s hk, rfl, rfl⟩

end Sys2Proof.Proofs.TickNumber
end

section
/-! PROOF. What the operations on counters and events leave: the state with other registers and events. -/

namespace Sys2Proof.Proofs.Effects

open Sys2Proof Sys2Proof.Machine Sys2Proof.Spec

/-- The second state has other registers and events, and nothing else is different. -/
def RegsEvents (s t : State) : Prop := ∃ r e, t = { s with regs := r, ev := e }

theorem RegsEvents.refl (s : State) : RegsEvents s s := ⟨s.regs, s.ev, rfl⟩

theorem RegsEvents.trans {s t u : State} (h : RegsEvents s t) (h' : RegsEvents t u) : RegsEvents s u := by
  obtain ⟨_, _, rfl⟩ := h
  obtain ⟨r, e, rfl⟩ := h'
  exact ⟨r, e, rfl⟩

theorem RegsEvents.ite {p : Prop} [Decidable p] {s t u : State} (ht : RegsEvents s t) (hu : RegsEvents s u) :
    RegsEvents s (if p then t else u) := by
  split
  · exact ht
  · exact hu

theorem regsEvents_fset (f : Fld) (v i j : Nat) (s : State) : RegsEvents s (fset f v s i j) := ⟨_, s.ev, rfl⟩

theorem regsEvents_fbump (f : Fld) (n i j : Nat) (s : State) : RegsEvents s (fbump f n s i j) := ⟨_, s.ev, rfl⟩

theorem regsEvents_countClass (src : Nat) (s : State) : RegsEvents s (countClass src s) := by
  unfold countClass
  split
  · exact regsEvents_fbump ..
  · split
    · exact regsEvents_fbump ..
    · exact .refl s

theorem regsEvents_raise (src : Nat) (l : List (Nat × Nat)) (s : State) : RegsEvents s (raise src l s) := by
  refine (regsEvents_countClass src s).trans ?_
  unfold raise enqueueEvent
  split
  · exact ⟨_, _, rfl⟩
  · exact (regsEvents_fbump ..).trans ⟨_, _, rfl⟩

theorem regsEvents_countLimit (k : Nat) (s : State) : RegsEvents s (countLimit k s) := ⟨s.regs, _, rfl⟩

theorem regsEvents_raiseLimited (src sub n : Nat) (l : List (Nat × Nat)) (s : State) :
    RegsEvents s (raiseLimited src sub n l s) := by
  unfold raiseLimited
  split
  · exact (regsEvents_countLimit ..).trans (regsEvents_raise ..)
  · exact regsEvents_countClass ..

theorem regsEvents_raiseCountingBy (k src sub : Nat) (l : List (Nat × Nat)) (s : State) :
    RegsEvents s (raiseCountingBy k src sub l s) := by
  unfold raiseCountingBy
  dsimp only
  split
  · exact RegsEvents.trans ⟨_, _, rfl⟩ (regsEvents_raise ..)
  · exact RegsEvents.trans ⟨s.regs, _, rfl⟩ (regsEvents_countClass ..)

theorem regsEvents_setArith (l : Nat) (flag en : Fld) (code pc : Nat) (s : State) :
    RegsEvents s (setArith l flag en code pc s) := by
  unfold setArith
  split
  · exact .refl s
  · exact (regsEvents_fset flag 1 l 0 s).trans (.ite (regsEvents_raise ..) (.refl _))

theorem regsEvents_commitArith (l : Nat) (flags : BitVec 3) (pc : Nat) (s : State) :
    RegsEvents s (commitArith l flags pc s) := by
  unfold commitArith
  refine RegsEvents.trans ?_ (.ite (regsEvents_setArith ..) (.refl _))
  refine RegsEvents.trans ?_ (.ite (regsEvents_setArith ..) (.refl _))
  exact .ite (regsEvents_setArith ..) (.refl _)

theorem regsEvents_setFold (l areg pc : Nat) (s : State) : RegsEvents s (setFold l areg pc s) := by
  unfold setFold
  split
  · exact .refl s
  · exact (regsEvents_fset .LAN_AGEN_circ_fold 1 l 0 s).trans (.ite (regsEvents_raise ..) (.refl _))

theorem RegsEvents.foldl {α : Type} {f : State → α → State} (hf : ∀ s x, RegsEvents s (f s x)) (l : List α) (s : State) :
    RegsEvents s (l.foldl f s) := by
  induction l generalizing s with
  | nil => exact .refl s
  | cons x l ih => exact (hf s x).trans (ih _)

end Sys2Proof.Proofs.Effects
end

section
/-! PROOF. The whole machine: what a step runs, and what every step keeps: memory canonical, the TAP's register, the fuses and
the commands that wait (R349, R498; log entry 2). -/

namespace Sys2Proof.Proofs.EveryStep

open Sys2Proof Sys2Proof.Machine Sys2Proof.Spec

/-! ### The commands that touch the TAP -/

/-- Power-on keeps the queue and the fuses, empties memory and returns the TAP to its reset state. -/
theorem exec_powerOn {s t : State} (h : exec .powerOn s = .next t) :
    t.mem = [] ∧ t.jtag = {} ∧ t.pending = s.pending ∧ t.boot.fuses = s.boot.fuses := by
  cases h
  exact ⟨rfl, rfl, rfl, rfl⟩

/-- What a TAP instruction puts in force: the register between TDI and TDO is its own, and the boundary register, where it
loads one, has a bit for each cell (R498). -/
def TapSound (j : Jtag) : Prop :=
  (j.selected = match j.instr with
    | .bypass => 0
    | .clamp => 0
    | .highz => 0
    | .idcode => 1
    | .samplePreload => 2
    | .extest => 2) ∧ j.boundary < 2 ^ scanCells

/-- A command of boundary scan replaces the TAP's state alone, by one whose register is the one that its instruction
selects. -/
theorem exec_of_scans {i : Instr} (hi : scans i = true) (hp : i ≠ .powerOn) (s : State) :
    ∃ j, exec i s = .next { s with jtag := j } ∧ (s.jtag.boundary < 2 ^ scanCells → TapSound j) := by
  have hpreload : ∀ n, n % 2 ^ scanCells < 2 ^ scanCells := fun n => Nat.mod_lt n (Nat.two_pow_pos _)
  cases i with
  | powerOn => exact absurd rfl hp
  | bypass | idcode | extest | clamp | highz | tapReset => exact ⟨_, rfl, fun hb => ⟨rfl, hb⟩⟩
  | samplePreload pins preload => exact ⟨_, rfl, fun _ => ⟨rfl, hpreload preload⟩⟩
  | _ => cases hi

/-! ### What one command keeps -/

theorem exec_pending {i : Instr} {s t : State} (h : exec i s = .next t) : t.pending = s.pending := by
  cases hi : scans i with
  | false => exact (exec_kept i s hi t h).pending
  | true =>
    by_cases hp : i = .powerOn
    · subst hp
      exact (exec_powerOn h).2.2.1
    · obtain ⟨j, hj, -⟩ := exec_of_scans hi hp s
      cases hj.symm.trans h
      rfl

theorem exec_fuses {i : Instr} {s t : State} (h : exec i s = .next t) : FusesKept s.boot.fuses t.boot.fuses := by
  cases hi : scans i with
  | false => exact (exec_kept i s hi t h).fuses
  | true =>
    by_cases hp : i = .powerOn
    · subst hp
      rw [(exec_powerOn h).2.2.2]
      exact fusesKept_refl _
    · obtain ⟨j, hj, -⟩ := exec_of_scans hi hp s
      cases hj.symm.trans h
      exact fusesKept_refl _

theorem exec_inv {i : Instr} {s t : State} (hs : Inv s) (h : exec i s = .next t) : Inv t := by
  cases hi : scans i with
  | false => exact (exec_kept i s hi t h).mem hs
  | true =>
    by_cases hp : i = .powerOn
    · subst hp
      rw [Inv, (exec_powerOn h).1]
      rfl
    · obtain ⟨j, hj, -⟩ := exec_of_scans hi hp s
      cases hj.symm.trans h
      exact hs

theorem exec_tapInv {i : Instr} {s t : State} (hs : TapInv s) (h : exec i s = .next t) : TapInv t := by
  cases hi : scans i with
  | false =>
    rw [TapInv, (exec_kept i s hi t h).jtag]
    exact hs
  | true =>
    by_cases hp : i = .powerOn
    · subst hp
      rw [TapInv, (exec_powerOn h).2.1]
      exact ⟨rfl, Nat.two_pow_pos _⟩
    · obtain ⟨j, hj, hsound⟩ := exec_of_scans hi hp s
      cases hj.symm.trans h
      exact hsound hs.2

/-! ### A step -/

/-- An idle nanosecond moves the counter, which stands in reset, and the time of past VID codes, and nothing else. -/
theorem idleTick_eq (s : State) : ∃ n past,
    idleTick s = { s with time := { s.time with counter := n }, supply := { s.supply with past := past } } ∧
    (inReset s = true → n = s.time.counter) ∧ past.length ≤ s.supply.past.length := by
  have hpast : ∀ l : List (BitVec 4 × Nat),
      ((l.filter (fun p => decide (1 < p.2))).map (fun p => (p.1, p.2 - 1))).length ≤ l.length := fun l => by
    rw [List.length_map]
    exact List.length_filter_le _ l
  unfold idleTick
  by_cases hr : inReset s = true
  · rw [if_pos hr]
    exact ⟨_, _, rfl, fun _ => rfl, hpast _⟩
  · rw [if_neg hr]
    split
    · exact ⟨_, _, rfl, fun h => absurd h hr, hpast _⟩
    · exact ⟨s.time.counter, s.supply.past, rfl, fun _ => rfl, le_rfl⟩

/-- A step is an idle nanosecond, or a command run on the queue's rest. -/
theorem step_cases {s t : State} (h : step s = .next t) :
    t = idleTick s ∨ ∃ i rest, exec i { s with pending := rest } = .next t := by
  unfold step at h
  split at h
  · exact .inl (Host.Outcome.next.inj h).symm
  · exact .inr ⟨_, _, h⟩

/-- Settles O54: `step` by definition, and `idleTick_eq` for the empty queue. -/
theorem stepRunsTheCommandInFront : Obligations.StepRunsTheCommandInFront := by
  refine ⟨fun c rest s => rfl, fun s hs => ?_⟩
  obtain ⟨n, past, he, hn, hp⟩ := idleTick_eq s
  have hstep : step s = .next (idleTick s) := by
    unfold step
    rw [hs]
  exact ⟨n, past, hstep.trans (congrArg _ he), hn, hp⟩

/-- Settles O55: memory lists nothing, and the TAP starts at IDCODE with an empty boundary register. -/
theorem resetKeepsTheInvariants : Obligations.ResetKeepsTheInvariants := ⟨rfl, rfl, Nat.two_pow_pos _⟩

/-- Settles O56: `exec_inv` and `exec_tapInv` for a command; an idle nanosecond leaves memory and the TAP. -/
theorem stepKeepsTheInvariants : Obligations.StepKeepsTheInvariants := by
  refine ⟨fun s t hs h => ?_, fun s t hs h => ?_⟩ <;> obtain rfl | ⟨i, rest, he⟩ := step_cases h
  · obtain ⟨n, past, he, -⟩ := idleTick_eq s
    rw [he]
    exact hs
  · exact exec_inv (s := { s with pending := rest }) hs he
  · obtain ⟨n, past, he, -⟩ := idleTick_eq s
    rw [he]
    exact hs
  · exact exec_tapInv (s := { s with pending := rest }) hs he

/-- Settles O57: `exec_fuses` for a command; an idle nanosecond leaves the boot stages. -/
theorem noStepUnblowsAFuse : Obligations.NoStepUnblowsAFuse := by
  intro s t h
  obtain rfl | ⟨i, rest, he⟩ := step_cases h
  · obtain ⟨n, past, he, -⟩ := idleTick_eq s
    rw [he]
    exact fusesKept_refl _
  · exact exec_fuses (s := { s with pending := rest }) he

/-- Settles O58: `exec_pending`. -/
theorem commandsLeaveTheQueue : Obligations.CommandsLeaveTheQueue := fun _ _ _ => exec_pending

/-! ### Boundary scan (R496, R498, R499) -/

theorem touchesTap_eq_scans (i : Instr) : touchesTap i = scans i := by cases i <;> rfl

/-- In reset every pin but VID stands in its reset state (R496). -/
theorem functionDrive_of_reset {s : State} (h : s.boot.held = true ∨ s.sysLost = true) {p : Pin} (hp : ∀ n, p ≠ .vid n) :
    functionDrive s p = p.resetDrive := by
  unfold functionDrive
  rw [if_pos h]
  cases p with
  | vid n => exact absurd rfl (hp n)
  | _ => rfl

/-- What a pin's function does with it does not ask the TAP. -/
theorem functionDrive_withJtag (s : State) (j : Jtag) (p : Pin) : functionDrive { s with jtag := j } p = functionDrive s p :=
  rfl

theorem pinDrive_of_scanning {s : State} (h : s.jtag.instr = .extest ∨ s.jtag.instr = .clamp) (p : Pin) :
    pinDrive s p = if p.scanned = true ∧ p.dir ≠ .input then .scan else functionDrive s p := by
  rcases h with h | h <;> simp [pinDrive, h]

theorem pinDrive_of_highz {s : State} (h : s.jtag.instr = .highz) (p : Pin) :
    pinDrive s p = if p.scanned = true ∧ p.dir ≠ .input then .highZ else functionDrive s p := by
  simp [pinDrive, h]

/-- Settles O52: the TAP's commands by what they write, the pins by the instruction in force. -/
theorem boundaryScanSelectsItsRegister : Obligations.BoundaryScanSelectsItsRegister := by
  refine ⟨fun i s t hi h => ?_, fun pins preload s => ⟨rfl, rfl, rfl, rfl, rfl, rfl, rfl, fun p => ⟨?_, ?_, ?_, ?_⟩⟩⟩
  · exact (exec_kept i s ((touchesTap_eq_scans i).symm.trans hi) t h).jtag
  · rintro i (rfl | rfl)
    · exact ⟨_, rfl, pinDrive_of_scanning (.inl rfl) p⟩
    · exact ⟨_, rfl, pinDrive_of_scanning (.inr rfl) p⟩
  · exact ⟨_, rfl, pinDrive_of_highz rfl p⟩
  · exact ⟨_, rfl, rfl⟩
  · exact fun h hp => functionDrive_of_reset h hp

end Sys2Proof.Proofs.EveryStep
end

section
/-! PROOF. The register map: no two copies of registers share an address (R501, R502, R505). -/

namespace Sys2Proof.Proofs.RegisterPlaces

open Sys2Proof Sys2Proof.Machine Sys2Proof.Spec

/-! ### One place -/

theorem at?_eq (p : RegPlace) (a : Nat) : p.at? a =
    if p.base ≤ a ∧ (a - p.base) / p.s1 < p.n1 ∧ (a - p.base) % p.s1 / p.s2 < p.n2 ∧ (a - p.base) % p.s1 % p.s2 = 0 then
      some (p.id, (a - p.base) / p.s1, (a - p.base) % p.s1 / p.s2) else none := rfl

/-- The address of copy `(i, j)` at a place. -/
def copyAddr (p : RegPlace) (i j : Nat) : Nat := p.base + p.s1 * i + p.s2 * j

/-- The address of a place's last copy. -/
def lastAddr (p : RegPlace) : Nat := copyAddr p (p.n1 - 1) (p.n2 - 1)

/-- A place of whole words within the register space, whose inner copies stand within one outer stride. -/
def sound (p : RegPlace) : Bool :=
  decide (0 < p.s2) && decide (p.s2 * p.n2 ≤ p.s1) && decide (p.base % 4 = 0) && decide (p.s1 % 4 = 0) &&
    decide (p.s2 % 4 = 0) && decide (lastAddr p < 0x02000000)

theorem sound_iff (p : RegPlace) : sound p = true ↔
    0 < p.s2 ∧ p.s2 * p.n2 ≤ p.s1 ∧ p.base % 4 = 0 ∧ p.s1 % 4 = 0 ∧ p.s2 % 4 = 0 ∧ lastAddr p < 0x02000000 := by
  simp [sound, and_assoc]

section
variable {p : RegPlace} {i j : Nat} (hi : i < p.n1) (hj : j < p.n2)
include hi hj

theorem copyAddr_le_lastAddr : copyAddr p i j ≤ lastAddr p := by
  have hi' : p.s1 * i ≤ p.s1 * (p.n1 - 1) := Nat.mul_le_mul_left _ (by omega)
  have hj' : p.s2 * j ≤ p.s2 * (p.n2 - 1) := Nat.mul_le_mul_left _ (by omega)
  unfold lastAddr copyAddr
  omega

theorem at?_copyAddr (hp : sound p = true) : p.at? (copyAddr p i j) = some (p.id, i, j) := by
  obtain ⟨hs2, hin, -⟩ := (sound_iff p).1 hp
  have hinner : p.s2 * j < p.s1 := lt_of_lt_of_le (Nat.mul_lt_mul_of_pos_left hj hs2) hin
  have hoff : copyAddr p i j - p.base = p.s2 * j + p.s1 * i := by unfold copyAddr; omega
  have hdiv : (p.s2 * j + p.s1 * i) / p.s1 = i := by
    rw [Nat.add_mul_div_left _ _ (by omega), Nat.div_eq_of_lt hinner, zero_add]
  have hmod : (p.s2 * j + p.s1 * i) % p.s1 = p.s2 * j := by rw [Nat.add_mul_mod_self_left, Nat.mod_eq_of_lt hinner]
  have hbase : p.base ≤ copyAddr p i j := by unfold copyAddr; omega
  rw [at?_eq, hoff, hdiv, hmod, Nat.mul_div_cancel_left j hs2]
  exact if_pos ⟨hbase, hi, hj, Nat.mul_mod_right ..⟩

end

theorem copyAddr_aligned {p : RegPlace} (hp : sound p = true) (i j : Nat) : copyAddr p i j % 4 = 0 := by
  obtain ⟨-, -, hb, h1, h2, -⟩ := (sound_iff p).1 hp
  exact Nat.mod_eq_zero_of_dvd (Nat.dvd_add (Nat.dvd_add (Nat.dvd_of_mod_eq_zero hb)
    (Dvd.dvd.mul_right (Nat.dvd_of_mod_eq_zero h1) i)) (Dvd.dvd.mul_right (Nat.dvd_of_mod_eq_zero h2) j))

/-- A place answers at the addresses of its copies alone. -/
theorem eq_copyAddr_of_at? {p : RegPlace} {a : Nat} {x : RegId × Nat × Nat} (h : p.at? a = some x) :
    ∃ i j, i < p.n1 ∧ j < p.n2 ∧ a = copyAddr p i j := by
  rw [at?_eq] at h
  split at h
  · next hc =>
    obtain ⟨hb, hi, hj, hr⟩ := hc
    refine ⟨(a - p.base) / p.s1, (a - p.base) % p.s1 / p.s2, hi, hj, ?_⟩
    have h1 := Nat.div_add_mod (a - p.base) p.s1
    have h2 := Nat.div_add_mod ((a - p.base) % p.s1) p.s2
    unfold copyAddr
    omega
  · cases h

/-! ### Two places -/

/-- Two places that share no address: one ends before the other begins, or their copies repeat with the same stride and stand
at different places of it. -/
def apart (p q : RegPlace) : Bool :=
  !q.meets p.base (lastAddr p) ||
    (p.s1 == q.s1 && (List.range p.n2).all fun j => (List.range q.n2).all fun k =>
      (p.base + p.s2 * j) % p.s1 != (q.base + q.s2 * k) % p.s1)

theorem copyAddr_mod (p : RegPlace) (i j : Nat) : copyAddr p i j % p.s1 = (p.base + p.s2 * j) % p.s1 := by
  rw [copyAddr, Nat.add_right_comm, Nat.add_mul_mod_self_left]

theorem at?_eq_none_of_apart {p q : RegPlace} (h : apart p q = true) {i j : Nat} (hi : i < p.n1) (hj : j < p.n2) :
    q.at? (copyAddr p i j) = none := by
  rw [apart, Bool.or_eq_true, Bool.not_eq_true'] at h
  rcases h with h | h
  · exact RegPlace.at?_none_of_not_meets h (by unfold copyAddr; omega) (copyAddr_le_lastAddr hi hj)
  · simp only [Bool.and_eq_true, beq_iff_eq, List.all_eq_true, List.mem_range, bne_iff_ne, ne_eq] at h
    obtain ⟨hs, hd⟩ := h
    refine Option.eq_none_iff_forall_ne_some.2 fun x hx => ?_
    obtain ⟨i', k, -, hk, ha⟩ := eq_copyAddr_of_at? hx
    refine hd j hj k hk ?_
    rw [← copyAddr_mod p i j, ha, hs, copyAddr_mod q i' k]

/-! ### All places -/

theorem regPlaces_sound : regPlaces.all sound = true := by decide +kernel

theorem regPlaces_apart : (regPlaces.all fun p => regPlaces.all fun q => p.id == q.id || apart p q) = true := by
  decide +kernel

theorem apart_of_mem {p q : RegPlace} (hp : p ∈ regPlaces) (hq : q ∈ regPlaces) (h : q.id ≠ p.id) : apart p q = true := by
  have := List.all_eq_true.1 (List.all_eq_true.1 regPlaces_apart p hp) q hq
  simpa [Ne.symm h] using this

/-- Every register has a place. -/
theorem find?_place_isSome (r : RegId) : (regPlaces.find? (fun p => p.id == r)).isSome = true := by
  cases r <;> decide +kernel

/-- A register's place stands in the list, after places of other registers alone. -/
theorem regPlaces_split (r : RegId) : ∃ as bs, regPlaces = as ++ r.place :: bs ∧ r.place.id = r ∧ ∀ q ∈ as, q.id ≠ r := by
  obtain ⟨p, hp⟩ := Option.isSome_iff_exists.1 (find?_place_isSome r)
  have hplace : r.place = p := by rw [RegId.place, hp]; rfl
  obtain ⟨hid, as, bs, hl, has⟩ := List.find?_eq_some_iff_append.1 hp
  rw [hplace]
  exact ⟨as, bs, hl, beq_iff_eq.1 hid, fun q hq => by simpa using has q hq⟩

/-- At the address of a copy stands that copy and no other register. -/
theorem regAt_addr (r : RegId) {i j : Nat} (hi : i < r.place.n1) (hj : j < r.place.n2) :
    regAt (r.addr i j) = some (r, i, j) := by
  obtain ⟨as, bs, hl, hid, has⟩ := regPlaces_split r
  have hmem : ∀ q, q ∈ as ++ r.place :: bs → q ∈ regPlaces := fun q hq => hl ▸ hq
  have hp : r.place ∈ regPlaces := hmem _ (by simp)
  have hbefore : as.findSome? (fun q => q.at? (copyAddr r.place i j)) = none := by
    rw [List.findSome?_eq_none_iff]
    exact fun q hq => at?_eq_none_of_apart (apart_of_mem hp (hmem q (by simp [hq])) (by rw [hid]; exact has q hq)) hi hj
  change regAt (copyAddr r.place i j) = _
  rw [regAt, hl, List.findSome?_append, hbefore, Option.none_or, List.findSome?_cons,
    at?_copyAddr hi hj (List.all_eq_true.1 regPlaces_sound _ hp), hid]

/-- Settles O60: each place is sound, and any two are apart. -/
theorem everyRegisterCopyHasItsAddress : Obligations.EveryRegisterCopyHasItsAddress := by
  intro r i j hi hj
  obtain ⟨as, bs, hl, -⟩ := regPlaces_split r
  have hs : sound r.place = true := List.all_eq_true.1 regPlaces_sound _ (by rw [hl]; simp)
  obtain ⟨-, -, -, -, -, hlast⟩ := (sound_iff _).1 hs
  exact ⟨regAt_addr r hi hj, copyAddr_aligned hs i j, lt_of_le_of_lt (copyAddr_le_lastAddr hi hj) hlast⟩

/-- Copies of different registers have different addresses. -/
theorem addr_ne {r r' : RegId} (h : r ≠ r') {i j i' j' : Nat} (hi : i < r.place.n1) (hj : j < r.place.n2)
    (hi' : i' < r'.place.n1) (hj' : j' < r'.place.n2) : r.addr i j ≠ r'.addr i' j' := fun he => by
  have hr := regAt_addr r hi hj
  rw [he, regAt_addr r' hi' hj'] at hr
  exact h (congrArg (fun o => (o.getD (r, 0, 0)).1) hr).symm

/-- Different copies of a register have different addresses. -/
theorem addr_copy_ne {r : RegId} {i j i' j' : Nat} (h : (i, j) ≠ (i', j')) (hi : i < r.place.n1) (hj : j < r.place.n2)
    (hi' : i' < r.place.n1) (hj' : j' < r.place.n2) : r.addr i j ≠ r.addr i' j' := fun he => by
  have hr := regAt_addr r hi hj
  rw [he, regAt_addr r hi' hj'] at hr
  exact h (congrArg (fun o => (o.getD (r, 0, 0)).2) hr).symm

end Sys2Proof.Proofs.RegisterPlaces
end

section
/-! PROOF. The V slot: what each group of operations leaves in an open word, and the operands that are reserved (R62 to R70, R93,
R96, R97). -/

namespace Sys2Proof.Proofs.VectorSlot

open Sys2Proof Sys2Proof.Machine Sys2Proof.Spec Sys2Proof.Proofs.LaneLoops

/-! ### Flags and elements -/

/-- The flags of an operation, flag by flag (R71). -/
theorem flagMask_eq (acc sat nan : Bool) : BitVec.ofBool nan ++ BitVec.ofBool sat ++ BitVec.ofBool acc =
    (if acc then 1 else 0 : BitVec 3) ||| ((if sat then 2 else 0) ||| (if nan then 4 else 0)) := by
  cases acc <;> cases sat <;> cases nan <;> rfl

theorem raiseFlags_eq (acc sat nan : Bool) (l slot : Nat) (k : LaneCore) (c : WordCtx) (s : State) :
    raiseFlags acc sat nan ⟨l, slot, k, c, s⟩ = ⟨l, slot, k,
      Spec.flagged c ((if acc then 1 else 0) ||| ((if sat then 2 else 0) ||| (if nan then 4 else 0))), s⟩ := by
  unfold raiseFlags Spec.flagged
  rw [flagMask_eq]

theorem any_range_four (r : Nat → Bool) : (List.range 4).any r = (r 0 || r 1 || r 2 || r 3) := by
  simp [List.range_succ, Bool.or_assoc]

/-- A result that lands and raises flags is one that lands, flagged. -/
theorem flagged_lands (c : WordCtx) (d : BitVec 6) (x : BitVec 128) (n : Nat) (p q : BitVec 3) :
    Spec.flagged (lands c d x n p) q = lands c d x n (p ||| q) := by
  simp [Spec.flagged, lands, BitVec.or_assoc]

theorem landLater_eq (d : BitVec 6) (x : BitVec 128) (n l slot : Nat) (k : LaneCore) (c : WordCtx) (s : State) :
    landLater d x n ⟨l, slot, k, c, s⟩ = ⟨l, slot, k, lands c d x n 0, s⟩ := by
  simp [landLater, lands]

/-- A result that lands and raises flags, as the helpers of the V slot write it. -/
theorem raiseFlags_landLater (acc sat nan : Bool) (d : BitVec 6) (x : BitVec 128) (n l slot : Nat) (k : LaneCore)
    (c : WordCtx) (s : State) : raiseFlags acc sat nan (landLater d x n ⟨l, slot, k, c, s⟩) = ⟨l, slot, k,
      lands c d x n ((if acc then 1 else 0) ||| ((if sat then 2 else 0) ||| (if nan then 4 else 0))), s⟩ := by
  rw [landLater_eq, raiseFlags_eq, flagged_lands]
  simp

theorem joinW_getLsbD (f : Nat → BitVec 32) {i : Nat} (h : i < 128) :
    (joinW f).getLsbD i = (f (i / 32)).getLsbD (i % 32) := by
  change BitVec.getLsbD (w := 32 + 32 + 32 + 32) (f 3 ++ f 2 ++ f 1 ++ f 0) i = _
  simp only [BitVec.getLsbD_append]
  have hk : i / 32 = 0 ∨ i / 32 = 1 ∨ i / 32 = 2 ∨ i / 32 = 3 := by omega
  rcases hk with hk | hk | hk | hk <;> rw [hk] <;> grind

theorem joinW_elemW (x : BitVec 128) : joinW (elemW x) = x := by
  refine BitVec.eq_of_getLsbD_eq fun i h => ?_
  rw [joinW_getLsbD _ h, elemW, BitVec.getLsbD_extractLsb', decide_eq_true (Nat.mod_lt i (by decide)), Bool.true_and,
    Nat.div_add_mod]

theorem joinW_and (f g : Nat → BitVec 32) : joinW (fun i => f i &&& g i) = joinW f &&& joinW g := by
  refine BitVec.eq_of_getLsbD_eq fun i h => ?_
  simp only [BitVec.getLsbD_and, joinW_getLsbD _ h]

theorem joinW_xor (f g : Nat → BitVec 32) : joinW (fun i => f i ^^^ g i) = joinW f ^^^ joinW g := by
  refine BitVec.eq_of_getLsbD_eq fun i h => ?_
  simp only [BitVec.getLsbD_xor, joinW_getLsbD _ h]

/-! ### What each group of operations leaves -/

section
variable {w : Issue} {s : State} {c : WordCtx} (hw : WordOpen w s c) {i : Instr}
include hw

/-- An operation of the V slot that replaces registers and context. -/
theorem exec_of_ok {op : Work → OpResult} {core : LaneCore} {c' : WordCtx} (hi : exec i s = .next (laneOp w 0 op s))
    (h : op ⟨w.lane, 0, (laneAt s w.lane).core, c, s⟩ = .ok ⟨w.lane, 0, core, c', s⟩) :
    exec i s = .next (withLane w core c' s) :=
  hi.trans (congrArg _ (laneOp_eq_withLane 0 hw h))

section
variable (f : VFields)

theorem exec_of_vec2 (n : Nat) (fn : BitVec 32 → BitVec 32 → BitVec 32 × Bool)
    (hi : exec i s = .next (laneOp w 0 (vec2 n fn f) s)) :
    exec i s = floatLands w f.d n (fun i => fn (elemW (readV c.core0 f.a) i) (elemW (readV c.core0 f.b) i)) c s := by
  refine exec_of_ok hw hi ?_
  simp [vec2, raiseFlags_landLater, satIf, any_range_four]

theorem exec_of_vec3 (n : Nat) (fn : BitVec 32 → BitVec 32 → BitVec 32 → BitVec 32 × Bool)
    (hi : exec i s = .next (laneOp w 0 (vec3 n fn f) s)) :
    exec i s = floatLands w f.d n (fun i => fn (elemW (readV c.core0 f.a) i) (elemW (readV c.core0 f.b) i)
      (elemW (readV c.core0 f.c) i)) c s := by
  refine exec_of_ok hw hi ?_
  simp [vec3, raiseFlags_landLater, satIf, any_range_four]

theorem exec_of_raw (fn : BitVec 128 → BitVec 128 → BitVec 128 → BitVec 128)
    (hi : exec i s = .next (laneOp w 0 (raw fn f) s)) :
    exec i s = rawLands w f.d (fn (readV c.core0 f.a) (readV c.core0 f.b) (readV c.core0 f.c)) c s :=
  exec_of_ok hw hi (congrArg OpResult.ok (landLater_eq ..))

theorem exec_of_fixH (fn : Int → Int → Int × Bool) (hi : exec i s = .next (laneOp w 0 (fixH fn f) s)) :
    exec i s = halvesLand w f.d
      (fun i => fn (elemH (readV c.core0 f.a) i).toInt (elemH (readV c.core0 f.b) i).toInt) c s := by
  refine exec_of_ok hw hi ?_
  simp [fixH, raiseFlags_landLater, satIf]

theorem exec_of_shiftH (fn : Nat → Int → Int × Bool) (hn : f.imm.toNat % 32 < 16)
    (hi : exec i s = .next (laneOp w 0 (shiftH fn f) s)) :
    exec i s = halvesLand w f.d (fun i => fn (f.imm.toNat % 32) (elemH (readV c.core0 f.a) i).toInt) c s := by
  refine exec_of_fixH hw f (fun a _ => fn (f.imm.toNat % 32) a) (hi.trans ?_)
  have hop : shiftH fn f = fixH (fun a _ => fn (f.imm.toNat % 32) a) f := funext fun _ => if_pos hn
  rw [hop]

theorem exec_of_fixW (fn : Int → Int → Int × Bool) (hi : exec i s = .next (laneOp w 0 (fixW fn f) s)) :
    exec i s = wordsLand w f.d
      (fun i => fn (elemW (readV c.core0 f.a) i).toInt (elemW (readV c.core0 f.b) i).toInt) c s := by
  refine exec_of_ok hw hi ?_
  simp [fixW, raiseFlags_landLater, satIf]

theorem exec_of_mac16 (sub : Bool) (hi : exec i s = .next (laneOp w 0 (mac16 sub f) s)) :
    let p := fun i => satTo2 32 (2 * ((elemH (readV c.core0 f.a) i).toInt * (elemH (readV c.core0 f.b) i).toInt))
    let q := fun i => satTo2 32 ((elemW (readV c.core0 f.d) i).toInt + (if sub then -(p i).1 else (p i).1))
    exec i s = wordsLand w f.d (fun i => ((q i).1, (p i).2 || (q i).2)) c s := by
  refine exec_of_ok hw hi ?_
  simp [mac16, raiseFlags_landLater, satIf]

theorem exec_of_accVec (reads : Bool) (fn : BitVec 48 → BitVec 32 → BitVec 32 → BitVec 48 × Bool) (hd : f.d.toNat < 8)
    (hi : exec i s = .next (laneOp w 0 (accVec reads fn f) s)) :
    let r := fun i => fn (elemA (readAcc c.core0 f.d.toNat) i) (elemW (readV c.core0 f.a) i) (elemW (readV c.core0 f.b) i)
    exec i s = accTakes w f.d.toNat (joinA (fun i => (r i).1)) (ovfIf (fun i => (r i).2))
      (if reads then c.await [32 + f.d.toNat] else c) s := by
  refine exec_of_ok hw hi ?_
  cases reads <;> simp [accVec, accOf, hd, setAcc, await, raiseFlags_eq, ovfIf, any_range_four]

end

/-- An operand of the V slot that R93 reserves is ILLEGAL. -/
theorem exec_of_illegal {op : Work → OpResult} (hi : exec i s = .next (laneOp w 0 op s))
    (h : ∀ x : Work, op x = illegal x) : exec i s = .next (laneFault w.lane 1 0 c.core0.pc.toNat 0 s) :=
  hi.trans (congrArg _ (laneOp_eq_laneFault 0 hw (by decide) (h _)))

end

/-! ### Reserved operands (R93) -/

theorem accOf_eq_none {n : BitVec 6} (h : 8 ≤ n.toNat) : accOf n = none := if_neg (Nat.not_lt.2 h)

/-- The immediate's low six bits as a scale: -32 is the one pattern with bit 5 alone set. -/
theorem scale_eq_iff (imm : BitVec 7) : (imm.setWidth 6).toInt = -32 ↔ imm.toNat % 64 = 32 := by
  have h := imm.isLt
  simp only [BitVec.toInt_eq_toNat_cond, BitVec.toNat_setWidth]
  split <;> omega

theorem scaleOf_reserved {imm : BitVec 7} (h : imm.toNat % 64 = 32) : scaleOf imm = none := if_pos ((scale_eq_iff imm).2 h)

theorem scaleOf_allowed {imm : BitVec 7} (h : imm.toNat % 64 ≠ 32) : scaleOf imm = some (imm.setWidth 6).toInt :=
  if_neg (h ∘ (scale_eq_iff imm).1)

/-- Settles O1: the helper of each operation finds the reserved operand and is `illegal`. -/
theorem reservedOperandsOfTheVSlotFault : Obligations.ReservedOperandsOfTheVSlotFault := by
  intro w f s c hw ill
  refine ⟨fun hd => ?_, fun ha => ?_, fun hs => ?_, fun hn => ?_⟩
  · have hacc : ∀ reads fn x, accVec reads fn f x = illegal x := fun _ _ _ => by rw [accVec, accOf_eq_none hd]
    have hred : ∀ x, accRed f x = illegal x := fun _ => by rw [accRed, accOf_eq_none hd]
    exact ⟨exec_of_illegal hw rfl (hacc _ _), exec_of_illegal hw rfl (hacc _ _), exec_of_illegal hw rfl (hacc _ _),
      exec_of_illegal hw rfl (hacc _ _), exec_of_illegal hw rfl (hacc _ _), exec_of_illegal hw rfl (hacc _ _),
      exec_of_illegal hw rfl (hacc true _), exec_of_illegal hw rfl hred⟩
  · exact exec_of_illegal hw rfl fun _ => by rw [accStoreV, accOf_eq_none ha]
  · exact ⟨exec_of_illegal hw rfl fun _ => by rw [cvtHf, scaleOf_reserved hs],
      exec_of_illegal hw rfl fun _ => by rw [cvtFh, scaleOf_reserved hs],
      exec_of_illegal hw rfl fun _ => by rw [cvtWf, scaleOf_reserved hs],
      exec_of_illegal hw rfl fun _ => by rw [cvtFw, scaleOf_reserved hs]⟩
  · have hshift : ∀ fn x, shiftH fn f x = illegal x := fun _ _ => if_neg (Nat.not_lt.2 hn)
    exact ⟨exec_of_illegal hw rfl (hshift _), exec_of_illegal hw rfl (hshift _)⟩

/-! ### Accumulators and conversions (R65, R67, R69) -/

theorem accumulatorOperations : AccumulatorOperationsReplaceTheAccumulator := by
  intro w f s c hw hd
  have red : exec (.ared w f) s = accTakes w f.d.toNat (accReduce (readAcc c.core0 f.d.toNat)).1
      (if (accReduce (readAcc c.core0 f.d.toNat)).2 then 1 else 0)
      { c.await [32 + f.d.toNat] with locks := (c.await [32 + f.d.toNat]).locks ++ [(32 + f.d.toNat, 4)] } s := by
    refine exec_of_ok hw rfl ?_
    simp [accRed, accOf, hd, setAcc, lockLater, await, raiseFlags_eq]
  refine ⟨exec_of_accVec hw f false (fun _ _ _ => (0, false)) hd rfl, exec_of_accVec hw f false accLoad hd rfl,
    exec_of_accVec hw f true accAdd hd rfl, exec_of_accVec hw f true accMac hd rfl,
    exec_of_accVec hw f true accMsc hd rfl, exec_of_accVec hw f true accMul hd rfl, ?_, red⟩
  exact exec_of_accVec hw f true (fun x _ _ => accOp [ofAcc x] (scaleNum f.imm.toInt (ofAcc x))) hd rfl

theorem conversions : ConversionsLandTheirElements := by
  intro w f s c hw
  refine ⟨fun ha => exec_of_ok hw rfl ?_, fun hs => ⟨exec_of_ok hw rfl ?_, exec_of_ok hw rfl ?_, exec_of_ok hw rfl ?_,
    exec_of_ok hw rfl ?_⟩⟩
  · simp [accStoreV, accOf, ha, await, raiseFlags_landLater, satIf, nanIf]
  · simp only [cvtHf, scaleOf_allowed hs, landLater_eq]
  · simp [cvtFh, scaleOf_allowed hs, raiseFlags_landLater, satIf, nanIf]
  · simp only [cvtWf, scaleOf_allowed hs, landLater_eq]
  · simp [cvtFw, scaleOf_allowed hs, raiseFlags_landLater, satIf, nanIf]

/-- Settles O2: `exec_of_accVec` for the accumulators, the helpers of Table 6 for the rest. -/
theorem accumulatorsAndConversionsTakeTheirElements : Obligations.AccumulatorsAndConversionsTakeTheirElements :=
  ⟨accumulatorOperations, conversions⟩

/-! ### Vector operations (R62, R70) -/

theorem floatOperations : FloatOperationsLandTheirElements := by
  intro w f s c hw
  exact ⟨exec_of_vec2 hw f 4 f32Add rfl, exec_of_vec2 hw f 4 f32Sub rfl, exec_of_vec2 hw f 4 f32Mul rfl,
    exec_of_vec3 hw f 4 f32Fma rfl, exec_of_vec3 hw f 4 f32Fms rfl, exec_of_vec2 hw f 4 f32Min rfl,
    exec_of_vec2 hw f 4 f32Max rfl, exec_of_vec2 hw f 6 (fun a _ => f32Rcp a) rfl,
    exec_of_vec2 hw f 6 (fun a _ => f32Rsq a) rfl, exec_of_vec2 hw f 4 (f32Cmp eqNum) rfl,
    exec_of_vec2 hw f 4 (f32Cmp ltNum) rfl, exec_of_vec2 hw f 4 (f32Cmp fun x y => ltNum x y || eqNum x y) rfl⟩

theorem rawOperations : RawOperationsLandTheirBits := by
  intro w f s c hw a b e
  have habs : joinW (fun i => elemW a i &&& 0x7FFFFFFF) = a &&& 0x7FFFFFFF7FFFFFFF7FFFFFFF7FFFFFFF := by
    rw [joinW_and, joinW_elemW]
    rfl
  have hneg : joinW (fun i => elemW a i ^^^ 0x80000000) = a ^^^ 0x80000000800000008000000080000000 := by
    rw [joinW_xor, joinW_elemW]
    rfl
  rw [habs, hneg]
  exact ⟨exec_of_raw hw f (fun a _ _ => a &&& 0x7FFFFFFF7FFFFFFF7FFFFFFF7FFFFFFF) rfl,
    exec_of_raw hw f (fun a _ _ => a ^^^ 0x80000000800000008000000080000000) rfl, exec_of_raw hw f (fun a _ _ => a) rfl,
    exec_of_raw hw f (fun a b _ => a &&& b) rfl, exec_of_raw hw f (fun a b _ => a ||| b) rfl,
    exec_of_raw hw f (fun a b _ => a ^^^ b) rfl, exec_of_raw hw f (fun m a b => (m &&& a) ||| (~~~m &&& b)) rfl,
    exec_of_raw hw f (fun a _ _ => joinW (fun _ => elemW a (f.imm.toNat % 4))) rfl⟩

theorem halfElementOperations : HalfElementOperationsLandTheirElements := by
  intro w f s c hw
  exact ⟨exec_of_fixH hw f (fun a b => (a + b, false)) rfl, exec_of_fixH hw f (fun a b => (a - b, false)) rfl,
    exec_of_fixH hw f (fun a b => satTo2 16 (a + b)) rfl, exec_of_fixH hw f (fun a b => satTo2 16 (a - b)) rfl,
    exec_of_fixH hw f (fun a b => satTo2 16 (a * b / 32768)) rfl,
    exec_of_fixH hw f (fun a b => satTo2 16 ((a * b + 16384) / 32768)) rfl,
    exec_of_fixH hw f (fun a _ => satTo2 16 (a.natAbs : Int)) rfl, exec_of_fixH hw f (fun a _ => satTo2 16 (-a)) rfl,
    exec_of_fixH hw f (fun a _ => (norm 16 a, false)) rfl, fun hn =>
      ⟨exec_of_shiftH hw f (fun n a => satTo2 16 (a * 2 ^ n)) hn rfl,
        exec_of_shiftH hw f (fun n a => (a / 2 ^ n, false)) hn rfl⟩⟩

theorem wordElementOperations : WordElementOperationsLandTheirElements := by
  intro w f s c hw
  refine ⟨exec_of_fixW hw f (fun a b => satTo2 32 (a + b)) rfl, exec_of_fixW hw f (fun a b => satTo2 32 (a - b)) rfl,
    exec_of_fixW hw f (fun a _ => satTo2 32 (a * 2 ^ (f.imm.toNat % 32))) rfl,
    exec_of_fixW hw f (fun a _ => (a / 2 ^ (f.imm.toNat % 32), false)) rfl,
    exec_of_fixW hw f (fun a _ => (norm 32 a, false)) rfl, exec_of_mac16 hw f false rfl, ?_, exec_of_ok hw rfl ?_⟩
  · simpa only [if_true, ← Int.sub_eq_add_neg] using exec_of_mac16 hw f true (i := .vlmscW w f) rfl
  · simp [roundW, raiseFlags_landLater, satIf]

/-- Settles O3: one lemma for each helper of the V slot. -/
theorem vectorOperationsLandTheirElements : Obligations.VectorOperationsLandTheirElements :=
  ⟨floatOperations, rawOperations, halfElementOperations, wordElementOperations⟩

end Sys2Proof.Proofs.VectorSlot
end

section
/-! PROOF. The S slot: scalar results, branches, special registers (R71, R72, R83, R90, R95, R97). -/

namespace Sys2Proof.Proofs.ScalarSlot

open Sys2Proof Sys2Proof.Machine Sys2Proof.Spec Sys2Proof.Proofs.LaneLoops

/-! ### Words and the numbers they stand for (R95) -/

section
variable (a b : Word) (n : Nat)

theorem ofNat_toNat_add : BitVec.ofNat 32 (a.toNat + b.toNat) = a + b := by simp [BitVec.ofNat_add]

theorem ofInt_toNat_sub : BitVec.ofInt 32 (a.toNat - b.toNat) = a - b := by
  refine BitVec.eq_of_toInt_eq ?_
  rw [BitVec.toInt_ofInt, BitVec.toInt_sub, BitVec.toInt_eq_toNat_bmod, BitVec.toInt_eq_toNat_bmod, Int.bmod_sub_bmod,
    Int.sub_bmod_bmod]

theorem ofNat_toNat_mul : BitVec.ofNat 32 (a.toNat * b.toNat) = a * b := by simp [BitVec.ofNat_mul]

theorem ofNat_toNat_shl : BitVec.ofNat 32 (a.toNat * 2 ^ n) = a <<< n := by
  refine BitVec.eq_of_toNat_eq ?_
  rw [BitVec.toNat_ofNat, BitVec.toNat_shiftLeft, Nat.shiftLeft_eq]

theorem ofNat_toNat_shr : BitVec.ofNat 32 (a.toNat / 2 ^ n) = a >>> n := by
  refine BitVec.eq_of_toNat_eq ?_
  rw [BitVec.toNat_ofNat, BitVec.toNat_ushiftRight, Nat.shiftRight_eq_div_pow,
    Nat.mod_eq_of_lt (lt_of_le_of_lt (Nat.div_le_self _ _) a.isLt)]

theorem ofInt_toInt_sra : BitVec.ofInt 32 (a.toInt / 2 ^ n) = a.sshiftRight n := by
  have h : (a.sshiftRight n).toInt = a.toInt / 2 ^ n := by
    rw [BitVec.toInt_sshiftRight, Int.shiftRight_eq_div_pow]
    norm_cast
  rw [← h, BitVec.ofInt_toInt]

theorem ite_slt : (if a.toInt < b.toInt then 1 else 0 : Word) = if a.slt b then 1 else 0 := by
  simp only [BitVec.slt_iff_toInt_lt]

theorem ite_ult : (if a.toNat < b.toNat then 1 else 0 : Word) = if a.ult b then 1 else 0 := by
  simp only [BitVec.ult, decide_eq_true_eq]

end

/-- The low five bits of an immediate are those of its extension to 32 bits. -/
theorem shiftBy_signExtend (i : BitVec 13) : shiftBy (i.signExtend 32) = i.toNat % 32 := by
  have h := i.isLt
  unfold shiftBy
  rw [BitVec.toNat_signExtend]
  split <;> simp only [BitVec.toNat_setWidth] <;> omega

theorem movHigh_eq (i : BitVec 16) (x : Word) :
    BitVec.ofNat 32 (i.toNat * 65536 + x.toNat % 65536) = i ++ x.setWidth 16 := by
  have h := i.isLt
  refine BitVec.eq_of_toNat_eq ?_
  rw [BitVec.toNat_append, BitVec.toNat_ofNat, BitVec.toNat_setWidth, ← Nat.shiftLeft_add_eq_or_of_lt (by omega),
    Nat.shiftLeft_eq]
  omega

theorem movLow_eq (i : BitVec 16) (x : Word) :
    BitVec.ofNat 32 (x.toNat / 65536 * 65536 + i.toNat) = x.extractLsb' 16 16 ++ i := by
  have h := i.isLt
  have hx := x.isLt
  refine BitVec.eq_of_toNat_eq ?_
  rw [BitVec.toNat_append, BitVec.toNat_ofNat, BitVec.extractLsb'_toNat, ← Nat.shiftLeft_add_eq_or_of_lt h,
    Nat.shiftLeft_eq, Nat.shiftRight_eq_div_pow]
  omega

theorem nextAddr_eq (pc : BitVec 12) : (pc + 1).setWidth 32 = BitVec.ofNat 32 ((pc.toNat + 1) % 4096) := by
  refine BitVec.eq_of_toNat_eq ?_
  simp

/-! ### What each format leaves -/

section
variable {w : Issue} {s : State} {c : WordCtx} (hw : WordOpen w s c) {i : Instr}
include hw

/-- An operation that is carried out leaves its registers and its context in the state that it leaves around its lane. -/
theorem laneOp_of_ok {slot : Nat} {op : Work → OpResult} {core : LaneCore} {c' : WordCtx} {t : State}
    (h : op ⟨w.lane, slot, (laneAt s w.lane).core, c, s⟩ = .ok ⟨w.lane, slot, core, c', t⟩) :
    laneOp w slot op s = withLane w core c' t := by
  rw [laneOp_open w slot op s hw.runs hw.pushes hw.clocked hw.word hw.held hw.stage hw.more, h]
  rfl

/-- An operation of the S slot that replaces registers and context. -/
theorem exec_of_ok {op : Work → OpResult} {core : LaneCore} {c' : WordCtx} (hi : exec i s = .next (laneOp w 3 op s))
    (h : op ⟨w.lane, 3, (laneAt s w.lane).core, c, s⟩ = .ok ⟨w.lane, 3, core, c', s⟩) :
    exec i s = .next (withLane w core c' s) :=
  hi.trans (congrArg _ (laneOp_eq_withLane 3 hw h))

theorem exec_of_alu (f : AluFields) (fn : Word → Word → Word) (hi : exec i s = .next (laneOp w 3 (alu fn f) s)) :
    exec i s = scalarTakes w f.d.toNat (fn (readS c.core0 f.a.toNat) (readS c.core0 f.b.toNat))
      (c.await [f.a.toNat, f.b.toNat]) s :=
  exec_of_ok hw hi rfl

theorem exec_of_aluImm (f : ImmFields) (fn : Word → Word → Word) (hi : exec i s = .next (laneOp w 3 (aluImm fn f) s)) :
    exec i s = scalarTakes w f.d.toNat (fn (readS c.core0 f.a.toNat) (f.imm.signExtend 32)) (c.await [f.a.toNat]) s :=
  exec_of_ok hw hi rfl

/-- A branch that is taken names its target; one that is not leaves the word. -/
theorem exec_of_branch {op : Work → OpResult} {taken call : Bool} {t : BitVec 12} {core : LaneCore} {c' : WordCtx}
    (hi : exec i s = .next (laneOp w 3 op s))
    (h : op ⟨w.lane, 3, (laneAt s w.lane).core, c, s⟩ = branch taken call t ⟨w.lane, 3, core, c', s⟩) :
    exec i s = .next (withLane w core (if taken then { c' with jump := some t, call := call } else c') s) := by
  refine exec_of_ok hw hi (h.trans ?_)
  cases taken <;> rfl

end

theorem scalarOperations : ScalarOperationsWriteTheirResult := by
  intro w s c hw
  refine ⟨fun f => ?_, fun f => ?_, fun f => ?_⟩
  · simp only [ofNat_toNat_add, ofInt_toNat_sub, ofNat_toNat_shl, ofNat_toNat_shr, ofInt_toInt_sra, ofNat_toNat_mul,
      ite_slt, ite_ult]
    exact ⟨exec_of_alu hw f (· + ·) rfl, exec_of_alu hw f (· - ·) rfl, exec_of_alu hw f (· &&& ·) rfl,
      exec_of_alu hw f (· ||| ·) rfl, exec_of_alu hw f (· ^^^ ·) rfl, exec_of_alu hw f (fun a b => a <<< shiftBy b) rfl,
      exec_of_alu hw f (fun a b => a >>> shiftBy b) rfl, exec_of_alu hw f (fun a b => a.sshiftRight (shiftBy b)) rfl,
      exec_of_alu hw f (· * ·) rfl, exec_of_alu hw f (fun a b => if a = b then 1 else 0) rfl,
      exec_of_alu hw f (fun a b => if a.slt b then 1 else 0) rfl,
      exec_of_alu hw f (fun a b => if a.ult b then 1 else 0) rfl⟩
  · simp only [ofNat_toNat_shl, ofNat_toNat_shr, ofInt_toInt_sra, ← shiftBy_signExtend]
    exact ⟨exec_of_aluImm hw f (· + ·) rfl, exec_of_aluImm hw f (· &&& ·) rfl, exec_of_aluImm hw f (· ||| ·) rfl,
      exec_of_aluImm hw f (fun a b => a <<< shiftBy b) rfl, exec_of_aluImm hw f (fun a b => a >>> shiftBy b) rfl,
      exec_of_aluImm hw f (fun a b => a.sshiftRight (shiftBy b)) rfl⟩
  · intro x
    rw [apply_ite (BitVec.ofNat 32), movHigh_eq, movLow_eq]
    exact exec_of_ok hw (i := .mov16 w f) rfl rfl

theorem branches : BranchesNameTheWordThatFollows := by
  intro w f s c hw core a goes test stays
  have hbz := exec_of_branch hw (i := .bz w f) (taken := a == 0) rfl rfl
  have hbnz := exec_of_branch hw (i := .bnz w f) (taken := a != 0) rfl rfl
  refine ⟨exec_of_branch hw (taken := true) rfl rfl, hbz.trans ?_, hbnz.trans ?_, ?_,
    exec_of_branch hw (taken := true) rfl rfl⟩
  · by_cases ha : a = 0
    · rw [if_pos ha, if_pos (beq_iff_eq.2 ha)]
    · rw [if_neg ha, if_neg (mt beq_iff_eq.1 ha)]
  · by_cases ha : a = 0
    · rw [if_pos ha, if_neg (by simp [ha])]
    · rw [if_neg ha, if_pos (bne_iff_ne.2 ha)]
  · rw [← nextAddr_eq]
    exact exec_of_branch hw (i := .call w f) (taken := true) rfl rfl

/-- Settles O4: one lemma for each format; the words agree with the numbers that R95 names. -/
theorem scalarResultsAndBranches : Obligations.ScalarResultsAndBranches := ⟨scalarOperations, branches⟩

/-! ### Special registers: MFS (R72, R83) -/

section
variable {w : Issue} {f : SpecialFields} {s : State} {c : WordCtx} (hw : WordOpen w s c)
include hw

theorem exec_mfs_of_special {v : Word} (hid : f.id ≠ 0)
    (h : special ⟨w.lane, 3, (laneAt s w.lane).core, c, s⟩ f.id.toNat = some v) :
    exec (.mfs w f) s = scalarTakes w f.r.toNat v c s := by
  refine exec_of_ok hw rfl ?_
  simp only [moveFrom, h, if_neg hid]
  rfl

/-- A read of AFS takes a draw, so the state around the lane changes too (R72). -/
theorem exec_mfs_afs (hid : f.id = 0) : exec (.mfs w f) s = scalarTakes w f.r.toNat (BitVec.ofNat 32 c.core0.afs.toNat)
    { c with stall := c.stall + Config.freeNat s.free } (draw s) := by
  refine congrArg Host.Outcome.next (laneOp_of_ok hw ?_)
  rw [moveFrom, hid, BitVec.ofNat_toNat]
  rfl

theorem exec_mfs_reserved (hid : 13 ≤ f.id.toNat) :
    exec (.mfs w f) s = .next (laneFault w.lane 1 3 c.core0.pc.toNat 0 s) := by
  refine congrArg Host.Outcome.next (laneOp_eq_laneFault 3 hw (by decide) ?_)
  have hnone : ∀ x, special x f.id.toNat = none := fun x => by
    unfold special
    simp only [show ∀ n, n < 13 → f.id.toNat ≠ n from fun n hn => by omega, Nat.reduceLT, if_false]
  simp only [moveFrom, hnone]
  rfl

end

theorem special_vrb (x : Work) : special x 2 = some (BitVec.ofNat 32 x.ctx.core0.vrb.toNat) :=
  congrArg some (BitVec.ofNat_toNat ..).symm

/-- LC0 to LC2: the iterations remaining at a loop level, outermost first, or 0 (R83). -/
theorem special_level (x : Work) {j : Nat} (hj : j < 3) : special x (3 + j) =
    some (BitVec.ofNat 32 ((x.ctx.core0.loops.reverse[j]?.map (fun l => l.left)).getD 0)) := by
  have hlevel : ∀ o : Option LoopLevel, (match o with
      | some l => BitVec.ofNat 32 l.left
      | none => 0) = BitVec.ofNat 32 ((o.map (fun l => l.left)).getD 0) := fun o => by cases o <;> rfl
  have hj' : j = 0 ∨ j = 1 ∨ j = 2 := by omega
  rcases hj' with rfl | rfl | rfl <;> exact congrArg some (hlevel _)

theorem specialReads : SpecialRegistersReadIntoScalars := by
  intro w f s c hw k takes
  have hread : ∀ n v, f.id.toNat = n → n ≠ 0 →
      special ⟨w.lane, 3, (laneAt s w.lane).core, c, s⟩ n = some v → takes v := fun n v hn h0 h =>
    exec_mfs_of_special hw (fun h' => h0 (by rw [← hn, h']; rfl)) (hn ▸ h)
  refine ⟨exec_mfs_afs hw, fun h => ?_, fun h => ?_, fun j hj h => ?_, fun h => ?_, fun h => ?_, fun h => ?_, fun h => ?_,
    fun h => ?_, fun h => ?_, fun h => ?_, exec_mfs_reserved hw⟩
  · exact hread 1 _ (by rw [h]; rfl) (by decide) rfl
  · exact hread 2 _ (by rw [h]; rfl) (by decide) (special_vrb _)
  · exact hread (3 + j) _ h (by omega) (special_level _ hj)
  · exact hread 6 _ (by rw [h]; rfl) (by decide) rfl
  · exact hread 7 _ (by rw [h]; rfl) (by decide) rfl
  · exact hread 8 _ (by rw [h]; rfl) (by decide) rfl
  · exact hread 9 _ (by rw [h]; rfl) (by decide) rfl
  · exact hread 10 _ (by rw [h]; rfl) (by decide) rfl
  · exact hread 11 _ (by rw [h]; rfl) (by decide) rfl
  · exact hread 12 _ (by rw [h]; rfl) (by decide) rfl

/-! ### Special registers: MTS, and the end of the word (R71, R83) -/

/-- The special registers that neither a word's loops nor its AWR writes touch. -/
structure SameSpecials (k k' : LaneCore) : Prop where
  afs : k'.afs = k.afs
  agf : k'.agf = k.agf
  tick : k'.tick = k.tick
  clist : k'.clist = k.clist
  ccount : k'.ccount = k.ccount
  cidx : k'.cidx = k.cidx

theorem nextWord_specials (k : LaneCore) (x : WordCtx) : SameSpecials k (nextWord k x) := by
  unfold nextWord
  repeat' split
  all_goals exact ⟨rfl, rfl, rfl, rfl, rfl, rfl⟩

/-- AWR writes replace the address registers alone. -/
theorem foldl_awr_eq (l : List (Nat × Nat × Word)) (k : LaneCore) :
    ∃ a, l.foldl (fun c p => { c with a := tset c.a p.1 ((readA c p.1).put p.2.1 p.2.2) }) k = { k with a := a } := by
  induction l generalizing k with
  | nil => exact ⟨k.a, rfl⟩
  | cons p l ih => exact ih _

theorem closeWord_specials (k : LaneCore) (x : WordCtx) :
    let c := x.spec.foldl applySpecial (nextWord k x)
    (closeWord k x).afs = c.afs ||| x.flags ∧ (closeWord k x).agf = (c.agf || !x.folds.isEmpty) ∧
    (closeWord k x).vrb = c.vrb ∧ (closeWord k x).tick = c.tick ∧ (closeWord k x).clist = c.clist ∧
    (closeWord k x).ccount = c.ccount ∧ (closeWord k x).cidx = c.cidx := by
  intro c
  obtain ⟨a, ha⟩ := foldl_awr_eq x.awr c
  unfold closeWord
  simp only [c] at ha ⊢
  rw [ha]
  simp

/-- One MTS write, register by register. -/
theorem applySpecial_eq (c : LaneCore) (id : Nat) (v : Word) : applySpecial c (id, v) = { c with
    afs := if id = 0 then c.afs &&& ~~~(v.setWidth 3) else c.afs
    agf := c.agf && !(id == 1 && v.getLsbD 0)
    vrb := if id = 2 then v.setWidth 5 else c.vrb } := by
  unfold applySpecial
  by_cases h0 : id = 0
  · simp [h0]
  · by_cases h1 : id = 1
    · simp [h1]
    · have hb : (id == 1) = false := beq_eq_false_iff_ne.2 h1
      by_cases h2 : id = 2 <;> simp [h0, h1, h2, hb]

theorem specialWrites : SpecialWritesTakeEffectAtTheWordEnd := by
  refine ⟨fun w f s c hw => ⟨fun hid => exec_of_ok hw rfl ?_, fun hid => ?_⟩, fun k x id v hx => ?_⟩
  · rw [moveTo', if_pos hid]
    rfl
  · refine congrArg Host.Outcome.next (laneOp_eq_laneFault 3 hw (by decide) ?_)
    rw [moveTo', if_neg (Nat.not_lt.2 hid)]
    rfl
  · obtain ⟨hafs, hagf, hvrb, htick, hclist, hccount, hcidx⟩ := closeWord_specials k x
    have hn := nextWord_specials k x
    rw [hx, List.foldl_cons, List.foldl_nil, applySpecial_eq] at hafs hagf hvrb htick hclist hccount hcidx
    rw [hn.afs] at hafs
    rw [hn.agf] at hagf
    exact ⟨hafs, hagf, fun h => hvrb.trans (if_pos h), fun h => hvrb.trans (if_neg h), htick.trans hn.tick,
      hclist.trans hn.clist, hccount.trans hn.ccount, hcidx.trans hn.cidx⟩

/-- Settles O6: `special` for the reads, `closeWord_specials` for the writes. -/
theorem specialRegistersReadAndWrite : Obligations.SpecialRegistersReadAndWrite := ⟨specialReads, specialWrites⟩

end Sys2Proof.Proofs.ScalarSlot
end

section
/-! PROOF. CNEXT, TDONE and the queue operations of the S slot (R90, R98, R101, R302, R303, R308). -/

namespace Sys2Proof.Proofs.LaneQueues

open Sys2Proof Sys2Proof.Machine Sys2Proof.Spec Sys2Proof.Proofs.LaneLoops Sys2Proof.Proofs.ScalarSlot Sys2Proof.Proofs.Effects

/-! ### CNEXT (R101) -/

theorem cnextAdvances : CnextAdvancesTheIndex := by
  intro w s c hw
  have h : exec (.cnext w) s = .next (withLane w { (laneAt s w.lane).core with
      cidx := min (laneAt s w.lane).core.ccount ((laneAt s w.lane).core.cidx + 1) } c s) := exec_of_ok hw rfl rfl
  refine ⟨_, h, ?_⟩
  simp only [withLane, laneAt_putLane_same]
  refine ⟨fun hlt => Nat.min_eq_right hlt, fun hle => Nat.min_eq_left (Nat.le_succ_of_le hle), trivial, trivial,
    fun l hl => laneAt_putLane_other _ _ hl, rfl, rfl⟩

/-! ### TDONE (R90, R101) -/

/-- A lane after its word's end with TDONE in it: the tick ends in a state whose lane holds the closed word's registers. -/
theorem endWord_done {l : Nat} {s : State} {c : WordCtx} (hw : (laneAt s l).word = some c) (hd : c.done = true) :
    ∃ u, endWord l s = endTick l u ∧
      laneAt u l = { laneAt s l with core := closeWord (laneAt s l).core c, word := none } ∧
      u.rig = s.rig ∧ u.age = s.age := by
  obtain ⟨r, e, he⟩ := (regsEvents_commitArith l c.flags c.core0.pc.toNat
    (putLane l { laneAt s l with core := closeWord (laneAt s l).core c, word := none } s)).trans
    (RegsEvents.foldl (f := fun s a => setFold l a c.core0.pc.toNat s) (fun s a => regsEvents_setFold l a _ s) c.folds _)
  refine ⟨{ putLane l { laneAt s l with core := closeWord (laneAt s l).core c, word := none } s with regs := r, ev := e },
    ?_, laneAt_putLane_same _ _ _, rfl, rfl⟩
  rw [← he]
  simp only [endWord, hw, hd, if_true]

/-- The state in which a lane's tick has ended and no next one has begun. -/
def idled (l : Nat) (s : State) : State :=
  putLane l { laneAt s l with st := .idle, late := false, word := none, core := { (laneAt s l).core with loops := [] } }
    ((List.range 8).foldl (fun s port =>
      putArea l port { areaAt s l port with
        used := (areaAt s l port).used.filter (fun u => !(areaAt s l port).taken.contains u.1), taken := [] } s) s)

theorem endTick_eq (l : Nat) (s : State) :
    endTick l s = if (laneAt s l).late = true ∧ dispatches s l = true then startTick l (idled l s) else idled l s := rfl

theorem laneAt_idled (l : Nat) (s : State) : laneAt (idled l s) l =
    { laneAt s l with st := .idle, late := false, word := none, core := { (laneAt s l).core with loops := [] } } :=
  laneAt_putLane_same _ _ _

theorem laneAt_startTick (l : Nat) (s : State) :
    (laneAt (startTick l s) l).st = .running ∧ (laneAt (startTick l s) l).late = false ∧
    (laneAt (startTick l s) l).core.cidx = 0 ∧ (laneAt (startTick l s) l).core.loops = [] ∧
    (laneAt (startTick l s) l).core.cyc = 0 := by
  simp [startTick]

/-- The last operation of a word, carried out on a lane that goes on running, ends the word. -/
theorem laneOp_last {w : Issue} {slot : Nat} {op : Work → OpResult} {s t : State} {c c' : WordCtx} {core : LaneCore}
    (hr : (laneAt s w.lane).runs = true) (hq : laneStalled s w.lane = false)
    (hc : s.age.stopped.getLsbD (w.lane / 16) = false) (hw : (laneAt s w.lane).word = some c) (hh : c.held = false)
    (hs : stageRuns c.core0 w.stage = true) (hl : w.last = true)
    (h : op ⟨w.lane, slot, (laneAt s w.lane).core, c, s⟩ = .ok ⟨w.lane, slot, core, c', t⟩)
    (ht : (laneAt t w.lane).runs = true) : laneOp w slot op s = endWord w.lane (withLane w core c' t) := by
  have ho : openWord w s = s := by simp [openWord, hw]
  have hg : laneReady s w.lane = true := by simp [laneReady, laneGoes, Lane.waits, hr, hq, hc, hw, hh]
  have hafter : (laneAt (withLane w core c' t) w.lane).runs = true := by
    rw [withLane, laneAt_putLane_same]
    exact ht
  unfold laneOp runOp
  simp only [hg, ho, Bool.not_true, Bool.false_eq_true, if_false, hw, hs, if_true, h, hl, Bool.true_and]
  exact if_pos hafter

theorem tdoneEnds : TdoneEndsTheTick := by
  intro w s c hr hq hc hw hh hs hl
  have hop : exec (.tdone w) s = .next (endWord w.lane (withLane w (laneAt s w.lane).core { c with done := true } s)) :=
    congrArg Host.Outcome.next (laneOp_last hr hq hc hw hh hs hl rfl hr)
  have hlane : laneAt (withLane w (laneAt s w.lane).core { c with done := true } s) w.lane =
      { laneAt s w.lane with word := some { c with done := true } } := laneAt_putLane_same _ _ _
  obtain ⟨u, hu, hul, hrig, hage⟩ := endWord_done (l := w.lane) (congrArg Lane.word hlane) rfl
  have hlate : (laneAt u w.lane).late = (laneAt s w.lane).late := by rw [hul, hlane]
  have hdisp : dispatches u w.lane = dispatches s w.lane := by
    simp only [dispatches, hrig, hage]
    rfl
  refine ⟨_, hop, fun hnot => ?_, fun hl hd => ?_⟩
  · rw [hu, endTick_eq, if_neg (by simp [hlate, hnot]), laneAt_idled]
    exact ⟨rfl, rfl, rfl⟩
  · rw [hu, endTick_eq, if_pos ⟨hlate.trans hl, hdisp.trans hd⟩]
    exact laneAt_startTick _ _

/-! ### QPUSH (R98, R302, R303, R309) -/

/-- The bytes of a packet are its length in number. -/
theorem length_readBytes (m : List Host.Cell) (a n : Nat) : (Memory.readBytes m a n).length = n := by
  simp [Memory.readBytes]

/-- A run of bytes that meets no uncorrectable word meets none in any of its parts. -/
theorem badParts_eq_nil {s : State} {d n : Nat} (h : meetsUe s d n = false) : badParts s d n = [] := by
  refine List.filter_eq_nil_iff.2 fun i hi hbad => ?_
  rw [List.mem_range, wordsOf] at hi
  simp only [meetsUe, poisoned, poisonedIn, Bool.and_eq_true, decide_eq_true_eq, Bool.not_eq_true',
    List.isEmpty_eq_false_iff_exists_mem, List.mem_filter, Bool.and_eq_false_iff, decide_eq_false_iff_not, Bool.not_eq_false',
    List.isEmpty_iff, List.filter_eq_nil_iff] at h hbad
  obtain ⟨hpos, p, hp, h1, h2⟩ := hbad
  rcases h with h | h
  · omega
  · exact h p hp ⟨by omega, by omega⟩

theorem meetsUe_congr {s t : State} (h : t.poison = s.poison) (d n : Nat) : meetsUe t d n = meetsUe s d n := by
  simp only [meetsUe, poisoned, poisonedIn, h]

theorem pushTrouble_of_sound {l d n : Nat} {s : State} (h : meetsUe s d n = false) : pushTrouble l d n s = s := by
  rw [pushTrouble, h]
  rfl

theorem readS_writeS_same (n : Nat) (v : Word) (k : LaneCore) : readS (writeS n v k) n = if n = 0 then 0 else v := by
  unfold readS writeS
  split
  · rfl
  · exact tget_tset_same ..

/-- A lane's running digest is a field of the lane: nothing else is different (R433). -/
theorem digestPush_frame (l port q : Nat) (b : Bytes) (s : State) :
    (digestPush l port q b s).vcs = s.vcs ∧ (digestPush l port q b s).ques = s.ques ∧
    (digestPush l port q b s).mem = s.mem ∧ (digestPush l port q b s).poison = s.poison := by
  unfold digestPush
  split <;> exact ⟨rfl, rfl, rfl, rfl⟩

theorem pushing_congr {s t : State} (hq : t.ques = s.ques) (hv : t.vcs = s.vcs) (q k : Nat) :
    pushing t q k = pushing s q k := by
  simp only [pushing, vcAt, hq, hv]

/-- The data address, the length and the bytes that a QPUSH names (R98). -/
abbrev pushAddr (f : AluFields) (c : WordCtx) : Nat := (readS c.core0 f.a.toNat).toNat
@[inherit_doc pushAddr] abbrev pushLen (f : AluFields) (c : WordCtx) : Nat := (readS c.core0 f.b.toNat).toNat
@[inherit_doc pushAddr] abbrev pushBytes (w : Issue) (f : AluFields) (c : WordCtx) (s : State) : Bytes :=
  Memory.readBytes s.mem (laneBase w.lane + pushAddr f c) (pushLen f c)

/-- A push within data memory is not out of range. -/
theorem not_outside {f : AluFields} {c : WordCtx}
    (hin : pushLen f c = 0 ∨ pushAddr f c + pushLen f c ≤ 0x80000) :
    ¬ (pushLen f c ≠ 0 ∧ 0x80000 < pushAddr f c + pushLen f c) := by omega

section
variable {w : Issue} {f : AluFields} {s : State} {c : WordCtx} (hw : WordOpen w s c)
include hw

/-- No port of a lane that takes operations is still pushing. -/
theorem pushing_eq_false {port q k : Nat} (hp : port < 8) (h : lanePort s w.lane port = some (q, k)) :
    pushing s q k = false := by
  have := List.any_eq_false.1 hw.pushes port (List.mem_range.2 hp)
  simpa [h] using this

theorem exec_qpush_eq : exec (.qpush w f) s = .next (laneOp w 3 (pushOp f) s) := by
  change Host.Outcome.next (if (laneAt s w.lane).cut then passOp w (cutPush w f s) else laneOp w 3 (pushOp f) s) = _
  rw [hw.whole]
  rfl

theorem exec_qpush_outside (h : ¬ (pushLen f c = 0 ∨ pushAddr f c + pushLen f c ≤ 0x80000)) :
    exec (.qpush w f) s = .next (laneFault w.lane 3 3 c.core0.pc.toNat (pushAddr f c) s) := by
  refine (exec_qpush_eq hw).trans (congrArg _ (laneOp_eq_laneFault 3 hw (by decide) (if_pos ?_)))
  change pushLen f c ≠ 0 ∧ 0x80000 < pushAddr f c + pushLen f c
  omega

variable (hin : pushLen f c = 0 ∨ pushAddr f c + pushLen f c ≤ 0x80000)
include hin

theorem exec_qpush_unbound (hp : lanePort s w.lane (f.low.toNat % 8) = none) : exec (.qpush w f) s =
    scalarTakes w f.d.toNat (openStatus s.free) (c.await [f.a.toNat, f.b.toNat]) (draw s) := by
  refine (exec_qpush_eq hw).trans (congrArg _ (laneOp_of_ok hw ((if_neg (not_outside hin)).trans ?_)))
  simp only [await, hp]
  rfl

variable {q k : Nat} (hp : lanePort s w.lane (f.low.toNat % 8) = some (q, k))
  (hsound : meetsUe s (laneBase w.lane + pushAddr f c) (pushLen f c) = false)
include hp hsound

omit hw in
/-- The operation of a push of sound bytes that its queue settles at once: the status in its register, the queue and memory as
the start of the push left them. -/
theorem pushOp_settled {st : Nat} {u : State} (hpush : pushMarked q k (pushBytes w f c s) [] s = (u, st))
    (hpoison : u.poison = s.poison) (hdone : pushing u q k = false) :
    ∃ v, v.vcs = u.vcs ∧ v.mem = u.mem ∧ pushOp f ⟨w.lane, 3, (laneAt s w.lane).core, c, s⟩ =
      .ok ⟨w.lane, 3, writeS f.d.toNat (BitVec.ofNat 32 st) (laneAt s w.lane).core, c.await [f.a.toNat, f.b.toNat], v⟩ := by
  obtain ⟨hv, hq, hm, ho⟩ := digestPush_frame w.lane (f.low.toNat % 8) q (pushBytes w f c s) u
  have htrouble : ∀ v : State, v.poison = u.poison →
      pushTrouble w.lane (laneBase w.lane + pushAddr f c) (pushLen f c) v = v := fun v hv =>
    pushTrouble_of_sound ((meetsUe_congr (hv.trans hpoison) _ _).trans hsound)
  unfold pushOp
  simp only [await, setScalar, hp, badParts_eq_nil hsound, hpush, if_neg (not_outside hin)]
  by_cases h2 : st = 2
  · exact ⟨u, rfl, rfl, by rw [if_pos h2, h2]; rfl⟩
  · by_cases h0 : st = 0
    · refine ⟨digestPush w.lane (f.low.toNat % 8) q (pushBytes w f c s) u, hv, hm, ?_⟩
      rw [if_neg h2, if_pos h0, htrouble _ ho, pushing_congr hq hv, hdone]
      rfl
    · refine ⟨u, rfl, rfl, ?_⟩
      rw [if_neg h2, if_neg h0, htrouble u rfl, hdone]
      rfl

theorem exec_qpush_settled {st : Nat} {u : State} (hpush : pushMarked q k (pushBytes w f c s) [] s = (u, st))
    (hpoison : u.poison = s.poison) (hdone : pushing u q k = false) :
    ∃ t, exec (.qpush w f) s = .next t ∧
      readS (laneAt t w.lane).core f.d.toNat = (if f.d = 0 then 0 else BitVec.ofNat 32 st) ∧
      t.vcs = u.vcs ∧ t.mem = u.mem := by
  obtain ⟨v, hv, hm, hop⟩ := pushOp_settled hin hp hsound hpush hpoison hdone
  refine ⟨_, (exec_qpush_eq hw).trans (congrArg _ (laneOp_of_ok hw hop)), ?_, hv, hm⟩
  rw [withLane, laneAt_putLane_same]
  refine (readS_writeS_same ..).trans ?_
  simp only [show f.d = 0 ↔ f.d.toNat = 0 from BitVec.toNat_inj.symm]

end

/-! ### What a queue makes of a push (R302, R303) -/

section
variable {s : State} {q k v e : Nat} {b : Bytes} (hport : (tget? s.ques q).bind (fun x => x.ports[k]?) = some (v, e))
include hport

theorem pushMarked_badLength (h : b.length = 0 ∨ fget s .QUE_VC_CFG_max_bytes q v < b.length) :
    ∃ u, pushMarked q k b [] s = (u, 2) ∧ RegsEvents s u := by
  refine ⟨_, ?_, (regsEvents_fbump .QUE_DROPREC_bad_length 1 q 0 s).trans
    (regsEvents_raiseLimited 69 q 1 [(2, q), (1, v), (1, k), (2, b.length)] _)⟩
  simp only [pushMarked, hport, if_pos h]

variable (h0 : 0 < b.length) (hmax : b.length ≤ fget s .QUE_VC_CFG_max_bytes q v) (hidle : vcBusy (vcAt s q v) = false)
  (hwait : (vcAt s q v).wait = [])
include h0 hmax hidle hwait

/-- A packet of a good length starts at once on an idle VC. -/
theorem pushMarked_starts : pushMarked q k b [] s = startPacket q v k b [] s := by
  simp only [pushMarked, hport, hidle, hwait]
  rw [if_neg (by omega)]
  rfl

theorem pushMarked_dropped (hd : fbit s .QUE_VC_CFG_drop_capable q v = true) (hc : freeCredits s q v < wordsOf b.length) :
    ∃ u, pushMarked q k b [] s = (u, 8) ∧ RegsEvents s u := by
  refine ⟨_, ?_, (regsEvents_fbump .QUE_VC_STAT_drops 1 q v s).trans
    (regsEvents_raiseCountingBy 1 68 (4 * q + v) [(2, q), (1, v)] _)⟩
  rw [pushMarked_starts hport h0 hmax hidle hwait, startPacket, if_pos ⟨hd, hc⟩]
  rfl

/-- With credits for all of it a packet is stored whole. -/
theorem pushMarked_stored (hc : wordsOf b.length ≤ freeCredits s q v) :
    pushMarked q k b [] s = (putVc q v { vcAt s q v with pkts := (vcAt s q v).pkts ++
      [{ len := b.length, left := 0, port := k, rest := b.drop (8 * wordsOf b.length),
         words := packWords (wordsOf b.length) [] b }] } s, 0) := by
  rw [pushMarked_starts hport h0 hmax hidle hwait, startPacket, if_neg (by omega)]
  simp only [QPacket.take, Nat.min_eq_right hc, Nat.sub_self, List.nil_append]
  rfl

end

/-- A packet stored whole leaves no push in progress. -/
theorem pushing_stored {s : State} {q k v e : Nat} (hport : (tget? s.ques q).bind (fun x => x.ports[k]?) = some (v, e))
    {p : QPacket} (hp : p.left = 0) :
    pushing (putVc q v { vcAt s q v with pkts := (vcAt s q v).pkts ++ [p] } s) q k = pushing s q k := by
  simp [pushing, putVc, hport, vcAt, hp]

theorem vcAt_putVc_same (q v : Nat) (x : Vc) (s : State) : vcAt (putVc q v x s) q v = x := tget_tset_same ..

theorem vcAt_congr {s t : State} (h : t.vcs = s.vcs) (q v : Nat) : vcAt t q v = vcAt s q v := by simp only [vcAt, h]

theorem pushes : PushesReachTheirQueue := by
  intro w f s c hw a n port result inside
  refine ⟨exec_qpush_outside hw, exec_qpush_unbound hw, fun q k v e hin hp hport hsound => ?_⟩
  have hidlePort : pushing s q k = false := pushing_eq_false hw (Nat.mod_lt _ (by decide)) hp
  have hlen : (pushBytes w f c s).length = n := length_readBytes ..
  refine ⟨fun hbad => ?_, fun h0 hmax hidle hwait => ⟨fun hc => ?_, fun hd hc => ?_⟩⟩
  · obtain ⟨u, hu, r, ev, rfl⟩ := pushMarked_badLength hport (hlen ▸ hbad)
    obtain ⟨t, ht, hres, hv, hm⟩ := exec_qpush_settled hw hin hp hsound hu rfl hidlePort
    exact ⟨t, ht, hres, vcAt_congr hv q v, hm⟩
  · have hu := pushMarked_stored hport (hlen ▸ h0) (hlen ▸ hmax) hidle hwait (hlen ▸ hc)
    obtain ⟨t, ht, hres, hv, hm⟩ := exec_qpush_settled hw hin hp hsound hu rfl ((pushing_stored hport rfl).trans hidlePort)
    refine ⟨t, ht, hres, hm, ?_⟩
    rw [vcAt_congr hv, vcAt_putVc_same, hlen]
  · obtain ⟨u, hu, r, ev, rfl⟩ := pushMarked_dropped hport (hlen ▸ h0) (hlen ▸ hmax) hidle hwait hd (hlen ▸ hc)
    obtain ⟨t, ht, hres, hv, hm⟩ := exec_qpush_settled hw hin hp hsound hu rfl hidlePort
    exact ⟨t, ht, hres, vcAt_congr hv q v, hm⟩

/-! ### QNOTE and QWAIT (R98, R307, R308) -/

section
variable {w : Issue} {f : AluFields} {s : State} {c : WordCtx}

theorem openWord_of_word (hw : (laneAt s w.lane).word = some c) : openWord w s = s := by simp [openWord, hw]

/-- QWAIT where its stage runs and its port holds no notice: the lane stalls in the word. -/
theorem exec_qwait_stalls (hg : laneGoes s w.lane = true) (hw : (laneAt s w.lane).word = some c)
    (hs : stageRuns c.core0 w.stage = true) (hn : noticeDue s (areaAt s w.lane (f.low.toNat % 8)) = none) :
    exec (.qwait w f) s = .next (withLane w (laneAt s w.lane).core { c with held := true } s) := by
  change execQwait w f s = _
  simp only [execQwait, hg, openWord_of_word hw, hw, hs, hn, stallWait]
  rfl

/-- QWAIT where its stage is off or its port holds a notice. -/
theorem exec_qwait_goesOn (hg : laneGoes s w.lane = true) (hw : (laneAt s w.lane).word = some c)
    (h : stageRuns c.core0 w.stage = false ∨ (noticeDue s (areaAt s w.lane (f.low.toNat % 8))).isSome = true) :
    exec (.qwait w f) s = .next (runOp w 3 goOn s) := by
  have hgo : (stageRuns c.core0 w.stage && (noticeDue s (areaAt s w.lane (f.low.toNat % 8))).isNone) = false := by
    rcases h with h | h <;> simp [h]
  change execQwait w f s = _
  simp only [execQwait, hg, openWord_of_word hw, hw, hgo]
  rfl

/-- An operation of an open word, not its last, whose stage runs. -/
theorem runOp_of_ok {slot : Nat} {op : Work → OpResult} {core : LaneCore} {c' : WordCtx} {t : State}
    (hw : (laneAt s w.lane).word = some c) (hs : stageRuns c.core0 w.stage = true) (hl : w.last = false)
    (h : op ⟨w.lane, slot, (laneAt s w.lane).core, c, s⟩ = .ok ⟨w.lane, slot, core, c', t⟩) :
    runOp w slot op s = withLane w core c' t := by
  simp only [runOp, hw, hs, h, hl]
  rfl

theorem runOp_skipped {slot : Nat} {op : Work → OpResult} (hw : (laneAt s w.lane).word = some c)
    (hs : stageRuns c.core0 w.stage = false) (hl : w.last = false) : runOp w slot op s = s := by
  simp [runOp, hw, hs, hl]

end

theorem laneGoes_of_wordOpen {w : Issue} {s : State} {c : WordCtx} (hw : WordOpen w s c) : laneGoes s w.lane = true := by
  simp [laneGoes, hw.runs, hw.pushes, hw.clocked]

theorem notices : NoticesAreTakenInOrder := by
  constructor
  · intro w f s c hw core p x freed
    refine ⟨fun hn => ⟨?_, ?_⟩, fun n hn => ⟨?_, ?_⟩, fun n t rest hx => ⟨?_, ?_⟩⟩
    · exact exec_qwait_stalls (laneGoes_of_wordOpen hw) hw.word hw.stage hn
    · refine congrArg Host.Outcome.next (laneOp_of_ok hw ?_)
      have hn' : noticeDue s (freeTaken x) = none := hn
      simp only [noteOp, p, x] at hn' ⊢
      rw [hn']
      rfl
    · refine (exec_qwait_goesOn (laneGoes_of_wordOpen hw) hw.word (.inr (Option.isSome_of_eq_some hn))).trans ?_
      refine congrArg Host.Outcome.next (runOp_of_ok hw.word hw.stage hw.more ?_)
      simp only [goOn, hw.held]
      rfl
    · refine congrArg Host.Outcome.next (laneOp_of_ok hw ?_)
      have hn' : noticeDue s (freeTaken x) = some n := hn
      simp only [noteOp, p, x] at hn' ⊢
      rw [hn']
      rfl
    · intro ht
      simp [noticeDue, hx, ht]
    · intro ht
      simp [noticeDue, hx, Nat.not_le.2 ht]
  · intro w f s c hg hw core due
    refine ⟨fun hs hl => ?_, fun hs hh => ⟨fun hd => ?_, fun hd hl => ?_⟩⟩
    · refine (exec_qwait_goesOn hg hw (.inl hs)).trans ?_
      rw [runOp_skipped hw hs hl]
    · rw [exec_qwait_stalls hg hw hs hd, ← hh]
    · refine (exec_qwait_goesOn hg hw (.inr hd)).trans (congrArg Host.Outcome.next (runOp_of_ok hw hs hl ?_))
      simp only [goOn, hh]
      rfl

/-- Settles O7: the list, the tick, the pushes and the notices. -/
theorem listTickAndQueueOperations : Obligations.ListTickAndQueueOperations := ⟨cnextAdvances, tdoneEnds, pushes, notices⟩

end Sys2Proof.Proofs.LaneQueues
end

section
/-! PROOF. The LS slots: loads, stores, address operations, and the accesses that fault (R63, R68, R74 to R78, R81, R84 to R87,
R94, R102). -/

namespace Sys2Proof.Proofs.LoadStore

open Sys2Proof Sys2Proof.Machine Sys2Proof.Spec Sys2Proof.Proofs.LaneLoops Sys2Proof.Proofs.ScalarSlot
open Sys2Proof.Proofs.Effects

/-! ### What an access leaves beside its data -/

/-- The address registers after an LS operation's pointer update (R85, R94). -/
def movedRegs (f : LsFields) (z : Nat) (k : LaneCore) : Tab AReg :=
  let n := f.areg.toNat
  let a := readA k n
  if f.mode = 1 then tset k.a n { a with p := postModify a a.m.toInt }
  else if f.mode = 2 then tset k.a n { a with p := postModify a (f.imm.toInt * (z : Int)) }
  else k.a

theorem readA_movedRegs_same (w : Issue) (f : LsFields) (z : Nat) (s : State) (k : LaneCore) :
    readA { k with a := movedRegs f z (laneAt s w.lane).core } f.areg.toNat = pointerAfter w f z s := by
  unfold pointerAfter movedRegs pointer
  by_cases h1 : f.mode = 1
  · simp only [h1, if_true]
    exact tget_tset_same ..
  · by_cases h2 : f.mode = 2
    · simp only [h2, if_true]
      exact tget_tset_same ..
    · simp only [h1, h2, if_false]
      rfl

theorem readA_movedRegs_other (f : LsFields) (z : Nat) (k k' : LaneCore) {n : Nat} (h : n ≠ f.areg.toNat) :
    readA { k' with a := movedRegs f z k } n = readA k n := by
  unfold movedRegs
  by_cases h1 : f.mode = 1
  · simp only [h1, if_true]
    exact tget_tset_other _ _ _ h
  · by_cases h2 : f.mode = 2
    · simp only [h2, if_true]
      exact tget_tset_other _ _ _ h
    · simp only [h1, h2, if_false]
      rfl

/-- A post-modify moves the pointer, and notes a fold in the word's context. -/
theorem moveTo_eq (n : Nat) (m : Int) (l slot : Nat) (k : LaneCore) (c : WordCtx) (s : State) :
    ∃ fl, moveTo n m ⟨l, slot, k, c, s⟩ =
      ⟨l, slot, { k with a := tset k.a n { readA k n with p := postModify (readA k n) m } }, { c with folds := fl }, s⟩ := by
  unfold moveTo
  dsimp only
  split
  · exact ⟨_, rfl⟩
  · exact ⟨c.folds, rfl⟩

theorem lsUpdate_eq (f : LsFields) (z l slot : Nat) (k : LaneCore) (c : WordCtx) (s : State) :
    ∃ fl, lsUpdate f z ⟨l, slot, k, c, s⟩ = ⟨l, slot, { k with a := movedRegs f z k }, { c with folds := fl }, s⟩ := by
  unfold lsUpdate movedRegs
  by_cases h1 : f.mode = 1
  · simp only [h1, if_true]
    exact moveTo_eq ..
  · by_cases h2 : f.mode = 2
    · simp only [h2, if_true]
      exact moveTo_eq ..
    · simp only [h1, h2, if_false]
      exact ⟨c.folds, rfl⟩

theorem noteSlot_eq (f : LsFields) (b : Option Nat) (n l slot : Nat) (k : LaneCore) (c : WordCtx) (s : State) :
    ∃ x y r, noteSlot f b n ⟨l, slot, k, c, s⟩ = ⟨l, slot, k, { c with ls0 := x, stall := y }, { s with regs := r }⟩ :=
  ⟨_, _, _, rfl⟩

/-- Correctable words counted: registers and events, and no event where there is none. -/
theorem wordsFixed_eq (a n : Nat) (s : State) :
    ∃ r e, wordsFixed a n s = { s with regs := r, ev := e } ∧ (n = 0 → e = s.ev) := by
  have h : RegsEvents s (wordsFixed a n s) := by
    unfold wordsFixed
    refine .ite (.refl s) (.ite ?_ (.ite ?_ (.ite (.ite ?_ ?_) (.refl s))))
    · exact ((regsEvents_fbump ..).trans (regsEvents_fbump ..)).trans (regsEvents_raiseCountingBy ..)
    · exact ((regsEvents_fbump ..).trans (regsEvents_fbump ..)).trans (regsEvents_raiseCountingBy ..)
    · exact (regsEvents_fbump ..).trans (regsEvents_fbump ..)
    · exact (regsEvents_fbump ..).trans (regsEvents_fbump ..)
  obtain ⟨r, e, h⟩ := h
  refine ⟨r, e, h, fun hn => ?_⟩
  rw [wordsFixed, if_pos hn] at h
  exact (congrArg State.ev h).symm

theorem loadWords_eq (a d z : Nat) (check : List Ecc) (l slot : Nat) (k : LaneCore) (c : WordCtx) (s : State) :
    ∃ y r e n, loadWords a d z check ⟨l, slot, k, c, s⟩ =
      ⟨l, slot, k, { c with stall := y }, { s with regs := r, ev := e, free := n }⟩ ∧ (Ecc.correctable ∉ check → e = s.ev) := by
  obtain ⟨r, e, h, he⟩ := wordsFixed_eq d ((check.take (z / wordBytes d)).filter (fun e => e == Ecc.correctable)).length s
  have hnone : Ecc.correctable ∉ check → e = s.ev := fun hc => by
    refine he (List.length_eq_zero_iff.2 (List.filter_eq_nil_iff.2 fun x hx heq => hc ?_))
    rw [beq_iff_eq] at heq
    exact heq ▸ List.mem_of_mem_take hx
  unfold loadWords
  simp only [h]
  split
  · exact ⟨c.stall, r, e, s.free, rfl, hnone⟩
  · exact ⟨_, r, e, _, rfl, hnone⟩

/-- The context and the state of an access leave everything that `PointerMoved` names, where the operation's own data do. -/
theorem pointerMoved_withLane {w : Issue} {f : LsFields} {z : Nat} {s u : State} {c c' : WordCtx} {k : LaneCore}
    (hvrb : k.vrb = (laneAt s w.lane).core.vrb) (hpc : k.pc = (laneAt s w.lane).core.pc)
    (hloops : k.loops = (laneAt s w.lane).core.loops) (hv : k.v = (laneAt s w.lane).core.v) (hc : c'.core0 = c.core0)
    (hlanes : u.lanes = s.lanes) (hchans : u.chans = s.chans) (hev : Ecc.correctable ∉ f.check → u.ev = s.ev) :
    PointerMoved w f z s (withLane w { k with a := movedRegs f z (laneAt s w.lane).core } c' u) c c' := by
  have hlane : laneAt (withLane w { k with a := movedRegs f z (laneAt s w.lane).core } c' u) w.lane =
      { laneAt u w.lane with core := { k with a := movedRegs f z (laneAt s w.lane).core }, word := some c' } :=
    laneAt_putLane_same ..
  refine ⟨?_, ?_, fun n hn => ?_, hc, ?_, ?_, ?_, ?_, fun l hl => ?_, hchans, hev⟩
  · rw [hlane]
  · rw [hlane]
    exact readA_movedRegs_same ..
  · rw [hlane]
    exact readA_movedRegs_other f z _ k hn
  · rw [hlane]
    exact hvrb
  · rw [hlane]
    exact hpc
  · rw [hlane]
    exact hloops
  · rw [hlane]
    exact hv
  · refine (laneAt_putLane_other _ _ hl).trans ?_
    simp only [laneAt, hlanes]

/-! ### Checks of an access (R74, R75, R94) -/

theorem lsLegal_iff (f : LsFields) : lsLegal f = true ↔ f.areg.toNat < 12 ∧ f.mode ≠ 3 := by
  simp [lsLegal]

theorem namesScalar_iff (f : LsFields) : namesScalar f = true ↔ f.reg.toNat < 32 := by
  have h := f.reg.isLt
  have hbit : f.reg.getLsbD 5 = decide (32 ≤ f.reg.toNat) := by
    rw [← BitVec.testBit_toNat, Nat.testBit_eq_decide_div_mod_eq]
    exact decide_eq_decide.2 (by omega)
  rw [namesScalar, hbit, Bool.not_eq_true', decide_eq_false_iff_not, Nat.not_le]

/-- The address of an access as the operation at work finds it. -/
theorem lsAddr_eq (w : Issue) (f : LsFields) (z : Nat) (s : State) (c : WordCtx) :
    lsAddr f z ⟨w.lane, lsSlot f, (laneAt s w.lane).core, c, s⟩ = accessAt w f z s := rfl

section
variable {w : Issue} {f : LsFields} {s : State} {c : WordCtx} {z : Nat}

/-- An access that its lane's memory serves passes its checks. -/
theorem checkAccess_served {attic write : Bool} {d : Nat} (h : Served w f z attic write s d)
    {check : List Ecc} (hcheck : write = false → check = f.check) :
    checkAccess ⟨w.lane, lsSlot f, (laneAt s w.lane).core, c, s⟩ (accessAt w f z s) z write (!attic) check = .ok d := by
  have hacc : ((!attic) && decide (0x80000 ≤ accessAt w f z s)) = false := by
    rcases h.local_ with hl | ⟨ha, -⟩
    · simp [Nat.not_le.2 hl]
    · simp [ha]
  have hperm : (decide (0x80000 ≤ accessAt w f z s) && !permitted s (2 + w.lane.val / 16) d z write) = false := by
    rcases h.local_ with hl | ⟨-, hp⟩
    · simp [Nat.not_le.2 hl]
    · simp [hp]
  have hsound : ((!write) && !(badWords s d z check).isEmpty) = false := by
    cases write with
    | true => rfl
    | false => rw [hcheck rfl, h.sound rfl]; rfl
  simp only [checkAccess, h.place, hacc, h.aligned, hperm, hsound, Bool.false_eq_true, if_false, not_true_eq_false, ne_eq]

/-- An access outside the lane's memory, or of an accumulator outside data memory. -/
theorem checkAccess_range {acc write : Bool} {check : List Ecc} {a : Nat}
    (h : ¬ ((laneAddr w.lane a).isSome = true ∧ (acc = true → a < 0x80000))) :
    checkAccess ⟨w.lane, lsSlot f, (laneAt s w.lane).core, c, s⟩ a z write acc check = .error 3 := by
  unfold checkAccess
  cases hd : laneAddr w.lane a with
  | none => rfl
  | some d =>
    have hacc : (acc && decide (0x80000 ≤ a)) = true := by
      rw [hd] at h
      simpa using h
    simp only [hacc, if_true]

/-- An unaligned access inside. -/
theorem checkAccess_misaligned {acc write : Bool} {check : List Ecc} {a : Nat}
    (h : (laneAddr w.lane a).isSome = true ∧ (acc = true → a < 0x80000)) (hz : a % z ≠ 0) :
    checkAccess ⟨w.lane, lsSlot f, (laneAt s w.lane).core, c, s⟩ a z write acc check = .error 2 := by
  obtain ⟨d, hd⟩ := Option.isSome_iff_exists.1 h.1
  have hacc : (acc && decide (0x80000 ≤ a)) = false := by
    cases acc with
    | false => rfl
    | true => simp [Nat.not_le.2 (h.2 rfl)]
  unfold checkAccess
  simp only [hd, hacc, hz, Bool.false_eq_true, if_false, if_true, ne_eq, not_false_eq_true]

/-! ### Loads -/

/-- A load that is served: its bytes go where the operation puts them, before the pointer moves. -/
theorem loadOp_served {attic legal : Bool} {d : Nat} (h : Served w f z attic false s d) (hlegal : legal = true)
    {put : Bytes → Work → Work} {K : LaneCore → LaneCore} {C : WordCtx → WordCtx}
    (hput : ∀ l slot k c t, put (Memory.readBytes s.mem d z) ⟨l, slot, k, c, t⟩ = ⟨l, slot, K k, C c, t⟩)
    (hK : (K (laneAt s w.lane).core).a = (laneAt s w.lane).core.a) :
    ∃ x y fl u, loadOp z (!attic) legal f put ⟨w.lane, lsSlot f, (laneAt s w.lane).core, c, s⟩ =
      .ok ⟨w.lane, lsSlot f, { K (laneAt s w.lane).core with a := movedRegs f z (laneAt s w.lane).core },
        { C { c with ls0 := x, stall := y } with folds := fl }, u⟩ ∧
      u.lanes = s.lanes ∧ u.mem = s.mem ∧ u.chans = s.chans ∧ (Ecc.correctable ∉ f.check → u.ev = s.ev) := by
  obtain ⟨y0, r0, e, n, hload, he⟩ := loadWords_eq (accessAt w f z s) d z f.check w.lane (lsSlot f) (laneAt s w.lane).core c s
  obtain ⟨x, y, r, hnote⟩ := noteSlot_eq f (bankOf (accessAt w f z s)) (accessCycles z) w.lane (lsSlot f)
    (laneAt s w.lane).core { c with stall := y0 } { s with regs := r0, ev := e, free := n }
  obtain ⟨fl, hupd⟩ := lsUpdate_eq f z w.lane (lsSlot f) (K (laneAt s w.lane).core) (C { c with ls0 := x, stall := y })
    { s with regs := r, ev := e, free := n }
  have hmoved : movedRegs f z (K (laneAt s w.lane).core) = movedRegs f z (laneAt s w.lane).core := by
    unfold movedRegs readA
    rw [hK]
  rw [hmoved] at hupd
  refine ⟨x, y, fl, { s with regs := r, ev := e, free := n }, ?_, rfl, rfl, rfl, he⟩
  have hl : lsLegal f = true := (lsLegal_iff f).2 ⟨h.areg, h.mode⟩
  unfold loadOp
  simp only [hl, hlegal, lsAddr_eq, checkAccess_served h (fun _ => rfl), hload, hnote, hput, hupd, Bool.not_true,
    Bool.or_self, Bool.false_eq_true, if_false]

/-- What a load leaves: its bytes where the operation puts them, its pointer moved, memory as it was. -/
theorem exec_of_load {i : Instr} {attic legal : Bool} {d : Nat} (h : Served w f z attic false s d) (hw : WordOpen w s c)
    (hlegal : legal = true) {put : Bytes → Work → Work} (hi : exec i s = .next (laneOp w (lsSlot f) (loadOp z (!attic) legal f put) s))
    (K : LaneCore → LaneCore) (C : WordCtx → WordCtx)
    (hput : ∀ l slot k c t, put (Memory.readBytes s.mem d z) ⟨l, slot, k, c, t⟩ = ⟨l, slot, K k, C c, t⟩)
    (hK : ∀ k, (K k).a = k.a ∧ (K k).vrb = k.vrb ∧ (K k).pc = k.pc ∧ (K k).loops = k.loops ∧ (K k).v = k.v)
    (hC : ∀ c, (C c).core0 = c.core0) :
    ∃ x y fl t, exec i s = .next t ∧
      PointerMoved w f z s t c { C { c with ls0 := x, stall := y } with folds := fl } ∧ t.mem = s.mem ∧
      (laneAt t w.lane).core = { K (laneAt s w.lane).core with a := movedRegs f z (laneAt s w.lane).core } := by
  obtain ⟨ha, hvrb, hpc, hloops, hv⟩ := hK (laneAt s w.lane).core
  obtain ⟨x, y, fl, u, hop, hlanes, hmem, hchans, hev⟩ := loadOp_served (c := c) h hlegal hput ha
  refine ⟨x, y, fl, _, hi.trans (congrArg _ (laneOp_of_ok hw hop)),
    pointerMoved_withLane hvrb hpc hloops hv (hC _) hlanes hchans hev, hmem, ?_⟩
  rw [withLane, laneAt_putLane_same]

/-! ### Stores -/

/-- A store that is served: its bytes in memory, what they replace in the context. -/
theorem storeOp_served {attic legal : Bool} {d : Nat} (h : Served w f z attic true s d) (hlegal : legal = true)
    {data : Work → Bytes} {b : Bytes} (hdata : ∀ l slot k c' t, c'.core0 = c.core0 → data ⟨l, slot, k, c', t⟩ = b)
    {after : Work → Work} {A : WordCtx → WordCtx}
    (hafter : ∀ l slot k c' t, c'.core0 = c.core0 → after ⟨l, slot, k, c', t⟩ = ⟨l, slot, k, A c', t⟩) :
    ∃ x y un up fl r, storeOp z (!attic) legal f data after ⟨w.lane, lsSlot f, (laneAt s w.lane).core, c, s⟩ =
      .ok ⟨w.lane, lsSlot f, { (laneAt s w.lane).core with a := movedRegs f z (laneAt s w.lane).core },
        A { c with ls0 := x, stall := y, undo := un, undoPoison := up, folds := fl }, storeBytes d b { s with regs := r }⟩ := by
  obtain ⟨x, y, r, hnote⟩ := noteSlot_eq f (bankOf (accessAt w f z s)) (accessCycles z) w.lane (lsSlot f)
    (laneAt s w.lane).core c s
  have hdata' := hdata w.lane (lsSlot f) (laneAt s w.lane).core c s rfl
  have hstore : ∃ un up, storeIn d b ⟨w.lane, lsSlot f, (laneAt s w.lane).core, { c with ls0 := x, stall := y },
      { s with regs := r }⟩ = ⟨w.lane, lsSlot f, (laneAt s w.lane).core,
        { c with ls0 := x, stall := y, undo := un, undoPoison := up }, storeBytes d b { s with regs := r }⟩ := ⟨_, _, rfl⟩
  obtain ⟨un, up, hstore⟩ := hstore
  obtain ⟨fl, hupd⟩ := lsUpdate_eq f z w.lane (lsSlot f) (laneAt s w.lane).core
    { c with ls0 := x, stall := y, undo := un, undoPoison := up } (storeBytes d b { s with regs := r })
  refine ⟨x, y, un, up, fl, r, ?_⟩
  have hl : lsLegal f = true := (lsLegal_iff f).2 ⟨h.areg, h.mode⟩
  unfold storeOp
  simp only [hl, hlegal, lsAddr_eq, checkAccess_served (check := []) h (fun hf => absurd hf (by decide)), hnote, hdata',
    hstore, hupd, Bool.not_true, Bool.or_self, Bool.false_eq_true, if_false]
  exact congrArg OpResult.ok (hafter _ _ _ _ _ rfl)

/-- What a store leaves: its bytes in memory and no other byte changed, its pointer moved. -/
theorem exec_of_store {i : Instr} {attic legal : Bool} {d : Nat} (h : Served w f z attic true s d) (hw : WordOpen w s c)
    (hmem : Memory.wf s.mem = true) (hlegal : legal = true) {data : Work → Bytes} {after : Work → Work}
    (hi : exec i s = .next (laneOp w (lsSlot f) (storeOp z (!attic) legal f data after) s)) (b : Bytes) (hb : b.length = z)
    (hdata : ∀ l slot k c' t, c'.core0 = c.core0 → data ⟨l, slot, k, c', t⟩ = b) (flags : BitVec 3)
    (A : WordCtx → WordCtx) (hafter : ∀ l slot k c' t, c'.core0 = c.core0 → after ⟨l, slot, k, c', t⟩ = ⟨l, slot, k, A c', t⟩)
    (hA : ∀ c', (A c').core0 = c'.core0 ∧ (A c').vw = c'.vw ∧ (A c').flags = c'.flags ||| flags) :
    ∃ t c', exec i s = .next t ∧ PointerMoved w f z s t c c' ∧ (laneAt t w.lane).core.s = (laneAt s w.lane).core.s ∧
      (laneAt t w.lane).core.acc = (laneAt s w.lane).core.acc ∧ c'.vw = c.vw ∧ c'.flags = c.flags ||| flags ∧ b.length = z ∧
      (∀ i (h : i < b.length), Memory.read t.mem (d + i) = b[i]) ∧
      (∀ p, p < d ∨ d + z ≤ p → Memory.read t.mem p = Memory.read s.mem p) := by
  obtain ⟨x, y, un, up, fl, r, hop⟩ := storeOp_served h hlegal hdata hafter
  obtain ⟨hcore, hvw, hflags⟩ := hA { c with ls0 := x, stall := y, undo := un, undoPoison := up, folds := fl }
  have ht := laneOp_of_ok hw hop
  refine ⟨_, _, hi.trans (congrArg _ ht), pointerMoved_withLane rfl rfl rfl rfl hcore rfl rfl (fun _ => rfl), ?_, ?_, hvw,
    hflags, hb, fun j hj => Memory.read_writeBytes_inside d b hj hmem, fun p hp => ?_⟩
  · rw [withLane, laneAt_putLane_same]
  · rw [withLane, laneAt_putLane_same]
  · exact Memory.read_writeBytes_outside s.mem d b (by rwa [hb])

end

/-! ### The bytes of a register -/

theorem length_toLe (n v : Nat) : (toLe n v).length = n := by
  induction n generalizing v with
  | zero => rfl
  | succ n ih => rw [toLe, List.length_cons, ih]

theorem length_bytesOfAcc (x : BitVec 192) : (bytesOfAcc x).length = 32 := by
  simp [bytesOfAcc, List.range_succ, bytesOf, length_toLe, zeros]

theorem length_floatBytes (x : BitVec 128) : (floatBytes x).1.length = 16 := by
  simp [floatBytes, List.range_succ, bytesOf, length_toLe]

theorem loads : LoadsFillTheirRegister := by
  intro w f s c d hw core bytes vector
  have lands : ∀ {i : Instr} {z : Nat} (x : Bytes → BitVec 128), Served w f z true false s d →
      exec i s = .next (laneOp w (lsSlot f) (loadOp z false true f (fun b => landLater f.reg (x b) 3)) s) →
      vector i z (x (bytes z)) := fun {i z} x h hi => by
    obtain ⟨_, _, _, t, ht, hmoved, hm, hcore⟩ := exec_of_load (attic := true) h hw rfl hi id
      (fun c => Spec.lands c f.reg (x (bytes z)) 3 0) (fun l slot k c t => VectorSlot.landLater_eq ..)
      (fun k => ⟨rfl, rfl, rfl, rfl, rfl⟩) (fun c => rfl)
    exact ⟨t, _, ht, hmoved, hm, by rw [hcore]; rfl, by rw [hcore]; rfl, BitVec.or_zero, rfl⟩
  refine ⟨fun h => ⟨fun hreg => ?_, lands (fun b => joinW (fun _ => BitVec.ofNat 32 (leNat b))) h rfl⟩,
    fun h => lands (fun b => BitVec.ofNat 128 (leNat b)) h rfl, fun h => lands (fun b => BitVec.ofNat 128 (leNat b)) h rfl, fun h hreg => ?_⟩
  · obtain ⟨_, _, _, t, ht, hmoved, hm, hcore⟩ := exec_of_load (i := .ldW w f) (attic := true) h hw
      ((namesScalar_iff f).2 hreg) rfl
      (fun k => writeS f.reg.toNat (BitVec.ofNat 32 (leNat (bytes 4))) k)
      (fun c => if f.reg.toNat = 0 then c else { c with locks := c.locks ++ [(f.reg.toNat, 3)] })
      (fun l slot k c t => by unfold setScalar lockLater; split <;> rfl)
      (fun k => by unfold writeS; split <;> exact ⟨rfl, rfl, rfl, rfl, rfl⟩) (fun c => by split <;> rfl)
    refine ⟨t, _, ht, hmoved, hm, ?_, ?_, ?_, ?_⟩
    · split <;> rfl
    · split <;> rfl
    · rw [hcore]
      unfold writeS
      split <;> rfl
    · rw [hcore]
      simp only [writeS, show f.reg = 0 ↔ f.reg.toNat = 0 from BitVec.toNat_inj.symm]
      split <;> rfl
  · obtain ⟨_, _, _, t, ht, hmoved, hm, hcore⟩ := exec_of_load (i := .aload w f) (attic := false) h hw
      (decide_eq_true hreg) rfl
      (fun k => { k with acc := tset k.acc f.reg.toNat (accOfBytes (bytes 32)) })
      (fun c => { c with locks := c.locks ++ [(32 + f.reg.toNat, 4)] })
      (fun l slot k c t => by
        unfold lockLater
        rw [if_neg (by omega)]
        rfl)
      (fun k => ⟨rfl, rfl, rfl, rfl, rfl⟩) (fun c => rfl)
    exact ⟨t, _, ht, hmoved, hm, rfl, rfl, by rw [hcore], by rw [hcore]⟩

theorem stores : StoresWriteTheirBytesAndNoOthers := by
  intro w f s c d hw hmem core stores
  have plain : ∀ c' : WordCtx, c'.flags = c'.flags ||| 0 := fun c' => BitVec.or_zero.symm
  refine ⟨fun h hreg => ?_, fun h => ?_, fun h => ⟨?_, ?_⟩, fun h hreg => ?_⟩
  · exact exec_of_store (attic := true) h hw hmem ((namesScalar_iff f).2 hreg) rfl _ (length_toLe ..)
      (fun _ _ _ c' _ hc => by rw [hc]; rfl) 0 (fun c => c.await [f.reg.toNat]) (fun _ _ _ _ _ _ => rfl)
      (fun c' => ⟨rfl, rfl, plain c'⟩)
  · exact exec_of_store (attic := true) h hw hmem rfl rfl _ (length_toLe ..) (fun _ _ _ c' _ hc => by rw [hc]; rfl) 0 id
      (fun _ _ _ _ _ _ => rfl) (fun c' => ⟨rfl, rfl, plain c'⟩)
  · exact exec_of_store (attic := true) h hw hmem rfl rfl _ (length_toLe ..) (fun _ _ _ c' _ hc => by rw [hc]; rfl) 0 id
      (fun _ _ _ _ _ _ => rfl) (fun c' => ⟨rfl, rfl, plain c'⟩)
  · refine exec_of_store (attic := true) h hw hmem rfl rfl _ (length_floatBytes (readV c.core0 f.reg))
      (fun _ _ _ c' _ hc => by rw [hc]) _
      (fun c' => Spec.flagged c' (satIf 4 (fun i => (storeFix (elemW (readV c.core0 f.reg) i)).2.2) |||
        nanIf 4 (fun i => (storeFix (elemW (readV c.core0 f.reg) i)).2.1)))
      (fun _ _ _ c' _ hc => ?_) (fun c' => ⟨rfl, rfl, rfl⟩)
    simp only [VectorSlot.raiseFlags_eq, hc, floatBytes, satIf, nanIf, Bool.false_eq_true, if_false, BitVec.ofNat_eq_ofNat,
      BitVec.zero_or]
  · exact exec_of_store (attic := false) h hw hmem (decide_eq_true hreg) rfl _ (length_bytesOfAcc _)
      (fun _ _ _ c' _ hc => by rw [hc]) 0 (fun c => c.await [32 + f.reg.toNat]) (fun _ _ _ _ _ _ => rfl)
      (fun c' => ⟨rfl, rfl, plain c'⟩)

/-- Settles O8: `exec_of_load` and `exec_of_store` for each row. -/
theorem loadsAndStoresMoveTheirBytes : Obligations.LoadsAndStoresMoveTheirBytes := ⟨loads, stores⟩

/-! ### Address operations (R85, R86, R94) -/

/-- The check that AWR and ARD share. -/
theorem fieldNamed {f : LsFields} (ha : f.areg.toNat < 12) (hm : f.mode ≠ 3) (hi : f.imm.toNat < 4) (hr : f.reg.toNat < 32) :
    (lsLegal f && namesScalar f && decide (f.imm.toNat < 4)) = true := by
  simp [(lsLegal_iff f).2 ⟨ha, hm⟩, (namesScalar_iff f).2 hr, hi]

theorem fieldNotNamed {f : LsFields} (h : 4 ≤ f.imm.toNat ∨ 32 ≤ f.reg.toNat) :
    (lsLegal f && namesScalar f && decide (f.imm.toNat < 4)) = false := by
  rcases h with h | h
  · simp [Nat.not_lt.2 h]
  · have hn : namesScalar f = false := Bool.eq_false_iff.2 fun hn => absurd ((namesScalar_iff f).1 hn) (Nat.not_lt.2 h)
    simp [hn]

section
variable {w : Issue} {f : LsFields} {s : State} {c : WordCtx} (hw : WordOpen w s c)
include hw

theorem exec_adda (ha : f.areg.toNat < 12) (hm : f.mode ≠ 3) :
    ∃ t c', exec (.adda w f) s = .next t ∧ PointerMoved w f 1 s t c c' ∧ t.mem = s.mem ∧
      (laneAt t w.lane).core.s = (laneAt s w.lane).core.s ∧ (laneAt t w.lane).core.acc = (laneAt s w.lane).core.acc := by
  obtain ⟨x, y, r, hnote⟩ := noteSlot_eq f none 1 w.lane (lsSlot f) (laneAt s w.lane).core c s
  obtain ⟨fl, hupd⟩ := lsUpdate_eq f 1 w.lane (lsSlot f) (laneAt s w.lane).core { c with ls0 := x, stall := y }
    { s with regs := r }
  have hop : exec (.adda w f) s = .next (withLane w { (laneAt s w.lane).core with a := movedRegs f 1 (laneAt s w.lane).core }
      { c with ls0 := x, stall := y, folds := fl } { s with regs := r }) :=
    congrArg Host.Outcome.next (laneOp_of_ok hw (by simp only [(lsLegal_iff f).2 ⟨ha, hm⟩, hnote, hupd, if_true]))
  refine ⟨_, _, hop, pointerMoved_withLane rfl rfl rfl rfl rfl rfl rfl (fun _ => rfl), rfl, ?_, ?_⟩ <;>
    rw [withLane, laneAt_putLane_same]

theorem exec_awr (ha : f.areg.toNat < 12) (hm : f.mode ≠ 3) (hi : f.imm.toNat < 4) (hr : f.reg.toNat < 32) :
    ∃ t c', exec (.awr w f) s = .next t ∧ (laneAt t w.lane).core = (laneAt s w.lane).core ∧ t.mem = s.mem ∧
      (laneAt t w.lane).word = some c' ∧ c'.awr = c.awr ++ [(f.areg.toNat, f.imm.toNat, readS c.core0 f.reg.toNat)] := by
  obtain ⟨x, y, r, hnote⟩ := noteSlot_eq f none 1 w.lane (lsSlot f) (laneAt s w.lane).core c s
  have hop : exec (.awr w f) s = .next (withLane w (laneAt s w.lane).core
      { ({ c with ls0 := x, stall := y } : WordCtx).await [f.reg.toNat] with
        awr := c.awr ++ [(f.areg.toNat, f.imm.toNat, readS c.core0 f.reg.toNat)] } { s with regs := r }) := by
    refine congrArg Host.Outcome.next (laneOp_of_ok hw ?_)
    simp only [fieldNamed ha hm hi hr, hnote, if_true]
    rfl
  refine ⟨_, _, hop, ?_, rfl, congrArg Lane.word (laneAt_putLane_same ..), rfl⟩
  rw [withLane, laneAt_putLane_same]

theorem exec_ard (ha : f.areg.toNat < 12) (hm : f.mode ≠ 3) (hi : f.imm.toNat < 4) (hr : f.reg.toNat < 32) :
    ∃ t, exec (.ard w f) s = .next t ∧ t.mem = s.mem ∧ (laneAt t w.lane).core =
      writeS f.reg.toNat ((readA (laneAt s w.lane).core f.areg.toNat).field f.imm.toNat) (laneAt s w.lane).core := by
  obtain ⟨x, y, r, hnote⟩ := noteSlot_eq f none 1 w.lane (lsSlot f) (laneAt s w.lane).core c s
  refine ⟨_, congrArg Host.Outcome.next (laneOp_of_ok hw (t := { s with regs := r }) (c' := { c with ls0 := x, stall := y })
    (core := writeS f.reg.toNat ((readA (laneAt s w.lane).core f.areg.toNat).field f.imm.toNat) (laneAt s w.lane).core) ?_),
    rfl, ?_⟩
  · simp only [fieldNamed ha hm hi hr, hnote, if_true]
    rfl
  · rw [withLane, laneAt_putLane_same]

theorem exec_awr_illegal (h : 4 ≤ f.imm.toNat ∨ 32 ≤ f.reg.toNat) :
    exec (.awr w f) s = .next (laneFault w.lane 1 (lsSlot f) c.core0.pc.toNat 0 s) :=
  congrArg Host.Outcome.next (laneOp_eq_laneFault (lsSlot f) hw (by decide) (by
    simp only [fieldNotNamed h, Bool.false_eq_true, if_false, illegal]))

theorem exec_ard_illegal (h : 4 ≤ f.imm.toNat ∨ 32 ≤ f.reg.toNat) :
    exec (.ard w f) s = .next (laneFault w.lane 1 (lsSlot f) c.core0.pc.toNat 0 s) :=
  congrArg Host.Outcome.next (laneOp_eq_laneFault (lsSlot f) hw (by decide) (by
    simp only [fieldNotNamed h, Bool.false_eq_true, if_false, illegal]))

end

/-- The field that ARD reads, named by a bit vector. -/
theorem field_toNat {n : Nat} (a : AReg) (k : BitVec (n + 3)) :
    a.field k.toNat = if k = 0 then a.p else if k = 1 then a.b else if k = 2 then a.l else a.m := by
  have h : ∀ j : Nat, j < 4 → (k.toNat = j ↔ k = BitVec.ofNat (n + 3) j) := fun j hj => by
    have : 2 ^ (n + 3) = 8 * 2 ^ n := by ring
    have : 0 < 2 ^ n := Nat.two_pow_pos n
    rw [← BitVec.toNat_inj, BitVec.toNat_ofNat, Nat.mod_eq_of_lt (by omega)]
  unfold AReg.field
  simp only [h 0 (by decide), h 1 (by decide), h 2 (by decide), BitVec.ofNat_eq_ofNat]

theorem addressOperations : AddressOperationsMoveAndCopyPointers := by
  intro w f s c hw ha hm core field illegal
  refine ⟨exec_adda hw ha hm, fun hi hr => ⟨exec_awr hw ha hm hi hr, ?_⟩, fun h => ⟨exec_awr_illegal hw h,
    exec_ard_illegal hw h⟩⟩
  obtain ⟨t, ht, hmem, hcore⟩ := exec_ard hw ha hm hi hr
  exact ⟨t, ht, hmem, hcore.trans (by rw [field_toNat])⟩

theorem nextWord_a (k : LaneCore) (x : WordCtx) : (nextWord k x).a = k.a := by
  unfold nextWord
  repeat' split
  all_goals rfl

/-- The end of a word puts a single AWR write into its field. -/
theorem closeWord_awr (k : LaneCore) (x : WordCtx) (n j : Nat) (v : Word) (hx : x.spec = []) :
    (closeWord k { x with awr := [(n, j, v)] }).a = tset k.a n ((readA k n).put j v) := by
  unfold closeWord readA
  simp only [hx, List.foldl_nil, List.foldl_cons, nextWord_a]

theorem awrTakesEffect : AwrTakesEffectInTheNextWord := by
  intro k x n v hx a after
  have hsame : ∀ j, after j = a.put j v := fun j => by
    simp only [after, readA, closeWord_awr k x n j v hx]
    exact tget_tset_same ..
  refine ⟨hsame 0, hsame 1, hsame 2, hsame 3, fun j m hm => ?_⟩
  simp only [readA, closeWord_awr k x n j v hx]
  exact tget_tset_other _ _ _ hm

/-- Settles O9: `exec_adda`, `exec_awr` and `exec_ard`, and `closeWord_awr` for the following word. -/
theorem addressOperationsChangePointers : Obligations.AddressOperationsChangePointers := ⟨addressOperations, awrTakesEffect⟩

/-! ### Accesses that fault (R74, R75, R93, R102) -/

section
variable {w : Issue} {f : LsFields} {s : State} {c : WordCtx} {z : Nat} {acc legal : Bool}

/-- What an access operation answers where it is not served: the checks in their order. -/
structure Faults (w : Issue) (f : LsFields) (s : State) (c : WordCtx) (z : Nat) (acc legal : Bool) (op : Work → OpResult) :
    Prop where
  illegal : ¬ (f.areg.toNat < 12 ∧ f.mode ≠ 3 ∧ legal = true) → op (atWork w f s c) = .fault 1 0 s
  range : f.areg.toNat < 12 ∧ f.mode ≠ 3 ∧ legal = true →
    ¬ ((laneAddr w.lane (accessAt w f z s)).isSome = true ∧ (acc = true → accessAt w f z s < 0x80000)) →
    op (atWork w f s c) = .fault 3 (accessAt w f z s) s
  misaligned : f.areg.toNat < 12 ∧ f.mode ≠ 3 ∧ legal = true →
    (laneAddr w.lane (accessAt w f z s)).isSome = true ∧ (acc = true → accessAt w f z s < 0x80000) →
    accessAt w f z s % z ≠ 0 → op (atWork w f s c) = .fault 2 (accessAt w f z s) s

theorem lsCheck_legal (h : f.areg.toNat < 12 ∧ f.mode ≠ 3 ∧ legal = true) : (!lsLegal f || !legal) = false := by
  simp [(lsLegal_iff f).2 ⟨h.1, h.2.1⟩, h.2.2]

theorem lsCheck_illegal (h : ¬ (f.areg.toNat < 12 ∧ f.mode ≠ 3 ∧ legal = true)) : (!lsLegal f || !legal) = true := by
  rw [← Bool.not_and, Bool.not_eq_true', Bool.and_eq_false_iff]
  by_cases hl : f.areg.toNat < 12 ∧ f.mode ≠ 3
  · exact .inr (Bool.eq_false_iff.2 fun hg => h ⟨hl.1, hl.2, hg⟩)
  · exact .inl (Bool.eq_false_iff.2 fun hg => hl ((lsLegal_iff f).1 hg))

theorem loadOp_faults (put : Bytes → Work → Work) : Faults w f s c z acc legal (loadOp z acc legal f put) where
  illegal h := by
    simp only [loadOp, lsCheck_illegal h, if_true]
    rfl
  range h hout := by
    simp only [loadOp, lsCheck_legal h, Bool.false_eq_true, if_false, atWork, lsAddr_eq, checkAccess_range hout]
    rfl
  misaligned h hin hz := by
    simp only [loadOp, lsCheck_legal h, Bool.false_eq_true, if_false, atWork, lsAddr_eq, checkAccess_misaligned hin hz]
    rfl

theorem storeOp_faults (data : Work → Bytes) (after : Work → Work) :
    Faults w f s c z acc legal (storeOp z acc legal f data after) where
  illegal h := by
    simp only [storeOp, lsCheck_illegal h, if_true]
    rfl
  range h hout := by
    simp only [storeOp, lsCheck_legal h, Bool.false_eq_true, if_false, atWork, lsAddr_eq, checkAccess_range hout]
    rfl
  misaligned h hin hz := by
    simp only [storeOp, lsCheck_legal h, Bool.false_eq_true, if_false, atWork, lsAddr_eq, checkAccess_misaligned hin hz]
    rfl

/-- An operation that is not served faults its lane. -/
theorem exec_of_faults (hw : WordOpen w s c) {i : Instr} {op : Work → OpResult} (h : Faults w f s c z acc legal op)
    (hi : exec i s = .next (laneOp w (lsSlot f) op s)) :
    let a := accessAt w f z s
    let isLegal := f.areg.toNat < 12 ∧ f.mode ≠ 3 ∧ legal = true
    let fault := fun cause addr => exec i s = .next (laneFault w.lane cause (lsSlot f) c.core0.pc.toNat addr s)
    let inside := (laneAddr w.lane a).isSome = true ∧ (acc = true → a < 0x80000)
    (¬ isLegal → fault 1 0) ∧ (isLegal → ¬ inside → fault 3 a) ∧ (isLegal → inside → a % z ≠ 0 → fault 2 a) :=
  ⟨fun hl => hi.trans (congrArg _ (laneOp_eq_laneFault _ hw (by decide) (h.illegal hl))),
    fun hl ho => hi.trans (congrArg _ (laneOp_eq_laneFault _ hw (by decide) (h.range hl ho))),
    fun hl hin hz => hi.trans (congrArg _ (laneOp_eq_laneFault _ hw (by decide) (h.misaligned hl hin hz)))⟩

end

theorem badAccesses : BadAccessesFaultTheLane := by
  intro w f s c hw r hr
  simp only [accessRows, List.mem_cons, List.not_mem_nil, or_false] at hr
  rcases hr with rfl | rfl | rfl | rfl | rfl | rfl | rfl | rfl | rfl | rfl
  · exact exec_of_faults hw (loadOp_faults _) rfl
  · exact exec_of_faults hw (loadOp_faults _) rfl
  · exact exec_of_faults hw (loadOp_faults _) rfl
  · exact exec_of_faults hw (loadOp_faults _) rfl
  · exact exec_of_faults hw (loadOp_faults _) rfl
  · exact exec_of_faults hw (storeOp_faults _ _) rfl
  · exact exec_of_faults hw (storeOp_faults _ _) rfl
  · exact exec_of_faults hw (storeOp_faults _ _) rfl
  · exact exec_of_faults hw (storeOp_faults _ _) rfl
  · exact exec_of_faults hw (storeOp_faults _ _) rfl

end Sys2Proof.Proofs.LoadStore
end

section
/-! PROOF. What a lane's fault reaches beside its lane (R43, R48, R102, R309). -/

namespace Sys2Proof.Proofs.LaneFaults

open Sys2Proof Sys2Proof.Machine Sys2Proof.Spec

/-! ### Groups of state outside the lanes' reach -/

/-- The groups of state that no operation of a lane reaches. -/
structure SameGroups (s t : State) : Prop where
  time : t.time = s.time
  mast : t.mast = s.mast
  ports : t.ports = s.ports
  svc : t.svc = s.svc
  tdm : t.tdm = s.tdm
  isls : t.isls = s.isls
  ques : t.ques = s.ques
  rig : t.rig = s.rig
  boot : t.boot = s.boot
  acc : t.acc = s.acc
  cel : t.cel = s.cel
  stay : t.stay = s.stay
  pair : t.pair = s.pair
  jtag : t.jtag = s.jtag
  sysLost : t.sysLost = s.sysLost
  supply : t.supply = s.supply
  pending : t.pending = s.pending

theorem SameGroups.refl (s : State) : SameGroups s s := by constructor <;> rfl

theorem SameGroups.trans {s t u : State} (h : SameGroups s t) (g : SameGroups t u) : SameGroups s u where
  time := g.time.trans h.time
  mast := g.mast.trans h.mast
  ports := g.ports.trans h.ports
  svc := g.svc.trans h.svc
  tdm := g.tdm.trans h.tdm
  isls := g.isls.trans h.isls
  ques := g.ques.trans h.ques
  rig := g.rig.trans h.rig
  boot := g.boot.trans h.boot
  acc := g.acc.trans h.acc
  cel := g.cel.trans h.cel
  stay := g.stay.trans h.stay
  pair := g.pair.trans h.pair
  jtag := g.jtag.trans h.jtag
  sysLost := g.sysLost.trans h.sysLost
  supply := g.supply.trans h.supply
  pending := g.pending.trans h.pending

/-- A peer may have lost items of its open interval, and nothing else (R42). -/
def PeersKeep (s t : State) : Prop :=
  ∀ k, ∃ items, peerAt t k = { peerAt s k with items := items } ∧ items.Sublist (peerAt s k).items

theorem PeersKeep.of_eq {s t : State} (h : t.peers = s.peers) : PeersKeep s t := fun k =>
  ⟨(peerAt s k).items, by simp only [peerAt, h], .refl _⟩

theorem PeersKeep.trans {s t u : State} (h : PeersKeep s t) (g : PeersKeep t u) : PeersKeep s u := fun k => by
  obtain ⟨i, hi, hsub⟩ := h k
  obtain ⟨j, hj, hsub'⟩ := g k
  rw [hi] at hj hsub'
  exact ⟨j, hj, hsub'.trans hsub⟩

/-! ### The channels' part of a fault -/

/-- What the channels' part of a lane's fault leaves: lanes, memory, the groups outside, and every register field but the
counters of events. -/
structure ChannelsOnly (s t : State) : Prop where
  lanes : t.lanes = s.lanes
  mem : t.mem = s.mem
  vcs : t.vcs = s.vcs
  fields : ∀ g i j, g.reg.addr i j ≠ RegId.addr .ERR_CLASS → g.reg.addr i j ≠ RegId.addr .ERR_PENDING →
    fget t g i j = fget s g i j
  groups : SameGroups s t
  peers : PeersKeep s t

theorem ChannelsOnly.refl (s : State) : ChannelsOnly s s :=
  ⟨rfl, rfl, rfl, fun _ _ _ _ _ => rfl, .refl s, .of_eq rfl⟩

theorem ChannelsOnly.trans {s t u : State} (h : ChannelsOnly s t) (g : ChannelsOnly t u) : ChannelsOnly s u where
  lanes := g.lanes.trans h.lanes
  mem := g.mem.trans h.mem
  vcs := g.vcs.trans h.vcs
  fields f i j h1 h2 := (g.fields f i j h1 h2).trans (h.fields f i j h1 h2)
  groups := h.groups.trans g.groups
  peers := h.peers.trans g.peers

theorem ChannelsOnly.ite {r s t : State} {c : Prop} [Decidable c] (h : ChannelsOnly r s) (g : ChannelsOnly r t) :
    ChannelsOnly r (if c then s else t) := by
  split
  · exact h
  · exact g

theorem ChannelsOnly.foldl {α : Type} {f : State → α → State} (hf : ∀ s a, ChannelsOnly s (f s a)) (l : List α) (s : State) :
    ChannelsOnly s (l.foldl f s) := by
  induction l generalizing s with
  | nil => exact .refl s
  | cons a l ih => exact (hf s a).trans (ih (f s a))

theorem raise_channels (src : Nat) (l : List (Nat × Nat)) (s : State) : ChannelsOnly s (raise src l s) where
  lanes := by simp
  mem := by simp
  vcs := by simp
  fields g i j h1 h2 := fget_raise s src l g i j h1 h2
  groups := by constructor <;> simp
  peers := .of_eq (by simp)

theorem modChan_channels (n : Nat) (f : Channel → Channel) (s : State) : ChannelsOnly s (modChan n f s) where
  lanes := by simp
  mem := by simp
  vcs := by simp
  fields g i j _ _ := fget_congr (by simp) g i j
  groups := by constructor <;> simp
  peers := .of_eq (by simp)

theorem modSess_channels (h : Nat) (f : Session → Session) (s : State) : ChannelsOnly s (modSess h f s) where
  lanes := by simp
  mem := by simp
  vcs := by simp
  fields g i j _ _ := fget_congr (by simp) g i j
  groups := by constructor <;> simp
  peers := .of_eq (by simp)

theorem complete_channels (seq status : Nat) (d : Bytes) (s : State) : ChannelsOnly s (complete seq status d s) where
  lanes := by simp
  mem := by simp
  vcs := by simp
  fields g i j _ _ := fget_congr (by simp) g i j
  groups := by constructor <;> simp
  peers := .of_eq (by simp)

theorem dropReefMove_channels (n : Nat) (s : State) : ChannelsOnly s (dropReefMove n s) :=
  ⟨rfl, rfl, rfl, fun g i j _ _ => fget_congr (by rfl) g i j, by constructor <;> rfl, .of_eq rfl⟩

section
variable (n l : Nat) (s : State)

theorem modLeg_channels (f : Leg → Leg) : ChannelsOnly s (modLeg n l f s) := modChan_channels ..
theorem modEc_channels (f : Ec → Ec) : ChannelsOnly s (modEc n f s) := modChan_channels ..
theorem statBump_channels (id k : Nat) : ChannelsOnly s (statBump n id k s) := modChan_channels ..
theorem forcePark_channels : ChannelsOnly s (forcePark n s) := modChan_channels ..
theorem ecReset_channels : ChannelsOnly s (ecReset n s) := modChan_channels ..
theorem fitWindows_channels : ChannelsOnly s (fitWindows n s) := modEc_channels ..
theorem finish_channels (seq status h eff : Nat) : ChannelsOnly s (finish seq status h eff s) := complete_channels ..
theorem timedResult_channels (seq status eff : Nat) : ChannelsOnly s (timedResult seq status eff s) := raise_channels ..
theorem cutEvent_channels : ChannelsOnly s (cutEvent n l s) := modLeg_channels ..

theorem setEntries_channels (st : EntryState) : ChannelsOnly s (setEntries n st s) :=
  (modSess_channels ..).trans (modSess_channels ..)

theorem startMove_channels (m : Move) : ChannelsOnly s (startMove n m s) :=
  (modChan_channels ..).trans (setEntries_channels ..)

theorem refuseModify_channels (r : ModReq) (status : Nat) : ChannelsOnly s (refuseModify r status s) := by
  unfold refuseModify
  exact .ite (timedResult_channels ..) (finish_channels ..)

theorem noteRestart_channels (cause : Nat) : ChannelsOnly s (noteRestart n l cause s) :=
  (statBump_channels ..).trans (raise_channels ..)

theorem stopStream_channels (cause : Nat) : ChannelsOnly s (stopStream n l cause s) := by
  unfold stopStream
  exact .ite (.refl s) ((modLeg_channels ..).trans (noteRestart_channels ..))

theorem modRoom_channels (f : StoreRoom → StoreRoom) : ChannelsOnly s (modRoom n l f s) := modLeg_channels ..

theorem modifyRoom_channels (old : State) : ChannelsOnly s (modifyRoom old n l s) := by
  have h : ∀ (c : Bool) (f : StoreRoom → StoreRoom), ChannelsOnly s (if c then modRoom n l f s else s) := fun c f =>
    .ite (modRoom_channels ..) (.refl s)
  unfold modifyRoom
  exact .ite ((h _ _).trans (modRoom_channels ..)) (h _ _)

/-- A modify that names no parameters acts on no generator and sends no signal. -/
theorem actLeg_nil (side : Nat) : actLeg n l side [] s = s := rfl

theorem modifyLeg_channels (old : State) (side : Nat) : ChannelsOnly s (modifyLeg old n l side [] s) := by
  unfold modifyLeg
  simp only [actLeg_nil]
  have h1 : ∀ c : Prop, ∀ [Decidable c], ChannelsOnly s (if c then cutEvent n l s else s) := fun c _ =>
    .ite (cutEvent_channels ..) (.refl s)
  have h2 : ∀ c : Prop, ∀ [Decidable c], ∀ t f, ChannelsOnly s t →
      ChannelsOnly s (if c then stopStream n l 1 (modLeg n l f t) else t) := fun c _ t f ht =>
    .ite ((ht.trans (modLeg_channels ..)).trans (stopStream_channels ..)) ht
  refine .ite (h2 _ _ _ (h1 _)) ?_
  exact (h2 _ _ _ (h1 _)).trans (modifyRoom_channels ..)

theorem modifyEc_channels (old : State) (side : Nat) (ps : List (Nat × Nat × Word)) :
    ChannelsOnly s (modifyEc old n side ps s) := by
  unfold modifyEc
  dsimp only
  have h : ∀ c : Prop, ∀ [Decidable c], ChannelsOnly s (if c then ecReset n s else s) := fun c _ =>
    .ite (ecReset_channels ..) (.refl s)
  refine ChannelsOnly.trans ?_ (fitWindows_channels ..)
  exact .ite ((h _).trans (modEc_channels ..)) (h _)

end

/-- A modify without parameters of its own: entries and channel, and no generator and no signal (R38). -/
theorem applyModify_channels (r : ModReq) (hr : r.ps = []) (m : Modified) (s : State) : ChannelsOnly s (applyModify r m s) := by
  have hentries : ChannelsOnly s (match (sessAt s r.handle).partner with
      | some p => modSess p (fun e => { e with params := m.q }) (modSess r.handle (fun e => { e with key := m.key, params := m.p }) s)
      | none => modSess r.handle (fun e => { e with key := m.key, params := m.p }) s) := by
    split
    · exact (modSess_channels ..).trans (modSess_channels ..)
    · exact modSess_channels ..
  unfold applyModify
  rw [hr]
  dsimp only
  split
  · exact hentries
  · refine .ite hentries ?_
    exact (((hentries.trans (modChan_channels ..)).trans (modifyEc_channels ..)).trans (modifyLeg_channels ..)).trans
      (modifyLeg_channels ..)

/-- The peers with one item taken out of the open interval of one of them. -/
def withoutItem (k : Nat) (i : BItem) (l : Tab Peer) : Tab Peer :=
  l.map (fun p => if p.1 = k then (p.1, { p.2 with items := p.2.items.erase i }) else p)

theorem tget?_withoutItem (k : Nat) (i : BItem) (l : Tab Peer) (n : Nat) : tget? (withoutItem k i l) n =
    (tget? l n).map (fun p => if n = k then { p with items := p.items.erase i } else p) := by
  induction l with
  | nil => rfl
  | cons e l ih =>
    by_cases hk : e.1 = k <;> by_cases hn : e.1 = n <;> simp_all [withoutItem, tget?]

theorem peersKeep_withoutItem (s : State) (k : Nat) (i : BItem) :
    PeersKeep s { s with peers := withoutItem k i s.peers } := fun n => by
  unfold peerAt tget
  dsimp only
  rw [tget?_withoutItem]
  cases tget? s.peers n with
  | none => exact ⟨[], rfl, .refl _⟩
  | some p =>
    by_cases h : n = k
    · exact ⟨p.items.erase i, by simp [h], List.erase_sublist⟩
    · exact ⟨p.items, by simp [h], .refl _⟩

theorem unsendSig_channels (n l side : Nat) (w : ModWas) (ps : List (Nat × Nat × Word)) (s : State) :
    ChannelsOnly s (unsendSig n l side w ps s) := by
  unfold unsendSig
  split
  · exact .refl s
  · exact ⟨rfl, rfl, rfl, fun g i j _ _ => fget_congr (by rfl) g i j, by constructor <;> rfl, peersKeep_withoutItem s _ _⟩

theorem undoModify_channels (n : Nat) (m : Move) (s : State) : ChannelsOnly s (undoModify n m s) := by
  unfold undoModify
  split
  · next r w hr hw =>
    dsimp only
    have hsig : ChannelsOnly s (unsendSig n (1 - legOfHandle (chanAt s n) r.handle) 1 w r.ps
        (unsendSig n (legOfHandle (chanAt s n) r.handle) 0 w r.ps s)) := (unsendSig_channels ..).trans (unsendSig_channels ..)
    refine .ite ?_ ?_
    · refine ChannelsOnly.trans ?_ (modChan_channels ..)
      refine ChannelsOnly.trans ?_ (modSess_channels ..)
      split
      · exact hsig.trans (modSess_channels ..)
      · exact hsig
    · exact (hsig.trans (applyModify_channels _ rfl _ _)).trans (modChan_channels ..)
  · exact .refl s

theorem unmove_channels (n : Nat) (m : Move) (s : State) : ChannelsOnly s (unmove n m s) := by
  have h : ∀ f : Channel → Channel, ChannelsOnly s (setEntries n .active (modChan n f s)) := fun f =>
    (modChan_channels ..).trans (setEntries_channels ..)
  unfold unmove
  exact ((ChannelsOnly.ite ((h _).trans (forcePark_channels ..)) (h _)).trans (raise_channels ..)).trans
    (dropReefMove_channels ..)

theorem moveBusy_channels (m : Move) (s : State) : ChannelsOnly s (moveBusy m s) := by
  have h : ChannelsOnly s (match m.cmd with
      | some seq => finish seq 9 m.addressed 0 s
      | none => s) := by
    split
    · exact finish_channels ..
    · exact .refl s
  unfold moveBusy
  dsimp only
  split
  · exact h.trans (refuseModify_channels ..)
  · exact h

theorem abandonMove_channels (n : Nat) (s : State) : ChannelsOnly s (abandonMove n s) := by
  unfold abandonMove
  split
  · exact .refl s
  · exact ((unmove_channels ..).trans (undoModify_channels ..)).trans (moveBusy_channels ..)

theorem faultMove_channels (lane : Nat) (s : State) (n : Nat) : ChannelsOnly s (faultMove lane s n) := by
  unfold faultMove
  dsimp only
  split
  · exact .refl s
  · exact .ite (abandonMove_channels ..) (.ite (modChan_channels ..) (.refl s))

theorem leaveLane_channels (lane n : Nat) (s : State) : ChannelsOnly s (leaveLane lane n s) := by
  unfold leaveLane
  split
  · exact startMove_channels ..
  · exact forcePark_channels ..

theorem evacuate_channels (lane : Nat) (s : State) : ChannelsOnly s (evacuate lane s) :=
  (ChannelsOnly.foldl (faultMove_channels lane) _ s).trans
    (.foldl (fun s n => .ite (leaveLane_channels lane n s) (.refl s)) _ _)

/-! ### Pushes abandoned (R98, R304, R309) -/

/-- What a push elsewhere may change of a lane: the status of a push that waits there. -/
def LaneKept (a b : Lane) : Prop :=
  (a.pushReg = none → b = a) ∧ b = { a with core := { a.core with s := b.core.s }, pushReg := b.pushReg }

theorem LaneKept.refl (a : Lane) : LaneKept a a := ⟨fun _ => rfl, rfl⟩

theorem LaneKept.trans {a b c : Lane} (h : LaneKept a b) (g : LaneKept b c) : LaneKept a c := by
  obtain ⟨h1, h2⟩ := h
  obtain ⟨g1, g2⟩ := g
  refine ⟨fun ha => ?_, ?_⟩
  · have hb := h1 ha
    exact (g1 (hb ▸ ha)).trans hb
  · rw [h2] at g2
    exact g2

/-- What pushes that are abandoned or granted leave. -/
structure PushesOnly (s t : State) : Prop where
  lanes : ∀ l, LaneKept (laneAt s l) (laneAt t l)
  mem : t.mem = s.mem
  groups : SameGroups s t
  peers : t.peers = s.peers

theorem PushesOnly.refl (s : State) : PushesOnly s s := ⟨fun _ => .refl _, rfl, .refl s, rfl⟩

theorem PushesOnly.trans {s t u : State} (h : PushesOnly s t) (g : PushesOnly t u) : PushesOnly s u :=
  ⟨fun l => (h.lanes l).trans (g.lanes l), g.mem.trans h.mem, h.groups.trans g.groups, g.peers.trans h.peers⟩

theorem PushesOnly.ite {r s t : State} {c : Prop} [Decidable c] (h : PushesOnly r s) (g : PushesOnly r t) :
    PushesOnly r (if c then s else t) := by
  split
  · exact h
  · exact g

theorem PushesOnly.of_lanes {s t : State} (hl : t.lanes = s.lanes) (hm : t.mem = s.mem) (hg : SameGroups s t)
    (hp : t.peers = s.peers) : PushesOnly s t :=
  ⟨fun l => by rw [show laneAt t l = laneAt s l by rw [laneAt, hl, laneAt]]; exact .refl _, hm, hg, hp⟩

theorem putVc_pushes (q v : Nat) (x : Vc) (s : State) : PushesOnly s (putVc q v x s) :=
  .of_lanes (by simp) (by simp) (by constructor <;> simp) (by simp)

theorem fbump_pushes (f : Fld) (n : Nat) (s : State) (i j : Nat) : PushesOnly s (fbump f n s i j) :=
  .of_lanes (by simp) (by simp) (by constructor <;> simp) (by simp)

theorem fset_pushes (f : Fld) (n : Nat) (s : State) (i j : Nat) : PushesOnly s (fset f n s i j) :=
  .of_lanes (by simp) (by simp) (by constructor <;> simp) (by simp)

theorem raise_pushes (src : Nat) (l : List (Nat × Nat)) (s : State) : PushesOnly s (raise src l s) :=
  .of_lanes (by simp) (by simp) (by constructor <;> simp) (by simp)

theorem raiseCounting_pushes (src sub : Nat) (l : List (Nat × Nat)) (s : State) : PushesOnly s (raiseCounting src sub l s) :=
  .of_lanes (by simp) (by simp) (by constructor <;> simp) (by simp)

theorem startPacket_pushes (q v port : Nat) (b : Bytes) (marks : List Nat) (s : State) :
    PushesOnly s (startPacket q v port b marks s).1 := by
  unfold startPacket
  dsimp only
  split
  · exact (fbump_pushes ..).trans (raiseCounting_pushes ..)
  · exact putVc_pushes ..

theorem putLane_pushes {l : Nat} {x : Lane} {s : State} (h : LaneKept (laneAt s l) x) : PushesOnly s (putLane l x s) := by
  refine ⟨fun k => ?_, by simp, by constructor <;> simp, by simp⟩
  by_cases hk : k = l
  · subst hk
    rwa [laneAt_putLane_same]
  · rw [laneAt_putLane_other _ _ hk]
    exact .refl _

/-- The status of a push that waited goes into a scalar register, or nowhere for S0. -/
theorem laneKept_status {a : Lane} {d : Nat} (h : a.pushReg = some d) (v : Word) :
    LaneKept a { a with core := if d = 0 then a.core else { a.core with s := tset a.core.s d v }, pushReg := none } := by
  refine ⟨fun hn => absurd (hn.symm.trans h) (by simp), ?_⟩
  split <;> rfl

theorem pushResult_pushes (q port status : Nat) (s : State) : PushesOnly s (pushResult q port status s) := by
  unfold pushResult
  split
  · exact .refl s
  · dsimp only
    split
    · exact .refl s
    · next l _ _ d hd => exact putLane_pushes (laneKept_status hd _)

theorem grantWaiting_pushes (n q v : Nat) (s : State) : PushesOnly s (grantWaiting n q v s) := by
  induction n generalizing s with
  | zero => exact .refl s
  | succ n ih =>
    unfold grantWaiting
    refine .ite (.refl s) ?_
    split
    · exact .refl s
    · exact (((putVc_pushes ..).trans (startPacket_pushes ..)).trans (pushResult_pushes ..)).trans (ih _)

theorem truncatePacket_pushes (q v : Nat) (s : State) : PushesOnly s (truncatePacket q v s) := by
  unfold truncatePacket
  dsimp only
  split
  · exact .refl s
  · exact .ite (.refl s) ((((putVc_pushes ..).trans (fbump_pushes ..)).trans (raise_pushes ..)).trans (grantWaiting_pushes ..))

theorem abandonPush_pushes (q port : Nat) (s : State) : PushesOnly s (abandonPush q port s) := by
  unfold abandonPush
  split
  · exact .refl s
  · exact .ite ((putVc_pushes ..).trans (truncatePacket_pushes ..)) (putVc_pushes ..)

theorem abandonLane_pushes (lane : Nat) (s : State) : PushesOnly s (abandonLane lane s) := by
  unfold abandonLane
  refine List.foldlRecOn (motive := fun t => PushesOnly s t) _ _ (.refl s) fun t ht p _ => ht.trans ?_
  split
  · exact abandonPush_pushes ..
  · exact .refl t

/-! ### A lane's fault (R102) -/

/-- The state in which a fault's record is written: its word undone, the lane stopped, its pushes cut. -/
def faultStopped (l : Nat) (c : WordCtx) (s : State) : State :=
  abandonLane l (putLane l { laneAt s l with st := .faulted, core := landAll c.core0, word := none } (undoStores c s))

/-- The record of a fault, with its event. -/
def faultRecorded (l cause slot pc addr : Nat) (s : State) : State :=
  raise (laneEvent l 0) [(1, l), (1, cause), (1, slot), (2, pc), (4, addr)] (fset .LAN_FAULT_ADDR_address addr
    (fset .LAN_FAULT_cause cause (fset .LAN_FAULT_slot slot (fset .LAN_FAULT_pc pc s l) l) l) l)

theorem laneFault_eq {l cause slot pc addr : Nat} {s : State} {c : WordCtx} (h : (laneAt s l).word = some c) :
    laneFault l cause slot pc addr s = evacuate l (faultRecorded l cause slot pc addr (faultStopped l c s)) := by
  unfold laneFault
  simp only [h]
  rfl

theorem laneAt_faultStopped {l : Nat} {c : WordCtx} {s : State} (h : (laneAt s l).pushReg = none) :
    laneAt (faultStopped l c s) l = { laneAt s l with st := .faulted, core := landAll c.core0, word := none } := by
  have hput := laneAt_putLane_same l { laneAt s l with st := .faulted, core := landAll c.core0, word := none } (undoStores c s)
  have hkept := ((abandonLane_pushes l (putLane l { laneAt s l with st := .faulted, core := landAll c.core0, word := none }
    (undoStores c s))).lanes l).1
  rw [hput] at hkept
  exact hkept h

theorem faultRecorded_pushes (l cause slot pc addr : Nat) (s : State) : PushesOnly s (faultRecorded l cause slot pc addr s) :=
  ((((fset_pushes ..).trans (fset_pushes ..)).trans (fset_pushes ..)).trans (fset_pushes ..)).trans (raise_pushes ..)

theorem faultRecorded_lanes (l cause slot pc addr : Nat) (s : State) : (faultRecorded l cause slot pc addr s).lanes = s.lanes := by
  simp [faultRecorded]

theorem faultRecorded_fields {l cause slot pc addr : Nat} (s : State) (hl : l < 128) (hcause : cause < 16) (hslot : slot < 4)
    (hpc : pc < 4096) (haddr : addr < 2 ^ 32) :
    let t := faultRecorded l cause slot pc addr s
    fget t .LAN_FAULT_cause l = cause ∧ fget t .LAN_FAULT_slot l = slot ∧ fget t .LAN_FAULT_pc l = pc ∧
    fget t .LAN_FAULT_ADDR_address l = addr := by
  intro t
  have hbeside : RegId.addr .LAN_FAULT l ≠ RegId.addr .LAN_FAULT_ADDR l :=
    RegisterPlaces.addr_ne (by decide) hl (by decide) hl (by decide)
  have hraise : ∀ g : Fld, g.reg = .LAN_FAULT ∨ g.reg = .LAN_FAULT_ADDR → ∀ u src fields,
      fget (raise src fields u) g l = fget u g l := fun g hg u src fields => by
    rcases hg with hg | hg <;> refine fget_raise u src fields g l 0 ?_ ?_ <;> rw [hg] <;>
      exact RegisterPlaces.addr_ne (by decide) hl (by decide) (by decide) (by decide)
  refine ⟨?_, ?_, ?_, ?_⟩
  · refine (hraise _ (.inl rfl) _ _ _).trans ?_
    rw [fget_fset_other _ _ _ _ _ _ _ _ hbeside, fget_fset_same _ _ _ _ _ (by decide) (by decide)]
    exact Nat.mod_eq_of_lt hcause
  · refine (hraise _ (.inl rfl) _ _ _).trans ?_
    rw [fget_fset_other _ _ _ _ _ _ _ _ hbeside,
      fget_fset_beside _ .LAN_FAULT_cause .LAN_FAULT_slot _ _ _ rfl (by decide) (by decide) (by decide) (by decide),
      fget_fset_same _ _ _ _ _ (by decide) (by decide)]
    exact Nat.mod_eq_of_lt hslot
  · refine (hraise _ (.inl rfl) _ _ _).trans ?_
    rw [fget_fset_other _ _ _ _ _ _ _ _ hbeside,
      fget_fset_beside _ .LAN_FAULT_cause .LAN_FAULT_pc _ _ _ rfl (by decide) (by decide) (by decide) (by decide),
      fget_fset_beside _ .LAN_FAULT_slot .LAN_FAULT_pc _ _ _ rfl (by decide) (by decide) (by decide) (by decide),
      fget_fset_same _ _ _ _ _ (by decide) (by decide)]
    exact Nat.mod_eq_of_lt hpc
  · refine (hraise _ (.inr rfl) _ _ _).trans ?_
    rw [fget_fset_same _ _ _ _ _ (by decide) (by decide)]
    exact Nat.mod_eq_of_lt haddr

theorem laneFaults : LaneFaultsUndoTheirWord := by
  intro l cause slot pc addr s c hword hpush hl hcause hslot hpc haddr t
  have hev := evacuate_channels l (faultRecorded l cause slot pc addr (faultStopped l c s))
  rw [← laneFault_eq hword] at hev
  have hlane : laneAt t l = { laneAt s l with st := .faulted, core := landAll c.core0, word := none } := by
    rw [← laneAt_faultStopped hpush, laneAt, laneAt, hev.lanes, faultRecorded_lanes]
  have hmem : t.mem = c.undo.foldl (fun m p => Memory.write m p.1 p.2) s.mem :=
    hev.mem.trans ((faultRecorded_pushes ..).mem.trans (abandonLane_pushes ..).mem)
  obtain ⟨h1, h2, h3, h4⟩ := faultRecorded_fields (faultStopped l c s) hl hcause hslot hpc haddr
  have hfield : ∀ g : Fld, g.reg = .LAN_FAULT ∨ g.reg = .LAN_FAULT_ADDR →
      fget t g l = fget (faultRecorded l cause slot pc addr (faultStopped l c s)) g l := fun g hg => by
    rcases hg with hg | hg <;> refine hev.fields g l 0 ?_ ?_ <;> rw [hg] <;>
      exact RegisterPlaces.addr_ne (by decide) hl (by decide) (by decide) (by decide)
  exact ⟨by rw [hlane], by rw [hlane], by rw [hlane], hmem, (hfield _ (.inl rfl)).trans h1, (hfield _ (.inl rfl)).trans h2,
    (hfield _ (.inl rfl)).trans h3, (hfield _ (.inr rfl)).trans h4⟩

/-- Settles O11: `LoadStore.exec_of_faults` for the accesses, `laneFault_eq` for the fault. -/
theorem badAccessesAndLaneFaults : Obligations.BadAccessesAndLaneFaults := ⟨LoadStore.badAccesses, laneFaults⟩

end Sys2Proof.Proofs.LaneFaults
end

section
/-! PROOF. What an operation of a lane's word reaches (R59, R83, R98, R309). -/

namespace Sys2Proof.Proofs.LaneReach

open Sys2Proof Sys2Proof.Machine Sys2Proof.Spec Sys2Proof.Proofs.LaneFaults Sys2Proof.Proofs.Effects

/-! ### What stays within a lane -/

/-- A change of state within lane `l`. -/
structure Within (l : Nat) (s t : State) : Prop where
  lanes : ∀ k, k ≠ l → LaneKept (laneAt s k) (laneAt t k)
  groups : SameGroups s t
  peers : PeersKeep s t

theorem Within.refl (l : Nat) (s : State) : Within l s s := ⟨fun _ _ => .refl _, .refl s, .of_eq rfl⟩

theorem Within.trans {l : Nat} {s t u : State} (h : Within l s t) (g : Within l t u) : Within l s u :=
  ⟨fun k hk => (h.lanes k hk).trans (g.lanes k hk), h.groups.trans g.groups, h.peers.trans g.peers⟩

theorem Within.ite {l : Nat} {r s t : State} {c : Prop} [Decidable c] (h : Within l r s) (g : Within l r t) :
    Within l r (if c then s else t) := by
  split
  · exact h
  · exact g

theorem Within.thenIf {l : Nat} {s t : State} {c : Prop} [Decidable c] (f : State → State) (h : Within l s t)
    (hf : ∀ t, Within l t (f t)) : Within l s (if c then f t else t) := .ite (h.trans (hf t)) h

theorem Within.foldl {l : Nat} {α : Type} {f : State → α → State} (hf : ∀ s a, Within l s (f s a)) (as : List α) (s : State) :
    Within l s (as.foldl f s) := by
  induction as generalizing s with
  | nil => exact .refl l s
  | cons a as ih => exact (hf s a).trans (ih (f s a))

theorem Within.onlyLane {w : Issue} {s t : State} (h : Within w.lane s t) : OnlyLane w s t where
  lanes k hk := (h.lanes k hk).1
  waiting k hk := (h.lanes k hk).2
  time := h.groups.time
  mast := h.groups.mast
  peers := h.peers
  ports := h.groups.ports
  svc := h.groups.svc
  tdm := h.groups.tdm
  isls := h.groups.isls
  ques := h.groups.ques
  rig := h.groups.rig
  boot := h.groups.boot
  acc := h.groups.acc
  cel := h.groups.cel
  stay := h.groups.stay
  pair := h.groups.pair
  jtag := h.groups.jtag
  sysLost := h.groups.sysLost
  supply := h.groups.supply
  pending := h.groups.pending

theorem pushes_within {s t : State} (h : PushesOnly s t) (l : Nat) : Within l s t :=
  ⟨fun k _ => h.lanes k, h.groups, .of_eq h.peers⟩

theorem channels_within {s t : State} (h : ChannelsOnly s t) (l : Nat) : Within l s t :=
  ⟨fun k _ => by rw [show laneAt t k = laneAt s k by rw [laneAt, h.lanes, laneAt]]; exact .refl _, h.groups, h.peers⟩

section
variable (l : Nat) (s : State)

/-- Groups within a lane's reach replaced. -/
theorem within_upd (free : Nat) (regs : Tab Word) (mem : List (Nat × Byte)) (poison : List Nat) (ev : Events) (vcs : Tab Vc)
    (areas : Tab RxArea) (age : Age) : Within l s { s with
      free := free, regs := regs, mem := mem, poison := poison, ev := ev, vcs := vcs, areas := areas, age := age } :=
  ⟨fun _ _ => .refl _, by constructor <;> rfl, .of_eq rfl⟩

theorem regsEvents_within {t : State} (h : RegsEvents s t) : Within l s t := by
  obtain ⟨r, e, rfl⟩ := h
  exact within_upd l s s.free r s.mem s.poison e s.vcs s.areas s.age

theorem putLane_within (x : Lane) : Within l s (putLane l x s) :=
  ⟨fun k hk => by rw [laneAt_putLane_other _ _ hk]; exact .refl _, by constructor <;> rfl, .of_eq rfl⟩

theorem raise_within (src : Nat) (fs : List (Nat × Nat)) : Within l s (raise src fs s) :=
  regsEvents_within l s (regsEvents_raise ..)

theorem fset_within (f : Fld) (v i j : Nat) : Within l s (fset f v s i j) := regsEvents_within l s (regsEvents_fset ..)

theorem fbump_within (f : Fld) (n i j : Nat) : Within l s (fbump f n s i j) := regsEvents_within l s (regsEvents_fbump ..)

theorem setWord_within (a v : Nat) : Within l s (setWord a v s) := regsEvents_within l s ⟨_, s.ev, rfl⟩

theorem draw_within : Within l s (draw s) := within_upd l s _ s.regs s.mem s.poison s.ev s.vcs s.areas s.age

theorem storeBytes_within (a : Nat) (b : Bytes) : Within l s (storeBytes a b s) :=
  within_upd l s s.free s.regs _ _ s.ev s.vcs s.areas s.age

theorem putArea_within (k port : Nat) (x : RxArea) : Within l s (putArea k port x s) :=
  within_upd l s s.free s.regs s.mem s.poison s.ev s.vcs _ s.age

theorem putVc_within (q v : Nat) (x : Vc) : Within l s (putVc q v x s) := pushes_within (putVc_pushes ..) l

theorem markFetch_within (a : Nat) (fetch : List Ecc) : Within l s (markFetch a fetch s) :=
  within_upd l s s.free s.regs s.mem _ s.ev s.vcs s.areas s.age

theorem undoStores_within (c : WordCtx) : Within l s (undoStores c s) :=
  within_upd l s s.free s.regs _ _ s.ev s.vcs s.areas s.age

/-! ### Words that are found bad (R78, R366, R394, R398) -/

theorem clusterUe_within (c : Nat) : Within l s (clusterUe c s) :=
  within_upd l s s.free s.regs s.mem s.poison s.ev s.vcs s.areas _

theorem askReef_within (bit : Nat) : Within l s (askReef bit s) := by
  unfold askReef
  exact .ite (within_upd l s s.free s.regs s.mem s.poison s.ev s.vcs s.areas _)
    (within_upd l s s.free s.regs s.mem s.poison s.ev s.vcs s.areas _)

theorem ueMet_within (memory : Nat) : Within l s (ueMet memory s) := by
  unfold ueMet
  exact .ite (((fset_within l s ..).trans (raise_within ..)).trans (askReef_within ..)) (fset_within l s ..)

theorem cellarUe_within (master c : Nat) : Within l s (cellarUe master c s) := by
  unfold cellarUe
  refine Within.trans ?_ (ueMet_within ..)
  refine Within.trans ?_ (raise_within ..)
  exact (((((fbump_within l s ..).trans (fset_within ..)).trans (fset_within ..)).trans (fset_within ..)).trans
    (fset_within ..)).trans (fset_within ..)

theorem memoryUe_within (master a : Nat) : Within l s (memoryUe master a s) := by
  unfold memoryUe
  refine .ite (cellarUe_within ..) (.ite ?_ (.ite (.ite ?_ ?_) (.refl l s)))
  · exact (((fbump_within l s ..).trans (raise_within ..)).trans (ueMet_within ..)).trans (clusterUe_within ..)
  · exact ((fbump_within l s ..).trans (ueMet_within ..)).trans (clusterUe_within ..)
  · exact ((fbump_within l s ..).trans (ueMet_within ..)).trans (clusterUe_within ..)

theorem wordsFixed_within (a n : Nat) : Within l s (wordsFixed a n s) := by
  obtain ⟨r, e, h, -⟩ := LoadStore.wordsFixed_eq a n s
  exact regsEvents_within l s ⟨r, e, h⟩

theorem recordDenial_within (master a n : Nat) (write : Bool) : Within l s (recordDenial master a n write s) :=
  pushes_within (.of_lanes (by simp) (by simp) (by constructor <;> simp) (by simp)) l

/-! ### A lane's fault, the ends of words and ticks (R80, R99 to R102) -/

theorem laneFault_within (cause slot pc addr : Nat) : Within l s (laneFault l cause slot pc addr s) := by
  unfold laneFault
  dsimp only
  refine Within.trans ?_ (channels_within (evacuate_channels ..) l)
  refine Within.trans ?_ (raise_within ..)
  refine Within.trans ?_ (fset_within ..)
  refine Within.trans ?_ (((fset_within ..).trans (fset_within ..)).trans (fset_within ..))
  refine Within.trans ?_ (pushes_within (abandonLane_pushes ..) l)
  refine Within.trans ?_ (putLane_within ..)
  split
  · exact undoStores_within ..
  · exact .refl l s

theorem startTick_within : Within l s (startTick l s) := (storeBytes_within l s ..).trans (putLane_within ..)

theorem endTick_within : Within l s (endTick l s) := by
  unfold endTick
  dsimp only
  have h := (Within.foldl (l := l) (f := fun t port => putArea l port
    { areaAt t l port with used := (areaAt t l port).used.filter (fun u => !(areaAt t l port).taken.contains u.1), taken := [] } t)
    (fun t port => putArea_within l t ..) (List.range 8) s).trans (putLane_within l _
      { laneAt s l with st := .idle, late := false, word := none, core := { (laneAt s l).core with loops := [] } })
  exact .ite (h.trans (startTick_within ..)) h

theorem endWord_within : Within l s (endWord l s) := by
  unfold endWord
  dsimp only
  split
  · exact .refl l s
  · refine .thenIf (endTick l) ?_ (endTick_within l)
    exact ((putLane_within l s _).trans (regsEvents_within l _ (regsEvents_commitArith ..))).trans
      (regsEvents_within l _ (RegsEvents.foldl (fun s a => regsEvents_setFold ..) ..))

theorem beginWord_within (fetch : List Ecc) : Within l s (beginWord l fetch s) := by
  unfold beginWord
  dsimp only
  refine .ite ?_ ?_
  · refine Within.trans ?_ (laneFault_within ..)
    exact ((markFetch_within l s ..).trans (fbump_within ..)).trans
      (.foldl (fun t _ => (ueMet_within l t 1).trans (clusterUe_within ..)) _ _)
  · have h := fun n => (markFetch_within l s (fetchAddr l s) fetch).trans (wordsFixed_within l _ (fetchAddr l s) n)
    split
    · exact ((h _).trans (putLane_within ..)).trans (laneFault_within ..)
    · exact (h _).trans (putLane_within ..)

theorem emptyWords_within (n : Nat) : Within l s (emptyWords n l s) := by
  induction n generalizing s with
  | zero => exact .refl l s
  | succ n ih =>
    unfold emptyWords
    exact .ite (((beginWord_within l s []).trans (endWord_within ..)).trans (ih _)) (.refl l s)

end

/-! ### One operation in its word -/

section
variable (w : Issue) (s : State)

theorem openWord_within : Within w.lane s (openWord w s) := by
  unfold openWord
  have h := emptyWords_within w.lane s w.gap.toNat
  exact .ite (.refl _ s) (.ite (h.trans (beginWord_within ..)) h)

theorem passOp_within : Within w.lane s (passOp w s) := by
  unfold passOp
  exact .ite (putLane_within ..) (.refl _ s)

/-- The state that an operation leaves, before its lane takes in what it did. -/
def stateAfter : OpResult → State
  | .ok r => r.st
  | .fault _ _ t => t

/-- An operation that stays in its lane. -/
def StaysIn (op : Work → OpResult) : Prop := ∀ x, Within x.lane x.st (stateAfter (op x))

theorem runOp_within {op : Work → OpResult} (h : StaysIn op) (slot : Nat) : Within w.lane s (runOp w slot op s) := by
  unfold runOp
  dsimp only
  split
  · exact .refl _ s
  · next c _ =>
    have hop : Within w.lane s (match op { lane := w.lane, slot := slot, core := (laneAt s w.lane).core, ctx := c, st := s } with
        | .ok r => putLane w.lane { laneAt r.st w.lane with core := r.core, word := some r.ctx } r.st
        | .fault cause addr s' =>
          if cause = 8 ∧ !w.last then putLane w.lane { laneAt (laneFault w.lane cause slot c.core0.pc.toNat addr s') w.lane with
            cut := true } (laneFault w.lane cause slot c.core0.pc.toNat addr s')
          else laneFault w.lane cause slot c.core0.pc.toNat addr s') := by
      have hx := h { lane := w.lane, slot := slot, core := (laneAt s w.lane).core, ctx := c, st := s }
      split
      · next r hr =>
        rw [hr] at hx
        exact hx.trans (putLane_within ..)
      · next cause addr t hr =>
        rw [hr] at hx
        have hf := Within.trans hx (laneFault_within w.lane t cause slot c.core0.pc.toNat addr)
        exact .ite (hf.trans (putLane_within ..)) hf
    have hs := Within.ite (c := stageRuns c.core0 w.stage = true) hop (.refl _ s)
    exact .ite (hs.trans (endWord_within ..)) hs

theorem laneOp_within {op : Work → OpResult} (h : StaysIn op) (slot : Nat) : Within w.lane s (laneOp w slot op s) := by
  unfold laneOp
  exact .ite (passOp_within w s) ((openWord_within w s).trans (runOp_within w _ h slot))

end

/-! ### The operations that leave the state around their lane -/

theorem staysIn_of_quiet {op : Work → OpResult} (h : ∀ x, stateAfter (op x) = x.st) : StaysIn op := fun x => by
  rw [h]
  exact .refl ..

section
variable (f : VFields)

theorem vec2_staysIn (n : Nat) (fn : BitVec 32 → BitVec 32 → BitVec 32 × Bool) : StaysIn (vec2 n fn f) :=
  staysIn_of_quiet fun _ => rfl

theorem vec3_staysIn (n : Nat) (fn : BitVec 32 → BitVec 32 → BitVec 32 → BitVec 32 × Bool) : StaysIn (vec3 n fn f) :=
  staysIn_of_quiet fun _ => rfl

theorem raw_staysIn (fn : BitVec 128 → BitVec 128 → BitVec 128 → BitVec 128) : StaysIn (raw fn f) :=
  staysIn_of_quiet fun _ => rfl

theorem accVec_staysIn (reads : Bool) (fn : BitVec 48 → BitVec 32 → BitVec 32 → BitVec 48 × Bool) :
    StaysIn (accVec reads fn f) := staysIn_of_quiet fun x => by
  unfold accVec
  split
  · rfl
  · cases reads <;> rfl

theorem accRed_staysIn : StaysIn (accRed f) := staysIn_of_quiet fun x => by
  unfold accRed
  split
  · rfl
  · unfold lockLater
    split <;> rfl

theorem accStoreV_staysIn : StaysIn (accStoreV f) := staysIn_of_quiet fun x => by
  unfold accStoreV
  split <;> rfl

theorem cvtHf_staysIn : StaysIn (cvtHf f) := staysIn_of_quiet fun x => by
  unfold cvtHf
  split <;> rfl

theorem cvtFh_staysIn : StaysIn (cvtFh f) := staysIn_of_quiet fun x => by
  unfold cvtFh
  split <;> rfl

theorem cvtWf_staysIn : StaysIn (cvtWf f) := staysIn_of_quiet fun x => by
  unfold cvtWf
  split <;> rfl

theorem cvtFw_staysIn : StaysIn (cvtFw f) := staysIn_of_quiet fun x => by
  unfold cvtFw
  split <;> rfl

theorem fixH_staysIn (fn : Int → Int → Int × Bool) : StaysIn (fixH fn f) := staysIn_of_quiet fun _ => rfl

theorem fixW_staysIn (fn : Int → Int → Int × Bool) : StaysIn (fixW fn f) := staysIn_of_quiet fun _ => rfl

theorem shiftH_staysIn (fn : Nat → Int → Int × Bool) : StaysIn (shiftH fn f) := staysIn_of_quiet fun x => by
  unfold shiftH
  dsimp only
  split <;> rfl

theorem mac16_staysIn (sub : Bool) : StaysIn (mac16 sub f) := staysIn_of_quiet fun _ => rfl

theorem roundW_staysIn : StaysIn (roundW f) := staysIn_of_quiet fun _ => rfl

end

/-! ### Accesses -/

theorem accessTrouble_within (x : Work) (a z cause : Nat) (write : Bool) (check : List Ecc) :
    Within x.lane x.st (accessTrouble x a z cause write check) := by
  unfold accessTrouble
  refine .ite (recordDenial_within ..) (.ite ?_ (.refl _ _))
  refine .foldl (fun t b => ?_) _ _
  exact (within_upd x.lane t t.free t.regs t.mem (markPoison t.poison b) t.ev t.vcs t.areas t.age).trans (memoryUe_within ..)

theorem noteSlot_within (f : LsFields) (b : Option Nat) (n : Nat) (x : Work) : Within x.lane x.st (noteSlot f b n x).st :=
  fbump_within ..

theorem lsUpdate_st (f : LsFields) (z : Nat) (x : Work) : (lsUpdate f z x).st = x.st := by
  obtain ⟨l, slot, k, c, s⟩ := x
  obtain ⟨fl, h⟩ := LoadStore.lsUpdate_eq f z l slot k c s
  rw [h]

theorem loadWords_within (a d z : Nat) (check : List Ecc) (x : Work) : Within x.lane x.st (loadWords a d z check x).st := by
  unfold loadWords
  dsimp only
  split
  · exact wordsFixed_within ..
  · exact (wordsFixed_within x.lane x.st d _).trans (draw_within ..)

theorem loadWords_lane (a d z : Nat) (check : List Ecc) (x : Work) : (loadWords a d z check x).lane = x.lane := by
  unfold loadWords
  dsimp only
  split <;> rfl

/-- A load stays in its lane, whatever of its own it does with the bytes. -/
theorem loadOp_staysIn (z : Nat) (acc legal : Bool) (f : LsFields) {put : Bytes → Work → Work}
    (hput : ∀ b x, (put b x).st = x.st) : StaysIn (loadOp z acc legal f put) := fun x => by
  unfold loadOp
  dsimp only
  split
  · exact .refl ..
  · split
    · exact accessTrouble_within ..
    · rw [stateAfter, lsUpdate_st, hput]
      next d _ =>
      have hnote := noteSlot_within f (bankOf (lsAddr f z x)) (accessCycles z) (loadWords (lsAddr f z x) d z f.check x)
      rw [loadWords_lane] at hnote
      exact (loadWords_within _ d z f.check x).trans hnote

theorem storeOp_staysIn (z : Nat) (acc legal : Bool) (f : LsFields) (data : Work → Bytes) {put : Work → Work}
    (hput : ∀ x, (put x).st = x.st) : StaysIn (storeOp z acc legal f data put) := fun x => by
  unfold storeOp
  dsimp only
  split
  · exact .refl ..
  · split
    · exact accessTrouble_within ..
    · rw [stateAfter, hput, lsUpdate_st]
      exact (noteSlot_within f _ _ x).trans (storeBytes_within ..)

/-! ### Queue operations -/

theorem freeStall_within (x : Work) : Within x.lane x.st (freeStall x).st := draw_within ..

theorem pushMarked_pushes (q port : Nat) (b : Bytes) (marks : List Nat) (s : State) :
    PushesOnly s (pushMarked q port b marks s).1 := by
  have hrefuse : ∀ v, PushesOnly s (refuseWaiting q v port s) := fun v => by
    unfold refuseWaiting
    dsimp only
    split
    · exact .refl s
    · exact .ite (((putVc_pushes ..).trans (fbump_pushes ..)).trans (raise_pushes ..)) (putVc_pushes ..)
  unfold pushMarked
  split
  · exact .refl s
  · split
    · exact .of_lanes (by simp) (by simp) (by constructor <;> simp) (by simp)
    · dsimp only
      split
      · exact hrefuse _
      · split
        · exact putVc_pushes ..
        · exact startPacket_pushes ..

theorem pushTrouble_within (l d n : Nat) (s : State) : Within l s (pushTrouble l d n s) := by
  unfold pushTrouble
  refine .ite ?_ (.refl _ s)
  exact (Within.foldl (fun t b => memoryUe_within l t ..) _ s).trans (regsEvents_within l _ (regsEvents_raiseCountingBy ..))

theorem digestPush_within (l port q : Nat) (b : Bytes) (s : State) : Within l s (digestPush l port q b s) := by
  unfold digestPush
  exact .ite (putLane_within ..) (.refl l s)

theorem pushOp_staysIn (f : AluFields) : StaysIn (pushOp f) := fun x => by
  unfold pushOp
  dsimp only
  split
  · exact .refl ..
  · split
    · exact draw_within ..
    · have hpush := fun q k b marks => pushes_within (pushMarked_pushes q k b marks x.st) x.lane
      simp only [apply_ite stateAfter]
      refine .ite (hpush ..) ?_
      have hdone := fun (c : Prop) (_ : Decidable c) port q' b' d n q k b marks =>
        (Within.thenIf (c := c) (digestPush x.lane port q' b') (hpush q k b marks)
          (fun t => digestPush_within x.lane port q' b' t)).trans (pushTrouble_within x.lane d n _)
      refine .ite (hdone ..) ?_
      have hstall := fun (c : Prop) (hc : Decidable c) port q' b' d n q k b marks y =>
        ((hdone c hc port q' b' d n q k b marks).trans (putLane_within x.lane _ y)).trans (draw_within x.lane _)
      exact .ite ((hstall ..).trans (putLane_within ..)) (hstall ..)

theorem noteOp_staysIn (f : AluFields) : StaysIn (noteOp f) := fun x => by
  unfold noteOp
  dsimp only
  split <;> exact putArea_within ..

theorem cutStarted_pushes (q port : Nat) (s : State) : PushesOnly s (cutStarted q port s) := by
  unfold cutStarted
  split
  · exact .refl s
  · dsimp only
    split
    · exact putVc_pushes ..
    · exact .ite (putVc_pushes ..) ((((putVc_pushes ..).trans (putVc_pushes ..)).trans (fbump_pushes ..)).trans
        (raise_pushes ..))

theorem cutPush_pushes (w : Issue) (f : AluFields) (s : State) : PushesOnly s (cutPush w f s) := by
  unfold cutPush
  dsimp only
  split
  · exact .refl s
  · refine .ite (.refl s) ?_
    exact .ite ((pushMarked_pushes ..).trans (cutStarted_pushes ..)) (pushMarked_pushes ..)

/-! ### Scalar operations -/

theorem alu_staysIn (fn : Word → Word → Word) (f : AluFields) : StaysIn (alu fn f) := staysIn_of_quiet fun _ => rfl

theorem aluImm_staysIn (fn : Word → Word → Word) (f : ImmFields) : StaysIn (aluImm fn f) := staysIn_of_quiet fun _ => rfl

theorem branch_st (taken call : Bool) (t : BitVec 12) (x : Work) : stateAfter (branch taken call t x) = x.st := by
  cases taken <;> rfl

theorem moveFrom_staysIn (f : SpecialFields) : StaysIn (moveFrom f) := fun x => by
  unfold moveFrom
  split
  · exact .refl ..
  · split
    · exact freeStall_within x
    · exact .refl ..

theorem moveTo_staysIn (f : SpecialFields) : StaysIn (moveTo' f) := staysIn_of_quiet fun x => by
  unfold moveTo'
  split <;> rfl

/-! ### Every row of a lane's operations -/

/-- A row that stays in its lane. -/
def RowStays (i : Issue → Instr) : Prop := ∀ (w : Issue) (s t : State), exec (i w) s = .next t → OnlyLane w s t

theorem rowStays_of_op {i : Issue → Instr} {slot : Nat} {op : Work → OpResult} (h : StaysIn op)
    (hi : ∀ w s, exec (i w) s = .next (laneOp w slot op s)) : RowStays i := fun w s t ht => by
  rw [hi, Host.Outcome.next.injEq] at ht
  exact ht ▸ (laneOp_within w s h slot).onlyLane

theorem broadcast_staysIn (f : VFields) : StaysIn (broadcast f) := raw_staysIn f _

theorem accScale_staysIn (f : VFields) : StaysIn (accScale f) := fun x => by
  unfold accScale
  exact accVec_staysIn f true _ x

theorem rowStays_vector : ∀ r ∈ vRows, ∀ f, RowStays (fun w => r w f) := by
  rw [vRows]
  simp only [List.forall_mem_append]
  refine ⟨⟨?_, ?_⟩, ?_⟩
  · simp only [List.forall_mem_cons]
    exact ⟨fun f => rowStays_of_op (vec2_staysIn f _ _) (fun _ _ => rfl),
      fun f => rowStays_of_op (vec2_staysIn f _ _) (fun _ _ => rfl),
      fun f => rowStays_of_op (vec2_staysIn f _ _) (fun _ _ => rfl),
      fun f => rowStays_of_op (vec3_staysIn f _ _) (fun _ _ => rfl),
      fun f => rowStays_of_op (vec3_staysIn f _ _) (fun _ _ => rfl),
      fun f => rowStays_of_op (vec2_staysIn f _ _) (fun _ _ => rfl),
      fun f => rowStays_of_op (vec2_staysIn f _ _) (fun _ _ => rfl),
      fun f => rowStays_of_op (vec2_staysIn f _ _) (fun _ _ => rfl),
      fun f => rowStays_of_op (vec2_staysIn f _ _) (fun _ _ => rfl),
      fun f => rowStays_of_op (vec2_staysIn f _ _) (fun _ _ => rfl),
      fun f => rowStays_of_op (vec2_staysIn f _ _) (fun _ _ => rfl),
      fun f => rowStays_of_op (vec2_staysIn f _ _) (fun _ _ => rfl),
      fun f => rowStays_of_op (raw_staysIn f _) (fun _ _ => rfl),
      fun f => rowStays_of_op (raw_staysIn f _) (fun _ _ => rfl),
      fun f => rowStays_of_op (raw_staysIn f _) (fun _ _ => rfl),
      fun f => rowStays_of_op (raw_staysIn f _) (fun _ _ => rfl),
      fun f => rowStays_of_op (raw_staysIn f _) (fun _ _ => rfl),
      fun f => rowStays_of_op (raw_staysIn f _) (fun _ _ => rfl),
      fun f => rowStays_of_op (raw_staysIn f _) (fun _ _ => rfl),
      fun f => rowStays_of_op (broadcast_staysIn f) (fun _ _ => rfl),
      fun _ h => absurd h List.not_mem_nil⟩
  · simp only [List.forall_mem_cons]
    exact ⟨fun f => rowStays_of_op (accVec_staysIn f _ _) (fun _ _ => rfl),
      fun f => rowStays_of_op (accVec_staysIn f _ _) (fun _ _ => rfl),
      fun f => rowStays_of_op (accVec_staysIn f _ _) (fun _ _ => rfl),
      fun f => rowStays_of_op (accVec_staysIn f _ _) (fun _ _ => rfl),
      fun f => rowStays_of_op (accVec_staysIn f _ _) (fun _ _ => rfl),
      fun f => rowStays_of_op (accVec_staysIn f _ _) (fun _ _ => rfl),
      fun f => rowStays_of_op (accScale_staysIn f) (fun _ _ => rfl),
      fun f => rowStays_of_op (accRed_staysIn f) (fun _ _ => rfl),
      fun f => rowStays_of_op (accStoreV_staysIn f) (fun _ _ => rfl),
      fun f => rowStays_of_op (cvtHf_staysIn f) (fun _ _ => rfl),
      fun f => rowStays_of_op (cvtFh_staysIn f) (fun _ _ => rfl),
      fun f => rowStays_of_op (cvtWf_staysIn f) (fun _ _ => rfl),
      fun f => rowStays_of_op (cvtFw_staysIn f) (fun _ _ => rfl),
      fun _ h => absurd h List.not_mem_nil⟩
  · simp only [List.forall_mem_cons]
    exact ⟨fun f => rowStays_of_op (fixH_staysIn f _) (fun _ _ => rfl),
      fun f => rowStays_of_op (fixH_staysIn f _) (fun _ _ => rfl),
      fun f => rowStays_of_op (fixH_staysIn f _) (fun _ _ => rfl),
      fun f => rowStays_of_op (fixH_staysIn f _) (fun _ _ => rfl),
      fun f => rowStays_of_op (fixH_staysIn f _) (fun _ _ => rfl),
      fun f => rowStays_of_op (fixH_staysIn f _) (fun _ _ => rfl),
      fun f => rowStays_of_op (fixH_staysIn f _) (fun _ _ => rfl),
      fun f => rowStays_of_op (fixH_staysIn f _) (fun _ _ => rfl),
      fun f => rowStays_of_op (shiftH_staysIn f _) (fun _ _ => rfl),
      fun f => rowStays_of_op (shiftH_staysIn f _) (fun _ _ => rfl),
      fun f => rowStays_of_op (fixH_staysIn f _) (fun _ _ => rfl),
      fun f => rowStays_of_op (fixW_staysIn f _) (fun _ _ => rfl),
      fun f => rowStays_of_op (fixW_staysIn f _) (fun _ _ => rfl),
      fun f => rowStays_of_op (fixW_staysIn f _) (fun _ _ => rfl),
      fun f => rowStays_of_op (fixW_staysIn f _) (fun _ _ => rfl),
      fun f => rowStays_of_op (fixW_staysIn f _) (fun _ _ => rfl),
      fun f => rowStays_of_op (mac16_staysIn f _) (fun _ _ => rfl),
      fun f => rowStays_of_op (mac16_staysIn f _) (fun _ _ => rfl),
      fun f => rowStays_of_op (roundW_staysIn f) (fun _ _ => rfl),
      fun _ h => absurd h List.not_mem_nil⟩

theorem lockLater_st (key n : Nat) (x : Work) : (lockLater key n x).st = x.st := by
  unfold lockLater
  split <;> rfl

theorem adda_staysIn (f : LsFields) :
    StaysIn (fun w => if lsLegal f then .ok (lsUpdate f 1 (noteSlot f none 1 w)) else illegal w) := fun x => by
  dsimp only
  split
  · rw [stateAfter, lsUpdate_st]
    exact noteSlot_within ..
  · exact .refl ..

theorem awr_staysIn (f : LsFields) : StaysIn (fun w =>
    if lsLegal f && namesScalar f && decide (f.imm.toNat < 4) then
      let w1 := await [f.reg.toNat] (noteSlot f none 1 w)
      .ok { w1 with ctx := { w1.ctx with
        awr := w1.ctx.awr ++ [(f.areg.toNat, f.imm.toNat, readS w.ctx.core0 f.reg.toNat)] } }
    else illegal w) := fun x => by
  dsimp only
  split
  · exact noteSlot_within f none 1 x
  · exact .refl ..

theorem ard_staysIn (f : LsFields) : StaysIn (fun w =>
    if lsLegal f && namesScalar f && decide (f.imm.toNat < 4) then
      .ok (setScalar f.reg.toNat ((readA w.core f.areg.toNat).field f.imm.toNat) (noteSlot f none 1 w))
    else illegal w) := fun x => by
  dsimp only
  split
  · exact noteSlot_within f none 1 x
  · exact .refl ..

theorem rowStays_of_load {i : Issue → Instr} {f : LsFields} {z : Nat} {acc legal : Bool} {put : Bytes → Work → Work}
    (hi : ∀ w s, exec (i w) s = .next (laneOp w (lsSlot f) (loadOp z acc legal f put) s)) (hput : ∀ b x, (put b x).st = x.st) :
    RowStays i := rowStays_of_op (loadOp_staysIn z acc legal f hput) hi

theorem rowStays_of_store {i : Issue → Instr} {f : LsFields} {z : Nat} {acc legal : Bool} {data : Work → Bytes}
    {put : Work → Work} (hi : ∀ w s, exec (i w) s = .next (laneOp w (lsSlot f) (storeOp z acc legal f data put) s))
    (hput : ∀ x, (put x).st = x.st) : RowStays i := rowStays_of_op (storeOp_staysIn z acc legal f data hput) hi

theorem rowStays_memory : ∀ r ∈ lsRows, ∀ f, RowStays (fun w => r w f) := by
  simp only [lsRows, List.forall_mem_cons]
  exact ⟨fun f => rowStays_of_load (fun _ _ => rfl) (fun _ _ => lockLater_st ..),
    fun f => rowStays_of_load (fun _ _ => rfl) (fun _ _ => rfl),
    fun f => rowStays_of_load (fun _ _ => rfl) (fun _ _ => rfl),
    fun f => rowStays_of_load (fun _ _ => rfl) (fun _ _ => rfl),
    fun f => rowStays_of_store (fun _ _ => rfl) (fun _ => rfl),
    fun f => rowStays_of_store (fun _ _ => rfl) (fun _ => rfl),
    fun f => rowStays_of_store (fun _ _ => rfl) (fun _ => rfl),
    fun f => rowStays_of_store (fun _ _ => rfl) (fun _ => rfl),
    fun f => rowStays_of_load (fun _ _ => rfl) (fun _ _ => lockLater_st ..),
    fun f => rowStays_of_store (fun _ _ => rfl) (fun _ => rfl),
    fun f => rowStays_of_op (adda_staysIn f) (fun _ _ => rfl),
    fun f => rowStays_of_op (awr_staysIn f) (fun _ _ => rfl),
    fun f => rowStays_of_op (ard_staysIn f) (fun _ _ => rfl),
    fun _ h => absurd h List.not_mem_nil⟩

theorem rowStays_alu : ∀ r ∈ aluRows, ∀ f, RowStays (fun w => r w f) := by
  simp only [aluRows, List.forall_mem_cons]
  exact ⟨fun f => rowStays_of_op (alu_staysIn _ f) (fun _ _ => rfl),
    fun f => rowStays_of_op (alu_staysIn _ f) (fun _ _ => rfl),
    fun f => rowStays_of_op (alu_staysIn _ f) (fun _ _ => rfl),
    fun f => rowStays_of_op (alu_staysIn _ f) (fun _ _ => rfl),
    fun f => rowStays_of_op (alu_staysIn _ f) (fun _ _ => rfl),
    fun f => rowStays_of_op (alu_staysIn _ f) (fun _ _ => rfl),
    fun f => rowStays_of_op (alu_staysIn _ f) (fun _ _ => rfl),
    fun f => rowStays_of_op (alu_staysIn _ f) (fun _ _ => rfl),
    fun f => rowStays_of_op (alu_staysIn _ f) (fun _ _ => rfl),
    fun f => rowStays_of_op (alu_staysIn _ f) (fun _ _ => rfl),
    fun f => rowStays_of_op (alu_staysIn _ f) (fun _ _ => rfl),
    fun f => rowStays_of_op (alu_staysIn _ f) (fun _ _ => rfl),
    fun _ h => absurd h List.not_mem_nil⟩

theorem rowStays_imm : ∀ r ∈ immRows, ∀ f, RowStays (fun w => r w f) := by
  simp only [immRows, List.forall_mem_cons]
  exact ⟨fun f => rowStays_of_op (aluImm_staysIn _ f) (fun _ _ => rfl),
    fun f => rowStays_of_op (aluImm_staysIn _ f) (fun _ _ => rfl),
    fun f => rowStays_of_op (aluImm_staysIn _ f) (fun _ _ => rfl),
    fun f => rowStays_of_op (aluImm_staysIn _ f) (fun _ _ => rfl),
    fun f => rowStays_of_op (aluImm_staysIn _ f) (fun _ _ => rfl),
    fun f => rowStays_of_op (aluImm_staysIn _ f) (fun _ _ => rfl),
    fun _ h => absurd h List.not_mem_nil⟩

theorem rowStays_of_branch {i : Issue → Instr} {taken : Work → Bool} {call : Bool} {t : Work → BitVec 12} {before : Work → Work}
    (hi : ∀ w s, exec (i w) s = .next (laneOp w 3 (fun w => branch (taken w) call (t w) (before w)) s))
    (hb : ∀ x, (before x).st = x.st) : RowStays i :=
  rowStays_of_op (staysIn_of_quiet fun x => (branch_st ..).trans (hb x)) hi

theorem rowStays_branch : ∀ r ∈ branchRows, ∀ f, RowStays (fun w => r w f) := by
  simp only [branchRows, List.forall_mem_cons]
  exact ⟨fun f => rowStays_of_branch (fun _ _ => rfl) (fun _ => rfl),
    fun f => rowStays_of_branch (fun _ _ => rfl) (fun _ => rfl),
    fun f => rowStays_of_branch (fun _ _ => rfl) (fun _ => rfl),
    fun f => rowStays_of_branch (fun _ _ => rfl) (fun _ => rfl),
    fun f => rowStays_of_branch (fun _ _ => rfl) (fun _ => rfl),
    fun _ h => absurd h List.not_mem_nil⟩

theorem rowStays_loop (f : LoopFields) : RowStays (fun w => .loop w f) := by
  refine rowStays_of_op (staysIn_of_quiet fun x => ?_) (fun _ _ => rfl)
  dsimp only
  split
  · rfl
  · split <;> cases f.fromReg <;> rfl

theorem rowStays_qpush (f : AluFields) : RowStays (fun w => .qpush w f) := fun w s t ht => by
  have h : exec (.qpush w f) s = .next (if (laneAt s w.lane).cut then passOp w (cutPush w f s) else laneOp w 3 (pushOp f) s) := rfl
  rw [h, Host.Outcome.next.injEq] at ht
  refine ht ▸ Within.onlyLane (.ite ?_ (laneOp_within w s (pushOp_staysIn f) 3))
  exact (pushes_within (cutPush_pushes w f s) _).trans (passOp_within w _)

theorem goOn_staysIn : StaysIn goOn := fun x => by
  unfold goOn
  rw [stateAfter]
  split
  · exact freeStall_within { x with ctx := { x.ctx with held := false } }
  · exact .refl ..

theorem stallWait_within (w : Issue) (s : State) : Within w.lane s (stallWait w s) := by
  unfold stallWait
  dsimp only
  split
  · exact .refl ..
  · exact putLane_within ..

theorem rowStays_qwait (f : AluFields) : RowStays (fun w => .qwait w f) := fun w s t ht => by
  refine Within.onlyLane ?_
  have h : exec (.qwait w f) s = execQwait w f s := rfl
  rw [h, execQwait] at ht
  split at ht
  · exact Host.Outcome.next.inj ht ▸ passOp_within w s
  · have ho := openWord_within w s
    dsimp only at ht
    split at ht
    · exact Host.Outcome.next.inj ht ▸ ho
    · split at ht
      · exact Host.Outcome.next.inj ht ▸ ho.trans (stallWait_within w _)
      · exact Host.Outcome.next.inj ht ▸ ho.trans (runOp_within w _ goOn_staysIn 3)

/-- Settles O59: each row's operation stays in its lane, and so does all that its word does around it. -/
theorem laneOperationsStayInTheirLane : Obligations.LaneOperationsStayInTheirLane :=
  ⟨⟨rowStays_vector, rowStays_memory, rowStays_alu, rowStays_imm, rowStays_branch, rowStays_qpush,
    fun f => rowStays_of_op (noteOp_staysIn f) (fun _ _ => rfl),
    fun _ => rowStays_of_op (staysIn_of_quiet fun _ => rfl) (fun _ _ => rfl), rowStays_loop,
    fun f => rowStays_of_op (moveFrom_staysIn f) (fun _ _ => rfl), fun f => rowStays_of_op (moveTo_staysIn f) (fun _ _ => rfl),
    rowStays_of_op (staysIn_of_quiet fun _ => rfl) (fun _ _ => rfl),
    rowStays_of_op (staysIn_of_quiet fun _ => rfl) (fun _ _ => rfl)⟩, fun w f => rowStays_qwait f w⟩

end Sys2Proof.Proofs.LaneReach
end

section
/-! PROOF. Which registers an effect reaches, and counters that go one higher (R12, R401, R408). -/

namespace Sys2Proof.Proofs.RegisterFields

open Sys2Proof Sys2Proof.Machine Sys2Proof.Spec

/-- No register word has changed but those at the given addresses. -/
structure OnlyAt (as : List Nat) (s t : State) : Prop where
  same : ∀ a, a ∉ as → regWord t a = regWord s a

theorem OnlyAt.of_regs {as : List Nat} {s t : State} (h : t.regs = s.regs) : OnlyAt as s t := ⟨fun a _ => by simp only [regWord, h]⟩

theorem OnlyAt.trans {as bs : List Nat} {s t u : State} (h : OnlyAt as s t) (g : OnlyAt bs t u) : OnlyAt (as ++ bs) s u :=
  ⟨fun a ha => by
    rw [List.mem_append, not_or] at ha
    exact (g.same a ha.2).trans (h.same a ha.1)⟩

theorem OnlyAt.then {as : List Nat} {s t u : State} (h : OnlyAt as s t) (g : OnlyAt as t u) : OnlyAt as s u :=
  ⟨fun a ha => (g.same a ha).trans (h.same a ha)⟩

theorem OnlyAt.mono {as bs : List Nat} {s t : State} (h : OnlyAt as s t) (hs : as ⊆ bs) : OnlyAt bs s t :=
  ⟨fun a ha => h.same a fun h' => ha (hs h')⟩

theorem OnlyAt.ite {as : List Nat} {r s t : State} {c : Prop} [Decidable c] (h : OnlyAt as r s) (g : OnlyAt as r t) :
    OnlyAt as r (if c then s else t) := by
  split
  · exact h
  · exact g

theorem onlyAt_refl (as : List Nat) (s : State) : OnlyAt as s s := ⟨fun _ _ => rfl⟩

theorem onlyAt_setWord {as : List Nat} {a : Nat} (w : Nat) (s : State) (ha : a ∈ as) : OnlyAt as s (setWord a w s) :=
  ⟨fun _ hb => regWord_setWord_other w s fun h => hb (h ▸ ha)⟩

theorem onlyAt_fset {as : List Nat} (f : Fld) (v : Nat) (s : State) (i j : Nat) (ha : f.reg.addr i j ∈ as) :
    OnlyAt as s (fset f v s i j) := onlyAt_setWord _ _ ha

theorem onlyAt_fbump {as : List Nat} (f : Fld) (n : Nat) (s : State) (i j : Nat) (ha : f.reg.addr i j ∈ as) :
    OnlyAt as s (fbump f n s i j) := onlyAt_setWord _ _ ha

/-- The counters of R401 and R408 that events advance. -/
def eventCounters : List Nat := [RegId.addr .ERR_CLASS, RegId.addr .ERR_PENDING]

theorem onlyAt_countClass (src : Nat) (s : State) : OnlyAt eventCounters s (countClass src s) := by
  unfold countClass
  have h (f : Fld) (hf : f.reg = .ERR_CLASS) : OnlyAt eventCounters s (fbump f 1 s) :=
    onlyAt_fbump f 1 s 0 0 (by simp [eventCounters, hf])
  exact .ite (h _ rfl) (.ite (h _ rfl) (onlyAt_refl _ s))

theorem onlyAt_raise (src : Nat) (l : List (Nat × Nat)) (s : State) : OnlyAt eventCounters s (raise src l s) := by
  refine (onlyAt_countClass src s).then ?_
  unfold raise enqueueEvent
  split
  · exact .of_regs (by rfl)
  · exact (onlyAt_fbump .ERR_PENDING_lost 1 (countClass src s) 0 0 (by simp [eventCounters])).then (.of_regs (by rfl))

theorem onlyAt_raiseLimited (src sub n : Nat) (l : List (Nat × Nat)) (s : State) :
    OnlyAt eventCounters s (raiseLimited src sub n l s) := by
  unfold raiseLimited
  exact .ite ((OnlyAt.of_regs (by rfl)).then (onlyAt_raise ..)) (onlyAt_countClass ..)

theorem onlyAt_raiseCounting (src sub : Nat) (l : List (Nat × Nat)) (s : State) :
    OnlyAt eventCounters s (raiseCounting src sub l s) := by
  unfold raiseCounting raiseCountingBy
  exact .ite ((OnlyAt.of_regs (by rfl)).then (onlyAt_raise ..)) ((OnlyAt.of_regs (by rfl)).then (onlyAt_countClass ..))

section
variable {as : List Nat} {s t u : State} {f : Fld} {i j : Nat}

/-- A field of a register that the effect does not reach. -/
theorem OnlyAt.fget (h : OnlyAt as s t) (ha : f.reg.addr i j ∉ as) : fget t f i j = fget s f i j := by
  rw [Machine.fget, h.same _ ha, Machine.fget]

theorem OnlyAt.fbit (h : OnlyAt as s t) (ha : f.reg.addr i j ∉ as) : fbit t f i j = fbit s f i j := by
  rw [Machine.fbit, h.fget ha, Machine.fbit]

theorem counted_fbump (s : State) (f : Fld) (i : Nat) (h : f.lo ≤ f.hi) (h31 : f.hi < 32) : counted s (fbump f 1 s i) f i :=
  fget_fbump_same s f 1 i 0 h h31

theorem counted_after (h : counted s t f i) (ho : OnlyAt as t u) (ha : f.reg.addr i ∉ as) : counted s u f i :=
  (ho.fget ha).trans h

theorem counted_before (ho : OnlyAt as s t) (ha : f.reg.addr i ∉ as) (h : counted t u f i) : counted s u f i := by
  rw [counted, ← ho.fget ha]
  exact h

end

end Sys2Proof.Proofs.RegisterFields
end

section
/-! PROOF. The host port: frames, their checks and their answers (R366, R374 to R382, R503). -/

namespace Sys2Proof.Proofs.HostPort

open Sys2Proof Sys2Proof.Machine Sys2Proof.Spec Sys2Proof.Proofs.Effects Sys2Proof.Proofs.RegisterFields

/-! ### The response held (R376) -/

section
variable (op tag status : Nat) (data : Bytes) (kind take : Nat) (s : State)

theorem respond_eq : ∃ r, respond op tag status data kind take s = { s with
    regs := r, host := { s.host with resp := some { bytes := respFrame s op tag status data, kind := kind, take := take } } } := by
  unfold respond
  by_cases h : s.host.resp.isSome = true
  · exact ⟨_, by simp only [h, if_true]; rfl⟩
  · exact ⟨s.regs, by simp only [h, if_false, Bool.false_eq_true]⟩

theorem onlyAt_respond : OnlyAt [RegId.addr .HST_RESP] s (respond op tag status data kind take s) := by
  have h : OnlyAt [RegId.addr .HST_RESP] s (if s.host.resp.isSome then fbump .HST_RESP_lost_responses 1 s else s) :=
    .ite (onlyAt_fbump _ _ _ _ _ (by simp)) (onlyAt_refl _ s)
  exact h.then (.of_regs (by rfl))

theorem holdsResponse_respond : holdsResponse (respond op tag status data kind take s) op tag status data := by
  obtain ⟨r, h⟩ := respond_eq op tag status data kind take s
  rw [h]
  refine ⟨_, (if s.host.cpls.isEmpty then 0 else 1) + (if s.host.evq.isEmpty then 0 else 2), rfl, ?_, rfl⟩
  split <;> split <;> decide

end

/-- A response held is held in any state with the same host port. -/
theorem holdsResponse_congr {t u : State} {op tag status : Nat} {data : Bytes} (h : u.host.resp = t.host.resp)
    (ht : holdsResponse t op tag status data) : holdsResponse u op tag status data := by
  unfold holdsResponse
  rw [h]
  exact ht

theorem dropResponse_eq_unheld (s : State) : dropResponse s = unheld s := by
  unfold dropResponse unheld
  cases h : s.host.resp <;> rfl

theorem dropResponse_eq : ∀ s : State, ∃ r, dropResponse s = { s with regs := r, host := { s.host with resp := none } } := fun s => by
  unfold dropResponse
  by_cases h : s.host.resp.isSome = true
  · exact ⟨_, by simp only [h, if_true]; rfl⟩
  · have hn : s.host.resp = none := by simpa using h
    refine ⟨s.regs, ?_⟩
    simp only [h, if_false, Bool.false_eq_true]
    rw [← hn]

theorem onlyAt_dropResponse (s : State) : OnlyAt [RegId.addr .HST_RESP] s (dropResponse s) := by
  unfold dropResponse
  refine .ite ?_ (onlyAt_refl _ s)
  exact (OnlyAt.of_regs (by rfl)).then (onlyAt_fbump _ _ _ _ _ (by simp))

theorem counted_dropResponse {s : State} (h : s.host.resp.isSome = true) :
    counted s (dropResponse s) .HST_RESP_lost_responses := by
  unfold dropResponse
  rw [if_pos h]
  exact counted_fbump s .HST_RESP_lost_responses 0 (by decide) (by decide)

/-! ### Posted writes that fail (R376) -/

section
variable (status addr : Nat) (s : State)

/-- The registers of a posted write's failure record, and the counters of events. -/
def postedRegs : List Nat := [RegId.addr .HST_POSTED_ADDR, RegId.addr .HST_POSTED] ++ eventCounters

theorem regsEvents_postedFail : RegsEvents s (postedFail status addr s) := by
  unfold postedFail
  refine RegsEvents.trans (.ite (.refl s) ?_) (regsEvents_raise ..)
  exact RegsEvents.trans ⟨_, s.ev, rfl⟩ ((regsEvents_fset ..).trans (regsEvents_fset ..))

theorem onlyAt_postedFail : OnlyAt postedRegs s (postedFail status addr s) := by
  unfold postedFail
  refine OnlyAt.then (.ite (onlyAt_refl _ s) ?_) ((onlyAt_raise ..).mono (by simp [postedRegs]))
  exact ((onlyAt_setWord _ _ (by simp [postedRegs])).then (onlyAt_fset _ _ _ _ _ (by simp [postedRegs]))).then
    (onlyAt_fset _ _ _ _ _ (by simp [postedRegs]))

theorem postedFail_fields (h : status < 65536) : fget (postedFail status addr s) .HST_POSTED_valid = 1 ∧
    (fget s .HST_POSTED_valid = 0 → fget (postedFail status addr s) .HST_POSTED_status = status) := by
  have apart : RegId.addr .HST_POSTED ∉ eventCounters := by decide +kernel
  unfold postedFail
  refine ⟨((onlyAt_raise ..).fget (f := .HST_POSTED_valid) apart).trans ?_,
    fun h0 => ((onlyAt_raise ..).fget (f := .HST_POSTED_status) apart).trans ?_⟩
  · by_cases hv : fbit s .HST_POSTED_valid = true
    · rw [if_pos hv]
      have h2 : fget s .HST_POSTED_valid < 2 := Nat.mod_lt _ (by decide)
      have h0 : fget s .HST_POSTED_valid ≠ 0 := by simpa [fbit] using hv
      omega
    · rw [if_neg hv]
      exact fget_fset_same _ _ _ _ _ (by decide) (by decide)
  · have hv : ¬ fbit s .HST_POSTED_valid = true := by simp [fbit, h0]
    rw [if_neg hv, fget_fset_beside _ .HST_POSTED_valid .HST_POSTED_status _ _ _ rfl (by decide) (by decide) (by decide)
      (by decide), fget_fset_same _ _ _ _ _ (by decide) (by decide)]
    exact Nat.mod_eq_of_lt h

end

/-! ### Frames that fail a check (R374, R375) -/

theorem exec_frameRow {r : Bytes → Instr} (hr : r ∈ frameRows) (f : Bytes) (s : State) :
    exec (r f) s = .next (hostFrame f s) := by
  simp only [frameRows, List.mem_cons, List.not_mem_nil, or_false] at hr
  rcases hr with rfl | rfl | rfl | rfl | rfl | rfl <;> rfl

/-- A failed frame answered: the response that it gives, its counter, and the queues and memory as they were. -/
theorem answerFail_response {status : Nat} {f : Bytes} {s : State} :
    (10 ≤ f.length → reqOp f ≠ 3 → holdsResponse (answerFail status f s) (reqOp f) (reqTag f) status []) ∧
    (f.length < 10 → holdsResponse (answerFail status f s) 0 0 status []) := by
  unfold answerFail
  refine ⟨fun hlen hop => ?_, fun hlen => ?_⟩
  · rw [if_neg (Nat.not_lt.2 hlen), if_neg hop]
    exact holdsResponse_respond ..
  · rw [if_pos hlen]
    exact holdsResponse_respond ..

/-- What an answer to a failed frame leaves: registers, events and the response apart, everything. -/
theorem answerFail_eq (status : Nat) (f : Bytes) (s : State) : ∃ r e x, answerFail status f s =
    { s with regs := r, ev := e, host := { s.host with resp := x } } := by
  unfold answerFail
  split
  · obtain ⟨r, h⟩ := respond_eq 0 0 status [] 0 0 s
    exact ⟨r, s.ev, _, h⟩
  · split
    · obtain ⟨r, h⟩ := dropResponse_eq s
      obtain ⟨r', e', h'⟩ := regsEvents_postedFail status (reqAddr f) (dropResponse s)
      rw [h] at h' ⊢
      exact ⟨r', e', none, h'⟩
    · obtain ⟨r, h⟩ := respond_eq (reqOp f) (reqTag f) status [] 0 0 s
      exact ⟨r, s.ev, _, h⟩

theorem onlyAt_answerFail (status : Nat) (f : Bytes) (s : State) :
    OnlyAt (RegId.addr .HST_RESP :: postedRegs) s (answerFail status f s) := by
  have hr := fun op tag st d => (onlyAt_respond op tag st d 0 0 s).mono (bs := RegId.addr .HST_RESP :: postedRegs) (by simp)
  unfold answerFail
  refine .ite (hr ..) (.ite ?_ (hr ..))
  exact ((onlyAt_dropResponse s).mono (by simp)).then ((onlyAt_postedFail ..).mono (by simp))

theorem countFrameError_eq (status : Nat) (f : Bytes) (s : State) : RegsEvents s (countFrameError status f s) := by
  unfold countFrameError
  exact (RegsEvents.ite (regsEvents_fbump ..) (regsEvents_fbump ..)).trans (regsEvents_raiseLimited ..)

/-- The counters of failed frames are no other register's. -/
theorem frameErr_apart : RegId.addr .HST_FRAME_ERR ∉ RegId.addr .HST_RESP :: postedRegs ∧
    RegId.addr .HST_FRAME_ERR ∉ eventCounters := by decide +kernel

theorem counted_frameError (status : Nat) (f : Bytes) (s : State) :
    (status = 5 → counted s (countFrameError status f s) .HST_FRAME_ERR_crc_errors) ∧
    (status ≠ 5 → counted s (countFrameError status f s) .HST_FRAME_ERR_format_errors) := by
  unfold countFrameError
  refine ⟨fun h => ?_, fun h => ?_⟩
  · rw [if_pos h]
    exact counted_after (counted_fbump s .HST_FRAME_ERR_crc_errors 0 (by decide) (by decide)) (onlyAt_raiseLimited ..)
      frameErr_apart.2
  · rw [if_neg h]
    exact counted_after (counted_fbump s .HST_FRAME_ERR_format_errors 0 (by decide) (by decide)) (onlyAt_raiseLimited ..)
      frameErr_apart.2

theorem badFrames : BadFramesAreCountedAndAnswered := by
  intro r hr f s
  refine ⟨fun h => ?_, fun halive hbad => ?_⟩
  · rw [exec_frameRow hr, hostFrame, h]
    rfl
  · have ht : exec (r f) s = .next (answerFail (frameCheck s.host.mwl f) f (countFrameError (frameCheck s.host.mwl f) f s)) := by
      rw [exec_frameRow hr]
      simp only [hostFrame, halive, hbad, Bool.not_true, Bool.false_eq_true, if_false, ne_eq, not_false_eq_true, if_true]
    obtain ⟨hcrc, hform⟩ := counted_frameError (frameCheck s.host.mwl f) f s
    obtain ⟨r0, e0, h0⟩ := countFrameError_eq (frameCheck s.host.mwl f) f s
    obtain ⟨r1, e1, x, h1⟩ := answerFail_eq (frameCheck s.host.mwl f) f (countFrameError (frameCheck s.host.mwl f) f s)
    have hcount : ∀ g : Fld, g.reg = .HST_FRAME_ERR → counted s (countFrameError (frameCheck s.host.mwl f) f s) g →
        counted s (answerFail (frameCheck s.host.mwl f) f (countFrameError (frameCheck s.host.mwl f) f s)) g :=
      fun g hg h => counted_after h (onlyAt_answerFail ..) (by rw [hg]; exact frameErr_apart.1)
    refine ⟨_, ht, fun h => hcount _ rfl (hcrc h), fun h => hcount _ rfl (hform h), answerFail_response.1,
      answerFail_response.2, ?_, ?_, ?_, ?_⟩ <;> rw [h1, h0]

/-! ### CMD_SUBMIT, CPL_READ and EVT_READ (R378, R379, R382) -/

section
variable {f : Bytes} {s : State} {op : Nat}

/-- What a frame that passed its checks does. -/
theorem exec_of_taken {r : Bytes → Instr} (hr : r ∈ frameRows) (h : FrameTaken f s op) :
    exec (r f) s = .next (frameAction f s) := by
  rw [exec_frameRow hr]
  simp [hostFrame, h.alive, h.checked]

theorem frameAction_submit (h : FrameTaken f s 0x10) : frameAction f s = submit f s := by
  simp [frameAction, h.opcode]

/-- With no reserved opcode among the commands, none completes for it. -/
theorem refuseReserved_of_none (n : Nat) {t : State} (h : ∀ c ∈ t.host.cmds, cmdReserved (cmdOp c.desc) = false) :
    refuseReserved n t = t := by
  cases n with
  | zero => rfl
  | succ n =>
    unfold refuseReserved nextCmd
    split
    · next c hc =>
      have hmem : c ∈ t.host.cmds := by
        split at hc
        · exact List.mem_of_find?_eq_some hc
        · cases hc
      rw [h c hmem]
      rfl
    · rfl

/-- What a read of records answers. -/
theorem recordRead_spec (kind : Nat) (held : List Bytes) (f : Bytes) (s : State) :
    (recordRead kind held f s).host.cpls = s.host.cpls ∧ (recordRead kind held f s).host.evq = s.host.evq ∧
    (recordRead kind held f s).host.cmds = s.host.cmds ∧
    (∀ r rest, held = r :: rest → 0 < reqLen f → reqLen f < r.length →
      holdsResponse (recordRead kind held f s) (reqOp f) (reqTag f) 2 []) ∧
    (∀ r rest, held = r :: rest → r.length ≤ reqLen f →
      holdsResponse (recordRead kind held f s) (reqOp f) (reqTag f) 0 (fitting (reqLen f) held).flatten) ∧
    (held = [] → holdsResponse (recordRead kind held f s) (reqOp f) (reqTag f) 0 []) := by
  have hhost : ∃ x, (recordRead kind held f s).host = { s.host with resp := x } := by
    unfold recordRead
    dsimp only
    split
    · obtain ⟨r, h⟩ := respond_eq (reqOp f) (reqTag f) 2 [] 0 0 s
      exact ⟨_, by rw [h]⟩
    · obtain ⟨r, h⟩ := respond_eq (reqOp f) (reqTag f) 0 (fitting (reqLen f) held).flatten kind (fitting (reqLen f) held).length s
      exact ⟨_, by rw [h]⟩
  obtain ⟨x, hx⟩ := hhost
  refine ⟨by rw [hx], by rw [hx], by rw [hx], fun r rest hh h0 hr => ?_, fun r rest hh hr => ?_, fun hh => ?_⟩
  · have hnone : fitting (reqLen f) held = [] := by
      rw [hh, fitting, if_neg (Nat.not_le.2 hr)]
    simp only [recordRead, hnone]
    rw [if_pos (by simp [hh]; omega)]
    exact holdsResponse_respond ..
  · have hsome : fitting (reqLen f) held ≠ [] := by
      rw [hh, fitting, if_pos hr]
      exact List.cons_ne_nil _ _
    simp only [recordRead]
    rw [if_neg (by simp [hsome])]
    exact holdsResponse_respond ..
  · subst hh
    exact holdsResponse_respond ..

end

theorem queueFrames : QueueFramesSubmitAndFetch := by
  intro f s
  refine ⟨fun h hfull => ?_, fun h hroom hres hall => ?_, fun h => ?_, fun h => ?_⟩
  · have ht := exec_of_taken (r := .cmdSubmit) (by simp [frameRows]) h
    rw [frameAction_submit h] at ht
    have hs : submit f s = respond 0x10 (reqTag f) 6 [] 0 0 s := if_pos hfull
    obtain ⟨r, hr⟩ := respond_eq 0x10 (reqTag f) 6 [] 0 0 s
    refine ⟨_, ht, ?_, ?_, ?_⟩ <;> rw [hs]
    · exact holdsResponse_respond ..
    · rw [hr]
    · rw [hr]
  · have ht := exec_of_taken (r := .cmdSubmit) (by simp [frameRows]) h
    rw [frameAction_submit h] at ht
    obtain ⟨r, hr⟩ := respond_eq 0x10 (reqTag f) 0 (toLe 4 s.host.nextSeq) 0 0 { s with host := { s.host with
      cmds := s.host.cmds ++ [{ seq := s.host.nextSeq, desc := reqPayload f }], nextSeq := (s.host.nextSeq + 1) % 2 ^ 32 } }
    have hs : submit f s = respond 0x10 (reqTag f) 0 (toLe 4 s.host.nextSeq) 0 0 { s with host := { s.host with
        cmds := s.host.cmds ++ [{ seq := s.host.nextSeq, desc := reqPayload f }],
        nextSeq := (s.host.nextSeq + 1) % 2 ^ 32 } } := by
      unfold submit
      dsimp only
      rw [if_neg (Nat.not_le.2 hroom), refuseReserved_of_none]
      intro c hc
      rw [hr] at hc
      rcases List.mem_append.1 hc with hc | hc
      · exact hall c hc
      · rw [List.mem_singleton.1 hc]
        exact hres
    refine ⟨_, ht, ?_, ?_, ?_⟩ <;> rw [hs]
    · exact holdsResponse_respond ..
    · rw [hr]
    · rw [hr]
  · have ht := exec_of_taken (r := .cplRead) (by simp [frameRows]) h
    have ha : frameAction f s = recordRead 1 s.host.cpls f s := by simp [frameAction, h.opcode]
    obtain ⟨hcpl, -, hcmd, h1, h2, h3⟩ := recordRead_spec 1 s.host.cpls f s
    rw [h.opcode] at h1 h2 h3
    exact ⟨_, ht.trans (congrArg _ ha), hcpl, hcmd, h1, h2, h3⟩
  · have ht := exec_of_taken (r := .evtRead) (by simp [frameRows]) h
    have ha : frameAction f s = recordRead 2 s.host.evq f s := by simp [frameAction, h.opcode]
    obtain ⟨-, hevq, hcmd, h1, h2, h3⟩ := recordRead_spec 2 s.host.evq f s
    rw [h.opcode] at h1 h2 h3
    exact ⟨_, ht.trans (congrArg _ ha), hevq, hcmd, h1, h2, h3⟩

/-- Settles O13: `answerFail` for the checks, `submit` and `recordRead` for the queues. -/
theorem hostFramesAreCheckedAndQueued : Obligations.HostFramesAreCheckedAndQueued := ⟨badFrames, queueFrames⟩

/-! ### READ and WRITE (R366, R375 to R377) -/

theorem clearRc_mem (a : Nat) (s : State) : (clearRc a s).mem = s.mem := by
  unfold clearRc
  split
  · rfl
  · dsimp only
    split
    · rfl
    · simp

theorem readReg_mem (m a : Nat) (s : State) : (readReg m a s).2.mem = s.mem := by
  unfold readReg
  dsimp only
  split
  · rfl
  · split
    · rfl
    · exact clearRc_mem a s

/-- An uncorrectable word met leaves memory as it is. -/
theorem memoryUe_mem (master a : Nat) (s : State) : (memoryUe master a s).mem = s.mem := by
  have hcellar : ∀ c, (cellarUe master c s).mem = s.mem := fun c => by
    unfold cellarUe
    dsimp only
    simp
  unfold memoryUe
  split
  · exact hcellar _
  · split
    · simp [atticUe]
    · split
      · split
        · simp [laneDataUe]
        · simp [laneProgramUe]
      · rfl

theorem hostReadWord_mem (a : Nat) (s : State) : (hostReadWord a s).2.mem = s.mem := by
  unfold hostReadWord
  split
  · exact readReg_mem 0 a s
  · split
    · rfl
    · split
      · simp [transferDropped, memoryUe_mem]
      · rfl

theorem length_hostReadWord (a : Nat) (s : State) : (hostReadWord a s).1.length = 4 := by
  unfold hostReadWord
  split
  · exact LoadStore.length_toLe ..
  · split
    · rfl
    · split
      · simp [freeBytes]
      · exact LaneQueues.length_readBytes ..

theorem hostRead_mem (n a : Nat) (s : State) : (hostRead n a s).2.mem = s.mem := by
  induction n generalizing a s with
  | zero => rfl
  | succ n ih => exact (ih (a + 4) _).trans (hostReadWord_mem a s)

theorem length_hostRead (n a : Nat) (s : State) : (hostRead n a s).1.length = 4 * n := by
  induction n generalizing a s with
  | zero => rfl
  | succ n ih =>
    rw [hostRead, List.length_append, length_hostReadWord, ih]
    omega

/-- A frame of READ, WRITE or WRITE_POSTED that passes its checks has a length of whole words. -/
theorem taken_aligned {f : Bytes} {s : State} {op : Nat} (h : FrameTaken f s op) (hop : op = 1 ∨ op = 2 ∨ op = 3) :
    reqLen f % 4 = 0 ∧ 10 ≤ f.length := by
  have hc := h.checked
  unfold frameCheck at hc
  dsimp only at hc
  split at hc
  · cases hc
  · next hlen =>
    split at hc
    · cases hc
    · split at hc
      · cases hc
      · split at hc
        · cases hc
        · split at hc
          · cases hc
          · next hp =>
            refine ⟨?_, Nat.not_lt.1 hlen⟩
            have hmem : [1, 2, 3].contains (reqOp f) = true := by
              rw [h.opcode]
              rcases hop with rfl | rfl | rfl <;> rfl
            simp only [frameParamOk, hmem, if_true, Bool.not_eq_true, Bool.not_eq_false', Bool.and_eq_true, beq_iff_eq] at hp
            exact hp.2

theorem recordDenial_mem (master a n : Nat) (write : Bool) (s : State) : (recordDenial master a n write s).mem = s.mem := by
  simp

/-- The registers that record a refusal. -/
def denialRegs : List Nat := [RegId.addr .ACC_DENY_COUNT, RegId.addr .ACC_DENY_LAST_ADDR, RegId.addr .ACC_DENY_LAST_INFO,
  RegId.addr .ACC_DENY_FIRST_ADDR, RegId.addr .ACC_DENY_FIRST_INFO] ++ eventCounters

theorem onlyAt_recordDenial (master a n : Nat) (write : Bool) (s : State) :
    OnlyAt denialRegs s (recordDenial master a n write s) := by
  unfold recordDenial
  dsimp only
  refine OnlyAt.then ?_ ((onlyAt_raiseLimited ..).mono (List.subset_append_right _ _))
  have h2 : ∀ x y, OnlyAt denialRegs s (setWord (RegId.addr .ACC_DENY_LAST_ADDR) x
      (setWord (RegId.addr .ACC_DENY_LAST_INFO) y (fbump .ACC_DENY_COUNT_denials 1 s))) := fun x y =>
    ((onlyAt_fbump _ _ _ _ _ (by simp [denialRegs])).then (onlyAt_setWord _ _ (by simp [denialRegs]))).then
      (onlyAt_setWord _ _ (by simp [denialRegs]))
  have h3 : ∀ x y c (_ : Decidable c) v w, OnlyAt denialRegs s (if c then setWord (RegId.addr .ACC_DENY_LAST_ADDR) x
      (setWord (RegId.addr .ACC_DENY_LAST_INFO) y (fbump .ACC_DENY_COUNT_denials 1 s))
      else setWord (RegId.addr .ACC_DENY_FIRST_ADDR) v (setWord (RegId.addr .ACC_DENY_FIRST_INFO) w
        (setWord (RegId.addr .ACC_DENY_LAST_ADDR) x
          (setWord (RegId.addr .ACC_DENY_LAST_INFO) y (fbump .ACC_DENY_COUNT_denials 1 s))))) := fun x y c _ v w =>
    .ite (h2 x y) (((h2 x y).then (onlyAt_setWord _ _ (by simp [denialRegs]))).then (onlyAt_setWord _ _ (by simp [denialRegs])))
  exact .ite (h3 ..) ((h3 ..).then (onlyAt_fbump _ _ _ _ _ (by simp [denialRegs])))

theorem postedRegs_apart : RegId.addr .HST_RESP ∉ denialRegs ∧ RegId.addr .HST_RESP ∉ postedRegs ∧
    RegId.addr .HST_POSTED ∉ denialRegs ∧ RegId.addr .HST_POSTED ∉ [RegId.addr .HST_RESP] := by decide +kernel

theorem readsAndWrites : ReadsAndWritesPassTheTables := by
  intro f s a n
  have read {op : Nat} (h : FrameTaken f s op) (r : Bytes → Instr) (hr : r ∈ frameRows) := exec_of_taken hr h
  refine ⟨fun h hp => ?_, fun h hp => ?_, fun h hp => ?_, fun h hp => ?_, fun h hp => ?_, fun h hp => ?_⟩
  · have ha : frameAction f s = respond 1 (reqTag f) 0 (hostRead (n / 4) a s).1 0 0 (hostRead (n / 4) a s).2 := by
      simp [frameAction, h.opcode, show permitted s 0 (reqAddr f) (reqLen f) false = true from hp, a, n]
    obtain ⟨r, hr⟩ := respond_eq 1 (reqTag f) 0 (hostRead (n / 4) a s).1 0 0 (hostRead (n / 4) a s).2
    refine ⟨_, exec_of_taken (r := .read) (by simp [frameRows]) h, ?_, ?_, ?_⟩
    · rw [ha]
      exact holdsResponse_respond ..
    · have h4 := (taken_aligned h (.inl rfl)).1
      rw [length_hostRead]
      omega
    · rw [ha, hr]
      exact hostRead_mem ..
  · have ha : frameAction f s = respond 1 (reqTag f) 1 (zeros n) 0 0 (recordDenial 0 a n false s) := by
      simp [frameAction, h.opcode, show permitted s 0 (reqAddr f) (reqLen f) false = false from hp, a, n]
    obtain ⟨r, hr⟩ := respond_eq 1 (reqTag f) 1 (zeros n) 0 0 (recordDenial 0 a n false s)
    refine ⟨_, exec_of_taken (r := .read) (by simp [frameRows]) h, ?_, ?_⟩
    · rw [ha]
      exact holdsResponse_respond ..
    · rw [ha, hr]
      exact recordDenial_mem ..
  · have ha : frameAction f s = respond 2 (reqTag f) 0 [] 0 0 (hostStore a (reqPayload f) s) := by
      simp [frameAction, h.opcode, show permitted s 0 (reqAddr f) (reqLen f) true = true from hp, a]
    obtain ⟨r, hr⟩ := respond_eq 2 (reqTag f) 0 [] 0 0 (hostStore a (reqPayload f) s)
    refine ⟨_, exec_of_taken (r := .write) (by simp [frameRows]) h, ?_, ?_, ?_⟩
    · rw [ha]
      exact holdsResponse_respond ..
    · rw [ha, hr]
    · rw [ha, hr]
  · have hlen := (taken_aligned h (.inr (.inl rfl))).2
    have ha : frameAction f s = answerFail 1 f (recordDenial 0 a n true s) := by
      simp [frameAction, h.opcode, show permitted s 0 (reqAddr f) (reqLen f) true = false from hp, a, n]
    obtain ⟨r, e, x, hr⟩ := answerFail_eq 1 f (recordDenial 0 a n true s)
    refine ⟨_, exec_of_taken (r := .write) (by simp [frameRows]) h, ?_, ?_⟩
    · have hresp := (answerFail_response (status := 1) (f := f) (s := recordDenial 0 a n true s)).1 hlen
        (by rw [h.opcode]; decide)
      rwa [h.opcode, ← ha] at hresp
    · rw [ha, hr]
      exact recordDenial_mem ..
  · have ha : frameAction f s = hostStore a (reqPayload f) (unheld s) := by
      rw [← dropResponse_eq_unheld]
      simp [frameAction, h.opcode, show permitted s 0 (reqAddr f) (reqLen f) true = true from hp, a]
    exact (exec_of_taken (r := .writePosted) (by simp [frameRows]) h).trans (congrArg _ ha)
  · have hlen := (taken_aligned h (.inr (.inr rfl))).2
    have ha : frameAction f s = postedFail 1 (reqAddr f) (dropResponse (recordDenial 0 a n true s)) := by
      simp [frameAction, h.opcode, show permitted s 0 (reqAddr f) (reqLen f) true = false from hp, a, n, answerFail,
        Nat.not_lt.2 hlen]
    obtain ⟨r, hd⟩ := dropResponse_eq (recordDenial 0 a n true s)
    obtain ⟨r', e', hf⟩ := regsEvents_postedFail 1 (reqAddr f) (dropResponse (recordDenial 0 a n true s))
    obtain ⟨hvalid, hstatus⟩ := postedFail_fields 1 (reqAddr f) (dropResponse (recordDenial 0 a n true s)) (by decide)
    refine ⟨_, exec_of_taken (r := .writePosted) (by simp [frameRows]) h, ?_, ?_, ?_, fun h0 => ?_, fun hresp => ?_⟩
    · rw [ha, hf, hd]
    · rw [ha, hf, hd]
      exact recordDenial_mem ..
    · rw [ha]
      exact hvalid
    · rw [ha]
      refine hstatus ?_
      rw [(onlyAt_dropResponse _).fget (f := .HST_POSTED_valid) postedRegs_apart.2.2.2,
        (onlyAt_recordDenial ..).fget (f := .HST_POSTED_valid) postedRegs_apart.2.2.1]
      exact h0
    · rw [ha]
      refine counted_after (counted_before (onlyAt_recordDenial 0 a n true s) postedRegs_apart.1
        (counted_dropResponse ?_)) (onlyAt_postedFail ..) postedRegs_apart.2.1
      simpa using hresp

/-! ### Words written (R377, R503) -/

theorem writeBytes_append (m : List Host.Cell) (a : Nat) (b c : Bytes) :
    Memory.writeBytes m a (b ++ c) = Memory.writeBytes (Memory.writeBytes m a b) (a + b.length) c := by
  induction b generalizing m a with
  | nil => rfl
  | cons x b ih =>
    rw [List.cons_append, Memory.writeBytes, ih, Memory.writeBytes, List.length_cons, Nat.add_assoc, Nat.add_comm 1]

theorem hostWrite_mem (n a : Nat) (b : Bytes) (s : State) (ha : 0x02000000 ≤ a) (hb : b.length = 4 * n)
    (hh : ∀ i, i < n → laneHole (a + 4 * i) = false) : (hostWrite n a b s).mem = Memory.writeBytes s.mem a b := by
  induction n generalizing a b s with
  | zero =>
    rw [List.length_eq_zero_iff.1 (by omega : b.length = 0)]
    rfl
  | succ n ih =>
    have hword : hostWriteWord a (b.take 4) s = storeBytes a (b.take 4) s := by
      have h0 : laneHole a = false := hh 0 (by omega)
      simp only [hostWriteWord, if_neg (Nat.not_lt.2 ha), h0, Bool.false_eq_true, if_false]
    have hlen : (b.take 4).length = 4 := by
      rw [List.length_take]
      omega
    rw [hostWrite, hword, ih (a + 4) (b.drop 4) _ (by omega) (by rw [List.length_drop]; omega) fun i hi => ?_]
    · have happ := writeBytes_append s.mem a (b.take 4) (b.drop 4)
      rw [List.take_append_drop, hlen] at happ
      exact happ.symm
    · have := hh (i + 1) (by omega)
      rwa [show a + 4 + 4 * i = a + 4 * (i + 1) by omega]

theorem hostWritesStore : HostWritesStoreTheirBytes := by
  intro a b s hmem ha hb hhole
  have hrig : a ≠ RegId.addr .RIG_DATA := by
    have : RegId.addr .RIG_DATA < 0x02000000 := by decide +kernel
    omega
  have hw : (hostStore a b s).mem = Memory.writeBytes s.mem a b := by
    rw [hostStore, if_neg hrig]
    refine hostWrite_mem _ a b s ha (by omega) fun i hi => ?_
    have := hhole (4 * i) (by omega)
    rwa [Nat.mul_div_cancel_left i (by decide), Nat.mul_comm] at this
  rw [hw]
  exact ⟨fun i h => Memory.read_writeBytes_inside a b h hmem, fun p hp => Memory.read_writeBytes_outside s.mem a b hp⟩

/-- Settles O12: `hostRead`, `hostStore` and `postedFail` for the frames, `hostWrite_mem` for the words. -/
theorem hostFramesReadAndWrite : Obligations.HostFramesReadAndWrite := ⟨readsAndWrites, hostWritesStore⟩

end Sys2Proof.Proofs.HostPort
end

section
/-! PROOF. The host port's bus: responses fetched, common commands, and events on their way to the host (R371 to R388, R406). -/

namespace Sys2Proof.Proofs.HostBus

open Sys2Proof Sys2Proof.Machine Sys2Proof.Spec Sys2Proof.Proofs.Effects Sys2Proof.Proofs.RegisterFields

/-! ### The response fetched (R373, R376, R379, R382) -/

theorem readBack_eq (clocked : Nat) (r : Resp) (s : State) : readBack clocked r s =
    r.bytes.take (min clocked s.host.mrl) ++
      if s.host.dyn.isNone then List.replicate (clocked - (r.bytes.take (min clocked s.host.mrl)).length) 0xFF else [] := by
  unfold readBack
  dsimp only
  split
  · rfl
  · rw [List.append_nil]

/-- The response's last byte releases its records, of completions, of events or of neither. -/
theorem leaveRecords_host (r : Resp) (s : State) : (leaveRecords r s).host.resp = s.host.resp ∧
    (leaveRecords r s).host.got = s.host.got ∧ (leaveRecords r s).host.cmds = s.host.cmds ∧
    (leaveRecords r s).host.cpls = (if r.kind = 1 then s.host.cpls.drop r.take else s.host.cpls) ∧
    (leaveRecords r s).host.evq = (if r.kind = 2 then s.host.evq.drop r.take else s.host.evq) := by
  unfold leaveRecords
  by_cases h1 : r.kind = 1
  · simp [h1, noteIbi]
  · by_cases h2 : r.kind = 2
    · by_cases hl : s.host.evLost = 0 ∨ r.take = 0 <;> simp [h2, hl, noteIbi]
    · simp [h1, h2]

/-- Settles O14: `readBack_eq` for the bytes, `leaveRecords_host` for the records. -/
theorem readingTheResponseReleasesItsRecords : Obligations.ReadingTheResponseReleasesItsRecords := by
  intro clocked s halive
  constructor
  · intro hnone
    refine ⟨fbump .HST_RESP_not_ready 1 s, ?_, counted_fbump _ _ _ (by decide) (by decide), by simp⟩
    show execResponseRead clocked s = _
    simp only [execResponseRead, halive, hnone, Bool.not_true, Bool.false_eq_true, if_false]
  intro r hr bytes read
  refine ⟨fun hshort => ?_, fun hall hmrl => ?_⟩
  · show execResponseRead clocked s = _
    simp only [execResponseRead, halive, hr, Bool.not_true, Bool.false_eq_true, if_false, if_pos hshort, readBack_eq]
    rfl
  · have hlen : ¬ min clocked s.host.mrl < r.bytes.length := by omega
    obtain ⟨h1, h2, h3, h4, h5⟩ := leaveRecords_host r { s with host := { s.host with got := readBack clocked r s, resp := none } }
    refine ⟨_, ?_, h1, h2.trans (readBack_eq ..), h3, h4, h5⟩
    show execResponseRead clocked s = _
    simp only [execResponseRead, halive, hr, Bool.not_true, Bool.false_eq_true, if_false, hlen]

/-! ### Common commands (R371 to R373, R388) -/

section
variable {s : State} (hreset : inReset s = false)
include hreset

theorem common_broadcast (f : HostPort → HostPort) : Host.Outcome.next (common false f s) = hostBecomes s f := by
  simp only [common, takesCommon, hreset, Bool.not_false, Bool.true_or, Bool.and_self, if_true, hostBecomes]

theorem common_direct (hdown : s.mast.down = false) (hdyn : s.host.dyn.isSome = true) (f : HostPort → HostPort) :
    Host.Outcome.next (common true f s) = hostBecomes s f := by
  simp only [common, takesCommon, hreset, hdown, hdyn, Bool.not_false, Bool.not_true, Bool.false_or, Bool.and_self, if_true,
    hostBecomes]

theorem common_either {direct : Bool} (h : direct = true → s.mast.down = false ∧ s.host.dyn.isSome = true)
    (f : HostPort → HostPort) : Host.Outcome.next (common direct f s) = hostBecomes s f := by
  cases direct with
  | false => exact common_broadcast hreset f
  | true => exact common_direct hreset (h rfl).1 (h rfl).2 f

end

/-- Two ways to change the host port that agree on it. -/
theorem hostBecomes_congr {s : State} {f g : HostPort → HostPort} (h : f { s.host with hdr := false } = g { s.host with hdr := false }) :
    hostBecomes s f = hostBecomes s g := by
  unfold hostBecomes
  rw [h]

/-- An address taken where there is none, on the condition that the command names the target. -/
theorem takeAddress (h : HostPort) (a : BitVec 7) {c : Prop} [Decidable c] (hc : c ↔ h.dyn.isNone = true) :
    (if c then { h with dyn := some a } else h) = { h with dyn := some (h.dyn.getD a) } := by
  cases hd : h.dyn with
  | none =>
    rw [if_pos (hc.2 (by rw [hd]; rfl))]
    rfl
  | some d =>
    rw [if_neg (fun h' => by simpa [hd] using hc.1 h'), Option.getD_some, ← hd]

theorem commonSet : CommonCommandsSetTheTarget := by
  intro s hr h
  refine ⟨common_broadcast hr _, ?_, ?_, ?_, fun hdown addr static => ?_, fun hdown addr static won => ?_, fun direct hd e => ?_,
    fun hdown hdyn addr => common_direct hr hdown hdyn _, ?_⟩
  · exact common_broadcast hr (fun h => { h with hdr := true })
  · exact ⟨common_broadcast hr id, common_broadcast hr id, common_broadcast hr id, common_broadcast hr id⟩
  · exact (common_broadcast hr _).trans (hostBecomes_congr (takeAddress _ 0x5C Iff.rfl))
  · have hnot : ∀ f, Host.Outcome.next (if s.mast.down then s else common false f s) = hostBecomes s f := fun f => by
      rw [hdown]
      exact common_broadcast hr f
    refine ⟨(hnot _).trans (hostBecomes_congr (takeAddress _ addr (by simp))), (hnot _).trans (hostBecomes_congr ?_),
      (hnot _).trans (hostBecomes_congr (takeAddress _ addr (by simp))), fun hs => (hnot _).trans (hostBecomes_congr ?_)⟩
    · rfl
    · exact if_neg fun h => hs h.1
  · exact ⟨congrArg Host.Outcome.next (if_pos hdown), congrArg Host.Outcome.next (if_pos hdown)⟩
  · refine ⟨fun he => ⟨(common_either hr hd _).trans (hostBecomes_congr ?_), (common_either hr hd _).trans (hostBecomes_congr ?_)⟩,
      fun he => ⟨(common_either hr hd _).trans (hostBecomes_congr ?_), (common_either hr hd _).trans (hostBecomes_congr ?_)⟩⟩
    · simp only [he, Bool.false_and, Bool.false_eq_true, if_false, id]
    · simp only [he, Bool.false_eq_true, if_false, id]
    · simp only [he, if_true]
    · cases hint : s.host.enint <;> simp [he, hint, h]
  · intro direct hd len ok
    have hok : lenOk len = true ↔ ok := by simp [lenOk, ok]
    exact ⟨(common_either hr hd _).trans (hostBecomes_congr (if_congr hok rfl rfl)),
      (common_either hr hd _).trans (hostBecomes_congr (if_congr hok rfl rfl))⟩

theorem satTo_eq_min (m n : Nat) : satTo m n = min m n := by
  unfold satTo
  split <;> omega

theorem commonGet : CommonCommandsGetTheTarget := by
  intro s hr hdown gives gets
  have hnone : s.host.dyn = none → ∀ f, common true f s = s := fun hdyn f => by
    simp [common, takesCommon, hdyn]
  refine ⟨fun hdyn => ?_, fun hdyn => ?_⟩
  · have hget : ∀ b : State → Bytes, Host.Outcome.next (getCommon b s) = hostBecomes s (fun k => { k with ccc := b s }) :=
      fun b => common_direct hr hdown hdyn _
    refine ⟨(hget _).trans ?_, hget _, hget _, (hget _).trans ?_, hget _, hget _, hget _, hget _⟩
    · rw [List.reverse_append]
      rfl
    · rw [satTo_eq_min]
  · simp only [gets, List.forall_mem_cons]
    have hget : ∀ b : State → Bytes, getCommon b s = s := fun b => hnone hdyn _
    exact ⟨congrArg _ (hget _), congrArg _ (hget _), congrArg _ (hget _), congrArg _ (hget _), congrArg _ (hget _),
      congrArg _ (hget _), congrArg _ (hget _), congrArg _ (hget _), fun _ h => absurd h List.not_mem_nil⟩

/-- Settles O15: `common_either` for the commands that set, `getCommon` for those that answer. -/
theorem commonCommandsSetAndGet : Obligations.CommonCommandsSetAndGet := ⟨commonSet, commonGet⟩

/-! ### Events on their way (R382, R384, R406 to R409) -/

theorem busAvailable : BusAvailableServesTheLowestGroup := by
  intro s g rest hibi halive hint hdyn
  constructor
  · show execBusAvailable true s = _
    simp only [execBusAvailable, halive, hint, hdyn, hibi, Bool.and_self, if_true]
  · show execBusAvailable false s = _
    simp only [execBusAvailable, Bool.and_false, Bool.false_eq_true, if_false]

/-- The log ring takes a record: memory and the ring's registers. -/
theorem logRecord_eq (r : Bytes) (s : State) : ∃ regs m p, logRecord r s = { s with regs := regs, mem := m, poison := p } := by
  unfold logRecord
  dsimp only
  split
  · exact ⟨s.regs, s.mem, s.poison, rfl⟩
  · split <;> exact ⟨_, _, _, rfl⟩

theorem onlyAt_logRecord (r : Bytes) (s : State) :
    OnlyAt [RegId.addr .ERR_LOG_WR, RegId.addr .ERR_LOG_WRAPS] s (logRecord r s) := by
  unfold logRecord
  dsimp only
  have h : ∀ a b, OnlyAt [RegId.addr .ERR_LOG_WR, RegId.addr .ERR_LOG_WRAPS] s (storeBytes a b s) := fun _ _ =>
    .of_regs (by rfl)
  refine .ite (onlyAt_refl _ s) (.ite ((h _ _).then (onlyAt_fset _ _ _ _ _ (by simp))) ?_)
  exact ((h _ _).then (onlyAt_fset _ _ _ _ _ (by simp))).then (onlyAt_fbump _ _ _ _ _ (by simp))

/-- A record sent to the collector: draws, and a frame for SVC. -/
theorem sendCollector_eq (r : Bytes) (s : State) : ∃ n v, sendCollector r s = { s with free := n, svc := v } := by
  have hpush : ∀ b (t : State), ∃ v, pushSvc b t = { t with svc := v } := fun b t => by
    unfold pushSvc
    dsimp only
    split
    · exact ⟨_, rfl⟩
    · exact ⟨t.svc, rfl⟩
  unfold sendCollector
  dsimp only
  split
  · exact ⟨s.free, s.svc, rfl⟩
  · obtain ⟨v, h⟩ := hpush (udpFrame s.free (freeBytes (draw s) 6) (portMac s 2) (beAt (identRec s 2) 6 2)
      (!(slice (identRec s 3) 0 12 == zeros 10 ++ [0xFF, 0xFF])) _ _ (leNat (freeBytes (draw (draw s)) 2)) _ r) s
    rw [h]
    exact ⟨_, _, rfl⟩

/-- An event raised while fewer than 256 wait joins those that do. -/
theorem raise_ev_of_room {s : State} (src : Nat) (l : List (Nat × Nat)) (h : s.ev.pend.length < 256) :
    ∃ x, (raise src l s).ev = { s.ev with pend := s.ev.pend ++ [x] } ∧ x.src = src := by
  have hev : (countClass src s).ev = s.ev := by simp
  unfold raise enqueueEvent
  rw [if_pos (by rwa [hev])]
  exact ⟨_, by rw [hev], rfl⟩

theorem raise_seq (src : Nat) (l : List (Nat × Nat)) (s : State) : (raise src l s).ev.seq = s.ev.seq := by
  have hev : (countClass src s).ev = s.ev := by simp
  unfold raise enqueueEvent
  split
  · rw [hev]
  · simp

/-- The state once the oldest raised event has taken its number. -/
def numbered (s : State) (rest : List Raised) : State :=
  { s with ev := { s.ev with pend := rest, seq := s.ev.seq + 1, lostMark := false } }

/-- The state once the oldest event has been numbered and logged, and copied to the host and the collector unless masked. -/
def copied (s : State) (e : Raised) (rest : List Raised) : State :=
  let s2 := logRecord (eventRecord s e) (numbered s rest)
  if maskedSource s e.src then s2 else sendCollector (eventRecord s e) (queueRecord (eventRecord s e) s2)

/-- Event 7 for the events lost, and the groups noticed. -/
def lossTold (s : State) : State :=
  noteIbi (if s.ev.lost = 0 then s else raise 7 [(4, s.ev.lost)] { s with ev := { s.ev with lost := 0 } })

theorem exec_eventPost {s : State} {e : Raised} {rest : List Raised} (h : s.ev.pend = e :: rest) (hd : s.mast.down = false) :
    exec .eventPost s = .next (lossTold (copied s e rest)) := by
  show execEventPost s = _
  simp only [execEventPost, h, hd, Bool.false_eq_true, if_false]
  rfl

theorem lossTold_host (s : State) : (lossTold s).host.evq = s.host.evq ∧ (lossTold s).host.evLost = s.host.evLost ∧
    OnlyAt eventCounters s (lossTold s) := by
  have h : ∀ t : State, (noteIbi t).host.evq = t.host.evq ∧ (noteIbi t).host.evLost = t.host.evLost := fun t => ⟨rfl, rfl⟩
  unfold lossTold
  rw [(h _).1, (h _).2]
  split
  · exact ⟨rfl, rfl, .of_regs (by simp)⟩
  · refine ⟨by simp, by simp, ?_⟩
    have hr := onlyAt_raise 7 [(4, s.ev.lost)] { s with ev := { s.ev with lost := 0 } }
    exact OnlyAt.then (t := { s with ev := { s.ev with lost := 0 } }) (.of_regs rfl) (hr.then (.of_regs rfl))

theorem copied_ev (s : State) (e : Raised) (rest : List Raised) :
    (copied s e rest).ev = { s.ev with pend := rest, seq := s.ev.seq + 1, lostMark := false } := by
  obtain ⟨regs, m, p, h⟩ := logRecord_eq (eventRecord s e)
    (numbered s rest)
  unfold copied
  dsimp only
  split
  · rw [h]
    rfl
  · obtain ⟨n, v, hc⟩ := sendCollector_eq (eventRecord s e) (queueRecord (eventRecord s e) (logRecord (eventRecord s e)
      (numbered s rest)))
    rw [hc, h]
    unfold queueRecord
    split
    · rfl
    · simp [numbered]

/-- The host event queue takes the record of a source that is not masked, or counts it. -/
theorem copied_host (s : State) (e : Raised) (rest : List Raised) :
    (maskedSource s e.src = true → (copied s e rest).host = s.host) ∧
    (maskedSource s e.src = false → s.host.evq.length < 1024 →
      (copied s e rest).host.evq = s.host.evq ++ [eventRecord s e]) ∧
    (maskedSource s e.src = false → 1024 ≤ s.host.evq.length → (copied s e rest).host.evq = s.host.evq ∧
      (copied s e rest).host.evLost = s.host.evLost + 1 ∧ counted s (copied s e rest) .HST_EVQ_overflow) := by
  have hlog := onlyAt_logRecord (eventRecord s e) (numbered s rest)
  obtain ⟨regs, m, p, h⟩ := logRecord_eq (eventRecord s e)
    (numbered s rest)
  obtain ⟨n, v, hc⟩ := sendCollector_eq (eventRecord s e) (queueRecord (eventRecord s e) (logRecord (eventRecord s e)
    (numbered s rest)))
  unfold copied
  refine ⟨fun hm => ?_, fun hm hroom => ?_, fun hm hfull => ?_⟩
  · simp only [hm, if_true, h]
    rfl
  · have hq : (queueRecord (eventRecord s e) (logRecord (eventRecord s e) (numbered s rest))).host.evq =
        s.host.evq ++ [eventRecord s e] := by
      unfold queueRecord
      rw [if_pos (by rw [h]; exact hroom), h]
      rfl
    simp only [hm, Bool.false_eq_true, if_false]
    rw [hc]
    exact hq
  · have hq : queueRecord (eventRecord s e) (logRecord (eventRecord s e)
        (numbered s rest)) =
        { fbump .HST_EVQ_overflow 1 (logRecord (eventRecord s e)
          (numbered s rest)) with
          host := { s.host with evLost := s.host.evLost + 1 } } := by
      unfold queueRecord
      rw [if_neg (by rw [h]; exact Nat.not_lt.2 hfull), h]
      rfl
    simp only [hm, Bool.false_eq_true, if_false]
    refine ⟨by rw [hc, hq], by rw [hc, hq], ?_⟩
    have hcount := counted_fbump (logRecord (eventRecord s e)
      (numbered s rest)) .HST_EVQ_overflow 0 (by decide) (by decide)
    have hbefore : counted s (fbump .HST_EVQ_overflow 1 (logRecord (eventRecord s e)
        (numbered s rest))) .HST_EVQ_overflow :=
      counted_before (OnlyAt.then (t := numbered s rest) (.of_regs rfl) hlog) (by decide +kernel) hcount
    refine counted_after (as := []) hbefore (.of_regs ?_) List.not_mem_nil
    rw [hc, hq]

theorem eventsPosted : EventsArePostedInOrder := by
  intro s e rest hpend hdown
  obtain ⟨hevq, hevLost, honly⟩ := lossTold_host (copied s e rest)
  obtain ⟨hmask, hroom, hfull⟩ := copied_host s e rest
  have hev := copied_ev s e rest
  have hnote : ∀ t : State, (noteIbi t).ev = t.ev := fun t => by simp
  refine ⟨_, exec_eventPost hpend hdown, ?_, fun h0 => ?_, fun h0 hlen => ?_, fun hm => ?_, fun hm hr => ?_, fun hm hf => ?_⟩
  · unfold lossTold
    rw [hnote]
    split
    · rw [hev]
    · rw [raise_seq, hev]
  · unfold lossTold
    rw [hnote, if_pos (by rw [hev]; exact h0), hev]
  · unfold lossTold
    rw [hnote, if_neg (by rw [hev]; exact h0)]
    obtain ⟨x, hx, hsrc⟩ := raise_ev_of_room 7 [(4, (copied s e rest).ev.lost)] (s := { copied s e rest with
      ev := { (copied s e rest).ev with lost := 0 } }) (by rw [hev]; exact hlen)
    rw [hx]
    exact ⟨rfl, x, by rw [hev], hsrc⟩
  · rw [hevq, hmask hm]
  · rw [hevq, hroom hm hr]
  · obtain ⟨h1, h2, h3⟩ := hfull hm hf
    exact ⟨hevq.trans h1, counted_after h3 honly (by decide +kernel), hevLost.trans h2⟩

/-- Settles O16: `copied` and `lossTold` for an event, `execBusAvailable` for a group. -/
theorem eventsReachTheHost : Obligations.EventsReachTheHost := ⟨eventsPosted, busAvailable⟩

end Sys2Proof.Proofs.HostBus
end

section
/-! PROOF. The commands of the command queue: how a command is taken, completes or waits, and the commands of sessions and
channels (R28 to R57, R378 to R381). -/

namespace Sys2Proof.Proofs.Commands

open Sys2Proof Sys2Proof.Machine Sys2Proof.Spec Sys2Proof.Proofs.Effects Sys2Proof.Proofs.RegisterFields
  Sys2Proof.Proofs.HostPort

/-! ### Taking and completing a command (R379, R403) -/

section Next

variable {op : Nat} {c : Cmd} {rest : List Cmd} {s : State}

/-- Taking the command at the head of the queue marks it and leaves those behind it. -/
theorem takeCmd_host (hn : CommandNext op c rest s) :
    (takeCmd c.seq s).host = { s.host with cmds := { c with taken := true } :: rest } := by
  have hrest : rest.map (fun k => if k.seq = c.seq then { k with taken := true } else k) = rest := by
    refine (List.map_congr_left fun k hk => ?_).trans (List.map_id rest)
    exact if_neg (hn.others k hk).1
  simp [takeCmd, hn.queue, hrest]

theorem nextCmd_head (hn : CommandNext op c rest s) : nextCmd s = some c := by
  simp [nextCmd, hn.fw, hn.up, hn.queue, hn.fresh.1]

theorem doneFront_waiting {l : List Cmd} (h : ∀ k ∈ l, k.done = none) : doneFront l = ([], l) := by
  cases l with
  | nil => rfl
  | cons k l => simp [doneFront, h k List.mem_cons_self]

/-- The command at the head of the queue completes: its record is posted, and the commands behind it move up. -/
theorem complete_front {u : State} (hn : CommandNext op c rest s) (hq : u.host.cmds = { c with taken := true } :: rest)
    (hup : u.mast.down = false) (st : Nat) (data : Bytes) :
    ∃ g, complete c.seq st data u = { u with host := g } ∧ g.cmds = rest ∧
      g.cpls = u.host.cpls ++ [cplRecord c.desc c.seq st data] ∧ g.armed = u.host.armed := by
  have hrest : rest.map (fun k => if k.seq = c.seq ∧ k.done = none then
      { k with taken := true, done := some (cplRecord k.desc c.seq st data) } else k) = rest := by
    refine (List.map_congr_left fun k hk => ?_).trans (List.map_id rest)
    exact if_neg fun h => (hn.others k hk).1 h.1
  have hf : complete c.seq st data u = noteIbi { u with host := { u.host with
      cmds := rest, cpls := u.host.cpls ++ [cplRecord c.desc c.seq st data] } } := by
    simp [complete, postReady, hup, hq, hn.fresh.2, hrest, doneFront, doneFront_waiting fun k hk => (hn.others k hk).2.2.1]
  exact ⟨_, hf, rfl, rfl, rfl⟩

variable {i : Instr} {body : Cmd → State → Option State} {u : State}

/-- A command that completes at once. -/
theorem exec_completing {st : Nat} {data : Bytes} (hn : CommandNext op c rest s) (hi : exec i s = .next (runCmd op body s))
    (hb : body c (takeCmd c.seq s) = some (complete c.seq st data u)) (hq : u.host.cmds = (takeCmd c.seq s).host.cmds)
    (hc : u.host.cpls = s.host.cpls) (hm : u.mast.down = s.mast.down) :
    ∃ g, exec i s = .next { u with host := g } ∧ g.cmds = rest ∧
      g.cpls = s.host.cpls ++ [cplRecord c.desc c.seq st data] ∧ g.armed = u.host.armed := by
  rw [takeCmd_host hn] at hq
  obtain ⟨g, hg, hcmds, hcpls, harmed⟩ := complete_front hn hq (hm.trans hn.up) st data
  refine ⟨g, ?_, hcmds, hc ▸ hcpls, harmed⟩
  rw [hi, runCmd, nextCmd_head hn]
  simp only [hn.opcode, if_true, hb]
  rw [refuseReserved_of_none, hg]
  intro k hk
  rw [hg] at hk
  exact (hn.others k (hcmds ▸ hk)).2.2.2

/-- A command that is taken and completes later. -/
theorem exec_waiting (hn : CommandNext op c rest s) (hi : exec i s = .next (runCmd op body s)) (hop : cmdReserved op = false)
    (hb : body c (takeCmd c.seq s) = some u) (hq : u.host.cmds = (takeCmd c.seq s).host.cmds)
    (hc : u.host.cpls = s.host.cpls) : exec i s = .next u ∧ underWay s u c rest := by
  rw [takeCmd_host hn] at hq
  refine ⟨?_, hq, hc⟩
  rw [hi, runCmd, nextCmd_head hn]
  simp only [hn.opcode, if_true, hb]
  rw [refuseReserved_of_none]
  intro k hk
  rw [hq] at hk
  rcases List.mem_cons.1 hk with rfl | hk
  · exact hn.opcode ▸ hop
  · exact (hn.others k hk).2.2.2

/-- A command that completes at once and has no effect but its completion. -/
theorem exec_refused {st : Nat} {data : Bytes} (hn : CommandNext op c rest s) (hi : exec i s = .next (runCmd op body s))
    (hb : body c (takeCmd c.seq s) = some (complete c.seq st data (takeCmd c.seq s))) :
    ∃ t g, exec i s = .next t ∧ t = { s with host := g } ∧ completed s t c rest st ∧ g.armed = s.host.armed := by
  obtain ⟨g, hg, hcmds, hcpls, harmed⟩ := exec_completing hn hi hb rfl rfl rfl
  exact ⟨_, g, hg, rfl, ⟨hcmds, _, hcpls⟩, harmed⟩

end Next

/-! ### The order of the commands (O17) -/

/-- A row of the command queue does nothing unless the next command has its opcode. -/
theorem runCmd_idle {op : Nat} {body : Cmd → State → Option State} {s : State}
    (h : ∀ c, nextCmd s = some c → cmdOp c.desc ≠ op) : runCmd op body s = s := by
  unfold runCmd
  split
  · next c hc => exact if_neg (h c hc)
  · rfl

/-- Every row of the command queue runs the next command where it has the row's opcode. -/
theorem exec_commandRow : ∀ r ∈ commandRows, ∃ body, ∀ s, exec r.1 s = .next (runCmd r.2 body s) := by
  simp only [commandRows, List.forall_mem_cons]
  exact ⟨⟨sessionInsert, fun _ => rfl⟩, ⟨sessionDelete, fun _ => rfl⟩, ⟨chanAdmit, fun _ => rfl⟩, ⟨chanModify, fun _ => rfl⟩,
    ⟨chanPark, fun _ => rfl⟩, ⟨chanMigrate, fun _ => rfl⟩, ⟨chanQuery, fun _ => rfl⟩, ⟨chanClose, fun _ => rfl⟩,
    ⟨statsRead, fun _ => rfl⟩, ⟨pairSwitch, fun _ => rfl⟩, ⟨pairHold, fun _ => rfl⟩, ⟨pairResync, fun _ => rfl⟩,
    ⟨pairQuery, fun _ => rfl⟩, ⟨planRun, fun _ => rfl⟩, ⟨planRecordSet, fun _ => rfl⟩, ⟨reefEnter, fun _ => rfl⟩,
    ⟨reefExit, fun _ => rfl⟩, ⟨wakeOnly, fun _ => rfl⟩, by simp⟩

theorem commandsRunInTheirOrder : CommandsRunInTheirOrder := by
  intro r hr s
  obtain ⟨body, hbody⟩ := exec_commandRow r hr
  rw [hbody]
  have idle : (∀ c, nextCmd s = some c → cmdOp c.desc ≠ r.2) →
      Host.Outcome.next (runCmd r.2 body s) = (.next s : Host.Outcome State Fault Refusal) := fun h => by rw [runCmd_idle h]
  refine ⟨fun h => idle fun c hc => ?_, fun h => idle fun c hc => ?_, fun c hf hne => idle fun k hk => ?_⟩
  · rcases h with h | h <;> simp [nextCmd, h] at hc
  · simp [nextCmd, h] at hc
  · rw [nextCmd] at hk
    split at hk
    · rw [hf] at hk
      exact Option.some.inj hk ▸ hne
    · cases hk

/-! ### SESSION_INSERT by its cases -/

/-- The key that a SESSION_INSERT gives. -/
def insertKey (c : Cmd) : Bytes := (cmdPayload c.desc).take 64

/-- The parameter entries that a SESSION_INSERT gives. -/
def insertParams (c : Cmd) : List (Nat × Nat × Word) := parseParams (leAt (cmdPayload c.desc) 64 2) ((cmdPayload c.desc).drop 68)

/-- A SESSION_INSERT whose payload is well formed and whose key and parameters lie in their tables. -/
structure InsertWellFormed (c : Cmd) (s : State) : Prop where
  count : leAt (cmdPayload c.desc) 64 2 ≤ 24
  length : (cmdPayload c.desc).length = 68 + 8 * leAt (cmdPayload c.desc) 64 2
  form : cmdForm c.desc = true
  key : keyOk s (insertKey c) = true
  params : paramForm (insertParams c) 1 = true
  values : paramsOk (insertKey c) (mergeParams (insertKey c) [] (ofLeg 0 (insertParams c))) (ofLeg 0 (insertParams c)) = true

/-- The entry that a SESSION_INSERT makes. -/
def newEntry (c : Cmd) (s : State) : Session :=
  { key := insertKey c
    params := withSsrc s (insertKey c) (mergeParams (insertKey c) [] (ofLeg 0 (insertParams c))) }

theorem sessionInsert_of_wellFormed {c : Cmd} {s : State} (h : InsertWellFormed c s) : sessionInsert c s =
    if refusesChannels s then some (complete c.seq 0x12 (noneData 0x20) s)
    else match findKey s (insertKey c) with
      | some _ => some (complete c.seq 0x0C (noneData 0x20) s)
      | none =>
        if 1048576 ≤ s.sess.length then some (complete c.seq 0x0B (noneData 0x20)
          (raise 145 [(4, keyByte (insertKey c) 0)] (fbump .MST_ADMIT_FAILS_table_full 1 s)))
        else some (finish c.seq 0 (lowestFree 0 s.sess) 0
          (draw { s with sess := tset s.sess (lowestFree 0 s.sess) (newEntry c s) })) := by
  obtain ⟨hcount, hlength, hform, hkey, hparams, hvalues⟩ := h
  unfold insertKey at hkey hvalues
  unfold insertParams at hparams hvalues
  unfold sessionInsert
  rw [if_neg]
  · rfl
  · rw [hform, hkey, hparams, hvalues]
    simp [hcount, hlength]

/-! ### Commands refused on a standby (O17) -/

theorem targetOr_standby {c : Cmd} {form : Bool} {s : State} (hf : form = true) (hc : cmdForm c.desc = true)
    (ht : targetOfWord s (leAt (cmdPayload c.desc) 0 4) ≠ .bad) (hr : refusesChannels s = true) (hop : cmdOp c.desc ≠ 0x26) :
    targetOr c form s = .inl 0x12 := by
  simp [targetOr, hf, hc, ht, hr, hop]

theorem standbyRefusesChannelCommands : StandbyRefusesChannelCommands := by
  intro s c rest hrole hc p refused
  have hr : refusesChannels s = true := by rcases hrole with h | h <;> simp [refusesChannels, h]
  have hr' : refusesChannels (takeCmd c.seq s) = true := hr
  have refuse : ∀ {i op body}, CommandNext op c rest s → (∀ s, exec i s = .next (runCmd op body s)) →
      body c (takeCmd c.seq s) = some (complete c.seq 0x12 (noneData op) (takeCmd c.seq s)) → refused i := by
    intro i op body hn hi hb
    obtain ⟨t, g, ht, rfl, hdone, -⟩ := exec_refused hn (hi s) hb
    exact ⟨_, ht, hdone, rfl, rfl⟩
  have target : ∀ {form op}, CommandNext op c rest s → op ≠ 0x26 → form = true → targetOfWord s (leAt p 0 4) ≠ .bad →
      targetOr c form (takeCmd c.seq s) = .inl 0x12 :=
    fun hn hop hf ht => targetOr_standby hf hc ht hr' (hn.opcode ▸ hop)
  refine ⟨fun ht hlen => ⟨fun hn => ?_, fun hn => ?_, fun hn => ?_⟩, fun hn ht hcount hlen => ?_, fun hn ht hlen hlane => ?_,
    fun hn hcount hlen ha ho hne hw hm => ?_, fun hn hcount hlen hkey hps hok => ?_⟩
  · refine refuse (body := sessionDelete) hn (fun _ => rfl) ?_
    rw [sessionDelete, target hn (by decide) (decide_eq_true hlen) ht]
  · refine refuse (body := chanPark) hn (fun _ => rfl) ?_
    rw [chanPark, target hn (by decide) (decide_eq_true hlen) ht]
  · refine refuse (body := chanClose) hn (fun _ => rfl) ?_
    rw [chanClose, target hn (by decide) (decide_eq_true hlen) ht]
  · refine refuse (body := chanModify) hn (fun _ => rfl) ?_
    have hform : (decide (72 ≤ p.length) && decide (leAt p 4 2 ≤ 24) && decide (p.length = 72 + 8 * leAt p 4 2)) = true := by
      simp [hcount, hlen]
    rw [chanModify, target hn (by decide) hform ht]
  · refine refuse (body := chanMigrate) hn (fun _ => rfl) ?_
    have hform : (decide (p.length = 5) && (decide (leAt p 4 1 < 128) || leAt p 4 1 == 0xFF)) = true := by
      simpa [hlen] using hlane
    rw [chanMigrate, target hn (by decide) hform ht]
  · refine refuse (body := chanAdmit) hn (fun _ => rfl) ?_
    have hform : ¬ (p.length < 16 ∨ 24 < leAt p 12 2 ∨ p.length ≠ 16 + 8 * leAt p 12 2 ∨ (!cmdForm c.desc) = true ∨
        2 ^ 20 ≤ leAt p 0 4 ∨ (2 ^ 20 ≤ leAt p 4 4 ∧ leAt p 4 4 ≠ 0xFFFFFFFF) ∨
        (8192 ≤ leAt p 8 2 ∧ leAt p 8 2 ≠ 0xFFFF) ∨ leAt p 10 1 = 0) := by
      simp only [hc, Bool.not_true, Bool.false_eq_true, false_or]
      omega
    exact (if_neg hform).trans (if_pos hr')
  · refine refuse (body := sessionInsert) hn (fun _ => rfl) ?_
    have hwell : InsertWellFormed c (takeCmd c.seq s) := ⟨hcount, hlen, hc, hkey, hps, hok⟩
    rw [sessionInsert_of_wellFormed hwell, if_pos hr']

/-- Settles O17: a row runs the next command of its opcode alone, and a standby completes the others with STANDBY. -/
theorem commandsRunInTheirOrderOrAreRefused : Obligations.CommandsRunInTheirOrderOrAreRefused :=
  ⟨commandsRunInTheirOrder, standbyRefusesChannelCommands⟩

/-! ### SESSION_INSERT and SESSION_DELETE (O18) -/

/-- An entry without a partner is freed: the armed actions bound to it are marked. -/
theorem freeEntry_alone {h : Nat} {s : State} (hp : (sessAt s h).partner = none) : freeEntry h s = { s with
    sess := tdel s.sess h
    host := { s.host with
      armed := s.host.armed.map (fun a => if a.handle = some h then { a with freed := true } else a) } } := by
  simp only [freeEntry, hp]

section

variable {c : Cmd} {rest : List Cmd} {s : State}

/-- A well-formed SESSION_INSERT on a device that takes it (R45, R50). -/
theorem sessionInsert_taken (hn : CommandNext 0x20 c rest s) (hw : InsertWellFormed c s) (hr : refusesChannels s = false) :
    (∀ h, findKey s (insertKey c) = some h →
      ∃ t, exec .sessionInsert s = .next t ∧ completed s t c rest 0x0C ∧ t.sess = s.sess ∧ t.ev = s.ev) ∧
    (findKey s (insertKey c) = none → 1048576 ≤ s.sess.length →
      ∃ t, exec .sessionInsert s = .next t ∧ completed s t c rest 0x0B ∧ t.sess = s.sess ∧
        counted s t .MST_ADMIT_FAILS_table_full) ∧
    (findKey s (insertKey c) = none → s.sess.length < 1048576 →
      ∃ t, exec .sessionInsert s = .next t ∧ completed s t c rest 0 ∧
        t.sess = tset s.sess (lowestFree 0 s.sess) (newEntry c s)) := by
  have hi : exec .sessionInsert s = .next (runCmd 0x20 sessionInsert s) := rfl
  have hw' : InsertWellFormed c (takeCmd c.seq s) := ⟨hw.count, hw.length, hw.form, hw.key, hw.params, hw.values⟩
  have hbody := sessionInsert_of_wellFormed hw'
  rw [show refusesChannels (takeCmd c.seq s) = false from hr, if_neg Bool.false_ne_true,
    show findKey (takeCmd c.seq s) (insertKey c) = findKey s (insertKey c) from rfl] at hbody
  refine ⟨fun h hk => ?_, fun hk hfull => ?_, fun hk hroom => ?_⟩
  · rw [hk] at hbody
    obtain ⟨t, g, ht, rfl, hdone, -⟩ := exec_refused hn hi hbody
    exact ⟨_, ht, hdone, rfl, rfl⟩
  · rw [hk] at hbody
    obtain ⟨g, ht, hcmds, hcpls, -⟩ := exec_completing hn hi (hbody.trans (if_pos hfull)) (by simp) (by simp [takeCmd]) (by simp)
    refine ⟨_, ht, ⟨hcmds, _, hcpls⟩, by simp, ?_⟩
    have hbump : counted s (fbump .MST_ADMIT_FAILS_table_full 1 (takeCmd c.seq s)) .MST_ADMIT_FAILS_table_full :=
      counted_fbump (takeCmd c.seq s) .MST_ADMIT_FAILS_table_full 0 (by decide) (by decide)
    exact counted_after (f := .MST_ADMIT_FAILS_table_full) hbump
      ((onlyAt_raise ..).then (.of_regs rfl)) (by decide +kernel)
  · rw [hk] at hbody
    obtain ⟨g, ht, hcmds, hcpls, -⟩ := exec_completing hn hi (hbody.trans (if_neg (Nat.not_le.2 hroom))) rfl rfl rfl
    exact ⟨_, ht, ⟨hcmds, _, hcpls⟩, rfl⟩

/-- SESSION_DELETE of an entry that no command waits for (R50). -/
theorem sessionDelete_taken {h : Nat} (hn : CommandNext 0x21 c rest s) (hlen : (cmdPayload c.desc).length = 4)
    (ha : aims c s h) (hb : chanBusy s h = false) :
    ((sessAt s h).st ≠ .parked →
      ∃ t, exec .sessionDelete s = .next t ∧ completed s t c rest 0x0F ∧ t.sess = s.sess) ∧
    ((sessAt s h).st = .parked → (sessAt s h).partner = none →
      ∃ t, exec .sessionDelete s = .next t ∧ completed s t c rest 0 ∧ t.sess = tdel s.sess h) := by
  have hi : exec .sessionDelete s = .next (runCmd 0x21 sessionDelete s) := rfl
  have hbody : sessionDelete c (takeCmd c.seq s) = if (sessAt s h).st ≠ .parked then some (finish c.seq 0x0F h 0 (takeCmd c.seq s))
      else some (finishAs (entryData s h 0 0) c.seq (freeEntry h (takeCmd c.seq s))) := by
    rw [sessionDelete, hlen, show targetOr c (decide (4 = 4)) (takeCmd c.seq s) = .inr h from ha]
    exact if_neg (by rw [show chanBusy (takeCmd c.seq s) h = false from hb]; decide)
  refine ⟨fun hst => ?_, fun hst hp => ?_⟩
  · obtain ⟨t, g, ht, rfl, hdone, -⟩ := exec_refused hn hi (hbody.trans (if_pos hst))
    exact ⟨_, ht, hdone, rfl⟩
  · have hp' : (sessAt (takeCmd c.seq s) h).partner = none := hp
    rw [if_neg (not_not.2 hst), freeEntry_alone hp'] at hbody
    obtain ⟨g, ht, hcmds, hcpls, -⟩ := exec_completing hn hi hbody rfl rfl rfl
    exact ⟨_, ht, ⟨hcmds, _, hcpls⟩, rfl⟩

end

/-- Settles O18: SESSION_INSERT by key and room, SESSION_DELETE by the entry's state. -/
theorem sessionCommandsKeepTheTable : Obligations.SessionCommandsKeepTheTable := by
  intro s c rest p key n new
  refine ⟨fun hn hcount hlen hform hkey hps hok hr => ?_, fun h hn hlen ha hb => sessionDelete_taken hn hlen ha hb⟩
  obtain ⟨hheld, hfull, hnew⟩ := sessionInsert_taken hn ⟨hcount, hlen, hform, hkey, hps, hok⟩ hr
  refine ⟨hheld, hfull, fun hk hroom => ?_⟩
  obtain ⟨t, ht, hdone, hsess⟩ := hnew hk hroom
  exact ⟨t, newEntry c s, ht, hdone, hsess, rfl, rfl, rfl⟩

/-! ### Commands of a channel (O20) -/

theorem modChan_of_some {n : Nat} {ch : Channel} {s : State} (h : tget? s.chans n = some ch) (f : Channel → Channel) :
    modChan n f s = { s with chans := tset s.chans n (f ch) } := by
  rw [modChan, h]

theorem chanAt_of_some {n : Nat} {ch : Channel} {s : State} (h : tget? s.chans n = some ch) : chanAt s n = ch := by
  simp [chanAt, tget, h]

theorem flagLast_of_not_mem {n : Nat} {s : State} (h : n ∉ (laneAt s (chanAt s n).worker).list) : flagLast n s = s := by
  rw [flagLast, List.idxOf?_eq_none_iff.2 h]

theorem flagLast_of_mem {n : Nat} {s : State} (h : n ∈ (laneAt s (chanAt s n).worker).list) :
    flagLast n s = storeBytes (lastFlag s (chanAt s n).worker n)
      [Memory.read s.mem (lastFlag s (chanAt s n).worker n) ||| 4] s := by
  obtain ⟨i, hi⟩ := Option.isSome_iff_exists.1 (List.isSome_idxOf?.2 h)
  have hidx : (laneAt s (chanAt s n).worker).list.idxOf n = i := by rw [List.idxOf_eq_getD_idxOf?, hi]; rfl
  simp only [flagLast, hi, lastFlag, hidx]

section

variable {op : Nat} {c : Cmd} {rest : List Cmd} {s : State} {i : Instr} {body : Cmd → State → Option State} {h : Nat}

/-- A command that parks a channel waits for the boundary, the tick in progress flagged as the channel's last. -/
theorem exec_parking {n : Nat} {ch : Channel} {p : ParkReq} (hn : CommandNext op c rest s)
    (hi : exec i s = .next (runCmd op body s)) (hop : cmdReserved op = false) (hch : tget? s.chans n = some ch)
    (hb : body c (takeCmd c.seq s) =
      some (addEffect (.park n) (flagLast n (modChan n (fun x => { x with park := some p }) (takeCmd c.seq s))))) :
    ∃ t, exec i s = .next t ∧ underWay s t c rest ∧ t.sess = s.sess ∧ t.mast.effects = s.mast.effects ++ [.park n] ∧
      ((n ∉ (laneAt s ch.worker).list → t.mem = s.mem) ∧
        (n ∈ (laneAt s ch.worker).list → t.mem = Memory.writeBytes s.mem (lastFlag s ch.worker n)
          [Memory.read s.mem (lastFlag s ch.worker n) ||| 4])) ∧
      t.chans = tset s.chans n { ch with park := some p } := by
  have hmod := modChan_of_some (s := takeCmd c.seq s) hch (fun x => { x with park := some p })
  have hwork : (chanAt (modChan n (fun x => { x with park := some p }) (takeCmd c.seq s)) n).worker = ch.worker := by
    rw [hmod, chanAt, tget_tset_same]
    rfl
  rw [hmod] at hb hwork
  by_cases hmem : n ∈ (laneAt s ch.worker).list
  · rw [flagLast_of_mem (hwork ▸ hmem), hwork] at hb
    obtain ⟨ht, hway⟩ := exec_waiting hn hi hop hb rfl rfl
    exact ⟨_, ht, hway, rfl, rfl, ⟨fun h => absurd hmem h, fun _ => rfl⟩, rfl⟩
  · rw [flagLast_of_not_mem (hwork ▸ hmem)] at hb
    obtain ⟨ht, hway⟩ := exec_waiting hn hi hop hb rfl rfl
    exact ⟨_, ht, hway, rfl, rfl, ⟨fun _ => rfl, fun h => absurd h hmem⟩, rfl⟩

/-- A command about an entry completes with the entry's data and changes no entry and no channel. -/
theorem exec_finishing {st : Nat} (hn : CommandNext op c rest s) (hi : exec i s = .next (runCmd op body s))
    (hb : body c (takeCmd c.seq s) = some (finish c.seq st h 0 (takeCmd c.seq s))) :
    ∃ t, exec i s = .next t ∧ completed s t c rest st ∧ t.sess = s.sess ∧ t.chans = s.chans := by
  obtain ⟨t, g, ht, rfl, hdone, -⟩ := exec_refused hn hi hb
  exact ⟨_, ht, hdone, rfl, rfl⟩

/-- The target of a command with a well-formed payload, as the command's body finds it. -/
theorem targetOr_taken {form : Bool} (ha : aims c s h) (hf : form = true) : targetOr c form (takeCmd c.seq s) = .inr h := by
  rw [hf]
  exact ha

theorem chanBusy_taken (hb : chanBusy s h = false) : chanBusy (takeCmd c.seq s) h = false := hb

theorem activeChan_taken : activeChan (takeCmd c.seq s) h = activeChan s h := rfl

end

/-- CHAN_QUERY, CHAN_PARK, CHAN_MIGRATE and CHAN_CLOSE by their targets once these are found. -/
theorem chanPark_of_target {c : Cmd} {s : State} {h : Nat} (ht : targetOr c (decide ((cmdPayload c.desc).length = 4)) s = .inr h)
    (hb : chanBusy s h = false) : chanPark c s = match activeChan s h with
      | none => some (finish c.seq 0x0F h 0 s)
      | some n => some (addEffect (.park n) (flagLast n
          (modChan n (fun x => { x with park := some { seq := some c.seq, addressed := h } }) s))) := by
  rw [chanPark, ht]
  exact if_neg (by rw [hb]; decide)

theorem chanClose_of_target {c : Cmd} {s : State} {h : Nat} (ht : targetOr c (decide ((cmdPayload c.desc).length = 4)) s = .inr h)
    (hb : chanBusy s h = false) : chanClose c s = match activeChan s h with
      | some n => some (addEffect (.park n) (flagLast n
          (modChan n (fun x => { x with park := some { close := true, seq := some c.seq, addressed := h } }) s)))
      | none => some (finishAs (entryData s h 0 0) c.seq (freeEntry h (match (sessAt s h).partner with
          | some p => freeEntry p s
          | none => s))) := by
  rw [chanClose, ht]
  exact if_neg (by rw [hb]; decide)

/-- The form that CHAN_MIGRATE asks of its payload. -/
abbrev migrateForm (c : Cmd) : Bool := decide ((cmdPayload c.desc).length = 5) &&
  (decide (leAt (cmdPayload c.desc) 4 1 < 128) || leAt (cmdPayload c.desc) 4 1 == 0xFF)

theorem chanMigrate_of_none {c : Cmd} {s : State} {h : Nat} (ht : targetOr c (migrateForm c) s = .inr h)
    (hb : chanBusy s h = false) (ha : activeChan s h = none) : chanMigrate c s = some (finish c.seq 0x0F h 0 s) := by
  rw [chanMigrate, ht]
  exact (if_neg (by rw [hb]; decide)).trans (by rw [ha])

theorem chanMigrate_of_active {c : Cmd} {s : State} {h n : Nat} {ch : Channel} (ht : targetOr c (migrateForm c) s = .inr h)
    (hb : chanBusy s h = false) (ha : activeChan s h = some n) (hch : tget? s.chans n = some ch)
    (hlane : leAt (cmdPayload c.desc) 4 1 < 128) : chanMigrate c s =
      if leAt (cmdPayload c.desc) 4 1 = ch.lane then some (finish c.seq 0 h 0 s)
      else if laneTakes s (leAt (cmdPayload c.desc) 4 1) ch.cost then
        some (startMove n { target := leAt (cmdPayload c.desc) 4 1, cost := ch.cost, cmd := some c.seq, addressed := h } s)
      else some (finish c.seq 0x0A h 0 s) := by
  rw [chanMigrate, ht]
  refine (if_neg (by rw [hb]; decide)).trans ?_
  rw [ha]
  dsimp only
  rw [chanAt_of_some hch, if_neg (by omega : leAt (cmdPayload c.desc) 4 1 ≠ 0xFF)]
  split_ifs <;> rfl

/-- Settles O20: CHAN_QUERY, CHAN_PARK, CHAN_CLOSE and CHAN_MIGRATE on entries with and without a channel. -/
theorem channelCommandsActOnTheirChannel : Obligations.ChannelCommandsActOnTheirChannel := by
  intro s c rest h ha p lane lastTick
  have target4 : p.length = 4 → targetOr c (decide ((cmdPayload c.desc).length = 4)) (takeCmd c.seq s) = .inr h :=
    fun hlen => targetOr_taken ha (decide_eq_true hlen)
  have target5 : p.length = 5 → lane < 128 ∨ lane = 0xFF → targetOr c (migrateForm c) (takeCmd c.seq s) = .inr h :=
    fun hlen hlane => targetOr_taken ha (by simpa [migrateForm] using And.intro hlen hlane)
  refine ⟨fun hn hlen hb => ?_, fun hb hidle => ⟨fun hn hlen => ?_, fun hn hlen hlane => ?_, fun hn hlen hp => ?_⟩,
    fun n ch hb hact hch => ⟨fun hn hlen => ?_, fun hn hlen => ?_, fun hn hlen => ?_⟩⟩
  · have hbody : chanQuery c (takeCmd c.seq s) = some (finish c.seq 0 h 0 (takeCmd c.seq s)) := by
      rw [chanQuery, target4 hlen]
      exact if_neg (by rw [chanBusy_taken hb]; decide)
    obtain ⟨g, ht, hcmds, hcpls, -⟩ := exec_completing hn (i := .chanQuery) rfl hbody rfl rfl rfl
    exact ⟨_, ht, hcmds, hcpls, rfl, rfl⟩
  · have hbody := chanPark_of_target (target4 hlen) (chanBusy_taken hb)
    rw [activeChan_taken, hidle] at hbody
    exact exec_finishing hn rfl hbody
  · exact exec_finishing hn rfl (chanMigrate_of_none (target5 hlen hlane) (chanBusy_taken hb) hidle)
  · have hbody := chanClose_of_target (target4 hlen) (chanBusy_taken hb)
    have hp' : (sessAt (takeCmd c.seq s) h).partner = none := hp
    rw [activeChan_taken, hidle, hp'] at hbody
    dsimp only at hbody
    rw [freeEntry_alone hp'] at hbody
    obtain ⟨g, ht, hcmds, hcpls, -⟩ := exec_completing hn (i := .chanClose) rfl hbody rfl rfl rfl
    exact ⟨_, ht, ⟨hcmds, _, hcpls⟩, rfl⟩
  · have hbody := chanPark_of_target (target4 hlen) (chanBusy_taken hb)
    rw [activeChan_taken, hact] at hbody
    exact exec_parking hn rfl (by decide) hch hbody
  · have hbody := chanClose_of_target (target4 hlen) (chanBusy_taken hb)
    rw [activeChan_taken, hact] at hbody
    exact exec_parking hn rfl (by decide) hch hbody
  · have hbody := fun hlane : lane < 128 =>
      chanMigrate_of_active (target5 hlen (.inl hlane)) (chanBusy_taken hb) hact (s := takeCmd c.seq s) hch hlane
    refine ⟨fun hlane hsame => ?_, fun hlane hother hno => ?_, fun hlane hother htakes => ?_⟩
    · obtain ⟨t, ht, hdone, -, hchans⟩ := exec_finishing hn (i := .chanMigrate) rfl ((hbody hlane).trans (if_pos hsame))
      exact ⟨t, ht, hdone, hchans⟩
    · have hno' : ¬ laneTakes (takeCmd c.seq s) lane ch.cost = true := by
        rw [show laneTakes (takeCmd c.seq s) lane ch.cost = false from hno]
        decide
      obtain ⟨t, ht, hdone, -, hchans⟩ := exec_finishing hn (i := .chanMigrate) rfl
        ((hbody hlane).trans ((if_neg hother).trans (if_neg hno')))
      exact ⟨t, ht, hdone, hchans⟩
    · obtain ⟨ht, hway⟩ := exec_waiting hn (i := .chanMigrate) rfl (by decide)
        ((hbody hlane).trans ((if_neg hother).trans (if_pos htakes))) (by simp [startMove]) (by simp [startMove, takeCmd])
      refine ⟨_, ht, hway, ?_⟩
      rw [startMove, modChan_of_some (s := takeCmd c.seq s) hch]
      simp [lane, p]

/-! ### CHAN_MODIFY and STATS_READ (O21) -/

section

variable {op : Nat} {c : Cmd} {rest : List Cmd} {s : State}

/-- No command submitted before the next one is open: those still waiting have not been taken. -/
theorem earlierOpen_taken (hn : CommandNext op c rest s) : earlierOpen (takeCmd c.seq s) c.seq = false := by
  rw [earlierOpen, takeCmd_host hn]
  simp only [List.any_eq_false]
  intro k hk
  rcases List.mem_cons.1 hk with rfl | hk
  · simp
  · simp [(hn.others k hk).2.1]

/-- The action that a timed command arms. -/
def armedAction (c : Cmd) (h : Nat) (s : State) : Armed :=
  { seq := c.seq, time := cmdTime c.desc, desc := c.desc, handle := some h, wasActive := (sessAt s h).st != .parked }

/-- The next command, timed: LATE where its time has passed, else armed. -/
theorem armCommand_taken (hn : CommandNext op c rest s) (h : Nat) (data : Bytes) :
    armCommand c (some h) data (takeCmd c.seq s) =
      if cmdTime c.desc ≤ nowNs s then some (complete c.seq 7 data (takeCmd c.seq s))
      else some (complete c.seq 0 data { takeCmd c.seq s with
        host := { (takeCmd c.seq s).host with armed := s.host.armed ++ [armedAction c h s] } }) := by
  have hnow : nowNs (takeCmd c.seq s) = nowNs s := by simp [nowNs]
  rw [armCommand, earlierOpen_taken hn, if_neg Bool.false_ne_true, hnow]
  split_ifs
  · rfl
  · rfl

/-- The form that CHAN_MODIFY asks of its payload. -/
abbrev modifyForm (c : Cmd) : Bool := decide (72 ≤ (cmdPayload c.desc).length) &&
  decide (leAt (cmdPayload c.desc) 4 2 ≤ 24) && decide ((cmdPayload c.desc).length = 72 + 8 * leAt (cmdPayload c.desc) 4 2)

theorem chanModify_timed {h : Nat} (ht : targetOr c (modifyForm c) s = .inr h) (htimed : cmdTimed c.desc = true) :
    chanModify c s = armCommand c (some h) (chanData s h 0) s := by
  rw [chanModify, ht]
  exact if_pos htimed

theorem chanModify_untimed {h : Nat} (ht : targetOr c (modifyForm c) s = .inr h) (htimed : cmdTimed c.desc = false)
    (hb : chanBusy s h = false) :
    chanModify c s = match checkModify s h (modReqOf c h false).key (modReqOf c h false).ps with
      | .inl st => some (finish c.seq st h 0 s)
      | .inr _ => some (addEffect (.change (modReqOf c h false)) s) := by
  rw [chanModify, ht]
  exact (if_neg (by rw [htimed]; decide)).trans (if_neg (by rw [hb]; decide))

/-- A well-formed STATS_READ of an entry that no command waits for. -/
theorem statsRead_of_target {h : Nat} (hlen : (cmdPayload c.desc).length = 8) (hcount : leAt (cmdPayload c.desc) 6 2 ≤ 64)
    (hknown : (List.range (leAt (cmdPayload c.desc) 6 2)).all (fun i => statKnown (leAt (cmdPayload c.desc) 4 2 + i)) = true)
    (hc : cmdForm c.desc = true) (ht : targetOfWord s (leAt (cmdPayload c.desc) 0 4) = .entry h) (hb : chanBusy s h = false) :
    statsRead c s = if (activeChan s h).isNone then some (complete c.seq 0x0D (zeros 8) s)
      else some { s with mast := { s.mast with
        reads := s.mast.reads ++ [(c.seq, h, leAt (cmdPayload c.desc) 4 2, leAt (cmdPayload c.desc) 6 2)] } } := by
  have hform : (decide ((cmdPayload c.desc).length = 8) && decide (leAt (cmdPayload c.desc) 6 2 ≤ 64) &&
      (List.range (leAt (cmdPayload c.desc) 6 2)).all (fun i => statKnown (leAt (cmdPayload c.desc) 4 2 + i)) &&
      cmdForm c.desc) = true := by
    rw [hknown, hc, decide_eq_true hlen, decide_eq_true hcount]
    rfl
  rw [statsRead, if_pos hform, ht]
  exact if_neg (by rw [hb]; decide)

end

/-- Settles O21: CHAN_MODIFY timed and untimed, and STATS_READ. -/
theorem modifiesAndReadsWaitForTheirBoundary : Obligations.ModifiesAndReadsWaitForTheirBoundary := by
  intro s c rest h p n
  refine ⟨fun hn ha hcount hlen => ?_, fun ch hn htw hc hlen hcount hknown hb => ?_⟩
  · have htarget : targetOr c (modifyForm c) (takeCmd c.seq s) = .inr h := by
      refine targetOr_taken ha ?_
      rw [modifyForm, decide_eq_true hcount, decide_eq_true hlen, decide_eq_true (by omega : 72 ≤ p.length)]
      rfl
    have harm := fun htimed => (chanModify_timed htarget htimed).trans (armCommand_taken hn h _)
    refine ⟨fun htimed hlate => ?_, fun htimed hearly => ?_, fun htimed hb st hst => ?_, fun htimed hb m hm => ?_⟩
    · obtain ⟨t, g, ht, rfl, hdone, harmed⟩ := exec_refused hn (i := .chanModify) rfl ((harm htimed).trans (if_pos hlate))
      exact ⟨_, ht, hdone, harmed, rfl⟩
    · obtain ⟨g, ht, hcmds, hcpls, harmed⟩ := exec_completing hn (i := .chanModify) rfl
        ((harm htimed).trans (if_neg (Nat.not_le.2 hearly))) rfl rfl rfl
      exact ⟨_, armedAction c h s, ht, ⟨hcmds, _, hcpls⟩, harmed, rfl, rfl, rfl, rfl⟩
    · have hbody := chanModify_untimed htarget htimed (chanBusy_taken hb)
      rw [show checkModify (takeCmd c.seq s) h _ _ = checkModify s h _ _ from rfl, hst] at hbody
      exact exec_finishing hn rfl hbody
    · have hbody := chanModify_untimed htarget htimed (chanBusy_taken hb)
      rw [show checkModify (takeCmd c.seq s) h _ _ = checkModify s h _ _ from rfl, hm] at hbody
      obtain ⟨ht, hway⟩ := exec_waiting hn (i := .chanModify) rfl (by decide) hbody rfl rfl
      exact ⟨_, ht, hway, rfl, rfl⟩
  · have hbody := statsRead_of_target (s := takeCmd c.seq s) hlen hcount hknown hc htw (chanBusy_taken hb)
    rw [activeChan_taken] at hbody
    refine ⟨fun hact => ?_, fun hact => ?_⟩
    · rw [hact] at hbody
      obtain ⟨ht, hway⟩ := exec_waiting hn (i := .statsRead) rfl (by decide) hbody rfl rfl
      exact ⟨_, ht, hway, rfl⟩
    · rw [hact] at hbody
      obtain ⟨t, g, ht, rfl, hdone, -⟩ := exec_refused hn (i := .statsRead) rfl hbody
      exact ⟨_, ht, hdone, rfl⟩

end Sys2Proof.Proofs.Commands
end

section
/-! PROOF. The commands of the pair and of ageing (R438, R439, R461). -/

namespace Sys2Proof.Proofs.PairCommands

open Sys2Proof Sys2Proof.Machine Sys2Proof.Spec Sys2Proof.Proofs.Commands

/-! ### What protection lost leaves unchanged (R430) -/

/-- A part of the state that no step of a fold changes is as the fold found it. -/
theorem foldl_unchanged {α β : Type} {f : State → α → State} {part : State → β} (hf : ∀ s x, part (f s x) = part s)
    (l : List α) (s : State) : part (l.foldl f s) = part s := by
  induction l generalizing s with
  | nil => rfl
  | cons x l ih => exact (ih (f s x)).trans (hf s x)

theorem releaseTx_host (port q n : Nat) (s : State) : (releaseTx port q n s).host = s.host ∧
    (releaseTx port q n s).mast = s.mast ∧ (releaseTx port q n s).pair = s.pair := by
  unfold releaseTx
  dsimp only
  split
  · exact ⟨rfl, rfl, rfl⟩
  · refine ⟨?_, ?_, ?_⟩ <;> refine (foldl_unchanged (fun s x => ?_) _ _).trans ?_ <;> simp

theorem releaseAll_host (n : Nat) (s : State) : (releaseAll n s).host = s.host ∧ (releaseAll n s).mast = s.mast ∧
    (releaseAll n s).pair = s.pair := by
  unfold releaseAll
  refine ⟨?_, ?_, ?_⟩ <;> refine foldl_unchanged (fun s p => foldl_unchanged (fun s q => ?_) _ _) _ _
  · exact (releaseTx_host ..).1
  · exact (releaseTx_host ..).2.1
  · exact (releaseTx_host ..).2.2

/-- Protection dropped: the pair's `sync` is 0, and the host port and the mast controller are as they were. -/
theorem unprotect_host (cause : Nat) (s : State) : (unprotect cause s).host = s.host ∧
    (unprotect cause s).mast = s.mast ∧ ∃ k, (unprotect cause s).pair = { s.pair with sync := 0, cause := k, copyWait := none } := by
  unfold unprotect
  dsimp only
  generalize (if s.pair.cause = 2 ∧ cause = 4 then 2 else cause) = k
  split
  · simp only [raise_frame, releaseAll_host, true_and]
    exact ⟨_, rfl⟩
  · simp only [releaseAll_host, true_and]
    exact ⟨_, rfl⟩

/-! ### The pair commands (O22) -/

theorem startSync_unseen {s : State} (h : s.pair.seen = false) : startSync s = s := by
  simp [startSync, syncReady, h]

theorem yieldOwner_host (s : State) : (yieldOwner s).host = s.host ∧
    (yieldOwner s).pair = { s.pair with yielding := true } := by
  simp [yieldOwner]

section

variable {c : Cmd} {s : State}

theorem pairForm_nil (hc : cmdForm c.desc = true) (hp : cmdPayload c.desc = []) : pairForm c 0 = true := by
  simp [pairForm, hc, hp]

/-- PAIR_SWITCH at once: it waits for the yield on a protected active device, and is refused on any other. -/
theorem pairSwitch_at_once (hf : pairForm c 0 = true) (ht : cmdTimed c.desc = false) : pairSwitch c s =
    if s.pair.role = .unpaired then some (finishPair c.seq 0x0F 0 s)
    else if s.pair.role ≠ .active then some (finishPair c.seq 0x12 0 s)
    else if s.pair.sync ≠ 2 then some (finishPair c.seq 0x0F 0 s)
    else if s.pair.yielding then none
    else some (yieldFor c.seq false s) := by
  simp [pairSwitch, hf, ht]

end

section

variable {op : Nat} {c : Cmd} {rest : List Cmd} {s : State} {i : Instr} {body : Cmd → State → Option State} {st : Nat}

/-- A pair command that completes and has no effect. -/
theorem exec_finishingPair (hn : CommandNext op c rest s) (hi : exec i s = .next (runCmd op body s))
    (hb : body c (takeCmd c.seq s) = some (finishPair c.seq st 0 (takeCmd c.seq s))) :
    ∃ t, exec i s = .next t ∧ completed s t c rest st ∧ t.pair = s.pair := by
  obtain ⟨t, g, ht, rfl, hdone, -⟩ := exec_refused hn hi hb
  exact ⟨_, ht, hdone, rfl⟩

end

/-- Settles O22: PAIR_SWITCH, PAIR_HOLD, PAIR_RESYNC and PAIR_QUERY by the role and the state of the pair. -/
theorem pairCommandsActOnThePair : Obligations.PairCommandsActOnThePair := by
  intro s c rest hc p
  refine ⟨fun hn hp ht => ?_, fun hn hlen hzero => ⟨fun hle => ?_, fun hlt => ?_⟩, fun hn hp => ⟨fun ha hs => ?_, fun hr => ?_⟩,
    fun hn hp => ?_⟩
  · have hbody := pairSwitch_at_once (s := takeCmd c.seq s) (pairForm_nil hc hp) ht
    have hpair : (takeCmd c.seq s).pair = s.pair := by simp
    rw [hpair] at hbody
    refine ⟨fun hr => ?_, fun hr ha => ?_, fun ha hs => ?_, fun ha hs hy => ?_⟩
    · exact exec_finishingPair hn rfl (hbody.trans (if_pos hr))
    · exact exec_finishingPair hn rfl (hbody.trans ((if_neg hr).trans (if_pos ha)))
    · rw [ha] at hbody
      exact exec_finishingPair hn rfl (hbody.trans (if_pos hs))
    · rw [ha, hs, hy] at hbody
      obtain ⟨ht, hway⟩ := exec_waiting hn (i := .pairSwitch) rfl (by decide) hbody
        (by simp [yieldFor, hy, yieldOwner_host]) (by simp [yieldFor, hy, yieldOwner_host, takeCmd])
      exact ⟨_, ht, hway, by simp [yieldFor, hy, yieldOwner_host], by simp [yieldFor, hy, yieldOwner_host]⟩
  · have hbody : pairHold c (takeCmd c.seq s) = some (finishPair c.seq 0 0 { takeCmd c.seq s with
        pair := { (takeCmd c.seq s).pair with held := leAt (cmdPayload c.desc) 0 1 == 1 } }) := by
      have hform : pairForm c 4 = true := by simpa [pairForm, hc] using hlen
      unfold pairHold
      rw [if_neg]
      rw [hform, show slice (cmdPayload c.desc) 1 3 = [0, 0, 0] from hzero]
      simpa [allZero] using hle
    obtain ⟨g, ht, hcmds, hcpls, -⟩ := exec_completing hn (i := .pairHold) rfl hbody rfl rfl rfl
    exact ⟨_, ht, ⟨hcmds, _, hcpls⟩, rfl⟩
  · have hbody : pairHold c (takeCmd c.seq s) = some (finishPair c.seq 3 0 (takeCmd c.seq s)) := by
      unfold pairHold
      rw [if_pos]
      simp [show 1 < leAt (cmdPayload c.desc) 0 1 from hlt]
    exact exec_finishingPair hn rfl hbody
  · obtain ⟨hhost, hmast, k, hpair⟩ := unprotect_host 7 (takeCmd c.seq s)
    have hseen : (unprotect 7 (takeCmd c.seq s)).pair.seen = false := by simpa [hpair] using hs
    have hbody : pairResync c (takeCmd c.seq s) = some (finishPair c.seq 0 0 (unprotect 7 (takeCmd c.seq s))) := by
      simp [pairResync, pairForm_nil hc hp, ha, startSync_unseen hseen]
    obtain ⟨g, ht, hcmds, hcpls, -⟩ := exec_completing hn (i := .pairResync) rfl hbody (by rw [hhost])
      (by rw [hhost]; rfl) (by rw [hmast]; rfl)
    exact ⟨_, ht, ⟨hcmds, _, hcpls⟩, by simp [hpair]⟩
  · have hbody : pairResync c (takeCmd c.seq s) = some (finishPair c.seq 0x12 0 (takeCmd c.seq s)) := by
      simp [pairResync, pairForm_nil hc hp, hr]
    exact exec_finishingPair hn rfl hbody
  · have hbody : pairQuery c (takeCmd c.seq s) = some (finishPair c.seq 0 0 (takeCmd c.seq s)) := by
      simp [pairQuery, pairForm_nil hc hp]
    obtain ⟨g, ht, hcmds, hcpls, -⟩ := exec_completing hn (i := .pairQuery) rfl hbody rfl rfl rfl
    exact ⟨_, ht, hcmds, rfl, hcpls⟩

/-! ### REEF_EXIT beside a channel that its own command parks (O23) -/

/-- A REEF_EXIT with no payload, its sequence number 7. -/
def reefExitCmd : Cmd := { seq := 7, desc := 0x53 :: zeros 23 }

/-- A reefed device with a REEF_EXIT next, whose record lowers the clock of cluster 0. Its table of channels lists channel 0
twice: the entry in front waits to park for command 7 itself, the one behind it loads lane 0. -/
def reefedTwice : State :=
  { State.reset with
    mast := { State.reset.mast with fw := true }
    host := { State.reset.host with cmds := [reefExitCmd] }
    age := { State.reset.age with reefed := true, lower := [(0, 0)] }
    chans := [(0, { lane := 1, park := some { seq := some 7 } }), (0, { cost := 1 })] }

/-- The restarted cluster's lane is relieved of channel 0, whose park completes command 7 before it is under way. -/
theorem cmds_reefedTwice : (runCmd 0x53 reefExit reefedTwice).host.cmds = [] := by decide +kernel

/-- Refutes O23: in the state `reefedTwice` the new clock of cluster 0 makes lane 0 give up channel 0, the park of the entry in
front completes command 7, the REEF_EXIT itself, and the command is no longer in the queue. -/
theorem not_ageCommandsPlanReefAndSleep : ¬ Obligations.AgeCommandsPlanReefAndSleep := by
  unfold Obligations.AgeCommandsPlanReefAndSleep
  intro hall
  have hnext : CommandNext 0x53 reefExitCmd [] reefedTwice :=
    ⟨rfl, rfl, rfl, ⟨rfl, rfl⟩, by decide, by simp⟩
  obtain ⟨-, -, -, hexit, -⟩ := hall reefedTwice reefExitCmd [] (by decide)
  obtain ⟨t, r, ht, ⟨hcmds, -⟩, -⟩ := (hexit hnext (by decide)).2 rfl rfl rfl rfl rfl
  have ht' : runCmd 0x53 reefExit reefedTwice = t := Host.Outcome.next.inj ht
  rw [← ht', cmds_reefedTwice] at hcmds
  cases hcmds

end Sys2Proof.Proofs.PairCommands
end

section
/-! PROOF. CHAN_ADMIT: how an admission waits for its boundary, and what it makes there (R33 to R37, R44, R48). -/

namespace Sys2Proof.Proofs.Admission

open Sys2Proof Sys2Proof.Machine Sys2Proof.Spec Sys2Proof.Proofs.Effects Sys2Proof.Proofs.RegisterFields
  Sys2Proof.Proofs.Commands

/-! ### Entries and channels changed one at a time -/

theorem tget?_modSess (h : Nat) (f : Session → Session) (s : State) (k : Nat) :
    tget? (modSess h f s).sess k = if k = h then (tget? s.sess h).map f else tget? s.sess k := by
  unfold modSess
  split
  · next e he =>
    by_cases hk : k = h
    · subst hk
      simp [he]
    · rw [if_neg hk]
      exact tget?_tset_other _ _ hk
  · next he =>
    by_cases hk : k = h
    · subst hk
      simp [he]
    · rw [if_neg hk]

theorem tget?_modChan (n : Nat) (f : Channel → Channel) (s : State) (k : Nat) :
    tget? (modChan n f s).chans k = if k = n then (tget? s.chans n).map f else tget? s.chans k := by
  unfold modChan
  split
  · next c hc =>
    by_cases hk : k = n
    · subst hk
      simp [hc]
    · rw [if_neg hk]
      exact tget?_tset_other _ _ hk
  · next hc =>
    by_cases hk : k = n
    · subst hk
      simp [hc]
    · rw [if_neg hk]

/-! ### Where entries and channels stand -/

/-- What binds an entry: its channel, its state and its partner. -/
def binding (e : Session) : Option Nat × EntryState × Option Nat := (e.chan, e.st, e.partner)

/-- What places a channel: its entries, its lane and cost, and since when it is live. -/
def placement (c : Channel) : Nat × Nat × Nat × Nat × Bool × Nat := (c.acc, c.oth, c.lane, c.cost, c.live, c.since)

/-- Every entry stays bound and every channel placed as it was; the mast controller and the time are as they were. -/
structure SamePlaces (s t : State) : Prop where
  mast : t.mast = s.mast
  time : t.time = s.time
  sess : ∀ h, (tget? t.sess h).map binding = (tget? s.sess h).map binding
  chans : ∀ n, (tget? t.chans n).map placement = (tget? s.chans n).map placement

theorem SamePlaces.refl (s : State) : SamePlaces s s := ⟨rfl, rfl, fun _ => rfl, fun _ => rfl⟩

theorem SamePlaces.trans {s t u : State} (h : SamePlaces s t) (g : SamePlaces t u) : SamePlaces s u :=
  ⟨g.mast.trans h.mast, g.time.trans h.time, fun k => (g.sess k).trans (h.sess k), fun k => (g.chans k).trans (h.chans k)⟩

theorem modSess_places {f : Session → Session} (hf : ∀ e, binding (f e) = binding e) (h : Nat) (s : State) :
    SamePlaces s (modSess h f s) := by
  refine ⟨by simp, by simp, fun k => ?_, fun n => by simp⟩
  rw [tget?_modSess]
  split
  · next hk =>
    subst hk
    cases tget? s.sess k with
    | none => rfl
    | some e => exact congrArg some (hf e)
  · rfl

theorem modChan_places {f : Channel → Channel} (hf : ∀ c, placement (f c) = placement c) (n : Nat) (s : State) :
    SamePlaces s (modChan n f s) := by
  refine ⟨by simp, by simp, fun k => by simp, fun k => ?_⟩
  rw [tget?_modChan]
  split
  · next hk =>
    subst hk
    cases tget? s.chans k with
    | none => rfl
    | some c => exact congrArg some (hf c)
  · rfl

theorem modLeg_places (n l : Nat) (f : Leg → Leg) (s : State) : SamePlaces s (modLeg n l f s) :=
  modChan_places (fun c => by unfold Channel.withLeg; split <;> rfl) n s

theorem statSet_places (n id v : Nat) (s : State) : SamePlaces s (statSet n id v s) :=
  modChan_places (f := fun c => { c with stats := tset c.stats id (BitVec.ofNat 32 v) }) (fun _ => rfl) n s

theorem draw_places (s : State) : SamePlaces s (draw s) := ⟨rfl, rfl, fun _ => rfl, fun _ => rfl⟩

theorem finish_places (seq status h eff : Nat) (s : State) : SamePlaces s (finish seq status h eff s) :=
  ⟨by simp, by simp, fun _ => by simp, fun _ => by simp⟩

theorem pushItem_places (h : Nat) (i : BItem) (s : State) : SamePlaces s (pushItem h i s) := by
  unfold pushItem
  dsimp only
  split
  · exact ⟨rfl, rfl, fun _ => rfl, fun _ => rfl⟩
  · exact .refl s

theorem startGen_places (n l v : Nat) (s : State) : SamePlaces s (startGen n l v s) := by
  unfold startGen
  dsimp only
  split
  · exact ((modLeg_places ..).trans (modLeg_places ..)).trans (modLeg_places ..)
  · exact modLeg_places ..

theorem actLeg_places (n l side : Nat) (ps : List (Nat × Nat × Word)) (s : State) : SamePlaces s (actLeg n l side ps s) := by
  have hgen : SamePlaces s (match modEntry ps side 0x031A with
      | some v => startGen n l v s
      | none => s) := by
    split
    · exact startGen_places ..
    · exact .refl s
  unfold actLeg
  dsimp only
  split
  · exact hgen.trans (pushItem_places ..)
  · exact hgen

theorem startLeg_places (n l : Nat) (s : State) : SamePlaces s (startLeg n l s) := by
  have hleg : ∀ (leg : Leg) (w : Session → Option (BitVec 16)) (h : Nat),
      SamePlaces s (modSess h (fun e => { e with txSeq := w e }) (modLeg n l (fun _ => leg) s)) :=
    fun leg w h => (modLeg_places n l _ s).trans (modSess_places (f := fun e => { e with txSeq := w e }) (fun _ => rfl) ..)
  unfold startLeg
  dsimp only
  refine .trans ?_ ((draw_places _).trans ((draw_places _).trans (draw_places _)))
  split
  · exact (hleg _ (fun e => some (e.txSeq.getD _)) _).trans (statSet_places ..)
  · exact hleg _ (fun e => some (e.txSeq.getD _)) _

/-! ### Linking, making and activating -/

theorem isSome_modSess (h : Nat) (f : Session → Session) (s : State) (k : Nat) :
    (tget? (modSess h f s).sess k).isSome = (tget? s.sess k).isSome := by
  rw [tget?_modSess]
  split
  · next hk => subst hk; simp
  · rfl

/-- An entry's old partner, unless it is the entry to keep, loses its link (R33). -/
def unlinkOld (h keep : Nat) (s : State) : State :=
  match (sessAt s h).partner with
  | some p => if p = keep then s else modSess p (fun e => { e with partner := none }) s
  | none => s

theorem isSome_unlinkOld (h keep : Nat) (s : State) (k : Nat) :
    (tget? (unlinkOld h keep s).sess k).isSome = (tget? s.sess k).isSome := by
  unfold unlinkOld
  split
  · split
    · rfl
    · exact isSome_modSess ..
  · rfl

theorem unlinkOld_kept (h keep : Nat) (s : State) : (unlinkOld h keep s).mast = s.mast ∧
    (unlinkOld h keep s).time = s.time := by
  unfold unlinkOld
  split
  · split <;> simp
  · exact ⟨rfl, rfl⟩

theorem linkPair_eq (a b : Nat) (s : State) : linkPair a b s =
    modSess b (fun e => { e with partner := some a })
      (modSess a (fun e => { e with partner := some b }) (unlinkOld b a (unlinkOld a b s))) := rfl

/-- Linked entries are each other's partners. -/
theorem partner_linkPair {a b : Nat} {s : State} (hab : a ≠ b) (ha : (tget? s.sess a).isSome = true)
    (hb : (tget? s.sess b).isSome = true) :
    (∃ x, tget? (linkPair a b s).sess a = some x ∧ x.partner = some b) ∧
    (∃ y, tget? (linkPair a b s).sess b = some y ∧ y.partner = some a) := by
  have held : ∀ k, (tget? (unlinkOld b a (unlinkOld a b s)).sess k).isSome = (tget? s.sess k).isSome :=
    fun k => (isSome_unlinkOld ..).trans (isSome_unlinkOld ..)
  obtain ⟨x, hx⟩ := Option.isSome_iff_exists.1 ((held a).trans ha)
  obtain ⟨y, hy⟩ := Option.isSome_iff_exists.1 ((held b).trans hb)
  rw [linkPair_eq]
  simp [tget?_modSess, hx, hy, hab, hab.symm]

/-- A made channel stands on its lane with its two entries, which are bound to it and to each other. -/
theorem makeChannel_placed {n lane : Nat} {m : Admit} {s : State} (hne : m.acc ≠ m.oth)
    (ha : (tget? s.sess m.acc).isSome = true) (hb : (tget? s.sess m.oth).isSome = true) :
    (∃ x, tget? (makeChannel n lane m s).sess m.acc = some x ∧ x.chan = some n ∧ x.partner = some m.oth) ∧
    (∃ y, tget? (makeChannel n lane m s).sess m.oth = some y ∧ y.chan = some n ∧ y.partner = some m.acc) ∧
    tget? (makeChannel n lane m s).chans n = some { acc := m.acc, oth := m.oth, lane := lane, cost := m.cost } := by
  obtain ⟨⟨x, hx, hxp⟩, y, hy, hyp⟩ := partner_linkPair hne ha hb
  unfold makeChannel
  dsimp only
  simp [tget?_modSess, hx, hy, hxp, hyp, hne, hne.symm]

/-- At its activation boundary a channel is live, and both its entries are ACTIVE. -/
theorem activate_placed {n seq : Nat} {s : State} {c : Channel} {x y : Session} (hc : tget? s.chans n = some c)
    (hx : tget? s.sess c.acc = some x) (hy : tget? s.sess c.oth = some y) (hne : c.acc ≠ c.oth) :
    (activate n seq s).mast = s.mast ∧
    (tget? (activate n seq s).sess c.acc).map binding = some (x.chan, .active, x.partner) ∧
    (tget? (activate n seq s).sess c.oth).map binding = some (y.chan, .active, y.partner) ∧
    (tget? (activate n seq s).chans n).map placement = some (c.acc, c.oth, c.lane, c.cost, true, tickNow s) := by
  unfold activate
  dsimp only
  generalize hs1 : setEntries n .active (modChan n (fun c => { c with
    live := true, since := tickNow s, worked := tickNow s - 1, ec := { seed := Config.freeWord s.free } }) s) = s1
  have hsame : SamePlaces s1 (finish seq 0 (chanAt s n).acc (tickNow s) (startLeg n 1 (startLeg n 0 (draw s1)))) :=
    ((draw_places _).trans ((startLeg_places ..).trans (startLeg_places ..))).trans (finish_places ..)
  rw [hsame.mast, hsame.sess, hsame.sess, hsame.chans, ← hs1]
  simp [setEntries, chanAt, tget, tget?_modChan, tget?_modSess, hc, hx, hy, hne, hne.symm, binding, placement]

/-! ### CHAN_ADMIT (O19) -/

/-- The parameter entries that a CHAN_ADMIT gives. -/
def admitParams (c : Cmd) : List (Nat × Nat × Word) := parseParams (leAt (cmdPayload c.desc) 12 2) ((cmdPayload c.desc).drop 16)

/-- What a CHAN_ADMIT leaves for its boundary. -/
def admitReq (c : Cmd) (b : Nat) : AdmitReq :=
  { acc := leAt (cmdPayload c.desc) 0 4, oth := b, want := leAt (cmdPayload c.desc) 8 2, mask := leAt (cmdPayload c.desc) 10 1
    ps := admitParams c, seq := c.seq }

/-- A CHAN_ADMIT whose payload is well formed. -/
structure AdmitWellFormed (c : Cmd) : Prop where
  count : leAt (cmdPayload c.desc) 12 2 ≤ 24
  length : (cmdPayload c.desc).length = 16 + 8 * leAt (cmdPayload c.desc) 12 2
  form : cmdForm c.desc = true
  access : leAt (cmdPayload c.desc) 0 4 < 2 ^ 20
  other : leAt (cmdPayload c.desc) 4 4 < 2 ^ 20 ∨ leAt (cmdPayload c.desc) 4 4 = 0xFFFFFFFF
  want : leAt (cmdPayload c.desc) 8 2 < 8192 ∨ leAt (cmdPayload c.desc) 8 2 = 0xFFFF
  mask : leAt (cmdPayload c.desc) 10 1 ≠ 0

/-- The other entry that a CHAN_ADMIT names: by its handle, or as the partner of the access entry. -/
def otherEntry (c : Cmd) (s : State) : Option Nat :=
  if leAt (cmdPayload c.desc) 4 4 = 0xFFFFFFFF then (sessAt s (leAt (cmdPayload c.desc) 0 4)).partner
  else if (tget? s.sess (leAt (cmdPayload c.desc) 4 4)).isSome then some (leAt (cmdPayload c.desc) 4 4) else none

/-- A CHAN_ADMIT of two entries that passes its checks waits for the boundary. -/
theorem chanAdmit_accepted {c : Cmd} {s : State} {b : Nat} {m : Admit} (hw : AdmitWellFormed c)
    (hr : refusesChannels s = false) (ha : (tget? s.sess (leAt (cmdPayload c.desc) 0 4)).isSome = true)
    (hba : chanBusy s (leAt (cmdPayload c.desc) 0 4) = false)
    (hne : leAt (cmdPayload c.desc) 0 4 ≠ leAt (cmdPayload c.desc) 4 4) (ho : otherEntry c s = some b)
    (hbb : chanBusy s b = false) (hm : checkAdmit s (leAt (cmdPayload c.desc) 0 4) b (admitParams c) = .inr m) :
    chanAdmit c s = some (addEffect (.admission (admitReq c b)) s) := by
  obtain ⟨hcount, hlength, hform, haccess, hother, hwant, hmask⟩ := hw
  have hformed : ¬ ((cmdPayload c.desc).length < 16 ∨ 24 < leAt (cmdPayload c.desc) 12 2 ∨
      (cmdPayload c.desc).length ≠ 16 + 8 * leAt (cmdPayload c.desc) 12 2 ∨ (!cmdForm c.desc) = true ∨
      2 ^ 20 ≤ leAt (cmdPayload c.desc) 0 4 ∨
      (2 ^ 20 ≤ leAt (cmdPayload c.desc) 4 4 ∧ leAt (cmdPayload c.desc) 4 4 ≠ 0xFFFFFFFF) ∨
      (8192 ≤ leAt (cmdPayload c.desc) 8 2 ∧ leAt (cmdPayload c.desc) 8 2 ≠ 0xFFFF) ∨
      leAt (cmdPayload c.desc) 10 1 = 0) := by
    simp only [hform, Bool.not_true, Bool.false_eq_true, false_or]
    omega
  unfold otherEntry at ho
  unfold admitParams at hm
  unfold chanAdmit
  rw [if_neg hformed, if_neg (by rw [hr]; decide), if_neg (by rw [Option.isNone_eq_false_iff.2 ha]; decide), if_neg (by rw [hba]; decide), if_neg hne]
  dsimp only
  rw [ho]
  dsimp only
  rw [if_neg (by rw [hbb]; decide), hm]
  rfl

theorem eq_inr_of_ite {α β : Type} {p : Prop} [Decidable p] {x : α} {y : α ⊕ β} {m : β}
    (h : (if p then .inl x else y) = .inr m) : y = .inr m := by
  split at h
  · cases h
  · exact h

/-- The channel of an admission has its two entries in the order of their keys (R33). -/
theorem checkAdmit_sides {s : State} {a b : Nat} {ps : List (Nat × Nat × Word)} {m : Admit}
    (h : checkAdmit s a b ps = .inr m) : m.acc = a ∧ m.oth = b ∨ m.acc = b ∧ m.oth = a := by
  unfold checkAdmit at h
  dsimp only at h
  have hm := Sum.inr.inj (eq_inr_of_ite (eq_inr_of_ite (eq_inr_of_ite (eq_inr_of_ite (eq_inr_of_ite h)))))
  rw [← hm]
  dsimp only
  split
  · exact .inl ⟨rfl, rfl⟩
  · exact .inr ⟨rfl, rfl⟩

/-- The state with the waiting effects taken up. -/
def effectsTaken (s : State) : State := { s with mast := { s.mast with effects := [] } }

section

variable {s : State} {r : AdmitReq} {m : Admit}

theorem takeEffects_admission (he : s.mast.effects = [.admission r]) : takeEffects [] s = boundaryAdmit r (effectsTaken s) := by
  rw [takeEffects, he]
  rfl

/-- The channel number that an admission would take. -/
def admitNumber (r : AdmitReq) (s : State) : Nat := if r.want = 0xFFFF then lowestFree 0 s.chans else r.want

/-- The lane on which an admission would be placed. -/
def admitLane (r : AdmitReq) (m : Admit) (s : State) : Option Nat :=
  place (withNextClocks s) (openClusters s r.mask) m.cost none

/-- The mast controller's effects have no part in where a channel is placed. -/
theorem admitLane_effectsTaken (r : AdmitReq) (m : Admit) (s : State) : admitLane r m (effectsTaken s) = admitLane r m s := by
  have hclocks : withNextClocks (effectsTaken s) = effectsTaken (withNextClocks s) := by
    unfold withNextClocks
    refine List.foldl_hom effectsTaken fun u i => ?_
    split_ifs with h h' h'
    · rfl
    · exact absurd h h'
    · exact absurd h' h
    · rfl
  rw [admitLane, hclocks]
  rfl

/-- An admission that passes its checks, at its boundary: no channel, counted, where its number is taken or no lane takes it. -/
theorem boundaryAdmit_passed (ha : (tget? s.sess r.acc).isSome = true) (ho : (tget? s.sess r.oth).isSome = true)
    (hm : checkAdmit s r.acc r.oth r.ps = .inr m)
    (hk : param (sessAt s m.acc).key m.pa 0x0101 ≠ 1 ∨ keepCount s < 512) : boundaryAdmit r s =
      if 8192 ≤ s.chans.length ∨ (tget? s.chans (admitNumber r s)).isSome then noContext r.seq m r.want s
      else match admitLane r m s with
        | none => noContext r.seq m r.want s
        | some lane => actLeg (admitNumber r s) 1 1 r.ps (actLeg (admitNumber r s) 0 0 r.ps
            (activate (admitNumber r s) r.seq (makeChannel (admitNumber r s) lane m s))) := by
  unfold boundaryAdmit
  rw [if_neg (by simp [ha, ho, Option.isNone_iff_eq_none, ← Option.isSome_iff_ne_none]), hm]
  exact if_neg (by omega)

/-- An admission placed on a lane: its channel, and its two entries as they are bound to it. -/
theorem admission_placed {n l : Nat} (hne : m.acc ≠ m.oth) (ha : (tget? s.sess m.acc).isSome = true)
    (hb : (tget? s.sess m.oth).isSome = true) :
    let t := actLeg n 1 1 r.ps (actLeg n 0 0 r.ps (activate n r.seq (makeChannel n l m s)))
    t.mast = s.mast ∧
    (tget? t.sess m.acc).map binding = some (some n, .active, some m.oth) ∧
    (tget? t.sess m.oth).map binding = some (some n, .active, some m.acc) ∧
    (tget? t.chans n).map placement = some (m.acc, m.oth, l, m.cost, true, tickNow s) := by
  intro t
  obtain ⟨⟨x, hx, hxn, hxp⟩, ⟨y, hy, hyn, hyp⟩, hc⟩ := makeChannel_placed (n := n) (lane := l) hne ha hb
  obtain ⟨hmast, hacc, hoth, hchan⟩ := activate_placed (seq := r.seq) hc hx hy hne
  have hsame : SamePlaces _ t := (actLeg_places n 0 0 r.ps _).trans (actLeg_places n 1 1 r.ps _)
  have hmade : (makeChannel n l m s).mast = s.mast ∧ tickNow (makeChannel n l m s) = tickNow s := by
    simp [makeChannel, linkPair_eq, tickNow, unlinkOld_kept]
  rw [hsame.mast, hsame.sess, hsame.sess, hsame.chans, hmast, hacc, hoth, hchan, hmade.1, hmade.2, hxn, hxp, hyn, hyp]
  exact ⟨rfl, rfl, rfl, rfl⟩

/-- What an entry's binding says of the entry. -/
theorem sessAt_of_binding {h : Nat} {n p : Nat} (hb : (tget? s.sess h).map binding = some (some n, .active, some p)) :
    (sessAt s h).chan = some n ∧ (sessAt s h).st = .active ∧ (sessAt s h).partner = some p := by
  obtain ⟨e, he, hbind⟩ := Option.map_eq_some_iff.1 hb
  simp only [binding, Prod.mk.injEq] at hbind
  simpa [sessAt, tget, he] using hbind

/-- A refusal with NO_CONTEXT is counted and changes no entry and no channel. -/
theorem noContext_counted (seq want : Nat) : counted s (noContext seq m want s) .MST_ADMIT_FAILS_no_context ∧
    (noContext seq m want s).chans = s.chans ∧ (noContext seq m want s).sess = s.sess ∧
    (noContext seq m want s).mast = s.mast := by
  refine ⟨?_, by simp [noContext], by simp [noContext], by simp [noContext]⟩
  have hbump : counted s (fbump .MST_ADMIT_FAILS_no_context 1 s) .MST_ADMIT_FAILS_no_context :=
    counted_fbump s .MST_ADMIT_FAILS_no_context 0 (by decide) (by decide)
  have hrest : OnlyAt eventCounters (fbump .MST_ADMIT_FAILS_no_context 1 s) (noContext seq m want s) :=
    (onlyAt_raise ..).then (.of_regs (complete_frame ..).2.2.1)
  exact counted_after (f := .MST_ADMIT_FAILS_no_context) hbump hrest (by decide +kernel)

end

section

variable {c : Cmd} {rest : List Cmd} {s : State} {b : Nat} {m : Admit}

theorem otherEntry_named
    (ho : leAt (cmdPayload c.desc) 4 4 < 2 ^ 20 ∧ (tget? s.sess (leAt (cmdPayload c.desc) 4 4)).isSome = true ∧
        b = leAt (cmdPayload c.desc) 4 4 ∨
      leAt (cmdPayload c.desc) 4 4 = 0xFFFFFFFF ∧ (sessAt s (leAt (cmdPayload c.desc) 0 4)).partner = some b) :
    otherEntry c s = some b := by
  unfold otherEntry
  rcases ho with ⟨hlt, hsome, hb⟩ | ⟨hall, hpart⟩
  · rw [if_neg (by omega), if_pos hsome, hb]
  · rw [if_pos hall, hpart]

theorem exec_chanAdmit (hn : CommandNext 0x22 c rest s) (hw : AdmitWellFormed c) (hr : refusesChannels s = false)
    (ha : (tget? s.sess (leAt (cmdPayload c.desc) 0 4)).isSome = true)
    (hba : chanBusy s (leAt (cmdPayload c.desc) 0 4) = false) (hne : b ≠ leAt (cmdPayload c.desc) 0 4)
    (ho : otherEntry c s = some b) (hbb : chanBusy s b = false)
    (hm : checkAdmit s (leAt (cmdPayload c.desc) 0 4) b (admitParams c) = .inr m) :
    ∃ t, exec .chanAdmit s = .next t ∧ underWay s t c rest ∧ t.sess = s.sess ∧ t.chans = s.chans ∧
      t.mast.effects = s.mast.effects ++ [.admission (admitReq c b)] := by
  have hne' : leAt (cmdPayload c.desc) 0 4 ≠ leAt (cmdPayload c.desc) 4 4 := by
    intro heq
    have hlt := hw.access
    rw [otherEntry, if_neg (by omega), ← heq, if_pos ha] at ho
    exact hne (Option.some.inj ho).symm
  have hbody := chanAdmit_accepted (s := takeCmd c.seq s) hw hr ha (chanBusy_taken hba) hne' ho (chanBusy_taken hbb) hm
  obtain ⟨ht, hway⟩ := exec_waiting hn (i := .chanAdmit) rfl (by decide) hbody rfl rfl
  exact ⟨_, ht, hway, rfl, rfl, rfl⟩

end

/-- Settles O19: the command waits for its boundary, and the boundary places the channel or counts the refusal. -/
theorem admissionPlacesAChannel : Obligations.AdmissionPlacesAChannel := by
  refine ⟨?_, ?_⟩
  · intro s c rest b m p a o want n hn hcount hlen hform ha ho hne hwant hmask hr hea heb hba hbb hm
    exact exec_chanAdmit hn ⟨hcount, hlen, hform, ha, ho.imp And.left And.left, hwant, hmask⟩ hr hea hba hne
      (otherEntry_named ho) hbb hm
  · intro s r m he hne ha ho hm hk num lane t
    have ht : t = boundaryAdmit r (effectsTaken s) := takeEffects_admission he
    rw [boundaryAdmit_passed (s := effectsTaken s) ha ho hm hk, admitLane_effectsTaken] at ht
    refine ⟨fun hno => ?_, fun l hroom hfree hlane => ?_⟩
    · have ht' : t = noContext r.seq m r.want (effectsTaken s) := by
        rw [ht]
        split_ifs with hfull
        · rfl
        · rw [show admitLane r m s = none from (or_assoc.2 hno).resolve_left hfull]
      obtain ⟨hcount, hchans, hsess, hmast⟩ := noContext_counted (s := effectsTaken s) (m := m) r.seq r.want
      rw [ht']
      exact ⟨hchans, hsess, by rw [hmast]; rfl, hcount⟩
    · have hfree' : ¬ (8192 ≤ (effectsTaken s).chans.length ∨
          (tget? (effectsTaken s).chans (admitNumber r (effectsTaken s))).isSome = true) := by
        rw [not_or, Option.not_isSome_iff_eq_none]
        exact ⟨Nat.not_le.2 hroom, hfree⟩
      rw [show admitLane r m s = some l from hlane, if_neg hfree'] at ht
      have hsides := checkAdmit_sides hm
      obtain ⟨hacc, hoth, hentries⟩ : (tget? s.sess m.acc).isSome = true ∧ (tget? s.sess m.oth).isSome = true ∧
          m.acc ≠ m.oth := by
        rcases hsides with ⟨h1, h2⟩ | ⟨h1, h2⟩ <;> rw [h1, h2]
        · exact ⟨ha, ho, hne⟩
        · exact ⟨ho, ha, hne.symm⟩
      obtain ⟨hmast, hbacc, hboth, hchan⟩ := admission_placed (s := effectsTaken s) (r := r) (n := num) (l := l) hentries hacc hoth
      obtain ⟨ch, hch, hplace⟩ := Option.map_eq_some_iff.1 hchan
      simp only [placement, Prod.mk.injEq] at hplace
      obtain ⟨h1, h2, h3, h4, h5, h6⟩ := hplace
      rw [ht]
      refine ⟨congrArg (fun x => x.effects) hmast, ⟨ch, hch, h1, h2, h3, h4, h5, h6⟩, fun h hh => ?_⟩
      have hboth' := sessAt_of_binding hboth
      have hbacc' := sessAt_of_binding hbacc
      rcases hsides with ⟨ha', ho'⟩ | ⟨ha', ho'⟩ <;> rw [ha', ho'] at hbacc' hboth' <;>
        rcases List.mem_pair.1 hh with rfl | rfl
      · rw [if_pos rfl]; exact hbacc'
      · rw [if_neg hne.symm]; exact hboth'
      · rw [if_pos rfl]; exact hboth'
      · rw [if_neg hne.symm]; exact hbacc'

end Sys2Proof.Proofs.Admission
end

section
/-! PROOF. Register writes: what the checks refuse, and what fields do by their access types (R8 to R11, R348, R363). -/

namespace Sys2Proof.Proofs.RegisterWrites

open Sys2Proof Sys2Proof.Machine Sys2Proof.Spec Sys2Proof.Proofs.Effects Sys2Proof.Proofs.RegisterFields Sys2Proof.Proofs.RegisterPlaces
  Sys2Proof.Proofs.HostPort Sys2Proof.Proofs.PairCommands

/-! ### Writes that are refused or without effect (O24) -/

/-- Every command that writes one register is a checked write of its word. -/
theorem exec_of_writes {i : Instr} {m a v : Nat} (h : writes i = some (m, a, v)) (s : State) :
    exec i s = .next (writeBy m a v s) := by
  unfold writes at h
  split at h <;> cases h <;> rfl

/-- What a command that writes one register leaves. -/
theorem leaves_of_write {i : Instr} {m a v : Nat} {s t : State} {P : State → Prop} (hw : writes i = some (m, a, v))
    (ht : writeBy m a v s = t) (hP : P t) : leaves i s P :=
  ⟨t, by rw [exec_of_writes hw, ht], hP⟩

theorem writeBy_inReset {m a v : Nat} {s : State} (h : inReset s = true) : writeBy m a v s = s := by
  simp [writeBy, h]

theorem writeBy_denied {m a v : Nat} {s : State} (hr : inReset s = false) (ha : a % 4 = 0) (hl : a < 0x02000000)
    (hp : permitted s m a 4 true = false) : writeBy m a v s = recordDenial m a 4 true s := by
  simp [writeBy, hr, ha, hp, Nat.not_le.2 hl]

theorem writeBy_hole {m a v : Nat} {s : State} (h : a % 4 ≠ 0 ∨ regAt a = none) (hp : permitted s m a 4 true = true) :
    writeBy m a v s = s := by
  unfold writeBy
  split
  · rfl
  · next hw =>
    have ha : a % 4 = 0 := by
      by_contra hne
      simp [hne] at hw
    rw [writeReg, h.resolve_left (not_not.2 ha)]

/-- Settles O24: writes in reset, refused writes, and writes of no register. -/
theorem registerWritesAreChecked : Obligations.RegisterWritesAreChecked := by
  intro i m a v s hw
  rw [leaves, exec_of_writes hw]
  refine ⟨fun hr => by rw [writeBy_inReset hr], fun hr ha hl hp => ?_, fun h hp => by rw [writeBy_hole h hp]⟩
  refine ⟨_, rfl, writeBy_denied hr ha hl hp, ?_⟩
  rw [writeBy_denied hr ha hl hp]
  refine ⟨by simp, by simp, by simp, by simp, by simp, by simp, by simp, by simp, fun b h1 h2 h3 h4 h5 h6 h7 => ?_⟩
  refine (onlyAt_recordDenial m a 4 true s).same b ?_
  simp [denialRegs, eventCounters, h1, h2, h3, h4, h5, h6, h7]

/-! ### Fields by their access types (O25) -/

/-- Two fields of a register that share no bit. -/
def besideEachOther (f g : FieldDesc) : Prop := f.hi < g.lo ∨ g.hi < f.lo

/-- The fields of a register lie within its 32 bits and share none. -/
theorem fields_sound (r : RegId) : (∀ f ∈ r.fields, f.lo ≤ f.hi ∧ f.hi < 32) ∧ r.fields.Pairwise besideEachOther := by
  unfold besideEachOther
  cases r <;> decide

/-- What a field holds after the word `w` is written to it, from what it held (R8, R11). -/
def fieldAfter (f : FieldDesc) (s : State) (i w old : Nat) : Nat :=
  match f.acc with
  | .rw => if f.refuses s i w then old else bitsOf w f.hi f.lo
  | .w1c => old - old.land (bitsOf w f.hi f.lo)
  | .w1s => old.lor (bitsOf w f.hi f.lo)
  | .ro => old
  | .rc => old
  | .wo => old

theorem bitsOf_lt (n hi lo : Nat) : bitsOf n hi lo < 2 ^ (hi - lo + 1) := Nat.mod_lt _ (by positivity)

theorem bitsOf_written_same (f : FieldDesc) (s : State) (i w n : Nat) :
    bitsOf (f.written s i w n) f.hi f.lo = fieldAfter f s i w (bitsOf n f.hi f.lo) := by
  have hv := bitsOf_lt w f.hi f.lo
  have hold := bitsOf_lt n f.hi f.lo
  unfold FieldDesc.written fieldAfter
  cases f.acc with
  | rw =>
    dsimp only
    split
    · rfl
    · rw [bitsOf_setBits_same, Nat.mod_eq_of_lt hv]
  | w1c => rw [bitsOf_setBits_same, Nat.mod_eq_of_lt (by omega)]
  | w1s =>
    rw [bitsOf_setBits_same]
    exact Nat.mod_eq_of_lt (Nat.or_lt_two_pow hold hv)
  | ro => rfl
  | rc => rfl
  | wo => rfl

theorem bitsOf_written_other {f g : FieldDesc} (hg : g.lo ≤ g.hi) (hf : f.lo ≤ f.hi) (h : besideEachOther g f) (s : State)
    (i w n : Nat) : bitsOf (g.written s i w n) f.hi f.lo = bitsOf n f.hi f.lo := by
  have hset : ∀ v, bitsOf (setBits n g.hi g.lo v) f.hi f.lo = bitsOf n f.hi f.lo :=
    fun v => bitsOf_setBits_other n v hg hf h
  unfold FieldDesc.written
  cases g.acc with
  | rw =>
    dsimp only
    split
    · rfl
    · exact hset _
  | w1c => exact hset _
  | w1s => exact hset _
  | ro => rfl
  | rc => rfl
  | wo => rfl

theorem foldl_written_other {fs : List FieldDesc} {f : FieldDesc} (hf : f.lo ≤ f.hi) (hok : ∀ g ∈ fs, g.lo ≤ g.hi)
    (hp : ∀ g ∈ fs, besideEachOther f g) (s : State) (i w n : Nat) :
    bitsOf (fs.foldl (fun n f => f.written s i w n) n) f.hi f.lo = bitsOf n f.hi f.lo := by
  induction fs generalizing n with
  | nil => rfl
  | cons g fs ih =>
    obtain ⟨hg, hfs⟩ := List.forall_mem_cons.1 hp
    obtain ⟨hokg, hokfs⟩ := List.forall_mem_cons.1 hok
    rw [List.foldl_cons, ih hokfs hfs, bitsOf_written_other hokg hf hg.symm]

/-- Each field of a written word holds what its access type makes of what it held. -/
theorem bitsOf_written {fs : List FieldDesc} (hok : ∀ f ∈ fs, f.lo ≤ f.hi) (hp : fs.Pairwise besideEachOther) {f : FieldDesc}
    (hf : f ∈ fs) (s : State) (i w n : Nat) :
    bitsOf (fs.foldl (fun n f => f.written s i w n) n) f.hi f.lo = fieldAfter f s i w (bitsOf n f.hi f.lo) := by
  induction fs generalizing n with
  | nil => cases hf
  | cons g fs ih =>
    obtain ⟨hg, hfs⟩ := List.pairwise_cons.1 hp
    obtain ⟨hokg, hokfs⟩ := List.forall_mem_cons.1 hok
    rw [List.foldl_cons]
    by_cases hin : f ∈ fs
    · rw [ih hokfs hfs hin, bitsOf_written_other hokg (hokfs f hin) (hg f hin)]
    · obtain rfl : f = g := (List.mem_cons.1 hf).resolve_right hin
      rw [foldl_written_other hokg hokfs hg, bitsOf_written_same]

/-- An address at which a register answers is that of a word in the register space. -/
theorem aligned_of_regAt {a : Nat} {x : RegId × Nat × Nat} (h : regAt a = some x) : a % 4 = 0 ∧ a < 0x02000000 := by
  obtain ⟨p, hp, hx⟩ := List.exists_of_findSome?_eq_some h
  obtain ⟨i, j, hi, hj, ha⟩ := eq_copyAddr_of_at? hx
  have hsound := List.all_eq_true.1 regPlaces_sound p hp
  rw [ha]
  exact ⟨copyAddr_aligned hsound .., (copyAddr_le_lastAddr hi hj).trans_lt ((sound_iff p).1 hsound).2.2.2.2.2⟩

/-- A register other than the event counters has none of their addresses; the event counters refuse no value. -/
theorem apart_or_no_reserved {a i j : Nat} {r : RegId} (h : regAt a = some (r, i, j)) (s : State) (w : Nat) :
    a ∉ eventCounters ∨ reservedFields s r i w = [] := by
  have hc : regAt (RegId.addr .ERR_CLASS) = some (.ERR_CLASS, 0, 0) := regAt_addr .ERR_CLASS (by decide) (by decide)
  have hq : regAt (RegId.addr .ERR_PENDING) = some (.ERR_PENDING, 0, 0) := regAt_addr .ERR_PENDING (by decide) (by decide)
  by_cases hmem : a ∈ eventCounters
  · right
    rcases List.mem_pair.1 hmem with rfl | rfl
    · rw [hc] at h
      cases h
      rfl
    · rw [hq] at h
      cases h
      rfl
  · exact .inl hmem

theorem onlyAt_reservedEvents (a : Nat) (fs : List FieldDesc) (s : State) :
    OnlyAt eventCounters s (fs.foldl (fun s f => reservedEvent a f.lo s) s) := by
  induction fs generalizing s with
  | nil => exact onlyAt_refl _ s
  | cons f fs ih => exact (onlyAt_raise ..).then (ih _)

/-- A write by access types alone: what each field holds after it, and what else it changes. -/
theorem plainWrite_fields {a w i j : Nat} {r : RegId} (h : regAt a = some (r, i, j)) (s : State) :
    (∀ f ∈ r.fields, bitsOf (regWord (plainWrite a w s) a) f.hi f.lo =
      fieldAfter f s i w (bitsOf (regWord s a) f.hi f.lo)) ∧
    (∀ b, b ≠ a → b ∉ eventCounters → regWord (plainWrite a w s) b = regWord s b) ∧
    (plainWrite a w s).mem = s.mem ∧ (plainWrite a w s).time = s.time ∧ (plainWrite a w s).lanes = s.lanes := by
  obtain ⟨hok, hp⟩ := fields_sound r
  have hlo : ∀ f ∈ r.fields, f.lo ≤ f.hi := fun f hf => (hok f hf).1
  set n := r.fields.foldl (fun n f => f.written s i w n) (regWord s a) with hn
  set u := if (n = regWord s a && !r.fromFuses) = true then s else setWord a n s with hu
  have hwrite : plainWrite a w s = (reservedFields s r i w).foldl (fun s f => reservedEvent a f.lo s) u := by
    simp only [plainWrite, h]
    rfl
  have hword : ∀ f ∈ r.fields, bitsOf (regWord u a) f.hi f.lo = bitsOf n f.hi f.lo := by
    intro f hf
    rw [hu]
    split
    · next hsame =>
      simp only [Bool.and_eq_true, decide_eq_true_eq] at hsame
      rw [hsame.1]
    · rw [regWord_setWord_same, bitsOf_mod _ (hok f hf).1 (hok f hf).2]
  have hevents := onlyAt_reservedEvents a (reservedFields s r i w) u
  have hframe : u.mem = s.mem ∧ u.time = s.time ∧ u.lanes = s.lanes ∧ ∀ b, b ≠ a → regWord u b = regWord s b := by
    rw [hu]
    split
    · exact ⟨rfl, rfl, rfl, fun _ _ => rfl⟩
    · exact ⟨rfl, rfl, rfl, fun b hb => regWord_setWord_other _ _ hb⟩
  obtain ⟨hmem, htime, hlanes, hother⟩ := hframe
  rw [hwrite]
  refine ⟨fun f hf => ?_, fun b hb hc => (hevents.same b hc).trans (hother b hb), ?_, ?_, ?_⟩
  · have hsame : regWord ((reservedFields s r i w).foldl (fun s f => reservedEvent a f.lo s) u) a = regWord u a := by
      rcases apart_or_no_reserved h s w with hc | hnone
      · exact hevents.same a hc
      · rw [hnone]
        rfl
    rw [hsame, hword f hf, hn, bitsOf_written hlo hp hf]
  · exact (foldl_unchanged (part := State.mem) (fun s f => by simp [reservedEvent]) _ u).trans hmem
  · exact (foldl_unchanged (part := State.time) (fun s f => by simp [reservedEvent]) _ u).trans htime
  · exact (foldl_unchanged (part := State.lanes) (fun s f => by simp [reservedEvent]) _ u).trans hlanes

/-- Settles O25: the fields of a register written by access types alone. -/
theorem fieldsFollowTheirAccessTypes : Obligations.FieldsFollowTheirAccessTypes := by
  intro m a v s r i j hat hr hp hwin hign hwhole hafter
  obtain ⟨ha, hl⟩ := aligned_of_regAt hat
  have hwrite : writeBy m a.toNat v.toNat s = plainWrite a.toNat v.toNat s := by
    have hopen : (inReset s || a.toNat % 4 != 0 || decide (0x02000000 ≤ a.toNat)) = false := by
      simp [hr, ha, hl]
    rw [writeBy, hopen, if_neg Bool.false_ne_true, if_pos hp, writeReg, hat]
    simp only [hwin, hign, Bool.or_self, hwhole, Bool.false_eq_true, if_false, hafter]
  obtain ⟨hfields, hothers, hmem, htime, hlanes⟩ := plainWrite_fields (w := v.toNat) hat s
  refine ⟨_, rfl, ?_⟩
  rw [hwrite]
  exact ⟨hfields, fun b hb h1 h2 => hothers b hb (by simp [eventCounters, h1, h2]), hmem, htime, hlanes⟩

/-! ### A register write that is taken -/

/-- A bit of a word, as a field of one bit. -/
theorem bitsOf_bit (v : Word) (k : Nat) : bitsOf v.toNat k k = if v.getLsbD k then 1 else 0 := by
  rw [bitsOf, BitVec.getLsbD, Nat.testBit, Nat.shiftRight_eq_div_pow]
  simp only [Nat.sub_self, zero_add, pow_one, Nat.one_and_eq_mod_two, bne_iff_ne, ne_eq]
  split <;> omega

theorem bitsOf_bit_one {v : Word} {k : Nat} (h : bit v k) : bitsOf v.toNat k k = 1 := by rw [bitsOf_bit, if_pos h]

theorem bitsOf_bit_zero {v : Word} {k : Nat} (h : ¬ bit v k) : bitsOf v.toNat k k = 0 := by rw [bitsOf_bit, if_neg h]

theorem bit_of_bitsOf {v : Word} {k : Nat} (h : bitsOf v.toNat k k = 1) : bit v k := by
  by_contra hno
  rw [bitsOf_bit_zero hno] at h
  cases h

/-- An address outside the windows of the lanes. -/
theorem unriggedWindow_outside {a : Nat} (h : a < 0x1000000 ∨ 0x1800000 ≤ a) (s : State) : unriggedWindow s a = false := by
  have : ¬ (0x1000000 ≤ a ∧ a < 0x1800000) := by omega
  simp [unriggedWindow, this]

/-- A permitted write that no rule ignores or refuses as a whole: the fields by their types, then what the register does. -/
theorem writeBy_taken {m : Fin 16} {r : RegId} {i v : Nat} {s : State} (hm : mayWrite m r i s)
    (hat : regAt (r.addr i) = some (r, i, 0)) (hwin : unriggedWindow s (r.addr i) = false) (hign : ignoredWrite s r = false)
    (hwhole : wholeRefusal s r i (r.addr i) v = none) :
    writeBy m (r.addr i) v s = afterWrite r i (regWord s (r.addr i)) v (plainWrite (r.addr i) v s) := by
  obtain ⟨hr, hp⟩ := hm
  obtain ⟨ha, hl⟩ := aligned_of_regAt hat
  have hopen : (inReset s || r.addr i % 4 != 0 || decide (0x02000000 ≤ r.addr i)) = false := by
    simp [hr, ha, hl]
  rw [writeBy, hopen, if_neg Bool.false_ne_true, if_pos hp, writeReg, hat]
  simp only [hwin, hign, Bool.or_self, hwhole, Bool.false_eq_true, if_false]

/-- The registers and counters of events that a write by access types may change. -/
theorem regsEvents_plainWrite (a w : Nat) (s : State) : RegsEvents s (plainWrite a w s) := by
  unfold plainWrite
  split
  · exact .refl s
  · refine .trans (.ite (.refl s) ⟨_, _, rfl⟩) (.foldl (fun s f => regsEvents_raise ..) _ _)

theorem onlyAt_plainWrite (a w : Nat) (s : State) : OnlyAt (a :: eventCounters) s (plainWrite a w s) := by
  unfold plainWrite
  split
  · exact onlyAt_refl _ s
  · dsimp only
    refine OnlyAt.then ?_ ((onlyAt_reservedEvents ..).mono (List.subset_cons_self _ _))
    split
    · exact onlyAt_refl _ s
    · exact onlyAt_setWord _ s List.mem_cons_self

/-- A write of a register of WO fields alone changes no state by its access types. -/
theorem plainWrite_of_wo {a w i j : Nat} {r : RegId} {s : State} (hat : regAt a = some (r, i, j))
    (hwo : (r.fields.all fun f => f.acc == .wo) = true) (hf : r.fromFuses = false) : plainWrite a w s = s := by
  have hall : ∀ f ∈ r.fields, f.acc = .wo := fun f hmem => by simpa using List.all_eq_true.1 hwo f hmem
  have hnone : reservedFields s r i w = [] := by
    rw [reservedFields, List.reverse_eq_nil_iff, List.filter_eq_nil_iff]
    intro f hmem
    simp [FieldDesc.refuses, hall f hmem]
  have hsame : ∀ (fs : List FieldDesc) (n : Nat), (∀ f ∈ fs, f.acc = .wo) →
      fs.foldl (fun n f => f.written s i w n) n = n := by
    intro fs
    induction fs with
    | nil => exact fun _ _ => rfl
    | cons f fs ih =>
      intro n h
      obtain ⟨hf, hfs⟩ := List.forall_mem_cons.1 h
      rw [List.foldl_cons, show f.written s i w n = n by simp [FieldDesc.written, hf], ih n hfs]
  simp [plainWrite, hat, hnone, hsame r.fields _ hall, hf]

end Sys2Proof.Proofs.RegisterWrites
end

section
/-! PROOF. The commands of the time island (R273 to R276, R285, R286, R288, R289). -/

namespace Sys2Proof.Proofs.TimeCommands

open Sys2Proof Sys2Proof.Machine Sys2Proof.Spec Sys2Proof.Proofs.Effects Sys2Proof.Proofs.RegisterFields
  Sys2Proof.Proofs.RegisterPlaces Sys2Proof.Proofs.RegisterWrites Sys2Proof.Proofs.PairCommands

/-! ### Corrected time (R274) -/

/-- A change of rate leaves corrected time as it was. -/
theorem correctedTime_setRate (r : BitVec 32) (s : State) : correctedTime (setRate r s).time = correctedTime s.time := by
  simp only [correctedTime, setRate, addOfs, rateTerm]
  have hmod : (0 : Int) < ((2 ^ 48 * unitsPerSec : Nat) : Int) := by decide
  have hnn := Int.emod_nonneg ((s.time.ofs : Int) + ((s.time.counter.toNat : Int) * s.time.r.toInt / 16777216 -
    (s.time.counter.toNat : Int) * r.toInt / 16777216)) hmod.ne'
  rw [Int.toNat_of_nonneg hnn, Int.add_assoc, Int.emod_add_emod]
  congr 2
  ring

theorem setRate_time (r : BitVec 32) (s : State) : (setRate r s).time = { s.time with
    r := r, ofs := (setRate r s).time.ofs, plain := (setRate r s).time.plain } := rfl

/-- A change of the servo's state changes only the state and its cause. -/
theorem setServo_time (st : ServoState) (cause : Nat) (s : State) :
    (setServo st cause s).time = { s.time with srv := st, cause := cause } := by
  unfold setServo
  dsimp only
  split
  · rfl
  · simp

/-- Corrected time depends on the counter, the offset and the rate alone. -/
theorem correctedTime_congr {t u : Time} (hc : u.counter = t.counter) (ho : u.ofs = t.ofs) (hr : u.r = t.r) :
    correctedTime u = correctedTime t := by
  simp only [correctedTime, hc, ho, hr]

/-! ### Writes of the time island's registers -/

section

variable {m : Fin 16} {v : Word} {s : State}

theorem write_timRate (hm : mayWrite m .TIM_RATE 0 s) (hidle : s.time.srv = .idle) :
    exec (.timRateWrite m v) s = .next (setRate v (plainWrite (RegId.addr .TIM_RATE) v.toNat s)) := by
  have h := writeBy_taken (v := v.toNat) hm (regAt_addr .TIM_RATE (by decide) (by decide))
    (unriggedWindow_outside (by decide +kernel) s) (by simp [ignoredWrite, hidle]) rfl
  refine congrArg Host.Outcome.next (h.trans ?_)
  simp [afterWrite]

theorem write_timRate_ignored (hm : mayWrite m .TIM_RATE 0 s) (hsrv : s.time.srv ≠ .idle) :
    exec (.timRateWrite m v) s = .next s := by
  have hat : regAt (RegId.addr .TIM_RATE) = some (.TIM_RATE, 0, 0) := regAt_addr .TIM_RATE (by decide) (by decide)
  have hign : ignoredWrite s .TIM_RATE = true := by simp [ignoredWrite, hsrv]
  refine congrArg Host.Outcome.next ?_
  unfold writeBy
  split
  · rfl
  · rw [if_pos hm.2, writeReg, hat]
    simp [hign]

/-- A write of a time register of WO fields: only what the register does. -/
theorem write_timWo {r : RegId} (hm : mayWrite m r 0 s) (hn : 0 < r.place.n1 ∧ 0 < r.place.n2)
    (hwin : r.addr 0 < 0x1000000 ∨ 0x1800000 ≤ r.addr 0) (hign : ignoredWrite s r = false)
    (hwhole : wholeRefusal s r 0 (r.addr 0) v.toNat = none) (hwo : (r.fields.all fun f => f.acc == .wo) = true)
    (hf : r.fromFuses = false) :
    writeBy m (r.addr 0) v.toNat s = afterWrite r 0 (regWord s (r.addr 0)) v.toNat s := by
  have hat := regAt_addr r hn.1 hn.2
  rw [writeBy_taken hm hat (unriggedWindow_outside hwin s) hign hwhole, plainWrite_of_wo hat hwo hf]

theorem write_servoCmd (hm : mayWrite m .TIM_SERVO_CMD 0 s) :
    writeBy m (RegId.addr .TIM_SERVO_CMD) v.toNat s = gatesAfterStep (servoCmd v.toNat s) :=
  write_timWo hm (by decide) (by decide +kernel) rfl rfl (by decide) rfl

theorem write_timSnap (hm : mayWrite m .TIM_SNAP 0 s) :
    writeBy m (RegId.addr .TIM_SNAP) v.toNat s = if bitsOf v.toNat 0 0 = 1 then capture s else s :=
  write_timWo hm (by decide) (by decide +kernel) rfl rfl (by decide) rfl

theorem write_hostPush (hm : mayWrite m .TIM_HOST_PUSH 0 s) :
    writeBy m (RegId.addr .TIM_HOST_PUSH) v.toNat s =
      if bitsOf v.toNat 0 0 = 1 then hostSample (bitsOf v.toNat 1 1 == 1) s else s :=
  write_timWo hm (by decide) (by decide +kernel) rfl rfl (by decide) rfl

theorem write_servoCtrl (hm : mayWrite m .TIM_SERVO_CTRL 0 s) :
    writeBy m (RegId.addr .TIM_SERVO_CTRL) v.toNat s =
      servoCtrl (bitsOf (regWord s (RegId.addr .TIM_SERVO_CTRL)) 30 30) (plainWrite (RegId.addr .TIM_SERVO_CTRL) v.toNat s) :=
  writeBy_taken hm (regAt_addr .TIM_SERVO_CTRL (by decide) (by decide)) (unriggedWindow_outside (by decide +kernel) s) rfl rfl

end

/-- Words set one after the other at different registers: each register holds its own. -/
theorem regWord_foldl_setWord {l : List (RegId × Nat)} (hn : (l.map fun p => RegId.addr p.1).Nodup) {p : RegId × Nat}
    (hp : p ∈ l) (s : State) :
    regWord (l.foldl (fun s p => setWord (RegId.addr p.1) p.2 s) s) (RegId.addr p.1) = p.2 % 2 ^ 32 := by
  have hother : ∀ (l : List (RegId × Nat)) (s : State), RegId.addr p.1 ∉ l.map (fun p => RegId.addr p.1) →
      regWord (l.foldl (fun s p => setWord (RegId.addr p.1) p.2 s) s) (RegId.addr p.1) = regWord s (RegId.addr p.1) := by
    intro l
    induction l with
    | nil => exact fun _ _ => rfl
    | cons q l ih =>
      intro s h
      rw [List.map_cons, List.mem_cons, not_or] at h
      rw [List.foldl_cons, ih _ h.2, regWord_setWord_other _ _ h.1]
  induction l generalizing s with
  | nil => cases hp
  | cons q l ih =>
    rw [List.map_cons, List.nodup_cons] at hn
    rw [List.foldl_cons]
    rcases List.mem_cons.1 hp with rfl | hmem
    · rw [hother _ _ hn.1, regWord_setWord_same]
    · exact ih hn.2 hmem _

/-! ### A capture (R276) -/

/-- The registers of a capture with their words. -/
def captured (s : State) : List (RegId × Nat) :=
  let T := correctedTime s.time
  let c := s.time.counter.toNat
  [(.TIM_SNAP_CNT_LO, c % 2 ^ 32), (.TIM_SNAP_CNT_HI, c / 2 ^ 32), (.TIM_SNAP_SEC_LO, T / unitsPerSec % 2 ^ 32),
   (.TIM_SNAP_SEC_HI, T / unitsPerSec / 2 ^ 32), (.TIM_SNAP_NS, T / 65536 % 1000000000), (.TIM_SNAP_FRAC, T % 65536),
   (.TIM_SNAP_TICK_LO, tickNow s % 2 ^ 32), (.TIM_SNAP_TICK_HI, tickNow s / 2 ^ 32)]

theorem capture_eq (s : State) : capture s = (captured s).foldl (fun s p => setWord (RegId.addr p.1) p.2 s) s := rfl

theorem captured_apart (s : State) : ((captured s).map fun p => RegId.addr p.1).Nodup := by
  have : ([.TIM_SNAP_CNT_LO, .TIM_SNAP_CNT_HI, .TIM_SNAP_SEC_LO, .TIM_SNAP_SEC_HI, .TIM_SNAP_NS, .TIM_SNAP_FRAC,
    .TIM_SNAP_TICK_LO, .TIM_SNAP_TICK_HI].map fun r => RegId.addr r).Nodup := by decide +kernel
  exact this

theorem correctedTime_lt (t : Time) : correctedTime t < 2 ^ 48 * unitsPerSec := by
  have hpos : (0 : Int) < ((2 ^ 48 * unitsPerSec : Nat) : Int) := by decide
  unfold correctedTime
  dsimp only
  have hlt := Int.emod_lt_of_pos ((t.ofs : Int) + (t.counter.toNat : Int) * 65536 +
    (t.counter.toNat : Int) * t.r.toInt / 16777216) hpos
  have hnn := Int.emod_nonneg ((t.ofs : Int) + (t.counter.toNat : Int) * 65536 +
    (t.counter.toNat : Int) * t.r.toInt / 16777216) hpos.ne'
  omega

theorem capture_words (s : State) :
    regWord (capture s) (RegId.addr .TIM_SNAP_CNT_LO) + 2 ^ 32 * regWord (capture s) (RegId.addr .TIM_SNAP_CNT_HI) =
      s.time.counter.toNat ∧
    regWord (capture s) (RegId.addr .TIM_SNAP_SEC_LO) + 2 ^ 32 * regWord (capture s) (RegId.addr .TIM_SNAP_SEC_HI) =
      correctedTime s.time / 65536000000000 ∧
    regWord (capture s) (RegId.addr .TIM_SNAP_NS) = correctedTime s.time / 65536 % 1000000000 ∧
    regWord (capture s) (RegId.addr .TIM_SNAP_FRAC) = correctedTime s.time % 65536 ∧
    regWord (capture s) (RegId.addr .TIM_SNAP_TICK_LO) + 2 ^ 32 * regWord (capture s) (RegId.addr .TIM_SNAP_TICK_HI) =
      s.time.tick.toNat := by
  have hword : ∀ p ∈ captured s, regWord (capture s) (RegId.addr p.1) = p.2 % 2 ^ 32 :=
    fun p hp => regWord_foldl_setWord (captured_apart s) hp s
  simp only [captured, List.forall_mem_cons] at hword
  obtain ⟨h1, h2, h3, h4, h5, h6, h7, h8, -⟩ := hword
  have hT := correctedTime_lt s.time
  have hunits : unitsPerSec = 65536000000000 := rfl
  have hc := s.time.counter.isLt
  have ht := s.time.tick.isLt
  rw [h1, h2, h3, h4, h5, h6, h7, h8, tickNow, hunits]
  rw [hunits] at hT
  omega

theorem foldl_setWord_time (l : List (RegId × Nat)) (s : State) :
    (l.foldl (fun s p => setWord (RegId.addr p.1) p.2 s) s).time = s.time := by
  refine foldl_unchanged (part := State.time) (fun _ _ => ?_) l s
  rfl

theorem capture_time (s : State) : (capture s).time = s.time := foldl_setWord_time (captured s) s

/-! ### Steps, holds and resumes (R275, R286, R288, R289) -/

theorem gatesAfterStep_time (s : State) : (gatesAfterStep s).time = s.time := by
  refine foldl_unchanged (part := State.time) (fun s p => ?_) _ s
  unfold gateListStart moveGates startGates
  dsimp only
  split
  · split <;> rfl
  · split <;> rfl

theorem stepTime_time (ns : Int) (cause : Nat) (s : State) : (stepTime ns cause s).time = { s.time with
    ofs := addOfs s.time.ofs (ns * 65536), stepAt := some s.time.counter.toNat
    stepSum := (if s.time.stepAt = some s.time.counter.toNat then s.time.stepSum else 0) + ns * 65536 } := by
  simp [stepTime]

/-- HOLDOVER is entered from any state but IDLE, its cause 4 aside. -/
theorem enterHoldover_time {cause : Nat} {s : State} (hidle : s.time.srv ≠ .idle)
    (h4 : ¬ (s.time.srv = .holdover ∧ s.time.cause = 4)) :
    (enterHoldover cause s).time.srv = .holdover ∧ (enterHoldover cause s).time.cause = cause := by
  unfold enterHoldover
  rw [if_neg hidle]
  split
  · next hold =>
    rw [if_neg fun hc => h4 ⟨hold, hc⟩]
    exact ⟨hold, rfl⟩
  · dsimp only
    rw [setServo_time]
    exact ⟨rfl, rfl⟩

/-! ### A host push (R285 to R287) -/

/-- The offset that the host pushes, in ns. -/
def pushedOffset (s : State) : Int :=
  asSigned 32 (fget s .TIM_HOST_OFS_SEC_sec) * 1000000000 + (fget s .TIM_HOST_OFS_NS_ns : Int)

theorem hostSample_unused {s : State} (h : ¬ (servoOn s 1 = true ∧ beforeJump s s.time.counter.toNat = false)) :
    hostSample false s = s := by
  unfold hostSample
  split
  · next hon => exact absurd (by simpa using hon) h
  · rfl

theorem hostSample_used {s : State} (hon : servoOn s 1 = true) (hb : beforeJump s s.time.counter.toNat = false)
    (hd : s.time.df = none) : hostSample false s = offsetSample (pushedOffset s) s := by
  simp [hostSample, hon, hb, hd, pushedOffset]

/-- An offset beyond the jump threshold is stored and counted as refused. -/
theorem offsetSample_refused {theta : Int} {s : State} (h : fget s .TIM_JUMP_THR_ns < theta.natAbs) :
    (offsetSample theta s).time = { s.time with pend := some theta } ∧
    counted s (offsetSample theta s) .TIM_SERVO_COUNT_refused := by
  have hbump : counted s (fbump .TIM_SERVO_COUNT_refused 1 { s with time := { s.time with pend := some theta } })
      .TIM_SERVO_COUNT_refused :=
    counted_fbump { s with time := { s.time with pend := some theta } } .TIM_SERVO_COUNT_refused 0 (by decide) (by decide)
  unfold offsetSample
  rw [if_pos h]
  dsimp only
  split
  · exact ⟨rfl, hbump⟩
  · exact ⟨by simp, counted_after (f := .TIM_SERVO_COUNT_refused) hbump (onlyAt_raise ..) (by decide +kernel)⟩

/-- The control loop stands as it did: the stored jump, the last sample, the integral term, corrected time, and all registers
but the event counters. -/
structure SameLoop (s t : State) : Prop where
  pend : t.time.pend = s.time.pend
  last : t.time.last = s.time.last
  int : t.time.i = s.time.i
  clock : correctedTime t.time = correctedTime s.time
  regs : OnlyAt eventCounters s t

theorem SameLoop.trans {s t u : State} (h : SameLoop s t) (g : SameLoop t u) : SameLoop s u :=
  ⟨g.pend.trans h.pend, g.last.trans h.last, g.int.trans h.int, g.clock.trans h.clock, h.regs.then g.regs⟩

theorem raise_loop (src : Nat) (l : List (Nat × Nat)) (s : State) : SameLoop s (raise src l s) :=
  ⟨by simp, by simp, by simp, by simp, onlyAt_raise ..⟩

theorem setServo_loop (st : ServoState) (cause : Nat) (s : State) : SameLoop s (setServo st cause s) := by
  have hset : SameLoop s { s with time := { s.time with srv := st, cause := cause } } := ⟨rfl, rfl, rfl, rfl, .of_regs rfl⟩
  unfold setServo
  dsimp only
  split
  · exact hset
  · exact hset.trans (raise_loop ..)

theorem setRate_loop (r : BitVec 32) (s : State) : SameLoop s (setRate r s) :=
  ⟨rfl, rfl, rfl, correctedTime_setRate r s, .of_regs rfl⟩

theorem servoAfter_loop (theta : Int) (s : State) : SameLoop s (servoAfter theta s) := by
  have hcounts : ∀ near far, SameLoop s { s with time := { s.time with near := near, far := far, resumed := false } } :=
    fun _ _ => ⟨rfl, rfl, rfl, rfl, .of_regs rfl⟩
  unfold servoAfter
  dsimp only
  generalize (if decide (theta.natAbs ≤ 1000) = true then s.time.near + 1 else 0) = near
  generalize (if decide (theta.natAbs ≤ 1000) = true then 0 else s.time.far + 1) = far
  split
  · exact (hcounts near far).trans (setServo_loop ..)
  · exact (hcounts near far).trans (setServo_loop ..)
  · split
    · exact (hcounts near far).trans (setServo_loop ..)
    · exact hcounts near far
  · split
    · exact (hcounts near 0).trans (setServo_loop ..)
    · exact hcounts near far
  · exact hcounts near far

/-- The state with an applied sample and the integral term that it gives. -/
def withSample (theta : Int) (lim : Bool) (s : State) : State :=
  { s with time := { s.time with
    i := limit31 (s.time.i + fget s .TIM_SERVO_GAIN_ki * theta), limited := lim, last := theta } }

/-- A sample applied: the new integral term, then the rate, the count and the servo's state. -/
theorem applyOffset_loop (theta : Int) (s : State) : ∃ lim u, SameLoop (withSample theta lim s) u ∧
    SameLoop (fbump .TIM_SERVO_COUNT_applied 1 u) (applyOffset theta s) := by
  have hrate : ∀ (lim : Bool) (b : Bool) (r : Int) (l : List (Nat × Nat)), SameLoop (withSample theta lim s)
      (if b = true then raise 238 l (setRate (BitVec.ofInt 32 r) (withSample theta lim s))
        else setRate (BitVec.ofInt 32 r) (withSample theta lim s)) := by
    intro lim b r l
    split
    · exact (setRate_loop ..).trans (raise_loop ..)
    · exact setRate_loop ..
  exact ⟨_, _, hrate _ _ _ _, servoAfter_loop theta _⟩

/-- An offset within the jump threshold, in LOCKED, is applied and counted. -/
theorem offsetSample_applied {theta : Int} {s : State} (h : theta.natAbs ≤ fget s .TIM_JUMP_THR_ns)
    (hl : s.time.srv = .locked) : (offsetSample theta s).time.pend = none ∧ (offsetSample theta s).time.last = theta ∧
    counted s (offsetSample theta s) .TIM_SERVO_COUNT_applied ∧
    (offsetSample theta s).time.i = limit31 (s.time.i + fget s .TIM_SERVO_GAIN_ki * theta) ∧
    correctedTime (offsetSample theta s).time = correctedTime s.time := by
  have hsample : offsetSample theta s = applyOffset theta { s with time := { s.time with pend := none } } := by
    rw [offsetSample, if_neg (Nat.not_lt.2 h)]
    simp only [hl]
  obtain ⟨lim, u, hu, happly⟩ := applyOffset_loop theta { s with time := { s.time with pend := none } }
  have hbump : counted u (fbump .TIM_SERVO_COUNT_applied 1 u) .TIM_SERVO_COUNT_applied :=
    counted_fbump u .TIM_SERVO_COUNT_applied 0 (by decide) (by decide)
  have hregs : OnlyAt eventCounters s u := ⟨fun a ha => hu.regs.same a ha⟩
  have hapart : Fld.TIM_SERVO_COUNT_applied.reg.addr 0 ∉ eventCounters := by decide +kernel
  rw [hsample]
  exact ⟨happly.pend.trans hu.pend, happly.last.trans hu.last,
    counted_before (f := .TIM_SERVO_COUNT_applied) hregs hapart
      (counted_after (f := .TIM_SERVO_COUNT_applied) hbump happly.regs hapart),
    happly.int.trans hu.int, happly.clock.trans hu.clock⟩

/-! ### The commands (O27) -/

section

variable {m : Fin 16} {v : Word} {s : State}

theorem servoCtrl_disabled {old : Nat} (h : fbit s .TIM_SERVO_CTRL_enable = false) : (servoCtrl old s).time.srv = .idle := by
  unfold servoCtrl
  rw [if_pos (by rw [h]; rfl)]
  split
  · next hidle => exact hidle
  · rw [setServo_time]

theorem servoCtrl_started {old : Nat} (h : fbit s .TIM_SERVO_CTRL_enable = true) (hidle : s.time.srv = .idle) :
    (servoCtrl old s).time.srv = .freeRun ∧ (servoCtrl old s).time.df = none ∧ (servoCtrl old s).time.i = 0 := by
  simp [servoCtrl, h, hidle, setServo_time]

/-- TIM_SERVO_CTRL.enable after a write is the bit written. -/
theorem enable_written : fbit (plainWrite (RegId.addr .TIM_SERVO_CTRL) v.toNat s) .TIM_SERVO_CTRL_enable = v.getLsbD 31 := by
  have hat : regAt (RegId.addr .TIM_SERVO_CTRL) = some (.TIM_SERVO_CTRL, 0, 0) := regAt_addr .TIM_SERVO_CTRL (by decide) (by decide)
  have hfield := (plainWrite_fields (w := v.toNat) hat s).1 ⟨31, 31, .rw, 0, .any⟩ (by simp [RegId.fields])
  have hget : fget (plainWrite (RegId.addr .TIM_SERVO_CTRL) v.toNat s) .TIM_SERVO_CTRL_enable = bitsOf v.toNat 31 31 := hfield
  rw [fbit, hget, bitsOf_bit]
  cases v.getLsbD 31 <;> rfl

theorem time_plainWrite (a w : Nat) (s : State) : (plainWrite a w s).time = s.time := by
  obtain ⟨r, e, h⟩ := regsEvents_plainWrite a w s
  rw [h]

end

/-- Settles O27: rate, capture, steps, holds, the servo's control and the host's push. -/
theorem timeCommandsSteerTheClock : Obligations.TimeCommandsSteerTheClock := by
  intro m v s
  refine ⟨fun hm => ⟨fun hidle => ?_, write_timRate_ignored hm⟩, fun hm hv => ?_, fun hm => ⟨?_, ?_, ?_, ?_, ?_⟩,
    fun hm => ⟨fun hv => ?_, fun hv hidle => ?_⟩, fun hm hv => ?_⟩
  · refine ⟨_, write_timRate hm hidle, rfl, ?_, ?_⟩
    · rw [correctedTime_setRate, time_plainWrite]
    · rw [setRate_time, time_plainWrite]
  · exact leaves_of_write rfl ((write_timSnap hm).trans (if_pos (bitsOf_bit_one hv))) ⟨capture_time s, capture_words s⟩
  · intro hv
    refine leaves_of_write rfl (write_servoCmd hm) ?_
    have hcmd : servoCmd v.toNat s = hostStep s := by rw [hv]; rfl
    rw [hcmd, gatesAfterStep_time, hostStep, stepTime_time]
    exact ⟨rfl, rfl, rfl, rfl, rfl⟩
  · intro hv theta hp
    refine leaves_of_write rfl (write_servoCmd hm) ?_
    have hcmd : servoCmd v.toNat s = acceptJump s := by rw [hv]; rfl
    rw [hcmd, gatesAfterStep_time, acceptJump, hp]
    dsimp only
    rw [stepTime_time]
    exact ⟨rfl, rfl, rfl, rfl⟩
  · intro hv hp
    refine leaves_of_write rfl (write_servoCmd hm) ?_
    have hcmd : servoCmd v.toNat s = acceptJump s := by rw [hv]; rfl
    rw [hcmd, gatesAfterStep_time, acceptJump, hp]
  · intro hv
    refine leaves_of_write rfl (write_servoCmd hm) ?_
    have hcmd : servoCmd v.toNat s = servoHold s := by rw [hv]; rfl
    rw [hcmd, gatesAfterStep_time]
    refine ⟨fun hidle => ?_, fun hne h4 => ?_, fun hold h4 => ?_⟩
    · simp [servoHold, enterHoldover, hidle]
    · rw [servoHold, if_neg h4]
      exact enterHoldover_time hne h4
    · rw [servoHold, if_pos ⟨hold, h4⟩]
      exact ⟨hold, h4, rfl⟩
  · intro hv
    refine leaves_of_write rfl (write_servoCmd hm) ?_
    have hcmd : servoCmd v.toNat s = servoResume s := by rw [hv]; rfl
    rw [hcmd, gatesAfterStep_time]
    refine ⟨?_, fun hold hc => ?_, fun hne => ?_⟩
    · unfold servoResume
      split <;> rfl
    · rw [servoResume, if_pos ⟨hold, hc⟩]
      exact ⟨rfl, rfl⟩
    · rw [servoResume, if_neg fun h => hne h.1]
      exact ⟨rfl, rfl⟩
  · refine leaves_of_write rfl (write_servoCtrl hm) (servoCtrl_disabled ?_)
    rw [enable_written]
    simpa [bit] using hv
  · refine leaves_of_write rfl (write_servoCtrl hm) (servoCtrl_started ?_ ?_)
    · rw [enable_written]
      exact hv
    · rw [time_plainWrite]
      exact hidle
  · have hpd : (bitsOf v.toNat 1 1 == 1) = false := by rw [bitsOf_bit_zero hv]; rfl
    have hpush := write_hostPush (v := v) hm
    rw [hpd] at hpush
    refine ⟨fun hno => ?_, fun h0 hon hstep hd => ?_⟩
    · refine leaves_of_write rfl hpush ?_
      split
      · next h0 =>
        rw [hostSample_unused fun hc => hno ⟨bit_of_bitsOf h0, hc.1, hc.2⟩]
      · rfl
    · rw [if_pos (bitsOf_bit_one h0), hostSample_used hon hstep hd] at hpush
      refine ⟨fun hbig => ?_, fun hsmall hl => ?_⟩
      · obtain ⟨htime, hcount⟩ := offsetSample_refused (s := s) (theta := pushedOffset s) hbig
        exact leaves_of_write rfl hpush ⟨by rw [htime]; rfl, hcount, by rw [htime]⟩
      · exact leaves_of_write rfl hpush (offsetSample_applied hsmall hl)

end Sys2Proof.Proofs.TimeCommands
end

section
/-! PROOF. The commands of the trunk, the ports, the highways and the islands (R191, R215, R226, R240, R248, R256, R266,
R296). -/

namespace Sys2Proof.Proofs.IslandCommands

open Sys2Proof Sys2Proof.Machine Sys2Proof.Spec Sys2Proof.Proofs.Effects Sys2Proof.Proofs.RegisterFields
  Sys2Proof.Proofs.RegisterPlaces Sys2Proof.Proofs.RegisterWrites Sys2Proof.Proofs.PairCommands

/-! ### What a write leaves of its own and of other registers -/

/-- A field of the register written, which takes its bits. -/
theorem bitsOf_plainWrite {r : RegId} {i w hi lo : Nat} {s : State} (hat : regAt (r.addr i) = some (r, i, 0))
    (hf : ∃ f ∈ r.fields, f.hi = hi ∧ f.lo = lo ∧ f.acc = .rw ∧ f.refuses s i w = false) :
    bitsOf (regWord (plainWrite (r.addr i) w s) (r.addr i)) hi lo = bitsOf w hi lo := by
  obtain ⟨f, hmem, rfl, rfl, hacc, href⟩ := hf
  rw [(plainWrite_fields hat s).1 f hmem, fieldAfter, hacc]
  simp [href]

/-- A field of another register than the one written. -/
theorem fget_plainWrite_other {r : RegId} {i w : Nat} {s : State} {f : Fld} {k j : Nat} (hi : i < r.place.n1)
    (h0 : 0 < r.place.n2) (hk : k < f.reg.place.n1) (hj : j < f.reg.place.n2) (hr : f.reg ≠ r) (hc : f.reg ≠ .ERR_CLASS)
    (hp : f.reg ≠ .ERR_PENDING) : fget (plainWrite (r.addr i) w s) f k j = fget s f k j := by
  refine (onlyAt_plainWrite ..).fget (f := f) ?_
  rw [List.mem_cons, not_or]
  refine ⟨addr_ne hr hk hj hi h0, ?_⟩
  rw [eventCounters, List.mem_pair, not_or]
  exact ⟨addr_ne hc hk hj (by decide) (by decide), addr_ne hp hk hj (by decide) (by decide)⟩

/-- An address of a register other than the event counters. -/
theorem notMem_eventCounters {r : RegId} {i j : Nat} (hi : i < r.place.n1) (hj : j < r.place.n2) (hc : r ≠ .ERR_CLASS)
    (hp : r ≠ .ERR_PENDING) : r.addr i j ∉ eventCounters := by
  rw [eventCounters, List.mem_pair, not_or]
  exact ⟨addr_ne hc hi hj (by decide) (by decide), addr_ne hp hi hj (by decide) (by decide)⟩

/-- The state but for registers and events is as it was before a write by access types. -/
theorem plainWrite_keeps (a w : Nat) (s : State) : (plainWrite a w s).time = s.time ∧ (plainWrite a w s).peers = s.peers ∧
    (plainWrite a w s).ports = s.ports ∧ (plainWrite a w s).svc = s.svc ∧ (plainWrite a w s).tdm = s.tdm ∧
    (plainWrite a w s).isls = s.isls ∧ (plainWrite a w s).rig = s.rig ∧ (plainWrite a w s).boot = s.boot ∧
    (plainWrite a w s).lanes = s.lanes ∧ (plainWrite a w s).mem = s.mem := by
  obtain ⟨r, e, h⟩ := regsEvents_plainWrite a w s
  rw [h]
  exact ⟨rfl, rfl, rfl, rfl, rfl, rfl, rfl, rfl, rfl, rfl⟩

/-! ### Peers (R191, R215) -/

/-- A peer's sender stands as it did, and no register but the event counters has changed. -/
structure SameSender (k : Nat) (s t : State) : Prop where
  on : (peerAt t k).on = (peerAt s k).on
  everOn : (peerAt t k).everOn = (peerAt s k).everOn
  items : (peerAt t k).items = (peerAt s k).items
  interval : (peerAt t k).interval = (peerAt s k).interval
  regs : OnlyAt eventCounters s t

theorem SameSender.trans {k : Nat} {s t u : State} (h : SameSender k s t) (g : SameSender k t u) : SameSender k s u :=
  ⟨g.on.trans h.on, g.everOn.trans h.everOn, g.items.trans h.items, g.interval.trans h.interval, h.regs.then g.regs⟩

theorem SameSender.of_peers {k : Nat} {s t : State} (hp : t.peers = s.peers) (hr : OnlyAt eventCounters s t) :
    SameSender k s t := by
  have h : peerAt t k = peerAt s k := by simp only [peerAt, hp]
  exact ⟨by rw [h], by rw [h], by rw [h], by rw [h], hr⟩

theorem peerAt_putPeer (k : Nat) (p : Peer) (s : State) : peerAt (putPeer k p s) k = p := tget_tset_same ..

theorem putPeer_sender {k : Nat} {p : Peer} {s : State} (h : p.on = (peerAt s k).on ∧ p.everOn = (peerAt s k).everOn ∧
    p.items = (peerAt s k).items ∧ p.interval = (peerAt s k).interval) : SameSender k s (putPeer k p s) := by
  obtain ⟨h1, h2, h3, h4⟩ := h
  refine ⟨?_, ?_, ?_, ?_, .of_regs rfl⟩ <;> rw [peerAt_putPeer] <;> assumption

theorem modPeer_sender {f : Peer → Peer} (hf : ∀ p, (f p).on = p.on ∧ (f p).everOn = p.everOn ∧ (f p).items = p.items ∧
    (f p).interval = p.interval) (k : Nat) (s : State) : SameSender k s (modPeer k f s) := putPeer_sender (hf _)

theorem unsync_sender (k cause : Nat) (s : State) : SameSender k s (unsync k cause s) := by
  have hput : SameSender k s (putPeer k { peerAt s k with synced := false, resync := true } s) :=
    putPeer_sender ⟨rfl, rfl, rfl, rfl⟩
  unfold unsync
  dsimp only
  split
  · exact hput
  · exact hput.trans (.of_peers (by simp) (onlyAt_raise ..))

theorem reanchor_sender (k : Nat) (s : State) : SameSender k s (reanchor k s) := .of_peers rfl (.of_regs rfl)

theorem startReceiver_sender (k : Nat) (s : State) : SameSender k s (startReceiver k s) := by
  unfold startReceiver
  refine .trans ?_ (unsync_sender k 4 _)
  refine modPeer_sender (fun p => ?_) k s
  exact ⟨rfl, rfl, rfl, rfl⟩

theorem startSender_sender (k : Nat) (epoch : BitVec 8) (s : State) : SameSender k s (startSender k epoch s) := by
  unfold startSender
  refine .trans ?_ (reanchor_sender k _)
  refine modPeer_sender (fun p => ?_) k s
  exact ⟨rfl, rfl, rfl, rfl⟩

/-- A peer enabled: its sender stands as R191 says, and no register but the event counters has changed. -/
theorem peerOn_sender (k : Nat) (s : State) : (peerAt (peerOn k s) k).on = true ∧ (peerAt (peerOn k s) k).everOn = true ∧
    (peerAt (peerOn k s) k).items = [] ∧ (peerAt (peerOn k s) k).interval = fget s .BND_PEER_CTRL_interval k ∧
    OnlyAt eventCounters s (peerOn k s) := by
  unfold peerOn
  dsimp only
  set u := draw (putPeer k { peerAt s k with
    on := true, everOn := true, seq := Config.freeWord s.free, items := [], up := true, downed := false, passTick := tickNow s
    interval := fget s .BND_PEER_CTRL_interval k, closed := none } s) with hu
  have hput : peerAt u k = _ := peerAt_putPeer ..
  have h := (startSender_sender k (if (peerAt s k).everOn = true then (peerAt s k).epoch + 1 else 0) u).trans
    (startReceiver_sender k _)
  rw [h.on, h.everOn, h.items, h.interval, hput]
  exact ⟨rfl, rfl, rfl, rfl, OnlyAt.then (t := u) (.of_regs rfl) h.regs⟩

section

variable {m : Fin 16} {v : Word} {s : State}

theorem regAt_peerCtrl (k : Fin 64) : regAt (RegId.addr .BND_PEER_CTRL k) = some (RegId.BND_PEER_CTRL, k.val, 0) :=
  regAt_addr .BND_PEER_CTRL (k.isLt.trans_le (by decide)) (by decide)

/-- BND_PEER_CTRL.enable set on a peer that was off: the peer is enabled where its template is there. -/
theorem write_peerCtrl {k : Fin 64} (hm : mayWrite m .BND_PEER_CTRL k s) (hv : bit v 31)
    (hoff : fget s .BND_PEER_CTRL_enable k = 0) :
    writeBy m (RegId.addr .BND_PEER_CTRL k) v.toNat s =
      if templateOk (plainWrite (RegId.addr .BND_PEER_CTRL k) v.toNat s) k then
        peerOn k (plainWrite (RegId.addr .BND_PEER_CTRL k) v.toNat s)
      else fset .BND_PEER_CTRL_enable 0 (plainWrite (RegId.addr .BND_PEER_CTRL k) v.toNat s) k := by
  have hk : ∀ k : Fin 64, RegId.addr .BND_PEER_CTRL k < 0x1000000 ∨ 0x1800000 ≤ RegId.addr .BND_PEER_CTRL k := by
    decide +kernel
  rw [writeBy_taken hm (regAt_peerCtrl k) (unriggedWindow_outside (hk k) s) rfl rfl]
  have hen : fget (plainWrite (RegId.addr .BND_PEER_CTRL k) v.toNat s) .BND_PEER_CTRL_enable k = 1 :=
    (bitsOf_plainWrite (regAt_peerCtrl k) ⟨⟨31, 31, .rw, 0, .any⟩, by decide, rfl, rfl, rfl, rfl⟩).trans (bitsOf_bit_one hv)
  have hon : fbit (plainWrite (RegId.addr .BND_PEER_CTRL k) v.toNat s) .BND_PEER_CTRL_enable k = true ∧
      bitsOf (regWord s (RegId.addr .BND_PEER_CTRL k)) 31 31 = 0 := ⟨by rw [fbit, hen]; rfl, hoff⟩
  exact if_pos hon

end

/-- Words that stand as they did since a state with the same registers. -/
theorem onlyAt_from {as : List Nat} {s u t : State} (g : OnlyAt as u t) (h : u.regs = s.regs) : OnlyAt as s t :=
  OnlyAt.then (.of_regs h) g

/-! ### Ports (R226, R240) -/

/-- The window of a register that stands below the windows of the lanes. -/
theorem unriggedWindow_below {r : RegId} {i j : Nat} (hi : i < r.place.n1) (hj : j < r.place.n2)
    (h : lastAddr r.place < 0x1000000) (s : State) : unriggedWindow s (r.addr i j) = false :=
  unriggedWindow_outside (.inl ((copyAddr_le_lastAddr hi hj).trans_lt h)) s

theorem portAt_putPort (p : Nat) (x : Port) (s : State) : portAt (putPort p x s) p = x := tget_tset_same ..

/-- What a port's link lost leaves. -/
theorem dropLink_spec (p : Nat) (s : State) : (portAt (dropLink p s) p).link = false ∧
    OnlyAt (RegId.addr .TMC_TX_DROP p :: eventCounters) s (dropLink p s) := by
  have hraise : ∀ x, OnlyAt (RegId.addr .TMC_TX_DROP p :: eventCounters) s (raise 192 [(1, p)] (putPort p x s)) := fun x =>
    (OnlyAt.of_regs (s := s) (t := putPort p x s) rfl).then ((onlyAt_raise ..).mono (List.subset_cons_self _ _))
  unfold dropLink
  dsimp only
  split
  · split
    · refine ⟨?_, ?_⟩
      · simp [portAt, putPort]
      · exact OnlyAt.then (hraise { portAt s p with link := false })
          (onlyAt_from (onlyAt_fbump _ _ _ _ _ List.mem_cons_self) rfl)
    · exact ⟨by simp [portAt, putPort], hraise _⟩
  · next h => exact ⟨by simpa using h, onlyAt_refl _ s⟩

theorem ptpFollow_keeps (s : State) : (ptpFollow s).ports = s.ports ∧ OnlyAt eventCounters s (ptpFollow s) := by
  have hset : ∀ st (u : State), (setPtp st u).ports = u.ports ∧ OnlyAt eventCounters u (setPtp st u) := by
    intro st u
    unfold setPtp
    split
    · exact ⟨rfl, onlyAt_refl _ u⟩
    · exact ⟨by simp, onlyAt_from (onlyAt_raise _ _ { u with time := { u.time with ptp := st } }) rfl⟩
  unfold ptpFollow resetPtp
  split
  · obtain ⟨hports, hregs⟩ := hset (ptpIdle s)
      { s with time := { s.time with best := none, sync := none, t3 := none, foreign := [], dreqLog := 0 } }
    exact ⟨hports, onlyAt_from hregs rfl⟩
  · exact ⟨rfl, onlyAt_refl _ s⟩

/-- The enable, speed and fec bits of TMC_CTRL together. -/
theorem bitsOf_31_28 (n : Nat) : bitsOf n 31 28 = 8 * bitsOf n 31 31 + 4 * bitsOf n 30 30 + bitsOf n 29 28 := by
  simp only [bitsOf]
  norm_num
  omega

section

variable {m : Fin 16} {v : Word} {s : State} {p : Fin 2}

theorem regAt_port {r : RegId} (h1 : 2 ≤ r.place.n1) (h2 : 0 < r.place.n2) (p : Fin 2) :
    regAt (r.addr p) = some (r, p.val, 0) := regAt_addr r (p.isLt.trans_le h1) h2

theorem write_tmcCtrl (hm : mayWrite m .TMC_CTRL p s) : writeBy m (RegId.addr .TMC_CTRL p) v.toNat s =
    ptpFollow (restartPort p (regWord s (RegId.addr .TMC_CTRL p)) (plainWrite (RegId.addr .TMC_CTRL p) v.toNat s)) :=
  writeBy_taken hm (regAt_port (by decide) (by decide) p)
    (unriggedWindow_below (p.isLt.trans_le (by decide)) (by decide) (by decide) s) rfl rfl

theorem bits_tmcCtrl (hfec : bitsOf v.toNat 29 28 ≤ 2) :
    bitsOf (regWord (plainWrite (RegId.addr .TMC_CTRL p) v.toNat s) (RegId.addr .TMC_CTRL p)) 31 28 =
      bitsOf v.toNat 31 28 := by
  have hat : regAt (RegId.addr .TMC_CTRL p) = some (RegId.TMC_CTRL, p.val, 0) := regAt_port (by decide) (by decide) p
  rw [bitsOf_31_28, bitsOf_31_28,
    bitsOf_plainWrite hat ⟨⟨31, 31, .rw, 0, .any⟩, by decide, rfl, rfl, rfl, rfl⟩,
    bitsOf_plainWrite hat ⟨⟨30, 30, .rw, 1, .any⟩, by decide, rfl, rfl, rfl, rfl⟩,
    bitsOf_plainWrite hat ⟨⟨29, 28, .rw, 0, .range 0 2⟩, by decide, rfl, rfl, rfl, by
      simp [FieldDesc.refuses, Unreserved.admits, hfec]⟩]

theorem restartPort_same (hsame : bitsOf v.toNat 31 28 = bitsOf (regWord s (RegId.addr .TMC_CTRL p)) 31 28)
    (hfec : bitsOf v.toNat 29 28 ≤ 2) :
    restartPort p (regWord s (RegId.addr .TMC_CTRL p)) (plainWrite (RegId.addr .TMC_CTRL p) v.toNat s) =
      plainWrite (RegId.addr .TMC_CTRL p) v.toNat s := by
  rw [restartPort, bits_tmcCtrl hfec]
  exact if_pos hsame.symm

/-- A port whose enable, speed or fec changes loses its link and its locks. -/
theorem restartPort_down {old : Nat} {u : State} (h : bitsOf old 31 28 ≠ bitsOf (regWord u (RegId.addr .TMC_CTRL p)) 31 28) :
    (portAt (restartPort p old u) p).link = false ∧ fget (restartPort p old u) .TMC_STATUS_block_lock p = 0 ∧
    fget (restartPort p old u) .TMC_STATUS_fec_lock p = 0 := by
  obtain ⟨hlink, hregs⟩ := dropLink_spec p (fset .TMC_STATUS_block_lock 0 (fset .TMC_STATUS_fec_lock 0 u p) p)
  have hapart : RegId.addr .TMC_STATUS p ∉ RegId.addr .TMC_TX_DROP p :: eventCounters := by
    rw [List.mem_cons, not_or]
    exact ⟨addr_ne (by decide) (p.isLt.trans_le (by decide)) (by decide) (p.isLt.trans_le (by decide)) (by decide),
      notMem_eventCounters (p.isLt.trans_le (by decide)) (by decide) (by decide) (by decide)⟩
  rw [restartPort, if_neg h]
  refine ⟨hlink, ?_, ?_⟩
  · rw [fget_fset_beside _ .TMC_STATUS_fec_active .TMC_STATUS_block_lock _ _ _ rfl (by decide) (by decide) (by decide) (by decide),
      fget_fset_beside _ .TMC_STATUS_hi_ber .TMC_STATUS_block_lock _ _ _ rfl (by decide) (by decide) (by decide) (by decide), linkDown,
      hregs.fget (f := .TMC_STATUS_block_lock) hapart, fget_fset_same _ _ _ _ _ (by decide) (by decide)]
    rfl
  · rw [fget_fset_beside _ .TMC_STATUS_fec_active .TMC_STATUS_fec_lock _ _ _ rfl (by decide) (by decide) (by decide) (by decide),
      fget_fset_beside _ .TMC_STATUS_hi_ber .TMC_STATUS_fec_lock _ _ _ rfl (by decide) (by decide) (by decide) (by decide), linkDown,
      hregs.fget (f := .TMC_STATUS_fec_lock) hapart,
      fget_fset_beside _ .TMC_STATUS_block_lock .TMC_STATUS_fec_lock _ _ _ rfl (by decide) (by decide) (by decide) (by decide),
      fget_fset_same _ _ _ _ _ (by decide) (by decide)]
    rfl

/-! ### Gate lists (R240) -/

theorem write_gateCtrl (hm : mayWrite m .TMC_GATE_CTRL p s) : writeBy m (RegId.addr .TMC_GATE_CTRL p) v.toNat s =
    if bitsOf v.toNat 30 30 = 1 then
      applyGates p (fset .TMC_GATE_CTRL_apply 0 (plainWrite (RegId.addr .TMC_GATE_CTRL p) v.toNat s) p)
    else plainWrite (RegId.addr .TMC_GATE_CTRL p) v.toNat s :=
  writeBy_taken hm (regAt_port (by decide) (by decide) p)
    (unriggedWindow_below (p.isLt.trans_le (by decide)) (by decide) (by decide) s) rfl rfl

theorem gateList_addr (p i : Nat) : RegId.addr .TMC_GATE_LIST p i ≠ RegId.addr .TMC_GATE_CTRL p := by
  have hl : RegId.place .TMC_GATE_LIST = ⟨.TMC_GATE_LIST, 0x200400, 2, 0x10000, 256, 4⟩ := by decide +kernel
  have hc : RegId.place .TMC_GATE_CTRL = ⟨.TMC_GATE_CTRL, 0x200020, 2, 0x10000, 1, 4⟩ := by decide +kernel
  simp only [RegId.addr, hl, hc]
  omega

/-- The bit that applies the administrative list is no part of it. -/
theorem adminList_apply (s : State) (p : Fin 2) : adminList (fset .TMC_GATE_CTRL_apply 0 s p) p = adminList s p := by
  have hother : ∀ f : Fld, f.reg ≠ .TMC_GATE_CTRL → 2 ≤ f.reg.place.n1 → 0 < f.reg.place.n2 →
      fget (fset .TMC_GATE_CTRL_apply 0 s p) f p = fget s f p := fun f hr h1 h2 =>
    fget_fset_other _ _ _ _ _ _ _ _ (addr_ne hr (p.isLt.trans_le h1) h2 (p.isLt.trans_le (by decide)) (by decide))
  have hlist : ∀ (f : Fld) (i : Nat), f.reg = .TMC_GATE_LIST →
      fget (fset .TMC_GATE_CTRL_apply 0 s p) f p i = fget s f p i := fun f i hr =>
    fget_fset_other _ _ _ _ _ _ _ _ (by rw [hr]; exact gateList_addr p i)
  unfold adminList
  rw [fget_fset_beside _ .TMC_GATE_CTRL_apply .TMC_GATE_CTRL_length _ _ _ rfl (by decide) (by decide) (by decide) (by decide),
    hother .TMC_GATE_CYCLE_cycle_ns (by decide) (by decide) (by decide),
    hother .TMC_GATE_BASE_SEC_HI_base_sec_hi (by decide) (by decide) (by decide),
    hother .TMC_GATE_BASE_SEC_LO_base_sec_lo (by decide) (by decide) (by decide),
    hother .TMC_GATE_BASE_NS_base_ns (by decide) (by decide) (by decide)]
  simp only [hlist .TMC_GATE_LIST_gates _ rfl, hlist .TMC_GATE_LIST_interval_ns _ rfl]

/-- A list whose base time lies ahead is pending; the operational one stays. -/
theorem applyGates_pending {u : State} (h : nowNs u < (adminList u p).base) :
    (portAt (applyGates p u) p).pending = some (adminList u p) ∧ (portAt (applyGates p u) p).oper = (portAt u p).oper := by
  rw [applyGates]
  dsimp only
  rw [if_pos h, portAt_putPort]
  exact ⟨rfl, rfl⟩

end

/-! ### Highway groups (R256) -/

section

variable {m : Fin 16} {v : Word} {s : State} {g : Fin 4}

theorem regAt_groupCtrl (g : Fin 4) : regAt (RegId.addr .TDM_GRP_CTRL g) = some (RegId.TDM_GRP_CTRL, g.val, 0) :=
  regAt_addr .TDM_GRP_CTRL (g.isLt.trans_le (by decide)) (by decide)

/-- A rate that would strand slots is refused as a whole (R256). -/
abbrev rateRefused (s : State) (g : Fin 4) (v : Word) : Prop :=
  bitsOf v.toNat 30 29 < bitsOf (regWord s (RegId.addr .TDM_GRP_CTRL g)) 30 29 ∧ strands s g (bitsOf v.toNat 30 29) = true

theorem wholeRefusal_groupCtrl (hrate : bitsOf v.toNat 30 29 ≤ 2) :
    wholeRefusal s .TDM_GRP_CTRL g (RegId.addr .TDM_GRP_CTRL g) v.toNat = if rateRefused s g v then some 29 else none := by
  obtain ⟨hok, hp⟩ := fields_sound .TDM_GRP_CTRL
  have hn : bitsOf (RegId.fields .TDM_GRP_CTRL |>.foldl (fun n f => f.written s g v.toNat n)
      (regWord s (RegId.addr .TDM_GRP_CTRL g))) 30 29 = bitsOf v.toNat 30 29 := by
    have := bitsOf_written (fun f hf => (hok f hf).1) hp (f := ⟨30, 29, .rw, 0, .range 0 2⟩) (by decide) s g v.toNat
      (regWord s (RegId.addr .TDM_GRP_CTRL g))
    rw [this]
    simp [fieldAfter, FieldDesc.refuses, Unreserved.admits, hrate]
  unfold wholeRefusal
  dsimp only
  rw [hn]
  rfl

theorem unrigged_groupCtrl (g : Fin 4) (s : State) : unriggedWindow s (RegId.addr .TDM_GRP_CTRL g) = false :=
  unriggedWindow_below (g.isLt.trans_le (by decide)) (by decide) (by decide) s

theorem write_groupCtrl_refused (hm : mayWrite m .TDM_GRP_CTRL g s) (hrate : bitsOf v.toNat 30 29 ≤ 2)
    (hr : rateRefused s g v) : writeBy m (RegId.addr .TDM_GRP_CTRL g) v.toNat s = reservedEvent (RegId.addr .TDM_GRP_CTRL g) 29 s := by
  have hat := regAt_groupCtrl g
  obtain ⟨ha, hl⟩ := aligned_of_regAt hat
  have hopen : (inReset s || RegId.addr .TDM_GRP_CTRL g % 4 != 0 || decide (0x02000000 ≤ RegId.addr .TDM_GRP_CTRL g)) = false := by
    simp [hm.1, ha, hl]
  rw [writeBy, hopen, if_neg Bool.false_ne_true, if_pos hm.2, writeReg, hat]
  dsimp only
  rw [unrigged_groupCtrl, wholeRefusal_groupCtrl hrate, if_pos hr]
  rfl

theorem write_groupCtrl (hm : mayWrite m .TDM_GRP_CTRL g s) (hrate : bitsOf v.toNat 30 29 ≤ 2) (hr : ¬ rateRefused s g v) :
    writeBy m (RegId.addr .TDM_GRP_CTRL g) v.toNat s =
      groupControl g (regWord s (RegId.addr .TDM_GRP_CTRL g)) (plainWrite (RegId.addr .TDM_GRP_CTRL g) v.toNat s) :=
  writeBy_taken hm (regAt_groupCtrl g) (unrigged_groupCtrl g s) rfl ((wholeRefusal_groupCtrl hrate).trans (if_neg hr))

/-- The rate and framing bits of TDM_GRP_CTRL together. -/
theorem bitsOf_30_27 (n : Nat) : bitsOf n 30 27 = 4 * bitsOf n 30 29 + 2 * bitsOf n 28 28 + bitsOf n 27 27 := by
  simp only [bitsOf]
  norm_num
  omega

theorem bits_groupCtrl (hrate : bitsOf v.toNat 30 29 ≤ 2) :
    let w := regWord (plainWrite (RegId.addr .TDM_GRP_CTRL g) v.toNat s) (RegId.addr .TDM_GRP_CTRL g)
    bitsOf w 31 31 = bitsOf v.toNat 31 31 ∧ bitsOf w 30 27 = bitsOf v.toNat 30 27 ∧ bitsOf w 2 0 = bitsOf v.toNat 2 0 := by
  have hat := regAt_groupCtrl g
  refine ⟨bitsOf_plainWrite hat ⟨⟨31, 31, .rw, 0, .any⟩, by decide, rfl, rfl, rfl, rfl⟩, ?_,
    bitsOf_plainWrite hat ⟨⟨2, 0, .rw, 0, .any⟩, by decide, rfl, rfl, rfl, rfl⟩⟩
  rw [bitsOf_30_27, bitsOf_30_27,
    bitsOf_plainWrite hat ⟨⟨30, 29, .rw, 0, .range 0 2⟩, by decide, rfl, rfl, rfl, by
      simp [FieldDesc.refuses, Unreserved.admits, hrate]⟩,
    bitsOf_plainWrite hat ⟨⟨28, 28, .rw, 0, .any⟩, by decide, rfl, rfl, rfl, rfl⟩,
    bitsOf_plainWrite hat ⟨⟨27, 27, .rw, 0, .any⟩, by decide, rfl, rfl, rfl, rfl⟩]

theorem groupAt_groupState (k : Nat) (st : GroupState) (u : State) : (groupAt (groupState k st u) k).st = st ∧
    (groupAt (groupState k st u) k).rx = [] ∧ (groupAt (groupState k st u) k).driven = [] := by
  simp [groupAt, groupState, putGroup]

/-- TDM_GRP_CTRL as its new word leaves the group. -/
theorem groupControl_eq {was : Nat} {u : State} (k : Nat) : groupControl k was u =
    if bitsOf (regWord u (RegId.addr .TDM_GRP_CTRL k)) 31 31 = 0 then
      (if (groupAt u k).st = .disabled then u else groupState k .disabled u)
    else if bitsOf was 31 31 = 0 ∨ bitsOf was 30 27 ≠ bitsOf (regWord u (RegId.addr .TDM_GRP_CTRL k)) 30 27 ∨
        bitsOf was 2 0 ≠ bitsOf (regWord u (RegId.addr .TDM_GRP_CTRL k)) 2 0 then groupState k .qualifying u
    else u := by
  simp [groupControl]

end

/-! ### Management frames (R248) and dictionary turns (R215) -/

section

variable {m : Fin 16} {v : Word} {s : State}

theorem write_mdio_busy (hm : mayWrite m .SVC_MDIO_CMD 0 s) (hb : s.svc.mdio = true) : exec (.mdioStart m v) s = .next s := by
  have hat : regAt (RegId.addr .SVC_MDIO_CMD) = some (.SVC_MDIO_CMD, 0, 0) := regAt_addr .SVC_MDIO_CMD (by decide) (by decide)
  refine (exec_of_writes rfl s).trans (congrArg Host.Outcome.next ?_)
  unfold writeBy
  split
  · rfl
  · rw [if_pos hm.2, writeReg, hat]
    simp [ignoredWrite, hb]

theorem write_mdio (hm : mayWrite m .SVC_MDIO_CMD 0 s) (hb : s.svc.mdio = false) :
    writeBy m (RegId.addr .SVC_MDIO_CMD) v.toNat s = if bitsOf v.toNat 31 31 = 1 then
      startMdio (fset .SVC_MDIO_CMD_start 0 (plainWrite (RegId.addr .SVC_MDIO_CMD) v.toNat s))
      else plainWrite (RegId.addr .SVC_MDIO_CMD) v.toNat s :=
  writeBy_taken hm (regAt_addr .SVC_MDIO_CMD (by decide) (by decide))
    (unriggedWindow_below (by decide) (by decide) (by decide) s) hb rfl

theorem write_dicCmd (hm : mayWrite m .DIC_CMD 0 s) :
    writeBy m (RegId.addr .DIC_CMD) v.toNat s = if bitsOf v.toNat 6 6 = 1 then dicTurn (bitsOf v.toNat 5 0) s else s :=
  TimeCommands.write_timWo hm (by decide) (.inl (by decide +kernel)) rfl rfl (by decide) rfl

end

/-! ### Map swaps (R266) -/

/-- The words that a write of TDM_SWAP_CTRL may change. -/
abbrev swapWords : List Nat := RegId.addr .TDM_SWAP_CTRL :: eventCounters

theorem notMem_swapWords {r : RegId} {i j : Nat} (hi : i < r.place.n1) (hj : j < r.place.n2) (hs : r ≠ .TDM_SWAP_CTRL)
    (hc : r ≠ .ERR_CLASS) (hp : r ≠ .ERR_PENDING) : r.addr i j ∉ swapWords := by
  rw [List.mem_cons, not_or]
  exact ⟨addr_ne hs hi hj (by decide) (by decide), notMem_eventCounters hi hj hc hp⟩

theorem swapTime_congr {s u : State} (h : OnlyAt swapWords s u) : swapTime u = swapTime s := by
  unfold swapTime
  rw [h.fget (f := .TDM_SWAP_SEC_HI_sec_hi) (notMem_swapWords (by decide) (by decide) (by decide) (by decide) (by decide)),
    h.fget (f := .TDM_SWAP_SEC_LO_sec_lo) (notMem_swapWords (by decide) (by decide) (by decide) (by decide) (by decide)),
    h.fget (f := .TDM_SWAP_NS_ns) (notMem_swapWords (by decide) (by decide) (by decide) (by decide) (by decide))]

theorem slotCount_congr {s u : State} (h : OnlyAt swapWords s u) {k : Nat} (hk : k < 32) : slotCount u k = slotCount s k := by
  have hn : (RegId.place .TDM_GRP_CTRL).n1 = 4 := by decide
  unfold slotCount
  rw [h.fget (f := .TDM_GRP_CTRL_rate) (notMem_swapWords (by rw [hn]; omega) (by decide) (by decide) (by decide) (by decide))]

/-- The physical slots that the active ones of the shadow map's first `n` entries name. -/
def usedShadow (n : Nat) (s : State) : List (Nat × Nat) :=
  (List.range n).filterMap (fun l =>
    let w := regWord s (RegId.addr .TDM_MAP_SHADOW l)
    if l % 128 < slotCount s (l / 128) ∧ bitsOf w 31 31 = 1 then some (bitsOf w 12 8, bitsOf w 6 0) else none)

theorem shadowOk_eq (s : State) : shadowOk s =
    ((usedShadow 4096 s).all (fun p => decide (p.2 < slotCount s p.1)) && decide (usedShadow 4096 s).Nodup) := rfl

theorem usedShadow_congr {s u : State} (h : OnlyAt swapWords s u) {n : Nat} (hn : n ≤ 4096) :
    usedShadow n u = usedShadow n s := by
  have hn1 : (RegId.place .TDM_MAP_SHADOW).n1 = 4096 := by decide
  refine List.filterMap_congr fun l hl => ?_
  rw [List.mem_range] at hl
  dsimp only
  rw [slotCount_congr h (by omega),
    h.same _ (notMem_swapWords (by rw [hn1]; omega) (by decide) (by decide) (by decide) (by decide))]

theorem usedShadow_highway {s : State} {n : Nat} {p : Nat × Nat} (hp : p ∈ usedShadow n s) : p.1 < 32 := by
  obtain ⟨l, -, hl⟩ := List.mem_filterMap.1 hp
  obtain ⟨-, hp⟩ := Option.ite_none_right_eq_some.1 hl
  rw [← Option.some.inj hp]
  exact bitsOf_lt _ 12 8

/-- The shadow map's check reads neither the swap's control nor the event counters. -/
theorem shadowOk_congr {s u : State} (h : OnlyAt swapWords s u) : shadowOk u = shadowOk s := by
  have hall : (usedShadow 4096 s).all (fun p => decide (p.2 < slotCount u p.1)) =
      (usedShadow 4096 s).all (fun p => decide (p.2 < slotCount s p.1)) := by
    rw [Bool.eq_iff_iff, List.all_eq_true, List.all_eq_true]
    exact forall₂_congr fun p hp => by rw [slotCount_congr h (usedShadow_highway hp)]
  rw [shadowOk_eq, shadowOk_eq, usedShadow_congr h le_rfl, hall]

section

variable {m : Fin 16} {v : Word} {s : State}

/-- TDM_SWAP_CTRL written, its action bits cleared again: what a cancel and an arm find. -/
def swapWritten (v : Word) (s : State) : State :=
  fset .TDM_SWAP_CTRL_arm 0 (fset .TDM_SWAP_CTRL_cancel 0 (plainWrite (RegId.addr .TDM_SWAP_CTRL) v.toNat s))

theorem regAt_swapCtrl : regAt (RegId.addr .TDM_SWAP_CTRL) = some (.TDM_SWAP_CTRL, 0, 0) :=
  regAt_addr .TDM_SWAP_CTRL (by decide) (by decide)

theorem swapWritten_keeps (v : Word) (s : State) : OnlyAt swapWords s (swapWritten v s) ∧ (swapWritten v s).tdm = s.tdm ∧
    (swapWritten v s).time = s.time :=
  ⟨((onlyAt_plainWrite (RegId.addr .TDM_SWAP_CTRL) v.toNat s).then
      (onlyAt_fset .TDM_SWAP_CTRL_cancel 0 _ 0 0 List.mem_cons_self)).then
      (onlyAt_fset .TDM_SWAP_CTRL_arm 0 _ 0 0 List.mem_cons_self),
    (by simpa [swapWritten] using (plainWrite_keeps _ _ s).2.2.2.2.1),
    (by simpa [swapWritten] using (plainWrite_keeps _ _ s).1)⟩

theorem fbit_swapWritten : fbit (swapWritten v s) .TDM_SWAP_CTRL_immediate = v.getLsbD 29 := by
  have hbit : fget (plainWrite (RegId.addr .TDM_SWAP_CTRL) v.toNat s) .TDM_SWAP_CTRL_immediate = bitsOf v.toNat 29 29 :=
    bitsOf_plainWrite (i := 0) regAt_swapCtrl ⟨⟨29, 29, .rw, 0, .any⟩, by decide, rfl, rfl, rfl, rfl⟩
  rw [fbit, swapWritten,
    fget_fset_beside _ .TDM_SWAP_CTRL_arm .TDM_SWAP_CTRL_immediate _ _ _ rfl (by decide) (by decide) (by decide) (by decide),
    fget_fset_beside _ .TDM_SWAP_CTRL_cancel .TDM_SWAP_CTRL_immediate _ _ _ rfl (by decide) (by decide) (by decide) (by decide),
    hbit, bitsOf_bit]
  cases v.getLsbD 29 <;> rfl

theorem write_swapCtrl (hm : mayWrite m .TDM_SWAP_CTRL 0 s) : writeBy m (RegId.addr .TDM_SWAP_CTRL) v.toNat s =
    if bitsOf v.toNat 31 31 = 1 then
      armSwap (if bitsOf v.toNat 30 30 = 1 then cancelSwap (swapWritten v s) else swapWritten v s)
    else if bitsOf v.toNat 30 30 = 1 then cancelSwap (swapWritten v s) else swapWritten v s :=
  writeBy_taken hm regAt_swapCtrl (unriggedWindow_below (by decide) (by decide) (by decide) s) rfl rfl

/-- An arm with no swap pending, by the shadow map, the immediate bit and the time asked for. -/
theorem armSwap_eq {u : State} (h : u.tdm.swap = none) : armSwap u =
    if !shadowOk u then swapResult 4 (swapTime u) 0 u
    else if fbit u .TDM_SWAP_CTRL_immediate then fset .TDM_SWAP_CTRL_result 1
      { u with tdm := { u.tdm with swap := some { now := true, time := swapTime u, tick := tickNow u } } }
    else if nowNs u < swapTime u then fset .TDM_SWAP_CTRL_result 1
      { u with tdm := { u.tdm with swap := some { now := false, time := swapTime u, tick := tickNow u } } }
    else swapResult 3 (swapTime u) 0 u := by
  simp [armSwap, h]

theorem swapResult_spec (r time tick : Nat) (u : State) (hr : r < 8) :
    (swapResult r time tick u).tdm = u.tdm ∧ fget (swapResult r time tick u) .TDM_SWAP_CTRL_result = r := by
  refine ⟨by simp [swapResult], ?_⟩
  rw [swapResult, (onlyAt_raise ..).fget (f := .TDM_SWAP_CTRL_result) (by decide +kernel),
    fget_fset_same _ _ _ _ _ (by decide) (by decide)]
  exact Nat.mod_eq_of_lt hr

/-- TDM_SWAP_CTRL.arm alone with no swap pending: what the arm finds is what stood before the write. -/
theorem write_swapArm (hm : mayWrite m .TDM_SWAP_CTRL 0 s) (h31 : bit v 31) (h30 : ¬ bit v 30) (hs : s.tdm.swap = none) :
    ∃ u, u.tdm = s.tdm ∧ writeBy m (RegId.addr .TDM_SWAP_CTRL) v.toNat s =
      if !shadowOk s then swapResult 4 (swapTime s) 0 u
      else if v.getLsbD 29 then fset .TDM_SWAP_CTRL_result 1
        { u with tdm := { s.tdm with swap := some { now := true, time := swapTime s, tick := tickNow s } } }
      else if nowNs s < swapTime s then fset .TDM_SWAP_CTRL_result 1
        { u with tdm := { s.tdm with swap := some { now := false, time := swapTime s, tick := tickNow s } } }
      else swapResult 3 (swapTime s) 0 u := by
  obtain ⟨hregs, htdm, htime⟩ := swapWritten_keeps v s
  refine ⟨swapWritten v s, htdm, ?_⟩
  rw [write_swapCtrl hm, if_pos (bitsOf_bit_one h31), if_neg (by rw [bitsOf_bit_zero h30]; decide),
    armSwap_eq (by rw [htdm, hs]), shadowOk_congr hregs, swapTime_congr hregs, fbit_swapWritten, nowNs, htime, htdm, tickNow, htime]
  rfl

end

/-! ### Clock requests (R296) -/

section

variable {m : Fin 16} {v : Word} {s : State} {k : Fin 15}

theorem regAt_clkReq (k : Fin 15) : regAt (RegId.addr .ISL_CLK_REQ k) = some (RegId.ISL_CLK_REQ, k.val, 0) :=
  regAt_addr .ISL_CLK_REQ (k.isLt.trans_le (by decide)) (by decide)

theorem write_clkReq (hm : mayWrite m .ISL_CLK_REQ k s) (hv : bit v 31)
    (hlo : (islandClock k).2.1 ≤ bitsOf v.toNat 11 0) (hhi : bitsOf v.toNat 11 0 ≤ (islandClock k).2.2.1) :
    writeBy m (RegId.addr .ISL_CLK_REQ k) v.toNat s =
      requestClock k (bitsOf v.toNat 11 0) false (plainWrite (RegId.addr .ISL_CLK_REQ k) v.toNat s) := by
  have hfreq : fget (plainWrite (RegId.addr .ISL_CLK_REQ k) v.toNat s) .ISL_CLK_REQ_freq_mhz k = bitsOf v.toNat 11 0 :=
    bitsOf_plainWrite (regAt_clkReq k) ⟨⟨11, 0, .rw, 0, .islFreq⟩, by decide, rfl, rfl, rfl, by
      simp [FieldDesc.refuses, Unreserved.admits, hlo, hhi]⟩
  rw [writeBy_taken hm (regAt_clkReq k)
    (unriggedWindow_below (k.isLt.trans_le (by decide)) (by decide) (by decide) s) rfl rfl]
  exact (if_pos (bitsOf_bit_one hv)).trans (by rw [hfreq])

/-- A write of ISL_CLK_REQ leaves the clock's state and frequency. -/
theorem clock_plainWrite (w : Nat) : clockState (plainWrite (RegId.addr .ISL_CLK_REQ k) w s) k = clockState s k ∧
    clockFreq (plainWrite (RegId.addr .ISL_CLK_REQ k) w s) k = clockFreq s k :=
  ⟨fget_plainWrite_other (f := .ISL_CLK_STATUS_state) (k.isLt.trans_le (by decide)) (by decide) (k.isLt.trans_le (by decide))
      (by decide) (by decide) (by decide) (by decide),
    fget_plainWrite_other (f := .ISL_CLK_STATUS_freq_mhz) (k.isLt.trans_le (by decide)) (by decide)
      (k.isLt.trans_le (by decide)) (by decide) (by decide) (by decide) (by decide)⟩

/-- A steppable island that runs prepares for another frequency. -/
theorem requestClock_prepares {u : State} {f : Nat} (hs : (islandClock k).2.2.2 = true) (h0 : clockState u k = 0)
    (hf : f ≠ clockFreq u k) : clockState (requestClock k f false u) k = 1 ∧ (islandAt (requestClock k f false u) k).asked = f ∧
    clockFreq (requestClock k f false u) k = clockFreq u k := by
  rw [requestClock, hs, if_neg (by decide), if_neg (not_not.2 h0), if_neg hf]
  refine ⟨?_, ?_, ?_⟩
  · exact (fget_congr rfl _ _ _).trans (fget_fset_same u .ISL_CLK_STATUS_state 1 k 0 (by decide) (by decide))
  · simp [islandAt]
  · exact (fget_congr rfl _ _ _).trans
      (fget_fset_beside u .ISL_CLK_STATUS_state .ISL_CLK_STATUS_freq_mhz 1 k 0 rfl (by decide) (by decide) (by decide) (by decide))

/-- A request for the frequency in force, or of an island that does not step, is over at once. -/
theorem requestClock_over {u : State} {f : Nat} (h0 : clockState u k = 0)
    (h : (islandClock k).2.2.2 = false ∨ f = clockFreq u k) : requestClock k f false u = fset .ISL_CLK_REQ_go 0 u k := by
  unfold requestClock
  split
  · rfl
  · next hs =>
    have hstep : (islandClock k).2.2.2 ≠ false := by simpa using hs
    rw [if_neg (not_not.2 h0), if_pos (h.resolve_left hstep)]

end

/-! ### The commands together (O28) -/

section

variable {m : Fin 16} {v : Word} {s : State}

/-- A peer whose template stands is enabled under its interval (R191). -/
theorem peerEnable_template {k : Fin 64} (hm : mayWrite m .BND_PEER_CTRL k s) (hv : bit v 31)
    (hoff : fget s .BND_PEER_CTRL_enable k = 0)
    (ht : templateOk (plainWrite (RegId.addr .BND_PEER_CTRL k) v.toNat s) k = true) :
    leaves (.peerEnable m k v) s (fun t =>
      (peerAt t k).on = true ∧ (peerAt t k).everOn = true ∧ (peerAt t k).items = [] ∧
      (peerAt t k).interval = fget t .BND_PEER_CTRL_interval k ∧ fget t .BND_PEER_CTRL_enable k = 1) := by
  refine leaves_of_write rfl (write_peerCtrl hm hv hoff) ?_
  rw [if_pos ht]
  obtain ⟨hon, hever, hitems, hint, hregs⟩ := peerOn_sender k (plainWrite (RegId.addr .BND_PEER_CTRL k) v.toNat s)
  have hapart : RegId.addr .BND_PEER_CTRL k ∉ eventCounters :=
    notMem_eventCounters (k.isLt.trans_le (by decide)) (by decide) (by decide) (by decide)
  refine ⟨hon, hever, hitems, hint.trans (hregs.fget (f := .BND_PEER_CTRL_interval) hapart).symm, ?_⟩
  rw [hregs.fget (f := .BND_PEER_CTRL_enable) hapart]
  exact (bitsOf_plainWrite (regAt_peerCtrl k) ⟨⟨31, 31, .rw, 0, .any⟩, by decide, rfl, rfl, rfl, rfl⟩).trans (bitsOf_bit_one hv)

theorem peerEnable_noTemplate {k : Fin 64} (hm : mayWrite m .BND_PEER_CTRL k s) (hv : bit v 31)
    (hoff : fget s .BND_PEER_CTRL_enable k = 0)
    (ht : templateOk (plainWrite (RegId.addr .BND_PEER_CTRL k) v.toNat s) k = false) :
    leaves (.peerEnable m k v) s (fun t => t.peers = s.peers ∧ fget t .BND_PEER_CTRL_enable k = 0) := by
  refine leaves_of_write rfl (write_peerCtrl hm hv hoff) ?_
  rw [ht, if_neg Bool.false_ne_true]
  obtain ⟨-, hpeers, -⟩ := plainWrite_keeps (RegId.addr .BND_PEER_CTRL k) v.toNat s
  exact ⟨by simpa using hpeers, fget_fset_same _ .BND_PEER_CTRL_enable _ _ _ (by decide) (by decide)⟩

/-- A dictionary turn is asked of a peer that is on (R215). -/
theorem dicCmdTurn_row (hm : mayWrite m .DIC_CMD 0 s) :
    let k := bitsOf v.toNat 5 0
    (bit v 6 → (peerAt s k).on = true → leaves (.dicCmdTurn m v) s (fun t =>
      peerAt t k = { peerAt s k with turnCause := (peerAt s k).turnCause ||| 16 })) ∧
    (¬ bit v 6 ∨ (peerAt s k).on = false → leaves (.dicCmdTurn m v) s (fun t => t.peers = s.peers)) := by
  refine ⟨fun hv hon => leaves_of_write rfl (write_dicCmd hm) ?_, fun hno => leaves_of_write rfl (write_dicCmd hm) ?_⟩
  · rw [if_pos (bitsOf_bit_one hv), dicTurn, if_pos hon]
    exact peerAt_putPeer ..
  · split
    · next h =>
      rw [dicTurn, if_neg]
      rcases hno with hv | hoff
      · exact absurd (h.symm.trans (bitsOf_bit_zero hv)) (by decide)
      · simp [hoff]
    · rfl

theorem portRestart_row {p : Fin 2} (hm : mayWrite m .TMC_CTRL p s) (hfec : bitsOf v.toNat 29 28 ≤ 2) :
    (bitsOf v.toNat 31 28 ≠ bitsOf (regWord s (RegId.addr .TMC_CTRL p)) 31 28 → leaves (.portRestart m p v) s (fun t =>
      (portAt t p).link = false ∧ fget t .TMC_STATUS_block_lock p = 0 ∧ fget t .TMC_STATUS_fec_lock p = 0)) ∧
    (bitsOf v.toNat 31 28 = bitsOf (regWord s (RegId.addr .TMC_CTRL p)) 31 28 → leaves (.portRestart m p v) s (fun t =>
      t.ports = s.ports)) := by
  refine ⟨fun hne => leaves_of_write rfl (write_tmcCtrl hm) ?_, fun heq => leaves_of_write rfl (write_tmcCtrl hm) ?_⟩
  · obtain ⟨hports, hregs⟩ := ptpFollow_keeps
      (restartPort p (regWord s (RegId.addr .TMC_CTRL p)) (plainWrite (RegId.addr .TMC_CTRL p) v.toNat s))
    have hapart : RegId.addr .TMC_STATUS p ∉ eventCounters :=
      notMem_eventCounters (p.isLt.trans_le (by decide)) (by decide) (by decide) (by decide)
    rw [portAt, hports, hregs.fget (f := .TMC_STATUS_block_lock) hapart, hregs.fget (f := .TMC_STATUS_fec_lock) hapart]
    exact restartPort_down (by rw [bits_tmcCtrl hfec]; exact hne.symm)
  · obtain ⟨-, -, hports, -⟩ := plainWrite_keeps (RegId.addr .TMC_CTRL p) v.toNat s
    rw [restartPort_same heq hfec]
    exact (ptpFollow_keeps _).1.trans hports

theorem gateApply_row {p : Fin 2} (hm : mayWrite m .TMC_GATE_CTRL p s) :
    (bit v 30 → nowNs s < (adminList (plainWrite (RegId.addr .TMC_GATE_CTRL p) v.toNat s) p).base →
      leaves (.gateApply m p v) s (fun t =>
        (portAt t p).pending = some (adminList (plainWrite (RegId.addr .TMC_GATE_CTRL p) v.toNat s) p) ∧
        (portAt t p).oper = (portAt s p).oper)) ∧
    (¬ bit v 30 → leaves (.gateApply m p v) s (fun t => t.ports = s.ports)) := by
  obtain ⟨htime, -, hports, -⟩ := plainWrite_keeps (RegId.addr .TMC_GATE_CTRL p) v.toNat s
  refine ⟨fun hv hlt => leaves_of_write rfl (write_gateCtrl hm) ?_, fun hv => leaves_of_write rfl (write_gateCtrl hm) ?_⟩
  · rw [if_pos (bitsOf_bit_one hv)]
    have hnow : nowNs (fset .TMC_GATE_CTRL_apply 0 (plainWrite (RegId.addr .TMC_GATE_CTRL p) v.toNat s) p) = nowNs s := by
      simp only [nowNs, fset_frame, htime]
    obtain ⟨hpend, hoper⟩ := applyGates_pending (p := p)
      (u := fset .TMC_GATE_CTRL_apply 0 (plainWrite (RegId.addr .TMC_GATE_CTRL p) v.toNat s) p)
      (by rw [hnow, adminList_apply]; exact hlt)
    refine ⟨hpend.trans (by rw [adminList_apply]), hoper.trans ?_⟩
    simp only [portAt, fset_frame, hports]
  · rw [if_neg (by rw [bitsOf_bit_zero hv]; decide)]
    exact hports

/-- A management frame starts where none is on its way (R248). -/
theorem mdioStart_row (hm : mayWrite m .SVC_MDIO_CMD 0 s) :
    (s.svc.mdio = true → exec (.mdioStart m v) s = .next s) ∧
    (s.svc.mdio = false → bit v 31 → leaves (.mdioStart m v) s (fun t =>
      t.svc = { s.svc with mdio := true, mdioOut := some (mdioFrame t) })) ∧
    (¬ bit v 31 → leaves (.mdioStart m v) s (fun t => t.svc = s.svc)) := by
  obtain ⟨-, -, -, hsvc, -⟩ := plainWrite_keeps (RegId.addr .SVC_MDIO_CMD) v.toNat s
  refine ⟨write_mdio_busy hm, fun hb hv => leaves_of_write rfl (write_mdio hm hb) ?_, fun hv => ?_⟩
  · rw [if_pos (bitsOf_bit_one hv), startMdio]
    dsimp only
    simp only [fset_frame, hsvc]
    rfl
  · by_cases hb : s.svc.mdio = true
    · exact ⟨s, write_mdio_busy hm hb, rfl⟩
    · refine leaves_of_write rfl (write_mdio hm (by simpa using hb)) ?_
      rw [if_neg (by rw [bitsOf_bit_zero hv]; decide)]
      exact hsvc

/-- A highway group disabled, enabled or framed anew changes state; a rate that strands slots is refused (R256). -/
theorem tdmGroupCtrlWrite_row {g : Fin 4} (hm : mayWrite m .TDM_GRP_CTRL g s) (hrate : bitsOf v.toNat 30 29 ≤ 2) :
    let old := regWord s (RegId.addr .TDM_GRP_CTRL g)
    let framing := bitsOf v.toNat 30 27 ≠ bitsOf old 30 27 ∨ bitsOf v.toNat 2 0 ≠ bitsOf old 2 0
    (rateRefused s g v → leaves (.tdmGroupCtrlWrite m g v) s (fun t => t.tdm = s.tdm ∧
      regWord t (RegId.addr .TDM_GRP_CTRL g) = old)) ∧
    (¬ rateRefused s g v → ¬ bit v 31 → leaves (.tdmGroupCtrlWrite m g v) s (fun t => (groupAt t g).st = .disabled)) ∧
    (¬ rateRefused s g v → bit v 31 → (bitsOf old 31 31 = 0 ∨ framing) → leaves (.tdmGroupCtrlWrite m g v) s (fun t =>
      (groupAt t g).st = .qualifying ∧ (groupAt t g).rx = [] ∧ (groupAt t g).driven = [])) ∧
    (¬ rateRefused s g v → bit v 31 → bitsOf old 31 31 = 1 → ¬ framing → leaves (.tdmGroupCtrlWrite m g v) s (fun t =>
      t.tdm = s.tdm)) := by
  obtain ⟨hen, hfr, hsync⟩ := bits_groupCtrl (g := g) (s := s) hrate
  refine ⟨fun hr => leaves_of_write rfl (write_groupCtrl_refused hm hrate hr) ?_,
    fun hr hv => leaves_of_write rfl (write_groupCtrl hm hrate hr) ?_,
    fun hr hv hnew => leaves_of_write rfl (write_groupCtrl hm hrate hr) ?_,
    fun hr hv hwas hsame => leaves_of_write rfl (write_groupCtrl hm hrate hr) ?_⟩
  · refine ⟨by simp [reservedEvent], (onlyAt_raise ..).same _ ?_⟩
    exact notMem_eventCounters (g.isLt.trans_le (by decide)) (by decide) (by decide) (by decide)
  · rw [groupControl_eq, hen, if_pos (bitsOf_bit_zero hv)]
    split
    · assumption
    · exact (groupAt_groupState ..).1
  · rw [groupControl_eq, hen, hfr, hsync, if_neg (by rw [bitsOf_bit_one hv]; decide),
      if_pos (hnew.imp_right (Or.imp Ne.symm Ne.symm))]
    exact groupAt_groupState ..
  · obtain ⟨hframe, hphase⟩ := not_or.1 hsame
    rw [groupControl_eq, hen, hfr, hsync, if_neg (by rw [bitsOf_bit_one hv]; decide), if_neg]
    · exact (plainWrite_keeps ..).2.2.2.2.1
    · rw [not_or, not_or, not_not, not_not]
      exact ⟨by rw [hwas]; decide, (not_not.1 hframe).symm, (not_not.1 hphase).symm⟩

theorem fget_armed (u : State) : fget (fset .TDM_SWAP_CTRL_result 1 u) .TDM_SWAP_CTRL_result = 1 :=
  fget_fset_same _ .TDM_SWAP_CTRL_result 1 0 0 (by decide) (by decide)

/-- A map swap armed with none pending: taken at the next frame, at its time, or refused (R266). -/
theorem mapSwapArm_row (hm : mayWrite m .TDM_SWAP_CTRL 0 s) (h31 : bit v 31) (h30 : ¬ bit v 30) (hs : s.tdm.swap = none) :
    (v.getLsbD 29 = true → shadowOk s = true → leaves (.mapSwapArm m v) s (fun t =>
      t.tdm = { s.tdm with swap := some { now := true, time := swapTime s, tick := tickNow s } } ∧
      fget t .TDM_SWAP_CTRL_result = 1)) ∧
    (v.getLsbD 29 = false → shadowOk s = true → nowNs s < swapTime s → leaves (.mapSwapArm m v) s (fun t =>
      t.tdm = { s.tdm with swap := some { now := false, time := swapTime s, tick := tickNow s } } ∧
      fget t .TDM_SWAP_CTRL_result = 1)) ∧
    (v.getLsbD 29 = false → shadowOk s = true → swapTime s ≤ nowNs s → leaves (.mapSwapArm m v) s (fun t =>
      t.tdm = s.tdm ∧ fget t .TDM_SWAP_CTRL_result = 3)) ∧
    (shadowOk s = false → leaves (.mapSwapArm m v) s (fun t => t.tdm = s.tdm ∧ fget t .TDM_SWAP_CTRL_result = 4)) := by
  obtain ⟨u, hu, hw⟩ := write_swapArm hm h31 h30 hs
  have hrefused : ∀ r, r < 8 → (swapResult r (swapTime s) 0 u).tdm = s.tdm ∧
      fget (swapResult r (swapTime s) 0 u) .TDM_SWAP_CTRL_result = r := fun r hr =>
    ⟨(swapResult_spec _ _ _ u hr).1.trans hu, (swapResult_spec _ _ _ u hr).2⟩
  refine ⟨fun hnow hok => leaves_of_write rfl hw ?_, fun hnow hok hlt => leaves_of_write rfl hw ?_,
    fun hnow hok hle => leaves_of_write rfl hw ?_, fun hbad => leaves_of_write rfl hw ?_⟩
  · rw [hok, Bool.not_true, if_neg Bool.false_ne_true, if_pos hnow]
    exact ⟨by simp, fget_armed ..⟩
  · rw [hok, Bool.not_true, if_neg Bool.false_ne_true, hnow, if_neg Bool.false_ne_true, if_pos hlt]
    exact ⟨by simp, fget_armed ..⟩
  · rw [hok, Bool.not_true, if_neg Bool.false_ne_true, hnow, if_neg Bool.false_ne_true, if_neg (not_lt.2 hle)]
    exact hrefused 3 (by decide)
  · rw [hbad, Bool.not_false, if_pos rfl]
    exact hrefused 4 (by decide)

/-- A cancel takes a pending swap back, and has nothing to do without one (R266). -/
theorem mapSwapCancel_row (hm : mayWrite m .TDM_SWAP_CTRL 0 s) (hv : v = 0x40000000) :
    (s.tdm.swap.isSome = true → leaves (.mapSwapCancel m v) s (fun t =>
      t.tdm = { s.tdm with swap := none } ∧ fget t .TDM_SWAP_CTRL_result = 5)) ∧
    (s.tdm.swap = none → leaves (.mapSwapCancel m v) s (fun t => t.tdm = s.tdm)) := by
  obtain ⟨-, htdm, -⟩ := swapWritten_keeps v s
  have hw : writeBy m (RegId.addr .TDM_SWAP_CTRL) v.toNat s = cancelSwap (swapWritten v s) := by
    have h31 : ¬ bitsOf v.toNat 31 31 = 1 := by rw [hv]; decide
    have h30 : bitsOf v.toNat 30 30 = 1 := by rw [hv]; decide
    rw [write_swapCtrl hm, if_neg h31, if_pos h30]
  refine ⟨fun hsome => ?_, fun hnone => leaves_of_write rfl hw ?_⟩
  · obtain ⟨w, hsw⟩ := Option.isSome_iff_exists.1 hsome
    refine leaves_of_write rfl hw ?_
    rw [cancelSwap, htdm, hsw]
    exact swapResult_spec 5 w.time 0 _ (by decide)
  · rw [cancelSwap, htdm, hnone]
    exact htdm

/-- A frequency asked of an island's clock (R296, R298). -/
theorem islClkRequest_row {k : Fin 15} (hm : mayWrite m .ISL_CLK_REQ k s) (hv : bit v 31) :
    let f := bitsOf v.toNat 11 0
    (islandClock k).2.1 ≤ f → f ≤ (islandClock k).2.2.1 → clockState s k = 0 →
    ((islandClock k).2.2.2 = true → f ≠ clockFreq s k → leaves (.islClkRequest m k v) s (fun t =>
      clockState t k = 1 ∧ (islandAt t k).asked = f ∧ clockFreq t k = clockFreq s k)) ∧
    ((islandClock k).2.2.2 = false ∨ f = clockFreq s k → leaves (.islClkRequest m k v) s (fun t =>
      clockState t k = 0 ∧ t.isls = s.isls ∧ fget t .ISL_CLK_REQ_go k = 0)) := by
  intro f hlo hhi h0
  obtain ⟨hstate, hfreq⟩ := clock_plainWrite (k := k) (s := s) v.toNat
  obtain ⟨-, -, -, -, -, hisls, -⟩ := plainWrite_keeps (RegId.addr .ISL_CLK_REQ k) v.toNat s
  refine ⟨fun hstep hne => leaves_of_write rfl (write_clkReq hm hv hlo hhi) ?_,
    fun hover => leaves_of_write rfl (write_clkReq hm hv hlo hhi) ?_⟩
  · obtain ⟨hprep, hasked, hstays⟩ := requestClock_prepares hstep (hstate.trans h0) (hfreq ▸ hne)
    exact ⟨hprep, hasked, hstays.trans hfreq⟩
  · rw [requestClock_over (hstate.trans h0) (hfreq ▸ hover)]
    refine ⟨?_, by simpa using hisls, fget_fset_same _ .ISL_CLK_REQ_go _ _ _ (by decide) (by decide)⟩
    have hapart : RegId.addr .ISL_CLK_STATUS k ≠ RegId.addr .ISL_CLK_REQ k :=
      addr_ne (by decide) (k.isLt.trans_le (by decide)) (by decide) (k.isLt.trans_le (by decide)) (by decide)
    exact (fget_fset_other _ .ISL_CLK_REQ_go .ISL_CLK_STATUS_state _ _ _ _ _ hapart).trans (hstate.trans h0)

end

/-- Settles O28: each command is one write of its register, whose fields the row's own effect reads. -/
theorem islandCommandsActOnTheirIsland : Obligations.IslandCommandsActOnTheirIsland := by
  unfold Obligations.IslandCommandsActOnTheirIsland
  intro m v s
  refine ⟨fun k hm hv hoff => ⟨peerEnable_template hm hv hoff, peerEnable_noTemplate hm hv hoff⟩, dicCmdTurn_row,
    fun p => portRestart_row, fun p => gateApply_row, mdioStart_row, fun g => tdmGroupCtrlWrite_row, fun hm => ?_,
    fun k => islClkRequest_row⟩
  refine ⟨?_, ?_, ?_, fun h31 h30 hs => (mapSwapArm_row hm h31 h30 hs).2.2.2, fun hv => (mapSwapCancel_row hm hv).1,
    fun hv => (mapSwapCancel_row hm hv).2⟩ <;> rintro rfl hs
  · exact (mapSwapArm_row hm (by decide) (by decide) hs).1 (by decide)
  · exact (mapSwapArm_row hm (by decide) (by decide) hs).2.1 (by decide)
  · exact (mapSwapArm_row hm (by decide) (by decide) hs).2.2.1 (by decide)

end Sys2Proof.Proofs.IslandCommands
end

section
/-! PROOF. The commands of the loader, the fuses and the lanes (R104, R335, R337, R339, R341, R348, R352, R353, R355). -/

namespace Sys2Proof.Proofs.LoaderCommands

open Sys2Proof Sys2Proof.Machine Sys2Proof.Spec Sys2Proof.Proofs.Effects Sys2Proof.Proofs.RegisterFields
  Sys2Proof.Proofs.RegisterPlaces Sys2Proof.Proofs.RegisterWrites Sys2Proof.Proofs.IslandCommands

/-! ### Registers with action bits -/

section

variable {m : Fin 16} {v : Word} {s : State}

/-- A single register below the lanes' windows, written where no rule ignores or refuses the write as a whole. -/
theorem write_single {r : RegId} (hm : mayWrite m r 0 s) (hn : 0 < r.place.n1 ∧ 0 < r.place.n2)
    (hlow : lastAddr r.place < 0x1000000) (hign : ignoredWrite s r = false)
    (hwhole : wholeRefusal s r 0 (r.addr 0) v.toNat = none) :
    writeBy m (r.addr 0) v.toNat s =
      afterWrite r 0 (regWord s (r.addr 0)) v.toNat (plainWrite (r.addr 0) v.toNat s) :=
  writeBy_taken hm (regAt_addr r hn.1 hn.2) (unriggedWindow_below hn.1 hn.2 hlow s) hign hwhole

/-- RIG_CTRL written, its action bits cleared again: what the actions find. -/
def rigWritten (v : Word) (s : State) : State :=
  fset .RIG_CTRL_start 0 (fset .RIG_CTRL_abort 0 (fset .RIG_CTRL_commit_rollback 0
    (plainWrite (RegId.addr .RIG_CTRL) v.toNat s)))

/-- What the actions of RIG_CTRL find: the loader as it stood, and the source and cluster just written. -/
structure RigFound (v : Word) (s u : State) : Prop where
  rig : u.rig = s.rig
  boot : u.boot = s.boot
  chans : u.chans = s.chans
  source : fget u .RIG_CTRL_source = bitsOf v.toNat 25 25
  cluster : fget u .RIG_CTRL_cluster = bitsOf v.toNat 2 0
  regs : OnlyAt (RegId.addr .RIG_CTRL :: eventCounters) s u

theorem rigWritten_found (v : Word) (s : State) : RigFound v s (rigWritten v s) := by
  have hat : regAt (RegId.addr .RIG_CTRL 0) = some (RegId.RIG_CTRL, 0, 0) := regAt_addr .RIG_CTRL (by decide) (by decide)
  obtain ⟨r, e, hw⟩ := regsEvents_plainWrite (RegId.addr .RIG_CTRL) v.toNat s
  have hkeep : ∀ f : Fld, f.reg = .RIG_CTRL → f.lo ≤ f.hi → f.hi < 29 →
      fget (rigWritten v s) f = fget (plainWrite (RegId.addr .RIG_CTRL) v.toNat s) f := by
    intro f hr h h29
    rw [rigWritten, fget_fset_beside _ .RIG_CTRL_start f _ _ _ hr (by decide) h (by omega) (.inr (by dsimp only; omega)),
      fget_fset_beside _ .RIG_CTRL_abort f _ _ _ hr (by decide) h (by omega) (.inr (by dsimp only; omega)),
      fget_fset_beside _ .RIG_CTRL_commit_rollback f _ _ _ hr (by decide) h (by omega) (.inr (by dsimp only; omega))]
  refine ⟨?_, ?_, ?_, ?_, ?_, ?_⟩
  · simp [rigWritten, hw]
  · simp [rigWritten, hw]
  · simp [rigWritten, hw]
  · rw [hkeep .RIG_CTRL_source rfl (by decide) (by decide)]
    exact bitsOf_plainWrite hat ⟨⟨25, 25, .rw, 0, .any⟩, by decide, rfl, rfl, rfl, rfl⟩
  · rw [hkeep .RIG_CTRL_cluster rfl (by decide) (by decide)]
    exact bitsOf_plainWrite hat ⟨⟨2, 0, .rw, 0, .any⟩, by decide, rfl, rfl, rfl, rfl⟩
  · exact (((onlyAt_plainWrite (RegId.addr .RIG_CTRL) v.toNat s).then
      (onlyAt_fset .RIG_CTRL_commit_rollback 0 _ 0 0 List.mem_cons_self)).then
      (onlyAt_fset .RIG_CTRL_abort 0 _ 0 0 List.mem_cons_self)).then
      (onlyAt_fset .RIG_CTRL_start 0 _ 0 0 List.mem_cons_self)

theorem RigFound.offset {u : State} (h : RigFound v s u) : fget u .RIG_QSPI_OFS_offset = fget s .RIG_QSPI_OFS_offset :=
  h.regs.fget (f := .RIG_QSPI_OFS_offset) (by
    rw [List.mem_cons, not_or]
    exact ⟨addr_ne (by decide) (by decide) (by decide) (by decide) (by decide),
      notMem_eventCounters (by decide) (by decide) (by decide) (by decide)⟩)

/-- RIG_CTRL's actions by its three action bits (R335). -/
theorem write_rigCtrl (hm : mayWrite m .RIG_CTRL 0 s) : writeBy m (RegId.addr .RIG_CTRL) v.toNat s =
    (let s1 := rigWritten v s
     let s2 := if bitsOf v.toNat 29 29 = 1 then commitRollback s1 else s1
     let s3 := if bitsOf v.toNat 30 30 = 1 then rigAbort s2 else s2
     if bitsOf v.toNat 31 31 = 1 then rigStart s3 else s3) :=
  write_single hm ⟨by decide, by decide⟩ (by decide) rfl rfl

theorem write_rigStart (hm : mayWrite m .RIG_CTRL 0 s) (h31 : bit v 31) (h30 : ¬ bit v 30) (h29 : ¬ bit v 29) :
    writeBy m (RegId.addr .RIG_CTRL) v.toNat s = rigStart (rigWritten v s) := by
  simp only [write_rigCtrl hm, bitsOf_bit_one h31, bitsOf_bit_zero h30, bitsOf_bit_zero h29, zero_ne_one, if_true, if_false]

theorem write_rigAbort (hm : mayWrite m .RIG_CTRL 0 s) (hv : v = 0x40000000) :
    writeBy m (RegId.addr .RIG_CTRL) v.toNat s = rigAbort (rigWritten v s) := by
  have h31 : bitsOf v.toNat 31 31 = 0 := by rw [hv]; decide
  have h30 : bitsOf v.toNat 30 30 = 1 := by rw [hv]; decide
  have h29 : bitsOf v.toNat 29 29 = 0 := by rw [hv]; decide
  simp only [write_rigCtrl hm, h31, h30, h29, zero_ne_one, if_true, if_false]

theorem write_rigCommit (hm : mayWrite m .RIG_CTRL 0 s) (hv : v = 0x20000000) :
    writeBy m (RegId.addr .RIG_CTRL) v.toNat s = commitRollback (rigWritten v s) := by
  have h31 : bitsOf v.toNat 31 31 = 0 := by rw [hv]; decide
  have h30 : bitsOf v.toNat 30 30 = 0 := by rw [hv]; decide
  have h29 : bitsOf v.toNat 29 29 = 1 := by rw [hv]; decide
  simp only [write_rigCtrl hm, h31, h30, h29, zero_ne_one, if_true, if_false]

/-! ### Starting, aborting and committing (R335, R339, R341) -/

theorem beginLoad_rig (src ofs : Nat) (c : Option Nat) (u : State) : (beginLoad src ofs c u).rig =
    { u.rig with st := .receiving, bytes := 0, image := [], rerig := c, src := src, ofs := ofs, started := tickNow u, go := false } := by
  simp [beginLoad]

theorem usedLu_congr {s u : State} (h : u.chans = s.chans) (l : Nat) : usedLu u l = usedLu s l := by
  simp only [usedLu, h]

/-- At boot a load begins from WAIT_HOST or FAILED (R347). -/
theorem rigStart_boot {u : State} (hb : u.boot.stage = .load) (hr : u.rig.st = .waitHost ∨ u.rig.st = .failed) :
    rigStart u = beginLoad (fget u .RIG_CTRL_source) (16 * fget u .RIG_QSPI_OFS_offset) none u := by
  simp [rigStart, hb, hr]

theorem rigStart_failed {u : State} (hb : u.boot.stage = .running) (hr : u.rig.st = .failed) : rigStart u = u := by
  simp [rigStart, hb, hr]

/-- A running device with an idle loader: a re-rig, by the load of the cluster's lanes (R339). -/
theorem rigStart_running {u : State} (hb : u.boot.stage = .running) (hrun : u.rig.running = true) (hr : u.rig.st = .idle) :
    rigStart u = if (List.range 16).all (fun k => usedLu u (16 * fget u .RIG_CTRL_cluster + k) == 0) then
        beginLoad (fget u .RIG_CTRL_source) (16 * fget u .RIG_QSPI_OFS_offset) (some (fget u .RIG_CTRL_cluster)) u
      else rigFail 0x13 0x3FF { u with rig := { u.rig with bytes := 0 } } := by
  simp [rigStart, hb, hr, hrun]

/-- A failure outside the boot stage LOAD. -/
theorem rigFail_spec {u : State} (code spar : Nat) (hb : u.boot.stage ≠ .load) :
    (rigFail code spar u).rig.st = .failed ∧ (rigFail code spar u).rig.code = code ∧ (rigFail code spar u).rig.image = [] ∧
    counted u (rigFail code spar u) .RIG_COUNT_failures := by
  have hst : ¬ (u.boot.stage = .load ∧ u.boot.sel = 1) := fun h => hb h.1
  simp only [rigFail, if_neg hb, if_neg hst]
  refine ⟨by simp, by simp, by simp, ?_⟩
  refine counted_after (as := eventCounters) (f := .RIG_COUNT_failures) (t := fbump .RIG_COUNT_failures 1 { u with rig := _ })
    ?_ (onlyAt_raise ..) (notMem_eventCounters (by decide) (by decide) (by decide) (by decide))
  exact counted_before (as := []) (.of_regs rfl) List.not_mem_nil
    (counted_fbump { u with rig := _ } .RIG_COUNT_failures 0 (by decide) (by decide))

theorem rigStart_loaded {u : State} (hb : u.boot.stage = .running) (hrun : u.rig.running = true) (hr : u.rig.st = .idle)
    (hload : ¬ (List.range 16).all (fun k => usedLu u (16 * fget u .RIG_CTRL_cluster + k) == 0) = true) :
    (rigStart u).rig.st = .failed ∧ (rigStart u).rig.code = 0x13 := by
  obtain ⟨hst, hcode, -, -⟩ := rigFail_spec (u := { u with rig := { u.rig with bytes := 0 } }) 0x13 0x3FF
    (fun h => absurd (hb.symm.trans h) (by decide))
  rw [rigStart_running hb hrun hr, if_neg hload]
  exact ⟨hst, hcode⟩

theorem rigStart_row (hm : mayWrite m .RIG_CTRL 0 s) (h31 : bit v 31) (h30 : ¬ bit v 30) (h29 : ¬ bit v 29) :
    let c := bitsOf v.toNat 2 0
    (s.boot.stage = .load → s.rig.st = .waitHost ∨ s.rig.st = .failed →
      leaves (.rigStart m v) s (fun t => t.rig.st = .receiving ∧ t.rig.bytes = 0 ∧ t.rig.image = [] ∧ t.rig.rerig = none ∧
        t.rig.src = bitsOf v.toNat 25 25 ∧ t.rig.ofs = 16 * fget s .RIG_QSPI_OFS_offset)) ∧
    (s.boot.stage = .running → s.rig.st = .failed → leaves (.rigStart m v) s (fun t => t.rig = s.rig)) ∧
    (s.boot.stage = .running → s.rig.running = true → s.rig.st = .idle →
      ((∀ k < 16, usedLu s (16 * c + k) = 0) → leaves (.rigStart m v) s (fun t =>
        t.rig.st = .receiving ∧ t.rig.bytes = 0 ∧ t.rig.image = [] ∧ t.rig.rerig = some c ∧
        t.rig.src = bitsOf v.toNat 25 25 ∧ t.rig.ofs = 16 * fget s .RIG_QSPI_OFS_offset)) ∧
      ((∃ k < 16, usedLu s (16 * c + k) ≠ 0) → leaves (.rigStart m v) s (fun t =>
        t.rig.st = .failed ∧ t.rig.code = 0x13))) := by
  intro c
  have hf := rigWritten_found v s
  refine ⟨fun hb hr => leaves_of_write rfl (write_rigStart hm h31 h30 h29) ?_,
    fun hb hr => leaves_of_write rfl (write_rigStart hm h31 h30 h29) ?_, fun hb hrun hr => ?_⟩
  · rw [rigStart_boot (hf.boot ▸ hb) (hf.rig ▸ hr), beginLoad_rig, hf.source, hf.offset]
    simp only [and_self]
  · rw [rigStart_failed (hf.boot ▸ hb) (hf.rig ▸ hr), hf.rig]
  · have hstart := rigStart_running (hf.boot ▸ hb) (hf.rig ▸ hrun) (hf.rig ▸ hr)
    have hload : (List.range 16).all
        (fun k => usedLu (rigWritten v s) (16 * fget (rigWritten v s) .RIG_CTRL_cluster + k) == 0) = true ↔
        ∀ k < 16, usedLu s (16 * c + k) = 0 := by
      simp only [hf.cluster, usedLu_congr hf.chans, List.all_eq_true, List.mem_range, beq_iff_eq, c]
    refine ⟨fun hfree => leaves_of_write rfl (write_rigStart hm h31 h30 h29) ?_,
      fun ⟨k, hk, hused⟩ => leaves_of_write rfl (write_rigStart hm h31 h30 h29) ?_⟩
    · rw [hstart, if_pos (hload.2 hfree), beginLoad_rig, hf.source, hf.offset, hf.cluster]
      simp only [c, and_self]
    · exact rigStart_loaded (hf.boot ▸ hb) (hf.rig ▸ hrun) (hf.rig ▸ hr) fun h => hused (hload.1 h k hk)

theorem rigAbort_row (hm : mayWrite m .RIG_CTRL 0 s) (hv : v = 0x40000000) (hb : s.boot.stage ≠ .load) :
    (loadUnderCheck s = true → leaves (.rigAbort m v) s (fun t => t.rig.st = .failed ∧ t.rig.code = 0x14 ∧
      t.rig.image = [] ∧ counted s t .RIG_COUNT_failures)) ∧
    (loadUnderCheck s = false → leaves (.rigAbort m v) s (fun t => t.rig = s.rig)) := by
  have hf := rigWritten_found v s
  have hunder : loadUnderCheck (rigWritten v s) = loadUnderCheck s := by rw [loadUnderCheck, hf.rig, loadUnderCheck]
  refine ⟨fun h => leaves_of_write rfl (write_rigAbort hm hv) ?_, fun h => leaves_of_write rfl (write_rigAbort hm hv) ?_⟩
  · rw [rigAbort, hunder, if_pos h]
    obtain ⟨hst, hcode, himg, hcount⟩ := rigFail_spec (u := rigWritten v s) 0x14 0x3FF (by rw [hf.boot]; exact hb)
    refine ⟨hst, hcode, himg, counted_before hf.regs ?_ hcount⟩
    rw [List.mem_cons, not_or]
    exact ⟨addr_ne (by decide) (by decide) (by decide) (by decide) (by decide),
      notMem_eventCounters (by decide) (by decide) (by decide) (by decide)⟩
  · rw [rigAbort, hunder, h, if_neg Bool.false_ne_true]
    exact hf.rig

theorem rigRollbackCommit_row (hm : mayWrite m .RIG_CTRL 0 s) (hv : v = 0x20000000) :
    (s.rig.st = .idle → s.rig.running = true → s.boot.fuses.rollback < s.rig.rollback →
      leaves (.rigRollbackCommit m v) s (fun t => t.boot.fuses = { s.boot.fuses with rollback := s.rig.rollback })) ∧
    (s.rig.st ≠ .idle ∨ s.rig.running = false ∨ s.rig.rollback ≤ s.boot.fuses.rollback →
      leaves (.rigRollbackCommit m v) s (fun t => t.boot = s.boot)) := by
  have hf := rigWritten_found v s
  refine ⟨fun hst hrun hlt => leaves_of_write rfl (write_rigCommit hm hv) ?_,
    fun h => leaves_of_write rfl (write_rigCommit hm hv) ?_⟩
  · simp [commitRollback, hf.rig, hf.boot, hst, hrun, hlt]
  · have hno : ¬ ((rigWritten v s).rig.st = .idle ∧ (rigWritten v s).rig.running = true ∧
        (rigWritten v s).boot.fuses.rollback < (rigWritten v s).rig.rollback) := by
      rw [hf.rig, hf.boot]
      rintro ⟨hst, hrun, hlt⟩
      rcases h with h | h | h
      · exact h hst
      · rw [hrun] at h
        cases h
      · omega
    rw [commitRollback]
    dsimp only
    rw [if_neg hno]
    exact hf.boot

/-! ### Image data (R337) -/

/-- Bytes that do not yet fill the header join the image. -/
theorem takeImage_short {b : Bytes} (hst : s.rig.st = .receiving) (hlen : s.rig.image.length + b.length < 128) :
    (takeImage b s).rig = { s.rig with image := s.rig.image ++ b, bytes := s.rig.image.length + b.length } := by
  have hall : (s.rig.image ++ b).length < 128 := by rw [List.length_append]; exact hlen
  have htable : 128 ≤ tableEnd (s.rig.image ++ b) := by
    unfold tableEnd
    split <;> omega
  have hstage : ∀ (old : Nat) (u : State), (stageBytes old (s.rig.image ++ b) u).rig = u.rig := by
    intro old u
    unfold stageBytes
    split
    · simp
    · rw [if_neg (by omega)]
  have hno : ¬ 128 ≤ (s.rig.image ++ b).length := not_le.2 hall
  simp only [takeImage, hst, ne_eq, not_true_eq_false, if_false, hno, and_false, hall, true_or, if_true, false_and]
  rw [wholeImage, hstage, if_neg (fun h => hno h.1), hstage, List.length_append]

theorem rigData_row (b : Bytes) (hm : mayWrite m .RIG_DATA 0 s) :
    (s.rig.st ≠ .receiving → exec (.rigData m b) s = .next s) ∧
    (s.rig.st = .receiving → s.rig.image.length + b.length < 128 → leaves (.rigData m b) s (fun t =>
      t.rig.image = s.rig.image ++ b ∧ t.rig.bytes = s.rig.image.length + b.length ∧ t.rig.st = .receiving)) := by
  have hexec : exec (.rigData m b) s = .next (takeImage b s) := by
    obtain ⟨hr, hp⟩ := hm
    change execRigData m b s = _
    rw [execRigData, hr, if_neg Bool.false_ne_true, if_pos hp]
  refine ⟨fun hst => ?_, fun hst hlen => ⟨_, hexec, ?_⟩⟩
  · rw [hexec, takeImage, if_pos hst]
  · have hrig := takeImage_short hst hlen
    exact ⟨by rw [hrig], by rw [hrig], by rw [hrig]; exact hst⟩

end

/-! ### Keys and fuses (R348, R352, R353) -/

section

variable {m : Fin 16} {v : Word} {s : State}

/-- BOOT_CTRL written, its action bits cleared again: what the actions find. -/
def bootWritten (v : Word) (s : State) : State :=
  fset .BOOT_CTRL_enrol 0 (fset .BOOT_CTRL_revoke 0 (fset .BOOT_CTRL_lock_debug 0
    (plainWrite (RegId.addr .BOOT_CTRL) v.toNat s)))

theorem regAt_bootCtrl : regAt (RegId.addr .BOOT_CTRL 0) = some (RegId.BOOT_CTRL, 0, 0) :=
  regAt_addr .BOOT_CTRL (by decide) (by decide)

theorem bootWritten_keeps (v : Word) (s : State) : (bootWritten v s).boot = s.boot ∧ (bootWritten v s).rig = s.rig := by
  obtain ⟨r, e, hw⟩ := regsEvents_plainWrite (RegId.addr .BOOT_CTRL) v.toNat s
  simp [bootWritten, hw]

theorem bootWritten_slot (hv : bitsOf v.toNat 2 0 ≤ 4) : fget (bootWritten v s) .BOOT_CTRL_slot = bitsOf v.toNat 2 0 := by
  rw [bootWritten, fget_fset_beside _ .BOOT_CTRL_enrol .BOOT_CTRL_slot _ _ _ rfl (by decide) (by decide) (by decide) (by decide),
    fget_fset_beside _ .BOOT_CTRL_revoke .BOOT_CTRL_slot _ _ _ rfl (by decide) (by decide) (by decide) (by decide),
    fget_fset_beside _ .BOOT_CTRL_lock_debug .BOOT_CTRL_slot _ _ _ rfl (by decide) (by decide) (by decide) (by decide)]
  exact bitsOf_plainWrite (i := 0) regAt_bootCtrl ⟨⟨2, 0, .rw, 0, .range 0 4⟩, by decide, rfl, rfl, rfl, by
    simp [FieldDesc.refuses, Unreserved.admits, hv]⟩

/-- A write with no reserved value changes its own word alone. -/
theorem plainWrite_otherCells {r : RegId} {i j w : Nat} (hat : regAt (r.addr i j) = some (r, i, j))
    (hnone : reservedFields s r i w = []) {b : Nat} (hb : b ≠ r.addr i j) :
    tget? (plainWrite (r.addr i j) w s).regs b = tget? s.regs b := by
  rw [plainWrite, hat]
  dsimp only
  rw [hnone]
  dsimp only [List.foldl_nil]
  split
  · rfl
  · exact tget?_tset_other _ _ hb

theorem bootWritten_digest (hv : v = 0x80000000) : ownerDigest (bootWritten v s) = ownerDigest s := by
  have hnone : reservedFields s .BOOT_CTRL 0 v.toNat = [] := by
    subst hv
    simp [reservedFields, RegId.fields, FieldDesc.refuses, Unreserved.admits, bitsOf]
  have hcell : ∀ j ∈ List.range 16, tget? (bootWritten v s).regs (RegId.addr .BOOT_OWNER_DIGEST 0 j) =
      tget? s.regs (RegId.addr .BOOT_OWNER_DIGEST 0 j) := by
    intro j hj
    have hp : RegId.place .BOOT_OWNER_DIGEST = ⟨.BOOT_OWNER_DIGEST, 0x20040, 16, 0x4, 1, 4⟩ := by decide +kernel
    have hne : RegId.addr .BOOT_OWNER_DIGEST 0 j ≠ RegId.addr .BOOT_CTRL := by
      rw [show RegId.addr .BOOT_OWNER_DIGEST 0 j = RegId.addr .BOOT_OWNER_DIGEST j 0 by simp [RegId.addr, hp]]
      exact addr_ne (by decide) (by rw [hp]; exact List.mem_range.1 hj) (by decide) (by decide) (by decide)
    exact (tget?_tset_other _ _ hne).trans ((tget?_tset_other _ _ hne).trans ((tget?_tset_other _ _ hne).trans
      (plainWrite_otherCells regAt_bootCtrl hnone hne)))
  unfold ownerDigest
  rw [(bootWritten_keeps v s).1]
  exact List.flatMap_congr fun j hj => by rw [hcell j hj]

/-- BOOT_CTRL's actions by its three action bits (R348). -/
theorem write_bootCtrl (hm : mayWrite m .BOOT_CTRL 0 s) : writeBy m (RegId.addr .BOOT_CTRL) v.toNat s =
    (let n := bitsOf v.toNat 31 31 + bitsOf v.toNat 30 30 + bitsOf v.toNat 29 29
     if n = 0 then bootWritten v s
     else if 1 < n then bootResult 2 (bootWritten v s)
     else if bitsOf v.toNat 31 31 = 1 then enrolOwner (bootWritten v s)
     else if bitsOf v.toNat 30 30 = 1 then revokeSlot (fget (bootWritten v s) .BOOT_CTRL_slot) (bootWritten v s)
     else bootResult 1 { bootWritten v s with boot :=
       { (bootWritten v s).boot with fuses := { (bootWritten v s).boot.fuses with debugLocked := true } } }) :=
  write_single hm ⟨by decide, by decide⟩ (by decide) rfl rfl

/-- One action bit set, or enrol and revoke with it. -/
theorem write_bootEnrol (hm : mayWrite m .BOOT_CTRL 0 s) (hv : v = 0x80000000) :
    writeBy m (RegId.addr .BOOT_CTRL) v.toNat s = enrolOwner (bootWritten v s) := by
  have h31 : bitsOf v.toNat 31 31 = 1 := by rw [hv]; decide
  have h30 : bitsOf v.toNat 30 30 = 0 := by rw [hv]; decide
  have h29 : bitsOf v.toNat 29 29 = 0 := by rw [hv]; decide
  simp only [write_bootCtrl hm, h31, h30, h29, Nat.add_zero, one_ne_zero, lt_irrefl, if_true, if_false]

theorem revokeWord_bits {i : Nat} (hi : i < 5) (hv : v = BitVec.ofNat 32 (0x40000000 + i)) : bitsOf v.toNat 31 31 = 0 ∧
    bitsOf v.toNat 30 30 = 1 ∧ bitsOf v.toNat 29 29 = 0 ∧ bitsOf v.toNat 2 0 = i := by
  subst hv
  interval_cases i <;> decide

theorem write_bootRevoke {i : Nat} (hm : mayWrite m .BOOT_CTRL 0 s) (hi : i < 5) (hv : v = BitVec.ofNat 32 (0x40000000 + i)) :
    writeBy m (RegId.addr .BOOT_CTRL) v.toNat s = revokeSlot i (bootWritten v s) := by
  obtain ⟨h31, h30, h29, hslot⟩ := revokeWord_bits hi hv
  have hfield : fget (bootWritten v s) .BOOT_CTRL_slot = i :=
    (bootWritten_slot (by rw [hslot]; omega)).trans hslot
  simp only [write_bootCtrl hm, h31, h30, h29, hfield, Nat.add_zero, Nat.zero_add, one_ne_zero, zero_ne_one, lt_irrefl,
    if_true, if_false]

theorem ownerEnrol_row (hm : mayWrite m .BOOT_CTRL 0 s) (hv : v = 0x80000000) :
    (s.boot.stage = .load → s.rig.st = .waitHost ∨ s.rig.st = .failed → s.boot.fuses.enrolled = false →
      allZero (ownerDigest s) = false → keepsBlown (ownerDigest s) s.boot.fuses.owner = true →
      leaves (.ownerEnrol m v) s (fun t => t.boot.fuses = { s.boot.fuses with owner := ownerDigest s, enrolled := true } ∧
        t.boot.result = 1)) ∧
    (s.boot.fuses.enrolled = true →
      leaves (.ownerEnrol m v) s (fun t => t.boot.fuses = s.boot.fuses ∧ t.boot.result = 2)) := by
  obtain ⟨hboot, hrig⟩ := bootWritten_keeps v s
  refine ⟨fun hst hr hen hz hk => leaves_of_write rfl (write_bootEnrol hm hv) ?_,
    fun hen => leaves_of_write rfl (write_bootEnrol hm hv) ?_⟩
  · simp [enrolOwner, hboot, hrig, bootWritten_digest hv, hst, hr, hen, hz, hk, bootResult]
  · simp [enrolOwner, hboot, hen, bootResult]

theorem keyRevoke_row {i : Nat} (hm : mayWrite m .BOOT_CTRL 0 s) (hi : i < 5) (hv : v = BitVec.ofNat 32 (0x40000000 + i))
    (hst : s.boot.stage = .running) (hnot : slotRevoked s.boot.fuses i = false) :
    (i = s.rig.slot ∨ (i = 4 ∧ s.boot.fuses.enrolled = false) → leaves (.keyRevoke m v) s (fun t =>
      t.boot.fuses = s.boot.fuses ∧ t.boot.result = 2)) ∧
    (i ≠ s.rig.slot → (i = 4 → s.boot.fuses.enrolled = true) → (∃ k < 5, k ≠ i ∧ slotUsable s.boot.fuses k = true) →
      leaves (.keyRevoke m v) s (fun t => t.boot.result = 1 ∧
        t.boot.fuses = if i = 4 then { s.boot.fuses with ownerRevoked := true }
          else { s.boot.fuses with rootRevoked := s.boot.fuses.rootRevoked ||| BitVec.ofNat 4 (2 ^ i) })) := by
  obtain ⟨hboot, hrig⟩ := bootWritten_keeps v s
  refine ⟨fun hown => leaves_of_write rfl (write_bootRevoke hm hi hv) ?_,
    fun hslot hen ⟨k, hk, hki, huse⟩ => leaves_of_write rfl (write_bootRevoke hm hi hv) ?_⟩
  · simp [revokeSlot, hboot, hrig, hst, hnot, bootResult, hown]
  · have hother : [0, 1, 2, 3, 4].any (fun k => k != i && slotUsable s.boot.fuses k) = true := by
      rw [List.any_eq_true]
      exact ⟨k, by interval_cases k <;> decide, by simp [hki, huse]⟩
    have hfour : (i == 4 && !s.boot.fuses.enrolled) = false := by
      by_cases h4 : i = 4 <;> simp [h4, hen]
    have hown : (i == s.rig.slot) = false := by simpa using hslot
    simp only [revokeSlot, hboot, hrig, hst, hnot, hother, hfour, hown]
    simp [bootResult]

theorem lockDebug_row (hm : mayWrite m .BOOT_CTRL 0 s) :
    (v = 0x60000000 → leaves (.lockDebug m v) s (fun t => t.boot.fuses = s.boot.fuses ∧ t.boot.result = 2)) ∧
    (v = 0x20000000 → leaves (.lockDebug m v) s (fun t =>
      t.boot.fuses = { s.boot.fuses with debugLocked := true } ∧ t.boot.result = 1)) := by
  obtain ⟨hboot, -⟩ := bootWritten_keeps v s
  refine ⟨fun hv => leaves_of_write rfl (t := bootResult 2 (bootWritten v s)) ?_ ?_,
    fun hv => leaves_of_write rfl (t := bootResult 1 { bootWritten v s with boot :=
       { (bootWritten v s).boot with fuses := { (bootWritten v s).boot.fuses with debugLocked := true } } }) ?_ ?_⟩
  · have h31 : bitsOf v.toNat 31 31 = 0 := by rw [hv]; decide
    have h30 : bitsOf v.toNat 30 30 = 1 := by rw [hv]; decide
    have h29 : bitsOf v.toNat 29 29 = 1 := by rw [hv]; decide
    simp [write_bootCtrl hm, h31, h30, h29]
  · simp [bootResult, hboot]
  · have h31 : bitsOf v.toNat 31 31 = 0 := by rw [hv]; decide
    have h30 : bitsOf v.toNat 30 30 = 0 := by rw [hv]; decide
    have h29 : bitsOf v.toNat 29 29 = 1 := by rw [hv]; decide
    simp [write_bootCtrl hm, h31, h30, h29]
  · simp [bootResult, hboot]

/-! ### Attestation (R355) -/

theorem attestRequest_busy {u : State} (h : u.boot.busy = true) : attestRequest u = u := by
  simp [attestRequest, h]

theorem attestRequest_latched {u : State} (h1 : u.boot.stage ≠ .supply) (h2 : u.boot.stage ≠ .fuses) (h3 : u.boot.stage ≠ .rom)
    (hb : u.boot.busy = false) (hid : u.boot.idOk = true) :
    attestRequest u = { u with boot := { u.boot with busy := true, ready := false, latch := reportHead u } } := by
  simp [attestRequest, h1, h2, h3, hb, hid]

theorem attestRequest_noKey {u : State} (h1 : u.boot.stage ≠ .supply) (h2 : u.boot.stage ≠ .fuses) (h3 : u.boot.stage ≠ .rom)
    (hb : u.boot.busy = false) (hid : u.boot.idOk = false) :
    (attestRequest u).boot = { u.boot with attResult := 2 } := by
  simp [attestRequest, h1, h2, h3, hb, hid]

theorem reportHead_magic (u : State) : (reportHead u).take 4 = [0x41, 0x54, 0x54, 0x52] := by simp [reportHead]

theorem attestRequest_row (hm : mayWrite m .BOOT_ATT_CTRL 0 s) (hv : v = 0x80000000) (h1 : s.boot.stage ≠ .supply)
    (h2 : s.boot.stage ≠ .fuses) (h3 : s.boot.stage ≠ .rom) :
    (s.boot.busy = true → leaves (.attestRequest m v) s (fun t => t.boot = s.boot)) ∧
    (s.boot.busy = false → s.boot.idOk = true → leaves (.attestRequest m v) s (fun t =>
      t.boot.busy = true ∧ t.boot.ready = false ∧ t.boot.latch.take 4 = [0x41, 0x54, 0x54, 0x52])) ∧
    (s.boot.busy = false → s.boot.idOk = false → leaves (.attestRequest m v) s (fun t =>
      t.boot = { s.boot with attResult := 2 })) := by
  have hbit : bitsOf v.toNat 31 31 = 1 := by rw [hv]; decide
  have hw : writeBy m (RegId.addr .BOOT_ATT_CTRL) v.toNat s =
      attestRequest (fset .BOOT_ATT_CTRL_request 0 (plainWrite (RegId.addr .BOOT_ATT_CTRL) v.toNat s)) :=
    (write_single hm ⟨by decide, by decide⟩ (by decide) rfl rfl).trans (if_pos hbit)
  have hboot : (fset .BOOT_ATT_CTRL_request 0 (plainWrite (RegId.addr .BOOT_ATT_CTRL) v.toNat s)).boot = s.boot := by
    simpa using (plainWrite_keeps (RegId.addr .BOOT_ATT_CTRL) v.toNat s).2.2.2.2.2.2.2.1
  revert hw hboot
  generalize fset .BOOT_ATT_CTRL_request 0 (plainWrite (RegId.addr .BOOT_ATT_CTRL) v.toNat s) = u
  intro hw hboot
  rw [← hboot] at h1 h2 h3
  refine ⟨fun hb => leaves_of_write rfl hw ?_, fun hb hid => leaves_of_write rfl hw ?_, fun hb hid => leaves_of_write rfl hw ?_⟩
  · rw [attestRequest_busy (hboot ▸ hb), hboot]
  · rw [attestRequest_latched h1 h2 h3 (hboot ▸ hb) (hboot ▸ hid)]
    exact ⟨rfl, rfl, reportHead_magic u⟩
  · rw [attestRequest_noKey h1 h2 h3 (hboot ▸ hb) (hboot ▸ hid), hboot]

/-! ### Lanes (R104) -/

/-- A faulted lane restarted: idle and empty, its fault records gone, its data memory zero (R79, R104). -/
theorem restartFaulted_spec {l : Nat} (hl : l < 128) (hf : (laneAt s l).st = .faulted) :
    (laneAt (restartFaulted l s) l).st = .idle ∧ (laneAt (restartFaulted l s) l).list = [] ∧
    (laneAt (restartFaulted l s) l).word = none ∧
    regWord (restartFaulted l s) (RegId.addr .LAN_FAULT l) = 0 ∧
    regWord (restartFaulted l s) (RegId.addr .LAN_FAULT_ADDR l) = 0 ∧
    ∀ p, Memory.read (restartFaulted l s).mem p =
      if laneBase l ≤ p ∧ p < laneBase l + 0x80000 then 0 else Memory.read s.mem p := by
  have hregs : ∀ (x : Lane) (u : State) (a : Nat), regWord (putLane l x u) a = regWord u a := fun x u a => by
    simp only [regWord, putLane_frame]
  have hne : RegId.addr .LAN_FAULT_ADDR l ≠ RegId.addr .LAN_FAULT l :=
    addr_ne (by decide) (hl.trans_le (by decide)) (by decide) (hl.trans_le (by decide)) (by decide)
  rw [restartFaulted]
  dsimp only
  rw [if_pos hf]
  refine ⟨by simp, by simp, by simp, ?_, ?_, fun p => ?_⟩
  · rw [hregs, regWord_setWord_same, Nat.zero_mod]
  · rw [hregs, regWord_setWord_other _ _ hne, regWord_setWord_same, Nat.zero_mod]
  · simp only [putLane_frame, setWord_frame, clearRange]
    split
    · next h => exact Memory.read_clear_inside _ _ _ h.1 h.2
    · next h => exact Memory.read_clear_outside _ _ _ (by omega)

theorem laneRestart_row {l : Fin 128} (hm : mayWrite m .LAN_CTRL l s) (hv : v = 1) :
    ((laneAt s l).st = .faulted → leaves (.laneRestart m l v) s (fun t =>
      (laneAt t l).st = .idle ∧ (laneAt t l).list = [] ∧ (laneAt t l).word = none ∧
      regWord t (RegId.addr .LAN_FAULT l) = 0 ∧ regWord t (RegId.addr .LAN_FAULT_ADDR l) = 0 ∧
      (∀ p, Memory.read t.mem p =
        if laneBase l ≤ p ∧ p < laneBase l + 0x80000 then 0 else Memory.read s.mem p))) ∧
    ((laneAt s l).st ≠ .faulted → leaves (.laneRestart m l v) s (fun t => t = s)) := by
  have hat : regAt (RegId.addr .LAN_CTRL l) = some (RegId.LAN_CTRL, l.val, 0) :=
    regAt_addr .LAN_CTRL (l.isLt.trans_le (by decide)) (by decide)
  have haddr : RegId.addr .LAN_CTRL l / 65536 % 256 = l := by
    have h : ∀ l : Fin 128, RegId.addr .LAN_CTRL l / 65536 % 256 = l := by decide +kernel
    exact h l
  have hwrite : (laneAt s l).st ≠ .notRigged → writeBy m (RegId.addr .LAN_CTRL l) v.toNat s = restartFaulted l s := by
    intro hr
    have hwin : unriggedWindow s (RegId.addr .LAN_CTRL l) = false := by
      simp [unriggedWindow, haddr, hr]
    rw [writeBy_taken hm hat hwin rfl rfl, plainWrite_of_wo hat rfl rfl]
    exact if_pos (by rw [hv]; decide)
  refine ⟨fun hf => leaves_of_write rfl (hwrite (by rw [hf]; decide)) (restartFaulted_spec l.isLt hf), fun hf => ?_⟩
  by_cases hr : (laneAt s l).st = .notRigged
  · refine leaves_of_write rfl (t := s) ?_ rfl
    have hwin : unriggedWindow s (RegId.addr .LAN_CTRL l) = true := by
      have hlow : ∀ l : Fin 128, 0x1000000 ≤ RegId.addr .LAN_CTRL l ∧ RegId.addr .LAN_CTRL l < 0x1800000 := by decide +kernel
      simp [unriggedWindow, haddr, hr, hlow l]
    unfold writeBy
    split
    · rfl
    · rw [if_pos hm.2, writeReg, hat]
      simp [hwin]
  · refine leaves_of_write rfl (hwrite hr) ?_
    rw [restartFaulted]
    exact if_neg hf

end

/-- Settles O29: each command is one write of its register, whose action bits the row's own effect answers. -/
theorem loaderFuseAndLaneCommands : Obligations.LoaderFuseAndLaneCommands := by
  unfold Obligations.LoaderFuseAndLaneCommands
  intro m v s
  refine ⟨fun hm => ⟨rigStart_row hm, rigAbort_row hm, rigRollbackCommit_row hm⟩, rigData_row, fun hm => ?_,
    attestRequest_row, fun l => laneRestart_row⟩
  exact ⟨fun hv => (ownerEnrol_row hm hv).1, fun hv => (ownerEnrol_row hm hv).2, fun i => keyRevoke_row hm,
    (lockDebug_row hm).1, (lockDebug_row hm).2⟩

end Sys2Proof.Proofs.LoaderCommands
end

section
/-! PROOF. The canceller's rows: placement and release of windows, hangover, divergence and tone disable (R111 to R113,
R117, R120, R121, R125). -/

namespace Sys2Proof.Proofs.Canceller

open Sys2Proof Sys2Proof.Machine Sys2Proof.Spec Sys2Proof.Proofs.Effects Sys2Proof.Proofs.Commands

/-! ### A channel that stands, changed -/

section

variable {n : Nat} {c : Channel} {s : State}

theorem tget?_modChan_of_some (h : tget? s.chans n = some c) (f : Channel → Channel) :
    tget? (modChan n f s).chans n = some (f c) := by
  rw [modChan_of_some h, tget?_tset_same]

theorem chanAt_modChan (h : tget? s.chans n = some c) (f : Channel → Channel) : chanAt (modChan n f s) n = f c :=
  chanAt_of_some (tget?_modChan_of_some h f)

theorem ecAt_of_some (h : tget? s.chans n = some c) : ecAt s n = c.ec := by rw [ecAt, chanAt_of_some h]

theorem tget?_modEc_of_some (h : tget? s.chans n = some c) (f : Ec → Ec) :
    tget? (modEc n f s).chans n = some { c with ec := f c.ec } := tget?_modChan_of_some h _

/-- A change of the canceller alone is a change of its channel alone. -/
theorem modEc_of_some (h : tget? s.chans n = some c) (f : Ec → Ec) :
    (Host.Outcome.next (modEc n f s) : Host.Outcome State Fault Refusal) = channelBecomes n { c with ec := f c.ec } s := by
  rw [modEc, modChan_of_some h]
  rfl

theorem satTo_le (m k : Nat) : satTo m k ≤ m := by
  unfold satTo
  split <;> omega

/-- A channel's statistic one higher. -/
theorem statBump_spec (h : tget? s.chans n = some c) (id : Nat) : ∃ st : Tab (BitVec 32),
    tget? (statBump n id 1 s).chans n = some { c with stats := st } ∧
    statOf { c with stats := st } id = satTo 0xFFFFFFFF (statOf c id + 1) := by
  refine ⟨_, tget?_modChan_of_some h _, ?_⟩
  rw [statOf, tget_tset_same, BitVec.toNat_ofNat]
  exact Nat.mod_eq_of_lt (Nat.lt_of_le_of_lt (satTo_le ..) (by decide))

/-- A change of the canceller that a statistic counts and an event reports. -/
theorem reported_modEc (h : tget? s.chans n = some c) (f : Ec → Ec) (id src : Nat) (l : List (Nat × Nat)) :
    let t := raise src l (statBump n id 1 (modEc n f s))
    ecAt t n = f c.ec ∧ statCounted s t n id ∧ t.sess = s.sess ∧ t.mem = s.mem := by
  intro t
  obtain ⟨st, hst, hcount⟩ := statBump_spec (tget?_modEc_of_some h f) id
  have hchan : tget? t.chans n = some { c with ec := f c.ec, stats := st } := by
    simpa only [t, raise_frame] using hst
  refine ⟨ecAt_of_some hchan, ?_, by simp [t, statBump, modEc], by simp [t, statBump, modEc]⟩
  rw [statCounted, chanAt_of_some hchan, hcount, chanAt_of_some h]
  rfl

/-- A change of the canceller that a statistic counts. -/
theorem counted_modEc (h : tget? s.chans n = some c) (f : Ec → Ec) (id : Nat) :
    ecAt (statBump n id 1 (modEc n f s)) n = f c.ec ∧ statCounted s (statBump n id 1 (modEc n f s)) n id := by
  obtain ⟨hec, hcount, -, -⟩ := reported_modEc h f id 0 []
  simp only [ecAt, statCounted, chanAt, raise_frame] at hec hcount
  exact ⟨hec, hcount⟩

end

/-! ### Placement (R111, R112, R113) -/

section

variable {n : Nat} {c : Channel} {s : State} {k : Candidate}

/-- The start of a window for a candidate: 2 ms before it, within the tail (R111). -/
def windowStart (s : State) (n : Nat) (k : Candidate) : Nat :=
  if ecTail s n < k.lag - 2 + 16 then ecTail s n - 16 else k.lag - 2

/-- A window of 16 ms placed for a candidate: no window merged, with the taps given. -/
def placedWindow (s : State) (n : Nat) (k : Candidate) (taps : List (BitVec 32)) : Window :=
  { startMs := windowStart s n k, lenMs := 16, units := 1, peak := k.rho, taps := taps }

/-- What stands after a candidate was placed into the windows `ws` with merging off. -/
def placed (n : Nat) (k : Candidate) (taps : List (BitVec 32)) (ws : List Window) (s : State) : State :=
  statBump n 0x028B 1 (modEc n (fun e => { e with
    windows := insertWindow (placedWindow s n k taps) ws, cands := e.cands.filter (fun x => x.lag != k.lag) }) s)

theorem span_nothing (f start len : Nat) : (Window.span f {} start len).taps = List.replicate (len * f) 0 := by
  have hcov : ∀ lag, ({} : Window).covers lag = false := fun lag => by simp [Window.covers]
  have hflat : ∀ m, (List.range m).flatMap (fun _ => List.replicate f (0 : BitVec 32)) = List.replicate (m * f) 0 := by
    intro m
    induction m with
    | zero => simp
    | succ m ih => rw [List.range_succ, List.flatMap_append, ih]; simp [Nat.succ_mul]
  simp only [Window.span, hcov, Bool.false_eq_true, if_false, hflat]

/-- Where a unit is free a candidate takes a new window. -/
theorem takeCandidate_free (hm : chanParam s n 0x0204 = 0) (hfree : unitsUsed (ecAt s n).windows < chanParam s n 0x0203) :
    takeCandidate n k s = placed n k (List.replicate (16 * ecRate s n) 0) (ecAt s n).windows s := by
  simp only [takeCandidate, if_pos hfree, hm, addWindow, span_nothing]
  rfl

/-- With no unit free a candidate replaces the one window of at most half its correlation. -/
theorem takeCandidate_replaces {x : Window} (hm : chanParam s n 0x0204 = 0) (hw : (ecAt s n).windows = [x])
    (hfull : chanParam s n 0x0203 ≤ unitsUsed [x]) (hrho : 2 * x.peak ≤ k.rho) :
    takeCandidate n k s = placed n k (x.span (ecRate s n) (windowStart s n k) 16).taps [] s := by
  have hrest : [x].filter (fun y => y.startMs != x.startMs) = [] := by simp
  simp only [takeCandidate, hw, if_neg (not_lt.2 hfull), hm, weakest, List.foldl, if_pos hrho, hrest, addWindow]
  rfl

theorem weakest_mem {ws : List Window} {x : Window} (h : weakest ws = some x) : x ∈ ws := by
  have hfold : ∀ (l : List Window) (b : Option Window), (l.foldl (fun b w => match b with
      | none => some w
      | some x => if w.peak < x.peak then some w else b) b) = some x → b = some x ∨ x ∈ l := by
    intro l
    induction l with
    | nil => exact fun b hb => .inl hb
    | cons w l ih =>
      intro b hb
      rcases ih _ hb with hw | hl
      · cases b with
        | none => exact .inr (by rw [← Option.some.inj hw]; exact List.mem_cons_self)
        | some y =>
          dsimp only at hw
          split at hw
          · exact .inr (by rw [← Option.some.inj hw]; exact List.mem_cons_self)
          · exact .inl hw
      · exact .inr (List.mem_cons_of_mem _ hl)
  exact (hfold ws none h).resolve_left (by simp)

/-- A candidate weaker than twice every window waits. -/
theorem takeCandidate_waits (hfull : chanParam s n 0x0203 ≤ unitsUsed (ecAt s n).windows)
    (hweak : ∀ w ∈ (ecAt s n).windows, k.rho < 2 * w.peak) : takeCandidate n k s = s := by
  simp only [takeCandidate, if_neg (not_lt.2 hfull)]
  split
  · rfl
  · next x hx => exact if_neg (not_le.2 (hweak x (weakest_mem hx)))

theorem placed_spec (h : tget? s.chans n = some c) (hk : c.ec.cands = [k]) (taps : List (BitVec 32)) (ws : List Window) :
    (ecAt (placed n k taps ws s) n).cands = [] ∧ statCounted s (placed n k taps ws s) n 0x028B ∧
    (ecAt (placed n k taps ws s) n).windows = insertWindow (placedWindow s n k taps) ws := by
  obtain ⟨hec, hcount⟩ := counted_modEc h (fun e => { e with
    windows := insertWindow (placedWindow s n k taps) ws, cands := e.cands.filter (fun x => x.lag != k.lag) }) 0x028B
  rw [placed, hec]
  exact ⟨by simp [hk], hcount, rfl⟩

/-- Placement of the candidates that have come of age, in their order. -/
theorem exec_placement_off {ch : BitVec 13} (h : ecMoves s ch.toNat = false) : exec (.windowPlacement ch) s = .next s := by
  change execWindowPlacement ch s = _
  rw [execWindowPlacement]
  dsimp only
  rw [h, if_neg Bool.false_ne_true]

theorem exec_placement_young {ch : BitVec 13} (h : ecMoves s ch.toNat = true)
    (hk : ∀ k ∈ (ecAt s ch.toNat).cands, k.age < chanParam s ch.toNat 0x020E) :
    exec (.windowPlacement ch) s = .next s := by
  have hnone : (ecAt s ch.toNat).cands.filter (fun k => decide (chanParam s ch.toNat 0x020E ≤ k.age)) = [] := by
    rw [List.filter_eq_nil_iff]
    exact fun k hmem => by simpa using hk k hmem
  change execWindowPlacement ch s = _
  rw [execWindowPlacement]
  dsimp only
  rw [if_pos h, hnone]
  rfl

theorem exec_placement_one {ch : BitVec 13} (h : ecMoves s ch.toNat = true) (hk : (ecAt s ch.toNat).cands = [k])
    (hage : chanParam s ch.toNat 0x020E ≤ k.age) (hcov : ∀ w ∈ (ecAt s ch.toNat).windows, w.covers k.lag = false) :
    exec (.windowPlacement ch) s = .next (takeCandidate ch.toNat k s) := by
  have hdue : (ecAt s ch.toNat).cands.filter (fun k => decide (chanParam s ch.toNat 0x020E ≤ k.age)) = [k] := by
    simp [hk, hage]
  have hopen : (ecAt s ch.toNat).windows.any (fun w => w.covers k.lag) = false := by
    rw [List.any_eq_false]
    exact fun w hw => by rw [hcov w hw]; exact Bool.false_ne_true
  change execWindowPlacement ch s = _
  rw [execWindowPlacement]
  dsimp only
  rw [if_pos h, hdue]
  simp only [List.foldl, insertCandidate, hopen, Bool.false_eq_true, if_false]

end

/-! ### The rows together (O30) -/

section

variable {ch : BitVec 13} {c : Channel} {s : State}

theorem exec_release_off (h : ecMoves s ch.toNat = false) : exec (.windowRelease ch) s = .next s := by
  change execWindowRelease ch s = _
  rw [execWindowRelease, h, if_neg Bool.false_ne_true]

theorem exec_release (hc : tget? s.chans ch.toNat = some c) (h : ecMoves s ch.toNat = true) :
    exec (.windowRelease ch) s = channelBecomes ch.toNat { c with ec := { c.ec with
      windows := c.ec.windows.filter (fun w => decide (w.weak < chanParam s ch.toNat 0x020F)) } } s := by
  change execWindowRelease ch s = _
  rw [execWindowRelease]
  dsimp only
  rw [if_pos h]
  exact modEc_of_some hc _

theorem hangoverEnd_row (hc : tget? s.chans ch.toNat = some c) :
    (c.ec.hangover = 0 →
      exec (.dtdHangoverEnd ch) s = channelBecomes ch.toNat { c with ec := { c.ec with dtNow := false } } s) ∧
    (c.ec.hangover ≠ 0 → exec (.dtdHangoverEnd ch) s = .next s) := by
  have hexec : exec (.dtdHangoverEnd ch) s =
      .next (if c.ec.hangover = 0 then modEc ch.toNat (fun e => { e with dtNow := false }) s else s) := by
    rw [← ecAt_of_some hc]
    rfl
  refine ⟨fun h => ?_, fun h => ?_⟩
  · rw [hexec, if_pos h]
    exact modEc_of_some hc _
  · rw [hexec, if_neg h]

/-- Every tap of every window zero (R120). -/
def zeroedTaps (e : Ec) : Ec := { e with windows := e.windows.map (fun w => { w with taps := w.taps.map (fun _ => 0) }) }

theorem zeroTaps_eq (n : Nat) (s : State) : zeroTaps n s = modEc n zeroedTaps s := rfl

theorem divergenceReset_row (hc : tget? s.chans ch.toNat = some c) :
    (c.ec.diverge < 64 → exec (.divergenceReset ch) s = .next s) ∧
    (64 ≤ c.ec.diverge → leaves (.divergenceReset ch) s (fun t => (ecAt t ch.toNat).diverge = 0 ∧
      statCounted s t ch.toNat 0x028E ∧
      (ecAt t ch.toNat).windows = c.ec.windows.map (fun w => { w with taps := w.taps.map (fun _ => 0) }) ∧
      t.sess = s.sess ∧ t.mem = s.mem)) := by
  refine ⟨fun h => ?_, fun h => ?_⟩
  · change execDivergenceReset ch s = _
    rw [execDivergenceReset]
    dsimp only
    rw [if_neg (by rw [ecAt_of_some hc]; omega)]
  · obtain ⟨l, hexec⟩ : ∃ l, exec (.divergenceReset ch) s = .next (raise 162 l (statBump ch.toNat 0x028E 1
        (modEc ch.toNat (fun e => { e with diverge := 0 }) (zeroTaps ch.toNat s)))) :=
      ⟨_, congrArg Host.Outcome.next (if_pos (by rw [ecAt_of_some hc]; exact h))⟩
    have hzero := tget?_modEc_of_some hc zeroedTaps
    obtain ⟨hec, hcount, hsess, hmem⟩ := reported_modEc (s := zeroTaps ch.toNat s) hzero (fun e => { e with diverge := 0 })
      0x028E 162 l
    refine ⟨_, hexec, congrArg Ec.diverge hec, ?_, congrArg Ec.windows hec, hsess.trans ?_, hmem.trans ?_⟩
    · rw [statCounted, chanAt_of_some hc]
      rw [statCounted, zeroTaps_eq, chanAt_of_some hzero] at hcount
      exact hcount
    · simp [zeroTaps, modEc]
    · simp [zeroTaps, modEc]

theorem toneDisableEnter_row (hc : tget? s.chans ch.toNat = some c) :
    (c.ec.toneSeen = none → exec (.toneDisableEnter ch) s = .next s) ∧
    (c.ec.toneSeen.isSome = true → c.ec.toneDisabled = true →
      exec (.toneDisableEnter ch) s = channelBecomes ch.toNat { c with ec := { c.ec with toneSeen := none } } s) ∧
    (c.ec.toneSeen.isSome = true → c.ec.toneDisabled = false → leaves (.toneDisableEnter ch) s (fun t =>
      statCounted s t ch.toNat 0x028C ∧ t.sess = s.sess ∧
      ecAt t ch.toNat = { c.ec with toneSeen := none, toneDisabled := true, quiet := 0 })) := by
  have hec := ecAt_of_some hc
  have hexec : exec (.toneDisableEnter ch) s = execToneDisableEnter ch s := rfl
  refine ⟨fun h => ?_, fun h hd => ?_, fun h hd => ?_⟩
  · simp only [hexec, execToneDisableEnter, hec, h]
  · obtain ⟨⟨far, alone⟩, hseen⟩ := Option.isSome_iff_exists.1 h
    have hnext : exec (.toneDisableEnter ch) s = .next (modEc ch.toNat (fun e => { e with toneSeen := none }) s) := by
      simp only [hexec, execToneDisableEnter, hec, hseen, hd, if_true]
    exact hnext.trans (modEc_of_some hc _)
  · obtain ⟨⟨far, alone⟩, hseen⟩ := Option.isSome_iff_exists.1 h
    simp only [leaves, hexec, execToneDisableEnter, hec, hseen, hd, Bool.false_eq_true, if_false]
    obtain ⟨hnew, hcount, hsess, -⟩ := reported_modEc hc (fun e => { e with toneSeen := none, toneDisabled := true, quiet := 0 })
      0x028C 161 [(2, ch.toNat), (1, if far then 1 else 0), (1, if alone then 1 else 0)]
    exact ⟨_, rfl, hcount, hsess, hnew⟩

theorem toneDisableExit_row (hc : tget? s.chans ch.toNat = some c) :
    (c.ec.toneDisabled = true → 250 ≤ c.ec.quiet → exec (.toneDisableExit ch) s =
      channelBecomes ch.toNat { c with ec := { c.ec with toneDisabled := false, toneSeen := none } } s) ∧
    (c.ec.toneDisabled = false ∨ c.ec.quiet < 250 → exec (.toneDisableExit ch) s = .next s) := by
  have hexec : exec (.toneDisableExit ch) s = .next (if c.ec.toneDisabled && decide (250 ≤ c.ec.quiet) then
      modEc ch.toNat (fun e => { e with toneDisabled := false, toneSeen := none }) s else s) := by
    rw [← ecAt_of_some hc]
    rfl
  refine ⟨fun hd hq => ?_, fun h => ?_⟩
  · rw [hexec, hd, decide_eq_true hq, Bool.and_true, if_pos rfl]
    exact modEc_of_some hc _
  · rw [hexec, if_neg]
    rintro hb
    rw [Bool.and_eq_true, decide_eq_true_eq] at hb
    rcases h with h | h
    · exact Bool.false_ne_true (h.symm.trans hb.1)
    · omega

theorem placement_row (hc : tget? s.chans ch.toNat = some c) (hmoves : ecMoves s ch.toNat = true) {k : Candidate}
    (hk : c.ec.cands = [k]) (hage : chanParam s ch.toNat 0x020E ≤ k.age) (hcov : ∀ w ∈ c.ec.windows, w.covers k.lag = false) :
    (unitsUsed c.ec.windows < chanParam s ch.toNat 0x0203 → chanParam s ch.toNat 0x0204 = 0 →
      leaves (.windowPlacement ch) s (fun t => (ecAt t ch.toNat).cands = [] ∧ statCounted s t ch.toNat 0x028B ∧
        (ecAt t ch.toNat).windows = insertWindow
          (placedWindow s ch.toNat k (List.replicate (16 * ecRate s ch.toNat) 0)) c.ec.windows)) ∧
    (∀ x, c.ec.windows = [x] → chanParam s ch.toNat 0x0203 ≤ unitsUsed [x] → 2 * x.peak ≤ k.rho →
      chanParam s ch.toNat 0x0204 = 0 →
      leaves (.windowPlacement ch) s (fun t => (ecAt t ch.toNat).cands = [] ∧ statCounted s t ch.toNat 0x028B ∧
        (ecAt t ch.toNat).windows =
          [placedWindow s ch.toNat k (x.span (ecRate s ch.toNat) (windowStart s ch.toNat k) 16).taps])) ∧
    (chanParam s ch.toNat 0x0203 ≤ unitsUsed c.ec.windows → (∀ w ∈ c.ec.windows, k.rho < 2 * w.peak) →
      exec (.windowPlacement ch) s = .next s) := by
  have hec := ecAt_of_some hc
  have hexec := exec_placement_one hmoves (hec ▸ hk) hage (hec ▸ hcov)
  refine ⟨fun hfree hm => ⟨_, hexec, ?_⟩, fun x hx hfull hrho hm => ⟨_, hexec, ?_⟩, fun hfull hweak => ?_⟩
  · have hplaced := placed_spec hc hk (List.replicate (16 * ecRate s ch.toNat) 0) c.ec.windows
    rw [takeCandidate_free hm (hec ▸ hfree), hec]
    exact hplaced
  · have hplaced := placed_spec hc hk (x.span (ecRate s ch.toNat) (windowStart s ch.toNat k) 16).taps []
    rw [takeCandidate_replaces hm (hec ▸ hx) hfull hrho]
    exact hplaced
  · rw [hexec, takeCandidate_waits (hec ▸ hfull) (hec ▸ hweak)]

end

/-- Settles O30: each row is a change of its channel's canceller, by the condition that R111 to R125 give. -/
theorem cancellerRowsActOnTheirChannel : Obligations.CancellerRowsActOnTheirChannel := by
  unfold Obligations.CancellerRowsActOnTheirChannel
  intro ch s c hc n e
  have hec : ecAt s n = e := ecAt_of_some hc
  refine ⟨fun h => ⟨exec_placement_off h, exec_release_off h⟩, fun h => ⟨fun hk => exec_placement_young h (hec ▸ hk),
    fun k hk hage hcov => placement_row hc h hk hage hcov, exec_release hc h⟩, (hangoverEnd_row hc).1, (hangoverEnd_row hc).2,
    (divergenceReset_row hc).1, (divergenceReset_row hc).2, (toneDisableEnter_row hc).1, (toneDisableEnter_row hc).2.1,
    (toneDisableEnter_row hc).2.2, (toneDisableExit_row hc).1, (toneDisableExit_row hc).2⟩

end Sys2Proof.Proofs.Canceller
end

section
/-! PROOF. The rows at which something of a channel ends or its tick is worked (R42, R139, R144, R149, R152, R153, R156,
R180). -/

namespace Sys2Proof.Proofs.ChannelRows

open Sys2Proof Sys2Proof.Machine Sys2Proof.Spec Sys2Proof.Proofs.Effects Sys2Proof.Proofs.Commands
  Sys2Proof.Proofs.Admission Sys2Proof.Proofs.Canceller

/-! ### The two legs of a channel -/

/-- The number of a leg: 0 for A, 1 for B. -/
def legNo (leg : Bool) : Nat := if leg then 1 else 0

section

variable {n l : Nat} {c : Channel} {s : State}

theorem leg_withLeg_same (c : Channel) (l : Nat) (f : Leg → Leg) : (c.withLeg l f).leg l = f (c.leg l) := by
  unfold Channel.withLeg Channel.leg
  split <;> rfl

theorem leg_withLeg_other (c : Channel) (leg : Bool) (f : Leg → Leg) :
    (c.withLeg (legNo leg) f).leg (1 - legNo leg) = c.leg (1 - legNo leg) := by
  cases leg <;> rfl

theorem leg_withLeg_back (c : Channel) (leg : Bool) (f : Leg → Leg) :
    (c.withLeg (1 - legNo leg) f).leg (legNo leg) = c.leg (legNo leg) := by
  cases leg <;> rfl

theorem legAt_of_some (h : tget? s.chans n = some c) (l : Nat) : legAt s n l = c.leg l := by rw [legAt, chanAt_of_some h]

theorem roomAt_of_some (h : tget? s.chans n = some c) (l : Nat) : roomAt s n l = (c.leg l).room := by
  rw [roomAt, legAt_of_some h]

theorem tget?_modLeg_of_some (h : tget? s.chans n = some c) (l : Nat) (f : Leg → Leg) :
    tget? (modLeg n l f s).chans n = some (c.withLeg l f) := tget?_modChan_of_some h _

/-- A change of one leg alone is a change of its channel alone. -/
theorem modLeg_of_some (h : tget? s.chans n = some c) (l : Nat) (f : Leg → Leg) :
    (Host.Outcome.next (modLeg n l f s) : Host.Outcome State Fault Refusal) = channelBecomes n (c.withLeg l f) s := by
  rw [modLeg, modChan_of_some h]
  rfl

theorem withLeg_congr (c : Channel) (l : Nat) {f g : Leg → Leg} (h : f (c.leg l) = g (c.leg l)) :
    c.withLeg l f = c.withLeg l g := by
  unfold Channel.withLeg Channel.leg at *
  split <;> simp_all

end

/-! ### Mutes and generators (R144, R149, R153) -/

section

variable {ch : BitVec 13} {leg : Bool} {c : Channel} {s : State}

theorem muteLift_row (hc : tget? s.chans ch.toNat = some c) :
    let o := legNo leg
    let tone := (c.leg (1 - o)).detTone
    (∀ t0, (c.leg o).mute = some t0 → t0 + 40 ≤ workTick s → tone = 0 ∨ 0x10 < tone →
      leaves (.muteLift ch leg) s (fun t => legAt t ch.toNat o = { c.leg o with mute := none, muteOver := true } ∧
        statCounted s t ch.toNat 0x03A6 ∧ legAt t ch.toNat (1 - o) = c.leg (1 - o))) ∧
    (∀ t0, (c.leg o).mute = some t0 → workTick s < t0 + 40 ∨ (tone ≠ 0 ∧ tone ≤ 0x10) →
      exec (.muteLift ch leg) s = .next s) ∧
    ((c.leg o).mute = none → exec (.muteLift ch leg) s = .next s) := by
  intro o tone
  have hexec : exec (.muteLift ch leg) s = .next (match (c.leg o).mute with
    | some t =>
      if t + 40 ≤ workTick s ∧ (tone = 0 ∨ 0x10 < tone) then
        statBump ch.toNat 0x03A6 1 (modLeg ch.toNat o (fun g => { g with mute := none, muteOver := true }) s)
      else s
    | none => s) := by
    rw [← legAt_of_some hc o, show tone = (legAt s ch.toNat (1 - o)).detTone by rw [legAt_of_some hc]]
    rfl
  refine ⟨fun t0 hm ht htone => ?_, fun t0 hm hno => ?_, fun hm => ?_⟩
  · obtain ⟨st, hst, hcount⟩ := statBump_spec
      (tget?_modLeg_of_some hc o (fun g => { g with mute := none, muteOver := true })) 0x03A6
    refine ⟨_, hexec.trans (congrArg Host.Outcome.next (by simp only [hm]; exact if_pos ⟨ht, htone⟩)), ?_, ?_, ?_⟩
    · exact (legAt_of_some hst o).trans (leg_withLeg_same ..)
    · rw [statCounted, chanAt_of_some hst, hcount, chanAt_of_some hc]
      rw [statOf, statOf]
      cases leg <;> rfl
    · exact (legAt_of_some hst (1 - o)).trans (leg_withLeg_other ..)
  · rw [hexec, hm]
    dsimp only
    rw [if_neg]
    omega
  · rw [hexec, hm]

/-- What an event's end leaves of a leg but for the event that it sends. -/
theorem endEvent_modLeg (n o dur : Nat) : ∃ f : Leg → Leg, (∀ g, (f g).gen = g.gen) ∧
    ∀ s, endEvent n o dur s = modLeg n o f s :=
  ⟨fun g => { g with evTx := g.evTx.map (fun e => if e.ended then e else { e with ended := true, dur := dur, since := 0 }) },
    fun _ => rfl, fun _ => rfl⟩

/-- A leg's event list without an event. -/
def withoutEvent (e : EvItem) (g : Leg) : Leg :=
  { g with room := { g.room with events := g.room.events.filter (fun x => x.pos != e.pos) } }

/-- A leg that has done with an event. -/
def eventIgnored (e : EvItem) (g : Leg) : Leg := { g with evRx := none, evIgnore := some e.pos }

theorem finishEvent_eq {n l : Nat} {e : EvItem} (h : ¬ ((legAt s n (1 - l)).gen.bind (fun g => g.event) = some e.pos)) :
    ∃ dur, finishEvent n l e s =
      modLeg n l (eventIgnored e) (endEvent n (1 - l) dur (modLeg n l (withoutEvent e) s)) :=
  ⟨_, if_neg h⟩

/-- The generator of a received event that is over stops, and the event leaves the list (R153). -/
theorem finishEvent_stopped {e : EvItem} (hc : tget? s.chans ch.toNat = some c) (hgen : (c.leg (legNo leg)).gen = none) :
    let t := finishEvent ch.toNat (1 - legNo leg) e s
    (legAt t ch.toNat (legNo leg)).gen = none ∧ (legAt t ch.toNat (1 - legNo leg)).evRx = none ∧
    (legAt t ch.toNat (1 - legNo leg)).evIgnore = some e.pos ∧
    (roomAt t ch.toNat (1 - legNo leg)).events = (c.leg (1 - legNo leg)).room.events.filter (fun x => x.pos != e.pos) := by
  have hback : 1 - (1 - legNo leg) = legNo leg := by cases leg <;> rfl
  have hne : ¬ ((legAt s ch.toNat (1 - (1 - legNo leg))).gen.bind (fun g => g.event) = some e.pos) := by
    rw [hback, legAt_of_some hc, hgen]
    exact fun h => nomatch h
  obtain ⟨dur, hfinish⟩ := finishEvent_eq hne
  obtain ⟨f, hf, hend⟩ := endEvent_modLeg ch.toNat (legNo leg) dur
  have h1 := tget?_modLeg_of_some hc (1 - legNo leg) (withoutEvent e)
  have h2 := tget?_modLeg_of_some h1 (legNo leg) f
  have h3 := tget?_modLeg_of_some h2 (1 - legNo leg) (eventIgnored e)
  intro t
  have ht : t = _ := hfinish
  rw [hback, hend] at ht
  rw [ht, roomAt, legAt_of_some h3, legAt_of_some h3, leg_withLeg_same, leg_withLeg_back, leg_withLeg_same, leg_withLeg_other,
    leg_withLeg_same, leg_withLeg_back, hf]
  exact ⟨hgen, rfl, rfl, rfl⟩

theorem generationEnd_row (hc : tget? s.chans ch.toNat = some c) {g : Gen} {e : EvItem}
    (hg : (c.leg (legNo leg)).gen = some g) (he : (c.leg (1 - legNo leg)).evRx = some e) :
    let o := legNo leg
    let n := ch.toNat
    (g.event = some e.pos → eventOver s n (1 - o) e = true → leaves (.eventGenerationEnd ch leg) s (fun t =>
      (legAt t n o).gen = none ∧ (legAt t n (1 - o)).evRx = none ∧ (legAt t n (1 - o)).evIgnore = some e.pos ∧
      (roomAt t n (1 - o)).events = (c.leg (1 - o)).room.events.filter (fun x => x.pos != e.pos))) ∧
    (g.event ≠ some e.pos ∨ eventOver s n (1 - o) e = false → exec (.eventGenerationEnd ch leg) s = .next s) ∧
    (g.left = some 0 →
      exec (.toneGenEnd ch leg) s = channelBecomes n (c.withLeg o (fun g => { g with gen := none })) s) := by
  intro o n
  have hexec : exec (.eventGenerationEnd ch leg) s = .next (match g.event with
    | some ts => if e.pos = ts ∧ eventOver s n (1 - o) e then
        finishEvent n (1 - o) e (modLeg n o (fun x => { x with gen := none }) s) else s
    | none => s) := by
    change execEventGenerationEnd ch leg s = _
    have hgen : (legAt s ch.toNat (legNo leg)).gen.bind (fun g => g.event) = g.event := by
      rw [legAt_of_some hc, hg]
      rfl
    have hev : (legAt s ch.toNat (1 - legNo leg)).evRx = some e := by rw [legAt_of_some hc, he]
    unfold legNo at hgen hev
    simp only [execEventGenerationEnd, hgen, hev]
    cases g.event <;> rfl
  refine ⟨fun hev hover => ⟨finishEvent n (1 - o) e (modLeg n o (fun x => { x with gen := none }) s), hexec.trans (congrArg Host.Outcome.next (by simp only [hev, hover, and_self, if_true])), ?_⟩,
    fun hno => ?_, fun hleft => ?_⟩
  · have hstop := finishEvent_stopped (leg := leg) (e := e) (tget?_modLeg_of_some hc o (fun x => { x with gen := none }))
      (by rw [leg_withLeg_same])
    rw [leg_withLeg_other] at hstop
    exact hstop
  · rw [hexec]
    split
    · next ts hts =>
      rw [if_neg]
      rintro ⟨hpos, hover⟩
      rcases hno with h | h
      · exact h (hts.trans (congrArg some hpos.symm))
      · exact Bool.false_ne_true (h.symm.trans hover)
    · rfl
  · change Host.Outcome.next (modLeg n o _ s) = _
    rw [modLeg_of_some hc, withLeg_congr]
    exact if_pos (by rw [hg]; exact congrArg some hleft)

/-! ### Reports (R139) -/

theorem sendLeg_chans (h source plus : Nat) (data : Bytes) (s : State) : (sendLeg h source plus data s).chans = s.chans := by
  simp [sendLeg]

/-- A report goes when its interval has passed, and sets the next one. -/
theorem rtcpReport_row (hc : tget? s.chans ch.toNat = some c) (hlive : c.live = true) (hkind : kindAt s ch.toNat (legNo leg) = 2)
    (hon : legParam s ch.toNat (legNo leg) 0x0308 = 1) :
    let n := ch.toNat
    let o := legNo leg
    (tickNow s < (c.leg o).rtcpAt → exec (.rtcpReport ch leg) s = .next s) ∧
    ((c.leg o).rtcpAt ≤ tickNow s → leaves (.rtcpReport ch leg) s (fun t =>
      let wait := legParam s n o 0x0309
      (legAt t n o).rtcpSent = false ∧ (legAt t n o).priorRx = (c.leg o).rxCount ∧
      tickNow s + wait * 500 / 1000 ≤ (legAt t n o).rtcpAt ∧ (legAt t n o).rtcpAt ≤ tickNow s + wait * 1500 / 1000)) := by
  intro n o
  have hexec : exec (.rtcpReport ch leg) s = .next (if (c.leg o).rtcpAt ≤ tickNow s then sendReport n o s else s) := by
    have hready : ((chanAt s n).live && kindAt s n o == 2 && legParam s n o 0x0308 == 1 &&
        decide ((legAt s n o).rtcpAt ≤ tickNow s)) = decide ((c.leg o).rtcpAt ≤ tickNow s) := by
      simp [chanAt_of_some hc, legAt_of_some hc, hlive, n, o, hkind, hon]
    change Host.Outcome.next (if ((chanAt s n).live && kindAt s n o == 2 && legParam s n o 0x0308 == 1 &&
      decide ((legAt s n o).rtcpAt ≤ tickNow s)) = true then sendReport n o s else s) = _
    rw [hready]
    simp only [decide_eq_true_eq]
  refine ⟨fun h => by rw [hexec, if_neg (not_le.2 h)], fun h => ⟨_, hexec.trans (congrArg Host.Outcome.next (if_pos h)), ?_⟩⟩
  have hsent : ∀ h a b d, tget? (sendLeg h a b d s).chans n = some c := fun h a b d => by rw [sendLeg_chans, hc]
  have hrand := Nat.mod_lt (Config.freeWord s.free).toNat (show 0 < 1001 by decide)
  dsimp only
  rw [sendReport, legAt_of_some (tget?_modLeg_of_some (hsent ..) ..), leg_withLeg_same]
  refine ⟨rfl, by rw [legAt_of_some hc], ?_, ?_⟩
  · refine Nat.add_le_add_left (Nat.div_le_div_right (Nat.mul_le_mul_left _ ?_)) _
    omega
  · refine Nat.add_le_add_left (Nat.div_le_div_right (Nat.mul_le_mul_left _ ?_)) _
    omega

end

/-! ### Adaptation windows (R180) -/

theorem insertSorted_perm (x : Int) (l : List Int) : (insertSorted x l).Perm (x :: l) := by
  induction l with
  | nil => exact .refl _
  | cons y t ih =>
    unfold insertSorted
    split
    · exact .refl _
    · exact (ih.cons y).trans (.swap ..)

/-- The slacks of a window, sorted. -/
theorem sortedSlacks_perm (l acc : List Int) : (l.foldl (fun l x => insertSorted x l) acc).Perm (l ++ acc) := by
  induction l generalizing acc with
  | nil => exact .refl _
  | cons x t ih => exact (ih _).trans (((insertSorted_perm x acc).append_left t).trans List.perm_middle)

/-- The slack that a window's decision rests on (R180). -/
def decisive (l : List Int) : Int := (l.foldl (fun l x => insertSorted x l) []).getD (l.length / 200) 0

theorem decisive_mem {l : List Int} (h : l ≠ []) : decisive l ∈ l := by
  have hp := sortedSlacks_perm l []
  rw [List.append_nil] at hp
  have hlen : l.length / 200 < (l.foldl (fun l x => insertSorted x l) []).length := by
    rw [hp.length_eq]
    exact Nat.div_lt_self (List.length_pos_iff.2 h) (by decide)
  rw [decisive, List.getD_eq_getElem _ _ hlen]
  exact hp.mem_iff.1 (List.getElem_mem hlen)

section

variable {n l : Nat} {c : Channel} {s : State}

/-- A leg's parameters stand as long as its channel's entries and the session table do. -/
theorem legParam_of_some {s t : State} {c d : Channel} (hs : t.sess = s.sess) (hc : tget? s.chans n = some c)
    (hd : tget? t.chans n = some d) (ha : d.acc = c.acc) (ho : d.oth = c.oth) (l id : Nat) : legParam t n l id = legParam s n l id := by
  simp only [legParam, entryAt, chanAt_of_some hc, chanAt_of_some hd, Channel.handle, ha, ho, sessAt, hs]

theorem limitTarget_within {t : Nat} (hlo : legParam s n l 0x0403 ≤ t) (hhi : t ≤ legParam s n l 0x0404) :
    limitTarget n l t s = (t, s) := by
  simp only [limitTarget, not_lt.2 hhi, false_and, if_false, max_eq_right hlo, min_eq_right hhi]

theorem raiseDelay_same {t : Nat} (h : (roomAt s n l).d = t) : raiseDelay n l t s = s := by
  simp [raiseDelay, h]

theorem lowerSeam_same {t tick : Nat} (h : (roomAt s n l).d = t) : lowerSeam n l tick t s = s := by
  simp [lowerSeam, h]

/-- A decision whose slack lies in its band keeps the delay in force. -/
theorem windowDecision_band (hc : tget? s.chans n = some c) (hne : (c.leg l).room.slacks ≠ [])
    (hband : ∀ x ∈ (c.leg l).room.slacks, (legParam s n l 0x0405 : Int) ≤ x ∧ x < (legParam s n l 0x0405 : Int) + 10)
    (hlo : legParam s n l 0x0403 ≤ (c.leg l).room.d) (hhi : (c.leg l).room.d ≤ legParam s n l 0x0404) :
    ∃ v, windowDecision n l s =
      modRoom n l (fun r => { r with target := (c.leg l).room.d }) (statSet n (roomBase l + 0x0E) v s) := by
  obtain ⟨hq1, hq2⟩ := hband _ (decisive_mem hne)
  have hstat : ∀ v, tget? (statSet n (roomBase l + 0x0E) v s).chans n = some { c with stats := tset c.stats (roomBase l + 0x0E) (BitVec.ofNat 32 v) } :=
    fun v => tget?_modChan_of_some hc _
  have hroom : ∀ v, (roomAt (modRoom n l (fun r => { r with target := (c.leg l).room.d }) (statSet n (roomBase l + 0x0E) v s)) n l).d =
      (c.leg l).room.d := by
    intro v
    rw [modRoom, roomAt_of_some (tget?_modLeg_of_some (hstat v) ..), leg_withLeg_same]
    rfl
  have hparam : ∀ v id, legParam (statSet n (roomBase l + 0x0E) v s) n l id = legParam s n l id := fun v id =>
    legParam_of_some (by simp) hc (hstat v) rfl rfl l id
  have hlimit : ∀ v, limitTarget n l (c.leg l).room.d (statSet n (roomBase l + 0x0E) v s) = ((c.leg l).room.d, _) := fun v =>
    limitTarget_within (by rw [hparam]; exact hlo) (by rw [hparam]; exact hhi)
  refine ⟨ofSigned 32 (decisive (c.leg l).room.slacks), ?_⟩
  unfold windowDecision
  dsimp only
  rw [roomAt_of_some hc, ← decisive, if_neg (not_lt.2 hq1), if_neg (not_le.2 hq2), Int.toNat_natCast, hlimit]
  dsimp only
  rw [raiseDelay_same (hroom _), lowerSeam_same (hroom _), ite_self]

end

section

variable {ch : BitVec 13} {leg : Bool} {c : Channel} {s : State}

theorem adaptWindowEnd_row (hc : tget? s.chans ch.toNat = some c) :
    let n := ch.toNat
    let o := legNo leg
    let r := (c.leg o).room
    let width := legParam s n o 0x0406
    (r.running = false ∨ workTick s + 1 < r.winStart + width → exec (.adaptWindowEnd ch leg) s = .next s) ∧
    (r.running = true → r.winStart + width ≤ workTick s + 1 → c.vbd = true ∨ r.slacks = [] →
      exec (.adaptWindowEnd ch leg) s = channelBecomes n (c.withLeg o (fun g => { g with
        room := { g.room with winStart := r.winStart + width, slacks := [] } })) s) ∧
    (r.running = true → r.winStart + width ≤ workTick s + 1 → c.vbd = false → legParam s n o 0x0401 = 1 → r.slacks ≠ [] →
      let head : Int := legParam s n o 0x0405
      (∀ x ∈ r.slacks, head ≤ x ∧ x < head + 10) → legParam s n o 0x0403 ≤ r.d →
      r.d ≤ legParam s n o 0x0404 → leaves (.adaptWindowEnd ch leg) s (fun t =>
        (roomAt t n o).d = r.d ∧ (roomAt t n o).target = r.d ∧
        (roomAt t n o).winStart = r.winStart + width ∧ (roomAt t n o).slacks = [])) := by
  intro n o r width
  have hroom : roomAt s n o = r := roomAt_of_some hc o
  have hchan : chanAt s n = c := chanAt_of_some hc
  have hopen : r.running = true → r.winStart + width ≤ workTick s + 1 → exec (.adaptWindowEnd ch leg) s =
      .next (modRoom n o (fun x => { x with winStart := r.winStart + width, slacks := [] })
        (if decisionDue s n o then windowDecision n o s else s)) := by
    intro hrun hdue
    change Host.Outcome.next (windowEnd n o s) = _
    simp only [windowEnd, hroom, hrun]
    rw [if_neg]
    exact fun h => h.elim (fun h => absurd h (by decide)) (fun h => absurd h (not_lt.2 hdue))
  refine ⟨fun h => ?_, fun hrun hdue hno => ?_, ?_⟩
  · change Host.Outcome.next (windowEnd n o s) = _
    simp only [windowEnd, hroom]
    rw [if_pos]
    exact h.imp_left (fun h => by rw [h]; rfl)
  · have hnot : decisionDue s n o = false := by
      rcases hno with h | h
      · simp [decisionDue, hchan, h]
      · simp [decisionDue, hroom, h]
    rw [hopen hrun hdue, hnot, if_neg Bool.false_ne_true, modRoom, modLeg_of_some hc]
  · intro hrun hdue hv hon hne head hband hlo hhi
    have hyes : decisionDue s n o = true := by
      simpa [decisionDue, hroom, hchan, hrun, hv, hon, hne] using hdue
    obtain ⟨v, hdec⟩ := windowDecision_band hc hne hband hlo hhi
    refine ⟨_, hopen hrun hdue, ?_⟩
    rw [if_pos hyes, hdec]
    have hstat : tget? (statSet n (roomBase o + 0x0E) v s).chans n = some _ := tget?_modChan_of_some hc _
    have hlast := tget?_modLeg_of_some (tget?_modLeg_of_some hstat o (fun g => { g with room := { g.room with target := r.d } })) o
      (fun g => { g with room := { g.room with winStart := r.winStart + width, slacks := [] } })
    have hfinal := roomAt_of_some hlast o
    rw [leg_withLeg_same, leg_withLeg_same] at hfinal
    dsimp only
    rw [modRoom, modRoom, hfinal]
    exact ⟨rfl, rfl, rfl, rfl⟩

end

/-! ### What keeps the lane, the move and the mode of every channel -/

/-- A channel's lane, its move and whether it is in voiceband-data mode. -/
def course (c : Channel) : Nat × Option Move × Bool := (c.lane, c.move, c.vbd)

/-- Every channel keeps its course. -/
structure SameCourse (s t : State) : Prop where
  chans : ∀ n, (tget? t.chans n).map course = (tget? s.chans n).map course

theorem SameCourse.of_chans {s t : State} (h : t.chans = s.chans) : SameCourse s t := ⟨fun _ => by rw [h]⟩

theorem SameCourse.trans {s t u : State} (h : SameCourse s t) (g : SameCourse t u) : SameCourse s u :=
  ⟨fun n => (g.chans n).trans (h.chans n)⟩

theorem SameCourse.ite {r s t : State} {p : Prop} [Decidable p] (h : SameCourse r s) (g : SameCourse r t) :
    SameCourse r (if p then s else t) := by
  split
  · exact h
  · exact g

theorem SameCourse.of_some {s t : State} (h : SameCourse s t) {n : Nat} {c : Channel} (hc : tget? s.chans n = some c) :
    ∃ d, tget? t.chans n = some d ∧ course d = course c := by
  have hn := h.chans n
  rw [hc] at hn
  exact Option.map_eq_some_iff.1 hn

section

variable {s : State} (n l : Nat)

theorem sameCourse_refl : SameCourse s s := ⟨fun _ => rfl⟩

theorem modChan_course {f : Channel → Channel} (hf : ∀ c, course (f c) = course c) : SameCourse s (modChan n f s) := by
  refine ⟨fun k => ?_⟩
  rw [tget?_modChan]
  split
  · next hk =>
    subst hk
    cases tget? s.chans k with
    | none => rfl
    | some c => exact congrArg some (hf c)
  · rfl

theorem modLeg_course (f : Leg → Leg) : SameCourse s (modLeg n l f s) :=
  modChan_course n fun c => by unfold Channel.withLeg; split <;> rfl

theorem modRoom_course (f : StoreRoom → StoreRoom) : SameCourse s (modRoom n l f s) := modLeg_course ..

theorem modEc_course (f : Ec → Ec) : SameCourse s (modEc n f s) := modChan_course n fun _ => rfl

theorem statBump_course (id k : Nat) : SameCourse s (statBump n id k s) := modChan_course n fun _ => rfl

theorem statSet_course (id v : Nat) : SameCourse s (statSet n id v s) := modChan_course n fun _ => rfl

theorem raise_course (src : Nat) (p : List (Nat × Nat)) : SameCourse s (raise src p s) := .of_chans (by simp)

theorem cutEvent_course : SameCourse s (cutEvent n l s) := modLeg_course ..

theorem stopStream_course (cause : Nat) : SameCourse s (stopStream n l cause s) := by
  unfold stopStream noteRestart
  exact .ite sameCourse_refl (((modLeg_course n l _).trans (statBump_course n _ 1)).trans (raise_course ..))

theorem raiseDelay_course (target : Nat) : SameCourse s (raiseDelay n l target s) := by
  unfold raiseDelay
  exact .ite ((modRoom_course n l _).trans (statBump_course ..)) sameCourse_refl

theorem setDelay_course (want : Nat) : SameCourse s (setDelay n l want s) := by
  unfold setDelay
  have hraised := (modRoom_course (s := s) n l (fun r => { r with target := want })).trans (raiseDelay_course n l want)
  exact .ite sameCourse_refl (.ite (modRoom_course n l _)
    (.ite hraised (hraised.trans ((modRoom_course n l _).trans (statBump_course ..)))))

theorem switchRoom_course : SameCourse s (switchRoom n l s) := by
  unfold switchRoom
  have hdelay : SameCourse s (if (chanAt s n).vbd then setDelay n l (chanParam s n 0x0314) s
      else modRoom n l (fun r => { r with target := r.d }) s) := .ite (setDelay_course ..) (modRoom_course ..)
  exact .ite (hdelay.trans (stopStream_course ..)) hdelay

theorem switchLeg_course : SameCourse s (switchLeg n l s) := by
  unfold switchLeg
  exact .ite sameCourse_refl (((cutEvent_course n l).trans (modLeg_course n l _)).trans (switchRoom_course n l))

/-! ### What a modify keeps -/

theorem modSess_course (h : Nat) (f : Session → Session) : SameCourse s (modSess h f s) := .of_chans (by simp)

theorem startGen_course (v : Nat) : SameCourse s (startGen n l v s) := by
  unfold startGen
  dsimp only
  split
  · exact ((modLeg_course ..).trans (cutEvent_course ..)).trans (modLeg_course ..)
  · exact modLeg_course ..

theorem pushItem_course (h : Nat) (i : BItem) : SameCourse s (pushItem h i s) := by
  unfold pushItem
  exact .ite (.of_chans rfl) sameCourse_refl

theorem actLeg_course (side : Nat) (ps : List (Nat × Nat × Word)) : SameCourse s (actLeg n l side ps s) := by
  have hgen : SameCourse s (match modEntry ps side 0x031A with
      | some v => startGen n l v s
      | none => s) := by
    split
    · exact startGen_course ..
    · exact sameCourse_refl
  unfold actLeg
  dsimp only
  split
  · exact hgen.trans (pushItem_course ..)
  · exact hgen

theorem modifyRoom_course (old : State) : SameCourse s (modifyRoom old n l s) := by
  have hwindow : ∀ (p : Bool) (f : StoreRoom → StoreRoom), SameCourse s (if p then modRoom n l f s else s) := fun _ f =>
    .ite (modRoom_course n l f) sameCourse_refl
  unfold modifyRoom
  exact .ite ((hwindow _ _).trans (modRoom_course ..)) (hwindow _ _)

theorem modifyLeg_course (old : State) (side : Nat) (ps : List (Nat × Nat × Word)) :
    SameCourse s (modifyLeg old n l side ps s) := by
  unfold modifyLeg
  refine .trans ?_ (actLeg_course ..)
  refine .ite ?_ (.trans ?_ (modifyRoom_course ..))
  all_goals
    have hcut : ∀ (p : Prop) [Decidable p], SameCourse s (if p then cutEvent n l s else s) := fun p _ =>
      .ite (cutEvent_course n l) sameCourse_refl
    exact .ite ((hcut _).trans ((modLeg_course n l _).trans (stopStream_course n l 1))) (hcut _)

theorem modifyEc_course (old : State) (side : Nat) (ps : List (Nat × Nat × Word)) :
    SameCourse s (modifyEc old n side ps s) := by
  have hreset : ∀ p : Bool, SameCourse s (if p then ecReset n s else s) := fun p =>
    .ite (modChan_course n fun _ => rfl) sameCourse_refl
  unfold modifyEc
  refine .trans ?_ (modEc_course ..)
  exact .ite ((hreset _).trans (modEc_course ..)) (hreset _)

theorem applyModify_course (r : ModReq) (m : Modified) : SameCourse s (applyModify r m s) := by
  have htable : SameCourse s (match (sessAt s r.handle).partner with
      | some p => modSess p (fun e => { e with params := m.q }) (modSess r.handle (fun e => { e with key := m.key, params := m.p }) s)
      | none => modSess r.handle (fun e => { e with key := m.key, params := m.p }) s) := by
    split
    · exact (modSess_course ..).trans (modSess_course ..)
    · exact modSess_course ..
  unfold applyModify
  dsimp only
  split
  · exact htable
  · next k _ =>
    refine .ite htable (htable.trans ?_)
    refine .trans ?_ (modifyLeg_course ..)
    refine .trans ?_ (modifyLeg_course ..)
    refine .trans ?_ (modifyEc_course ..)
    exact modChan_course k fun _ => rfl

end

/-! ### Voiceband data (R156) -/

section

variable {ch : BitVec 13} {c : Channel} {s : State}

theorem vbdExit_row (hc : tget? s.chans ch.toNat = some c) :
    (c.vbd = true → chanParam s ch.toNat 0x0316 ≤ c.vbdQuiet → leaves (.vbdExit ch) s (fun t =>
      (chanAt t ch.toNat).vbd = false ∧ statOf (chanAt t ch.toNat) 0x03A7 = 0)) ∧
    (c.vbd = false ∨ c.vbdQuiet < chanParam s ch.toNat 0x0316 → exec (.vbdExit ch) s = .next s) := by
  have hexec : exec (.vbdExit ch) s = .next (if c.vbd = true ∧ chanParam s ch.toNat 0x0316 ≤ c.vbdQuiet then
      switchVbd ch.toNat false 5 s else s) := by
    rw [← chanAt_of_some hc]
    rfl
  refine ⟨fun hv hq => ⟨_, hexec.trans (congrArg Host.Outcome.next (if_pos ⟨hv, hq⟩)), ?_⟩, fun h => ?_⟩
  · have hoff := tget?_modChan_of_some hc (fun c => { c with vbd := false, vbdAsk := none, vbdQuiet := 0 })
    obtain ⟨d, hd, hcourse⟩ := ((switchLeg_course ch.toNat 0).trans (switchLeg_course ch.toNat 1)).of_some hoff
    have hset := tget?_modChan_of_some hd (fun c => { c with stats := tset c.stats 0x03A7 (BitVec.ofNat 32 0) })
    have hlast : tget? (switchVbd ch.toNat false 5 s).chans ch.toNat =
        some { d with stats := tset d.stats 0x03A7 (BitVec.ofNat 32 0) } := by
      simp only [switchVbd, raise_frame, Bool.false_eq_true, if_false, false_and]
      exact hset
    dsimp only
    rw [chanAt_of_some hlast]
    refine ⟨congrArg (fun x => x.2.2) hcourse, ?_⟩
    rw [statOf, tget_tset_same]
    rfl
  · rw [hexec, if_neg]
    rintro ⟨hv, hq⟩
    rcases h with h | h
    · exact Bool.false_ne_true (h.symm.trans hv)
    · omega

/-! ### Moves given up (R42) -/

theorem undoModify_course (n : Nat) (m : Move) (s : State) : SameCourse s (undoModify n m s) := by
  have hunsend : ∀ (l side : Nat) (w : ModWas) (ps : List (Nat × Nat × Word)) (u : State),
      SameCourse u (unsendSig n l side w ps u) := by
    intro l side w ps u
    unfold unsendSig
    split
    · exact sameCourse_refl
    · exact .of_chans rfl
  unfold undoModify
  split
  · next r w _ _ =>
    dsimp only
    refine .ite ?_ ?_
    · refine .trans ?_ (modChan_course n fun _ => rfl)
      refine .trans ?_ (modSess_course ..)
      split
      · exact ((hunsend ..).trans (hunsend ..)).trans (modSess_course ..)
      · exact (hunsend ..).trans (hunsend ..)
    · refine .trans ?_ (modChan_course n fun _ => rfl)
      exact ((hunsend ..).trans (hunsend ..)).trans (applyModify_course ..)
  · exact sameCourse_refl

theorem refuseModify_course (r : ModReq) (status : Nat) (s : State) : SameCourse s (refuseModify r status s) :=
  .of_chans (by simp)

theorem moveBusy_course (m : Move) (s : State) : SameCourse s (moveBusy m s) := by
  have hfinish : SameCourse s (match m.cmd with
      | some seq => finish seq 9 m.addressed 0 s
      | none => s) := by
    split
    · exact .of_chans (by simp)
    · exact sameCourse_refl
  unfold moveBusy
  dsimp only
  split
  · exact hfinish.trans (refuseModify_course ..)
  · exact hfinish

theorem dropReefMove_course (n : Nat) (s : State) : SameCourse s (dropReefMove n s) := .of_chans rfl

/-- A move given up while it copies leaves the channel on its lane. -/
theorem unmove_course {n : Nat} {m : Move} (hc : tget? s.chans n = some c) (hphase : m.phase = 1) :
    ∃ d, tget? (unmove n m s).chans n = some d ∧ course d = (c.lane, none, c.vbd) := by
  have hstay := tget?_modChan_of_some hc (fun c => { c with lane := if m.phase = 2 then m.target else c.lane, move := none })
  have hpark : ∀ u, SameCourse u (if s.age.moves.contains n then forcePark n u else u) := fun u =>
    .ite (modChan_course n fun _ => rfl) sameCourse_refl
  have hrest : SameCourse (modChan n (fun c => { c with lane := if m.phase = 2 then m.target else c.lane, move := none }) s)
      (unmove n m s) := by
    rw [unmove]
    refine .trans ?_ (dropReefMove_course ..)
    refine .trans ?_ (raise_course ..)
    refine .trans ?_ (hpark _)
    exact .of_chans (by simp)
  obtain ⟨d, hd, hcourse⟩ := hrest.of_some hstay
  refine ⟨d, hd, hcourse.trans ?_⟩
  simp [course, hphase]

theorem migrateAbandoned_row (hc : tget? s.chans ch.toNat = some c) {m : Move} (hm : c.move = some m) :
    (m.phase = 1 → 16 ≤ m.fails → leaves (.migrateAbandoned ch) s (fun t =>
      (chanAt t ch.toNat).move = none ∧ (chanAt t ch.toNat).lane = c.lane)) ∧
    (m.phase ≠ 1 ∨ m.fails < 16 → exec (.migrateAbandoned ch) s = .next s) := by
  have hexec : exec (.migrateAbandoned ch) s = .next (if m.phase = 1 ∧ 16 ≤ m.fails then
      moveBusy m (undoModify ch.toNat m (unmove ch.toNat m s)) else s) := by
    change execMigrateAbandoned ch s = _
    simp only [execMigrateAbandoned, abandonMove, chanAt_of_some hc, hm]
  refine ⟨fun hphase hfails => ⟨_, hexec.trans (congrArg Host.Outcome.next (if_pos ⟨hphase, hfails⟩)), ?_⟩, fun h => ?_⟩
  · obtain ⟨d, hd, hcourse⟩ := unmove_course hc hphase
    obtain ⟨e, he, hsame⟩ := ((undoModify_course ch.toNat m _).trans (moveBusy_course m _)).of_some hd
    rw [chanAt_of_some he]
    have hfinal := hsame.trans hcourse
    exact ⟨congrArg (fun x => x.2.1) hfinal, congrArg (fun x => x.1) hfinal⟩
  · rw [hexec, if_neg]
    omega

/-! ### The work of a tick -/

theorem channelTickWork_row (hc : tget? s.chans ch.toNat = some c) (sig : Signals) :
    let st := (laneAt s c.worker).st
    (c.live = true → c.worked < workTick s → workReady s = true → st = .idle ∨ st = .running ∨ st = .overrun →
      exec (.channelTickWork ch sig) s = .next (tickWork ch.toNat sig s)) ∧
    (c.live = false ∨ workTick s ≤ c.worked ∨ workReady s = false ∨ (st ≠ .idle ∧ st ≠ .running ∧ st ≠ .overrun) →
      exec (.channelTickWork ch sig) s = .next s) := by
  intro st
  have hexec : exec (.channelTickWork ch sig) s = .next (if c.live && decide (c.worked < workTick s) && workReady s &&
      (st == .idle || st == .running || st == .overrun) then tickWork ch.toNat sig s else s) := by
    change execChannelTickWork ch sig s = _
    simp only [execChannelTickWork, chanAt_of_some hc, st]
  refine ⟨fun hl hw hr hst => ?_, fun h => ?_⟩
  · rw [hexec, if_pos]
    simp only [hl, hw, hr, Bool.true_and, decide_true, Bool.or_eq_true, beq_iff_eq, or_assoc]
    exact hst
  · rw [hexec, if_neg]
    simp only [Bool.and_eq_true, Bool.or_eq_true, beq_iff_eq, decide_eq_true_eq]
    rintro ⟨⟨⟨hl, hw⟩, hr⟩, hst⟩
    rcases h with h | h | h | ⟨h1, h2, h3⟩
    · exact Bool.false_ne_true (h.symm.trans hl)
    · omega
    · exact Bool.false_ne_true (h.symm.trans hr)
    · exact hst.elim (fun h => h.elim h1 h2) h3

end

/-- Settles O31: each row reads its channel's own entry, and its effect is on that entry. -/
theorem channelRowsEndWhatTheyName : Obligations.ChannelRowsEndWhatTheyName := by
  unfold Obligations.ChannelRowsEndWhatTheyName
  intro ch s c hc
  refine ⟨fun leg => ?_, (vbdExit_row hc).1, (vbdExit_row hc).2, fun m => migrateAbandoned_row hc, channelTickWork_row hc⟩
  exact ⟨(muteLift_row hc).1, (muteLift_row hc).2.1, (muteLift_row hc).2.2, fun g e => generationEnd_row hc,
    rtcpReport_row hc, adaptWindowEnd_row hc⟩

end Sys2Proof.Proofs.ChannelRows
end

section
/-! PROOF. Trunk bundles (R193): why the count of the bundles sent does not hold for every queue map. -/

namespace Sys2Proof.Proofs.Bundles

open Sys2Proof Sys2Proof.Machine Sys2Proof.Spec

/-- A peer that is on and closes its interval of 1 tick, on a port whose queue map sends the peer to a queue that no port has.
The drop counter of that queue lies at the address of BND_PEER_COUNT. -/
def strayQueue : State :=
  { State.reset with
    peers := [(0, { on := true, interval := 1 })]
    ports := [(0, { peerQ := [(0, 66404)] })] }

theorem dropCounter_address : RegId.addr .TMC_TXQ_DROP 0 66404 = RegId.addr .BND_PEER_COUNT := by decide +kernel

/-- The interval's one bundle is counted as sent, and its frame, for which the queue has no ring, once more as dropped. -/
theorem sent_strayQueue : fget (closeInterval 0 0 strayQueue) .BND_PEER_COUNT_tx_bundles = 2 := by decide +kernel

/-- Refutes O32: in the state `strayQueue` the interval's one bundle raises BND_PEER_COUNT.tx_bundles from 0 to 2, because the
state's queue map names a queue whose drop counter is that register. -/
theorem not_bundlesFollowTheirOrder : ¬ Obligations.BundlesFollowTheirOrder := by
  unfold Obligations.BundlesFollowTheirOrder
  intro hall
  obtain ⟨-, -, hon, -⟩ := hall 0 strayQueue
  obtain ⟨hclose, -⟩ := hon rfl rfl
  obtain ⟨t, ht, -, -, -, -, hcount⟩ := hclose (by decide) (by decide) (by decide)
  have ht' : closeInterval 0 0 strayQueue = t := Host.Outcome.next.inj ht
  have hone : fget t .BND_PEER_COUNT_tx_bundles = 1 := hcount
  rw [← ht', sent_strayQueue] at hone
  exact absurd hone (by decide)

end Sys2Proof.Proofs.Bundles
end

section
/-! PROOF. The ports (R226): why a link that cannot come up may still change the PTP engine. -/

namespace Sys2Proof.Proofs.PortRows

open Sys2Proof Sys2Proof.Machine Sys2Proof.Spec

/-- The PTP engine enabled and listening, though the firmware does not run; no trunk port is enabled. -/
def listeningEarly : State :=
  fset .TIM_PTP_CTRL_enable 1 { State.reset with time := { State.reset.time with ptp := 4 } }

/-- The engine follows the firmware that does not run: it is INITIALIZING (R282). -/
theorem ptp_listeningEarly : (ptpFollow (linkUp 0 listeningEarly)).time.ptp = 1 := by decide +kernel

/-- Refutes O33: in the state `listeningEarly` port 0 is not enabled, and a link that comes up on it still takes the engine from
LISTENING to INITIALIZING, because every change of a link lets the engine follow the port and the firmware. -/
theorem not_portsReceiveFrames : ¬ Obligations.PortsReceiveFrames := by
  unfold Obligations.PortsReceiveFrames
  intro hall
  obtain ⟨-, hdown, -⟩ := hall 0 listeningEarly
  have hexec : exec (.portLinkUp 0) listeningEarly = .next listeningEarly := hdown (.inl (by decide +kernel))
  have hsame : ptpFollow (linkUp 0 listeningEarly) = listeningEarly := Host.Outcome.next.inj hexec
  have hptp : listeningEarly.time.ptp = 1 := hsame ▸ ptp_listeningEarly
  exact absurd hptp (by decide +kernel)

end Sys2Proof.Proofs.PortRows
end

section
/-! PROOF. The ports as senders: the head frame of a queue, queue maps and the transparent clock (R229, R236 to R239, R241,
R244, R283). -/

namespace Sys2Proof.Proofs.PortSending

open Sys2Proof Sys2Proof.Machine Sys2Proof.Spec Sys2Proof.Proofs.Effects Sys2Proof.Proofs.RegisterFields
  Sys2Proof.Proofs.RegisterPlaces Sys2Proof.Proofs.RegisterWrites Sys2Proof.Proofs.IslandCommands

/-! ### Start points (R229, R238, R239, R241, R244) -/

section

variable {p : Fin 2} {q : Nat} {s : State} {f : TxFrame} {phase : BitVec 16}

/-- A trunk port's start point. -/
theorem exec_transmit (p : Fin 2) (phase : BitVec 16) (s : State) :
    exec (.frameTransmit ⟨p.castLE (by decide), phase⟩) s = .next (transmit p phase s) := by
  have hp : ¬ (p.castLE (by decide : 2 ≤ 3)).val = 2 := by
    rw [Fin.val_castLE]
    omega
  exact congrArg Host.Outcome.next (if_neg hp)

theorem transmit_nothing (h : ∀ q < 8, headFate s p q = 0) : transmit p phase s = s := by
  have hnone : [7, 6, 5, 4, 3, 2, 1, 0].find? (fun q => headFate s p q != 0) = none := by
    rw [List.find?_eq_none]
    intro q hq
    have hq8 : q < 8 := by
      simp only [List.mem_cons, List.not_mem_nil, or_false] at hq
      omega
    simp [h q hq8]
  rw [transmit, hnone]

/-- The queue served is the highest-numbered one whose head frame starts or is discarded. -/
theorem transmit_head (hq : q < 8) (hf : txHead s p q = some f) (hne : headFate s p q ≠ 0)
    (hhigh : ∀ k, q < k → k < 8 → headFate s p k = 0) : transmit p phase s =
      if headFate s p q = 1 then startFrame p q phase f s else discardHead p q (headFate s p q) s := by
  have hfind : [7, 6, 5, 4, 3, 2, 1, 0].find? (fun q => headFate s p q != 0) = some q := by
    have hskip : ∀ k, q < k → k < 8 → (headFate s p k != 0) = false := fun k h1 h2 => by simp [hhigh k h1 h2]
    have hhere : (headFate s p q != 0) = true := by simpa using hne
    interval_cases q <;> simp [List.find?, hhere, hskip]
  rw [transmit, hfind]
  dsimp only
  rw [hf]

/-- A queue without its head frame, the others as they were. -/
theorem popped_of_tx {t : State} (h : (portAt t p).tx = tset (portAt s p).tx q (dropHead (tget (portAt s p).tx q []))) :
    tget (portAt t p).tx q [] = dropHead (tget (portAt s p).tx q []) ∧
    ∀ k, k ≠ q → tget (portAt t p).tx k [] = tget (portAt s p).tx k [] := by
  rw [h]
  exact ⟨tget_tset_same .., fun k hk => tget_tset_other _ _ _ hk⟩

theorem popTx_tx (p q : Nat) (s : State) : (portAt (popTx p q s) p).tx = tset (portAt s p).tx q (dropHead (tget (portAt s p).tx q [])) := by
  rw [popTx, portAt_putPort]

theorem popTx_regs (p q : Nat) (s : State) : (popTx p q s).regs = s.regs := rfl

/-- A frame that is no PTP frame starts as it is. -/
theorem startFrame_plain (hfrom : f.from_ = none) (hptp : ptpOff f.bytes = none) : startFrame p q phase f s =
    fbump .TMC_TX_FRAMES_tx_frames 1 (putPort p { portAt (popTx p q s) p with
      sent := some (onLine f.bytes)
      sentEnd := 100 * s.time.counter.toNat + lineBytes f.bytes.length * byteTime s p } (popTx p q s)) p := by
  simp only [startFrame, hfrom, hptp]

theorem headStarts (hq : q < 8) (hf : txHead s p q = some f) (hhigh : ∀ k, q < k → k < 8 → headFate s p k = 0)
    (hfate : headFate s p q = 1) (hfrom : f.from_ = none) (hptp : ptpOff f.bytes = none) :
    leaves (.frameTransmit ⟨p.castLE (by decide), phase⟩) s (fun t =>
      (tget (portAt t p).tx q [] = dropHead (tget (portAt s p).tx q []) ∧
        ∀ k, k ≠ q → tget (portAt t p).tx k [] = tget (portAt s p).tx k []) ∧
      (portAt t p).sent = some (onLine f.bytes) ∧ counted s t .TMC_TX_FRAMES_tx_frames p ∧
      (portAt t p).sentEnd = 100 * s.time.counter.toNat + lineBytes f.bytes.length * byteTime s p) := by
  refine ⟨_, exec_transmit p phase s, ?_⟩
  rw [transmit_head hq hf (by rw [hfate]; decide) hhigh, if_pos hfate, startFrame_plain hfrom hptp]
  have hport : ∀ x u, portAt (fbump .TMC_TX_FRAMES_tx_frames 1 (putPort p x u) p) p = x := fun x u => by
    simp only [portAt, fbump_frame, putPort, tget_tset_same]
  refine ⟨popped_of_tx ?_, ?_, ?_, ?_⟩
  · rw [hport]
    exact popTx_tx ..
  · rw [hport]
  · exact counted_before (as := []) (.of_regs rfl) List.not_mem_nil
      (counted_fbump _ .TMC_TX_FRAMES_tx_frames p (by decide) (by decide))
  · rw [hport]

/-- A head frame discarded leaves its queue and advances the counter of its rule. -/
theorem headDiscarded {c : Fld} {j : Nat} (hq : q < 8) (hf : txHead s p q = some f)
    (hhigh : ∀ k, q < k → k < 8 → headFate s p k = 0) (hne : headFate s p q ≠ 0) (hne1 : headFate s p q ≠ 1)
    (hd : discardHead p q (headFate s p q) s = fbump c 1 (popTx p q s) p j) (hc : c.lo ≤ c.hi) (hc32 : c.hi < 32) :
    leaves (.frameTransmit ⟨p.castLE (by decide), phase⟩) s (fun t =>
      (tget (portAt t p).tx q [] = dropHead (tget (portAt s p).tx q []) ∧
        ∀ k, k ≠ q → tget (portAt t p).tx k [] = tget (portAt s p).tx k []) ∧
      fget t c p j = satTo (2 ^ (c.hi - c.lo + 1) - 1) (fget s c p j + 1)) := by
  refine ⟨_, exec_transmit p phase s, ?_⟩
  rw [transmit_head hq hf hne hhigh, if_neg hne1, hd]
  refine ⟨popped_of_tx ?_, fget_fbump_same _ _ _ _ _ hc hc32⟩
  have hport : portAt (fbump c 1 (popTx p q s) p j) p = portAt (popTx p q s) p := by
    simp only [portAt, fbump_frame]
  rw [hport]
  exact popTx_tx ..

end

/-! ### Queue maps (R237) -/

/-- The lowest bit of a source's queue in TMC_TX_MAP. -/
def mapBit (src : Nat) : Nat := if src = 1 then 0 else if src = 2 then 3 else if src = 3 then 9 else 6

/-- A source's queue in a map of 12 bits. -/
def mapQueue (m : BitVec 12) (src : Nat) : Nat := bitsOf m.toNat (mapBit src + 2) (mapBit src)

theorem txQueue_source (s : State) (p : Nat) {src : Nat} (h : src ∈ [1, 2, 3, 4]) :
    txQueue s p src 0 = mapQueue (portAt s p).map src := by
  simp only [List.mem_cons, List.not_mem_nil, or_false] at h
  rcases h with rfl | rfl | rfl | rfl <;> rfl

/-- One source's queue changed in the map; the other sources keep theirs. -/
theorem mapQueue_set (m : BitVec 12) {src k : Nat} (v : Nat) (h : src ∈ [1, 2, 3, 4]) (hk : k ∈ [1, 2, 3, 4]) :
    mapQueue (BitVec.ofNat 12 (setBits m.toNat (mapBit src + 2) (mapBit src) v)) k =
      if k = src then v % 8 else mapQueue m k := by
  have hcut : ∀ n lo, lo + 2 < 12 → bitsOf (n % 2 ^ 12) (lo + 2) lo = bitsOf n (lo + 2) lo := by
    intro n lo hlo
    have hl : lo < 10 := by omega
    unfold bitsOf
    interval_cases lo <;> norm_num <;> omega
  have hlow : ∀ k ∈ [1, 2, 3, 4], mapBit k + 2 < 12 := by decide
  rw [mapQueue, BitVec.toNat_ofNat, hcut _ _ (hlow k hk)]
  split
  · next he =>
    rw [he, bitsOf_setBits_same]
    norm_num
  · next hne =>
    have hapart : ∀ src ∈ [1, 2, 3, 4], ∀ k ∈ [1, 2, 3, 4], k ≠ src →
        mapBit src + 2 < mapBit k ∨ mapBit k + 2 < mapBit src := by decide
    exact bitsOf_setBits_other _ _ (by omega) (by omega) (hapart src h k hk hne)

theorem holdsSource_congr {p q src k : Nat} {s t : State} (h : (portAt t p).tx = (portAt s p).tx) :
    holdsSource t p q src k = holdsSource s p q src k := by
  simp only [holdsSource, h]

/-- What the queue maps of a port leave: its queues and the registers. -/
structure MapsOnly (p : Nat) (s t : State) : Prop where
  tx : (portAt t p).tx = (portAt s p).tx
  regs : t.regs = s.regs

theorem MapsOnly.trans {p : Nat} {s t u : State} (h : MapsOnly p s t) (g : MapsOnly p t u) : MapsOnly p s u :=
  ⟨g.tx.trans h.tx, g.regs.trans h.regs⟩

/-- A source's queue after the sources of a list may have moved. -/
def sourceQueue (s : State) (p : Nat) (moved : List Nat) (src : Nat) : Nat :=
  if src ∈ moved ∧ holdsSource s p (mapQueue (portAt s p).map src) src 0 = false then
    bitsOf (regWord s (RegId.addr .TMC_TX_MAP p)) (mapBit src + 2) (mapBit src)
  else mapQueue (portAt s p).map src

/-- A state in which the sources of a list have moved, and nothing else of the port's queues. -/
structure SourcesMoved (p : Nat) (moved : List Nat) (s t : State) : Prop extends MapsOnly p s t where
  peerQ : (portAt t p).peerQ = (portAt s p).peerQ
  map : ∀ src ∈ [1, 2, 3, 4], mapQueue (portAt t p).map src = sourceQueue s p moved src

theorem sourcesMoved_nil (p : Nat) (s : State) : SourcesMoved p [] s s :=
  ⟨⟨rfl, rfl⟩, rfl, fun src _ => (if_neg (by simp)).symm⟩

theorem bitsOf_lt_8 (n lo : Nat) : bitsOf n (lo + 2) lo < 8 := by
  have h := bitsOf_lt n (lo + 2) lo
  rwa [show lo + 2 - lo + 1 = 3 by omega] at h

/-- One more source moves. -/
theorem SourcesMoved.moveSource {p k : Nat} {moved : List Nat} {s t : State} (h : SourcesMoved p moved s t)
    (hk : k ∈ [1, 2, 3, 4]) (hnew : k ∉ moved) : SourcesMoved p (k :: moved) s (moveSource p k (mapBit k) t) := by
  have hqueue : mapQueue (portAt t p).map k = mapQueue (portAt s p).map k := by
    rw [h.map k hk, sourceQueue, if_neg (fun hc => hnew hc.1)]
  have hreg : regWord t (RegId.addr .TMC_TX_MAP p) = regWord s (RegId.addr .TMC_TX_MAP p) := by simp only [regWord, h.regs]
  have hothers : ∀ src, src ≠ k → sourceQueue s p (k :: moved) src = sourceQueue s p moved src := fun src hs => by
    simp only [sourceQueue, List.mem_cons, hs, false_or]
  unfold Machine.moveSource
  dsimp only
  rw [← mapQueue, hreg, holdsSource_congr h.tx, hqueue]
  split
  · next hstay =>
    refine ⟨h.toMapsOnly, h.peerQ, fun src hs => ?_⟩
    by_cases he : src = k
    · subst he
      rw [hqueue, sourceQueue]
      rcases hstay with hsame | hheld
      · split
        · exact hsame
        · rfl
      · rw [if_neg (by rw [hheld]; simp)]
    · rw [h.map src hs, hothers src he]
  · next hmove =>
    obtain ⟨-, hfree⟩ := not_or.1 hmove
    refine ⟨⟨?_, h.regs⟩, ?_, fun src hs => ?_⟩
    · rw [portAt_putPort]
      exact h.tx
    · rw [portAt_putPort]
      exact h.peerQ
    · rw [portAt_putPort, mapQueue_set _ _ hk hs]
      split
      · next he =>
        subst he
        rw [sourceQueue, if_pos ⟨List.mem_cons_self, by simpa using hfree⟩, Nat.mod_eq_of_lt (bitsOf_lt_8 ..)]
      · next he => rw [h.map src hs, hothers src he]

/-- A peer's queue after the peers of a list may have moved. -/
def peerQueue (s : State) (p : Nat) (moved : List Nat) (k : Nat) : Nat :=
  if k ∈ moved ∧ holdsSource s p (tget (portAt s p).peerQ k 0) 0 k = false then fget s .BND_PEER_CTRL_tx_queue k
  else tget (portAt s p).peerQ k 0

/-- A state in which the peers of a list have moved, and nothing else of the port's queues. -/
structure PeersMoved (p : Nat) (moved : List Nat) (s t : State) : Prop extends MapsOnly p s t where
  map : (portAt t p).map = (portAt s p).map
  queue : ∀ k, tget (portAt t p).peerQ k 0 = peerQueue s p moved k

theorem movePeer_moved (p k : Nat) (s : State) : PeersMoved p [k] s (movePeer p k s) := by
  have hothers : ∀ j, j ≠ k → peerQueue s p [k] j = tget (portAt s p).peerQ j 0 := fun j hj => by
    rw [peerQueue, if_neg (fun hc => hj (List.mem_singleton.1 hc.1))]
  have hold : txQueue s p 0 k = tget (portAt s p).peerQ k 0 := rfl
  unfold movePeer
  dsimp only
  rw [hold]
  split
  · next hstay =>
    refine ⟨⟨rfl, rfl⟩, rfl, fun j => ?_⟩
    by_cases hj : j = k
    · subst hj
      rw [peerQueue]
      rcases hstay with hsame | hheld
      · split
        · exact hsame
        · rfl
      · rw [if_neg (by rw [hheld]; simp)]
    · rw [hothers j hj]
  · next hmove =>
    obtain ⟨-, hfree⟩ := not_or.1 hmove
    refine ⟨⟨by rw [portAt_putPort], rfl⟩, by rw [portAt_putPort], fun j => ?_⟩
    rw [portAt_putPort]
    by_cases hj : j = k
    · subst hj
      rw [tget_tset_same, peerQueue, if_pos ⟨List.mem_singleton.2 rfl, by simpa using hfree⟩]
    · rw [tget_tset_other _ _ _ hj, hothers j hj]

theorem movePeers_moved (p : Nat) (l : List Nat) (s : State) : PeersMoved p l s (l.foldl (fun s k => movePeer p k s) s) := by
  induction l generalizing s with
  | nil => exact ⟨⟨rfl, rfl⟩, rfl, fun k => by simp [peerQueue]⟩
  | cons a l ih =>
    have h1 := movePeer_moved p a s
    have h2 := ih (movePeer p a s)
    refine ⟨h1.toMapsOnly.trans h2.toMapsOnly, h2.map.trans h1.map, fun k => ?_⟩
    have hfield : fget (movePeer p a s) .BND_PEER_CTRL_tx_queue k = fget s .BND_PEER_CTRL_tx_queue k := fget_congr h1.regs ..
    rw [List.foldl_cons, h2.queue k, peerQueue, holdsSource_congr h1.tx, h1.queue k, hfield]
    unfold peerQueue
    by_cases hka : k = a
    · subst hka
      by_cases hheld : holdsSource s p (tget (portAt s p).peerQ k 0) 0 k = false
      · simp [hheld]
      · simp [hheld]
    · simp [hka]

section

variable {p : Fin 2} {s : State}

/-- At a boundary the queues of a port that may change do (R237). -/
theorem txMapChange_row (p : Fin 2) (s : State) : leaves (.txMapChange p) s (fun t => (portAt t p).tx = (portAt s p).tx ∧
    (∀ src ∈ [1, 2, 3, 4],
      (holdsSource s p (txQueue s p src 0) src 0 = true → txQueue t p src 0 = txQueue s p src 0) ∧
      (holdsSource s p (txQueue s p src 0) src 0 = false →
        txQueue t p src 0 = bitsOf (regWord s (RegId.addr .TMC_TX_MAP p)) (mapBit src + 2) (mapBit src))) ∧
    (∀ k < 64,
      (holdsSource s p (txQueue s p 0 k) 0 k = true → txQueue t p 0 k = txQueue s p 0 k) ∧
      (holdsSource s p (txQueue s p 0 k) 0 k = false → txQueue t p 0 k = fget s .BND_PEER_CTRL_tx_queue k))) := by
  have hsources := ((((sourcesMoved_nil p s).moveSource (k := 3) (by decide) (by decide)).moveSource (k := 4) (by decide)
    (by decide)).moveSource (k := 2) (by decide) (by decide)).moveSource (k := 1) (by decide) (by decide)
  have hpeers := movePeers_moved p (List.range 64) (moveSource p 1 (mapBit 1) (moveSource p 2 (mapBit 2)
    (moveSource p 4 (mapBit 4) (moveSource p 3 (mapBit 3) s))))
  have hall : ∀ src ∈ [1, 2, 3, 4], src ∈ [1, 2, 4, 3] := by decide
  refine ⟨_, rfl, hpeers.tx.trans hsources.tx, fun src hs => ?_, fun k hk => ?_⟩
  · have hmoved : ∀ u, (portAt u p).map = _ → txQueue u p src 0 = sourceQueue s p [1, 2, 4, 3] src := fun u hu => by
      rw [txQueue_source u p hs, hu]
      exact hsources.map src hs
    rw [txQueue_source s p hs]
    refine ⟨fun hheld => (hmoved _ hpeers.map).trans (if_neg (by rw [hheld]; simp)),
      fun hfree => (hmoved _ hpeers.map).trans (if_pos ⟨hall src hs, hfree⟩)⟩
  · have hmoved := hpeers.queue k
    rw [peerQueue, holdsSource_congr hsources.tx, hsources.peerQ, fget_congr hsources.regs] at hmoved
    exact ⟨fun hheld => hmoved.trans (if_neg (by rw [show holdsSource s p (tget (portAt s p).peerQ k 0) 0 k = true from hheld]; simp)),
      fun hfree => hmoved.trans (if_pos ⟨List.mem_range.2 hk, hfree⟩)⟩

/-! ### The transparent clock (R283, R284) -/

/-- Whether a frame that the clock has had stays for the engine (R283). -/
def keptFrame (s : State) (p : Nat) (f : RxFrame) : Bool :=
  forEngine s p f.bytes && !isPdelay (f.bytes.drop ((ptpOff f.bytes).getD 0))

/-- The ring of the timing queue once the clock has had its first frame. -/
def clockRing (s : State) (p : Nat) (f : RxFrame) (rest : List RxFrame) : List RxFrame :=
  if keptFrame s p f then { f with fwd := true } :: rest else rest

theorem fwd_of_find {l : List RxFrame} (h : ∀ f ∈ l, f.fwd = true) : l.find? (fun f => !f.fwd) = none := by
  rw [List.find?_eq_none]
  exact fun f hf => by simp [h f hf]

theorem tcForward_idle (h : fget s .TIM_PTP_CTRL_tc_enable = 0 ∨ ∀ f ∈ tget (portAt s p).rx 8 [], f.fwd = true) :
    exec (.tcForward p) s = .next s := by
  change execTcForward p s = _
  unfold execTcForward
  rcases h with h | h
  · rw [show fbit s .TIM_PTP_CTRL_tc_enable = false by rw [fbit, h]; rfl]
    rfl
  · dsimp only
    rw [fwd_of_find h, ite_self]

/-- The state once the clock has had a frame: the ring of its port, and the buffers it frees. -/
def clockTaken (p : Nat) (f : RxFrame) (rest : List RxFrame) (s : State) : State :=
  putPort p { portAt s p with
    rx := tset (portAt s p).rx 8 (clockRing s p f rest)
    used := tset (portAt s p).used 8 (tget (portAt s p).used 8 0 - (if keptFrame s p f then 0 else f.bufs)) } s

theorem tcForward_taken {f : RxFrame} {rest : List RxFrame} (hon : fget s .TIM_PTP_CTRL_tc_enable = 1)
    (hring : tget (portAt s p).rx 8 [] = f :: rest) (hf : f.fwd = false) : exec (.tcForward p) s =
      .next (if !(ptpOff f.bytes).isSome then clockTaken p f rest s
        else if isPdelay (f.bytes.drop ((ptpOff f.bytes).getD 0)) then
          raiseCounting 239 0 [] (fbump .TIM_TC_COUNT_dropped 1 (clockTaken p f rest s))
        else forwardPtp p f (clockTaken p f rest s)) := by
  have hbit : fbit s .TIM_PTP_CTRL_tc_enable = true := by rw [fbit, hon]; rfl
  have hfind : (f :: rest).find? (fun f => !f.fwd) = some f := by simp [hf]
  have hmark : ∀ keep : Bytes → Bool, markForwarded keep (f :: rest) = if keep f.bytes then { f with fwd := true } :: rest else rest :=
    fun keep => by simp [markForwarded, hf]
  change execTcForward p s = _
  simp only [execTcForward, hbit, Bool.not_true, Bool.false_eq_true, if_false, hring, hfind, hmark]
  rfl

theorem clockTaken_rx (q : Nat) (f : RxFrame) (rest : List RxFrame) (s : State) :
    tget (portAt (clockTaken q f rest s) q).rx 8 [] = clockRing s q f rest := by
  rw [clockTaken, portAt_putPort, tget_tset_same]

theorem portAt_putPort_other {q k : Nat} (x : Port) (s : State) (h : k ≠ q) : portAt (putPort q x s) k = portAt s k :=
  tget_tset_other _ _ _ h

/-- A frame that a ring has room for joins its queue. -/
theorem pushTx_room {port q : Nat} {f : TxFrame} (hroom : txUsed (ringOf s port 1 q).2 (tget (portAt s port).tx q []) +
    buffersFor f.bytes.length (ringOf s port 1 q).2 ≤ (ringOf s port 1 q).1) : pushTx port q f s =
      putPort port { portAt s port with tx := tset (portAt s port).tx q (tget (portAt s port).tx q [] ++ [f]) } s :=
  if_pos (.inr hroom)

/-- The transparent clock forwards a PTP frame out of the other port. -/
theorem forwardPtp_spec {f : RxFrame} {rest : List RxFrame}
    (hroom : txUsed (ringOf s (1 - p.val) 1 (txQueue s (1 - p.val) 3 0)).2 (tget (portAt s (1 - p.val)).tx (txQueue s (1 - p.val) 3 0) []) +
      buffersFor f.bytes.length (ringOf s (1 - p.val) 1 (txQueue s (1 - p.val) 3 0)).2 ≤
      (ringOf s (1 - p.val) 1 (txQueue s (1 - p.val) 3 0)).1) :
    let t := forwardPtp p f (clockTaken p f rest s)
    tget (portAt t p).rx 8 [] = clockRing s p f rest ∧ counted s t .TIM_TC_COUNT_forwarded ∧
    tget (portAt t (1 - p.val)).tx (txQueue s (1 - p.val) 3 0) [] = tget (portAt s (1 - p.val)).tx (txQueue s (1 - p.val) 3 0) [] ++
      [{ bytes := f.bytes, source := 3, from_ := some f.count }] := by
  have hother : 1 - p.val ≠ p.val := by omega
  have hport : portAt (clockTaken p f rest s) (1 - p.val) = portAt s (1 - p.val) := portAt_putPort_other _ _ hother
  have hqueue : txQueue (clockTaken p f rest s) (1 - p.val) 3 0 = txQueue s (1 - p.val) 3 0 := by
    rw [txQueue_source _ _ (by decide), txQueue_source _ _ (by decide), hport]
  have hpush := pushTx_room (s := clockTaken p f rest s) (port := 1 - p.val) (q := txQueue s (1 - p.val) 3 0)
    (f := { bytes := f.bytes, source := 3, from_ := some f.count }) (by rw [hport]; exact hroom)
  have hbump : ∀ (u : State) (k : Nat), portAt (fbump .TIM_TC_COUNT_forwarded 1 u) k = portAt u k := fun u k => by
    simp only [portAt, fbump_frame]
  intro t
  have ht : t = fbump .TIM_TC_COUNT_forwarded 1 (pushTx (1 - p.val) (txQueue s (1 - p.val) 3 0)
      { bytes := f.bytes, source := 3, from_ := some f.count } (clockTaken p f rest s)) := by
    rw [← hqueue]
    rfl
  rw [ht, hpush, hbump, hbump, portAt_putPort, portAt_putPort_other _ _ hother.symm, clockTaken_rx, tget_tset_same, hport]
  refine ⟨rfl, ?_, rfl⟩
  exact counted_before (as := []) (.of_regs rfl) List.not_mem_nil
    (counted_fbump _ .TIM_TC_COUNT_forwarded 0 (by decide) (by decide))

theorem tcForward_row {f : RxFrame} {rest : List RxFrame} (hon : fget s .TIM_PTP_CTRL_tc_enable = 1)
    (hring : tget (portAt s p).rx 8 [] = f :: rest) (hf : f.fwd = false) :
    let pd := isPdelay (f.bytes.drop ((ptpOff f.bytes).getD 0))
    (ptpOff f.bytes = none → leaves (.tcForward p) s (fun t => tget (portAt t p).rx 8 [] = rest ∧ t.regs = s.regs)) ∧
    ((ptpOff f.bytes).isSome = true → pd = true → leaves (.tcForward p) s (fun t =>
      tget (portAt t p).rx 8 [] = clockRing s p f rest ∧ counted s t .TIM_TC_COUNT_dropped)) ∧
    ((ptpOff f.bytes).isSome = true → pd = false →
      let q := txQueue s (1 - p) 3 0
      let r := ringOf s (1 - p) 1 q
      let old := tget (portAt s (1 - p)).tx q []
      txUsed r.2 old + buffersFor f.bytes.length r.2 ≤ r.1 → leaves (.tcForward p) s (fun t =>
        tget (portAt t p).rx 8 [] = clockRing s p f rest ∧ counted s t .TIM_TC_COUNT_forwarded ∧
        tget (portAt t (1 - p)).tx q [] = old ++ [{ bytes := f.bytes, source := 3, from_ := some f.count }])) := by
  intro pd
  have hexec := tcForward_taken hon hring hf
  refine ⟨fun hno => ⟨_, hexec, ?_⟩, fun hptp hpd => ⟨_, hexec, ?_⟩, ?_⟩
  · have hkept : keptFrame s p f = false := by simp [keptFrame, forEngine, hno]
    rw [hno, Option.isSome_none, Bool.not_false, if_pos rfl]
    exact ⟨by rw [clockTaken_rx, clockRing, hkept, if_neg Bool.false_ne_true], rfl⟩
  · have hport : ∀ u, portAt (raiseCounting 239 0 [] (fbump .TIM_TC_COUNT_dropped 1 u)) p = portAt u p := fun u => by
      simp only [portAt, raiseCounting_frame, fbump_frame]
    rw [hptp, Bool.not_true, if_neg Bool.false_ne_true, if_pos hpd]
    refine ⟨by rw [hport, clockTaken_rx], ?_⟩
    have hcount : counted s (fbump .TIM_TC_COUNT_dropped 1 (clockTaken p f rest s)) .TIM_TC_COUNT_dropped :=
      counted_before (as := []) (.of_regs rfl) List.not_mem_nil
        (counted_fbump (clockTaken p f rest s) .TIM_TC_COUNT_dropped 0 (by decide) (by decide))
    exact counted_after hcount (onlyAt_raiseCounting ..)
      (notMem_eventCounters (by decide) (by decide) (by decide) (by decide))
  · intro hptp hpd q r old hroom
    refine ⟨_, hexec, ?_⟩
    rw [hptp, Bool.not_true, if_neg Bool.false_ne_true, if_neg (show ¬ pd = true by rw [hpd]; exact Bool.false_ne_true)]
    exact forwardPtp_spec hroom

end

/-- Settles O34: a start point serves the highest queue whose head frame has a fate; maps and the clock change one port. -/
theorem portsSendFrames : Obligations.PortsSendFrames := by
  unfold Obligations.PortsSendFrames
  intro p phase s x tx
  refine ⟨fun h => (exec_transmit p phase s).trans (by rw [transmit_nothing h]), fun q f hq hf hhigh => ?_, txMapChange_row p s,
    tcForward_idle, fun f rest => tcForward_row⟩
  refine ⟨headStarts hq hf hhigh, fun h => ?_, fun h => ?_, fun h => ?_, fun h => ?_⟩
  · exact headDiscarded hq hf hhigh (by rw [h]; decide) (by rw [h]; decide) (by rw [h]; rfl) (by decide) (by decide)
  · exact headDiscarded hq hf hhigh (by rw [h]; decide) (by rw [h]; decide) (by rw [h]; rfl) (by decide) (by decide)
  · exact headDiscarded hq hf hhigh (by rw [h]; decide) (by rw [h]; decide) (by rw [h]; rfl) (by decide) (by decide)
  · exact headDiscarded hq hf hhigh (by rw [h]; decide) (by rw [h]; decide) (by rw [h]; rfl) (by decide) (by decide)

end Sys2Proof.Proofs.PortSending
end

section
/-! PROOF. The consumers of frames: the classifier and the mast controller (R31, R233, R236, R245, R431). -/

namespace Sys2Proof.Proofs.FrameConsumers

open Sys2Proof Sys2Proof.Machine Sys2Proof.Spec Sys2Proof.Proofs.Effects Sys2Proof.Proofs.RegisterFields
  Sys2Proof.Proofs.Admission Sys2Proof.Proofs.IslandCommands Sys2Proof.Proofs.PortSending

/-! ### A frame taken from its ring -/

section

variable {p : Fin 2} {q : Nat} {f : RxFrame} {s : State}

theorem takeRx_ring (p q : Nat) (f : RxFrame) (s : State) :
    tget (portAt (takeRx p q f s) p).rx q [] = (tget (portAt s p).rx q []).tail := by
  rw [takeRx, portAt_putPort, tget_tset_same]

theorem takeRx_tx (p q : Nat) (f : RxFrame) (s : State) : (portAt (takeRx p q f s) p).tx = (portAt s p).tx := by
  rw [takeRx, portAt_putPort]

theorem fbump_ports (c : Fld) (n : Nat) (s : State) (i j : Nat) : (fbump c n s i j).ports = s.ports := by
  simp only [fbump_frame]

/-- What is left in the queue of a frame taken, in a state with the ports as they were then. -/
theorem taken_of_ports {t : State} (h : t.ports = (takeRx p q f s).ports) :
    tget (portAt t p).rx q [] = (tget (portAt s p).rx q []).tail := by
  rw [portAt, h]
  exact takeRx_ring ..

theorem exec_classify (hs : isStandby s = false) (hq : oldestFor s p 0 = some (q, f)) :
    exec (.classifyFrame p) s = .next (classify p f.bytes (takeRx p q f s)) := by
  change Host.Outcome.next _ = _
  rw [hs, if_neg Bool.false_ne_true, hq]

/-! ### The classifier (R233, R236, R245) -/

theorem counted_raising {r u : State} {c : Fld} (hr : r.regs = s.regs) (hu : OnlyAt eventCounters (fbump c 1 r) u)
    (hc : c.reg.addr ∉ eventCounters) (h : c.lo ≤ c.hi) (h31 : c.hi < 32) : counted s u c := by
  have hcount : counted s (fbump c 1 r) c := counted_before (as := []) (.of_regs hr) List.not_mem_nil (counted_fbump r c 0 h h31)
  exact counted_after hcount hu hc

theorem counted_of_regs {r : State} {c : Fld} (hr : r.regs = s.regs) (h : c.lo ≤ c.hi) (h31 : c.hi < 32) :
    counted s (fbump c 1 r) c :=
  counted_before (as := []) (.of_regs hr) List.not_mem_nil (counted_fbump r c 0 h h31)

/-- A frame of a peer's EtherType from a source that is no peer's. -/
theorem classify_noPeer {b : Bytes} {r : State}
    (hsome : (peerFor r p false (fun r => beAt r 16 2 == frameEt b)).isSome = true)
    (hno : peerFor r p false (fun r => beAt r 16 2 == frameEt b && slice r 2 6 == slice b 6 6) = none) :
    classify p b r = raiseLimited 184 0 1 [(8, leNat (slice b 6 6))] (fbump .BND_NO_PEER_frames 1 r) := by
  simp only [classify, hsome, hno, if_true]

theorem classify_peer {b : Bytes} {r : State} {k : Nat}
    (hsome : (peerFor r p false (fun r => beAt r 16 2 == frameEt b)).isSome = true)
    (hk : peerFor r p false (fun r => beAt r 16 2 == frameEt b && slice r 2 6 == slice b 6 6) = some k) :
    classify p b r = receiveBundle k (b.drop (frameOff b)) r := by
  simp only [classify, hsome, hk, if_true]

theorem classify_badIp {b : Bytes} {r : State} (hno : peerFor r p false (fun r => beAt r 16 2 == frameEt b) = none)
    (hip : udpOf b = none) : classify p b r = fbump .FLT_DROP_bad_ip 1 r := by
  rw [classify, hno, hip]
  rfl

theorem classify_udp {b : Bytes} {r : State} {v6 : Bool} {src dst data : Bytes} {sport dport : Nat}
    (hno : peerFor r p false (fun r => beAt r 16 2 == frameEt b) = none)
    (hudp : udpOf b = some (v6, src, dst, sport, dport, data))
    (hpeer : peerFor r p true (fun r => v6 && slice r 34 16 == src && slice r 18 16 == dst &&
      beAt r 52 2 == sport && beAt r 50 2 == dport) = none) :
    classify p b r = sessionFrame p b (v6, src, dst, sport, dport, data) r := by
  simp only [classify, hno, hudp, hpeer, Option.isSome_none, Bool.false_eq_true, if_false]

theorem peerFor_takeRx (udp : Bool) (w : Bytes → Bool) : peerFor (takeRx p q f s) p udp w = peerFor s p udp w := rfl

theorem lookup_missing {k : Bytes} {m : Nat} {r : State} (h : findKey r k = none) : lookup k m r = (none, r) := by
  rw [lookup, h]

theorem lookup_found {k : Bytes} {m h : Nat} {r : State} (hk : findKey r k = some h) (hue : entryUe r h = false) :
    lookup k m r = (some h, r) := by
  simp only [lookup, hk, hue, Bool.false_eq_true, if_false]

section

variable {b src dst data : Bytes} {v6 : Bool} {sport dport h : Nat} {r : State}

theorem sessionFrame_unknown (h0 : findKey r (rtpKey p (frameVlan b) v6 src dst sport dport 0) = none)
    (h1 : findKey r (rtpKey p (frameVlan b) v6 src dst sport dport 1) = none) :
    sessionFrame p b (v6, src, dst, sport, dport, data) r = fbump .FLT_DROP_no_session 1 r := by
  simp only [sessionFrame, lookup_missing h0]
  split_ifs
  · rw [lookup_missing h1]
  · rfl

theorem sessionFrame_found (h0 : findKey r (rtpKey p (frameVlan b) v6 src dst sport dport 0) = some h)
    (hue : entryUe r h = false) : sessionFrame p b (v6, src, dst, sport, dport, data) r = legPacket h false data r := by
  simp only [sessionFrame, lookup_found h0 hue]

end

/-- A frame for a parked entry is counted in the entry. -/
theorem parkedDrop_spec {h : Nat} {r : State} (hent : (tget? r.sess h).isSome = true) :
    (sessAt (parkedDrop h r) h).drops = satTo 65535 ((sessAt r h).drops + 1) ∧ (parkedDrop h r).chans = r.chans ∧
    (parkedDrop h r).ports = r.ports := by
  obtain ⟨e, he⟩ := Option.isSome_iff_exists.mp hent
  have hdrop : ∀ g : Session → Session, sessAt (modSess h g r) h = g (sessAt r h) := fun g => by
    rw [sessAt, tget, tget?_modSess, if_pos rfl, sessAt, tget, he]
    rfl
  cases hd : (sessAt r h).dropEvt <;> simp only [parkedDrop, hd, Bool.false_eq_true, if_false, if_true]
  · refine ⟨?_, by simp only [raise_frame, modSess_frame], by simp only [raise_frame, modSess_frame]⟩
    simp only [sessAt, raise_frame]
    exact congrArg Session.drops (hdrop _)
  · exact ⟨by rw [hdrop], by simp only [modSess_frame], by simp only [modSess_frame]⟩

end

/-- What the classifier does with the oldest frame that waits for it. -/
theorem classifyFrame_taken {p : Fin 2} {q : Nat} {f : RxFrame} {s : State} (hs : isStandby s = false)
    (hq : oldestFor s p 0 = some (q, f)) :
    let taken := fun t : State => tget (portAt t p).rx q [] = (tget (portAt s p).rx q []).tail
    let et := fun r : Bytes => beAt r 16 2 == frameEt f.bytes
    ((peerFor s p false et).isSome = true →
      (∀ k, peerFor s p false (fun r => et r && slice r 2 6 == slice f.bytes 6 6) = some k →
        exec (.classifyFrame p) s = .next (receiveBundle k (f.bytes.drop (frameOff f.bytes)) (takeRx p q f s))) ∧
      (peerFor s p false (fun r => et r && slice r 2 6 == slice f.bytes 6 6) = none →
        leaves (.classifyFrame p) s (fun t => taken t ∧ counted s t .BND_NO_PEER_frames ∧ t.peers = s.peers))) ∧
    (peerFor s p false et = none →
      (udpOf f.bytes = none → leaves (.classifyFrame p) s (fun t => taken t ∧ counted s t .FLT_DROP_bad_ip ∧
        t.chans = s.chans)) ∧
      (∀ v6 src dst sport dport data, udpOf f.bytes = some (v6, src, dst, sport, dport, data) →
        peerFor s p true (fun r => v6 && slice r 34 16 == src && slice r 18 16 == dst &&
          beAt r 52 2 == sport && beAt r 50 2 == dport) = none →
        let key := fun m => rtpKey p (frameVlan f.bytes) v6 src dst sport dport m
        (findKey s (key 0) = none → findKey s (key 1) = none → leaves (.classifyFrame p) s (fun t =>
          taken t ∧ counted s t .FLT_DROP_no_session ∧ t.chans = s.chans)) ∧
        (∀ h, findKey s (key 0) = some h → entryUe s h = false →
          (liveChan s h = none → (tget? s.sess h).isSome = true → leaves (.classifyFrame p) s (fun t => taken t ∧
            (sessAt t h).drops = satTo 65535 ((sessAt s h).drops + 1) ∧ t.chans = s.chans)) ∧
          (∀ n, liveChan s h = some n → exec (.classifyFrame p) s =
            .next (rtpPacket n (legOfHandle (chanAt s n) h) data (takeRx p q f s)))))) := by
  intro taken et
  have hexec := exec_classify hs hq
  refine ⟨fun hsome => ⟨fun k hk => ?_, fun hno => ?_⟩, fun hno => ⟨fun hip => ?_, ?_⟩⟩
  · rw [← peerFor_takeRx (q := q) (f := f)] at hsome hk
    rw [hexec, classify_peer (r := takeRx p q f s) hsome hk]
  · rw [← peerFor_takeRx (q := q) (f := f)] at hsome hno
    rw [classify_noPeer (r := takeRx p q f s) hsome hno] at hexec
    refine ⟨_, hexec, taken_of_ports (f := f) ?_, ?_, ?_⟩
    · simp only [raiseLimited_frame, fbump_frame]
    · exact counted_raising (r := takeRx p q f s) rfl (onlyAt_raiseLimited ..) (by decide) (by decide) (by decide)
    · simp only [raiseLimited_frame, fbump_frame]
      rfl
  · rw [← peerFor_takeRx (q := q) (f := f)] at hno
    rw [classify_badIp (r := takeRx p q f s) hno hip] at hexec
    exact ⟨_, hexec, taken_of_ports (fbump_ports ..),
      counted_of_regs rfl (by decide) (by decide), rfl⟩
  · intro v6 src dst sport dport data hudp hpeer key
    rw [← peerFor_takeRx (q := q) (f := f)] at hno hpeer
    rw [classify_udp (r := takeRx p q f s) hno hudp hpeer] at hexec
    refine ⟨fun h0 h1 => ?_, fun h h0 hue => ⟨fun hpark hent => ?_, fun n hn => ?_⟩⟩
    · rw [sessionFrame_unknown (r := takeRx p q f s) h0 h1] at hexec
      exact ⟨_, hexec, taken_of_ports (fbump_ports ..),
        counted_of_regs rfl (by decide) (by decide), rfl⟩
    · rw [sessionFrame_found (r := takeRx p q f s) h0 hue] at hexec
      obtain ⟨hdrops, hchans, hports⟩ := parkedDrop_spec (r := takeRx p q f s) hent
      have hdrop : legPacket h false data (takeRx p q f s) = parkedDrop h (takeRx p q f s) := by
        rw [legPacket, show liveChan (takeRx p q f s) h = none from hpark]
      rw [hdrop] at hexec
      exact ⟨_, hexec, taken_of_ports hports, hdrops, hchans⟩
    · rw [hexec, sessionFrame_found (r := takeRx p q f s) h0 hue, legPacket, show liveChan (takeRx p q f s) h = some n from hn]
      rfl

/-- The classifier of a standby takes the frames that its partner forwards. -/
theorem classifyFrame_forwarded {p : Fin 2} {s : State} (hs : isStandby s = true) :
    (nextForward s p = none → exec (.classifyFrame p) s = .next s) ∧
    (∀ f, nextForward s p = some f → peerFor s p false (fun r => beAt r 16 2 == frameEt f.2.2) = none →
      udpOf f.2.2 = none → leaves (.classifyFrame p) s (fun t => counted s t .FLT_DROP_bad_ip ∧
        t.pair.fwd = s.pair.fwd.filter (fun y => y != f) ∧ t.ports = s.ports)) := by
  refine ⟨fun h => ?_, fun f h hno hip => ?_⟩
  · change Host.Outcome.next _ = _
    rw [hs, if_pos rfl, h]
  · have hexec : exec (.classifyFrame p) s = _ := rfl
    rw [exec] at hexec
    have hbad := classify_badIp (p := p) (r := { s with pair := { s.pair with
      fwd := s.pair.fwd.filter (fun x => x != f), fwdTick := some (f.1 / 2 ^ 24) } }) hno hip
    refine ⟨{ fbump .FLT_DROP_bad_ip 1 { s with pair := { s.pair with
      fwd := s.pair.fwd.filter (fun x => x != f), fwdTick := some (f.1 / 2 ^ 24) } } with
        pair := { s.pair with fwd := s.pair.fwd.filter (fun x => x != f), fwdTick := none } }, ?_, ?_, rfl, rfl⟩
    · change Host.Outcome.next _ = _
      rw [hs, if_pos rfl, h]
      dsimp only
      rw [hbad]
      rfl
    · exact counted_after (counted_of_regs (s := s) (r := { s with pair := { s.pair with
        fwd := s.pair.fwd.filter (fun x => x != f), fwdTick := some (f.1 / 2 ^ 24) } }) rfl (by decide) (by decide))
        (OnlyAt.of_regs (as := []) rfl) List.not_mem_nil

/-! ### The mast controller (R31, R236) -/

theorem mastFrame_unhandled {port : Nat} {b : Bytes} {r : State} (h : mastAnswer r port b = none) :
    mastFrame port b r = fbump .FLT_FILTER_DROP_mast_unhandled 1 r := by
  rw [mastFrame, h]

theorem mastFrame_answered {port : Nat} {b a : Bytes} {r : State} (h : mastAnswer r port b = some a) :
    mastFrame port b r = draw (pushMast port a r) := by
  rw [mastFrame, h]

theorem mastReceive_idle {s : State} (h : s.mast.fw = false ∨ s.mast.down = true) (port : Fin 3) :
    exec (.mastFrameReceive port) s = .next s := by
  have hdown : (!s.mast.fw || s.mast.down) = true := by rcases h with h | h <;> simp [h]
  exact congrArg Host.Outcome.next (if_pos hdown)

theorem mastReceive_trunk {p : Fin 2} {s : State} (hfw : s.mast.fw = true) (hup : s.mast.down = false) :
    exec (.mastFrameReceive (p.castLE (by decide))) s = .next (match oldestFor s p 1 with
      | none => s
      | some (q, f) => mastFrame p f.bytes (takeRx p q f s)) := by
  have hp : ¬ (p.castLE (by decide : 2 ≤ 3)).val = 2 := by
    rw [Fin.val_castLE]
    omega
  have hrun : ¬ (!s.mast.fw || s.mast.down) = true := by simp [hfw, hup]
  exact congrArg Host.Outcome.next ((if_neg hrun).trans (if_neg hp))

theorem mastReceive_service {s : State} (hfw : s.mast.fw = true) (hup : s.mast.down = false) :
    exec (.mastFrameReceive 2) s = .next (match s.svc.rx with
      | [] => s
      | f :: t => mastFrame 2 f.bytes { s with svc := { s.svc with rx := t, used := s.svc.used - f.bufs } }) := by
  have hrun : ¬ (!s.mast.fw || s.mast.down) = true := by simp [hfw, hup]
  exact congrArg Host.Outcome.next ((if_neg hrun).trans (if_pos rfl))

/-- Settles O35: both consumers take the oldest frame of their ring, and one chain of cases says what becomes of it. -/
theorem framesReachTheirConsumers : Obligations.FramesReachTheirConsumers := by
  unfold Obligations.FramesReachTheirConsumers
  intro p s x
  refine ⟨fun hs => ⟨fun hno => ?_, fun q f hq => classifyFrame_taken hs hq⟩, classifyFrame_forwarded, mastReceive_idle,
    fun hfw hup => ?_⟩
  · change Host.Outcome.next _ = _
    rw [hs, if_neg Bool.false_ne_true, hno]
  · intro rx
    have hexec := mastReceive_trunk (p := p) hfw hup
    refine ⟨fun hno => by rw [hexec, hno], fun q f hq => ?_, fun hno => by rw [mastReceive_service hfw hup, hno],
      fun f rest hring hno => ?_⟩
    · rw [hq] at hexec
      refine ⟨fun a ha => hexec.trans (congrArg _ (mastFrame_answered ha)), fun hno => ⟨_, hexec, ?_⟩⟩
      dsimp only
      rw [mastFrame_unhandled (r := takeRx p q f s) hno]
      refine ⟨counted_of_regs rfl (by decide) (by decide), taken_of_ports (fbump_ports ..), ?_⟩
      simp only [portAt, fbump_frame]
      exact congrArg (tget · q []) (takeRx_tx p q f s)
    · have hservice := mastReceive_service hfw hup
      rw [hring] at hservice
      refine ⟨_, hservice, ?_⟩
      dsimp only
      rw [mastFrame_unhandled (r := { s with svc := { s.svc with rx := rest, used := s.svc.used - f.bufs } }) hno]
      exact ⟨counted_of_regs rfl (by decide) (by decide), rfl⟩

end Sys2Proof.Proofs.FrameConsumers
end

section
/-! PROOF. Pauses, gate lists and the service port's collisions and management frames (R240, R242, R243, R247, R248). -/

namespace Sys2Proof.Proofs.PausesAndGates

open Sys2Proof Sys2Proof.Machine Sys2Proof.Spec Sys2Proof.Proofs.Effects Sys2Proof.Proofs.RegisterFields
  Sys2Proof.Proofs.IslandCommands Sys2Proof.Proofs.FrameConsumers

/-! ### Pauses (R242, R243) -/

section

variable {p : Fin 2} {q : Fin 8} {s : State}

theorem getLsbD_cleared (v : BitVec 8) (k : Nat) (q : Fin 8) :
    (v &&& ~~~(1#8 <<< k)).getLsbD q = (v.getLsbD q && decide (q.val ≠ k)) := by
  rw [BitVec.getLsbD_and, BitVec.getLsbD_not, BitVec.getLsbD_shiftLeft, BitVec.getLsbD_one]
  have hq := q.isLt
  by_cases h : q.val = k
  · subst h; simp
  · simp [h, hq]
    intros
    omega

theorem getLsbD_set (v : BitVec 8) (k : Nat) (q : Fin 8) :
    (v ||| (1#8 <<< k)).getLsbD q = (v.getLsbD q || decide (q.val = k)) := by
  rw [BitVec.getLsbD_or, BitVec.getLsbD_shiftLeft, BitVec.getLsbD_one]
  have hq := q.isLt
  by_cases h : q.val = k
  · subst h; simp
  · simp [h, hq]
    intros
    omega

/-- Queues released, each that a list names. -/
theorem getLsbD_released (l : List Nat) (v : BitVec 8) (q : Fin 8) :
    (l.foldl (fun v k => v &&& ~~~(1#8 <<< k)) v).getLsbD q = (v.getLsbD q && decide (q.val ∉ l)) := by
  induction l generalizing v with
  | nil => simp
  | cons k l ih => rw [List.foldl_cons, ih, getLsbD_cleared]; simp [Bool.and_assoc]

/-- Queues stopped, each that a list names and that is not in holdoff. -/
theorem getLsbD_stopped (l : List Nat) (h v : BitVec 8) (q : Fin 8) :
    (l.foldl (fun v k => if h.getLsbD k then v else v ||| (1#8 <<< k)) v).getLsbD q =
      (v.getLsbD q || (decide (q.val ∈ l) && !h.getLsbD q)) := by
  induction l generalizing v with
  | nil => simp
  | cons k l ih =>
    rw [List.foldl_cons, ih]
    cases hk : h.getLsbD k with
    | true => by_cases hq : q.val = k <;> simp_all
    | false =>
      rw [if_neg Bool.false_ne_true, getLsbD_set]
      by_cases hq : q.val = k <;> simp_all

/-- A pause of every queue, or its end. -/
theorem pauseQueues_all (n : Nat) (s : State) :
    (portAt (pauseQueues p (fun _ => some n) s) p).paused.getLsbD q =
      (if n = 0 then false else (portAt s p).paused.getLsbD q || !(portAt s p).holdoff.getLsbD q) ∧
    (portAt (pauseQueues p (fun _ => some n) s) p).rx = (portAt s p).rx := by
  unfold pauseQueues
  rw [portAt_putPort]
  refine ⟨?_, rfl⟩
  have hq : q.val ∈ List.range 8 := List.mem_range.mpr q.isLt
  cases n with
  | zero => exact (getLsbD_released (List.range 8) (portAt s p).paused q).trans (by simp)
  | succ n => exact (getLsbD_stopped (List.range 8) (portAt s p).holdoff (portAt s p).paused q).trans (by simp)

/-- A PAUSE frame on a trunk port. -/
theorem receiveTrunk_pause {b : Bytes} {phase : BitVec 16} (hmine : otherAddress s p b = false) (hlong : 64 ≤ b.length)
    (hshort : b.length ≤ fget s .TMC_CTRL_max_frame p) (hfcs : badFcs b = false) (het : frameEt b = 0x8808)
    (hop : beAt (b.take (b.length - 4)) (frameOff (b.take (b.length - 4))) 2 = 1) (hmode : fget s .TMC_CTRL_pause_mode p = 1) :
    receiveTrunk p b ⟨false, phase⟩ s =
      pauseQueues p (fun _ => some (beAt (b.take (b.length - 4)) (frameOff (b.take (b.length - 4)) + 2) 2))
        (fbump .TMC_CTRL_RX_pause_rx 1 s p) := by
  have hlong' : ¬ b.length < 64 := by omega
  have hshort' : ¬ fget s .TMC_CTRL_max_frame p < b.length := by omega
  simp [receiveTrunk, rxRow, firstMet, controlFrame, hmine, hlong', hshort', hfcs, het, hop, hmode]

theorem pauseFrame_row {b : Bytes} (hlink : (portAt s p).link = true) (hmine : otherAddress s p b = false) (hlong : 64 ≤ b.length)
    (hshort : b.length ≤ fget s .TMC_CTRL_max_frame p) (hfcs : badFcs b = false) (het : frameEt b = 0x8808)
    (hop : beAt (b.take (b.length - 4)) (frameOff (b.take (b.length - 4))) 2 = 1) (hmode : fget s .TMC_CTRL_pause_mode p = 1)
    (phase : BitVec 16) :
    leaves (.frameReceive (p.castLE (by decide)) b ⟨false, phase⟩) s (fun t => counted s t .TMC_CTRL_RX_pause_rx p ∧
      (portAt t p).paused.getLsbD q = (if beAt (b.take (b.length - 4)) (frameOff (b.take (b.length - 4)) + 2) 2 = 0 then false
        else (portAt s p).paused.getLsbD q || !(portAt s p).holdoff.getLsbD q) ∧
      (portAt t p).rx = (portAt s p).rx) := by
  have hp : ¬ (p.castLE (by decide : 2 ≤ 3)).val = 2 := by
    rw [Fin.val_castLE]
    omega
  have hexec : exec (.frameReceive (p.castLE (by decide)) b ⟨false, phase⟩) s = .next (receiveTrunk p b ⟨false, phase⟩ s) :=
    congrArg Host.Outcome.next ((if_neg hp).trans (if_pos hlink))
  have hports : portAt (fbump .TMC_CTRL_RX_pause_rx 1 s p) p = portAt s p := by simp only [portAt, fbump_frame]
  rw [receiveTrunk_pause hmine hlong hshort hfcs het hop hmode] at hexec
  obtain ⟨hpaused, hrx⟩ := pauseQueues_all (q := q) (p := p)
    (beAt (b.take (b.length - 4)) (frameOff (b.take (b.length - 4)) + 2) 2) (fbump .TMC_CTRL_RX_pause_rx 1 s p)
  rw [hports] at hpaused hrx
  exact ⟨_, hexec, counted_fbump s .TMC_CTRL_RX_pause_rx p (by decide) (by decide), hpaused, hrx⟩

theorem pauseQueues_one (p : Fin 2) (q : Fin 8) (s : State) :
    pauseQueues p (fun k => if k = q.val then some 0 else none) s =
      putPort p { portAt s p with paused := (portAt s p).paused &&& ~~~(1#8 <<< q.val) } s := by
  unfold pauseQueues
  fin_cases q <;> rfl

theorem pauseExpire_row (p : Fin 2) (q : Fin 8) (s : State) :
    leaves (.pauseExpire (p.castLE (by decide)) q) s (fun t =>
      portAt t p = { portAt s p with paused := (portAt s p).paused &&& ~~~(1#8 <<< q.val) } ∧ t.svc = s.svc) := by
  have hp : ¬ (p.castLE (by decide : 2 ≤ 3)).val = 2 := by
    rw [Fin.val_castLE]
    omega
  exact ⟨_, congrArg Host.Outcome.next ((if_neg hp).trans (pauseQueues_one p q s)), portAt_putPort .., rfl⟩

theorem pauseWatchdog_row (hpause : (portAt s p).paused.getLsbD q = true) (hhead : (txHead s p q).isSome = true) :
    leaves (.pauseWatchdog p q) s (fun t =>
      portAt t p = { portAt s p with
        paused := (portAt s p).paused &&& ~~~(1#8 <<< q.val), holdoff := (portAt s p).holdoff ||| (1#8 <<< q.val) } ∧
      counted s t .TMC_PAUSE_BREAK_pause_breaks p) := by
  have hboth : ((portAt s p).paused.getLsbD q && (txHead s p q).isSome) = true := by rw [hpause, hhead]; rfl
  refine ⟨_, congrArg Host.Outcome.next (if_pos hboth), ?_, ?_⟩
  · simp only [portAt, raise_frame, fbump_frame]
    exact portAt_putPort ..
  · refine counted_after (t := fbump .TMC_PAUSE_BREAK_pause_breaks 1 (putPort p _ s) p) ?_ (onlyAt_raise ..)
      (notMem_eventCounters p.isLt (by decide) (by decide) (by decide))
    exact counted_before (as := []) (.of_regs rfl) List.not_mem_nil
      (counted_fbump _ .TMC_PAUSE_BREAK_pause_breaks p (by decide) (by decide))

theorem pauseWatchdog_idle (h : (portAt s p).paused.getLsbD q = false ∨ txHead s p q = none) :
    exec (.pauseWatchdog p q) s = .next s := by
  refine congrArg Host.Outcome.next (if_neg ?_)
  rcases h with h | h
  · rw [h, Bool.false_and]
    exact Bool.false_ne_true
  · rw [h, Option.isSome_none, Bool.and_false]
    exact Bool.false_ne_true

end

/-! ### Gate lists (R240) -/

section

variable {p : Fin 2} {s : State}

theorem gateListStart_idle (h : (portAt s p).pending = none ∨ ∃ l, (portAt s p).pending = some l ∧ nowNs s < l.base) :
    exec (.gateListStart p) s = .next s := by
  refine congrArg Host.Outcome.next (if_neg ?_)
  rcases h with h | ⟨l, h, hl⟩ <;> simp [listDue, h]
  exact hl

theorem gateListStart_row {l : GateList} (h : (portAt s p).pending = some l) (hl : l.base ≤ nowNs s) :
    leaves (.gateListStart p) s (fun t => portAt t p = { portAt s p with
      pending := none, oper := some l, gate := BitVec.ofNat 8 (gatesAt l (nowNs s)) } ∧ t.regs = s.regs) := by
  have hdue : listDue s p = true := by simp [listDue, h, hl]
  have hstart : gateListStart p s = startGates p l (putPort p { portAt s p with pending := none } s) := by
    rw [gateListStart, h]
  refine ⟨_, congrArg Host.Outcome.next ((if_pos hdue).trans hstart), ?_, rfl⟩
  rw [startGates, portAt_putPort, portAt_putPort]
  rfl

theorem gateEntryChange_row {l : GateList} (h : (portAt s p).oper = some l) :
    leaves (.gateEntryChange p) s (fun t =>
      portAt t p = { portAt s p with gate := BitVec.ofNat 8 (gatesAt l (nowNs s)) } ∧ t.regs = s.regs) := by
  have hmove : moveGates p s = startGates p l s := by rw [moveGates, h]
  refine ⟨_, congrArg Host.Outcome.next hmove, ?_, rfl⟩
  rw [startGates, portAt_putPort, ← h]

end

/-! ### The service port (R247, R248) -/

section

variable {s : State} {f : TxFrame} {rest : List TxFrame}

/-- The frame at the head of the service port, lost. -/
def headLost (rest : List TxFrame) (s : State) : State :=
  { fbump .SVC_COLL_collisions 1 s with svc := { (fbump .SVC_COLL_collisions 1 s).svc with tx := rest, attempt := 0, backoff := none } }

theorem headLost_svc (rest : List TxFrame) (s : State) :
    (headLost rest s).svc = { s.svc with tx := rest, attempt := 0, backoff := none } := by
  simp only [headLost, fbump_frame]

/-- A frame lost to collisions, counted under its cause. -/
theorem headLost_counted (rest : List TxFrame) (s : State) {c : Fld} (late : Nat) (hr : c.reg = .SVC_COLL) (h : c.lo ≤ c.hi)
    (hc : c.hi < 16) : counted s (collisionLimit late (fbump c 1 (headLost rest s))) c ∧
      (collisionLimit late (fbump c 1 (headLost rest s))).svc = { s.svc with tx := rest, attempt := 0, backoff := none } := by
  have hbeside : fget (headLost rest s) c = fget s c :=
    fget_fbump_beside s .SVC_COLL_collisions c 1 0 0 hr (by decide) h (by omega) (.inr hc)
  have hcount : counted s (fbump c 1 (headLost rest s)) c := by
    rw [counted, ← hbeside]
    exact counted_fbump (headLost rest s) c 0 h (by omega)
  refine ⟨counted_after hcount (onlyAt_raiseLimited ..) (by rw [hr]; decide), ?_⟩
  simp only [collisionLimit, raiseLimited_frame, fbump_frame, headLost_svc]

theorem svcCollision_idle (h : s.svc.tx = [] ∨ svcFull s = true) (late : Bool) : exec (.svcCollision late) s = .next s := by
  change execSvcCollision late s = _
  unfold execSvcCollision
  cases htx : s.svc.tx with
  | nil => rfl
  | cons f rest =>
    rw [htx] at h
    have hfull : svcFull s = true := h.resolve_left (List.cons_ne_nil f rest)
    rw [hfull]
    rfl

theorem svcCollision_half (htx : s.svc.tx = f :: rest) (hfull : svcFull s = false) (late : Bool) :
    exec (.svcCollision late) s = .next (
      if late then collisionLimit 1 (fbump .SVC_COLL_late 1 (headLost rest s))
      else if 16 ≤ s.svc.attempt + 1 then collisionLimit 0 (fbump .SVC_COLL_excess 1 (headLost rest s))
      else draw { fbump .SVC_COLL_collisions 1 s with svc := { (fbump .SVC_COLL_collisions 1 s).svc with
        attempt := s.svc.attempt + 1
        backoff := some ((Config.freeWord s.free).toNat % 2 ^ min (s.svc.attempt + 1) 10) } }) := by
  change execSvcCollision late s = _
  unfold execSvcCollision
  rw [htx, hfull]
  rfl

theorem svcCollision_again (htx : s.svc.tx = f :: rest) (hfull : svcFull s = false) (h : s.svc.attempt < 15) :
    leaves (.svcCollision false) s (fun t => t.svc.tx = s.svc.tx ∧
      t.svc.attempt = s.svc.attempt + 1 ∧ counted s t .SVC_COLL_collisions ∧
      ∃ n, t.svc.backoff = some n ∧ n < 2 ^ min (s.svc.attempt + 1) 10) := by
  have hexec := svcCollision_half htx hfull false
  rw [if_neg Bool.false_ne_true, if_neg (by omega)] at hexec
  refine ⟨_, hexec, rfl, rfl, ?_, _, rfl, Nat.mod_lt _ (by positivity)⟩
  exact counted_after (counted_fbump s .SVC_COLL_collisions 0 (by decide) (by decide)) (OnlyAt.of_regs (as := []) rfl)
    List.not_mem_nil

theorem svcCollision_lost (htx : s.svc.tx = f :: rest) (hfull : svcFull s = false) :
    (15 ≤ s.svc.attempt → leaves (.svcCollision false) s (fun t => counted s t .SVC_COLL_excess ∧
      t.svc = { s.svc with tx := rest, attempt := 0, backoff := none })) ∧
    leaves (.svcCollision true) s (fun t => counted s t .SVC_COLL_late ∧
      t.svc = { s.svc with tx := rest, attempt := 0, backoff := none }) := by
  refine ⟨fun h => ?_, _, svcCollision_half htx hfull true, headLost_counted rest s 1 rfl (by decide) (by decide)⟩
  have hexec := svcCollision_half htx hfull false
  rw [if_neg Bool.false_ne_true, if_pos (by omega)] at hexec
  exact ⟨_, hexec, headLost_counted rest s 0 rfl (by decide) (by decide)⟩

theorem mdioDone_row (d : BitVec 16) :
    (s.svc.mdio = false → exec (.mdioDone d) s = .next s) ∧
    (s.svc.mdio = true → fget s .SVC_MDIO_CMD_op = 2 →
      leaves (.mdioDone d) s (fun t => t.svc = { s.svc with mdio := false } ∧ fget t .SVC_MDIO_CMD_data = d.toNat)) ∧
    (s.svc.mdio = true → fget s .SVC_MDIO_CMD_op < 2 →
      exec (.mdioDone d) s = .next { s with svc := { s.svc with mdio := false } }) := by
  refine ⟨fun h => ?_, fun h hop => ?_, fun h hop => ?_⟩
  · exact congrArg Host.Outcome.next (if_neg (by rw [h]; exact Bool.false_ne_true))
  · refine ⟨_, congrArg Host.Outcome.next ((if_pos h).trans (if_pos (.inl hop))), rfl, ?_⟩
    rw [fget_fset_same _ _ _ _ _ (by decide) (by decide)]
    exact Nat.mod_eq_of_lt d.isLt
  · exact congrArg Host.Outcome.next ((if_pos h).trans (if_neg (by omega)))

end

/-- Settles O36: each row is one change of a port's pause, gate or backoff state. -/
theorem pausesGatesAndTheServicePort : Obligations.PausesGatesAndTheServicePort := by
  unfold Obligations.PausesGatesAndTheServicePort
  intro p q s x
  refine ⟨fun b hlink hmine hlong hshort hfcs het hop hmode => pauseFrame_row hlink hmine hlong hshort hfcs het hop hmode,
    pauseExpire_row p q s, rfl, pauseWatchdog_row, pauseWatchdog_idle, ⟨_, rfl, portAt_putPort .., rfl⟩,
    fun h => gateListStart_idle (.inl h), fun l h hl => gateListStart_idle (.inr ⟨l, h, hl⟩), fun l => gateListStart_row,
    fun h => ?_, fun l => gateEntryChange_row, svcCollision_idle,
    fun f rest htx hfull => ⟨svcCollision_again htx hfull, svcCollision_lost htx hfull⟩, rfl, mdioDone_row⟩
  refine congrArg Host.Outcome.next ?_
  rw [moveGates, h]

end Sys2Proof.Proofs.PausesAndGates
end

section
/-! PROOF. The highways' groups and the swap of their map (R257, R259, R261 to R263, R265, R266, R270, R272, R290). -/

namespace Sys2Proof.Proofs.Highways

open Sys2Proof Sys2Proof.Machine Sys2Proof.Spec Sys2Proof.Proofs.Effects Sys2Proof.Proofs.RegisterPlaces
  Sys2Proof.Proofs.RegisterFields Sys2Proof.Proofs.IslandCommands

/-! ### Groups (R257, R261 to R263) -/

section

variable {g : Fin 4} {s : State}

theorem groupAt_putGroup (g : Nat) (x : TdmGroup) (s : State) : groupAt (putGroup g x s) g = x := tget_tset_same ..

theorem groupAt_congr {t u : State} (h : t.tdm = u.tdm) (g : Nat) : groupAt t g = groupAt u g := by rw [groupAt, h, groupAt]

theorem fbump_tdm (c : Fld) (n : Nat) (s : State) (i j : Nat) : (fbump c n s i j).tdm = s.tdm := by simp only [fbump_frame]

theorem raise_tdm (src : Nat) (l : List (Nat × Nat)) (s : State) : (raise src l s).tdm = s.tdm := by simp only [raise_frame]

/-- A group replaced and one of its counters advanced. -/
theorem counted_putGroup (c : Fld) (g : Fin 4) (x : TdmGroup) (s : State) (h : c.lo ≤ c.hi) (h31 : c.hi < 32) :
    counted s (fbump c 1 (putGroup g x s) g) c g :=
  counted_before (as := []) (.of_regs rfl) List.not_mem_nil (counted_fbump (putGroup g x s) c g h h31)

theorem groupErr_apart (g : Fin 4) : RegId.addr .TDM_GRP_ERR g ∉ eventCounters :=
  notMem_eventCounters (g.isLt.trans_le (by decide)) (by decide) (by decide) (by decide)

theorem groupSlip_apart (g : Fin 4) : RegId.addr .TDM_GRP_SLIP g ∉ eventCounters :=
  notMem_eventCounters (g.isLt.trans_le (by decide)) (by decide) (by decide) (by decide)

variable {rx tx : List (Nat × Byte)}

theorem frameStart_idle (h : (groupAt s g).st = .disabled ∨ (groupAt s g).st = .lost) :
    exec (.tdmFrameStart g rx tx) s = .next s := by
  refine congrArg Host.Outcome.next ((if_neg ?_).trans (if_neg ?_)) <;> rcases h with h | h <;> simp [h]

theorem frameStart_qualifying (h : (groupAt s g).st = .qualifying) : leaves (.tdmFrameStart g rx tx) s (fun t =>
    groupAt t g = { groupAt s g with clock := true, fs := true } ∧ t.regs = s.regs) :=
  ⟨_, congrArg Host.Outcome.next ((if_neg (by simp [h])).trans (if_pos h)), groupAt_putGroup .., rfl⟩

/-- A group in progress as its next frame begins. -/
def frameBegun (s : State) (g : Nat) (rx : List (Nat × Byte)) : TdmGroup :=
  { groupAt s g with
    rx := if (groupAt s g).begun then (groupAt s g).rx ++ [rxFrame s g rx] else (groupAt s g).rx
    begun := true, oldMap := none, clock := true, fs := true }

/-- A frame pulse of a locked group. -/
theorem frameStart_locked (h : (groupAt s g).st = .locked) :
    exec (.tdmFrameStart g rx tx) s = .next (
      let s0 := if ownsHalyard s then s else recordHeld g tx s
      match (groupAt s g).tx with
      | f :: t => putGroup g { frameBegun s g rx with tx := t, last := f, lastMap := none, driven := driveFrame s g none f } s0
      | [] => noteSlip g 1 1 (fbump .TDM_GRP_SLIP_tx_slips 1
          (putGroup g { frameBegun s g rx with driven := driveFrame s g (groupAt s g).lastMap (groupAt s g).last } s0) g)) :=
  congrArg Host.Outcome.next (if_pos h)

theorem noteSlip_tdm (g dir rep : Nat) (s : State) : (noteSlip g dir rep s).tdm = s.tdm := by
  simp only [noteSlip, raiseCounting_frame]

theorem frameStart_owner (h : (groupAt s g).st = .locked) (hown : ownsHalyard s = true) :
    let x := groupAt s g
    let got := if x.begun then x.rx ++ [rxFrame s g rx] else x.rx
    (∀ f rest, x.tx = f :: rest → leaves (.tdmFrameStart g rx tx) s (fun t => groupAt t g = { x with
      rx := got, tx := rest, last := f, lastMap := none, driven := driveFrame s g none f, begun := true, oldMap := none
      clock := true, fs := true } ∧ t.regs = s.regs)) ∧
    (x.tx = [] → leaves (.tdmFrameStart g rx tx) s (fun t => groupAt t g = { x with
      rx := got, driven := driveFrame s g x.lastMap x.last, begun := true, oldMap := none, clock := true, fs := true } ∧
      counted s t .TDM_GRP_SLIP_tx_slips g)) := by
  intro x got
  have hexec := frameStart_locked (rx := rx) (tx := tx) h
  rw [if_pos hown] at hexec
  refine ⟨fun f rest htx => ?_, fun htx => ?_⟩
  · rw [htx] at hexec
    exact ⟨_, hexec, groupAt_putGroup .., rfl⟩
  · rw [htx] at hexec
    refine ⟨_, hexec, ?_, counted_after (counted_putGroup .TDM_GRP_SLIP_tx_slips g _ s (by decide) (by decide))
      (onlyAt_raiseCounting ..) (groupSlip_apart g)⟩
    rw [groupAt_congr ((noteSlip_tdm ..).trans (fbump_tdm ..)), groupAt_putGroup]
    rfl

theorem frameStart_listener (h : (groupAt s g).st = .locked) (hown : ownsHalyard s = false) :
    leaves (.tdmFrameStart g rx tx) s (fun t => (groupAt t g).begun = true ∧ t.tdm.held = (recordHeld g tx s).tdm.held) := by
  have hexec := frameStart_locked (rx := rx) (tx := tx) h
  rw [if_neg (by rw [hown]; exact Bool.false_ne_true)] at hexec
  refine ⟨_, hexec, ?_⟩
  cases (groupAt s g).tx with
  | nil =>
    have htdm := fun x => (noteSlip_tdm g 1 1 (fbump .TDM_GRP_SLIP_tx_slips 1 (putGroup g x (recordHeld g tx s)) g)).trans
      (fbump_tdm ..)
    exact ⟨by rw [groupAt_congr (htdm _), groupAt_putGroup]; rfl, by rw [htdm]; rfl⟩
  | cons f rest => exact ⟨by rw [groupAt_putGroup]; rfl, rfl⟩

theorem fsMisplaced_row (h : (groupAt s g).st ≠ .disabled) :
    leaves (.tdmFsMisplaced g) s (fun t => counted s t .TDM_GRP_ERR_fs_errors g ∧
      groupAt t g = { groupAt s g with clock := true, fs := false } ∧ t.tdm.swap = s.tdm.swap ∧ t.tdm.got = s.tdm.got) := by
  refine ⟨_, congrArg Host.Outcome.next (if_neg h), counted_putGroup _ g _ s (by decide) (by decide), ?_, ?_, ?_⟩
  · rw [groupAt_congr (fbump_tdm ..), groupAt_putGroup]
  · simp only [fbump_frame, putGroup]
  · simp only [fbump_frame, putGroup]

/-- A group of which every frame is gone, in a new state. -/
def cleared (x : TdmGroup) (st : GroupState) (clock fs : Bool) : TdmGroup :=
  { x with
    st := st, rx := [], tx := [], last := [], lastMap := none, driven := [], begun := st == .locked, oldMap := none
    backlog := false, left := false, clock := clock, fs := fs }

theorem groupAt_groupState (g : Nat) (st : GroupState) (s : State) :
    groupAt (groupState g st s) g = cleared (groupAt s g) st (groupAt s g).clock (groupAt s g).fs := groupAt_putGroup ..

theorem groupLocked_row (h : (groupAt s g).st = .qualifying) :
    leaves (.tdmGroupLocked g) s (fun t => groupAt t g = cleared (groupAt s g) .locked true true) := by
  refine ⟨_, congrArg Host.Outcome.next (if_pos h), ?_⟩
  dsimp only
  rw [groupAt_congr (raise_tdm ..), groupAt_putGroup, groupAt_groupState]
  rfl

theorem groupLost_row (cause : Fin 3) (h : (groupAt s g).st = .locked ∨ (groupAt s g).st = .qualifying) :
    leaves (.tdmGroupLost g cause) s (fun t =>
      groupAt t g = cleared (groupAt s g) .lost ((groupAt s g).clock && cause != 0) ((groupAt s g).fs && cause == 1) ∧
      counted s t .TDM_GRP_ERR_losses g) := by
  refine ⟨_, congrArg Host.Outcome.next (if_pos h), ?_, ?_⟩
  · rw [groupAt_congr ((raise_tdm ..).trans (fbump_tdm ..)),
      groupAt_putGroup, groupAt_groupState]
    fin_cases cause <;> rfl
  · refine counted_after (t := fbump .TDM_GRP_ERR_losses 1 (putGroup g _ (groupState g .lost s)) g) ?_ (onlyAt_raise ..) (groupErr_apart g)
    exact counted_before (as := []) (.of_regs rfl) List.not_mem_nil
      (counted_fbump (putGroup g _ (groupState g .lost s)) .TDM_GRP_ERR_losses g (by decide) (by decide))

theorem clockReturn_row (h : (groupAt s g).st = .lost) :
    leaves (.tdmClockReturn g) s (fun t => groupAt t g = cleared (groupAt s g) .qualifying true (groupAt s g).fs) := by
  refine ⟨_, congrArg Host.Outcome.next (if_pos h), ?_⟩
  dsimp only
  rw [groupAt_putGroup, groupAt_groupState]
  rfl

end

/-! ### The swap of the map (R265, R266, R290) -/

section

variable {s : State} {w : SwapWait}

theorem mapSwap_idle (hs : s.tdm.swap = some w) (h : s.time.counter.toNat ≠ s.time.beganAt ∨ tickNow s ≤ w.tick ∨
    (w.now = false ∧ s.time.began < w.time)) : exec .tdmMapSwap s = .next s := by
  have hnot : swapDue s w = false := by
    rw [swapDue]
    rcases h with h | h | ⟨hnow, h⟩
    · simp [h]
    · simp [h]
    · simp [hnow, h]
  change execTdmMapSwap s = _
  rw [execTdmMapSwap, hs]
  dsimp only
  rw [hnot, if_neg Bool.false_ne_true]

theorem mapSwap_due (hs : s.tdm.swap = some w) (hat : s.time.counter.toNat = s.time.beganAt) (hlater : w.tick < tickNow s)
    (htime : w.now = true ∨ w.time ≤ s.time.began) : exec .tdmMapSwap s = .next (swapNow w.time s) := by
  have hdue : swapDue s w = true := by
    rw [swapDue]
    rcases htime with h | h <;> simp [hat, hlater, h]
  change execTdmMapSwap s = _
  rw [execTdmMapSwap, hs]
  dsimp only
  rw [hdue, if_pos rfl]

/-- The registers that a swap's result touches. -/
theorem onlyAt_swapResult (r time tick : Nat) (s : State) :
    OnlyAt (RegId.addr .TDM_SWAP_CTRL :: eventCounters) s (swapResult r time tick s) :=
  .trans (as := [RegId.addr .TDM_SWAP_CTRL]) (onlyAt_fset _ _ _ _ _ (List.mem_singleton_self _)) (onlyAt_raise ..)

theorem swapResult_result {r : Nat} (hr : r < 8) (time tick : Nat) (s : State) :
    fget (swapResult r time tick s) .TDM_SWAP_CTRL_result = r := by
  rw [swapResult, (onlyAt_raise ..).fget (by decide), fget_fset_same _ _ _ _ _ (by decide) (by decide)]
  exact Nat.mod_eq_of_lt hr

theorem swapResult_tdm (r time tick : Nat) (s : State) : (swapResult r time tick s).tdm = s.tdm := by
  simp only [swapResult, raise_frame, fset, setWord]

theorem active_apart {l : Nat} (hl : l < 4096) {r : RegId} (hr : r ∈ [.TDM_SWAP_CTRL, .ERR_CLASS, .ERR_PENDING, .TDM_SWAP_TICK]) :
    RegId.addr .TDM_MAP_ACTIVE l ≠ r.addr := by
  have hp : RegId.TDM_MAP_ACTIVE ≠ r ∧ 0 < r.place.n1 ∧ 0 < r.place.n2 := by
    revert r
    decide
  exact addr_ne hp.1 (hl.trans_le (by decide)) (by decide) hp.2.1 hp.2.2

theorem active_notMem {l : Nat} (hl : l < 4096) : RegId.addr .TDM_MAP_ACTIVE l ∉ RegId.addr .TDM_SWAP_CTRL :: eventCounters := by
  rw [List.mem_cons, not_or]
  exact ⟨active_apart hl (by decide), notMem_eventCounters (hl.trans_le (by decide)) (by decide) (by decide) (by decide)⟩

/-- A map that fails its check stays as it was. -/
theorem swapNow_refused (hbad : shadowOk s = false) (time : Nat) :
    (swapNow time s).tdm = { s.tdm with swap := none } ∧ fget (swapNow time s) .TDM_SWAP_CTRL_result = 4 ∧
    ∀ l < 4096, regWord (swapNow time s) (RegId.addr .TDM_MAP_ACTIVE l) = regWord s (RegId.addr .TDM_MAP_ACTIVE l) := by
  have hswap : swapNow time s = swapResult 4 time 0 { s with tdm := { s.tdm with swap := none } } := by
    rw [swapNow, hbad]
    rfl
  rw [hswap]
  exact ⟨swapResult_tdm .., swapResult_result (by decide) .., fun l hl => (onlyAt_swapResult ..).same _ (active_notMem hl)⟩

theorem shadow_lt {l : Nat} (hl : l < 4096) : regWord s (RegId.addr .TDM_MAP_SHADOW l) < 2 ^ 32 := by
  cases hw : tget? s.regs (RegId.addr .TDM_MAP_SHADOW l) with
  | some w =>
    simp only [regWord, hw]
    exact w.isLt
  | none =>
    have hreset : regWord s (RegId.addr .TDM_MAP_SHADOW l) = setBits (setBits 0x80000000 12 8 (l / 128)) 6 0 (l % 128) :=
      regWord_of_unlisted hw (regAt_shadow hl)
    rw [hreset]
    unfold setBits
    omega

/-- The shadow bank copied as far as slot `n`. -/
theorem copied_upTo {n : Nat} (hn : n ≤ 4096) (s : State) :
    let t := (List.range n).foldl (fun s l => setWord (RegId.addr .TDM_MAP_ACTIVE l) (regWord s (RegId.addr .TDM_MAP_SHADOW l)) s) s
    t.tdm = s.tdm ∧ (∀ a, (∀ l < n, a ≠ RegId.addr .TDM_MAP_ACTIVE l) → regWord t a = regWord s a) ∧
    ∀ l < n, regWord t (RegId.addr .TDM_MAP_ACTIVE l) = regWord s (RegId.addr .TDM_MAP_SHADOW l) := by
  induction n with
  | zero => exact ⟨rfl, fun _ _ => rfl, fun _ h => absurd h (Nat.not_lt_zero _)⟩
  | succ n ih =>
    obtain ⟨htdm, hsame, hmap⟩ := ih (by omega)
    rw [List.range_succ, List.foldl_append, List.foldl_cons, List.foldl_nil]
    intro t
    refine ⟨htdm, fun a ha => ?_, fun l hl => ?_⟩
    · exact (regWord_setWord_other _ _ (ha n (by omega))).trans (hsame a fun l h => ha l (by omega))
    · rcases Nat.lt_succ_iff_lt_or_eq.mp hl with h | rfl
      · refine (regWord_setWord_other _ _ ?_).trans (hmap l h)
        exact addr_copy_ne (by simp; omega) (show l < 4096 by omega) (by decide) (show n < 4096 by omega) (by decide)
      · refine (regWord_setWord_same ..).trans ?_
        rw [hsame _ fun k hk => addr_ne (by decide) (show l < 4096 by omega) (by decide) (show k < 4096 by omega) (by decide)]
        exact Nat.mod_eq_of_lt (shadow_lt (by omega))

theorem copyMap_spec (s : State) : (copyMap s).tdm = s.tdm ∧
    ∀ l < 4096, regWord (copyMap s) (RegId.addr .TDM_MAP_ACTIVE l) = regWord s (RegId.addr .TDM_MAP_SHADOW l) := by
  obtain ⟨htdm, -, hmap⟩ := copied_upTo (le_refl 4096) s
  exact ⟨htdm, hmap⟩

theorem regWord_congr {t u : State} (h : t.regs = u.regs) (a : Nat) : regWord t a = regWord u a :=
  (OnlyAt.of_regs (as := []) h).same a List.not_mem_nil

/-- A register of one field that takes a word. -/
theorem regWord_swapTick (v : Nat) (s : State) :
    regWord (fset .TDM_SWAP_TICK_tick v s) (RegId.addr .TDM_SWAP_TICK) = v % 2 ^ 32 := by
  rw [fset]
  refine (regWord_setWord_same ..).trans ?_
  simp only [setBits, bitsOf]
  omega

/-- The groups as a swap finds them: frames in progress keep the old map. -/
def mapsKept (s : State) : State :=
  [0, 1, 2, 3].foldl (keepMap (wholeMap s)) { s with tdm := { s.tdm with swap := none } }

theorem mapsKept_regs (s : State) : (mapsKept s).regs = s.regs := rfl

theorem mapsKept_swap (s : State) : (mapsKept s).tdm.swap = none := rfl

theorem moveHolding_regs (old : Tab Nat) (s : State) : (moveHolding old s).regs = s.regs := rfl

theorem moveHolding_swap (old : Tab Nat) (s : State) : (moveHolding old s).tdm.swap = s.tdm.swap := rfl

/-- The state as the shadow map becomes the active one, before its result. -/
def swapped (s : State) : State :=
  fset .TDM_SWAP_TICK_tick (tickNow s % 2 ^ 32) (moveHolding (wholeMap s) (copyMap (mapsKept s)))

theorem swapped_spec (s : State) : (swapped s).tdm.swap = none ∧
    regWord (swapped s) (RegId.addr .TDM_SWAP_TICK) = tickNow s % 2 ^ 32 ∧
    ∀ l < 4096, regWord (swapped s) (RegId.addr .TDM_MAP_ACTIVE l) = regWord s (RegId.addr .TDM_MAP_SHADOW l) := by
  obtain ⟨htdm, hmap⟩ := copyMap_spec (mapsKept s)
  refine ⟨?_, ?_, fun l hl => ?_⟩
  · rw [swapped, fset, setWord, moveHolding_swap, htdm, mapsKept_swap]
  · rw [swapped, regWord_swapTick, Nat.mod_mod]
  · rw [swapped, fset, regWord_setWord_other _ _ (active_apart hl (by decide)), regWord_congr (moveHolding_regs ..), hmap l hl,
      regWord_congr (mapsKept_regs s)]

theorem swapNow_passed (hok : shadowOk s = true) (time : Nat) :
    swapNow time s = swapResult 2 time (tickNow s) (swapped s) := by
  simp only [swapNow, hok, Bool.not_true, Bool.false_eq_true, if_false, swapped, mapsKept]

theorem swapNow_taken (hok : shadowOk s = true) (time : Nat) :
    (swapNow time s).tdm.swap = none ∧ fget (swapNow time s) .TDM_SWAP_CTRL_result = 2 ∧
    regWord (swapNow time s) (RegId.addr .TDM_SWAP_TICK) = tickNow s % 2 ^ 32 ∧
    ∀ l < 4096, regWord (swapNow time s) (RegId.addr .TDM_MAP_ACTIVE l) = regWord s (RegId.addr .TDM_MAP_SHADOW l) := by
  obtain ⟨hnone, htick, hmap⟩ := swapped_spec s
  have hregs := onlyAt_swapResult 2 time (tickNow s) (swapped s)
  rw [swapNow_passed hok, swapResult_tdm]
  refine ⟨hnone, swapResult_result (by decide) .., ?_, fun l hl => ?_⟩
  · rw [hregs.same _ (by decide), htick]
  · rw [hregs.same _ (active_notMem hl), hmap l hl]

end

/-- Settles O37: a group's row is one change of its state; a swap is the copy of 4,096 words between its checks and its result. -/
theorem highwaysFollowTheirGroups : Obligations.HighwaysFollowTheirGroups := by
  unfold Obligations.HighwaysFollowTheirGroups
  intro group s g x
  refine ⟨fun rx tx => ⟨frameStart_idle, frameStart_qualifying, frameStart_owner, frameStart_listener⟩,
    fun h => congrArg Host.Outcome.next (if_pos h), fsMisplaced_row,
    ⟨groupLocked_row, fun h => congrArg Host.Outcome.next (if_neg h),
      fun cause => ⟨groupLost_row cause, fun h h' => congrArg Host.Outcome.next (if_neg (not_or.mpr ⟨h, h'⟩))⟩,
      clockReturn_row, fun h => congrArg Host.Outcome.next (if_neg h)⟩, fun h => ?_, fun w => mapSwap_idle,
    fun w hs hat hlater htime => ?_⟩
  · change execTdmMapSwap s = _
    rw [execTdmMapSwap, h]
  · have hexec := mapSwap_due hs hat hlater htime
    exact ⟨fun hbad => ⟨_, hexec, swapNow_refused hbad w.time⟩, fun hok => ⟨_, hexec, swapNow_taken hok w.time⟩⟩

end Sys2Proof.Proofs.Highways
end

section
/-! PROOF. The timing engine of the slave port (R281 to R283, R288). -/

namespace Sys2Proof.Proofs.TimingEngine

open Sys2Proof Sys2Proof.Machine Sys2Proof.Spec Sys2Proof.Proofs.Effects Sys2Proof.Proofs.RegisterFields
  Sys2Proof.Proofs.TimeCommands Sys2Proof.Proofs.IslandCommands Sys2Proof.Proofs.PortSending Sys2Proof.Proofs.FrameConsumers

section

variable {p : Fin 2} {s : State} {f : RxFrame} {rest : List RxFrame}

/-! ### The head frame of the timing queue (R282) -/

theorem fbit_eq_of {c : Fld} {v : Nat} {s : State} (h : fget s c = v) : fbit s c = (v != 0) := by rw [fbit, h]

theorem takeRx_head (h : tget (portAt s p).rx 8 [] = f :: rest) : tget (portAt (takeRx p 8 f s) p).rx 8 [] = rest := by
  rw [takeRx_ring, h]
  rfl

theorem ptpReceive_waits (h : firmwareRuns s = false ∨ (fget s .TIM_PTP_CTRL_tc_enable = 1 ∧ f.fwd = false))
    (hring : tget (portAt s p).rx 8 [] = f :: rest) : exec (.ptpReceive p) s = .next s := by
  change execPtpReceive p s = _
  have hwait : (!firmwareRuns s || (fbit s .TIM_PTP_CTRL_tc_enable && !f.fwd)) = true := by
    rcases h with h | ⟨h, hf⟩
    · rw [h]; rfl
    · rw [fbit_eq_of h, hf, Bool.or_comm]; rfl
  rw [execPtpReceive, hring]
  exact congrArg Host.Outcome.next (if_pos hwait)

theorem ptpReceive_empty (hring : tget (portAt s p).rx 8 [] = []) : exec (.ptpReceive p) s = .next s := by
  change execPtpReceive p s = _
  rw [execPtpReceive, hring]
  rfl

theorem ptpReceive_off (h : firmwareRuns s = false) : exec (.ptpReceive p) s = .next s := by
  cases hring : tget (portAt s p).rx 8 [] with
  | nil => exact ptpReceive_empty hring
  | cons f rest => exact ptpReceive_waits (.inl h) hring

theorem ptpReceive_taken (hfw : firmwareRuns s = true) (h : fget s .TIM_PTP_CTRL_tc_enable = 0 ∨ f.fwd = true)
    (hring : tget (portAt s p).rx 8 [] = f :: rest) : exec (.ptpReceive p) s = .next (
      if forEngine s p f.bytes then engineMessage (messageOf f) (stampValue f.stamp) f.count (takeRx p 8 f s)
      else takeRx p 8 f s) := by
  change execPtpReceive p s = _
  have hgo : ¬ (!firmwareRuns s || (fbit s .TIM_PTP_CTRL_tc_enable && !f.fwd)) = true := by
    rcases h with h | h
    · rw [hfw, fbit_eq_of h]; exact Bool.false_ne_true
    · rw [hfw, h, Bool.not_true, Bool.and_false]; exact Bool.false_ne_true
  rw [execPtpReceive, hring]
  exact congrArg Host.Outcome.next (if_neg hgo)

/-! ### Messages (R281 to R283) -/

variable {m : Bytes} {stamp count : Nat} {u : State}

theorem isPdelay_iff : isPdelay m = true ↔ ptpType m = 2 ∨ ptpType m = 3 ∨ ptpType m = 10 := by
  simp [isPdelay]

theorem not_isPdelay {t : Nat} (h : ptpType m = t) (ht : t ≠ 2 ∧ t ≠ 3 ∧ t ≠ 10) : isPdelay m = false := by
  rw [Bool.eq_false_iff, Ne, isPdelay_iff, h]
  omega

theorem signaling_excluded (h : ptpType m = 12 ∨ ptpType m = 13) : isPdelay m = false ∧ ptpExcluded m = true := by
  rcases h with h | h
  · exact ⟨not_isPdelay h (by decide), by simp [ptpExcluded, h]⟩
  · exact ⟨not_isPdelay h (by decide), by simp [ptpExcluded, h]⟩

theorem engineMessage_pdelay (h : isPdelay m = true) :
    engineMessage m stamp count u = raiseCounting 239 0 [] (fbump .TIM_TC_COUNT_dropped 1 u) := if_pos h

theorem engineMessage_excluded (h : isPdelay m = false) (hx : ptpExcluded m = true) :
    engineMessage m stamp count u = fbump .TIM_PTP_COUNT_discarded 1 u := by
  rw [engineMessage, h, hx]
  rfl

/-- The engine's own Announce, and one at 255 steps, are dropped. -/
theorem engineMessage_ownAnnounce (h : ptpType m = 11) (hx : ptpExcluded m = false) (hown : ptpSource m = ptpSelf u ∨ 255 ≤ beAt m 61 2) :
    engineMessage m stamp count u = u := by
  have hdrop : takeAnnounce m u = u := if_pos (.inr hown)
  simp [engineMessage, not_isPdelay h (by decide), hx, h, hdrop]

theorem engineMessage_sync (h : ptpType m = 0) (hx : ptpExcluded m = false) (hptp : 8 ≤ u.time.ptp) (hparent : fromParent u m = true) :
    engineMessage m stamp count u = takeSync m stamp count u := by
  have h4 : ¬ u.time.ptp < 4 := by omega
  simp [engineMessage, not_isPdelay h (by decide), hx, h, hptp, hparent, h4]

theorem setPtp_time (st : Nat) (s : State) : (setPtp st s).time = { s.time with ptp := st } := by
  unfold setPtp
  split
  · next h => rw [← h]
  · simp only [raise_frame]

theorem onlyAt_setPtp (st : Nat) (s : State) : OnlyAt eventCounters s (setPtp st s) := by
  unfold setPtp
  exact .ite (onlyAt_refl ..) (onlyAt_from (onlyAt_raise _ _ { s with time := { s.time with ptp := st } }) rfl)

theorem setPtp_ports (st : Nat) (s : State) : (setPtp st s).ports = s.ports := by
  unfold setPtp
  split
  · rfl
  · simp only [raise_frame]

/-- A first Sync makes the port SLAVE. -/
theorem slaved (h : u.time.ptp = 8 ∨ u.time.ptp = 9) :
    (if u.time.ptp = 8 then setPtp 9 u else u).time = { u.time with ptp := 9 } ∧
    OnlyAt eventCounters u (if u.time.ptp = 8 then setPtp 9 u else u) ∧
    (if u.time.ptp = 8 then setPtp 9 u else u).ports = u.ports := by
  split
  · exact ⟨setPtp_time .., onlyAt_setPtp .., setPtp_ports ..⟩
  · next h8 => exact ⟨by rw [← h.resolve_left h8], onlyAt_refl .., rfl⟩

/-- A one-step Sync of the parent, with a servo that does not run on the engine. -/
theorem takeSync_oneStep (hflag : leAt m 6 1 / 2 % 2 = 0) (hptp : u.time.ptp = 8 ∨ u.time.ptp = 9) (hoff : servoOn u 0 = false) :
    (takeSync m stamp count u).time = { u.time with ptp := 9, sync := none } ∧
    counted u (takeSync m stamp count u) .TIM_PTP_COUNT_sync_rx ∧ (takeSync m stamp count u).ports = u.ports := by
  set v := fbump .TIM_PTP_COUNT_sync_rx 1 { u with time := { u.time with sync := none } } with hv
  have htime : v.time = { u.time with sync := none } := by rw [hv]; simp only [fbump_frame]
  have hcount : counted u v .TIM_PTP_COUNT_sync_rx := counted_of_regs rfl (by decide) (by decide)
  have hregs : OnlyAt [RegId.addr .TIM_PTP_COUNT] u v :=
    onlyAt_from (onlyAt_fbump .TIM_PTP_COUNT_sync_rx 1 { u with time := { u.time with sync := none } } 0 0 (by decide)) rfl
  obtain ⟨ht, ho, hp⟩ := slaved (u := v) (by rw [htime]; exact hptp)
  have hstill : servoOn (if v.time.ptp = 8 then setPtp 9 v else v) 0 = false := by
    have hfld : ∀ c : Fld, c.reg = .TIM_SERVO_CTRL → fget (if v.time.ptp = 8 then setPtp 9 v else v) c = fget u c := fun c hc =>
      (ho.fget (by rw [hc]; decide)).trans (hregs.fget (by rw [hc]; decide))
    rw [servoOn, fbit, hfld _ rfl, hfld _ rfl]
    exact hoff
  have htake : takeSync m stamp count u = if v.time.ptp = 8 then setPtp 9 v else v := by
    rw [takeSync, if_neg (by omega), passSync]
    exact if_neg (by rw [hstill]; exact Bool.false_ne_true)
  rw [htake]
  refine ⟨by rw [ht, htime], counted_after hcount ho (by decide), ?_⟩
  rw [hp, hv, fbump_ports]

end

/-! ### The rows (R281 to R283, R288) -/

section

variable {p : Fin 2} {s : State} {f : RxFrame} {rest : List RxFrame}

theorem raiseCounting_time (src sub : Nat) (l : List (Nat × Nat)) (s : State) : (raiseCounting src sub l s).time = s.time := by
  simp only [raiseCounting_frame]

theorem raiseCounting_ports (src sub : Nat) (l : List (Nat × Nat)) (s : State) : (raiseCounting src sub l s).ports = s.ports := by
  simp only [raiseCounting_frame]

theorem fbump_time (c : Fld) (n : Nat) (s : State) (i j : Nat) : (fbump c n s i j).time = s.time := by simp only [fbump_frame]

/-- The queue of a frame taken, in a state with the ports as they were then. -/
theorem ring_of_ports {t : State} (hring : tget (portAt s p).rx 8 [] = f :: rest) (h : t.ports = (takeRx p 8 f s).ports) :
    tget (portAt t p).rx 8 [] = rest := by
  rw [portAt, h]
  exact takeRx_head hring

/-- What the engine does with a frame of its own. -/
theorem ptpReceive_own (hring : tget (portAt s p).rx 8 [] = f :: rest)
    (hexec : exec (.ptpReceive p) s = .next (engineMessage (messageOf f) (stampValue f.stamp) f.count (takeRx p 8 f s))) :
    let m := messageOf f
    let taken := fun t : State => tget (portAt t p).rx 8 [] = rest
    (isPdelay m = false → ptpExcluded m = true → leaves (.ptpReceive p) s (fun t => taken t ∧ t.time = s.time ∧
      counted s t .TIM_PTP_COUNT_discarded)) ∧
    (ptpType m = 12 ∨ ptpType m = 13 → isPdelay m = false ∧ ptpExcluded m = true) ∧
    (ptpType m = 2 ∨ ptpType m = 3 ∨ ptpType m = 10 → leaves (.ptpReceive p) s (fun t => taken t ∧
      t.time = s.time ∧ counted s t .TIM_TC_COUNT_dropped)) ∧
    (ptpType m = 11 → ptpExcluded m = false → ptpSource m = ptpSelf s ∨ 255 ≤ beAt m 61 2 → leaves (.ptpReceive p) s (fun t => taken t ∧
      t.time = s.time ∧ t.regs = s.regs)) ∧
    (ptpType m = 0 → ptpExcluded m = false → leAt m 6 1 / 2 % 2 = 0 → s.time.ptp = 8 ∨ s.time.ptp = 9 → fromParent s m = true →
      servoOn s 0 = false → leaves (.ptpReceive p) s (fun t => taken t ∧ t.time.ptp = 9 ∧ t.time.sync = none ∧
        counted s t .TIM_PTP_COUNT_sync_rx ∧ t.time.r = s.time.r)) ∧
    (ptpType m = 0 → ptpExcluded m = false → leAt m 6 1 / 2 % 2 = 1 → 8 ≤ s.time.ptp → fromParent s m = true →
      leaves (.ptpReceive p) s (fun t => taken t ∧ t.regs = s.regs ∧
        t.time.sync = some (ptpSeq m, (stampValue f.stamp : Int), ptpCorrection m) ∧ t.time.ptp = s.time.ptp)) := by
  intro m taken
  refine ⟨fun hp hx => ?_, signaling_excluded, fun ht => ?_, fun ht hx hown => ?_, fun ht hx hflag hptp hparent hoff => ?_,
    fun ht hx hflag hptp hparent => ?_⟩
  · rw [engineMessage_excluded hp hx] at hexec
    exact ⟨_, hexec, ring_of_ports hring (fbump_ports ..), fbump_time .., counted_of_regs rfl (by decide) (by decide)⟩
  · rw [engineMessage_pdelay (isPdelay_iff.mpr ht)] at hexec
    refine ⟨_, hexec, ring_of_ports hring ?_, ?_, ?_⟩
    · rw [raiseCounting_ports, fbump_ports]
    · rw [raiseCounting_time, fbump_time]
      rfl
    · exact counted_raising (r := takeRx p 8 f s) rfl (onlyAt_raiseCounting ..) (by decide) (by decide) (by decide)
  · rw [engineMessage_ownAnnounce ht hx (show ptpSource m = ptpSelf (takeRx p 8 f s) ∨ _ from hown)] at hexec
    exact ⟨_, hexec, takeRx_head hring, rfl, rfl⟩
  · rw [engineMessage_sync (u := takeRx p 8 f s) ht hx (hptp.elim Eq.ge fun h => h.ge.trans' (by decide)) hparent] at hexec
    obtain ⟨htime, hcount, hports⟩ := takeSync_oneStep (m := m) (stamp := stampValue f.stamp) (count := f.count)
      (u := takeRx p 8 f s) hflag hptp hoff
    refine ⟨_, hexec, ring_of_ports hring hports, ?_, ?_, ?_, ?_⟩
    · rw [htime]
    · rw [htime]
    · exact counted_before (as := []) (.of_regs rfl) List.not_mem_nil hcount
    · rw [htime]
      rfl
  · rw [engineMessage_sync (u := takeRx p 8 f s) ht hx hptp hparent, takeSync, if_pos hflag] at hexec
    exact ⟨_, hexec, takeRx_head hring, rfl, rfl, rfl⟩

theorem ptpReceive_row (hring : tget (portAt s p).rx 8 [] = f :: rest) :
    let m := messageOf f
    let taken := fun t : State => tget (portAt t p).rx 8 [] = rest
    (fget s .TIM_PTP_CTRL_tc_enable = 1 → f.fwd = false → exec (.ptpReceive p) s = .next s) ∧
    (firmwareRuns s = true → fget s .TIM_PTP_CTRL_tc_enable = 0 ∨ f.fwd = true →
      (forEngine s p f.bytes = false → leaves (.ptpReceive p) s (fun t => taken t ∧ t.time = s.time ∧ t.regs = s.regs)) ∧
      (forEngine s p f.bytes = true → exec (.ptpReceive p) s =
        .next (engineMessage m (stampValue f.stamp) f.count (takeRx p 8 f s)))) := by
  intro m taken
  refine ⟨fun htc hfwd => ptpReceive_waits (.inr ⟨htc, hfwd⟩) hring, fun hfw h => ⟨fun hno => ?_, fun hown => ?_⟩⟩
  · have hexec := ptpReceive_taken hfw h hring
    rw [if_neg (by rw [hno]; exact Bool.false_ne_true)] at hexec
    exact ⟨_, hexec, takeRx_head hring, rfl, rfl⟩
  · rw [ptpReceive_taken hfw h hring, if_pos hown]

theorem engine_waits (h : firmwareRuns s = false ∨ s.time.ptp < 8) :
    exec .delayReqSend s = .next s ∧ exec .announceTimeout s = .next s := by
  have hno : ¬ (firmwareRuns s && decide (8 ≤ s.time.ptp)) = true := by
    rcases h with h | h
    · rw [h]; exact Bool.false_ne_true
    · rw [decide_eq_false (by omega), Bool.and_false]; exact Bool.false_ne_true
  exact ⟨congrArg Host.Outcome.next (if_neg hno), congrArg Host.Outcome.next (if_neg hno)⟩

theorem engine_follows (hfw : firmwareRuns s = true) (h : 8 ≤ s.time.ptp) :
    (firmwareRuns s && decide (8 ≤ s.time.ptp)) = true := by
  rw [hfw, decide_eq_true h]
  rfl

/-- A Delay_Req joins its queue, and the sequence advances. -/
theorem delayReqSend_row (hfw : firmwareRuns s = true) (h : 8 ≤ s.time.ptp) (hport : ptpPort s = p.val)
    (hroom : txUsed (ringOf s p 1 (txQueue s p 3 0)).2 (tget (portAt s p).tx (txQueue s p 3 0) []) +
      buffersFor (ptpFrame (delayReq s) s).length (ringOf s p 1 (txQueue s p 3 0)).2 ≤ (ringOf s p 1 (txQueue s p 3 0)).1) :
    leaves .delayReqSend s (fun t =>
      tget (portAt t p).tx (txQueue s p 3 0) [] =
        tget (portAt s p).tx (txQueue s p 3 0) [] ++ [{ bytes := ptpFrame (delayReq s) s, source := 3 }] ∧
      t.time = { s.time with dreqSeq := (s.time.dreqSeq + 1) % 65536 }) := by
  have hpush := pushTx_room (s := s) (port := p) (q := txQueue s p 3 0)
    (f := { bytes := ptpFrame (delayReq s) s, source := 3 }) hroom
  refine ⟨_, congrArg Host.Outcome.next (if_pos (engine_follows hfw h)), ?_, ?_⟩
  · dsimp only
    rw [hport, hpush]
    exact (congrArg (fun x : Port => tget x.tx _ []) (portAt_putPort ..)).trans (tget_tset_same ..)
  · dsimp only
    rw [hport, hpush]
    rfl

theorem ptpIdle_running (hfw : firmwareRuns s = true) :
    (fget s .TMC_CTRL_enable (ptpPort s) = 0 → ptpIdle s = 3) ∧
    (fget s .TMC_CTRL_enable (ptpPort s) = 1 → ptpIdle s = if (portAt s (ptpPort s)).link then 4 else 2) := by
  refine ⟨fun h => ?_, fun h => ?_⟩
  · have hoff : fbit s .TMC_CTRL_enable (ptpPort s) = false := by rw [fbit, h]; rfl
    simp [ptpIdle, hfw, hoff]
  · have hon : fbit s .TMC_CTRL_enable (ptpPort s) = true := by rw [fbit, h]; rfl
    cases hl : (portAt s (ptpPort s)).link <;> simp [ptpIdle, hfw, hon, hl]

/-- What HOLDOVER leaves of the engine, and of the servo by its state. -/
theorem enterHoldover_spec (u : State) :
    let t := (enterHoldover 1 u).time
    (t.best = u.time.best ∧ t.sync = u.time.sync ∧ t.ptp = u.time.ptp) ∧
    (u.time.srv = .idle ∨ u.time.srv = .holdover → t.srv = u.time.srv ∧ t.r = u.time.r) ∧
    (u.time.srv = .holdover → t.cause = if u.time.cause = 4 then 4 else 1) ∧
    (u.time.srv ≠ .idle → u.time.srv ≠ .holdover → t.srv = .holdover ∧ t.cause = 1 ∧ t.r = BitVec.ofInt 32 u.time.i) := by
  intro t
  by_cases hidle : u.time.srv = .idle
  · have ht : t = u.time := congrArg State.time (if_pos hidle)
    rw [ht]
    exact ⟨⟨rfl, rfl, rfl⟩, fun _ => ⟨rfl, rfl⟩, fun h => absurd (hidle.symm.trans h) (by decide), fun h => absurd hidle h⟩
  by_cases hhold : u.time.srv = .holdover
  · have ht : t = { u.time with cause := if u.time.cause = 4 then 4 else 1, resumed := if u.time.cause = 4 then u.time.resumed else false } := by
      refine (congrArg State.time ((if_neg hidle).trans (if_pos hhold))).trans ?_
      by_cases h4 : u.time.cause = 4
      · rw [if_pos h4, if_pos h4, if_pos h4, ← h4]
      · rw [if_neg h4, if_neg h4, if_neg h4]
    rw [ht]
    exact ⟨⟨rfl, rfl, rfl⟩, fun _ => ⟨rfl, rfl⟩, fun _ => rfl, fun _ h => absurd hhold h⟩
  · have ht : t = _ := (congrArg State.time ((if_neg hidle).trans (if_neg hhold))).trans (setServo_time ..)
    rw [ht]
    exact ⟨⟨rfl, rfl, rfl⟩, fun h => absurd h (not_or.mpr ⟨hidle, hhold⟩), fun h => absurd h hhold, fun _ _ => ⟨rfl, rfl, rfl⟩⟩

theorem announceTimeout_row (hfw : firmwareRuns s = true) (h : 8 ≤ s.time.ptp) :
    leaves .announceTimeout s (fun t => t.time.best = none ∧ t.time.sync = none ∧
      (fget s .TMC_CTRL_enable (ptpPort s) = 0 → t.time.ptp = 3) ∧
      (fget s .TMC_CTRL_enable (ptpPort s) = 1 → t.time.ptp = if (portAt s (ptpPort s)).link then 4 else 2) ∧
      (s.time.srv = .idle ∨ s.time.srv = .holdover → t.time.srv = s.time.srv ∧ t.time.r = s.time.r) ∧
      (s.time.srv = .holdover → t.time.cause = if s.time.cause = 4 then 4 else 1) ∧
      (s.time.srv ≠ .idle → s.time.srv ≠ .holdover → t.time.srv = .holdover ∧ t.time.cause = 1 ∧
        t.time.r = BitVec.ofInt 32 s.time.i)) := by
  obtain ⟨hoff, hon⟩ := ptpIdle_running hfw
  have htime := setPtp_time (ptpIdle s) { s with time := { s.time with
    foreign := s.time.foreign.filter (fun f => !fromParent s f.data), best := none, sync := none, t3 := none } }
  have hspec := enterHoldover_spec (setPtp (ptpIdle s) { s with time := { s.time with
    foreign := s.time.foreign.filter (fun f => !fromParent s f.data), best := none, sync := none, t3 := none } })
  rw [htime] at hspec
  obtain ⟨⟨hbest, hsync, hptp⟩, hheld, hcause, henter⟩ := hspec
  exact ⟨_, congrArg Host.Outcome.next (if_pos (engine_follows hfw h)), hbest, hsync, fun h => hptp.trans (hoff h),
    fun h => hptp.trans (hon h), hheld, hcause, henter⟩

end

/-- Settles O38: the engine heeds its own frames by their type, and falls back with its parent. -/
theorem theEngineFollowsItsParent : Obligations.TheEngineFollowsItsParent := by
  unfold Obligations.TheEngineFollowsItsParent
  intro p s x
  refine ⟨ptpReceive_empty, fun h => ⟨ptpReceive_off h, engine_waits (.inl h)⟩, fun h => engine_waits (.inr h), fun f rest hring => ?_,
    fun hfw h => ⟨fun hport => delayReqSend_row hfw h hport, announceTimeout_row hfw h⟩⟩
  obtain ⟨hwait, hrun⟩ := ptpReceive_row hring
  refine ⟨hwait, fun hfw h => ?_⟩
  obtain ⟨hother, hown⟩ := hrun hfw h
  exact ⟨hother, fun heng => ptpReceive_own hring (hown heng)⟩

end Sys2Proof.Proofs.TimingEngine
end

section
/-! PROOF. Tick boundaries and timed actions (R24, R25, R277, R380). -/

namespace Sys2Proof.Proofs.TickBoundaries

open Sys2Proof Sys2Proof.Machine Sys2Proof.Spec

section

variable {s : State} {seq : Word} {a : Armed}

/-- The parts of a boundary in their order (log entry 102). -/
theorem tickBoundary_open (temp : BitVec 8) (sample : TtSample) (fixed : TickFixed) (h : inReset s = false) :
    exec (.tickBoundary temp sample fixed) s = .next ((List.range 128).foldl laneBoundary
      (ueWindow (ageSamples temp sample.margin sample.drift (rigBoundary (exchangeBoundary (tickNow s)
        (channelBoundary (ageBegins (clearLines (tdmSend (tickTime (tickFixed fixed s)))))))))))  := by
  change execTickBoundary temp sample fixed s = _
  rw [execTickBoundary, h, if_neg Bool.false_ne_true]

/-- The length of the tick that begins: 1 ms less the phase error, limited. -/
theorem tickTime_spec (s : State) :
    let t := (tickTime s).time
    t.tick = s.time.tick + 1 ∧ t.counter = BitVec.ofNat 64 (boundaryCount s.time) ∧ t.beganAt = t.counter.toNat ∧
      ∃ sl : Int, t.next = s.time.next + (1000000 - sl) * 65536 ∧ -(fget s .TIM_TICK_CTRL_slew_ns : Int) ≤ sl ∧
        sl ≤ fget s .TIM_TICK_CTRL_slew_ns ∧ (t.phi.natAbs ≤ fget s .TIM_TICK_CTRL_slew_ns → sl = t.phi) := by
  intro t
  refine ⟨rfl, rfl, rfl, max (-(fget s .TIM_TICK_CTRL_slew_ns : Int)) (min (fget s .TIM_TICK_CTRL_slew_ns : Int) t.phi), rfl, ?_, ?_,
    fun h => ?_⟩ <;> omega

theorem timedAction_closed (h : inReset s = true ∨ s.mast.down = true) : exec (.timedAction seq) s = .next s := by
  refine congrArg Host.Outcome.next (if_pos ?_)
  rcases h with h | h <;> simp [h]

theorem timedAction_open (hr : inReset s = false) (hd : s.mast.down = false) : exec (.timedAction seq) s = .next (
    match (dueActions s (boundaryNs s)).find? (fun a => a.seq == seq.toNat) with
    | some a => atNextTick (fun t => takeAction t a) s
    | none => s) := by
  change execTimedAction seq s = _
  rw [execTimedAction, hr, hd]
  rfl

theorem noDueAction (h : ∀ a ∈ s.host.armed, boundaryNs s < a.time ∨ a.seq ≠ seq.toNat) :
    (dueActions s (boundaryNs s)).find? (fun a => a.seq == seq.toNat) = none := by
  rw [List.find?_eq_none]
  intro a ha hseq
  rw [dueActions, List.mem_filter, decide_eq_true_iff] at ha
  rcases h a ha.1 with hlate | hne
  · omega
  · exact hne (beq_iff_eq.mp hseq)

/-- An action that waits for a move stays armed. -/
theorem takeAction_waits (h : actionWaits s a = true) : atNextTick (fun t => takeAction t a) s = s := by
  have hwait : takeAction { s with time := { s.time with tick := s.time.tick + 1 } } a =
      { s with time := { s.time with tick := s.time.tick + 1 } } := if_pos h
  exact congrArg (fun t : State => { t with time := { t.time with tick := s.time.tick } }) hwait

theorem takeAction_takes (h : actionWaits s a = false) : atNextTick (fun t => takeAction t a) s =
    atNextTick (fun u => actNow a { u with host := { u.host with armed := s.host.armed.filter (fun b => b.seq != a.seq) } }) s := by
  have htake : takeAction { s with time := { s.time with tick := s.time.tick + 1 } } a =
      actNow a { s with time := { s.time with tick := s.time.tick + 1 },
                        host := { s.host with armed := s.host.armed.filter (fun b => b.seq != a.seq) } } :=
    if_neg (by rw [show actionWaits { s with time := { s.time with tick := s.time.tick + 1 } } a = false from h]; exact Bool.false_ne_true)
  exact congrArg (fun t : State => { t with time := { t.time with tick := s.time.tick } }) htake

/-- An action whose entry was freed, or that found its entry parked, is discarded with its result. -/
theorem actNow_discarded {h : Nat} {u : State} (ha : a.handle = some h)
    (hgone : a.freed = true ∨ (a.wasActive = true ∧ (sessAt u h).st = .parked)) : actNow a u = timedResult a.seq 0x0D 0 u := by
  rw [actNow, ha]
  exact if_pos hgone

theorem timedResult_keeps (seq status eff : Nat) (u : State) : (timedResult seq status eff u).host = u.host ∧
    (timedResult seq status eff u).sess = u.sess ∧ (timedResult seq status eff u).chans = u.chans ∧
    (timedResult seq status eff u).time = u.time := by
  simp only [timedResult, raise_frame, and_self]

theorem timedAction_found (hr : inReset s = false) (hd : s.mast.down = false)
    (hfind : (dueActions s (boundaryNs s)).find? (fun a => a.seq == seq.toNat) = some a) :
    let others := s.host.armed.filter (fun b => b.seq != a.seq)
    (actionWaits s a = true → exec (.timedAction seq) s = .next s) ∧
    (∀ h, a.handle = some h → a.freed = true ∨ (a.wasActive = true ∧ (sessAt s h).st = .parked) →
      actionWaits s a = false → leaves (.timedAction seq) s (fun t => t.host.armed = others ∧ t.sess = s.sess ∧
        t.chans = s.chans ∧ t.time = s.time)) ∧
    (actionWaits s a = false → exec (.timedAction seq) s =
      .next (atNextTick (fun u => actNow a { u with host := { u.host with armed := others } }) s)) := by
  intro others
  have hexec := timedAction_open (seq := seq) hr hd
  rw [hfind] at hexec
  refine ⟨fun hw => hexec.trans (congrArg _ (takeAction_waits hw)), fun h ha hgone hw => ?_,
    fun hw => hexec.trans (congrArg _ (takeAction_takes hw))⟩
  refine ⟨_, hexec.trans (congrArg _ (takeAction_takes hw)), ?_⟩
  obtain ⟨hhost, hsess, hchans, htime⟩ := timedResult_keeps a.seq 0x0D 0
    { s with time := { s.time with tick := s.time.tick + 1 }, host := { s.host with armed := others } }
  have hact := actNow_discarded (u := { s with time := { s.time with tick := s.time.tick + 1 }, host := { s.host with armed := others } })
    ha hgone
  have hnext : atNextTick (fun u => actNow a { u with host := { u.host with armed := others } }) s =
      { timedResult a.seq 0x0D 0 { s with time := { s.time with tick := s.time.tick + 1 }, host := { s.host with armed := others } }
        with time := s.time } := by
    refine (congrArg (fun t : State => { t with time := { t.time with tick := s.time.tick } }) hact).trans ?_
    dsimp only
    rw [htime]
  rw [hnext]
  exact ⟨by rw [hhost], hsess, hchans, rfl⟩

end

/-- Settles O40: the boundary's parts in order, and one look at the armed actions that are due. -/
theorem ticksBeginInOrder : Obligations.TicksBeginInOrder := by
  unfold Obligations.TicksBeginInOrder
  intro temp sample fixed seq s
  refine ⟨fun h => ⟨congrArg Host.Outcome.next (if_pos h), timedAction_closed (.inl h)⟩, tickBoundary_open temp sample fixed,
    tickTime_spec s, fun hr hd => ⟨fun h => ?_, fun a => timedAction_found hr hd⟩⟩
  rw [timedAction_open hr hd, noDueAction h]

end Sys2Proof.Proofs.TickBoundaries
end

section
/-! PROOF. Pushes into the queues (R300 to R304, R313). -/

namespace Sys2Proof.Proofs.QueuePushes

open Sys2Proof Sys2Proof.Machine Sys2Proof.Spec Sys2Proof.Proofs.Effects Sys2Proof.Proofs.RegisterFields
  Sys2Proof.Proofs.IslandCommands Sys2Proof.Proofs.LaneQueues

theorem fbump_vcs (c : Fld) (n : Nat) (s : State) (i j : Nat) : (fbump c n s i j).vcs = s.vcs := by simp only [fbump_frame]

theorem raise_vcs (src : Nat) (l : List (Nat × Nat)) (s : State) : (raise src l s).vcs = s.vcs := by simp only [raise_frame]

/-! ### The start of a push (R301 to R304, R313) -/

section

variable {queue : Fin 512} {port v ep : Nat} {b : Bytes} {s : State} {x : Queue}

/-- A length that a VC takes. -/
def fits (s : State) (q v : Nat) (b : Bytes) : Prop := 0 < b.length ∧ b.length ≤ fget s .QUE_VC_CFG_max_bytes q v

section

variable (hx : tget? s.ques queue = some x) (hp : x.ports[port]? = some (v, ep))

include hx hp

theorem pushPacket_tooLong (h : ¬ fits s queue v b) : pushPacket queue port b s =
    (raiseLimited 69 queue 1 [(2, queue), (1, v), (1, port), (2, b.length)] (fbump .QUE_DROPREC_bad_length 1 s queue), 2) := by
  have hbad : b.length = 0 ∨ fget s .QUE_VC_CFG_max_bytes queue v < b.length := by
    unfold fits at h
    omega
  rw [pushPacket, pushMarked, hx, Option.bind_some, hp]
  exact if_pos hbad

/-- A push whose length fits. -/
theorem pushPacket_fits (h : fits s queue v b) : pushPacket queue port b s =
    if (vcAt s queue v).wait.any (fun p => p.port == port) then (refuseWaiting queue v port s, 0)
    else if vcBusy (vcAt s queue v) || !(vcAt s queue v).wait.isEmpty then
      (putVc queue v { vcAt s queue v with wait := (vcAt s queue v).wait ++ [{ port := port, bytes := b }] } s, 0)
    else startPacket queue v port b [] s := by
  have hgood : ¬ (b.length = 0 ∨ fget s .QUE_VC_CFG_max_bytes queue v < b.length) := by
    obtain ⟨h1, h2⟩ := h
    omega
  rw [pushPacket, pushMarked, hx, Option.bind_some, hp]
  exact if_neg hgood

theorem push_badLength (h : ¬ fits s queue v b) : leaves (.queuePushStart queue port b) s (fun t =>
    counted s t .QUE_DROPREC_bad_length queue ∧ t.vcs = s.vcs) := by
  refine ⟨_, congrArg (fun r : State × Nat => Host.Outcome.next r.1) (pushPacket_tooLong hx hp h), ?_, ?_⟩
  · exact counted_after (counted_fbump s .QUE_DROPREC_bad_length queue (by decide) (by decide)) (onlyAt_raiseLimited ..)
      (notMem_eventCounters queue.isLt (by decide) (by decide) (by decide))
  · simp only [raiseLimited_frame, fbump_frame]

theorem push_waits (h : fits s queue v b) (hnew : ∀ w ∈ (vcAt s queue v).wait, w.port ≠ port)
    (hbusy : vcBusy (vcAt s queue v) = true ∨ (vcAt s queue v).wait ≠ []) :
    leaves (.queuePushStart queue port b) s (fun t =>
      vcAt t queue v = { vcAt s queue v with wait := (vcAt s queue v).wait ++ [{ port := port, bytes := b }] } ∧ t.regs = s.regs) := by
  have hnone : ¬ (vcAt s queue v).wait.any (fun p => p.port == port) = true := by
    rw [List.any_eq_true]
    rintro ⟨w, hw, heq⟩
    exact hnew w hw (beq_iff_eq.mp heq)
  have hwait : (vcBusy (vcAt s queue v) || !(vcAt s queue v).wait.isEmpty) = true := by
    rcases hbusy with h | h <;> simp [h]
  have hpush := (pushPacket_fits hx hp h).trans ((if_neg hnone).trans (if_pos hwait))
  exact ⟨_, congrArg (fun r : State × Nat => Host.Outcome.next r.1) hpush, vcAt_putVc_same .., rfl⟩

/-- A push again by the only port that waits. -/
theorem push_again (h : fits s queue v b) {w : Push} (hw : (vcAt s queue v).wait = [w]) (hport : w.port = port) :
    exec (.queuePushStart queue port b) s = .next (
      if w.refused + 1 = 16 then raise 70 [(4, 3), (4, port), (1, 0)] (fbump .QUE_ESC_escalations 1
        (putVc queue v { vcAt s queue v with wait := [{ w with refused := w.refused + 1, urgent := true }] } s) queue)
      else putVc queue v { vcAt s queue v with wait := [{ w with refused := w.refused + 1 }] } s) := by
  have hany : (vcAt s queue v).wait.any (fun p => p.port == port) = true := by simp [hw, hport]
  have hpush := (pushPacket_fits hx hp h).trans (if_pos hany)
  refine (congrArg (fun r : State × Nat => Host.Outcome.next r.1) hpush).trans (congrArg Host.Outcome.next ?_)
  simp [refuseWaiting, hw, hport, putUrgent]

theorem push_refused (h : fits s queue v b) {w : Push} (hw : (vcAt s queue v).wait = [w]) (hport : w.port = port) :
    (w.refused < 15 → leaves (.queuePushStart queue port b) s (fun t => t.regs = s.regs ∧
      vcAt t queue v = { vcAt s queue v with wait := [{ w with refused := w.refused + 1 }] })) ∧
    (w.refused = 15 → leaves (.queuePushStart queue port b) s (fun t => counted s t .QUE_ESC_escalations queue ∧
      vcAt t queue v = { vcAt s queue v with wait := [{ w with refused := 16, urgent := true }] })) := by
  have hexec := push_again hx hp h hw hport
  refine ⟨fun hfew => ?_, fun hmany => ?_⟩
  · rw [if_neg (by omega)] at hexec
    exact ⟨_, hexec, rfl, vcAt_putVc_same ..⟩
  · rw [if_pos (by omega)] at hexec
    refine ⟨_, hexec, ?_, ?_⟩
    · refine counted_after (t := fbump .QUE_ESC_escalations 1 (putVc queue v _ s) queue) ?_ (onlyAt_raise ..)
        (notMem_eventCounters queue.isLt (by decide) (by decide) (by decide))
      exact counted_before (as := []) (.of_regs rfl) List.not_mem_nil
        (counted_fbump (putVc queue v _ s) .QUE_ESC_escalations queue (by decide) (by decide))
    · rw [vcAt_congr ((raise_vcs ..).trans (fbump_vcs ..)), vcAt_putVc_same, hmany]

theorem push_starts (h : fits s queue v b) (hidle : vcBusy (vcAt s queue v) = false) (hw : (vcAt s queue v).wait = []) :
    exec (.queuePushStart queue port b) s = .next (startPacket queue v port b [] s).1 := by
  have hpush : pushPacket queue port b s = startPacket queue v port b [] s := by
    rw [pushPacket_fits hx hp h, hw, hidle]
    rfl
  exact congrArg (fun r : State × Nat => Host.Outcome.next r.1) hpush

end

/-- The words of a packet that the store takes at once. -/
theorem packWords_sound (n : Nat) (b : Bytes) (i : Nat) (h : i < (packWords n [] b).length) :
    (packWords n [] b)[i] = (BitVec.ofNat 64 (leAt b (8 * i) 8), Ecc.ok) := by
  simp [packWords]

theorem push_dropped {q : Nat} (hq : q < 512) (hv : v < 4) (hcap : fget s .QUE_VC_CFG_drop_capable q v = 1)
    (hfew : freeCredits s q v < wordsOf b.length) :
    vcCounted s (startPacket q v port b [] s).1 .QUE_VC_STAT_drops q v ∧ (startPacket q v port b [] s).1.vcs = s.vcs := by
  have hdrop : (startPacket q v port b [] s).1 = raiseCounting 68 (4 * q + v) [(2, q), (1, v)] (fbump .QUE_VC_STAT_drops 1 s q v) :=
    congrArg Prod.fst (if_pos ⟨by rw [fbit, hcap]; rfl, hfew⟩)
  rw [hdrop]
  refine ⟨?_, by simp only [raiseCounting_frame, fbump_frame]⟩
  refine ((onlyAt_raiseCounting ..).fget ?_).trans (fget_fbump_same s .QUE_VC_STAT_drops 1 q v (by decide) (by decide))
  exact notMem_eventCounters hq hv (by decide) (by decide)

/-- A packet as its push starts, with the words that the store takes at once. -/
def startedPacket (b : Bytes) (port free : Nat) : QPacket :=
  QPacket.take { len := b.length, left := wordsOf b.length, rest := b, port := port, marks := [] } free

theorem length_startedPacket (b : Bytes) (port free : Nat) :
    (startedPacket b port free).words.length = min free (wordsOf b.length) := by
  simp [startedPacket, QPacket.take, packWords]

theorem push_stored {q : Nat} (hroom : fget s .QUE_VC_CFG_drop_capable q v = 0 ∨ wordsOf b.length ≤ freeCredits s q v) :
    (startPacket q v port b [] s).1.regs = s.regs ∧
    ∃ p, vcAt (startPacket q v port b [] s).1 q v = { vcAt s q v with pkts := (vcAt s q v).pkts ++ [p] } ∧
      p.len = b.length ∧ p.port = port ∧ p.bad = false ∧
      p.words.length = min (freeCredits s q v) (wordsOf b.length) ∧ p.words.length + p.left = wordsOf b.length ∧
      ∀ i (h : i < p.words.length), p.words[i] = (BitVec.ofNat 64 (leAt b (8 * i) 8), Ecc.ok) := by
  have hno : ¬ (fbit s .QUE_VC_CFG_drop_capable q v ∧ freeCredits s q v < wordsOf b.length) := by
    rintro ⟨hcap, hfew⟩
    rcases hroom with h | h
    · rw [fbit, h] at hcap
      exact absurd hcap (by decide)
    · omega
  have hstart : (startPacket q v port b [] s).1 =
      putVc q v { vcAt s q v with pkts := (vcAt s q v).pkts ++ [startedPacket b port (freeCredits s q v)] } s := by
    rw [startPacket, if_neg hno]
    rfl
  rw [hstart]
  refine ⟨rfl, _, vcAt_putVc_same .., rfl, rfl, rfl, length_startedPacket .., ?_, fun i h => packWords_sound _ _ i h⟩
  rw [length_startedPacket]
  simp only [startedPacket, QPacket.take]
  omega

end

/-! ### A further word (R302) -/

section

variable {queue : Fin 512} {vc : Fin 4} {s : State}

theorem mapLast_append (f : QPacket → QPacket) (front : List QPacket) (p : QPacket) :
    mapLast f (front ++ [p]) = front ++ [f p] := by
  induction front with
  | nil => rfl
  | cons a front ih =>
    cases front with
    | nil => rfl
    | cons c front => exact congrArg (a :: ·) ih

theorem pushWord_idle (h : vcBusy (vcAt s queue vc) = false ∨
    fget s .QUE_VC_CFG_credits queue vc ≤ (vcAt s queue vc).pkts.foldl (fun n p => n + p.words.length) 0) :
    exec (.queuePushWord queue vc) s = .next s := by
  refine congrArg Host.Outcome.next (if_neg ?_)
  rcases h with h | h
  · rw [h]
    exact Bool.false_ne_true
  · rw [decide_eq_false (by omega), Bool.and_false]
    exact Bool.false_ne_true

theorem vcBusy_append {x : Vc} {front : List QPacket} {p : QPacket} (h : x.pkts = front ++ [p]) :
    vcBusy x = decide (0 < p.left) := by
  rw [vcBusy, h, List.getLast?_concat]

/-- While a packet is still being pushed, none that waits starts. -/
theorem grantWaiting_busy {n q v : Nat} {s : State} (h : vcBusy (vcAt s q v) = true) : grantWaiting n q v s = s := by
  cases n with
  | zero => rfl
  | succ n => exact if_pos h

theorem pushWord_row {front : List QPacket} {p : QPacket} (h : (vcAt s queue vc).pkts = front ++ [p]) (hleft : 1 < p.left)
    (hfree : (vcAt s queue vc).pkts.foldl (fun n p => n + p.words.length) 0 < fget s .QUE_VC_CFG_credits queue vc) :
    leaves (.queuePushWord queue vc) s (fun t => t.regs = s.regs ∧
      vcAt t queue vc = { vcAt s queue vc with pkts := front ++ [{ p with
        words := p.words ++ [(BitVec.ofNat 64 (leAt p.rest 0 8), if p.marks.contains 0 then Ecc.uncorrectable else Ecc.ok)]
        left := p.left - 1, rest := p.rest.drop 8
        marks := (p.marks.filter (fun i => decide (1 ≤ i))).map (fun i => i - 1) }] }) := by
  have hgo : (vcBusy (vcAt s queue vc) && decide (0 < fget s .QUE_VC_CFG_credits queue vc -
      (vcAt s queue vc).pkts.foldl (fun n p => n + p.words.length) 0)) = true := by
    rw [vcBusy_append h, decide_eq_true (by omega), decide_eq_true (by omega)]
    rfl
  have htake : mapLast (fun p => p.take 1) (vcAt s queue vc).pkts = front ++ [p.take 1] := by rw [h, mapLast_append]
  have hone : min 1 p.left = 1 := by omega
  have hbusy : vcBusy { vcAt s queue vc with pkts := mapLast (fun p => p.take 1) (vcAt s queue vc).pkts } = true := by
    rw [vcBusy_append (p := p.take 1) htake, QPacket.take, hone]
    exact decide_eq_true (by change 0 < p.left - 1; omega)
  refine ⟨_, congrArg Host.Outcome.next (if_pos hgo), ?_⟩
  dsimp only
  rw [grantWaiting_busy (by rw [vcAt_putVc_same]; exact hbusy), vcAt_putVc_same, htake, QPacket.take, hone]
  exact ⟨rfl, rfl⟩

end

/-- Settles O41: a push is refused, waits or starts by its length, its port's turn and its VC's credits. -/
theorem pushesTakeCredits : Obligations.PushesTakeCredits := by
  unfold Obligations.PushesTakeCredits
  intro queue port b s x v ep q hx hp hv y room
  refine ⟨push_badLength hx hp, fun h => push_waits hx hp h, fun h w => push_refused hx hp h, fun h hidle hw => ?_,
    fun vc => ⟨pushWord_idle, fun front p h => pushWord_row h⟩⟩
  have hexec := push_starts hx hp h hidle hw
  exact ⟨fun hcap hfew => ⟨_, hexec, push_dropped queue.isLt hv hcap hfew⟩, fun hroom => ⟨_, hexec, push_stored hroom⟩⟩

end Sys2Proof.Proofs.QueuePushes
end

section
/-! PROOF. Pops, notices and deliveries of the queues (R306 to R310, R315). -/

namespace Sys2Proof.Proofs.QueueDeliveries

open Sys2Proof Sys2Proof.Machine Sys2Proof.Spec Sys2Proof.Proofs.Effects Sys2Proof.Proofs.RegisterPlaces
  Sys2Proof.Proofs.RegisterFields Sys2Proof.Proofs.IslandCommands Sys2Proof.Proofs.LaneQueues Sys2Proof.Proofs.QueuePushes

/-! ### The head packet (R306, R308) -/

section

variable {q v : Nat} {s : State} {p : QPacket} {rest : List QPacket}

theorem readyPacket_none (h : (vcAt s q v).pkts = []) : readyPacket q v s = none := by rw [readyPacket, h]

theorem readyPacket_island (h : (vcAt s q v).pkts = p :: rest) (hw : p.words ≠ []) (hl : queLane s q = none) :
    readyPacket q v s = some (p, s) := by
  simp [readyPacket, h, hw, hl]

/-- A packet with a place goes on where the area has room for its next word. -/
theorem readyPacket_placed {lane port off : Nat} (h : (vcAt s q v).pkts = p :: rest) (hw : p.words ≠ [])
    (hl : queLane s q = some (lane, port)) (hoff : p.off = some off) :
    readyPacket q v s = if areaSpan ((areaAt s lane port).used.erase (off, p.len)) (off + p.got.length) then
      some (p, putArea lane port (areaAt s lane port) s) else none := by
  simp only [readyPacket, h, hl, takePlace, hoff]
  rw [if_neg (by simpa using hw)]
  split <;> rfl

/-- The packet that is ready stands at the head of its VC, but for its place; the state but for the area is as it was. -/
theorem readyPacket_head {p : QPacket} {s0 : State} (h : readyPacket q v s = some (p, s0)) :
    s0.vcs = s.vcs ∧ s0.regs = s.regs ∧ ∃ p0 rest, (vcAt s q v).pkts = p0 :: rest ∧ p0.words.isEmpty = false := by
  unfold readyPacket at h
  split at h
  · cases h
  · next p0 rest hp =>
    split at h
    · cases h
    · next hw =>
      have hhead : ∃ p0 rest, (vcAt s q v).pkts = p0 :: rest ∧ p0.words.isEmpty = false := ⟨p0, rest, hp, by simpa using hw⟩
      split at h
      · cases h
        exact ⟨rfl, rfl, hhead⟩
      · obtain ⟨r, -, hr⟩ := Option.map_eq_some_iff.mp h
        cases hr
        exact ⟨rfl, rfl, hhead⟩

end

/-! ### Pops (R306, R309, R310) -/

section

variable {queue : Fin 512} {vc : Fin 4} {s s0 : State} {p : QPacket} {w : BitVec 64} {ws : List (BitVec 64 × Ecc)}

/-- A packet with its head word popped. -/
def popped (p : QPacket) (w : BitVec 64) (ws : List (BitVec 64 × Ecc)) (bad : Bool) : QPacket :=
  { p with words := ws, got := p.got ++ toLe 8 w.toNat, bad := bad }

/-- A VC with the head word of a packet popped. -/
def poppedVc (y : Vc) (p : QPacket) (w : BitVec 64) (ws : List (BitVec 64 × Ecc)) (bad : Bool) : Vc :=
  { y with pkts := popped p w ws bad :: y.pkts.drop 1, stalled := false }

/-- A VC whose head packet is done. -/
def finishedVc (y : Vc) (p : QPacket) (w : BitVec 64) (bad : Bool) : Vc :=
  { y with stalled := false, pkts := y.pkts.drop 1
           done := y.done ++ [((p.got ++ toLe 8 w.toNat).take p.len, bad, p.len, p.off.getD 0)] }

/-- The pop of a sound word of a packet that its producer has not abandoned. -/
theorem pop_ready {c : BitVec 2} (h : readyPacket queue vc s = some (p, s0)) (hw : p.words = (w, .ok) :: ws) (hf : p.filled = 0) :
    exec (.queuePop queue vc c) s = .next (
      let e := worse .ok c.toNat
      let bad := p.bad || e == Ecc.uncorrectable
      let s1 := countEcc queue e (putVc queue vc (poppedVc (vcAt s0 queue vc) p w ws bad) s0)
      if ws.isEmpty && p.left == 0 then finishPop queue vc (popped p w ws bad) s1 else s1) := by
  change Host.Outcome.next (popWord queue vc c.toNat s) = _
  have hlen : ¬ ((w, Ecc.ok) :: ws).length + p.left ≤ p.filled := by
    rw [hf, List.length_cons]
    omega
  simp only [popWord, h, hw, if_neg hlen]
  rfl

theorem pop_sound {c : BitVec 2} (h : readyPacket queue vc s = some (p, s0)) (hw : p.words = (w, .ok) :: ws) (hf : p.filled = 0)
    (hbad : p.bad = false) (hc : c = 0) : exec (.queuePop queue vc c) s = .next (
      if ws.isEmpty && p.left == 0 then
        finishPop queue vc (popped p w ws false) (putVc queue vc (poppedVc (vcAt s queue vc) p w ws false) s0)
      else putVc queue vc (poppedVc (vcAt s queue vc) p w ws false) s0) := by
  rw [pop_ready h hw hf, hbad, hc, vcAt_congr (readyPacket_head h).1]
  rfl

/-- The packet that a pop ends. -/
theorem finishPop_sound {u : State} {bad : Bool} (hf : p.filled = 0) (hu : vcAt u queue vc = poppedVc (vcAt s queue vc) p w ws bad) :
    finishPop queue vc (popped p w ws bad) u =
      if bad then raise 67 [(2, queue), (1, vc), (2, p.len)] (fbump .QUE_DROPREC_drop_records 1
        (putVc queue vc (finishedVc (vcAt s queue vc) p w bad) u) queue)
      else putVc queue vc (finishedVc (vcAt s queue vc) p w bad) u := by
  have hcut : decide (0 < (popped p w ws bad).filled) = false := decide_eq_false (by rw [popped, hf]; decide)
  rw [finishPop, hcut, hu]
  cases bad <;> rfl

theorem pop_rows (h : readyPacket queue vc s = some (p, s0)) (hw : p.words = (w, .ok) :: ws) (hf : p.filled = 0)
    (hbad : p.bad = false) :
    (ws ≠ [] ∨ 0 < p.left → leaves (.queuePop queue vc 0) s (fun t => t.regs = s.regs ∧ t.areas = s0.areas ∧
      vcAt t queue vc = { vcAt s queue vc with
        stalled := false
        pkts := { p with words := ws, got := p.got ++ toLe 8 w.toNat } :: (vcAt s queue vc).pkts.drop 1 })) ∧
    (ws = [] → p.left = 0 → leaves (.queuePop queue vc 0) s (fun t => t.regs = s.regs ∧
      vcAt t queue vc = { vcAt s queue vc with
        stalled := false, pkts := (vcAt s queue vc).pkts.drop 1
        done := (vcAt s queue vc).done ++ [((p.got ++ toLe 8 w.toNat).take p.len, false, p.len, p.off.getD 0)] })) := by
  have hexec := pop_sound h hw hf hbad rfl
  obtain ⟨hvcs, hregs, -⟩ := readyPacket_head h
  refine ⟨fun hmore => ?_, fun hws hleft => ?_⟩
  · have hgo : ¬ (ws.isEmpty && p.left == 0) = true := by
      rcases hmore with h | h
      · simp [h]
      · simp [h.ne']
    rw [if_neg hgo] at hexec
    exact ⟨_, hexec, hregs, rfl, by rw [vcAt_putVc_same, poppedVc, popped, ← hbad]⟩
  · rw [if_pos (by rw [hws, hleft]; rfl), finishPop_sound (s := s) hf (vcAt_putVc_same ..)] at hexec
    exact ⟨_, hexec, hregs, vcAt_putVc_same ..⟩

theorem countEcc_uncorrectable (q : Nat) (u : State) :
    countEcc q .uncorrectable u = fbump .QUE_ECC_TOTAL_uncorrected 1 (fbump .QUE_ECC_uncorrected 1 u q) := rfl

theorem queueReg_apart (q : Fin 512) : RegId.addr .QUE_ECC_TOTAL ≠ RegId.addr .QUE_ECC q ∧
    RegId.addr .QUE_ECC_TOTAL ≠ RegId.addr .QUE_DROPREC q ∧ RegId.addr .QUE_DROPREC q ≠ RegId.addr .QUE_ECC q :=
  ⟨addr_ne (by decide) (by decide) (by decide) q.isLt (by decide), addr_ne (by decide) (by decide) (by decide) q.isLt (by decide),
    addr_ne (by decide) q.isLt (by decide) q.isLt (by decide)⟩

/-- A packet with an uncorrectable last word is a drop record. -/
theorem pop_uncorrectable (h : readyPacket queue vc s = some (p, s0)) (hw : p.words = (w, .ok) :: ws) (hf : p.filled = 0)
    (hws : ws = []) (hleft : p.left = 0) : leaves (.queuePop queue vc 2) s (fun t =>
      (vcAt t queue vc).pkts = (vcAt s queue vc).pkts.drop 1 ∧
      (vcAt t queue vc).done = (vcAt s queue vc).done ++ [((p.got ++ toLe 8 w.toNat).take p.len, true, p.len, p.off.getD 0)] ∧
      counted s t .QUE_ECC_TOTAL_uncorrected ∧ counted s t .QUE_DROPREC_drop_records queue) := by
  obtain ⟨hvcs, hregs, -⟩ := readyPacket_head h
  obtain ⟨hecc, hdrop, hrec⟩ := queueReg_apart queue
  have hexec := pop_ready (c := 2) h hw hf
  have hbad : (p.bad || worse .ok (2 : BitVec 2).toNat == Ecc.uncorrectable) = true := by
    rw [Bool.or_eq_true]
    exact .inr (by decide)
  have hvc := vcAt_congr hvcs queue vc
  set r := putVc queue vc (poppedVc (vcAt s queue vc) p w ws true) s0 with hr
  set u := fbump .QUE_ECC_TOTAL_uncorrected 1 (fbump .QUE_ECC_uncorrected 1 r queue) with hu
  have hunit : vcAt u queue vc = poppedVc (vcAt s queue vc) p w ws true := by
    rw [vcAt_congr ((fbump_vcs ..).trans (fbump_vcs ..)), hr, vcAt_putVc_same]
  dsimp only at hexec
  rw [hbad, if_pos (by rw [hws, hleft]; rfl), hvc, ← hr] at hexec
  change _ = Host.Outcome.next (finishPop queue vc (popped p w ws true) u) at hexec
  rw [finishPop_sound (s := s) hf hunit, if_pos rfl] at hexec
  have hvcAt : vcAt (raise 67 [(2, queue), (1, vc), (2, p.len)] (fbump .QUE_DROPREC_drop_records 1
      (putVc queue vc (finishedVc (vcAt s queue vc) p w true) u) queue)) queue vc = finishedVc (vcAt s queue vc) p w true := by
    rw [vcAt_congr ((raise_vcs ..).trans (fbump_vcs ..)), vcAt_putVc_same]
  refine ⟨_, hexec, by rw [hvcAt]; rfl, by rw [hvcAt]; rfl, ?_, ?_⟩
  · have htotal : counted s u .QUE_ECC_TOTAL_uncorrected := by
      refine counted_before (t := fbump .QUE_ECC_uncorrected 1 r queue) (as := [RegId.addr .QUE_ECC queue])
        (onlyAt_from (onlyAt_fbump .QUE_ECC_uncorrected 1 r queue 0 (List.mem_singleton_self _)) hregs) (by simpa using hecc)
        (counted_fbump _ .QUE_ECC_TOTAL_uncorrected 0 (by decide) (by decide))
    refine counted_after (as := eventCounters) (counted_after (as := [RegId.addr .QUE_DROPREC queue]) htotal
      (onlyAt_from (onlyAt_fbump .QUE_DROPREC_drop_records 1 (putVc queue vc (finishedVc (vcAt s queue vc) p w true) u) queue 0
        (List.mem_singleton_self _)) rfl) (by simpa using hdrop)) (onlyAt_raise ..) (by decide)
  · have hbump : counted s (fbump .QUE_DROPREC_drop_records 1 (putVc queue vc (finishedVc (vcAt s queue vc) p w true) u) queue)
        .QUE_DROPREC_drop_records queue := by
      refine counted_before (t := putVc queue vc (finishedVc (vcAt s queue vc) p w true) u)
        (as := [RegId.addr .QUE_ECC queue] ++ [RegId.addr .QUE_ECC_TOTAL]) ?_ ?_
        (counted_fbump _ .QUE_DROPREC_drop_records queue (by decide) (by decide))
      · exact .then (t := u) (.trans (onlyAt_from (onlyAt_fbump .QUE_ECC_uncorrected 1 r queue 0 (List.mem_singleton_self _)) hregs)
          (onlyAt_fbump .QUE_ECC_TOTAL_uncorrected 1 (fbump .QUE_ECC_uncorrected 1 r queue) 0 0 (List.mem_singleton_self _)))
          (.of_regs rfl)
      · simpa using ⟨hrec, hdrop.symm⟩
    exact counted_after hbump (onlyAt_raise ..) (notMem_eventCounters queue.isLt (by decide) (by decide) (by decide))

end

/-! ### Stalls (R315) -/

section

variable {queue : Fin 512} {vc : Fin 4} {s s0 : State} {p : QPacket}

theorem queStall_idle (h : (vcAt s queue vc).pkts = [] ∨ (vcAt s queue vc).stalled = true) :
    exec (.queStall queue vc) s = .next s := by
  change Host.Outcome.next (stallVc queue vc s) = _
  rw [stallVc]
  cases hp : (vcAt s queue vc).pkts with
  | nil => rfl
  | cons p rest =>
    have hst : (vcAt s queue vc).stalled = true := h.resolve_left (by rw [hp]; exact List.cons_ne_nil _ _)
    rw [hst]
    rfl

theorem queStall_row (h : readyPacket queue vc s = some (p, s0)) (hst : (vcAt s queue vc).stalled = false)
    (hcap : fget s .QUE_VC_CFG_drop_capable queue vc = 1) : leaves (.queStall queue vc) s (fun t =>
      vcAt t queue vc = { vcAt s queue vc with stalled := true } ∧ fget t .QUE_STALL_stalled_queue = queue ∧
      fget t .QUE_STALL_stalled_vc = vc) := by
  obtain ⟨-, -, p0, rest, hp, hw⟩ := readyPacket_head h
  have hcap' : fbit s .QUE_VC_CFG_drop_capable queue vc = true := by rw [fbit, hcap]; rfl
  have hstall : stallVc queue vc s = raise 72 [(2, queue), (1, vc), (1, fget s .QUE_CFG_producer queue), (1, queConsumer s queue)]
      (fset .QUE_STALL_stalled_vc vc (fset .QUE_STALL_stalled_queue queue
        (putVc queue vc { vcAt s queue vc with stalled := true } s))) := by
    simp only [stallVc, hp, hst, hw, hcap', Bool.or_false, Bool.false_eq_true, if_false, if_true]
  refine ⟨_, congrArg Host.Outcome.next hstall, ?_, ?_, ?_⟩
  · rw [vcAt_congr (raise_vcs ..)]
    exact vcAt_putVc_same ..
  · rw [(onlyAt_raise ..).fget (by decide), fget_fset_beside _ .QUE_STALL_stalled_vc .QUE_STALL_stalled_queue _ _ _ rfl (by decide) (by decide) (by decide) (by decide),
      fget_fset_same _ _ _ _ _ (by decide) (by decide)]
    exact Nat.mod_eq_of_lt queue.isLt
  · rw [(onlyAt_raise ..).fget (by decide), fget_fset_same _ _ _ _ _ (by decide) (by decide)]
    exact Nat.mod_eq_of_lt vc.isLt

end

/-! ### Notices (R307) -/

section

variable {queue : Fin 512} {vc : Fin 4} {s : State}

theorem areaAt_putArea (lane port : Nat) (x : RxArea) (s : State) : areaAt (putArea lane port x s) lane port = x :=
  tget_tset_same ..

/-- A notice, but for the samples of a lost packet, is what the queue posts. -/
theorem queueNotice_posts (queue : Fin 512) (vc : Fin 4) (s : State) : ∃ tdm,
    exec (.queueNotice queue vc) s = .next { postNotice queue vc s with tdm := tdm } := by
  have hwith : ∀ b : Bool, ∃ tdm, (if b then missSamples (fget s .QUE_CFG_producer queue) (postNotice queue vc s)
      else postNotice queue vc s) = { postNotice queue vc s with tdm := tdm } := fun b => by
    cases b
    · exact ⟨_, rfl⟩
    · exact ⟨_, rfl⟩
  obtain ⟨tdm, h⟩ := hwith _
  exact ⟨tdm, congrArg Host.Outcome.next h⟩

theorem queueNotice_none (h : postNotice queue vc s = s)
    (hl : queLane s queue ≠ none ∨ (vcAt s queue vc).done = []) : exec (.queueNotice queue vc) s = .next s := by
  change execQueueNotice queue vc s = _
  unfold execQueueNotice
  rw [h]
  rcases hl with hl | hl
  · obtain ⟨l, hl⟩ := Option.ne_none_iff_exists'.mp hl
    rw [hl]
    rfl
  · rw [hl]
    cases queLane s queue <;> rfl

theorem notice_island (hl : queLane s queue = none) :
    ((vcAt s queue vc).done = [] → exec (.queueNotice queue vc) s = .next s) ∧
    (∀ d t0, (vcAt s queue vc).done = d :: t0 → leaves (.queueNotice queue vc) s (fun t =>
      vcAt t queue vc = { vcAt s queue vc with done := t0, last := some (d.1, d.2.1, tickNow s + 1) } ∧
      (d.2.1 = true → counted s t .ERR_CLASS_contained))) := by
  refine ⟨fun hd => queueNotice_none (by simp only [postNotice, hl, hd]) (.inr hd), fun d t0 hd => ?_⟩
  obtain ⟨tdm, hexec⟩ := queueNotice_posts queue vc s
  have hpost : postNotice queue vc s =
      if d.2.1 then fbump .ERR_CLASS_contained 1 (putVc queue vc { vcAt s queue vc with
        done := t0, last := some (d.1, d.2.1, tickNow s + 1) } s)
      else putVc queue vc { vcAt s queue vc with done := t0, last := some (d.1, d.2.1, tickNow s + 1) } s := by
    simp only [postNotice, hl, hd]
  rw [hpost] at hexec
  refine ⟨_, hexec, ?_, fun hdrop => ?_⟩
  · split
    · exact vcAt_putVc_same ..
    · exact vcAt_putVc_same ..
  · rw [if_pos hdrop]
    refine counted_after (t := fbump .ERR_CLASS_contained 1 (putVc queue vc { vcAt s queue vc with
      done := t0, last := some (d.1, d.2.1, tickNow s + 1) } s)) (as := []) ?_ (.of_regs rfl) List.not_mem_nil
    exact counted_before (as := []) (.of_regs rfl) List.not_mem_nil (counted_fbump _ .ERR_CLASS_contained 0 (by decide) (by decide))

theorem notice_lane {lane port : Nat} (hl : queLane s queue = some (lane, port)) :
    let mine := fun n : BitVec 32 => n.toNat / 2 ^ 28 % 4 == vc.val
    ((areaAt s lane port).ready.find? mine = none → exec (.queueNotice queue vc) s = .next s) ∧
    (∀ n, (areaAt s lane port).ready.find? mine = some n → leaves (.queueNotice queue vc) s (fun t =>
      areaAt t lane port = { areaAt s lane port with
        ready := (areaAt s lane port).ready.erase n, noted := (areaAt s lane port).noted ++ [(n, tickNow s + 1)] } ∧ t.mem = s.mem)) := by
  intro mine
  refine ⟨fun h => queueNotice_none ?_ (.inl (by rw [hl]; exact Option.some_ne_none _)), fun n h => ?_⟩
  · simp only [postNotice, hl]
    rw [h]
  · obtain ⟨tdm, hexec⟩ := queueNotice_posts queue vc s
    have hpost : postNotice queue vc s = putArea lane port { areaAt s lane port with
        ready := (areaAt s lane port).ready.erase n, noted := (areaAt s lane port).noted ++ [(n, tickNow s + 1)] } s := by
      simp only [postNotice, hl]
      rw [h]
    rw [hpost] at hexec
    exact ⟨_, hexec, areaAt_putArea .., rfl⟩

end

/-! ### Deliveries (R308) -/

section

variable {lane : Fin 128} {port : Fin 8} {q : Nat} {s : State} {x : Queue}

variable (hq : s.ques.find? (fun p => queLane s p.1 == some (lane.val, port.val)) = some (q, x))

include hq

theorem deliveryWrite_idle (h : firstDone s q = none) : exec (.deliveryWrite lane port) s = .next s := by
  refine congrArg Host.Outcome.next ?_
  simp only [deliver, hq, h]

theorem deliveryWrite_row {v : Nat} {b : Bytes} {drop : Bool} {n off : Nat} {t0 : List (Bytes × Bool × Nat × Nat)}
    (h : firstDone s q = some v) (hd : (vcAt s q v).done = (b, drop, n, off) :: t0) : leaves (.deliveryWrite lane port) s (fun t =>
      vcAt t q v = { vcAt s q v with done := t0 } ∧
      areaAt t lane port = { areaAt s lane port with ready := (areaAt s lane port).ready ++ [noticeWord drop v n off] } ∧
      t.mem = if drop then s.mem else (storeBytes (laneBase lane + (areaAt s lane port).base + off) b s).mem) := by
  have hdel : deliver lane port s =
      let s2 := putArea lane port { areaAt s lane port with ready := (areaAt s lane port).ready ++ [noticeWord drop v n off] }
        (putVc q v { vcAt s q v with done := t0 } s)
      if drop then s2 else storeBytes (laneBase lane + (areaAt s lane port).base + off) b s2 := by
    simp only [deliver, hq, h, hd]
  refine ⟨_, congrArg Host.Outcome.next hdel, ?_⟩
  cases drop
  · exact ⟨vcAt_putVc_same .., areaAt_putArea .., rfl⟩
  · exact ⟨vcAt_putVc_same .., areaAt_putArea .., rfl⟩

end

/-- Settles O42: the head packet is popped word by word, noticed and delivered, oldest first. -/
theorem queuesDeliverPackets : Obligations.QueuesDeliverPackets := by
  unfold Obligations.QueuesDeliverPackets
  intro queue vc s q v y
  refine ⟨fun h => queStall_idle (.inl h), fun h e => ?_, readyPacket_none, fun p t0 hp hw => ⟨readyPacket_island hp hw,
    fun lane port off hl hoff => ⟨fun hroom => ?_, fun hroom => ?_⟩⟩, fun p s0 w e ws hready hwords => ?_, notice_island,
    fun lane port => notice_lane, ?_⟩
  · refine congrArg Host.Outcome.next ?_
    rw [popWord, h]
  · rw [readyPacket_placed hp hw hl hoff, if_pos hroom]
  · rw [readyPacket_placed hp hw hl hoff, if_neg (by rw [hroom]; exact Bool.false_ne_true)]
  · refine ⟨fun he hbad hf => ?_, fun he hf => ?_, fun hst => queStall_idle (.inr hst), queStall_row hready⟩
    · exact pop_rows hready (he ▸ hwords) hf hbad
    · exact pop_uncorrectable hready (he ▸ hwords) hf
  · intro lane port x a hq
    exact ⟨deliveryWrite_idle hq, fun b drop n off t0 => deliveryWrite_row hq⟩

end Sys2Proof.Proofs.QueueDeliveries
end

section
/-! PROOF. The loader: loads received, verified, checked and applied (R336 to R340, R346). -/

namespace Sys2Proof.Proofs.Loads

open Sys2Proof Sys2Proof.Machine Sys2Proof.Spec Sys2Proof.Proofs.Effects Sys2Proof.Proofs.RegisterFields
  Sys2Proof.Proofs.IslandCommands Sys2Proof.Proofs.LaneFaults Sys2Proof.Proofs.LoaderCommands

/-! ### Failures (R336, R346) -/

section

variable {s : State} {code spar : Nat}

/-- The loader as a load fails. -/
def failedRig (code spar : Nat) (s : State) : Rig :=
  { s.rig with
    st := if s.boot.stage = .load ∧ s.boot.sel = 1 then LoaderState.idle else .failed, code := code, spar := spar, go := false
    rerig := none, image := [], coming := none }

/-- The state as a load fails, before R346 applies. -/
def failed (code spar : Nat) (s : State) : State :=
  raise 34 [(1, code), (2, spar), (4, s.rig.bytes)] (fbump .RIG_COUNT_failures 1 { s with rig := failedRig code spar s })

theorem rigFail_eq (code spar : Nat) (s : State) : rigFail code spar s =
    if s.boot.stage = .load then bootLoadFailed code s.rig.src (failed code spar s) else failed code spar s := rfl

theorem failed_boot (code spar : Nat) (s : State) : (failed code spar s).boot = s.boot := by
  simp only [failed, raise_frame, fbump_frame]

theorem failed_rig (code spar : Nat) (s : State) : (failed code spar s).rig = failedRig code spar s := by
  simp only [failed, raise_frame, fbump_frame]

theorem failed_counted (code spar : Nat) (s : State) : counted s (failed code spar s) .RIG_COUNT_failures := by
  refine counted_after (t := fbump .RIG_COUNT_failures 1 { s with rig := failedRig code spar s }) ?_ (onlyAt_raise ..)
    (notMem_eventCounters (by decide) (by decide) (by decide) (by decide))
  exact counted_before (as := []) (.of_regs rfl) List.not_mem_nil
    (counted_fbump { s with rig := failedRig code spar s } .RIG_COUNT_failures 0 (by decide) (by decide))

theorem onlyAt_failed (code spar : Nat) (s : State) : OnlyAt (RegId.addr .RIG_COUNT :: eventCounters) s (failed code spar s) :=
  .trans (as := [RegId.addr .RIG_COUNT]) (t := fbump .RIG_COUNT_failures 1 { s with rig := failedRig code spar s })
    (onlyAt_from (onlyAt_fbump .RIG_COUNT_failures 1 { s with rig := failedRig code spar s } 0 0 (List.mem_singleton_self _)) rfl) (onlyAt_raise ..)

theorem rigFail_plain (h : plainFailure s) : rigFail code spar s = failed code spar s := by
  rw [rigFail_eq]
  split
  · next hload =>
    obtain ⟨h1, h2⟩ := h.resolve_left (absurd hload)
    rw [bootLoadFailed, failed_boot, if_neg h1, if_neg (fun hc => h2.elim (absurd hc.1) (absurd hc.2))]
  · rfl

theorem loadFails_rigFail (h : plainFailure s) : loadFails s (rigFail code spar s) code spar := by
  have hst : ¬ (s.boot.stage = .load ∧ s.boot.sel = 1) := fun hc => h.elim (absurd hc.1) fun h => absurd hc.2 h.1
  rw [rigFail_plain h]
  unfold loadFails
  rw [failed_rig, failedRig, if_neg hst]
  exact ⟨rfl, rfl, rfl, rfl, failed_boot .., failed_counted ..⟩

/-- A boot load from QSPI that fails under BOOT_SEL 0b00 falls back to the host. -/
theorem rigFail_fallback (hload : s.boot.stage = .load) (hsel : s.boot.sel = 0) (hsrc : s.rig.src = 1) :
    let t := rigFail code spar s
    t.rig.st = .waitHost ∧ t.rig.code = code ∧ t.boot.fallback = true ∧ t.boot.stage = .load := by
  have hfail : rigFail code spar s = raise 41 [(1, code)] (noteIbi { failed code spar s with
      boot := { s.boot with fallback := true, bootFault := true }, rig := { (failed code spar s).rig with st := .waitHost } }) := by
    rw [rigFail_eq, if_pos hload, bootLoadFailed, failed_boot, if_neg (by rw [hsel]; decide), if_pos ⟨hsel, hsrc⟩]
  rw [hfail]
  simp only [raise_frame, noteIbi_frame, failed_rig, failedRig]
  exact ⟨trivial, trivial, trivial, hload⟩

/-- One under BOOT_SEL 0b01 halts the device. -/
theorem rigFail_halt (hload : s.boot.stage = .load) (hsel : s.boot.sel = 1) :
    let t := rigFail code spar s
    t.rig.st = .idle ∧ t.rig.code = code ∧ t.boot.stage = .halted ∧ t.boot.halt = 3 ∧ t.boot.bootFault = true := by
  have hfail : rigFail code spar s = haltBoot 3 4 (failed code spar s) := by
    rw [rigFail_eq, if_pos hload, bootLoadFailed, failed_boot, if_pos hsel]
  rw [hfail]
  simp only [haltBoot, raise_frame, noteIbi_frame, failed_rig, failedRig, if_pos (And.intro hload hsel), and_self]

theorem rigFail_code (code spar : Nat) (s : State) : (rigFail code spar s).rig.code = code ∧ (rigFail code spar s).lanes = s.lanes := by
  have hlanes : (failed code spar s).lanes = s.lanes := by simp only [failed, raise_frame, fbump_frame]
  have hcode : (failed code spar s).rig.code = code := by rw [failed_rig, failedRig]
  rw [rigFail_eq, bootLoadFailed]
  split
  · split
    · simp only [haltBoot, raise_frame, noteIbi_frame, hcode, hlanes, and_self]
    · split
      · simp only [raise_frame, noteIbi_frame, hcode, hlanes, and_self]
      · exact ⟨hcode, hlanes⟩
  · exact ⟨hcode, hlanes⟩

end

/-! ### Data and checks (R336, R337) -/

section

variable {f : FlashData} {s : State}

theorem qspiRead_idle (h : ¬ (s.rig.st = .receiving ∧ s.rig.src = 1 ∧ f.offset = s.rig.ofs + s.rig.image.length)) (ok : Bool) :
    exec (.qspiRead f ok) s = .next s := congrArg Host.Outcome.next (if_neg h)

theorem qspiRead_data (hst : s.rig.st = .receiving) (hsrc : s.rig.src = 1) (hofs : f.offset = s.rig.ofs + s.rig.image.length) :
    exec (.qspiRead f true) s = .next (takeImage f.bytes s) := congrArg Host.Outcome.next (if_pos ⟨hst, hsrc, hofs⟩)

theorem qspiRead_none (hst : s.rig.st = .receiving) (hsrc : s.rig.src = 1) (hofs : f.offset = s.rig.ofs + s.rig.image.length) :
    exec (.qspiRead f false) s = .next (rigFail 0x06 0x3FF s) := congrArg Host.Outcome.next (if_pos ⟨hst, hsrc, hofs⟩)

theorem stageSpar_rig (c old : Nat) (img : Bytes) (s : State) (e : Bytes) : (stageSpar c old img s e).rig = s.rig := by
  unfold stageSpar
  dsimp only
  split
  · rfl
  · rfl

theorem stageBytes_rig (old : Nat) (img : Bytes) (s : State) : (stageBytes old img s).rig = s.rig := by
  unfold stageBytes
  split
  · rfl
  · next c _ =>
    split
    · exact List.foldlRecOn (motive := fun t : State => t.rig = s.rig) _ _ rfl fun t ht e _ => (stageSpar_rig ..).trans ht
    · rfl

/-- A field of the image's header stands where more of the image follows it. -/
theorem leAt_take_append {a b : Bytes} {n o k : Nat} (ha : o + k ≤ a.length) (hn : o + k ≤ n) :
    leAt ((a ++ b).take n) o k = leAt a o k := by
  have hslice : (((a ++ b).take n).drop o).take k = (a.drop o).take k := by
    rw [List.drop_take, List.take_take, Nat.min_eq_left (by omega), List.drop_append_of_le_length (by omega),
      List.take_append_of_le_length (by rw [List.length_drop]; omega)]
  rw [leAt, hslice, leAt]

/-- Bytes that complete an image whose header and table stand already. -/
theorem takeImage_whole {b : Bytes} (hst : s.rig.st = .receiving) (h128 : 128 ≤ s.rig.image.length)
    (hless : s.rig.image.length < imgLen s.rig.image) (htable : tableEnd s.rig.image ≤ s.rig.image.length)
    (hall : imgLen s.rig.image ≤ s.rig.image.length + b.length) :
    (takeImage b s).rig.image = (s.rig.image ++ b).take (imgLen s.rig.image) ∧ (takeImage b s).rig.st = .verifying := by
  have hlenAll : (s.rig.image ++ b).length = s.rig.image.length + b.length := List.length_append
  have himgLen : imgLen (s.rig.image ++ b) = imgLen s.rig.image := by
    have h := leAt_take_append (a := s.rig.image) (b := b) (n := (s.rig.image ++ b).length) (o := 8) (k := 4) (by omega) (by omega)
    rwa [List.take_length] at h
  set img := (s.rig.image ++ b).take (imgLen s.rig.image) with himg
  have hlen : img.length = imgLen s.rig.image := by rw [himg, List.length_take]; omega
  have hown : imgLen img = imgLen s.rig.image := leAt_take_append (by omega) (by omega)
  have hcount : imgCount img = imgCount s.rig.image := leAt_take_append (by omega) (by omega)
  have hseen : ¬ (128 ≤ img.length ∧ s.rig.image.length < tableSeen img ∧ tableSeen img ≤ img.length) := by
    have hend : tableEnd img = tableEnd s.rig.image := by rw [tableEnd, hcount, tableEnd]
    rintro ⟨-, hlt, -⟩
    rw [tableSeen, hend] at hlt
    omega
  have hhead : ¬ (s.rig.image.length < 128 ∧ 128 ≤ (s.rig.image ++ b).length) := by omega
  have hshort : ¬ ((s.rig.image ++ b).length < 128 ∨ (0 : Nat) ≠ 0) := by omega
  have htake : takeImage b s = wholeImage (stageBytes s.rig.image.length img
      { s with rig := { s.rig with image := img, bytes := img.length } }) := by
    rw [takeImage, if_neg (not_not.mpr hst)]
    dsimp only
    rw [if_neg hhead, if_neg hshort, if_neg (by decide), himgLen, ← himg, if_neg hseen]
  have hwhole : ∀ u : State, u.rig = { s.rig with image := img, bytes := img.length } →
      wholeImage u = { u with rig := { u.rig with st := .verifying } } := fun u hu => by
    rw [wholeImage, hu]
    exact if_pos ⟨show 128 ≤ img.length by omega, hlen.trans hown.symm⟩
  rw [htake, hwhole _ (stageBytes_rig ..), stageBytes_rig]
  exact ⟨rfl, rfl⟩

end

/-! ### Loads applied (R338) -/

section

variable {s : State}

theorem startClocks_keeps (d : Bytes) (s : State) : (startClocks d s).rig = s.rig ∧ (startClocks d s).boot = s.boot := by
  unfold startClocks
  exact List.foldlRecOn (motive := fun t : State => t.rig = s.rig ∧ t.boot = s.boot) _ _ ⟨rfl, rfl⟩ fun t ht i _ => ht

theorem rigApply_idle (h : ¬ (s.rig.st = .checking ∧ s.rig.go = true ∧ s.rig.rerig.isNone = true)) (trained : Bool) :
    exec (.rigApply trained) s = .next s := congrArg Host.Outcome.next (if_neg h)

theorem rerigApply_idle (h : ¬ (s.rig.st = .checking ∧ s.rig.go = true)) : exec .rerigApply s = .next s := by
  change execRerigApply s = _
  unfold execRerigApply
  split
  · rfl
  · exact congrArg Host.Outcome.next (if_neg h)

/-- A boot load whose cellar does not train. -/
theorem rigFail_untrained (v : State) (hsel : v.boot.sel = 2) (hload : v.boot.stage = .load) :
    let t := rigFail 0x15 0x3FF (fset .CEL_STATUS_state 4 v)
    t.rig.st = .failed ∧ t.rig.code = 0x15 ∧ fget t .CEL_STATUS_state = 4 ∧ t.boot.stage = .load := by
  have hplain : plainFailure (fset .CEL_STATUS_state 4 v) := .inr ⟨by change v.boot.sel ≠ 1; rw [hsel]; decide,
    .inl (by change v.boot.sel ≠ 0; rw [hsel]; decide)⟩
  obtain ⟨hf, hcode, -, -, hb, -⟩ := loadFails_rigFail (code := 0x15) (spar := 0x3FF) hplain
  refine ⟨hf, hcode, ?_, hb ▸ hload⟩
  rw [rigFail_plain hplain, (onlyAt_failed ..).fget (by decide)]
  exact fget_fset_same v .CEL_STATUS_state 4 0 0 (by decide) (by decide)

/-- The last steps of a boot load: the tables locked, the device to start. -/
theorem applySpars_spec (u : State) : (applySpars u).boot.stage = .start ∧ (applySpars u).rig.st = .applying ∧
    (applySpars u).acc.locked = true := by
  have hlast : ∃ d v, applySpars u = { lockAccess d v with
      boot := { (lockAccess d v).boot with stage := .start }, rig := { (lockAccess d v).rig with st := .applying } } := ⟨_, _, rfl⟩
  obtain ⟨d, v, h⟩ := hlast
  rw [h]
  simp only [lockAccess, raise_frame, and_self]

variable (hst : s.rig.st = .checking) (hgo : s.rig.go = true)

include hst hgo

theorem rigApply_trained (h : s.rig.rerig = none) : leaves (.rigApply true) s (fun t =>
    t.boot.stage = .start ∧ t.rig.st = .applying ∧ t.acc.locked = true) := by
  have hexec : exec (.rigApply true) s = .next (applySpars (openCellar (sparOf s 3 0xFF) (startClocks (sparOf s 2 0xFF) s))) :=
    congrArg Host.Outcome.next (if_pos ⟨hst, hgo, by rw [h]; rfl⟩)
  exact ⟨_, hexec, applySpars_spec _⟩

theorem rigApply_untrained (h : s.rig.rerig = none) (hload : s.boot.stage = .load) (hsel : s.boot.sel = 2) :
    leaves (.rigApply false) s (fun t => t.rig.st = .failed ∧ t.rig.code = 0x15 ∧ fget t .CEL_STATUS_state = 4 ∧
      t.boot.stage = .load) := by
  have hexec : exec (.rigApply false) s = .next (rigFail 0x15 0x3FF (fset .CEL_STATUS_state 4 (startClocks (sparOf s 2 0xFF) s))) :=
    congrArg Host.Outcome.next (if_pos ⟨hst, hgo, by rw [h]; rfl⟩)
  obtain ⟨hf, hcode, hstate, hb⟩ := rigFail_untrained (startClocks (sparOf s 2 0xFF) s)
    (by rw [(startClocks_keeps ..).2, hsel]) (by rw [(startClocks_keeps ..).2, hload])
  exact ⟨_, hexec, hf, hcode, hstate, hb⟩

end

/-! ### A re-rig (R340) -/

/-- What a re-rig's steps leave: lanes held clearing stay so, and the loader is as it was. -/
structure KeepsHeld (s t : State) : Prop where
  held : ∀ l, (laneAt s l).st = .clearing → (laneAt t l).st = .clearing
  rig : t.rig = s.rig

theorem KeepsHeld.refl (s : State) : KeepsHeld s s := ⟨fun _ h => h, rfl⟩

theorem KeepsHeld.trans {s t u : State} (h : KeepsHeld s t) (g : KeepsHeld t u) : KeepsHeld s u :=
  ⟨fun l hl => g.held l (h.held l hl), g.rig.trans h.rig⟩

theorem KeepsHeld.foldl {α : Type} {f : State → α → State} (hf : ∀ s a, KeepsHeld s (f s a)) (l : List α) (s : State) :
    KeepsHeld s (l.foldl f s) := by
  induction l generalizing s with
  | nil => exact .refl s
  | cons a l ih => exact (hf s a).trans (ih (f s a))

theorem KeepsHeld.of_lanes {s t : State} (hl : t.lanes = s.lanes) (hr : t.rig = s.rig) : KeepsHeld s t :=
  ⟨fun l h => by rw [laneAt, hl]; exact h, hr⟩

theorem keepsHeld_of_pushes {s t : State} (h : PushesOnly s t) : KeepsHeld s t := by
  refine ⟨fun l hl => ?_, h.groups.rig⟩
  rw [(h.lanes l).2]
  exact hl

/-- A lane held or cleared anew. -/
theorem keepsHeld_putLane {l : Nat} {x : Lane} (s : State) (h : x.st = .clearing) : KeepsHeld s (putLane l x s) := by
  refine ⟨fun k hk => ?_, rfl⟩
  by_cases hkl : k = l
  · rw [hkl, laneAt_putLane_same, h]
  · rw [laneAt_putLane_other _ _ hkl, hk]

theorem keepsHeld_discardQueue (q : Nat) (s : State) : KeepsHeld s (discardQueue q s) :=
  .foldl (fun _ _ => keepsHeld_of_pushes ((putVc_pushes ..).trans (fbump_pushes ..))) _ _

/-- One lane of a cluster held: its pushes cut, itself clearing. -/
def holdLane (c : Nat) (s : State) (k : Nat) : State :=
  putLane (16 * c + k) { laneAt s (16 * c + k) with st := .clearing, word := none } (abandonLane (16 * c + k) s)

theorem keepsHeld_holdLane (c : Nat) (s : State) (k : Nat) : KeepsHeld s (holdLane c s k) :=
  (keepsHeld_of_pushes (abandonLane_pushes ..)).trans (keepsHeld_putLane _ rfl)

theorem holdLanes_held (c n : Nat) (s : State) :
    ∀ k < n, (laneAt ((List.range n).foldl (holdLane c) s) (16 * c + k)).st = .clearing := by
  induction n with
  | zero => exact fun k hk => absurd hk (Nat.not_lt_zero k)
  | succ n ih =>
    intro k hk
    rw [List.range_succ, List.foldl_append, List.foldl_cons, List.foldl_nil]
    rcases Nat.lt_succ_iff_lt_or_eq.mp hk with h | rfl
    · exact (keepsHeld_holdLane ..).held _ (ih k h)
    · rw [holdLane, laneAt_putLane_same]

/-- Every lane of a re-rig's cluster is held. -/
theorem holdCluster_spec (c : Nat) (s : State) :
    (∀ k < 16, (laneAt (holdCluster c s) (16 * c + k)).st = .clearing) ∧ (holdCluster c s).rig = s.rig := by
  have hqueues : ∀ u : State, KeepsHeld ((List.range 16).foldl (holdLane c) s) u → KeepsHeld s u :=
    fun u h => (KeepsHeld.foldl (keepsHeld_holdLane c) _ s).trans h
  have hdrain : KeepsHeld ((List.range 16).foldl (holdLane c) s) (holdCluster c s) :=
    .foldl (fun t q => (keepsHeld_discardQueue q t).trans
      (.foldl (fun _ _ => keepsHeld_of_pushes (grantWaiting_pushes ..)) _ _)) _ _
  exact ⟨fun k hk => hdrain.held _ (holdLanes_held c 16 s k hk), (hqueues _ hdrain).rig⟩

theorem keepsHeld_clearRange (a n : Nat) (s : State) : KeepsHeld s (clearRange a n s) := .of_lanes rfl rfl

theorem keepsHeld_storeBytes (a : Nat) (b : Bytes) (s : State) : KeepsHeld s (storeBytes a b s) := .of_lanes rfl rfl

theorem keepsHeld_writeLane (code layout : Bytes) (c : Nat) (s : State) (k : Nat) : KeepsHeld s (writeLane code layout c s k) := by
  unfold writeLane
  refine .trans ?_ (keepsHeld_putLane _ rfl)
  refine .trans ?_ (.foldl ?_ _ _)
  on_goal 2 => exact fun t p => .of_lanes rfl rfl
  exact .of_lanes rfl rfl

theorem keepsHeld_writeData (c : Nat) (d : Bytes) (s : State) : KeepsHeld s (writeData c d s) := by
  unfold writeData
  dsimp only
  split
  · exact keepsHeld_storeBytes ..
  · refine .foldl (fun t k => ?_) _ _
    split
    · exact keepsHeld_storeBytes ..
    · exact .refl t

/-- The cluster rewritten: its lanes stay clearing, and the loader goes on as it was. -/
theorem rewriteCluster_spec (c : Nat) (s : State) :
    (∀ l, (laneAt s l).st = .clearing → (laneAt (rewriteCluster c s) l).st = .clearing) ∧ (rewriteCluster c s).rig.st = s.rig.st := by
  have hlanes : KeepsHeld s (if imageRigs s c then writeLanes s c
      else (List.range 16).foldl (fun s k => clearRange (laneBase (16 * c + k)) 0x80000 s) s) := by
    split
    · exact .foldl (fun t k => keepsHeld_writeLane _ _ c t k) _ _
    · exact .foldl (fun t k => keepsHeld_clearRange ..) _ _
  have hkept := (hlanes.trans (keepsHeld_clearRange (atticBase c) 0x400000 _)).trans
    (.foldl (fun t (p : Spar) => keepsHeld_writeData c p.data t) ((keptSpars s).filter (fun p => p.type == 0x12 && p.cluster == c)) _)
  have hst := congrArg Rig.st hkept.rig
  exact ⟨hkept.held, hst⟩

/-- The data memories of a cluster's lanes cleared. -/
def clearCluster (c : Nat) (s : State) : State :=
  (List.range 16).foldl (fun s k => clearRange (laneBase (16 * c + k)) 0x80000 s) s

theorem keepsHeld_clearCluster (c : Nat) (s : State) : KeepsHeld s (clearCluster c s) :=
  .foldl (f := fun s k => clearRange (laneBase (16 * c + k)) 0x80000 s) (fun _ _ => keepsHeld_clearRange ..) _ _

/-- A cluster whose re-rig has failed. -/
def unrigged (c : Nat) (s : State) : State :=
  { s with rig := { s.rig with
      rigged := s.rig.rigged &&& ~~~ BitVec.ofNat 8 (2 ^ c), spars := s.rig.spars.filter (fun p => p.cluster != c) } }

theorem unrigged_lanes (c : Nat) (s : State) : (unrigged c s).lanes = s.lanes := rfl

section

variable {s : State} {c : Nat}

theorem rerigApply_row (hst : s.rig.st = .checking) (hgo : s.rig.go = true) (hc : s.rig.rerig = some c) :
    leaves .rerigApply s (fun t => (∀ k < 16, (laneAt t (16 * c + k)).st = .clearing) ∧
      (t.rig.st = .applying ∨ t.rig.code = 0x16)) := by
  obtain ⟨hheld, hrig⟩ := holdCluster_spec c { s with rig := { s.rig with st := .applying } }
  have hexec : exec .rerigApply s = .next (if stagingBad s c then
      rigFail 0x16 0x3FF (unrigged c (clearCluster c (holdCluster c { s with rig := { s.rig with st := .applying } })))
      else rewriteCluster c (holdCluster c { s with rig := { s.rig with st := .applying } })) := by
    change execRerigApply s = _
    simp only [execRerigApply, hc, hst, hgo, and_self, if_true, unrigged, clearCluster]
  generalize holdCluster c { s with rig := { s.rig with st := .applying } } = u at hheld hrig hexec
  refine ⟨_, hexec, ?_⟩
  split
  · obtain ⟨hcode, hlanes⟩ := rigFail_code 0x16 0x3FF (unrigged c (clearCluster c u))
    refine ⟨fun k hk => ?_, .inr hcode⟩
    rw [laneAt, hlanes, unrigged_lanes]
    exact (keepsHeld_clearCluster c u).held _ (hheld k hk)
  · obtain ⟨hkeep, happly⟩ := rewriteCluster_spec c u
    exact ⟨fun k hk => hkeep _ (hheld k hk), .inl (happly.trans (congrArg Rig.st hrig))⟩

end

/-- Settles O43: each row of the loader acts in its own state, and a failure is one change of the loader. -/
theorem loadsAreReceivedCheckedAndApplied : Obligations.LoadsAreReceivedCheckedAndApplied := by
  unfold Obligations.LoadsAreReceivedCheckedAndApplied
  intro f s r b
  refine ⟨fun h => congrArg Host.Outcome.next (if_neg h),
    fun hst hsrc hp => ⟨_, congrArg Host.Outcome.next (if_pos ⟨hst, hsrc⟩), loadFails_rigFail hp⟩,
    fun h => ⟨qspiRead_idle h true, qspiRead_idle h false⟩, fun hst hsrc hofs => ⟨fun hlen => ?_, fun hp => ?_, fun hl hs => ?_, fun hl hs => ?_⟩,
    fun hst hsrc hofs h128 hless htab hall => ⟨_, qspiRead_data hst hsrc hofs, takeImage_whole hst h128 hless htab hall⟩,
    fun h => congrArg Host.Outcome.next (if_neg h), fun hst => ⟨fun hsig => ?_, fun hsig hp => ?_⟩, fun h => ?_,
    fun hst hgo => ?_, fun h => ?_, fun hst hgo => ⟨fun hno => ⟨?_, rigApply_trained hst hgo hno, rigApply_untrained hst hgo hno⟩,
      fun c hc => ⟨?_, rerigApply_row hst hgo hc⟩⟩⟩
  · have htake := takeImage_short hst hlen
    exact ⟨_, qspiRead_data hst hsrc hofs, by rw [htake], by rw [htake]; exact hst, by rw [htake]⟩
  · exact ⟨_, qspiRead_none hst hsrc hofs, loadFails_rigFail hp⟩
  · exact ⟨_, qspiRead_none hst hsrc hofs, rigFail_fallback hl hs hsrc⟩
  · exact ⟨_, qspiRead_none hst hsrc hofs, rigFail_halt hl hs⟩
  · exact congrArg Host.Outcome.next ((if_pos hst).trans (if_neg (not_not.mpr hsig)))
  · exact ⟨_, congrArg Host.Outcome.next ((if_pos hst).trans (if_pos hsig)), loadFails_rigFail hp⟩
  · refine congrArg Host.Outcome.next (if_neg ?_)
    rintro ⟨hst, hgo⟩
    exact h.elim (absurd hst) fun hg => absurd hgo (by rw [hg]; decide)
  · have hexec : exec .loaderCheckDone s = .next (match checkImage s with
        | some r => rigFail r.1 r.2 s
        | none => { s with rig := { s.rig with go := true } }) :=
      congrArg Host.Outcome.next (if_pos ⟨hst, by rw [hgo]; rfl⟩)
    refine ⟨fun hno => by rw [hexec, hno], fun code spar hbad hp => ⟨_, by rw [hexec, hbad], loadFails_rigFail hp⟩⟩
  · have hno : ¬ (s.rig.st = .checking ∧ s.rig.go = true) := fun hc =>
      h.elim (absurd hc.1) fun hg => absurd (hg.symm.trans hc.2) Bool.false_ne_true
    exact ⟨rigApply_idle (fun hc => hno ⟨hc.1, hc.2.1⟩) true, rigApply_idle (fun hc => hno ⟨hc.1, hc.2.1⟩) false, rerigApply_idle hno⟩
  · change execRerigApply s = _
    unfold execRerigApply
    rw [show s.rig.rerig = none from hno]
  · refine rigApply_idle (fun hn => ?_) true
    rw [show s.rig.rerig = some c from hc] at hn
    exact absurd hn.2.2 Bool.false_ne_true

end Sys2Proof.Proofs.Loads
end

section
/-! PROOF. Resets and the start of the boot stages (R79, R345, R346, R469, R472, R476, R491). -/

namespace Sys2Proof.Proofs.Resets

open Sys2Proof Sys2Proof.Machine Sys2Proof.Spec Sys2Proof.Proofs.Effects Sys2Proof.Proofs.RegisterFields
  Sys2Proof.Proofs.IslandCommands Sys2Proof.Proofs.Highways

/-! ### Resets (R345, R476, R491) -/

section

variable {s : State}

/-- The registers that a reset leaves: the supply monitors, the sequence and the cause. -/
theorem resetDevice_regs (c : Nat) (s : State) : ∃ u : State, (resetDevice c s).regs =
    (fset .PWR_RESET_cause c (setWord (RegId.addr .PWR_SEQ) (regWord s (RegId.addr .PWR_SEQ))
      (setWord (RegId.addr .PWR_MON) (regWord s (RegId.addr .PWR_MON)) u))).regs := ⟨_, rfl⟩

theorem resetDevice_cause {c : Nat} (hc : c < 4) (s : State) : fget (resetDevice c s) .PWR_RESET_cause = c := by
  obtain ⟨u, hu⟩ := resetDevice_regs c s
  rw [fget_congr hu, fget_fset_same _ _ _ _ _ (by decide) (by decide)]
  exact Nat.mod_eq_of_lt hc

theorem resetWord_monitor_lt : RegId.resetWord .PWR_MON 0 0 < 2 ^ 32 := by decide +kernel

theorem regAt_monitor : regAt (RegId.addr .PWR_MON) = some (.PWR_MON, 0, 0) := by decide +kernel

theorem regWord_monitor_lt (s : State) : regWord s (RegId.addr .PWR_MON) < 2 ^ 32 := by
  cases hw : tget? s.regs (RegId.addr .PWR_MON) with
  | some w =>
    simp only [regWord, hw]
    exact w.isLt
  | none =>
    rw [regWord_of_unlisted hw regAt_monitor]
    exact resetWord_monitor_lt

/-- The supply monitors stand through a reset. -/
theorem resetDevice_monitor (c : Nat) (s : State) : regWord (resetDevice c s) (RegId.addr .PWR_MON) = regWord s (RegId.addr .PWR_MON) := by
  obtain ⟨u, hu⟩ := resetDevice_regs c s
  rw [regWord_congr hu, fset, regWord_setWord_other _ _ (by decide), regWord_setWord_other _ _ (by decide), regWord_setWord_same,
    Nat.mod_eq_of_lt (regWord_monitor_lt s)]

theorem setVid_past (v : BitVec 4) (s : State) : (setVid v s).supply.vidDrives = s.supply.vidDrives ∧
    (setVid v s).supply.past = if s.age.vid = v then s.supply.past else s.supply.past ++ [(s.age.vid, 1000000)] := by
  unfold setVid
  split
  · exact ⟨rfl, rfl⟩
  · exact ⟨rfl, rfl⟩

theorem powerOn_row (s : State) : leaves .powerOn s (fun t => t.boot.fuses = s.boot.fuses ∧ t.boot.held = true ∧ t.mem = [] ∧ t.jtag = {} ∧
    t.chans = [] ∧ t.sess = [] ∧ t.host.cmds = [] ∧ fget t .PWR_RESET_cause = 0 ∧ vidPins t = none ∧
    fget t .PWR_SEQ_violation = 0 ∧ fget t .PWR_SEQ_rail = 15 ∧ t.pending = s.pending) := by
  refine ⟨_, rfl, rfl, rfl, rfl, rfl, rfl, rfl, rfl, ?_, rfl, ?_, ?_, rfl⟩
  · rw [fget_fset_other _ _ .PWR_RESET_cause _ _ _ _ _ (by decide), fget_fset_other _ _ .PWR_RESET_cause _ _ _ _ _ (by decide)]
    exact (fget_congr rfl ..).trans (resetDevice_cause (by decide) _)
  · exact fget_fset_same _ _ _ _ _ (by decide) (by decide)
  · rw [fget_fset_beside _ .PWR_SEQ_violation .PWR_SEQ_rail _ _ _ rfl (by decide) (by decide) (by decide) (by decide)]
    exact fget_fset_same _ _ _ _ _ (by decide) (by decide)

theorem resetAssert_row (s : State) : leaves .resetAssert s (fun t => t.boot.held = true ∧ t.boot.fuses = s.boot.fuses ∧ t.mem = s.mem ∧
    t.time = State.reset.time ∧ t.chans = [] ∧ t.sess = [] ∧ t.lanes = State.reset.lanes ∧ t.acc = State.reset.acc ∧
    fget t .PWR_RESET_cause = 1 ∧ regWord t (RegId.addr .PWR_MON) = regWord s (RegId.addr .PWR_MON) ∧
    t.jtag = s.jtag ∧ t.pending = s.pending ∧ t.supply.vidDrives = s.supply.vidDrives ∧ t.age.vid = 5 ∧
    t.supply.past = if s.age.vid = 5 then s.supply.past else s.supply.past ++ [(s.age.vid, 1000000)]) := by
  obtain ⟨hvid, hpast⟩ := setVid_past 5 { s with boot := { s.boot with held := true } }
  exact ⟨_, rfl, rfl, rfl, rfl, rfl, rfl, rfl, rfl, rfl, resetDevice_cause (by decide) _, resetDevice_monitor .., rfl, rfl, hvid, rfl, hpast⟩

theorem sysclkLoss_row (s : State) : leaves .sysclkLoss s (fun t => t.sysLost = true ∧ t.boot.fuses = s.boot.fuses ∧ t.mem = s.mem ∧
    t.time = State.reset.time ∧ t.chans = [] ∧ fget t .PWR_RESET_cause = 2) :=
  ⟨_, rfl, rfl, rfl, rfl, rfl, rfl, resetDevice_cause (by decide) _⟩

/-! ### Releases (R79, R345, R469) -/

theorem clearRange_zero {a n c : Nat} (h : Memory.read s.mem c = 0) : Memory.read (clearRange a n s).mem c = 0 := by
  by_cases hin : a ≤ c ∧ c < a + n
  · exact Memory.read_clear_inside s.mem a n hin.1 hin.2
  · exact (Memory.read_clear_outside s.mem a n (by omega)).trans h

/-- The data memory of the lanes below `n` cleared. -/
theorem clearLanes_zero (n : Nat) (s : State) : ∀ l < n, ∀ i < 0x80000,
    Memory.read ((List.range n).foldl (fun s l => clearRange (laneBase l) 0x80000 s) s).mem (laneBase l + i) = 0 := by
  induction n with
  | zero => exact fun l hl => absurd hl (Nat.not_lt_zero l)
  | succ n ih =>
    intro l hl i hi
    rw [List.range_succ, List.foldl_append, List.foldl_cons, List.foldl_nil]
    rcases Nat.lt_succ_iff_lt_or_eq.mp hl with h | rfl
    · exact clearRange_zero (ih l h i hi)
    · exact Memory.read_clear_inside _ _ _ (Nat.le_add_right ..) (Nat.add_lt_add_left hi _)

/-- What clearing the lanes leaves. -/
theorem clearLanes_frame (n : Nat) (s : State) :
    let t := (List.range n).foldl (fun s l => clearRange (laneBase l) 0x80000 s) s
    t.boot = s.boot ∧ t.age = s.age ∧ t.supply = s.supply ∧ t.sysLost = s.sysLost := by
  exact List.foldlRecOn (motive := fun t : State => t.boot = s.boot ∧ t.age = s.age ∧ t.supply = s.supply ∧ t.sysLost = s.sysLost) _ _
    ⟨rfl, rfl, rfl, rfl⟩ fun t ht l _ => ht

theorem clearLanes_data (s : State) : ∀ l < 128, ∀ i < 0x80000, Memory.read (clearLanes s).mem (laneBase l + i) = 0 :=
  clearLanes_zero 128 s

theorem clearLanes_boot (s : State) : (clearLanes s).boot = s.boot := (clearLanes_frame 128 s).1

theorem clearLanes_rest (s : State) : (clearLanes s).age = s.age ∧ (clearLanes s).supply = s.supply ∧ (clearLanes s).sysLost = s.sysLost :=
  (clearLanes_frame 128 s).2

/-- What the supply monitors' bit and an event leave. -/
theorem shown_frame (sel : BitVec 2) (u : State) :
    let t := if sel = 3 then raise 47 [(4, 3)] (noteIbi (showSupply u)) else noteIbi (showSupply u)
    t.mem = u.mem ∧ t.boot = u.boot ∧ t.age = u.age ∧ t.supply = u.supply ∧ t.sysLost = u.sysLost := by
  intro t
  have hshow : (noteIbi (showSupply u)).mem = u.mem ∧ (noteIbi (showSupply u)).boot = u.boot ∧ (noteIbi (showSupply u)).age = u.age ∧
      (noteIbi (showSupply u)).supply = u.supply ∧ (noteIbi (showSupply u)).sysLost = u.sysLost := by
    simp only [noteIbi_frame, showSupply, fset, setWord, and_self]
  by_cases h : sel = 3
  · have ht : t = raise 47 [(4, 3)] (noteIbi (showSupply u)) := if_pos h
    rw [ht]
    simpa only [raise_frame] using hshow
  · have ht : t = noteIbi (showSupply u) := if_neg h
    rw [ht]
    exact hshow

theorem showSupply_bit (u : State) : fget (noteIbi (showSupply u)) .HST_FAULT_supply = if u.supply.out = 0 then 0 else 1 := by
  have hregs : (noteIbi (showSupply u)).regs = (showSupply u).regs := by simp only [noteIbi_frame]
  rw [fget_congr hregs, showSupply, fget_fset_same _ _ _ _ _ (by decide) (by decide)]
  split <;> rfl

theorem shown_bit (sel : BitVec 2) (u : State) :
    fget (if sel = 3 then raise 47 [(4, 3)] (noteIbi (showSupply u)) else noteIbi (showSupply u)) .HST_FAULT_supply =
      if u.supply.out = 0 then 0 else 1 := by
  split
  · rw [(onlyAt_raise ..).fget (by decide), showSupply_bit]
  · exact showSupply_bit u

/-- The state as the islands leave reset, BOOT_SEL sampled. -/
def sampled (sel : BitVec 2) (s : State) : State :=
  { s with boot := { s.boot with sel := sel, stage := .supply }, host := { s.host with pid := Config.freeWord s.free } }

theorem startBoot_eq (sel : BitVec 2) (s : State) : startBoot sel s =
    if sel = 3 then raise 47 [(4, 3)] (noteIbi (showSupply (draw (clearLanes (sampled sel s))))) else noteIbi (showSupply (draw (clearLanes (sampled sel s)))) := by
  simp only [startBoot, sampled]

/-- What BOOT_SEL and the supply monitors show of lanes just cleared. -/
theorem shown_spec {sel : BitVec 2} {u c : State} (hzero : ∀ l < 128, ∀ i < 0x80000, Memory.read c.mem (laneBase l + i) = 0)
    (hboot : c.boot = u.boot) (hrest : c.age = u.age ∧ c.supply = u.supply ∧ c.sysLost = u.sysLost) :
    let t := if sel = 3 then raise 47 [(4, 3)] (noteIbi (showSupply (draw c))) else noteIbi (showSupply (draw c))
    t.boot = u.boot ∧ t.age = u.age ∧ t.supply = u.supply ∧ t.sysLost = u.sysLost ∧
    (∀ l < 128, ∀ i < 0x80000, Memory.read t.mem (laneBase l + i) = 0) ∧
    fget t .HST_FAULT_supply = if u.supply.out = 0 then 0 else 1 := by
  obtain ⟨hage, hsup, hsys⟩ := hrest
  obtain ⟨fmem, fboot, fage, fsup, fsys⟩ := shown_frame sel (draw c)
  refine ⟨fboot.trans hboot, fage.trans hage, fsup.trans hsup, fsys.trans hsys, fun l hl i hi => ?_, ?_⟩
  · rw [fmem]
    exact hzero l hl i hi
  · rw [shown_bit, show (draw c).supply = u.supply from hsup]

/-- The islands leave reset. -/
theorem startBoot_spec (sel : BitVec 2) (s : State) :
    (startBoot sel s).boot = { s.boot with sel := sel, stage := .supply } ∧ (startBoot sel s).age = s.age ∧
    (startBoot sel s).supply = s.supply ∧ (startBoot sel s).sysLost = s.sysLost ∧
    (∀ l < 128, ∀ i < 0x80000, Memory.read (startBoot sel s).mem (laneBase l + i) = 0) ∧
    fget (startBoot sel s) .HST_FAULT_supply = if s.supply.out = 0 then 0 else 1 := by
  rw [startBoot_eq]
  exact shown_spec (clearLanes_data (sampled sel s)) (clearLanes_boot (sampled sel s)) (clearLanes_rest (sampled sel s))

theorem resetRelease_row (sel : BitVec 2) (hheld : s.boot.held = true) (hclk : s.sysLost = false) :
    leaves (.resetRelease sel) s (fun t => t.boot.held = false ∧
      vidPins t = some s.age.vid ∧ (∀ l < 128, ∀ i < 0x80000, Memory.read t.mem (laneBase l + i) = 0) ∧
      t.boot.stage = .supply ∧ t.boot.sel = sel ∧ t.boot.fuses = s.boot.fuses ∧
      fget t .HST_FAULT_supply = if s.supply.out = 0 then 0 else 1) := by
  have hexec : exec (.resetRelease sel) s = .next (startBoot sel { s with
      boot := { s.boot with held := false, sel := sel }, supply := { s.supply with vidDrives := true } }) :=
    congrArg Host.Outcome.next ((if_pos hheld).trans (if_neg (by rw [hclk]; exact Bool.false_ne_true)))
  obtain ⟨hboot, hage, hsup, -, hzero, hbit⟩ := startBoot_spec sel { s with
    boot := { s.boot with held := false, sel := sel }, supply := { s.supply with vidDrives := true } }
  refine ⟨_, hexec, by rw [hboot], ?_, hzero, by rw [hboot], by rw [hboot], by rw [hboot], hbit⟩
  rw [vidPins, hsup, hage]
  rfl

theorem sysclkReturn_row (sel : BitVec 2) (hlost : s.sysLost = true) (hheld : s.boot.held = false) :
    leaves (.sysclkReturn sel) s (fun t => t.sysLost = false ∧
      t.boot.stage = .supply ∧ t.boot.sel = sel ∧ t.boot.fuses = s.boot.fuses) := by
  have hexec : exec (.sysclkReturn sel) s = .next (startBoot sel { s with sysLost := false }) :=
    congrArg Host.Outcome.next ((if_pos hlost).trans (if_neg (by rw [hheld]; exact Bool.false_ne_true)))
  obtain ⟨hboot, -, -, hsys, -, -⟩ := startBoot_spec sel { s with sysLost := false }
  exact ⟨_, hexec, hsys, by rw [hboot], by rw [hboot], by rw [hboot]⟩

end

end Sys2Proof.Proofs.Resets
end

section
/-! PROOF. The boot stages, reports and the supply monitors (R345, R346, R348, R350, R355, R472 to R474, R477). -/

namespace Sys2Proof.Proofs.BootStages

open Sys2Proof Sys2Proof.Machine Sys2Proof.Spec Sys2Proof.Proofs.Effects Sys2Proof.Proofs.RegisterFields
  Sys2Proof.Proofs.RegisterPlaces Sys2Proof.Proofs.RegisterWrites Sys2Proof.Proofs.IslandCommands Sys2Proof.Proofs.Highways Sys2Proof.Proofs.Resets

/-! ### From SUPPLY to LOAD (R345, R350, R472) -/

section

variable {s : State}

theorem haltBoot_boot (code stage : Nat) (s : State) :
    (haltBoot code stage s).boot = { s.boot with stage := .halted, halt := code, bootFault := true } := by
  simp only [haltBoot, raise_frame, noteIbi_frame]

/-- What the identity stage leaves of the boot and the loader. -/
structure SameLoad (s t : State) : Prop where
  m0 : t.boot.m0 = s.boot.m0
  sel : t.boot.sel = s.boot.sel
  mast : t.mast = s.mast
  rig : t.rig = s.rig

theorem SameLoad.trans {s t u : State} (h : SameLoad s t) (g : SameLoad t u) : SameLoad s u :=
  ⟨g.m0.trans h.m0, g.sel.trans h.sel, g.mast.trans h.mast, g.rig.trans h.rig⟩

theorem sameLoad_useSeed (b : Nat) (s : State) : SameLoad s (useSeed b s) := ⟨rfl, rfl, rfl, rfl⟩

theorem sameLoad_raise (src : Nat) (l : List (Nat × Nat)) (s : State) : SameLoad s (raise src l s) := by
  constructor <;> simp only [raise_frame]

theorem sameLoad_identityFault (c : Nat) (s : State) : SameLoad s (identityFault c s) := by
  constructor <;> simp only [identityFault, raise_frame]

theorem sameLoad_blown (f : Fuses) (s : State) : SameLoad s (draw (draw { s with boot := { s.boot with fuses := f } })) :=
  ⟨rfl, rfl, rfl, rfl⟩

theorem sameLoad_generateSeed (b : Nat) (ok : Bool) (s : State) : SameLoad s (generateSeed b ok s) := by
  unfold generateSeed
  dsimp only
  generalize blownSeed b _ ok s.boot.fuses = f
  split
  · exact ((sameLoad_blown f s).trans (sameLoad_useSeed ..)).trans (sameLoad_raise ..)
  · exact sameLoad_blown f s

theorem sameLoad_retryIdentity (ok : Bool) (s : State) : SameLoad s (retryIdentity ok s) := by
  unfold retryIdentity
  split
  · exact sameLoad_identityFault ..
  · split
    · exact sameLoad_generateSeed ..
    · exact (sameLoad_generateSeed ..).trans (sameLoad_identityFault ..)

theorem sameLoad_identityStage (healthy first second : Bool) (s : State) : SameLoad s (identityStage healthy first second s) := by
  unfold identityStage
  dsimp only
  split
  · exact sameLoad_useSeed ..
  split
  · exact sameLoad_useSeed ..
  split
  · exact sameLoad_identityFault ..
  split
  · split
    · exact sameLoad_generateSeed ..
    · exact (sameLoad_generateSeed ..).trans (sameLoad_retryIdentity ..)
  split
  · split
    · exact sameLoad_generateSeed ..
    · exact (sameLoad_generateSeed ..).trans (sameLoad_retryIdentity ..)
  · exact sameLoad_identityFault ..

/-- Stage LOAD as it begins, by the BOOT_SEL in force. -/
theorem enterLoad_spec (u : State) : (enterLoad u).boot = { u.boot with stage := .load } ∧ (enterLoad u).mast = u.mast ∧
    (enterLoad u).rig.ofs = (if u.boot.sel = 0 ∨ u.boot.sel = 1 then 0 else u.rig.ofs) ∧
    (enterLoad u).rig.st = (if u.boot.sel = 0 ∨ u.boot.sel = 1 then .receiving else .waitHost) := by
  by_cases h : u.boot.sel = 0 ∨ u.boot.sel = 1
  · have henter : enterLoad u = beginLoad 1 0 none { u with boot := { u.boot with stage := .load } } := if_pos h
    rw [henter, if_pos h, if_pos h]
    simp only [beginLoad, raise_frame, and_self]
  · have henter : enterLoad u = { u with boot := { u.boot with stage := .load }, rig := { u.rig with st := .waitHost } } := if_neg h
    rw [henter, if_neg h, if_neg h]
    exact ⟨rfl, rfl, rfl, rfl⟩

theorem supplyReady_idle (h : inReset s = true ∨ s.boot.stage ≠ .supply) (a b c d e : Bool) :
    exec (.bootSupplyReady a b c d e) s = .next s := by
  refine congrArg Host.Outcome.next (if_pos ?_)
  rcases h with h | h
  · rw [h]
    rfl
  · rw [bne_iff_ne.mpr h, Bool.or_true, Bool.true_or, Bool.true_or]

theorem supplyTimeout_idle (h : inReset s = true ∨ s.boot.stage ≠ .supply) : exec .bootSupplyTimeout s = .next s := by
  refine congrArg Host.Outcome.next (if_neg ?_)
  rcases h with h | h
  · rw [h]
    exact Bool.false_ne_true
  · rw [beq_eq_false_iff_ne.mpr h, Bool.and_false]
    exact Bool.false_ne_true

section

variable (hr : inReset s = false) (hst : s.boot.stage = .supply)

include hr hst

theorem supplyTimeout_row : leaves .bootSupplyTimeout s (fun t => t.boot = { s.boot with bootFault := true }) := by
  have hgo : (!inReset s && s.boot.stage == .supply) = true := by rw [hr, hst]; rfl
  refine ⟨_, congrArg Host.Outcome.next (if_pos hgo), ?_⟩
  simp only [noteIbi_frame]

variable (hseq : fget s .PWR_SEQ_violation = 0) (hmon : fget s .PWR_MON_in_range = 0x7FF)

include hseq hmon

theorem supplyReady_open (a b c d e : Bool) : exec (.bootSupplyReady a b c d e) s = .next (
    if !a then haltBoot 1 1 s else if !b then haltBoot 2 2 s else enterLoad (identityStage c d e (measureRom s))) := by
  have hgo : ¬ (inReset s || s.boot.stage != .supply || fbit s .PWR_SEQ_violation || fget s .PWR_MON_in_range != 0x7FF) = true := by
    rw [hr, hst, fbit, hseq, hmon]
    decide
  exact congrArg Host.Outcome.next (if_neg hgo)

theorem supplyReady_row (rom healthy readA readB : Bool) :
    leaves (.bootSupplyReady false rom healthy readA readB) s (fun t => t.boot.stage = .halted ∧ t.boot.halt = 1) ∧
    leaves (.bootSupplyReady true false healthy readA readB) s (fun t => t.boot.stage = .halted ∧ t.boot.halt = 2) ∧
    leaves (.bootSupplyReady true true healthy readA readB) s (fun t => t.boot.stage = .load ∧
      t.boot.m0 = sha512 Config.rom ∧ t.mast.mem = [] ∧ t.rig.ofs = (if s.boot.sel = 0 ∨ s.boot.sel = 1 then 0 else s.rig.ofs) ∧
      t.rig.st = (if s.boot.sel = 0 ∨ s.boot.sel = 1 then .receiving else .waitHost) ∧
      (s.boot.fuses.validA = true → t.boot.idOk = true ∧ t.boot.seed = 0 ∧ t.boot.fuses = s.boot.fuses) ∧
      (s.boot.fuses.validA = false → s.boot.fuses.validB = true →
        t.boot.idOk = true ∧ t.boot.seed = 1 ∧ t.boot.fuses = s.boot.fuses)) := by
  have hexec := supplyReady_open hr hst hseq hmon
  refine ⟨⟨_, hexec .., ?_⟩, ⟨_, hexec .., ?_⟩, ⟨_, hexec .., ?_⟩⟩
  · rw [Bool.not_false, if_pos rfl]
    dsimp only
    rw [haltBoot_boot]
    exact ⟨rfl, rfl⟩
  · rw [Bool.not_true, if_neg Bool.false_ne_true, Bool.not_false, if_pos rfl]
    dsimp only
    rw [haltBoot_boot]
    exact ⟨rfl, rfl⟩
  · rw [Bool.not_true, if_neg Bool.false_ne_true, if_neg Bool.false_ne_true]
    obtain ⟨hm0, hsel, hmast, hrig⟩ := sameLoad_identityStage healthy readA readB (measureRom s)
    have hid : (s.boot.fuses.validA = true → identityStage healthy readA readB (measureRom s) = useSeed 0 (measureRom s)) ∧
        (s.boot.fuses.validA = false → s.boot.fuses.validB = true →
          identityStage healthy readA readB (measureRom s) = useSeed 1 (measureRom s)) := by
      refine ⟨fun h => if_pos h, fun h h' => (if_neg ?_).trans (if_pos h')⟩
      rw [show (measureRom s).boot.fuses.validA = false from h]
      exact Bool.false_ne_true
    generalize identityStage healthy readA readB (measureRom s) = u at hm0 hsel hmast hrig hid
    obtain ⟨hboot, hmast', hofs, hst'⟩ := enterLoad_spec u
    rw [hsel] at hofs hst'
    rw [hrig] at hofs
    refine ⟨by rw [hboot], by rw [hboot]; exact hm0, by rw [hmast', hmast]; rfl, hofs, hst', fun h => ?_, fun h h' => ?_⟩
    · rw [hboot, hid.1 h]
      exact ⟨rfl, rfl, rfl⟩
    · rw [hboot, hid.2 h h']
      exact ⟨rfl, rfl, rfl⟩

end

end

/-! ### The start of the firmware, and reports (R345, R348, R355) -/

section

variable {s : State}

theorem setPtp_boot (st : Nat) (u : State) : (setPtp st u).boot = u.boot ∧ (setPtp st u).mast = u.mast ∧
    (setPtp st u).pair = u.pair ∧ (setPtp st u).stay = u.stay := by
  unfold setPtp
  split
  · exact ⟨rfl, rfl, rfl, rfl⟩
  · simp only [raise_frame, and_self]

/-- What the timing engine leaves as it follows the firmware or a link. -/
theorem ptpFollow_boot (u : State) : (ptpFollow u).boot = u.boot ∧ (ptpFollow u).mast = u.mast ∧
    (ptpFollow u).pair = u.pair ∧ (ptpFollow u).stay = u.stay := by
  unfold ptpFollow resetPtp
  split
  · exact setPtp_boot ..
  · exact ⟨rfl, rfl, rfl, rfl⟩

/-- The state with its firmware running, before event 40. -/
def firmwareUp (s : State) : State :=
  setWord (RegId.addr .MST_FW_VER) (Config.firmwareVersion (sparData s 1)).toNat
    (setWord (RegId.addr .BOOT_TIME) (s.time.counter.toNat / 1000000) { s with
      boot := { s.boot with stage := .running, bootFault := false }
      mast := { s.mast with fw := true, mem := Memory.writeBytes s.mast.mem Config.firmwarePlace (sparData s 1) }
      pair := { s.pair with role := if fget s .PAIR_CFG_mode = 0 then .unpaired else .listening, heldTick := tickNow s } })

theorem firmwareUp_bootTime (s : State) :
    regWord (firmwareUp s) (RegId.addr .BOOT_TIME) = s.time.counter.toNat / 1000000 % 2 ^ 32 := by
  rw [firmwareUp, regWord_setWord_other _ _ (by decide), regWord_setWord_same]

/-- What event 40 and the timing engine leave. -/
theorem announced (l : List (Nat × Nat)) (u : State) :
    let t := ptpFollow (noteIbi (raise 40 l u))
    t.boot = u.boot ∧ t.mast = u.mast ∧ t.pair = u.pair ∧ OnlyAt eventCounters u t := by
  intro t
  obtain ⟨hboot, hmast, hpair, -⟩ := ptpFollow_boot (noteIbi (raise 40 l u))
  have hnote : (noteIbi (raise 40 l u)).boot = u.boot ∧ (noteIbi (raise 40 l u)).mast = u.mast ∧
      (noteIbi (raise 40 l u)).pair = u.pair ∧ (noteIbi (raise 40 l u)).regs = (raise 40 l u).regs := by
    simp only [noteIbi_frame, raise_frame, and_self]
  obtain ⟨hb, hm, hp, hr⟩ := hnote
  exact ⟨hboot.trans hb, hmast.trans hm, hpair.trans hp, .then (.then (onlyAt_raise 40 l u) (.of_regs hr)) (ptpFollow_keeps _).2⟩

theorem firmwareReady_row (hst : s.boot.stage = .start) (hcmds : s.host.cmds = []) :
    leaves .firmwareReady s (fun t => t.boot.stage = .running ∧ t.mast.fw = true ∧
      t.pair.role = (if fget s .PAIR_CFG_mode = 0 then .unpaired else .listening) ∧
      regWord t (RegId.addr .BOOT_TIME) = s.time.counter.toNat / 1000000 % 2 ^ 32) := by
  have hexec : ∃ l, exec .firmwareReady s = .next (ptpFollow (noteIbi (raise 40 l (firmwareUp s)))) :=
    ⟨_, (congrArg Host.Outcome.next (if_pos hst)).trans (by rw [hcmds]; rfl)⟩
  obtain ⟨l, hexec⟩ := hexec
  obtain ⟨hboot, hmast, hpair, hregs⟩ := announced l (firmwareUp s)
  refine ⟨_, hexec, by rw [hboot]; rfl, by rw [hmast]; rfl, by rw [hpair]; rfl, ?_⟩
  rw [hregs.same _ (by decide), firmwareUp_bootTime]

theorem ecdsaSign_length (seed : BitVec 640) (k : Nat) (m : Bytes) : (ecdsaSign seed k m).length = 132 := by
  simp [ecdsaSign, toBe, LoadStore.length_toLe]

theorem attestDone_row (h : s.boot.busy = true) : leaves .attestDone s (fun t => t.boot.busy = false ∧ t.boot.ready = true ∧
    t.boot.attResult = 1 ∧ t.boot.serial = s.boot.serial + 1 ∧ t.boot.report.take s.boot.latch.length = s.boot.latch ∧
    t.boot.report.length = s.boot.latch.length + 136) := by
  refine ⟨_, congrArg Host.Outcome.next (if_pos h), rfl, rfl, rfl, rfl, ?_, ?_⟩
  · change (s.boot.latch ++ _ ++ _).take _ = _
    rw [List.append_assoc, List.take_left]
  · change (s.boot.latch ++ ecdsaSign _ _ _ ++ zeros 4).length = _
    rw [List.length_append, List.length_append, ecdsaSign_length]
    rfl

end

/-! ### The supply monitors (R473, R474, R385) -/

section

variable {s : State} {rail : Fin 11} {uv : Nat}

/-- A rail's report noted. -/
def noted (rail : Fin 11) (bad : Bool) (s : State) : State :=
  { s with supply := { s.supply with
      out := if bad then s.supply.out ||| BitVec.twoPow 11 rail else s.supply.out &&& ~~~ BitVec.twoPow 11 rail } }

theorem noteSupply_eq (rail : Fin 11) (bad : Bool) (s : State) :
    noteSupply rail bad s = if inReset s then noted rail bad s else noteIbi (showSupply (noted rail bad s)) := rfl

theorem noteSupply_spec (rail : Fin 11) (bad : Bool) (s : State) :
    let t := noteSupply rail bad s
    t.supply = (noted rail bad s).supply ∧ OnlyAt [RegId.addr .HST_FAULT] s t ∧
    (inReset s = false → fget t .HST_FAULT_supply = if (noted rail bad s).supply.out = 0 then 0 else 1) := by
  intro t
  have ht : t = if inReset s then noted rail bad s else noteIbi (showSupply (noted rail bad s)) := noteSupply_eq ..
  have hshown : (noteIbi (showSupply (noted rail bad s))).supply = (noted rail bad s).supply ∧
      (noteIbi (showSupply (noted rail bad s))).regs = (showSupply (noted rail bad s)).regs := by
    simp only [noteIbi_frame, showSupply, fset, setWord, and_self]
  cases hr : inReset s with
  | true =>
    rw [ht, hr, if_pos rfl]
    exact ⟨rfl, .of_regs rfl, fun h => absurd h.symm Bool.false_ne_true⟩
  | false =>
    rw [ht, hr, if_neg Bool.false_ne_true]
    refine ⟨hshown.1, ?_, fun _ => showSupply_bit _⟩
    refine .then (t := showSupply (noted rail bad s)) (onlyAt_from (onlyAt_fset _ _ (noted rail bad s) _ _ (by decide)) rfl)
      (.of_regs hshown.2)

theorem supplyOutOfRange_idle (h : (fget s .PWR_MON_in_range).testBit rail = false ∨ railHolds s rail uv = true) :
    exec (.supplyOutOfRange ⟨rail, uv⟩) s = .next s := by
  refine congrArg Host.Outcome.next (if_neg ?_)
  rcases h with h | h
  · rw [h]
    exact Bool.false_ne_true
  · rw [h, Bool.not_true, Bool.and_false]
    exact Bool.false_ne_true

theorem inRange_lt (s : State) : fget s .PWR_MON_in_range < 2 ^ 11 := bitsOf_lt ..

theorem twoPow_or_ne_zero (v : BitVec 11) (rail : Fin 11) : v ||| BitVec.twoPow 11 rail ≠ 0 := by
  intro h
  have hbit : (v ||| BitVec.twoPow 11 rail).getLsbD rail = true := by simp [rail.isLt]
  rw [h] at hbit
  simp at hbit

theorem supplyOutOfRange_row (hin : (fget s .PWR_MON_in_range).testBit rail = true) (hbad : railHolds s rail uv = false) :
    leaves (.supplyOutOfRange ⟨rail, uv⟩) s (fun t => tget t.supply.volts rail 0 = uv ∧
      fget t .PWR_MON_in_range = fget s .PWR_MON_in_range - 2 ^ rail.val ∧ counted s t .PWR_COUNT_excursions ∧
      t.supply.out = s.supply.out ||| BitVec.twoPow 11 rail ∧
      (inReset s = false → fget t .HST_FAULT_supply = 1)) := by
  set v := fset .PWR_MON_in_range (fget s .PWR_MON_in_range - 2 ^ rail.val) (fbump .PWR_COUNT_excursions 1 (noteVolts rail uv s)) with hv
  have hgo : ((fget s .PWR_MON_in_range).testBit rail && !railHolds s rail uv) = true := by rw [hin, hbad]; rfl
  have hexec : exec (.supplyOutOfRange ⟨rail, uv⟩) s = .next (noteSupply rail true v) := congrArg Host.Outcome.next (if_pos hgo)
  obtain ⟨hsup, hregs, hbit⟩ := noteSupply_spec rail true v
  refine ⟨_, hexec, ?_, ?_, ?_, ?_, fun hr => ?_⟩
  · rw [hsup]
    exact tget_tset_same ..
  · rw [hregs.fget (by decide), hv, fget_fset_same _ _ _ _ _ (by decide) (by decide)]
    exact Nat.mod_eq_of_lt ((Nat.sub_le ..).trans_lt (inRange_lt s))
  · have hcount : counted s (fbump .PWR_COUNT_excursions 1 (noteVolts rail uv s)) .PWR_COUNT_excursions :=
      counted_before (as := []) (.of_regs rfl) List.not_mem_nil (counted_fbump _ .PWR_COUNT_excursions 0 (by decide) (by decide))
    exact counted_after (counted_after hcount (onlyAt_fset (as := [RegId.addr .PWR_MON]) _ _ _ _ _ (by decide)) (by decide)) hregs (by decide)
  · rw [hsup]
    rfl
  · rw [hbit hr]
    exact if_neg (twoPow_or_ne_zero _ _)

theorem supplyInRange_row (hgood : railHolds s rail uv = true) :
    leaves (.supplyInRange ⟨rail, uv⟩) s (fun t => tget t.supply.volts rail 0 = uv ∧
      (fget t .PWR_MON_in_range).testBit rail = true ∧ t.supply.out = s.supply.out &&& ~~~(BitVec.twoPow 11 rail) ∧
      (inReset s = false → fget t .HST_FAULT_supply = if t.supply.out = 0 then 0 else 1)) := by
  set v := fset .PWR_MON_in_range ((fget s .PWR_MON_in_range).lor (2 ^ rail.val)) (noteVolts rail uv s) with hv
  have hexec : exec (.supplyInRange ⟨rail, uv⟩) s = .next (noteSupply rail false v) := congrArg Host.Outcome.next (if_pos hgood)
  obtain ⟨hsup, hregs, hbit⟩ := noteSupply_spec rail false v
  refine ⟨_, hexec, ?_, ?_, ?_, fun hr => ?_⟩
  · rw [hsup]
    exact tget_tset_same ..
  · have hlt : (fget s .PWR_MON_in_range).lor (2 ^ rail.val) < 2 ^ 11 :=
      Nat.or_lt_two_pow (inRange_lt s) (Nat.pow_lt_pow_right (by decide) rail.isLt)
    have hor : (fget s .PWR_MON_in_range).lor (2 ^ rail.val) = fget s .PWR_MON_in_range ||| 2 ^ rail.val := rfl
    rw [hregs.fget (by decide), hv, fget_fset_same _ _ _ _ _ (by decide) (by decide)]
    refine (congrArg (Nat.testBit · rail) (Nat.mod_eq_of_lt hlt)).trans ?_
    rw [hor, Nat.testBit_or, Nat.testBit_two_pow_self, Bool.or_true]
  · rw [hsup]
    rfl
  · rw [hbit hr, hsup]

theorem sequenceViolation_idle (h : rail.val < 2 ∨ fget s .PWR_SEQ_violation = 1) : exec (.sequenceViolation rail) s = .next s := by
  refine congrArg Host.Outcome.next (if_pos ?_)
  rcases h with h | h
  · rw [decide_eq_true h]
    rfl
  · rw [fbit, h, Bool.or_comm]
    rfl

theorem sequenceViolation_row (hrail : 2 ≤ rail.val) (h : fget s .PWR_SEQ_violation = 0) : leaves (.sequenceViolation rail) s (fun t =>
    fget t .PWR_SEQ_violation = 1 ∧ fget t .PWR_SEQ_rail = rail ∧ t.boot = s.boot) := by
  have hgo : ¬ (decide (rail.val < 2) || fbit s .PWR_SEQ_violation) = true := by
    rw [decide_eq_false (by omega), fbit, h]
    decide
  refine ⟨_, congrArg Host.Outcome.next (if_neg hgo), fget_fset_same _ _ _ _ _ (by decide) (by decide), ?_, rfl⟩
  rw [fget_fset_beside _ .PWR_SEQ_violation .PWR_SEQ_rail _ _ _ rfl (by decide) (by decide) (by decide) (by decide),
    fget_fset_same _ _ _ _ _ (by decide) (by decide)]
  exact Nat.mod_eq_of_lt (rail.isLt.trans (by decide))

/-- VDD's window lies around every code of the last 1 ms. -/
theorem foldl_min_le (l : List Nat) (a : Nat) : l.foldl min a ≤ a ∧ ∀ x ∈ l, l.foldl min a ≤ x := by
  induction l generalizing a with
  | nil => exact ⟨le_refl a, fun x hx => absurd hx List.not_mem_nil⟩
  | cons b l ih =>
    obtain ⟨h1, h2⟩ := ih (min a b)
    refine ⟨h1.trans (min_le_left ..), fun x hx => ?_⟩
    rcases List.mem_cons.mp hx with rfl | hx
    · exact h1.trans (min_le_right ..)
    · exact h2 x hx

theorem le_foldl_max (l : List Nat) (a : Nat) : a ≤ l.foldl max a ∧ ∀ x ∈ l, x ≤ l.foldl max a := by
  induction l generalizing a with
  | nil => exact ⟨le_refl a, fun x hx => absurd hx List.not_mem_nil⟩
  | cons b l ih =>
    obtain ⟨h1, h2⟩ := ih (max a b)
    refine ⟨(le_max_left ..).trans h1, fun x hx => ?_⟩
    rcases List.mem_cons.mp hx with rfl | hx
    · exact (le_max_right ..).trans h1
    · exact h2 x hx

theorem railLimits_vdd (s : State) :
    let limits := railLimits s 0
    limits.1 ≤ vidMv s.age.vid - 40 ∧ vidMv s.age.vid + 40 ≤ limits.2 ∧
      (∀ p ∈ s.supply.past, limits.1 ≤ vidMv p.1 - 40 ∧ vidMv p.1 + 40 ≤ limits.2) ∧
      (s.supply.past = [] → limits = (vidMv s.age.vid - 40, vidMv s.age.vid + 40)) := by
  intro limits
  have hlim : limits = ((s.supply.past.map (fun p => vidMv p.1)).foldl min (vidMv s.age.vid) - 40,
      (s.supply.past.map (fun p => vidMv p.1)).foldl max (vidMv s.age.vid) + 40) := rfl
  obtain ⟨hmin, hmins⟩ := foldl_min_le (s.supply.past.map (fun p => vidMv p.1)) (vidMv s.age.vid)
  obtain ⟨hmax, hmaxs⟩ := le_foldl_max (s.supply.past.map (fun p => vidMv p.1)) (vidMv s.age.vid)
  rw [hlim]
  refine ⟨Nat.sub_le_sub_right hmin _, Nat.add_le_add_right hmax _, fun p hp => ?_, fun h => by rw [h]; rfl⟩
  have hmem := List.mem_map_of_mem (f := fun p : BitVec 4 × Nat => vidMv p.1) hp
  exact ⟨Nat.sub_le_sub_right (hmins _ hmem) _, Nat.add_le_add_right (hmaxs _ hmem) _⟩

end

/-! ### The reference clock (R477) -/

section

variable {s : State}

theorem stayAt_putStay (p : Nat) (x : StayPort) (s : State) : stayAt (putStay p x s) p = x := tget_tset_same ..

theorem stayAt_putStay_other {p k : Nat} (x : StayPort) (s : State) (h : k ≠ p) : stayAt (putStay p x s) k = stayAt s k :=
  tget_tset_other _ _ _ h

theorem stayAt_congr {s t : State} (h : t.stay = s.stay) (p : Nat) : stayAt t p = stayAt s p := by rw [stayAt, h, stayAt]

/-- A link cut: its port is cleared, the other's as it was. -/
theorem cutPort_spec (p cause : Nat) (s : State) : stayAt (cutPort p cause s) p = { (stayAt s p).cleared with cut := true } ∧
    (∀ k, k ≠ p → stayAt (cutPort p cause s) k = stayAt s k) ∧ (cutPort p cause s).ports = s.ports ∧
    OnlyAt (RegId.addr .STY_CUT p :: eventCounters) s (cutPort p cause s) := by
  have hstay : (cutPort p cause s).stay = (putStay p { (stayAt s p).cleared with cut := true } s).stay := by
    simp only [cutPort, raise_frame, fset, setWord, fbump]
  refine ⟨?_, fun k hk => ?_, ?_, ?_⟩
  · rw [stayAt_congr hstay, stayAt_putStay]
  · rw [stayAt_congr hstay, stayAt_putStay_other _ _ hk]
  · simp only [cutPort, raise_frame, fset, setWord, fbump, putStay]
  · unfold cutPort
    refine .then ?_ ((onlyAt_raise ..).mono (List.subset_cons_self _ _))
    refine .then (.then ?_ (onlyAt_fset .STY_CUT_last_cause cause _ p 0 List.mem_cons_self)) (.of_regs rfl)
    exact onlyAt_from (onlyAt_fbump .STY_CUT_cuts 1 (putStay p { (stayAt s p).cleared with cut := true } s) p 0 List.mem_cons_self) rfl

/-- A stay link whose lock is lost. -/
theorem stayLockLost_spec (p : Nat) (s : State) : (stayAt (stayLockLost p s) p).link = false ∧
    (∀ k, k ≠ p → stayAt (stayLockLost p s) k = stayAt s k) ∧ (stayLockLost p s).ports = s.ports ∧
    OnlyAt (RegId.addr .STY_CUT p :: eventCounters) s (stayLockLost p s) := by
  unfold stayLockLost
  dsimp only
  split
  · next h =>
    set u := raise 209 [(1, p)] (putStay p { stayAt s p with link := false } s) with hu
    obtain ⟨hmine, hother, hports, hregs⟩ := cutPort_spec p 5 u
    have hstay : u.stay = (putStay p { stayAt s p with link := false } s).stay := by rw [hu]; simp only [raise_frame]
    refine ⟨?_, fun k hk => ?_, ?_, .then ?_ hregs⟩
    · rw [hmine, stayAt_congr hstay, stayAt_putStay]
      rfl
    · rw [hother k hk, stayAt_congr hstay, stayAt_putStay_other _ _ hk]
    · rw [hports, hu]
      simp only [raise_frame, putStay]
    · exact onlyAt_from ((onlyAt_raise _ _ (putStay p { stayAt s p with link := false } s)).mono (List.subset_cons_self _ _)) rfl
  · next h => exact ⟨by simpa using h, fun k _ => rfl, rfl, onlyAt_refl ..⟩

theorem dropLink_other {p k : Nat} (s : State) (h : k ≠ p) : portAt (dropLink p s) k = portAt s k := by
  unfold dropLink
  dsimp only
  split
  · split <;> simp only [portAt, fbump_frame, raise_frame, putPort, tget_tset_other _ _ _ h]
  · rfl

/-- The registers that the loss of every link touches. -/
def linkRegs : List Nat :=
  [RegId.addr .TMC_STATUS 0, RegId.addr .TMC_STATUS 1, RegId.addr .TMC_TX_DROP 0, RegId.addr .TMC_TX_DROP 1, RegId.addr .STY_CUT 0,
    RegId.addr .STY_CUT 1] ++ eventCounters

theorem linkRegs_counters : eventCounters ⊆ linkRegs := List.subset_append_right ..

theorem linkDown_spec (p : Fin 2) (s : State) : (portAt (linkDown p s) p).link = false ∧
    (∀ k, k ≠ p.val → portAt (linkDown p s) k = portAt s k) ∧ OnlyAt linkRegs s (linkDown p s) := by
  have hstatus : RegId.addr .TMC_STATUS p ∈ linkRegs ∧ RegId.addr .TMC_TX_DROP p ∈ linkRegs := by
    fin_cases p <;> decide
  obtain ⟨hdown, hregs⟩ := dropLink_spec p (fset .TMC_STATUS_block_lock 0 (fset .TMC_STATUS_fec_lock 0 s p) p)
  refine ⟨hdown, fun k hk => dropLink_other _ hk, .then ?_ (hregs.mono (List.cons_subset.mpr ⟨hstatus.2, linkRegs_counters⟩))⟩
  exact .then (onlyAt_fset .TMC_STATUS_fec_lock 0 s p 0 hstatus.1) (onlyAt_fset .TMC_STATUS_block_lock 0 _ p 0 hstatus.1)

theorem stayLockLost_regs (p : Fin 2) (s : State) : OnlyAt linkRegs s (stayLockLost p s) := by
  have hcut : RegId.addr .STY_CUT p ∈ linkRegs := by fin_cases p <;> decide
  exact (stayLockLost_spec p s).2.2.2.mono (List.cons_subset.mpr ⟨hcut, linkRegs_counters⟩)

/-- Every link is lost with the reference clock. -/
theorem linksLost (u : State) :
    let t := stayLockLost 1 (stayLockLost 0 (ptpFollow (linkDown 1 (linkDown 0 u))))
    OnlyAt linkRegs u t ∧ (portAt t 0).link = false ∧ (portAt t 1).link = false ∧ (stayAt t 0).link = false ∧ (stayAt t 1).link = false := by
  intro t
  obtain ⟨h0, -, hr0⟩ := linkDown_spec 0 u
  obtain ⟨h1, hk1, hr1⟩ := linkDown_spec 1 (linkDown 0 u)
  obtain ⟨hports, hrf⟩ := ptpFollow_keeps (linkDown 1 (linkDown 0 u))
  obtain ⟨hs0, -, hp0, -⟩ := stayLockLost_spec 0 (ptpFollow (linkDown 1 (linkDown 0 u)))
  obtain ⟨hs1, hk, hp1, -⟩ := stayLockLost_spec 1 (stayLockLost 0 (ptpFollow (linkDown 1 (linkDown 0 u))))
  have hsame : t.ports = (linkDown 1 (linkDown 0 u)).ports := hp1.trans (hp0.trans hports)
  have hport : ∀ k, portAt t k = portAt (linkDown 1 (linkDown 0 u)) k := fun k => by rw [portAt, hsame, portAt]
  refine ⟨?_, ?_, ?_, ?_, hs1⟩
  · exact .then (.then (.then (.then hr0 hr1) (hrf.mono linkRegs_counters)) (stayLockLost_regs 0 _)) (stayLockLost_regs 1 _)
  · rw [hport]
    exact (congrArg Port.link (hk1 0 (by decide))).trans h0
  · rw [hport]
    exact h1
  · rw [hk 0 (by decide)]
    exact hs0

theorem refclkLoss_row (hok : fget s .PWR_MON_refclk_ok = 1) : leaves .refclkLoss s (fun t => fget t .PWR_MON_refclk_ok = 0 ∧
    counted s t .PWR_COUNT_refclk_losses ∧ (portAt t 0).link = false ∧ (portAt t 1).link = false ∧
    (stayAt t 0).link = false ∧ (stayAt t 1).link = false) := by
  have hexec : exec .refclkLoss s = _ := congrArg Host.Outcome.next (if_pos (by rw [fbit, hok]; rfl))
  obtain ⟨hregs, hlinks⟩ := linksLost (fset .PWR_MON_refclk_ok 0 (fbump .PWR_COUNT_refclk_losses 1 s))
  refine ⟨_, hexec, ?_, ?_, hlinks⟩
  · refine (hregs.fget (by decide)).trans ?_
    exact fget_fset_same _ _ _ _ _ (by decide) (by decide)
  · have hcount := counted_fbump s .PWR_COUNT_refclk_losses 0 (by decide) (by decide)
    exact counted_after (counted_after hcount (onlyAt_fset (as := [RegId.addr .PWR_MON]) .PWR_MON_refclk_ok 0 _ 0 0 (by decide)) (by decide))
      hregs (by decide)

end

/-- Settles O44: a reset is one record of what stays, a boot stage one step, and a monitor's report one bit. -/
theorem bootStagesFollowThePower : Obligations.BootStagesFollowThePower := by
  unfold Obligations.BootStagesFollowThePower
  intro sel s
  refine ⟨powerOn_row s, resetAssert_row s, sysclkLoss_row s, fun h => congrArg Host.Outcome.next (if_neg ?_),
    fun h => congrArg Host.Outcome.next (if_neg ?_), resetRelease_row sel, sysclkReturn_row sel,
    fun h => ⟨supplyReady_idle h, supplyTimeout_idle h⟩, fun hr hst => ⟨supplyTimeout_row hr hst, supplyReady_row hr hst⟩,
    fun h => ⟨congrArg Host.Outcome.next (if_neg h), congrArg Host.Outcome.next (if_neg h)⟩,
    fun hst => ⟨firmwareReady_row hst, ?_⟩, fun h => congrArg Host.Outcome.next (if_neg ?_), attestDone_row, fun rail uv =>
      ⟨supplyOutOfRange_idle, supplyOutOfRange_row, fun h => congrArg Host.Outcome.next (if_neg ?_), supplyInRange_row,
        sequenceViolation_idle, sequenceViolation_row⟩, fun h => congrArg Host.Outcome.next (if_neg ?_), refclkLoss_row, railLimits_vdd s,
    ⟨_, rfl, fget_fset_same _ _ _ _ _ (by decide) (by decide), rfl⟩⟩
  · rw [h]
    exact Bool.false_ne_true
  · rw [h]
    exact Bool.false_ne_true
  · refine ⟨_, congrArg Host.Outcome.next (if_pos hst), ?_⟩
    dsimp only
    rw [haltBoot_boot]
    exact ⟨rfl, rfl, rfl⟩
  · rw [h]
    exact Bool.false_ne_true
  · rw [h]
    exact Bool.false_ne_true
  · rw [fbit, h]
    decide

end Sys2Proof.Proofs.BootStages
end

section
/-! PROOF. The mast island's resets and the command journal (R20, R342, R399, R402, R403). -/

namespace Sys2Proof.Proofs.MastResets

open Sys2Proof Sys2Proof.Machine Sys2Proof.Spec Sys2Proof.Proofs.RegisterFields Sys2Proof.Proofs.IslandCommands
  Sys2Proof.Proofs.Loads Sys2Proof.Proofs.HostPort

/-! ### What a reset of the mast island does beside it -/

/-- The registers of the mast island's own counters. -/
def mastCounters : List Nat := [RegId.addr .MST_RESTART, RegId.addr .MST_MEM_ECC]

/-- The second state has the mast island, its commands, its attestation and its planner as the first, with its counters. -/
structure Aside (s t : State) : Prop where
  mast : t.mast = s.mast
  cmds : t.host.cmds = s.host.cmds
  cpls : t.host.cpls = s.host.cpls
  resp : t.host.resp = s.host.resp
  busy : t.boot.busy = s.boot.busy
  age : t.age = s.age
  word : ∀ a ∈ mastCounters, regWord t a = regWord s a

theorem Aside.refl (s : State) : Aside s s := ⟨rfl, rfl, rfl, rfl, rfl, rfl, fun _ _ => rfl⟩

theorem Aside.trans {s t u : State} (h : Aside s t) (g : Aside t u) : Aside s u :=
  ⟨g.mast.trans h.mast, g.cmds.trans h.cmds, g.cpls.trans h.cpls, g.resp.trans h.resp, g.busy.trans h.busy, g.age.trans h.age,
    fun a ha => (g.word a ha).trans (h.word a ha)⟩

theorem Aside.ite {r s t : State} {c : Prop} [Decidable c] (h : Aside r s) (g : Aside r t) : Aside r (if c then s else t) := by
  split
  · exact h
  · exact g

theorem Aside.foldl {α : Type} {f : State → α → State} (hf : ∀ s x, Aside s (f s x)) (l : List α) (s : State) :
    Aside s (l.foldl f s) := List.foldlRecOn (motive := fun t => Aside s t) _ _ (.refl s) fun t ht x _ => ht.trans (hf t x)

/-- A counter of the island. -/
theorem Aside.counted {r s t : State} {f : Fld} (h : Aside s t) (hf : RegId.addr f.reg ∈ mastCounters) (hc : counted r s f) :
    counted r t f := by
  rw [Spec.counted, fget, h.word _ hf]
  exact hc

/-- An operation on registers and events alone. -/
theorem Aside.of_events {s t : State} {as : List Nat} (ho : OnlyAt as s t) (hn : ∀ a ∈ mastCounters, a ∉ as) (hm : t.mast = s.mast)
    (hh : t.host = s.host) (hb : t.boot = s.boot) (ha : t.age = s.age) : Aside s t :=
  ⟨hm, by rw [hh], by rw [hh], by rw [hh], by rw [hb], ha, fun a h => ho.same a (hn a h)⟩

theorem aside_raise (src : Nat) (l : List (Nat × Nat)) (s : State) : Aside s (raise src l s) :=
  .of_events (onlyAt_raise ..) (by decide) (by simp only [raise_frame]) (by simp only [raise_frame]) (by simp only [raise_frame])
    (by simp only [raise_frame])

theorem aside_raiseCounting (src sub : Nat) (l : List (Nat × Nat)) (s : State) : Aside s (raiseCounting src sub l s) :=
  .of_events (onlyAt_raiseCounting ..) (by decide) (by simp only [raiseCounting_frame]) (by simp only [raiseCounting_frame])
    (by simp only [raiseCounting_frame]) (by simp only [raiseCounting_frame])

theorem addr_base_le (r : RegId) (i j : Nat) : r.place.base ≤ r.addr i j := by
  unfold RegId.addr
  omega

/-- A counter of an island above the mast island's registers. -/
theorem aside_fbump (f : Fld) (n : Nat) (s : State) (i j : Nat) (h : 0x200 ≤ f.reg.place.base) : Aside s (fbump f n s i j) := by
  refine .of_events (onlyAt_fbump f n s i j (List.mem_singleton_self _)) (fun a ha hc => ?_) rfl rfl rfl rfl
  have hle := h.trans (addr_base_le f.reg i j)
  rw [← List.mem_singleton.1 hc] at hle
  exact absurd hle ((by decide : ∀ a ∈ mastCounters, ¬ 0x200 ≤ a) a ha)

theorem aside_noteIbi (s : State) : Aside s (noteIbi s) := ⟨rfl, rfl, rfl, rfl, rfl, rfl, fun _ _ => rfl⟩

/-- One that leaves all but the queues and the lanes. -/
theorem Aside.of_queues {s t : State} (hr : t.regs = s.regs) (hm : t.mast = s.mast)
    (hh : t.host = s.host) (hb : t.boot = s.boot) (ha : t.age = s.age) : Aside s t :=
  .of_events (.of_regs (as := []) hr) (fun _ _ => List.not_mem_nil) hm hh hb ha

theorem aside_putVc (q v : Nat) (x : Vc) (s : State) : Aside s (putVc q v x s) := .of_queues rfl rfl rfl rfl rfl

theorem aside_startPacket (q v port : Nat) (b : Bytes) (marks : List Nat) (s : State) :
    Aside s (startPacket q v port b marks s).1 := by
  unfold startPacket
  dsimp only
  split
  · exact (aside_fbump _ _ _ _ _ (by decide)).trans (aside_raiseCounting ..)
  · exact aside_putVc ..

theorem aside_pushResult (q port status : Nat) (s : State) : Aside s (pushResult q port status s) := by
  unfold pushResult
  split
  · exact .refl s
  · dsimp only
    split
    · exact .refl s
    · exact .of_queues rfl rfl rfl rfl rfl

theorem aside_grantWaiting (n q v : Nat) (s : State) : Aside s (grantWaiting n q v s) := by
  induction n generalizing s with
  | zero => exact .refl s
  | succ n ih =>
    unfold grantWaiting
    refine .ite (.refl s) ?_
    split
    · exact .refl s
    · exact (((aside_putVc ..).trans (aside_startPacket ..)).trans (aside_pushResult ..)).trans (ih _)

theorem aside_truncatePacket (q v : Nat) (s : State) : Aside s (truncatePacket q v s) := by
  unfold truncatePacket
  dsimp only
  split
  · exact .refl s
  · exact .ite (.refl s) ((((aside_putVc ..).trans (aside_fbump _ _ _ _ _ (by decide))).trans (aside_raise ..)).trans
      (aside_grantWaiting ..))

theorem aside_abandonPush (q port : Nat) (s : State) : Aside s (abandonPush q port s) := by
  unfold abandonPush
  split
  · exact .refl s
  · exact .ite ((aside_putVc ..).trans (aside_truncatePacket ..)) (aside_putVc ..)

theorem aside_cutMastPushes (s : State) : Aside s (cutMastPushes s) := by
  unfold cutMastPushes
  exact .foldl (fun t (q : Nat × Queue) => .foldl (fun u k => aside_abandonPush q.1 k u) _ t) _ s

theorem aside_failed (code spar : Nat) (s : State) : Aside s (failed code spar s) :=
  ((Aside.of_queues (s := s) (t := { s with rig := failedRig code spar s }) rfl rfl rfl rfl rfl).trans
    (aside_fbump .RIG_COUNT_failures 1 _ 0 0 (by decide))).trans (aside_raise ..)

theorem aside_bootLoadFailed (code src : Nat) (s : State) : Aside s (bootLoadFailed code src s) := by
  unfold bootLoadFailed haltBoot
  refine .ite (.trans ?_ (aside_raise ..)) (.ite (.trans ?_ (aside_raise ..)) (.refl s))
  · exact .trans (t := { s with boot := { s.boot with stage := .halted, halt := 3, bootFault := true } })
      ⟨rfl, rfl, rfl, rfl, rfl, rfl, fun _ _ => rfl⟩ (aside_noteIbi _)
  · exact .trans (t := { s with boot := { s.boot with fallback := true, bootFault := true }, rig := { s.rig with st := .waitHost } })
      ⟨rfl, rfl, rfl, rfl, rfl, rfl, fun _ _ => rfl⟩ (aside_noteIbi _)

theorem aside_rigAbort (s : State) : Aside s (rigAbort s) := by
  unfold rigAbort
  refine .ite ?_ (.refl s)
  rw [rigFail_eq]
  exact .ite ((aside_failed ..).trans (aside_bootLoadFailed ..)) (aside_failed ..)


/-! ### A reset of the mast island (R20, R342, R356, R387, R402) -/

/-- The resets within the last 10,000 ticks, with one now. -/
def recentResets (s : State) : List Nat := s.mast.resets.filter (fun t => decide (tickNow s < t + 10000)) ++ [tickNow s]

/-- The mast island down, before the reset is counted. -/
def mastDown (s : State) : State :=
  { s with
    mast := { s.mast with down := true, resets := recentResets s }
    host := { s.host with resp := none }
    boot := { s.boot with busy := false, ready := s.boot.ready && !s.boot.busy }
    age := { s.age with run := none, steps := none } }

/-- The reset shown in HST_FAULT, its pushes and its load cut. -/
def mastReset (s : State) : State :=
  noteIbi (fset .HST_FAULT_mast_watchdog 1 (cutMastPushes (rigAbort (fbump .MST_RESTART_restarts 1 (mastDown s)))))

theorem resetMast_eq (by_ : Nat) (s : State) :
    resetMast by_ s = if 3 ≤ (recentResets s).length then fatal 2 by_ (mastReset s) else mastReset s := rfl

/-- What a reset leaves of a state, other registers apart. -/
structure ResetFrom (s t : State) : Prop where
  mast : t.mast = { s.mast with down := true, resets := recentResets s }
  cmds : t.host.cmds = s.host.cmds
  resp : t.host.resp = none
  busy : t.boot.busy = false
  run : t.age.run = none
  restarts : counted s t .MST_RESTART_restarts
  errors : regWord t (RegId.addr .MST_MEM_ECC) = regWord s (RegId.addr .MST_MEM_ECC)
  fault : fget t .HST_FAULT_mast_watchdog = 1

theorem fget_noteIbi (f : Fld) (u : State) : fget (noteIbi u) f = fget u f := fget_congr (noteIbi_frame u).2.2.1 f 0 0

theorem fget_faultShown (u : State) : fget (noteIbi (fset .HST_FAULT_mast_watchdog 1 u)) .HST_FAULT_mast_watchdog = 1 := by
  rw [fget_noteIbi, fget_fset_same u .HST_FAULT_mast_watchdog 1 0 0 (by decide) (by decide)]
  rfl

theorem resetFrom_mastReset (s : State) : ResetFrom s (mastReset s) := by
  have hcut : Aside (fbump .MST_RESTART_restarts 1 (mastDown s))
      (cutMastPushes (rigAbort (fbump .MST_RESTART_restarts 1 (mastDown s)))) := (aside_rigAbort _).trans (aside_cutMastPushes _)
  have hset : ∀ u, Aside u (noteIbi (fset .HST_FAULT_mast_watchdog 1 u)) := fun u =>
    (Aside.of_events (onlyAt_fset .HST_FAULT_mast_watchdog 1 u 0 0 (List.mem_singleton_self _)) (by decide) rfl rfl rfl rfl).trans
      (aside_noteIbi _)
  obtain ⟨hmast, hcmds, -, hresp, hbusy, hage, hword⟩ := hcut.trans (hset _)
  refine ⟨hmast, hcmds, hresp, hbusy, by rw [mastReset, hage]; rfl, ?_, ?_, fget_faultShown _⟩
  · refine (hcut.trans (hset _)).counted List.mem_cons_self ?_
    exact counted_before (as := []) (t := mastDown s) (.of_regs rfl) List.not_mem_nil
      (counted_fbump (mastDown s) .MST_RESTART_restarts 0 (by decide) (by decide))
  · exact (hword _ (by decide)).trans ((onlyAt_fbump .MST_RESTART_restarts 1 (mastDown s) 0 0 (List.mem_singleton_self _)).same _
      (by decide))

/-- What a fatal error does to registers: its record, its count and HST_FAULT. -/
theorem aside_fatal (cause by_ : Nat) (s : State) : Aside s (fatal cause by_ s) := by
  have hset : ∀ (f : Fld) (v : Nat) (u : State), (∀ a ∈ mastCounters, a ∉ [RegId.addr f.reg]) → Aside u (fset f v u) :=
    fun f v u h => .of_events (onlyAt_fset f v u 0 0 (List.mem_singleton_self _)) h rfl rfl rfl rfl
  unfold fatal
  refine ((((aside_raise ..).trans (hset .ERR_FATAL_cause _ _ (by decide))).trans
    (aside_fbump .ERR_FATAL_fatal 1 _ 0 0 (by decide))).trans (hset .HST_FAULT_error 1 _ (by decide))).trans (aside_noteIbi _)

/-- The cause of a fatal error, and what stays of HST_FAULT. -/
theorem fget_fatal (cause by_ : Nat) (s : State) :
    fget (fatal cause by_ s) .ERR_FATAL_cause = cause % 2 ^ 8 ∧
    fget (fatal cause by_ s) .HST_FAULT_mast_watchdog = fget s .HST_FAULT_mast_watchdog := by
  have herror : ∀ u : State, fget (fset .HST_FAULT_error 1 u) .HST_FAULT_mast_watchdog = fget u .HST_FAULT_mast_watchdog :=
    fun u => fget_fset_beside u .HST_FAULT_error .HST_FAULT_mast_watchdog 1 0 0 rfl (by decide) (by decide) (by decide) (by decide)
  have hcount : ∀ u : State, fget (fbump .ERR_FATAL_fatal 1 u) .ERR_FATAL_cause = fget u .ERR_FATAL_cause := fun u =>
    fget_fbump_beside u .ERR_FATAL_fatal .ERR_FATAL_cause 1 0 0 rfl (by decide) (by decide) (by decide) (by decide)
  unfold fatal
  constructor
  · rw [fget_noteIbi, fget_fset_other _ .HST_FAULT_error _ _ _ _ _ _ (by decide), hcount,
      fget_fset_same _ .ERR_FATAL_cause _ _ _ (by decide) (by decide)]
    rfl
  · rw [fget_noteIbi, herror, fget_fbump_other _ .ERR_FATAL_fatal _ _ _ _ _ _ (by decide),
      fget_fset_other _ .ERR_FATAL_cause _ _ _ _ _ _ (by decide), fget_raise _ _ _ _ _ _ (by decide) (by decide)]


theorem resetFrom_resetMast (by_ : Nat) (s : State) : ResetFrom s (resetMast by_ s) ∧
    (3 ≤ (recentResets s).length → fget (resetMast by_ s) .ERR_FATAL_cause = 2) := by
  obtain ⟨hmast, hcmds, hresp, hbusy, hrun, hrestarts, herrors, hfault⟩ := resetFrom_mastReset s
  obtain ⟨hcause, hshown⟩ := fget_fatal 2 by_ (mastReset s)
  have haside := aside_fatal 2 by_ (mastReset s)
  rw [resetMast_eq]
  split
  · exact ⟨⟨haside.mast.trans hmast, haside.cmds.trans hcmds, haside.resp.trans hresp, haside.busy.trans hbusy,
      by rw [haside.age, hrun], haside.counted List.mem_cons_self hrestarts, (haside.word _ (by decide)).trans herrors,
      hshown.trans hfault⟩, fun _ => hcause⟩
  · next h => exact ⟨⟨hmast, hcmds, hresp, hbusy, hrun, hrestarts, herrors, hfault⟩, fun h' => absurd h' h⟩

/-- A reset after events that leave the island's resets, its commands and the count of its restarts. -/
theorem reset_after {by_ : Nat} {s u : State} (hresets : u.mast.resets = s.mast.resets) (htime : u.time = s.time)
    (hcmds : u.host.cmds = s.host.cmds) (hword : regWord u (RegId.addr .MST_RESTART) = regWord s (RegId.addr .MST_RESTART)) :
    let t := resetMast by_ u
    (t.mast.down = true ∧ t.mast.resets = recentResets s ∧ t.host.resp = none ∧ t.host.cmds = s.host.cmds ∧
      t.boot.busy = false ∧ t.age.run = none ∧ counted s t .MST_RESTART_restarts ∧ fget t .HST_FAULT_mast_watchdog = 1 ∧
      (3 ≤ (recentResets s).length → fget t .ERR_FATAL_cause = 2)) ∧
    t.mast.badWords = u.mast.badWords ∧ regWord t (RegId.addr .MST_MEM_ECC) = regWord u (RegId.addr .MST_MEM_ECC) := by
  intro t
  have hrecent : recentResets u = recentResets s := by
    unfold recentResets tickNow
    rw [hresets, htime]
  obtain ⟨hfrom, hfatal⟩ := resetFrom_resetMast by_ u
  obtain ⟨hmast, hc, hresp, hbusy, hrun, hrestarts, herrors, hfault⟩ := hfrom
  rw [hrecent] at hmast hfatal
  refine ⟨⟨by rw [hmast], by rw [hmast], hresp, hc.trans hcmds, hbusy, hrun, ?_, hfault, hfatal⟩, by rw [hmast], herrors⟩
  have hfield : fget u .MST_RESTART_restarts = fget s .MST_RESTART_restarts := congrArg (bitsOf · 31 16) hword
  rw [counted, ← hfield]
  exact hrestarts

theorem mastWatchdog_row {s : State} (hfw : s.mast.fw = true) (hup : s.mast.down = false) :
    exec .mastWatchdog s = .next (resetMast 1 (raise 1 [(4, resetCount s)] s)) :=
  congrArg Host.Outcome.next (if_pos (by rw [hfw, hup]; rfl))

/-- The state with the words of an uncorrectable mast memory word noted. -/
def wordsTold (word : MastWord) (s : State) : State :=
  { s with mast := { s.mast with badWords := s.mast.badWords ++ word.journal.map (fun w => w.toNat) } }

theorem mastMemUe_down {word : MastWord} {s : State} (hfw : s.mast.fw = true) (hdown : s.mast.down = true) :
    exec (.mastMemUe word) s = .next (wordsTold word s) :=
  congrArg Host.Outcome.next ((if_pos hfw).trans (if_pos hdown))

theorem mastMemUe_up {word : MastWord} {s : State} (hfw : s.mast.fw = true) (hup : s.mast.down = false) :
    exec (.mastMemUe word) s =
      .next (resetMast 4 (raise 4 [(4, word.offset.toNat)] (fbump .MST_MEM_ECC_uncorrected 1 (wordsTold word s)))) :=
  congrArg Host.Outcome.next ((if_pos hfw).trans (if_neg (fun h => absurd (h.symm.trans hup) (by decide))))

/-! ### The restart (R342, R403) -/

/-- What a restart's first steps leave: the commands, the completions and the channels. -/
structure Resumes (s t : State) : Prop where
  mast : t.mast = s.mast
  cmds : t.host.cmds = s.host.cmds
  cpls : t.host.cpls = s.host.cpls
  chans : t.chans = s.chans
  word : ∀ a ∈ mastCounters, regWord t a = regWord s a

theorem resumes_raise (src : Nat) (l : List (Nat × Nat)) (s : State) : Resumes s (raise src l s) := by
  obtain ⟨hmast, hcmds, hcpls, -, -, -, hword⟩ := aside_raise src l s
  exact ⟨hmast, hcmds, hcpls, by simp only [raise_frame], hword⟩

theorem Resumes.trans {s t u : State} (h : Resumes s t) (g : Resumes t u) : Resumes s u :=
  ⟨g.mast.trans h.mast, g.cmds.trans h.cmds, g.cpls.trans h.cpls, g.chans.trans h.chans,
    fun a ha => (g.word a ha).trans (h.word a ha)⟩

theorem resumes_setPtp (st : Nat) (s : State) : Resumes s (setPtp st s) := by
  unfold setPtp
  split
  · exact ⟨rfl, rfl, rfl, rfl, fun _ _ => rfl⟩
  · exact .trans (t := { s with time := { s.time with ptp := st } }) ⟨rfl, rfl, rfl, rfl, fun _ _ => rfl⟩ (resumes_raise ..)

theorem resumes_ptpFollow (s : State) : Resumes s (ptpFollow s) := by
  unfold ptpFollow resetPtp
  split
  · exact .trans (t := { s with time := { s.time with best := none, sync := none, t3 := none, foreign := [], dreqLog := 0 } })
      ⟨rfl, rfl, rfl, rfl, fun _ _ => rfl⟩ (resumes_setPtp ..)
  · exact ⟨rfl, rfl, rfl, rfl, fun _ _ => rfl⟩

theorem resumes_lateLoad (s : State) : Resumes s (lateLoad s) ∧ (lateLoad s).rig.late = none := by
  unfold lateLoad
  split
  · next h => exact ⟨⟨rfl, rfl, rfl, rfl, fun _ _ => rfl⟩, h⟩
  · refine ⟨.trans (t := { s with rig := { s.rig with late := none } }) ⟨rfl, rfl, rfl, rfl, fun _ _ => rfl⟩ (resumes_raise ..), ?_⟩
    simp only [raise_frame]

theorem dropJournal_none {bad : List Nat} {s : State} (h : ∀ c ∈ s.host.cmds, c.seq ∉ bad) : dropJournal bad s = s := by
  have hfilter : s.host.cmds.filter (fun c => c.taken && bad.contains c.seq) = [] := by
    rw [List.filter_eq_nil_iff]
    intro c hc hb
    rw [Bool.and_eq_true, List.contains_iff_mem] at hb
    exact h c hc hb.2
  rw [dropJournal, hfilter, List.foldl_nil]

/-- A command that is executed again while no channel stands: only the lists of what the firmware waits for change. -/
theorem unissue_noChannels {seq : Nat} {s : State} (h : s.chans = []) :
    ∃ m, unissue seq s = { s with mast := m } ∧ m.down = s.mast.down ∧ m.badWords = s.mast.badWords := by
  refine ⟨(unissue seq s).mast, ?_, ?_, ?_⟩
  · simp only [unissue, h, List.foldl_nil]
  · simp only [unissue, h, List.foldl_nil]
  · simp only [unissue, h, List.foldl_nil]

/-- The one journal command with an uncorrectable word completes with DROPPED. -/
theorem dropJournal_one {bad : List Nat} {c : Cmd} {s : State} (hcmds : s.host.cmds = [c]) (htaken : c.taken = true)
    (hbad : c.seq ∈ bad) (hchans : s.chans = []) :
    let t := dropJournal bad s
    t.host.cmds = [{ c with done := some (cplRecord c.desc c.seq 8 (noneData (cmdOp c.desc))) }] ∧ t.host.cpls = s.host.cpls ∧
    t.mast.down = s.mast.down ∧ t.mast.badWords = s.mast.badWords := by
  intro t
  obtain ⟨m, hm, hdown, hwords⟩ := unissue_noChannels (seq := c.seq) hchans
  have hfilter : s.host.cmds.filter (fun c => c.taken && bad.contains c.seq) = [c] := by
    rw [hcmds]
    simp [htaken, hbad]
  have hdrop : ∃ m', t = { s with
      mast := m'
      host := { s.host with cmds := [{ c with done := some (cplRecord c.desc c.seq 8 (noneData (cmdOp c.desc))) }] } } ∧
      m'.down = s.mast.down ∧ m'.badWords = s.mast.badWords := by
    simp only [t, dropJournal, hfilter, List.foldl_cons, List.foldl_nil]
    split
    · exact ⟨s.mast, by rw [hcmds]; simp, rfl, rfl⟩
    · exact ⟨m, by rw [hm]; simp [hcmds], hdown, hwords⟩
  obtain ⟨m', ht, hd, hb⟩ := hdrop
  rw [ht]
  exact ⟨rfl, rfl, hd, hb⟩

/-- The mast island up again. -/
def mastUp (s : State) : State := { s with mast := { s.mast with down := false, badWords := [] } }

/-- The state in which the journal is worked. -/
def restarted (s : State) : State := lateLoad (dropJournal s.mast.badWords (ptpFollow (mastUp s)))

/-- The completed commands posted, reserved ones behind them refused. -/
def journalPosted (s : State) : State := refuseReserved (postReady s).host.cmds.length (postReady s)

/-- The state with a journal command found, its resumption counted. -/
def resumed (c : Cmd) (past : Bool) (s : State) : State :=
  raise 6 [(4, c.seq), (1, if past then 0 else 1)] (fbump .MST_RESTART_resumed 1 s)

/-- A command executed again. -/
def unissued (c : Cmd) (s : State) : State :=
  let cmds := (unissue c.seq s).host.cmds.map (fun k => if k.seq = c.seq then { k with taken := false } else k)
  refuseReserved cmds.length { unissue c.seq s with host := { (unissue c.seq s).host with cmds := cmds } }

/-- The journal's first taken command, its words sound. -/
def journalFirst (lost : List Nat) (s : State) : Option Cmd := s.host.cmds.find? (fun c => c.taken && !lost.contains c.seq)

/-- The journal worked: the commands complete, or their first is executed again. -/
def journalWorked (lost : List Nat) (s : State) : State :=
  match journalFirst lost s with
  | none => journalPosted s
  | some c =>
    if c.done.isSome || switched s c.seq then journalPosted (resumed c (c.done.isSome || switched s c.seq) s)
    else unissued c (resumed c (c.done.isSome || switched s c.seq) s)

theorem exec_mastRestart {s : State} (h : s.mast.down = true) :
    exec .mastRestart s = .next (journalWorked s.mast.badWords (restarted s)) := congrArg Host.Outcome.next (if_pos h)

section

variable {lost : List Nat} {c : Cmd} {s : State}

theorem journalWorked_none (h : journalFirst lost s = none) : journalWorked lost s = journalPosted s := by
  rw [journalWorked, h]

theorem journalWorked_past (h : journalFirst lost s = some c) (hdone : c.done.isSome = true) :
    journalWorked lost s = journalPosted (resumed c true s) := by
  simp only [journalWorked, h, hdone, Bool.true_or, if_true]

theorem journalWorked_again (h : journalFirst lost s = some c) (hdone : c.done = none) (hchans : s.chans = []) :
    journalWorked lost s = unissued c (resumed c false s) := by
  have hswitched : switched s c.seq = false := by rw [switched, hchans, List.any_nil]
  simp only [journalWorked, h, hdone, hswitched, Option.isSome_none, Bool.or_self, Bool.false_eq_true, if_false]

/-- Completed commands at the front are posted in their order. -/
theorem journalPosted_done {l : List Cmd} {records : List Bytes} (hup : s.mast.down = false) (hcmds : s.host.cmds = l)
    (hfront : doneFront l = (records, [])) :
    (journalPosted s).host.cmds = [] ∧ (journalPosted s).host.cpls = s.host.cpls ++ records ∧ (journalPosted s).mast = s.mast ∧
    (journalPosted s).rig = s.rig := by
  have hpost : postReady s = noteIbi { s with host := { s.host with cmds := [], cpls := s.host.cpls ++ records } } := by
    rw [postReady, hcmds, hfront, if_neg (by rw [hup]; decide)]
  have hnone : ∀ k ∈ (postReady s).host.cmds, cmdReserved (cmdOp k.desc) = false := by
    rw [hpost]
    exact fun k hk => absurd hk List.not_mem_nil
  rw [journalPosted, refuseReserved_of_none _ hnone, hpost]
  exact ⟨rfl, rfl, rfl, rfl⟩

theorem resumes_resumed (c : Cmd) (past : Bool) (s : State) : (resumed c past s).mast = s.mast ∧
    (resumed c past s).host = s.host ∧ (resumed c past s).chans = s.chans ∧ counted s (resumed c past s) .MST_RESTART_resumed := by
  refine ⟨?_, ?_, ?_, ?_⟩
  · simp only [resumed, raise_frame, fbump_frame]
  · simp only [resumed, raise_frame, fbump_frame]
  · simp only [resumed, raise_frame, fbump_frame]
  · exact counted_after (counted_fbump s .MST_RESTART_resumed 0 (by decide) (by decide)) (onlyAt_raise ..) (by decide)

theorem unissued_one (hcmds : s.host.cmds = [c]) (hchans : s.chans = []) (hres : cmdReserved (cmdOp c.desc) = false) :
    (unissued c s).mast.down = s.mast.down ∧ (unissued c s).host.cmds = [{ c with taken := false }] ∧
    (unissued c s).host.cpls = s.host.cpls ∧ (unissued c s).regs = s.regs := by
  obtain ⟨m, hm, hdown, -⟩ := unissue_noChannels (seq := c.seq) hchans
  have hone : s.host.cmds.map (fun k => if k.seq = c.seq then { k with taken := false } else k) = [{ c with taken := false }] := by
    rw [hcmds, List.map_singleton, if_pos rfl]
  rw [unissued, hm]
  dsimp only
  rw [hone, refuseReserved_of_none]
  · exact ⟨hdown, rfl, rfl, rfl⟩
  · intro k hk
    rw [List.mem_singleton.1 hk]
    exact hres

end


section

variable {c : Cmd} {s : State}

theorem restarted_sound (h : ∀ k ∈ s.host.cmds, k.seq ∉ s.mast.badWords) :
    Resumes (mastUp s) (restarted s) ∧ (restarted s).rig.late = none := by
  have hptp := resumes_ptpFollow (mastUp s)
  have hnone : dropJournal s.mast.badWords (ptpFollow (mastUp s)) = ptpFollow (mastUp s) :=
    dropJournal_none fun k hk => h k (hptp.cmds ▸ hk)
  obtain ⟨hlate, hrig⟩ := resumes_lateLoad (ptpFollow (mastUp s))
  rw [restarted, hnone]
  exact ⟨hptp.trans hlate, hrig⟩

/-- The journal empty. -/
theorem restart_empty (hdown : s.mast.down = true) (hcmds : s.host.cmds = []) : leaves .mastRestart s (fun t =>
    t.mast.down = false ∧ t.mast.badWords = [] ∧ t.host.cmds = [] ∧ t.host.cpls = s.host.cpls ∧ t.rig.late = none) := by
  obtain ⟨hres, hlate⟩ := restarted_sound (s := s) (fun k hk => absurd (hcmds ▸ hk) List.not_mem_nil)
  have hnil : (restarted s).host.cmds = [] := hres.cmds.trans hcmds
  have hfirst : journalFirst s.mast.badWords (restarted s) = none := by rw [journalFirst, hnil, List.find?_nil]
  have hup : (restarted s).mast.down = false := by rw [hres.mast]; rfl
  obtain ⟨hc, hcpls, hmast, hrig⟩ := journalPosted_done hup hnil rfl
  refine ⟨_, exec_mastRestart hdown, ?_⟩
  rw [journalWorked_none hfirst]
  refine ⟨by rw [hmast, hup], by rw [hmast, hres.mast]; rfl, hc, ?_, by rw [hrig, hlate]⟩
  rw [hcpls, hres.cpls, List.append_nil]
  rfl

/-- A journal command that had not reached its boundary. -/
theorem restart_again (hdown : s.mast.down = true) (hcmds : s.host.cmds = [c]) (htaken : c.taken = true)
    (hres : cmdReserved (cmdOp c.desc) = false) (hdone : c.done = none) (hbad : s.mast.badWords = []) (hchans : s.chans = []) :
    leaves .mastRestart s (fun t => t.mast.down = false ∧ t.host.cmds = [{ c with taken := false }] ∧
      t.host.cpls = s.host.cpls ∧ counted s t .MST_RESTART_resumed) := by
  obtain ⟨hr, -⟩ := restarted_sound (s := s) (fun k _ => by rw [hbad]; exact List.not_mem_nil)
  have hone : (restarted s).host.cmds = [c] := hr.cmds.trans hcmds
  have hfirst : journalFirst s.mast.badWords (restarted s) = some c := by simp [journalFirst, hone, hbad, htaken]
  obtain ⟨hmast, hhost, hch, hcount⟩ := resumes_resumed c false (restarted s)
  obtain ⟨hd, hc, hcpls, hregs⟩ :=
    unissued_one (s := resumed c false (restarted s)) (by rw [hhost, hone]) (hch.trans (hr.chans.trans hchans)) hres
  refine ⟨_, exec_mastRestart hdown, ?_⟩
  rw [journalWorked_again hfirst hdone (hr.chans.trans hchans)]
  refine ⟨?_, hc, ?_, ?_⟩
  · rw [hd, hmast, hr.mast]
    rfl
  · rw [hcpls, hhost, hr.cpls]
    rfl
  · have hfield : fget (restarted s) .MST_RESTART_resumed = fget s .MST_RESTART_resumed :=
      congrArg (bitsOf · 15 0) (hr.word (RegId.addr .MST_RESTART) (by decide))
    rw [counted, fget_congr hregs, ← hfield]
    exact hcount

/-- One that is done. -/
theorem restart_done {r : Bytes} (hdown : s.mast.down = true) (hcmds : s.host.cmds = [c]) (htaken : c.taken = true)
    (hdone : c.done = some r) (hbad : s.mast.badWords = []) :
    leaves .mastRestart s (fun t => t.mast.down = false ∧ t.host.cmds = [] ∧ t.host.cpls = s.host.cpls ++ [r]) := by
  obtain ⟨hr, -⟩ := restarted_sound (s := s) (fun k _ => by rw [hbad]; exact List.not_mem_nil)
  have hone : (restarted s).host.cmds = [c] := hr.cmds.trans hcmds
  have hfirst : journalFirst s.mast.badWords (restarted s) = some c := by simp [journalFirst, hone, hbad, htaken]
  obtain ⟨hmast, hhost, -, -⟩ := resumes_resumed c true (restarted s)
  have hup : (resumed c true (restarted s)).mast.down = false := by rw [hmast, hr.mast]; rfl
  have hfront : doneFront [c] = ([r], []) := by simp only [doneFront, hdone]
  obtain ⟨hc, hcpls, hm, -⟩ := journalPosted_done hup (by rw [hhost, hone]) hfront
  refine ⟨_, exec_mastRestart hdown, ?_⟩
  rw [journalWorked_past hfirst (by rw [hdone]; rfl)]
  refine ⟨by rw [hm, hup], hc, ?_⟩
  rw [hcpls, hhost, hr.cpls]
  rfl

/-- One whose journal words are lost. -/
theorem restart_lost (hdown : s.mast.down = true) (hcmds : s.host.cmds = [c]) (htaken : c.taken = true)
    (hbad : c.seq ∈ s.mast.badWords) (hchans : s.chans = []) :
    leaves .mastRestart s (fun t => t.mast.down = false ∧ t.host.cmds = [] ∧
      t.host.cpls = s.host.cpls ++ [cplRecord c.desc c.seq 8 (noneData (cmdOp c.desc))]) := by
  have hptp := resumes_ptpFollow (mastUp s)
  obtain ⟨hdropped, hcpls, hd, -⟩ :=
    dropJournal_one (bad := s.mast.badWords) (hptp.cmds.trans hcmds) htaken hbad (hptp.chans.trans hchans)
  obtain ⟨hlate, -⟩ := resumes_lateLoad (dropJournal s.mast.badWords (ptpFollow (mastUp s)))
  have hone : (restarted s).host.cmds = [{ c with done := some (cplRecord c.desc c.seq 8 (noneData (cmdOp c.desc))) }] :=
    hlate.cmds.trans hdropped
  have hup : (restarted s).mast.down = false := by rw [restarted, hlate.mast, hd, hptp.mast]; rfl
  have hfirst : journalFirst s.mast.badWords (restarted s) = none := by simp [journalFirst, hone, hbad]
  obtain ⟨hc, hposted, hm, -⟩ := journalPosted_done hup hone rfl
  refine ⟨_, exec_mastRestart hdown, ?_⟩
  rw [journalWorked_none hfirst]
  refine ⟨by rw [hm, hup], hc, ?_⟩
  rw [hposted, restarted, hlate.cpls, hcpls, hptp.cpls]
  rfl

end

/-! ### The obligation -/

/-- The words of an uncorrectable mast memory word are counted and noted as the island goes down. -/
theorem mastMemUe_row {word : MastWord} {s : State} (hfw : s.mast.fw = true) (hup : s.mast.down = false) :
    leaves (.mastMemUe word) s (fun t =>
      (t.mast.down = true ∧ t.mast.resets = recentResets s ∧ t.host.resp = none ∧ t.host.cmds = s.host.cmds ∧
        t.boot.busy = false ∧ t.age.run = none ∧ counted s t .MST_RESTART_restarts ∧ fget t .HST_FAULT_mast_watchdog = 1 ∧
        (3 ≤ (recentResets s).length → fget t .ERR_FATAL_cause = 2)) ∧
      t.mast.badWords = s.mast.badWords ++ word.journal.map (fun w => w.toNat) ∧ counted s t .MST_MEM_ECC_uncorrected) := by
  let u := raise 4 [(4, word.offset.toNat)] (fbump .MST_MEM_ECC_uncorrected 1 (wordsTold word s))
  have hmast : u.mast = (wordsTold word s).mast := by simp only [u, raise_frame, fbump_frame]
  have hword : regWord u (RegId.addr .MST_RESTART) = regWord s (RegId.addr .MST_RESTART) :=
    ((aside_raise ..).word _ (by decide)).trans
      ((onlyAt_fbump .MST_MEM_ECC_uncorrected 1 (wordsTold word s) 0 0 (List.mem_singleton_self _)).same _ (by decide))
  obtain ⟨hreset, hbad, hecc⟩ := reset_after (by_ := 4) (s := s) (u := u) (by rw [hmast]; rfl)
    (by simp only [u, raise_frame, fbump_frame]; rfl) (by simp only [u, raise_frame, fbump_frame]; rfl) hword
  refine ⟨_, mastMemUe_up hfw hup, hreset, by rw [hbad, hmast]; rfl, ?_⟩
  have hcount : counted s u .MST_MEM_ECC_uncorrected := by
    refine counted_after (t := fbump .MST_MEM_ECC_uncorrected 1 (wordsTold word s)) ?_ (onlyAt_raise ..) (by decide)
    exact counted_before (as := []) (t := wordsTold word s) (.of_regs rfl) List.not_mem_nil
      (counted_fbump (wordsTold word s) .MST_MEM_ECC_uncorrected 0 (by decide) (by decide))
  rw [counted, show fget (resetMast 4 u) .MST_MEM_ECC_uncorrected = fget u .MST_MEM_ECC_uncorrected from
    congrArg (bitsOf · 15 0) hecc]
  exact hcount

/-- Settles O45: a reset leaves the journal and a restart works through it; what a reset cuts reaches neither. -/
theorem mastResetsKeepTheJournal : Obligations.MastResetsKeepTheJournal := by
  intro word s
  refine ⟨fun h => ?_, fun hfw => ?_, fun hfw hdown => mastMemUe_down hfw hdown, fun hfw hup => ⟨?_, mastMemUe_row hfw hup⟩,
    fun hup => ?_, fun hdown hfw => ⟨fun hcmds => restart_empty hdown hcmds, fun c hcmds htaken hres =>
      ⟨fun hdone hbad hchans _ _ => restart_again hdown hcmds htaken hres hdone hbad hchans,
        fun hbad hchans => restart_lost hdown hcmds htaken hbad hchans,
        fun r hdone hbad => restart_done hdown hcmds htaken hdone hbad⟩⟩⟩
  · refine congrArg Host.Outcome.next (if_neg fun hc => ?_)
    rw [Bool.and_eq_true, Bool.not_eq_true'] at hc
    exact h.elim (fun h => absurd (hc.1.symm.trans h) (by decide)) (fun h => absurd (hc.2.symm.trans h) (by decide))
  · exact congrArg Host.Outcome.next (if_neg fun h => absurd (h.symm.trans hfw) (by decide))
  · obtain ⟨hreset, hbad, -⟩ := reset_after (by_ := 1) (s := s) (u := raise 1 [(4, resetCount s)] s)
      (by simp only [raise_frame]) (by simp only [raise_frame]) (by simp only [raise_frame])
      ((aside_raise ..).word _ (by decide))
    exact ⟨_, mastWatchdog_row hfw hup, hreset, hbad.trans (by simp only [raise_frame])⟩
  · exact congrArg Host.Outcome.next (if_neg fun h => absurd (h.symm.trans hup) (by decide))

end Sys2Proof.Proofs.MastResets
end

section
/-! PROOF. The cellar's scrubber, its retries and its retraining (R313, R396, R397). -/

namespace Sys2Proof.Proofs.CellarCare

open Sys2Proof Sys2Proof.Machine Sys2Proof.Spec Sys2Proof.Proofs.RegisterFields Sys2Proof.Proofs.IslandCommands
  Sys2Proof.Proofs.MastResets

/-! ### Poison marks (R394) -/

theorem mem_markPoison {l : List Nat} {a p : Nat} : p ∈ markPoison l a ↔ p = a ∨ p ∈ l := by
  induction l with
  | nil => simp [markPoison]
  | cons q l ih =>
    unfold markPoison
    split
    · simp
    · split
      · next h => simp [h]
      · simp only [List.mem_cons, ih, or_left_comm]

theorem wordBytes_pos (a : Nat) : 0 < wordBytes a := by
  unfold wordBytes
  split <;> decide

theorem poisoned_of_mem {s : State} {a n p : Nat} (h : p ∈ s.poison) (hp : p < a + n) (ha : a < p + wordBytes p) :
    poisoned s a n = true := by
  have hmem : p ∈ poisonedIn s a n := List.mem_filter.2 ⟨h, by simp [hp, ha]⟩
  rw [poisoned, Bool.not_eq_true', List.isEmpty_eq_false_iff]
  exact List.ne_nil_of_mem hmem

/-! ### The scrubber (R396) -/

section

variable {c : Nat} {s : State}

/-- The scrubber past a word, a pass counted at the last one. -/
def scrubNext (c : Nat) (s : State) : State :=
  if (scrubAt { s with cel := { s.cel with scrub := c + 8 } } (c + 8)).isNone then
    fbump .CEL_SCRUB_STATUS_passes 1 { s with cel := { s.cel with scrub := 0 } }
  else { s with cel := { s.cel with scrub := c + 8 } }

theorem scrubAt_congr {t : State} (h : t.regs = s.regs) (k : Nat) : scrubAt t k = scrubAt s k := by
  simp only [scrubAt, fget_congr h]

theorem scrubNext_scrub (c : Nat) (s : State) : (∀ k, scrubAt s (c + 8) = some k → (scrubNext c s).cel.scrub = c + 8) ∧
    (scrubAt s (c + 8) = none → (scrubNext c s).cel.scrub = 0) ∧ (scrubNext c s).mem = s.mem ∧
    (scrubNext c s).poison = s.poison := by
  unfold scrubNext
  have hat : scrubAt { s with cel := { s.cel with scrub := c + 8 } } (c + 8) = scrubAt s (c + 8) := scrubAt_congr rfl _
  rw [hat]
  split
  · next h => exact ⟨fun k hk => absurd (hk ▸ h) (by simp), fun _ => rfl, rfl, rfl⟩
  · next h => exact ⟨fun _ _ => rfl, fun hn => absurd (by rw [hn]; rfl) h, rfl, rfl⟩

/-- The scrubber's own count of passes stands beside that of the words it found. -/
theorem scrubNext_fields (c : Nat) (s : State) : OnlyAt [RegId.addr .CEL_SCRUB_STATUS] s (scrubNext c s) ∧
    fget (scrubNext c s) .CEL_SCRUB_STATUS_found_ue = fget s .CEL_SCRUB_STATUS_found_ue := by
  unfold scrubNext
  split
  · exact ⟨onlyAt_from (onlyAt_fbump .CEL_SCRUB_STATUS_passes 1 { s with cel := { s.cel with scrub := 0 } } 0 0
      (List.mem_singleton_self _)) rfl,
      fget_fbump_beside { s with cel := { s.cel with scrub := 0 } } .CEL_SCRUB_STATUS_passes .CEL_SCRUB_STATUS_found_ue 1 0 0 rfl
        (by decide) (by decide) (by decide) (by decide)⟩
  · exact ⟨.of_regs rfl, rfl⟩

/-- A state with a cellar word marked. -/
def cellarMarked (c : Nat) (s : State) : State := { s with poison := markPoison s.poison (cellarBase + c) }

theorem cellarMarked_regs (c : Nat) (s : State) : (cellarMarked c s).regs = s.regs := rfl

/-- An uncorrectable word the scrubber found, marked and counted. -/
def scrubFound (c : Nat) (s : State) : State :=
  fbump .CEL_SCRUB_STATUS_found_ue 1 (fbump .CEL_ECC_uncorrected 1 (cellarMarked c s))

theorem scrubFound_keeps (c : Nat) (s : State) : (scrubFound c s).mem = s.mem ∧
    (scrubFound c s).poison = markPoison s.poison (cellarBase + c) ∧ (scrubFound c s).cel = s.cel := ⟨rfl, rfl, rfl⟩

/-- The record of the last uncorrectable word. -/
def scrubRecorded (region c : Nat) (s : State) : State :=
  fset .CEL_ECC_LAST_HI_valid 1 (fset .CEL_ECC_LAST_HI_master 10 (fset .CEL_ECC_LAST_HI_region region
    (fset .CEL_ECC_LAST_HI_offset_hi (c / 2 ^ 32) (fset .CEL_ECC_LAST_LO_offset_lo (c % 2 ^ 32) s))))

/-- The scrubber meets an uncorrectable word. -/
def scrubBad (region c : Nat) (s : State) : State :=
  ueMet 4 (raise 98 [(1, region), (8, c)] (scrubRecorded region c (scrubFound c (scrubNext c s))))

/-- The scrubber meets a word with a correctable error. -/
def scrubFixed (c : Nat) (s : State) : State :=
  raiseCounting 96 0 [] (corrected (fbump .CEL_ECC_corrected 1 (scrubNext c s)))

theorem exec_celScrubRead {check : BitVec 2} (hen : fget s .CEL_SCRUB_enable = 1) (hready : s.cel.retrain = none)
    (hat : scrubAt s s.cel.scrub = some c) (hsound : poisoned s (cellarBase + c) 8 = false) :
    exec (.celScrubRead check) s = .next (if 2 ≤ check.toNat then scrubBad (((regionOf s c).map (fun r => r.1)).getD 0) c s
      else if check = 1 then scrubFixed c s else scrubNext c s) := by
  have hbit : (!fbit s .CEL_SCRUB_enable || s.cel.retrain.isSome) = false := by
    rw [fbit, hen, hready]
    rfl
  refine congrArg Host.Outcome.next ((if_neg (by rw [hbit]; decide)).trans ?_)
  rw [hat]
  dsimp only
  rw [hsound, Bool.false_or]
  simp only [decide_eq_true_eq, Bool.false_eq_true, if_false]
  rfl

theorem onlyAt_askReef {as : List Nat} (bit : Nat) (u : State) : OnlyAt as u (askReef bit u) :=
  .of_regs (by simp only [askReef_frame])

/-- The count of uncorrectable words in a window, with event 5 and the reefing it may ask for (R395). -/
theorem onlyAt_ueMet (memory : Nat) (u : State) : OnlyAt (RegId.addr .ERR_UE_RATE :: eventCounters) u (ueMet memory u) := by
  have hset := fun v => onlyAt_fset (as := RegId.addr .ERR_UE_RATE :: eventCounters) .ERR_UE_RATE_window_count v u 0 0
    List.mem_cons_self
  unfold ueMet
  refine .ite ?_ (hset _)
  exact ((hset _).then ((onlyAt_raise ..).mono (List.subset_cons_self _ _))).then (onlyAt_askReef ..)

theorem ueMet_keeps (memory : Nat) (u : State) : (ueMet memory u).mem = u.mem ∧ (ueMet memory u).poison = u.poison ∧
    (ueMet memory u).cel = u.cel := by simp only [ueMet_frame, and_self]

/-- What the scrubber records of an uncorrectable word leaves, and holds. -/
theorem scrubRecorded_spec (region c : Nat) (u : State) :
    OnlyAt [RegId.addr .CEL_ECC_LAST_LO, RegId.addr .CEL_ECC_LAST_HI] u (scrubRecorded region c u) ∧
    fget (scrubRecorded region c u) .CEL_ECC_LAST_HI_valid = 1 ∧ fget (scrubRecorded region c u) .CEL_ECC_LAST_HI_master = 10 ∧
    fget (scrubRecorded region c u) .CEL_ECC_LAST_LO_offset_lo = c % 2 ^ 32 := by
  have hset : ∀ (f : Fld) (v : Nat) (w : State), RegId.addr f.reg ∈ [RegId.addr .CEL_ECC_LAST_LO, RegId.addr .CEL_ECC_LAST_HI] →
      OnlyAt [RegId.addr .CEL_ECC_LAST_LO, RegId.addr .CEL_ECC_LAST_HI] w (fset f v w) := fun f v w h => onlyAt_fset f v w 0 0 h
  unfold scrubRecorded
  refine ⟨?_, ?_, ?_, ?_⟩
  · exact ((((hset .CEL_ECC_LAST_LO_offset_lo _ _ (by decide)).then (hset .CEL_ECC_LAST_HI_offset_hi _ _ (by decide))).then
      (hset .CEL_ECC_LAST_HI_region _ _ (by decide))).then (hset .CEL_ECC_LAST_HI_master _ _ (by decide))).then
      (hset .CEL_ECC_LAST_HI_valid _ _ (by decide))
  · rw [fget_fset_same _ .CEL_ECC_LAST_HI_valid _ _ _ (by decide) (by decide)]
    rfl
  · rw [fget_fset_beside _ .CEL_ECC_LAST_HI_valid .CEL_ECC_LAST_HI_master _ _ _ rfl (by decide) (by decide) (by decide) (by decide),
      fget_fset_same _ .CEL_ECC_LAST_HI_master _ _ _ (by decide) (by decide)]
    rfl
  · rw [fget_fset_other _ .CEL_ECC_LAST_HI_valid _ _ _ _ _ _ (by decide),
      fget_fset_other _ .CEL_ECC_LAST_HI_master _ _ _ _ _ _ (by decide),
      fget_fset_other _ .CEL_ECC_LAST_HI_region _ _ _ _ _ _ (by decide),
      fget_fset_other _ .CEL_ECC_LAST_HI_offset_hi _ _ _ _ _ _ (by decide),
      fget_fset_same _ .CEL_ECC_LAST_LO_offset_lo _ _ _ (by decide) (by decide)]
    exact Nat.mod_mod _ _

theorem scrubRecorded_keeps (region c : Nat) (u : State) : (scrubRecorded region c u).mem = u.mem ∧
    (scrubRecorded region c u).poison = u.poison ∧ (scrubRecorded region c u).cel = u.cel := ⟨rfl, rfl, rfl⟩

/-- The two counters of an uncorrectable word. -/
theorem counted_twice (u : State) :
    counted u (fbump .CEL_SCRUB_STATUS_found_ue 1 (fbump .CEL_ECC_uncorrected 1 u)) .CEL_ECC_uncorrected ∧
    counted u (fbump .CEL_SCRUB_STATUS_found_ue 1 (fbump .CEL_ECC_uncorrected 1 u)) .CEL_SCRUB_STATUS_found_ue :=
  ⟨counted_after (counted_fbump u .CEL_ECC_uncorrected 0 (by decide) (by decide))
      (onlyAt_fbump .CEL_SCRUB_STATUS_found_ue 1 _ 0 0 (List.mem_singleton_self _)) (by decide),
    counted_before (onlyAt_fbump .CEL_ECC_uncorrected 1 u 0 0 (List.mem_singleton_self _)) (by decide)
      (counted_fbump (fbump .CEL_ECC_uncorrected 1 u) .CEL_SCRUB_STATUS_found_ue 0 (by decide) (by decide))⟩

theorem counted_of_field {s t u : State} {f : Fld} (h : fget t f = fget s f) (hc : counted t u f) : counted s u f := by
  rw [counted, ← h]
  exact hc

theorem scrubFound_counted (c : Nat) (s : State) :
    counted s (scrubFound c (scrubNext c s)) .CEL_ECC_uncorrected ∧
    counted s (scrubFound c (scrubNext c s)) .CEL_SCRUB_STATUS_found_ue := by
  obtain ⟨honly, hfound⟩ := scrubNext_fields c s
  obtain ⟨hun, hue⟩ := counted_twice (cellarMarked c (scrubNext c s))
  have hmarked : (cellarMarked c (scrubNext c s)).regs = (scrubNext c s).regs := cellarMarked_regs ..
  exact ⟨counted_before (honly.then (.of_regs hmarked)) (by decide) hun, counted_of_field ((fget_congr hmarked _ 0 0).trans hfound) hue⟩

/-- The registers of events and of the last uncorrectable word. -/
def scrubRest : List Nat :=
  [RegId.addr .CEL_ECC_LAST_LO, RegId.addr .CEL_ECC_LAST_HI, RegId.addr .ERR_UE_RATE, RegId.addr .ERR_CLASS, RegId.addr .ERR_PENDING]

/-- The second state shows the cellar's uncorrectable word of an offset, its events told. -/
structure Recorded (c : Nat) (u t : State) : Prop where
  mem : t.mem = u.mem
  poison : t.poison = u.poison
  cel : t.cel = u.cel
  only : OnlyAt scrubRest u t
  valid : fget t .CEL_ECC_LAST_HI_valid = 1
  master : fget t .CEL_ECC_LAST_HI_master = 10
  offset : fget t .CEL_ECC_LAST_LO_offset_lo = c % 2 ^ 32

theorem recorded_told (region c : Nat) (l : List (Nat × Nat)) (u : State) :
    Recorded c u (ueMet 4 (raise 98 l (scrubRecorded region c u))) := by
  obtain ⟨honly, hvalid, hmaster, hofs⟩ := scrubRecorded_spec region c u
  obtain ⟨hmemR, hpoisonR, hcelR⟩ := scrubRecorded_keeps region c u
  have hlast : OnlyAt (RegId.addr .ERR_UE_RATE :: eventCounters) (scrubRecorded region c u)
      (ueMet 4 (raise 98 l (scrubRecorded region c u))) :=
    ((onlyAt_raise 98 l _).mono (List.subset_cons_self _ _)).then (onlyAt_ueMet 4 _)
  obtain ⟨hmem, hpoison, hcel⟩ := ueMet_keeps 4 (raise 98 l (scrubRecorded region c u))
  have hraise : ∀ w : State, (raise 98 l w).mem = w.mem ∧ (raise 98 l w).poison = w.poison ∧ (raise 98 l w).cel = w.cel := by
    intro w
    simp only [raise_frame, and_self]
  obtain ⟨hmem98, hpoison98, hcel98⟩ := hraise (scrubRecorded region c u)
  exact ⟨hmem.trans (hmem98.trans hmemR), hpoison.trans (hpoison98.trans hpoisonR), hcel.trans (hcel98.trans hcelR),
    honly.trans hlast, (hlast.fget (f := .CEL_ECC_LAST_HI_valid) (by decide)).trans hvalid,
    (hlast.fget (f := .CEL_ECC_LAST_HI_master) (by decide)).trans hmaster,
    (hlast.fget (f := .CEL_ECC_LAST_LO_offset_lo) (by decide)).trans hofs⟩

theorem recorded_scrubBad (region c : Nat) (s : State) :
    Recorded c (scrubFound c (scrubNext c s)) (scrubBad region c s) := recorded_told ..

/-- A word's record after the scrubber found it. -/
theorem found_recorded {c : Nat} {s t : State} (h : Recorded c (scrubFound c (scrubNext c s)) t) :
    t.mem = s.mem ∧ t.poison = markPoison s.poison (cellarBase + c) ∧ t.cel = (scrubNext c s).cel ∧
    counted s t .CEL_ECC_uncorrected ∧ counted s t .CEL_SCRUB_STATUS_found_ue := by
  obtain ⟨-, -, hmemNext, hpoisonNext⟩ := scrubNext_scrub c s
  obtain ⟨hun, hfound⟩ := scrubFound_counted c s
  obtain ⟨hmem, hpoison, hcel⟩ := scrubFound_keeps c (scrubNext c s)
  rw [hpoisonNext] at hpoison
  exact ⟨h.mem.trans (hmem.trans hmemNext), h.poison.trans hpoison, h.cel.trans hcel,
    counted_after hun h.only (by decide), counted_after hfound h.only (by decide)⟩

theorem scrubFixed_spec (c : Nat) (s : State) : let t := scrubFixed c s
    t.mem = s.mem ∧ t.poison = s.poison ∧ t.cel = (scrubNext c s).cel ∧ counted s t .CEL_ECC_corrected := by
  obtain ⟨-, -, hmem, hpoison⟩ := scrubNext_scrub c s
  unfold scrubFixed
  refine ⟨?_, ?_, ?_, ?_⟩
  · simp only [raiseCounting_frame, corrected_frame, fbump_frame, hmem]
  · simp only [raiseCounting_frame, corrected_frame, fbump_frame, hpoison]
  · simp only [raiseCounting_frame, corrected_frame, fbump_frame]
  · refine counted_after (t := fbump .CEL_ECC_corrected 1 (scrubNext c s)) ?_
      (.trans (onlyAt_fbump .ERR_CORRECTED_corrected 1 _ 0 0 (List.mem_singleton_self _)) (onlyAt_raiseCounting ..)) (by decide)
    exact counted_before (scrubNext_fields c s).1 (by decide)
      (counted_fbump (scrubNext c s) .CEL_ECC_corrected 0 (by decide) (by decide))

theorem celScrubRead_row {check : BitVec 2} (hen : fget s .CEL_SCRUB_enable = 1) (hready : s.cel.retrain = none)
    (hat : scrubAt s s.cel.scrub = some c) (hsound : poisoned s (cellarBase + c) 8 = false) :
    leaves (.celScrubRead check) s (fun t =>
      (∀ k, scrubAt s (c + 8) = some k → t.cel.scrub = c + 8) ∧ (scrubAt s (c + 8) = none → t.cel.scrub = 0) ∧ t.mem = s.mem ∧
      (check = 1 → counted s t .CEL_ECC_corrected ∧ t.poison = s.poison) ∧
      (check = 0 → t.poison = s.poison ∧ fget t .CEL_ECC_corrected = fget s .CEL_ECC_corrected) ∧
      (2 ≤ check.toNat → counted s t .CEL_ECC_uncorrected ∧ counted s t .CEL_SCRUB_STATUS_found_ue ∧
        poisoned t (cellarBase + c) 8 = true ∧ fget t .CEL_ECC_LAST_HI_valid = 1 ∧
        fget t .CEL_ECC_LAST_HI_master = 10 ∧ fget t .CEL_ECC_LAST_LO_offset_lo = c % 2 ^ 32)) := by
  obtain ⟨hgoes, hends, hmemNext, hpoisonNext⟩ := scrubNext_scrub c s
  refine ⟨_, exec_celScrubRead hen hready hat hsound, ?_⟩
  split
  · next hbad =>
    have hrec := recorded_scrubBad (((regionOf s c).map (fun r => r.1)).getD 0) c s
    obtain ⟨hmem, hpoison, hcel, hun, hfound⟩ := found_recorded hrec
    have hmark : poisoned (scrubBad _ c s) (cellarBase + c) 8 = true :=
      poisoned_of_mem (hpoison ▸ mem_markPoison.2 (.inl rfl)) (by omega)
        (Nat.lt_add_of_pos_right (wordBytes_pos _))
    refine ⟨fun k hk => by rw [hcel, hgoes k hk], fun hn => by rw [hcel, hends hn], hmem, fun h => ?_, fun h => ?_,
      fun _ => ⟨hun, hfound, hmark, hrec.valid, hrec.master, hrec.offset⟩⟩
    · exact absurd (h ▸ hbad) (by decide)
    · exact absurd (h ▸ hbad) (by decide)
  · next hgood =>
    split
    · next hone =>
      obtain ⟨hmem, hpoison, hcel, hcount⟩ := scrubFixed_spec c s
      exact ⟨fun k hk => by rw [hcel, hgoes k hk], fun hn => by rw [hcel, hends hn], hmem, fun _ => ⟨hcount, hpoison⟩,
        fun h => absurd (h.symm.trans hone) (by decide), fun h => absurd h hgood⟩
    · next hone =>
      exact ⟨hgoes, hends, hmemNext, fun h => absurd h hone,
        fun _ => ⟨hpoisonNext, (scrubNext_fields c s).1.fget (by decide)⟩, fun h => absurd h hgood⟩

end

/-! ### Retries and retraining (R313, R397, R402) -/

section

variable {m : Fin 16} {crc : Bool} {s : State}

theorem celCaRetry_retried (hready : s.cel.retrain = none) (hfew : tget s.cel.fails m 0 < 15) :
    leaves (.celCaRetry m crc) s (fun t => t.cel = { s.cel with fails := tset s.cel.fails m (tget s.cel.fails m 0 + 1) } ∧
      counted s t .CEL_RETRY_ca_retries) := by
  refine ⟨_, congrArg Host.Outcome.next ((if_neg (by rw [hready]; decide)).trans (if_pos (by omega))), rfl, ?_⟩
  exact counted_after (counted_fbump s .CEL_RETRY_ca_retries 0 (by decide) (by decide)) (.of_regs (as := []) rfl) List.not_mem_nil

/-- The retry and the escalation counted, with event 70. -/
def escalated (m : Fin 16) (s : State) : State :=
  raise 70 [(4, 1), (4, m.val), (1, 0)] (fbump .CEL_RETRY_escalations 1 (fbump .CEL_RETRY_ca_retries 1 s))

theorem escalated_counted (m : Fin 16) (s : State) :
    counted s (escalated m s) .CEL_RETRY_ca_retries ∧ counted s (escalated m s) .CEL_RETRY_escalations := by
  have hbump : ∀ u : State, fget (fbump .CEL_RETRY_escalations 1 u) .CEL_RETRY_ca_retries = fget u .CEL_RETRY_ca_retries := fun u =>
    fget_fbump_beside u .CEL_RETRY_escalations .CEL_RETRY_ca_retries 1 0 0 rfl (by decide) (by decide) (by decide) (by decide)
  have hretry : fget (fbump .CEL_RETRY_ca_retries 1 s) .CEL_RETRY_escalations = fget s .CEL_RETRY_escalations :=
    fget_fbump_beside s .CEL_RETRY_ca_retries .CEL_RETRY_escalations 1 0 0 rfl (by decide) (by decide) (by decide) (by decide)
  constructor
  · refine counted_after (t := fbump .CEL_RETRY_escalations 1 (fbump .CEL_RETRY_ca_retries 1 s)) ?_ (onlyAt_raise ..) (by decide)
    rw [counted, hbump]
    exact counted_fbump s .CEL_RETRY_ca_retries 0 (by decide) (by decide)
  · exact counted_of_field hretry (counted_after (counted_fbump _ .CEL_RETRY_escalations 0 (by decide) (by decide))
      (onlyAt_raise ..) (by decide))

theorem escalated_cel (m : Fin 16) (s : State) : (escalated m s).cel = s.cel := by simp only [escalated, raise_frame, fbump_frame]

theorem fset_cel (f : Fld) (v : Nat) (u : State) : (fset f v u).cel = u.cel := rfl

/-- The cellar in training: its state shown, nothing else of the registers reached. -/
theorem celStatus_shown (v : Nat) (u : State) : fget (fset .CEL_STATUS_state v u) .CEL_STATUS_state = v % 2 ^ 3 :=
  fget_fset_same u .CEL_STATUS_state v 0 0 (by decide) (by decide)

/-- The cellar retrains after the sixteenth failure in a row. -/
def retraining (m : Fin 16) (crc : Bool) (u : State) : State :=
  { u with cel := { u.cel with fails := tdel u.cel.fails m, retrain := some crc } }

theorem celCaRetry_escalates (hready : s.cel.retrain = none) (hmany : 15 ≤ tget s.cel.fails m 0) :
    leaves (.celCaRetry m crc) s (fun t => t.cel = { s.cel with fails := tdel s.cel.fails m, retrain := some crc } ∧
      counted s t .CEL_RETRY_ca_retries ∧ counted s t .CEL_RETRY_escalations ∧ fget t .CEL_STATUS_state = 3) := by
  have hexec : exec (.celCaRetry m crc) s = .next (fset .CEL_STATUS_state 3 (retraining m crc (escalated m s))) :=
    congrArg Host.Outcome.next ((if_neg (by rw [hready]; decide)).trans (if_neg (by omega)))
  obtain ⟨hretry, hesc⟩ := escalated_counted m s
  have honly : OnlyAt [RegId.addr .CEL_STATUS] (escalated m s) (fset .CEL_STATUS_state 3 (retraining m crc (escalated m s))) :=
    onlyAt_from (onlyAt_fset .CEL_STATUS_state 3 (retraining m crc (escalated m s)) 0 0 (List.mem_singleton_self _)) rfl
  refine ⟨_, hexec, ?_, counted_after hretry honly (by decide), counted_after hesc honly (by decide), celStatus_shown 3 _⟩
  rw [fset_cel, retraining, escalated_cel]

/-- Retraining passed: the interface is up, its ports' words as they were before. -/
def retrained (s : State) : State :=
  { s with
    cel := { s.cel with retrain := none, retries := 0 }
    ports := s.ports.map (fun p => (p.1, { p.2 with staged := 0 })) }

/-- A retraining that failed, counted. -/
def trainingFailed (crc : Bool) (s : State) : State :=
  raise 99 [(1, if crc then 1 else 0), (1, 1)] { s with cel := { s.cel with retries := s.cel.retries + 1 } }

/-- The interface given up. -/
def trainingGivenUp (u : State) : State :=
  fset .CEL_STATUS_state 4 { u with cel := { u.cel with retrain := none, retries := 0 } }

/-- A retraining's end. -/
def trainingEnds (passed crc : Bool) (s : State) : State :=
  if passed then raise 99 [(1, if crc then 1 else 0), (1, 0)] (fset .CEL_STATUS_state 2 (fbump .CEL_STATUS_trainings 1 (retrained s)))
  else if s.cel.retries + 1 < 3 then trainingFailed crc s
  else fatal 1 100 (raise 100 [(4, s.cel.retries + 1)] (trainingGivenUp (trainingFailed crc s)))

theorem exec_celRetrainDone (h : s.cel.retrain = some crc) (passed : Bool) :
    exec (.celRetrainDone passed) s = .next (trainingEnds passed crc s) := by
  refine congrArg Host.Outcome.next ?_
  split
  · next hn => exact absurd (h.symm.trans hn) (by simp)
  · next c hc =>
    cases h.symm.trans hc
    rfl

theorem celRetrainDone_passed (h : s.cel.retrain = some crc) : leaves (.celRetrainDone true) s (fun t =>
    t.cel = { s.cel with retrain := none, retries := 0 } ∧ fget t .CEL_STATUS_state = 2 ∧ counted s t .CEL_STATUS_trainings) := by
  refine ⟨_, exec_celRetrainDone h true, ?_⟩
  rw [trainingEnds, if_pos rfl]
  refine ⟨?_, ?_, ?_⟩
  · simp only [raise_frame, fset_frame, fbump_frame]
    rfl
  · rw [fget_raise _ _ _ _ _ _ (by decide) (by decide), celStatus_shown]
    rfl
  · refine counted_after (t := fset .CEL_STATUS_state 2 (fbump .CEL_STATUS_trainings 1 (retrained s))) ?_ (onlyAt_raise ..) (by decide)
    rw [counted, fget_fset_beside _ .CEL_STATUS_state .CEL_STATUS_trainings _ _ _ rfl (by decide) (by decide) (by decide) (by decide)]
    exact counted_before (as := []) (t := retrained s) (.of_regs rfl) List.not_mem_nil
      (counted_fbump (retrained s) .CEL_STATUS_trainings 0 (by decide) (by decide))

theorem trainingFailed_spec (crc : Bool) (s : State) :
    (trainingFailed crc s).cel = { s.cel with retries := s.cel.retries + 1 } ∧
    fget (trainingFailed crc s) .CEL_STATUS_state = fget s .CEL_STATUS_state := by
  refine ⟨by simp only [trainingFailed, raise_frame], ?_⟩
  rw [trainingFailed, fget_raise _ _ _ _ _ _ (by decide) (by decide)]
  exact fget_congr rfl _ _ _

theorem celRetrainDone_again (h : s.cel.retrain = some crc) (hfew : s.cel.retries < 2) :
    leaves (.celRetrainDone false) s (fun t =>
      t.cel = { s.cel with retries := s.cel.retries + 1 } ∧ fget t .CEL_STATUS_state = fget s .CEL_STATUS_state) := by
  refine ⟨_, exec_celRetrainDone h false, ?_⟩
  rw [trainingEnds, if_neg Bool.false_ne_true, if_pos (by omega)]
  exact trainingFailed_spec crc s

/-- The registers that a fatal error reaches. -/
theorem onlyAt_fatal (cause by_ : Nat) (u : State) :
    OnlyAt (eventCounters ++ [RegId.addr .ERR_FATAL, RegId.addr .HST_FAULT]) u (fatal cause by_ u) := by
  have hset : ∀ (f : Fld) (v : Nat) (w : State), RegId.addr f.reg ∈ [RegId.addr .ERR_FATAL, RegId.addr .HST_FAULT] →
      OnlyAt [RegId.addr .ERR_FATAL, RegId.addr .HST_FAULT] w (fset f v w) := fun f v w h => onlyAt_fset f v w 0 0 h
  unfold fatal
  exact .trans (onlyAt_raise ..) ((((hset .ERR_FATAL_cause _ _ (by decide)).then (hset .ERR_FATAL_fatal _ _ (by decide))).then
    (hset .HST_FAULT_error _ _ (by decide))).then (.of_regs (by simp only [noteIbi_frame]; rfl)))

theorem celRetrainDone_fatal (h : s.cel.retrain = some crc) (hmany : 2 ≤ s.cel.retries) :
    leaves (.celRetrainDone false) s (fun t => fget t .CEL_STATUS_state = 4 ∧
      t.cel = { s.cel with retrain := none, retries := 0 } ∧ fget t .ERR_FATAL_cause = 1) := by
  refine ⟨_, exec_celRetrainDone h false, ?_⟩
  rw [trainingEnds, if_neg Bool.false_ne_true, if_neg (by omega)]
  refine ⟨?_, ?_, (fget_fatal ..).1⟩
  · rw [(onlyAt_fatal ..).fget (by decide), fget_raise _ _ _ _ _ _ (by decide) (by decide), trainingGivenUp, celStatus_shown]
    rfl
  · have hcel : ∀ l (u : State), (fatal 1 100 (raise 100 l u)).cel = u.cel := fun l u => by
      simp only [fatal_frame, raise_frame]
    rw [hcel, trainingGivenUp, fset_cel, (trainingFailed_spec crc s).1]

end

/-- Settles O47: what the scrubber reads and records, and the retries of a master's command up to a third failed retraining. -/
theorem theCellarScrubsAndRetrains : Obligations.TheCellarScrubsAndRetrains := by
  intro check m crc s failed
  refine ⟨fun h => ?_, fun c hen hready hat hsound => celScrubRead_row hen hready hat hsound,
    fun h => congrArg Host.Outcome.next (if_pos h), celCaRetry_retried, celCaRetry_escalates, fun h ok => ?_, fun h => ?_⟩
  · refine congrArg Host.Outcome.next (if_pos ?_)
    rw [Bool.or_eq_true]
    exact h.imp (fun hen => by rw [fbit, hen]; rfl) id
  · simp only [exec, execCelRetrainDone, h]
  · obtain ⟨b, hb⟩ := Option.isSome_iff_exists.1 h
    exact ⟨celRetrainDone_passed hb, celRetrainDone_again hb, celRetrainDone_fatal hb⟩

end Sys2Proof.Proofs.CellarCare
end

section
/-! PROOF. Transfers and the cellar's DMA engines (R16, R366, R383, R394). -/

namespace Sys2Proof.Proofs.Transfers

open Sys2Proof Sys2Proof.Machine Sys2Proof.Spec Sys2Proof.Proofs.CellarCare

/-! ### Protected words and their marks (R21, R394) -/

theorem wordBytes_eq (a : Nat) : wordBytes a = 4 ∨ wordBytes a = 8 := by
  unfold wordBytes
  split
  · exact .inl rfl
  · exact .inr rfl

theorem wordOf_le (a : Nat) : wordOf a ≤ a := Nat.div_mul_le_self ..

theorem lt_wordOf_add (a : Nat) : a < wordOf a + wordBytes a := by
  unfold wordOf
  obtain h | h := wordBytes_eq a
  · rw [h]
    omega
  · rw [h]
    omega

/-- A word and its first byte lie in the same memory. -/
theorem wordBytes_wordOf (a : Nat) : wordBytes (wordOf a) = wordBytes a := by
  unfold wordOf
  by_cases hc : 0x08000000 ≤ a ∧ a < 0x10000000 ∧ a % 0x100000 < 0x80000
  · have h : wordBytes a = 4 := if_pos hc
    rw [h]
    exact if_pos (by omega)
  · have h : wordBytes a = 8 := if_neg hc
    rw [h]
    exact if_neg (by omega)

/-- The mark that a bad word's bytes read. -/
theorem poisoned_wordOf {s : State} {a : Nat} (h : wordOf a ∈ s.poison) : poisoned s a 1 = true :=
  poisoned_of_mem h (by have := wordOf_le a; omega) (by rw [wordBytes_wordOf]; exact lt_wordOf_add a)

/-- The one mark that passes a test which none of the others passes. -/
theorem filter_markPoison {l : List Nat} {a : Nat} {p : Nat → Bool} (h : l.filter p = []) (ha : p a = true) :
    (markPoison l a).filter p = [a] := by
  induction l with
  | nil => simp [markPoison, ha]
  | cons q l ih =>
    have hq : p q = false := Bool.eq_false_iff.2 fun hq => List.filter_eq_nil_iff.1 h q List.mem_cons_self hq
    have hl : l.filter p = [] := by simpa [hq] using h
    unfold markPoison
    split
    · simp [ha, hq, hl]
    · split
      · next he => exact absurd (he ▸ ha) (by simp [hq])
      · simpa [hq] using ih hl

theorem mem_foldl_markPoison {f : Nat → Nat} (js : List Nat) {l : List Nat} {p : Nat} (h : p ∈ l ∨ ∃ j ∈ js, p = f j) :
    p ∈ js.foldl (fun l i => markPoison l (f i)) l := by
  induction js generalizing l with
  | nil => exact h.resolve_right (by simp)
  | cons k js ih =>
    refine ih ?_
    obtain h | ⟨j, hj, hp⟩ := h
    · exact .inl (mem_markPoison.2 (.inr h))
    · obtain rfl | hj := List.mem_cons.1 hj
      · exact .inl (mem_markPoison.2 (.inl hp))
      · exact .inr ⟨j, hj, hp⟩

/-- Every byte of a poisoned range reads a mark. -/
theorem poisoned_poisonRange {a n x : Nat} (s : State) (hx : a ≤ x) (hn : x < a + n)
    (hw : ∀ y, a ≤ y → y < a + n → wordBytes y = wordBytes a) : poisoned (poisonRange a n s) x 1 = true := by
  let j := (x - wordOf a) / wordBytes a
  have hle := wordOf_le a
  have hlt := lt_wordOf_add a
  have hbase : wordOf a = a - a % wordBytes a := by
    rw [wordOf]
    have := Nat.div_add_mod' a (wordBytes a)
    omega
  have hj : j < (a % wordBytes a + n + (wordBytes a - 1)) / wordBytes a ∧ wordOf a + wordBytes a * j ≤ x ∧
      x < wordOf a + wordBytes a * j + wordBytes a := by
    have hmod : a % wordBytes a ≤ a := Nat.mod_le ..
    obtain h | h := wordBytes_eq a
    · simp only [j, h] at *
      omega
    · simp only [j, h] at *
      omega
  obtain ⟨hcount, hfirst, hlast⟩ := hj
  have hword : wordBytes (wordOf a + wordBytes a * j) = wordBytes a := by
    cases hj : j with
    | zero => rw [Nat.mul_zero, Nat.add_zero, wordBytes_wordOf]
    | succ k =>
      rw [hj] at hfirst
      have : wordBytes a ≤ wordBytes a * (k + 1) := Nat.le_mul_of_pos_right _ (Nat.succ_pos k)
      exact hw _ (by omega) (by omega)
  refine poisoned_of_mem (p := wordOf a + wordBytes a * j) ?_ (by omega) (by rw [hword]; exact hlast)
  exact mem_foldl_markPoison _ (.inr ⟨j, List.mem_range.2 hcount, rfl⟩)

/-! ### What the records of a transfer leave -/

/-- The second state has the first one's data and its marks. -/
structure SameData (s t : State) : Prop where
  mem : t.mem = s.mem
  poison : t.poison = s.poison

theorem SameData.refl (s : State) : SameData s s := ⟨rfl, rfl⟩

theorem SameData.trans {s t u : State} (h : SameData s t) (g : SameData t u) : SameData s u :=
  ⟨g.mem.trans h.mem, g.poison.trans h.poison⟩

theorem sameData_memoryUe (master a : Nat) (s : State) : SameData s (memoryUe master a s) := by
  refine ⟨HostPort.memoryUe_mem .., ?_⟩
  have hcellar : ∀ c, (cellarUe master c s).poison = s.poison := fun c => by
    simp only [cellarUe, ueMet_frame, raise_frame, fset_frame, fbump_frame]
  unfold memoryUe
  split
  · exact hcellar _
  · split
    · simp only [atticUe, clusterUe_frame, ueMet_frame, raise_frame, fbump_frame]
    · split
      · split
        · simp only [laneDataUe, clusterUe_frame, ueMet_frame, fbump_frame]
        · simp only [laneProgramUe, clusterUe_frame, ueMet_frame, fbump_frame]
      · rfl

theorem sameData_memoryUes (master : Nat) (l : List Nat) (s : State) :
    SameData s (l.foldl (fun s p => memoryUe master p s) s) :=
  List.foldlRecOn (motive := fun t => SameData s t) _ _ (.refl s) fun _ ht _ _ => ht.trans (sameData_memoryUe ..)

/-- A window's lost slice, or a channel to be parked, is noted with the channel alone. -/
theorem transferLost_keeps (use_ : DmaUse) (s : State) : SameData s (transferLost use_ s) ∧ (transferLost use_ s).regs = s.regs := by
  unfold transferLost
  split
  · exact ⟨.refl s, rfl⟩
  · split
    · exact ⟨⟨by simp only [forcePark_frame], by simp only [forcePark_frame]⟩, by simp only [forcePark_frame]⟩
    · exact ⟨.refl s, rfl⟩
  · exact ⟨⟨by simp only [modChan_frame], by simp only [modChan_frame]⟩, by simp only [modChan_frame]⟩

theorem sameData_transferDropped (master target : Nat) (s : State) : SameData s (transferDropped master target s) :=
  ⟨by simp only [transferDropped, raiseCounting_frame], by simp only [transferDropped, raiseCounting_frame]⟩

theorem sameData_badTransfer_none (master src n : Nat) (use_ : DmaUse) (s : State) :
    SameData s (badTransfer master src none n use_ s) :=
  ((sameData_memoryUes ..).trans (sameData_transferDropped ..)).trans (transferLost_keeps ..).1

/-- The data moved with their words from the first bad one on poisoned. -/
def movedPoisoned (src d n : Nat) (s : State) : State :=
  let b := (poisonedIn s src n).headD src - src
  poisonRange (d + b) (n - b) (storeBytes d (Memory.readBytes s.mem src n) s)

theorem sameData_badTransfer_some (master src d n : Nat) (use_ : DmaUse) (s : State) :
    SameData (movedPoisoned src d n s) (badTransfer master src (some d) n use_ s) := by
  have hmet := sameData_memoryUes master (poisonedIn s src n) s
  refine .trans (t := poisonRange (d + ((poisonedIn s src n).headD src - src)) (n - ((poisonedIn s src n).headD src - src))
    (storeBytes d (Memory.readBytes ((poisonedIn s src n).foldl (fun s p => memoryUe master p s) s).mem src n)
      ((poisonedIn s src n).foldl (fun s p => memoryUe master p s) s))) ?_
    ((sameData_transferDropped ..).trans (transferLost_keeps ..).1)
  simp only [movedPoisoned, poisonRange, storeBytes, hmet.mem, hmet.poison]
  exact ⟨rfl, rfl⟩


/-! ### Data moved and refused (R16, R366) -/

section

variable {s : State} {master a d n : Nat} {u : DmaUse}

/-- What bytes written to memory read. -/
theorem read_moved (hwf : Memory.wf s.mem = true) (a d n : Nat) :
    (∀ i < n, Memory.read (Memory.writeBytes s.mem d (Memory.readBytes s.mem a n)) (d + i) = Memory.read s.mem (a + i)) ∧
    (∀ p, p < d ∨ d + n ≤ p → Memory.read (Memory.writeBytes s.mem d (Memory.readBytes s.mem a n)) p = Memory.read s.mem p) := by
  have hlen : (Memory.readBytes s.mem a n).length = n := LaneQueues.length_readBytes ..
  refine ⟨fun i hi => ?_, fun p hp => Memory.read_writeBytes_outside _ _ _ (by rwa [hlen])⟩
  rw [Memory.read_writeBytes_inside d _ (by rwa [hlen]) hwf]
  simp [Memory.readBytes]

theorem dmaRefusal_read (h : ¬ permitted s (endMaster master a u) a n false = true) :
    dmaRefusal s master a d n u = some (endMaster master a u, a, false) := if_pos (by simpa using h)

theorem dmaRefusal_write (hr : permitted s (endMaster master a u) a n false = true)
    (hw : ¬ permitted s (endMaster master d u) d n true = true) :
    dmaRefusal s master a d n u = some (endMaster master d u, d, true) :=
  (if_neg (by simpa using hr)).trans (if_pos (by simpa using hw))

theorem dmaRefusal_none (hr : permitted s (endMaster master a u) a n false = true)
    (hw : permitted s (endMaster master d u) d n true = true) : dmaRefusal s master a d n u = none :=
  (if_neg (by simpa using hr)).trans (if_neg (by simpa using hw))

theorem dmaEnds_status (master status : Nat) (s : State) : tget (dmaEnds master status s).cel.dmaEnd master 0 = status :=
  tget_tset_same ..

theorem transferRefused_keeps (u : DmaUse) (s : State) : SameData s (transferRefused u s) ∧ (transferRefused u s).regs = s.regs := by
  unfold transferRefused
  split
  · exact transferLost_keeps ..
  · exact ⟨.refl s, rfl⟩

theorem refuseDma_spec (master n : Nat) (u : DmaUse) (r : Nat × Nat × Bool) (s : State) :
    (refuseDma master n u r s).mem = s.mem ∧ (refuseDma master n u r s).regs = (recordDenial r.1 r.2.1 n r.2.2 s).regs ∧
    tget (refuseDma master n u r s).cel.dmaEnd master 0 = 1 := by
  obtain ⟨hdata, hregs⟩ := transferRefused_keeps u (recordDenial r.1 r.2.1 n r.2.2 s)
  exact ⟨hdata.mem.trans (by simp only [recordDenial_frame]), hregs, dmaEnds_status ..⟩

/-- Each end that a table refuses, for an instruction that asks the tables first. -/
theorem refused_rows {i : Instr} (hi : ∀ r, dmaRefusal s master a d n u = some r → exec i s = .next (refuseDma master n u r s)) :
    (¬ permitted s (endMaster master a u) a n false = true → leaves i s (fun t => t.mem = s.mem ∧
      t.regs = (recordDenial (endMaster master a u) a n false s).regs ∧ tget t.cel.dmaEnd master 0 = 1)) ∧
    (permitted s (endMaster master a u) a n false = true → ¬ permitted s (endMaster master d u) d n true = true →
      leaves i s (fun t => t.mem = s.mem ∧ t.regs = (recordDenial (endMaster master d u) d n true s).regs ∧
        tget t.cel.dmaEnd master 0 = 1)) :=
  ⟨fun h => ⟨_, hi _ (dmaRefusal_read h), refuseDma_spec ..⟩,
    fun hr hw => ⟨_, hi _ (dmaRefusal_write hr hw), refuseDma_spec ..⟩⟩

end

/-! ### A transfer that meets an uncorrectable word (R394) -/

section

variable {m : Fin 16} {src dst : BitVec 36} {len bad : BitVec 24} {u : DmaUse} {s : State}

/-- The state with the bad word of a source marked. -/
def sourceMarked (a : Nat) (s : State) : State := { s with poison := markPoison s.poison (wordOf a) }

theorem transferUe_idle {e : Option (BitVec 36)} (h : len.toNat ≤ bad.toNat ∨
    cellarWaits s src.toNat ((e.map (fun d => d.toNat)).getD 0) = true) : exec (.transferUe m src ⟨e, u⟩ len bad) s = .next s :=
  congrArg Host.Outcome.next (if_pos h)

theorem not_idle {b n : Nat} {w : Bool} (hb : b < n) (hw : w = false) : ¬ (n ≤ b ∨ w = true) := by
  rintro (h | h)
  · omega
  · rw [hw] at h
    cases h

section

variable (hb : bad.toNat < len.toNat)
include hb

theorem transferUe_read (hw : cellarWaits s src.toNat 0 = false) (hp : permitted s m src.toNat len.toNat false = true) :
    exec (.transferUe m src ⟨none, u⟩ len bad) s =
      .next (badTransfer m src.toNat none len.toNat u (sourceMarked (src.toNat + bad.toNat) s)) :=
  congrArg Host.Outcome.next ((if_neg (not_idle hb hw)).trans (if_pos hp))

theorem transferUe_read_refused (hw : cellarWaits s src.toNat 0 = false)
    (hp : permitted s m src.toNat len.toNat false = false) : exec (.transferUe m src ⟨none, u⟩ len bad) s =
      .next (transferLost u (recordDenial m src.toNat len.toNat false s)) :=
  congrArg Host.Outcome.next ((if_neg (not_idle hb hw)).trans (if_neg (by rw [hp]; decide)))

theorem transferUe_other (hw : cellarWaits s src.toNat dst.toNat = false)
    (hm : dmaMoves src.toNat dst.toNat len.toNat u = false) : exec (.transferUe m src ⟨some dst, u⟩ len bad) s = .next s :=
  congrArg Host.Outcome.next ((if_neg (not_idle hb hw)).trans (if_pos (by rw [hm]; rfl)))

theorem transferUe_refused (hw : cellarWaits s src.toNat dst.toNat = false)
    (hm : dmaMoves src.toNat dst.toNat len.toNat u = true) (r : Nat × Nat × Bool)
    (hr : dmaRefusal s m src.toNat dst.toNat len.toNat u = some r) :
    exec (.transferUe m src ⟨some dst, u⟩ len bad) s = .next (refuseDma m len.toNat u r s) := by
  refine congrArg Host.Outcome.next ((if_neg (not_idle hb hw)).trans ((if_neg (by rw [hm]; decide)).trans ?_))
  dsimp only
  rw [hr]

theorem transferUe_moved (hw : cellarWaits s src.toNat dst.toNat = false)
    (hm : dmaMoves src.toNat dst.toNat len.toNat u = true) (hr : dmaRefusal s m src.toNat dst.toNat len.toNat u = none) :
    exec (.transferUe m src ⟨some dst, u⟩ len bad) s = .next (dmaServed m 8
      (badTransfer (endMaster m src.toNat u) src.toNat (some dst.toNat) len.toNat u (sourceMarked (src.toNat + bad.toNat) s))) := by
  refine congrArg Host.Outcome.next ((if_neg (not_idle hb hw)).trans ((if_neg (by rw [hm]; decide)).trans ?_))
  dsimp only
  rw [hr]
  rfl

end

/-- The one bad word of a source that was sound. -/
theorem poisonedIn_sourceMarked {a n b : Nat} (hb : b < n) (hs : poisoned s a n = false) :
    poisonedIn (sourceMarked (a + b) s) a n = [wordOf (a + b)] := by
  have hnil : s.poison.filter (fun p => decide (p < a + n) && decide (a < p + wordBytes p)) = [] := by
    rw [poisoned, Bool.not_eq_false', List.isEmpty_iff] at hs
    exact hs
  refine filter_markPoison hnil ?_
  have hle := wordOf_le (a + b)
  have hlt := lt_wordOf_add (a + b)
  rw [wordBytes_wordOf, Bool.and_eq_true, decide_eq_true_eq, decide_eq_true_eq]
  omega

/-- The bytes before the bad word move, those from it on are poisoned. -/
theorem movedPoisoned_spec {a d n b : Nat} (hwf : Memory.wf s.mem = true) (hb : b < n) (hs : poisoned s a n = false)
    (hd : ∀ i < n, wordBytes (d + i) = wordBytes d) :
    let t := movedPoisoned a d n (sourceMarked (a + b) s)
    let k := wordOf (a + b) - a
    (∀ i < k, Memory.read t.mem (d + i) = Memory.read s.mem (a + i)) ∧
    (∀ i, k ≤ i → i < n → poisoned t (d + i) 1 = true) ∧
    (∀ p, p < d ∨ d + n ≤ p → Memory.read t.mem p = Memory.read s.mem p) := by
  intro t k
  have hk : k < n := by
    have := wordOf_le (a + b)
    omega
  obtain ⟨hin, hout⟩ := read_moved hwf a d n
  have ht : t = poisonRange (d + k) (n - k) (storeBytes d (Memory.readBytes s.mem a n) (sourceMarked (a + b) s)) := by
    simp only [t, movedPoisoned, poisonedIn_sourceMarked hb hs]
    rfl
  refine ⟨fun i hi => hin i (by omega), fun i hki hi => ?_, hout⟩
  rw [ht]
  refine poisoned_poisonRange _ (by omega) (by omega) fun y h1 h2 => ?_
  rw [hd k hk, show y = d + (y - d) by omega]
  exact hd _ (by omega)

end

/-! ### A transfer that ends (R16, R40) -/

section

variable {m : Fin 16} {src dst : BitVec 36} {len : BitVec 24} {u : DmaUse} {fixed : Nat} {s : State}

/-- A transfer that the engines make, at a time when they make it. -/
theorem cellarDmaDone_made (hm : len.toNat = 0 ∨ dmaMoves src.toNat dst.toNat len.toNat u = true)
    (hw : cellarWaits s src.toNat dst.toNat = false) :
    ¬ ((len.toNat != 0 && !dmaMoves src.toNat dst.toNat len.toNat u) || cellarWaits s src.toNat dst.toNat) = true := by
  rw [hw, Bool.or_false]
  obtain h | h := hm
  · simp [h]
  · simp [h]

theorem cellarDmaDone_idle (h : (len.toNat ≠ 0 ∧ dmaMoves src.toNat dst.toNat len.toNat u = false) ∨
    cellarWaits s src.toNat dst.toNat = true) : exec (.cellarDmaDone m src dst len ⟨u, fixed⟩) s = .next s := by
  refine congrArg Host.Outcome.next (if_pos ?_)
  obtain ⟨hn, hm⟩ | hw := h
  · simp [hn, hm]
  · simp [hw]

theorem cellarDmaDone_refused (hm : len.toNat = 0 ∨ dmaMoves src.toNat dst.toNat len.toNat u = true)
    (hw : cellarWaits s src.toNat dst.toNat = false) (r : Nat × Nat × Bool)
    (hr : dmaRefusal s m src.toNat dst.toNat len.toNat u = some r) :
    exec (.cellarDmaDone m src dst len ⟨u, fixed⟩) s = .next (refuseDma m len.toNat u r s) := by
  refine congrArg Host.Outcome.next ((if_neg (cellarDmaDone_made hm hw)).trans ?_)
  rw [hr]

/-- The data moved, its corrected words counted, the context's copy marked. -/
def dmaMoved (a d n fixed : Nat) (u : DmaUse) (s : State) : State :=
  contextCopied u (storeBytes d (Memory.readBytes s.mem a n) (wordsFixed a (min fixed n) s))

theorem cellarDmaDone_moved (hm : len.toNat = 0 ∨ dmaMoves src.toNat dst.toNat len.toNat u = true)
    (hw : cellarWaits s src.toNat dst.toNat = false) (hr : dmaRefusal s m src.toNat dst.toNat len.toNat u = none) :
    exec (.cellarDmaDone m src dst len ⟨u, fixed⟩) s = .next (if meetsUe s src.toNat len.toNat then
      dmaServed m 8 (badTransfer (endMaster m src.toNat u) src.toNat (some dst.toNat) len.toNat u s)
      else dmaServed m 0 (dmaMoved src.toNat dst.toNat len.toNat fixed u s)) := by
  refine congrArg Host.Outcome.next ((if_neg (cellarDmaDone_made hm hw)).trans ?_)
  rw [hr]
  rfl

theorem wordsFixed_keeps (a n : Nat) (s : State) : (wordsFixed a n s).mem = s.mem ∧ (wordsFixed a n s).chans = s.chans := by
  unfold wordsFixed
  dsimp only
  repeat' split
  all_goals simp only [raiseCountingBy_frame, fbump_frame, and_self]

theorem wordsFixed_zero (a : Nat) (s : State) : wordsFixed a 0 s = s := by
  unfold wordsFixed
  exact if_pos rfl

theorem contextCopied_keeps (u : DmaUse) (s : State) : (contextCopied u s).mem = s.mem ∧ (contextCopied u s).regs = s.regs := by
  unfold contextCopied
  split
  · simp only [modChan_frame, and_self]
  · exact ⟨rfl, rfl⟩

theorem dmaMoved_mem (a d n fixed : Nat) (u : DmaUse) (s : State) :
    (dmaMoved a d n fixed u s).mem = Memory.writeBytes s.mem d (Memory.readBytes s.mem a n) := by
  rw [dmaMoved, (contextCopied_keeps ..).1, storeBytes, (wordsFixed_keeps ..).1]

/-- Nothing corrected, no register changes. -/
theorem dmaMoved_regs (a d n : Nat) (u : DmaUse) (s : State) : (dmaMoved a d n 0 u s).regs = s.regs := by
  rw [dmaMoved, (contextCopied_keeps ..).2, Nat.zero_min, wordsFixed_zero, storeBytes]

/-- The copy of the context of a channel in its final tick on its source lane. -/
theorem dmaMoved_context {a d n fixed : Nat} {k : BitVec 13} {c : Channel} {mv : Move} (hc : tget? s.chans k.toNat = some c)
    (hmv : c.move = some mv) (hphase : mv.phase = 1) :
    (chanAt (dmaMoved a d n fixed (.context k) s) k.toNat).move = some { mv with copied := true } := by
  have hchans : (storeBytes d (Memory.readBytes s.mem a n) (wordsFixed a (min fixed n) s)).chans = s.chans := (wordsFixed_keeps ..).2
  rw [dmaMoved, contextCopied, modChan, hchans, hc]
  dsimp only
  rw [chanAt, tget_tset_same, hmv, Option.map_some, if_pos hphase]

end

/-- Settles O46: a refused transfer leaves memory and tells the refusal; a moved one writes its bytes alone, marked from its first
bad word on. -/
theorem transfersMoveOrPoison : Obligations.TransfersMoveOrPoison := by
  intro m src dst len bad u s hwf a d n b m1 m2 reads writes ended denied
  have hmoved := read_moved hwf a d n
  refine ⟨fun hn e => transferUe_idle (.inl hn), fun hw => ⟨transferUe_idle (.inr hw), fun fixed => cellarDmaDone_idle (.inr hw)⟩,
    fun hw => transferUe_idle (.inr hw), fun hb hw => ⟨fun hp => ?_, fun hp => ?_⟩, fun hb hw => ⟨fun hm => ?_, fun hm => ?_,
      fun hm hr hwr hs hd => ?_⟩, fun fixed => ⟨fun hm => ?_, fun hm hw => ?_, fun hm hw hr hwr => ⟨fun hue => ?_, fun hue => ?_⟩⟩⟩
  · have hdata := sameData_badTransfer_none m a n u (sourceMarked (a + b) s)
    exact ⟨_, transferUe_read hb hw hp, hdata.mem, poisoned_wordOf (hdata.poison ▸ mem_markPoison.2 (.inl rfl))⟩
  · obtain ⟨hdata, hregs⟩ := transferLost_keeps u (recordDenial m a n false s)
    exact ⟨_, transferUe_read_refused hb hw hp, hdata.mem.trans (by simp only [recordDenial_frame]),
      hdata.poison.trans (by simp only [recordDenial_frame]), hregs⟩
  · exact transferUe_other hb hw hm
  · exact refused_rows (transferUe_refused hb hw hm)
  · have hdata := sameData_badTransfer_some m1 a d n u (sourceMarked (a + b) s)
    obtain ⟨hmove, hbad, hrest⟩ := movedPoisoned_spec hwf hb hs hd
    refine ⟨_, transferUe_moved hb hw hm (dmaRefusal_none hr hwr), fun i hi => ?_, fun i hk hi => ?_, fun p hp => ?_,
      dmaEnds_status ..⟩
    · exact (congrArg (Memory.read · (d + i)) hdata.mem).trans (hmove i hi)
    · have hpoison := hbad i hk hi
      rw [poisoned, poisonedIn, ← hdata.poison] at hpoison
      exact hpoison
    · exact (congrArg (Memory.read · p) hdata.mem).trans (hrest p hp)
  · obtain ⟨hn, hm⟩ := not_or.1 hm
    exact cellarDmaDone_idle (.inl ⟨hn, Bool.not_eq_true _ ▸ hm⟩)
  · exact refused_rows (cellarDmaDone_refused hm hw)
  · have hdata := sameData_badTransfer_some m1 a d n u s
    refine ⟨_, (cellarDmaDone_moved hm hw (dmaRefusal_none hr hwr)).trans (congrArg _ (if_pos hue)), dmaEnds_status .., fun p hp => ?_⟩
    exact (congrArg (Memory.read · p) hdata.mem).trans (hmoved.2 p hp)
  · have hmem := dmaMoved_mem a d n fixed u s
    refine ⟨_, (cellarDmaDone_moved hm hw (dmaRefusal_none hr hwr)).trans (congrArg _ (if_neg (by rw [hue]; decide))),
      dmaEnds_status .., fun i hi => ?_, fun p hp => ?_, fun hz => ?_, fun k c mv hu hc hmv hphase => ?_⟩
    · exact (congrArg (Memory.read · (d + i)) hmem).trans (hmoved.1 i hi)
    · exact (congrArg (Memory.read · p) hmem).trans (hmoved.2 p hp)
    · subst hz
      exact dmaMoved_regs a d n u s
    · subst hu
      exact dmaMoved_context hc hmv hphase

end Sys2Proof.Proofs.Transfers
end

section
/-! PROOF. The stay links: what a frame meets before it is taken, cuts, HELLOs and retransmission (R415, R417, R418). -/

namespace Sys2Proof.Proofs.StayLinks

open Sys2Proof Sys2Proof.Machine Sys2Proof.Spec Sys2Proof.Proofs.RegisterFields Sys2Proof.Proofs.IslandCommands
  Sys2Proof.Proofs.BootStages

/-! ### Cuts (R418) -/

section

variable {p : Fin 2} {cause : Nat} {s u : State}

/-- A port's stay register is none of the counters of events. -/
theorem stay_notMem {r : RegId} (p : Fin 2) (h1 : r.place.n1 = 2) (h2 : r.place.n2 = 1) (hc : r ≠ .ERR_CLASS)
    (he : r ≠ .ERR_PENDING) : r.addr p ∉ eventCounters := by
  refine notMem_eventCounters ?_ ?_ hc he
  · rw [h1]
    exact p.isLt
  · rw [h2]
    exact Nat.one_pos

/-- The count and the cause of a cut. -/
def cutNoted (p cause : Nat) (s : State) : State := fset .STY_CUT_last_cause cause (fbump .STY_CUT_cuts 1 s p) p

theorem cutNoted_fields (p cause : Nat) (s : State) : counted s (cutNoted p cause s) .STY_CUT_cuts p ∧
    fget (cutNoted p cause s) .STY_CUT_last_cause p = cause % 2 ^ 8 := by
  constructor
  · rw [counted, cutNoted, fget_fset_beside _ .STY_CUT_last_cause .STY_CUT_cuts _ _ _ rfl (by decide) (by decide) (by decide) (by decide)]
    exact counted_fbump s .STY_CUT_cuts p (by decide) (by decide)
  · exact fget_fset_same _ .STY_CUT_last_cause _ _ _ (by decide) (by decide)

theorem counted_of_regs {r : State} {f : Fld} {i : Nat} (hr : r.regs = s.regs) (h : counted r u f i) : counted s u f i := by
  rw [counted, ← fget_congr hr]
  exact h

/-- A port whose link is cut. -/
def portCut (p : Nat) (s : State) : State := putStay p { (stayAt s p).cleared with cut := true } s

/-- What still comes twice of a port's path, gone. -/
def twinsGone (p : Nat) (s : State) : State := { s with pair := { s.pair with twins := s.pair.twins.filter (fun t => t.1 != p) } }

theorem cutPort_eq (p cause : Nat) (s : State) :
    cutPort p cause s = raise 210 [(1, p), (1, cause - 1)] (twinsGone p (cutNoted p cause (portCut p s))) := rfl

theorem twinsGone_regs (p : Nat) (s : State) : (twinsGone p s).regs = s.regs := rfl

theorem portCut_regs (p : Nat) (s : State) : (portCut p s).regs = s.regs := rfl

theorem cutPort_fields (p : Fin 2) (cause : Nat) (s : State) : counted s (cutPort p cause s) .STY_CUT_cuts p ∧
    fget (cutPort p cause s) .STY_CUT_last_cause p = cause % 2 ^ 8 := by
  obtain ⟨hcuts, hcause⟩ := cutNoted_fields p cause (portCut p s)
  have honly : OnlyAt eventCounters (cutNoted p cause (portCut p s)) (cutPort p cause s) := by
    rw [cutPort_eq]
    exact .then (.of_regs (twinsGone_regs ..)) (onlyAt_raise ..)
  have hnot : RegId.addr .STY_CUT p ∉ eventCounters := stay_notMem p rfl rfl (by decide) (by decide)
  exact ⟨counted_of_regs (portCut_regs ..) (counted_after hcuts honly hnot), (honly.fget hnot).trans hcause⟩

/-- What a cut for a cause leaves of a port. -/
structure CutFor (p : Fin 2) (cause : Nat) (s t : State) : Prop where
  cut : (stayAt t p).cut = true
  unacked : (stayAt t p).unacked = []
  waiting : (stayAt t p).waiting = []
  hello : (stayAt t p).hello = 0
  cuts : counted s t .STY_CUT_cuts p
  told : fget t .STY_CUT_last_cause p = cause

/-- A cut after what leaves the port's count of cuts. -/
theorem cutFor_cutPort (hu : OnlyAt eventCounters s u) (hc : cause < 2 ^ 8) : CutFor p cause s (cutPort p cause u) := by
  have hport := (cutPort_spec p cause u).1
  obtain ⟨hcuts, htold⟩ := cutPort_fields p cause u
  refine ⟨?_, ?_, ?_, ?_, counted_before hu (stay_notMem p rfl rfl (by decide) (by decide)) hcuts, htold.trans (Nat.mod_eq_of_lt hc)⟩
  · rw [hport]
  · rw [hport]
    rfl
  · rw [hport]
    rfl
  · rw [hport]
    rfl

end

/-! ### What a frame meets (R417) -/

section

variable {p : Fin 2} {f : StayIn} {s : State}

theorem stayRows_exec {c : CopyIn} {k : CheckIn} {l : List CopyItem} {r : Fin 2 → StayIn → Instr} (h : r ∈ stayRows c k l)
    (p : Fin 2) (f : StayIn) (s : State) :
    ∃ type w body, exec (r p f) s = .next (receiveSays p type f w body s) := by
  simp only [stayRows, List.mem_cons, List.not_mem_nil, or_false] at h
  obtain rfl | rfl | rfl | rfl | rfl | rfl | rfl | rfl | rfl | rfl := h
  all_goals exact ⟨_, _, _, rfl⟩

theorem receiveSays_refused {type : Nat} {w : StaySays} {body : State → State} {t : State} (h : linkTake p f s = (t, false)) :
    receiveSays p type f w body s = t := by
  rw [receiveSays, h]
  rfl

theorem linkTake_down (h : (stayAt s p).link = false ∨ (stayAt s p).cut = true) : linkTake p f s = (s, false) := by
  refine if_pos ?_
  obtain h | h := h
  · rw [h]
    rfl
  · rw [h, Bool.or_true]

section

variable (hl : (stayAt s p).link = true) (hc : (stayAt s p).cut = false)
include hl hc

theorem link_up : ¬ (!(stayAt s p).link || (stayAt s p).cut) = true := by
  rw [hl, hc]
  decide

theorem linkTake_crc (h : f.crcOk = false) : linkTake p f s = (fbump .STY_ERR_crc_errors 1 s p, false) :=
  (if_neg (link_up hl hc)).trans (if_pos (by rw [h]; rfl))

variable (hok : f.crcOk = true)
include hok

theorem linkTake_type (h : 10 ≤ f.type.toNat) : linkTake p f s = (cutPort p 1 s, false) :=
  (if_neg (link_up hl hc)).trans ((if_neg (by rw [hok]; decide)).trans (if_pos h))

theorem linkTake_length (ht : f.type.toNat < 10) (h : f.length.toNat ≠ f.data.length) : linkTake p f s = (cutPort p 2 s, false) :=
  (if_neg (link_up hl hc)).trans ((if_neg (by rw [hok]; decide)).trans ((if_neg (by omega)).trans (if_pos h)))

theorem linkTake_sequence (hlen : f.length.toNat = f.data.length) (hq : staySequenced f.type.toNat = true)
    (h : f.seq ≠ (stayAt s p).rxNext) : linkTake p f s = (s, false) := by
  have ht : f.type.toNat < 10 := by
    rw [staySequenced, decide_eq_true_eq] at hq
    omega
  exact (if_neg (link_up hl hc)).trans ((if_neg (by rw [hok]; decide)).trans ((if_neg (by omega)).trans
    ((if_neg (not_not_intro hlen)).trans (if_pos ⟨hq, h⟩))))

end

end

/-! ### Links, HELLOs and retransmission (R415, R417 to R419) -/

section

variable {p : Fin 2} {s : State}

theorem stayAt_raise (src : Nat) (l : List (Nat × Nat)) (u : State) (k : Nat) : stayAt (raise src l u) k = stayAt u k :=
  stayAt_congr (by simp only [raise_frame]) k

theorem stayLinkUp_row (hen : fget s .STY_CTRL_enable p = 1) (hl : (stayAt s p).link = false) (hc : (stayAt s p).cut = false) :
    leaves (.stayLinkUp p) s (fun t => stayAt t p = { (stayAt s p).cleared with link := true }) := by
  refine ⟨_, congrArg Host.Outcome.next (if_pos ?_), ?_⟩
  · rw [fbit, hen, hl, hc]
    rfl
  · exact (stayAt_raise ..).trans (stayAt_putStay ..)

theorem stayLinkUp_idle (h : fget s .STY_CTRL_enable p = 0 ∨ (stayAt s p).link = true ∨ (stayAt s p).cut = true) :
    exec (.stayLinkUp p) s = .next s := by
  refine congrArg Host.Outcome.next (if_neg ?_)
  rw [Bool.and_eq_true, Bool.and_eq_true, fbit]
  rintro ⟨⟨h1, h2⟩, h3⟩
  obtain h | h | h := h
  · rw [h] at h1
    exact absurd h1 (by decide)
  · rw [h] at h2
    exact absurd h2 (by decide)
  · rw [h] at h3
    exact absurd h3 (by decide)

theorem stayLinkDown_row (hl : (stayAt s p).link = true) :
    leaves (.stayLinkDown p) s (fun t => (stayAt t p).link = false ∧ CutFor p 5 s t) := by
  refine ⟨_, congrArg Host.Outcome.next (if_pos hl), ?_, cutFor_cutPort ?_ (by decide)⟩
  · rw [(cutPort_spec ..).1, stayAt_raise, stayAt_putStay]
    rfl
  · exact .then (t := putStay p { stayAt s p with link := false } s) (.of_regs rfl) (onlyAt_raise ..)

theorem stayCutEnd_row (hc : (stayAt s p).cut = true) : leaves (.stayCutEnd p) s (fun t =>
    stayAt t p = { (stayAt s p).cleared with cut := false, link := false } ∧ t.regs = s.regs) :=
  ⟨_, congrArg Host.Outcome.next (if_pos hc), stayAt_putStay .., rfl⟩

/-- A frame that goes out at once. -/
theorem stayGive_sent {k : Nat} {g : StayFrame} (hl : (stayAt s k).link = true) (hc : (stayAt s k).cut = false)
    (hroom : (staySequenced g.type && stayFull (stayAt s k) g.data.length) = false) :
    stayGive k g s = { putStay k ((stayAt s k).sending g) s with
      regs := (fbump .STY_FRAMES_tx_frames 1 (putStay k ((stayAt s k).sending g) s) k).regs } := by
  have hup : ¬ (!(stayAt s k).link || (stayAt s k).cut) = true := by
    rw [hl, hc]
    decide
  rw [stayGive, if_neg hup, hroom]
  rfl

theorem helloSend_row (hl : (stayAt s p).link = true) (hc : (stayAt s p).cut = false) (hd : (stayAt s p).helloDone = false) :
    leaves (.helloSend p) s (fun t => counted s t .STY_FRAMES_tx_frames p ∧
      ∃ f, stayAt t p = { stayAt s p with out := (stayAt s p).out ++ [f] } ∧ f.type = 1 ∧ f.data = helloData s) := by
  have hgo : ((stayAt s p).link && !(stayAt s p).cut && !(stayAt s p).helloDone) = true := by
    rw [hl, hc, hd]
    rfl
  refine ⟨_, congrArg Host.Outcome.next ((if_pos hgo).trans (stayGive_sent hl hc rfl)), ?_, _, stayAt_putStay .., rfl, rfl⟩
  exact counted_of_regs (r := putStay p _ s) rfl (counted_fbump (putStay p _ s) .STY_FRAMES_tx_frames p (by decide) (by decide))

theorem helloSend_idle (h : (stayAt s p).link = false ∨ (stayAt s p).cut = true ∨ (stayAt s p).helloDone = true) :
    exec (.helloSend p) s = .next s := by
  refine congrArg Host.Outcome.next (if_neg ?_)
  obtain h | h | h := h
  · simp [h]
  · simp [h]
  · simp [h]

theorem stayRetransmit_idle (h : (stayAt s p).link = false ∨ (stayAt s p).cut = true ∨ (stayAt s p).unacked = []) :
    exec (.stayRetransmit p) s = .next s := by
  refine congrArg Host.Outcome.next (if_pos ?_)
  obtain h | h | h := h
  · simp [h]
  · simp [h]
  · simp [h]

/-- The port with its unacknowledged frames sent once more. -/
def sentAgain (x : StayPort) : StayPort :=
  { x with
    unacked := x.unacked.map (fun f => (f.1, f.2 + 1))
    out := x.out ++ x.unacked.map (fun f => { f.1 with ack := x.rxNext }) }

section

variable (hl : (stayAt s p).link = true) (hc : (stayAt s p).cut = false) (hu : (stayAt s p).unacked ≠ [])
include hl hc hu

theorem retransmits : ¬ (!(stayAt s p).link || (stayAt s p).cut || (stayAt s p).unacked.isEmpty) = true := by
  rw [hl, hc, List.isEmpty_eq_false_iff.2 hu]
  decide

theorem stayRetransmit_again (h : ∀ f ∈ (stayAt s p).unacked, f.2 < 16) : leaves (.stayRetransmit p) s (fun t =>
    counted s t .STY_ERR_retransmits p ∧ stayAt t p = sentAgain (stayAt s p)) := by
  have hfew : ¬ (stayAt s p).unacked.any (fun f => decide (16 ≤ f.2)) = true := by
    rw [List.any_eq_true]
    rintro ⟨f, hf, h16⟩
    exact absurd (h f hf) (by simpa using h16)
  refine ⟨_, congrArg Host.Outcome.next ((if_neg (retransmits hl hc hu)).trans (if_neg hfew)), ?_, ?_⟩
  · refine counted_after (t := fbump .STY_ERR_retransmits 1 (putStay p (sentAgain (stayAt s p)) s) p) ?_
      (onlyAt_fbump .STY_FRAMES_tx_frames _ _ p 0 (List.mem_singleton_self _)) ?_
    · exact counted_of_regs (r := putStay p (sentAgain (stayAt s p)) s) rfl
        (counted_fbump (putStay p (sentAgain (stayAt s p)) s) .STY_ERR_retransmits p (by decide) (by decide))
    · exact fun h => RegisterPlaces.addr_ne (r := .STY_ERR) (r' := .STY_FRAMES) (by decide) p.isLt (by decide) p.isLt (by decide)
        (List.mem_singleton.1 h)
  · exact stayAt_putStay ..

theorem stayRetransmit_cut (h : ∃ f ∈ (stayAt s p).unacked, 16 ≤ f.2) :
    leaves (.stayRetransmit p) s (fun t => CutFor p 4 s t) := by
  have hmany : (stayAt s p).unacked.any (fun f => decide (16 ≤ f.2)) = true := by
    obtain ⟨f, hf, h16⟩ := h
    exact List.any_eq_true.2 ⟨f, hf, decide_eq_true h16⟩
  exact ⟨_, congrArg Host.Outcome.next ((if_neg (retransmits hl hc hu)).trans (if_pos hmany)),
    cutFor_cutPort (onlyAt_raise ..) (by decide)⟩

end

end

/-- Settles O48: what the link refuses of a frame, and what its own rows do. -/
theorem stayLinksCheckTheirFrames : Obligations.StayLinksCheckTheirFrames := by
  intro p s x cutWith
  have hcut : ∀ {cause t}, CutFor p cause s t → cutWith cause t := fun h =>
    ⟨h.cut, h.unacked, h.waiting, h.hello, h.cuts, h.told⟩
  refine ⟨fun c k l r hr f => ?_, stayLinkUp_row, stayLinkUp_idle, fun hl => ?_, fun hl => ?_, stayCutEnd_row, fun hc => ?_,
    helloSend_row, helloSend_idle, stayRetransmit_idle, fun hl hc hu => ⟨stayRetransmit_again hl hc hu, fun h => ?_⟩⟩
  · obtain ⟨type, w, body, hexec⟩ := stayRows_exec hr p f s
    have hrefused : ∀ {t}, linkTake p f s = (t, false) → exec (r p f) s = .next t := fun h =>
      hexec.trans (congrArg _ (receiveSays_refused h))
    refine ⟨fun h => hrefused (linkTake_down h), fun hl hc => ⟨fun hbad => ?_, fun hok => ⟨fun ht => ?_, fun ht hlen => ?_,
      fun hlen hq hseq => hrefused (linkTake_sequence hl hc hok hlen hq hseq)⟩⟩⟩
    · exact ⟨_, hrefused (linkTake_crc hl hc hbad), counted_fbump s .STY_ERR_crc_errors p (by decide) (by decide), rfl, rfl⟩
    · exact ⟨_, hrefused (linkTake_type hl hc hok ht), hcut (cutFor_cutPort (onlyAt_refl ..) (by decide))⟩
    · exact ⟨_, hrefused (linkTake_length hl hc hok ht hlen), hcut (cutFor_cutPort (onlyAt_refl ..) (by decide))⟩
  · obtain ⟨t, ht, hdown, h⟩ := stayLinkDown_row hl
    exact ⟨t, ht, hdown, hcut h⟩
  · exact congrArg Host.Outcome.next (if_neg fun h => absurd (h.symm.trans hl) (by decide))
  · exact congrArg Host.Outcome.next (if_neg fun h => absurd (h.symm.trans hc) (by decide))
  · obtain ⟨t, ht, hfor⟩ := stayRetransmit_cut hl hc hu h
    exact ⟨t, ht, hcut hfor⟩

end Sys2Proof.Proofs.StayLinks
end

section
/-! PROOF. Frames that a stay link takes: what the link does with them, before and after the pair (R413, R414, R417, R419). -/

namespace Sys2Proof.Proofs.StayTaking

open Sys2Proof Sys2Proof.Machine Sys2Proof.Spec Sys2Proof.Proofs.RegisterFields Sys2Proof.Proofs.BootStages
  Sys2Proof.Proofs.StayLinks

/-! ### What sending leaves (R417) -/

/-- The second state has sent on a port: other frames on it, its count of frames, and nothing else is different. -/
structure Sends (p : Nat) (s u : State) : Prop where
  state : ∃ r y, u = { s with regs := r, stay := y }
  words : OnlyAt [RegId.addr .STY_FRAMES p] s u
  link : (stayAt u p).link = (stayAt s p).link
  cut : (stayAt u p).cut = (stayAt s p).cut
  hello : (stayAt u p).hello = (stayAt s p).hello
  helloDone : (stayAt u p).helloDone = (stayAt s p).helloDone

section

variable {p : Nat} {s t u : State}

theorem Sends.refl (p : Nat) (s : State) : Sends p s s := ⟨⟨s.regs, s.stay, rfl⟩, onlyAt_refl .., rfl, rfl, rfl, rfl⟩

theorem Sends.trans (h : Sends p s t) (g : Sends p t u) : Sends p s u := by
  obtain ⟨⟨r, y, rfl⟩, hw, hl, hc, hh, hd⟩ := h
  obtain ⟨⟨r', y', rfl⟩, gw, gl, gc, gh, gd⟩ := g
  exact ⟨⟨r', y', rfl⟩, hw.then gw, gl.trans hl, gc.trans hc, gh.trans hh, gd.trans hd⟩

/-- A part of the state other than registers and stay ports. -/
theorem Sends.part {α : Type} (h : Sends p s u) (part : State → α)
    (hp : ∀ r y, part { s with regs := r, stay := y } = part s) : part u = part s := by
  obtain ⟨r, y, hu⟩ := h.state
  rw [hu, hp]

theorem Sends.pair (h : Sends p s u) : u.pair = s.pair := h.part (·.pair) fun _ _ => rfl

theorem Sends.mem (h : Sends p s u) : u.mem = s.mem := h.part (·.mem) fun _ _ => rfl

theorem Sends.time (h : Sends p s u) : u.time = s.time := h.part (·.time) fun _ _ => rfl

theorem Sends.tick (h : Sends p s u) : tickNow u = tickNow s := congrArg (fun t : Time => t.tick.toNat) h.time

/-- A stay port replaced by one of the same line. -/
theorem sends_putStay {x : StayPort} (hl : x.link = (stayAt s p).link) (hc : x.cut = (stayAt s p).cut)
    (hh : x.hello = (stayAt s p).hello) (hd : x.helloDone = (stayAt s p).helloDone) : Sends p s (putStay p x s) := by
  refine ⟨⟨s.regs, _, rfl⟩, .of_regs rfl, ?_, ?_, ?_, ?_⟩
  · rw [stayAt_putStay, hl]
  · rw [stayAt_putStay, hc]
  · rw [stayAt_putStay, hh]
  · rw [stayAt_putStay, hd]

theorem sends_fbump (f : Fld) (n : Nat) (hf : f.reg = .STY_FRAMES) (s : State) : Sends p s (fbump f n s p) := by
  refine ⟨⟨_, s.stay, rfl⟩, onlyAt_fbump f n s p 0 ?_, rfl, rfl, rfl, rfl⟩
  rw [hf]
  exact List.mem_singleton_self _

theorem sending_line (x : StayPort) (f : StayFrame) : (x.sending f).link = x.link ∧ (x.sending f).cut = x.cut ∧
    (x.sending f).hello = x.hello ∧ (x.sending f).helloDone = x.helloDone := by
  unfold StayPort.sending
  dsimp only
  split
  · exact ⟨rfl, rfl, rfl, rfl⟩
  · exact ⟨rfl, rfl, rfl, rfl⟩

/-- A frame given to a port: nothing, held back, or sent and counted. -/
theorem stayGive_cases (p : Nat) (f : StayFrame) (s : State) :
    (((stayAt s p).link = false ∨ (stayAt s p).cut = true) ∧ stayGive p f s = s) ∨
    stayGive p f s = putStay p { stayAt s p with waiting := (stayAt s p).waiting ++ [f] } s ∨
    stayGive p f s = fbump .STY_FRAMES_tx_frames 1 (putStay p ((stayAt s p).sending f) s) p := by
  unfold stayGive
  dsimp only
  split
  · next h =>
    refine .inl ⟨?_, rfl⟩
    rwa [Bool.or_eq_true, Bool.not_eq_true'] at h
  · refine .inr ?_
    split
    · exact .inl rfl
    · exact .inr rfl

theorem sends_stayGive (p : Nat) (f : StayFrame) (s : State) : Sends p s (stayGive p f s) := by
  obtain ⟨-, h⟩ | h | h := stayGive_cases p f s
  · rw [h]
    exact .refl p s
  · rw [h]
    exact sends_putStay rfl rfl rfl rfl
  · rw [h]
    obtain ⟨hl, hc, hh, hd⟩ := sending_line (stayAt s p) f
    exact (sends_putStay hl hc hh hd).trans (sends_fbump _ _ rfl _)

/-- The count of frames received stands beside that of frames sent. -/
theorem stayGive_received (p : Nat) (f : StayFrame) (s : State) :
    fget (stayGive p f s) .STY_FRAMES_rx_frames p = fget s .STY_FRAMES_rx_frames p := by
  obtain ⟨-, h⟩ | h | h := stayGive_cases p f s
  · rw [h]
  · rw [h]
    exact fget_congr rfl ..
  · rw [h, fget_fbump_beside _ .STY_FRAMES_tx_frames .STY_FRAMES_rx_frames _ _ _ rfl (by decide) (by decide) (by decide) (by decide)]
    exact fget_congr rfl ..

theorem sends_stayFlow (p : Nat) (s : State) : Sends p s (stayFlow p s) ∧
    fget (stayFlow p s) .STY_FRAMES_rx_frames p = fget s .STY_FRAMES_rx_frames p := by
  have hput : Sends p s (putStay p { stayAt s p with waiting := [] } s) := sends_putStay rfl rfl rfl rfl
  unfold stayFlow
  exact List.foldlRecOn
    (motive := fun t => Sends p s t ∧ fget t .STY_FRAMES_rx_frames p = fget s .STY_FRAMES_rx_frames p) _ _
    ⟨hput, fget_congr rfl ..⟩
    fun t ht f _ => ⟨ht.1.trans (sends_stayGive ..), (stayGive_received ..).trans ht.2⟩

theorem sends_staySendTo (p type pos : Nat) (data : Bytes) (s : State) : Sends p s (staySendTo p type pos data s) :=
  sends_stayGive ..

/-- With nothing held back, nothing goes on. -/
theorem stayFlow_nothing (h : (stayAt s p).waiting = []) : stayAt (stayFlow p s) p = stayAt s p := by
  rw [stayFlow, h, List.foldl_nil, stayAt_putStay, ← h]

end

/-! ### A frame accepted by the link (R417) -/

section

variable {p : Fin 2} {f : StayIn} {type : Nat} {s : State}

/-- The port that an accepted frame finds, its sequence one further. -/
def portNext (p : Nat) (f : StayIn) (s : State) : State :=
  if staySequenced f.type.toNat then putStay p { stayAt s p with rxNext := (stayAt s p).rxNext + 1 } s else s

/-- The unacknowledged frames that an ack frees. -/
def freed (x : StayPort) (ack : BitVec 16) : Nat := (ack - (x.txSeq - BitVec.ofNat 16 x.unacked.length)).toNat

/-- A port whose acknowledged frames are freed. -/
def portFreed (p : Nat) (ack : BitVec 16) (s : State) : State :=
  putStay p { stayAt s p with unacked := (stayAt s p).unacked.drop (freed (stayAt s p) ack) } s

theorem stayAck_freed {ack : BitVec 16} {p : Nat} (h : freed (stayAt s p) ack ≤ (stayAt s p).unacked.length) :
    stayAck p ack s = (stayFlow p (portFreed p ack s), true) := if_pos h

/-- The checks of an accepted frame's form and sequence are passed. -/
theorem linkTake_passed (h : Accepted p f s) (ht : f.type.toNat < 10) : linkTake p f s =
    (let r := if f.type = 1 then (portNext p f s, true) else stayAck p f.ack (portNext p f s)
     if r.2 then (fbump .STY_FRAMES_rx_frames 1 r.1 p, true) else r) := by
  refine (if_neg (link_up h.up.1 h.up.2)).trans ((if_neg (by rw [h.sound.1]; decide)).trans ((if_neg (by omega)).trans
    ((if_neg (not_not_intro h.sound.2)).trans (if_neg ?_))))
  rintro ⟨hq, hseq⟩
  exact hseq (h.next hq)

theorem linkTake_hello (h : Accepted p f s) (ht : f.type = 1) :
    linkTake p f s = (fbump .STY_FRAMES_rx_frames 1 s p, true) := by
  rw [linkTake_passed h (by rw [ht]; decide), if_pos ht, portNext, ht]
  rfl

theorem linkTake_acked (h : Accepted p f s) (hlow : f.type.toNat < 10) (ht : f.type ≠ 1) : linkTake p f s =
    (fbump .STY_FRAMES_rx_frames 1 (stayFlow p (portFreed p f.ack (portNext p f s))) p, true) := by
  have hfreed : freed (stayAt (portNext p f s) p) f.ack ≤ (stayAt (portNext p f s) p).unacked.length := by
    unfold portNext
    split
    · rw [stayAt_putStay]
      exact h.acked ht
    · exact h.acked ht
  rw [linkTake_passed h hlow, if_neg ht, stayAck_freed hfreed]
  rfl

/-- The state as an accepted frame leaves the link. -/
def linkTaken (p : Nat) (f : StayIn) (s : State) : State :=
  fbump .STY_FRAMES_rx_frames 1 (stayFlow p (portFreed p f.ack (portNext p f s))) p

theorem sends_linkTaken (p : Nat) (f : StayIn) (s : State) : Sends p s (linkTaken p f s) := by
  have hnext : Sends p s (portNext p f s) := by
    unfold portNext
    split
    · exact sends_putStay rfl rfl rfl rfl
    · exact .refl p s
  have hfreed : Sends p (portNext p f s) (portFreed p f.ack (portNext p f s)) := sends_putStay rfl rfl rfl rfl
  exact ((hnext.trans hfreed).trans (sends_stayFlow ..).1).trans (sends_fbump _ _ rfl _)

/-- The registers that set up the pair. -/
theorem Sends.pairCfg {p : Fin 2} {s u : State} (h : Sends p s u) (f : Fld) (hf : f.reg = .PAIR_CFG) : fget u f = fget s f := by
  refine h.words.fget fun hm => ?_
  rw [hf] at hm
  exact RegisterPlaces.addr_ne (r := .PAIR_CFG) (r' := .STY_FRAMES) (by decide) (by decide) (by decide) p.isLt (by decide)
    (List.mem_singleton.1 hm)

theorem Sends.pairMode {p : Fin 2} {s u : State} (h : Sends p s u) : pairMode u = pairMode s := h.pairCfg .PAIR_CFG_mode rfl

theorem Sends.inRing {p : Fin 2} {s u : State} (h : Sends p s u) : inRing u = inRing s := by
  rw [Machine.inRing, h.pairCfg .PAIR_CFG_ring_pos rfl, Machine.inRing]

/-- A frame from the partner outside a ring is its row's. -/
theorem deliverFrame_fromPartner (h : FromPartner p type f s) (h2 : 2 ≤ type) {u : State} (hu : Sends p s u) (w : StaySays)
    (body : State → State) : deliverFrame p type f w body u = body u := by
  have hring : inRing u = false := hu.inRing.trans h.pair
  have hcarries : carriesPartner u p = true := by
    rw [carriesPartner, hu.hello, h.hello]
    rfl
  have htakes : takesFrom u p f = true := by
    rw [takesFrom, hcarries, hring, hu.pairMode, Bool.true_and, Bool.not_false, Bool.true_or, Bool.and_true, bne_iff_ne]
    exact h.paired
  have hsecond : secondCopy p f u = (u, false) := if_pos (by rw [hring]; rfl)
  have htype := h.type
  unfold deliverFrame
  rw [if_neg (by omega), if_neg (by omega), hring, if_neg (by simp), htakes, htype, if_neg (by simp), hsecond]
  rfl

/-- A frame from the partner: the link takes it, the pair does with it what its row says, and where nothing answers it the link
does. -/
theorem receive_fromPartner (h : FromPartner p type f s) (h2 : 2 ≤ type) (h9 : type ≤ 9) (w : StaySays) (body : State → State) :
    ∃ u t, Sends p s u ∧ Sends p (body u) t ∧ receiveSays p type f w body s = t ∧
      ((∃ a b, t = staySendTo p 0 a b (body u)) ∨ t = body u) := by
  have htype := h.type
  have hne : f.type ≠ 1 := fun he => by
    rw [he] at htype
    exact absurd (htype ▸ h2) (by decide)
  have htake := linkTake_acked h.taken (by omega) hne
  have hsends := sends_linkTaken p f s
  have hdeliver := deliverFrame_fromPartner h h2 hsends w body
  have hreceive : receiveSays p type f w body s =
      if (staySequenced f.type.toNat && (stayAt (body (linkTaken p f s)) p).out.length == (stayAt s p).out.length) = true then
        staySendTo p 0 (linkPos (body (linkTaken p f s)) p) [] (body (linkTaken p f s))
      else body (linkTaken p f s) := by
    unfold receiveSays
    rw [htake]
    exact (if_neg Bool.false_ne_true).trans (by rw [← hdeliver]; rfl)
  rw [hreceive]
  split
  · exact ⟨_, _, hsends, sends_staySendTo .., rfl, .inl ⟨_, _, rfl⟩⟩
  · exact ⟨_, _, hsends, .refl .., rfl, .inr rfl⟩

end

end Sys2Proof.Proofs.StayTaking
end

section
/-! PROOF. What a taken frame of the partner does to the pair (R404, R417, R419, R421, R426, R430 to R434). -/

namespace Sys2Proof.Proofs.StayFrames

open Sys2Proof Sys2Proof.Machine Sys2Proof.Spec Sys2Proof.Proofs.RegisterFields Sys2Proof.Proofs.BootStages
  Sys2Proof.Proofs.StayLinks Sys2Proof.Proofs.StayTaking Sys2Proof.Proofs.PairCommands

/-! ### ACK and HELLO (R417, R419) -/

section

variable {p : Fin 2} {f : StayIn} {s : State}

/-- A frame that is not sequenced needs no answer of the link. -/
theorem receiveSays_unsequenced {type : Nat} {w : StaySays} {body : State → State} {u : State}
    (h : linkTake p f s = (u, true)) (hq : staySequenced f.type.toNat = false) :
    receiveSays p type f w body s = deliverFrame p type f w body u := by
  unfold receiveSays
  rw [h, hq]
  rfl

theorem receive_ack (h : Accepted p f s) (ht : f.type = 0) (body : State → State) :
    receiveStay p 0 f body s = fbump .STY_FRAMES_rx_frames 1 (stayFlow p (portFreed p f.ack s)) p := by
  have hnext : portNext p f s = s := by
    rw [portNext, ht]
    rfl
  have htake := linkTake_acked h (by rw [ht]; decide) (by rw [ht]; decide)
  rw [hnext] at htake
  have hdeliver : ∀ u, deliverFrame p 0 f .bytes body u = u := fun u => by
    unfold deliverFrame
    rw [ht]
    rfl
  exact (receiveSays_unsequenced htake (by rw [ht]; decide)).trans (hdeliver _)

theorem ack_row (ht : f.type = 0) (h : Accepted p f s) : leaves (.ack p f) s (fun t => t.pair = s.pair ∧
    stayAt t p = stayAt (stayFlow p (portFreed p f.ack s)) p ∧
    ((stayAt s p).waiting = [] → stayAt t p =
      { stayAt s p with unacked := (stayAt s p).unacked.drop (freed (stayAt s p) f.ack) }) ∧
    counted s t .STY_FRAMES_rx_frames p) := by
  have hfreed : Sends p s (portFreed p f.ack s) := sends_putStay rfl rfl rfl rfl
  obtain ⟨hflow, hcount⟩ := sends_stayFlow p (portFreed p f.ack s)
  refine ⟨_, congrArg Host.Outcome.next (receive_ack h ht _), (hfreed.trans hflow).pair, rfl, fun hw => ?_, ?_⟩
  · have hnone : (stayAt (portFreed p f.ack s) p).waiting = [] := by rw [portFreed, stayAt_putStay, hw]
    exact (stayFlow_nothing hnone).trans (stayAt_putStay ..)
  · have hfield : fget (stayFlow p (portFreed p f.ack s)) .STY_FRAMES_rx_frames p = fget s .STY_FRAMES_rx_frames p :=
      hcount.trans (fget_congr rfl ..)
    rw [counted, ← hfield]
    exact counted_fbump _ .STY_FRAMES_rx_frames p (by decide) (by decide)

theorem receive_hello (h : Accepted p f s) (ht : f.type = 1) (body : State → State) :
    receiveStay p 1 f body s = body (fbump .STY_FRAMES_rx_frames 1 s p) := by
  have hdeliver : ∀ u, deliverFrame p 1 f .bytes body u = body u := fun u => by
    unfold deliverFrame
    rw [ht]
    rfl
  exact (receiveSays_unsequenced (linkTake_hello h ht) (by rw [ht]; decide)).trans (hdeliver _)

/-- What a HELLO is held against does not change as frames are counted. -/
theorem sends_helloCheck {u : State} (h : Sends p s u) (d : Bytes) : helloCheck u d = helloCheck s d := by
  have hdigest : helloDigest u = helloDigest s := h.part helloDigest fun _ _ => rfl
  have hpos : partnerPos u = partnerPos s := by rw [partnerPos, h.pairCfg .PAIR_CFG_ring_pos rfl, partnerPos]
  unfold helloCheck
  rw [hdigest, hpos, h.pairMode, h.inRing, h.pairCfg .PAIR_CFG_ring_pos rfl, h.pairCfg .PAIR_CFG_partner_claim rfl,
    h.pairCfg .PAIR_CFG_claim rfl]

theorem releaseTx_stay (port q n : Nat) (s : State) : (releaseTx port q n s).stay = s.stay ∧ (releaseTx port q n s).mem = s.mem := by
  unfold releaseTx
  dsimp only
  split
  · exact ⟨rfl, rfl⟩
  · exact ⟨foldl_unchanged (part := (·.stay)) (fun s x => by simp only [pushTx_frame]) _ _,
      foldl_unchanged (part := (·.mem)) (fun s x => by simp only [pushTx_frame]) _ _⟩

theorem releaseAll_stay (n : Nat) (s : State) : (releaseAll n s).stay = s.stay ∧ (releaseAll n s).mem = s.mem := by
  unfold releaseAll
  exact ⟨foldl_unchanged (part := (·.stay)) (fun s p => foldl_unchanged (part := (·.stay)) (fun s q => (releaseTx_stay ..).1) _ _) _ _,
    foldl_unchanged (part := (·.mem)) (fun s p => foldl_unchanged (part := (·.mem)) (fun s q => (releaseTx_stay ..).2) _ _) _ _⟩

theorem unprotect_stay (cause : Nat) (s : State) : (unprotect cause s).stay = s.stay := by
  unfold unprotect
  dsimp only
  generalize (if s.pair.cause = 2 ∧ cause = 4 then 2 else cause) = k
  split
  · simp only [raise_frame, releaseAll_stay]
  · simp only [releaseAll_stay]

/-- The port that a first HELLO leaves. -/
def helloTaken (d : Bytes) (c : Nat) (x : StayPort) : StayPort :=
  { x with helloDone := true, peerPos := if leAt d 4 1 < 4 then leAt d 4 1 else 7, hello := c + 1 }

/-- A HELLO that does not fit: its event, and protection dropped where no link to the partner is left. -/
def helloRefused (k field : Nat) (u : State) : State :=
  if partnerLinked (raise 212 [(1, k), (1, field)] u) then raise 212 [(1, k), (1, field)] u
  else unprotect 3 (raise 212 [(1, k), (1, field)] u)

theorem stayAt_helloRefused (k field : Nat) (u : State) : stayAt (helloRefused k field u) k = stayAt u k := by
  unfold helloRefused
  split
  · exact stayAt_raise ..
  · exact (stayAt_congr (unprotect_stay ..) k).trans (stayAt_raise ..)

theorem takeHello_first {k : Nat} {d : Bytes} {u : State} (h : (stayAt u k).helloDone = false) :
    stayAt (takeHello k d u) k = helloTaken d (helloCheck u d).1 (stayAt u k) := by
  have htake : takeHello k d u = if (helloCheck u d).1 = 2 then
      helloRefused k (helloCheck u d).2 (putStay k (helloTaken d (helloCheck u d).1 (stayAt u k)) u)
      else putStay k (helloTaken d (helloCheck u d).1 (stayAt u k)) u := if_neg (by rw [h]; decide)
  rw [htake]
  split
  · exact (stayAt_helloRefused ..).trans (stayAt_putStay ..)
  · exact stayAt_putStay ..

theorem hello_row (ht : f.type = 1) (h : Accepted p f s) :
    ((stayAt s p).helloDone = true → leaves (.hello p f) s (fun t => stayAt t p = stayAt s p ∧ t.pair = s.pair)) ∧
    ((stayAt s p).helloDone = false → leaves (.hello p f) s (fun t => (stayAt t p).helloDone = true ∧
      (stayAt t p).hello = (helloCheck s f.data).1 + 1 ∧ (stayAt t p).unacked = (stayAt s p).unacked)) := by
  have hexec : exec (.hello p f) s = .next (takeHello p f.data (fbump .STY_FRAMES_rx_frames 1 s p)) :=
    congrArg Host.Outcome.next (receive_hello h ht _)
  have hcount : Sends p s (fbump .STY_FRAMES_rx_frames 1 s p) := sends_fbump _ _ rfl s
  refine ⟨fun hd => ⟨_, hexec.trans (congrArg _ (if_pos hd)), rfl, rfl⟩, fun hd => ⟨_, hexec, ?_⟩⟩
  dsimp only
  rw [takeHello_first (u := fbump .STY_FRAMES_rx_frames 1 s p) hd, sends_helloCheck hcount]
  exact ⟨rfl, rfl, rfl⟩

end

/-! ### Heartbeats and YIELD (R421, R426, R429) -/

/-- The pair's protection alone changes. -/
def ProtectionOnly (a b : Pair) : Prop :=
  ∃ sync cause wait start, b = { a with sync := sync, cause := cause, copyWait := wait, syncStart := start }

theorem ProtectionOnly.refl (a : Pair) : ProtectionOnly a a := ⟨a.sync, a.cause, a.copyWait, a.syncStart, rfl⟩

theorem ProtectionOnly.trans {a b c : Pair} (h : ProtectionOnly a b) (g : ProtectionOnly b c) : ProtectionOnly a c := by
  obtain ⟨_, _, _, _, rfl⟩ := h
  obtain ⟨sync, cause, wait, start, rfl⟩ := g
  exact ⟨sync, cause, wait, start, rfl⟩

theorem protectionOnly_unprotect (cause : Nat) (s : State) : ProtectionOnly s.pair (unprotect cause s).pair := by
  obtain ⟨-, -, k, hk⟩ := unprotect_host cause s
  exact ⟨0, k, none, s.pair.syncStart, hk⟩

theorem protectionOnly_followSync (sync : Nat) (active : Bool) (s : State) :
    ProtectionOnly s.pair (followSync sync active s).pair := by
  unfold followSync
  split
  · split
    · exact protectionOnly_unprotect 7 s
    · split
      · exact (protectionOnly_unprotect 7 s).trans ⟨1, (unprotect 7 s).pair.cause, (unprotect 7 s).pair.copyWait, tickNow s, rfl⟩
      · exact .refl _
  · split
    · exact .refl _
    · split
      · split
        · exact ⟨0, s.pair.cause, s.pair.copyWait, s.pair.syncStart, rfl⟩
        · exact .refl _
      · split
        · exact ⟨1, 7, s.pair.copyWait, tickNow s, rfl⟩
        · exact .refl _

/-- The pair as a heartbeat leaves it, its protection apart. -/
def heardPair (aligned : Bool) (d : Bytes) (s : State) : Pair :=
  { s.pair with
    seen := true, lost := false, hbTick := tickNow s, pRole := leAt d 0 1, pFlags := BitVec.ofNat 8 (leAt d 1 1)
    aligned := aligned, role := if s.pair.role == .listening && leAt d 0 1 == 2 then .standby else s.pair.role }

/-- The protection that a heartbeat's sync state and flags leave. -/
def heartbeatSettled (sync : Nat) (active : Bool) (s : State) : State :=
  if (followSync sync active s).pair.sync = 2 ∧ !partnerFlag (followSync sync active s) 0 then unprotect 6 (followSync sync active s)
  else followSync sync active s

theorem protectionOnly_heartbeatSettled (sync : Nat) (active : Bool) (s : State) :
    ProtectionOnly s.pair (heartbeatSettled sync active s).pair := by
  unfold heartbeatSettled
  split
  · exact (protectionOnly_followSync ..).trans (protectionOnly_unprotect ..)
  · exact protectionOnly_followSync ..

/-- Whether a heartbeat shows equal ticks and boundaries within 50 microseconds (R432). -/
def heartbeatAligned (k : Nat) (f : StayIn) (s : State) : Bool :=
  let arrived := stampTime s (portLat s (2 + k) true) f.phase
  f.tick.toNat == tickNow s &&
    (decide (arrived / 65536 ≤ s.time.began + 50000) && decide (s.time.began ≤ arrived / 65536 + 50000))

/-- The pair having heard, with the heartbeat's stamp on its port. -/
def heartbeatStamped (k : Nat) (f : StayIn) (s : State) : State :=
  let s1 := { s with pair := heardPair (heartbeatAligned k f s) f.data s }
  putStay k { stayAt s1 k with
    hbSeen := stampTime s (portLat s (2 + k) true) f.phase
    hbSeenCount := stampCount s (portLat s (2 + k) true) f.phase } s1

/-- The round trip of a heartbeat that answers one of this device. -/
def heartbeatTimed (answers : Bool) (k : Nat) (u : State) : State :=
  if answers then u else draw (fset .STY_RTT_rtt_ns (Config.freeWord u.free).toNat u k)

/-- The event of a heartbeat that comes back. -/
def heartbeatBack (back : Bool) (k : Nat) (u : State) : State := if back then raise 249 [(1, k)] u else u

theorem takeHeartbeat_eq (k : Nat) (f : StayIn) (s : State) : takeHeartbeat k f s =
    heartbeatSettled (leAt f.data 3 1) (leAt f.data 0 1 == 2)
      (heartbeatBack s.pair.lost k (heartbeatTimed (stayAt s k).hbSent.isNone k (heartbeatStamped k f s))) := rfl

theorem heartbeatBack_pair (back answers : Bool) (k : Nat) (u : State) :
    (heartbeatBack back k (heartbeatTimed answers k u)).pair = u.pair := by
  have htimed : (heartbeatTimed answers k u).pair = u.pair := by
    unfold heartbeatTimed
    split
    · rfl
    · simp only [draw_frame, fset_frame]
  unfold heartbeatBack
  split
  · simp only [raise_frame, htimed]
  · exact htimed

theorem takeHeartbeat_pair (k : Nat) (f : StayIn) (s : State) :
    ProtectionOnly (heardPair (heartbeatAligned k f s) f.data s) (takeHeartbeat k f s).pair := by
  have hheard : (heartbeatStamped k f s).pair = heardPair (heartbeatAligned k f s) f.data s := rfl
  rw [takeHeartbeat_eq, ← hheard, ← heartbeatBack_pair s.pair.lost (stayAt s k).hbSent.isNone k]
  exact protectionOnly_heartbeatSettled ..

theorem heartbeat_row {p : Fin 2} {f : StayIn} {s : State} (h : FromPartner p 2 f s) : leaves (.heartbeat p f) s (fun t =>
    t.pair.seen = true ∧ t.pair.lost = false ∧ t.pair.hbTick = tickNow s ∧ t.pair.pRole = leAt f.data 0 1 ∧
    t.pair.pFlags = BitVec.ofNat 8 (leAt f.data 1 1) ∧
    t.pair.role = (if s.pair.role = .listening ∧ leAt f.data 0 1 = 2 then .standby else s.pair.role) ∧
    t.pair.owner = s.pair.owner) := by
  obtain ⟨u, t, hu, ht, hexec, -⟩ := receive_fromPartner h (by decide) (by decide) .bytes (takeHeartbeat p f)
  obtain ⟨sync, cause, wait, start, hpair⟩ := takeHeartbeat_pair p f u
  refine ⟨t, congrArg Host.Outcome.next hexec, ?_⟩
  dsimp only
  rw [ht.pair, hpair, heardPair, hu.pair, hu.tick]
  refine ⟨rfl, rfl, rfl, rfl, rfl, ?_, rfl⟩
  simp only [Bool.and_eq_true, beq_iff_eq]

theorem yield_row {p : Fin 2} {f : StayIn} {s : State} (h : FromPartner p 3 f s) : leaves (.yield p f) s (fun t =>
    t.pair = { s.pair with pFlags := s.pair.pFlags ||| 4, challengeAt := none }) := by
  obtain ⟨u, t, hu, ht, hexec, -⟩ := receive_fromPartner h (by decide) (by decide) .bytes
    (fun s => { s with pair := { s.pair with pFlags := s.pair.pFlags ||| 4, challengeAt := none } })
  exact ⟨t, congrArg Host.Outcome.next hexec, ht.pair.trans (by rw [hu.pair])⟩

/-! ### What the access tables say of the stay peer (R430) -/

theorem findSome?_congr {α β : Type} {f g : α → Option β} {l : List α} (h : ∀ x ∈ l, f x = g x) : l.findSome? f = l.findSome? g := by
  induction l with
  | nil => rfl
  | cons x l ih =>
    rw [List.findSome?_cons, List.findSome?_cons, h x List.mem_cons_self, ih fun y hy => h y (List.mem_cons_of_mem _ hy)]

/-- The regions of the cellar, its address tables and the fuses are what a permission rests on. -/
theorem permitted_congr {s v : State} (hb : v.boot = s.boot) (ha : v.acc = s.acc)
    (hbase : ∀ r < 16, fget v .CEL_REGION_BASE_base_mib r = fget s .CEL_REGION_BASE_base_mib r)
    (hsize : ∀ r < 16, fget v .CEL_REGION_SIZE_size_mib r = fget s .CEL_REGION_SIZE_size_mib r)
    (master a n : Nat) (write : Bool) : permitted v master a n write = permitted s master a n write := by
  have hregion : regionOf v = regionOf s := funext fun c => findSome?_congr fun r hr => by
    rw [hbase r (List.mem_range.1 hr), hsize r (List.mem_range.1 hr)]
  have htarget : targetOf v = targetOf s := funext fun b => by rw [targetOf, hregion, targetOf]
  have haccess : accessTarget v a n = accessTarget s a n := by rw [accessTarget, htarget, accessTarget]
  have htable : ∀ target off, tablePermits v master target off n write = tablePermits s master target off n write :=
    fun target off => by rw [tablePermits, ha, tablePermits]
  unfold permitted
  simp only [haccess, htable, hb, ha]

theorem sends_permitted {p : Fin 2} {s u : State} (h : Sends p s u) (x : Pair) (master a n : Nat) (write : Bool) :
    permitted { u with pair := x } master a n write = permitted s master a n write := by
  have hword : ∀ (r : RegId), r.place.n1 = 16 → r.place.n2 = 1 → r ≠ .STY_FRAMES → ∀ k < 16, r.addr k ∉ [RegId.addr .STY_FRAMES p] := by
    intro r h1 h2 hr k hk hm
    exact RegisterPlaces.addr_ne hr (by rw [h1]; exact hk) (by rw [h2]; exact Nat.one_pos) p.isLt (by decide) (List.mem_singleton.1 hm)
  exact permitted_congr (h.part (·.boot) fun _ _ => rfl) (h.part (·.acc) fun _ _ => rfl)
    (fun r hr => h.words.fget (f := .CEL_REGION_BASE_base_mib) (hword .CEL_REGION_BASE rfl rfl (by decide) r hr))
    (fun r hr => h.words.fget (f := .CEL_REGION_SIZE_size_mib) (hword .CEL_REGION_SIZE rfl rfl (by decide) r hr)) master a n write

/-! ### COPY (R430) -/

section

variable {p : Fin 2} {f : StayIn} {c : CopyIn} {s u : State}

theorem sends_standby {p : Nat} {s u : State} (h : Sends p s u) : isStandby u = isStandby s := by rw [isStandby, h.pair, isStandby]

theorem takeCopy_other (h : isStandby s = false) : takeCopy c s = s := if_pos (by rw [h]; rfl)

/-- A segment that is not the tick's last waits for it. -/
theorem takeCopy_kept (h : isStandby s = true) (hlast : c.last = false) (hst : s.pair.staging = none) :
    takeCopy c s = { s with pair := { s.pair with staging := some (c.tick.toNat, c.items) } } := by
  unfold takeCopy
  rw [h, if_neg (by decide)]
  dsimp only
  rw [hlast, if_pos (by decide), hst]
  rfl

/-- The pair as a tick's segments are written. -/
def copyOpened (s : State) : State := { s with pair := { s.pair with staging := none, copyBad := false } }

/-- A tick's copy is closed: acknowledged where none of it was refused. -/
def copyClosed (t : Nat) (v : State) : State :=
  if v.pair.copyBad then { v with pair := { v.pair with copyBad := false } }
  else sendCopyAck t { v with pair := { v.pair with copyBad := false, copyTick := t } }

theorem takeCopy_last (h : isStandby s = true) (hlast : c.last = true) (hst : s.pair.staging = none) :
    takeCopy c s = copyClosed c.tick.toNat (c.items.foldl (writeItem copyItem) (copyOpened s)) := by
  unfold takeCopy
  rw [h, if_neg (by decide)]
  dsimp only
  rw [hlast, if_neg (by decide), hst]
  rfl

theorem copyClosed_good {t : Nat} {v : State} (h : v.pair.copyBad = false) :
    copyClosed t v = sendCopyAck t { v with pair := { v.pair with copyBad := false, copyTick := t } } :=
  if_neg (by rw [h]; decide)

theorem sendCopyAck_pair (t : Nat) (v : State) : (sendCopyAck t v).pair = v.pair ∧ (sendCopyAck t v).mem = v.mem ∧
    (sendCopyAck t v).sess = v.sess ∧ (sendCopyAck t v).chans = v.chans := by simp only [sendCopyAck, sendPartner_frame, and_self]

/-- A frame given to a port that is up stands on its line or among those held back. -/
theorem stayGive_given {k : Nat} {g : StayFrame} {v : State} (hl : (stayAt v k).link = true) (hc : (stayAt v k).cut = false) :
    ∃ g' ∈ (stayAt (stayGive k g v) k).out ++ (stayAt (stayGive k g v) k).waiting, g'.type = g.type ∧ g'.data = g.data := by
  obtain ⟨hdown, -⟩ | h | h := stayGive_cases k g v
  · exact absurd hdown (by rw [hl, hc]; decide)
  · rw [h, stayAt_putStay]
    exact ⟨g, by simp, rfl, rfl⟩
  · have hstay : stayAt (stayGive k g v) k = (stayAt v k).sending g := by
      rw [h]
      exact stayAt_putStay ..
    rw [hstay]
    exact ⟨{ g with seq := if staySequenced g.type then (stayAt v k).txSeq else 0, ack := (stayAt v k).rxNext },
      List.mem_append_left _ (List.mem_append_right _ (List.mem_singleton_self _)), rfl, rfl⟩

/-- What stands on a line or is held back stays there as another frame is given. -/
theorem stayGive_keeps {k : Nat} (g g' : StayFrame) {v : State} (h : g' ∈ (stayAt v k).out ++ (stayAt v k).waiting) :
    g' ∈ (stayAt (stayGive k g v) k).out ++ (stayAt (stayGive k g v) k).waiting := by
  obtain ⟨-, hs⟩ | hs | hs := stayGive_cases k g v
  · rwa [hs]
  · rw [hs, stayAt_putStay]
    simp only [List.mem_append] at h ⊢
    exact h.imp id .inl
  · have hstay : stayAt (stayGive k g v) k = (stayAt v k).sending g := by
      rw [hs]
      exact stayAt_putStay ..
    have hsending : ((stayAt v k).sending g).waiting = (stayAt v k).waiting ∧ ∃ g'', ((stayAt v k).sending g).out =
        (stayAt v k).out ++ [g''] := by
      unfold StayPort.sending
      dsimp only
      split
      · exact ⟨rfl, _, rfl⟩
      · exact ⟨rfl, _, rfl⟩
    obtain ⟨hw, g'', ho⟩ := hsending
    rw [hstay, hw, ho]
    simp only [List.mem_append] at h ⊢
    exact h.imp .inl id

theorem stayGive_other {k j : Nat} (g : StayFrame) (v : State) (h : j ≠ k) : stayAt (stayGive k g v) j = stayAt v j := by
  obtain ⟨-, hs⟩ | hs | hs := stayGive_cases k g v
  · rw [hs]
  · rw [hs, stayAt_putStay_other _ _ h]
  · rw [hs]
    exact stayAt_putStay_other _ _ h

/-- A frame to the partner goes to each port that carries it. -/
theorem sendPartner_given {type : Nat} {data : Bytes} {v : State} (hl : (stayAt v p).link = true) (hc : (stayAt v p).cut = false)
    (hh : (stayAt v p).hello = 1) : ∃ g ∈ (stayAt (sendPartner type data v) p).out ++ (stayAt (sendPartner type data v) p).waiting,
      g.type = type ∧ g.data = data := by
  have hcarries : ∀ w, stayAt w p = stayAt v p → carriesPartner w p = true := fun w hw => by
    rw [carriesPartner, hw, hh]
    rfl
  unfold sendPartner sayPartner
  rw [List.foldl_cons, List.foldl_cons, List.foldl_nil]
  match p with
  | 0 =>
    have hgo : carriesPartner v 0 = true := hcarries v rfl
    rw [if_pos hgo]
    obtain ⟨g, hg, hgiven⟩ := stayGive_given (g := { type := type, route := routeTo v (partnerPos v), tick := tickNow v, data := data }) hl hc
    refine ⟨g, ?_, hgiven⟩
    split
    · rw [staySay, stayGive_other _ _ (show ((0 : Fin 2) : Nat) ≠ 1 by decide)]
      exact hg
    · exact hg
  | 1 =>
    have hother : stayAt (if carriesPartner v 0 then staySay 0 type (partnerPos v) data .bytes v else v) 1 = stayAt v 1 := by
      split
      · exact stayGive_other _ _ (by decide)
      · rfl
    obtain ⟨w, hw⟩ : ∃ w, w = if carriesPartner v 0 then staySay 0 type (partnerPos v) data .bytes v else v := ⟨_, rfl⟩
    rw [← hw] at hother ⊢
    have hgo : carriesPartner w 1 = true := hcarries w hother
    rw [if_pos hgo]
    exact stayGive_given (by rw [hother]; exact hl) (by rw [hother]; exact hc)

theorem copy_other (h : FromPartner p 4 f s) (hs : isStandby s = false) :
    leaves (.copy p f c) s (fun t => t.pair = s.pair ∧ t.mem = s.mem) := by
  obtain ⟨u, t, hu, ht, hexec, -⟩ := receive_fromPartner h (by decide) (by decide) (.copy c) (takeCopy c)
  rw [takeCopy_other ((sends_standby hu).trans hs)] at ht
  exact ⟨t, congrArg Host.Outcome.next hexec, ht.pair.trans hu.pair, ht.mem.trans hu.mem⟩

theorem copy_kept (h : FromPartner p 4 f s) (hs : isStandby s = true) (hlast : c.last = false) (hst : s.pair.staging = none) :
    leaves (.copy p f c) s (fun t => t.mem = s.mem ∧ t.sess = s.sess ∧ t.chans = s.chans ∧
      t.pair = { s.pair with staging := some (c.tick.toNat, c.items) }) := by
  obtain ⟨u, t, hu, ht, hexec, -⟩ := receive_fromPartner h (by decide) (by decide) (.copy c) (takeCopy c)
  rw [takeCopy_kept ((sends_standby hu).trans hs) hlast (hu.pair ▸ hst)] at ht
  exact ⟨t, congrArg Host.Outcome.next hexec, ht.mem.trans hu.mem,
    (ht.part (·.sess) fun _ _ => rfl).trans (hu.part (·.sess) fun _ _ => rfl),
    (ht.part (·.chans) fun _ _ => rfl).trans (hu.part (·.chans) fun _ _ => rfl), ht.pair.trans (by rw [hu.pair])⟩

/-- What is known of a tick's last segment before its contents are written. -/
theorem copy_last (h : FromPartner p 4 f s) (hs : isStandby s = true) (hlast : c.last = true) (hst : s.pair.staging = none) :
    ∃ u t, Sends p s u ∧ exec (.copy p f c) s = .next t ∧
      Sends p (copyClosed c.tick.toNat (c.items.foldl (writeItem copyItem) (copyOpened u))) t ∧
      ((∃ a b, t = staySendTo p 0 a b (copyClosed c.tick.toNat (c.items.foldl (writeItem copyItem) (copyOpened u)))) ∨
        t = copyClosed c.tick.toNat (c.items.foldl (writeItem copyItem) (copyOpened u))) := by
  obtain ⟨u, t, hu, ht, hexec, hlink⟩ := receive_fromPartner h (by decide) (by decide) (.copy c) (takeCopy c)
  rw [takeCopy_last ((sends_standby hu).trans hs) hlast (hu.pair ▸ hst)] at ht hlink
  exact ⟨u, t, hu, congrArg Host.Outcome.next hexec, ht, hlink⟩

theorem copyOpened_pair {s u : State} (hu : u.pair = s.pair) (hst : s.pair.staging = none) :
    (copyOpened u).pair = { s.pair with copyBad := false } := by
  rw [copyOpened, hu, ← hst]

theorem copyOpened_copyTick (u : State) : (copyOpened u).pair.copyTick = u.pair.copyTick := rfl

theorem copy_empty (h : FromPartner p 4 f s) (hs : isStandby s = true) (hi : c.items = []) (hlast : c.last = true)
    (hst : s.pair.staging = none) : leaves (.copy p f c) s (fun t =>
      t.pair = { s.pair with copyTick := c.tick.toNat, copyBad := false } ∧
      ∃ g ∈ (stayAt t p).out ++ (stayAt t p).waiting, g.type = 5 ∧ g.data = toLe 8 c.tick.toNat) := by
  obtain ⟨u, t, hu, hexec, ht, hlink⟩ := copy_last h hs hlast hst
  rw [hi, List.foldl_nil, copyClosed_good rfl] at ht hlink
  refine ⟨t, hexec, ?_, ?_⟩
  · rw [ht.pair, (sendCopyAck_pair ..).1, copyOpened_pair hu.pair hst]
  · obtain ⟨g, hg, hgiven⟩ := sendPartner_given (p := p) (type := 5) (data := toLe 8 c.tick.toNat)
      (v := { copyOpened u with pair := { (copyOpened u).pair with copyBad := false, copyTick := c.tick.toNat } })
      (hu.link.trans h.taken.up.1) (hu.cut.trans h.taken.up.2) (hu.hello.trans h.hello)
    refine ⟨g, ?_, hgiven⟩
    obtain ⟨a, b, rfl⟩ | rfl := hlink
    · exact stayGive_keeps _ _ hg
    · exact hg

/-- A segment of the tick in progress refused. -/
def copyRefused (v : State) : State := { v with pair := { v.pair with copyBad := true } }

theorem copyClosed_refused (t : Nat) (v : State) :
    copyClosed t (copyRefused v) = { v with pair := { v.pair with copyBad := false } } := if_pos rfl

/-- Bytes of memory that a copy carries, written where the tables permit it. -/
theorem writeItem_memory {g : CopyItem → State → State} {a : BitVec 36} {b : Bytes} {v : State} :
    writeItem g v (.memory a b) = if permitted v 13 a.toNat b.length true then g (.memory a b) v
      else copyRefused (recordDenial 13 a.toNat b.length true v) := by
  have hp : itemPermitted v (.memory a b) = permitted v 13 a.toNat b.length true := rfl
  unfold writeItem
  rw [hp]
  rfl

theorem copy_memory {a : BitVec 36} {b : Bytes} (h : FromPartner p 4 f s) (hs : isStandby s = true)
    (hi : c.items = [.memory a b]) (hlast : c.last = true) (hst : s.pair.staging = none) :
    (permitted s 13 a.toNat b.length true = true → leaves (.copy p f c) s (fun t =>
      t.pair.copyTick = c.tick.toNat ∧ t.mem = (storeBytes a.toNat b s).mem)) ∧
    (permitted s 13 a.toNat b.length true = false → leaves (.copy p f c) s (fun t =>
      t.pair.copyTick = s.pair.copyTick ∧ t.mem = s.mem)) := by
  obtain ⟨u, t, hu, hexec, ht, -⟩ := copy_last h hs hlast hst
  have hperm : permitted (copyOpened u) 13 a.toNat b.length true = permitted s 13 a.toNat b.length true := sends_permitted hu ..
  rw [hi, List.foldl_cons, List.foldl_nil, writeItem_memory, hperm] at ht
  refine ⟨fun hok => ⟨t, hexec, ?_⟩, fun hno => ⟨t, hexec, ?_⟩⟩
  · have hcopy : copyItem (.memory a b) (copyOpened u) = storeBytes a.toNat b (copyOpened u) :=
      if_neg fun hc => Bool.false_ne_true hc.2
    rw [if_pos hok, hcopy, copyClosed_good rfl] at ht
    obtain ⟨hpair, hmem, -, -⟩ := sendCopyAck_pair c.tick.toNat { storeBytes a.toNat b (copyOpened u) with
      pair := { (storeBytes a.toNat b (copyOpened u)).pair with copyBad := false, copyTick := c.tick.toNat } }
    refine ⟨by rw [ht.pair, hpair], ht.mem.trans (hmem.trans ?_)⟩
    exact congrArg (Memory.writeBytes · a.toNat b) hu.mem
  · rw [if_neg (by rw [hno]; decide), copyClosed_refused] at ht
    have hdenied : ∀ v : State, (recordDenial 13 a.toNat b.length true v).mem = v.mem ∧
        (recordDenial 13 a.toNat b.length true v).pair = v.pair := fun v => by simp only [recordDenial_frame, and_self]
    obtain ⟨hmem, hpair⟩ := hdenied (copyOpened u)
    refine ⟨ht.pair ▸ ?_, ht.mem.trans (hmem.trans hu.mem)⟩
    exact (congrArg Pair.copyTick hpair).trans ((copyOpened_copyTick u).trans (congrArg Pair.copyTick hu.pair))

/-- An item owed to the standby's own work of the tick. -/
def copyOwed (i : CopyItem) (v : State) : State := { v with pair := { v.pair with owed := v.pair.owed ++ [i] } }

theorem writeItem_leg (g : CopyItem → State → State) (v : State) (l : BitVec 20) (q : BitVec 16) (ts : Word) :
    writeItem g v (.leg l q ts) = g (.leg l q ts) v := if_pos rfl

theorem copy_leg {l : BitVec 20} {q : BitVec 16} {ts : Word} (h : FromPartner p 4 f s) (hs : isStandby s = true)
    (hi : c.items = [.leg l q ts]) (hlast : c.last = true) (hst : s.pair.staging = none) (hmode : pairMode s = 2) :
    leaves (.copy p f c) s (fun t => t.pair.owed = s.pair.owed ++ c.items ∧ t.sess = s.sess ∧ t.chans = s.chans) := by
  obtain ⟨u, t, hu, hexec, ht, -⟩ := copy_last h hs hlast hst
  have hwrite : writeItem copyItem (copyOpened u) (.leg l q ts) = copyOwed (.leg l q ts) (copyOpened u) :=
    (writeItem_leg ..).trans (if_pos ⟨hu.pairMode.trans hmode, rfl⟩)
  rw [hi, List.foldl_cons, List.foldl_nil, hwrite, copyClosed_good rfl] at ht
  obtain ⟨hpair, -, hsess, hchans⟩ := sendCopyAck_pair c.tick.toNat { copyOwed (.leg l q ts) (copyOpened u) with
    pair := { (copyOwed (.leg l q ts) (copyOpened u)).pair with copyBad := false, copyTick := c.tick.toNat } }
  refine ⟨t, hexec, ?_, ((ht.part (·.sess) fun _ _ => rfl).trans hsess).trans (hu.part (·.sess) fun _ _ => rfl),
    ((ht.part (·.chans) fun _ _ => rfl).trans hchans).trans (hu.part (·.chans) fun _ _ => rfl)⟩
  rw [hi, ← hu.pair]
  exact (congrArg Pair.owed ht.pair).trans (congrArg Pair.owed hpair)

end

end Sys2Proof.Proofs.StayFrames
end

section
/-! PROOF. What frames of the partner's mirroring do to the pair (R404, R430 to R434). -/

namespace Sys2Proof.Proofs.StayMirror

open Sys2Proof Sys2Proof.Machine Sys2Proof.Spec Sys2Proof.Proofs.RegisterFields Sys2Proof.Proofs.BootStages
  Sys2Proof.Proofs.StayLinks Sys2Proof.Proofs.StayTaking Sys2Proof.Proofs.StayFrames Sys2Proof.Proofs.PairCommands

section

variable {p : Fin 2} {f : StayIn} {s u : State}

/-! ### COPY_ACK and FORWARD (R404, R430, R431) -/

theorem takeCopyAck_pair (t : Nat) (s : State) (h : s.pair.role = .active) : (takeCopyAck t s).pair =
    { s.pair with copyTick := max s.pair.copyTick t, copyWait := s.pair.copyWait.filter (fun w => decide (t < w)) } := by
  have hwait : s.pair.copyWait.filter (fun w => decide (t < w)) = match s.pair.copyWait with
      | some w => if w ≤ t then none else some w
      | none => none := by
    cases s.pair.copyWait with
    | none => rfl
    | some w =>
      by_cases hw : w ≤ t
      · simp [Option.filter, hw]
      · simp [Option.filter, hw]
  unfold takeCopyAck
  rw [if_neg (not_not_intro h)]
  dsimp only
  obtain ⟨-, -, hpair⟩ := releaseAll_host t { s with pair := { s.pair with
    copyTick := max s.pair.copyTick t
    copyWait := match s.pair.copyWait with
      | some w => if w ≤ t then none else some w
      | none => none } }
  rw [hwait]
  exact hpair

theorem copyAck_row (h : FromPartner p 5 f s) :
    (s.pair.role ≠ .active → leaves (.copyAck p f) s (fun t => t.pair = s.pair)) ∧
    (s.pair.role = .active → leaves (.copyAck p f) s (fun t => t.pair = { s.pair with
      copyTick := max s.pair.copyTick (leAt f.data 0 8)
      copyWait := s.pair.copyWait.filter (fun w => decide (leAt f.data 0 8 < w)) })) := by
  obtain ⟨u, t, hu, ht, hexec, -⟩ := receive_fromPartner h (by decide) (by decide) .bytes (takeCopyAck (leAt f.data 0 8))
  refine ⟨fun hr => ⟨t, congrArg Host.Outcome.next hexec, ?_⟩, fun hr => ⟨t, congrArg Host.Outcome.next hexec, ?_⟩⟩
  · rw [takeCopyAck, if_pos (by rw [hu.pair]; exact hr)] at ht
    exact ht.pair.trans hu.pair
  · exact ht.pair.trans (by rw [takeCopyAck_pair _ _ (by rw [hu.pair]; exact hr), hu.pair])

theorem forward_row (h : FromPartner p 6 f s) :
    (isStandby s = true → pairMode s = 2 → leaves (.forward p f) s (fun t => counted s t .PAIR_FWD_forwarded ∧
      t.pair = { s.pair with fwd := s.pair.fwd ++ [(leAt f.data 0 8 * 2 ^ 24 + leAt f.data 9 3, leAt f.data 8 1, f.data.drop 12)] })) ∧
    (isStandby s = false ∨ pairMode s ≠ 2 → leaves (.forward p f) s (fun t => t.pair = s.pair)) := by
  obtain ⟨u, t, hu, ht, hexec, -⟩ := receive_fromPartner h (by decide) (by decide) .bytes (takeForward f.data)
  have hnot : RegId.addr .PAIR_FWD ∉ [RegId.addr .STY_FRAMES p] := fun hm =>
    RegisterPlaces.addr_ne (r := .PAIR_FWD) (r' := .STY_FRAMES) (by decide) (by decide) (by decide) p.isLt (by decide) (List.mem_singleton.1 hm)
  refine ⟨fun hs hm => ⟨t, congrArg Host.Outcome.next hexec, ?_⟩, fun hno => ⟨t, congrArg Host.Outcome.next hexec, ?_⟩⟩
  · rw [takeForward, if_pos (by rw [sends_standby hu, hs, hu.pairMode, hm]; rfl)] at ht
    refine ⟨counted_after ?_ ht.words hnot, ht.pair.trans (by rw [← hu.pair]; rfl)⟩
    exact counted_before (t := { u with pair := _ }) (hu.words.then (.of_regs rfl)) hnot
      (counted_fbump _ .PAIR_FWD_forwarded 0 (by decide) (by decide))
  · have hskip : ¬ (isStandby u && pairMode u == 2) = true := by
      rw [sends_standby hu, hu.pairMode, Bool.and_eq_true, beq_iff_eq]
      exact fun hc => hno.elim (fun h => absurd (h.symm.trans hc.1) (by decide)) (fun h => h hc.2)
    rw [takeForward, if_neg hskip] at ht
    exact ht.pair.trans hu.pair

/-! ### Digests (R433) -/

theorem sends_digesting (hu : Sends p s u) : digesting u = digesting s := by
  have hen : fbit u .PAIR_CTRL_digest_en = fbit s .PAIR_CTRL_digest_en := hu.words.fbit fun hm =>
    RegisterPlaces.addr_ne (r := .PAIR_CTRL) (r' := .STY_FRAMES) (by decide) (by decide) (by decide) p.isLt (by decide) (List.mem_singleton.1 hm)
  rw [digesting, hu.pairMode, hen, digesting]

/-- An entry of a table stands in a part of it that holds its number. -/
theorem tget?_filter {α : Type} {t : Tab α} {q : Nat → Bool} {k : Nat} (h : q k = true) :
    tget? (t.filter (fun e => q e.1)) k = tget? t k := by
  induction t with
  | nil => rfl
  | cons e t ih =>
    by_cases he : e.1 = k
    · rw [List.filter_cons_of_pos (by rw [he]; exact h), tget?, tget?, if_pos he, if_pos he]
    · by_cases hq : q e.1 = true
      · rw [List.filter_cons_of_pos (p := fun e : Nat × α => q e.1) hq, tget?, tget?, if_neg he, if_neg he, ih]
      · rw [List.filter_cons_of_neg (p := fun e : Nat × α => q e.1) hq, tget?, if_neg he, ih]

/-- Equal digests of a tick show no mismatch. -/
theorem compareDigests_same (t : Nat) (a : List (BitVec 64)) (s : State) : compareDigests t a a s = s := by
  unfold compareDigests
  generalize List.range 128 = l
  induction l with
  | nil => rfl
  | cons x l ih => rw [List.foldl_cons, if_pos (by rw [beq_self_eq_true, Bool.or_true]), ih]

/-- The standby's part of a digest frame. -/
def digestTaken (f : StayIn) (s : State) : State :=
  if isStandby s && digesting s then noteDigests (leAt f.data 0 8) true (digestList f.data) s else s

theorem noteDigests_first {t : Nat} {d : List (BitVec 64)} {s : State} (h : tget? s.pair.digests (2 * t) = none) :
    tget? (noteDigests t true d s).pair.digests (2 * t + 1) = some d ∧ (noteDigests t true d s).pair.checks = s.pair.checks := by
  have hnote : noteDigests t true d s = { s with pair := { s.pair with
      digests := (tset s.pair.digests (2 * t + 1) d).filter (fun e => decide (2 * t ≤ e.1 + 8)) } } := by
    simp only [noteDigests, if_true, Nat.add_zero, h]
  rw [hnote]
  refine ⟨?_, rfl⟩
  dsimp only
  rw [tget?_filter (q := fun k => decide (2 * t ≤ k + 8)) (decide_eq_true (by omega)), tget?_tset_same]

theorem noteDigests_equal {t : Nat} {d : List (BitVec 64)} {s : State} (h : tget? s.pair.digests (2 * t) = some d) :
    noteDigests t true d s = { s with pair := { s.pair with digests := tdel s.pair.digests (2 * t) } } := by
  simp only [noteDigests, if_true, Nat.add_zero, h, compareDigests_same]

theorem digest_row (h : FromPartner p 7 f s) :
    (isStandby s = false ∨ digesting s = false → leaves (.digest p f) s (fun t => t.pair = s.pair)) ∧
    (isStandby s = true → digesting s = true →
      (tget? s.pair.digests (2 * leAt f.data 0 8) = none → leaves (.digest p f) s (fun t =>
        tget? t.pair.digests (2 * leAt f.data 0 8 + 1) = some (digestList f.data) ∧ t.pair.checks = s.pair.checks)) ∧
      (tget? s.pair.digests (2 * leAt f.data 0 8) = some (digestList f.data) → leaves (.digest p f) s (fun t =>
        t.pair = { s.pair with digests := tdel s.pair.digests (2 * leAt f.data 0 8) }))) := by
  obtain ⟨u, t, hu, ht, hexec, -⟩ := receive_fromPartner h (by decide) (by decide) .bytes (digestTaken f)
  have hexec : exec (.digest p f) s = .next t := congrArg Host.Outcome.next hexec
  refine ⟨fun hno => ⟨t, hexec, ?_⟩, fun hs hd => ⟨fun hnone => ⟨t, hexec, ?_⟩, fun hsome => ⟨t, hexec, ?_⟩⟩⟩
  · have hskip : ¬ (isStandby u && digesting u) = true := by
      rw [sends_standby hu, sends_digesting hu, Bool.and_eq_true]
      exact fun hc => hno.elim (fun h => absurd (h.symm.trans hc.1) (by decide)) (fun h => absurd (h.symm.trans hc.2) (by decide))
    rw [digestTaken, if_neg hskip] at ht
    exact ht.pair.trans hu.pair
  · rw [digestTaken, if_pos (by rw [sends_standby hu, sends_digesting hu, hs, hd]; rfl)] at ht
    obtain ⟨hdigest, hchecks⟩ := noteDigests_first (d := digestList f.data) (s := u) (hu.pair ▸ hnone)
    exact ⟨by rw [ht.pair, hdigest], by rw [ht.pair, hchecks, hu.pair]⟩
  · rw [digestTaken, if_pos (by rw [sends_standby hu, sends_digesting hu, hs, hd]; rfl), noteDigests_equal (hu.pair ▸ hsome)] at ht
    exact ht.pair.trans (by rw [hu.pair])

/-! ### CHECK (R434) -/

theorem askCheck_new {l t : Nat} (h : ∀ k ∈ s.pair.checks, k.lane ≠ l) :
    askCheck l t s = { s with pair := { s.pair with checks := s.pair.checks ++ [{ lane := l, tick := t }] } } := by
  refine if_neg fun hc => ?_
  obtain ⟨k, hk, he⟩ := List.any_eq_true.1 hc
  exact h k hk (beq_iff_eq.1 he)

/-- A result that leaves the check's other side open. -/
theorem noteResult_open {l : Nat} {g : CheckSt → CheckSt} {k : CheckSt} (h : s.pair.checks = [k]) (hl : k.lane = l)
    (hopen : (g k).own = none ∨ (g k).other = none) :
    noteResult l g s = { s with pair := { s.pair with checks := [g k] } } := by
  have hmap : s.pair.checks.map (fun c => if c.lane = l then g c else c) = [g k] := by
    rw [h, List.map_singleton, if_pos hl]
  rw [noteResult, hmap, settleCheck]
  dsimp only
  rw [List.find?_singleton]
  split
  · next c hc =>
    have hck : g k = c := by
      split at hc
      · exact Option.some.inj hc
      · cases hc
    rw [← hck]
    split
    · next a b ha hb => exact absurd hopen (by rw [ha, hb]; simp)
    · rfl
  · rfl

theorem check_row (c : CheckIn) (h : FromPartner p 8 f s) :
    (c.result = none → (∀ k ∈ s.pair.checks, k.lane ≠ c.lane) → leaves (.check p f c) s (fun t =>
      t.pair = { s.pair with checks := s.pair.checks ++ [{ lane := c.lane, tick := c.tick.toNat }] })) ∧
    (∀ r k, c.result = some r → s.pair.checks = [k] → k.lane = c.lane → k.own = none →
      leaves (.check p f c) s (fun t => t.pair = { s.pair with checks := [{ k with other := some r }] })) := by
  obtain ⟨u, t, hu, ht, hexec, -⟩ := receive_fromPartner h (by decide) (by decide) (.check c) (takeCheck c)
  have hexec : exec (.check p f c) s = .next t := congrArg Host.Outcome.next hexec
  refine ⟨fun hr hnew => ⟨t, hexec, ?_⟩, fun r k hr hk hl hown => ⟨t, hexec, ?_⟩⟩
  · have htake : takeCheck c u = askCheck c.lane c.tick.toNat u := by rw [takeCheck, hr]
    rw [htake, askCheck_new (by rw [hu.pair]; exact hnew)] at ht
    exact ht.pair.trans (by rw [hu.pair])
  · have htake : takeCheck c u = noteResult c.lane (fun x => { x with other := some r }) u := by rw [takeCheck, hr]
    rw [htake, noteResult_open (by rw [hu.pair]; exact hk) hl (.inl hown)] at ht
    exact ht.pair.trans (by rw [hu.pair])

/-! ### SYNC (R432) -/

/-- The standby's part of a sync frame. -/
def syncTaken (l : List CopyItem) (s : State) : State :=
  if isStandby s then
    { l.foldl (writeItem applyItem) s with pair := { (l.foldl (writeItem applyItem) s).pair with copyBad := s.pair.copyBad } }
  else s

theorem sync_row (l : List CopyItem) (h : FromPartner p 9 f s) :
    (isStandby s = false ∨ l = [] → leaves (.sync p f l) s (fun t => t.pair = s.pair ∧ t.mem = s.mem)) ∧
    (∀ a b, isStandby s = true → l = [.memory a b] → permitted s 13 a.toNat b.length true = true →
      leaves (.sync p f l) s (fun t => t.pair = s.pair ∧ t.mem = (storeBytes a.toNat b s).mem)) := by
  obtain ⟨u, t, hu, ht, hexec, -⟩ := receive_fromPartner h (by decide) (by decide) (.sync l) (syncTaken l)
  have hexec : exec (.sync p f l) s = .next t := congrArg Host.Outcome.next hexec
  refine ⟨fun hno => ⟨t, hexec, ?_⟩, fun a b hs hl hp => ⟨t, hexec, ?_⟩⟩
  · have hskip : syncTaken l u = u := by
      obtain hno | rfl := hno
      · exact if_neg (by rw [sends_standby hu, hno]; decide)
      · exact ite_self _
    rw [hskip] at ht
    exact ⟨ht.pair.trans hu.pair, ht.mem.trans hu.mem⟩
  · have hperm : permitted u 13 a.toNat b.length true = true := (sends_permitted hu u.pair ..).trans hp
    have hwrite : l.foldl (writeItem applyItem) u = storeBytes a.toNat b u := by
      rw [hl, List.foldl_cons, List.foldl_nil, writeItem_memory, if_pos hperm]
      rfl
    rw [syncTaken, if_pos (by rw [sends_standby hu, hs]), hwrite] at ht
    exact ⟨ht.pair.trans hu.pair, ht.mem.trans (congrArg (Memory.writeBytes · a.toNat b) hu.mem)⟩

end

/-- Settles O49: the link hands an accepted frame of the partner to its row, and nothing that it sends touches the pair. -/
theorem stayFramesReachThePair : Obligations.StayFramesReachThePair := by
  intro p f s x d freed
  exact ⟨fun ht h => ack_row ht h, fun ht h => hello_row ht h, heartbeat_row, yield_row,
    fun c h => ⟨copy_other h, fun hs hi hlast hst => copy_empty h hs hi hlast hst, fun hs hlast hst => copy_kept h hs hlast hst,
      fun a b hs hi hlast hst => copy_memory h hs hi hlast hst, fun l q ts hs hi hlast hst hm => copy_leg h hs hi hlast hst hm⟩,
    copyAck_row, forward_row, digest_row, fun c h => check_row c h, fun l h => sync_row l h⟩

end Sys2Proof.Proofs.StayMirror
end

section
/-! PROOF. The pair's own rows: protection, the halyard, ownership and self-checks (R422, R424 to R430, R432, R434, R438). -/

namespace Sys2Proof.Proofs.PairOwner

open Sys2Proof Sys2Proof.Machine Sys2Proof.Spec Sys2Proof.Proofs.RegisterFields Sys2Proof.Proofs.StayMirror
  Sys2Proof.Proofs.PairCommands Sys2Proof.Proofs.MastResets

/-! ### Protection (R422, R429, R430, R432) -/

section

variable {s : State}

/-- The pair as protection is dropped for a cause other than a copy timeout. -/
theorem unprotect_pair {cause : Nat} (h : cause ≠ 4) (s : State) :
    (unprotect cause s).pair = { s.pair with sync := 0, cause := cause, copyWait := none } := by
  have hcause : (if s.pair.cause = 2 ∧ cause = 4 then 2 else cause) = cause := if_neg fun hc => h hc.2
  unfold unprotect
  dsimp only
  rw [hcause]
  split
  · simp only [raise_frame, releaseAll_host]
  · simp only [releaseAll_host]

theorem pairHeartbeatLost_row (h : s.pair.seen = true) : leaves .pairHeartbeatLost s (fun t =>
    t.pair.seen = false ∧ t.pair.lost = true ∧ t.pair.sync = 0 ∧ t.pair.cause = 2 ∧ t.pair.copyWait = none ∧
    t.pair.role = s.pair.role) := by
  refine ⟨_, congrArg Host.Outcome.next (if_pos h), ?_⟩
  dsimp only
  rw [unprotect_pair (by decide)]
  simp only [raise_frame, and_self]

theorem pairCopyTimeout_row {w : Nat} (h : s.pair.copyWait = some w) : leaves .pairCopyTimeout s (fun t =>
    t.pair.sync = 0 ∧ t.pair.copyWait = none ∧ t.pair.cause = (if s.pair.cause = 2 then 2 else 4)) := by
  have hexec : exec .pairCopyTimeout s = .next (unprotect 4 (raise 213 [(8, w)] s)) := by
    simp only [exec, execPairCopyTimeout, h]
  have hraise : (raise 213 [(8, w)] s).pair = s.pair := by simp only [raise_frame]
  have hpair : ∀ u : State, (unprotect 4 u).pair =
      { u.pair with sync := 0, cause := if u.pair.cause = 2 then 2 else 4, copyWait := none } := by
    intro u
    unfold unprotect
    simp only [and_true]
    generalize (if u.pair.cause = 2 then 2 else 4) = k
    split
    · simp only [raise_frame, releaseAll_host]
    · simp only [releaseAll_host]
  refine ⟨_, hexec, ?_⟩
  dsimp only
  rw [hpair, hraise]
  exact ⟨rfl, rfl, rfl⟩

theorem pairSyncDone_protects (h : s.pair.sync = 1) (hs : s.pair.seen = true) (he : eligible s = true)
    (hp : partnerFlag s 0 = true) : leaves .pairSyncDone s (fun t =>
      t.pair = { s.pair with syncBytes := 0, sync := 2, cause := 0 }) := by
  refine ⟨_, congrArg Host.Outcome.next ((if_neg (not_not_intro h)).trans (if_pos (by rw [hs, he, hp]; rfl))), ?_⟩
  simp only [raise_frame]

theorem pairSyncDone_fails (h : s.pair.sync = 1) (hs : s.pair.seen = true)
    (hno : eligible s = false ∨ partnerFlag s 0 = false) : leaves .pairSyncDone s (fun t =>
      t.pair = { s.pair with syncBytes := 0, sync := 0, cause := 6, copyWait := none }) := by
  have hskip : ¬ (s.pair.seen && eligible s && partnerFlag s 0) = true := by
    rw [Bool.and_eq_true, Bool.and_eq_true]
    exact fun hc => hno.elim (fun h => absurd (h.symm.trans hc.1.2) (by decide)) (fun h => absurd (h.symm.trans hc.2) (by decide))
  refine ⟨_, congrArg Host.Outcome.next ((if_neg (not_not_intro h)).trans (if_neg hskip)), ?_⟩
  dsimp only
  rw [hs, if_pos rfl, unprotect_pair (by decide)]
  simp only [raise_frame]

theorem bulkSync_refused (h : syncReady s = true) (hm : pairMode s = 2) (ha : s.pair.aligned = false) :
    leaves .bulkSyncStart s (fun t => t.pair.sync = 0 ∧ t.pair.cause = 9) := by
  have hstart : startSync s = unprotect 9 s :=
    (if_neg (by rw [h]; decide)).trans (if_pos ⟨hm, by rw [ha]; rfl⟩)
  refine ⟨_, rfl, ?_⟩
  dsimp only
  rw [hstart, unprotect_pair (by decide)]
  exact ⟨rfl, rfl⟩

theorem bulkSync_starts (h : syncReady s = true) (hm : pairMode s ≠ 2 ∨ s.pair.aligned = true) :
    leaves .bulkSyncStart s (fun t => t.pair.sync = 1 ∧ t.pair.syncStart = tickNow s ∧ t.pair.resynced = []) := by
  have hgo : ¬ (pairMode s = 2 ∧ (!s.pair.aligned) = true) := fun hc =>
    hm.elim (fun h => h hc.1) (fun h => absurd hc.2 (by rw [h]; decide))
  refine ⟨_, congrArg Host.Outcome.next ((if_neg (by rw [h]; decide)).trans (if_neg hgo)), ?_⟩
  simp only [draw_frame, sayPartner_frame, and_self]

end

/-! ### Challenges and the line's faults (R424, R426, R427) -/

section

variable {s : State}

/-- Whether the next challenge may come. -/
def challengeDue (s : State) : Bool :=
  match s.pair.challengeAt with
  | some t => decide (t ≤ tickNow s)
  | none => true

theorem challengeDue_iff (s : State) : challengeDue s = true ↔ ∀ k, s.pair.challengeAt = some k → k ≤ tickNow s := by
  unfold challengeDue
  cases s.pair.challengeAt with
  | none => simp
  | some t => simp

theorem challenge_idle (h : wantsOwner s = false ∨ s.pair.round.isSome = true ∨
    ¬ ∀ k, s.pair.challengeAt = some k → k ≤ tickNow s) (line : HalyardLine) : exec (.challenge line) s = .next s := by
  refine congrArg Host.Outcome.next (if_pos ?_)
  change (!wantsOwner s || !challengeDue s || s.pair.round.isSome) = true
  rw [← challengeDue_iff] at h
  obtain h | h | h := h
  · rw [h]
    rfl
  · rw [h, Bool.or_true]
  · rw [Bool.eq_false_iff.2 h, Bool.not_false, Bool.or_true, Bool.true_or]

theorem lineFault_shown (cause : Nat) (u : State) :
    fget (fset .PAIR_HALYARD_fault cause u) .PAIR_HALYARD_fault = cause % 2 ^ 2 :=
  fget_fset_same u .PAIR_HALYARD_fault cause 0 0 (by decide) (by decide)

/-- A fault of the line is shown and told. -/
theorem halyardFault_spec (cause read : Nat) (u : State) : (halyardFault cause read u).pair = u.pair ∧
    (halyardFault cause read u).tdm = u.tdm ∧ (halyardFault cause read u).time = u.time ∧
    OnlyAt (RegId.addr .PAIR_HALYARD :: eventCounters) u (halyardFault cause read u) ∧
    fget (halyardFault cause read u) .PAIR_HALYARD_fault = cause % 2 ^ 2 := by
  unfold halyardFault
  refine ⟨by simp only [raise_frame, fset_frame], by simp only [raise_frame, fset_frame], by simp only [raise_frame, fset_frame],
    (onlyAt_fset .PAIR_HALYARD_fault cause u 0 0 List.mem_cons_self).then ((onlyAt_raise ..).mono (List.subset_cons_self _ _)), ?_⟩
  exact (fget_raise _ _ _ .PAIR_HALYARD_fault _ _ (by decide) (by decide)).trans (lineFault_shown cause u)

theorem challenge_made (hw : wantsOwner s = true) (hd : ∀ k, s.pair.challengeAt = some k → k ≤ tickNow s)
    (hr : s.pair.round = none) :
    exec (.challenge .works) s = .next { s with pair := { s.pair with
      lineLow := false, round := some { entered := true, eligible := true } } } ∧
    exec (.challenge .heldLow) s = .next s ∧
    leaves (.challenge .heldHigh) s (fun t => fget t .PAIR_HALYARD_fault = 2 ∧ t.pair = { s.pair with
      lineLow := false, challengeAt := some (tickNow s + fget s .PAIR_CTRL_rechallenge_ticks) }) := by
  have hgo : ¬ (!wantsOwner s || !challengeDue s || s.pair.round.isSome) = true := by
    rw [hw, (challengeDue_iff s).2 hd, hr]
    decide
  obtain ⟨hpair, -, -, -, hfault⟩ := halyardFault_spec 2 (fget s .PAIR_HALYARD_last_claim) { s with pair := { s.pair with
    lineLow := false, challengeAt := some (tickNow s + fget s .PAIR_CTRL_rechallenge_ticks) } }
  exact ⟨congrArg Host.Outcome.next (if_neg hgo), congrArg Host.Outcome.next (if_neg hgo),
    _, congrArg Host.Outcome.next (if_neg hgo), hfault, hpair⟩

theorem halyardStart_idle (h : pairMode s = 0 ∨ s.pair.round.isSome = true ∨ inReset s = true) :
    exec .halyardStart s = .next s := by
  refine congrArg Host.Outcome.next (if_pos ?_)
  obtain h | h | h := h
  · simp [h]
  · simp [h]
  · simp [h]

theorem halyardStart_row (hm : pairMode s ≠ 0) (hr : s.pair.round = none) (hreset : inReset s = false) :
    exec .halyardStart s = .next { s with pair := { s.pair with
      lineLow := false, round := some {
        entered := s.pair.owner && eligible s && !s.pair.yielding && ownClaim s != 0, eligible := eligible s } } } :=
  congrArg Host.Outcome.next (if_neg (by simp [hm, hr, hreset]))

theorem halyardStuckLow_idle (h : pairMode s = 0 ∨ s.pair.round.isSome = true ∨ s.pair.lineLow = true) :
    exec .halyardStuckLow s = .next s := by
  refine congrArg Host.Outcome.next (if_pos ?_)
  obtain h | h | h := h
  · simp [h]
  · simp [h]
  · simp [h]

theorem halyardStuckLow_row (hm : pairMode s ≠ 0) (hr : s.pair.round = none) (hl : s.pair.lineLow = false) :
    leaves .halyardStuckLow s (fun t => fget t .PAIR_HALYARD_fault = 1 ∧ t.pair = { s.pair with lineLow := true }) := by
  obtain ⟨hpair, -, -, -, hfault⟩ := halyardFault_spec 1 (fget s .PAIR_HALYARD_last_claim) { s with pair := { s.pair with lineLow := true } }
  exact ⟨_, congrArg Host.Outcome.next (if_neg (by simp [hm, hr, hl])), hfault, hpair⟩

end

/-! ### Yields and the loss of ownership (R425, R428, R438) -/

section

variable {s : State}

theorem endYield_spec (status eff : Nat) (s : State) :
    (endYield status eff s).pair = { s.pair with yielding := false, yieldCmds := [] } ∧ (endYield status eff s).tdm = s.tdm := by
  have hend : ∀ (u : State) (c : Nat × Bool),
      (if c.2 then timedResult c.1 status eff u else finishPair c.1 status eff u).pair = u.pair ∧
      (if c.2 then timedResult c.1 status eff u else finishPair c.1 status eff u).tdm = u.tdm := by
    intro u c
    split
    · simp only [timedResult_frame, and_self]
    · simp only [finishPair, complete_frame, and_self]
  unfold endYield
  exact ⟨foldl_unchanged (part := (·.pair)) (fun u c => (hend u c).1) _ _,
    foldl_unchanged (part := (·.tdm)) (fun u c => (hend u c).2) _ _⟩

theorem pairYieldFailed_row (hy : s.pair.yielding = true) (ho : s.pair.owner = true) :
    leaves .pairYieldFailed s (fun t => t.pair = { s.pair with yielding := false, yieldCmds := [] }) := by
  refine ⟨_, congrArg Host.Outcome.next (if_pos ⟨hy, ho⟩), ?_⟩
  simp only [raise_frame, endYield_spec]

theorem releaseTx_tdm (port q n : Nat) (s : State) : (releaseTx port q n s).tdm = s.tdm := by
  unfold releaseTx
  dsimp only
  split
  · rfl
  · exact foldl_unchanged (part := (·.tdm)) (fun s x => by simp only [pushTx_frame]) _ _

theorem releaseAll_tdm (n : Nat) (s : State) : (releaseAll n s).tdm = s.tdm := by
  unfold releaseAll
  exact foldl_unchanged (part := (·.tdm)) (fun s p => foldl_unchanged (part := (·.tdm)) (fun s q => releaseTx_tdm ..) _ _) _ _

theorem unprotect_tdm (cause : Nat) (s : State) : (unprotect cause s).tdm = s.tdm := by
  unfold unprotect
  dsimp only
  generalize (if s.pair.cause = 2 ∧ cause = 4 then 2 else cause) = k
  split
  · simp only [raise_frame, releaseAll_tdm]
  · simp only [releaseAll_tdm]

/-- The pair without ownership, its protection apart. -/
def lostPair (x : Pair) : Pair :=
  { x with owner := false, role := .standby, checks := [], resume := none, late := none, copied := [], acks := [] }

theorem sleepChannels_keeps (s : State) : (sleepChannels s).pair = s.pair ∧ (sleepChannels s).tdm = s.tdm := by
  unfold sleepChannels
  split
  · exact ⟨rfl, rfl⟩
  · exact ⟨rfl, rfl⟩

/-- Ownership lost: the outputs are off, and the yield that waited for it has ended. -/
theorem loseOwner_spec (read : Nat) (s : State) :
    (∃ x, StayFrames.ProtectionOnly (lostPair s.pair) x ∧
      (loseOwner read s).pair = { x with yielding := false, yieldCmds := [] }) ∧
    (loseOwner read s).tdm = (tdmRelease s).tdm := by
  have key : ∀ (c : Prop) [Decidable c] (cause : Nat) (u : State),
      let t := endYield 0 (tickNow s) (sleepChannels (if c then u else unprotect cause u))
      (∃ x, StayFrames.ProtectionOnly u.pair x ∧ t.pair = { x with yielding := false, yieldCmds := [] }) ∧ t.tdm = u.tdm := by
    intro c _ cause u t
    obtain ⟨hpair, htdm⟩ := endYield_spec 0 (tickNow s) (sleepChannels (if c then u else unprotect cause u))
    obtain ⟨hsleep, hsleepTdm⟩ := sleepChannels_keeps (if c then u else unprotect cause u)
    rw [hsleep] at hpair
    rw [hsleepTdm] at htdm
    refine ⟨⟨_, ?_, hpair⟩, htdm.trans ?_⟩
    · split
      · exact .refl _
      · exact StayFrames.protectionOnly_unprotect ..
    · split
      · rfl
      · exact unprotect_tdm ..
  have hlost : ∀ (l : List (Nat × Nat)) (v : State), (raise 252 l (fbump .PAIR_COUNT_losses 1 v)).pair = v.pair ∧
      (raise 252 l (fbump .PAIR_COUNT_losses 1 v)).tdm = v.tdm := fun l v => by
    simp only [raise_frame, fbump_frame, and_self]
  obtain ⟨hpair, htdm⟩ := hlost [(4, read), (8, tickNow s)] (tdmRelease { s with pair := lostPair s.pair })
  obtain ⟨hx, ht⟩ := key (s.pair.sync = 0) (if s.pair.lost then 2 else 7)
    (raise 252 [(4, read), (8, tickNow s)] (fbump .PAIR_COUNT_losses 1 (tdmRelease { s with pair := lostPair s.pair })))
  rw [hpair] at hx
  exact ⟨hx, ht.trans htdm⟩

theorem tdmRelease_driven (s : State) : ∀ g ∈ (tdmRelease s).tdm.groups, g.2.driven = [] := by
  intro g hg
  obtain ⟨g', -, rfl⟩ := List.mem_map.1 hg
  rfl

end

/-! ### Rounds (R424 to R426) -/

section

variable {s : State} {r : Round} {others : BitVec 8}

/-- A round told: counted, its claim shown, event 250, and a claim of neither device as a fault of the line. -/
def roundTold (read own partner entered won : Nat) (s : State) : State :=
  let t := raise 250 [(4, read), (4, entered), (4, won)]
    (fset .PAIR_HALYARD_last_claim read (fbump .PAIR_HALYARD_rounds 1 s))
  if read = own ∨ read = partner then t else halyardFault 3 read t

theorem roundTold_keeps (read own partner entered won : Nat) (s : State) :
    (roundTold read own partner entered won s).pair = s.pair ∧ (roundTold read own partner entered won s).tdm = s.tdm ∧
    (roundTold read own partner entered won s).time = s.time ∧
    OnlyAt (RegId.addr .PAIR_HALYARD :: eventCounters) s (roundTold read own partner entered won s) := by
  have htold : ∀ l : List (Nat × Nat),
      let t := raise 250 l (fset .PAIR_HALYARD_last_claim read (fbump .PAIR_HALYARD_rounds 1 s))
      t.pair = s.pair ∧ t.tdm = s.tdm ∧ t.time = s.time ∧ OnlyAt (RegId.addr .PAIR_HALYARD :: eventCounters) s t := by
    intro l t
    have honly : OnlyAt (RegId.addr .PAIR_HALYARD :: eventCounters) s
        (fset .PAIR_HALYARD_last_claim read (fbump .PAIR_HALYARD_rounds 1 s)) :=
      (onlyAt_fbump .PAIR_HALYARD_rounds 1 s 0 0 List.mem_cons_self).then
        (onlyAt_fset .PAIR_HALYARD_last_claim read _ 0 0 List.mem_cons_self)
    exact ⟨by simp only [t, raise_frame, fset_frame, fbump_frame], by simp only [t, raise_frame, fset_frame, fbump_frame],
      by simp only [t, raise_frame, fset_frame, fbump_frame], honly.then ((onlyAt_raise ..).mono (List.subset_cons_self _ _))⟩
  obtain ⟨hpair, htdm, htime, honly⟩ := htold [(4, read), (4, entered), (4, won)]
  unfold roundTold
  dsimp only
  split
  · exact ⟨hpair, htdm, htime, honly⟩
  · obtain ⟨gpair, gtdm, gtime, gonly, -⟩ := halyardFault_spec 3 read
      (raise 250 [(4, read), (4, entered), (4, won)] (fset .PAIR_HALYARD_last_claim read (fbump .PAIR_HALYARD_rounds 1 s)))
    exact ⟨gpair.trans hpair, gtdm.trans htdm, gtime.trans htime, honly.then gonly⟩

/-- A round that reads the device's own claim is counted with that claim. -/
theorem roundTold_own (own partner entered won : Nat) (s : State) : counted s (roundTold own own partner entered won s) .PAIR_HALYARD_rounds ∧
    fget (roundTold own own partner entered won s) .PAIR_HALYARD_last_claim = own % 2 ^ 8 := by
  have htold : roundTold own own partner entered won s = raise 250 [(4, own), (4, entered), (4, won)]
      (fset .PAIR_HALYARD_last_claim own (fbump .PAIR_HALYARD_rounds 1 s)) := if_pos (.inl rfl)
  rw [htold]
  constructor
  · rw [counted, fget_raise _ _ _ .PAIR_HALYARD_rounds _ _ (by decide) (by decide),
      fget_fset_beside _ .PAIR_HALYARD_last_claim .PAIR_HALYARD_rounds _ _ _ rfl (by decide) (by decide) (by decide) (by decide)]
    exact counted_fbump s .PAIR_HALYARD_rounds 0 (by decide) (by decide)
  · rw [fget_raise _ _ _ .PAIR_HALYARD_last_claim _ _ (by decide) (by decide)]
    exact fget_fset_same _ .PAIR_HALYARD_last_claim _ _ _ (by decide) (by decide)

theorem halyardRound_idle (h : s.pair.round = none) : exec (.halyardRound others) s = .next s := by
  simp only [exec, execHalyardRound, h]

/-- A round that the device won: as owner it stays, else its guard slot begins. -/
def roundWon (s : State) : State := { s with pair := { s.pair with gaining := !s.pair.owner } }

/-- A round as its release slot ends, at the claim that was read. -/
def roundEnd (entered : Bool) (read own : Nat) (won : Bool) (s : State) : State :=
  let s1 := { s with pair := { s.pair with round := none } }
  let t := roundTold read own (partnerClaim s) (if entered then 1 else 0) (if won then 1 else 0)
    (if s.pair.owner && read != own then loseOwner read s1 else s1)
  if won then roundWon t else afterLoss read (entered && !s.pair.owner) t

theorem exec_halyardRound (h : s.pair.round = some r) : exec (.halyardRound others) s =
    .next (roundEnd r.entered (if r.entered then max (ownClaim s) others.toNat else others.toNat) (ownClaim s)
      (r.entered && (if r.entered then max (ownClaim s) others.toNat else others.toNat) == ownClaim s) s) := by
  simp only [exec, execHalyardRound, h]
  rfl

theorem exec_halyardRound_won (h : s.pair.round = some r) (he : r.entered = true) (ho : others.toNat ≤ ownClaim s) :
    exec (.halyardRound others) s = .next (roundWon (roundTold (ownClaim s) (ownClaim s) (partnerClaim s) 1 1
      { s with pair := { s.pair with round := none } })) := by
  have hread : (if r.entered then max (ownClaim s) others.toNat else others.toNat) = ownClaim s :=
    (if_pos he).trans (Nat.max_eq_left ho)
  have hkeep : ¬ (s.pair.owner && ownClaim s != ownClaim s) = true := by rw [bne_self_eq_false, Bool.and_false]; decide
  rw [exec_halyardRound h, hread, he, beq_self_eq_true]
  unfold roundEnd
  dsimp only
  rw [if_neg hkeep]
  rfl

theorem halyardRound_won (h : s.pair.round = some r) (he : r.entered = true) (ho : others.toNat ≤ ownClaim s) :
    leaves (.halyardRound others) s (fun t => counted s t .PAIR_HALYARD_rounds ∧
      fget t .PAIR_HALYARD_last_claim = ownClaim s ∧ t.pair = { s.pair with round := none, gaining := !s.pair.owner }) := by
  have hown : ownClaim s % 2 ^ 8 = ownClaim s := Nat.mod_eq_of_lt (RegisterWrites.bitsOf_lt ..)
  obtain ⟨hpair, -⟩ := roundTold_keeps (ownClaim s) (ownClaim s) (partnerClaim s) 1 1 { s with pair := { s.pair with round := none } }
  obtain ⟨hcount, hclaim⟩ := roundTold_own (ownClaim s) (partnerClaim s) 1 1 { s with pair := { s.pair with round := none } }
  refine ⟨_, exec_halyardRound_won h he ho, hcount, hclaim.trans hown, ?_⟩
  dsimp only [roundWon]
  rw [hpair]

/-- What a round lost leaves of the device's ownership. -/
def ownershipLost (read : Nat) (s : State) : State :=
  if s.pair.owner then loseOwner read { s with pair := { s.pair with round := none } } else { s with pair := { s.pair with round := none } }

theorem exec_halyardRound_lost (h : s.pair.round = some r) (ho : ownClaim s < others.toNat) :
    exec (.halyardRound others) s = .next (afterLoss others.toNat (r.entered && !s.pair.owner)
      (roundTold others.toNat (ownClaim s) (partnerClaim s) (if r.entered then 1 else 0) 0 (ownershipLost others.toNat s))) := by
  have hread : (if r.entered then max (ownClaim s) others.toNat else others.toNat) = others.toNat := by
    rw [Nat.max_eq_right ho.le, ite_self]
  have hlost : (s.pair.owner && others.toNat != ownClaim s) = s.pair.owner := by rw [bne_iff_ne.2 ho.ne', Bool.and_true]
  rw [exec_halyardRound h, hread, beq_eq_false_iff_ne.2 ho.ne', Bool.and_false]
  unfold roundEnd
  dsimp only
  rw [hlost]
  rfl

theorem afterLoss_spec (read : Nat) (entered : Bool) (s : State) :
    (afterLoss read entered s).pair.round = s.pair.round ∧ (afterLoss read entered s).pair.owner = s.pair.owner ∧
    (afterLoss read entered s).pair.gaining = s.pair.gaining ∧ (afterLoss read entered s).tdm = s.tdm ∧
    (s.pair.role = .standby → (afterLoss read entered s).pair.role = .standby) ∧
    (entered = true → (afterLoss read entered s).pair.challengeAt = some (tickNow s + fget s .PAIR_CTRL_rechallenge_ticks)) := by
  refine ⟨rfl, rfl, rfl, rfl, fun h => ?_, fun h => by rw [afterLoss, h]; rfl⟩
  rw [afterLoss, h]
  rfl

theorem lossTold_spec (read own partner e : Nat) (entered : Bool) (u : State) {t : State}
    (ht : t = afterLoss read entered (roundTold read own partner e 0 u)) :
    t.pair.round = u.pair.round ∧ t.pair.owner = u.pair.owner ∧ t.pair.gaining = u.pair.gaining ∧ t.tdm = u.tdm ∧
    (u.pair.role = .standby → t.pair.role = .standby) ∧
    (entered = true → t.pair.challengeAt = some (tickNow u + fget u .PAIR_CTRL_rechallenge_ticks)) := by
  obtain ⟨hpair, htdm, htime, honly⟩ := roundTold_keeps read own partner e 0 u
  obtain ⟨hround, howner, hgaining, hgroups, hrole, hnext⟩ := afterLoss_spec read entered (roundTold read own partner e 0 u)
  rw [hpair] at hround howner hgaining hrole
  rw [ht]
  refine ⟨hround, howner, hgaining, hgroups.trans htdm, hrole, fun he => ?_⟩
  rw [hnext he, honly.fget (f := .PAIR_CTRL_rechallenge_ticks) (by decide), tickNow, htime]
  rfl

theorem halyardRound_lost (h : s.pair.round = some r) (ho : ownClaim s < others.toNat) :
    leaves (.halyardRound others) s (fun t => t.pair.round = none ∧
      t.pair.owner = false ∧ t.pair.gaining = s.pair.gaining ∧
      (s.pair.owner = true → t.pair.role = .standby ∧ ∀ g ∈ t.tdm.groups, g.2.driven = []) ∧
      (s.pair.owner = false → r.entered = true →
        t.pair.challengeAt = some (tickNow s + fget s .PAIR_CTRL_rechallenge_ticks))) := by
  obtain ⟨hround, howner, hgaining, htdm, hrole, hnext⟩ :=
    lossTold_spec others.toNat (ownClaim s) (partnerClaim s) (if r.entered then 1 else 0) (r.entered && !s.pair.owner)
      (ownershipLost others.toNat s) rfl
  refine ⟨_, exec_halyardRound_lost h ho, ?_⟩
  dsimp only
  rw [hround, howner, hgaining, htdm]
  by_cases hs : s.pair.owner = true
  · have hlost : ownershipLost others.toNat s = loseOwner others.toNat { s with pair := { s.pair with round := none } } := if_pos hs
    obtain ⟨⟨x, ⟨sync, cause, wait, start, rfl⟩, hpair⟩, hdriven⟩ := loseOwner_spec others.toNat { s with pair := { s.pair with round := none } }
    rw [hlost, hpair] at hrole
    rw [hlost, hpair, hdriven]
    exact ⟨rfl, rfl, rfl, fun _ => ⟨hrole rfl, tdmRelease_driven _⟩, fun hno => absurd (hs.symm.trans hno) (by decide)⟩
  · have hkept : ownershipLost others.toNat s = { s with pair := { s.pair with round := none } } := if_neg hs
    rw [hkept] at hnext
    rw [hkept]
    exact ⟨rfl, Bool.eq_false_iff.2 hs, rfl, fun hyes => absurd hyes hs, fun hno he => hnext (by rw [hno, he]; rfl)⟩

end

/-! ### Ownership gained (R425, R428, R436) -/

section

variable {s : State}

/-- What of the pair says who owns the halyard, and when its channels go on. -/
def ownership (s : State) : Bool × Bool × Role × Option Nat × Option Nat × Option (Nat × List Nat) :=
  (s.pair.owner, s.pair.gaining, s.pair.role, s.pair.challengeAt, s.pair.resume, s.pair.late)

theorem ownership_congr {t : State} (h : t.pair = s.pair) : ownership t = ownership s := by
  rw [ownership, h]
  rfl

theorem ownership_unprotect (cause : Nat) (s : State) : ownership (unprotect cause s) = ownership s := by
  obtain ⟨_, _, _, _, h⟩ := StayFrames.protectionOnly_unprotect cause s
  rw [ownership, h]
  rfl

theorem endResyncs_ownership (s : State) : ownership (endResyncs s) = ownership s := by
  unfold endResyncs
  exact (foldl_unchanged (part := ownership) (fun s i => ownership_congr (by simp only [fset_frame])) _ _).trans rfl

theorem modPeer_pair (k : Nat) (f : Peer → Peer) (s : State) : (modPeer k f s).pair = s.pair := by
  simp only [modPeer, putPeer_frame]

theorem takeMirrored_ownership (s : State) : ownership (takeMirrored s) = ownership s := by
  unfold takeMirrored
  exact (foldl_unchanged (part := ownership) (fun s x => ownership_congr (modPeer_pair ..)) _ _).trans rfl

theorem unsync_pair (k cause : Nat) (s : State) : (unsync k cause s).pair = s.pair := by
  unfold unsync
  dsimp only
  split
  · simp only [putPeer_frame]
  · simp only [raise_frame, putPeer_frame]

theorem startReceiver_pair (k : Nat) (s : State) : (startReceiver k s).pair = s.pair := by
  rw [startReceiver, unsync_pair, modPeer_pair]

theorem startSender_pair (k : Nat) (epoch : BitVec 8) (s : State) : (startSender k epoch s).pair = s.pair := by
  rw [startSender, reanchor, modPeer_pair]

theorem peersRestart_pair (n : Nat) (s : State) : (peersRestart n s).pair = s.pair := by
  unfold peersRestart
  refine foldl_unchanged (part := (·.pair)) (fun s k => ?_) _ _
  dsimp only
  split
  · rw [startReceiver_pair, startSender_pair]
    rfl
  · rfl

theorem pushMast_pair (port : Nat) (b : Bytes) (s : State) : (pushMast port b s).pair = s.pair := by
  unfold pushMast
  split
  · simp only [pushTx_frame]
  · unfold pushSvc
    dsimp only
    split
    · rfl
    · rfl

theorem announcePort_pair (s : State) (port : Nat) : (announcePort s port).pair = s.pair := by
  have hpush : ∀ (c : Prop) [Decidable c] (b : Bytes) (u : State),
      (if c then u else pushMast port b u).pair = u.pair := by
    intro c _ b u
    split
    · rfl
    · exact pushMast_pair ..
  exact (hpush _ _ _).trans (hpush _ _ _)

/-- The channels that go live late, as those of lanes out of step (R435). -/
def lateChans (s : State) : List Nat := if pairMode s = 2 then unsyncedChans s else []

/-- The device as it takes ownership, before the rest of a gain follows. -/
def gained (s : State) : State :=
  let out := lateChans s
  tdmGain { out.foldl (fun s n => modChan n (fun c => { c with dormant := true }) s) s with pair := { s.pair with
    owner := true, gaining := false, role := .active, checks := [], listenOver := false, challengeAt := none
    resume := some (if pairMode s = 1 then tickNow s + 2 else tickNow s + 1)
    late := if out.isEmpty then none else some (tickNow s + 2, out), copied := [] } }

/-- The gain of ownership told, and protection dropped. -/
def gainTold (s : State) : State :=
  let t := raise 251 [(4, ownClaim s), (8, tickNow s)] (fbump .PAIR_COUNT_gains 1 (endResyncs (gained s)))
  if s.pair.sync = 0 then t else unprotect (if s.pair.lost then 2 else 7) t

theorem ownership_gainTold (s : State) : ownership (gainTold s) = ownership (gained s) := by
  have htold : ∀ (l : List (Nat × Nat)) (u : State), ownership (raise 251 l (fbump .PAIR_COUNT_gains 1 u)) = ownership u :=
    fun l u => ownership_congr (by simp only [raise_frame, fbump_frame])
  unfold gainTold
  dsimp only
  split
  · rw [htold, endResyncs_ownership]
  · rw [ownership_unprotect, htold, endResyncs_ownership]

/-- The peers after a gain, by mirroring mode: each restarts, or its streams start anew. -/
def gainPeers (first : Bool) (mode : Nat) (s : State) : State :=
  if first then s
  else if mode = 1 then peersRestart 16 (takeMirrored s)
  else if mode = 2 then (s.peers.map (fun p => p.1)).foldl (fun s k => reanchor k s) s else s

theorem ownership_gainPeers (first : Bool) (mode : Nat) (s : State) : ownership (gainPeers first mode s) = ownership s := by
  unfold gainPeers
  split
  · rfl
  · split
    · rw [ownership_congr (peersRestart_pair ..), takeMirrored_ownership]
    · split
      · exact foldl_unchanged (f := fun s k => reanchor k s) (part := ownership) (fun s k => rfl) _ _
      · rfl

theorem gainOwner_eq (s : State) : gainOwner s =
    [0, 1].foldl announcePort (gainPeers (s.pair.role == .listening) (pairMode s) (gainTold s)) := rfl

theorem ownership_gainOwner (s : State) : ownership (gainOwner s) = (true, false, .active, none,
    some (if pairMode s = 1 then tickNow s + 2 else tickNow s + 1),
    if (lateChans s).isEmpty then none else some (tickNow s + 2, lateChans s)) := by
  rw [gainOwner_eq, foldl_unchanged (part := ownership) (fun s p => ownership_congr (announcePort_pair ..)), ownership_gainPeers,
    ownership_gainTold]
  rfl

theorem pairOwnerGained_row (h : s.pair.gaining = true) : leaves .pairOwnerGained s (fun t => t.pair.owner = true ∧
    t.pair.gaining = false ∧ t.pair.role = .active ∧ t.pair.challengeAt = none ∧
    t.pair.resume = some (tickNow s + (if pairMode s = 1 then 2 else 1)) ∧
    (pairMode s = 2 → unsyncedChans s ≠ [] → t.pair.late = some (tickNow s + 2, unsyncedChans s))) := by
  have hown := ownership_gainOwner s
  simp only [ownership, Prod.mk.injEq] at hown
  obtain ⟨howner, hgaining, hrole, hnext, hresume, hlate⟩ := hown
  refine ⟨_, congrArg Host.Outcome.next (if_pos h), howner, hgaining, hrole, hnext, ?_, fun hmode hsome => ?_⟩
  · rw [hresume]
    split
    · rfl
    · rfl
  · have hout : lateChans s = unsyncedChans s := if_pos hmode
    have hne : ¬ (unsyncedChans s).isEmpty = true := by rwa [List.isEmpty_iff]
    rw [hlate, hout, if_neg hne]

end

/-! ### The end of listening and of self-checks (R426, R434) -/

section

variable {s : State} {k : CheckSt}

theorem listeningEnd_over (hr : s.pair.role = .listening) (hd : s.pair.heldTick + fget s .PAIR_CTRL_startup_ticks ≤ tickNow s) :
    exec .listeningEnd s = .next { s with pair := { s.pair with listenOver := true } } :=
  congrArg Host.Outcome.next (if_pos ⟨hr, hd⟩)

theorem listeningEnd_idle (h : s.pair.role ≠ .listening ∨ tickNow s < s.pair.heldTick + fget s .PAIR_CTRL_startup_ticks) :
    exec .listeningEnd s = .next s :=
  congrArg Host.Outcome.next (if_neg fun hc => h.elim (fun hr => hr hc.1) (fun hd => absurd hc.2 (Nat.not_le.2 hd)))

theorem pairYieldFailed_idle (h : s.pair.yielding = false ∨ s.pair.owner = false) : exec .pairYieldFailed s = .next s :=
  congrArg Host.Outcome.next (if_neg fun hc => h.elim (fun hy => Bool.false_ne_true (hy.symm.trans hc.1))
    (fun ho => Bool.false_ne_true (ho.symm.trans hc.2)))

theorem selfCheck_idle {ok : Bool} (h : ∀ k ∈ s.pair.checks, k.own.isSome = true) : exec (.selfCheck ok) s = .next s := by
  have hnone : s.pair.checks.find? (fun c => c.own.isNone) = none :=
    List.find?_eq_none.2 fun k hk => by rw [← Option.not_isSome, h k hk]; decide
  simp only [exec, execSelfCheck, hnone]

theorem selfCheck_row {ok : Bool} (h : s.pair.checks = [k]) (hown : k.own = none) (hother : k.other = none) :
    leaves (.selfCheck ok) s (fun t => t.pair = { s.pair with checks := [{ k with own := some ok }] }) := by
  have hfind : s.pair.checks.find? (fun c => c.own.isNone) = some k := by
    rw [h, List.find?_singleton, hown]
    rfl
  have hsent : ∀ (c : CheckIn) (x : Lane), (sendCheck c (putLane k.lane x s)).pair = s.pair := fun c x => by
    simp only [sendCheck, draw_frame, sayPartner_frame]
    rfl
  refine ⟨_, by simp only [exec, execSelfCheck, hfind]; rfl, ?_⟩
  dsimp only
  rw [noteResult_open (by rw [hsent]; exact h) rfl (.inr hother), hsent]

theorem selfCheckTimeout_idle (h : ∀ k ∈ s.pair.checks, k.other.isSome = true ∨ tickNow s < k.tick + 2) :
    exec .selfCheckTimeout s = .next s := by
  have hnone : s.pair.checks.find? (fun c => c.other.isNone && decide (c.tick + 2 ≤ tickNow s)) = none :=
    List.find?_eq_none.2 fun k hk hc => by
      obtain ⟨hn, hd⟩ := Bool.and_eq_true_iff.1 hc
      obtain hs | hl := h k hk
      · rw [← Option.not_isSome, hs] at hn
        exact Bool.false_ne_true hn
      · exact absurd (of_decide_eq_true hd) (Nat.not_le.2 hl)
  simp only [exec, execSelfCheckTimeout, hnone]

theorem selfCheckTimeout_row (h : s.pair.checks = [k]) (hown : k.own = none) (hother : k.other = none) (hd : k.tick + 2 ≤ tickNow s) :
    leaves .selfCheckTimeout s (fun t => t.pair = { s.pair with checks := [{ k with other := some false }] }) := by
  have hfind : s.pair.checks.find? (fun c => c.other.isNone && decide (c.tick + 2 ≤ tickNow s)) = some k := by
    rw [h, List.find?_singleton, hother, decide_eq_true hd]
    rfl
  refine ⟨_, by simp only [exec, execSelfCheckTimeout, hfind]; rfl, ?_⟩
  dsimp only
  rw [noteResult_open h rfl (.inl hown)]

end

/-- Settles O50: protection and its causes, challenges and rounds of the halyard, the line's faults, ownership gained, lost
and kept, and self-checks. -/
theorem thePairKeepsOneOwner : Obligations.ThePairKeepsOneOwner := by
  unfold Obligations.ThePairKeepsOneOwner
  intro s
  have hbeat : s.pair.seen = false → exec .pairHeartbeatLost s = .next s := fun h =>
    congrArg Host.Outcome.next (if_neg (by rw [h]; decide))
  have hcopy : s.pair.copyWait = none → exec .pairCopyTimeout s = .next s := fun h => by
    simp only [exec, execPairCopyTimeout, h]
  have hdone : s.pair.sync ≠ 1 → exec .pairSyncDone s = .next s := fun h => congrArg Host.Outcome.next (if_pos h)
  have hbulk : syncReady s = false → exec .bulkSyncStart s = .next s := fun h =>
    congrArg Host.Outcome.next (if_pos (by rw [h]; rfl))
  have hgain : s.pair.gaining = false → exec .pairOwnerGained s = .next s := fun h =>
    congrArg Host.Outcome.next (if_neg (by rw [h]; decide))
  exact ⟨hbeat, pairHeartbeatLost_row, hcopy, fun _ => pairCopyTimeout_row, hdone,
    fun h => ⟨pairSyncDone_protects h, pairSyncDone_fails h⟩, hbulk, fun h => ⟨bulkSync_refused h, bulkSync_starts h⟩,
    ⟨challenge_idle, challenge_made⟩, halyardStart_idle, halyardStart_row, halyardStuckLow_idle, halyardStuckLow_row,
    fun _ => ⟨halyardRound_idle, fun _ hr => ⟨halyardRound_won hr, halyardRound_lost hr⟩⟩, hgain, pairOwnerGained_row,
    listeningEnd_over, listeningEnd_idle, pairYieldFailed_idle, pairYieldFailed_row,
    fun _ => ⟨selfCheck_idle, fun _ => selfCheck_row⟩, selfCheckTimeout_idle, fun _ => selfCheckTimeout_row⟩

end Sys2Proof.Proofs.PairOwner
end

section
/-! PROOF. Where pair commands and the rows of ageing have their own effect (R438, R439, R446, R448, R454, R455, R459, R460). -/

namespace Sys2Proof.Proofs.PairAgeing

open Sys2Proof Sys2Proof.Machine Sys2Proof.Spec Sys2Proof.Proofs.RegisterFields Sys2Proof.Proofs.RegisterPlaces
  Sys2Proof.Proofs.Commands Sys2Proof.Proofs.PairCommands Sys2Proof.Proofs.MastResets Sys2Proof.Proofs.Resets

/-! ### PAIR_HOLD and PAIR_RESYNC (R439) -/

section

variable {c : Cmd} {rest : List Cmd} {s : State}

theorem pairHold_wellFormed (hc : cmdForm c.desc = true) (hlen : (cmdPayload c.desc).length = 4)
    (hle : leAt (cmdPayload c.desc) 0 1 ≤ 1) (hzero : slice (cmdPayload c.desc) 1 3 = [0, 0, 0]) (u : State) :
    pairHold c u = some (finishPair c.seq 0 0 { u with pair := { u.pair with held := leAt (cmdPayload c.desc) 0 1 == 1 } }) := by
  have hform : pairForm c 4 = true := by simpa [pairForm, hc] using hlen
  unfold pairHold
  rw [if_neg]
  rw [hform, hzero]
  simpa [allZero] using hle

theorem pairHold_row (hc : cmdForm c.desc = true) (hn : CommandNext 0x41 c rest s) (hlen : (cmdPayload c.desc).length = 4)
    (hle : leAt (cmdPayload c.desc) 0 1 ≤ 1) (hzero : slice (cmdPayload c.desc) 1 3 = [0, 0, 0]) :
    ∃ t, exec .pairHold s = .next t ∧ t.pair.held = (leAt (cmdPayload c.desc) 0 1 == 1) ∧ t.host.cmds = rest ∧
      t.sess = s.sess ∧ t.chans = s.chans := by
  obtain ⟨g, ht, hcmds, -, -⟩ := exec_completing hn (i := .pairHold) rfl (pairHold_wellFormed hc hlen hle hzero _) rfl rfl rfl
  exact ⟨_, ht, rfl, hcmds, rfl, rfl⟩

/-- What the start of a bulk sync leaves: commands, completions and role, and no pair protected by it. -/
structure Resynced (s t : State) : Prop where
  host : t.host = s.host
  mast : t.mast = s.mast
  role : t.pair.role = s.pair.role
  wait : t.pair.copyWait = none
  sync : t.pair.sync ≠ 2

theorem resynced_startSync {u : State} (hwait : u.pair.copyWait = none) (hsync : u.pair.sync = 0) : Resynced u (startSync u) := by
  unfold startSync
  split
  · exact ⟨rfl, rfl, rfl, hwait, by rw [hsync]; decide⟩
  · split
    · obtain ⟨hhost, hmast, k, hpair⟩ := unprotect_host 9 u
      exact ⟨hhost, hmast, by rw [hpair], by rw [hpair], by rw [hpair]; exact (by decide : (0 : Nat) ≠ 2)⟩
    · exact ⟨by simp only [draw_frame, sayPartner_frame], by simp only [draw_frame, sayPartner_frame],
        by simp only [draw_frame, sayPartner_frame], by simpa only [draw_frame, sayPartner_frame] using hwait,
        by simp only [draw_frame, sayPartner_frame]; decide⟩

theorem pairResync_active (hc : cmdForm c.desc = true) (hp : cmdPayload c.desc = []) {u : State} (ha : u.pair.role = .active) :
    pairResync c u = some (finishPair c.seq 0 0 (startSync (unprotect 7 u))) := by
  unfold pairResync
  rw [pairForm_nil hc hp, if_neg (by decide), if_neg (not_not_intro ha)]

theorem pairResync_row (hc : cmdForm c.desc = true) (hn : CommandNext 0x42 c rest s) (hp : cmdPayload c.desc = [])
    (ha : s.pair.role = .active) : ∃ t, exec .pairResync s = .next t ∧ t.host.cmds = rest ∧ t.pair.role = .active ∧
      t.pair.sync ≠ 2 ∧ t.pair.copyWait = none := by
  obtain ⟨hhost, hmast, k, hpair⟩ := unprotect_host 7 (takeCmd c.seq s)
  have h := resynced_startSync (u := unprotect 7 (takeCmd c.seq s)) (by rw [hpair]) (by rw [hpair])
  have hrole : (unprotect 7 (takeCmd c.seq s)).pair.role = .active := by
    rw [hpair]
    exact ha
  obtain ⟨g, ht, hcmds, -, -⟩ := exec_completing hn (i := .pairResync) rfl (pairResync_active hc hp ha) (by rw [h.host, hhost])
    (by rw [h.host, hhost]; rfl) (by rw [h.mast, hmast]; rfl)
  exact ⟨_, ht, hcmds, h.role.trans hrole, h.sync, h.wait⟩

end

/-! ### Hours and the planner (R446, R448) -/

section

variable {s : State}

theorem hourEnd_row (h : inReset s = false) : ∃ t, exec .hourEnd s = .next t ∧ t.age.hours = s.age.hours + 1 ∧
    t.age.tempTicks = 0 ∧
    (s.mast.fw = true → t.age.he = planSum s.age.he (hourFactor s.age.tempSum s.age.tempTicks)) :=
  ⟨_, congrArg Host.Outcome.next (if_neg (by rw [h]; exact Bool.false_ne_true)), rfl, rfl, fun hf => if_pos hf⟩

theorem advanceSteps_none {u : State} (h : u.age.steps = none) : advanceSteps u = u := by
  rw [advanceSteps, h]

theorem fget_foldl_range {n : Nat} {f : State → Nat → State} {g : Fld} (hf : ∀ s, ∀ i < n, fget (f s i) g = fget s g) (s : State) :
    fget ((List.range n).foldl f s) g = fget s g :=
  List.foldlRecOn (motive := fun t => fget t g = fget s g) _ _ rfl fun t ht i hi => (hf t i (List.mem_range.1 hi)).trans ht

/-- What a part of a run's end leaves: the run, the clock steps and the count of runs. -/
structure RunStands (s t : State) : Prop where
  run : t.age.run = s.age.run
  steps : t.age.steps = s.age.steps
  plans : fget t .AGE_COUNT_plans = fget s .AGE_COUNT_plans

theorem RunStands.refl (s : State) : RunStands s s := ⟨rfl, rfl, rfl⟩

theorem RunStands.trans {s t u : State} (h : RunStands s t) (g : RunStands t u) : RunStands s u :=
  ⟨g.run.trans h.run, g.steps.trans h.steps, g.plans.trans h.plans⟩

theorem RunStands.foldl {α : Type} {f : State → α → State} (hf : ∀ s x, RunStands s (f s x)) (l : List α) (s : State) :
    RunStands s (l.foldl f s) :=
  List.foldlRecOn (motive := fun t => RunStands s t) _ _ (.refl s) fun t ht x _ => ht.trans (hf t x)

theorem RunStands.of_age {t : State} (h : t.age = s.age) (hp : fget t .AGE_COUNT_plans = fget s .AGE_COUNT_plans) : RunStands s t :=
  ⟨by rw [h], by rw [h], hp⟩

theorem runStands_raise (src : Nat) (l : List (Nat × Nat)) (s : State) : RunStands s (raise src l s) :=
  .of_age (by simp only [raise_frame]) (fget_raise _ _ _ .AGE_COUNT_plans _ _ (by decide) (by decide))

theorem runStands_addPoints (l : List (Nat × Int)) (s : State) : RunStands s (l.foldl addPoint s) :=
  .foldl (f := addPoint) (fun _ _ => ⟨rfl, rfl, fget_congr rfl ..⟩) l s

theorem runStands_forecast (s : State) : RunStands s (forecast s) := by
  have hage : ∀ (f : State → Nat → Nat) (u : State),
      ((List.range 15).foldl (fun s i => fset .AGE_ISL_eol_ps (f s i) s i) u).age = u.age := fun f u =>
    foldl_unchanged (part := (·.age)) (fun s i => by simp only [fset_frame]) _ _
  have hplans : ∀ (f : State → Nat → Nat) (u : State),
      fget ((List.range 15).foldl (fun s i => fset .AGE_ISL_eol_ps (f s i) s i) u) .AGE_COUNT_plans = fget u .AGE_COUNT_plans :=
    fun f u => fget_foldl_range (fun v i hi => fget_fset_other v .AGE_ISL_eol_ps .AGE_COUNT_plans _ i 0 0 0
      (addr_ne (by decide) (by decide) (by decide) hi (by decide))) u
  unfold forecast
  refine .of_age ?_ ?_
  · simp only [fset_frame]
    exact hage _ s
  · exact (fget_fset_other _ .AGE_LIFE_years_to_floor .AGE_COUNT_plans _ _ _ _ _ (by decide)).trans (hplans _ s)

theorem runStands_storeAgeRecord (s : State) : RunStands s (storeAgeRecord s) := by
  unfold storeAgeRecord
  refine .of_age (foldl_unchanged (part := (·.age)) (fun s i => by simp only [setWord_frame]) _ _) ?_
  exact fget_foldl_range (fun v i hi => fget_setWord_other v .AGE_COUNT_plans _ 0 0
    (addr_ne (by decide) (by decide) (by decide) hi (by decide))) s

theorem runStands_forecastLow (s : State) : RunStands s (forecastLow s) := by
  unfold forecastLow
  refine .foldl (fun t i => ?_) _ _
  split
  · exact runStands_raise ..
  · exact .refl t

theorem runStands_finishAge (seq status eff : Nat) (s : State) : RunStands s (finishAge seq status eff s) :=
  .of_age (by simp only [finishAge, complete_frame]) (fget_congr (by simp only [finishAge, complete_frame]) ..)

/-- The points and the forecast of a run that ends (R451). -/
def runPointed (r : RunSt) (s : State) : State :=
  forecast ((r.first.filter (fun p => (islandMargin s p.1).isSome)).foldl addPoint s)

/-- A run that has ended, counted. -/
def runCounted (s : State) : State := fbump .AGE_COUNT_plans 1 { s with age := { s.age with run := none, low := [] } }

theorem runCounted_counts (s : State) : counted s (runCounted s) .AGE_COUNT_plans :=
  StayLinks.counted_of_regs (r := { s with age := { s.age with run := none, low := [] } }) rfl
    (counted_fbump _ .AGE_COUNT_plans 0 (by decide) (by decide))

/-- A run's end told and recorded, and its command complete. -/
def runTold (cmd : Option Nat) (l : List (Nat × Nat)) (s : State) : State :=
  match cmd with
  | some seq => finishAge seq 0 0 (forecastLow (raise 16 l (storeAgeRecord s)))
  | none => forecastLow (raise 16 l (storeAgeRecord s))

theorem runStands_runTold (cmd : Option Nat) (l : List (Nat × Nat)) (s : State) : RunStands s (runTold cmd l s) := by
  have h : RunStands s (forecastLow (raise 16 l (storeAgeRecord s))) :=
    ((runStands_storeAgeRecord s).trans (runStands_raise ..)).trans (runStands_forecastLow _)
  unfold runTold
  split
  · exact h.trans (runStands_finishAge ..)
  · exact h

theorem endRun_told {r : RunSt} (hx : r.exit_ = none) (s : State) : ∃ l, endRun r s = runTold r.cmd l (runCounted (runPointed r s)) := by
  unfold endRun
  rw [hx]
  exact ⟨_, rfl⟩

theorem endRun_ended {r : RunSt} (hx : r.exit_ = none) (s : State) : (endRun r s).age.run = none ∧
    (endRun r s).age.steps = s.age.steps ∧ counted s (endRun r s) .AGE_COUNT_plans := by
  obtain ⟨l, htold⟩ := endRun_told hx s
  have hpoints : RunStands s (runPointed r s) := (runStands_addPoints _ s).trans (runStands_forecast _)
  have h := runStands_runTold r.cmd l (runCounted (runPointed r s))
  have hrun : ∀ u : State, (runCounted u).age.run = none ∧ (runCounted u).age.steps = u.age.steps := fun u => ⟨rfl, rfl⟩
  rw [htold]
  refine ⟨h.run.trans (hrun _).1, h.steps.trans ((hrun _).2.trans hpoints.steps), ?_⟩
  rw [counted, h.plans, ← hpoints.plans]
  exact runCounted_counts _

theorem runStep_ends {r : RunSt} (hsteps : s.age.steps = none) (hrun : s.age.run = some r) (hwait : r.wait = 0)
    (hend : r.ending = true) : runStep s = endRun r s := by
  rw [runStep, hrun]
  dsimp only
  rw [if_neg (by rw [hsteps, hwait]; simp), if_pos hend]

theorem plannerRun_row {r : RunSt} (hfw : s.mast.fw = true) (hup : s.mast.down = false) (hsteps : s.age.steps = none)
    (hrun : s.age.run = some r) (hwait : r.wait = 0) (hend : r.ending = true) (hx : r.exit_ = none) :
    ∃ t, exec .plannerRun s = .next t ∧ t.age.run = none ∧ counted s t .AGE_COUNT_plans := by
  obtain ⟨hended, hrest, hcounted⟩ := endRun_ended hx s
  have hgo : advanceSteps (runStep (advanceSteps s)) = endRun r s := by
    rw [advanceSteps_none hsteps, runStep_ends hsteps hrun hwait hend, advanceSteps_none (hrest.trans hsteps)]
  exact ⟨endRun r s, congrArg Host.Outcome.next ((if_pos (by rw [hfw, hup]; rfl)).trans hgo), hended, hcounted⟩

end

/-! ### Reef entry (R454, R455) -/

/-- What reef entry leaves once it is noted: the mode, its boundary, and no cause due. -/
structure ReefStands (s t : State) : Prop where
  reefed : t.age.reefed = s.age.reefed
  b0 : t.age.b0 = s.age.b0
  due : t.age.due = s.age.due

theorem ReefStands.refl (s : State) : ReefStands s s := ⟨rfl, rfl, rfl⟩

theorem ReefStands.trans {s t u : State} (h : ReefStands s t) (g : ReefStands t u) : ReefStands s u :=
  ⟨g.reefed.trans h.reefed, g.b0.trans h.b0, g.due.trans h.due⟩

theorem ReefStands.ite {r s t : State} {c : Prop} [Decidable c] (h : ReefStands r s) (g : ReefStands r t) :
    ReefStands r (if c then s else t) := by
  split
  · exact h
  · exact g

theorem ReefStands.foldl {α : Type} {f : State → α → State} (hf : ∀ s x, ReefStands s (f s x)) (l : List α) (s : State) :
    ReefStands s (l.foldl f s) :=
  List.foldlRecOn (motive := fun t => ReefStands s t) _ _ (.refl s) fun t ht x _ => ht.trans (hf t x)

theorem ReefStands.of_age {s t : State} (h : t.age = s.age) : ReefStands s t := ⟨by rw [h], by rw [h], by rw [h]⟩

section
variable (n l : Nat) (s : State)

theorem reef_raise (src : Nat) (fields : List (Nat × Nat)) : ReefStands s (raise src fields s) := .of_age (by simp only [raise_frame])
theorem reef_modChan (f : Channel → Channel) : ReefStands s (modChan n f s) := .of_age (by simp only [modChan_frame])
theorem reef_modSess (h : Nat) (f : Session → Session) : ReefStands s (modSess h f s) := .of_age (by simp only [modSess_frame])
theorem reef_modLeg (f : Leg → Leg) : ReefStands s (modLeg n l f s) := reef_modChan ..
theorem reef_modEc (f : Ec → Ec) : ReefStands s (modEc n f s) := reef_modChan ..
theorem reef_complete (seq status : Nat) (d : Bytes) : ReefStands s (complete seq status d s) := .of_age (by simp only [complete_frame])
theorem reef_forcePark : ReefStands s (forcePark n s) := reef_modChan ..
theorem reef_setEntries (st : EntryState) : ReefStands s (setEntries n st s) := .of_age (by simp only [setEntries_frame])
theorem reef_startMove (m : Move) : ReefStands s (startMove n m s) := .of_age (by simp only [startMove_frame])

theorem reef_statBump (id k : Nat) : ReefStands s (statBump n id k s) := reef_modChan ..

theorem reef_refuseModify (r : ModReq) (status : Nat) : ReefStands s (refuseModify r status s) :=
  .of_age (by simp only [refuseModify_frame])

theorem reef_fitWindows : ReefStands s (fitWindows n s) := reef_modEc ..

theorem reef_keepCheckpoints : ReefStands s (keepCheckpoints n l s) := by
  unfold keepCheckpoints
  exact .ite (reef_modLeg ..) (reef_modLeg ..)

theorem reef_stopStream (cause : Nat) : ReefStands s (stopStream n l cause s) := by
  unfold stopStream noteRestart
  exact .ite (.refl s) (((reef_modLeg ..).trans (reef_statBump ..)).trans (reef_raise ..))

theorem reef_modifyRoom (old : State) : ReefStands s (modifyRoom old n l s) := by
  have h : ∀ (c : Bool) (f : StoreRoom → StoreRoom), ReefStands s (if c then modRoom n l f s else s) := fun c f =>
    .ite (reef_modLeg ..) (.refl s)
  unfold modifyRoom
  exact .ite ((h _ _).trans (reef_modLeg ..)) (h _ _)

theorem reef_modifyLeg (old : State) (side : Nat) : ReefStands s (modifyLeg old n l side [] s) := by
  have hcut : ∀ c : Prop, ∀ [Decidable c], ReefStands s (if c then cutEvent n l s else s) := fun c _ =>
    .ite (reef_modLeg ..) (.refl s)
  have hstop : ∀ c : Prop, ∀ [Decidable c], ∀ t f, ReefStands s t →
      ReefStands s (if c then stopStream n l 1 (modLeg n l f t) else t) := fun c _ t f ht =>
    .ite ((ht.trans (reef_modLeg ..)).trans (reef_stopStream ..)) ht
  unfold modifyLeg
  simp only [LaneFaults.actLeg_nil]
  exact .ite (hstop _ _ _ (hcut _)) ((hstop _ _ _ (hcut _)).trans (reef_modifyRoom ..))

theorem reef_modifyEc (old : State) (side : Nat) (ps : List (Nat × Nat × Word)) : ReefStands s (modifyEc old n side ps s) := by
  have h : ∀ c : Prop, ∀ [Decidable c], ReefStands s (if c then ecReset n s else s) := fun c _ =>
    .ite (reef_modChan ..) (.refl s)
  unfold modifyEc
  dsimp only
  exact ReefStands.trans (.ite ((h _).trans (reef_modEc ..)) (h _)) (reef_fitWindows ..)

/-- A modify undone: entries and channel alone (R38). -/
theorem reef_applyModify (r : ModReq) (hr : r.ps = []) (m : Modified) : ReefStands s (applyModify r m s) := by
  have hentries : ReefStands s (match (sessAt s r.handle).partner with
      | some p => modSess p (fun e => { e with params := m.q }) (modSess r.handle (fun e => { e with key := m.key, params := m.p }) s)
      | none => modSess r.handle (fun e => { e with key := m.key, params := m.p }) s) := by
    split
    · exact (reef_modSess ..).trans (reef_modSess ..)
    · exact reef_modSess ..
  unfold applyModify
  rw [hr]
  dsimp only
  split
  · exact hentries
  · exact .ite hentries ((((hentries.trans (reef_modChan ..)).trans (reef_modifyEc ..)).trans (reef_modifyLeg ..)).trans
      (reef_modifyLeg ..))

theorem reef_unsendSig (side : Nat) (w : ModWas) (ps : List (Nat × Nat × Word)) : ReefStands s (unsendSig n l side w ps s) := by
  unfold unsendSig
  split
  · exact .refl s
  · exact ⟨rfl, rfl, rfl⟩

theorem reef_undoModify (m : Move) : ReefStands s (undoModify n m s) := by
  unfold undoModify
  split
  · next r w hr hw =>
    have hsig : ReefStands s (unsendSig n (1 - legOfHandle (chanAt s n) r.handle) 1 w r.ps
        (unsendSig n (legOfHandle (chanAt s n) r.handle) 0 w r.ps s)) := (reef_unsendSig ..).trans (reef_unsendSig ..)
    dsimp only
    refine .ite ?_ ((hsig.trans (reef_applyModify _ _ rfl _)).trans (reef_modChan ..))
    refine ReefStands.trans ?_ (reef_modChan ..)
    refine ReefStands.trans ?_ (reef_modSess ..)
    split
    · exact hsig.trans (reef_modSess ..)
    · exact hsig
  · exact .refl s

theorem reef_unmove (m : Move) : ReefStands s (unmove n m s) := by
  have h : ∀ f : Channel → Channel, ReefStands s (setEntries n .active (modChan n f s)) := fun f =>
    (reef_modChan ..).trans (reef_setEntries ..)
  have hdrop : ∀ u : State, ReefStands u (dropReefMove n u) := fun u => ⟨rfl, rfl, rfl⟩
  unfold unmove
  exact ((ReefStands.ite ((h _).trans (reef_forcePark ..)) (h _)).trans (reef_raise ..)).trans (hdrop _)

theorem reef_moveBusy (m : Move) : ReefStands s (moveBusy m s) := by
  have h : ReefStands s (match m.cmd with
      | some seq => finish seq 9 m.addressed 0 s
      | none => s) := by
    split
    · exact reef_complete ..
    · exact .refl s
  unfold moveBusy
  dsimp only
  split
  · exact h.trans (reef_refuseModify ..)
  · exact h

theorem reef_abandonMove : ReefStands s (abandonMove n s) := by
  unfold abandonMove
  split
  · exact .refl s
  · exact ((reef_unmove ..).trans (reef_undoModify ..)).trans (reef_moveBusy ..)

theorem reef_sendBye : ReefStands s (sendBye n l s) := by
  have hsend : ∀ h source plus d, ReefStands s (sendLeg h source plus d s) := fun h source plus d =>
    .of_age (by simp only [sendLeg, draw_frame, pushTx_frame])
  unfold sendBye
  exact .ite (hsend ..) (.refl s)

theorem reef_freeEntry (h : Nat) : ReefStands s (freeEntry h s) := by
  have hfree : ∀ u v : State, ReefStands s u → v.age = u.age → ReefStands s v := fun u v hu hv => hu.trans (.of_age hv)
  unfold freeEntry
  refine hfree (match (sessAt s h).partner with
    | some p => modSess p (fun e => if e.partner = some h then { e with partner := none } else e) s
    | none => s) _ ?_ rfl
  split
  · exact reef_modSess ..
  · exact .refl s

end

section
variable (n : Nat) (s : State)

/-- A channel that parks back on its lane. -/
def parkBack : State :=
  match (chanAt s n).move with
  | some m => undoModify n m (unmove n m s)
  | none => s

/-- A channel's legs ended, its entries parked, and the channel gone. -/
def parkGone (close : Bool) : State :=
  let t := keepLeg n 1 (keepLeg n 0 (if close then sendBye n 1 (sendBye n 0 s) else s))
  { t with chans := tdel t.chans n }

/-- The command of a move that ends with its channel. -/
def parkBusy (move : Option Move) : State :=
  match move with
  | some m => moveBusy m s
  | none => s

/-- A park told where it was forced, its move's command answered, and entries that close freed. -/
def parkTold (p : ParkReq) (c : Channel) (l : List (Nat × Nat)) : State :=
  let t := parkBusy (if p.forced then raise 148 l s else s) c.move
  if p.close then freeEntry c.oth (freeEntry c.acc t) else t

/-- The command of a park complete. -/
def parkDone (seq : Option Nat) (d : Bytes) : State :=
  match seq with
  | some seq => finishAs d seq s
  | none => s

/-- A channel's park with all that ends with it. -/
def parkFor (p : ParkReq) : State :=
  parkDone (parkTold (parkGone n (parkBack n s) p.close) p (chanAt s n)
      [(2, n), (1, (chanAt (parkBack n s) n).lane), (4, (chanAt s n).acc)]) p.seq
    (entryData (parkBack n s) p.addressed (if p.close then 0 else 1) (tickNow s))

theorem parkNow_eq : parkNow n s = ((chanAt s n).park.map (parkFor n s)).getD s := by
  unfold parkNow
  dsimp only
  split
  · next h => rw [h]; rfl
  · next p h => rw [h]; rfl

theorem reef_parkBack : ReefStands s (parkBack n s) := by
  unfold parkBack
  split
  · exact (reef_unmove ..).trans (reef_undoModify ..)
  · exact .refl s

theorem reef_parkGone (close : Bool) : ReefStands s (parkGone n s close) := by
  have hleft : ∀ t u : State, ReefStands s t → u.age = t.age → ReefStands s u := fun t u ht hu => ht.trans (.of_age hu)
  have hsaid : ReefStands s (if close then sendBye n 1 (sendBye n 0 s) else s) :=
    .ite ((reef_sendBye ..).trans (reef_sendBye ..)) (.refl s)
  unfold parkGone
  exact hleft (keepLeg n 1 (keepLeg n 0 (if close then sendBye n 1 (sendBye n 0 s) else s))) _
    ((hsaid.trans (reef_modSess ..)).trans (reef_modSess ..)) rfl

theorem reef_parkBusy (move : Option Move) : ReefStands s (parkBusy s move) := by
  unfold parkBusy
  split
  · exact reef_moveBusy ..
  · exact .refl s

theorem reef_parkTold (p : ParkReq) (c : Channel) (l : List (Nat × Nat)) : ReefStands s (parkTold s p c l) := by
  have hbusy : ReefStands s (parkBusy (if p.forced then raise 148 l s else s) c.move) :=
    (ReefStands.ite (reef_raise ..) (.refl s)).trans (reef_parkBusy ..)
  unfold parkTold
  exact .ite ((hbusy.trans (reef_freeEntry ..)).trans (reef_freeEntry ..)) hbusy

theorem reef_parkDone (seq : Option Nat) (d : Bytes) : ReefStands s (parkDone s seq d) := by
  unfold parkDone
  split
  · exact reef_complete ..
  · exact .refl s

theorem reef_parkNow : ReefStands s (parkNow n s) := by
  rw [parkNow_eq]
  cases (chanAt s n).park with
  | none => exact .refl s
  | some p =>
    exact (((reef_parkBack ..).trans (reef_parkGone ..)).trans (reef_parkTold ..)).trans (reef_parkDone ..)

theorem reef_parkAtOnce : ReefStands s (parkAtOnce n s) := (reef_modChan ..).trans (reef_parkNow ..)

/-- A channel among those whose moves reef entry waits for. -/
def reefJoin (s : State) : State := { s with age := { s.age with moves := s.age.moves ++ [n] } }

theorem reef_join : ReefStands s (reefJoin n s) := ⟨rfl, rfl, rfl⟩

theorem reef_reefKept (rc : Option Nat) : ReefStands s (reefKept rc n s) := by
  unfold reefKept
  split
  · exact reef_forcePark ..
  · next c hc =>
    dsimp only
    refine .ite (reef_join n s) (.ite (reef_abandonMove ..) ?_)
    split
    · exact ((reef_abandonMove ..).trans (reef_startMove ..)).trans (reef_join n _)
    · exact (reef_abandonMove ..).trans (reef_forcePark ..)

theorem reef_reefChannel (rc : Option Nat) : ReefStands s (reefChannel rc s n) := by
  unfold reefChannel
  exact .ite ((((reef_keepCheckpoints ..).trans (reef_keepCheckpoints ..)).trans (reef_fitWindows ..)).trans (reef_reefKept ..))
    (reef_parkAtOnce ..)

theorem reef_refuseAdmissions (every : Bool) : ReefStands s (refuseAdmissions every s) := by
  have hadd : ∀ (e : Effect) (t : State), ReefStands t (addEffect e t) := fun e t => ⟨rfl, rfl, rfl⟩
  unfold refuseAdmissions
  refine ReefStands.trans (t := { s with mast := { s.mast with effects := [] } }) ⟨rfl, rfl, rfl⟩ (.foldl (fun t e => ?_) _ _)
  split
  · exact .ite (reef_complete ..) (hadd ..)
  · exact hadd ..

theorem reef_setServo (st : ServoState) (cause : Nat) : ReefStands s (setServo st cause s) := by
  have hset : ReefStands s { s with time := { s.time with srv := st, cause := cause } } := ⟨rfl, rfl, rfl⟩
  unfold setServo
  exact .ite hset (hset.trans (reef_raise ..))

theorem reef_reefHoldover : ReefStands s (reefHoldover s) := by
  unfold reefHoldover enterHoldover
  refine .ite ⟨rfl, rfl, rfl⟩ (.ite (.refl s) (.ite (.ite (.refl s) ⟨rfl, rfl, rfl⟩) ?_))
  exact ReefStands.trans (.of_age (by rfl)) (reef_setServo ..)

theorem reef_reefSettled : ReefStands s (reefSettled s) := by
  unfold reefSettled
  refine .ite ?_ (.refl s)
  have hshown : ∀ (k v : Nat) (u : State), ReefStands u (fset .AGE_REEF_kept v { u with age := { u.age with
      entering := false, stopped := BitVec.ofNat 15 k } }) := fun k v u => by
    constructor <;> simp only [fset_frame]
  exact (hshown ..).trans (reef_raise ..)

end

/-- Reef entry noted at its boundary. -/
def reefNoted (rc : Option Nat) (t : Nat) (s : State) : State :=
  { s with age := { s.age with
    reefed := true, cluster := rc.getD 0xFF, b0 := t, due := 0, ask := 0, askCmds := [], entering := true, moves := [] } }

/-- Reef entry noted and shown. -/
def reefShown (drop causes : Nat) (s : State) : State :=
  fset .AGE_REEF_parked drop (fset .AGE_REEF_causes causes (fbump .AGE_COUNT_reefs 1 s))

/-- What reef entry does to the channels, the trunk and the servo, and to those who asked for it. -/
def reefCarried (rc : Option Nat) (cmds : List Nat) (t : Nat) (s : State) : State :=
  reefSettled (cmds.foldl (fun s seq => finishAge seq 0 t s) (noteIbi (reefHoldover (peersReef
    (refuseAdmissions rc.isNone ((s.chans.map (fun c => c.1)).foldl (reefChannel rc) s))))))

theorem reef_reefCarried (rc : Option Nat) (cmds : List Nat) (t : Nat) (s : State) : ReefStands s (reefCarried rc cmds t s) := by
  have hchans : ReefStands s ((s.chans.map (fun c => c.1)).foldl (reefChannel rc) s) :=
    .foldl (fun s n => reef_reefChannel n s rc) _ s
  have hpeers : ∀ u : State, ReefStands u (peersReef u) := fun u => ⟨rfl, rfl, rfl⟩
  have hnote : ∀ u : State, ReefStands u (noteIbi u) := fun u => .of_age (by simp only [noteIbi_frame])
  unfold reefCarried
  exact (((((hchans.trans (reef_refuseAdmissions ..)).trans (hpeers _)).trans (reef_reefHoldover _)).trans (hnote _)).trans
    (.foldl (fun s seq => reef_complete ..) _ _)).trans (reef_reefSettled _)

theorem reefEntry_eq (s : State) : ∃ drop, reefEntry s = reefCarried (chooseReef s) s.age.askCmds (tickNow s)
    (reefShown drop s.age.due.toNat (reefNoted (chooseReef s) (tickNow s) (rigAbort (reefRun s)))) := ⟨_, rfl⟩

theorem reefEntry_row {s : State} (hdue : s.age.due ≠ 0) (hno : s.age.reefed = false) (hrun : isRunning s = true) :
    ∃ t, exec .reefEntry s = .next t ∧ t.age.reefed = true ∧ t.age.b0 = tickNow s ∧ t.age.due = 0 := by
  obtain ⟨drop, heq⟩ := reefEntry_eq s
  have hshown : ∀ (causes : Nat) (u : State), ReefStands u (reefShown drop causes u) := fun causes u =>
    .of_age (by simp only [reefShown, fset_frame, fbump_frame])
  have hnoted : ∀ (rc : Option Nat) (t : Nat) (u : State), (reefNoted rc t u).age.reefed = true ∧ (reefNoted rc t u).age.b0 = t ∧
      (reefNoted rc t u).age.due = 0 := fun rc t u => ⟨rfl, rfl, rfl⟩
  obtain ⟨hreefed, hb0, hend⟩ := hnoted (chooseReef s) (tickNow s) (rigAbort (reefRun s))
  have h := (hshown s.age.due.toNat (reefNoted (chooseReef s) (tickNow s) (rigAbort (reefRun s)))).trans
    (reef_reefCarried (chooseReef s) s.age.askCmds (tickNow s) _)
  have hgo : (s.age.due != 0 && !s.age.reefed && isRunning s) = true := by
    rw [bne_iff_ne.2 hdue, hno, hrun]
    rfl
  refine ⟨reefEntry s, congrArg Host.Outcome.next (if_pos hgo), ?_⟩
  rw [heq]
  exact ⟨h.reefed.trans hreefed, h.b0.trans hb0, h.due.trans hend⟩

/-! ### The wake-only state (R459, R460) -/

section

variable {s : State}

theorem enterWake_spec (cause : Nat) (s : State) : (enterWake cause s).age.wake = some cause ∧ (enterWake cause s).age.vid = 0 ∧
    (enterWake cause s).sess = [] := by
  refine ⟨rfl, rfl, ?_⟩
  unfold enterWake
  exact foldl_unchanged (part := (·.sess)) (fun t p => by simp only [setWord_frame]) _ _

theorem wakeOnlyEnter_asked (h : s.age.wakeAsk = some 2) :
    ∃ t, exec .wakeOnlyEnter s = .next t ∧ t.age.wake = some 0 ∧ t.age.vid = 0 ∧ t.sess = [] :=
  ⟨_, congrArg Host.Outcome.next (if_pos h), enterWake_spec 0 s⟩

theorem wakeOnlyEnter_hot (h : s.age.wakeAsk ≠ some 2) (hr : s.age.reefed = true) (hhot : 100 ≤ s.age.veryHot) :
    ∃ t, exec .wakeOnlyEnter s = .next t ∧ t.age.wake = some 1 ∧ t.age.vid = 0 ∧ t.sess = [] :=
  ⟨_, congrArg Host.Outcome.next ((if_neg h).trans (if_pos ⟨hr, hhot⟩)), enterWake_spec 1 s⟩

theorem bootAgain (sel : BitVec 2) (s : State) : (startBoot sel (resetDevice 3 s)).age.wake = none ∧
    (startBoot sel (resetDevice 3 s)).boot.stage = .supply ∧ (startBoot sel (resetDevice 3 s)).boot.sel = sel := by
  obtain ⟨hboot, hage, -⟩ := startBoot_spec sel (resetDevice 3 s)
  have hwake : (resetDevice 3 s).age.wake = none := rfl
  rw [hboot, hage]
  exact ⟨hwake, rfl, rfl⟩

theorem wakeOnlyExit_matched (sel : BitVec 2) (h : s.age.wake = some 0)
    (hhit : fget s .SVC_WAKE_magic_hit = 1 ∨ fget s .SVC_WAKE_pattern_hit ≠ 0) :
    ∃ t, exec (.wakeOnlyExit true sel) s = .next t ∧ t.age.wake = none ∧ t.boot.stage = .supply ∧ t.boot.sel = sel := by
  have hmatch : (fbit s .SVC_WAKE_magic_hit || fget s .SVC_WAKE_pattern_hit != 0) = true := by
    rw [Bool.or_eq_true]
    obtain hm | hp := hhit
    · exact .inl (by rw [fbit, hm]; rfl)
    · exact .inr (bne_iff_ne.2 hp)
  exact ⟨_, congrArg Host.Outcome.next (if_pos (.inl ⟨h, rfl, hmatch⟩)), bootAgain sel s⟩

theorem wakeOnlyExit_cooled (sel : BitVec 2) (h : s.age.wake = some 1) :
    ∃ t, exec (.wakeOnlyExit false sel) s = .next t ∧ t.age.wake = none ∧ t.boot.stage = .supply ∧ t.boot.sel = sel :=
  ⟨_, congrArg Host.Outcome.next (if_pos (.inr ⟨h, rfl⟩)), bootAgain sel s⟩

end

/-- Settles O53: the pair commands by way of O22 and the start of a bulk sync; of ageing, hours, a run's end, reef entry and
the wake-only state. -/
theorem pairAndAgeingCommandsComplete : Obligations.PairAndAgeingCommandsComplete := by
  unfold Obligations.PairAndAgeingCommandsComplete
  refine ⟨fun s c rest hc => ?_, fun s => ⟨hourEnd_row, fun r => plannerRun_row, reefEntry_row, wakeOnlyEnter_asked,
    wakeOnlyEnter_hot, fun sel => ⟨wakeOnlyExit_matched sel, wakeOnlyExit_cooled sel⟩⟩⟩
  obtain ⟨hswitch, -, -, hquery⟩ := pairCommandsActOnThePair s c rest hc
  refine ⟨fun hn hp ht ha hs hy => ?_, fun hn hlen hle hzero => pairHold_row hc hn hlen hle hzero,
    fun hn hp ha => pairResync_row hc hn hp ha, fun hn hp => ?_⟩
  · obtain ⟨-, -, -, hyield⟩ := hswitch hn hp ht
    obtain ⟨t, hexec, ⟨hcmds, -⟩, hyielding, hwaiting⟩ := hyield ha hs hy
    exact ⟨t, hexec, hyielding, hwaiting, hcmds⟩
  · obtain ⟨t, hexec, -, hpair, hcpls⟩ := hquery hn hp
    exact ⟨t, hexec, hpair, hcpls⟩

end Sys2Proof.Proofs.PairAgeing
end
